-- ==== Sys2Proof/Word.lean ====
section
/-! DEFINITION. Sys2Proof/Word.lean: the plain words of the model: a byte, a keyed table, a sparse memory. -/

namespace Sys2Proof

/-- A byte (00_scope R7: byte 0 is at the lowest address). -/
abbrev Byte := BitVec 8

/-- A keyed table of things the part holds: key and value pairs, keys strictly rising (`Machine.Tab.wf`). -/
abbrev Tab (α : Type) := List (Nat × α)

/-- A sparse memory: address and byte pairs in canonical form (`Machine.Memory.wf`). -/
abbrev Mem := List (Nat × BitVec 8)

end Sys2Proof
end

