-- ==== Sys2Proof/Machine/Bits.lean ====
section
/-! DEFINITION. Sys2Proof/Machine/Bits.lean: bit fields of little-endian records, byte strings and sign extension
(00_scope R7, R10). -/

namespace Sys2Proof.Machine

/-- Bits [hi:lo] of the little-endian field whose lowest byte is `byte` in record `r`. -/
def fld (r byte hi lo : Nat) : Nat := (r >>> (8 * byte + lo)) % 2 ^ (hi - lo + 1)

/-- One bit of a record as a truth value. -/
def bit (r byte n : Nat) : Bool := (r >>> (8 * byte + n)) % 2 == 1

/-- A whole little-endian field of `n` bytes. -/
def fldB (r byte n : Nat) : Nat := (r >>> (8 * byte)) % 2 ^ (8 * n)

/-- The value `v` placed at bits [hi:lo] of byte `byte` of a record that is zero elsewhere. -/
def plc (byte hi lo v : Nat) : Nat := (v % 2 ^ (hi - lo + 1)) <<< (8 * byte + lo)

/-- A whole field of `n` bytes placed at byte `byte`. -/
def plcB (byte n v : Nat) : Nat := (v % 2 ^ (8 * n)) <<< (8 * byte)

/-- A bit placed at bit `n` of byte `byte`. -/
def plcF (byte n : Nat) (b : Bool) : Nat := if b then 1 <<< (8 * byte + n) else 0

/-- The mask of the named fields of a record, each given as (byte, hi, lo). -/
def maskOf (l : List (Nat × Nat × Nat)) : Nat :=
  l.foldl (fun m x => m ||| ((2 ^ (x.2.1 - x.2.2 + 1) - 1) <<< (8 * x.1 + x.2.2))) 0

/-- A record has a reserved bit set when a bit outside the mask of its named fields is 1 (R10). -/
def rsvdSet (r mask : Nat) : Bool := (r ||| mask) != mask

/-- The `n` low bytes of a number, byte 0 first. -/
def bytesOf : Nat → Nat → List Byte
  | 0, _ => []
  | n + 1, v => BitVec.ofNat 8 v :: bytesOf n (v / 256)

/-- The number a byte string spells, byte 0 least significant. -/
def ofBytes : List Byte → Nat
  | [] => 0
  | b :: l => b.toNat + 256 * ofBytes l

/-- The two's complement reading of the low `w` bits of `v`. -/
def sgn (w v : Nat) : Int := if v % 2 ^ w < 2 ^ (w - 1) then (v % 2 ^ w : Nat) else (v % 2 ^ w : Nat) - (2 ^ w : Nat)

/-- The low `w` bits of an integer. -/
def wrapI (w : Nat) (i : Int) : Nat := (i % (2 ^ w : Nat)).toNat

/-- `x` rounded up to a multiple of `m`. -/
def roundUp (x m : Nat) : Nat := (x + m - 1) / m * m

/-- The quotient rounded up. -/
def cdiv (x m : Nat) : Nat := (x + m - 1) / m

/-- A counter that saturates at 0xFFFF_FFFF (R70 FULL_STALLS, R313 OVERFLOWS). -/
def sat32 (x : Nat) : Nat := min x 0xFFFFFFFF

/-- Whether bit `n` of `x` is set. -/
def tbit (x n : Nat) : Bool := (x >>> n) % 2 == 1

/-- Set or clear bit `n` of `x`. -/
def sbit (x n : Nat) (b : Bool) : Nat :=
  if b then x ||| (1 <<< n) else if tbit x n then x - (1 <<< n) else x

/-- `l` with the element at `i` replaced. -/
def lset {α : Type} (l : List α) (i : Nat) (x : α) : List α := l.set i x

/-- The sum of a list of naturals. -/
def sumN (l : List Nat) : Nat := l.foldl (· + ·) 0

/-- The largest of a list, 0 when empty. -/
def maxN (l : List Nat) : Nat := l.foldl max 0

/-- Stable insertion by a key. -/
def insertBy {α : Type} (key : α → Nat) (x : α) : List α → List α
  | [] => [x]
  | y :: l => if key x < key y then x :: y :: l else y :: insertBy key x l

/-- Stable sort by a key (insertion sort: structural, so the kernel evaluates it). -/
def sortBy {α : Type} (key : α → Nat) (l : List α) : List α :=
  l.foldl (fun acc x => insertBy key x acc) []

/-- Remove the first element that meets a test. -/
def takeFirst {α : Type} (f : α → Bool) : List α → Option (α × List α)
  | [] => none
  | x :: l => if f x then some (x, l) else (takeFirst f l).map (fun y => (y.1, x :: y.2))

/-- Remove repeated elements, first ones kept. -/
def dedupN (l : List Nat) : List Nat := l.foldl (fun a x => if a.contains x then a else a ++ [x]) []

/-- Bytes at keys from a base. -/
def keyed (base : Nat) (l : List (BitVec 8)) : List (Nat × BitVec 8) := List.zip ((List.range l.length).map (· + base)) l

end Sys2Proof.Machine
end

