-- ==== Sys2Proof/Machine/Tab.lean ====
section
/-! DEFINITION. Sys2Proof/Machine/Tab.lean: keyed tables and sparse byte memories in their canonical form
(strictly rising keys; a memory lists no zero byte, since an unlisted byte reads 0). -/

namespace Sys2Proof.Machine

/-- The entry at a key, if the table holds one. -/
def Tab.find {α : Type} (t : Sys2Proof.Tab α) (k : Nat) : Option α :=
  match t with
  | [] => none
  | (k', v) :: l => if k = k' then some v else Tab.find l k

/-- The entry at a key, or the default of its kind. -/
def Tab.getD {α : Type} (t : Sys2Proof.Tab α) (k : Nat) (d : α) : α := (Tab.find t k).getD d

/-- Put an entry at a key, keeping the keys rising. -/
def Tab.put {α : Type} (t : Sys2Proof.Tab α) (k : Nat) (v : α) : Sys2Proof.Tab α :=
  match t with
  | [] => [(k, v)]
  | (k', v') :: l =>
    if k < k' then (k, v) :: (k', v') :: l
    else if k = k' then (k, v) :: l
    else (k', v') :: Tab.put l k v

/-- Remove the entry at a key. -/
def Tab.del {α : Type} (t : Sys2Proof.Tab α) (k : Nat) : Sys2Proof.Tab α :=
  match t with
  | [] => []
  | (k', v') :: l => if k = k' then Tab.del l k else (k', v') :: Tab.del l k

/-- Whether the table holds a key. -/
def Tab.has {α : Type} (t : Sys2Proof.Tab α) (k : Nat) : Bool := (Tab.find t k).isSome

/-- The table's keys. -/
def Tab.keys {α : Type} (t : Sys2Proof.Tab α) : List Nat := t.map (·.1)

/-- The table's entries without their keys. -/
def Tab.vals {α : Type} (t : Sys2Proof.Tab α) : List α := t.map (·.2)

/-- Change the entry at a key, if there is one. -/
def Tab.upd {α : Type} (t : Sys2Proof.Tab α) (k : Nat) (f : α → α) : Sys2Proof.Tab α :=
  match Tab.find t k with
  | some v => Tab.put t k (f v)
  | none => t

/-- Change every entry. -/
def Tab.all {α β : Type} (t : Sys2Proof.Tab α) (f : Nat → α → β) : Sys2Proof.Tab β := t.map (fun x => (x.1, f x.1 x.2))

/-- Keep the entries that meet a test. -/
def Tab.keep {α : Type} (t : Sys2Proof.Tab α) (f : Nat → α → Bool) : Sys2Proof.Tab α := t.filter (fun x => f x.1 x.2)

/-- Keys strictly rising. -/
def Tab.wf {α : Type} : Sys2Proof.Tab α → Bool
  | [] => true
  | [_] => true
  | (a, _) :: (b, v) :: l => decide (a < b) && Tab.wf ((b, v) :: l)

/-- The byte an unlisted address reads as. Slices and DRAM are wiped to zero before a tenant reaches them (R170, R246);
for memory the spec gives no content (host memory, cell-local memory) 0 is a DESIGN CHOICE, unsafe (log entry 6). -/
def Memory.unlisted : BitVec 8 := 0

/-- The byte at an address. -/
def Memory.read (m : Sys2Proof.Mem) (a : Nat) : BitVec 8 :=
  match m with
  | [] => Memory.unlisted
  | (k, v) :: l => if a = k then v else Memory.read l a

/-- Write a byte, keeping the canonical form: writing what an unlisted address reads as removes the entry. -/
def Memory.write (m : Sys2Proof.Mem) (a : Nat) (b : BitVec 8) : Sys2Proof.Mem :=
  match m with
  | [] => if b = Memory.unlisted then [] else [(a, b)]
  | (k, v) :: l =>
    if a < k then (if b = Memory.unlisted then (k, v) :: l else (a, b) :: (k, v) :: l)
    else if a = k then (if b = Memory.unlisted then l else (a, b) :: l)
    else (k, v) :: Memory.write l a b

/-- The canonical form: addresses strictly rising, no entry equal to the unlisted byte. -/
def Memory.wf : Sys2Proof.Mem → Bool
  | [] => true
  | [(_, v)] => v != Memory.unlisted
  | (a, v) :: (b, w) :: l => decide (a < b) && (v != Memory.unlisted) && Memory.wf ((b, w) :: l)

/-- `n` bytes from an address as a little-endian number (R7). -/
def Memory.readN (m : Sys2Proof.Mem) (a : Nat) : Nat → Nat
  | 0 => 0
  | n + 1 => (Memory.read m a).toNat + 256 * Memory.readN m (a + 1) n

/-- `n` bytes from an address. -/
def Memory.readL (m : Sys2Proof.Mem) (a : Nat) : Nat → List (BitVec 8)
  | 0 => []
  | n + 1 => Memory.read m a :: Memory.readL m (a + 1) n

/-- Write a byte string at an address. -/
def Memory.writeL (m : Sys2Proof.Mem) (a : Nat) : List (BitVec 8) → Sys2Proof.Mem
  | [] => m
  | b :: l => Memory.writeL (Memory.write m a b) (a + 1) l

/-- Write the low `n` bytes of a number at an address, little-endian (R7). -/
def Memory.writeN (m : Sys2Proof.Mem) (a n v : Nat) : Sys2Proof.Mem :=
  match n with
  | 0 => m
  | n + 1 => Memory.writeN (Memory.write m a (BitVec.ofNat 8 v)) (a + 1) n (v / 256)

/-- Remove the bytes of [a, a + n): they then read as unlisted, which is how a wipe leaves them (R170, R246). -/
def Memory.wipe (m : Sys2Proof.Mem) (a n : Nat) : Sys2Proof.Mem :=
  m.filter (fun c => decide (c.1 < a) || decide (a + n ≤ c.1))

/-- The listed bytes of [a, a + n) moved to `d` of another memory whose range there has been wiped. -/
def Memory.copyRange (m : Sys2Proof.Mem) (a n : Nat) (dst : Sys2Proof.Mem) (d : Nat) : Sys2Proof.Mem :=
  (m.filter (fun c => decide (a ≤ c.1) && decide (c.1 < a + n))).foldl
    (fun acc c => Memory.write acc (c.1 - a + d) c.2) (Memory.wipe dst d n)

/-- A memory given as any list of bytes, put into the canonical form: every address reads as in the list. -/
def Memory.canon (m : Sys2Proof.Mem) : Sys2Proof.Mem := m.foldr (fun c acc => Memory.write acc c.1 c.2) []

end Sys2Proof.Machine
end

