-- ==== Sys2Proof/Machine/Types.lean ====
section
/-! DEFINITION. Sys2Proof/Machine/Types.lean: the records that travel between the part's units: waybills (R46), answers
and their codes (R11, R321, R335, R492, R76, R209), and what the part sends out. -/

namespace Sys2Proof.Machine

/-- A waybill (R46). `rsvd` holds its reserved bits in place, so that no bit of the 64-byte record is lost. -/
structure Waybill where
  dropped : Bool := false
  abandoned : Bool := false
  heavy : Bool := false
  last : Bool := false
  kind : Nat := 1
  resetGen : Nat := 0
  station : Nat := 0
  context : Nat := 0
  queue : Nat := 0
  epoch : Nat := 0
  routeTag : Nat := 0
  requestId : Nat := 0
  tileBlock : Nat := 0
  tileOff : Nat := 0
  format : Nat := 0
  cols : Nat := 0
  rows : Nat := 0
  rowPitch : Nat := 0
  scales : Bool := false
  zmap : Bool := false
  sparsity : Nat := 0
  scaleBlock : Nat := 0
  scaleOff : Nat := 0
  metaBlock : Nat := 0
  metaOff : Nat := 0
  originCol : Nat := 0
  originRow : Nat := 0
  fenceId : Nat := 0
  fenceOp : Nat := 0
  fenceDelta : Nat := 0
  arg : Nat := 0
  srcStation : Nat := 0xFFFF
  rejectCode : Nat := 0
  rsvd : Nat := 0
deriving DecidableEq, Repr

/-- Every code an answer or a reject can carry, by its name in the spec. -/
inductive Code where
  -- R76, R209: waybill reject codes
  | badKind | badFormat | badShape | badPitch | tileTooLarge | badAddr | rsvdSet | contextMismatch | noOutput | emitLimit
  | badFence | badScores | badInput | badTable | slotOverflow | badMap | badIndex | badResult
  -- R321, R335
  | unitAbsent | badId | notOwned | limit | badParam | badRange | queueInUse | badQueue | badEngine | engineBusy | span
  | noRingSpace | lastEngine | badProgram | staleGen | noKey | fenceRegress | fenceExhausted | fenceAbandoned | fenceInUse
  | objectInUse | contextRevoked | planInUse | notAppointed | sessionOpen | badToken | sessionState | badCommand | readOnly
  | retryAfter | queueFull | syncQueueFull | rekeyInProgress | wipeInProgress | cancelSetFull | sessionLimit | kvFull
  | contextDraining | waitFull
  | badSession | badTag | replay | partitionExists | partitionBusy | noStripes | overcommit | blockNotFree | nameInUse
  | inUse | leaseStale | notOwner | moveAbandoned | epochBacklog | fragmented | moveInProgress | evacuating
  -- R492, R501-R503
  | badSignature | wrongHw | wrongUnit | rollback | blockCrc | slotInUse | noOrder | locked | badTransition | keyUnwrap
  | setFull | notFrozen | notAuthorised | activationInProgress | noSet | blobTag | sealFull
  -- R382, R383: link answer codes
  | badType | hdrRsvd | badLen | ackAhead | creditOverrun | creditExcess | fragOrder | badTxn | badDest | badSrc
  | lengthMismatch | unexpectedRsp | tagInUse | windowInvalid | windowSource | windowKey | windowPartition | windowRange
  | windowPerm | windowSealed | doze | nodeUnassigned | linkUnavailable
deriving DecidableEq, Repr

/-- The answers a request can get (R11): success with its VALUE, and the three other forms. -/
inductive Ans where
  | ok (value : Nat)
  | refused (c : Code) (value : Nat)
  | busy (c : Code) (value : Nat)
  | notReady (value : Nat)
deriving DecidableEq, Repr

/-- A management message's header fields that its answer needs (R332): session and CORR, and MSG. -/
structure MsgRef where
  session : Nat
  corr : Nat
  msg : Nat
deriving DecidableEq, Repr

/-- A charge of an estimator (R472): the partition and REQUEST_ID of the work, its context, the category (0 compute, 1 slice
memory, 2 main memory, 3 links), the energy in µJ, the TIME_US of the work, and the domain that used it. -/
structure Charge where
  part : Nat
  req : Nat
  context : Nat
  cat : Nat
  uj : Nat
  time : Nat
  domain : Nat
deriving DecidableEq, Repr

/-- Who is at the other end of a management message or notice. -/
inductive Peer where
  | fabricManager
  | operator
  | owner
  | node (n : Nat)
  | initiator (session : Nat)
deriving DecidableEq, Repr

/-- What the part sends out, as the outside sees it. -/
inductive Out where
  /-- an entry written to a host ring: queue, record number, and the entry as a little-endian number (R315) -/
  | ring (queue seq entry : Nat)
  /-- a management answer: session, CORR, MSG and the answer (R332) -/
  | answer (session corr msg : Nat) (a : Ans)
  /-- a management message of the part's own: to whom, MSG and its fields in the order of its table -/
  | msg (dest : Peer) (msg : Nat) (fields : List Nat)
  /-- a link transaction or flit: port, its code, and its fields (R380) -/
  | link (port txn : Nat) (fields : List Nat)
  /-- a codeword group begins on a port: the lane tags of its five lanes (R365, R366) -/
  | group (port : Nat) (tags : List Nat)
  /-- a flit sent: port and its 256 bytes as a little-endian number (R373) -/
  | flit (port bits : Nat)
  /-- a configuration read's or side-band's returned data -/
  | data (src : Nat) (value : Nat)
  /-- rekey_done, to the partition (R243) -/
  | rekeyDone (part : Nat)
  /-- an output pin driven: its place in R544's table (2 PWRGD, 4 ALERT_N, 5 THERM_TRIP_N), and whether it is high -/
  | pin (pin : Nat) (level : Bool)
deriving DecidableEq, Repr

/-- One entry of the device's fault log (R556): SEQ, boot nonce, slot, code, partition, source, TIME_US and DETAIL, a little-endian
number of 32 bytes. -/
structure FaultEntry where
  seq : Nat
  nonce : BitVec 64
  slot : Nat
  code : Nat
  part : Nat
  source : Nat
  time : Nat
  detail : Nat
deriving DecidableEq, Repr

/-- The waybill as its 64-byte record (R46), a little-endian number. -/
def Waybill.toNat (w : Waybill) : Nat :=
  plcF 0 7 w.dropped ||| plcF 0 6 w.abandoned ||| plcF 0 5 w.heavy ||| plcF 0 4 w.last ||| plc 0 3 0 w.kind |||
  plcB 1 1 w.resetGen ||| plcB 2 2 w.station ||| plc 4 31 20 w.context ||| plc 4 19 0 w.queue ||| plcB 8 2 w.epoch |||
  plcB 10 2 w.routeTag ||| plcB 12 4 w.requestId ||| plc 16 24 19 w.tileBlock ||| plc 16 18 0 w.tileOff |||
  plc 20 30 26 w.format ||| plc 20 25 13 w.cols ||| plc 20 12 0 w.rows ||| plcB 24 2 w.rowPitch ||| plcF 26 3 w.scales |||
  plcF 26 2 w.zmap ||| plc 26 1 0 w.sparsity ||| plc 28 24 19 w.scaleBlock ||| plc 28 18 0 w.scaleOff |||
  plc 32 24 19 w.metaBlock ||| plc 32 18 0 w.metaOff ||| plc 36 31 16 w.originCol ||| plc 36 15 0 w.originRow |||
  plcB 40 2 w.fenceId ||| plc 42 1 0 w.fenceOp ||| plcB 44 4 w.fenceDelta ||| plcB 48 8 w.arg ||| plcB 56 2 w.srcStation |||
  plcB 58 1 w.rejectCode ||| w.rsvd

/-- The bits of a waybill record that name a field (R46); every other bit is RSVD. -/
def Waybill.mask : Nat :=
  maskOf [(0, 7, 0), (1, 7, 0), (2, 15, 0), (4, 31, 0), (8, 15, 0), (10, 15, 0), (12, 31, 0), (16, 24, 0), (20, 30, 0),
    (24, 15, 0), (26, 3, 0), (28, 24, 0), (32, 24, 0), (36, 31, 0), (40, 15, 0), (42, 1, 0), (44, 31, 0), (48, 63, 0),
    (56, 15, 0), (58, 7, 0)]

/-- The waybill a 64-byte record spells (R46). -/
def Waybill.ofNat (r : Nat) : Waybill :=
  { dropped := bit r 0 7, abandoned := bit r 0 6, heavy := bit r 0 5, last := bit r 0 4, kind := fld r 0 3 0,
    resetGen := fldB r 1 1, station := fldB r 2 2, context := fld r 4 31 20, queue := fld r 4 19 0, epoch := fldB r 8 2,
    routeTag := fldB r 10 2, requestId := fldB r 12 4, tileBlock := fld r 16 24 19, tileOff := fld r 16 18 0,
    format := fld r 20 30 26, cols := fld r 20 25 13, rows := fld r 20 12 0, rowPitch := fldB r 24 2, scales := bit r 26 3,
    zmap := bit r 26 2, sparsity := fld r 26 1 0, scaleBlock := fld r 28 24 19, scaleOff := fld r 28 18 0,
    metaBlock := fld r 32 24 19, metaOff := fld r 32 18 0, originCol := fld r 36 31 16, originRow := fld r 36 15 0,
    fenceId := fldB r 40 2, fenceOp := fld r 42 1 0, fenceDelta := fldB r 44 4, arg := fldB r 48 8, srcStation := fldB r 56 2,
    rejectCode := fldB r 58 1,
    rsvd := (r % 2 ^ 512) - ((r % 2 ^ 512) &&& Waybill.mask) }

/-- The number of a code among the waybill reject codes (R76, R209); 0 for a code that is none. -/
def Code.reject : Code → Nat
  | .badKind => 0x01 | .badFormat => 0x02 | .badShape => 0x03 | .badPitch => 0x04 | .tileTooLarge => 0x05
  | .badAddr => 0x06 | .rsvdSet => 0x07 | .contextMismatch => 0x08 | .noOutput => 0x09 | .emitLimit => 0x0A
  | .badFence => 0x0B | .badScores => 0x10 | .badInput => 0x11 | .badTable => 0x12 | .slotOverflow => 0x13
  | .badMap => 0x14 | .badIndex => 0x15 | .badResult => 0x16
  | _ => 0

/-- The number of a code in a completion record (R321), where 0x0001-0x00FF repeat the reject codes. -/
def Code.host : Code → Nat
  | .unitAbsent => 0x0100 | .badId => 0x0101 | .notOwned => 0x0102 | .limit => 0x0103 | .badParam => 0x0104
  | .badRange => 0x0105 | .queueInUse => 0x0106 | .badQueue => 0x0107 | .badEngine => 0x0108 | .engineBusy => 0x0109
  | .span => 0x010A | .noRingSpace => 0x010B | .lastEngine => 0x010C | .badProgram => 0x010D | .staleGen => 0x010E
  | .noKey => 0x010F | .fenceRegress => 0x0110 | .fenceExhausted => 0x0111 | .fenceAbandoned => 0x0112
  | .fenceInUse => 0x0113 | .objectInUse => 0x0114 | .contextRevoked => 0x0115 | .planInUse => 0x0116
  | .notAppointed => 0x0117 | .sessionOpen => 0x0118 | .badToken => 0x0119 | .sessionState => 0x011A
  | .badCommand => 0x011B | .readOnly => 0x011C | .retryAfter => 0x0200 | .queueFull => 0x0201 | .syncQueueFull => 0x0202
  | .rekeyInProgress => 0x0203 | .wipeInProgress => 0x0204 | .cancelSetFull => 0x0205 | .sessionLimit => 0x0206
  | .kvFull => 0x0207 | .contextDraining => 0x0208 | .waitFull => 0x0209 | .noSet => 0x011D | .blobTag => 0x011E
  | .sealFull => 0x011F
  | c => Code.reject c

/-- The number of a code in a management answer (R335 composition, R492 security). -/
def Code.mgmt : Code → Nat
  | .badSession => 0x0300 | .badTag => 0x0301 | .replay => 0x0302 | .badId => 0x0303 | .badParam => 0x0304
  | .rsvdSet => 0x0305 | .unitAbsent => 0x0306 | .partitionExists => 0x0307 | .partitionBusy => 0x0308
  | .noStripes => 0x0309 | .overcommit => 0x030A | .blockNotFree => 0x030B | .nameInUse => 0x030C | .inUse => 0x030D
  | .span => 0x030E | .lastEngine => 0x030F | .noRingSpace => 0x0310 | .limit => 0x0311 | .leaseStale => 0x0312
  | .notOwner => 0x0313 | .moveAbandoned => 0x0314 | .noKey => 0x0315 | .badRange => 0x0316 | .retryAfter => 0x0380
  | .epochBacklog => 0x0381 | .wipeInProgress => 0x0382 | .fragmented => 0x0383 | .moveInProgress => 0x0384
  | .evacuating => 0x0385 | .badSignature => 0x0600 | .wrongHw => 0x0601 | .wrongUnit => 0x0602 | .rollback => 0x0603
  | .blockCrc => 0x0604 | .slotInUse => 0x0605 | .noOrder => 0x0606 | .locked => 0x0607 | .badTransition => 0x0608
  | .keyUnwrap => 0x0609 | .setFull => 0x060A | .notFrozen => 0x060B | .notAuthorised => 0x060C
  | .activationInProgress => 0x0680
  | c => Code.host c

/-- The number of a code in a link answer's STATUS (R383). -/
def Code.link : Code → Nat
  | .badType => 0x0400 | .hdrRsvd => 0x0401 | .badLen => 0x0402 | .ackAhead => 0x0403 | .creditOverrun => 0x0404
  | .creditExcess => 0x0405 | .fragOrder => 0x0406 | .badTxn => 0x0407 | .badDest => 0x0408 | .badSrc => 0x0409
  | .lengthMismatch => 0x040A | .unexpectedRsp => 0x040B | .tagInUse => 0x040C | .windowInvalid => 0x0410
  | .windowSource => 0x0411 | .windowKey => 0x0412 | .windowPartition => 0x0413 | .windowRange => 0x0414
  | .windowPerm => 0x0415 | .windowSealed => 0x0416 | .doze => 0x0420 | .nodeUnassigned => 0x0421
  | .linkUnavailable => 0x0422
  | c => Code.host c

/-- FORM of an answer (R320, R332): 0 success, 1 Refused, 2 Busy, 3 NotReady. -/
def Ans.form : Ans → Nat
  | .ok _ => 0 | .refused _ _ => 1 | .busy _ _ => 2 | .notReady _ => 3

/-- The answer's CODE in a completion record; 0 on success and on NotReady. -/
def Ans.code : Ans → Nat
  | .refused c _ => c.host
  | .busy c _ => c.host
  | _ => 0

/-- The answer's VALUE. -/
def Ans.value : Ans → Nat
  | .ok v => v | .refused _ v => v | .busy _ v => v | .notReady v => v

/-- The VALUE that names a field (R320): byte offset in [15:0], lowest bit's position in that byte in [23:16]. -/
def fieldRef (byte lo : Nat) : Nat := (byte + lo / 8) + ((lo % 8) <<< 16)

/-- BAD_PARAM naming a field. -/
def badParam (byte lo : Nat) : Ans := .refused .badParam (fieldRef byte lo)

end Sys2Proof.Machine
end

