-- ==== Sys2Proof/Machine/StateHost.lean ====
section
/-! DEFINITION. Sys2Proof/Machine/StateHost.lean: the state of host objects, fences, partitions, stations and tile queues
(11_host_objects, 12_composition, 02_stations_and_waybills). -/

namespace Sys2Proof.Machine

/-! ## Host objects (R305-R331) -/

/-- A command of a command buffer: header fields (R317) and its record as a little-endian number. -/
structure HostCmd where
  opcode : Nat
  length : Nat
  tag : Nat
  record : Nat
  /-- its LENGTH runs past BUF_BYTES: it ends the buffer (R317) -/
  past : Bool
deriving DecidableEq, Repr

/-- Where a submission entry stands (R318). -/
inductive BufPhase where
  /-- the entry waits on its fence -/
  | waiting
  /-- commands run in buffer order -/
  | running
  /-- the front command has begun and its answer is still to come -/
  | awaiting
  /-- the last answer is held for room; `early` when the buffer was ended early -/
  | ending (early : Bool)
deriving DecidableEq, Repr

/-- The submission entry a ring is processing (R316, R318) and what is left of its command buffer. -/
structure SubBuf where
  seq : Nat
  context : Nat
  stopOnRefuse : Bool
  waitEn : Bool
  signalEn : Bool
  bufHandle : Nat
  bufOff : Nat
  bufBytes : Nat
  waitFence : Nat
  signalFence : Nat
  waitValue : Nat
  signalValue : Nat
  phase : BufPhase
  cmds : List HostCmd
  index : Nat
  /-- every command is answered Refused with this code and none runs (R318) -/
  forced : Option Code
deriving DecidableEq, Repr

/-- A completion record that waits to be written (R320). -/
structure CplRec where
  last : Bool
  ans : Ans
  submitSeq : Nat
  index : Nat
  opcode : Nat
  tag : Nat
deriving DecidableEq, Repr

/-- A host ring's descriptor (R313) and its processing state. -/
structure Ring where
  part : Nat
  ty : Nat
  context : Nat
  log2 : Nat
  partEvents : Bool
  handle : Nat
  off : Nat
  cqValid : Bool
  cq : Nat
  produced : Nat
  consumed : Nat
  overflows : Nat
  /-- events lost since the last EVENTS_LOST record (R322) -/
  lost : Nat
  /-- the entry being processed (submission rings) -/
  cur : Option SubBuf
  /-- answers held for a full completion ring, oldest first (R320) -/
  out : List CplRec
deriving DecidableEq, Repr

/-- A context (R310). -/
structure Context where
  root : Nat
  eventQ : Option Nat
  /-- table generation (R264) -/
  tableGen : Nat
  /-- false from the moment it is revoked (R329): the tag is then draining once ContextRevoked has been sent -/
  live : Bool
  /-- the ring whose ContextRevoke is still to be answered -/
  revoker : Option Nat
deriving DecidableEq, Repr

/-- A memory object (R311). -/
structure MemObj where
  part : Nat
  context : Nat
  gen : Nat
  index : Nat
  va : Nat
  length : Nat
  /-- KIND: true for host memory -/
  host : Bool
deriving DecidableEq, Repr

/-- An event in the coalescing store (R322, R557). -/
structure EventRec where
  queue : Nat
  code : Nat
  context : Nat
  part : Nat
  source : Nat
  station : Nat
  count : Nat
  time : Nat
  /-- bytes 40-63 as a little-endian number -/
  data : Nat
deriving DecidableEq, Repr

/-- Host objects (11_host_objects). Contexts are keyed partition * 4096 + tag, memory objects partition * 65536 + INDEX,
rings by queue ID. -/
structure HostUnit where
  contexts : Tab Context
  objects : Tab MemObj
  /-- GEN of the last use of each INDEX (R311) -/
  objGens : Tab Nat
  rings : Tab Ring
  events : List EventRec
deriving DecidableEq, Repr

/-! ## Fences (R324-R328, R558) -/

/-- A fence as the two arrays of the store hold it (R324, R558): ABANDONED in bit 63 and VALUE below it. -/
structure Fence where
  part : Nat
  owner : Option Nat
  wordA : BitVec 64
  wordB : BitVec 64
deriving DecidableEq, Repr

/-- A waiting FenceWait (R326): its ring, fence, target and the TIME_US at which it times out. -/
structure FenceWaiter where
  ring : Nat
  part : Nat
  fence : Nat
  target : Nat
  deadline : Nat
deriving DecidableEq, Repr

/-- What a flit at the fence-store port asks (R558): a signal, a FenceReset or a read. -/
inductive FenceOp where
  | add (x : Nat) (abandoned : Bool)
  | set (x : Nat) (abandoned : Bool)
  | reset (x : Nat)
  /-- a read (FRD, FenceWait, ResultFetch) -/
  | read
deriving DecidableEq, Repr

/-- Who waits for a flit's reply (R325, R326, R328). -/
inductive FenceReply where
  | none
  /-- a FenceSignal or FenceReset of a submission ring -/
  | ring (q : Nat)
  /-- a steward's FSIG, or an FRD: its global cell and destination register -/
  | cell (c rd : Nat)
  /-- a FenceWait of a ring: its TARGET, and until when it waits, none for a TIMEOUT_US of 0 -/
  | wait (q target : Nat) (deadline : Option Nat)
  /-- a ResultFetch of a ring: its record -/
  | fetch (q record : Nat)
deriving DecidableEq, Repr

/-- A flit waiting at the hub switch's fence-store port (R558). `rank` is its source's place in the source order (R559). -/
structure FenceFlit where
  fence : Nat
  part : Nat
  context : Nat
  op : FenceOp
  rank : Nat
  /-- source code of R557 of the signal's source -/
  source : Nat
  reply : FenceReply
  /-- the flit of a spine or the hub switch that still carries it to the port -/
  flit : Option Nat := none
deriving DecidableEq, Repr

/-- The fence store and its port. -/
structure FenceUnit where
  fences : Tab Fence
  waiters : List FenceWaiter
  port : List FenceFlit
  /-- the array in service: false A, true B (R331, R437) -/
  serveB : Bool
  /-- an array has failed -/
  failed : Option Bool
deriving DecidableEq, Repr

/-! ## Partitions and composition (R332-R363) -/

/-- A block release in progress (R345). -/
structure BlockRel where
  part : Nat
  name : Nat
  phys : Nat
  /-- the last epoch of the closed range -/
  epoch : Nat
  /-- the range has retired and the wipe runs -/
  wiping : Bool
  ref : MsgRef
deriving DecidableEq, Repr

/-- A block move in progress (R350): step 3 drain, 4 copy, 5-6 switched and wiping. -/
structure BlockMv where
  part : Nat
  name : Nat
  src : Nat
  dst : Nat
  step : Nat
  ref : MsgRef
deriving DecidableEq, Repr

/-- A station move in progress (R349). -/
structure StationMv where
  part : Nat
  station : Nat
  newAnchor : Nat
  newSlot : Nat
  ref : MsgRef
deriving DecidableEq, Repr

/-- A partition (R337-R348, R352-R353). -/
structure Partition where
  regions : Nat
  sealedShare : Bool
  coded : Bool
  stripes : Nat
  queues : Nat
  fences : Nat
  sessions : Nat
  powerW : Nat
  companion : Nat
  /-- runs of the carve-out: first stripe's DPA and stripe count, ascending (R339, R341) -/
  runs : List (Nat × Nat)
  epoch : Nat
  resetGen : Nat
  /-- named block to physical block (R343) -/
  blockMap : Tab Nat
  /-- named blocks whose move runs (R341 bit 7) -/
  moving : List Nat
  chShare : Tab Nat
  portShare : Tab Nat
  /-- epochs older than `epoch` not yet retired, oldest first (R348) -/
  unretired : List Nat
  /-- the PartitionDestroy that runs, and whether its wipe runs -/
  destroying : Option MsgRef
  /-- a coded carve-out's zero initialisation still runs (R232) -/
  initialising : Bool
  /-- frozen for evacuation or migration (R448) -/
  frozen : Bool
  /-- being evacuated (R336) -/
  evacuating : Bool
  /-- dispatch stopped by a reckoning backlog (R485) -/
  backlogStop : Bool
  /-- sealed weight ranges: DST_HANDLE, carve-out offset and length (R503) -/
  sealedRanges : List (Nat × Nat × Nat)
  /-- the SET_ID under which each was loaded, by DST_HANDLE (R502, R504) -/
  sealedSets : Tab Nat := []
deriving DecidableEq, Repr

/-- An older peer of a send end (R356): its node, partition, queue, credits in hand and returned, and the epoch from which the
next peer applies. -/
structure OldPeer where
  node : Nat
  part : Nat
  queue : Nat
  credits : Nat
  returned : Nat
  epoch : Nat
deriving DecidableEq, Repr

/-- A queue pair's end (R354-R357). -/
structure QPair where
  part : Nat
  recv : Bool
  port : Nat
  slots : Nat
  peerNode : Nat
  peerPart : Nat
  landingFence : Nat
  peerQueue : Nat
  landingAddr : Nat
  landingBytes : Nat
  localQ : Nat
  context : Nat
  peerEpoch : Nat
  count : Nat
  /-- send end: waybills in the port send buffer, oldest first (64 places) -/
  buffer : List Waybill
  /-- send end: waybills sent and not yet acknowledged: TAG, waybill, and whether it went to an old peer -/
  unacked : List (Nat × Waybill × Bool)
  /-- send end: landing-slot credits in hand -/
  credits : Nat
  /-- send end: older peers still in use, oldest first -/
  oldPeers : List OldPeer
  /-- receive end: LANDING_FENCE at open -/
  f0 : Nat
  /-- credits returned so far: by a receive end; by the peer of a send end -/
  returned : Nat
  /-- retargets still to be answered, oldest first: the message, and the epoch from which its peer applies (R356) -/
  retarget : List (MsgRef × Nat)
  /-- a close still to be answered (R357) -/
  closing : Option MsgRef
deriving DecidableEq, Repr

/-- Composition state. -/
structure PartUnit where
  parts : Tab Partition
  releases : List BlockRel
  moves : List BlockMv
  stationMoves : List StationMv
  qpairs : Tab QPair
  /-- the epoch in force in each physical block, keyed partition * 64 + block (R347) -/
  blockEpoch : Tab Nat
  /-- composition-table writes made to both copies (R221, R336) -/
  tableWrites : Nat
  /-- ChannelShare messages whose share governs from the next regulation window (R352) -/
  shareRefs : List MsgRef
deriving DecidableEq, Repr

/-! ## Stations, engines and tile queues (R39-R77) -/

/-- Who consumes a tile queue (R53, R70). -/
inductive Consumer where
  | none
  | station (id input : Nat)
  | steward (cell input : Nat)
deriving DecidableEq, Repr

/-- A tile queue (R70-R73). HOT_OCC is `hot.length`, SPILL_OCC `spill.length`. -/
structure TileQ where
  part : Nat
  context : Nat
  consumer : Consumer
  /-- named block and offset of the hot ring, once placed (R71) -/
  placed : Option (Nat × Nat)
  hotLog2 : Nat
  spillLog2 : Nat
  stallMs : Nat
  spillHandle : Nat
  spillOff : Nat
  tail : Nat
  head : Nat
  hot : List Waybill
  spill : List Waybill
  fullStalls : Nat
  /-- waybills of the running refill group (0: none runs) (R72) -/
  refill : Nat
  /-- during a station move: the old ring's place and its waybills (R349) -/
  oldPlace : Option (Nat × Nat)
  oldHot : List Waybill
  /-- TIME_US since which the head has been head-eligible without starting, and whether QUEUE_STALLED was raised (R75) -/
  headSince : Nat
  stalled : Bool
deriving DecidableEq, Repr

/-- A waybill held in the dispatcher's return buffer ahead of its queue's head (R77): its input and itself. -/
structure Returned where
  input : Nat
  wb : Waybill
deriving DecidableEq, Repr

/-- A station (R52, R54). -/
structure Station where
  predMode : Nat
  zip : Bool
  ordered : Bool
  kind : Nat
  nOut : Nat
  nIn : Nat
  programHandle : Nat
  programOff : Nat
  programLen : Nat
  paramHandle : Nat
  paramLen : Nat
  routeShift : Nat
  predValue : Bool
  predOut : Nat
  predBit : Nat
  watchdogMs : Nat
  inQ : List Nat
  /-- OUT_Q entries: none where VALID is 0 -/
  outQ : List (Option Nat)
  rejectQ : Option Nat
  /-- the context that defined it -/
  context : Nat
  /-- anchor as a named block, and slot; none before the first bind -/
  anchor : Option (Nat × Nat)
  /-- engine IDs in the order StationBind named them (R65) -/
  engines : List Nat
  /-- the input served last (R63) -/
  lastIn : Nat
  /-- engine IDs of the starts that have not committed, in start order (R61) -/
  starts : List Nat
  returned : List Returned
  /-- TIME_US of the last commit, for the station watchdog (R75) -/
  lastCommit : Nat
  /-- the unbinds not yet answered, oldest first: the ring each answers and the engines it waits for (R55) -/
  unbinds : List (Nat × List Nat)
deriving DecidableEq, Repr

/-- A gather start under way (R211): the first number of its outputs, how many they are, and the items copied so far. -/
structure GatherRun where
  first : Nat
  tiles : Nat
  copied : Nat
deriving DecidableEq, Repr

/-- A waybill's start on an engine (R66, R67). -/
structure Start where
  part : Nat
  station : Nat
  /-- input waybills in input order, with their queue -/
  inputs : List (Nat × Waybill)
  /-- emitted waybills, oldest first -/
  emits : List Waybill
  /-- waybills a fixed unit places in a queue of its own choice, with that queue, after `emits` (R200) -/
  direct : List (Nat × Waybill)
  /-- the program has ended and the commit is due -/
  ended : Bool
  /-- the commit waits: for room (R73) or for start order (R61) -/
  heldFull : Bool
  heldOrder : Bool
  /-- TIME_US of the start -/
  begun : Nat
  /-- the start has ended as a fault: its input is forwarded with ABANDONED and nothing is committed (R135, R273) -/
  faulted : Bool
  gather : Option GatherRun := none
deriving DecidableEq, Repr

/-- A bound engine of any class (R51), keyed by its 16-bit engine ID in physical numbers. -/
structure Engine where
  part : Nat
  station : Nat
  /-- serving range (R347) -/
  fromE : Nat
  toE : Option Nat
  start : Option Start
  /-- parameter bytes as its bind loaded them, for fixed units (R55) -/
  params : Mem
deriving DecidableEq, Repr

/-- A commit or forward held for a full queue (R73, R77): the engine, or the station whose dispatcher holds a forward. -/
inductive Holder where
  | engine (id : Nat)
  | forward (part station : Nat) (input : Nat) (wb : Waybill) (queue : Nat)
  /-- a waybill held for a queue that has no ring yet (R71) -/
  | enqueue (queue : Nat) (wb : Waybill) (rank : Nat)
deriving DecidableEq, Repr

/-- A waybill travelling to its queue's tail (R69): queue, waybill, source rank (R559), the CLK_SPN in which it arrived, and the flit that
still carries it. -/
structure Flight where
  queue : Nat
  wb : Waybill
  rank : Nat
  left : Nat
  flit : Option Nat := none
deriving DecidableEq, Repr

/-- A StationPredicate on its way (R561). -/
structure PredFlit where
  part : Nat
  station : Nat
  value : Bool
  /-- the ring to answer, or none for a steward's PRED -/
  ring : Option Nat
  /-- it has reached the dispatcher, and its acknowledgement travels back -/
  arrived : Bool
  /-- the flit that carries it -/
  flit : Option Nat := none
deriving DecidableEq, Repr

/-- The dispatcher of a physical block (R62-R66). -/
structure Disp where
  /-- slot to station: partition * 65536 + station -/
  slots : Tab Nat
  lastSlot : Nat
  /-- 64-byte places of the ring area in use: offset and size (R56, R71) -/
  ringUse : List (Nat × Nat)
  /-- waybills consumed as stale (R68) -/
  staleCount : Nat
deriving DecidableEq, Repr

/-- Stations, engines, dispatchers and tile queues. Stations are keyed partition * 65536 + STATION_ID. -/
structure StationUnit where
  stations : Tab Station
  engines : Tab Engine
  disps : Tab Disp
  queues : Tab TileQ
  flight : List Flight
  held : List Holder
  preds : List PredFlit
  /-- HEAVY waybills' hints passed to the power controller: physical block, consuming station and TIME_US of the enqueue (R50) -/
  heavy : List (Nat × Nat × Nat)
  /-- the hub's queue directory cache: active descriptors, least recently used first, at most 16,384 (R16) -/
  cached : List Nat
  /-- descriptor images in the two device-reserved copies (R221, R437), keyed by queue ID -/
  descA : Tab Nat
  descB : Tab Nat
deriving DecidableEq, Repr

end Sys2Proof.Machine
end

