-- ==== Sys2Proof/Machine/StateMem.lean ====
section
/-! DEFINITION. Sys2Proof/Machine/StateMem.lean: the state of blocks, slice memory, crier buses and caravans, main memory
and address translation (06_slice_memory, 08_main_memory, 09_translation). -/

namespace Sys2Proof.Machine

/-! ## Blocks and slices (R160-R185) -/

/-- Why a slice wipe runs (R170): release of the block, a block reset, or the abandoned or finished block move. -/
inductive WipeKind where
  | release | reset | move
deriving DecidableEq, Repr

/-- A physical block's own state. -/
structure Block where
  /-- the partition it is bound to, and under which name -/
  bound : Option (Nat × Nat) := none
  /-- CLK_BLK in MHz now, and planned (R21, R454) -/
  mhz : Nat := 1000
  plannedMhz : Nat := 1000
  /-- block cycle counter (R36) -/
  cycles : Nat := 0
  /-- reset generation of the block (R425) -/
  gen : Nat := 0
  powered : Bool := false
  wipe : Option WipeKind := none
  /-- a block reset runs (R428) -/
  resetting : Bool := false
  /-- quiesced by ageing (R532) -/
  quiesced : Bool := false
  /-- bank row the patrol scrub reads next, keyed slice * 8 + bank (R169) -/
  scrub : Tab Nat := []
  /-- single-bit errors corrected (R169) -/
  corrected : Nat := 0
  /-- spare M-cell and V-cell in use (R34, R436) -/
  spareM : Bool := false
  spareV : Bool := false
deriving DecidableEq, Repr

/-- Who issued a slice access (R162), with its rank at a bank in its own block. -/
inductive Requester where
  /-- a cell, by global number -/
  | cell (c : Nat)
  | ringPort
  | crierTap (send : Nat)
  | carrier (c : Nat)
  | unit (id : Nat)
  | port (p : Nat)
deriving DecidableEq, Repr

/-- What a line access does (R163-R168). -/
inductive LineOp where
  | read
  /-- a write with its byte mask: offset in the line and byte -/
  | write (bytes : List (Nat × BitVec 8))
  /-- a bank atomic on the word at byte `lo` (R167): 0 ADD INT32, 1 ADD INT64, 2 SWAP 32, 3 SWAP 64, 4 ADD FP32,
  5 ADD BF16 pair -/
  | atomic (lo sub operand : Nat)
  /-- a line atomic: the same atomic on several words of the line, by byte and operand (R205) -/
  | adds (sub : Nat) (words : List (Nat × Nat))
  /-- an access to a block that is not bound to the issuer's partition: it freezes the issuer (R98, R135, R158, R505) -/
  | violation (va : Nat)
deriving DecidableEq, Repr

/-- An array that a load places in an M-cell's store: slice address of its first row, row pitch, first bit of interest, bits
taken and bits left zero behind them, rows fetched and rows written, destination byte and destination pitch (R90, R96). -/
structure MArr where
  addr : Nat
  pitch : Nat
  bit0 : Nat
  bits : Nat
  width : Nat
  rowsF : Nat
  rows : Nat
  dst : Nat
  dstPitch : Nat
deriving DecidableEq, Repr

/-- A load of an M-cell (R94, R99, R100): what it loads and into which stores. -/
structure MLoad where
  /-- operand A: its half 0, 1 or 2 (ALL); none for B and ACC -/
  half : Option Nat
  /-- accumulator tile of an ACCLD -/
  tile : Option Nat
  int : Bool
  elems : MArr
  scales : Option MArr
  aux : Option MArr
deriving DecidableEq, Repr

/-- What becomes of a completed access's data (R122, R144, R99). -/
inductive Dest where
  | none
  /-- V-cell: vector register, TY and the active-lane mask; the address of byte 0 -/
  | vreg (v ty mask addr : Nat)
  /-- V-cell address register -/
  | areg (a addr : Nat)
  /-- S-cell register, size in bytes, sign extension -/
  | sreg (r size : Nat) (signed : Bool) (addr : Nat)
  /-- S-cell register that takes an atomic's old value -/
  | samo (r size addr : Nat)
  | mload (l : MLoad)
  /-- a beat of a crier send: the address of its first byte, and its bytes (R176) -/
  | crier (send beat addr bytes : Nat)
  /-- a flit of a caravan's stream (R183) -/
  | caravan (stream flit addr bytes : Nat)
  /-- an accumulator tile's store (R105) -/
  | mstore (tile : Nat)
deriving DecidableEq, Repr

/-- One line access still to be granted (R163). `line` is the line's number in its physical block; `rank` its rank at the bank
(R162); `cls` its class on a spine (R172); `issued`: it has been presented, and waits (R163). -/
structure Claim where
  access : Nat
  block : Nat
  line : Nat
  rank : Nat
  op : LineOp
  cls : Nat := 1
  issued : Bool := false
deriving DecidableEq, Repr

/-- An access in progress: its issuer, what its data is for, and the lines still out. -/
structure Access where
  who : Requester
  part : Nat
  dest : Dest
  /-- bytes gathered so far, keyed physical block * 2^25 + offset -/
  got : Mem
  left : Nat
  /-- its writes that were discarded (R165) -/
  lost : Nat
  store : Bool
deriving DecidableEq, Repr

/-- A delivery mark (R180, R185): 0 DELIVERED, else DROPPED with WRITE_LOST 1, SOURCE_ERROR 2, TARGET_RESET 3,
SOURCE_RESET 4. -/
structure Mark where
  block : Nat
  reason : Option Nat
deriving DecidableEq, Repr

/-- A crier send (R176-R180). `beats`: those of the stages granted, or admitted by the device root; `data`: source beats read so far;
`dead`: targets that discarded a beat under reset; `lostAt`: targets at which a line was lost. -/
structure CrierSend where
  id : Nat
  device : Bool
  part : Nat
  resetGen : Nat
  /-- source: physical block and line, or a hub buffer's bytes -/
  src : Option (Nat × Nat)
  hub : List (BitVec 8)
  bytes : Nat
  dstLine : Nat
  targets : List Nat
  beats : Nat
  marks : List Mark
  /-- what the send is for: 0 a carrier stream, 1 a milestone line, 2 Innkeeper -/
  why : Nat
  /-- the carrier whose stream it is -/
  sender : Nat
  lostAt : List Nat
  /-- a source line met an uncorrectable error (2), or the source block was reset (4): no further stage -/
  stopped : Option Nat
  data : Tab (List (BitVec 8)) := []
  dead : List Nat := []
  /-- region criers that have placed the last beat, and targets whose mark has left -/
  doneIn : List Nat := []
  marked : List Nat := []
deriving DecidableEq, Repr

/-- A stage on a region crier, or held for it by the device root: its send, the next beat and the beat after its last. -/
structure Stage where
  send : Nat
  next : Nat
  stop : Nat
deriving DecidableEq, Repr

/-- A region crier (R178, R179): the stage on it, the CLK_SPN at which its slot ends, slots in a row that carried device stages, the
source block served last, and the device stages held for it, at most two. -/
structure Crier where
  cur : Option Stage := none
  slotEnd : Nat := 0
  run : Nat := 0
  last : Option Nat := none
  held : List Stage := []
  /-- a replayed beat is placed no sooner (R175) -/
  hold : Nat := 0
  /-- the CLK_SPN of its last beat, and the fixed unit its port served last (R188) -/
  beatAt : Option Nat := none
  lastUnit : Nat := 7
deriving DecidableEq, Repr

/-- A caravan (R181). -/
structure Caravan where
  part : Nat
  members : List (Nat × Nat)
  headroom : Nat
  /-- writes in flight to it -/
  inFlight : Nat
deriving DecidableEq, Repr

/-- A carrier's stream to a caravan (R183): its source line in a physical block, caravan-relative offset and length, flits whose source
line has been read, and the next copy: flit, member. `left`: copies whose writes are not complete. -/
structure CaravanStream where
  id : Nat
  carrier : Nat
  key : Nat
  part : Nat
  off : Nat
  bytes : Nat
  members : List (Nat × Nat)
  data : Tab (List (BitVec 8))
  flit : Nat
  member : Nat
  access : Nat
deriving DecidableEq, Repr

/-- A replacement or release that waits for a caravan's writes in flight (R182). -/
structure CaravanWait where
  key : Nat
  ring : Nat
  replace : Option Caravan
deriving DecidableEq, Repr

/-- A node's ports on a flit's way: node 0-5 a region's spine, 6 the hub switch (R171, R555). -/
structure SHop where
  node : Nat
  inp : Nat
  out : Nat
deriving DecidableEq, Repr

/-- Virtual channels (R172). -/
inductive VChan where
  | request | response | control | management
deriving DecidableEq, Repr

/-! ## Requests to main memory (R224-R228) -/

/-- Who a memory request is for (R224): nobody, a walk (R259), a window operation, an engine's access, a key sweep's line, its flip or its
bitmap read (R243, R245), a carve-out wipe (R248), a parity engine's row (R234), a reconstruction (R235), or a rewrite after a correction
(R226, R236). -/
inductive MemWho where
  | none
  | walk (block slot : Nat)
  | win (op : Nat)
  | engine (id : Nat)
  | sweep (part : Nat)
  | flip (part : Nat)
  | bitmap (part : Nat)
  | wipe (part : Nat)
  | row (id : Nat)
  | rebuild (id : Nat)
  | repair
deriving DecidableEq, Repr

/-- A request to a memory controller (R224-R228). -/
structure MemReq where
  id : Nat
  line : Nat
  write : Bool
  /-- class P3 when true, else P1 -/
  p3 : Bool := false
  /-- order in which requests became present in the queue -/
  seq : Nat := 0
  /-- bytes written: offset in the line and data; a full line is 64 bytes from 0 -/
  lo : Nat := 0
  data : List (BitVec 8) := []
  /-- a partial write still to read its line first (R228) -/
  partial' : Bool := false
  /-- for a write that came as a partial one: the `seq` at which it became present -/
  after : Option Nat := none
  /-- it writes the whole line, whatever the line held (R239) -/
  clears : Bool := false
  /-- a window atomic: its bank sub-operation and operand (R167, R272) -/
  amo : Option (Nat × Nat) := none
  /-- replayed: the frame in which it failed (R238) -/
  replay : Option Nat := none
  /-- frames it has been present, for R418 -/
  frames : Nat := 0
  who : MemWho
  /-- the regulated master's key and whether it was issued as P3 (R410, R414) -/
  reg : Option (Nat × Bool) := none
  /-- the writes that have merged into it (R228) -/
  more : List (Nat × MemWho × Option (Nat × Bool)) := []
deriving DecidableEq, Repr

/-- What a flit carries (R171, R172). -/
inductive FlitLoad where
  /-- a slice access's line, which claims its bank -/
  | claim (c : Claim)
  /-- the answer to one: read data or an atomic's old word, or a write's status -/
  | reply (access : Nat) (bytes : List (Nat × BitVec 8)) (lost : Bool)
  /-- a waybill on its way to a queue, a signal to the fence store, a predicate to its dispatcher: found by the flit's number -/
  | waybill | fence | pred
  /-- an FSIG's status: cell, register, status -/
  | fsig (c rd status : Nat)
  /-- a delivery mark: send, target, reason -/
  | mark (send target : Nat) (reason : Option Nat)
  /-- a request to its line's memory controller -/
  | memory (r : MemReq)
  /-- its answer: the request's number and line, the line's bytes or none for POISON, and its master's count -/
  | memReply (id line : Nat) (data : Option (List (BitVec 8))) (reg : Option (Nat × Bool))
deriving DecidableEq, Repr

/-- A flit: the rest of its way, whether it holds a place in the first node's inbound buffer, the CLK_SPN from which it may leave there,
and the one in which it was sent. An empty way: it has left its last node and crosses to its target. -/
structure SFlit where
  id : Nat
  load : FlitLoad
  vc : VChan
  cls : Nat
  way : List SHop
  inside : Bool
  ready : Nat
  born : Nat
deriving DecidableEq, Repr

/-- The region spines and the hub switch (R171-R175): CLK_SPN since reset, flits, the input each output served last by class and
channel, places of inbound buffers whose credits are on their way (place, cycle from which the sender may use it), and the failed
checks in a row by hop and flit. -/
structure SpineUnit where
  cycle : Nat
  flits : List SFlit
  nextFlit : Nat
  lastIn : Tab Nat
  credits : List (Nat × Nat)
  fails : List (Nat × Nat × Nat)
  /-- the caravan stream each region's replicator served last (R183) -/
  lastStream : Tab Nat
deriving DecidableEq, Repr

/-- Slices, crossbars, criers, caravans and failed hops. Slice bytes are keyed physical block * 2^25 + offset; caravans
partition * 256 + ID. -/
structure FabricUnit where
  blocks : Tab Block
  slices : Mem
  claims : List Claim
  accesses : Tab Access
  nextAccess : Nat
  lostWrites : Tab Nat
  sends : List CrierSend
  nextSend : Nat
  /-- region criers, and the source block the device root served last (R178) -/
  criers : Tab Crier
  deviceLast : Option Nat
  caravans : Tab Caravan
  caravanWaits : List CaravanWait
  /-- caravan streams under way (R183) -/
  streams : List CaravanStream
  failedHops : List Nat
  /-- flits replayed (R175) -/
  replays : Nat
  /-- banks an atomic holds in its write cycle (R168): block * 128 + slice * 8 + bank -/
  bankHold : List Nat
  /-- completion status of each carrier's last stream (R166, R177, R183): 0 done, 1 BAD_ADDR, 2 LIMIT, 3 WRITE_LOST, 4 a mark was
  not DELIVERED -/
  streamStatus : Tab Nat
  /-- the marks of each carrier's last crier send (R180) -/
  streamMarks : Tab (List Mark)
  /-- region generations (R425) -/
  regionGen : Tab Nat
deriving DecidableEq, Repr

/-! ## Main memory (R214-R250) -/

/-- A read whose data is on its way (R218): the request, the line's bytes, and whether a write entry answered it (R228). -/
structure MemRead where
  req : MemReq
  data : List (BitVec 8)
  entry : Bool := false
deriving DecidableEq, Repr

/-- One subchannel's schedule within the frame (R222-R226): the next slot, the direction, READ and WRITE frames in a row up to this one,
bank targets used, the write granted in the last slot, whether the frame's scrub has been done, and the next line of the scrub. -/
structure SubChan where
  slot : Nat := 0
  write : Bool := false
  reads : Nat := 1
  writes : Nat := 0
  used : List Nat := []
  busy : Option MemReq := none
  scrubbed : Bool := false
  scrub : Nat := 0
deriving DecidableEq, Repr

/-- A memory controller (one channel). -/
structure Ctrl where
  sub0 : SubChan := {}
  sub1 : SubChan := {}
  /-- the frame in force, shared by both subchannels -/
  frame : Nat := 0
  queue : List MemReq := []
  reads : List MemRead := []
  nextSeq : Nat := 0
  /-- groups refreshed, each with the frame of its REFsb, while their hold may last (R225) -/
  refs : List (Nat × Nat) := []
  hot : Bool := false
  hotNext : Bool := false
  poison : List Nat := []
  /-- corrected lines of the last second: rank and device, line, TIME_US of the latest (R219) -/
  corrected : List (Nat × Nat × Nat) := []
  marked : List Nat := []
  /-- ranks' devices with an uncorrectable line (R237) -/
  bad : List Nat := []
  retrains : Nat := 0
  lost : Bool := false
deriving DecidableEq, Repr

/-- The page a channel's sweep has in flight (R243, R245): the lines read into the sweep buffer, how many reads and writes have entered
the queue, the mask of writes done, and its flip: 0 not yet, 1 queued, 2 complete. -/
structure SweepPage where
  page : Nat
  data : Tab (List (BitVec 8)) := []
  asked : Nat := 0
  sent : Nat := 0
  mask : List Nat := []
  flip : Nat := 0
deriving DecidableEq, Repr

/-- A restarted sequencer's reading of its bitmap lines (R245): how many it has read, and whether one is on its way. -/
structure SweepScan where
  read : Nat := 0
  out : Bool := false
deriving DecidableEq, Repr

/-- A rekey sweep of a partition (R242-R245). `pos`: pages released by channel; `stopping`: the partition is being destroyed (R250). -/
structure Rekey where
  newSlot : Nat
  pos : Tab Nat := []
  pages : Tab SweepPage := []
  scans : Tab SweepScan := []
  done : List Nat := []
  stopping : Bool := false
deriving DecidableEq, Repr

/-- A row entry of a region's parity engine (R233, R234): stripe, line index k, lines staged and lines read for a partial flush, by page;
whether its flush has begun and has come to its writes; pages whose read or write has still to enter a queue; requests out; and the
CLK_SPN of its first staged write. -/
structure RowEntry where
  id : Nat
  region : Nat
  stripe : Nat
  k : Nat
  staged : Tab (List (BitVec 8)) := []
  fetched : Tab (List (BitVec 8)) := []
  flushing : Bool := false
  writing : Bool := false
  asks : List Nat := []
  todo : List Nat := []
  out : Nat := 0
  born : Nat := 0
deriving DecidableEq, Repr

/-- A line of a lost DIMM being rebuilt from the stripe's other pages (R235): the read it answers, and the reads still out. -/
structure Rebuild where
  req : MemReq
  left : Nat
deriving DecidableEq, Repr

/-- A DRAM wipe in progress (R246-R249): 0 device, 1 life cycle, 2 carve-out of a partition; lines queued so far by channel. -/
structure DramWipe where
  kind : Nat
  part : Nat
  next : Tab Nat := []
deriving DecidableEq, Repr

/-- A partition's two key slots as the controllers hold them (R240): key numbers, none when erased. -/
structure KeySlots where
  k0 : Option Nat
  k1 : Option Nat
  /-- the slot in force when no sweep runs -/
  cur : Nat
deriving DecidableEq, Repr

/-- Main memory. `dram` holds plaintext bytes by DPA; `written` the lines written since their carve-out was created or
wiped, with the number of the key that encrypts them (R241). -/
structure DramUnit where
  dram : Mem
  written : Tab Nat
  /-- DRAM_RATE in MT/s and DIMM_GB (R215) -/
  rate : Nat
  dimmGb : Nat
  ctrls : Tab Ctrl
  keys : Tab KeySlots
  /-- the device's own two slots (R240) -/
  devKeys : KeySlots
  nextKey : Nat
  /-- pages whose bitmap bit is 1 (R241) -/
  bitmap : Tab Nat
  rekeys : Tab Rekey
  rows : List RowEntry
  nextRow : Nat
  /-- requests held in the parity engines (R232, R234) -/
  rowWait : List MemReq
  rebuilds : Tab Rebuild
  wipes : List DramWipe
  lostDimms : List Nat
  /-- pages (DPA / 4096) written since the pre-copy generation began, by migrating partition (R449) -/
  dirty : Tab (List Nat)
  /-- transactions that wait at their master, with its key (R410, R414) -/
  backlog : List (Nat × MemReq)
  /-- transactions issued or waiting, and whose each is (R410, R423) -/
  txns : Tab MemWho
  nextReq : Nat
deriving DecidableEq, Repr

/-! ## Translation (R251-R275) -/

/-- A DTE held by a BTU (R256): the entry, its context, and whether a prefetch filled it and it is still unused. -/
structure TlbEntry where
  part : Nat
  context : Nat
  vpage : Nat
  dte : Nat
  prefetched : Bool
deriving DecidableEq, Repr

/-- A walk-cache entry (R256). -/
structure WalkEntry where
  part : Nat
  context : Nat
  level : Nat
  vtag : Nat
  dte : Nat
deriving DecidableEq, Repr

/-- A walk in a walk slot (R256, R258). -/
structure Walk where
  part : Nat
  context : Nat
  va : Nat
  write : Bool
  prefetch : Bool
  level : Nat
  table : Nat
  gen : Nat
  /-- the engine whose start waits -/
  engine : Nat
  /-- joined to another walk's read (R260) -/
  joined : Bool
  /-- its read: none while it waits at its master, else the transaction -/
  req : Option Nat
  /-- the read's line has arrived: its bytes, or POISON -/
  ready : Bool
  data : List (BitVec 8) := []
  poison : Bool := false
deriving DecidableEq, Repr

/-- A stream that a carrier or unit runs, as translation sees it (R257, R261): its context, and its pages to come. -/
structure Stream where
  engine : Nat
  part : Nat
  context : Nat
  look : List Nat
  /-- true: the stream writes -/
  write : Bool
deriving DecidableEq, Repr

/-- A block translation unit (R256). Sets are keyed 0-255, each with up to eight ways in way order. -/
structure Btu where
  sets : Tab (Tab TlbEntry)
  ways : Tab Nat
  walkCache : Tab WalkEntry
  walkPtr : Nat
  roots : Tab (Nat × Nat × Nat)
  rootPtr : Nat
  /-- walk slots: 2 * stream, 2 * stream + 1 for prefetch, 128-131 for fixed units -/
  walks : Tab Walk
  streams : Tab Stream
  /-- invalidations received and not yet acknowledged: sync number, and the first transaction that came after it (R265) -/
  scanning : List (Nat × Nat)
deriving DecidableEq, Repr

/-- An invalidation (R265): a MirrorSync or a revocation. -/
structure Sync where
  id : Nat
  part : Nat
  context : Nat
  all : Bool
  gen : Nat
  base : Nat
  pages : Nat
  /-- the ring to answer; none for a revocation's invalidation -/
  ring : Option Nat
  sent : Bool
  /-- blocks whose acknowledgement is still to come -/
  waiting : List Nat
deriving DecidableEq, Repr

/-- An outbound window entry (R268). -/
structure OutWin where
  node : Nat
  valid : Bool
  window : Nat
  part : Nat
  port : Nat
  key : BitVec 64
deriving DecidableEq, Repr

/-- A window table entry's programmable fields (R269). -/
structure WinDef where
  /-- VALID as written -/
  valid : Bool
  srcNode : Nat
  canWrite : Bool
  canRead : Bool
  part : Nat
  keySlot : Nat
  keyAlt : Nat
  altValid : Bool
  base : Nat
  length : Nat
deriving DecidableEq, Repr

/-- A close or replacement of a window that waits for IN_FLIGHT to reach 0 (R270, R271): who is answered, and the new entry. -/
structure WinWait where
  ring : Option Nat
  ref : Option MsgRef
  repl : Option WinDef
deriving DecidableEq, Repr

/-- A window table entry (R269) and what waits for its drain, first in first answered. -/
structure Window where
  cfg : WinDef
  valid : Bool
  inFlight : Nat
  waits : List WinWait
deriving DecidableEq, Repr

/-- An ingress window request admitted and not yet complete (R269, R272): the port and TAG it came with, who is answered, its kind (0 read,
1 write, 2 atomic), the DPA of each byte, the lines that have come, those that came as POISON, and how many are out. -/
structure WinOp where
  port : Nat
  tag : Nat
  node : Nat
  part : Nat
  window : Nat
  kind : Nat
  dpas : List Nat
  got : Mem := []
  bad : List Nat := []
  left : Nat
deriving DecidableEq, Repr

/-- A line of a remote window that an engine has asked for (R268), and its bytes once they have come. -/
structure RemoteLine where
  engine : Nat
  va : Nat
  data : Option (List (BitVec 8))
deriving DecidableEq, Repr

/-- Translation: BTUs by physical block, accepted syncs in order, windows by ID, outbound entries keyed
partition * 256 + index, the window key store, ingress requests under way, and lines of remote windows. -/
structure XlatUnit where
  btus : Tab Btu
  syncs : List Sync
  nextSync : Nat
  out : Tab OutWin
  windows : Tab Window
  keys : Tab (BitVec 64)
  winOps : Tab WinOp
  nextOp : Nat
  remote : List RemoteLine
deriving DecidableEq, Repr

end Sys2Proof.Machine
end

