-- ==== Sys2Proof/Machine/StateCell.lean ====
section
/-! DEFINITION. Sys2Proof/Machine/StateCell.lean: the state of M-, V- and S-cells (03_matrix_cells R78, 04_vector_cells R114,
R129, R133, 05_scalar_cells R137, R149). Cells are keyed by their global number. -/

namespace Sys2Proof.Machine

/-- A REPEAT in progress (R95): first descriptor and number of its span, passes, the pass now, and the steps. -/
structure MRep where
  first : Nat
  span : Nat
  count : Nat
  pass : Nat
  addrStep : Nat
  bStep : Nat
  accStep : Nat
deriving DecidableEq, Repr

/-- The counts of one M-cell operation, in CLK_BLK of the start (R91-R105): the cycle it began, the cycle it completes, its
unit (0 load, 1 array, 2 store), and for a load the cycles at whose end its first and last lines are present. -/
structure MOp where
  unit : Nat
  began : Nat
  done : Nat
  first : Nat
  last : Nat
  /-- tile it names, half it reads or writes -/
  tile : Option Nat
  half : Option Nat
  isB : Bool
deriving DecidableEq, Repr

/-- An M-cell (R78). Bytes of the A buffer and side store not written since the start have no value the spec gives (R80):
`seed` is the free value they come from. -/
structure MCell where
  store : Mem := []
  progLen : Nat := 0
  bBuf : Mem := []
  bScale : Mem := []
  /-- the A buffer and its side store: bytes written since the start, by address; side-store scales from 65,536, bitmaps from
  69,632 -/
  aBuf : Tab (BitVec 8) := []
  seed : Nat := 0
  /-- accumulator words: tile * 4096 + row * 64 + column; a word that is not listed is zero -/
  acc : Tab Nat := []
  /-- tiles whose type is INT32 (R111) -/
  intTiles : List Nat := []
  pc : Nat := 0
  rep : Option MRep := none
  /-- EMIT_STATUS (R97) -/
  emitStatus : Nat := 0
  accNan : Bool := false
  lostWrites : Nat := 0
  emitted : Nat := 0
  /-- next issue cycle of the sequencer and the operations of this start, newest first (R91) -/
  issue : Nat := 7
  ops : List MOp := []
deriving DecidableEq, Repr

/-- One selection of the top-k unit (R129): k, its mode, its index counter, the elements offered (FP32 code and index, in the
selection's order, at most k kept), how many were offered, and whether it is open. `lastPush` is L of R130. -/
structure Sel where
  k : Nat
  smallest : Bool
  counter : Nat
  items : List (Nat × Nat)
  isOpen : Bool
  lastPush : Nat
deriving DecidableEq, Repr

/-- The issue scoreboard of a V- or S-cell (R123, R144): the earliest next issue, the cycle from which a register is usable by
its code, when units are free, the last line-issue cycles of the slice ports and the last store completion. `four` holds, latest
first, up to four cycles: those in which a V-cell's slice accesses begin, or from which an S-cell's outstanding operations are done;
`stores` the lines of slice stores with the cycles in which they complete. -/
structure Board where
  next : Nat := 7
  usable : Tab Nat := []
  sfuFree : Nat := 0
  gatherFree : Nat := 0
  divFree : Nat := 0
  loadAt : Nat := 0
  storeAt : Nat := 0
  storeDone : Nat := 0
  four : List Nat := []
  stores : List (Nat × Nat) := []
deriving DecidableEq, Repr

/-- A V-cell (R114, R133). -/
structure VCell where
  store : Mem := []
  progLen : Nat := 0
  paramLen : Nat := 0
  local' : Mem := []
  /-- vector registers: register * 64 + lane; an unlisted lane is zero -/
  v : Tab Nat := []
  /-- p1-p7 -/
  p : Tab Nat := []
  /-- a1-a15 -/
  a : Tab Nat := []
  pc : Nat := 0
  /-- selections held, oldest first -/
  sels : List Sel := []
  status : Nat := 0
  emitStatus : Nat := 0
  emitCount : Nat := 0
  rngLo : Nat := 0
  rngHi : Nat := 0
  /-- bits [63:32] of the cycle counter as latched by a read of CYCLE_LO -/
  cycleHi : Nat := 0
  lostWrites : Nat := 0
  /-- registers whose slice load is under way: 0-31 vector, 64-79 address -/
  pend : List Nat := []
  /-- a DRAIN waits for every earlier slice store -/
  drain : Bool := false
  board : Board := {}
deriving DecidableEq, Repr

/-- A WAITQ in progress (R154): destination register, input mask, and the block cycle at which it times out. -/
structure WaitQ where
  rd : Nat
  mask : Nat
  deadline : Option Nat
deriving DecidableEq, Repr

/-- An S-cell (R137, R149). -/
structure SCell where
  store : Mem := []
  progLen : Nat := 0
  paramLen : Nat := 0
  /-- 0 station engine, 1 general steward, 2 session steward -/
  role : Nat := 0
  local' : Mem := []
  /-- s1-s31 -/
  s : Tab Nat := []
  pc : Nat := 0
  status : Nat := 0
  emitStatus : Nat := 0
  emitCount : Nat := 0
  lostWrites : Nat := 0
  /-- registers whose value is on its way: slice loads, AMO, FSIG and PRED -/
  pend : List Nat := []
  drain : Bool := false
  wait : Option WaitQ := none
  board : Board := {}
deriving DecidableEq, Repr

/-- The cells. The bind image that a spare or a restart reloads (R79, R116, R138, R436) is kept by cell: program, parameters. -/
structure CellUnit where
  m : Tab MCell
  v : Tab VCell
  s : Tab SCell
  images : Tab (List (BitVec 8) × List (BitVec 8))
  /-- cells retired (R436), by global number -/
  retired : List Nat
  /-- single-bit errors corrected in cell stores -/
  corrected : Nat
  /-- cell generations (R425) -/
  gens : Tab Nat
deriving DecidableEq, Repr

end Sys2Proof.Machine
end

