-- ==== Sys2Proof/Machine/StateUnits.lean ====
section
/-! DEFINITION. Sys2Proof/Machine/StateUnits.lean: the state of dispatch and combine units and of gathers
(07_conditional_computation). Units are keyed by their 16-bit engine ID. -/

namespace Sys2Proof.Machine

/-- One delivery of a dispatch start (R197): its queue and route tag, the lowest member expert, the occupied slots of a pack (0
for an unpacked expert), and its rows: a token of the activation tile, or none for a zero row. -/
structure Delivery where
  queue : Nat
  tag : Nat
  lowest : Nat
  slots : Nat
  rows : List (Option Nat)
deriving DecidableEq, Repr

/-- What a dispatch start has decided before it writes its stage slot (R194-R199). -/
structure DispPlan where
  table : Nat
  /-- route-map words, row after row -/
  map : List Nat
  dels : List Delivery
  dropped : Bool
deriving DecidableEq, Repr

/-- A dispatch start on a unit: its start count (R200, R201), and its plan once it has read its inputs. -/
structure DispRun where
  count : Nat
  plan : Option DispPlan
deriving DecidableEq, Repr

/-- A VALID route-map entry (R199): token row, delivery, row in the delivery, FP32 gate weight. -/
structure MapEntry where
  token : Nat
  delivery : Nat
  row : Nat
  weight : Nat
deriving DecidableEq, Repr

/-- An open batch of a combine unit (R204-R207). -/
structure CombBatch where
  batch : Nat
  map : Waybill
  entries : List MapEntry
  /-- T × TOPK entries it occupies -/
  size : Nat
  nDel : Nat
  received : List Nat
  abandoned : Bool
  /-- the accesses that zero its output tile, and those that add results to it (R204, R207) -/
  zero : List Nat
  adds : List Nat
deriving DecidableEq, Repr

/-- A combine unit (R204, R206): inputs taken from the dispatcher and not yet processed, open batches, held results in arrival order,
the last 64 closed batches, and deliveries reported ABANDONED whose batch is not yet open (batch, delivery). -/
structure CombUnit where
  taken : List (Nat × Waybill)
  batches : List CombBatch
  held : List Waybill
  closed : List Nat
  early : List (Nat × Nat)
  /-- batches opened since the bind -/
  opened : Nat
deriving DecidableEq, Repr

/-- Dispatch units, combine units and gathers. Starts passed to units since the bind (R200) and gather output counts (R211) are
kept by station, F0 of R201 by engine, and LOST_WRITES of a unit's own writes in the fabric. -/
structure FixedUnit where
  disp : Tab DispRun
  comb : Tab CombUnit
  starts : Tab Nat
  outs : Tab Nat
  f0 : Tab Nat
deriving DecidableEq, Repr

end Sys2Proof.Machine
end

