-- ==== Sys2Proof/Machine/StateLink.lean ====
section
/-! DEFINITION. Sys2Proof/Machine/StateLink.lean: the state of Ralut ports (13_ralut_link) and of collective engines and pace (14_fabric_jobs). Ports are numbered 0-11 for F0-F11, 12 and 13 for
H0 and H1. -/

namespace Sys2Proof.Machine

/-- State of a port (R368). -/
inductive PortState where
  | down | pmdTrain | align | ident | active | quarantined | probation | doze
deriving DecidableEq, Repr

/-- A message received whole and not yet acted on: its source node, VC, and bytes from the transaction header on (R379). -/
structure RxMsg where
  src : Nat
  vc : Nat
  flits : Nat
  bytes : List (BitVec 8)
deriving DecidableEq, Repr

/-- A message being received on a VC (R373): `bad` when a violation discards it. -/
structure RxPart where
  src : Nat
  flits : Nat
  bytes : List (BitVec 8)
  bad : Bool
deriving DecidableEq, Repr

/-- A message waiting to be sent, or being sent: partition, VC, destination node, bytes, flits already sent, and for a QP_SEND
its send end and TAG. -/
structure TxMsg where
  part : Nat
  vc : Nat
  dest : Nat
  bytes : List (BitVec 8)
  sent : Nat
  qp : Option (Nat × Nat)
deriving DecidableEq, Repr

/-- What an outstanding TAG waits for (R379, R380). -/
inductive TagUse where
  /-- a HOST_READ whose data goes to a slice key, or to the front end when none -/
  | hostRead (dst : Option Nat)
  /-- a QP_SEND of a send end -/
  | qpSend (queue : Nat)
  /-- a request of an outbound window by an engine, at a virtual address, and the number of its access -/
  | window (engine va txn : Nat)
deriving DecidableEq, Repr

structure TagEntry where
  tag : Nat
  part : Nat
  /-- reset generation at the request (R426) -/
  gen : Nat
  use : TagUse
deriving DecidableEq, Repr

/-- A spare swap in progress (R371): the position, the group at which each direction moves, and whether the partner has answered. -/
structure Swap where
  position : Nat
  txAt : Nat
  rxAt : Option Nat
deriving DecidableEq, Repr

/-- A Ralut port. Lists of four are by VC: REQ, RSP, QP, MGMT. -/
structure LPort where
  state : PortState
  /-- lane of each active position, and the state of the spare: 0 none, 1 idle and good, 2 failed, 3 in use -/
  lanes : List Nat
  spare : Nat
  flight : Nat
  /-- the echo round trip measured in this training, in CLK_LNK (R367) -/
  trip : Option Nat
  /-- this training keeps the replay buffer and sequence numbers (R375) -/
  keep : Bool
  /-- a PortReadmit to be answered on entering PROBATION (R386) -/
  readmit : Option MsgRef
  /-- what the partner's IDENT says (R369): kind (0 module, 1 switch, 2 host adapter), port name, node and variant -/
  partnerKind : Nat
  partnerPort : Nat := 0
  partnerNode : Nat
  partnerVariant : Nat := 0
  partnerQuarantined : Bool
  swap : Option Swap
  /-- link cycle counter (R36) -/
  cycles : Nat
  /-- receive side: next SEQ, discarding until it arrives, messages in progress, flits held and flits freed per VC -/
  expected : Nat
  naking : Bool
  /-- a NAK is to go out with the next flit, and the last SEQ discarded while the receiver waits for a replay -/
  nakDue : Bool
  lastBad : Nat
  partial' : Tab RxPart
  rxHeld : List Nat
  rxFreed : List Nat
  inbox : List RxMsg
  /-- transmit side: next SEQ, SEQ of the oldest unacknowledged flit, unacknowledged flits, SEQs to be sent again, the ACK_SEQ of a
  NAK received and not yet acted on -/
  nextSeq : Nat
  replay : Tab Nat
  resend : List Nat
  nak : Option Nat
  /-- the flit that failed last and how often in a row (R375) -/
  failSeq : Nat
  fails : Nat
  ctrl : List (List (BitVec 8))
  tx : List TxMsg
  /-- credits in hand, the partner's buffers, and the last CREDIT_TOTAL per VC -/
  credit : List Nat
  bufs : List Nat
  credTot : List Nat
  outstanding : List TagEntry
  nextTag : Nat
  /-- flits sent since training, slot counter, slot of the last MGMT flit, partition served last -/
  flitCount : Nat
  slot : Nat
  mgmtSlot : Option Nat
  lastPart : Nat
  /-- violations counted in the 1 s window of that number (R385) -/
  vioWindow : Nat
  vioCount : Nat
  /-- TIME_US before which a DOWN port does not train again (R368) -/
  retryAt : Nat
  /-- TIME_US at which PROBATION ends, and before which PortReadmit is turned away -/
  probationEnd : Nat
  noReadmit : Nat
deriving DecidableEq, Repr

/-- Collective group of a partition (R390). -/
structure Group where
  members : Nat
  rank : Nat
  nextNode : Nat
  prevNode : Nat
  nextPart : Nat
  port : Nat
  gen : Nat
deriving DecidableEq, Repr

/-- A segment received for a collective (R399): source node, partition, group, generation, step, COLL_SEQ, index, bytes. -/
structure CollSeg where
  src : Nat
  part : Nat
  group : Nat
  gen : Nat
  step : Nat
  seq : Nat
  index : Nat
  bytes : List (BitVec 8)
deriving DecidableEq, Repr

/-- A collective start on an engine (R395): its COLL_SEQ, group and generation, the next step and segment to send, and the segments
made ready, as step * 2^24 + index. -/
structure CollRun where
  seq : Nat
  group : Nat
  gen : Nat
  sendStep : Nat
  sendSeg : Nat
  ready : List Nat
  /-- elements to which error feedback has been applied, or all of them where it is not asked for (R398) -/
  fed : Nat
deriving DecidableEq, Repr

/-- Pace of a partition (R405, R406): windows in a row below 0.9, windows in a row at or above 0.95, whether a notice is in force,
TIME_US of the last notice, and of the window that runs its blocks' cycle counters and TIME_US at its start. -/
structure Pace where
  low : Nat := 0
  high : Nat := 0
  noticed : Bool := false
  lastNotice : Nat := 0
  seen : Tab Nat := []
  start : Nat := 0
deriving DecidableEq, Repr

/-- Ports, collectives and pace. Groups are keyed partition * 256 + GROUP; collective runs and arrival stores by port. -/
structure LinkUnit where
  ports : Tab LPort
  groups : Tab Group
  colls : Tab CollRun
  arrivals : Tab (List CollSeg)
  /-- COLL messages dropped and counted (R399) -/
  dropped : Nat
  pace : Tab Pace
  /-- frequency ceiling of a partition in MHz (R408) -/
  paceCap : Tab Nat
deriving DecidableEq, Repr

end Sys2Proof.Machine
end

