-- ==== Sys2Proof/Machine/StateSession.lean ====
section
/-! DEFINITION. Sys2Proof/Machine/StateSession.lean: the state of sessions, mirrors and request ownership (10_session_service,
12_composition R358-R362, 16_failure_hiding R438-R440) and of reckonings (18_reckoning). -/

namespace Sys2Proof.Machine

/-! ## Sessions -/

/-- What a session does, waiting apart (R290). -/
inductive SessState where
  | prefill | decode | idle
deriving DecidableEq, Repr

/-- A token record still to be written (R298, R302): whether its mirror entry has been acknowledged. -/
structure TokRec where
  token : Nat
  index : Nat
  fin : Bool
  reason : Nat
  stop : Nat
  acked : Bool
deriving DecidableEq, Repr

/-- A session (R285-R303), keyed by SLOT. `plan` is partition * 16 + PLAN_ID and `k` its place in the plan's tables. -/
structure Sess where
  part : Nat
  plan : Nat
  k : Nat
  gen : Nat
  context : Nat
  req : Nat
  temperature : Nat
  topP : Nat
  topK : Nat
  seed : Nat
  maxNew : Nat
  eos : Nat
  stops : List (List Nat)
  state : SessState
  /-- tokens by position -/
  tokens : List Nat
  /-- tokens sampled and not yet taken by Innkeeper (R293, R297) -/
  taken : List Nat
  /-- positions prefilled -/
  filled : Nat
  /-- tokens of the current generation and of all generations (INDEX of the next) -/
  made : Nat
  index : Nat
  /-- number of the current generation, so that late tokens are discarded -/
  round : Nat
  fails : Nat
  pages : List Nat
  /-- order of admission; step served last; order of preemption; when its generation ended -/
  admitted : Nat
  served : Nat
  preempted : Option Nat
  endedAt : Nat
  /-- pages are taken when the step in flight completes (R296) -/
  robbed : Bool
  recs : List TokRec
  /-- one more than the highest INDEX whose record is in the ring -/
  confirmed : Nat
  /-- a SessionClose waits: the ring it answers -/
  closing : Option Nat
  /-- the context was revoked: the session closes, and nothing is answered -/
  abandoned : Bool
deriving DecidableEq, Repr

/-- A sampled token on its way to Innkeeper (R293): session slot, GEN, round, token. -/
structure TapNote where
  slot : Nat
  gen : Nat
  round : Nat
  token : Nat
deriving DecidableEq, Repr

/-- A mirrored session at a companion (R439), keyed by its handle at the source. `records` are the END and TOKEN entries past
CONFIRMED, whose records the ring may not hold. -/
structure Mirror where
  /-- the SessionOpen record and the stop entries' words -/
  record : Nat
  stops : List (List Nat)
  maxNew : Nat
  tokens : List Nat
  made : Nat
  index : Nat
  idle : Bool
  records : List TokRec
deriving DecidableEq, Repr

/-- A holding partition at a companion (R438, R439): whose sessions it mirrors, the mirrors, bytes written, and the manifest chunks. -/
structure Holding where
  node : Nat
  part : Nat
  mirrors : Tab Mirror
  bytes : Nat
  manifest : List (List (BitVec 8))
deriving DecidableEq, Repr

/-- A request's home record (R358): owner, generation, and deadline; the partition the owner serves it in. -/
structure HomeRec where
  owner : Nat
  gen : Nat
  deadline : Nat
  ownerPart : Nat
deriving DecidableEq, Repr

/-- The owner's side of a request whose home is another module, or that this module hands off (R360, R361). `handing` is the target
node while a hand-off runs; `waiting` when a target sent its LeaseAccept, until it has a LeaseGrant. -/
structure Lease where
  gen : Nat
  homeNode : Nat
  homePart : Nat
  /-- the session's slot here -/
  slot : Nat
  validUntil : Nat
  renewAt : Nat
  waiting : Option Nat
  handing : Option Nat
  transfer : Nat
  offered : Bool
deriving DecidableEq, Repr

/-- Sessions, mirrors and ownership. Holdings are keyed by holding partition; home records and leases partition * 2^32 +
REQUEST_ID. -/
structure SessUnit where
  sessions : Tab Sess
  /-- GEN of the last use of each SLOT -/
  gens : Tab Nat
  taps : List TapNote
  /-- results that named no outstanding row (R293) -/
  strays : Nat
  nextOrder : Nat
  holdings : Tab Holding
  homes : Tab HomeRec
  leases : Tab Lease
  /-- work dropped for a stale generation (R361) -/
  stale : Nat
  nextTransfer : Nat
deriving DecidableEq, Repr

/-! ## Reckonings -/

/-- An open account (R472-R479): START_US, context and session of its record, flags of R480 byte 13, energies by category in µJ, when
a direct charge last reached it, and whether it received energy in this epoch. -/
structure Account where
  part : Nat
  req : Nat
  start : Nat
  context : Nat
  session : Nat
  flags : Nat
  compute : Int
  slice : Int
  dram : Int
  link : Int
  shared : Int
  lastCharge : Nat
  charged : Bool
deriving DecidableEq, Repr

/-- A closed reckoning (R480, R481): its account, SEQ and END_US. Energy of the window in which it closed still reaches it at the
window's end (R476). -/
structure Leaf where
  seq : Nat
  endUs : Nat
  acct : Account
deriving DecidableEq, Repr

/-- A closed epoch whose root is still to be signed (R481, R483). -/
structure Epoch where
  num : Nat
  opened : Nat
  closed : Nat
  metered : Nat
  leaves : List Leaf
deriving DecidableEq, Repr

/-- A reckoning ring entry that waits (R484, R485): KIND, PART, EPOCH and its payload from byte 16. -/
structure RingItem where
  kind : Nat
  part : Nat
  epoch : Nat
  payload : Nat
deriving DecidableEq, Repr

/-- Reckonings. Accounts are keyed partition * 2^32 + REQ_ID; the house account of p has REQ_ID 0, the operator account key 0.
`steps` holds the energy charged to session step IDs, `doneSteps` the REQ_ID and COUNT of the rows of steps that have completed
since the last window (R477). -/
structure ReckUnit where
  accounts : Tab Account
  steps : Tab Account
  doneSteps : Tab (List (Nat × Nat))
  nextSeq : Nat
  epoch : Nat
  opened : Nat
  metered : Nat
  /-- first window's begin and last window's end in this epoch -/
  firstWin : Option Nat
  lastWin : Nat
  leaves : List Leaf
  unsigned : List Epoch
  prevRoot : Option Nat
  /-- entries waiting for ring room, by partition -/
  held : Tab (List RingItem)
  /-- nJ of this window, and the remainder of R471; samples in it -/
  acc : Nat
  rem : Nat
  samples : Nat
  /-- S_p in 1/11520 by partition: as the last regulation window fixed it, and as the reconciliation window in force uses it (R473, R490) -/
  shares : Tab Nat
  winShares : Tab Nat
  /-- windows in which RECKONING_FULL was sent, by partition -/
  fullAt : Tab Nat
  /-- µJ by partition since the last live reading, measured, and by domain (R488) -/
  live : Tab Nat
  liveMeter : Nat
  liveDomains : Tab Nat
  /-- SHARED_W and LOSS_PPM of the calibration record (R470, R473) -/
  calShared : Nat
  calLoss : Nat
deriving DecidableEq, Repr

end Sys2Proof.Machine
end

