-- ==== Sys2Proof/Machine/StateService.lean ====
section
/-! DEFINITION. Sys2Proof/Machine/StateService.lean: the state of the device as a whole, of Innkeeper's services, and of the
chapters that serve them (01_architecture, 10_session_service, 13 to 21). -/

namespace Sys2Proof.Machine

/-- STATE of the identity header (R306). -/
inductive DevState where
  | starting | ready | doze | withdrawn | recovery | halted
deriving DecidableEq, Repr

/-- A steward (R150-R156), keyed by global cell. -/
structure Steward where
  part : Nat
  context : Nat
  role : Nat
  programHandle : Nat
  programOff : Nat
  programLen : Nat
  paramHandle : Nat
  paramLen : Nat
  /-- IN_Q[0..3]: none where VALID is 0 -/
  inQ : List (Option Nat)
  running : Bool
  /-- a StewardDismiss waits for outstanding operations: the ring it answers -/
  dismissing : Option Nat
  /-- dismissed by a revocation: issue has stopped and no ring is answered -/
  revoked : Bool
  /-- the plan it serves, keyed partition * 16 + PLAN_ID -/
  plan : Option Nat
deriving DecidableEq, Repr

/-- A row of a step in flight (R291-R293): session slot, GEN and round, first position, COUNT, PREFILL, SAMPLE, and whether it has
returned. -/
structure StepRow where
  slot : Nat
  gen : Nat
  round : Nat
  pos : Nat
  count : Nat
  prefill : Bool
  sample : Bool
  /-- false when the row's results are to be discarded (R296, R297, R304) -/
  live : Bool
  returned : Bool
deriving DecidableEq, Repr

/-- A step in flight: its number and when its manifest was sent. -/
structure Step where
  n : Nat
  begun : Nat
  rows : List StepRow
deriving DecidableEq, Repr

/-- A serving plan (R282, R283), keyed partition * 16 + PLAN_ID. -/
structure Plan where
  context : Nat
  stewardCell : Nat
  entryQ : Nat
  resultQ : Nat
  tokenRing : Nat
  kvPool : Nat
  kvPages : Nat
  kvPageBytes : Nat
  tableHandle : Nat
  logHandle : Nat
  vocab : Nat
  contextMax : Nat
  stepTokens : Nat
  maxBatch : Nat
  prefillChunk : Nat
  stepTimeoutMs : Nat
  sessionMax : Nat
  manifestAddr : Nat
  manifestSlots : Nat
  tapQ : Nat
  ostlerQ : Nat
  /-- next step number, steps in flight oldest first -/
  nextStep : Nat
  steps : List Step
  /-- pool pages held by sessions -/
  usedPages : List Nat
  /-- SESSION_UNMIRRORED has been sent (R302) -/
  unmirrored : Bool
deriving DecidableEq, Repr

/-- A request in an admission queue of Innkeeper (R278): its class and partition, and which request it is. -/
structure InnItem where
  cls : Nat
  part : Nat
  key : Nat
deriving DecidableEq, Repr

/-- Innkeeper's queues and small services (R276-R281). -/
structure SvcUnit where
  /-- host requests admitted and not begun, in order of arrival (R277, R278) -/
  waiting : List InnItem
  /-- the partition served last, by class (R277) -/
  lastServed : Tab Nat
  /-- earliest TIME_US of a resend, keyed by the request it belongs to (R12) -/
  retry : Tab Nat
  /-- cancel sets: request ID and TIME_US of entry, keyed by partition (R281) -/
  cancel : Tab (Tab Nat)
  /-- milestone lines: offset and sends since MilestoneSet, keyed by partition (R280) -/
  milestone : Tab (Nat × Nat)
  stewards : Tab Steward
  plans : Tab Plan
deriving DecidableEq, Repr

/-- What kind of master is frozen (R492 KIND, R505). -/
inductive MasterKind where
  | cell | carrier | unit | port
deriving DecidableEq, Repr

/-- A frozen master (R505): its kind and number, the violation's code, its partition and the address. -/
structure Frozen where
  kind : MasterKind
  num : Nat
  code : Nat
  part : Nat
  addr : Nat
deriving DecidableEq, Repr

/-! ## Failure hiding (R424-R451) -/

/-- The reset that follows a hang capture (R427, R428, R430, R431). -/
inductive ResetOf where
  | engine (e : Nat)
  | station (p id : Nat)
  | block (b : Nat)
  | part (p : Nat)
  /-- a frozen master released by the operator (R506) -/
  | master (k : MasterKind) (n : Nat)
  /-- a cell's retirement, with its cause (R436) -/
  | retire (cell cause : Nat)
deriving DecidableEq, Repr

/-- A hang record being captured (R434, R435): the header's CAUSE, SOURCE and STATION, its partition, when it began, the reset
that waits for it, and whether the capture has ended and the reset waits only for its generations (R426). -/
structure Capture where
  part : Nat
  cause : Nat
  source : Nat
  station : Nat
  begun : Nat
  next : ResetOf
  done : Bool
deriving DecidableEq, Repr

/-- A partition reset whose engines and stewards are not all ready yet (R427, R438): its CAUSE, and the message to be answered. -/
structure PartReset where
  part : Nat
  cause : Nat
deriving DecidableEq, Repr

/-- A withdrawal (R441, R442). -/
structure Withdraw where
  cause : Nat
  evacuable : Bool
  noticed : Nat
deriving DecidableEq, Repr

/-- A portmanteau being sent (R442, R449): the transfer, and for a migration its generation and whether it is frozen. -/
structure Outgoing where
  part : Nat
  node : Nat
  targetPart : Nat
  ports : Nat
  transfer : Nat
  migrate : Bool
  gen : Nat
  frozen : Bool
  /-- every section of the final copy has been sent -/
  saved : Bool
  ref : Option MsgRef
  /-- the stripes that hold a migration's dirty bitmap (R449) -/
  bitmap : List (Nat × Nat) := []
deriving DecidableEq, Repr

/-- A portmanteau chunk received (R445). -/
structure Chunk where
  kind : Nat
  index : Nat
  last : Bool
  data : List (BitVec 8)
deriving DecidableEq, Repr

/-- A transfer being received (R445-R447): the chunks of the portmanteau now arriving, by number; the pre-copy generations received
whole, oldest first; and the final copy once its END section matched, with the message that brought it. -/
structure Incoming where
  node : Nat
  transfer : Nat
  chunks : Tab Chunk
  gens : List (Tab Chunk)
  final : Option (Tab Chunk)
deriving DecidableEq, Repr

/-- What a SESSION section says (R359): the session as its table entry and log give it, and the bytes of its KV pages. -/
structure SessImage where
  sess : Sess
  homePart : Nat
  kv : List (List (BitVec 8))
deriving DecidableEq, Repr

/-- What the MANIFEST, UNITS and STATE sections of a portmanteau say (R444), in named blocks: keys are the tenant's own numbers
(STATION_ID, context tag, INDEX, PLAN_ID, CARAVAN_ID, queue and fence IDs, session slots), and engine and cell numbers count named
blocks. `blocks` holds the source's region by named block, `reckonings` the REQ_ID, context and session of each reckoning closed MOVED
(R479). -/
structure PartImage where
  blocks : Tab Nat
  reckonings : List (Nat × Nat × Nat)
  /-- sealed ranges with their pages carried, and whether pages of sealed ranges were left behind (R504) -/
  sealedRanges : List (Nat × Nat × Nat)
  sealedSets : Tab Nat := []
  sealedLost : Bool
  contexts : Tab Context
  objects : Tab MemObj
  rings : Tab Ring
  fences : Tab Fence
  stations : Tab Station
  queues : Tab TileQ
  engines : Tab Engine
  caravans : Tab Caravan
  windows : Tab OutWin
  plans : Tab Plan
  stewards : Tab Steward
  cells : Tab SCell
  sessions : Tab Sess
  qpairs : Tab QPair
  disp : Tab DispRun
  comb : Tab CombUnit
deriving DecidableEq, Repr

/-- Failure hiding. `hangs` holds the TIME_US of the last hang by engine ID; `captured` the capture count by partition; `status` by
partition: 1 evacuated, 2 abandoned; `age` the µs a station's watchdog has counted since the commit at that time, by station;
`advanced` the TIME_US at which a generation last advanced (R426), keyed 2^20 * domain + number, domain 0 cell, 1 block,
2 partition. -/
structure FailUnit where
  captures : List Capture
  captured : Tab Nat
  hangs : Tab Nat
  resets : List PartReset
  withdraw : Option Withdraw
  status : Tab Nat
  age : Tab (Nat × Nat)
  advanced : Tab Nat
  out : List Outgoing
  inc : List Incoming
deriving DecidableEq, Repr

/-! ## Regulation (R410-R421) -/

/-- A regulated master on a channel group: OT_MIN and OT_MAX of the window in force, transactions outstanding as P1 and as P3, those
waiting at issue, completions in the window, the whole µs at which it had as many as OT_MIN, and the subchannels (channel * 2 +
subchannel) that received a transaction of it in the window. -/
structure RegMaster where
  otMin : Nat
  otMax : Nat
  p1 : Nat
  p3 : Nat
  waiting : Nat
  done : Nat
  demand : Nat
  subs : List Nat
deriving DecidableEq, Repr

/-- Regulation: slow-down steps by group; masters keyed (partition * 256 + order number) * 16 + group; data slots begun in the window
by channel * 2 + subchannel; when the window in force began and when controllers were last sampled. -/
structure RegUnit where
  step : Tab Nat
  masters : Tab RegMaster
  slots : Tab Nat
  begun : Option Nat
  sampled : Option Nat
deriving DecidableEq, Repr

/-! ## Power (R452-R469) -/

/-- A hint of a station (R462, R463): HEAVY or LIGHT, its phase in TIME_US, and whether the phase has begun. -/
structure HintRec where
  heavy : Bool
  start : Nat
  duration : Nat
  begun : Bool
deriving DecidableEq, Repr

/-- A device-wide frequency ceiling of an emergency (R457, R465): whether it is being lowered or held, the ceiling in MHz (1,000: none),
and when it last moved. -/
structure Ceil where
  on : Bool
  mhz : Nat
  moved : Nat
deriving DecidableEq, Repr

/-- What an estimator measured of a block in the last 100 µs (R460): dynamic power and leakage in µW, and the starts that ended: station
key, energy in nJ at 1,000 MHz and V(1,000), and time in ns. -/
structure BlockPower where
  block : Nat
  dyn : Nat
  leak : Nat
  starts : List (Nat × Nat × Nat)
deriving DecidableEq, Repr

/-- Power control. Input power samples in mW, newest first, of the last 10 ms; samples in a row above the cap, above and below the
over-current limits; emergency ceilings; the over-current ceilings by block; junction and DIMM temperatures in tenths of a degree, and
since when all are cool; hints by station; the frequency chosen at the last allotment and the voltage by block, in 1/96 mV; when a
voltage was raised ahead of its frequency; blocks whose dispatcher waits (R460); budgets in mW of the window in force by partition;
profiles keyed block * 2^22 + station: energy and time; droop detectors by island: good samples in a row while stretched; stretched
cycles by island; a trip has happened. -/
structure PowUnit where
  recent : List Nat
  above : Nat
  past : Nat
  under : Nat
  cap : Ceil
  therm : Ceil
  dimm : Bool
  overOn : Bool
  overCeil : Tab Nat
  overMoved : Nat
  temps : Tab Nat
  coolAt : Option Nat
  dimmTemps : Tab Nat
  dimmCool : Option Nat
  hints : Tab HintRec
  chosen : Tab Nat
  volts : Tab Int
  lead : Tab Nat
  throttled : List Nat
  budget : Tab Nat
  profile : Tab (Nat × Nat)
  droop : Tab Nat
  stretched : Tab Nat
  tripped : Bool
deriving DecidableEq, Repr

/-! ## Ageing (R528-R534) -/

/-- What the wear record holds of a cell or an unused spare (R533): its need at 1,000 MHz in mV and its SLOPE in µV per powered hour. -/
structure CellWear where
  need : Nat
  slope : Int
deriving DecidableEq, Repr

/-- A block island as ageing knows it (R528-R534): powered hours and the µs of the hour under way, powered hours and oscillator mean at the
last plan, how many plans there have been, the 25 offsets in mV, the highest frequency whose offset the plan did not have to cap, its logical cells and two spares, its horizon; since when it is due
for a plan, when its quiet window began, whether it is being drained for a quiesce, and when that begins. -/
structure Island where
  hours : Nat
  partUs : Nat
  planH : Nat
  roKhz : Nat
  plans : Nat
  offsets : List Int
  limit : Nat
  cells : List CellWear
  spares : List CellWear
  horizon : Nat
  due : Option Nat
  quiet : Option Nat
  draining : Bool
  quiesceAt : Option Nat
deriving DecidableEq, Repr

/-- What a quiet window measures (R529): the island's need at 400, 700 and 1,000 MHz in mV, each logical cell's and each unused spare's
need at 1,000 MHz, and whether the crossbar and slice replicas need more than the highest voltage allows. -/
structure Measured where
  needs : List Nat
  cells : List Nat
  spares : List Nat
  replicaBad : Bool
deriving DecidableEq, Repr

/-- Ageing: islands by physical block; hours and µs with AON up; the number of the last wear record and its bytes, and the place of the next
one among the flash region's (R533); the hour of the last record, and whether a plan has been made since. -/
structure AgeUnit where
  islands : Tab Island
  moduleH : Nat
  moduleUs : Nat
  seq : Nat
  record : List (BitVec 8)
  place : Nat := 0
  wroteH : Nat
  planned : Bool
deriving DecidableEq, Repr

/-! ## Security (R491-R507) -/

/-- The life-cycle state in the fuses (R497). -/
inductive LcState where
  | factory | owned | service | retired
deriving DecidableEq, Repr

/-- An owner bank: the hashes of its two keys (R497). -/
structure OwnerBank where
  rsa : Nat
  slh : Nat
deriving DecidableEq, Repr

/-- A management session (R332, R333, R495, R496): opened by the owner's keys, or by another module's (its node); the last SEQ accepted
and the last sent; when it was last used; bad tags in a row. -/
structure MgmtSess where
  peer : Option Nat
  seqIn : Nat
  seqOut : Nat
  used : Nat
  badTags : Nat
deriving DecidableEq, Repr

/-- A handshake between HandshakeInit and HandshakeFinish (R495). -/
structure HalfOpen where
  session : Nat
  begun : Nat
  parts : Nat
deriving DecidableEq, Repr

/-- Porter's security state: life cycle and the transition accepted but not yet fused, owner banks, sessions by number, the handshakes
half-open, set keys by SET_ID (as the number of the key), whether a ServiceToken has verified, whether DebugAccess has been served
since boot, and unit registers as debug wrote them. -/
structure SecUnit where
  lc : LcState
  change : Option (LcState × Option OwnerBank)
  banks : List OwnerBank
  sessions : Tab MgmtSess
  half : List HalfOpen
  nextSession : Nat
  sets : Tab Nat
  token : Bool
  debug : Bool
  debugRegs : Tab Nat
deriving DecidableEq, Repr

/-! ## Firmware (R508-R517) -/

/-- An image as its header describes it (R508): HW_TYPE, UNIT_BOUND, UNIT_ID, VERSION, SVN and compatibility vector, whether its keys and
signatures verify, SHA-384 of its header and payload, and its header's 512 bytes. -/
structure FwImage where
  hwType : Nat
  bound : Bool
  unitId : Nat
  version : Nat
  svn : Nat
  vec : List Nat
  verified : Bool
  hash : Nat
  header : Nat
deriving DecidableEq, Repr

/-- What a processor runs: its slot (false A, true B) and its image. -/
structure FwRun where
  slot : Bool
  image : FwImage
deriving DecidableEq, Repr

/-- An activation in progress (R511-R513): the slot and its images by type, types still to switch in order, the unit of the first that
switches now, and when that switch began. -/
structure Activation where
  ref : MsgRef
  slot : Bool
  images : Tab FwImage
  order : List Nat
  unitNow : Nat
  begun : Nat
deriving DecidableEq, Repr

/-- A slot open for writing (R510): BYTES, the session that opened it, and the pieces of the block under way, by BLOCK * 32 + PIECE. -/
structure OpenSlot where
  slot : Bool
  bytes : Nat
  session : Nat
  pieces : Tab (List (BitVec 8))
deriving DecidableEq, Repr

/-- Flash and firmware: the flash by address (an erased byte is listed by what is written; unlisted bytes read 0), the slot open for
writing, what each processor runs and what the activation record names for it, keyed type * 256 + unit, fused SVN minimums by type,
and the activation that runs. -/
structure FwUnit where
  flash : Mem
  opened : Option OpenSlot
  run : Tab FwRun
  record : Tab FwRun
  minSvn : Tab Nat
  act : Option Activation
deriving DecidableEq, Repr

/-! ## Start, doze and pins (R518-R547) -/

/-- What a socket's SPD says (R214): capacity and DRAM density (GB, Gb), rows per bank as a power of two, whether its organisation is the one
of R214 (x4 devices, per subchannel two pseudo-channels of one rank of ten devices), and the data rates it supports in MT/s. -/
structure Dimm where
  gb : Nat
  deviceGb : Nat
  rowBits : Nat
  x4 : Bool
  rates : List Nat
deriving DecidableEq, Repr

/-- What Porter finds at the end of a start step (R523): whether the step succeeded, else its halt code; the images that slots A and B
hold (steps 2 and 4); whether each Zhohi copy's keys and signatures verify (step 3); every socket's SPD, none for an empty one (step 5);
what each island measured, and its ring-oscillator mean (step 6). -/
structure StepInfo where
  ok : Bool
  halt : Nat
  slotA : List FwImage
  slotB : List FwImage
  sig0 : Bool
  sig1 : Bool
  dimms : List (Option Dimm)
  islands : List (Nat × Measured × Nat)
deriving DecidableEq, Repr

/-- Start and pins: steps of R523 that have ended, and whether a start runs; whether its step 1 has failed; the Zhohi copy it uses; a doze
that waits for its conditions (R526); for how many µs DOZE_REQ_N, RESET_N and PWR_EN have been low (none: high); AON up, PWRGD, the input
switch closed, THERM_TRIP_N asserted, SLOT_ID as sampled (R546), and the input's last sample in mV and mA. -/
structure BootUnit where
  running : Bool
  steps : List Nat
  clockBad : Bool
  zhohiCopy : Option Nat
  dozeWait : Bool
  dozeLow : Option Nat
  resetLow : Option Nat
  enLow : Option Nat
  aon : Bool
  pwrgd : Bool
  closed : Bool
  tripPin : Bool
  slotId : Nat
  mv : Nat
  ma : Nat
deriving DecidableEq, Repr

/-- The device as a whole: identity header (R306), time (R36, R37), start and pins. -/
structure SysUnit where
  state : DevState
  variantT : Bool
  serial : Nat
  nodeId : Nat
  capLength : Nat
  fwPorter : Nat
  fwInnkeeper : Nat
  haltCode : Nat
  /-- TIME_US and the boot nonce it belongs to -/
  timeUs : Nat
  bootNonce : BitVec 64
  /-- the capability table as published (R307): its bytes -/
  capTable : Mem
  frozen : List Frozen
  /-- the module cap in W (R456) -/
  capW : Nat
  /-- fields of the Zhohi image that have been written, by body byte offset (R521); the others hold their defaults -/
  zhohi : Tab Nat
  /-- causes of R441 that have passed to device level -/
  devFaults : List Nat
  /-- the unit of each of them, as WithdrawNotice names it (R438) -/
  devUnits : List Nat
deriving DecidableEq, Repr

end Sys2Proof.Machine
end

