-- ==== Sys2Proof/Syntax.lean ====
section
/-! DEFINITION. Sys2Proof/Syntax.lean: the commands the block takes, one constructor per row of the opcode table, with its
operands: numbers of the units, queues and partitions it names, the record or body it carries, and what the environment
decides (a measured sample, an error met, a verdict of a cryptographic check). -/

namespace Sys2Proof

open Machine (MsgRef Charge SessImage PartImage Measured StepInfo BlockPower FwImage LcState)

/-- The commands. -/
inductive Instr where
  /-- CONTEXT_CREATE (R310). -/
  | contextCreate (ring : Nat) (record : BitVec 128)
  /-- CONTEXT_REVOKE (R329). -/
  | contextRevoke (ring : Nat) (record : BitVec 64)
  /-- CONTEXT_REVOKED (R329). -/
  | contextRevoked (p : Nat) (c : Nat)
  /-- CONTEXT_DRAINED (R329). -/
  | contextDrained (p : Nat) (c : Nat)
  /-- MEMORY_OBJECT_CREATE (R311). -/
  | memoryObjectCreate (ring : Nat) (record : BitVec 256)
  /-- MEMORY_OBJECT_RELEASE (R311). -/
  | memoryObjectRelease (ring : Nat) (record : BitVec 64)
  /-- QUEUE_CREATE (R314). -/
  | queueCreate (ring : Nat) (record : BitVec 576)
  /-- QUEUE_DESTROY (R314). -/
  | queueDestroy (ring : Nat) (record : BitVec 64)
  /-- FENCE_CREATE (R324). -/
  | fenceCreate (ring : Nat) (record : BitVec 128)
  /-- FENCE_RELEASE (R324). -/
  | fenceRelease (ring : Nat) (record : BitVec 64)
  /-- FENCE_SIGNAL (R325). -/
  | fenceSignal (ring : Nat) (record : BitVec 128)
  /-- FENCE_WAIT (R326). -/
  | fenceWait (ring : Nat) (record : BitVec 192)
  /-- FENCE_WAIT_TIMEOUT (R326). -/
  | fenceWaitTimeout (ring : Nat)
  /-- FENCE_RESET (R327). -/
  | fenceReset (ring : Nat) (record : BitVec 128)
  /-- RESULT_FETCH (R328). -/
  | resultFetch (ring : Nat) (record : BitVec 384)
  /-- FENCE_SIGNAL_APPLY (R325). -/
  | fenceSignalApply (n : Nat)
  /-- STATION_DEFINE (R560). -/
  | stationDefine (ring : Nat) (record : BitVec 1024)
  /-- STATION_BIND (R54). -/
  | stationBind (ring : Nat) (record : BitVec 576)
  /-- STATION_UNBIND (R55). -/
  | stationUnbind (ring : Nat) (record : BitVec 576)
  /-- STATION_UNBOUND (R55). -/
  | stationUnbound (p : Nat) (id : Nat)
  /-- STATION_PREDICATE (R561). -/
  | stationPredicate (ring : Nat) (record : BitVec 64)
  /-- STATION_PREDICATE_ARRIVE (R561). -/
  | stationPredicateArrive (p : Nat) (id : Nat)
  /-- STATION_PREDICATED (R561). -/
  | stationPredicated (p : Nat) (id : Nat)
  /-- WAYBILL_SUBMIT (R46). -/
  | waybillSubmit (ring : Nat) (record : BitVec 576)
  /-- STEWARD_APPOINT (R152). -/
  | stewardAppoint (ring : Nat) (record : BitVec 512)
  /-- STEWARD_DISMISS (R156). -/
  | stewardDismiss (ring : Nat) (record : BitVec 64)
  /-- STEWARD_DISMISSED (R156). -/
  | stewardDismissed (c : Nat)
  /-- CARAVAN_DEFINE (R182). -/
  | caravanDefine (ring : Nat) (record : BitVec 1024)
  /-- CARAVAN_RELEASE (R182). -/
  | caravanRelease (ring : Nat) (record : BitVec 64)
  /-- MIRROR_SYNC (R265). -/
  | mirrorSync (ring : Nat) (record : BitVec 256)
  /-- MIRROR_SYNC_SEND (R265). -/
  | mirrorSyncSend (p : Nat)
  /-- BTU_INVALIDATE (R265). -/
  | btuInvalidate (block : Nat)
  /-- BTU_INVALIDATE_ACK (R265). -/
  | btuInvalidateAck (block : Nat)
  /-- MIRROR_SYNCED (R265). -/
  | mirrorSynced (p : Nat)
  /-- MILESTONE_SET (R280). -/
  | milestoneSet (ring : Nat) (record : BitVec 64)
  /-- MILESTONE_TICK (R280). -/
  | milestoneTick
  /-- REQUEST_CANCEL (R281). -/
  | requestCancel (ring : Nat) (record : BitVec 64)
  /-- CANCEL_HOLD_EXPIRE (R281). -/
  | cancelHoldExpire (p : Nat) (id : Nat)
  /-- WINDOW_OPEN (R270). -/
  | windowOpen (ring : Nat) (record : BitVec 320)
  /-- WINDOW_CLOSE (R271). -/
  | windowClose (ring : Nat) (record : BitVec 64)
  /-- WINDOW_OPEN_MSG (R270). -/
  | windowOpenMsg (m : MsgRef) (body : BitVec 320)
  /-- WINDOW_CLOSE_MSG (R271). -/
  | windowCloseMsg (m : MsgRef) (body : BitVec 64)
  /-- WINDOW_CLOSED (R271). -/
  | windowClosed (id : Nat)
  /-- PARTITION_REKEY (R242). -/
  | partitionRekey (ring : Nat) (record : BitVec 64)
  /-- REKEY_SWEEP_PAGE (R243). -/
  | rekeySweepPage (p : Nat) (ch : Nat)
  /-- REKEY_BITMAP_FLIP (R243). -/
  | rekeyBitmapFlip (p : Nat) (ch : Nat)
  /-- REKEY_PAGE_RELEASE (R244). -/
  | rekeyPageRelease (p : Nat) (ch : Nat)
  /-- REKEY_DONE (R243). -/
  | rekeyDone (p : Nat)
  /-- SEQUENCER_RESTART (R245). -/
  | sequencerRestart (ch : Nat)
  /-- HINT (R462). -/
  | hint (ring : Nat) (record : BitVec 128)
  /-- HINT_PHASE_START (R463). -/
  | hintPhaseStart (p : Nat) (station : Nat)
  /-- HINT_PHASE_END (R463). -/
  | hintPhaseEnd (p : Nat) (station : Nat)
  /-- PLAN_DEFINE (R283). -/
  | planDefine (ring : Nat) (record : BitVec 512)
  /-- PLAN_RELEASE (R283). -/
  | planRelease (ring : Nat) (record : BitVec 64)
  /-- SESSION_OPEN (R289). -/
  | sessionOpen (ring : Nat) (record : BitVec 512)
  /-- SESSION_APPEND (R290). -/
  | sessionAppend (ring : Nat) (record : BitVec 256)
  /-- SESSION_CANCEL (R290). -/
  | sessionCancel (ring : Nat) (record : BitVec 128)
  /-- SESSION_CLOSE (R303). -/
  | sessionClose (ring : Nat) (record : BitVec 128)
  /-- SESSION_CLOSE_COMPLETE (R303). -/
  | sessionCloseComplete (slot : Nat)
  /-- WEIGHT_LOAD (R502). -/
  | weightLoad (ring : Nat) (record : BitVec 256)
  /-- WEIGHT_RELEASE (R502). -/
  | weightRelease (ring : Nat) (record : BitVec 64)
  /-- SUBMISSION_TAIL_DOORBELL (R309). -/
  | submissionTailDoorbell (page : Nat) (stamp : Nat) (w : BitVec 64)
  /-- COMPLETION_HEAD_DOORBELL (R309). -/
  | completionHeadDoorbell (page : Nat) (stamp : Nat) (w : BitVec 64)
  /-- EVENT_HEAD_DOORBELL (R309). -/
  | eventHeadDoorbell (page : Nat) (stamp : Nat) (w : BitVec 64)
  /-- TOKEN_RING_HEAD_DOORBELL (R309). -/
  | tokenRingHeadDoorbell (page : Nat) (stamp : Nat) (w : BitVec 64)
  /-- RECKONING_RING_HEAD_DOORBELL (R309). -/
  | reckoningRingHeadDoorbell (page : Nat) (stamp : Nat) (w : BitVec 64)
  /-- CONFIG_WRITE_READ_ONLY (R305). -/
  | configWriteReadOnly (fn : Nat) (addr : Nat)
  /-- SUBMISSION_ENTRY (R318). -/
  | submissionEntry (q : Nat)
  /-- COMMAND_BUFFER_START (R318). -/
  | commandBufferStart (q : Nat)
  /-- ANSWER_WRITTEN_ON_ROOM (R320). -/
  | answerWrittenOnRoom (q : Nat)
  /-- EVENT_WRITE (R322). -/
  | eventWrite
  /-- EVENTS_LOST (R322). -/
  | eventsLost (q : Nat)
  /-- WAYBILL_START (R66). -/
  | waybillStart (block : Nat)
  /-- WAYBILL_ENQUEUE (R72). -/
  | waybillEnqueue (q : Nat)
  /-- HUB_DIRECTORY_ENQUEUE (R71). -/
  | hubDirectoryEnqueue (q : Nat)
  /-- REFILL_GROUP_START (R72). -/
  | refillGroupStart (q : Nat)
  /-- REFILL_GROUP_COMPLETE (R72). -/
  | refillGroupComplete (q : Nat)
  /-- ENGINE_COMMIT (R67). -/
  | engineCommit (e : Nat)
  /-- HELD_COMMIT_COMPLETE (R73). -/
  | heldCommitComplete
  /-- ORDERED_COMMIT_SIGNAL (R61). -/
  | orderedCommitSignal (p : Nat) (station : Nat)
  /-- M_END (R94). -/
  | mEnd (c : Nat)
  /-- M_LDA (R99). -/
  | mLda (c : Nat)
  /-- M_LDB (R99). -/
  | mLdb (c : Nat)
  /-- M_MMA (R104). -/
  | mMma (c : Nat)
  /-- M_MMAEG (R108). -/
  | mMmaeg (c : Nat)
  /-- M_ACCZ (R105). -/
  | mAccz (c : Nat)
  /-- M_ACCST (R106). -/
  | mAccst (c : Nat)
  /-- M_ACCLD (R99). -/
  | mAccld (c : Nat)
  /-- M_EMIT (R97). -/
  | mEmit (c : Nat)
  /-- M_REPEAT (R95). -/
  | mRepeat (c : Nat)
  /-- M_SYNC (R94). -/
  | mSync (c : Nat)
  /-- V_VADD (R121). -/
  | vVadd (c : Nat)
  /-- V_VSUB (R121). -/
  | vVsub (c : Nat)
  /-- V_VMUL (R121). -/
  | vVmul (c : Nat)
  /-- V_VFMA (R121). -/
  | vVfma (c : Nat)
  /-- V_VFNMA (R121). -/
  | vVfnma (c : Nat)
  /-- V_VMIN (R121). -/
  | vVmin (c : Nat)
  /-- V_VMAX (R121). -/
  | vVmax (c : Nat)
  /-- V_VABS (R121). -/
  | vVabs (c : Nat)
  /-- V_VNEG (R121). -/
  | vVneg (c : Nat)
  /-- V_VAND (R121). -/
  | vVand (c : Nat)
  /-- V_VOR (R121). -/
  | vVor (c : Nat)
  /-- V_VXOR (R121). -/
  | vVxor (c : Nat)
  /-- V_VSHL (R121). -/
  | vVshl (c : Nat)
  /-- V_VSHR (R121). -/
  | vVshr (c : Nat)
  /-- V_VSEL (R121). -/
  | vVsel (c : Nat)
  /-- V_VCMP (R121). -/
  | vVcmp (c : Nat)
  /-- V_PLOGIC (R121). -/
  | vPlogic (c : Nat)
  /-- V_VCVT (R121). -/
  | vVcvt (c : Nat)
  /-- V_VPERM (R121). -/
  | vVperm (c : Nat)
  /-- V_VMOVA (R121). -/
  | vVmova (c : Nat)
  /-- V_VLANE (R121). -/
  | vVlane (c : Nat)
  /-- V_VRADD (R127). -/
  | vVradd (c : Nat)
  /-- V_VRMAX (R127). -/
  | vVrmax (c : Nat)
  /-- V_VRMIN (R127). -/
  | vVrmin (c : Nat)
  /-- V_VSCAN (R127). -/
  | vVscan (c : Nat)
  /-- V_VFFS (R121). -/
  | vVffs (c : Nat)
  /-- V_VPCNT (R121). -/
  | vVpcnt (c : Nat)
  /-- V_VEXT (R121). -/
  | vVext (c : Nat)
  /-- V_VSFU (R128). -/
  | vVsfu (c : Nat)
  /-- V_TKINIT (R129). -/
  | vTkinit (c : Nat)
  /-- V_TKPUSH (R129). -/
  | vTkpush (c : Nat)
  /-- V_TKPOP (R129). -/
  | vTkpop (c : Nat)
  /-- V_VRAND (R131). -/
  | vVrand (c : Nat)
  /-- V_VLD (R122). -/
  | vVld (c : Nat)
  /-- V_VST (R122). -/
  | vVst (c : Nat)
  /-- V_VLDX (R121). -/
  | vVldx (c : Nat)
  /-- V_VSTX (R121). -/
  | vVstx (c : Nat)
  /-- V_LDA (R121). -/
  | vLda (c : Nat)
  /-- V_STA (R121). -/
  | vSta (c : Nat)
  /-- V_AADDI (R121). -/
  | vAaddi (c : Nat)
  /-- V_AOP (R121). -/
  | vAop (c : Nat)
  /-- V_ALUI (R121). -/
  | vAlui (c : Nat)
  /-- V_BR (R121). -/
  | vBr (c : Nat)
  /-- V_SR (R133). -/
  | vSr (c : Nat)
  /-- V_NOP (R121). -/
  | vNop (c : Nat)
  /-- V_END (R124). -/
  | vEnd (c : Nat)
  /-- V_EMIT (R132). -/
  | vEmit (c : Nat)
  /-- V_DRAIN (R123). -/
  | vDrain (c : Nat)
  /-- S_ALU (R142). -/
  | sAlu (c : Nat)
  /-- S_CMP (R142). -/
  | sCmp (c : Nat)
  /-- S_MUL (R142). -/
  | sMul (c : Nat)
  /-- S_DIV (R143). -/
  | sDiv (c : Nat)
  /-- S_ADDI (R142). -/
  | sAddi (c : Nat)
  /-- S_ANDI (R142). -/
  | sAndi (c : Nat)
  /-- S_ORI (R142). -/
  | sOri (c : Nat)
  /-- S_XORI (R142). -/
  | sXori (c : Nat)
  /-- S_SLTI (R142). -/
  | sSlti (c : Nat)
  /-- S_SLTIU (R142). -/
  | sSltiu (c : Nat)
  /-- S_SHI (R142). -/
  | sShi (c : Nat)
  /-- S_LUI (R142). -/
  | sLui (c : Nat)
  /-- S_LD (R144). -/
  | sLd (c : Nat)
  /-- S_LDU (R144). -/
  | sLdu (c : Nat)
  /-- S_ST (R144). -/
  | sSt (c : Nat)
  /-- S_AMO (R167). -/
  | sAmo (c : Nat)
  /-- S_BR (R142). -/
  | sBr (c : Nat)
  /-- S_JAL (R142). -/
  | sJal (c : Nat)
  /-- S_JALR (R142). -/
  | sJalr (c : Nat)
  /-- S_FRD (R148). -/
  | sFrd (c : Nat)
  /-- S_QOCC (R148). -/
  | sQocc (c : Nat)
  /-- S_SR (R149). -/
  | sSr (c : Nat)
  /-- S_NOP (R142). -/
  | sNop (c : Nat)
  /-- S_END (R145). -/
  | sEnd (c : Nat)
  /-- S_EMIT (R148). -/
  | sEmit (c : Nat)
  /-- S_EMIT_KEEPF (R148). -/
  | sEmitKeepf (c : Nat)
  /-- S_DRAIN (R144). -/
  | sDrain (c : Nat)
  /-- S_FSIG (R146). -/
  | sFsig (c : Nat)
  /-- S_QPUT (R146). -/
  | sQput (c : Nat)
  /-- S_QTAKE (R153). -/
  | sQtake (c : Nat)
  /-- S_WAITQ (R154). -/
  | sWaitq (c : Nat)
  /-- S_WAITQ_RESUME (R154). -/
  | sWaitqResume (c : Nat)
  /-- S_CANCEL (R146). -/
  | sCancel (c : Nat)
  /-- S_PRED (R146). -/
  | sPred (c : Nat)
  /-- S_CRD (R146). -/
  | sCrd (c : Nat)
  /-- SLICE_ACCESS_COMPLETE (R123). -/
  | sliceAccessComplete (block : Nat)
  /-- CRIER_SEND (R177). -/
  | crierSend (carrier : Nat) (device : Bool) (srcBlock : Nat) (srcOff : Nat) (length : Nat) (dstOff : Nat) (mask : Nat)
  /-- CRIER_STAGE_GRANT (R178). -/
  | crierStageGrant (r : Nat)
  /-- DELIVERY_MARK (R180). -/
  | deliveryMark (send : Nat) (target : Nat)
  /-- CARAVAN_WRITE (R183). -/
  | caravanWrite (carrier : Nat) (id : Nat) (off : Nat) (srcBlock : Nat) (srcOff : Nat) (length : Nat)
  /-- SPINE_FLIT_CRC_FAIL (R175). -/
  | spineFlitCrcFail (hop : Nat) (flit : Nat)
  /-- SLICE_SEC_DED_ERROR (R169). -/
  | sliceSecDedError (block : Nat) (uncorrectable : Bool) (access : Nat)
  /-- SLICE_WIPE_DONE (R170). -/
  | sliceWipeDone (block : Nat)
  /-- DISPATCH_START (R202). -/
  | dispatchStart (unit : Nat)
  /-- DISPATCH_SLOT_FENCE_POLL (R201). -/
  | dispatchSlotFencePoll (unit : Nat)
  /-- DISPATCH_COMMIT (R200). -/
  | dispatchCommit (unit : Nat)
  /-- COMBINE_OPEN_BATCH (R204). -/
  | combineOpenBatch (unit : Nat)
  /-- COMBINE_RESULT (R208). -/
  | combineResult (unit : Nat)
  /-- COMBINE_COMMIT (R207). -/
  | combineCommit (unit : Nat)
  /-- GATHER_START (R212). -/
  | gatherStart (carrier : Nat)
  /-- GATHER_COMMIT (R211). -/
  | gatherCommit (carrier : Nat)
  /-- COLLECTIVE_START (R395). -/
  | collectiveStart (n : Nat)
  /-- COLLECTIVE_SEGMENT_SEND (R400). -/
  | collectiveSegmentSend (n : Nat)
  /-- COLLECTIVE_SEGMENT_READY (R400). -/
  | collectiveSegmentReady (n : Nat)
  /-- COLLECTIVE_COMMIT (R392). -/
  | collectiveCommit (n : Nat)
  /-- DRAM_SLOT_GRANT (R224). -/
  | dramSlotGrant (ch : Nat) (sub : Nat)
  /-- DRAM_READ_DATA (R218). -/
  | dramReadData (ch : Nat) (errs : List (Nat × Nat))
  /-- DRAM_REFSB (R225). -/
  | dramRefsb (ch : Nat)
  /-- DRAM_PATROL_SCRUB (R226). -/
  | dramPatrolScrub (ch : Nat) (sub : Nat) (errs : List (Nat × Nat))
  /-- DIMM_TEMP_85_CROSS (R225). -/
  | dimmTemp85Cross (ch : Nat) (above : Bool)
  /-- DRAM_BUS_REPLAY (R238). -/
  | dramBusReplay (ch seq : Nat) (command : Bool)
  /-- DIMM_LOST (R237). -/
  | dimmLost (ch : Nat)
  /-- P3_PROMOTION (R418). -/
  | p3Promotion (ch : Nat)
  /-- PARITY_ROW_FLUSH (R234). -/
  | parityRowFlush (region : Nat)
  /-- PARITY_ENTRY_FREED (R234). -/
  | parityEntryFreed (region : Nat)
  /-- DEVICE_WIPE (R247). -/
  | deviceWipe
  /-- CARVE_OUT_WIPE_DONE (R248). -/
  | carveOutWipeDone (p : Nat)
  /-- CODED_INIT_DONE (R232). -/
  | codedInitDone (p : Nat)
  /-- TLB_MISS_WALK (R258). -/
  | tlbMissWalk (block : Nat) (stream : Nat) (engine : Nat) (write : Bool) (look : List Nat)
  /-- WALK_READ_RETURN (R258). -/
  | walkReadReturn (block : Nat) (slot : Nat)
  /-- PREFETCH_WALK_START (R261). -/
  | prefetchWalkStart (block : Nat) (stream : Nat) (engine : Nat) (write : Bool) (look : List Nat)
  /-- WINDOW_ROUTE (R268). -/
  | windowRoute (m : MsgRef) (body : BitVec 192)
  /-- WINDOW_KEY_LOAD (R269). -/
  | windowKeyLoad (m : MsgRef) (body : BitVec 128)
  /-- PARTITION_CREATE (R338). -/
  | partitionCreate (m : MsgRef) (body : BitVec 512)
  /-- PARTITION_DESTROY (R342). -/
  | partitionDestroy (m : MsgRef) (body : BitVec 64)
  /-- PARTITION_DESTROYED (R342). -/
  | partitionDestroyed (p : Nat)
  /-- BLOCK_BIND (R344). -/
  | blockBind (m : MsgRef) (body : BitVec 64)
  /-- BLOCK_RELEASE (R345). -/
  | blockRelease (m : MsgRef) (body : BitVec 64)
  /-- BLOCK_RELEASED (R345). -/
  | blockReleased (block : Nat)
  /-- BLOCK_MOVE (R350). -/
  | blockMove (m : MsgRef) (body : BitVec 64)
  /-- BLOCK_MOVE_DRAINED (R350). -/
  | blockMoveDrained (src : Nat)
  /-- BLOCK_MOVE_COPIED (R350). -/
  | blockMoveCopied (src : Nat)
  /-- BLOCK_MOVED (R350). -/
  | blockMoved (src : Nat)
  /-- STATION_MOVE (R349). -/
  | stationMove (m : MsgRef) (body : BitVec 64)
  /-- STATION_MOVED (R349). -/
  | stationMoved (p : Nat) (id : Nat)
  /-- EPOCH_NOTICE (R347). -/
  | epochNotice (p : Nat) (block : Nat)
  /-- EPOCH_RETIRE (R348). -/
  | epochRetire (p : Nat)
  /-- CHANNEL_SHARE (R352). -/
  | channelShare (m : MsgRef) (body : BitVec 64)
  /-- PORT_SHARE (R353). -/
  | portShare (m : MsgRef) (body : BitVec 64)
  /-- QUEUE_PAIR_OPEN (R354). -/
  | queuePairOpen (m : MsgRef) (body : BitVec 512)
  /-- QUEUE_PAIR_RETARGET (R356). -/
  | queuePairRetarget (m : MsgRef) (body : BitVec 128)
  /-- QUEUE_PAIR_RETARGETED (R356). -/
  | queuePairRetargeted (q : Nat)
  /-- QUEUE_PAIR_CLOSE (R357). -/
  | queuePairClose (m : MsgRef) (body : BitVec 64)
  /-- COMPANION_SET (R334). -/
  | companionSet (m : MsgRef) (body : BitVec 64)
  /-- REQUEST_HANDOFF (R361). -/
  | requestHandoff (m : MsgRef) (body : BitVec 128)
  /-- NODE_ASSIGN (R388). -/
  | nodeAssign (m : MsgRef) (body : BitVec 64)
  /-- LEASE_OFFER (R359). -/
  | leaseOffer (m : MsgRef) (node : Nat) (body : BitVec 128) (image : SessImage)
  /-- LEASE_ACCEPT (R361). -/
  | leaseAccept (m : MsgRef) (node : Nat) (body : BitVec 128)
  /-- LEASE_RENEW (R361). -/
  | leaseRenew (m : MsgRef) (node : Nat) (body : BitVec 128)
  /-- LEASE_RENEW_TIMER (R360). -/
  | leaseRenewTimer (p : Nat) (req : Nat)
  /-- LEASE_GRANT (R360). -/
  | leaseGrant (m : MsgRef) (node : Nat) (body : BitVec 128)
  /-- LEASE_EXPIRE (R360). -/
  | leaseExpire (p : Nat) (req : Nat)
  /-- LEASE_REVOKED (R361). -/
  | leaseRevoked (m : MsgRef) (node : Nat) (body : BitVec 64)
  /-- LEASE_GRANT_TIMEOUT (R361). -/
  | leaseGrantTimeout (p : Nat) (req : Nat)
  /-- TOKEN_NOTICE (R359). -/
  | tokenNotice (m : MsgRef) (node : Nat) (body : List (BitVec 8))
  /-- HOME_DEADLINE_RECLAIM (R362). -/
  | homeDeadlineReclaim (p : Nat) (req : Nat)
  /-- STEP_COMPOSE (R291). -/
  | stepCompose (p : Nat) (plan : Nat)
  /-- STEP_RESULT (R293). -/
  | stepResult (p : Nat) (plan : Nat)
  /-- STEP_TIMEOUT (R293). -/
  | stepTimeout (p : Nat) (plan : Nat)
  /-- TOKEN_LOG_WRITE (R297). -/
  | tokenLogWrite
  /-- SESSION_READMIT (R296). -/
  | sessionReadmit (p : Nat) (plan : Nat)
  /-- MIRROR_ENTRY_ACK (R302). -/
  | mirrorEntryAck (slot : Nat) (gen : Nat) (kind : Nat) (index : Nat) (ok : Bool)
  /-- TOKEN_RECORD_WRITE (R299). -/
  | tokenRecordWrite (slot : Nat)
  /-- MIRROR_ENTRY (R439). -/
  | mirrorEntry (m : MsgRef) (node : Nat) (part : Nat) (body : List (BitVec 8))
  /-- MIRROR_ACCEPT (R438). -/
  | mirrorAccept (m : MsgRef) (body : BitVec 64)
  /-- COMPANION_TAKEOVER (R440). -/
  | companionTakeover (m : MsgRef) (body : BitVec 64)
  /-- PARTITION_RESET_MSG (R438). -/
  | partitionResetMsg (m : MsgRef) (body : BitVec 64)
  /-- PARTITION_RESET_DONE (R427). -/
  | partitionResetDone (p : Nat)
  /-- HANG_CAPTURE (R434). -/
  | hangCapture (p : Nat)
  /-- HANG_CAPTURE_TIMEOUT (R434). -/
  | hangCaptureTimeout (p : Nat) (written : Nat)
  /-- ENGINE_WATCHDOG_EXPIRE (R430). -/
  | engineWatchdogExpire (e : Nat)
  /-- STATION_HUNG (R431). -/
  | stationHung (p : Nat) (id : Nat)
  /-- QUEUE_STALLED (R432). -/
  | queueStalled (q : Nat)
  /-- DISPATCHER_HANG (R433). -/
  | dispatcherHang (block : Nat)
  /-- CELL_UNCORRECTABLE (R113). -/
  | cellUncorrectable (c : Nat) (single : Bool)
  /-- WITHDRAWAL (R442). -/
  | withdrawal
  /-- EVACUATE_TO (R442). -/
  | evacuateTo (m : MsgRef) (body : BitVec 64)
  /-- PORTMANTEAU_CHUNK (R446). -/
  | portmanteauChunk (m : MsgRef) (node : Nat) (header : BitVec 512) (data : List (BitVec 8)) (tagOk : Bool) (endOk : Bool)
  /-- PORTMANTEAU_RESTORE (R447). -/
  | portmanteauRestore (m : MsgRef) (node : Nat) (transfer : Nat) (target : Nat) (image : PartImage)
  /-- PORTMANTEAU_RESTORED (R442). -/
  | portmanteauRestored (m : MsgRef) (node : Nat) (body : BitVec 64)
  /-- WITHDRAWN (R442). -/
  | withdrawn
  /-- EVAC_LIMIT_EXPIRE (R443). -/
  | evacLimitExpire
  /-- MIGRATE_START (R449). -/
  | migrateStart (m : MsgRef) (body : BitVec 64)
  /-- MIGRATE_GENERATION_DONE (R449). -/
  | migrateGenerationDone (p : Nat)
  /-- MIGRATE_CANCEL (R449). -/
  | migrateCancel (m : MsgRef) (body : BitVec 64)
  /-- PORTMANTEAU_ADOPT (R450). -/
  | portmanteauAdopt (m : MsgRef) (body : BitVec 64)
  /-- COLLECTIVE_GROUP (R391). -/
  | collectiveGroup (m : MsgRef) (body : BitVec 128)
  /-- MEMBER_LOST (R403). -/
  | memberLost (m : MsgRef) (body : BitVec 64)
  /-- PACE_WINDOW (R406). -/
  | paceWindow (part : Nat)
  /-- PACE_RELAY (R407). -/
  | paceRelay (m : MsgRef) (body : BitVec 64)
  /-- PACE_CAP (R408). -/
  | paceCap (m : MsgRef) (body : BitVec 64)
  /-- PORT_READMIT (R386). -/
  | portReadmit (m : MsgRef) (body : BitVec 64)
  /-- PROBATION_END (R386). -/
  | probationEnd (n : Nat)
  /-- PORT_TRAIN_RETRY (R368). -/
  | portTrainRetry (n : Nat)
  /-- PMD_TRAIN_DONE (R368). -/
  | pmdTrainDone (n : Nat) (good : Nat)
  /-- ALIGN_DONE (R367). -/
  | alignDone (n : Nat) (skew : Nat)
  /-- CTRL_IDENT (R369). -/
  | ctrlIdent (n : Nat) (kind : Nat) (pport : Nat) (node : Nat) (variant : Nat) (b0 : Nat) (b1 : Nat) (b2 : Nat) (b3 : Nat)
  /-- CTRL_ECHO (R367). -/
  | ctrlEcho (n : Nat) (reply : Bool) (trip : Nat)
  /-- LANE_FAULT (R371). -/
  | laneFault (n : Nat) (lane : Nat) (unc : Nat) (sym : Nat) (lost : Bool)
  /-- CTRL_SPARE_REQ (R371). -/
  | ctrlSpareReq (n : Nat) (pos : Nat) (at' : Nat)
  /-- CTRL_SPARE_ACK (R371). -/
  | ctrlSpareAck (n : Nat) (at' : Nat)
  /-- SPARE_SWAP (R371). -/
  | spareSwap (n : Nat)
  /-- PARTNER_LOSS (R372). -/
  | partnerLoss (n : Nat)
  /-- CTRL_LINK_DOWN (R372). -/
  | ctrlLinkDown (n : Nat)
  /-- CTRL_VIOLATION (R382). -/
  | ctrlViolation (n : Nat) (code : Nat) (seq : Nat)
  /-- CTRL_QUARANTINE (R385). -/
  | ctrlQuarantine (n : Nat)
  /-- CTRL_RATE_CHANGE (R381). -/
  | ctrlRateChange (n : Nat)
  /-- FLIT_RECEIVE (R375). -/
  | flitReceive (n : Nat) (flit : BitVec 2048) (unc : Bool)
  /-- FLIT_NAK (R375). -/
  | flitNak (n : Nat)
  /-- FLIT_REPLAY_RETRAIN (R375). -/
  | flitReplayRetrain (n : Nat)
  /-- PORT_QUARANTINED (R385). -/
  | portQuarantined (n : Nat)
  /-- QP_SEND (R355). -/
  | qpSend (n : Nat)
  /-- QP_ACK (R355). -/
  | qpAck (n : Nat)
  /-- QP_CREDIT (R355). -/
  | qpCredit (n : Nat)
  /-- LANDING_FENCE_CREDIT (R355). -/
  | landingFenceCredit (q : Nat)
  /-- WIN_READ (R272). -/
  | winRead (n : Nat)
  /-- WIN_WRITE (R272). -/
  | winWrite (n : Nat)
  /-- WIN_ATOMIC (R272). -/
  | winAtomic (n : Nat)
  /-- RSP (R380). -/
  | rsp (n : Nat)
  /-- HOST_READ (R380). -/
  | hostRead (n : Nat) (part : Nat) (addr : Nat) (len : Nat) (dst : Option Nat)
  /-- HOST_WRITE (R380). -/
  | hostWrite (n : Nat) (part : Nat) (addr : Nat) (data : List (BitVec 8))
  /-- DOORBELL_TXN (R380). -/
  | doorbellTxn (n : Nat)
  /-- CFG_READ (R380). -/
  | cfgRead (n : Nat)
  /-- NOTIFY (R380). -/
  | notify (n : Nat) (part : Nat) (queue : Nat)
  /-- MGMT_TXN (R380). -/
  | mgmtTxn (n : Nat) (tagOk : Bool)
  /-- COLL (R399). -/
  | coll (n : Nat)
  /-- UART_FRAME (R516). -/
  | uartFrame (header : BitVec 192) (crcOk : Bool) (tagOk : Bool)
  /-- REGULATION_WINDOW (R413). -/
  | regulationWindow
  /-- REGULATION_SAMPLE (R416). -/
  | regulationSample
  /-- MODULE_CAP (R456). -/
  | moduleCap (m : MsgRef) (body : BitVec 64)
  /-- METER_SAMPLE (R470). -/
  | meterSample (mv : Nat) (ma : Nat)
  /-- RECONCILIATION_WINDOW (R471). -/
  | reconciliationWindow (charges : List Charge)
  /-- POWER_ALLOTMENT (R459). -/
  | powerAllotment (powers : List BlockPower)
  /-- OPERATING_POINT_CHANGE (R455). -/
  | operatingPointChange (b : Nat)
  /-- CAP_EMERGENCY (R457). -/
  | capEmergency
  /-- CEILING_STEP (R457). -/
  | ceilingStep (cause : Nat)
  /-- OVERCURRENT (R465). -/
  | overcurrent
  /-- THERMAL (R465). -/
  | thermal (b : Nat) (temp : Nat)
  /-- DIMM_THERMAL (R465). -/
  | dimmThermal (ch : Nat) (temp : Nat)
  /-- EMERGENCY_RELEASE (R465). -/
  | emergencyRelease (cause : Nat)
  /-- TRIP (R465). -/
  | trip (b : Nat) (temp : Nat)
  /-- DROOP_STRETCH (R464). -/
  | droopStretch (island : Nat) (below : Bool)
  /-- POWER_DOWN_ISLAND (R453). -/
  | powerDownIsland (b : Nat)
  /-- RECKONING_IDLE_CLOSE (R478). -/
  | reckoningIdleClose (p : Nat) (req : Nat)
  /-- RECKONING_EPOCH_CLOSE (R481). -/
  | reckoningEpochClose
  /-- RECKONING_ROOT_SIGNED (R483). -/
  | reckoningRootSigned
  /-- RECKONING_BACKLOG (R485). -/
  | reckoningBacklog (p : Nat)
  /-- RECKONING_RING_WRITE (R485). -/
  | reckoningRingWrite (p : Nat)
  /-- LIVE_READINGS (R488). -/
  | liveReadings
  /-- CLOCK_READ (R487). -/
  | clockRead (m : MsgRef) (body : BitVec 64)
  /-- HANDSHAKE_INIT (R495). -/
  | handshakeInit (m : MsgRef) (nonceI : BitVec 384) (unwrapOk : Bool) (rsvd : Nat)
  /-- HANDSHAKE_FINISH (R495). -/
  | handshakeFinish (m : MsgRef) (session : Nat) (part : Nat) (nParts : Nat) (sigOk : Bool) (authorised : Bool) (node : Option Nat) (rsvd : Nat)
  /-- HANDSHAKE_TIMEOUT (R495). -/
  | handshakeTimeout (session : Nat)
  /-- ATTEST_REQUEST (R494). -/
  | attestRequest (m : MsgRef) (body : BitVec 448)
  /-- WEIGHT_SET_JOIN (R501). -/
  | weightSetJoin (m : MsgRef) (setId : BitVec 32) (key : Nat) (unwrapOk : Bool) (rsvd : Nat)
  /-- WEIGHT_SET_LEAVE (R501). -/
  | weightSetLeave (m : MsgRef) (body : BitVec 64)
  /-- LIFECYCLE_SET (R497). -/
  | lifecycleSet (m : MsgRef) (body : BitVec 896)
  /-- SERVICE_TOKEN (R497). -/
  | serviceToken (m : MsgRef) (last : Bool) (sigOk : Bool) (unitOk : Bool)
  /-- MASTER_RELEASE (R506). -/
  | masterRelease (m : MsgRef) (body : BitVec 64)
  /-- FIRMWARE_BEGIN (R510). -/
  | firmwareBegin (m : MsgRef) (body : BitVec 128)
  /-- FIRMWARE_WRITE (R510). -/
  | firmwareWrite (m : MsgRef) (header : BitVec 128) (data : List (BitVec 8))
  /-- FIRMWARE_ACTIVATE (R511). -/
  | firmwareActivate (m : MsgRef) (body : BitVec 64) (images : List FwImage)
  /-- FIRMWARE_SWITCH_READY (R512). -/
  | firmwareSwitchReady
  /-- FIRMWARE_SWITCH_TIMEOUT (R513). -/
  | firmwareSwitchTimeout
  /-- FIRMWARE_COMMIT (R514). -/
  | firmwareCommit (m : MsgRef) (body : BitVec 64)
  /-- DEBUG_ACCESS (R499). -/
  | debugAccess (m : MsgRef) (body : BitVec 256)
  /-- ZHOHI_WRITE (R522). -/
  | zhohiWrite (m : MsgRef) (header : BitVec 128) (data : List (BitVec 8))
  /-- FAULT_LOG_READ (R556). -/
  | faultLogRead (m : MsgRef) (body : BitVec 128)
  /-- HORIZON_READ (R534). -/
  | horizonRead (m : MsgRef)
  /-- DOZE_ENTER (R526). -/
  | dozeEnter (m : MsgRef)
  /-- DOZE_EXIT (R527). -/
  | dozeExit (m : MsgRef)
  /-- DOZE_REQ_N_ASSERT (R526). -/
  | dozeReqNAssert
  /-- DOZE_REQ_N_RELEASE (R527). -/
  | dozeReqNRelease
  /-- WAKE (R527). -/
  | wake
  /-- PWRGD_START (R523). -/
  | pwrgdStart
  /-- RESET_N (R525). -/
  | resetN
  /-- START_STEP_COMPLETE (R523). -/
  | startStepComplete (n : Nat) (info : StepInfo)
  /-- PWR_EN_ASSERT (R540). -/
  | pwrEnAssert
  /-- PWR_EN_DEASSERT (R540). -/
  | pwrEnDeassert
  /-- AON_START (R538). -/
  | aonStart (slotId : BitVec 6)
  /-- POWER_FAIL (R539). -/
  | powerFail
  /-- OVER_VOLTAGE_CUTOFF (R537). -/
  | overVoltageCutoff
  /-- SMBUS_WRITE (R547). -/
  | smbusWrite (command : BitVec 8) (data : BitVec 16)
  /-- WEAR_RECORD_WRITE (R533). -/
  | wearRecordWrite
  /-- RING_OSCILLATOR_READ (R531). -/
  | ringOscillatorRead (b : Nat) (khz : Nat)
  /-- MARGIN_PLAN_DUE (R531). -/
  | marginPlanDue (b : Nat)
  /-- IDLE_WINDOW_FOUND (R532). -/
  | idleWindowFound (b : Nat)
  /-- QUIET_WINDOW_DONE (R529). -/
  | quietWindowDone (b : Nat) (m : Measured) (khz : Nat)
  /-- QUIET_WAIT_EXPIRE (R532). -/
  | quietWaitExpire (b : Nat)
  /-- QUIESCE_TIME (R532). -/
  | quiesceTime (b : Nat)
  /-- RESET_N_ASSERT (R544). -/
  | resetNAssert
  /-- FLIT_SLOT (R377). -/
  | flitSlot (n : Nat)
  /-- QUEUE_DESCRIPTOR_WRITEBACK (R437). -/
  | queueDescriptorWriteback
  /-- SLICE_PATROL_SCRUB (R169). -/
  | slicePatrolScrub (block : Nat) (slice : Nat) (bank : Nat) (corrected : Bool)
deriving DecidableEq, Repr

end Sys2Proof
end

