-- ==== Sys2Proof/Config.lean ====
section
/-! DEFINITION. Sys2Proof/Config.lean: what an implementation fixes and the spec does not, as constants without a body:
nothing in Lean can evaluate them, so a statement that holds holds for every value. Each is applied to the counter of free
values in State (`free`), which a step reads and advances, or to the operands the value depends on. -/

namespace Sys2Proof

/-- The boot nonce drawn when Porter leaves reset (R37). -/
opaque Config.bootNonce : Nat → BitVec 64

/-- A proposed identifier where Kloquen assigns one and the spec does not say which (queue, fence, handle INDEX, session). -/
opaque Config.pick : Nat → Nat

/-- A byte of a DRAM line not written since its carve-out was created: a function of the key and the address (R241). -/
opaque Config.unwritten : (key addr : Nat) → BitVec 8

/-- A byte of a line read under another key than the one it was written under (R240): the keys, the address, and the line's content. -/
opaque Config.wrongKey : (written read addr content : Nat) → BitVec 8

/-- Where a channel's n-th bitmap line lies in its device-reserved area, and whether a line there holds queue descriptors or the composition
table, which R221 keeps twice: the spec gives the area no layout. -/
opaque Config.bitmapLine : (ch n : Nat) → Nat
opaque Config.twoCopies : (line : Nat) → Bool

/-- A byte the spec leaves without a content (R80 A buffer bytes, R395 chunks, R403). -/
opaque Config.freeByte : Nat → BitVec 8

/-- A value the spec leaves without a number. -/
opaque Config.freeNat : Nat → Nat

/-- An order of group sums in an M-cell accumulation (R84, R85): the key by which the n-th addition is ranked. -/
opaque Config.mmaOrder : (n i : Nat) → Nat

/-- A special function's result before its bound is applied (R128): function code, operand bits. -/
opaque Config.sfu : (fn x : Nat) → BitVec 32

/-- A random draw of Porter's source (R495 nonces, R240 keys) as a number. -/
opaque Config.random : Nat → Nat

/-- SHA-384 of a byte string, HMAC and signatures as numbers: the spec fixes them by reference to FIPS 180-4 and FIPS 205;
the model keeps them as uninterpreted functions of their input (log entry 5). -/
opaque Config.sha384 : List (BitVec 8) → Nat

/-- A signature over a digest by a named key (R482, R494). -/
opaque Config.sign : (key digest : Nat) → Nat

/-- HMAC-SHA-384 under a session's key (R495): session number, and the transcript as a number. -/
opaque Config.hmac : (session transcript : Nat) → Nat

/-- SHA-384 of the public keys of a kind (1 transport, 2 reckoning) made from a seed (R493). -/
opaque Config.keyHash : (kind seed : Nat) → Nat

/-- AES-256-GCM opened: key, nonce, and ciphertext followed by its tag; none when the tag fails (R500). -/
opaque Config.gcmOpen : (key nonce : Nat) → List (BitVec 8) → Option (List (BitVec 8))

/-- AES-256-GCM sealed under the transfer key of a management session: session number, nonce and data; the ciphertext and its tag (R446). -/
opaque Config.gcmSeal : (session nonce : Nat) → List (BitVec 8) → List (BitVec 8) × Nat

/-- The attestation of a node shows a join of a SET_ID (R504): node, SET_ID. -/
opaque Config.joined : (node set : Nat) → Bool

end Sys2Proof
end

