-- ==== Sys2Proof/Machine/State.lean ====
section
/-! DEFINITION. Sys2Proof/Machine/State.lean: the machine's state, its stops, and the state after reset. -/

namespace Sys2Proof.Machine

/-- Why the block stops. -/
inductive Fault where
  /-- no command raises it: every access the spec forbids has an outcome the spec gives (safe) -/
  | none
deriving DecidableEq, Repr

/-- Why a command has no meaning. -/
inductive Refusal where
  /-- raised by an arm of Dispatch.lean for a command not modelled yet (safe) -/
  | notModelled (mnemonic : String)
deriving DecidableEq, Repr

/-- The state of the block: everything the spec gives it, and the commands that wait. -/
structure State where
  /-- commands waiting, first in first out -/
  pending : List Sys2Proof.Instr
  sys : SysUnit
  svc : SvcUnit
  host : HostUnit
  fen : FenceUnit
  part : PartUnit
  stn : StationUnit
  fab : FabricUnit
  spine : SpineUnit
  cell : CellUnit
  unit : FixedUnit
  dram : DramUnit
  xlt : XlatUnit
  link : LinkUnit
  ses : SessUnit
  reck : ReckUnit
  fail : FailUnit
  reg : RegUnit
  pow : PowUnit
  age : AgeUnit
  sec : SecUnit
  fw : FwUnit
  boot : BootUnit
  /-- host memory as the module reaches it over the host ports, by host I/O address (the environment's) -/
  hostMem : Mem
  /-- what the part has sent out, newest first -/
  sent : List Out
  /-- the fault log, newest first (R556) -/
  log : List FaultEntry
  /-- the model's own: how many free values have been drawn (DESIGN CHOICE; no statement rests on its value) -/
  free : Nat
deriving DecidableEq, Repr

/-- No ceiling (R457, R465). -/
def Ceil.none : Ceil := { on := false, mhz := 1000, moved := 0 }

/-- The device as a whole at power-good (R306): STARTING, no node, the module cap's default, TIME_US and boot nonce not drawn yet. The
variant and UNIT_SERIAL are fused: DESIGN CHOICE (log entry 2). -/
def SysUnit.reset : SysUnit :=
  { state := .starting, variantT := true, serial := 0, nodeId := 0xFFFF, capLength := 0, fwPorter := 0, fwInnkeeper := 0, haltCode := 0, timeUs := 0, bootNonce := 0, capTable := [], frozen := [], capW := 3000, zhohi := [], devFaults := [], devUnits := [] }

def SvcUnit.reset : SvcUnit := { waiting := [], lastServed := [], retry := [], cancel := [], milestone := [], stewards := [], plans := [] }

def HostUnit.reset : HostUnit := { contexts := [], objects := [], objGens := [], rings := [], events := [] }

def FenceUnit.reset : FenceUnit := { fences := [], waiters := [], port := [], serveB := false, failed := none }

def PartUnit.reset : PartUnit :=
  { parts := [], releases := [], moves := [], stationMoves := [], qpairs := [], blockEpoch := [], tableWrites := 0, shareRefs := [] }

def StationUnit.reset : StationUnit :=
  { stations := [], engines := [], disps := [], queues := [], flight := [], held := [], preds := [], heavy := [], cached := [], descA := [], descB := [] }

def FabricUnit.reset : FabricUnit :=
  { blocks := [], slices := [], claims := [], accesses := [], nextAccess := 0, lostWrites := [], sends := [], nextSend := 0, criers := [], deviceLast := none, caravans := [], caravanWaits := [], streams := [], failedHops := [], replays := 0, bankHold := [], streamStatus := [], streamMarks := [], regionGen := [] }

def SpineUnit.reset : SpineUnit :=
  { cycle := 0, flits := [], nextFlit := 0, lastIn := [], credits := [], fails := [], lastStream := [] }

def CellUnit.reset : CellUnit := { m := [], v := [], s := [], images := [], retired := [], corrected := 0, gens := [] }

def FixedUnit.reset : FixedUnit := { disp := [], comb := [], starts := [], outs := [], f0 := [] }

/-- Main memory before the start has read the SPDs (R215): no rate and no size yet, nothing written, no key loaded. -/
def DramUnit.reset : DramUnit :=
  { dram := [], written := [], rate := 0, dimmGb := 0, ctrls := [], keys := [], devKeys := { k0 := none, k1 := none, cur := 0 }, nextKey := 1, bitmap := [], rekeys := [], rows := [], nextRow := 0, rowWait := [], rebuilds := [], wipes := [], lostDimms := [], dirty := [], backlog := [], txns := [], nextReq := 0 }

def XlatUnit.reset : XlatUnit := { btus := [], syncs := [], nextSync := 0, out := [], windows := [], keys := [], winOps := [], nextOp := 0, remote := [] }

def LinkUnit.reset : LinkUnit := { ports := [], groups := [], colls := [], arrivals := [], dropped := 0, pace := [], paceCap := [] }

def SessUnit.reset : SessUnit :=
  { sessions := [], gens := [], taps := [], strays := 0, nextOrder := 0, holdings := [], homes := [], leases := [], stale := 0, nextTransfer := 0 }

/-- Reckonings at a boot (R481). The calibration record's SHARED_W and LOSS_PPM are written at the factory: DESIGN CHOICE (log entry 2). -/
def ReckUnit.reset : ReckUnit :=
  { accounts := [], steps := [], doneSteps := [], nextSeq := 0, epoch := 0, opened := 0, metered := 0, firstWin := none, lastWin := 0, leaves := [], unsigned := [], prevRoot := none, held := [], acc := 0, rem := 0, samples := 0, shares := [], winShares := [], fullAt := [], live := [], liveMeter := 0, liveDomains := [], calShared := 480, calLoss := 60000 }

def FailUnit.reset : FailUnit :=
  { captures := [], captured := [], hangs := [], resets := [], withdraw := none, status := [], age := [], advanced := [], out := [], inc := [] }

def RegUnit.reset : RegUnit := { step := [], masters := [], slots := [], begun := none, sampled := none }

def PowUnit.reset : PowUnit :=
  { recent := [], above := 0, past := 0, under := 0, cap := Ceil.none, therm := Ceil.none, dimm := false, overOn := false, overCeil := [], overMoved := 0, temps := [], coolAt := none, dimmTemps := [], dimmCool := none, hints := [], chosen := [], volts := [], lead := [], throttled := [], budget := [], profile := [], droop := [], stretched := [], tripped := false }

/-- Ageing before any wear record has been written (R533). -/
def AgeUnit.reset : AgeUnit :=
  { islands := [], moduleH := 0, moduleUs := 0, seq := 0, record := [], place := 0, wroteH := 0, planned := false }

/-- Porter's security state: the life-cycle fuses as a module leaves manufacture: DESIGN CHOICE (log entry 2). -/
def SecUnit.reset : SecUnit :=
  { lc := .factory, change := none, banks := [], sessions := [], half := [], nextSession := 1, sets := [], token := false, debug := false, debugRegs := [] }

/-- Firmware before any image is read: no activation record, so that every processor's recorded slot is A, and no fused SVN minimum:
DESIGN CHOICE (log entry 2). -/
def FwUnit.reset : FwUnit := { flash := [], opened := none, run := [], record := [], minSvn := [], act := none }

/-- Power good, AON up, a start at its first step (R523, R540). -/
def BootUnit.reset : BootUnit :=
  { running := true, steps := [], clockBad := false, zhohiCopy := none, dozeWait := false, dozeLow := none, resetLow := none, enLow := none, aon := true, pwrgd := true, closed := true, tripPin := false, slotId := 0x3F, mv := 54000, ma := 0 }

/-- The block right after reset, at power-good (R306, R523). -/
def State.reset : State :=
  { pending := [], sys := SysUnit.reset, svc := SvcUnit.reset, host := HostUnit.reset, fen := FenceUnit.reset, part := PartUnit.reset, stn := StationUnit.reset, fab := FabricUnit.reset, spine := SpineUnit.reset, cell := CellUnit.reset, unit := FixedUnit.reset, dram := DramUnit.reset, xlt := XlatUnit.reset, link := LinkUnit.reset, ses := SessUnit.reset, reck := ReckUnit.reset, fail := FailUnit.reset, reg := RegUnit.reset, pow := PowUnit.reset, age := AgeUnit.reset, sec := SecUnit.reset, fw := FwUnit.reset, boot := BootUnit.reset, hostMem := [], sent := [], log := [], free := 0 }

abbrev Outc := Host.Outcome State Fault Refusal

end Sys2Proof.Machine
end

