-- ==== Sys2Proof/Machine/Flits.lean ====
section
/-! DEFINITION. Sys2Proof/Machine/Flits.lean: flits of the region spines and the hub switch: where they enter and leave, the way between,
and their sending (06_slice_memory R171, R172, R555; 01_architecture R17, R18). -/

namespace Sys2Proof.Machine

/-! ## Ports (R171, R555): node 0-5 a region's spine, 6 the hub switch, and a port number of it -/

def blockEnd (b : Nat) : Nat × Nat := (b / 10, b % 10)
def channelEnd (ch : Nat) : Nat × Nat := (ch / 8, 10 + ch % 8)
def fabricEnd (p : Nat) : Nat × Nat := (p / 2, 18 + p % 2)
/-- The hub service island, and the fence store. -/
def hubEnd : Nat × Nat := (6, 6)
def fenceEnd : Nat × Nat := (6, 7)
def hostEnd (h : Nat) : Nat × Nat := (6, 8 + h)
/-- The device crier root. -/
def rootEnd : Nat × Nat := (6, 10)
/-- A region's fixed units share its crier port, port 21 (R188): dispatch units are 0-3 at it, combine units 4-7; as an input, 24 + the
unit tells them apart. -/
def unitEnd (r u : Nat) : Nat × Nat := (r, 24 + u)

/-- The port an end stands for. -/
def portOf (n : Nat) : Nat := if 24 ≤ n then 21 else n

/-- Where the flits of a source of R559 enter, by its rank: a block's port, a fixed unit's, a port of the module, or the hub. -/
def rankEnd (rank : Nat) : Nat × Nat :=
  if rank < 1920 then blockEnd (rank / 32)
  else if rank < 2100 then unitEnd ((rank - 2000) / 4) ((rank - 2000) % 4)
  else if rank < 2200 then unitEnd ((rank - 2100) / 4) (4 + (rank - 2100) % 4)
  else if rank < 2212 then fabricEnd (rank - 2200)
  else if rank < 2300 then hostEnd (rank - 2212)
  else hubEnd

/-- Where an issuer of slice accesses stands; crier taps and ring ports reach their own block's banks without a spine. -/
def Requester.home : Requester → Nat × Nat
  | .cell c => blockEnd (c / 20)
  | .ringPort => hubEnd
  | .crierTap _ => hubEnd
  | .carrier c => blockEnd (c / 4)
  | .unit e => if e / 4096 = 5 then fabricEnd (e % 4096) else unitEnd (e % 4096 / 4) ((if e / 4096 = 4 then 4 else 0) + e % 4)
  | .port p => if p < 12 then fabricEnd p else hostEnd (p - 12)

/-- The way from one port to another: within a spine or the hub switch, or through die-to-die ports and the hub switch (R17). -/
def wayOf (a b : Nat × Nat) : List SHop :=
  let o := portOf b.2
  if a.1 = b.1 then [{ node := a.1, inp := a.2, out := o }]
  else if a.1 = 6 then [{ node := 6, inp := a.2, out := b.1 }, { node := b.1, inp := 20, out := o }]
  else if b.1 = 6 then [{ node := a.1, inp := a.2, out := 20 }, { node := 6, inp := a.1, out := o }]
  else [{ node := a.1, inp := a.2, out := 20 }, { node := 6, inp := a.1, out := b.1 }, { node := b.1, inp := 20, out := o }]

/-- Send a flit: it waits outside its first port until that port has a place for it. -/
def State.post (s : State) (load : FlitLoad) (vc : VChan) (cls : Nat) (a b : Nat × Nat) : State :=
  let f : SFlit := { id := s.spine.nextFlit, load := load, vc := vc, cls := cls, way := wayOf a b, inside := false, ready := 0, born := s.spine.cycle }
  { s with spine := { s.spine with nextFlit := f.id + 1, flits := s.spine.flits ++ [f] } }

/-- Cycles of CLK_SPN from a flit's leaving a node to the next one, or to the crossing out (R28): the traverse, and the die-to-die hop. -/
def hopCount (h : SHop) : Nat :=
  if h.node = 6 then (if h.out < 6 then 18 else 6) else (if h.out = 20 then 20 else 8)

/-! ## What is under way for a block -/

/-- The physical block a send's lines come from. -/
def CrierSend.srcBlock (x : CrierSend) : Nat := match x.src with | some (b, _) => b | none => 60

/-- A crier send or caravan write under way names a physical block (R185, R350). -/
def State.sendNames (s : State) (b : Nat) : Bool :=
  s.fab.sends.any (fun x => x.targets.contains b || x.srcBlock == b) || s.fab.streams.any (fun y => y.members.any (fun m => m.1 == b))

/-- A flit on its way out of a block, or into it. -/
def State.flitOf (s : State) (b : Nat) : Bool :=
  s.spine.flits.any (fun f => (match f.way with | h :: _ => (!f.inside && h.node == b / 10 && h.inp == b % 10) | [] => false) ||
    (match f.way.getLast? with | some h => h.node == b / 10 && h.out == b % 10 | none => false))

end Sys2Proof.Machine
end

