-- ==== Sys2Proof/Machine/Ops.lean ====
section
/-! DEFINITION. Sys2Proof/Machine/Ops.lean: the named operations over the state that the commands share: free values,
events, answers, fences, memory objects, translation by the mirror table, and queues. -/

namespace Sys2Proof.Machine

/-! ## Free values and identifiers -/

/-- Draw the next free value's number. -/
def State.draw (s : State) : Nat × State := (s.free, { s with free := s.free + 1 })

/-- An identifier in [lo, lo + n) that `used` does not hold: any unused one may be chosen (a free value); none when all
are used. `m` bounds how many are used. -/
def pickId (seed lo n m : Nat) (used : Nat → Bool) : Option Nat :=
  if n = 0 then none
  else
    let c := lo + Config.pick seed % n
    if used c then (List.range (min n (m + 1))).map (· + lo) |>.find? (fun i => !used i) else some c

/-! ## Lookups -/

/-- TIME_US (R36). -/
def State.now (s : State) : Nat := s.sys.timeUs

/-- A partition that exists (live or being destroyed). -/
def State.part? (s : State) (p : Nat) : Option Partition := Tab.find s.part.parts p

/-- A live partition: created, and not being destroyed. -/
def State.livePart (s : State) (p : Nat) : Bool :=
  match Tab.find s.part.parts p with
  | some x => x.destroying.isNone
  | none => false

def State.setPart (s : State) (p : Nat) (x : Partition) : State :=
  { s with part := { s.part with parts := Tab.put s.part.parts p x } }

def State.updPart (s : State) (p : Nat) (f : Partition → Partition) : State :=
  { s with part := { s.part with parts := Tab.upd s.part.parts p f } }

/-- The physical block of a named block (R343). -/
def State.phys (s : State) (p named : Nat) : Option Nat :=
  match Tab.find s.part.parts p with
  | some x => Tab.find x.blockMap named
  | none => none

/-- The named block of a physical block in a partition, if it is bound to it. -/
def State.named (s : State) (p phys : Nat) : Option Nat :=
  match Tab.find s.part.parts p with
  | some x => (x.blockMap.find? (fun e => e.2 == phys)).map (·.1)
  | none => none

/-- The region of a physical block (R33). -/
def regionOf (b : Nat) : Nat := b / 10

/-- The block is in a quiet window, or is drained for one (R532). -/
def State.quietBlock (s : State) (b : Nat) : Bool :=
  match Tab.find s.age.islands b with
  | some x => x.quiet.isSome || x.draining
  | none => false

/-- The physical block is held as a moving block: a move of it runs and its entry has not switched yet (R350 steps 2-4), or it is quiet
(R532). -/
def State.movingBlock (s : State) (b : Nat) : Bool := s.part.moves.any (fun v => v.src == b && decide (v.step < 6)) || s.quietBlock b

/-- The named block is marked moving, or is quiet (R350, R532). -/
def State.movingName (s : State) (p name : Nat) : Bool :=
  match Tab.find s.part.parts p with
  | some x => x.moving.contains name || (match Tab.find x.blockMap name with | some b => s.quietBlock b | none => false)
  | none => false

def State.block (s : State) (b : Nat) : Block := Tab.getD s.fab.blocks b {}

def State.setBlock (s : State) (b : Nat) (x : Block) : State :=
  { s with fab := { s.fab with blocks := Tab.put s.fab.blocks b x } }

def State.updBlock (s : State) (b : Nat) (f : Block → Block) : State := s.setBlock b (f (s.block b))

/-- Contexts are keyed partition * 4096 + tag. -/
def ctxKey (p c : Nat) : Nat := p * 4096 + c

def State.ctx? (s : State) (p c : Nat) : Option Context := Tab.find s.host.contexts (ctxKey p c)

/-- The context is live in the partition (R318). -/
def State.ctxLive (s : State) (p c : Nat) : Bool :=
  match s.ctx? p c with
  | some x => x.live
  | none => false

/-- Memory objects are keyed partition * 65536 + INDEX; a handle is GEN and INDEX (R311). -/
def objKey (p h : Nat) : Nat := p * 65536 + h % 65536

/-- The live memory object a handle names in a partition. -/
def State.obj? (s : State) (p h : Nat) : Option MemObj :=
  match Tab.find s.host.objects (objKey p h) with
  | some o => if o.gen = h / 65536 ∧ h % 65536 ≠ 0 then some o else none
  | none => none

def State.ring? (s : State) (q : Nat) : Option Ring := Tab.find s.host.rings q

def State.setRing (s : State) (q : Nat) (r : Ring) : State :=
  { s with host := { s.host with rings := Tab.put s.host.rings q r } }

def State.queue? (s : State) (q : Nat) : Option TileQ := Tab.find s.stn.queues q

def State.setQueue (s : State) (q : Nat) (x : TileQ) : State :=
  { s with stn := { s.stn with queues := Tab.put s.stn.queues q x } }

/-- STALL_MS in force: 0 means 10 ms (R70). -/
def TileQ.ageMs (x : TileQ) : Nat := if x.stallMs = 0 then 10 else x.stallMs

/-- WATCHDOG_MS in force: 0 means 10 ms (R52). -/
def Station.watchdog (t : Station) : Nat := if t.watchdogMs = 0 then 10 else t.watchdogMs

/-! ## Queue descriptors (R70, R313, R354, R437) -/

/-- A tile queue's descriptor. A steward is no station: CONSUMER is 0xFFFF. While a station moves, HOT_BLOCK and HOT_OFF keep their old values
(R349). -/
def TileQ.image (q : Nat) (x : TileQ) : Nat :=
  let c : Nat × Nat := match x.consumer with | .none => (0xFFFF, 0) | .station i n => (i, n) | .steward _ n => (0xFFFF, n)
  let h : Nat := match x.oldPlace.or x.placed with | some (b, o) => plc 8 24 19 b ||| plc 8 18 0 o | none => 0
  plc 0 29 24 x.part ||| plc 0 23 20 3 ||| plc 0 19 0 q ||| plcB 4 2 c.1 ||| plc 6 1 0 c.2 ||| h ||| plcB 12 1 x.hotLog2 |||
  plcB 13 1 x.spillLog2 ||| plcB 14 2 x.stallMs ||| plcB 16 4 x.spillHandle ||| plcB 20 4 x.spillOff ||| plcB 24 8 x.tail |||
  plcB 32 8 x.head ||| plcB 40 4 x.hot.length ||| plcB 44 4 x.spill.length ||| plcB 48 4 x.fullStalls

/-- A host ring's descriptor. -/
def Ring.image (q : Nat) (x : Ring) : Nat :=
  plc 0 29 24 x.part ||| plc 0 23 20 x.ty ||| plc 0 19 0 q ||| plc 4 11 0 x.context ||| plcB 6 1 x.log2 ||| plcF 7 0 x.partEvents |||
  plcB 8 4 x.handle ||| plcB 12 4 x.off ||| plcF 16 31 x.cqValid ||| plc 16 19 0 x.cq ||| plcB 24 8 x.produced |||
  plcB 32 8 x.consumed ||| plcB 40 4 x.overflows

/-- A queue pair end's descriptor. -/
def QPair.image (q : Nat) (x : QPair) : Nat :=
  plc 0 29 24 x.part ||| plc 0 23 20 5 ||| plc 0 19 0 q ||| plcF 4 7 x.recv ||| plc 4 3 0 x.port ||| plcB 5 1 x.slots |||
  plcB 6 2 x.peerNode ||| plc 8 5 0 x.peerPart ||| plcB 10 2 x.landingFence ||| plc 12 19 0 x.peerQueue ||| plcB 16 4 x.landingAddr |||
  plcB 20 4 x.landingBytes ||| plc 24 19 0 x.localQ ||| plc 28 11 0 x.context ||| plcB 30 2 x.peerEpoch ||| plcB 32 8 x.count

/-- The descriptor of a queue ID, while it names a queue. -/
def State.descImage (s : State) (q : Nat) : Option Nat :=
  match Tab.find s.stn.queues q, Tab.find s.host.rings q, Tab.find s.part.qpairs q with
  | some x, _, _ => some (x.image q)
  | none, some x, _ => some (x.image q)
  | none, none, some x => some (x.image q)
  | none, none, none => none

/-- A descriptor goes to both device-reserved copies (R437). -/
def State.copyDesc (s : State) (q n : Nat) : State :=
  { s with stn := { s.stn with descA := Tab.put s.stn.descA q n, descB := Tab.put s.stn.descB q n } }

/-- A descriptor becomes active in the hub's directory cache, which holds 16,384 (R16); the least recently used one is evicted, its
counters written back to both copies (R437; which one is evicted is a DESIGN CHOICE, log entry 48). -/
def State.cacheDesc (s : State) (q : Nat) : State :=
  let l := s.stn.cached.filter (· != q) ++ [q]
  if l.length ≤ 16384 then { s with stn := { s.stn with cached := l } }
  else
    let s1 := { s with stn := { s.stn with cached := l.tail } }
    match l.head?.bind (fun h => (s.descImage h).map (fun n => (h, n))) with
    | some (h, n) => s1.copyDesc h n
    | none => s1

/-- A write of a descriptor reaches both device-reserved copies (R437); a queue that is gone leaves both, and the cache. -/
def State.storeDesc (s : State) (q : Nat) : State :=
  match s.descImage q with
  | some n => (s.copyDesc q n).cacheDesc q
  | none => { s with stn := { s.stn with descA := Tab.del s.stn.descA q, descB := Tab.del s.stn.descB q, cached := s.stn.cached.filter (· != q) } }

/-- Stations are keyed partition * 65536 + STATION_ID. -/
def stnKey (p i : Nat) : Nat := p * 65536 + i

def State.station? (s : State) (p i : Nat) : Option Station := Tab.find s.stn.stations (stnKey p i)

def State.setStation (s : State) (p i : Nat) (x : Station) : State :=
  { s with stn := { s.stn with stations := Tab.put s.stn.stations (stnKey p i) x } }

def State.engine? (s : State) (e : Nat) : Option Engine := Tab.find s.stn.engines e

def State.setEngine (s : State) (e : Nat) (x : Engine) : State :=
  { s with stn := { s.stn with engines := Tab.put s.stn.engines e x } }

def State.delEngine (s : State) (e : Nat) : State :=
  { s with stn := { s.stn with engines := Tab.del s.stn.engines e } }

def State.disp (s : State) (b : Nat) : Disp :=
  Tab.getD s.stn.disps b { slots := [], lastSlot := 63, ringUse := [], staleCount := 0 }

def State.setDisp (s : State) (b : Nat) (d : Disp) : State :=
  { s with stn := { s.stn with disps := Tab.put s.stn.disps b d } }

/-- A tile queue of the partition. -/
def State.tileQ (s : State) (p q : Nat) : Bool :=
  match s.queue? q with
  | some x => x.part == p
  | none => false

/-- A ring of the partition. -/
def State.ringOf (s : State) (p q : Nat) : Bool :=
  match s.ring? q with
  | some x => x.part == p
  | none => false

/-- A queue-pair send end of the partition. -/
def State.sendEnd (s : State) (p q : Nat) : Bool :=
  match Tab.find s.part.qpairs q with
  | some x => x.part == p && !x.recv
  | none => false

/-- A queue ID in use by any kind of queue. -/
def State.queueUsed (s : State) (q : Nat) : Bool :=
  (s.ring? q).isSome || (s.queue? q).isSome || Tab.has s.part.qpairs q

/-- Queues of every kind that a partition holds, against its allotment. -/
def State.queueCount (s : State) (p : Nat) : Nat :=
  (s.host.rings.filter (fun e => e.2.part == p)).length + (s.stn.queues.filter (fun e => e.2.part == p)).length +
  (s.part.qpairs.filter (fun e => e.2.part == p)).length

/-- A fence of the partition. -/
def State.fenceOf (s : State) (p f : Nat) : Bool :=
  match Tab.find s.fen.fences f with
  | some x => x.part == p
  | none => false

/-- The word of a fence as the array in service reads it (R558, R331). -/
def State.fenceWord (s : State) (f : Nat) : BitVec 64 :=
  match Tab.find s.fen.fences f with
  | some x => if s.fen.serveB then x.wordB else x.wordA
  | none => 0

/-- VALUE of a fence word. -/
def fenceValue (w : BitVec 64) : Nat := w.toNat % 2 ^ 63

/-- ABANDONED of a fence word. -/
def fenceAband (w : BitVec 64) : Bool := w.getLsbD 63

/-- A fence reaches a target when VALUE is at least the target or ABANDONED is 1 (R326). -/
def fenceReaches (w : BitVec 64) (t : Nat) : Bool := fenceAband w || decide (t ≤ fenceValue w)

/-! ## Engines and their numbers (R33, R51) -/

/-- Class of an engine ID. -/
def engClass (e : Nat) : Nat := e / 4096

/-- Number of an engine ID. -/
def engNum (e : Nat) : Nat := e % 4096

/-- The block an engine lies in: cells and carriers only. -/
def engBlock (e : Nat) : Option Nat :=
  if engClass e = 1 then some (engNum e / 20) else if engClass e = 2 then some (engNum e / 4) else none

/-- The region an engine lies in. -/
def engRegion (e : Nat) : Nat :=
  if engClass e = 1 then engNum e / 200 else if engClass e = 2 then engNum e / 40
  else if engClass e = 5 then engNum e / 2 else engNum e / 4

/-- The engine ID of a cell. -/
def cellId (c : Nat) : Nat := 0x1000 + c

/-- Source code of a unit in events (R557): class in [31:28]. -/
def srcCode (cls n : Nat) : Nat := cls <<< 28 ||| n

/-- Source code of an engine. -/
def engSource (e : Nat) : Nat :=
  match engClass e with
  | 1 => srcCode 0 (engNum e)
  | 2 => srcCode 1 (engNum e)
  | 3 => srcCode 3 (engNum e)
  | 4 => srcCode 4 (engNum e)
  | _ => srcCode 5 (engNum e)

/-- Place in the source order (R559) of a source in a block: position 0 the dispatcher, 1-20 the cells, 21-24 the carriers. -/
def rankBlock (b pos : Nat) : Nat := b * 32 + pos

/-- Place in the source order of an engine. -/
def engRank (e : Nat) : Nat :=
  match engClass e with
  | 1 => rankBlock (engNum e / 20) (1 + engNum e % 20)
  | 2 => rankBlock (engNum e / 4) (21 + engNum e % 4)
  | 3 => 2000 + engNum e
  | 4 => 2100 + engNum e
  | _ => 2200 + engNum e

/-- Place in the source order of a port, of the queue directory and Innkeeper, and of the front end. -/
def rankPort (p : Nat) : Nat := 2200 + p
def rankHub : Nat := 2300
def rankFront : Nat := 2301

/-! ## Fault log, events and what is sent -/

def State.emitOut (s : State) (o : Out) : State := { s with sent := o :: s.sent }

/-- Record a fault (R556): SEQ is one more than the newest entry's. -/
def State.logFault (s : State) (code part source detail : Nat) : State :=
  let n := match s.log with | e :: _ => e.seq + 1 | [] => 0
  { s with log := { seq := n, nonce := s.sys.bootNonce, slot := s.boot.slotId, code := code, part := part, source := source, time := s.now, detail := detail } :: s.log }

/-- The event queue an event goes to (R322): the context's own where one was named and still exists, else the
partition's. -/
def State.eventQueue (s : State) (part ctx : Nat) (useCtx : Bool) : Option Nat :=
  match (if useCtx then (s.ctx? part ctx).bind (·.eventQ) else none).filter (fun q => match s.ring? q with | some r => r.part == part && r.ty == 2 | none => false) with
  | some q => some q
  | none => (s.host.rings.find? (fun e => e.2.part == part && e.2.ty == 2 && e.2.partEvents)).map (·.1)

/-- Put an event into the coalescing store (R322): an event with the same code, source and context within 1 ms of the
first is counted in it. -/
def coalesce (now : Nat) (e : EventRec) : List EventRec → List EventRec
  | [] => [e]
  | x :: l =>
    if x.queue = e.queue ∧ x.code = e.code ∧ x.source = e.source ∧ x.context = e.context ∧ x.part = e.part ∧
        now < x.time + 1000 then { x with count := x.count + e.count } :: l
    else x :: coalesce now e l

/-- Raise an event (R322, R557); where the partition has no event queue for it, nobody receives it. -/
def State.event (s : State) (code part ctx : Nat) (useCtx : Bool) (source station data : Nat) : State :=
  match s.eventQueue part ctx useCtx with
  | some q =>
    { s with host := { s.host with events := coalesce s.now { queue := q, code := code, context := ctx, part := part, source := source, station := station, count := 1, time := s.now, data := data } s.host.events } }
  | none => s

/-- An operator event: to the event queue of partition 0 (R322). -/
def State.opEvent (s : State) (code part source data : Nat) : State :=
  match s.eventQueue 0 0 false with
  | some q =>
    { s with host := { s.host with events := coalesce s.now { queue := q, code := code, context := 0, part := part, source := source, station := 0xFFFF, count := 1, time := s.now, data := data } s.host.events } }
  | none => s

/-- A management answer (R332). -/
def State.answerMsg (s : State) (r : MsgRef) (a : Ans) : State := s.emitOut (.answer r.session r.corr r.msg a)

/-! ## Fields of the Zhohi image, and faults that pass to device level -/

/-- The default of a Zhohi field, by its body byte offset (R521). -/
def zhohiDefault (off : Nat) : Nat :=
  match off with
  | 64 => 12800 | 66 => 3000 | 68 => 64 | 70 => 192 | 71 => 128 | 72 => 1000 | 76 => 50 | 78 => 20 | 79 => 25 | 80 => 100000
  | 84 => 1000 | 92 => 0xFFFFFFFF | 96 => 1000 | 100 => 120 | 102 => 500 | 104 => 65536 | 108 => 24 | 110 => 10 | _ => 0

/-- The value of a Zhohi field in force. -/
def State.zh (s : State) (off : Nat) : Nat := Tab.getD s.sys.zhohi off (zhohiDefault off)

/-- A fault passes to device level with its cause and its unit (R20, R441). -/
def State.devFault (s : State) (cause unit : Nat) : State :=
  if s.sys.devFaults.contains cause then s
  else { s with sys := { s.sys with devFaults := s.sys.devFaults ++ [cause], devUnits := s.sys.devUnits ++ [unit % 65536] } }

/-! ## Pins (R544) -/

/-- An emergency of R465 is in force. -/
def PowUnit.emergency (w : PowUnit) : Bool := w.cap.on || w.therm.on || w.dimm || w.overOn || w.tripped

/-- ALERT_N is low (R544). -/
def State.alertLow (s : State) : Bool :=
  s.sys.state == .halted || s.sys.state == .withdrawn || s.sys.state == .recovery || s.boot.clockBad || s.pow.emergency

/-- Drive the output pins whose level a change of state from `s0` has changed (R544, R545). -/
def State.drive (s s0 : State) : State :=
  let s1 := if s.boot.pwrgd != s0.boot.pwrgd then s.emitOut (.pin 2 s.boot.pwrgd) else s
  let s2 := if s.alertLow != s0.alertLow then s1.emitOut (.pin 4 (!s.alertLow)) else s1
  if s.boot.tripPin != s0.boot.tripPin then s2.emitOut (.pin 5 (!s.boot.tripPin)) else s2

/-- Ports train: outside doze, withdrawal, recovery and a halt, and in a start once step 4 has ended (R381, R442, R515, R523, R524). -/
def State.linksTrain (s : State) : Bool :=
  match s.sys.state with
  | .ready => true
  | .starting => s.boot.steps.contains 4
  | _ => false

/-- An event of the link chapters: to the operator, and to the fabric manager as a management frame (R384). The port is at
byte 40 of DATA, with what else the event carries from byte 41. -/
def State.linkEvent (s : State) (code port info : Nat) : State :=
  (s.opEvent code 0 0 (plcB 0 1 port ||| plcB 1 8 info)).emitOut (.msg .fabricManager code [port, info])

/-! ## Main memory by DPA (R220, R231, R240, R241) -/

/-- S of R220. -/
def State.spanBits (s : State) : Nat := if s.dram.dimmGb = 128 then 40 else if s.dram.dimmGb = 256 then 41 else 39

/-- The DPA lies in installed memory (R220). -/
def State.installed (s : State) (dpa : Nat) : Bool := decide (dpa < 6 * 2 ^ s.spanBits)

/-- The DPA lies in a device-reserved area (R221). -/
def State.reserved (s : State) (dpa : Nat) : Bool := decide (2 ^ s.spanBits - 2 ^ 28 ≤ dpa % 2 ^ s.spanBits)

/-- Region and channel of a DPA (R220). -/
def State.dpaRegion (s : State) (dpa : Nat) : Nat := dpa / 2 ^ s.spanBits
def State.dpaChannel (s : State) (dpa : Nat) : Nat := 8 * s.dpaRegion dpa + dpa / 4096 % 8

/-- The bank target of a DPA: bit 5 the pseudo-channel, bits [4:0] with the XOR of R220. -/
def bankTarget (dpa : Nat) : Nat := (dpa / 2 ^ 15 % 2) * 32 + ((dpa / 2 ^ 7 % 32) ^^^ (dpa / 2 ^ 16 % 32))

/-- The subchannel of a DPA. -/
def subOf (dpa : Nat) : Nat := dpa / 64 % 2

/-- A run holds the DPA. -/
def inRun (dpa : Nat) (r : Nat × Nat) : Bool := decide (r.1 ≤ dpa) && decide (dpa < r.1 + r.2 * 32768)

/-- The DPA lies in the partition's carve-out (R339). -/
def State.inCarve (s : State) (p dpa : Nat) : Bool :=
  match s.part? p with
  | some x => x.runs.any (inRun dpa)
  | none => false

/-- The partition whose carve-out holds a DPA. -/
def State.ownerOf (s : State) (dpa : Nat) : Option Nat :=
  (s.part.parts.find? (fun e => e.2.runs.any (inRun dpa))).map (·.1)

/-- The stripe number of a DPA within its region (R231). -/
def State.stripeOf (s : State) (dpa : Nat) : Nat := dpa % 2 ^ s.spanBits / 2 ^ 15

/-- The page is the parity page of its stripe (R231). -/
def State.parityPage (s : State) (dpa : Nat) : Bool := decide (dpa / 4096 % 8 = s.stripeOf dpa % 8)

/-- Carve-out bytes usable of one stripe: seven pages of eight in a coded carve-out (R231). -/
def stripeBytes (coded : Bool) : Nat := if coded then 28672 else 32768

/-- The DPA of a carve-out offset (R267): stripes in ascending DPA order, parity pages left out. -/
def State.dpaOfOff (s : State) (coded : Bool) (runs : List (Nat × Nat)) (off : Nat) : Option Nat :=
  match runs with
  | [] => none
  | (base, n) :: l =>
    if off < n * stripeBytes coded then
      let st := base + off / stripeBytes coded * 32768
      let r := off % stripeBytes coded
      if coded then
        let par := s.stripeOf st % 8
        let pg := if r / 4096 < par then r / 4096 else r / 4096 + 1
        some (st + pg * 4096 + r % 4096)
      else some (st + r)
    else State.dpaOfOff s coded l (off - n * stripeBytes coded)

/-- The carve-out offset of a DPA (R267). -/
def State.offOfDpa (s : State) (coded : Bool) (runs : List (Nat × Nat)) (dpa : Nat) : Option Nat :=
  match runs with
  | [] => none
  | (base, n) :: l =>
    if inRun dpa (base, n) then
      let st := (dpa - base) / 32768
      let pg := dpa / 4096 % 8
      if coded then
        if s.parityPage dpa then none
        else some (st * 28672 + (if pg < s.stripeOf dpa % 8 then pg else pg - 1) * 4096 + dpa % 4096)
      else some (dpa - base)
    else (State.offOfDpa s coded l dpa).map (· + n * stripeBytes coded)

/-- Usable carve-out bytes of a partition (R231). -/
def usableBytes (x : Partition) : Nat := sumN (x.runs.map (·.2)) * stripeBytes x.coded

/-- A carve-out page (offset) is sealed (R503). -/
def Partition.sealed (x : Partition) (off : Nat) : Bool :=
  x.sealedRanges.any (fun r => decide (r.2.1 ≤ off) && decide (off < r.2.1 + r.2.2))

/-- A DPA lies on a sealed page of the partition (R503). -/
def State.sealedDpa (s : State) (x : Partition) (dpa : Nat) : Bool :=
  match s.offOfDpa x.coded x.runs dpa with
  | some o => x.sealed o
  | none => false

/-- The key number a slot holds; 0 when it is erased. -/
def KeySlots.key (k : KeySlots) (slot : Nat) : Nat := (if slot = 0 then k.k0 else k.k1).getD 0

/-- The slot a sweep gives a line: the new one where the sweep has rewritten it, else the one its page's bitmap bit names (R243). -/
def Rekey.slot (y : Rekey) (ch dpa bit : Nat) : Nat :=
  match Tab.find y.pages ch with
  | some g => if g.page = dpa / 4096 * 4096 ∧ g.mask.contains (dpa / 64 % 64) = true then y.newSlot else bit
  | none => bit

/-- The key number that governs a line (R240, R241, R243): of the device in its reserved area, of the partition whose carve-out holds it;
0 where it belongs to nobody. -/
def State.lineKey (s : State) (dpa : Nat) : Nat :=
  if s.reserved dpa then s.dram.devKeys.key s.dram.devKeys.cur
  else
    match (s.ownerOf dpa).bind (fun p => (Tab.find s.dram.keys p).map (fun k => (p, k))) with
    | none => 0
    | some (p, k) =>
      match Tab.find s.dram.rekeys p with
      | some y => k.key (y.slot (s.dpaChannel dpa) dpa (Tab.getD s.dram.bitmap (dpa / 4096) 0))
      | none => k.key k.cur

/-- The DPA lies in a coded carve-out (R231). -/
def State.codedDpa (s : State) (dpa : Nat) : Bool :=
  match (s.ownerOf dpa).bind s.part? with
  | some x => x.coded
  | none => false

/-- A byte of main memory as the DRAM holds it: what was written, under the key it was written with (R240); in a coded carve-out not
written since, the zero its initialisation wrote (R232); else the value that depends only on the key and the address (R241). -/
def State.arrayByte (s : State) (dpa : Nat) : BitVec 8 :=
  match Tab.find s.dram.written (dpa / 64) with
  | some k =>
    if k = s.lineKey dpa then Memory.read s.dram.dram dpa
    else Config.wrongKey k (s.lineKey dpa) dpa (ofBytes (Memory.readL s.dram.dram (dpa / 64 * 64) 64))
  | none => if s.codedDpa dpa then 0 else Config.unwritten (s.lineKey dpa) dpa

/-- `n` bytes of the DRAM. -/
def State.arrayL (s : State) (dpa : Nat) : Nat → List (BitVec 8)
  | 0 => []
  | n + 1 => s.arrayByte dpa :: State.arrayL s (dpa + 1) n

/-- The row entry of a line in its region's parity engine (R233). -/
def State.rowOf (s : State) (line : Nat) : Option RowEntry :=
  s.dram.rows.find? (fun r => r.region == s.dpaRegion (line * 64) && r.stripe == s.stripeOf (line * 64) && r.k == line % 64)

/-- What a parity engine holds for a line: the newest write held there, else the staged line (R233, R234). -/
def State.engineLine (s : State) (line : Nat) : Option (List (BitVec 8)) :=
  match (s.dram.rowWait.filter (fun r => r.write && r.line == line && r.data.length == 64)).getLast? with
  | some r => some r.data
  | none => (s.rowOf line).bind (fun r => Tab.find r.staged (line / 64 % 8))

/-- A byte of main memory as its readers see it: staged lines are answered from their entry (R233). -/
def State.dramByte (s : State) (dpa : Nat) : BitVec 8 :=
  match s.engineLine (dpa / 64) with
  | some l => l.getD (dpa % 64) 0
  | none => s.arrayByte dpa

/-- `n` bytes of main memory from a DPA. -/
def State.dramL (s : State) (dpa : Nat) : Nat → List (BitVec 8)
  | 0 => []
  | n + 1 => s.dramByte dpa :: State.dramL s (dpa + 1) n

/-- A memory controller as it stands at start: frame 0 of both subchannels is a READ frame. -/
def freshCtrl : Ctrl := {}

def State.ctrl (s : State) (ch : Nat) : Ctrl := Tab.getD s.dram.ctrls ch freshCtrl

def State.setCtrl (s : State) (ch : Nat) (c : Ctrl) : State :=
  { s with dram := { s.dram with ctrls := Tab.put s.dram.ctrls ch c } }

/-- The line of a DPA is on its channel's poison list (R239). -/
def State.poisoned (s : State) (dpa : Nat) : Bool := (s.ctrl (s.dpaChannel dpa)).poison.contains (dpa / 64)

/-- The dirty pages of a migrating partition with the page of a write added (R449). -/
def State.noteDirty (s : State) (dpa : Nat) : Tab (List Nat) :=
  if s.dram.dirty.isEmpty then s.dram.dirty
  else
    match s.ownerOf dpa with
    | none => s.dram.dirty
    | some p => Tab.upd s.dram.dirty p (fun l => if l.contains (dpa / 4096) then l else l ++ [dpa / 4096])

/-- Bytes of a line with others over them from a place. -/
def overlay (old : List (BitVec 8)) (lo : Nat) (data : List (BitVec 8)) : List (BitVec 8) :=
  old.take lo ++ data ++ old.drop (lo + data.length)

/-- Write a whole line into the DRAM under the key that governs it; where the write covers the line, its poison is cleared (R239). -/
def State.putLine (s : State) (line : Nat) (data : List (BitVec 8)) (clears : Bool) : State :=
  let dpa := line * 64
  let s1 := { s with dram := { s.dram with dram := Memory.writeL s.dram.dram dpa data, written := Tab.put s.dram.written line (s.lineKey dpa), dirty := s.noteDirty dpa } }
  let ch := s.dpaChannel dpa
  if clears && (s1.ctrl ch).poison.contains line then
    s1.setCtrl ch { s1.ctrl ch with poison := (s1.ctrl ch).poison.filter (· != line) } else s1

/-- A sweep buffer takes a write that reaches its page in flight. -/
def State.patchSweep (s : State) (line : Nat) (data : List (BitVec 8)) : State :=
  if s.dram.rekeys.isEmpty then s
  else
    let ch := s.dpaChannel (line * 64)
    let patch (g : SweepPage) : SweepPage :=
      if g.page = line / 64 * 4096 ∧ Tab.has g.data (line % 64) = true then { g with data := Tab.put g.data (line % 64) data } else g
    { s with dram := { s.dram with rekeys := Tab.all s.dram.rekeys (fun _ y => { y with pages := Tab.upd y.pages ch patch }) } }

/-- Write `data` at byte `lo` of one 64-byte line of the DRAM (R228, R239, R241). -/
def State.dramPutLine (s : State) (line lo : Nat) (data : List (BitVec 8)) : State :=
  let full := if data.length = 64 then data else overlay (s.arrayL (line * 64) 64) lo data
  (s.putLine line full (decide (data.length = 64))).patchSweep line full

/-- Once a DIMM is lost, no write is accepted to any carve-out (R235). -/
def State.refusesWrite (s : State) (dpa : Nat) : Bool := !s.dram.lostDimms.isEmpty && (s.ownerOf dpa).isSome

/-- Stage a line in its row's entry, allocating the entry if the row has none (R233); none when it must wait: all 512 entries of the
region are in use, or the row's own is being flushed (R234; the second is a DESIGN CHOICE, log entry 50). -/
def State.stage (s : State) (line : Nat) (data : List (BitVec 8)) : Option State :=
  let dpa := line * 64
  match s.rowOf line with
  | some r =>
    if r.flushing then none
    else some { s with dram := { s.dram with dirty := s.noteDirty dpa, rows := s.dram.rows.map (fun q => if q.id = r.id then { q with staged := Tab.put q.staged (dpa / 4096 % 8) data } else q) } }
  | none =>
    if 512 ≤ (s.dram.rows.filter (fun q => q.region == s.dpaRegion dpa)).length then none
    else
      let r : RowEntry := { id := s.dram.nextRow, region := s.dpaRegion dpa, stripe := s.stripeOf dpa, k := line % 64, staged := [(dpa / 4096 % 8, data)], born := s.spine.cycle }
      some { s with dram := { s.dram with dirty := s.noteDirty dpa, rows := s.dram.rows ++ [r], nextRow := s.dram.nextRow + 1 } }

/-- The carve-out of a page is still being initialised (R232). -/
def State.codedStarting (s : State) (dpa : Nat) : Bool :=
  match (s.ownerOf dpa).bind s.part? with | some x => x.initialising | none => false

/-- A line written at once, by a unit whose accesses the model does not queue (log entry 50): in a coded carve-out it is staged, or held in
the engine, also while the carve-out is being initialised (R232-R234). -/
def State.dramWriteLine (s : State) (line lo : Nat) (data : List (BitVec 8)) : State :=
  let dpa := line * 64
  if s.refusesWrite dpa then s
  else if s.codedDpa dpa then
    let full := overlay (s.dramL dpa 64) lo data
    if s.codedStarting dpa then { s with dram := { s.dram with rowWait := s.dram.rowWait ++ [{ id := 0, line := line, write := true, lo := lo, data := data, who := .none }] } }
    else
    match s.stage line full with
    | some t => t
    | none => { s with dram := { s.dram with rowWait := s.dram.rowWait ++ [{ id := 0, line := line, write := true, data := full, clears := true, who := .none }] } }
  else s.dramPutLine line lo data

/-- Write a byte string to main memory, line by line; `fuel` bounds the number of lines. -/
def State.dramWriteL (s : State) (dpa : Nat) (data : List (BitVec 8)) : Nat → State
  | 0 => s
  | fuel + 1 =>
    if data.isEmpty then s
    else
      let n := 64 - dpa % 64
      State.dramWriteL (s.dramWriteLine (dpa / 64) (dpa % 64) (data.take n)) (dpa + n) (data.drop n) fuel

/-- Write a byte string to main memory. -/
def State.dramWrite (s : State) (dpa : Nat) (data : List (BitVec 8)) : State := s.dramWriteL dpa data (data.length + 1)

/-! ## The mirror table (R252-R254, R273) -/

/-- Translation failure codes (R273). -/
inductive XCode where
  | notValid | writeDenied | badDte | parityPage | tablePoison | outOfCarveout | sealedWrite
  /-- answers of a remote window's module (R272) -/
  | windowInvalid | windowSource | windowKey | windowRange | windowPerm | windowPartition | windowSealed
deriving DecidableEq, Repr

/-- Where a virtual address leads. -/
inductive XRes where
  | dram (dpa : Nat)
  | host (addr : Nat)
  | window (index off : Nat)
  | bad (c : XCode)
deriving DecidableEq, Repr

/-- Index bits of a virtual address at a level (R252). -/
def vaIndex (level va : Nat) : Nat := va / 2 ^ (12 + 9 * level) % 512

/-- A table entry breaks R254: RSVD [63:56], [55:44] or [11:1] non-zero. -/
def tableBad (dte : Nat) : Bool := dte / 2 ^ 44 != 0 || dte / 2 % 2048 != 0

/-- A leaf breaks R254: RSVD, hints without HOST, HOST with WINDOW, or FRAME bits its kind keeps zero. -/
def leafBad (dte : Nat) : Bool :=
  dte / 2 ^ 56 != 0 || dte / 2 ^ 7 % 32 != 0 || (!tbit dte 2 && (tbit dte 4 || tbit dte 5)) || (tbit dte 2 && tbit dte 3) ||
  (!tbit dte 2 && !tbit dte 3 && dte / 2 ^ 44 % 4096 != 0) || (tbit dte 3 && dte / 2 ^ 52 % 16 != 0)

/-- The frame a table or device-page entry points to. -/
def dteFrame (dte : Nat) : Nat := dte / 4096 % 2 ^ 32 * 4096

/-- What a leaf DTE makes of an access (R253, R254, R268, R273). -/
def State.leaf (s : State) (p : Nat) (x : Partition) (dte va : Nat) (write : Bool) : XRes :=
  if !tbit dte 0 then .bad .notValid
  else if leafBad dte then .bad .badDte
  else if write && !tbit dte 1 then .bad .writeDenied
  else if tbit dte 2 then .host (dte / 4096 % 2 ^ 44 * 4096 + va % 4096)
  else if tbit dte 3 then
    let i := dte / 2 ^ 44 % 256
    match Tab.find s.xlt.out (p * 256 + i) with
    | some w => if w.valid then .window i (dteFrame dte + va % 4096) else .bad .badDte
    | none => .bad .badDte
  else
    let dpa := dteFrame dte + va % 4096
    if !s.inCarve p dpa || s.reserved dpa then .bad .outOfCarveout
    else if x.coded && s.parityPage dpa then .bad .parityPage
    else if write && s.sealedDpa x dpa then .bad .sealedWrite
    else .dram dpa

/-- The walk from a table at `level` downward (R252, R258). -/
def State.walk (s : State) (p : Nat) (x : Partition) (va : Nat) (write : Bool) : (level table : Nat) → XRes
  | level, table =>
    let at' := table + vaIndex level va * 8
    if !s.inCarve p table || s.reserved table then .bad .outOfCarveout
    else if s.poisoned at' then .bad .tablePoison
    else
      let dte := ofBytes (s.dramL at' 8)
      match level with
      | 0 => s.leaf p x dte va write
      | l + 1 =>
        if !tbit dte 0 then .bad .notValid
        else if tableBad dte then .bad .badDte
        else State.walk s p x va write l (dteFrame dte)

/-- Translate a virtual address of a context (R252-R254). -/
def State.xlate (s : State) (p c va : Nat) (write : Bool) : XRes :=
  match s.part? p, s.ctx? p c with
  | some x, some k => s.walk p x va write 3 k.root
  | _, _ => .bad .notValid

/-- The number of a translation code in TRANSLATION_FAULT's DATA, in the order of R273's table. -/
def XCode.num : XCode → Nat
  | .notValid => 1 | .writeDenied => 2 | .badDte => 3 | .parityPage => 4 | .tablePoison => 5
  | .windowInvalid => 6 | .windowSource => 7 | .windowKey => 8 | .windowRange => 9 | .windowPerm => 10 | .outOfCarveout => 11
  | .sealedWrite => 12 | .windowPartition => 13 | .windowSealed => 14

/-- A byte read through a context's translation, where the address leads to memory the module reaches itself. -/
def State.readVA (s : State) (p c va : Nat) : Option (BitVec 8) :=
  match s.xlate p c va false with
  | .dram dpa => if s.poisoned dpa then none else some (s.dramByte dpa)
  | .host a => some (Memory.read s.hostMem a)
  | _ => none

/-- `n` bytes read through a context's translation; none when any byte's translation fails. -/
def State.readVAL (s : State) (p c va : Nat) : Nat → Option (List (BitVec 8))
  | 0 => some []
  | n + 1 =>
    match s.readVA p c va, State.readVAL s p c (va + 1) n with
    | some b, some l => some (b :: l)
    | _, _ => none

/-- Bytes of one line written through a context's translation; nothing is written where the translation fails. -/
def State.writeVA (s : State) (p c va : Nat) (l : List (BitVec 8)) : State :=
  match s.xlate p c va true with
  | .dram dpa => s.dramWriteLine (dpa / 64) (dpa % 64) l
  | .host a => { s with hostMem := Memory.writeL s.hostMem a l }
  | _ => s

/-- A byte string written through a context's translation, line by line. -/
def State.writeLines (s : State) (p c va : Nat) : (fuel : Nat) → List (BitVec 8) → State
  | 0, _ => s
  | fuel + 1, l =>
    if l.isEmpty then s
    else State.writeLines (s.writeVA p c va (l.take (64 - va % 64))) p c (va + (64 - va % 64)) fuel (l.drop (64 - va % 64))

def State.writeVAL (s : State) (p c va : Nat) (l : List (BitVec 8)) : State := s.writeLines p c va l.length l

/-- Bytes read from a memory object at an offset, through its context's translation (R311). -/
def State.readObj (s : State) (o : MemObj) (off n : Nat) : Option (List (BitVec 8)) :=
  if off + n ≤ o.length then s.readVAL o.part o.context (o.va + off) n else none

/-- Bytes written into a memory object at an offset. -/
def State.writeObj (s : State) (o : MemObj) (off : Nat) (l : List (BitVec 8)) : State :=
  s.writeVAL o.part o.context (o.va + off) l

/-! ## Ring entries (R299, R315) -/

/-- Entries a ring holds. -/
def Ring.size (r : Ring) : Nat := 2 ^ r.log2

/-- The ring has a released slot for another entry (R315). -/
def Ring.room (r : Ring) : Bool := decide (r.produced < r.consumed + 2 ^ r.log2)

/-- PHASE of record number n: 1 minus the parity of its lap (R299). -/
def phaseOf (log2 n : Nat) : Nat := 1 - n / 2 ^ log2 % 2

/-- Bytes of a ring's entry (R312, R484). -/
def entryBytes (ty : Nat) : Nat := if ty = 1 then 32 else if ty = 4 then 16 else if ty = 6 then 1024 else 64

/-- Write the next entry of a ring Kloquen writes: `mk seq phase` is the entry. The slot is SEQ mod the ring's entries. -/
def State.writeRing (s : State) (q : Nat) (r : Ring) (mk : Nat → Nat → Nat) : State :=
  let n := r.produced
  let e := mk n (phaseOf r.log2 n)
  let sz := entryBytes r.ty
  let s1 := match s.obj? r.part r.handle with
    | some o => s.writeObj o (r.off + n % 2 ^ r.log2 * sz) (bytesOf sz e)
    | none => s
  (s1.setRing q { r with produced := n + 1 }).emitOut (.ring q n e)

/-! ## Fence flits (R325, R558) -/

/-- Send a signal or reset to the fence store's port: a class P0 flit of the crier and control channel from its source (R172). -/
def State.sendFence (s : State) (f : FenceFlit) : State :=
  { s with fen := { s.fen with port := s.fen.port ++ [{ f with flit := some s.spine.nextFlit }] } }.post .fence .control 0 (rankEnd f.rank) fenceEnd

/-- The fence action of a waybill at its commit or consumption (R49, R59): rank and source are its performer's. -/
def State.fenceAction (s : State) (p : Nat) (w : Waybill) (rank source : Nat) (aband : Bool) : State :=
  if w.fenceOp = 1 then
    s.sendFence { fence := w.fenceId, part := p, context := w.context, op := .add w.fenceDelta aband, rank := rank, source := source, reply := .none }
  else if w.fenceOp = 2 then
    s.sendFence { fence := w.fenceId, part := p, context := w.context, op := .set w.fenceDelta aband, rank := rank, source := source, reply := .none }
  else s

/-! ## Command answers (R318, R320) -/

/-- The completion record (R320). -/
def cplEntry (c : CplRec) (seq phase : Nat) : Nat :=
  plcB 0 4 seq ||| plc 4 7 7 phase ||| plcF 4 6 c.last ||| plc 4 5 4 c.ans.form ||| plcB 6 2 c.ans.code |||
  plcB 8 4 c.submitSeq ||| plcB 12 2 c.index ||| plcB 14 2 c.opcode ||| plcB 16 4 c.tag ||| plcB 24 8 c.ans.value

/-- Write held answers of a submission ring, oldest first, while its completion ring has room (R320). -/
def State.flushOut (s : State) (q : Nat) : Nat → State
  | 0 => s
  | fuel + 1 =>
    match s.ring? q with
    | none => s
    | some r =>
      match r.out with
      | [] => s
      | c :: l =>
        if !r.cqValid then State.flushOut (s.setRing q { r with out := l }) q fuel
        else
          match s.ring? r.cq with
          | none => State.flushOut (s.setRing q { r with out := l }) q fuel
          | some cq =>
            if cq.room then
              State.flushOut ((s.setRing q { r with out := l }).writeRing r.cq cq (cplEntry c)) q fuel
            else s

/-- The buffer has ended: signal when asked and not ended early, and release the entry (R318). -/
def State.endBuffer (s : State) (q : Nat) (early : Bool) : State :=
  match s.ring? q with
  | none => s
  | some r =>
    match r.cur with
    | none => s
    | some b =>
      let s1 := s.setRing q { r with cur := none, consumed := r.consumed + 1 }
      if b.signalEn && !early then
        s1.sendFence { fence := b.signalFence, part := r.part, context := b.context, op := .set b.signalValue false, rank := rankFront, source := srcCode 7 0, reply := .none }
      else s1

/-- A buffer ends when its last answer has been written (R318, R331). -/
def State.tryEnd (s : State) (q : Nat) : State :=
  match s.ring? q with
  | none => s
  | some r =>
    match r.cur, r.out with
    | some b, [] => (match b.phase with | .ending early => s.endBuffer q early | _ => s)
    | _, _ => s

/-- Record bytes of each command of the command table (R317, R502); none for an unknown OPCODE. -/
def cmdLength (opcode : Nat) : Option Nat :=
  match opcode with
  | 0x0001 => some 16 | 0x0002 => some 8 | 0x0003 => some 32 | 0x0004 => some 8 | 0x0005 => some 72 | 0x0006 => some 8
  | 0x0007 => some 16 | 0x0008 => some 8 | 0x0009 => some 16 | 0x000A => some 24 | 0x000B => some 16 | 0x000C => some 48
  | 0x0010 => some 128 | 0x0011 => some 72 | 0x0012 => some 72 | 0x0013 => some 8 | 0x0014 => some 72 | 0x0015 => some 64
  | 0x0016 => some 8 | 0x0017 => some 128 | 0x0018 => some 8 | 0x0019 => some 32 | 0x001A => some 8 | 0x001B => some 8
  | 0x001C => some 40 | 0x001D => some 8 | 0x001E => some 8 | 0x001F => some 16 | 0x0020 => some 64 | 0x0021 => some 8
  | 0x0022 => some 64 | 0x0023 => some 32 | 0x0024 => some 16 | 0x0025 => some 16 | 0x0026 => some 32 | 0x0027 => some 8
  | _ => none

/-- A command that is answered BAD_COMMAND (R317). -/
def HostCmd.bad (c : HostCmd) : Bool := c.past || cmdLength c.opcode != some c.length

/-- Answer the front command of a submission ring's buffer once, and go on to the next, end the buffer, or wait for room
(R318, R320). Where every command of a buffer is answered alike, STOP_ON_REFUSE does not end it (log entry 8). -/
def State.answerOne (s : State) (q : Nat) (a : Ans) : State :=
  match s.ring? q with
  | none => s
  | some r =>
    match r.cur with
    | none => s
    | some b =>
      match b.cmds with
      | [] => s
      | c :: rest =>
        let busy := match a with | .busy _ _ => true | _ => false
        let refused := match a with | .refused _ _ => true | _ => false
        let every := b.forced.isSome || a == .refused .contextRevoked 0
        let early := busy || (refused && b.stopOnRefuse && !every) || c.past
        let final := early || rest.isEmpty
        let rec' : CplRec := { last := final, ans := a, submitSeq := b.seq, index := b.index, opcode := c.opcode, tag := c.tag }
        let r1 := { r with out := r.out ++ [rec'], cur := some { b with cmds := rest, index := b.index + 1, phase := if final then .ending early else .running } }
        ((s.setRing q r1).flushOut q (r1.out.length + 1)).tryEnd q

/-- Answer commands that run no meaning, in order, while no answer is held: those of a buffer whose commands are all
answered alike (R318), and those with an unknown OPCODE or a wrong LENGTH (R317). -/
def State.skipBad (s : State) (q : Nat) : Nat → State
  | 0 => s
  | fuel + 1 =>
    match s.ring? q with
    | none => s
    | some r =>
      match r.cur with
      | none => s
      | some b =>
        match b.cmds with
        | [] => s
        | c :: _ =>
          if b.phase = .running ∧ r.out = [] then
            match b.forced with
            | some k => State.skipBad (s.answerOne q (.refused k 0)) q fuel
            | none => if c.bad then State.skipBad (s.answerOne q (.refused .badCommand 0)) q fuel else s
          else s

/-- Commands left in a ring's buffer. -/
def State.cmdsLeft (s : State) (q : Nat) : Nat :=
  match s.ring? q with
  | some r => (match r.cur with | some b => b.cmds.length | none => 0)
  | none => 0

/-- Answer the front command, then every following one that runs no meaning. -/
def State.answerCmd (s : State) (q : Nat) (a : Ans) : State := (s.answerOne q a).skipBad q (s.cmdsLeft q)

/-- What a command's meaning is given of its place (R318). -/
structure CmdEnv where
  ring : Nat
  part : Nat
  context : Nat
  submitSeq : Nat
  index : Nat
deriving DecidableEq, Repr

/-- The front command of a ring's running buffer, when it is this one and no answer is held (R318, R320). -/
def State.front (s : State) (q opcode record : Nat) : Option CmdEnv :=
  match s.ring? q with
  | none => none
  | some r =>
    match r.cur with
    | none => none
    | some b =>
      match b.cmds with
      | [] => none
      | c :: _ =>
        if r.ty = 0 ∧ b.phase = .running ∧ r.out = [] ∧ b.forced = none ∧ c.past = false ∧ c.opcode = opcode ∧
            cmdLength opcode = some c.length ∧ c.record = record then
          some { ring := q, part := r.part, context := b.context, submitSeq := b.seq, index := b.index }
        else none

/-- Mark the front command begun: its answer comes later. -/
def State.await (s : State) (q : Nat) : State :=
  match s.ring? q with
  | none => s
  | some r =>
    match r.cur with
    | none => s
    | some b => s.setRing q { r with cur := some { b with phase := .awaiting } }

/-! ## Innkeeper's classes and cores (R276-R278) -/

/-- The next items of the sources that wait for Innkeeper other than requests, as class and partition (R276): epochs to be signed (2), hang
records to be captured and syncs to be sent (3), token notices and records with room in their ring (4), events due (5). Work that
Innkeeper does within the command that causes it, or that waits for something else, is no item: log entry 52. -/
def State.innWork (s : State) : List (Nat × Nat) :=
  (s.reck.unsigned.filter (fun e => decide (e.closed ≤ s.reck.lastWin))).map (fun _ => (2, 0)) ++
  (s.fail.captures.filter (fun c => !c.done)).map (fun c => (3, c.part)) ++
  (s.xlt.syncs.filter (fun y => !y.sent && !s.xlt.syncs.any (fun z => z.part == y.part && z.sent))).map (fun y => (3, y.part)) ++
  s.ses.taps.map (fun t => (4, match Tab.find s.ses.sessions t.slot with | some x => x.part | none => 0)) ++
  (s.ses.sessions.filter (fun e => match e.2.recs.head?, (Tab.find s.svc.plans e.2.plan).bind (fun y => s.ring? y.tokenRing) with
    | some r, some g => r.acked && g.room
    | _, _ => false)).map (fun e => (4, e.2.part)) ++
  (s.host.events.filter (fun e => decide (e.time + 1000 ≤ s.now))).map (fun e => (5, e.part))

/-- The session of a message's item; none for a command's. -/
def InnItem.session (x : InnItem) : Option Nat := if 2 ^ 72 ≤ x.key then some ((x.key - 2 ^ 72) / 2 ^ 48) else none

/-- A request still waits: a message is delivered again until it is served; a command stands at the front of its ring, or left with it. -/
def State.innLive (s : State) (x : InnItem) : Bool :=
  x.session.isSome ||
  (match s.ring? (x.key / 65536) with
   | some r => (match r.cur with | some b => (match b.cmds with | c :: _ => c.opcode == x.key % 65536 | [] => false) | none => false)
   | none => false)

/-- Messages of one session begin in SEQ order (R336): of each session's, only the first may begin. -/
def inOrder : (seen : List Nat) → List InnItem → List InnItem
  | _, [] => []
  | seen, x :: l =>
    match x.session with
    | none => x :: inOrder seen l
    | some n => if seen.contains n then inOrder seen l else x :: inOrder (n :: seen) l

/-- The requests that may begin, in order of arrival. -/
def State.innReqs (s : State) : List InnItem := inOrder [] (s.svc.waiting.filter s.innLive)

/-- The items pending, as class and partition, in order of arrival (R277). -/
def State.innItems (s : State) : List (Nat × Nat) := s.innWork ++ s.innReqs.map (fun x => (x.cls, x.part))

/-- Items pending of a class and partition. -/
def innCount (l : List (Nat × Nat)) (cls p : Nat) : Nat := (l.filter (fun e => e.1 == cls && e.2 == p)).length

/-- A partition's place in the round of a class, which starts after the partition served last (R277). -/
def State.roundPlace (s : State) (cls p : Nat) : Nat := (p + 127 - Tab.getD s.svc.lastServed cls 63 % 64) % 64

/-- Items that Innkeeper takes before item `k` of class `cls` of partition `p` (R277): every one of a lower class, and of its own class
the other partitions' in rounds, and its own partition's that arrived before. -/
def State.innAhead (s : State) (cls p k : Nat) : Nat :=
  let l := s.innItems
  (l.filter (fun e => decide (e.1 < cls))).length +
  sumN ((List.range 64).map (fun q =>
    min (innCount l cls q) (if q ≠ p ∧ s.roundPlace cls q < s.roundPlace cls p then k + 1 else k)))

/-- The cores that take items (R276): eight, but one that is lost (R441 cause 6) and one that is being switched to a new image (R512). -/
def State.innCores (s : State) : Nat :=
  8 - (if s.sys.devFaults.contains 6 then 1 else 0) -
  (match s.fw.act with | some a => if a.order.head? = some 2 then 1 else 0 | none => 0)

/-- Item `k` of a class and partition begins: no more items stand before it than there are cores (R277). -/
def State.innTurn (s : State) (cls p k : Nat) : Bool := decide (s.innAhead cls p k < s.innCores)

/-- The class has served an item of the partition (R277). The front end and Porter, class 0 here, have no turn. -/
def State.served (s : State) (cls p : Nat) : State :=
  match cls with
  | 0 => s
  | c + 1 => { s with svc := { s.svc with lastServed := Tab.put s.svc.lastServed (c + 1) p } }

/-- The item of a list whose partition is next in the round of the class, the first of its partition, with the rest (R277). -/
def State.nextItem {α : Type} (s : State) (cls : Nat) (part : α → Nat) (l : List α) : Option (α × List α) :=
  match (sortBy (fun x => s.roundPlace cls (part x)) l).head? with
  | none => none
  | some x => takeFirst (fun y => part y == part x) l

/-- Items pending in a class and every lower-numbered class (R278). -/
def State.itemsUpTo (s : State) (cls : Nat) : Nat := (s.innItems.filter (fun e => decide (e.1 ≤ cls))).length

/-- The admission limits of a class are reached (R278): 1,024 requests, 64 of a partition. -/
def State.classFull (s : State) (cls p : Nat) : Bool :=
  let l := (s.svc.waiting.filter s.innLive).map (fun x => (x.cls, x.part))
  decide (1024 ≤ (l.filter (fun e => e.1 == cls)).length) || decide (64 ≤ innCount l cls p)

/-- n of RETRY_AFTER (R278). -/
def State.retryUs (s : State) (cls : Nat) : Nat := min 10000 (10 * cdiv (s.itemsUpTo cls) 64)

/-- What a command's body gives: the state and its answer, or none when the answer comes later. -/
abbrev CmdRes := State × Option Ans

/-- The ceiling that emergencies set on a block, in MHz (R457, R465, R467): the lowest of them. -/
def State.ceiling (s : State) (b : Nat) : Nat :=
  min (min s.pow.cap.mhz s.pow.therm.mhz) (min (if s.pow.dimm then 600 else 1000) (Tab.getD s.pow.overCeil b 1000))

/-- The partition is frozen (R448): its dispatchers begin no start, its stewards stop, and no refill group begins. -/
def State.partFrozen (s : State) (p : Nat) : Bool := match s.part? p with | some x => x.frozen | none => false

/-- Admission of a request: the answer that turns it away, if any. An early resend of a request told to wait gets the time remaining
(R12); in a withdrawal every host request of class 4 is turned away (R442); then the limits of its class hold (R278). `key` says which
request it is: DESIGN CHOICE (log entry 46). -/
def State.admission (s : State) (cls p key : Nat) : Option Ans :=
  if cls = 0 then none
  else
    let t := Tab.getD s.svc.retry key 0
    if s.now < t then some (.busy .retryAfter (t - s.now))
    else if cls = 4 ∧ s.fail.withdraw.isSome then some (.busy .retryAfter 10000)
    else if s.classFull cls p then some (.busy .retryAfter (s.retryUs cls))
    else none

/-- Remember until when a turned-away request must not be resent (R12). -/
def State.noteRetry (s : State) (key : Nat) (a : Ans) : State :=
  match a with
  | .busy .retryAfter n =>
    if s.now < Tab.getD s.svc.retry key 0 then s
    else { s with svc := { s.svc with retry := Tab.put s.svc.retry key (s.now + n) } }
  | _ => s

/-- What becomes of a request that reaches Innkeeper (R277, R278): it begins; it begins and leaves its admission queue; it enters or
stays in its queue; it is turned away. -/
inductive Intake where
  | run | turn | enter | stay | away (a : Ans)
deriving DecidableEq, Repr

/-- A request of a class and partition: `key` says which it is to a resend (R12), and `x` is its item. Class 0, the front end and Porter, has
no queue. -/
def State.intake (s : State) (x : InnItem) (key : Nat) : Intake :=
  if x.cls = 0 then .run
  else if s.svc.waiting.any (fun y => y.key == x.key) then
    match (s.innReqs.filter (fun y => y.cls == x.cls && y.part == x.part)).findIdx? (fun y => y.key == x.key) with
    | some i => if s.innTurn x.cls x.part (innCount s.innWork x.cls x.part + i) then .turn else .stay
    | none => .stay
  else
    match s.admission x.cls x.part key with
    | some a => .away a
    | none =>
      if s.innTurn x.cls x.part (innCount s.innItems x.cls x.part) && !(x.session.isSome && s.svc.waiting.any (fun y => y.session == x.session)) then .run
      else .enter

/-- A request enters its class's queue. -/
def State.enqueueReq (s : State) (x : InnItem) : State :=
  { s with svc := { s.svc with waiting := s.svc.waiting.filter s.innLive ++ [x] } }

/-- A request leaves its class's queue. -/
def State.leaveQueue (s : State) (key : Nat) : State :=
  { s with svc := { s.svc with waiting := s.svc.waiting.filter (fun x => x.key != key) } }

/-- Finish a command whose body ran: write its answer, or leave it awaited. -/
def finishCmd (q : Nat) (x : CmdRes) : State :=
  match x.2 with
  | some a => x.1.answerCmd q a
  | none => x.1.await q

/-- A host command (R317, R318): it runs only as the front command of its ring's running buffer; a context that is not
live is answered CONTEXT_REVOKED; a command of an Innkeeper class begins when its turn comes, and waits in its class's queue
until then, to be given again (R277, R278). Otherwise this is not the next command of the ring, and nothing happens. `cls` is 0 for the
front end and Porter. Any command of the same ring and OPCODE counts as the resend of one that was turned away: DESIGN CHOICE (log entry
46). -/
def runCmd (s : State) (q opcode record cls : Nat) (body : CmdEnv → State → CmdRes) : State :=
  match s.front q opcode record with
  | none => s
  | some e =>
    if !s.ctxLive e.part e.context then s.answerCmd q (.refused .contextRevoked 0)
    else
      let key := q * 65536 + opcode
      match s.intake ⟨cls, e.part, key⟩ key with
      | .run => (finishCmd q (body e s)).served cls e.part
      | .turn => (finishCmd q (body e (s.leaveQueue key))).served cls e.part
      | .enter => s.enqueueReq ⟨cls, e.part, key⟩
      | .stay => s
      | .away a => (s.noteRetry key a).answerCmd q a

/-- A refusal changes nothing. -/
def refuse (s : State) (c : Code) : CmdRes := (s, some (.refused c 0))

/-- Success with a value. -/
def done (s : State) (v : Nat) : CmdRes := (s, some (.ok v))

end Sys2Proof.Machine
end

