-- ==== Sys2Proof/Machine/Accounts.lean ====
section
/-! DEFINITION. Sys2Proof/Machine/Accounts.lean: opening, closing and sealing reckonings, as the other chapters use them
(18_reckoning R472-R481). -/

namespace Sys2Proof.Machine

/-- Accounts are keyed partition * 2^32 + REQ_ID; the house account has REQ_ID 0. -/
def acctKey (p req : Nat) : Nat := p * 2 ^ 32 + req

/-- Flags of R480 byte 13. -/
def flagAbandoned : Nat := 1
def flagReplayed : Nat := 2
def flagMoved : Nat := 4
def flagContinued : Nat := 8
def flagIdle : Nat := 16
def flagHouse : Nat := 32
def flagOperator : Nat := 64

/-- An account with no energy yet. -/
def freshAccount (p req ctx session flags now : Nat) : Account :=
  { part := p, req := req, start := now, context := ctx, session := session, flags := flags, compute := 0, slice := 0, dram := 0, link := 0, shared := 0, lastCharge := now, charged := false }

/-- Open reckonings, house and operator accounts excluded (R478). -/
def ReckUnit.openCount (r : ReckUnit) : Nat := (r.accounts.filter (fun e => e.1 % 2 ^ 32 != 0)).length

/-- Records an epoch seals of itself at its close: the operator's and a house record of each partition charged (R481). -/
def ReckUnit.sealCount (r : ReckUnit) : Nat :=
  1 + (r.accounts.filter (fun e => e.1 % 2 ^ 32 == 0 && e.1 != 0 && e.2.charged)).length

/-- A reckoning of the partition and request is open. -/
def State.reckIsOpen (s : State) (p req : Nat) : Bool := Tab.has s.reck.accounts (acctKey p req)

/-- Set flags on an open reckoning. -/
def State.reckFlag (s : State) (p req flag : Nat) : State :=
  { s with reck := { s.reck with accounts := Tab.upd s.reck.accounts (acctKey p req) (fun a => { a with flags := a.flags ||| flag }) } }

/-- RECKONING_FULL, once per window (R478). -/
def State.reckFull (s : State) (p : Nat) : State :=
  let w := s.now / 1000 + 1
  if Tab.getD s.reck.fullAt p 0 = w then s
  else ({ s with reck := { s.reck with fullAt := Tab.put s.reck.fullAt p w } }).event 0x001A p 0 false 0 0xFFFF 0

/-- Open a reckoning at a time, unless it is open already or none can be opened (R478). A session's reckoning takes over the
session handle of an account already open under its ID. -/
def State.reckOpenAt (s : State) (p req ctx session flags at' : Nat) : State :=
  if s.reckIsOpen p req then s.reckFlag p req flags
  else if 131072 ≤ s.reck.openCount then s.reckFull p
  else { s with reck := { s.reck with accounts := Tab.put s.reck.accounts (acctKey p req) (freshAccount p req ctx session flags at') } }

def State.reckOpen (s : State) (p req ctx session flags : Nat) : State := s.reckOpenAt p req ctx session flags s.now

/-- Work of a waybill with this REQUEST_ID is charged now (R472, R478): its reckoning opens at the first such charge. IDs with bit
31 set belong to session steps, and ID 0 to the house account. -/
def State.reckTouch (s : State) (p req ctx : Nat) : State :=
  if req = 0 ∨ 2 ^ 31 ≤ req then s
  else if s.reckIsOpen p req then
    { s with reck := { s.reck with accounts := Tab.upd s.reck.accounts (acctKey p req) (fun a => { a with lastCharge := s.now }) } }
  else s.reckOpen p req ctx 0 0

/-- A house or operator account sealed into an epoch, with its SEQ, and left open without energy (R478, R481). -/
def State.sealAccount (s : State) (key : Nat) : State :=
  let base := Tab.getD s.reck.accounts key (freshAccount (key / 2 ^ 32) 0 0 0 (if key = 0 then flagOperator else flagHouse) s.now)
  let a := { base with start := s.reck.firstWin.getD s.reck.lastWin }
  let l : Leaf := { seq := s.reck.nextSeq, endUs := s.reck.lastWin, acct := a }
  { s with reck := { s.reck with accounts := Tab.put s.reck.accounts key { freshAccount (key / 2 ^ 32) 0 0 0 a.flags s.now with charged := false }, leaves := s.reck.leaves ++ [l], nextSeq := s.reck.nextSeq + 1 } }

/-- Close the epoch (R481): its operator record and the house records take the last leaves, and the next epoch opens at once. -/
def State.epochClose (s : State) : State :=
  let houses := (s.reck.accounts.filter (fun e => e.1 % 2 ^ 32 == 0 && e.1 != 0 && e.2.charged)).map (·.1)
  let s1 := (houses ++ [0]).foldl (fun (s : State) k => s.sealAccount k) s
  let e : Epoch := { num := s1.reck.epoch, opened := s1.reck.opened, closed := s1.now, metered := s1.reck.metered, leaves := s1.reck.leaves }
  { s1 with reck := { s1.reck with unsigned := s1.reck.unsigned ++ [e], epoch := s1.reck.epoch + 1, opened := s1.now, metered := 0, leaves := [], firstWin := none } }

/-- Close an open reckoning with the flags of its case (R478, R479): it becomes a leaf of the open epoch. Answers its SEQ; none
when no such reckoning is open. The leaf that fills the epoch closes it (R481). -/
def State.reckClose (s : State) (p req flags : Nat) : State × Option Nat :=
  match Tab.find s.reck.accounts (acctKey p req) with
  | none => (s, none)
  | some a =>
    let n := s.reck.nextSeq
    let l : Leaf := { seq := n, endUs := s.now, acct := { a with flags := a.flags ||| flags } }
    let s1 := { s with reck := { s.reck with accounts := Tab.del s.reck.accounts (acctKey p req), leaves := s.reck.leaves ++ [l], nextSeq := n + 1 } }
    (if 65536 ≤ s1.reck.leaves.length + s1.reck.sealCount then s1.epochClose else s1, some n)

/-- A waybill carrying an ID with LAST set leaves the graph: the request's reckoning closes (R478). A session's own reckoning
closes only as R303 says. -/
def State.reckLast (s : State) (p : Nat) (w : Waybill) : State :=
  if w.last ∧ w.requestId ≠ 0 ∧ w.requestId < 2 ^ 31 then
    match Tab.find s.reck.accounts (acctKey p w.requestId) with
    | some a => if a.session = 0 then (s.reckClose p w.requestId 0).1 else s
    | none => s
  else s

/-- Close every open reckoning of a partition that meets a test, with flags (R479, R489). -/
def State.reckCloseAll (s : State) (p : Nat) (f : Account → Bool) (flags : Nat) : State :=
  ((s.reck.accounts.filter (fun e => e.2.part == p && e.1 % 2 ^ 32 != 0 && f e.2)).map (·.2.req)).foldl
    (fun (s : State) r => (s.reckClose p r flags).1) s

/-- A session's step has completed (R477): its rows' REQ_IDs and COUNTs are kept until the window ends. A row whose session has closed
goes to the house account (R490). -/
def State.reckStepDone (s : State) (p id : Nat) (rows : List (Nat × Nat)) : State :=
  let own := rows.map (fun x => if s.reckIsOpen p x.1 then x else (0, x.2))
  { s with reck := { s.reck with doneSteps := Tab.put s.reck.doneSteps (acctKey p id) own } }

end Sys2Proof.Machine
end

