-- ==== Sys2Proof/Machine/HostObjects.lean ====
section
/-! DEFINITION. Sys2Proof/Machine/HostObjects.lean: contexts, memory objects, queues, doorbells, command buffers, answers and
events (11_host_objects R305-R323). -/

namespace Sys2Proof.Machine

/-! ## CONTEXT_CREATE (R310, R554) -/

def contextCreateMask : Nat := maskOf [(0, 11, 0), (4, 19, 0), (7, 7, 7), (8, 43, 0)]

/-- R310: tag not live or draining, ROOT 4 KiB aligned in the carve-out, EVENT_Q an event queue of the partition. -/
def contextCreateBody (r : Nat) (e : CmdEnv) (s : State) : CmdRes :=
  let c := fld r 0 11 0
  let root := fld r 8 43 0
  let evq := fld r 4 19 0
  if rsvdSet r contextCreateMask then refuse s .rsvdSet
  else
    match s.ctx? e.part c with
    | some k => if k.live then refuse s .badId else (s, some (.busy .contextDraining 0))
    | none =>
      if root % 4096 != 0 || !s.inCarve e.part root then refuse s .badAddr
      else if bit r 7 7 && !(match s.ring? evq with | some q => q.part == e.part && q.ty == 2 | none => false) then
        refuse s .badQueue
      else
        let k : Context := { root := root, eventQ := if bit r 7 7 then some evq else none, tableGen := 0, live := true, revoker := none }
        done { s with host := { s.host with contexts := Tab.put s.host.contexts (ctxKey e.part c) k } } 0

/-- CONTEXT_CREATE. -/
def execContextCreate (ring : Nat) (record : BitVec 128) (s : State) : Outc :=
  .next (runCmd s ring 0x0001 record.toNat 3 (contextCreateBody record.toNat))

/-! ## Memory objects (R311, R554) -/

def memoryObjectCreateMask : Nat := maskOf [(0, 11, 0), (2, 0, 0), (8, 47, 0), (16, 63, 0)]

/-- R311: the range is checked, INDEX is any unused one, GEN advances at each reuse of INDEX. -/
def memoryObjectCreateBody (r : Nat) (e : CmdEnv) (s : State) : CmdRes :=
  let c := fld r 0 11 0
  let va := fld r 8 47 0
  let len := fldB r 16 8
  if rsvdSet r memoryObjectCreateMask then refuse s .rsvdSet
  else if !s.ctxLive e.part c then refuse s .badId
  else if va + len > 2 ^ 48 || len == 0 || va % 4096 != 0 then refuse s .badRange
  else
    match pickId s.free 1 65535 s.host.objects.length (fun i => Tab.has s.host.objects (e.part * 65536 + i)) with
    | none => refuse s .limit
    | some i =>
      let key := e.part * 65536 + i
      let gen := match Tab.find s.host.objGens key with | some g => (g + 1) % 65536 | none => 0
      let o : MemObj := { part := e.part, context := c, gen := gen, index := i, va := va, length := len, host := bit r 2 0 }
      let h := { s.host with objects := Tab.put s.host.objects key o, objGens := Tab.put s.host.objGens key gen }
      done { s with host := h, free := s.free + 1 } (gen * 65536 + i)

/-- MEMORY_OBJECT_CREATE. -/
def execMemoryObjectCreate (ring : Nat) (record : BitVec 256) (s : State) : Outc :=
  .next (runCmd s ring 0x0003 record.toNat 3 (memoryObjectCreateBody record.toNat))

/-- A queue, plan, station definition or steward of the partition names the handle (R311). -/
def State.objInUse (s : State) (p h : Nat) : Bool :=
  s.host.rings.any (fun q => q.2.part == p && q.2.handle == h) ||
  s.stn.queues.any (fun q => q.2.part == p && q.2.spillLog2 != 0 && q.2.spillHandle == h) ||
  s.stn.stations.any (fun x => x.1 / 65536 == p && (x.2.programHandle == h || x.2.paramHandle == h)) ||
  s.svc.plans.any (fun x => x.1 / 16 == p && (x.2.kvPool == h || x.2.tableHandle == h || x.2.logHandle == h)) ||
  s.svc.stewards.any (fun x => x.2.part == p && (x.2.programHandle == h || x.2.paramHandle == h))

/-- R311: a live object that nothing names is released. -/
def memoryObjectReleaseBody (r : Nat) (e : CmdEnv) (s : State) : CmdRes :=
  let h := fldB r 0 4
  if rsvdSet r (maskOf [(0, 31, 0)]) then refuse s .rsvdSet
  else
    match s.obj? e.part h with
    | none => refuse s .badId
    | some _ =>
      if s.objInUse e.part h then refuse s .objectInUse
      else done { s with host := { s.host with objects := Tab.del s.host.objects (objKey e.part h) } } 0

/-- MEMORY_OBJECT_RELEASE. -/
def execMemoryObjectRelease (ring : Nat) (record : BitVec 64) (s : State) : Outc :=
  .next (runCmd s ring 0x0004 record.toNat 3 (memoryObjectReleaseBody record.toNat))

/-! ## QUEUE_CREATE, QUEUE_DESTROY (R70, R313, R314) -/

/-- The record's mask for a host ring: TYPE, and the image of R313 with its RO fields. -/
def ringRecordMask : Nat :=
  maskOf [(0, 3, 0), (8, 29, 0), (12, 11, 0), (14, 7, 0), (15, 0, 0), (16, 31, 0), (20, 31, 0), (24, 19, 0), (24, 31, 31),
    (32, 63, 0), (40, 63, 0), (48, 31, 0)]

/-- The record's mask for a tile queue: TYPE, and the image of R70 with its RO fields. -/
def tileRecordMask : Nat :=
  maskOf [(0, 3, 0), (8, 29, 0), (12, 15, 0), (14, 1, 0), (16, 31, 0), (20, 7, 0), (21, 7, 0), (22, 15, 0), (24, 31, 0),
    (28, 31, 0), (32, 63, 0), (40, 63, 0), (48, 31, 0), (52, 31, 0), (56, 31, 0)]

/-- A ring of a type that is a host ring (R312). -/
def hostRingType (t : Nat) : Bool := t == 0 || t == 1 || t == 2 || t == 4 || t == 6

/-- A field of a host ring's image outside its range, named by its place in the record. -/
def ringBad (s : State) (p t r : Nat) : Option Ans :=
  let log2 := fldB r 14 1
  if log2 < (if t = 6 then 6 else 4) || 20 < log2 then some (badParam 14 0)
  else if bit r 15 0 && t != 2 then some (badParam 15 0)
  else if (s.obj? p (fldB r 16 4)).isNone then some (badParam 16 0)
  else if fldB r 20 4 % 4096 != 0 then some (badParam 20 0)
  else if t == 0 && bit r 27 7 &&
      !(match s.ring? (fld r 24 19 0) with | some q => q.part == p && q.ty == 1 | none => false) then some (badParam 24 0)
  else none

/-- A field of a tile queue's image outside its range. -/
def tileBad (s : State) (p r : Nat) : Option Ans :=
  let hot := fldB r 20 1
  let spill := fldB r 21 1
  if hot < 4 || 12 < hot then some (badParam 20 0)
  else if spill != 0 && (spill < 8 || 24 < spill) then some (badParam 21 0)
  else if 1000 < fldB r 22 2 then some (badParam 22 0)
  else if spill != 0 && (s.obj? p (fldB r 24 4)).isNone then some (badParam 24 0)
  else if spill != 0 && fldB r 28 4 % 64 != 0 then some (badParam 28 0)
  else none

/-- The ring or spill ring fits its memory object (R314). -/
def fitsObj (s : State) (p h off bytes : Nat) : Bool :=
  match s.obj? p h with
  | some o => decide (off + bytes ≤ o.length)
  | none => false

/-- A new queue's ID is any unused one of the 2^20 (R312): a free value. -/
def State.pickQueue (s : State) : Option Nat :=
  pickId s.free 0 1048576 (s.host.rings.length + s.stn.queues.length + s.part.qpairs.length) s.queueUsed

/-- R314, R484. -/
def queueCreateBody (r : Nat) (e : CmdEnv) (s : State) : CmdRes :=
  let t := fld r 0 3 0
  if t == 5 || 6 < t then (s, some (badParam 0 0))
  else if rsvdSet r (if t == 3 then tileRecordMask else ringRecordMask) then refuse s .rsvdSet
  else
    match (if t == 3 then tileBad s e.part r else ringBad s e.part t r) with
    | some a => (s, some a)
    | none =>
      let allot := match s.part? e.part with | some x => x.queues | none => 0
      if allot ≤ s.queueCount e.part then refuse s .limit
      else if t == 2 && bit r 15 0 &&
          s.host.rings.any (fun q => q.2.part == e.part && q.2.ty == 2 && q.2.partEvents) then refuse s .limit
      else if t == 6 && s.host.rings.any (fun q => q.2.part == e.part && q.2.ty == 6) then refuse s .limit
      else if t == 3 && fldB r 21 1 != 0 && !fitsObj s e.part (fldB r 24 4) (fldB r 28 4) (2 ^ fldB r 21 1 * 64) then
        refuse s .badRange
      else if t != 3 && !fitsObj s e.part (fldB r 16 4) (fldB r 20 4) (2 ^ fldB r 14 1 * entryBytes t) then refuse s .badRange
      else
        match s.pickQueue with
        | none => refuse s .limit
        | some q =>
          let s := { s with free := s.free + 1 }
          if t == 3 then
            let x : TileQ := { part := e.part, context := e.context, consumer := .none, placed := none, hotLog2 := fldB r 20 1, spillLog2 := fldB r 21 1, stallMs := fldB r 22 2, spillHandle := fldB r 24 4, spillOff := fldB r 28 4, tail := 0, head := 0, hot := [], spill := [], fullStalls := 0, refill := 0, oldPlace := none, oldHot := [], headSince := s.now, stalled := false }
            done ((s.setQueue q x).storeDesc q) q
          else
            let x : Ring := { part := e.part, ty := t, context := e.context, log2 := fldB r 14 1, partEvents := bit r 15 0, handle := fldB r 16 4, off := fldB r 20 4, cqValid := bit r 27 7, cq := fld r 24 19 0, produced := 0, consumed := 0, overflows := 0, lost := 0, cur := none, out := [] }
            done ((s.setRing q x).storeDesc q) q

/-- QUEUE_CREATE. -/
def execQueueCreate (ring : Nat) (record : BitVec 576) (s : State) : Outc :=
  .next (runCmd s ring 0x0005 record.toNat 3 (queueCreateBody record.toNat))

/-- A station, steward or plan names the queue, or a submission ring names it as COMPLETION_Q (R314). -/
def State.queueNamed (s : State) (p q : Nat) : Bool :=
  s.stn.stations.any (fun x => x.1 / 65536 == p &&
    (x.2.inQ.contains q || x.2.outQ.contains (some q) || x.2.rejectQ == some q)) ||
  s.svc.stewards.any (fun x => x.2.part == p && x.2.inQ.contains (some q)) ||
  s.svc.plans.any (fun x => x.1 / 16 == p &&
    (x.2.entryQ == q || x.2.resultQ == q || x.2.tokenRing == q || x.2.tapQ == q || x.2.ostlerQ == q)) ||
  s.host.rings.any (fun x => x.2.part == p && x.2.ty == 0 && x.2.cqValid && x.2.cq == q)

/-- The queue holds entries: a ring not drained, a tile queue with waybills in it, on their way to it or held for it. -/
def State.queueHolds (s : State) (q : Nat) : Bool :=
  (match s.ring? q with
   | some r => decide (r.consumed < r.produced) || r.cur.isSome || !r.out.isEmpty
   | none => false) ||
  (match s.queue? q with
   | some x => !x.hot.isEmpty || !x.spill.isEmpty || !x.oldHot.isEmpty || decide (0 < x.refill)
   | none => false) ||
  s.stn.flight.any (fun f => f.queue == q)

/-- R314. -/
def queueDestroyBody (r : Nat) (e : CmdEnv) (s : State) : CmdRes :=
  let q := fld r 0 19 0
  if rsvdSet r (maskOf [(0, 19, 0)]) then refuse s .rsvdSet
  else if !s.ringOf e.part q && !s.tileQ e.part q then refuse s .badQueue
  else if s.queueNamed e.part q || s.queueHolds q then refuse s .queueInUse
  else
    done (({ s with host := { s.host with rings := Tab.del s.host.rings q }, stn := { s.stn with queues := Tab.del s.stn.queues q } } : State).storeDesc q) 0

/-- QUEUE_DESTROY. -/
def execQueueDestroy (ring : Nat) (record : BitVec 64) (s : State) : Outc :=
  .next (runCmd s ring 0x0006 record.toNat 3 (queueDestroyBody record.toNat))

/-! ## Doorbells (R309) -/

/-- COUNT extended to 64 bits against the ring's own count (R309). -/
def extendCount (mine w : Nat) : Nat := mine + (fldB w 4 4 + 2 ^ 32 - mine % 2 ^ 32) % 2 ^ 32

/-- Why a doorbell is discarded (R557): 1 not a ring of the partition, 2 KIND mismatch, 3 RSVD set, 4 COUNT. -/
def doorbellBad (s : State) (p kind : Nat) (w : Nat) : Option Nat :=
  match s.ring? (fld w 0 19 0) with
  | none => some 1
  | some r =>
    if r.part ≠ p then some 1
    else if fld w 0 31 28 ≠ kind ∨
        ¬(kind = 0 ∧ r.ty = 0 ∨ kind = 1 ∧ r.ty = 1 ∨ kind = 2 ∧ r.ty = 2 ∨ kind = 3 ∧ r.ty = 4 ∨ kind = 4 ∧ r.ty = 6) then some 2
    else if fld w 0 27 20 ≠ 0 then some 3
    else
      let mine := if kind = 0 then r.produced else r.consumed
      let other := if kind = 0 then r.consumed else r.produced
      if other + 2 ^ r.log2 < extendCount mine w then some 4 else none

/-- Answers held for a completion ring, written as far as it has room, and the commands behind them that run no meaning. -/
def State.roomAt (s : State) (cq : Nat) : State :=
  (s.host.rings.filter (fun e => e.2.ty == 0 && e.2.cqValid && e.2.cq == cq)).foldl
    (fun s e => ((s.flushOut e.1 (e.2.out.length + 1)).tryEnd e.1).skipBad e.1 (s.cmdsLeft e.1)) s

/-- A doorbell of a partition's page: applied to its ring, or discarded with DOORBELL_INVALID (R309, R557). -/
def State.doorbell (s : State) (p kind : Nat) (w : Nat) : State :=
  match doorbellBad s p kind w with
  | some why => s.event 0x000F p 0 false (fld w 0 19 0) 0xFFFF (plcB 0 8 w ||| plcB 8 1 why)
  | none =>
    match s.ring? (fld w 0 19 0) with
    | none => s
    | some r =>
      if kind = 0 then s.setRing (fld w 0 19 0) { r with produced := extendCount r.produced w }
      else s.setRing (fld w 0 19 0) { r with consumed := extendCount r.consumed w }

/-- SUBMISSION_TAIL_DOORBELL: page, stamped partition and the 8 bytes written. A write that arrives on another page than
that of the partition stamped on it is not acted on. -/
def execSubmissionTailDoorbell (page stamp : Nat) (w : BitVec 64) (s : State) : Outc :=
  .next (if page = stamp then s.doorbell stamp 0 w.toNat else s)

/-- COMPLETION_HEAD_DOORBELL: released slots make room for held answers (ANSWER_WRITTEN_ON_ROOM writes them). -/
def execCompletionHeadDoorbell (page stamp : Nat) (w : BitVec 64) (s : State) : Outc :=
  .next (if page = stamp then s.doorbell stamp 1 w.toNat else s)

/-- EVENT_HEAD_DOORBELL. -/
def execEventHeadDoorbell (page stamp : Nat) (w : BitVec 64) (s : State) : Outc :=
  .next (if page = stamp then s.doorbell stamp 2 w.toNat else s)

/-- TOKEN_RING_HEAD_DOORBELL. -/
def execTokenRingHeadDoorbell (page stamp : Nat) (w : BitVec 64) (s : State) : Outc :=
  .next (if page = stamp then s.doorbell stamp 3 w.toNat else s)

/-- RECKONING_RING_HEAD_DOORBELL. -/
def execReckoningRingHeadDoorbell (page stamp : Nat) (w : BitVec 64) (s : State) : Outc :=
  .next (if page = stamp then s.doorbell stamp 4 w.toNat else s)

/-- CONFIG_WRITE_READ_ONLY: a configuration write outside the function's own doorbell page is answered READ_ONLY and changes
nothing (R305). `data` returned: the answer's code. -/
def execConfigWriteReadOnly (fn addr : Nat) (s : State) : Outc :=
  .next (if 0x10000 + fn * 0x1000 ≤ addr ∧ addr < 0x10000 + (fn + 1) * 0x1000 then s
    else s.emitOut (.data fn Code.readOnly.host))

/-! ## Submission entries and command buffers (R316-R318) -/

def submissionMask : Nat :=
  maskOf [(0, 31, 0), (4, 11, 0), (6, 2, 0), (8, 31, 0), (12, 31, 0), (16, 31, 0), (20, 15, 0), (22, 15, 0), (24, 62, 0),
    (32, 62, 0)]

/-- The commands of a buffer, header by header (R317); `fuel` bounds their number. -/
def parseCmds (buf size : Nat) : (fuel off : Nat) → List HostCmd
  | 0, _ => []
  | fuel + 1, off =>
    if size < off + 8 then []
    else
      let len := fldB buf (off + 2) 2
      let c : HostCmd := { opcode := fldB buf off 2, length := len, tag := fldB buf (off + 4) 4, record := fldB buf (off + 8) len, past := decide (size < off + 8 + len) }
      if c.past then [c] else c :: parseCmds buf size fuel (off + 8 + roundUp len 8)

/-- A submission entry as its 64 bytes spell it (R316). -/
def subBufOf (r : Nat) : SubBuf :=
  { seq := fldB r 0 4, context := fld r 4 11 0, stopOnRefuse := bit r 6 2, waitEn := bit r 6 1, signalEn := bit r 6 0,
    bufHandle := fldB r 8 4, bufOff := fldB r 12 4, bufBytes := fldB r 16 4, waitFence := fldB r 20 2, signalFence := fldB r 22 2,
    waitValue := fld r 24 62 0, signalValue := fld r 32 62 0, phase := .waiting, cmds := [], index := 0, forced := none }

/-- The commands of an entry's buffer, read through the object's translation (R311, R317). -/
def State.bufferCmds (s : State) (p : Nat) (b : SubBuf) : Option (List HostCmd) :=
  match s.obj? p b.bufHandle with
  | none => none
  | some o => (s.readObj o b.bufOff b.bufBytes).map (fun l => parseCmds (ofBytes l) b.bufBytes (b.bufBytes / 8 + 1) 0)

/-- An entry that cannot be acted on is answered once, as its last answer (R10): the ring goes on. -/
def State.entryRefused (s : State) (q : Nat) (r : Ring) (b : SubBuf) (c : Code) : State :=
  let rec' : CplRec := { last := true, ans := .refused c 0, submitSeq := b.seq, index := 0, opcode := 0, tag := 0 }
  let r1 := { r with out := r.out ++ [rec'], cur := none, consumed := r.consumed + 1 }
  (s.setRing q r1).flushOut q (r1.out.length + 1)

/-- SUBMISSION_ENTRY: the ring's next entry is taken when none is in progress, and its fences are checked (R316, R318). The
entry is read from the ring's memory. -/
def execSubmissionEntry (q : Nat) (s : State) : Outc :=
  .next (
    match s.ring? q with
    | none => s
    | some r =>
      if r.ty ≠ 0 ∨ r.cur.isSome ∨ r.out ≠ [] ∨ r.produced ≤ r.consumed then s
      else
        match s.obj? r.part r.handle with
        | none => s
        | some o =>
          match s.readObj o (r.off + r.consumed % 2 ^ r.log2 * 64) 64 with
          | none => s
          | some l =>
            let e := ofBytes l
            let b := subBufOf e
            if rsvdSet e submissionMask then s.entryRefused q r b .rsvdSet
            else if b.bufOff % 8 != 0 || b.bufBytes < 8 || 65536 < b.bufBytes then s.entryRefused q r b .badParam
            else
              match s.bufferCmds r.part b with
              | none => s.entryRefused q r b (if (s.obj? r.part b.bufHandle).isNone then .badId else .badRange)
              | some cs =>
                if (b.waitEn && !s.fenceOf r.part b.waitFence) || (b.signalEn && !s.fenceOf r.part b.signalFence) then
                  (s.setRing q { r with cur := some { b with cmds := cs, phase := .running, forced := some .badFence } }).skipBad q cs.length
                else s.setRing q { r with cur := some { b with phase := .waiting } })

/-- COMMAND_BUFFER_START: the entry's fence has reached its value, or no wait applies, and its commands begin (R318). A
fence that carries ABANDONED refuses every command; a context that is not live answers each CONTEXT_REVOKED. -/
def execCommandBufferStart (q : Nat) (s : State) : Outc :=
  .next (
    match s.ring? q with
    | none => s
    | some r =>
      match r.cur with
      | none => s
      | some b =>
        if b.phase ≠ .waiting then s
        else
          let w := s.fenceWord b.waitFence
          if b.waitEn && !fenceReaches w b.waitValue && s.ctxLive r.part b.context then s
          else
            match s.bufferCmds r.part b with
            | none => s.entryRefused q r b .badRange
            | some cs =>
              let f := if !s.ctxLive r.part b.context then some Code.contextRevoked
                else if b.waitEn && fenceAband w then some Code.fenceAbandoned else none
              if cs.isEmpty then (s.setRing q { r with cur := some { b with phase := .running } }).endBuffer q false
              else (s.setRing q { r with cur := some { b with cmds := cs, phase := .running, forced := f } }).skipBad q cs.length)

/-- ANSWER_WRITTEN_ON_ROOM: answers held for a full completion ring are written once it has room (R320). -/
def execAnswerWrittenOnRoom (q : Nat) (s : State) : Outc :=
  .next (
    match s.ring? q with
    | none => s
    | some r => ((s.flushOut q (r.out.length + 1)).tryEnd q).skipBad q (s.cmdsLeft q))

/-! ## Events (R322) -/

/-- The event record (R322). -/
def eventEntry (e : EventRec) (nonce : BitVec 64) (seq phase : Nat) : Nat :=
  plcB 0 4 seq ||| plc 4 7 7 phase ||| plcB 6 2 e.code ||| plc 8 11 0 e.context ||| plc 10 5 0 e.part ||| plcB 12 4 e.source |||
  plcB 16 2 e.station ||| plcB 20 4 e.count ||| plcB 24 8 e.time ||| plcB 32 8 nonce.toNat ||| plcB 40 24 e.data

/-- EVENTS_LOST of a queue, written first when room appears (R322, R557). -/
def State.writeLost (s : State) (q : Nat) (r : Ring) : State :=
  let e : EventRec := { queue := q, code := 0x0010, context := 0, part := r.part, source := q, station := 0xFFFF, count := r.lost, time := s.now, data := 0 }
  s.writeRing q { r with lost := 0 } (eventEntry e s.sys.bootNonce)

/-- Write one event, or count it lost when its queue is full (R322). -/
def State.writeEvent (s : State) (e : EventRec) : State :=
  match s.ring? e.queue with
  | none => s
  | some r =>
    let s1 := if r.lost != 0 && r.room then s.writeLost e.queue r else s
    match s1.ring? e.queue with
    | none => s1
    | some r1 =>
      if r1.room then s1.writeRing e.queue r1 (eventEntry e s.sys.bootNonce)
      else s1.setRing e.queue { r1 with overflows := sat32 (r1.overflows + e.count), lost := r1.lost + e.count }

/-- EVENT_WRITE: Innkeeper writes an event of the coalescing store, once no event can join its record any more, 1 ms after the first
(R322): a class 5 item, partitions in turn, the oldest of a partition first (R276, R277). -/
def execEventWrite (s : State) : Outc :=
  .next (
    match s.nextItem 5 (fun e : EventRec => e.part) (s.host.events.filter (fun e => decide (e.time + 1000 ≤ s.now))) with
    | none => s
    | some (e, l) =>
      if !s.innTurn 5 e.part 0 then s
      else (({ s with host := { s.host with events := l ++ s.host.events.filter (fun e => decide (s.now < e.time + 1000)) } } : State).writeEvent e).served 5 e.part)

/-- EVENTS_LOST: room appears in a queue that lost events, and one EVENTS_LOST record is written (R322). -/
def execEventsLost (q : Nat) (s : State) : Outc :=
  .next (
    match s.ring? q with
    | none => s
    | some r => if r.ty = 2 ∧ r.lost ≠ 0 ∧ r.room ∧ s.innTurn 5 r.part 0 then (s.writeLost q r).served 5 r.part else s)

end Sys2Proof.Machine
end

