-- ==== Sys2Proof/Machine/Fences.lean ====
section
/-! DEFINITION. Sys2Proof/Machine/Fences.lean: fences, their signals, waiters and results (11_host_objects R324-R328, R331,
R554, R558). -/

namespace Sys2Proof.Machine

/-- The fence that a fixed unit's parameter record names as SLOT_FENCE or OUT_FENCE (R192, R203, R210, R324). -/
def Engine.paramFence (x : Engine) (kind : Nat) : Option Nat :=
  let r (n : Nat) : Nat := (Memory.read x.params n).toNat
  let w (n : Nat) : Nat := Memory.readN x.params n 2
  if kind = 4 ∧ r 21 % 2 = 1 then some (w 22)
  else if kind = 5 ∧ r 0 / 2 % 2 = 1 then some (w 6)
  else if kind = 6 ∧ r 38 % 2 = 1 then some (w 40)
  else none

/-- The parameters of a bound engine of a kind name the fence (R324). -/
def Engine.namesFence (x : Engine) (kind f : Nat) : Bool := x.paramFence kind == some f

/-- Some bound station of the partition names the fence. -/
def State.fenceNamed (s : State) (p f : Nat) : Bool :=
  s.stn.engines.any (fun x => x.2.part == p && (match s.station? p x.2.station with | some t => x.2.namesFence t.kind f | none => false))

/-- A submission entry of the partition waits on the fence. -/
def State.entryWaits (s : State) (p f : Nat) : Bool :=
  s.host.rings.any (fun r => r.2.part == p &&
    (match r.2.cur with | some b => b.phase == .waiting && b.waitEn && b.waitFence == f | none => false))

def State.setFence (s : State) (f : Nat) (x : Fence) : State :=
  { s with fen := { s.fen with fences := Tab.put s.fen.fences f x } }

/-! ## FENCE_CREATE (R324) -/

/-- R324: the submitting context owns the new fence; its ID is any unused one (a free value). -/
def fenceCreateBody (r : Nat) (e : CmdEnv) (s : State) : CmdRes :=
  let init := fldB r 0 8
  if rsvdSet r (maskOf [(0, 63, 0)]) then refuse s .rsvdSet
  else if 2 ^ 63 ≤ init then (s, some (badParam 0 0))
  else
    let allot := match s.part? e.part with | some x => x.fences | none => 0
    if allot ≤ (s.fen.fences.filter (fun f => f.2.part == e.part)).length then refuse s .limit
    else
      match pickId s.free 0 65536 s.fen.fences.length (fun i => Tab.has s.fen.fences i) with
      | none => refuse s .limit
      | some i =>
        let x : Fence := { part := e.part, owner := some e.context, wordA := BitVec.ofNat 64 init, wordB := BitVec.ofNat 64 init }
        done ({ s with free := s.free + 1 }.setFence i x) i

/-- FENCE_CREATE. -/
def execFenceCreate (ring : Nat) (record : BitVec 128) (s : State) : Outc :=
  .next (runCmd s ring 0x0007 record.toNat 0 (fenceCreateBody record.toNat))

/-- The context may reset or release the fence: it owns it, or nobody does (R324). -/
def Fence.mayOwn (x : Fence) (ctx : Nat) : Bool :=
  match x.owner with
  | some o => o == ctx
  | none => true

/-! ## FENCE_RELEASE (R324) -/

/-- Answer every FenceWait that waits on a fence, and forget them. -/
def State.answerWaiters (s : State) (f : Nat) (a : Ans) : State :=
  let hit := s.fen.waiters.filter (fun w => w.fence == f)
  let s1 := { s with fen := { s.fen with waiters := s.fen.waiters.filter (fun w => w.fence != f) } }
  hit.foldl (fun s w => s.answerCmd w.ring a) s1

/-- R324: waiters are answered NotReady with the fence's last word before it is released; issuing it makes the context the owner of a fence
that has none. -/
def fenceReleaseBody (r : Nat) (e : CmdEnv) (s : State) : CmdRes :=
  let f := fldB r 0 2
  if rsvdSet r (maskOf [(0, 15, 0)]) then refuse s .rsvdSet
  else
    match Tab.find s.fen.fences f with
    | none => refuse s .badFence
    | some x =>
      if x.part ≠ e.part then refuse s .badFence
      else if !x.mayOwn e.context then refuse s .notOwned
      else if s.fenceNamed e.part f || s.entryWaits e.part f then refuse (s.setFence f { x with owner := some e.context }) .fenceInUse
      else
        let s1 := s.answerWaiters f (.notReady (s.fenceWord f).toNat)
        done { s1 with fen := { s1.fen with fences := Tab.del s1.fen.fences f } } 0

/-- FENCE_RELEASE. -/
def execFenceRelease (ring : Nat) (record : BitVec 64) (s : State) : Outc :=
  .next (runCmd s ring 0x0008 record.toNat 0 (fenceReleaseBody record.toNat))

/-! ## FENCE_SIGNAL (R325, R554) -/

/-- R325: the signal goes to the fence store's port, and is answered after its group (R558). -/
def fenceSignalBody (r : Nat) (e : CmdEnv) (s : State) : CmdRes :=
  let f := fldB r 0 2
  let op := fld r 2 1 0
  let x := fldB r 8 8
  if rsvdSet r (maskOf [(0, 15, 0), (2, 1, 0), (8, 63, 0)]) then refuse s .rsvdSet
  else if op == 0 || op == 3 then (s, some (badParam 2 0))
  else if 2 ^ 63 ≤ x then (s, some (badParam 8 0))
  else if !s.fenceOf e.part f then refuse s .badFence
  else
    let fl : FenceFlit := { fence := f, part := e.part, context := e.context, op := if op = 1 then .add x false else .set x false, rank := rankFront, source := srcCode 7 0, reply := .ring e.ring }
    (s.sendFence fl, none)

/-- FENCE_SIGNAL. -/
def execFenceSignal (ring : Nat) (record : BitVec 128) (s : State) : Outc :=
  .next (runCmd s ring 0x0009 record.toNat 0 (fenceSignalBody record.toNat))

/-! ## FENCE_WAIT and its timeout (R326) -/

/-- R326: the fence is read through the store's port, and the command answered or left waiting with that read (R558). -/
def fenceWaitBody (r : Nat) (e : CmdEnv) (s : State) : CmdRes :=
  let f := fldB r 0 2
  let t := fldB r 8 8
  let us := fldB r 16 4
  if rsvdSet r (maskOf [(0, 15, 0), (8, 63, 0), (16, 31, 0)]) then refuse s .rsvdSet
  else if 2 ^ 63 ≤ t then (s, some (badParam 8 0))
  else if 10000000 < us then (s, some (badParam 16 0))
  else if !s.fenceOf e.part f then refuse s .badFence
  else
    (s.sendFence { fence := f, part := e.part, context := e.context, op := .read, rank := rankFront, source := srcCode 7 0, reply := .wait e.ring t (if us = 0 then none else some (s.now + us)) }, none)

/-- FENCE_WAIT. -/
def execFenceWait (ring : Nat) (record : BitVec 192) (s : State) : Outc :=
  .next (runCmd s ring 0x000A record.toNat 0 (fenceWaitBody record.toNat))

/-- FENCE_WAIT_TIMEOUT: the ring's waiting FenceWait has waited TIMEOUT_US and is answered NotReady with the word (R326). -/
def execFenceWaitTimeout (ring : Nat) (s : State) : Outc :=
  .next (
    match s.fen.waiters.find? (fun w => w.ring == ring) with
    | none => s
    | some w =>
      if s.now < w.deadline then s
      else
        let s1 := { s with fen := { s.fen with waiters := s.fen.waiters.filter (fun x => x.ring != ring) } }
        s1.answerCmd ring (.notReady (s.fenceWord w.fence).toNat))

/-! ## FENCE_RESET (R324, R327) -/

/-- Submission entries that wait on a fence are released as though it carried ABANDONED (R327): every command of their
buffers is answered FENCE_ABANDONED. -/
def State.abandonEntries (s : State) (p f : Nat) : State :=
  (s.host.rings.filter (fun r => r.2.part == p &&
    (match r.2.cur with | some b => b.phase == .waiting && b.waitEn && b.waitFence == f | none => false))).foldl
    (fun s r =>
      match r.2.cur with
      | none => s
      | some b =>
        match s.bufferCmds p b with
        | none => s.entryRefused r.1 r.2 b .badRange
        | some cs =>
          if cs.isEmpty then s.endBuffer r.1 false
          else (s.setRing r.1 { r.2 with cur := some { b with cmds := cs, phase := .running, forced := some .fenceAbandoned } }).skipBad r.1 cs.length) s

/-- R327: waiters and waiting entries are released as abandoned, then the new word goes to the store. -/
def fenceResetBody (r : Nat) (e : CmdEnv) (s : State) : CmdRes :=
  let f := fldB r 0 2
  let v := fldB r 8 8
  if rsvdSet r (maskOf [(0, 15, 0), (8, 63, 0)]) then refuse s .rsvdSet
  else if 2 ^ 63 ≤ v then (s, some (badParam 8 0))
  else
    match Tab.find s.fen.fences f with
    | none => refuse s .badFence
    | some x =>
      if x.part ≠ e.part then refuse s .badFence
      else if !x.mayOwn e.context then refuse s .notOwned
      else if s.fenceNamed e.part f then refuse s .fenceInUse
      else
        let s0 := s.setFence f { x with owner := some e.context }
        let s1 := s0.answerWaiters f (.ok ((s0.fenceWord f) ||| BitVec.ofNat 64 (2 ^ 63)).toNat)
        let s2 := s1.abandonEntries e.part f
        (s2.sendFence { fence := f, part := e.part, context := e.context, op := .reset v, rank := rankFront, source := srcCode 7 0, reply := .ring e.ring }, none)

/-- FENCE_RESET. -/
def execFenceReset (ring : Nat) (record : BitVec 128) (s : State) : Outc :=
  .next (runCmd s ring 0x000B record.toNat 0 (fenceResetBody record.toNat))

/-! ## RESULT_FETCH (R328, R503) -/

/-- Copy bytes between two memory objects through their contexts' translations. -/
def State.copyObj (s : State) (src dst : MemObj) (so d n : Nat) : State :=
  match s.readObj src so n with
  | some l => s.writeObj dst d l
  | none => s

/-- A byte of [va, va + n) leads to a sealed page of the partition (R503). -/
def State.readsSealed (s : State) (o : MemObj) (off n : Nat) : Bool :=
  match s.part? o.part with
  | none => false
  | some x =>
    (List.range (cdiv (n + 4096) 4096)).any (fun i =>
      match s.xlate o.part o.context ((o.va + off) / 4096 * 4096 + i * 4096) false with
      | .dram dpa => decide (i * 4096 < (o.va + off) % 4096 + n) && s.sealedDpa x dpa
      | _ => false)

/-- R328: the fence is checked once, by one read through the store's port (R558). -/
def resultFetchBody (r : Nat) (e : CmdEnv) (s : State) : CmdRes :=
  let f := fldB r 0 2
  let t := fldB r 8 8
  let n := fldB r 40 4
  if rsvdSet r (maskOf [(0, 15, 0), (8, 63, 0), (16, 31, 0), (20, 31, 0), (24, 63, 0), (32, 63, 0), (40, 31, 0)]) then
    refuse s .rsvdSet
  else if 2 ^ 63 ≤ t then (s, some (badParam 8 0))
  else if n % 64 != 0 || 16777216 < n then (s, some (badParam 40 0))
  else if !s.fenceOf e.part f then refuse s .badFence
  else
    match s.obj? e.part (fldB r 16 4), s.obj? e.part (fldB r 20 4) with
    | some src, some dst =>
      if src.length < fldB r 24 8 + n || dst.length < fldB r 32 8 + n then refuse s .badRange
      else if s.readsSealed src (fldB r 24 8) n then refuse s .notOwned
      else (s.sendFence { fence := f, part := e.part, context := e.context, op := .read, rank := rankFront, source := srcCode 7 0, reply := .fetch e.ring r }, none)
    | _, _ => refuse s .badId

/-- The word of a ResultFetch's read: the bytes are copied only when VALUE has reached TARGET with ABANDONED clear (R328). -/
def State.fetchResult (s : State) (p r : Nat) (w : BitVec 64) : CmdRes :=
  if fenceAband w then (s, some (.refused .fenceAbandoned w.toNat))
  else if fldB r 8 8 ≤ fenceValue w then
    match s.obj? p (fldB r 16 4), s.obj? p (fldB r 20 4) with
    | some src, some dst => done (s.copyObj src dst (fldB r 24 8) (fldB r 32 8) (fldB r 40 4)) w.toNat
    | _, _ => refuse s .badId
  else (s, some (.notReady w.toNat))

/-- RESULT_FETCH. -/
def execResultFetch (ring : Nat) (record : BitVec 384) (s : State) : Outc :=
  .next (runCmd s ring 0x000C record.toNat 0 (resultFetchBody record.toNat))

/-! ## FENCE_SIGNAL_APPLY (R325, R326, R558) -/

/-- What a signal's value part does to VALUE (R325). -/
inductive SigRes where
  | ok (v : Nat)
  | regress
  | exhausted
  /-- the fence is no longer allocated to the partition (R324) -/
  | gone
deriving DecidableEq, Repr

/-- v' of a signal against VALUE: refused below VALUE or above 2^63 - 1. -/
def sigCheck (value v' : Nat) : SigRes :=
  if v' < value then .regress else if 2 ^ 63 - 1 < v' then .exhausted else .ok v'

/-- A word with VALUE and ABANDONED. -/
def mkWord (value : Nat) (aband : Bool) : BitVec 64 := BitVec.ofNat 64 (value % 2 ^ 63 + if aband then 2 ^ 63 else 0)

/-- One signal applied to a word (R325): the value part, and bit 63 set by ABANDONED whether or not it is refused. -/
def applySig (w : BitVec 64) (op : FenceOp) : BitVec 64 × SigRes :=
  match op with
  | .add x ab =>
    match sigCheck (fenceValue w) (fenceValue w + x) with
    | .ok v => (mkWord v (fenceAband w || ab), .ok v)
    | e => (mkWord (fenceValue w) (fenceAband w || ab), e)
  | .set x ab =>
    match sigCheck (fenceValue w) x with
    | .ok v => (mkWord v (fenceAband w || ab), .ok v)
    | e => (mkWord (fenceValue w) (fenceAband w || ab), e)
  | .reset x => (mkWord x false, .ok x)
  | .read => (w, .ok (fenceValue w))

/-- Order of a flit within its group (R325, R327): SETs ascending by operand, then ADDs by source, then resets; reads see the group
applied (log entry 49). -/
def flitKey (f : FenceFlit) : Nat :=
  match f.op with
  | .set x _ => x
  | .add _ _ => 2 ^ 64 + f.rank
  | .reset _ => 2 ^ 65 + f.rank
  | .read => 2 ^ 66

/-- OP, ABANDONED carried and operand of a signal, for FENCE_REFUSED (R557). -/
def flitData (f : FenceFlit) (c : Code) (word : BitVec 64) : Nat :=
  let (op, ab, x) := match f.op with
    | .add x ab => (1, ab, x)
    | .set x ab => (2, ab, x)
    | .reset x => (0, false, x)
    | .read => (0, false, 0)
  plcB 0 2 f.fence ||| plcB 2 2 c.host ||| plcB 4 1 op ||| plcF 5 0 ab ||| plcB 8 8 x ||| plcB 16 8 word.toNat

/-- What one flit did, for its reply. -/
structure FlitDone where
  flit : FenceFlit
  res : SigRes
deriving DecidableEq, Repr

/-- Apply one flit to both arrays (R558). A fence no longer allocated to the partition takes nothing. -/
def applyFlit (x : State × List FlitDone) (f : FenceFlit) : State × List FlitDone :=
  match Tab.find x.1.fen.fences f.fence with
  | none => (x.1, x.2 ++ [⟨f, .gone⟩])
  | some y =>
    if y.part ≠ f.part then (x.1, x.2 ++ [⟨f, .gone⟩])
    else
      let a := applySig y.wordA f.op
      let b := applySig y.wordB f.op
      (x.1.setFence f.fence { y with wordA := a.1, wordB := b.1 },
        x.2 ++ [⟨f, if x.1.fen.serveB then b.2 else a.2⟩])

/-- The code of a refused signal. -/
def SigRes.code : SigRes → Option Code
  | .ok _ => none
  | .gone => none
  | .regress => some .fenceRegress
  | .exhausted => some .fenceExhausted

/-- A FenceWait's read returns the word: answered when the fence reaches TARGET or TIMEOUT_US is 0, else it waits, 4,096 of a partition at
most (R326). -/
def State.beginWait (s : State) (p f q t : Nat) (deadline : Option Nat) : State :=
  let w := s.fenceWord f
  if fenceReaches w t then s.answerCmd q (.ok w.toNat)
  else
    match deadline with
    | none => s.answerCmd q (.notReady w.toNat)
    | some d =>
      if 4096 ≤ (s.fen.waiters.filter (fun x => x.part == p)).length then s.answerCmd q (.busy .waitFull 0)
      else { s with fen := { s.fen with waiters := s.fen.waiters ++ [{ ring := q, part := p, fence := f, target := t, deadline := d }] } }

/-- After the group: a host signal or read is answered, a steward gets its status or word elsewhere, any other refused signal sends
FENCE_REFUSED and is recorded in the fault log (R325, R557). A host command whose fence is gone is answered BAD_FENCE (R324). -/
def replyFlit (s : State) (d : FlitDone) : State :=
  let w := s.fenceWord d.flit.fence
  match d.flit.reply, d.res with
  | .ring q, .gone => s.answerCmd q (.refused .badFence 0)
  | .wait q _ _, .gone => s.answerCmd q (.refused .badFence 0)
  | .fetch q _, .gone => s.answerCmd q (.refused .badFence 0)
  | .ring q, r => s.answerCmd q (match r.code with | none => .ok w.toNat | some c => .refused c 0)
  | .wait q t dl, _ => s.beginWait d.flit.part d.flit.fence q t dl
  | .fetch q r, _ => finishCmd q (s.fetchResult d.flit.part r w)
  | .cell _ _, _ => s
  | .none, r =>
    match r.code with
    | none => s
    | some c => (s.event 0x000E d.flit.part d.flit.context true d.flit.source 0xFFFF (flitData d.flit c w)).logFault 0x000E d.flit.part d.flit.source (flitData d.flit c w)

/-- Waiters whose fence has reached their target are released at once (R326). -/
def State.releaseWaiters (s : State) : State :=
  let hit := s.fen.waiters.filter (fun w => fenceReaches (s.fenceWord w.fence) w.target)
  let s1 := { s with fen := { s.fen with waiters := s.fen.waiters.filter (fun w => !fenceReaches (s.fenceWord w.fence) w.target) } }
  hit.foldl (fun s w => s.answerCmd w.ring (.ok (s.fenceWord w.fence).toNat)) s1

/-- What a group returns to stewards: cell, register, and an FRD's word, or an FSIG's status, 0 done, 3 FENCE_REGRESS or 4
FENCE_EXHAUSTED (R146, R155). -/
def State.fsigStatus (s : State) (l : List FlitDone) : List (Nat × Nat × Nat) :=
  l.filterMap (fun d => match d.flit.reply with
    | .cell c rd => some (c, rd, if d.flit.op = .read then (s.fenceWord d.flit.fence).toNat else match d.res with | .ok _ => 0 | .gone => 0 | .regress => 3 | .exhausted => 4)
    | _ => none)

/-- A group of up to four flits that have arrived reaches both arrays and is applied in the order of R325 (R558). -/
def State.applyGroup (s : State) (n : Nat) : State × List FlitDone :=
  let here := s.fen.port.filter (fun f => f.flit.isNone)
  let g := sortBy flitKey (here.take (min n 4))
  let s0 := { s with fen := { s.fen with port := here.drop (min n 4) ++ s.fen.port.filter (fun f => f.flit.isSome) } }
  let x := g.foldl applyFlit (s0, [])
  ((x.2.foldl replyFlit x.1).releaseWaiters, x.2)

end Sys2Proof.Machine
end

