-- ==== Sys2Proof/Machine/Waybills.lean ====
section
/-! DEFINITION. Sys2Proof/Machine/Waybills.lean: tile formats, waybill checks, tile queues, routing, commits and what holds
them (02_stations_and_waybills R39-R50, R57-R61, R67-R76). -/

namespace Sys2Proof.Machine

/-! ## Tile formats and shapes (R40-R44, R87, R89) -/

/-- Element bits of a FORMAT code (R41); 0 for a code that is none. -/
def elemBits (f : Nat) : Nat :=
  match f with
  | 0x00 => 4 | 0x01 => 6 | 0x02 => 6 | 0x03 => 8 | 0x04 => 8 | 0x05 => 8 | 0x06 => 8 | 0x07 => 16 | 0x08 => 16
  | 0x09 => 32 | 0x0A => 32 | 0x0B => 32 | 0x0C => 64 | 0x0D => 8 | _ => 0

/-- What COLS must be a multiple of (R41). -/
def colsMultiple (f : Nat) : Nat := match f with | 0x00 => 2 | 0x01 => 4 | 0x02 => 4 | _ => 1

/-- SCALES may be 1 (R41). -/
def scalesAllowed (f : Nat) : Bool := decide (f ≤ 0x05)

/-- Packed row length in bytes (R40). -/
def packedRow (f cols : Nat) : Nat := cdiv (cols * elemBits f) 8

/-- Pitch of the scale array (R44). -/
def scalePitch (cols : Nat) : Nat := roundUp (cols / 32) 16

/-- Pitch of the N:M position metadata (R87). -/
def metaPitch (cols : Nat) : Nat := roundUp (cdiv cols 4) 16

/-- Pitch of the zero-group bitmap (R89). -/
def zmapPitch (k : Nat) : Nat := roundUp (cdiv (cdiv k 16) 8) 16

/-- The ring area's start in every block: tiles lie below it (R42). -/
def ringAreaBase : Nat := 0x01700000

/-- Bytes 16-39 of a waybill are not all zero (R47). -/
def Waybill.tileFields (w : Waybill) : Bool := (w.toNat >>> 128) % 2 ^ 192 != 0

/-- A zero-length tile becomes EMPTY with bytes 16-39 zero (R45). -/
def Waybill.normalise (w : Waybill) : Waybill :=
  if w.kind = 0 ∧ (w.rows = 0 ∨ w.cols = 0) then
    { w with kind := 1, tileBlock := 0, tileOff := 0, format := 0, cols := 0, rows := 0, rowPitch := 0, scales := false, zmap := false, sparsity := 0, scaleBlock := 0, scaleOff := 0, metaBlock := 0, metaOff := 0, originCol := 0, originRow := 0, rsvd := w.rsvd - ((w.rsvd >>> 128) % 2 ^ 192) <<< 128 }
  else w

/-- Any of the waybill's structures reaches the ring area or lies in a block not bound to the partition (R42-R44). -/
def Waybill.badAddr (s : State) (p : Nat) (w : Waybill) : Bool :=
  decide (ringAreaBase < w.tileOff * 64 + w.rows * w.rowPitch) || (s.phys p w.tileBlock).isNone ||
  (w.scales && (decide (ringAreaBase < w.scaleOff * 64 + w.rows * scalePitch w.cols) || (s.phys p w.scaleBlock).isNone)) ||
  (w.sparsity != 0 && (decide (ringAreaBase < w.metaOff * 64 + w.rows * metaPitch w.cols) || (s.phys p w.metaBlock).isNone)) ||
  (w.zmap && (decide (ringAreaBase < w.metaOff * 64 + cdiv w.rows 64 * zmapPitch w.cols) || (s.phys p w.metaBlock).isNone))

/-- The malformed conditions that only tiles can meet, lowest code first (R76). -/
def Waybill.tileBad (s : State) (p : Nat) (w : Waybill) : Option Code :=
  if 0x0D < w.format || (w.scales && (!scalesAllowed w.format || w.cols % 32 != 0)) ||
      w.cols % colsMultiple w.format != 0 || w.sparsity == 3 || (w.sparsity != 0 && w.zmap) then some .badFormat
  else if 4096 < w.rows || 4096 < w.cols then some .badShape
  else if w.rowPitch % 16 != 0 || w.rowPitch < packedRow w.format w.cols then some .badPitch
  else if 1048576 < w.rows * w.rowPitch then some .tileTooLarge
  else if w.badAddr s p then some .badAddr
  else none

/-- The lowest reject code among the conditions a waybill meets (R76), NO_OUTPUT and CONTEXT_MISMATCH apart. -/
def Waybill.malformed (s : State) (p : Nat) (w : Waybill) : Option Code :=
  if 2 < w.kind || (w.kind != 0 && w.tileFields) then some .badKind
  else
    match (if w.kind = 0 then w.tileBad s p else none) with
    | some c => some c
    | none =>
      if w.rsvd != 0 then some .rsvdSet
      else if w.fenceOp == 3 || (w.fenceOp != 0 && !s.fenceOf p w.fenceId) then some .badFence
      else none

/-! ## Tile queues (R70-R73) -/

/-- Waybills on their way to a queue. -/
def State.inFlightTo (s : State) (q : Nat) : Nat := (s.stn.flight.filter (fun f => f.queue == q)).length

/-- Spill slots of a queue (0: no spill ring). -/
def TileQ.spillSize (x : TileQ) : Nat := if x.spillLog2 = 0 then 0 else 2 ^ x.spillLog2

/-- Free hot slots: those of a running refill group count as taken from its start (R72). -/
def TileQ.hotFree (x : TileQ) : Nat := 2 ^ x.hotLog2 - (x.hot.length + x.refill)

/-- Waybills the queue's tail can place now: in the hot ring only while the spill ring is empty (R72), else in the spill
ring; before the hot ring is placed, in the spill ring alone (R71). -/
def TileQ.places (x : TileQ) : Nat :=
  if x.placed.isSome ∧ x.spill = [] then x.hotFree + x.spillSize else x.spillSize - x.spill.length

/-- The queue's hot ring lies in a moving block: its enqueues go to the spill ring (R350). -/
def State.ringMoving (s : State) (x : TileQ) : Bool :=
  match x.placed with
  | some a => s.movingName x.part a.1 || (match s.phys x.part a.1 with | some b => (s.block b).resetting || (s.block b).wipe.isSome | none => false)
  | none => false

/-- Waybills the queue's tail can place now, during a move of its hot ring's block too. -/
def State.placesOf (s : State) (x : TileQ) : Nat := if s.ringMoving x then x.spillSize - x.spill.length else x.places

/-- The output queue a waybill's route tag selects (R57). -/
def Station.route (t : Station) (w : Waybill) : Option Nat :=
  let i := (w.routeTag >>> t.routeShift) % 8
  if i < t.nOut then t.outQ.getD i none else none

/-- The queues a holder waits for (R73). -/
def State.holderQueues (s : State) (h : Holder) : List Nat :=
  match h with
  | .forward _ _ _ _ q => [q]
  | .enqueue q _ _ => [q]
  | .engine e =>
    match s.engine? e with
    | none => []
    | some x =>
      match x.start with
      | none => []
      | some st =>
        match s.station? x.part x.station with
        | none => []
        | some t => st.emits.filterMap t.route ++ st.direct.map (·.1)

/-- A commit is held for the queue: it counts as full to every other producer (R73). -/
def State.heldFor (s : State) (q : Nat) : Bool := s.stn.held.any (fun h => (s.holderQueues h).contains q)

/-- Room of a tile queue or a queue-pair send end, less what is on its way (R73, R355). -/
def State.room (s : State) (q : Nat) : Nat :=
  match s.queue? q with
  | some x => s.placesOf x - s.inFlightTo q
  | none =>
    match Tab.find s.part.qpairs q with
    | some y => if y.recv then 0 else 64 - y.buffer.length
    | none => 0

/-- The queue is full to a new producer (R73). -/
def State.queueFull (s : State) (q : Nat) : Bool := s.heldFor q || s.room q == 0

/-- The consuming station's ID as a waybill's STATION field. -/
def consumerStation (c : Consumer) : Nat := match c with | .station i _ => i | _ => 0xFFFF

/-- The current composition epoch and reset generation of a partition. -/
def State.epochOf (s : State) (p : Nat) : Nat := match s.part? p with | some x => x.epoch | none => 0
def State.genOf (s : State) (p : Nat) : Nat := match s.part? p with | some x => x.resetGen | none => 0

/-- The epoch in force in a physical block: that of its last notice (R347). -/
def State.epochAt (s : State) (p b : Nat) : Nat := Tab.getD s.part.blockEpoch (p * 64 + b) (s.epochOf p)

/-- The epoch an enqueue stamps: the one in force in the anchor block, or at the hub before the hot ring is placed. -/
def State.queueEpoch (s : State) (x : TileQ) : Nat :=
  match x.placed.bind (fun a => s.phys x.part a.1) with
  | some b => s.epochAt x.part b
  | none => s.epochOf x.part

/-- What Kloquen stamps at enqueue (R46): STATION, QUEUE and EPOCH. -/
def Waybill.stamp (w : Waybill) (s : State) (q : Nat) (x : TileQ) : Waybill :=
  { w.normalise with station := consumerStation x.consumer, queue := q, epoch := s.queueEpoch x }

/-- The head waybill of a queue: of the old ring first while a station move runs (R349). -/
def TileQ.headWb (x : TileQ) : Option Waybill :=
  match x.oldHot with
  | w :: _ => some w
  | [] => x.hot.head?

/-- The head of a queue that is head-eligible: its line has been written to its hot slot (R69). -/
def State.headNow (s : State) (x : TileQ) : Option Waybill :=
  match x.placed.bind (fun a => (s.phys x.part a.1).map (fun b => (b, a.2 + x.head % 2 ^ x.hotLog2))) with
  | some (b, n) => if s.fab.claims.any (fun c => c.rank == 21 && c.block == b && c.line == n) then none else x.headWb
  | none => x.headWb

/-- The queue without its head (R64). -/
def TileQ.pop (x : TileQ) (now : Nat) : TileQ :=
  match x.oldHot with
  | _ :: l => { x with oldHot := l, head := x.head + 1, headSince := now, stalled := false }
  | [] => { x with hot := x.hot.tail, head := x.head + 1, headSince := now, stalled := false }

/-- A line of a hot ring written through the dispatcher's ring port, a claim of rank 21 (R162). -/
def State.ringWrite (s : State) (p b off : Nat) (l : List (BitVec 8)) : State :=
  let n := s.fab.nextAccess
  let a : Access := { who := .ringPort, part := p, dest := .none, got := [], left := 1, lost := 0, store := true }
  let c : Claim := { access := n, block := b, line := off / 64, rank := 21, op := .write (keyed 0 l) }
  { s with fab := { s.fab with nextAccess := n + 1, accesses := Tab.put s.fab.accesses n a, claims := s.fab.claims ++ [c] } }

/-- A line of slice memory written at a physical block's offset; a wipe takes no write (R170). -/
def State.sliceWrite (s : State) (b off : Nat) (l : List (BitVec 8)) : State :=
  if (s.block b).wipe.isSome then s
  else { s with fab := { s.fab with slices := Memory.writeL s.fab.slices (b * 2 ^ 25 + off) l } }

/-- `n` bytes of slice memory at a physical block's offset. -/
def State.sliceRead (s : State) (b off n : Nat) : List (BitVec 8) := Memory.readL s.fab.slices (b * 2 ^ 25 + off) n

/-- A HEAVY waybill's hint goes to the power controller of the consuming station's anchor block (R50), and replaces the station's older
hint (R463). -/
def State.heavyHint (s : State) (x : TileQ) (w : Waybill) : State :=
  if w.heavy then
    match x.consumer with
    | .station i _ =>
      match (s.station? x.part i).bind (·.anchor) with
      | some (a, _) =>
        (match s.phys x.part a with
         | some b => { s with stn := { s.stn with heavy := s.stn.heavy ++ [(b, stnKey x.part i, s.now)] }, pow := { s.pow with hints := Tab.del s.pow.hints (stnKey x.part i) } }
         | none => s)
      | none => s
    | _ => s
  else s

/-- The waybill takes the queue's tail (R72): a hot slot while the spill ring is empty, else a spill slot. Its record is
written to the slot's line. -/
def State.enqueueNow (s : State) (q : Nat) (x : TileQ) (w0 : Waybill) : State :=
  let w := w0.stamp s q x
  let s := (s.heavyHint x w).cacheDesc q
  match x.placed with
  | some (blk, off) =>
    if x.spill = [] ∧ 0 < x.hotFree ∧ s.ringMoving x = false then
      let s1 := s.setQueue q { x with tail := x.tail + 1, hot := x.hot ++ [w], headSince := if x.hot = [] ∧ x.oldHot = [] then s.now else x.headSince, stalled := x.stalled && !(x.hot.isEmpty && x.oldHot.isEmpty) }
      match s.phys x.part blk with
      | some b => s1.ringWrite x.part b (off * 64 + (x.head + x.hot.length) % 2 ^ x.hotLog2 * 64) (bytesOf 64 w.toNat)
      | none => s1
    else
      let s1 := s.setQueue q { x with tail := x.tail + 1, spill := x.spill ++ [w] }
      match s.obj? x.part x.spillHandle with
      | some o => s1.writeObj o (x.spillOff + x.tail % 2 ^ x.spillLog2 * 64) (bytesOf 64 w.toNat)
      | none => s1
  | none =>
    let s1 := s.setQueue q { x with tail := x.tail + 1, spill := x.spill ++ [w] }
    match s.obj? x.part x.spillHandle with
    | some o => s1.writeObj o (x.spillOff + x.tail % 2 ^ x.spillLog2 * 64) (bytesOf 64 w.toNat)
    | none => s1

/-- Where a queue's tail is: the block its hot ring lies in, else the hub's directory (R71). -/
def State.queueEnd (s : State) (q : Nat) : Nat × Nat :=
  match (s.queue? q).bind (fun x => x.placed.bind (fun a => s.phys x.part a.1)) with
  | some b => blockEnd b
  | none => hubEnd

/-- A waybill leaves its producer for a queue: to a tile queue's tail, by a class P1 request flit unless it is there already, or to a
queue pair's send buffer (R69, R172, R355). -/
def State.launch (s : State) (q : Nat) (w : Waybill) (rank : Nat) : State :=
  match Tab.find s.part.qpairs q with
  | some y =>
    let w1 := { w.normalise with queue := q, epoch := s.epochOf y.part, station := 0xFFFF }
    { s with part := { s.part with qpairs := Tab.put s.part.qpairs q { y with buffer := y.buffer ++ [w1] } } }
  | none =>
    let f : Flight := { queue := q, wb := w, rank := rank, left := s.spine.cycle }
    if rankEnd rank = s.queueEnd q then { s with stn := { s.stn with flight := s.stn.flight ++ [f] } }
    else { s with stn := { s.stn with flight := s.stn.flight ++ [{ f with flit := some s.spine.nextFlit }] } }.post .waybill .request 1 (rankEnd rank) (s.queueEnd q)

/-- FULL_STALLS of a queue, once for a commit it holds (R73). -/
def State.countStall (s : State) (q : Nat) : State :=
  match s.queue? q with
  | some x => s.setQueue q { x with fullStalls := sat32 (x.fullStalls + 1) }
  | none => s

/-! ## Routing, consumption, rejection (R57-R59, R74) -/

/-- The queue of a numbered output, when valid (R58). -/
def Station.output (t : Station) (i : Nat) : Option Nat := if i < t.nOut then t.outQ.getD i none else none

/-- The physical anchor block of a station. -/
def State.anchorPhys (s : State) (p : Nat) (t : Station) : Option Nat := t.anchor.bind (fun a => s.phys p a.1)

/-- A consumption by the anchor dispatcher (R59): the fence action is performed, and carries ABANDONED when the waybill does. A
waybill with LAST closes its reckoning (R478). -/
def State.consume (s : State) (p : Nat) (t : Station) (w : Waybill) : State :=
  let b := (s.anchorPhys p t).getD 0
  (s.fenceAction p w (rankBlock b 0) (srcCode 2 b) w.abandoned).reckLast p w

/-- WAYBILL_REJECTED's event (R74, R557). -/
def State.rejectEvent (s : State) (p station q : Nat) (w : Waybill) (c : Code) (rejectQ : Option Nat) : State :=
  s.event 0x0001 p w.context true q station
    (plcB 0 1 c.reject ||| plcB 4 4 (rejectQ.getD 0xFFFFFFFF) ||| plcB 8 4 w.requestId)

/-- A rejection (R74): to REJECT_Q with its code, or consumed when there is none or it is full; no fence action. -/
def State.reject (s : State) (p station : Nat) (t : Station) (q : Nat) (w : Waybill) (c : Code) (rank : Nat) : State :=
  let target := match t.rejectQ with
    | some r => if s.queueFull r then none else some r
    | none => none
  let s1 := match target with
    | some r => s.launch r { w with rejectCode := c.reject, srcStation := station, resetGen := s.genOf p } rank
    | none => s
  s1.rejectEvent p station q w c target

/-! ## Commits (R61, R67, R73) -/

/-- The items of an engine's commit: each emitted waybill with the queue its route selects (R57), then what a fixed unit places
itself (R200). Emits that select no valid
output were dropped when they were emitted. -/
def Start.items (st : Start) (t : Station) : List (Nat × Waybill) :=
  st.emits.filterMap (fun w => (t.route w).map (fun q => (q, w))) ++ st.direct

/-- How many of the items are for a queue. -/
def countFor (q : Nat) (items : List (Nat × Waybill)) : Nat := (items.filter (fun i => i.1 == q)).length

/-- No older commit is held for any of the items' queues, and each has room for all its items (R73). `older` are the holders
ahead. -/
def State.canCommit (s : State) (older : List Holder) (items : List (Nat × Waybill)) : Bool :=
  items.all (fun i => !older.any (fun h => (s.holderQueues h).contains i.1) && decide (countFor i.1 items ≤ s.room i.1))

/-- Engines that an unbind waits for (R55). -/
def Station.leaving (t : Station) (e : Nat) : Bool := t.unbinds.any (fun u => u.2.contains e)

/-- The station without some engines, which no unbind waits for any more (R55). -/
def Station.without (t : Station) (f : Nat → Bool) : Station :=
  { t with engines := t.engines.filter (fun e => !f e), unbinds := t.unbinds.map (fun u => (u.1, u.2.filter (fun e => !f e))) }

/-- An engine runs no waybill: it holds no start, and as a combine unit no map or result (R55, R204). -/
def State.engineIdle (s : State) (e : Nat) : Bool :=
  (match s.engine? e with | some x => x.start.isNone | none => true) &&
  (engClass e != 4 || (match Tab.find s.unit.comb e with | some c => c.taken.isEmpty && c.batches.isEmpty && c.held.isEmpty | none => true))

/-- An unbind's engine leaves once it is free (R55). -/
def State.leaveIfAsked (s : State) (p i e : Nat) : State :=
  match s.station? p i with
  | none => s
  | some t => if t.leaving e && s.engineIdle e then (s.setStation p i (t.without (· == e))).delEngine e else s

/-- An emitted waybill that selects no VALID output (R57): a cell program's is dropped with its code in EMIT_STATUS, a fixed
unit's is rejected (R74). -/
def State.noOutput (s : State) (e : Nat) (x : Engine) (t : Station) (w : Waybill) : State :=
  if engClass e = 1 then
    let c := engNum e
    if c % 20 < 12 then { s with cell := { s.cell with m := Tab.upd s.cell.m c (fun y => { y with emitStatus := 9 }) } }
    else if c % 20 < 18 then { s with cell := { s.cell with v := Tab.upd s.cell.v c (fun y => { y with emitStatus := 9 }) } }
    else { s with cell := { s.cell with s := Tab.upd s.cell.s c (fun y => { y with emitStatus := 9 }) } }
  else s.reject x.part x.station t 0xFFFFFFFF { w with srcStation := x.station } .noOutput (engRank e)

/-- The requester of slice accesses that an engine is. -/
def engRequester (e : Nat) : Requester :=
  if engClass e = 1 then .cell (engNum e) else if engClass e = 2 then .carrier (engNum e) else .unit e

/-- A slice store or atomic of the engine is still out: the commit waits for it (R94, R124, R145, R202, R207, R212). -/
def State.storesPending (s : State) (e : Nat) : Bool := s.fab.accesses.any (fun a => a.2.who == engRequester e && a.2.store)

/-- The commit of a start (R67): its emitted waybills leave one after another, its inputs' fence actions are performed, and
the engine is free. An input with LAST closes its reckoning unless the commit emits a waybill carrying the ID with LAST (R478). -/
def State.performCommit (s : State) (e : Nat) (x : Engine) (st : Start) (t : Station) : State :=
  let s0 := (st.emits.filter (fun w => (t.route w).isNone)).foldl (fun s w => s.noOutput e x t w) s
  let s1 := (st.items t).foldl (fun s i => s.launch i.1 { i.2 with srcStation := x.station, resetGen := s.genOf x.part } (engRank e)) s0
  let kept := fun (w : Waybill) => (st.items t).any (fun i => i.2.requestId == w.requestId && i.2.last)
  let s2 := st.inputs.foldl (fun (s : State) (i : Nat × Waybill) =>
    let s' := s.fenceAction x.part i.2 (engRank e) (engSource e) false
    if kept i.2 then s' else s'.reckLast x.part i.2) s1
  let s3 := s2.setEngine e { x with start := none }
  let s4 := s3.setStation x.part x.station { t with starts := t.starts.filter (· != e), lastCommit := s.now }
  { s4 with stn := { s4.stn with held := s4.stn.held.filter (· != Holder.engine e) } }.leaveIfAsked x.part x.station e

/-- Forward a waybill (R58, R59): only QUEUE, STATION, SRC_STATION, EPOCH and RESET_GEN are stamped again; one taken from a reject
queue keeps its REJECT_CODE (DESIGN CHOICE, log entry 46: R46 has it 0 elsewhere, and R58 does not name it). A full target
holds the forward at the dispatcher (R77). The forward is charged to the waybill's REQUEST_ID (R472). -/
def State.forward (s : State) (p station input q : Nat) (w : Waybill) (b : Nat) : State :=
  let w1 := { w with srcStation := station, resetGen := s.genOf p }
  let s := s.reckTouch p w.requestId w.context
  if s.queueFull q then
    ({ s with stn := { s.stn with held := s.stn.held ++ [Holder.forward p station input w1 q] } }).countStall q
  else s.launch q w1 (rankBlock b 0)

/-- Forward by route or consume (R59). -/
def State.forwardRoute (s : State) (p station : Nat) (t : Station) (input : Nat) (w : Waybill) : State :=
  match t.route w with
  | some q => s.forward p station input q w ((s.anchorPhys p t).getD 0)
  | none => s.consume p t w

/-- A start that ends as a program fault: its first input is forwarded with ABANDONED, and nothing of the start is committed
(R135, R239, R273); the other inputs of a ZIP start are consumed with their fence actions (R62). -/
def State.abandonStart (s : State) (e : Nat) (x : Engine) (st : Start) (t : Station) : State :=
  let s1 := match st.inputs with
    | [] => s
    | i :: rest =>
      rest.foldl (fun (s : State) (j : Nat × Waybill) => s.consume x.part t j.2) (s.forwardRoute x.part x.station t 0 { i.2 with abandoned := true })
  let s2 := s1.setEngine e { x with start := none }
  match s2.station? x.part x.station with
  | none => s2
  | some t2 =>
    let s3 := s2.setStation x.part x.station { t2 with starts := t2.starts.filter (· != e), lastCommit := s.now }
    { s3 with stn := { s3.stn with held := s3.stn.held.filter (· != Holder.engine e) } }.leaveIfAsked x.part x.station e

/-- Try to commit an engine whose program has ended: hold it for order (R61), hold it for room (R73), or commit. -/
def State.tryCommit (s : State) (e : Nat) : State :=
  match s.engine? e with
  | none => s
  | some x =>
    match x.start, s.station? x.part x.station with
    | some st, some t =>
      if !st.ended then s
      else if st.faulted then s.abandonStart e x st t
      else if t.ordered && t.starts.head? != some e then
        s.setEngine e { x with start := some { st with heldOrder := true } }
      else if s.canCommit s.stn.held (st.items t) then s.performCommit e x { st with heldOrder := false } t
      else
        let qs := dedupN ((st.items t).map (·.1))
        let full := qs.filter (fun q => s.heldFor q || decide (s.room q < countFor q (st.items t)))
        let s1 := full.foldl (fun s q => s.countStall q) s
        let s2 := s1.setEngine e { x with start := some { st with heldFull := true, heldOrder := false } }
        { s2 with stn := { s2.stn with held := s2.stn.held ++ [.engine e] } }
    | _, _ => s

/-- Complete one held commit or forward if nothing older is held for its queues and they have room (R73). -/
def State.tryHeld (s : State) (older : List Holder) (h : Holder) : Option State :=
  match h with
  | .forward p station input w q =>
    if older.any (fun o => (s.holderQueues o).contains q) || s.room q == 0 then none
    else
      let s1 := { s with stn := { s.stn with held := s.stn.held.filter (· != Holder.forward p station input w q) } }
      let b := ((s.station? p station).bind (s.anchorPhys p)).getD 0
      some (s1.launch q { w with resetGen := s.genOf p } (rankBlock b 0))
  | .enqueue q w rank =>
    if older.any (fun o => (s.holderQueues o).contains q) || s.room q == 0 then none
    else some ({ s with stn := { s.stn with held := s.stn.held.filter (· != Holder.enqueue q w rank) } }.launch q w rank)
  | .engine e =>
    match s.engine? e with
    | none => none
    | some x =>
      match x.start, s.station? x.part x.station with
      | some st, some t => if s.canCommit older (st.items t) then some (s.performCommit e x st t) else none
      | _, _ => none

/-- One edge: held commits complete in the order in which they were held (R73). -/
def completeHeld : (older : List Holder) → List Holder → State → State
  | _, [], s => s
  | older, h :: l, s =>
    match s.tryHeld older h with
    | some s1 => completeHeld older l s1
    | none => completeHeld (older ++ [h]) l s

/-- ENGINE_COMMIT: an engine whose program has ended commits, or its commit is held (R61, R67, R73). -/
def execEngineCommit (e : Nat) (s : State) : Outc :=
  .next (
    match s.engine? e with
    | none => s
    | some x =>
      match x.start with
      | none => s
      | some st => if st.ended && !st.heldFull && !st.heldOrder && (st.faulted || !s.storesPending e) then s.tryCommit e else s)

/-- HELD_COMMIT_COMPLETE: at an edge, every held commit that has room completes, in the order in which they were held (R73). -/
def execHeldCommitComplete (s : State) : Outc := .next (completeHeld [] s.stn.held s)

/-- ORDERED_COMMIT_SIGNAL: the completion of the previous commit in start order reaches the station's next held commit, which
completes (R61). -/
def execOrderedCommitSignal (p station : Nat) (s : State) : Outc :=
  .next (
    match s.station? p station with
    | none => s
    | some t =>
      match t.starts with
      | [] => s
      | e :: _ =>
        match s.engine? e with
        | none => s
        | some x =>
          match x.start with
          | none => s
          | some st => if t.ordered && st.heldOrder then s.tryCommit e else s)

/-! ## Enqueues and refills (R71, R72) -/

/-- The physical block whose dispatcher takes a placed queue's enqueues: the one its hot ring lies in (R71). -/
def State.ringBlock (s : State) (x : TileQ) : Option Nat := x.placed.bind (fun a => s.phys x.part a.1)

/-- The path by which a source's waybill reaches a queue anchored in a block (R72): 0 the dispatcher's own ring port, 1 the block's
crossbar, 2 the spine port. At the hub, where an unplaced queue is kept, every source comes by one path (R71). -/
def enqueuePath (anchor : Option Nat) (rank : Nat) : Nat :=
  match anchor with
  | none => 0
  | some b => if rank = rankBlock b 0 then 0 else if rankBlock b 0 < rank ∧ rank < rankBlock b 32 then 1 else 2

/-- The order of the waybills that have arrived at one queue: those of an earlier cycle first; those of one cycle by path and then by the
source order of R559 (R71, R72). -/
def Flight.key (anchor : Option Nat) (f : Flight) : Nat := f.left * 16384 + enqueuePath anchor f.rank * 4096 + f.rank

/-- The next waybill that has arrived at a queue, and the others (R71, R72); one source's waybills arrive in the order in which they
left. -/
def State.nextFlight (s : State) (q : Nat) : Option (Flight × List Flight) :=
  let a := (s.queue? q).bind s.ringBlock
  match (s.stn.flight.filter (fun f => f.queue == q && f.flit.isNone)).map (Flight.key a) with
  | [] => none
  | k :: ks => takeFirst (fun f => f.queue == q && f.flit.isNone && f.key a == ks.foldl min k) s.stn.flight

/-- WAYBILL_ENQUEUE: the next waybill on its way reaches its queue's tail at the anchor (R72). A queue whose hot ring is not
placed takes its enqueues at the hub (HUB_DIRECTORY_ENQUEUE). -/
def execWaybillEnqueue (q : Nat) (s : State) : Outc :=
  .next (
    match s.nextFlight q, s.queue? q with
    | some (f, l), some x =>
      if x.placed.isNone then s
      else
        let s1 := { s with stn := { s.stn with flight := l } }
        if s.placesOf x = 0 then { s1 with stn := { s1.stn with held := s1.stn.held ++ [Holder.enqueue q f.wb f.rank] } }
        else s1.enqueueNow q x f.wb
    | _, _ => s)

/-- HUB_DIRECTORY_ENQUEUE: before the hot ring is placed, the hub directory takes the enqueue and writes the line to the
spill slot; without a spill ring, or when it is full, the enqueue is held as in R73 (R71). -/
def execHubDirectoryEnqueue (q : Nat) (s : State) : Outc :=
  .next (
    match s.nextFlight q, s.queue? q with
    | some (f, l), some x =>
      if x.placed.isSome then s
      else
        let s1 := { s with stn := { s.stn with flight := l } }
        if s.placesOf x = 0 then { s1 with stn := { s1.stn with held := s1.stn.held ++ [Holder.enqueue q f.wb f.rank] } }.countStall q
        else s1.enqueueNow q x f.wb
    | _, _ => s)

/-- Waybills of the next refill group: at least a quarter of the hot ring free, spilled waybills, no group running (R72). -/
def TileQ.groupSize (x : TileQ) : Nat :=
  let free := 2 ^ x.hotLog2 - x.hot.length
  if x.placed.isSome ∧ x.refill = 0 ∧ x.spill ≠ [] ∧ 2 ^ x.hotLog2 ≤ 4 * free then min 16 (min free x.spill.length) else 0

/-- REFILL_GROUP_START: carrier 3 of the anchor starts a group; its hot slots count as taken from now (R72). None starts while the
ring's block moves (R350). -/
def execRefillGroupStart (q : Nat) (s : State) : Outc :=
  .next (
    match s.queue? q with
    | none => s
    | some x => if x.groupSize = 0 ∨ s.ringMoving x ∨ s.partFrozen x.part then s else s.setQueue q { x with refill := x.groupSize })

/-- REFILL_GROUP_COMPLETE: the group's last hot-ring write completes: its waybills, the oldest spilled ones in queue order,
leave SPILL_OCC and enter HOT_OCC together (R72). -/
def execRefillGroupComplete (q : Nat) (s : State) : Outc :=
  .next (
    match s.queue? q with
    | none => s
    | some x =>
      if x.refill = 0 then s
      else
        let g := x.spill.take x.refill
        let x1 := { x with hot := x.hot ++ g, spill := x.spill.drop x.refill, refill := 0, headSince := if x.hot = [] ∧ x.oldHot = [] then s.now else x.headSince }
        let s1 := s.setQueue q x1
        match x.placed.bind (fun a => (s.phys x.part a.1).map (fun b => (b, a.2))) with
        | none => s1
        | some (b, off) =>
          (List.zip (List.range g.length) g).foldl (fun s i =>
            s.ringWrite x.part b (off * 64 + (x.head + x.hot.length + i.1) % 2 ^ x.hotLog2 * 64) (bytesOf 64 i.2.toNat)) s1)

/-! ## WAYBILL_SUBMIT (R46, R48, R73, R76, R317) -/

/-- A plan's tap-room or ostler queue (R283). -/
def State.planQueue (s : State) (q : Nat) : Bool := s.svc.plans.any (fun x => x.2.tapQ == q || x.2.ostlerQ == q)

/-- R317, R46, R76. -/
def waybillSubmitBody (r : Nat) (e : CmdEnv) (s : State) : CmdRes :=
  let q := fld r 0 19 0
  if (r >>> 20) % 2 ^ 44 != 0 then refuse s .rsvdSet
  else if !s.tileQ e.part q then refuse s .badQueue
  else if s.planQueue q then refuse s .queueInUse
  else
    let w0 := Waybill.ofNat (r >>> 64)
    let w1 := { w0 with context := e.context, srcStation := 0xFFFF, rejectCode := 0, resetGen := s.genOf e.part }.normalise
    match w1.malformed s e.part with
    | some c => refuse s c
    | none =>
      if s.queueFull q then (s, some (.busy .queueFull 0))
      else done (s.launch q w1 rankFront) 0

/-- WAYBILL_SUBMIT. -/
def execWaybillSubmit (ring : Nat) (record : BitVec 576) (s : State) : Outc :=
  .next (runCmd s ring 0x0014 record.toNat 0 (waybillSubmitBody record.toNat))

end Sys2Proof.Machine
end

