-- ==== Sys2Proof/Machine/Stations.lean ====
section
/-! DEFINITION. Sys2Proof/Machine/Stations.lean: station definitions, unbinding and predicates (02_stations_and_waybills
R51-R56, R560, R561; R317). -/

namespace Sys2Proof.Machine

/-! ## STATION_DEFINE (R52, R53, R56, R560) -/

def stationMask : Nat :=
  maskOf ([(0, 15, 0), (2, 7, 0), (3, 7, 0), (4, 31, 0), (8, 31, 0), (12, 31, 0), (16, 31, 0), (20, 3, 0), (21, 7, 0),
    (22, 15, 0), (24, 19, 0), (28, 19, 0), (32, 19, 0), (36, 19, 0), (72, 7, 0), (73, 7, 0), (76, 19, 0), (76, 31, 31), (80, 31, 0)] ++
    (List.range 8).flatMap (fun i => [(40 + 4 * i, 19, 0), (40 + 4 * i, 31, 31)]))

/-- The instruction size of a kind that runs programs (R52). -/
def instrBytes (kind : Nat) : Nat := if kind = 1 then 32 else 4

/-- Kinds whose engines run programs. -/
def programKind (kind : Nat) : Bool := kind == 1 || kind == 2 || kind == 3

/-- PROGRAM_LEN and PARAM_LEN limits of a kind (R79, R116, R138). -/
def programLimit (kind : Nat) : Nat := if kind = 1 then 8192 else 16384
def paramLimit (kind : Nat) : Nat := if kind = 1 then 139264 else if kind = 2 then 262080 else 65472

/-- R560's BAD_PARAM row, with the fixed-unit conditions of R190 and R392: the first field out of range. -/
def stationBadParam (r : Nat) : Option Ans :=
  let kind := fld r 2 3 0
  let nIn := fld r 3 3 0
  let plen := fldB r 80 4
  if fldB r 0 2 == 0xFFFF then some (badParam 0 0)
  else if kind == 0 || 8 < kind then some (badParam 2 0)
  else if fld r 2 7 6 == 3 then some (badParam 2 6)
  else if nIn == 0 || 4 < nIn then some (badParam 3 0)
  else if 8 < fld r 3 7 4 then some (badParam 3 4)
  else if 1000 < fldB r 22 2 then some (badParam 22 0)
  else
    match (List.range 4).find? (fun i => decide (nIn ≤ i) && fldB r (24 + 4 * i) 4 != 0) with
    | some i => some (badParam (24 + 4 * i) 0)
    | none =>
      if programKind kind then
        (if plen == 0 || plen % instrBytes kind != 0 then some (badParam 80 0) else none)
      else if fldB r 4 4 != 0 then some (badParam 4 0)
      else if fldB r 8 4 != 0 then some (badParam 8 0)
      else if plen != 0 then some (badParam 80 0)
      else if kind == 4 then
        (if nIn != 2 then some (badParam 3 0) else if !bit r 2 5 then some (badParam 2 5)
         else if fldB r 16 4 != 64 then some (badParam 16 0) else none)
      else if kind == 5 then
        (if nIn != 2 then some (badParam 3 0) else if bit r 2 5 then some (badParam 2 5)
         else if fldB r 16 4 != 64 then some (badParam 16 0) else none)
      else if kind == 8 then
        (if nIn != 1 then some (badParam 3 0) else if bit r 2 5 then some (badParam 2 5)
         else if fldB r 16 4 != 64 then some (badParam 16 0) else none)
      else none

/-- A queue is some station's or steward's input, or a plan's own queue (R53, R283). -/
def State.inputTaken (s : State) (q : Nat) : Bool :=
  s.stn.stations.any (fun x => x.2.inQ.contains q) || s.svc.stewards.any (fun x => x.2.inQ.contains (some q)) || s.planQueue q

/-- The record as a station. Before any input has been served, input 0 is first (DESIGN CHOICE, log entry 46). -/
def stationOf (r ctx now : Nat) : Station :=
  { predMode := fld r 2 7 6, zip := bit r 2 5, ordered := bit r 2 4, kind := fld r 2 3 0, nOut := fld r 3 7 4, nIn := fld r 3 3 0,
    programHandle := fldB r 4 4, programOff := fldB r 8 4, programLen := fldB r 80 4, paramHandle := fldB r 12 4,
    paramLen := fldB r 16 4, routeShift := fld r 20 3 0, predValue := bit r 21 7, predOut := fld r 21 6 4, predBit := fld r 21 3 0,
    watchdogMs := fldB r 22 2, inQ := (List.range (fld r 3 3 0)).map (fun i => fld r (24 + 4 * i) 19 0),
    outQ := (List.range 8).map (fun i => if bit r (43 + 4 * i) 7 then some (fld r (40 + 4 * i) 19 0) else none),
    rejectQ := if bit r 79 7 then some (fld r 76 19 0) else none, context := ctx, anchor := none, engines := [], lastIn := fld r 3 3 0 - 1,
    starts := [], returned := [], lastCommit := now, unbinds := [] }

/-- The queues record their consumer (R70). -/
def State.setConsumers (s : State) (mk : Nat → Consumer) (qs : List Nat) : State :=
  (List.zip (List.range qs.length) qs).foldl (fun (s : State) (i : Nat × Nat) =>
    match s.queue? i.2 with
    | some x => s.setQueue i.2 { x with consumer := mk i.1 }
    | none => s) s

/-- The answers of R560 in row order. -/
def stationDefineBody (r : Nat) (e : CmdEnv) (s : State) : CmdRes :=
  let id := fldB r 0 2
  let t := stationOf r e.context s.now
  let p := e.part
  let outs := (t.outQ.filterMap (fun x => x))
  if rsvdSet r stationMask then refuse s .rsvdSet
  else
    match stationBadParam r with
    | some a => (s, some a)
    | none =>
      if (s.station? p id).isSome then refuse s .badId
      else if (programKind t.kind && (s.obj? p t.programHandle).isNone) || (t.paramHandle != 0 && (s.obj? p t.paramHandle).isNone) then
        refuse s .badId
      else if (programKind t.kind && !fitsObj s p t.programHandle t.programOff t.programLen) ||
          (t.paramHandle != 0 && !fitsObj s p t.paramHandle 0 t.paramLen) || (t.paramLen != 0 && t.paramHandle == 0) then
        refuse s .badRange
      else if (programKind t.kind && (programLimit t.kind < t.programLen || paramLimit t.kind < t.paramLen)) ||
          4096 ≤ (s.stn.stations.filter (fun x => x.1 / 65536 == p)).length then refuse s .limit
      else if t.inQ.any (fun q => !s.tileQ p q) || outs.any (fun q => !s.tileQ p q && !s.sendEnd p q) ||
          (match t.rejectQ with | some q => !s.tileQ p q | none => false) then refuse s .badQueue
      else if t.inQ.any s.inputTaken || dedupN t.inQ != t.inQ || outs.any s.planQueue ||
          (match t.rejectQ with | some q => s.planQueue q | none => false) then refuse s .queueInUse
      else done ((s.setStation p id t).setConsumers (fun i => .station id i) t.inQ) 0xFFFF

/-- STATION_DEFINE. -/
def execStationDefine (ring : Nat) (record : BitVec 1024) (s : State) : Outc :=
  .next (runCmd s ring 0x0010 record.toNat 3 (stationDefineBody record.toNat))

/-! ## STATION_UNBIND, STATION_UNBOUND (R55, R317) -/

/-- The engine IDs a bind or unbind record names: the first N of 32 (R317). -/
def namedEngines (r : Nat) : List Nat := (List.range (fldB r 2 1)).map (fun i => fldB r (8 + 2 * i) 2)

/-- An engine ID beyond N is not zero (R317). -/
def engineBeyond (r : Nat) : Bool :=
  (List.range 32).any (fun i => decide (fldB r 2 1 ≤ i) && fldB r (8 + 2 * i) 2 != 0)

/-- The physical engine an ID names: cells and carriers lie in a named block (R343). -/
def State.physEngine (s : State) (p e : Nat) : Option Nat :=
  if engClass e = 1 then (s.phys p (engNum e / 20)).map (fun b => 0x1000 + b * 20 + engNum e % 20)
  else if engClass e = 2 then (s.phys p (engNum e / 4)).map (fun b => 0x2000 + b * 4 + engNum e % 4)
  else some e

/-- The engine is bound to the station. -/
def State.boundTo (s : State) (p id e : Nat) : Bool :=
  match s.engine? e with
  | some x => x.part == p && x.station == id
  | none => false

/-- An input queue of the station is non-empty. An input whose only waybill was returned ahead of its head counts as non-empty (DESIGN
CHOICE, log entry 46). -/
def State.inputsWaiting (s : State) (t : Station) : Bool :=
  t.inQ.any (fun q => match s.queue? q with | some x => !x.hot.isEmpty || !x.spill.isEmpty || !x.oldHot.isEmpty | none => false) ||
  !t.returned.isEmpty

/-- R55: engines that hold no start leave at once; one that runs a waybill leaves after its commit. -/
def stationUnbindBody (r : Nat) (e : CmdEnv) (s : State) : CmdRes :=
  let id := fldB r 0 2
  let p := e.part
  if (r >>> 24) % 2 ^ 40 != 0 then refuse s .rsvdSet
  else if fldB r 2 1 == 0 || 32 < fldB r 2 1 then (s, some (badParam 2 0))
  else
    match s.station? p id with
    | none => refuse s .badId
    | some t =>
      if engineBeyond r then refuse s .rsvdSet
      else
        let es := (namedEngines r).map (s.physEngine p)
        if es.any (fun x => match x with | some y => !s.boundTo p id y | none => true) then refuse s .badEngine
        else
          let es := dedupN (es.filterMap (fun x => x))
          let rest := t.engines.filter (fun y => !es.contains y && !t.leaving y)
          if rest.isEmpty && s.inputsWaiting t then refuse s .lastEngine
          else
            let idle := es.filter s.engineIdle
            let busy := es.filter (fun y => !s.engineIdle y)
            let s1 := s.setStation p id { (t.without idle.contains) with unbinds := (t.without idle.contains).unbinds ++ [(e.ring, busy)] }
            (idle.foldl State.delEngine s1, none)

/-- STATION_UNBIND. -/
def execStationUnbind (ring : Nat) (record : BitVec 576) (s : State) : Outc :=
  .next (runCmd s ring 0x0012 record.toNat 3 (stationUnbindBody record.toNat))

/-- STATION_UNBOUND: every engine that an unbind named has left, and StationUnbound is sent (R55). -/
def execStationUnbound (p id : Nat) (s : State) : Outc :=
  .next (
    match s.station? p id with
    | none => s
    | some t =>
      match takeFirst (fun u => u.2.isEmpty) t.unbinds with
      | none => s
      | some (u, l) => (s.setStation p id { t with unbinds := l }).answerCmd u.1 (.ok 0))

/-! ## Predicates (R58, R561, R554) -/

/-- The station is true for a waybill (R52). -/
def Station.isTrue (t : Station) (w : Waybill) : Bool :=
  match t.predMode with
  | 0 => true
  | 1 => t.predValue
  | _ => tbit w.routeTag t.predBit

/-- R561: with an anchor, the value travels to its dispatcher; without, it is set in the definition and answered at once. -/
def stationPredicateBody (r : Nat) (e : CmdEnv) (s : State) : CmdRes :=
  let id := fldB r 0 2
  if rsvdSet r (maskOf [(0, 15, 0), (2, 0, 0)]) then refuse s .rsvdSet
  else
    match s.station? e.part id with
    | none => refuse s .badId
    | some t =>
      if t.anchor.isNone then done (s.setStation e.part id { t with predValue := bit r 2 0 }) 0
      else
        let f : PredFlit := { part := e.part, station := id, value := bit r 2 0, ring := some e.ring, arrived := false, flit := some s.spine.nextFlit }
        let b := ((t.anchor.bind (fun a => s.phys e.part a.1)).map blockEnd).getD hubEnd
        ({ s with stn := { s.stn with preds := s.stn.preds ++ [f] } }.post .pred .control 0 hubEnd b, none)

/-- STATION_PREDICATE. -/
def execStationPredicate (ring : Nat) (record : BitVec 64) (s : State) : Outc :=
  .next (runCmd s ring 0x0013 record.toNat 0 (stationPredicateBody record.toNat))

/-- STATION_PREDICATE_ARRIVE: the flit reaches the anchor dispatcher, and its value governs from now (R561). -/
def execStationPredicateArrive (p id : Nat) (s : State) : Outc :=
  .next (
    match takeFirst (fun f => f.part == p && f.station == id && !f.arrived && f.flit.isNone) s.stn.preds with
    | none => s
    | some (f, l) =>
      let s1 := { s with stn := { s.stn with preds := if f.ring.isSome then l ++ [{ f with arrived := true }] else l } }
      match s1.station? p id with
      | some t => s1.setStation p id { t with predValue := f.value }
      | none => s1)

/-- STATION_PREDICATED: the dispatcher's acknowledgement reaches the front end, and the answer is written (R561). -/
def execStationPredicated (p id : Nat) (s : State) : Outc :=
  .next (
    match takeFirst (fun f => f.part == p && f.station == id && f.arrived) s.stn.preds with
    | none => s
    | some (f, l) =>
      let s1 := { s with stn := { s.stn with preds := l } }
      match f.ring with
      | some q => s1.answerCmd q (.ok 0)
      | none => s1)

end Sys2Proof.Machine
end

