-- ==== Sys2Proof/Machine/Composition.lean ====
section
/-! DEFINITION. Sys2Proof/Machine/Composition.lean: partitions, the block map, epochs, moves, shares and queue pairs
(12_composition R332-R357). PARTITION_DESTROY and the steps of a block move that touch cells stand in later files. -/

namespace Sys2Proof.Machine

/-- What a message's body gives: the state and its answer, or none when the answer comes later. -/
abbrev MsgRes := State × Option Ans

/-- Which request a message is, to a resend (R12): any message of the same session and MSG counts as the resend of one that was
turned away: DESIGN CHOICE (log entry 46). -/
def MsgRef.key (m : MsgRef) : Nat := 2 ^ 40 + m.session * 65536 + m.msg

/-- A message as an item of a class and partition: its CORR tells it from the session's others. -/
def MsgRef.item (m : MsgRef) (cls p : Nat) : InnItem := ⟨cls, p, 2 ^ 72 + m.session * 2 ^ 48 + m.msg % 65536 * 2 ^ 32 + m.corr % 2 ^ 32⟩

/-- A message reaches Innkeeper, or Porter (class 0): it begins when its turn comes, and waits in its class's queue until then, to be
delivered again (R277, R278). -/
def State.takeMsg (s : State) (m : MsgRef) (cls p : Nat) (f : State → State) : State :=
  match s.intake (m.item cls p) m.key with
  | .run => (f s).served cls p
  | .turn => (f (s.leaveQueue (m.item cls p).key)).served cls p
  | .enter => s.enqueueReq (m.item cls p)
  | .stay => s
  | .away a => (s.noteRetry m.key a).answerMsg m a

/-- Answer a message whose body ran, or leave it awaited. -/
def finishMsg (m : MsgRef) (x : MsgRes) : State :=
  match x.2 with
  | some a => x.1.answerMsg m a
  | none => x.1

/-- A message of the partition tables: one about a partition being evacuated is answered EVACUATING, and so is every one once the module
withdraws (R442). A change that succeeds writes both copies of the composition table first (R336). -/
def tableMsg (s : State) (m : MsgRef) (p : Nat) (body : State → MsgRes) : State :=
  if s.fail.withdraw.isSome || (match s.part? p with | some x => x.evacuating | none => false) then s.answerMsg m (.busy .evacuating 0)
  else
    let x := body s
    let wrote := match x.2 with | some (.ok _) => true | none => true | _ => false
    finishMsg m (if wrote then { x.1 with part := { x.1.part with tableWrites := x.1.part.tableWrites + 2 } } else x.1, x.2)

/-- A management message served by Innkeeper in a class (R276, R336), or by Porter itself (class 0), that is one of the partition
tables'. -/
def runMsg (s : State) (m : MsgRef) (cls p : Nat) (body : State → MsgRes) : State := s.takeMsg m cls p (fun s => tableMsg s m p body)

/-- A message that is no composition message: nothing of the composition table is written. -/
def runPlain (s : State) (m : MsgRef) (cls p : Nat) (body : State → MsgRes) : State := s.takeMsg m cls p (fun s => finishMsg m (body s))

def refuseM (s : State) (c : Code) : MsgRes := (s, some (.refused c 0))
def busyM (s : State) (c : Code) : MsgRes := (s, some (.busy c 0))
def okM (s : State) (v : Nat) : MsgRes := (s, some (.ok v))

/-- A reserved byte or bit of a body is set, which RSVD_SET answers (R10); the list holds its fields as byte, top bit and bottom bit. -/
def bodyRsvd (r : Nat) (l : List (Nat × Nat × Nat)) : Bool := rsvdSet r (maskOf l)

/-- A fabric port is present (R1, R2). -/
def State.portPresent (s : State) (n : Nat) : Bool := if s.sys.variantT then decide (n < 12) else decide (n < 6)

/-- A field names a reserved partition ID, or partition 0, which only the operator may name (R14). -/
def reservedPart (p : Nat) : Bool := p == 0 || decide (60 < p)

/-- The ageing limit of an island's margin plan (R454, R529). -/
def State.ageLimit (s : State) (b : Nat) : Nat :=
  match Tab.find s.age.islands b with
  | some x => x.limit
  | none => 1000

/-- The planned frequency of a block (R454): the least of 1,000 MHz, the partition's PaceCap and the ageing limit, by steps of 25 MHz. -/
def State.planned (s : State) (p b : Nat) : Nat := min 1000 (min (Tab.getD s.link.paceCap p 1000) (s.ageLimit b))

/-- A block newly bound to a partition has no allotment yet; in an overcurrent emergency it takes the ceiling that its planned frequency
gives (R465, R469). -/
def State.bindPower (s : State) (p b : Nat) : State :=
  let half := max 400 (s.planned p b / 2 / 25 * 25)
  { s with pow := { s.pow with chosen := Tab.del s.pow.chosen b, throttled := s.pow.throttled.filter (· != b), overCeil := if s.pow.overOn && !Tab.has s.pow.overCeil b then Tab.put s.pow.overCeil b half else s.pow.overCeil } }

/-! ## PARTITION_CREATE (R337-R340) -/

def partitionCreateMask : List (Nat × Nat × Nat) :=
  [(0, 5, 0), (1, 5, 0), (2, 1, 0), (4, 31, 0), (8, 31, 0), (12, 31, 0), (16, 31, 0), (20, 15, 0), (22, 15, 0)]

/-- Stripes a region holds (R339). -/
def State.regionStripes (s : State) : Nat := (2 ^ s.spanBits - 2 ^ 28) / 2 ^ 15

/-- Allotted runs of a region in ascending DPA order, those of partitions still being wiped and of dirty bitmaps (R449) included. -/
def State.regionRuns (s : State) (r : Nat) : List (Nat × Nat) :=
  sortBy (·.1) ((s.part.parts.flatMap (fun e => e.2.runs) ++ s.fail.out.flatMap (·.bitmap)).filter (fun x => s.dpaRegion x.1 == r))

/-- The `need` free stripes of lowest DPA between a cursor and an end, as runs (R339). -/
def takeGaps (endDpa : Nat) : (cursor : Nat) → List (Nat × Nat) → (need : Nat) → List (Nat × Nat)
  | cur, [], need =>
    let n := min need ((endDpa - cur) / 32768)
    if n = 0 then [] else [(cur, n)]
  | cur, (b, k) :: l, need =>
    let n := min need ((b - cur) / 32768)
    (if n = 0 then [] else [(cur, n)]) ++ takeGaps endDpa (b + k * 32768) l (need - n)

/-- Join runs that are consecutive in DPA. -/
def joinRuns : List (Nat × Nat) → List (Nat × Nat)
  | [] => []
  | (b, n) :: l =>
    match joinRuns l with
    | (b', n') :: l' => if b + n * 32768 = b' then (b, n + n') :: l' else (b, n) :: (b', n') :: l'
    | [] => [(b, n)]

/-- The regions named, ascending. -/
def regionsOf (mask : Nat) : List Nat := (List.range 6).filter (fun r => tbit mask r)

/-- The runs of R339 for a mask of regions and a number of stripes. -/
def State.allot (s : State) (mask stripes : Nat) : List (Nat × Nat) :=
  let rs := regionsOf mask
  let n := rs.length
  joinRuns ((List.zip (List.range n) rs).flatMap (fun kr =>
    let need := stripes / n + (if kr.1 < stripes % n then 1 else 0)
    let base := kr.2 * 2 ^ s.spanBits
    takeGaps (base + s.regionStripes * 32768) base (s.regionRuns kr.2) need))

/-- Stripes of a list of runs. -/
def runStripes (l : List (Nat × Nat)) : Nat := sumN (l.map (·.2))

/-- Free stripes of the regions as if every wipe had ended (R338). -/
def State.freeAfterWipe (s : State) (mask stripes : Nat) : Bool :=
  let live := { s with part := { s.part with parts := s.part.parts.filter (fun e => e.2.destroying.isNone) } }
  decide (runStripes (live.allot mask stripes) = stripes)

/-- The allotment sums of R338's OVERCOMMIT row. -/
def State.overcommit (s : State) (q f n w : Nat) : Bool :=
  let sum (g : Partition → Nat) : Nat := sumN (s.part.parts.map (fun e => if e.2.destroying.isNone then g e.2 else 0))
  decide (1048576 < sum (·.queues) + q) || decide (65536 < sum (·.fences) + f) || decide (65536 < sum (·.sessions) + n) ||
  decide (s.sys.capW < sum (·.powerW) + w)

/-- Forget what was written in a carve-out, and clear its pages' bitmap bits (R240, R241, R246). -/
def State.clearRuns (s : State) (runs : List (Nat × Nat)) : State :=
  let inR (a : Nat) : Bool := runs.any (inRun a)
  let d := { s.dram with dram := s.dram.dram.filter (fun c => !inR c.1), written := s.dram.written.filter (fun c => !inR (c.1 * 64)), bitmap := s.dram.bitmap.filter (fun c => !inR (c.1 * 4096)), rows := s.dram.rows.filter (fun r => !inR (r.region * 2 ^ s.spanBits + r.stripe * 32768)) }
  let s1 := { s with dram := d }
  { s1 with dram := { s1.dram with ctrls := Tab.all s1.dram.ctrls (fun _ c => { c with poison := c.poison.filter (fun l => !inR (l * 64)) }) } }

/-- R338's checks in row order, then R340's steps. -/
def partitionCreateBody (r : Nat) (s : State) : MsgRes :=
  let p := fld r 0 5 0
  let regions := fld r 1 5 0
  let stripes := fldB r 4 4
  let q := fldB r 8 4
  let f := fldB r 12 4
  let n := fldB r 16 4
  let w := fldB r 20 2
  let comp := fldB r 22 2
  if p == 0 || 60 < p then refuseM s .badId
  else if (s.part? p).isSome then refuseM s .partitionExists
  else if bodyRsvd r partitionCreateMask then refuseM s .rsvdSet
  else if regions == 0 || stripes == 0 || q == 0 || 1048576 < q || f == 0 || 65536 < f || 65536 < n || w < 20 || 3000 < w ||
      (comp == s.sys.nodeId && comp != 0xFFFF) then refuseM s .badParam
  else if s.overcommit q f n w then refuseM s .overcommit
  else
    let runs := s.allot regions stripes
    if runStripes runs < stripes then (if s.freeAfterWipe regions stripes then busyM s .wipeInProgress else refuseM s .noStripes)
    else if 250 < runs.length then busyM s .fragmented
    else
      let s1 := s.clearRuns runs
      let k := s1.dram.nextKey
      let coded := bit r 2 0
      let x : Partition := { regions := regions, sealedShare := bit r 2 1, coded := coded, stripes := stripes, queues := q, fences := f, sessions := n, powerW := w, companion := comp, runs := runs, epoch := 0, resetGen := 0, blockMap := [], moving := [], chShare := [], portShare := [], unretired := [], destroying := none, initialising := coded, frozen := false, evacuating := false, backlogStop := false, sealedRanges := [] }
      let s2 := s1.setPart p x
      okM { s2 with dram := { s2.dram with keys := Tab.put s2.dram.keys p { k0 := some k, k1 := some (k + 1), cur := 0 }, nextKey := k + 2 } } p

/-- PARTITION_CREATE. -/
def execPartitionCreate (m : MsgRef) (body : BitVec 512) (s : State) : Outc :=
  .next (runMsg s m 3 (fld body.toNat 0 5 0) (partitionCreateBody body.toNat))

/-! ## BLOCK_BIND (R344) -/

/-- R344's conditions on a physical block, in order: absent or quiesced, bound, its release wipe running. -/
def State.blockNotFree (s : State) (b : Nat) : Option Ans :=
  let x := s.block b
  if 60 ≤ b || x.quiesced then some (.refused .unitAbsent 0)
  else if x.bound.isSome || s.part.moves.any (fun v => v.dst == b) then some (.refused .blockNotFree 0)
  else if x.wipe.isSome then some (.busy .wipeInProgress 0)
  else none

/-- R344. -/
def blockBindBody (r : Nat) (s : State) : MsgRes :=
  let p := fldB r 0 1
  let b := fldB r 1 1
  let name := fldB r 2 1
  if bodyRsvd r [(0, 7, 0), (1, 7, 0), (2, 7, 0)] then refuseM s .rsvdSet
  else if !s.livePart p || 59 < name then refuseM s .badId
  else
    match s.blockNotFree b with
    | some a => (s, some a)
    | none =>
      if (s.phys p name).isSome then refuseM s .nameInUse
      else
        let s1 := (s.updPart p (fun x => { x with blockMap := Tab.put x.blockMap name b })).bindPower p b
        let blk := s1.block b
        let s2 := s1.setBlock b { blk with bound := some (p, name), powered := true, plannedMhz := s1.planned p b, mhz := min (s1.planned p b) (s1.ceiling b), cycles := if blk.powered then blk.cycles else 0 }
        okM { s2 with part := { s2.part with blockEpoch := Tab.put s2.part.blockEpoch (p * 64 + b) (s2.epochOf p) } } 0

/-- BLOCK_BIND. -/
def execBlockBind (m : MsgRef) (body : BitVec 64) (s : State) : Outc :=
  .next (runMsg s m 3 (fldB body.toNat 0 1) (blockBindBody body.toNat))

/-! ## Epochs (R346-R348) -/

/-- Epoch a is older than epoch b (R346). -/
def epochOlder (a b : Nat) : Bool :=
  let d := (b % 65536 + 65536 - a % 65536) % 65536
  decide (1 ≤ d) && decide (d ≤ 32767)

/-- A change would leave more than 16 unretired epochs (R348). -/
def State.epochBacklog (s : State) (p : Nat) : Bool :=
  match s.part? p with
  | some x => decide (16 ≤ x.unretired.length)
  | none => false

/-- E advances by 1; the old epoch is unretired until its waybills are gone (R347, R348). -/
def State.advanceEpoch (s : State) (p : Nat) : State :=
  s.updPart p (fun x => { x with epoch := (x.epoch + 1) % 65536, unretired := x.unretired ++ [x.epoch] })

/-- A waybill of the partition carries the epoch: in tile queues, in a start, in a held forward, in a send buffer (R348). -/
def State.epochCount (s : State) (p e : Nat) : Nat :=
  let cnt (l : List Waybill) : Nat := (l.filter (fun w => w.epoch == e)).length
  sumN (s.stn.queues.map (fun x => if x.2.part == p then cnt x.2.hot + cnt x.2.spill + cnt x.2.oldHot else 0)) +
  sumN (s.stn.engines.map (fun x => match x.2.start with
    | some st => if x.2.part == p then cnt (st.inputs.map (·.2)) else 0
    | none => 0)) +
  sumN (s.stn.stations.map (fun x => if x.1 / 65536 == p then cnt (x.2.returned.map (·.wb)) else 0)) +
  sumN (s.stn.held.map (fun h => match h with | .forward p' _ _ w _ => if p' == p then cnt [w] else 0 | _ => 0)) +
  sumN (s.part.qpairs.map (fun x => if x.2.part == p then cnt x.2.buffer else 0))

/-- EPOCH_NOTICE: the device-crier notice reaches a block, and the partition's epoch takes effect there (R347). -/
def execEpochNotice (p block : Nat) (s : State) : Outc :=
  .next (
    if (s.named p block).isSome then
      { s with part := { s.part with blockEpoch := Tab.put s.part.blockEpoch (p * 64 + block) (s.epochOf p) } }
    else s)

/-- A release whose range's last epoch has retired: engines leave their stations, the entry becomes none, and the slices are
wiped; its BTU is emptied before that (R266, R345). -/
def State.releaseBlock (s : State) (x : BlockRel) : State :=
  let es := (s.stn.engines.filter (fun e => engBlock e.1 == some x.phys)).map (·.1)
  let s1 := es.foldl State.delEngine s
  let s2 := { s1 with stn := { s1.stn with stations := Tab.all s1.stn.stations (fun _ t => t.without es.contains) } }
  let s3 := s2.updPart x.part (fun y => { y with blockMap := Tab.del y.blockMap x.name })
  let s4 := { s3 with xlt := { s3.xlt with btus := Tab.del s3.xlt.btus x.phys } }
  s4.updBlock x.phys (fun b => { b with bound := none, wipe := some .release })

/-- EPOCH_RETIRE: the count of the partition's oldest unretired epoch is zero, and it retires; what waited on it goes on
(R345, R348). A release waits until every crier send and caravan write that names its block has completed (R185). -/
def execEpochRetire (p : Nat) (s : State) : Outc :=
  .next (
    match s.part? p with
    | none => s
    | some x =>
      match x.unretired with
      | [] => s
      | w :: l =>
        if s.epochCount p w ≠ 0 ∨ s.part.releases.any (fun r => r.part == p && r.epoch == w && !r.wiping && s.sendNames r.phys) then s
        else
          let s1 := s.setPart p { x with unretired := l }
          let now := s1.part.releases.filter (fun r => r.part == p && r.epoch == w && !r.wiping)
          let s2 := now.foldl State.releaseBlock s1
          { s2 with part := { s2.part with releases := s2.part.releases.map (fun r => if r.part == p && r.epoch == w then { r with wiping := true } else r) } })

/-! ## BLOCK_RELEASE (R345) -/

/-- Named blocks of a fixed unit's parameter record, for a unit of a kind (R192, R203, R210). -/
def Engine.paramBlocks (x : Engine) (kind : Nat) : List Nat :=
  let a (n : Nat) : Nat := Memory.readN x.params n 4 / 2 ^ 19 % 64
  match kind with
    | 4 => [a 8, a 12]
    | 5 => [a 8]
    | 6 => [a 20]
    | _ => []

/-- The named block is in use (R345). -/
def State.blockInUse (s : State) (p name b : Nat) : Bool :=
  s.stn.stations.any (fun x => x.1 / 65536 == p && (x.2.anchor.map (·.1)) == some name) ||
  s.stn.engines.any (fun x => x.2.part == p && (match s.station? p x.2.station with | some t => (x.2.paramBlocks t.kind).contains name | none => false)) ||
  s.svc.stewards.any (fun x => x.1 / 20 == b && x.2.part == p) ||
  s.fab.caravans.any (fun c => c.2.part == p && c.2.members.any (fun v => v.1 == name)) ||
  s.svc.plans.any (fun x => x.1 / 16 == p && (x.2.manifestAddr / 2 ^ 19 % 64 == name || x.2.stewardCell / 20 == b))

/-- Some station would be left with no engine whose serving range is open (R345). -/
def State.lastEngineIn (s : State) (p b : Nat) : Bool :=
  s.stn.stations.any (fun x => x.1 / 65536 == p &&
    x.2.engines.any (fun e => engBlock e == some b) &&
    !x.2.engines.any (fun e => engBlock e != some b && (match s.engine? e with | some y => y.toE.isNone | none => false)))

/-- The named block is being moved (R350). -/
def State.blockMoving (s : State) (p name : Nat) : Bool :=
  match s.part? p with
  | some x => x.moving.contains name
  | none => false

/-- R345. -/
def blockReleaseBody (m : MsgRef) (r : Nat) (s : State) : MsgRes :=
  let p := fldB r 0 1
  let name := fldB r 2 1
  if bodyRsvd r [(0, 7, 0), (2, 7, 0)] then refuseM s .rsvdSet
  else
    match s.phys p name with
    | none => refuseM s .badId
    | some b =>
      if s.blockMoving p name then busyM s .moveInProgress
      else if s.blockInUse p name b || s.part.releases.any (fun x => x.part == p && x.name == name) then refuseM s .inUse
      else if s.lastEngineIn p b then refuseM s .lastEngine
      else if s.epochBacklog p then busyM s .epochBacklog
      else
        let old := s.epochOf p
        let s1 := s.advanceEpoch p
        let eng := Tab.all s1.stn.engines (fun e x => if engBlock e == some b && x.part == p then { x with toE := some old } else x)
        ({ s1 with stn := { s1.stn with engines := eng }, part := { s1.part with releases := s1.part.releases ++ [{ part := p, name := name, phys := b, epoch := old, wiping := false, ref := m }] } }, none)

/-- BLOCK_RELEASE. -/
def execBlockRelease (m : MsgRef) (body : BitVec 64) (s : State) : Outc :=
  .next (runMsg s m 3 (fldB body.toNat 0 1) (blockReleaseBody m body.toNat))

/-- BLOCK_RELEASED: the wipe has ended, and BlockReleased is sent; the block is free (R345). -/
def execBlockReleased (block : Nat) (s : State) : Outc :=
  .next (
    match takeFirst (fun r => r.phys == block && r.wiping) s.part.releases with
    | none => s
    | some (r, l) =>
      if (s.block block).wipe.isSome then s
      else ({ s with part := { s.part with releases := l } }).answerMsg r.ref (.ok 0))

/-! ## Ring space (R56, R71) -/

/-- Two ranges of ring slots overlap. -/
def overlaps (a b : Nat × Nat) : Bool := decide (a.1 < b.1 + b.2) && decide (b.1 < a.1 + a.2)

/-- A place for `n` ring slots among the used ones: any that fits (a free value), else the lowest. Offsets are 64-byte units
from the ring area's start. -/
def placeRing (seed n : Nat) (used : List (Nat × Nat)) : Option Nat :=
  let fits (o : Nat) : Bool := decide (o + n ≤ 16384) && !used.any (overlaps (o, n))
  let c := Config.pick seed % 16384
  if fits c then some c else ((0 :: used.map (fun u => u.1 + u.2)).filter fits).head?

/-- Places for the hot rings of several queues in a physical block's ring area: (queue, offset) pairs and the area's use. -/
def placeRings (s : State) (seed : Nat) : List Nat → List (Nat × Nat) → Option (List (Nat × Nat) × List (Nat × Nat))
  | [], used => some ([], used)
  | q :: l, used =>
    match s.queue? q with
    | none => none
    | some x =>
      match placeRing seed (2 ^ x.hotLog2) used with
      | none => none
      | some o =>
        match placeRings s (seed + 1) l (used ++ [(o, 2 ^ x.hotLog2)]) with
        | none => none
        | some (ps, u) => some ((q, o) :: ps, u)

/-- Line offset of a ring place within its block, as a descriptor's HOT_OFF has it: R70 does not name its origin, and the model counts from
the block's offset 0 (DESIGN CHOICE, log entry 46). -/
def ringLine (o : Nat) : Nat := ringAreaBase / 64 + o

/-! ## STATION_MOVE (R349) -/

/-- A free slot of a dispatcher (R56): the lowest of 64. -/
def Disp.freeSlot (d : Disp) : Option Nat := (List.range 64).find? (fun i => !Tab.has d.slots i)

/-- R349. -/
def stationMoveBody (m : MsgRef) (r : Nat) (s : State) : MsgRes :=
  let p := fldB r 0 1
  let na := fldB r 2 1
  let id := fldB r 4 2
  if bodyRsvd r [(0, 7, 0), (2, 7, 0), (4, 15, 0)] then refuseM s .rsvdSet
  else
    match s.station? p id, s.phys p na with
    | none, _ => refuseM s .badId
    | some t, nb =>
      match t.anchor, nb with
      | none, _ => refuseM s .badId
      | some _, none => refuseM s .badId
      | some (a, _), some b =>
        if ((s.phys p a).map regionOf) != some (regionOf b) then refuseM s .span
        else
          let d := s.disp b
          match d.freeSlot with
          | none => refuseM s .limit
          | some slot =>
            match placeRings s s.free t.inQ d.ringUse with
            | none => refuseM s .noRingSpace
            | some (places, used) =>
              if s.part.stationMoves.any (fun v => v.part == p && v.station == id) || s.blockMoving p a || s.blockMoving p na then
                busyM s .moveInProgress
              else if s.epochBacklog p then busyM s .epochBacklog
              else
                let s1 := (s.setDisp b { d with slots := Tab.put d.slots slot (stnKey p id), ringUse := used }).advanceEpoch p
                let s2 := places.foldl (fun (s : State) (pl : Nat × Nat) =>
                  match s.queue? pl.1 with
                  | some x => s.setQueue pl.1 { x with placed := some (na, ringLine pl.2), oldPlace := x.placed, oldHot := x.hot, hot := [] }
                  | none => s) s1
                ({ s2 with free := s2.free + t.inQ.length, part := { s2.part with stationMoves := s2.part.stationMoves ++ [{ part := p, station := id, newAnchor := na, newSlot := slot, ref := m }] } }, none)

/-- STATION_MOVE. -/
def execStationMove (m : MsgRef) (body : BitVec 64) (s : State) : Outc :=
  .next (runMsg s m 3 (fldB body.toNat 0 1) (stationMoveBody m body.toNat))

/-! ## BLOCK_MOVE: its acceptance and its end (R350) -/

/-- R350, steps 1 and 2: DEST_BLOCK is made ready, E advances, and the entry is marked moving. -/
def blockMoveBody (m : MsgRef) (r : Nat) (s : State) : MsgRes :=
  let p := fldB r 0 1
  let dst := fldB r 1 1
  let name := fldB r 2 1
  if bodyRsvd r [(0, 7, 0), (1, 7, 0), (2, 7, 0)] then refuseM s .rsvdSet
  else if !s.livePart p || 59 < name then refuseM s .badId
  else
    match s.phys p name with
    | none => refuseM s .badId
    | some src =>
      match s.blockNotFree dst with
      | some a => (s, some a)
      | none =>
        if regionOf src != regionOf dst then refuseM s .span
        else if s.blockMoving p name then busyM s .moveInProgress
        else if s.epochBacklog p then busyM s .epochBacklog
        else
          let s1 := (s.updBlock dst (fun b => { b with powered := true, mhz := (s.block src).mhz, plannedMhz := (s.block src).plannedMhz })).advanceEpoch p
          let s2 := s1.updPart p (fun x => { x with moving := x.moving ++ [name] })
          ({ s2 with part := { s2.part with moves := s2.part.moves ++ [{ part := p, name := name, src := src, dst := dst, step := 3, ref := m }] } }, none)

/-- BLOCK_MOVE. -/
def execBlockMove (m : MsgRef) (body : BitVec 64) (s : State) : Outc :=
  .next (runMsg s m 3 (fldB body.toNat 0 1) (blockMoveBody m body.toNat))

/-- BLOCK_MOVED: the source's wipe has ended, and BlockMoved is sent (R350 step 6). -/
def execBlockMoved (src : Nat) (s : State) : Outc :=
  .next (
    match takeFirst (fun v => v.src == src && v.step == 6) s.part.moves with
    | none => s
    | some (v, l) =>
      if (s.block src).wipe.isSome then s
      else ({ s with part := { s.part with moves := l } }).answerMsg v.ref (.ok 0))

/-! ## Shares (R352, R353) -/

/-- The sum of one share over live partitions other than p. -/
def State.shareSum (s : State) (p : Nat) (g : Partition → Tab Nat) (k : Nat) : Nat :=
  sumN (s.part.parts.map (fun e => if e.1 = p then 0 else Tab.getD (g e.2) k 0))

/-- R352: the share is written; it governs, and is answered, from the next regulation window. -/
def channelShareBody (m : MsgRef) (r : Nat) (s : State) : MsgRes :=
  let p := fldB r 0 1
  let g := fldB r 1 1
  let sh := fldB r 2 1
  if bodyRsvd r [(0, 7, 0), (1, 7, 0), (2, 7, 0)] then refuseM s .rsvdSet
  else if !s.livePart p then refuseM s .badId
  else if 11 < g || 64 < sh then refuseM s .badParam
  else if 64 < s.shareSum p (·.chShare) g + sh then refuseM s .overcommit
  else if sh != 0 && (match s.part? p with | some x => x.sealedShare | none => false) &&
      s.part.parts.any (fun e => e.1 != p && e.2.sealedShare && Tab.getD e.2.chShare g 0 != 0) then refuseM s .overcommit
  else
    let s1 := s.updPart p (fun x => { x with chShare := if sh = 0 then Tab.del x.chShare g else Tab.put x.chShare g sh })
    ({ s1 with part := { s1.part with shareRefs := s1.part.shareRefs ++ [m] } }, none)

/-- CHANNEL_SHARE. -/
def execChannelShare (m : MsgRef) (body : BitVec 64) (s : State) : Outc :=
  .next (runMsg s m 3 (fldB body.toNat 0 1) (channelShareBody m body.toNat))

/-- A queue pair or window route of the partition names the port (R353). -/
def State.portNamed (s : State) (p n : Nat) : Bool :=
  s.part.qpairs.any (fun q => q.2.part == p && q.2.port == n) ||
  s.xlt.out.any (fun w => w.1 / 256 == p && w.2.valid && w.2.port == n)

/-- R353. -/
def portShareBody (r : Nat) (s : State) : MsgRes :=
  let p := fldB r 0 1
  let n := fldB r 1 1
  let sh := fldB r 2 1
  if bodyRsvd r [(0, 7, 0), (1, 7, 0), (2, 7, 0)] then refuseM s .rsvdSet
  else if !s.livePart p then refuseM s .badId
  else if 11 < n || 16 < sh then refuseM s .badParam
  else if !s.portPresent n then refuseM s .unitAbsent
  else if 16 < s.shareSum p (·.portShare) n + sh then refuseM s .overcommit
  else if sh == 0 && s.portNamed p n then refuseM s .inUse
  else okM (s.updPart p (fun x => { x with portShare := if sh = 0 then Tab.del x.portShare n else Tab.put x.portShare n sh })) 0

/-- PORT_SHARE. -/
def execPortShare (m : MsgRef) (body : BitVec 64) (s : State) : Outc :=
  .next (runMsg s m 3 (fldB body.toNat 0 1) (portShareBody body.toNat))

/-! ## Queue pairs: open, retarget, close (R354-R357) -/

def queuePairMask : List (Nat × Nat × Nat) :=
  [(0, 29, 0), (4, 7, 7), (4, 3, 0), (5, 7, 0), (6, 15, 0), (8, 5, 0), (10, 15, 0), (12, 19, 0), (16, 24, 0), (20, 31, 0),
    (24, 19, 0), (28, 11, 0), (30, 15, 0), (32, 63, 0)]

/-- R354. -/
def queuePairOpenBody (r : Nat) (s : State) : MsgRes :=
  let p := fld r 0 29 24
  let recv := bit r 4 7
  let port := fld r 4 3 0
  let slots := fldB r 5 1
  let blk := fld r 16 24 19
  let off := fld r 16 18 0
  let bytes := fldB r 20 4
  let share := match s.part? p with | some x => Tab.getD x.portShare port 0 | none => 0
  if !s.livePart p then refuseM s .badId
  else if bodyRsvd r queuePairMask then refuseM s .rsvdSet
  else if reservedPart (fld r 8 5 0) then refuseM s .badId
  else if port ≤ 11 && !s.portPresent port then refuseM s .unitAbsent
  else if 11 < port || slots == 0 || 64 < slots || share == 0 then refuseM s .badParam
  else if recv && (bytes == 0 || bytes % 64 != 0 || !s.tileQ p (fld r 24 19 0) || !s.fenceOf p (fldB r 10 2)) then refuseM s .badParam
  else if (match s.part? p with | some x => x.queues | none => 0) ≤ s.queueCount p then refuseM s .limit
  else if recv && (decide (ringAreaBase < off * 64 + slots * bytes) || (s.phys p blk).isNone) then refuseM s .badRange
  else
    match s.pickQueue with
    | none => refuseM s .limit
    | some q =>
      let x : QPair := { part := p, recv := recv, port := port, slots := slots, peerNode := fldB r 6 2, peerPart := fld r 8 5 0, landingFence := fldB r 10 2, peerQueue := fld r 12 19 0, landingAddr := fldB r 16 4, landingBytes := bytes, localQ := fld r 24 19 0, context := fld r 28 11 0, peerEpoch := s.epochOf p, count := 0, buffer := [], unacked := [], credits := if recv then 0 else slots, oldPeers := [], f0 := fenceValue (s.fenceWord (fldB r 10 2)), returned := 0, retarget := [], closing := none }
      okM (({ s with free := s.free + 1, part := { s.part with qpairs := Tab.put s.part.qpairs q x } } : State).storeDesc q) q

/-- QUEUE_PAIR_OPEN. -/
def execQueuePairOpen (m : MsgRef) (body : BitVec 512) (s : State) : Outc :=
  .next (runMsg s m 3 (fld body.toNat 0 29 24) (queuePairOpenBody body.toNat))

def State.setQpair (s : State) (q : Nat) (x : QPair) : State :=
  { s with part := { s.part with qpairs := Tab.put s.part.qpairs q x } }

/-- R356: E advances, PEER_EPOCH takes the new E, and the old peer keeps the older waybills. -/
def queuePairRetargetBody (m : MsgRef) (r : Nat) (s : State) : MsgRes :=
  let p := fldB r 0 1
  let q := fld r 4 19 0
  if bodyRsvd r [(0, 7, 0), (4, 19, 0), (8, 15, 0), (10, 5, 0), (12, 19, 0)] then refuseM s .rsvdSet
  else if reservedPart (fld r 10 5 0) then refuseM s .badId
  else
    match Tab.find s.part.qpairs q with
    | none => refuseM s .badId
    | some x =>
      if x.part ≠ p ∨ x.recv then refuseM s .badId
      else if s.epochBacklog p then busyM s .epochBacklog
      else
        let s1 := s.advanceEpoch p
        let e := s1.epochOf p
        ((s1.setQpair q { x with oldPeers := x.oldPeers ++ [{ node := x.peerNode, part := x.peerPart, queue := x.peerQueue, credits := x.credits, returned := x.returned, epoch := e }], returned := 0, peerNode := fldB r 8 2, peerPart := fld r 10 5 0, peerQueue := fld r 12 19 0, peerEpoch := e, credits := x.slots, unacked := x.unacked.map (fun u => (u.1, u.2.1, true)), retarget := x.retarget ++ [(m, e)] }).storeDesc q, none)

/-- QUEUE_PAIR_RETARGET. -/
def execQueuePairRetarget (m : MsgRef) (body : BitVec 128) (s : State) : Outc :=
  .next (runMsg s m 3 (fldB body.toNat 0 1) (queuePairRetargetBody m body.toNat))

/-- A waybill older than epoch `e` still waits in the send buffer, or has not been acknowledged (R356). -/
def QPair.owes (x : QPair) (e : Nat) : Bool :=
  x.unacked.any (fun u => u.2.2 && epochOlder u.2.1.epoch e) || x.buffer.any (fun w => epochOlder w.epoch e)

/-- QUEUE_PAIR_RETARGETED: the last waybill older than the oldest retarget's epoch has been acknowledged; that old peer's route and
credits are dropped and the message is answered (R356). -/
def execQueuePairRetargeted (q : Nat) (s : State) : Outc :=
  .next (
    match Tab.find s.part.qpairs q with
    | none => s
    | some x =>
      match x.retarget with
      | [] => s
      | (m, e) :: l =>
        if x.owes e then s
        else (s.setQpair q { x with oldPeers := x.oldPeers.filter (fun o => o.epoch != e), retarget := l }).answerMsg m (.ok 0))

/-- Every landing slot has been released (R357). -/
def QPair.drained (x : QPair) : Bool := decide (x.returned = x.count)

/-- R357. A waybill sent and not yet acknowledged still belongs to the send end, which owes its fence action (R355; log entry 35). -/
def queuePairCloseBody (m : MsgRef) (r : Nat) (s : State) : MsgRes :=
  let p := fldB r 0 1
  let q := fld r 4 19 0
  if bodyRsvd r [(0, 7, 0), (4, 19, 0)] then refuseM s .rsvdSet
  else
    match Tab.find s.part.qpairs q with
    | none => refuseM s .badId
    | some x =>
      if x.part ≠ p then refuseM s .badId
      else if x.recv then
        (if x.drained then okM (({ s with part := { s.part with qpairs := Tab.del s.part.qpairs q } } : State).storeDesc q) 0
         else (s.setQpair q { x with closing := some m }, none))
      else if s.stn.stations.any (fun t => t.2.outQ.contains (some q)) || !x.buffer.isEmpty || !x.unacked.isEmpty then refuseM s .inUse
      else okM (({ s with part := { s.part with qpairs := Tab.del s.part.qpairs q } } : State).storeDesc q) 0

/-- QUEUE_PAIR_CLOSE. -/
def execQueuePairClose (m : MsgRef) (body : BitVec 64) (s : State) : Outc :=
  .next (runMsg s m 3 (fldB body.toNat 0 1) (queuePairCloseBody m body.toNat))

end Sys2Proof.Machine
end

