-- ==== Sys2Proof/Machine/Faults.lean ====
section
/-! DEFINITION. Sys2Proof/Machine/Faults.lean: how a master's start ends as a program fault, and how a violating master is
frozen (R135, R239, R273, R505, R557). -/

namespace Sys2Proof.Machine

/-- Fault codes of PROGRAM_FAULT and STEWARD_FAULT (R557). -/
inductive FaultCode where
  | lmRange | sliceRange | align | badFence | badQueue | badStation | badCell | poison | translation | memberLost
  | linkUnavailable
deriving DecidableEq, Repr

def FaultCode.num : FaultCode → Nat
  | .lmRange => 0x01 | .sliceRange => 0x02 | .align => 0x03 | .badFence => 0x04 | .badQueue => 0x05 | .badStation => 0x06
  | .badCell => 0x07 | .poison => 0x08 | .translation => 0x09 | .memberLost => 0x0A | .linkUnavailable => 0x0B

/-- DATA of PROGRAM_FAULT and STEWARD_FAULT: index, code, address (R557). -/
def faultData (index code addr : Nat) : Nat := plcB 0 2 index ||| plcB 2 2 code ||| plcB 4 8 addr

/-- A run-time fault ends the engine's start: PROGRAM_FAULT is raised, and the commit will forward the input with ABANDONED
(R135). -/
def State.programFault (s : State) (e : Nat) (c : FaultCode) (index addr : Nat) : State :=
  match s.engine? e with
  | none => s
  | some x =>
    match x.start with
    | none => s
    | some st =>
      let ctx := match st.inputs with | i :: _ => i.2.context | [] => 0
      (s.setEngine e { x with start := some { st with ended := true, faulted := true, emits := [] } }).event 0x0004 x.part ctx
        true (engSource e) x.station (faultData index c.num addr)

/-- The kind and number of the master an engine is (R492, R505). -/
def masterOf (e : Nat) : MasterKind × Nat :=
  match engClass e with
  | 1 => (.cell, engNum e)
  | 2 => (.carrier, engNum e)
  | _ => (.unit, e)

def MasterKind.num : MasterKind → Nat
  | .cell => 0 | .carrier => 1 | .unit => 2 | .port => 3

/-- The master is frozen (R505). -/
def State.isFrozen (s : State) (k : MasterKind) (n : Nat) : Bool := s.sys.frozen.any (fun f => f.kind == k && f.num == n)

/-- The engine is a frozen master. -/
def State.engFrozen (s : State) (e : Nat) : Bool := s.isFrozen (masterOf e).1 (masterOf e).2

/-- Freeze a violating master: MASTER_FROZEN goes to its partition and to the operator (R505). -/
def State.freezeMaster (s : State) (k : MasterKind) (n code p addr : Nat) : State :=
  if s.isFrozen k n then s
  else
    let d := plcB 0 2 code ||| plcB 2 2 k.num ||| plcB 4 4 n ||| plcB 8 8 addr
    let f : Frozen := { kind := k, num := n, code := code, part := p, addr := addr }
    let s1 : State := { s with sys := { s.sys with frozen := s.sys.frozen ++ [f] } }
    ((s1.event 0x0012 p 0 false 0 0xFFFF d).opEvent 0x0012 p 0 d).logFault 0x0012 p n d

/-- Freeze the master an engine is. -/
def State.freezeEngine (s : State) (e code addr : Nat) : State :=
  match s.engine? e with
  | some x => s.freezeMaster (masterOf e).1 (masterOf e).2 code x.part addr
  | none => s.freezeMaster (masterOf e).1 (masterOf e).2 code 0 addr

/-- Violation codes (R505). -/
def violOutOfCarve : Nat := 1
def violSealed : Nat := 2
def violWinPart : Nat := 3
def violWinSealed : Nat := 4
def violUnbound : Nat := 5
def violDpa : Nat := 6

/-- A translation failure of an engine's access (R273, R274): a violation freezes it, a fault ends its start with
TRANSLATION_FAULT. -/
def State.xlateFault (s : State) (e p ctx va : Nat) (c : XCode) : State :=
  match c with
  | .outOfCarveout => s.freezeEngine e violOutOfCarve va
  | .sealedWrite => s.freezeEngine e violSealed va
  | .windowPartition => s.freezeEngine e violWinPart va
  | .windowSealed => s.freezeEngine e violWinSealed va
  | _ =>
    let gen := match s.ctx? p ctx with | some k => k.tableGen | none => 0
    let stn := match s.engine? e with | some x => x.station | none => 0xFFFF
    (s.event 0x0009 p ctx true (engSource e) stn (plcB 0 8 va ||| plcB 8 1 c.num ||| plcB 12 4 gen)).programFault e .translation 0xFFFF va

end Sys2Proof.Machine
end

