-- ==== Sys2Proof/Machine/Cells.lean ====
section
/-! DEFINITION. Sys2Proof/Machine/Cells.lean: what the three kinds of cell share: their lookups, slice accesses as claims
(06_slice_memory R160-R163), the emit of a waybill (R48, R76, R97, R132) and the scoreboard (R123, R144). -/

namespace Sys2Proof.Machine

/-! ## Cells by global number (R33): logical cells 0-11 are M-cells, 12-17 V-cells, 18-19 S-cells -/

def State.mcell (s : State) (c : Nat) : MCell := Tab.getD s.cell.m c {}
def State.vcell (s : State) (c : Nat) : VCell := Tab.getD s.cell.v c {}
def State.scell (s : State) (c : Nat) : SCell := Tab.getD s.cell.s c {}
def State.setM (s : State) (c : Nat) (x : MCell) : State := { s with cell := { s.cell with m := Tab.put s.cell.m c x } }
def State.setV (s : State) (c : Nat) (x : VCell) : State := { s with cell := { s.cell with v := Tab.put s.cell.v c x } }
def State.setS (s : State) (c : Nat) (x : SCell) : State := { s with cell := { s.cell with s := Tab.put s.cell.s c x } }

/-- The kind of a cell: 1 M, 2 V, 3 S (R33). -/
def cellKind (c : Nat) : Nat := if c % 20 < 12 then 1 else if c % 20 < 18 then 2 else 3

/-- The block's cells run: no block reset, and no wipe (R428). -/
def State.blockRuns (s : State) (b : Nat) : Bool := !(s.block b).resetting && (s.block b).wipe.isNone

/-- A cell or unit that hung, or whose store failed, does nothing more until the reset it waits for (R430, R436). -/
def State.hung (s : State) (e : Nat) : Bool :=
  s.fail.captures.any (fun c => match c.next with | .engine e' => e' == e | .retire n _ => cellId n == e | _ => false)

/-- The start a cell runs: none once its program has ended, while the cell is frozen or hung, or while its block is stopped. -/
def State.running (s : State) (e b : Nat) : Option (Engine × Start) :=
  match s.engine? e with
  | none => none
  | some x =>
    match x.start with
    | none => none
    | some st => if st.ended || s.engFrozen e || s.hung e || !s.blockRuns b then none else some (x, st)

/-- The input waybill of a start (input 0's of a ZIP set). -/
def Start.wb (st : Start) : Waybill := match st.inputs with | i :: _ => i.2 | [] => {}

/-- The start's program has reached its END. -/
def State.endStart (s : State) (e : Nat) : State :=
  match s.engine? e with
  | some x => (match x.start with | some st => s.setEngine e { x with start := some { st with ended := true } } | none => s)
  | none => s

/-! ## Tables of words whose unlisted entries are zero -/

/-- Put a word into a table in which an unlisted word reads 0. -/
def put0 (t : Sys2Proof.Tab Nat) (k v : Nat) : Sys2Proof.Tab Nat := if v = 0 then Tab.del t k else Tab.put t k v

def get0 (t : Sys2Proof.Tab Nat) (k : Nat) : Nat := Tab.getD t k 0

/-! ## Slice addresses and accesses -/

/-- The lines of slice memory: the key of a byte is physical block * 2^25 + offset. -/
def sliceKey (b off : Nat) : Nat := b * 2 ^ 25 + off

/-- The rank of an access at a bank (R162): a requester of the bank's own block, or the spine port. -/
def cellRank (c block : Nat) : Nat := if c / 20 = block then c % 20 + 1 else 22

/-- The partition's accesses of an issuer still out. -/
def State.accessesOf (s : State) (w : Requester) : List (Nat × Access) := s.fab.accesses.filter (fun x => x.2.who == w)

/-- Slice stores and atomics of a cell not yet complete. -/
def State.storesOut (s : State) (c : Nat) : Nat := ((s.accessesOf (.cell c)).filter (fun x => x.2.store)).length
def State.accessesOut (s : State) (c : Nat) : Nat := (s.accessesOf (.cell c)).length

/-- Begin an access: its line claims wait at their banks (R163); those of another block leave as request flits of class P1 for its spine
port (R171, R172), and claim its banks at rank 22 when they arrive. An access with no line completes at once, which its issuer sees
to. -/
def State.addAccess (s : State) (a : Access) (claims : List (Nat × Nat × Nat × LineOp)) : State :=
  let n := s.fab.nextAccess
  let cs := claims.map (fun (x : Nat × Nat × Nat × LineOp) => ({ access := n, block := x.1, line := x.2.1, rank := x.2.2.1, op := x.2.2.2 } : Claim))
  let s1 := { s with fab := { s.fab with nextAccess := n + 1, accesses := Tab.put s.fab.accesses n { a with left := cs.length }, claims := s.fab.claims ++ cs.filter (fun c => c.rank != 22) } }
  (cs.filter (fun c => c.rank == 22)).foldl (fun (s : State) c => s.post (.claim c) .request c.cls a.who.home (blockEnd c.block)) s1

/-- A cell's access to a block that is not bound to its partition: a claim that freezes it (R505). -/
def State.addViolation (s : State) (c p va : Nat) : State :=
  s.addAccess { who := .cell c, part := p, dest := .none, got := [], left := 1, lost := 0, store := true } [(c / 20, 0, 0, .violation va)]

/-- The lines that hold the `n` bytes from a key, ascending. -/
def linesOf (key n : Nat) : List Nat := (List.range ((key + n + 63) / 64 - key / 64)).map (· + key / 64)

/-- Read claims of a cell for the lines given by their keys / 64. -/
def readClaims (c : Nat) (lines : List Nat) : List (Nat × Nat × Nat × LineOp) :=
  lines.map (fun l => (l / 2 ^ 19, l % 2 ^ 19, cellRank c (l / 2 ^ 19), LineOp.read))

/-- Values by key, gathered by line in the order the lines are first met: block, line, rank there, and what is done to the line. -/
def lineClaims {α : Type} (rank : Nat → Nat) (op : List (Nat × α) → LineOp) (l : List (Nat × α)) : List (Nat × Nat × Nat × LineOp) :=
  (dedupN (l.map (fun x => x.1 / 64))).map (fun n =>
    (n / 2 ^ 19, n % 2 ^ 19, rank (n / 2 ^ 19), op ((l.filter (fun x => x.1 / 64 == n)).map (fun x => (x.1 % 64, x.2)))))

/-- Write claims of a cell. -/
def writeClaims (c : Nat) (bytes : List (Nat × BitVec 8)) : List (Nat × Nat × Nat × LineOp) := lineClaims (cellRank c) LineOp.write bytes

/-- The rank of a requester's claims at a block's banks (R162): units and ports come through the spine port. -/
def Requester.rankAt : Requester → Nat → Nat
  | .cell c, b => cellRank c b
  | .carrier c, b => if b = c / 4 then 24 + c % 4 else 22
  | .crierTap _, _ => 23
  | .ringPort, _ => 21
  | _, _ => 22

/-- A requester reads lines whose data its step takes at once: the claims take their bank cycles (log entry 21). -/
def State.readLines (s : State) (w : Requester) (p : Nat) (lines : List Nat) : State :=
  if lines.isEmpty then s
  else s.addAccess { who := w, part := p, dest := .none, got := [], left := 0, lost := 0, store := false }
    (lines.map (fun l => (l / 2 ^ 19, l % 2 ^ 19, w.rankAt (l / 2 ^ 19), LineOp.read)))

/-- A requester writes bytes, given by key. -/
def State.writeBytes (s : State) (w : Requester) (p : Nat) (bytes : List (Nat × BitVec 8)) : State :=
  if bytes.isEmpty then s
  else s.addAccess { who := w, part := p, dest := .none, got := [], left := 0, lost := 0, store := true } (lineClaims w.rankAt LineOp.write bytes)

/-- A requester adds words, given by key, to slices by line atomics of one kind (R167, R205). -/
def State.addWords (s : State) (w : Requester) (p sub : Nat) (words : List (Nat × Nat)) : State :=
  if words.isEmpty then s
  else s.addAccess { who := w, part := p, dest := .none, got := [], left := 0, lost := 0, store := true } (lineClaims w.rankAt (LineOp.adds sub) words)

/-- CLK_BLK cycles of a block at `mhz` that `n` cycles of CLK_SPN (1,250 MHz, R21) last, up to the next edge (R30). -/
def spnCycles (n mhz : Nat) : Nat := cdiv (n * mhz) 1250

/-- The same of CLK_HUB (1,600 MHz, R21). -/
def hubCycles (n mhz : Nat) : Nat := cdiv (n * mhz) 1600

/-- What the path adds to a load of a line of another block, or to a store (R101), in cycles of the cell's block at `mhz`. -/
def pathAdd (own other mhz : Nat) (store : Bool) : Nat :=
  if other = own then 0
  else
    let spn := if regionOf other = regionOf own then 11 else 49
    if store then 7 + spnCycles spn mhz else 14 + spnCycles (2 * spn) mhz

/-- The additions of R101 for the lines of an access of cell c, in line order. -/
def State.pathAdds (s : State) (c : Nat) (lines : List Nat) (store : Bool) : List Nat :=
  lines.map (fun l => pathAdd (c / 20) (l / 2 ^ 19) (s.block (c / 20)).mhz store)

/-! ## The emitted waybill (R46, R48, R76, R97, R132) -/

/-- The code of an emit that is dropped: the lowest among the conditions it meets, EMIT_LIMIT for a seventeenth emit included (R76). -/
def State.emitBad (s : State) (p : Nat) (st : Start) (w : Waybill) : Option Code :=
  match w.malformed s p with
  | some c => if 16 ≤ st.emits.length ∧ Code.emitLimit.reject < c.reject then some .emitLimit else some c
  | none => if 16 ≤ st.emits.length then some .emitLimit else none

/-- Add a waybill to a start's commit, or drop it with its reject code (R76, R132). -/
def State.addEmit (s : State) (e : Nat) (x : Engine) (st : Start) (w0 : Waybill) : State × Option Code :=
  let w := w0.normalise
  match s.emitBad x.part st w with
  | some c => (s, some c)
  | none => (s.setEngine e { x with start := some { st with emits := st.emits ++ [w] } }, none)

/-- A waybill built from a record's RW fields (R132): RO fields are discarded, the context follows R48, and the fence fields
are zero unless KEEPF. -/
def recordWaybill (l : List (BitVec 8)) (context : Nat) (keepF : Bool) : Waybill :=
  let w := Waybill.ofNat (ofBytes l)
  let w1 := { w with resetGen := 0, station := 0, queue := 0, epoch := 0, srcStation := 0xFFFF, rejectCode := 0, context := context }
  if keepF then w1 else { w1 with fenceId := 0, fenceOp := 0, fenceDelta := 0 }

/-! ## Scoreboard (R123, R144) -/

/-- When a register code is usable. -/
def Board.at' (b : Board) (r : Nat) : Nat := get0 b.usable r

/-- The issue cycle of an instruction that reads and writes the given registers and whose unit is free from `unit` (R123). -/
def Board.issue (b : Board) (regs : List Nat) (unit : Nat) : Nat := (regs.map b.at').foldl max (max b.next unit)

/-- The cycle from which fewer than four earlier slice accesses wait to begin (R123), or fewer than four operations are
outstanding (R144). -/
def Board.gate (b : Board) : Nat := if b.four.length < 4 then 0 else b.four.getLastD 0

/-- Note one more such cycle; the four latest are kept. -/
def Board.note (b : Board) (d : Nat) : Board := { b with four := (b.four.filter (d ≤ ·) ++ [d] ++ b.four.filter (· < d)).take 4 }

/-- The cycle after every store to one of the lines has completed (R123). -/
def Board.clear (b : Board) (lines : List Nat) : Nat := ((b.stores.filter (fun x => lines.contains x.1)).map (·.2 + 1)).foldl max 0

/-- The board after an instruction issued at `t` that makes each register of `rds` usable at its cycle; `gap` is 1, or 2 after
a taken branch. -/
def Board.done (b : Board) (t gap : Nat) (rds : List (Nat × Nat)) : Board :=
  { b with next := t + gap, usable := rds.foldl (fun u x => put0 u x.1 x.2) b.usable }

end Sys2Proof.Machine
end

