-- ==== Sys2Proof/Machine/Fp.lean ====
section
/-! DEFINITION. Sys2Proof/Machine/Fp.lean: the number formats of R41, exact values and their rounding (R83, R84, R106, R126,
R167). A finite value is sign, magnitude m and exponent e, standing for m * 2^e. -/

namespace Sys2Proof.Machine

/-- A value as the arithmetic sees it. -/
inductive Num where
  | nan
  | inf (neg : Bool)
  | fin (neg : Bool) (m : Nat) (e : Int)
deriving DecidableEq, Repr

/-- A binary format: exponent bits, fraction bits, bias; its top codes: 0 infinities and NaNs as IEEE 754, 1 one NaN per sign
and no infinity (E4M3), 2 neither (FP6, FP4). -/
structure Fmt where
  eb : Nat
  mb : Nat
  bias : Nat
  tops : Nat
deriving DecidableEq, Repr

def fp32 : Fmt := { eb := 8, mb := 23, bias := 127, tops := 0 }
def bf16 : Fmt := { eb := 8, mb := 7, bias := 127, tops := 0 }
def fp16 : Fmt := { eb := 5, mb := 10, bias := 15, tops := 0 }
def e5m2 : Fmt := { eb := 5, mb := 2, bias := 15, tops := 0 }
def e4m3 : Fmt := { eb := 4, mb := 3, bias := 7, tops := 1 }
def e2m3 : Fmt := { eb := 2, mb := 3, bias := 1, tops := 2 }
def e3m2 : Fmt := { eb := 3, mb := 2, bias := 3, tops := 2 }
def e2m1 : Fmt := { eb := 2, mb := 1, bias := 1, tops := 2 }

/-- The floating format of a FORMAT code (R41); none for an integer format. -/
def fmtOf (f : Nat) : Option Fmt :=
  match f with
  | 0x00 => some e2m1 | 0x01 => some e2m3 | 0x02 => some e3m2 | 0x03 => some e4m3 | 0x04 => some e5m2
  | 0x07 => some bf16 | 0x08 => some fp16 | 0x09 => some fp32 | _ => none

def Fmt.bits (f : Fmt) : Nat := 1 + f.eb + f.mb

/-- The largest finite magnitude's code. -/
def Fmt.maxCode (f : Fmt) : Nat :=
  if f.tops = 0 then (2 ^ f.eb - 1) * 2 ^ f.mb - 1 else if f.tops = 1 then 2 ^ (f.eb + f.mb) - 2 else 2 ^ (f.eb + f.mb) - 1

/-- The value a code stands for; subnormals at their value (R83). -/
def Fmt.decode (f : Fmt) (x : Nat) : Num :=
  let neg := tbit x (f.eb + f.mb)
  let mag := x % 2 ^ (f.eb + f.mb)
  if f.maxCode < mag then
    (if f.tops = 0 ∧ mag = (2 ^ f.eb - 1) * 2 ^ f.mb then .inf neg else .nan)
  else
    let ex := mag / 2 ^ f.mb
    let fr := mag % 2 ^ f.mb
    if ex = 0 then .fin neg fr (1 - (f.bias : Int) - f.mb) else .fin neg (fr + 2 ^ f.mb) ((ex : Int) - f.bias - f.mb)

/-- `m * 2^-k` to an integer, round to nearest even. -/
def rneShift (m k : Nat) : Nat :=
  let q := m / 2 ^ k
  let r := m % 2 ^ k
  if 2 * r > 2 ^ k ∨ (2 * r = 2 ^ k ∧ q % 2 = 1) then q + 1 else q

/-- `a / b` to an integer, round to nearest even. -/
def rneDiv (a b : Nat) : Nat :=
  let q := a / b
  let r := a % b
  if 2 * r > b ∨ (2 * r = b ∧ q % 2 = 1) then q + 1 else q

/-- The magnitude code of m * 2^e rounded to nearest even, before any overflow is applied. -/
def Fmt.roundMag (f : Fmt) (m : Nat) (e : Int) : Nat :=
  if m = 0 then 0
  else
    let lo : Int := 1 - (f.bias : Int) - f.mb
    let q : Int := max (e + (Nat.log2 m : Int) - f.mb) lo
    let sig := if q ≤ e then m * 2 ^ (e - q).toNat else rneShift m (q - e).toNat
    (q - lo).toNat * 2 ^ f.mb + sig

/-- The canonical NaN of a format (R126); for E4M3 its one NaN. -/
def Fmt.nan (f : Fmt) : Nat :=
  if f.tops = 0 then (2 ^ f.eb - 1) * 2 ^ f.mb + 2 ^ (f.mb - 1) else if f.tops = 1 then 2 ^ (f.eb + f.mb) - 1 else f.maxCode

/-- The sign bit of a code. -/
def Fmt.signed (f : Fmt) (neg : Bool) (mag : Nat) : Nat := if neg then 2 ^ (f.eb + f.mb) + mag else mag

/-- The infinity of a format with infinities. -/
def Fmt.infCode (f : Fmt) (neg : Bool) : Nat := f.signed neg ((2 ^ f.eb - 1) * 2 ^ f.mb)

/-- The exponent conditions met by a rounding (R133). -/
structure FpFlags where
  invalid : Bool := false
  divzero : Bool := false
  overflow : Bool := false
  underflow : Bool := false
deriving DecidableEq, Repr

def FpFlags.join (a b : FpFlags) : FpFlags :=
  { invalid := a.invalid || b.invalid, divzero := a.divzero || b.divzero, overflow := a.overflow || b.overflow, underflow := a.underflow || b.underflow }

/-- A value rounded once to a format with infinities (R126): overflow gives infinity. -/
def Fmt.round (f : Fmt) (x : Num) : Nat × FpFlags :=
  match x with
  | .nan => (f.nan, {})
  | .inf n => (f.infCode n, {})
  | .fin n m e =>
    let c := f.roundMag m e
    if f.maxCode < c then (f.infCode n, { overflow := true })
    else (f.signed n c, { underflow := decide (c ≠ 0) && decide (c < 2 ^ f.mb) })

/-- A value in a format that holds it, as its code (no flags). -/
def Fmt.code (f : Fmt) (x : Num) : Nat := (f.round x).1

/-- The store conversion of R106: value to a format. -/
def Fmt.store (f : Fmt) (x : Num) : Nat :=
  match x with
  | .nan => f.nan
  | .inf n => if f.tops = 0 then f.infCode n else f.signed n f.maxCode
  | .fin n m e =>
    let c := f.roundMag m e
    if c ≤ f.maxCode then f.signed n c
    else if f = e5m2 then f.signed n f.maxCode
    else if f.tops = 0 then f.infCode n
    else f.signed n f.maxCode

/-- The flags of a store conversion (R106, R133): a saturated or infinite result of a finite element, a subnormal result. -/
def Fmt.storeFlags (f : Fmt) (x : Num) : FpFlags :=
  match x with
  | .fin _ m e =>
    let c := f.roundMag m e
    { overflow := decide (f.maxCode < c), underflow := decide (c ≠ 0) && decide (c < 2 ^ f.mb) }
  | _ => {}

/-- The sign of a value; a NaN has none. -/
def Num.isNan : Num → Bool | .nan => true | _ => false
def Num.isInf : Num → Bool | .inf _ => true | _ => false
def Num.isZero : Num → Bool | .fin _ m _ => m == 0 | _ => false
def Num.neg? : Num → Bool | .inf n => n | .fin n _ _ => n | .nan => false

def Num.negate : Num → Num
  | .nan => .nan
  | .inf n => .inf (!n)
  | .fin n m e => .fin (!n) m e

def Num.abs : Num → Num
  | .nan => .nan
  | .inf _ => .inf false
  | .fin _ m e => .fin false m e

/-- The signed magnitude. -/
def sInt (n : Bool) (m : Nat) : Int := if n then -(m : Int) else m

/-- Exact product (R83: infinity times zero is NaN). -/
def Num.mul (x y : Num) : Num :=
  match x, y with
  | .nan, _ => .nan
  | _, .nan => .nan
  | .inf a, .inf b => .inf (a != b)
  | .inf a, .fin b m _ => if m = 0 then .nan else .inf (a != b)
  | .fin a m _, .inf b => if m = 0 then .nan else .inf (a != b)
  | .fin a m e, .fin b k g => .fin (a != b) (m * k) (e + g)

/-- Exact sum, with IEEE 754's sign of an exact zero under round-to-nearest. -/
def Num.add (x y : Num) : Num :=
  match x, y with
  | .nan, _ => .nan
  | _, .nan => .nan
  | .inf a, .inf b => if a = b then .inf a else .nan
  | .inf a, .fin _ _ _ => .inf a
  | .fin _ _ _, .inf b => .inf b
  | .fin a m e, .fin b k g =>
    let q := min e g
    let v := sInt a (m * 2 ^ (e - q).toNat) + sInt b (k * 2 ^ (g - q).toNat)
    if v = 0 then .fin (a && b) 0 q else .fin (decide (v < 0)) v.natAbs q

/-- Two operands make an invalid operation when they make a NaN from no NaN (R133). -/
def invalidFrom (r : Num) (xs : List Num) : Bool := r.isNan && !xs.any Num.isNan

/-- The value scaled by a power of two. -/
def Num.scale (x : Num) (k : Int) : Num :=
  match x with
  | .fin n m e => .fin n m (e + k)
  | y => y

/-- Numeric comparison: -1, 0 or 1 for numbers; none when either is NaN. Both zeros are equal. -/
def Num.cmp (x y : Num) : Option Int :=
  match x, y with
  | .nan, _ => none
  | _, .nan => none
  | .inf a, .inf b => some (if a = b then 0 else if a then -1 else 1)
  | .inf a, .fin _ _ _ => some (if a then -1 else 1)
  | .fin _ _ _, .inf b => some (if b then 1 else -1)
  | .fin a m e, .fin b k g =>
    let q := min e g
    let u := sInt a (m * 2 ^ (e - q).toNat)
    let v := sInt b (k * 2 ^ (g - q).toNat)
    some (if u < v then -1 else if u = v then 0 else 1)

/-- The order of VMIN, VMAX, VRMIN and VRMAX on numbers: as `cmp`, with −0 below +0 (R126). -/
def Num.below (x y : Num) : Bool :=
  match x.cmp y with
  | some c => if c = 0 then x.isZero && x.neg? && !y.neg? else decide (c < 0)
  | none => false

def Num.min (x y : Num) : Num := if x.isNan || y.isNan then .nan else if y.below x then y else x
def Num.max (x y : Num) : Num := if x.isNan || y.isNan then .nan else if x.below y then y else x

/-- A number to the nearest integer, ties to even. -/
def Num.toInt (n : Bool) (m : Nat) (e : Int) : Int :=
  sInt n (if 0 ≤ e then m * 2 ^ e.toNat else rneShift m (-e).toNat)

/-- An integer as a value. -/
def Num.ofInt (i : Int) : Num := .fin (decide (i < 0)) i.natAbs 0

/-! ## Binary32 and BF16 operations on codes (R126, R167) -/

/-- A two-operand operation on codes of a format: exact, then rounded once, with its flags. -/
def Fmt.op2 (f : Fmt) (g : Num → Num → Num) (a b : Nat) : Nat × FpFlags :=
  let x := f.decode a
  let y := f.decode b
  let r := g x y
  let c := f.round r
  (c.1, c.2.join { invalid := invalidFrom r [x, y], overflow := r.isInf && !x.isInf && !y.isInf })

def Fmt.add (f : Fmt) (a b : Nat) : Nat × FpFlags := f.op2 Num.add a b
def Fmt.sub (f : Fmt) (a b : Nat) : Nat × FpFlags := f.op2 (fun x y => x.add y.negate) a b
def Fmt.mul (f : Fmt) (a b : Nat) : Nat × FpFlags := f.op2 Num.mul a b

/-- a * b + c with one rounding. -/
def Fmt.fma (f : Fmt) (a b c : Nat) : Nat × FpFlags :=
  let x := f.decode a
  let y := f.decode b
  let z := f.decode c
  let p := x.mul y
  let r := p.add z
  let k := f.round r
  (k.1, k.2.join { invalid := invalidFrom r [x, y, z] })

/-- A BF16 pair handled element by element: low half, then high half (R115). -/
def pairOp (g : Nat → Nat → Nat × FpFlags) (a b : Nat) : Nat × FpFlags :=
  let l := g (a % 65536) (b % 65536)
  let h := g (a / 65536 % 65536) (b / 65536 % 65536)
  (l.1 + h.1 * 65536, l.2.join h.2)

/-- The 32-bit and pair sums a bank atomic performs (R167): sub-operations 0 to 5 give the new word. -/
def atomicNew (sub old operand : Nat) : Nat :=
  match sub with
  | 0 => (old + operand) % 2 ^ 32
  | 1 => (old + operand) % 2 ^ 64
  | 2 => operand % 2 ^ 32
  | 3 => operand % 2 ^ 64
  | 4 => (fp32.add old operand).1
  | _ => (pairOp bf16.add old operand).1

/-- Bytes of the word a bank atomic works on. -/
def atomicBytes (sub : Nat) : Nat := if sub = 1 ∨ sub = 3 then 8 else 4

end Sys2Proof.Machine
end

