-- ==== Sys2Proof/Machine/MCells.lean ====
section
/-! DEFINITION. Sys2Proof/Machine/MCells.lean: matrix cells: descriptors, loads, the array, stores and emits
(03_matrix_cells R78-R113). Operations begin in program order, one descriptor per command. -/

namespace Sys2Proof.Machine

/-! ## Descriptors (R93, R95) -/

/-- An operation descriptor as written (R93), a 256-bit little-endian record. -/
structure MDesc where
  op : Nat
  acc : Nat
  accum : Bool
  ahalf : Nat
  wbrel : Bool
  fmtA : Nat
  sparsity : Nat
  zmap : Bool
  fmtB : Nat
  scaleA : Bool
  scaleB : Bool
  empty : Bool
  k : Nat
  rows : Nat
  addr : Nat
  addr2 : Nat
  addr3 : Nat
  pitch : Nat
  bOff : Nat
  metaOff : Nat
  sstride : Nat
  bscaleOff : Nat
  arg : Nat
deriving DecidableEq, Repr

def mDesc (r : Nat) : MDesc :=
  { op := fldB r 0 1, acc := fld r 1 7 4, accum := bit r 1 3, ahalf := fld r 1 2 1, wbrel := bit r 1 0, fmtA := fld r 2 7 3,
    sparsity := fld r 2 2 1, zmap := bit r 2 0, fmtB := fld r 3 7 3, scaleA := bit r 3 2, scaleB := bit r 3 1, empty := bit r 3 0,
    k := fld r 4 12 0, rows := fld r 6 12 0, addr := fldB r 8 4, addr2 := fldB r 12 4, addr3 := fldB r 16 4, pitch := fldB r 20 2,
    bOff := fld r 22 10 0, metaOff := fld r 24 10 0, sstride := fld r 26 15 9, bscaleOff := fld r 26 8 0, arg := fldB r 28 4 }

/-- Named block and byte offset of an absolute address field. -/
def mBlock (a : Nat) : Nat := a / 2 ^ 19 % 64
def mOff (a : Nat) : Nat := a % 2 ^ 19 * 64

/-- The descriptor of pass p of a REPEAT (R95). The rule bounds neither the B_OFF of a pass, which the model takes as
it stands, beyond the 128 KiB of the B buffer too, nor ROW0, which wraps at 2^16: DESIGN CHOICE (log entry 17). -/
def MDesc.pass (d : MDesc) (r : MRep) : MDesc :=
  let ad := if d.wbrel then d.addr / 65536 * 65536 + (d.addr % 65536 + r.pass * r.addrStep) % 65536
    else d.addr / 2 ^ 19 * 2 ^ 19 + (d.addr % 2 ^ 19 + r.pass * r.addrStep) % 2 ^ 19
  { d with addr := ad, bOff := d.bOff + r.pass * r.bStep, acc := (d.acc + r.pass * r.accStep) % 16 }

/-- The descriptor the sequencer issues next. -/
def MCell.next (m : MCell) : MDesc :=
  let d := mDesc (Memory.readN m.store (32 * m.pc) 32)
  match m.rep with
  | some r => d.pass r
  | none => d

/-- The sequencer after the descriptor at pc (R91, R95). -/
def MCell.advance (m : MCell) : MCell :=
  match m.rep with
  | none => { m with pc := m.pc + 1 }
  | some r =>
    if m.pc + 1 = r.first + r.span then
      (if r.pass + 1 < r.count then { m with pc := r.first, rep := some { r with pass := r.pass + 1 } }
       else { m with pc := m.pc + 1, rep := none })
    else { m with pc := m.pc + 1 }

/-! ## Counts (R91, R92, R99, R104, R105) -/

/-- The issue cycle: one descriptor per CLK_BLK, and none while the unit's queue of 4 is full (R91). -/
def MCell.issueAt (m : MCell) (unit : Nat) : Nat :=
  match (m.ops.filter (fun o => o.unit == unit))[3]? with
  | some o => max m.issue o.began
  | none => m.issue

/-- The cycle after every earlier operation that meets a test completes (R92). -/
def MCell.after (m : MCell) (f : MOp → Bool) : Nat := maxN ((m.ops.filter f).map (fun o => o.done + 1))

/-- Count of a load of L lines (R99). -/
def loadCount (lines : Nat) : Nat := cdiv lines 4 + 12

/-- Count of an ACCST of W lines of its own block (R105). -/
def storeCount (lines : Nat) : Nat := cdiv lines 2 + 8

/-- The middle term M of R103. -/
def arrayTerm (p keff num den : Nat) : Nat := p * cdiv (keff * den) num + 2 * (p - 1)

/-- The end of the cycle in which the n-th line of a load that begins in cycle d is present, `add` later than in the own block (R99,
R101). -/
def lineAt (d n add : Nat) : Nat := d + 1 + n / 4 + 11 + add

/-- The counts of a load that begins in cycle d, whose lines come later by `adds` (R99, R101). -/
def loadOp (d : Nat) (adds : List Nat) (tile half : Option Nat) (isB : Bool) : MOp :=
  let l := (List.zip (List.range adds.length) adds).map (fun x => lineAt d x.1 x.2)
  { unit := 0, began := d, done := max (d + loadCount adds.length - 1) (maxN l), first := l.headD (d + 12), last := max (d + cdiv adds.length 4 + 11) (maxN l), tile := tile, half := half, isB := isB }

/-- A load begins and completes (R91, R92, R99, R101). -/
def MCell.noteLoad (m : MCell) (adds : List Nat) (tile half : Option Nat) (isB : Bool) (waits : MOp → Bool) : MCell :=
  let i := m.issueAt 0
  let d := max i (max (m.after (fun o => o.unit == 0)) (m.after waits))
  { m with issue := i + 1, ops := loadOp d adds tile half isB :: m.ops }

/-- An array operation begins and completes (R104). -/
def MCell.noteArray (m : MCell) (mid tile half : Nat) : MCell :=
  let i := m.issueAt 1
  let waits (o : MOp) : Bool := (o.unit == 0 && o.isB) || (o.unit != 1 && o.tile == some tile)
  let d := max i (m.after waits)
  let prev := maxN ((m.ops.filter (fun o => o.unit == 1)).map (fun o => o.done - 6 + 5))
  let reads (o : MOp) : Bool := o.unit == 0 && (match o.half with | some h => h == half || h == 2 || half == 2 | none => false)
  let loads := m.ops.filter reads
  let f := max (max (d + 10) prev) (maxN (loads.map (fun o => o.first + 1)))
  let last := max (f + mid - 1) (maxN (loads.map (fun o => o.last + 1)))
  let fin := if mid = 0 then f + 5 else last + 6
  let o : MOp := { unit := 1, began := d, done := fin, first := 0, last := 0, tile := some tile, half := some half, isB := false }
  { m with issue := i + 1, ops := o :: m.ops }

/-- A store-unit operation of `count` cycles on a tile (R105). -/
def MCell.noteStore (m : MCell) (count tile : Nat) : MCell :=
  let i := m.issueAt 2
  let d := max i (max (m.after (fun o => o.unit == 2)) (m.after (fun o => o.tile == some tile)))
  let o : MOp := { unit := 2, began := d, done := d + count - 1, first := 0, last := 0, tile := some tile, half := none, isB := false }
  { m with issue := i + 1, ops := o :: m.ops }

/-- A sequencer descriptor takes only its issue slot (R105); SYNC also waits for every earlier operation (R92). -/
def MCell.noteSeq (m : MCell) (sync : Bool) : MCell :=
  { m with issue := (if sync then max m.issue (m.after (fun _ => true)) else m.issue) + 1 }

/-! ## Loads (R90, R96, R99, R100) -/

/-- Element bytes of a packed row rounded up to 64 (R90). -/
def elemPitch (f k : Nat) : Nat := roundUp (packedRow f k) 64

/-- Pitch of scales in the stores (R90). -/
def sidePitch (k : Nat) : Nat := roundUp (cdiv k 32) 16

/-- Stored elements of a row of dense K under a sparsity (R87). -/
def storedK (sp k : Nat) : Nat := if sp = 1 then k / 2 else if sp = 2 then k / 4 else k

/-- Base bytes of a half in the A buffer, of its scales and of its bitmap in the side store. -/
def halfBase (h : Nat) : Nat := if h = 1 then 32768 else 0
def halfScale (h : Nat) : Nat := 65536 + (if h = 1 then 2048 else 0)
def halfMap (h : Nat) : Nat := 69632 + (if h = 1 then 16 else 0)

/-- A resolved source: where a structure of an operand lies, or a block that is not bound. -/
inductive Where where
  | at' (key : Nat)
  | unbound
deriving DecidableEq, Repr

def State.whereAbs (s : State) (p addr : Nat) : Where :=
  match s.phys p (mBlock addr) with
  | some b => .at' (sliceKey b (mOff addr))
  | none => .unbound

def State.whereBlk (s : State) (p blk off : Nat) : Where :=
  match s.phys p blk with
  | some b => .at' (sliceKey b (off * 64))
  | none => .unbound

/-- An array to load, with its place; none when it needs no line. -/
abbrev MPart := Where × MArr

/-- The element array of a load: `cols` of the format `f` per row, from the input tile under WBREL or from ADDR. -/
def State.elemPart (s : State) (p : Nat) (w : Waybill) (d : MDesc) (f cols dst fullRows : Nat) : MPart :=
  let bits := elemBits f
  let width := cols * bits
  if d.wbrel then
    let row0 := d.addr % 65536
    let col0 := d.addr / 65536
    if w.kind ≠ 0 then (.at' 0, { addr := 0, pitch := 0, bit0 := 0, bits := 0, width := width, rowsF := 0, rows := fullRows, dst := dst, dstPitch := elemPitch f cols })
    else (s.whereBlk p w.tileBlock w.tileOff, { addr := row0 * w.rowPitch, pitch := w.rowPitch, bit0 := col0 * bits, bits := min cols (w.cols - col0) * bits, width := width, rowsF := min d.rows (w.rows - row0), rows := fullRows, dst := dst, dstPitch := elemPitch f cols })
  else (s.whereAbs p d.addr, { addr := 0, pitch := d.pitch, bit0 := 0, bits := width, width := width, rowsF := d.rows, rows := d.rows, dst := dst, dstPitch := elemPitch f cols })

/-- The scale array of a load, one byte per 32 elements (R44, R88). Under WBREL a waybill without scales gives zero scales and no line, and
COL0 counts down to a whole group of 32: DESIGN CHOICE (log entry 17). -/
def State.scalePart (s : State) (p : Nat) (w : Waybill) (d : MDesc) (cols dst fullRows : Nat) : MPart :=
  let n := cdiv cols 32
  if d.wbrel then
    let row0 := d.addr % 65536
    let c0 := d.addr / 65536 / 32
    if w.kind ≠ 0 ∨ !w.scales then (.at' 0, { addr := 0, pitch := 0, bit0 := 0, bits := 0, width := n * 8, rowsF := 0, rows := fullRows, dst := dst, dstPitch := sidePitch cols })
    else (s.whereBlk p w.scaleBlock w.scaleOff, { addr := row0 * scalePitch w.cols, pitch := scalePitch w.cols, bit0 := c0 * 8, bits := min n (w.cols / 32 - c0) * 8, width := n * 8, rowsF := min d.rows (w.rows - row0), rows := fullRows, dst := dst, dstPitch := sidePitch cols })
  else (s.whereAbs p d.addr2, { addr := 0, pitch := sidePitch cols, bit0 := 0, bits := n * 8, width := n * 8, rowsF := d.rows, rows := d.rows, dst := dst, dstPitch := sidePitch cols })

/-- The zero-group bitmap of an A load: one row for the rows it loads (R89). Under WBREL a waybill without a bitmap gives a zero row and no
line, and ROW0 and COL0 count down to a whole group of 64 rows and 16 columns: DESIGN CHOICE (log entry 17). No row of the bitmap lies
beyond the tile's (R96). -/
def State.mapPart (s : State) (p : Nat) (w : Waybill) (d : MDesc) (dst : Nat) : MPart :=
  let n := cdiv d.k 16
  if d.wbrel then
    let row0 := d.addr % 65536
    let g0 := d.addr / 65536 / 16
    if w.kind ≠ 0 ∨ !w.zmap then (.at' 0, { addr := 0, pitch := 0, bit0 := 0, bits := 0, width := n, rowsF := 0, rows := 1, dst := dst, dstPitch := 16 })
    else (s.whereBlk p w.metaBlock w.metaOff, { addr := row0 / 64 * zmapPitch w.cols, pitch := zmapPitch w.cols, bit0 := g0, bits := min n (cdiv w.cols 16 - g0), width := n, rowsF := if row0 < w.rows then 1 else 0, rows := 1, dst := dst, dstPitch := 16 })
  else (s.whereAbs p d.addr3, { addr := 0, pitch := zmapPitch d.k, bit0 := 0, bits := n, width := n, rowsF := 1, rows := 1, dst := dst, dstPitch := 16 })

/-- The position metadata of a B load (R87). Under WBREL a waybill without sparsity gives zero metadata and no line: DESIGN CHOICE (log
entry 17). -/
def State.metaPart (s : State) (p : Nat) (w : Waybill) (d : MDesc) (cols dst : Nat) : MPart :=
  let width := cols * 2
  let pit := roundUp (cdiv cols 4) 16
  if d.wbrel then
    let row0 := d.addr % 65536
    let c0 := d.addr / 65536
    if w.kind ≠ 0 ∨ w.sparsity = 0 then (.at' 0, { addr := 0, pitch := 0, bit0 := 0, bits := 0, width := width, rowsF := 0, rows := d.rows, dst := dst, dstPitch := pit })
    else (s.whereBlk p w.metaBlock w.metaOff, { addr := row0 * metaPitch w.cols, pitch := metaPitch w.cols, bit0 := c0 * 2, bits := min cols (w.cols - c0) * 2, width := width, rowsF := min d.rows (w.rows - row0), rows := d.rows, dst := dst, dstPitch := pit })
  else (s.whereAbs p d.addr3, { addr := 0, pitch := pit, bit0 := 0, bits := width, width := width, rowsF := d.rows, rows := d.rows, dst := dst, dstPitch := pit })

/-- The array at its place. -/
def MPart.arr (x : MPart) : MArr := match x.1 with | .at' k => { x.2 with addr := x.2.addr + k } | .unbound => x.2

/-- The array fetches at least one byte. -/
def MArr.fetches (a : MArr) : Bool := decide (0 < a.bits) && decide (0 < a.rowsF)

/-- The part names a block that is not bound, and would be fetched. -/
def MPart.bad (x : MPart) : Bool := x.1 == Where.unbound && x.2.fetches

/-- Lines of row r of an array. -/
def MArr.rowLines (a : MArr) (r : Nat) : List Nat :=
  if a.bits = 0 then [] else linesOf (a.addr + r * a.pitch + a.bit0 / 8) (cdiv (a.bit0 % 8 + a.bits) 8)

/-- Lines of an array in row order. -/
def MArr.lines (a : MArr) : List Nat := (List.range a.rowsF).flatMap a.rowLines

/-- Line of chunk c of row r, when the row has that chunk. -/
def MArr.chunk (a : MArr) (c r : Nat) : List Nat := match (a.rowLines r)[c]? with | some l => [l] | none => []

/-- The distinct lines of a load in read order (R99): bitmap or metadata lines, then chunk by chunk each row's line, each row's
scale lines just before its first chunk. -/
def MLoad.lines (l : MLoad) : List Nat :=
  let aux := match l.aux with | some a => a.lines | none => []
  let chunks := maxN ((List.range l.elems.rowsF).map (fun r => (l.elems.rowLines r).length))
  let body := (List.range chunks).flatMap (fun c => (List.range l.elems.rowsF).flatMap (fun r =>
    (if c = 0 then (match l.scales with | some a => if r < a.rowsF then a.rowLines r else [] | none => []) else []) ++ l.elems.chunk c r))
  dedupN (aux ++ body)

/-- Bits of row r of an array, zero outside what it fetches, as a number. -/
def MArr.rowValue (a : MArr) (got : Sys2Proof.Mem) (r : Nat) : Nat :=
  if a.rowsF ≤ r ∨ a.bits = 0 then 0
  else
    let key := a.addr + r * a.pitch + a.bit0 / 8
    Memory.readN got key (cdiv (a.bit0 % 8 + a.bits) 8) / 2 ^ (a.bit0 % 8) % 2 ^ a.bits

/-- The bytes an array writes into a store: destination byte and value. -/
def MArr.bytes (a : MArr) (got : Sys2Proof.Mem) : List (Nat × BitVec 8) :=
  (List.range a.rows).flatMap (fun r =>
    let l := bytesOf (cdiv a.width 8) (a.rowValue got r)
    List.zip ((List.range l.length).map (fun i => a.dst + r * a.dstPitch + i)) l)

/-- A completed load writes its stores (R78, R90, R111). -/
def MCell.fill (m : MCell) (l : MLoad) (got : Sys2Proof.Mem) : MCell :=
  match l.tile with
  | some t =>
    let ws := (List.range 4096).map (fun i => (t * 4096 + i, Memory.readN got (l.elems.addr + i / 64 * l.elems.pitch + i % 64 * 4) 4))
    { m with acc := ws.foldl (fun (a : Sys2Proof.Tab Nat) x => put0 a x.1 x.2) m.acc, intTiles := if l.int then (if m.intTiles.contains t then m.intTiles else m.intTiles ++ [t]) else m.intTiles.filter (· != t) }
  | none =>
    let opt (a : Option MArr) : List (Nat × BitVec 8) := match a with | some y => y.bytes got | none => []
    match l.half with
    | some _ =>
      { m with aBuf := (l.elems.bytes got ++ opt l.scales ++ opt l.aux).foldl (fun (t : Sys2Proof.Tab (BitVec 8)) x => Tab.put t x.1 x.2) m.aBuf }
    | none =>
      let put (t : Sys2Proof.Mem) (xs : List (Nat × BitVec 8)) : Sys2Proof.Mem := xs.foldl (fun (u : Sys2Proof.Mem) x => Memory.write u x.1 x.2) t
      { m with bBuf := put m.bBuf (l.elems.bytes got ++ opt l.aux), bScale := put m.bScale (opt l.scales) }

/-- Begin a load: its access, or its completion at once when it fetches no line. -/
def State.beginLoad (s : State) (c p : Nat) (m : MCell) (l : MLoad) : State :=
  let ls := l.lines
  if ls.isEmpty then s.setM c (m.fill l [])
  else (s.setM c m).addAccess { who := .cell c, part := p, dest := .mload l, got := [], left := 0, lost := 0, store := false } (readClaims c ls)

/-- An LDA (R94) as a load; `fullRows` rows of the half are written. -/
def State.ldaParts (s : State) (p : Nat) (w : Waybill) (d : MDesc) (fullRows : Nat) : MPart × Option MPart × Option MPart :=
  (s.elemPart p w d d.fmtA d.k (halfBase d.ahalf) fullRows,
    if d.scaleA then some (s.scalePart p w d d.k (halfScale d.ahalf) fullRows) else none,
    if d.zmap then some (s.mapPart p w d (halfMap d.ahalf)) else none)

/-- A load's parts name only bound blocks. -/
def partsBad (x : MPart × Option MPart × Option MPart) : Bool :=
  x.1.bad || (match x.2.1 with | some y => y.bad | none => false) || (match x.2.2 with | some y => y.bad | none => false)

def loadOf (half tile : Option Nat) (int : Bool) (x : MPart × Option MPart × Option MPart) : MLoad :=
  { half := half, tile := tile, int := int, elems := x.1.arr, scales := x.2.1.map MPart.arr, aux := x.2.2.map MPart.arr }

/-! ## Issuing (R91) -/

/-- What an M-cell step runs on: engine, start, cell and the descriptor the sequencer issues next. -/
structure MEnv where
  e : Nat
  x : Engine
  st : Start
  m : MCell
  d : MDesc
deriving DecidableEq, Repr

/-- The outstanding accesses of the cell whose data or bytes a test selects. -/
def State.mOut (s : State) (c : Nat) (f : Dest → Bool) : Bool := (s.accessesOf (.cell c)).any (fun a => f a.2.dest)

def isLoad : Dest → Bool | .mload _ => true | _ => false
def isStore : Dest → Bool | .mstore _ => true | _ => false
def tileOf : Dest → Option Nat | .mload l => l.tile | .mstore t => some t | _ => none

/-- The M-cell runs a start, and its next descriptor has this operation; an earlier operation it depends on has completed
(R91, R92: `waits` names the outstanding ones it waits for). -/
def State.mReady (s : State) (c op : Nat) (waits : MDesc → Dest → Bool) : Option MEnv :=
  if cellKind c ≠ 1 then none
  else
    match s.running (cellId c) (c / 20) with
    | none => none
    | some (x, st) =>
      let m := s.mcell c
      let d := m.next
      if d.op = op ∧ s.mOut c (waits d) = false then some { e := cellId c, x := x, st := st, m := m, d := d } else none

/-- M_LDA: load an A operand (R94, R96, R99). -/
def execMLda (c : Nat) (s : State) : Outc :=
  .next (
    match s.mReady c 0x01 (fun _ t => isLoad t) with
    | none => s
    | some v =>
      let ps := s.ldaParts v.x.part v.st.wb v.d v.d.rows
      if partsBad ps then s.addViolation c v.x.part v.d.addr
      else
        let l := loadOf (some v.d.ahalf) none false ps
        let waits (o : MOp) : Bool := o.unit == 1 && (o.half == some v.d.ahalf || o.half == some 2 || v.d.ahalf == 2)
        s.beginLoad c v.x.part (v.m.noteLoad (s.pathAdds c l.lines false) none (some v.d.ahalf) false waits).advance l)

/-- M_LDB: load a B operand with its metadata and scales (R87, R88, R94). -/
def execMLdb (c : Nat) (s : State) : Outc :=
  .next (
    match s.mReady c 0x02 (fun _ t => isLoad t) with
    | none => s
    | some v =>
      let n := storedK v.d.sparsity v.d.k
      let ps := (s.elemPart v.x.part v.st.wb v.d v.d.fmtB n (v.d.bOff * 64) v.d.rows,
        if v.d.scaleB then some (s.scalePart v.x.part v.st.wb v.d n (v.d.bscaleOff * 16) v.d.rows) else none,
        if v.d.sparsity = 0 then none else some (s.metaPart v.x.part v.st.wb v.d n (v.d.metaOff * 64)))
      if partsBad ps then s.addViolation c v.x.part v.d.addr
      else
        let l := loadOf none none false ps
        s.beginLoad c v.x.part (v.m.noteLoad (s.pathAdds c l.lines false) none none true (fun o => o.unit == 1)).advance l)

/-- M_ACCLD: load a 64 x 64 tile into the accumulator (R94, R99). -/
def execMAccld (c : Nat) (s : State) : Outc :=
  .next (
    match s.mReady c 0x07 (fun d t => isLoad t || tileOf t == some d.acc) with
    | none => s
    | some v =>
      let a : MArr := { addr := 0, pitch := v.d.pitch, bit0 := 0, bits := 2048, width := 2048, rowsF := 64, rows := 64, dst := 0, dstPitch := 256 }
      let ps : MPart × Option MPart × Option MPart := ((s.whereAbs v.x.part v.d.addr, a), none, none)
      if partsBad ps then s.addViolation c v.x.part v.d.addr
      else
        let l := loadOf none (some v.d.acc) (v.d.fmtA == 0x0A) ps
        let waits (o : MOp) : Bool := o.tile == some v.d.acc
        s.beginLoad c v.x.part (v.m.noteLoad (s.pathAdds c l.lines false) (some v.d.acc) none false waits).advance l)

/-! ## The array (R82-R90, R102-R104, R108-R112) -/

/-- Byte of the A buffer or side store: what the start wrote, else a free value (R80). -/
def MCell.aByte (m : MCell) (i : Nat) : BitVec 8 := (Tab.find m.aBuf i).getD (Config.freeByte (m.seed * 131072 + i))

/-- `n` bytes of the A stores as a number. -/
def MCell.aBytes (m : MCell) (i : Nat) : Nat → Nat
  | 0 => 0
  | n + 1 => (m.aByte i).toNat + 256 * MCell.aBytes m (i + 1) n

/-- Element k of a packed row whose byte string starts where `get` reads it: `get byte n` gives n bytes as a number. -/
def packedElem (get : Nat → Nat → Nat) (base f k : Nat) : Nat :=
  let b := k * elemBits f
  get (base + b / 8) (cdiv (b % 8 + elemBits f) 8) / 2 ^ (b % 8) % 2 ^ elemBits f

/-- An element's value: INT8 and UINT8 as integers (R82, R83). -/
def elemNum (f x : Nat) : Num :=
  if f = 0x05 then Num.ofInt (sgn 8 x) else if f = 0x06 then Num.ofInt (x : Nat) else match fmtOf f with | some g => g.decode x | none => .nan

/-- An E8M0 scale applied to an element: 2^(s - 127), and 0xFF makes it NaN (R83). -/
def scaled (x : Num) (sc : Nat) : Num := if sc = 0xFF then .nan else x.scale ((sc : Int) - 127)

/-- A operand element (i, k). -/
def MCell.aElem (m : MCell) (d : MDesc) (i k : Nat) : Num :=
  let x := elemNum d.fmtA (packedElem m.aBytes (halfBase d.ahalf + i * elemPitch d.fmtA d.k) d.fmtA k)
  if d.scaleA then scaled x (m.aByte (halfScale d.ahalf + i * sidePitch d.k + k / 32)).toNat else x

/-- Zero-group g is skipped (R89). -/
def MCell.skipped (m : MCell) (d : MDesc) (g : Nat) : Bool := d.zmap && tbit (m.aByte (halfMap d.ahalf + g / 8)).toNat (g % 8)

/-- Where one selected B operand lies: elements and metadata in the B buffer, scales in the scale store (R90, R108). -/
structure BPlace where
  el : Nat
  md : Nat
  sc : Nat
deriving DecidableEq, Repr

def MDesc.bPlace (d : MDesc) (sel : Option Nat) : BPlace :=
  match sel with
  | none => { el := d.bOff * 64, md := d.metaOff * 64, sc := d.bscaleOff * 16 }
  | some s =>
    let st := d.arg / 65536 % 2048
    { el := (d.bOff + s * st) * 64, md := (d.metaOff + s * st) * 64, sc := d.bscaleOff * 16 + s * d.sstride * 64 }

/-- Stored element i of B row n, with its scale. -/
def MCell.bElem (m : MCell) (d : MDesc) (pl : BPlace) (n i : Nat) : Num :=
  let cols := storedK d.sparsity d.k
  let x := elemNum d.fmtB (packedElem (Memory.readN m.bBuf) (pl.el + n * elemPitch d.fmtB cols) d.fmtB i)
  if d.scaleB then scaled x (Memory.read m.bScale (pl.sc + n * sidePitch cols + i / 32)).toNat else x

/-- Dense k of stored element i of B row n (R87). -/
def MCell.bDense (m : MCell) (d : MDesc) (pl : BPlace) (n i : Nat) : Nat :=
  if d.sparsity = 0 then i
  else
    let cols := storedK d.sparsity d.k
    let pit := roundUp (cdiv cols 4) 16
    let p := (Memory.read m.bBuf (pl.md + n * pit + i / 4)).toNat / 4 ^ (i % 4) % 4
    if d.sparsity = 1 then 4 * (i / 2) + p else 4 * i + p

/-- Stored elements of the 16 dense columns of group g. -/
def MDesc.groupElems (d : MDesc) (g : Nat) : List Nat :=
  let per := if d.sparsity = 1 then 8 else if d.sparsity = 2 then 4 else 16
  (List.range per).map (· + g * per) |>.filter (fun i => decide (i < storedK d.sparsity d.k))

/-- The exact sum of a group's products for output element (i, n) (R84, R86). -/
def MCell.groupSum (m : MCell) (d : MDesc) (pl : BPlace) (i n g : Nat) : Num :=
  (d.groupElems g).foldl (fun (a : Num) j => a.add ((m.aElem d i (m.bDense d pl n j)).mul (m.bElem d pl n j))) (.fin false 0 0)

/-- Groups the operation does not skip (R103). -/
def MCell.groups (m : MCell) (d : MDesc) : List Nat := (List.range (cdiv d.k 16)).filter (fun g => !m.skipped d g)

/-- The pair accumulates in INT32 (R82). -/
def MDesc.intAcc (d : MDesc) : Bool := (d.fmtA == 5 || d.fmtA == 6) && !d.scaleA && !d.scaleB

/-- The FP32 sum of the group sums onto a prior value, in an order that is free (R84, R85): each group sum is rounded once, and
each addition is rounded. -/
def accumulate (order c : Nat) (sums : List Num) : Nat :=
  let r := (List.zip (List.range sums.length) sums)
  (sortBy (fun x => Config.mmaOrder order x.1) r).foldl (fun a x => (fp32.add a (fp32.code x.2)).1) c

/-- The integer value of an exact sum. -/
def numInt : Num → Int
  | .fin n m e => Num.toInt n m e
  | _ => 0

/-- The value an accumulator element takes (R84, R111): `prior` is the tile's word, zero when the tile is of another type. -/
def MCell.outElem (m : MCell) (d : MDesc) (pl : BPlace) (order prior i n : Nat) : Nat :=
  let sums := (m.groups d).map (m.groupSum d pl i n)
  if d.intAcc then wrapI 32 (sgn 32 (if d.accum then prior else 0) + (sums.map numInt).foldl (· + ·) 0)
  else accumulate order (if d.accum then prior else 0) sums

/-- The tile's words as the operation reads them: a tile of the other type counts as zero (R111). -/
def MCell.prior (m : MCell) (d : MDesc) (i n : Nat) : Nat :=
  if m.intTiles.contains d.acc = d.intAcc then get0 m.acc (d.acc * 4096 + i * 64 + n) else 0

/-- The accumulator after an array operation; `sel` names each row group's operand, none for a masked group. -/
def MCell.array (m : MCell) (d : MDesc) (order : Nat) (sel : Nat → Option BPlace) : MCell :=
  let ws := (List.range 4096).map (fun j =>
    let i := j / 64
    let n := j % 64
    match sel (i / 16) with
    | some pl => (d.acc * 4096 + j, m.outElem d pl (order * 4096 + j) (m.prior d i n) i n)
    | none => (d.acc * 4096 + j, get0 m.acc (d.acc * 4096 + j)))
  { m with acc := ws.foldl (fun (a : Sys2Proof.Tab Nat) x => put0 a x.1 x.2) m.acc, intTiles := if d.intAcc then (if m.intTiles.contains d.acc then m.intTiles else m.intTiles ++ [d.acc]) else m.intTiles.filter (· != d.acc) }

/-- Rate class (R82) and sparsity give the rate in k-steps per CLK_BLK (R102), as a fraction. -/
def MDesc.rate (d : MDesc) : Nat × Nat :=
  let narrow := decide (d.fmtA ≤ 2) && decide (d.fmtB ≤ 2)
  let wide := d.fmtA == 7 || d.fmtA == 8
  let num := (if narrow then 2 else 1) * (if d.sparsity = 1 then 2 else if d.sparsity = 2 then 4 else 1)
  (num, if wide then 4 else 1)

/-- K_eff (R103). -/
def MCell.keff (m : MCell) (d : MDesc) : Nat := 16 * (m.groups d).length

/-- The distinct operands that MMAEG's selectors name (R108). -/
def MDesc.selected (d : MDesc) : List Nat := dedupN (((List.range 4).map (fun j => d.arg / 16 ^ j % 16)).filter (· != 15))

/-- Banks a byte range of a store touches, for bank size `bs`. -/
def banksOf (bs lo n : Nat) : List Nat := if n = 0 then [] else (List.range 4).filter (fun b => decide (b * bs < lo + n) && decide (lo < (b + 1) * bs))

/-- The eight banks an operand touches: 0-3 B buffer, 4-7 scale store (R109). -/
def MDesc.touches (d : MDesc) (pl : BPlace) : List Nat :=
  let cols := storedK d.sparsity d.k
  dedupN (banksOf 32768 pl.el (64 * elemPitch d.fmtB cols) ++
    (if d.sparsity = 0 then [] else banksOf 32768 pl.md (64 * roundUp (cdiv cols 4) 16)) ++
    (if d.scaleB then (banksOf 2048 pl.sc (64 * sidePitch cols)).map (· + 4) else []))

/-- P of R109. -/
def MDesc.passes (d : MDesc) : Nat :=
  maxN ((List.range 8).map (fun b => (d.selected.filter (fun s => (d.touches (d.bPlace (some s))).contains b)).length))

/-- What an array operation waits for (R92): loads of B or of its half, and operations on its tile. -/
def arrayWaits (d : MDesc) (t : Dest) : Bool :=
  match t with
  | .mload l => (match l.half with | some h => h == d.ahalf || h == 2 || d.ahalf == 2 | none => l.tile.isNone || l.tile == some d.acc)
  | .mstore t => t == d.acc
  | _ => false

/-- M_MMA: one 64 x 64 output tile (R84, R86, R103, R104). -/
def execMMma (c : Nat) (s : State) : Outc :=
  .next (
    match s.mReady c 0x03 arrayWaits with
    | none => s
    | some v =>
      let m1 := v.m.array v.d s.free (fun _ => some (v.d.bPlace none))
      let mid := arrayTerm 1 (v.m.keff v.d) v.d.rate.1 v.d.rate.2
      { s with free := s.free + 1 }.setM c (m1.noteArray mid v.d.acc v.d.ahalf).advance)

/-- M_MMAEG: the expert-grouped operation over four row groups (R108-R110). -/
def execMMmaeg (c : Nat) (s : State) : Outc :=
  .next (
    match s.mReady c 0x04 arrayWaits with
    | none => s
    | some v =>
      let sel (j : Nat) : Option BPlace := let x := v.d.arg / 16 ^ j % 16; if x = 15 then none else some (v.d.bPlace (some x))
      let m1 := v.m.array v.d s.free sel
      let mid := arrayTerm v.d.passes (v.m.keff v.d) v.d.rate.1 v.d.rate.2
      { s with free := s.free + 1 }.setM c (m1.noteArray mid v.d.acc v.d.ahalf).advance)

/-! ## Store and clear (R105-R107, R111) -/

/-- M_ACCZ: the tile is FP32 zero (R111). -/
def execMAccz (c : Nat) (s : State) : Outc :=
  .next (
    match s.mReady c 0x05 (fun d t => isStore t || tileOf t == some d.acc) with
    | none => s
    | some v =>
      let m1 := { v.m with acc := v.m.acc.filter (fun x => x.1 / 4096 != v.d.acc), intTiles := v.m.intTiles.filter (· != v.d.acc) }
      s.setM c (m1.noteStore 2 v.d.acc).advance)

/-- The value of accumulator element (i, j) of the tile. -/
def MCell.accNum (m : MCell) (t i j : Nat) : Num :=
  let w := get0 m.acc (t * 4096 + i * 64 + j)
  if m.intTiles.contains t then Num.ofInt (sgn 32 w) else fp32.decode w

/-- e_max of a scaled format (R107). -/
def eMax (f : Nat) : Int := match f with | 0x03 => 8 | 0x04 => 15 | 0x01 => 2 | 0x02 => 4 | _ => 2

/-- Floor of log2 of a non-zero magnitude. -/
def floorLog2 (m : Nat) (e : Int) : Int := (Nat.log2 m : Int) + e

/-- The E8M0 scale of a block of values (R106, R107). -/
def blockScale (f : Nat) (xs : List Num) : Nat :=
  if xs.any Num.isNan then 0xFF
  else if xs.any Num.isInf then 254
  else
    match xs.filterMap (fun x => match x with | .fin _ m e => if m = 0 then none else some (floorLog2 m e) | _ => none) with
    | [] => 127
    | l :: ls => (max (-127) (min 127 (ls.foldl max l - eMax f)) + 127).toNat

/-- The stored code of an element under a scale X: the value divided by 2^(X − 127), converted (R106, R107). -/
def storeCode (f : Nat) (x : Num) (sc : Option Nat) : Nat :=
  match fmtOf f with
  | none => 0
  | some g =>
    match sc with
    | none => g.store x
    | some k => g.store (x.scale (127 - (k : Int)))

/-- ACCST generates scales: for FP8, FP6 and FP4 targets with SCALE_A (R107). -/
def MDesc.genScales (d : MDesc) : Bool := d.scaleA && decide (d.fmtA ≤ 4)

/-- The words of an accumulator tile go to the target as they are: INT32, and FP32 of an FP32 tile, whose NaNs are kept (R106). -/
def MCell.keepsWords (m : MCell) (d : MDesc) : Bool := d.fmtA == 0x0A || (d.fmtA == 0x09 && !m.intTiles.contains d.acc)

/-- ACCST's element codes of a row, with the scales of its 32-column blocks. -/
def MCell.rowCodes (m : MCell) (d : MDesc) (i : Nat) : List Nat × List Nat :=
  if m.keepsWords d then ((List.range d.k).map (fun j => get0 m.acc (d.acc * 4096 + i * 64 + j)), [])
  else
    let xs := (List.range d.k).map (m.accNum d.acc i)
    let scs := if d.genScales then (List.range (cdiv d.k 32)).map (fun b => blockScale d.fmtA ((xs.drop (32 * b)).take 32)) else []
    ((List.zip (List.range d.k) xs).map (fun x => storeCode d.fmtA x.2 (if d.genScales then some (scs.getD (x.1 / 32) 127) else none)), scs)

/-- Codes packed into bytes, element 0 in the low bits (R40). -/
def packRow (f : Nat) (l : List Nat) : List (BitVec 8) :=
  bytesOf (packedRow f l.length) (l.foldr (fun x a => x + a * 2 ^ elemBits f) 0)

/-- A stored code is a zero of its format. -/
def zeroCode (f x : Nat) : Bool := if f = 0x0A then x == 0 else x % 2 ^ (elemBits f - 1) == 0

/-- The generated bitmap row: bit g is 1 when the 16 columns of group g are zero in every stored row (R107). -/
def genMap (f rows k : Nat) (codes : Nat → List Nat) : Nat :=
  ((List.range (cdiv k 16)).filter (fun g =>
    (List.range rows).all (fun r => (((codes r).drop (16 * g)).take 16).all (zeroCode f)))).foldl (fun a g => a + 2 ^ g) 0

/-- Everything an ACCST writes, by key (R105-R107): elements, scales, bitmap. -/
def MCell.storeBytes (m : MCell) (d : MDesc) (el sc mp : Nat) : List (Nat × BitVec 8) :=
  let rows := (List.range d.rows).map (m.rowCodes d)
  let els := (List.zip (List.range d.rows) rows).flatMap (fun x => keyed (el + x.1 * d.pitch) (packRow d.fmtA x.2.1))
  let scs := (List.zip (List.range d.rows) rows).flatMap (fun x => keyed (sc + x.1 * sidePitch d.k) (x.2.2.map (BitVec.ofNat 8)))
  let zm := if d.zmap then keyed mp (bytesOf (cdiv (cdiv d.k 16) 8) (genMap d.fmtA d.rows d.k (fun r => (rows.getD r ([], [])).1))) else []
  els ++ scs ++ zm

/-- A NaN stored in a format without one sets ACC_NAN (R106). -/
def MCell.nanStored (m : MCell) (d : MDesc) : Bool :=
  decide (d.fmtA ≤ 2) && (List.range d.rows).any (fun i => (List.range d.k).any (fun j => (m.accNum d.acc i j).isNan))

/-- M_ACCST: convert and store rows 0 to ROWS − 1, columns 0 to K − 1 (R105-R107). -/
def execMAccst (c : Nat) (s : State) : Outc :=
  .next (
    match s.mReady c 0x06 (fun d t => isStore t || tileOf t == some d.acc) with
    | none => s
    | some v =>
      let w (need : Bool) (a : Nat) : Where := if need then s.whereAbs v.x.part a else .at' 0
      match w true v.d.addr, w v.d.scaleA v.d.addr2, w v.d.zmap v.d.addr3 with
      | .at' el, .at' sc, .at' mp =>
        let bytes := v.m.storeBytes v.d el sc mp
        let cl := writeClaims c bytes
        let m1 := { v.m with accNan := v.m.accNan || v.m.nanStored v.d }
        (s.setM c (m1.noteStore (storeCount cl.length + maxN (s.pathAdds c (cl.map (fun x => x.1 * 2 ^ 19 + x.2.1)) true)) v.d.acc).advance).addAccess { who := .cell c, part := v.x.part, dest := .mstore v.d.acc, got := [], left := 0, lost := 0, store := true } cl
      | _, _, _ => s.addViolation c v.x.part v.d.addr)

/-! ## Sequencer (R94, R95, R97) -/

/-- The waybill an EMIT builds (R97). With WBREL 1 and an input of kind PARAM it is of kind PARAM too, with the input's fields: DESIGN
CHOICE (log entry 17). -/
def emitWaybill (w : Waybill) (d : MDesc) : Waybill :=
  let base : Waybill := { w with abandoned := false, routeTag := d.arg % 65536, fenceId := 0, fenceOp := 0, fenceDelta := 0, srcStation := 0xFFFF, rejectCode := 0, rsvd := 0 }
  if d.empty then
    { base with kind := 1, tileBlock := 0, tileOff := 0, format := 0, cols := 0, rows := 0, rowPitch := 0, scales := false, zmap := false, sparsity := 0, scaleBlock := 0, scaleOff := 0, metaBlock := 0, metaOff := 0, originCol := 0, originRow := 0 }
  else if d.wbrel then base
  else
    { base with kind := 0, tileBlock := mBlock d.addr, tileOff := d.addr % 2 ^ 19, format := d.fmtA, cols := d.k, rows := d.rows, rowPitch := d.pitch, scales := d.scaleA, zmap := d.zmap, sparsity := d.sparsity, scaleBlock := mBlock d.addr2, scaleOff := d.addr2 % 2 ^ 19, metaBlock := mBlock d.addr3, metaOff := d.addr3 % 2 ^ 19 }

/-- M_EMIT: add one waybill to the commit; a malformed one is dropped with its code in EMIT_STATUS (R97). -/
def execMEmit (c : Nat) (s : State) : Outc :=
  .next (
    match s.mReady c 0x08 (fun _ _ => false) with
    | none => s
    | some v =>
      let r := s.addEmit v.e v.x v.st (emitWaybill v.st.wb v.d)
      let m1 := match r.2 with | some k => { v.m with emitStatus := k.reject } | none => { v.m with emitted := v.m.emitted + 1 }
      r.1.setM c (m1.noteSeq false).advance)

/-- M_REPEAT: the next SPAN descriptors run COUNT times (R95). -/
def execMRepeat (c : Nat) (s : State) : Outc :=
  .next (
    match s.mReady c 0x09 (fun _ _ => false) with
    | none => s
    | some v =>
      let r : MRep := { first := v.m.pc + 1, span := v.d.rows, count := v.d.k, pass := 0, addrStep := v.d.addr, bStep := v.d.bOff, accStep := v.d.acc }
      s.setM c { (v.m.noteSeq false) with pc := v.m.pc + 1, rep := some r })

/-- M_SYNC: every earlier operation has completed, and issue goes on (R94). -/
def execMSync (c : Nat) (s : State) : Outc :=
  .next (
    match s.mReady c 0x0A (fun _ _ => true) with
    | none => s
    | some v => s.setM c (v.m.noteSeq true).advance)

/-- M_END: every earlier operation has completed, and the commit is due (R94, R67). -/
def execMEnd (c : Nat) (s : State) : Outc :=
  .next (
    match s.mReady c 0x00 (fun _ _ => true) with
    | none => s
    | some v => (s.setM c (v.m.noteSeq true)).endStart v.e)

/-! ## Start and preload (R80, R100) -/

/-- The largest K not above `k` whose 64 rows fit ALL (R100). -/
def fitK (f k : Nat) : Nat :=
  if 64 * elemPitch f k ≤ 65536 then k else 1024 * 8 / elemBits f

/-- The preload's descriptor (R100): an LDA with WBREL 1, ROW0 0, COL0 0. -/
def preloadDesc (w : Waybill) : MDesc :=
  let k := fitK w.format w.cols
  let half := if 64 * elemPitch w.format k ≤ 32768 then 0 else 2
  { mDesc 0 with op := 1, ahalf := half, wbrel := true, fmtA := w.format, zmap := w.zmap, scaleA := w.scales, k := k, rows := min w.rows 64 }

/-- Cycle 6 of a start on an M-cell (R80, R100): accumulators cleared, A stores without a value, the preload begun. EMIT_STATUS and ACC_NAN
begin each start at zero, which the spec states for V- and S-cells only: DESIGN CHOICE (log entry 17). -/
def State.startM (s : State) (c p : Nat) (w : Waybill) : State :=
  let m := s.mcell c
  let img := (Tab.getD s.cell.images c ([], [])).2
  let m1 := { m with bBuf := Memory.writeL m.bBuf 0 (img.take 131072), bScale := Memory.writeL m.bScale 0 (img.drop 131072), aBuf := [], seed := s.free, acc := [], intTiles := [], pc := 0, rep := none, emitStatus := 0, accNan := false, emitted := 0, issue := 7, ops := [] }
  let s1 := { s with free := s.free + 1 }
  if w.kind = 0 ∧ w.sparsity = 0 then
    let d := preloadDesc w
    let ps := s1.ldaParts p w d 64
    if partsBad ps then (s1.setM c m1).addViolation c p (w.tileBlock * 2 ^ 25 + w.tileOff * 64)
    else
      let l := loadOf (some d.ahalf) none false ps
      s1.beginLoad c p { m1 with ops := [loadOp 4 (s.pathAdds c l.lines false) none (some d.ahalf) false] } l
  else s1.setM c m1

/-! ## The checks at bind (R98) -/

/-- Check code numbers of R553. -/
def ckBadOp : Nat := 0x01
def ckFieldSet : Nat := 0x02
def ckBadPair : Nat := 0x03
def ckKRange : Nat := 0x04
def ckAddrRange : Nat := 0x05
def ckRepeatForm : Nat := 0x06
def ckNoEnd : Nat := 0x07
def ckStoreFormat : Nat := 0x08
def ckBadType : Nat := 0x09
def ckP0Write : Nat := 0x0A
def ckBadTarget : Nat := 0x0B
def ckBadSr : Nat := 0x0C
def ckPriv : Nat := 0x0D

/-- Field places of a descriptor: ACC, ACCUM, AHALF, WBREL, FMT_A, SPARSITY, ZMAP, FMT_B, SCALE_A, SCALE_B, EMPTY, K, ROWS,
ADDR, ADDR2, ADDR3, PITCH, B_OFF, META_OFF, SSTRIDE, BSCALE_OFF, ARG. -/
def mFieldPlaces : List (Nat × Nat × Nat) :=
  [(1, 7, 4), (1, 3, 3), (1, 2, 1), (1, 0, 0), (2, 7, 3), (2, 2, 1), (2, 0, 0), (3, 7, 3), (3, 2, 2), (3, 1, 1), (3, 0, 0),
    (4, 12, 0), (6, 12, 0), (8, 31, 0), (12, 31, 0), (16, 31, 0), (20, 15, 0), (22, 10, 0), (24, 10, 0), (26, 15, 9), (26, 8, 0),
    (28, 31, 0)]

/-- Indices of the fields each operation uses (R94). -/
def mUses (op : Nat) : List Nat :=
  match op with
  | 0x01 => [3, 2, 4, 6, 8, 11, 12, 13, 14, 15, 16]
  | 0x02 => [3, 7, 5, 9, 11, 12, 13, 14, 15, 16, 17, 18, 20]
  | 0x03 => [0, 1, 2, 4, 6, 8, 7, 5, 9, 11, 17, 18, 20]
  | 0x04 => [0, 1, 2, 4, 6, 8, 7, 5, 9, 11, 17, 18, 20, 19, 21]
  | 0x05 => [0]
  | 0x06 => [0, 4, 6, 8, 11, 12, 13, 14, 15, 16]
  | 0x07 => [0, 4, 13, 16]
  | 0x08 => [3, 10, 4, 5, 6, 8, 11, 12, 13, 14, 15, 16, 21]
  | 0x09 => [0, 11, 12, 13, 17]
  | _ => []

/-- The bits of a descriptor that its operation may set: its fields, without the RSVD parts of the address and ARG forms. -/
def mMask (r : Nat) : Nat :=
  let op := fldB r 0 1
  let d := mDesc r
  let addrBits := maskOf [(8, 24, 0), (12, 24, 0), (16, 24, 0)]
  let base := maskOf ((0, 7, 0) :: (mUses op).map (fun i => mFieldPlaces.getD i (0, 7, 0)))
  let ok := base &&& (if d.wbrel || op == 0x09 then 2 ^ 256 - 1 else (2 ^ 256 - 1) - ((2 ^ 96 - 1) <<< 64) + addrBits)
  let arg := if op = 0x04 then maskOf [(28, 26, 0)] else maskOf [(28, 15, 0)]
  ok &&& ((2 ^ 224 - 1) + arg)

/-- The pair table of R82. -/
def pairOk (a b : Nat) : Bool :=
  (decide (a ≤ 4) && decide (b ≤ 4)) || ((a == 5 || a == 6) && b == 5) || (a == 7 && b == 7) || (a == 8 && b == 8)

/-- K, ROWS and operand sizes (R98 K_RANGE): a load's operand has ROWS rows, an array operation's 64. -/
def kRangeBad (d : MDesc) : Bool :=
  let k1 := d.k == 0 || 4096 < d.k
  let n := if d.op ≤ 2 then d.rows else 64
  let sizeA := decide ((if d.ahalf = 2 then 65536 else 32768) < n * elemPitch d.fmtA d.k) ||
    (d.scaleA && decide ((if d.ahalf = 2 then 4096 else 2048) < n * sidePitch d.k)) ||
    (d.zmap && decide ((if d.ahalf = 2 then 32 else 16) < cdiv (cdiv d.k 16) 8))
  let cols := storedK d.sparsity d.k
  let fitsB (pl : BPlace) : Bool :=
    decide (pl.el + n * elemPitch d.fmtB cols ≤ 131072) && (d.sparsity == 0 || decide (pl.md + n * roundUp (cdiv cols 4) 16 ≤ 131072)) &&
    (!d.scaleB || decide (pl.sc + n * sidePitch cols ≤ 8192))
  match d.op with
  | 0x01 => k1 || d.rows == 0 || 64 < d.rows || (d.scaleA && d.k % 32 != 0) || sizeA
  | 0x02 => k1 || d.rows == 0 || 64 < d.rows || (d.sparsity != 0 && d.k % 4 != 0) || (d.scaleB && d.k % 32 != 0) || !fitsB (d.bPlace none)
  | 0x03 => k1 || (d.sparsity != 0 && d.k % 4 != 0) || ((d.scaleA || d.scaleB) && d.k % 32 != 0) || sizeA || !fitsB (d.bPlace none)
  | 0x04 => k1 || (d.sparsity != 0 && d.k % 4 != 0) || ((d.scaleA || d.scaleB) && d.k % 32 != 0) || sizeA || !d.selected.all (fun x => fitsB (d.bPlace (some x)))
  | 0x06 => d.k == 0 || 64 < d.k || d.rows == 0 || 64 < d.rows || (d.scaleA && d.k % 32 != 0)
  | 0x08 => !d.wbrel && !d.empty && (k1 || d.rows == 0 || 4096 < d.rows)
  | 0x09 => k1 || d.rows == 0 || 16 < d.rows
  | _ => false

/-- Formats and pairs (R98 BAD_PAIR): a load's format that is none, a pair outside R82, SPARSITY on an A load, SCALE with a format that
allows none. An ACCLD of a format other than FP32 and INT32 has this code too: DESIGN CHOICE (log entry 17), no row names it. -/
def badPair (d : MDesc) : Bool :=
  match d.op with
  | 0x01 => 0x0D < d.fmtA || elemBits d.fmtA == 0 || (d.scaleA && !scalesAllowed d.fmtA) || d.sparsity != 0
  | 0x02 => 0x0D < d.fmtB || elemBits d.fmtB == 0 || (d.scaleB && !scalesAllowed d.fmtB)
  | 0x03 => !pairOk d.fmtA d.fmtB || (d.scaleA && !scalesAllowed d.fmtA) || (d.scaleB && !scalesAllowed d.fmtB)
  | 0x04 => !pairOk d.fmtA d.fmtB || (d.scaleA && !scalesAllowed d.fmtA) || (d.scaleB && !scalesAllowed d.fmtB)
  | 0x06 => d.scaleA && !scalesAllowed d.fmtA
  | 0x07 => d.fmtA != 0x09 && d.fmtA != 0x0A
  | 0x08 => !d.wbrel && !d.empty && d.scaleA && !scalesAllowed d.fmtA
  | _ => false

/-- Ends of the absolute structures of a descriptor (R98 ADDR_RANGE), as (address field, bytes), the element address first. An EMIT's
are those of the tile it names, counted as whole pitches (R42). -/
def mExtents (d : MDesc) : List (Nat × Nat) :=
  let rows (n pit last : Nat) : Nat := (n - 1) * pit + last
  let cols := storedK d.sparsity d.k
  match d.op with
  | 0x01 => [(d.addr, rows d.rows d.pitch (packedRow d.fmtA d.k))] ++ (if d.scaleA then [(d.addr2, rows d.rows (sidePitch d.k) (cdiv d.k 32))] else []) ++ (if d.zmap then [(d.addr3, cdiv (cdiv d.k 16) 8)] else [])
  | 0x02 => [(d.addr, rows d.rows d.pitch (packedRow d.fmtB cols))] ++ (if d.scaleB then [(d.addr2, rows d.rows (sidePitch cols) (cdiv cols 32))] else []) ++ (if d.sparsity = 0 then [] else [(d.addr3, rows d.rows (roundUp (cdiv cols 4) 16) (cdiv cols 4))])
  | 0x06 => [(d.addr, rows d.rows d.pitch (packedRow d.fmtA d.k))] ++ (if d.scaleA then [(d.addr2, rows d.rows (sidePitch d.k) (cdiv d.k 32))] else []) ++ (if d.zmap then [(d.addr3, cdiv (cdiv d.k 16) 8)] else [])
  | 0x07 => [(d.addr, rows 64 d.pitch 256)]
  | 0x08 =>
    if d.empty then []
    else [(d.addr, d.rows * d.pitch)] ++ (if d.scaleA then [(d.addr2, d.rows * scalePitch d.k)] else []) ++
      (if d.sparsity != 0 then [(d.addr3, d.rows * metaPitch d.k)] else if d.zmap then [(d.addr3, cdiv d.rows 64 * zmapPitch d.k)] else [])
  | _ => []

/-- A structure of a descriptor reaches beyond the tiles' part of its block on one of `count` passes with an ADDR step, which moves the
elements alone. -/
def addrRangeBad (d : MDesc) (count step : Nat) : Bool :=
  let l := mExtents d
  !d.wbrel && (List.zip (List.range l.length) l).any (fun x =>
    decide (ringAreaBase < mOff x.2.1 + (if x.1 = 0 then (count - 1) * step * 64 else 0) + x.2.2))

/-- ACCST's formats (R98 STORE_FORMAT). -/
def storeFmtBad (d : MDesc) : Bool :=
  d.op == 0x06 && !(d.fmtA == 0x09 || d.fmtA == 0x07 || d.fmtA == 0x08 || decide (d.fmtA ≤ 4) || d.fmtA == 0x0A)

/-- The REPEAT a descriptor stands in, if any: its count and ADDR step. -/
def repeatOver (ds : List MDesc) (i : Nat) : Nat × Nat :=
  match ((List.range ds.length).filterMap (fun j => match ds[j]? with
    | some d => if d.op = 0x09 ∧ j < i ∧ i ≤ j + d.rows then some (d.k, d.addr) else none
    | none => none)).getLast? with
  | some x => x
  | none => (1, 0)

/-- The program as the sequencer runs it: descriptor numbers with the pass of their REPEAT (R95). Tiles take part in passes modulo 16, so
that 32 passes of a longer REPEAT show every type a tile takes. -/
def expand (ds : List MDesc) : (fuel i : Nat) → List (Nat × MDesc)
  | 0, _ => []
  | f + 1, i =>
    match ds[i]? with
    | none => []
    | some d =>
      if d.op = 0x09 then
        (List.range (min d.k 32)).flatMap (fun p => (List.range d.rows).filterMap (fun j =>
          (ds[i + 1 + j]?).map (fun x => (i + 1 + j, { x with acc := (x.acc + p * d.acc) % 16 })))) ++ expand ds f (i + 1 + d.rows)
      else (i, d) :: expand ds f (i + 1)

/-- The type an operation leaves its tile with: some true INT32, some false FP32, none for a cleared tile (R111). -/
def tileAfter (d : MDesc) (old : Option Bool) : Option Bool :=
  match d.op with
  | 0x03 => some d.intAcc
  | 0x04 => some d.intAcc
  | 0x07 => some (d.fmtA == 0x0A)
  | 0x05 => none
  | _ => old

/-- Some run of descriptor i, on any REPEAT pass, stores an FP32 tile as INT32 (R98 STORE_FORMAT, R111). -/
def intOfFp (ds : List MDesc) (i : Nat) : Bool :=
  ((expand ds ds.length 0).foldl (fun (a : Sys2Proof.Tab Bool × Bool) x =>
    let d := x.2
    let bad := x.1 == i && d.op == 0x06 && d.fmtA == 0x0A && Tab.find a.1 d.acc == some false
    let t := match tileAfter d (Tab.find a.1 d.acc) with | some b => Tab.put a.1 d.acc b | none => Tab.del a.1 d.acc
    (t, a.2 || bad)) ([], false)).2

/-- The check code of descriptor i, if it fails (R98): the conditions in the table's order. -/
def mCheckOne (rs : List Nat) (ds : List MDesc) (i : Nat) : Option Nat :=
  match rs[i]?, ds[i]? with
  | some r, some d =>
    let rp := repeatOver ds i
    if 0x0A < d.op || d.ahalf == 3 || d.sparsity == 3 then some ckBadOp
    else if rsvdSet r (mMask r ||| (if d.op = 0x01 then maskOf [(2, 2, 1)] else 0)) then some ckFieldSet
    else if badPair d then some ckBadPair
    else if kRangeBad d then some ckKRange
    else if addrRangeBad d rp.1 rp.2 then some ckAddrRange
    else if d.op == 0x09 && (ds.length < i + 1 + d.rows ||
        ((ds.drop (i + 1)).take d.rows).any (fun x => x.op == 0x09 || x.op == 0x00 || x.op == 0x0A)) then some ckRepeatForm
    else if storeFmtBad d || intOfFp ds i then some ckStoreFormat
    else none
  | _, _ => none

/-- R98: the first failing descriptor and its code, or none when the program passes. -/
def mCheck (prog : List (BitVec 8)) : Option (Nat × Nat) :=
  let n := prog.length / 32
  let rs := (List.range n).map (fun i => ofBytes ((prog.drop (32 * i)).take 32))
  let ds := rs.map mDesc
  match (List.range n).filterMap (fun i => (mCheckOne rs ds i).map (fun c => (i, c))) with
  | x :: _ => some x
  | [] => if ds.any (fun d => d.op == 0x00) then none else some (n - 1, ckNoEnd)

end Sys2Proof.Machine
end

