-- ==== Sys2Proof/Machine/Sfu.lean ====
section
/-! DEFINITION. Sys2Proof/Machine/Sfu.lean: the special functions (04_vector_cells R128). A result is a free value within the
bound R128 states: a candidate that Config names is taken when a fixed-point evaluation with 128 fraction bits shows it inside
the bound, else the evaluation itself, rounded to nearest even, which is inside it. -/

namespace Sys2Proof.Machine

/-- The integer square root, bit by bit from bit `fuel - 1` of the root. -/
def isqrtGo (n : Nat) : (fuel r : Nat) → Nat
  | 0, r => r
  | fuel + 1, r => let t := r + 2 ^ fuel; if t * t ≤ n then isqrtGo n fuel t else isqrtGo n fuel r

def isqrt (n : Nat) : Nat := isqrtGo n (Nat.log2 n / 2 + 1) 0

/-- One in fixed point. -/
def fxOne : Nat := 2 ^ 128

/-- 2^f for a fixed-point fraction f below 1: the product of 2^(2^-i) over its set bits, each root taken in turn. -/
def fxExp2Go (f : Nat) : (fuel i root acc : Nat) → Nat
  | 0, _, _, acc => acc
  | fuel + 1, i, root, acc =>
    let r := isqrt (root * fxOne)
    fxExp2Go f fuel (i + 1) r (if tbit f (127 - i) then acc * r / fxOne else acc)

def fxExp2 (f : Nat) : Nat := fxExp2Go f 128 0 (2 * fxOne) fxOne

/-- The bits of log2 m for a fixed-point m in [1, 2), by repeated squaring. -/
def fxLog2Go : (fuel m acc : Nat) → Nat
  | 0, _, acc => acc
  | fuel + 1, m, acc =>
    let q := m * m / fxOne
    if 2 * fxOne ≤ q then fxLog2Go fuel (q / 2) (2 * acc + 1) else fxLog2Go fuel q (2 * acc)

def fxLog2 (m : Nat) : Nat := fxLog2Go 100 m 0 * 2 ^ 28

/-- log2 e and 2 / sqrt pi in fixed point. -/
def fxLog2e : Nat := 490923683258796565746369346286093237521
def fxTwoRtPi : Nat := 383967533763538142977158567454335403656

/-- A finite value as a fixed-point magnitude. -/
def fxOf (m : Nat) (e : Int) : Nat := if 0 ≤ e then m * 2 ^ e.toNat * fxOne else m * fxOne / 2 ^ (-e).toNat

/-- 2^x for a fixed-point magnitude and a sign, as a value: mantissa in [1, 2) in fixed point and exponent. -/
def fxPow2 (neg : Bool) (x : Nat) : Nat × Int :=
  if neg then
    (if x % fxOne = 0 then (fxOne, -((x / fxOne : Nat) : Int)) else (fxExp2 (fxOne - x % fxOne), -((x / fxOne : Nat) : Int) - 1))
  else (fxExp2 (x % fxOne), ((x / fxOne : Nat) : Int))

/-- tanh of a fixed-point magnitude below 9: (y - 1) / (y + 1) for y = e^2x. -/
def fxTanh (x : Nat) : Nat :=
  let p := fxPow2 false (2 * x * fxLog2e / fxOne)
  let y := p.1 * 2 ^ p.2.toNat
  (y - fxOne) * fxOne / (y + fxOne)

/-- The series of erf: the sum of (-1)^n x^(2n+1) / (n! (2n+1)), for a fixed-point magnitude below 4. -/
def fxErfGo (x : Nat) : (fuel n : Nat) → (term : Nat) → Int → Int
  | 0, _, _, acc => acc
  | fuel + 1, n, term, acc =>
    let t : Int := (term / (2 * n + 1) : Nat)
    fxErfGo x fuel (n + 1) (term * x / fxOne * x / fxOne / (n + 1)) (if n % 2 = 0 then acc + t else acc - t)

def fxErf (x : Nat) : Nat := (fxErfGo x 100 0 x 0).toNat * fxTwoRtPi / fxOne

/-- The nearest FP32 to a ratio a / b of naturals with a sign. -/
def ratio (neg : Bool) (a b : Nat) (e : Int) : Num :=
  -- 64 more bits than the ratio needs, with a sticky bit below them
  let k : Nat := 192
  let q := a * 2 ^ k / b
  .fin neg (2 * q + (if a * 2 ^ k % b = 0 then 0 else 1)) (e - k - 1)

/-- |x - y| as a value. -/
def Num.dist (x y : Num) : Num := (x.add y.negate).abs

/-- The weight of the last place of an FP32 code: 1 ulp. -/
def ulp32 (code : Nat) : Num := .fin false 1 (max ((code / 2 ^ 23 % 256 : Nat) : Int) 1 - 150)

/-- The evaluation of a function at a finite operand in its ordinary range, as an exact-enough value; and the tolerance of
R128: an absolute error of 2^-22 or a number of ulps of the result. -/
inductive Tol where
  | abs22
  | ulps (n : Nat)
deriving DecidableEq, Repr

def sfuEval (fn : Nat) (n : Bool) (m : Nat) (e : Int) : Num × Tol :=
  match fn with
  | 0 =>
    let p := fxPow2 n (fxOf m e)
    (.fin false p.1 (p.2 - 128), .ulps 1)
  | 1 =>
    let k := Nat.log2 m
    let l := fxLog2 (m * fxOne / 2 ^ k)
    let i : Int := e + k
    let v : Int := i * (fxOne : Nat) + (l : Nat)
    -- x lies in [0.5, 2] when its exponent is -1 or 0, or it is exactly 2
    (.fin (decide (v < 0)) v.natAbs (-128), if i = -1 ∨ i = 0 ∨ (i = 1 ∧ m = 2 ^ k) then .abs22 else .ulps 1)
  | 2 => (ratio n 1 m (-e), .ulps 1)
  | 3 =>
    -- 1 / sqrt (m 2^e): make the exponent even, and take the root with 128 more bits
    let m2 := if e % 2 = 0 then m else 2 * m
    let e2 := if e % 2 = 0 then e else e - 1
    (ratio false (2 ^ 160) (isqrt (m2 * 2 ^ 320)) (-(e2 / 2)), .ulps 2)
  | 4 => (.fin n (fxTanh (fxOf m e)) (-128), .abs22)
  | _ => (.fin n (fxErf (fxOf m e)) (-128), .abs22)

/-- A candidate FP32 code is within the tolerance of an evaluation, with 2^-60 of it kept for the evaluation's own error. -/
def withinTol (t : Tol) (code exact : Nat) (x : Num) : Bool :=
  match fp32.decode code with
  | .fin n m e =>
    let d := (Num.fin n m e).dist x
    let b : Num := match t with
      | .abs22 => .fin false (2 ^ 60 - 1) (-82)
      | .ulps k => (match ulp32 exact with | .fin _ u g => .fin false (u * k * (2 ^ 60 - 1)) (g - 60) | y => y)
    (match d.cmp b with | some c => decide (c ≤ 0) | none => false)
  | _ => false

/-- An ordinary result: the candidate Config names if it is within the bound and finite, else the evaluation rounded. -/
def sfuOrdinary (fn x : Nat) (n : Bool) (m : Nat) (e : Int) : Nat × FpFlags :=
  let v := sfuEval fn n m e
  let r := fp32.round v.1
  let c := (Config.sfu fn x).toNat
  if withinTol v.2 c r.1 v.1 then (c, (fp32.round (fp32.decode c)).2) else r

/-- A special function of an FP32 operand (R128): function code 0 exp2, 1 log2, 2 reciprocal, 3 rsqrt, 4 tanh, 5 erf. -/
def sfu32 (fn x : Nat) : Nat × FpFlags :=
  match fp32.decode x with
  | .nan => (fp32.nan, {})
  | .inf n =>
    match fn with
    | 0 => (if n then 0 else fp32.infCode false, {})
    | 1 => if n then (fp32.nan, { invalid := true }) else (fp32.infCode false, {})
    | 2 => (fp32.signed n 0, {})
    | 3 => if n then (fp32.nan, { invalid := true }) else (0, {})
    | _ => (fp32.code (.fin n 1 0), {})
  | .fin n m e =>
    match fn with
    | 0 =>
      let a := fxOf m e
      if !n && 128 * fxOne ≤ a then (fp32.infCode false, { overflow := true })
      else if n && 149 * fxOne < a then (0, {})
      else sfuOrdinary fn x n m e
    | 1 =>
      if m = 0 then (fp32.infCode true, { divzero := true })
      else if n then (fp32.nan, { invalid := true })
      else sfuOrdinary fn x n m e
    | 2 => if m = 0 then (fp32.infCode n, { divzero := true }) else sfuOrdinary fn x n m e
    | 3 =>
      if m = 0 then (if n then (fp32.infCode true, { divzero := true }) else (fp32.infCode false, {}))
      else if n then (fp32.nan, { invalid := true })
      else sfuOrdinary fn x n m e
    | 4 =>
      if m = 0 then (x, {}) else if 9 * fxOne ≤ fxOf m e then (fp32.code (.fin n 1 0), {}) else sfuOrdinary fn x n m e
    | _ =>
      if m = 0 then (x, {}) else if 4 * fxOne ≤ fxOf m e then (fp32.code (.fin n 1 0), {}) else sfuOrdinary fn x n m e

/-- A special function of one BF16 element: the FP32 result rounded once to BF16 (R128). -/
def sfuBf (fn x : Nat) : Nat × FpFlags :=
  let r := sfu32 fn (x * 65536)
  let y := fp32.decode r.1
  let b := bf16.round y
  (b.1, { invalid := r.2.invalid, divzero := r.2.divzero, overflow := r.2.overflow || b.2.overflow, underflow := b.2.underflow })

end Sys2Proof.Machine
end

