-- ==== Sys2Proof/Machine/VCells.lean ====
section
/-! DEFINITION. Sys2Proof/Machine/VCells.lean: vector cells: registers, the issue of an instruction, and the instructions of R121
but for memory (04_vector_cells R114-R136). One command issues the next instruction of one cell's program. -/

namespace Sys2Proof.Machine

/-! ## Instruction fields (R120) -/

def vOp (w : Nat) : Nat := w / 2 ^ 26 % 64
def vVd (w : Nat) : Nat := w / 2 ^ 21 % 32
def vVa (w : Nat) : Nat := w / 2 ^ 16 % 32
def vVb (w : Nat) : Nat := w / 2 ^ 11 % 32
def vVc (w : Nat) : Nat := w / 2 ^ 6 % 32
def vPg (w : Nat) : Nat := w / 8 % 8
def vFn (w : Nat) : Nat := w % 8
/-- AD, AN, AM of the address formats. -/
def vAd (w : Nat) : Nat := w / 2 ^ 22 % 16
def vAn (w : Nat) : Nat := w / 2 ^ 18 % 16
def vAm (w : Nat) : Nat := w / 2 ^ 14 % 16
/-- VM format: AN, PG, TY and IMM in 64-byte units. -/
def vmAn (w : Nat) : Nat := w / 2 ^ 17 % 16
def vmPg (w : Nat) : Nat := w / 2 ^ 14 % 8
def vmTy (w : Nat) : Nat := w / 2 ^ 11 % 8
def vmImm (w : Nat) : Int := sgn 11 w
/-- AI format: IMM18. -/
def vImm18 (w : Nat) : Int := sgn 18 w
/-- BR format: AN, AM, COND, OFF. -/
def vbAn (w : Nat) : Nat := w / 2 ^ 22 % 16
def vbAm (w : Nat) : Nat := w / 2 ^ 18 % 16
def vbCond (w : Nat) : Nat := w / 2 ^ 15 % 8
def vbOff (w : Nat) : Int := sgn 15 w
/-- VX format: AM and LANE. -/
def vxAm (w : Nat) : Nat := w / 2 ^ 13 % 16
def vxLane (w : Nat) : Nat := w / 2 ^ 7 % 64
/-- TK format: VE, AN, KM1, MODE. -/
def tkVe (w : Nat) : Nat := w / 2 ^ 16 % 32
def tkAn (w : Nat) : Nat := w / 2 ^ 7 % 16
def tkKm1 (w : Nat) : Nat := w / 2 % 64
/-- SYS format. -/
def sysSr (w : Nat) : Nat := w / 2 ^ 16 % 64
def sysDir (w : Nat) : Bool := tbit w 0
/-- CT format. -/
def ctSub (w : Nat) : Nat := w / 2 ^ 15 % 8
def ctKeepF (w : Nat) : Bool := tbit w 14

/-! ## Registers (R114, R115) -/

def VCell.lane (x : VCell) (r i : Nat) : Nat := get0 x.v (r * 64 + i)
def VCell.setLane (x : VCell) (r i v : Nat) : VCell := { x with v := put0 x.v (r * 64 + i) (v % 2 ^ 32) }
def ones64 : Nat := 2 ^ 64 - 1
/-- A predicate register: p0 reads as all ones. -/
def VCell.pred (x : VCell) (p : Nat) : Nat := if p = 0 then ones64 else get0 x.p p
def VCell.setPred (x : VCell) (p v : Nat) : VCell := if p = 0 then x else { x with p := put0 x.p p (v % 2 ^ 64) }
/-- An address register: a0 reads as zero, and writes to it are discarded. -/
def VCell.areg (x : VCell) (a : Nat) : Nat := if a = 0 then 0 else get0 x.a a
def VCell.setA (x : VCell) (a v : Nat) : VCell := if a = 0 then x else { x with a := put0 x.a a (v % 2 ^ 32) }

/-- The lanes a predicate register leaves active, ascending. -/
def VCell.active (x : VCell) (pg : Nat) : List Nat := (List.range 64).filter (fun i => tbit (x.pred pg) i)

/-- Write lanes of a register. -/
def VCell.writeLanes (x : VCell) (r : Nat) (l : List (Nat × Nat)) : VCell := l.foldl (fun (y : VCell) z => y.setLane r z.1 z.2) x

/-- STATUS bits of arithmetic conditions (R133). -/
def FpFlags.status (f : FpFlags) : Nat :=
  (if f.invalid then 16 else 0) ||| (if f.divzero then 8 else 0) ||| (if f.overflow then 4 else 0) ||| (if f.underflow then 2 else 0)

def VCell.flag (x : VCell) (f : FpFlags) : VCell := { x with status := x.status ||| f.status }
def VCell.setStatus (x : VCell) (b : Nat) : VCell := { x with status := x.status ||| b }
def stTkEmpty : Nat := 1024
def stTkLost : Nat := 512
def stTkOvf : Nat := 256

/-- Join the flags of several results. -/
def joinAll (l : List FpFlags) : FpFlags := l.foldl FpFlags.join {}

/-! ## Issue (R123) -/

/-- Register codes: 0-31 vector, 32-39 predicate, 64-79 address. -/
def cP (p : Nat) : Nat := 32 + p % 8
def cA (a : Nat) : Nat := 64 + a

/-- What a V-cell step runs on. -/
structure VEnv where
  e : Nat
  ex : Engine
  st : Start
  c : Nat
  x : VCell
  w : Nat
deriving DecidableEq, Repr

/-- The word at the program counter. -/
def VCell.word (x : VCell) : Nat := Memory.readN x.store (4 * x.pc) 4

/-- The V-cell runs a start, and its next instruction has this OP; a DRAIN has been met, and no register it reads or writes
waits for a slice load (R123). `regs` gives the register codes it reads and writes. -/
def State.vReady (s : State) (c op : Nat) (sub : Option Nat) (regs : Nat → List Nat) : Option VEnv :=
  if cellKind c ≠ 2 then none
  else
    match s.running (cellId c) (c / 20) with
    | none => none
    | some (ex, st) =>
      let x := s.vcell c
      let w := x.word
      if vOp w = op ∧ (match sub with | some k => ctSub w == k | none => true) = true ∧ (regs w).all (fun r => !x.pend.contains r) ∧
          (x.drain = false ∨ s.storesOut c = 0) then
        some { e := cellId c, ex := ex, st := st, c := c, x := x, w := w }
      else none

/-- The cell after an instruction that goes on to the next one: the board notes its issue, and the registers it makes usable
`lat` cycles later (R121, R123). -/
def VEnv.issue (v : VEnv) (regs : List Nat) : Nat := v.x.board.issue regs 0

def VCell.go (x : VCell) (t lat : Nat) (rds : List Nat) : VCell :=
  { x with pc := x.pc + 1, drain := false, board := x.board.done t 1 (rds.map (fun r => (r, t + lat))) }

/-- Registers a VV instruction reads and writes: its predicate, its sources, and its destination. -/
def vvRegs (n : Nat) (w : Nat) : List Nat :=
  [cP (vPg w), vVd w] ++ (if 1 ≤ n then [vVa w] else []) ++ (if 2 ≤ n then [vVb w] else []) ++ (if 3 ≤ n then [vVc w] else [])

/-- A lane-by-lane VV instruction of `n` sources with a latency: `f` gives each active lane's word and flags. -/
def State.vLanes (s : State) (c op n lat : Nat) (f : VEnv → Nat → Nat × FpFlags) : State :=
  match s.vReady c op none (vvRegs n) with
  | none => s
  | some v =>
    let t := v.issue (vvRegs n v.w)
    let rs := (v.x.active (vPg v.w)).map (fun i => (i, f v i))
    s.setV c (((v.x.writeLanes (vVd v.w) (rs.map (fun r => (r.1, r.2.1)))).flag (joinAll (rs.map (·.2.2)))).go t lat [vVd v.w])

def VEnv.a (v : VEnv) (i : Nat) : Nat := v.x.lane (vVa v.w) i
def VEnv.b (v : VEnv) (i : Nat) : Nat := v.x.lane (vVb v.w) i
def VEnv.cc (v : VEnv) (i : Nat) : Nat := v.x.lane (vVc v.w) i
def VEnv.fn (v : VEnv) : Nat := vFn v.w

/-- A result without flags. -/
def plain (x : Nat) : Nat × FpFlags := (x % 2 ^ 32, {})

/-- An operation by type (FN 0 FP32, 1 BF16 pair, 2 INT32). -/
def byType (fn : Nat) (f : Fmt → Nat → Nat → Nat × FpFlags) (g : Nat → Nat → Nat) (a b : Nat) : Nat × FpFlags :=
  match fn with
  | 0 => f fp32 a b
  | 1 => pairOp (f bf16) a b
  | _ => plain (g a b)

/-- INT32 instructions of VADD and VSUB are usable after 2 cycles (R121). -/
def addLat (s : State) (c : Nat) : Nat := if vFn (s.vcell c).word = 2 then 2 else 4

/-- V_VADD: vd = va + vb. -/
def execVVadd (c : Nat) (s : State) : Outc :=
  .next (s.vLanes c 0x01 2 (addLat s c) (fun v i => byType v.fn Fmt.add (· + ·) (v.a i) (v.b i)))

/-- V_VSUB: vd = va − vb. -/
def execVVsub (c : Nat) (s : State) : Outc :=
  .next (s.vLanes c 0x02 2 (addLat s c) (fun v i => byType v.fn Fmt.sub (fun a b => a + 2 ^ 32 - b) (v.a i) (v.b i)))

/-- V_VMUL: vd = va × vb; INT32 keeps the low 32 bits. -/
def execVVmul (c : Nat) (s : State) : Outc :=
  .next (s.vLanes c 0x03 2 4 (fun v i => byType v.fn Fmt.mul (· * ·) (v.a i) (v.b i)))

/-- A fused multiply-add by type, with one rounding (R126). -/
def fmaBy (fn : Nat) (neg : Bool) (a b c : Nat) : Nat × FpFlags :=
  let sgnOf (f : Fmt) (x : Nat) : Nat := if neg then x ^^^ 2 ^ (f.bits - 1) else x
  if fn = 0 then fp32.fma (sgnOf fp32 a) b c
  else
    let l := bf16.fma (sgnOf bf16 (a % 65536)) (b % 65536) (c % 65536)
    let h := bf16.fma (sgnOf bf16 (a / 65536 % 65536)) (b / 65536 % 65536) (c / 65536 % 65536)
    (l.1 + h.1 * 65536, l.2.join h.2)

/-- V_VFMA: vd = va × vb + vc, one rounding. -/
def execVVfma (c : Nat) (s : State) : Outc := .next (s.vLanes c 0x04 3 4 (fun v i => fmaBy v.fn false (v.a i) (v.b i) (v.cc i)))

/-- V_VFNMA: vd = vc − va × vb, one rounding. -/
def execVVfnma (c : Nat) (s : State) : Outc := .next (s.vLanes c 0x05 3 4 (fun v i => fmaBy v.fn true (v.a i) (v.b i) (v.cc i)))

/-- A floating choice of one of two codes, NaN made canonical, with the flags of its result (R126, R133). -/
def pickFp (g : Num → Num → Num) (f : Fmt) (a b : Nat) : Nat × FpFlags := f.round (g (f.decode a) (f.decode b))

/-- Minimum or maximum by type: FN 0 FP32, 1 BF16, 2 INT32, 3 UINT32. -/
def minMax (mx : Bool) (fn a b : Nat) : Nat × FpFlags :=
  match fn with
  | 0 => pickFp (if mx then Num.max else Num.min) fp32 a b
  | 1 => pairOp (pickFp (if mx then Num.max else Num.min) bf16) a b
  | 2 => plain (if decide (sgn 32 a ≤ sgn 32 b) == mx then b else a)
  | _ => plain (if mx then max a b else min a b)

/-- V_VMIN: lane minimum. -/
def execVVmin (c : Nat) (s : State) : Outc := .next (s.vLanes c 0x06 2 2 (fun v i => minMax false v.fn (v.a i) (v.b i)))

/-- V_VMAX: lane maximum. -/
def execVVmax (c : Nat) (s : State) : Outc := .next (s.vLanes c 0x07 2 2 (fun v i => minMax true v.fn (v.a i) (v.b i)))

/-- A one-source operation on values, by type; INT32 of the most negative number has no result the spec states: a free value. -/
def unary (g : Num → Num) (gi : Int → Int) (seed fn i a : Nat) : Nat × FpFlags :=
  match fn with
  | 0 => fp32.round (g (fp32.decode a))
  | 1 =>
    let h (x : Nat) : Nat × FpFlags := bf16.round (g (bf16.decode x))
    let l := h (a % 65536)
    let u := h (a / 65536 % 65536)
    (l.1 + u.1 * 65536, l.2.join u.2)
  | _ => plain (if a = 2 ^ 31 then Config.freeNat (seed * 64 + i) else wrapI 32 (gi (sgn 32 a)))

/-- V_VABS: vd = abs(va). -/
def execVVabs (c : Nat) (s : State) : Outc :=
  .next ({ s with free := s.free + 1 }.vLanes c 0x08 1 2 (fun v i => unary Num.abs (fun x => (x.natAbs : Int)) s.free v.fn i (v.a i)))

/-- V_VNEG: vd = −va. -/
def execVVneg (c : Nat) (s : State) : Outc :=
  .next ({ s with free := s.free + 1 }.vLanes c 0x09 1 2 (fun v i => unary Num.negate (fun x => -x) s.free v.fn i (v.a i)))

/-- V_VAND: bitwise AND. -/
def execVVand (c : Nat) (s : State) : Outc := .next (s.vLanes c 0x0A 2 2 (fun v i => plain (v.a i &&& v.b i)))

/-- V_VOR: bitwise OR. -/
def execVVor (c : Nat) (s : State) : Outc := .next (s.vLanes c 0x0B 2 2 (fun v i => plain (v.a i ||| v.b i)))

/-- V_VXOR: bitwise XOR. -/
def execVVxor (c : Nat) (s : State) : Outc := .next (s.vLanes c 0x0C 2 2 (fun v i => plain (v.a i ^^^ v.b i)))

/-- V_VSHL: vd = va << (vb & 31). -/
def execVVshl (c : Nat) (s : State) : Outc := .next (s.vLanes c 0x0D 2 2 (fun v i => plain (v.a i * 2 ^ (v.b i % 32))))

/-- V_VSHR: vd = va >> (vb & 31), FN 2 arithmetic, 3 logical. -/
def execVVshr (c : Nat) (s : State) : Outc :=
  .next (s.vLanes c 0x0E 2 2 (fun v i =>
    plain (if v.fn = 2 then wrapI 32 (sgn 32 (v.a i) / (2 ^ (v.b i % 32) : Nat)) else v.a i / 2 ^ (v.b i % 32))))

/-- Registers of VSEL: its selecting predicate too. -/
def vselRegs (w : Nat) : List Nat := cP (vVc w) :: vvRegs 2 w

/-- V_VSEL: vd = p[VC] ? va : vb, per lane. -/
def execVVsel (c : Nat) (s : State) : Outc :=
  .next (
    match s.vReady c 0x0F none vselRegs with
    | none => s
    | some v =>
      let t := v.issue (vselRegs v.w)
      let p := v.x.pred (vVc v.w % 8)
      s.setV c ((v.x.writeLanes (vVd v.w) ((v.x.active (vPg v.w)).map (fun i => (i, if tbit p i then v.a i else v.b i)))).go t 2 [vVd v.w]))

/-- The comparison of R121's COND codes: 0 EQ, 1 NE, 2 LT, 3 LE, 4 GT, 5 GE, 6 UNORD. -/
def condOf (cond : Nat) (r : Option Int) : Bool :=
  match r with
  | none => cond == 1 || cond == 6
  | some x =>
    match cond with
    | 0 => x == 0 | 1 => x != 0 | 2 => decide (x < 0) | 3 => decide (x ≤ 0) | 4 => decide (0 < x) | 5 => decide (0 ≤ x) | _ => false

/-- The order of two words by type. -/
def cmpBy (fn a b : Nat) : Option Int :=
  match fn with
  | 0 => (fp32.decode a).cmp (fp32.decode b)
  | 2 => some (if sgn 32 a < sgn 32 b then -1 else if a = b then 0 else 1)
  | _ => some (if a < b then -1 else if a = b then 0 else 1)

def vcmpRegs (w : Nat) : List Nat := [cP (vVd w), cP (vPg w), vVa w, vVb w]

/-- A number from the bits a test selects among lanes. -/
def bitsWhere (f : Nat → Bool) : Nat := ((List.range 64).filter f).foldl (fun a i => a + 2 ^ i) 0

/-- V_VCMP: p[VD] bit i = va[i] COND vb[i], and 0 where PG is 0. -/
def execVVcmp (c : Nat) (s : State) : Outc :=
  .next (
    match s.vReady c 0x10 none vcmpRegs with
    | none => s
    | some v =>
      let t := v.issue (vcmpRegs v.w)
      let pg := v.x.pred (vPg v.w)
      s.setV c ((v.x.setPred (vVd v.w % 8) (bitsWhere (fun i => tbit pg i && condOf (vVc v.w) (cmpBy v.fn (v.a i) (v.b i))))).go t 2 [cP (vVd v.w)]))

def plogicRegs (w : Nat) : List Nat := [cP (vVd w), cP (vVa w), cP (vVb w)]

/-- V_PLOGIC: p[VD] = p[VA] op p[VB]. -/
def execVPlogic (c : Nat) (s : State) : Outc :=
  .next (
    match s.vReady c 0x11 none plogicRegs with
    | none => s
    | some v =>
      let t := v.issue (plogicRegs v.w)
      let a := v.x.pred (vVa v.w % 8)
      let b := v.x.pred (vVb v.w % 8)
      let r := match v.fn with
        | 0 => a &&& b
        | 1 => a ||| b
        | 2 => a ^^^ b
        | 3 => a &&& (ones64 - b)
        | _ => ones64 - a
      s.setV c ((v.x.setPred (vVd v.w % 8) r).go t 1 [cP (vVd v.w)]))

/-- FP32 to INT32 (R126): nearest even, saturating, NaN to 0. -/
def toInt32 (x : Num) : Nat × FpFlags :=
  match x with
  | .nan => (0, { invalid := true })
  | .inf n => (if n then 2 ^ 31 else 2 ^ 31 - 1, {})
  | .fin n m e =>
    let i := Num.toInt n m e
    if i < -(2 ^ 31) then (2 ^ 31, { overflow := true })
    else if 2 ^ 31 ≤ i then (2 ^ 31 - 1, { overflow := true })
    else (wrapI 32 i, {})

/-- FP32 to the nearest integral FP32, ties to even; the sign of a zero result is the operand's. -/
def toIntegral (x : Num) : Num :=
  match x with
  | .fin n m e => if 0 ≤ e then .fin n m e else .fin n (rneShift m (-e).toNat) 0
  | y => y

/-- V_VCVT: the conversions of R121. -/
def execVVcvt (c : Nat) (s : State) : Outc :=
  .next (s.vLanes c 0x12 2 3 (fun v i =>
    match v.fn with
    | 0 =>
      let l := bf16.round (fp32.decode (v.a i))
      let h := bf16.round (fp32.decode (v.b i))
      (l.1 + h.1 * 65536, l.2.join h.2)
    | 1 => fp32.round (bf16.decode (v.a i % 65536))
    | 2 => fp32.round (bf16.decode (v.a i / 65536))
    | 3 => toInt32 (fp32.decode (v.a i))
    | 4 => fp32.round (Num.ofInt (sgn 32 (v.a i)))
    | 5 => fp32.round (Num.ofInt (v.a i : Nat))
    | _ => fp32.round (toIntegral (fp32.decode (v.a i)))))

/-- V_VPERM: vd[i] = va[vb[i] & 63]. -/
def execVVperm (c : Nat) (s : State) : Outc := .next (s.vLanes c 0x13 2 3 (fun v i => plain (v.a (v.b i % 64))))

def vmovaRegs (w : Nat) : List Nat := [vVd w, cP (vPg w), cA (vVa w % 16)]

/-- V_VMOVA: every lane of vd = a[VA]. -/
def execVVmova (c : Nat) (s : State) : Outc :=
  .next (
    match s.vReady c 0x14 none vmovaRegs with
    | none => s
    | some v =>
      let t := v.issue (vmovaRegs v.w)
      let a := v.x.areg (vVa v.w % 16)
      s.setV c ((v.x.writeLanes (vVd v.w) ((v.x.active (vPg v.w)).map (fun i => (i, a)))).go t 2 [vVd v.w]))

/-- V_VLANE: vd[i] = i. -/
def execVVlane (c : Nat) (s : State) : Outc := .next (s.vLanes c 0x15 0 1 (fun _ i => plain i))

/-! ## Reductions and scans (R127) -/

/-- A whole-register VV instruction with a latency: `f` gives every lane's word from the active lanes, and the flags. -/
def State.vWhole (s : State) (c op n lat : Nat) (f : VEnv → List Nat → List Nat × FpFlags) : State :=
  match s.vReady c op none (vvRegs n) with
  | none => s
  | some v =>
    let t := v.issue (vvRegs n v.w)
    let act := v.x.active (vPg v.w)
    let r := f v act
    s.setV c (((v.x.writeLanes (vVd v.w) (act.map (fun i => (i, r.1.getD i 0)))).flag r.2).go t lat [vVd v.w])

/-- The words with inactive lanes as `idn`. -/
def VEnv.masked (v : VEnv) (act : List Nat) (idn : Nat) : List Nat := (List.range 64).map (fun i => if act.contains i then v.a i else idn)

/-- One level of a pairwise tree over a list. -/
def pairLevel (f : Nat → Nat → Nat × FpFlags) : List Nat → List Nat × FpFlags
  | a :: b :: l => let r := f a b; let t := pairLevel f l; (r.1 :: t.1, r.2.join t.2)
  | l => (l, {})

/-- The tree of six levels over 64 lanes (R127). -/
def treeSum (f : Nat → Nat → Nat × FpFlags) : (levels : Nat) → List Nat → Nat × FpFlags
  | 0, l => (l.headD 0, {})
  | k + 1, l => let r := pairLevel f l; let t := treeSum f k r.1; (t.1, r.2.join t.2)

/-- The six levels of a scan (R127). -/
def scanLevels (f : Nat → Nat → Nat × FpFlags) : (levels dist : Nat) → List Nat → List Nat × FpFlags
  | 0, _, l => (l, {})
  | k + 1, d, l =>
    let rs := (List.range l.length).map (fun i => if d ≤ i then f (l.getD (i - d) 0) (l.getD i 0) else (l.getD i 0, {}))
    let t := scanLevels f k (2 * d) (rs.map (·.1))
    (t.1, (joinAll (rs.map (·.2))).join t.2)

def intAdd (a b : Nat) : Nat × FpFlags := plain (a + b)

/-- Latency of VRADD and VSCAN: 12, INT32 6. -/
def redLat (s : State) (c : Nat) : Nat := if vFn (s.vcell c).word = 2 then 6 else 12

/-- V_VRADD: every lane of vd = sum of the active lanes of va. -/
def execVVradd (c : Nat) (s : State) : Outc :=
  .next (s.vWhole c 0x18 1 (redLat s c) (fun v act =>
    let r := treeSum (if v.fn = 2 then intAdd else fp32.add) 6 (v.masked act 0)
    (List.replicate 64 r.1, r.2)))

/-- The identity of a maximum or minimum, by type (R127). -/
def extremeId (mx : Bool) (fn : Nat) : Nat :=
  match fn with
  | 0 => fp32.infCode mx
  | 2 => if mx then 2 ^ 31 else 2 ^ 31 - 1
  | _ => if mx then 0 else 2 ^ 32 - 1

/-- The maximum or minimum of the active lanes. -/
def reduceExtreme (mx : Bool) (v : VEnv) (act : List Nat) : List Nat × FpFlags :=
  let r := (v.masked act (extremeId mx v.fn)).foldl (fun (a : Nat) b => (minMax mx v.fn a b).1) (extremeId mx v.fn)
  (List.replicate 64 r, if v.fn = 0 then (fp32.round (fp32.decode r)).2 else {})

/-- V_VRMAX: every lane of vd = maximum of the active lanes. -/
def execVVrmax (c : Nat) (s : State) : Outc := .next (s.vWhole c 0x19 1 6 (reduceExtreme true))

/-- V_VRMIN: every lane of vd = minimum of the active lanes. -/
def execVVrmin (c : Nat) (s : State) : Outc := .next (s.vWhole c 0x1A 1 6 (reduceExtreme false))

/-- V_VSCAN: vd[i] = sum of active lanes j ≤ i; inactive lanes keep vd. -/
def execVVscan (c : Nat) (s : State) : Outc :=
  .next (s.vWhole c 0x1B 1 (redLat s c) (fun v act => scanLevels (if v.fn = 2 then intAdd else fp32.add) 6 1 (v.masked act 0)))

def vffsRegs (w : Nat) : List Nat := [cA (vVd w % 16), cP (vVa w)]

/-- V_VFFS: a[VD] = lowest set bit of p[VA]; 64 when none. -/
def execVVffs (c : Nat) (s : State) : Outc :=
  .next (
    match s.vReady c 0x1C none vffsRegs with
    | none => s
    | some v =>
      let t := v.issue (vffsRegs v.w)
      let p := v.x.pred (vVa v.w % 8)
      s.setV c ((v.x.setA (vVd v.w % 16) (((List.range 64).find? (tbit p)).getD 64)).go t 2 [cA (vVd v.w % 16)]))

/-- V_VPCNT: a[VD] = number of set bits of p[VA]. -/
def execVVpcnt (c : Nat) (s : State) : Outc :=
  .next (
    match s.vReady c 0x1D none vffsRegs with
    | none => s
    | some v =>
      let t := v.issue (vffsRegs v.w)
      let p := v.x.pred (vVa v.w % 8)
      s.setV c ((v.x.setA (vVd v.w % 16) ((List.range 64).filter (tbit p)).length).go t 2 [cA (vVd v.w % 16)]))

def vextRegs (w : Nat) : List Nat := [cA (vAd w), w / 2 ^ 17 % 32, cA (vxAm w)]

/-- V_VEXT: ad = va[(am + LANE) mod 64]. -/
def execVVext (c : Nat) (s : State) : Outc :=
  .next (
    match s.vReady c 0x1E none vextRegs with
    | none => s
    | some v =>
      let t := v.issue (vextRegs v.w)
      s.setV c ((v.x.setA (vAd v.w) (v.x.lane (v.w / 2 ^ 17 % 32) ((v.x.areg (vxAm v.w) + vxLane v.w) % 64))).go t 2 [cA (vAd v.w)]))

/-- V_VSFU: vd = f(va); VC[0] 0 FP32, 1 BF16 (R128). -/
def execVVsfu (c : Nat) (s : State) : Outc :=
  .next (
    match s.vReady c 0x20 none (vvRegs 1) with
    | none => s
    | some v =>
      let bf := tbit v.w 6
      let t := v.x.board.issue (vvRegs 1 v.w) v.x.board.sfuFree
      let f (i : Nat) : Nat × FpFlags :=
        if bf then
          let l := sfuBf v.fn (v.a i % 65536)
          let h := sfuBf v.fn (v.a i / 65536 % 65536)
          (l.1 + h.1 * 65536, l.2.join h.2)
        else sfu32 v.fn (v.a i)
      let rs := (v.x.active (vPg v.w)).map (fun i => (i, f i))
      let y := ((v.x.writeLanes (vVd v.w) (rs.map (fun r => (r.1, r.2.1)))).flag (joinAll (rs.map (·.2.2)))).go t (if bf then 16 else 12) [vVd v.w]
      s.setV c { y with board := { y.board with sfuFree := t + (if bf then 8 else 4) } })

/-! ## The top-k unit (R129, R130) -/

/-- Element x ranks before y in a selection's order: by value, equal values by lower index, NaN after every number. -/
def rankBefore (smallest : Bool) (x y : Nat × Nat) : Bool :=
  let a := fp32.decode x.1
  let b := fp32.decode y.1
  if a.isNan || b.isNan then (if a.isNan && b.isNan then decide (x.2 < y.2) else b.isNan)
  else
    match a.cmp b with
    | some r => if r = 0 then decide (x.2 < y.2) else if smallest then decide (r < 0) else decide (0 < r)
    | none => false

/-- Insert an element in its place. -/
def rankInsert (smallest : Bool) (x : Nat × Nat) : List (Nat × Nat) → List (Nat × Nat)
  | [] => [x]
  | y :: l => if rankBefore smallest x y then x :: y :: l else y :: rankInsert smallest x l

/-- The selection that is open, if any: the newest, until it is closed. -/
def VCell.openSel (x : VCell) : Option Sel := match x.sels.getLast? with | some q => if q.isOpen then some q else none | none => none

def tkRegs (w : Nat) : List Nat := [cA (tkAn w)]

/-- V_TKINIT: opens a selection; a fifth held discards the oldest (R129). -/
def execVTkinit (c : Nat) (s : State) : Outc :=
  .next (
    match s.vReady c 0x24 none tkRegs with
    | none => s
    | some v =>
      let t := v.issue (tkRegs v.w)
      let closed := v.x.sels.map (fun q => { q with isOpen := false })
      let full := decide (4 ≤ closed.length)
      let q : Sel := { k := tkKm1 v.w + 1, smallest := tbit v.w 0, counter := v.x.areg (tkAn v.w), items := [], isOpen := true, lastPush := t }
      let y := { v.x with sels := (if full then closed.tail else closed) ++ [q] }
      s.setV c ((if full then y.setStatus stTkLost else y).go t 1 []))

/-- V_TKPUSH: offers the active lanes of va to the open selection (R129). -/
def execVTkpush (c : Nat) (s : State) : Outc :=
  .next (
    match s.vReady c 0x25 none (fun w => [vVa w, cP (vPg w)]) with
    | none => s
    | some v =>
      let t := v.issue [vVa v.w, cP (vPg v.w)]
      match v.x.openSel with
      | none => s.setV c ((v.x.setStatus stTkEmpty).go t 1 [])
      | some q =>
        if 0xFFFFFFFF < q.counter + 63 then s.setV c ((v.x.setStatus stTkOvf).go t 1 [])
        else
          let its := (v.x.active (vPg v.w)).foldl (fun (l : List (Nat × Nat)) i => (rankInsert q.smallest (v.a i, q.counter + i) l).take q.k) q.items
          s.setV c ({ v.x with sels := v.x.sels.dropLast ++ [{ q with items := its, counter := q.counter + 64, lastPush := t }] }.go t 1 []))

/-- V_TKPOP: pops the oldest selection into VD and VE, best first, the rest filled (R129, R130). With none held every lane is
filled; which of the two fill values then stands in VD the spec does not say: a free choice. -/
def execVTkpop (c : Nat) (s : State) : Outc :=
  .next (
    match s.vReady c 0x26 none (fun w => [vVd w, tkVe w]) with
    | none => s
    | some v =>
      let t := v.issue [vVd v.w, tkVe v.w]
      let fill (smallest : Bool) (its : List (Nat × Nat)) : VCell :=
        let y := v.x.writeLanes (vVd v.w) ((List.range 64).map (fun i => (i, match its[i]? with | some e => e.1 | none => fp32.infCode (!smallest))))
        y.writeLanes (tkVe v.w) ((List.range 64).map (fun i => (i, match its[i]? with | some e => e.2 | none => 0xFFFFFFFF)))
      match v.x.sels with
      | [] => { s with free := s.free + 1 }.setV c (((fill (Config.freeNat s.free % 2 == 1) []).setStatus stTkEmpty).go t 2 [vVd v.w, tkVe v.w])
      | q :: rest =>
        let y := { (fill q.smallest q.items) with sels := rest }
        s.setV c (y.go t (max 2 (q.lastPush + 25 - t)) [vVd v.w, tkVe v.w]))

/-! ## Random words (R131): Philox-4x32-10 -/

/-- The rounds of the generator on counter and key words. -/
def philoxGo : (rounds c0 c1 c2 c3 k0 k1 : Nat) → Nat
  | 0, c0, _, _, _, _, _ => c0
  | n + 1, c0, c1, c2, c3, k0, k1 =>
    let p0 := 0xD2511F53 * c0
    let p1 := 0xCD9E8D57 * c2
    philoxGo n ((p1 / 2 ^ 32) ^^^ c1 ^^^ k0) (p1 % 2 ^ 32) ((p0 / 2 ^ 32) ^^^ c3 ^^^ k1) (p0 % 2 ^ 32) ((k0 + 0x9E3779B9) % 2 ^ 32) ((k1 + 0xBB67AE85) % 2 ^ 32)

/-- Output word 0 of Philox-4x32-10. -/
def philox (c0 c1 c2 k0 k1 : Nat) : Nat := philoxGo 10 c0 c1 c2 0 k0 k1

def vrandRegs (w : Nat) : List Nat := [vVd w, vVa w, cP (vPg w), cA (vVb w % 16)]

/-- V_VRAND: random words, FN 0 raw, 1 uniform. -/
def execVVrand (c : Nat) (s : State) : Outc :=
  .next (
    match s.vReady c 0x28 none vrandRegs with
    | none => s
    | some v =>
      let t := v.issue (vrandRegs v.w)
      let f (i : Nat) : Nat :=
        let x := philox (v.a i) i (v.x.areg (vVb v.w % 16)) v.x.rngLo v.x.rngHi
        if v.fn = 0 then x else fp32.code (.fin false (x / 256) (-24))
      s.setV c ((v.x.writeLanes (vVd v.w) ((v.x.active (vPg v.w)).map (fun i => (i, f i)))).go t 6 [vVd v.w]))

/-! ## Address arithmetic, branches, system registers, control (R121, R133) -/

def aiRegs (w : Nat) : List Nat := [cA (vAd w), cA (vAn w)]

/-- V_AADDI: ad = an + IMM18. -/
def execVAaddi (c : Nat) (s : State) : Outc :=
  .next (
    match s.vReady c 0x38 none aiRegs with
    | none => s
    | some v => s.setV c ((v.x.setA (vAd v.w) (wrapI 32 ((v.x.areg (vAn v.w) : Nat) + vImm18 v.w))).go (v.issue (aiRegs v.w)) 1 [cA (vAd v.w)]))

/-- The address operations of AOP (R121). -/
def aop (fn a b : Nat) : Nat :=
  match fn with
  | 0 => a + b
  | 1 => a + 2 ^ 32 - b
  | 2 => a &&& b
  | 3 => a ||| b
  | 4 => a ^^^ b
  | 5 => if b < 32 then a * 2 ^ b else 0
  | 6 => if b < 32 then a / 2 ^ b else 0
  | _ => a * b

/-- A shift of an address register by 32 or more has no result the spec states. -/
def aopOpen (fn b : Nat) : Bool := (fn == 5 || fn == 6) && decide (32 ≤ b)

def arRegs (w : Nat) : List Nat := [cA (vAd w), cA (vAn w), cA (vAm w)]

/-- V_AOP: ad = an op am; a shift by 32 or more, whose result the spec does not state, gives a free value. -/
def execVAop (c : Nat) (s : State) : Outc :=
  .next (
    match s.vReady c 0x39 none arRegs with
    | none => s
    | some v =>
      let a := v.x.areg (vAn v.w)
      let b := v.x.areg (vAm v.w)
      let r := if aopOpen v.fn b then Config.freeNat s.free else aop v.fn a b
      { s with free := s.free + 1 }.setV c ((v.x.setA (vAd v.w) r).go (v.issue (arRegs v.w)) (if v.fn = 7 then 3 else 1) [cA (vAd v.w)]))

/-- V_ALUI: ad = IMM18 << 14, IMM18 unsigned. -/
def execVAlui (c : Nat) (s : State) : Outc :=
  .next (
    match s.vReady c 0x3A none (fun w => [cA (vAd w)]) with
    | none => s
    | some v => s.setV c ((v.x.setA (vAd v.w) (v.w % 2 ^ 18 * 2 ^ 14)).go (v.issue [cA (vAd v.w)]) 1 [cA (vAd v.w)]))

/-- The branch conditions of R121. -/
def vBranch (x : VCell) (w : Nat) : Bool :=
  let a := x.areg (vbAn w)
  let b := x.areg (vbAm w)
  match vbCond w with
  | 0 => a == b
  | 1 => a != b
  | 2 => decide (sgn 32 a < sgn 32 b)
  | 3 => decide (sgn 32 b ≤ sgn 32 a)
  | 4 => decide (a < b)
  | 5 => decide (b ≤ a)
  | 6 => true
  | _ => x.pred (vbAn w % 8) != 0

def brRegs (w : Nat) : List Nat := if vbCond w = 7 then [cP (vbAn w)] else [cA (vbAn w), cA (vbAm w)]

/-- V_BR: branch to PC + OFF when the condition holds. -/
def execVBr (c : Nat) (s : State) : Outc :=
  .next (
    match s.vReady c 0x3C none brRegs with
    | none => s
    | some v =>
      let t := v.issue (brRegs v.w)
      let y := v.x.go t 1 []
      if vBranch v.x v.w then s.setV c { y with pc := ((v.x.pc : Int) + vbOff v.w).toNat, board := { y.board with next := t + 2 } } else s.setV c y)

/-- A system register of R133 as a read returns it. -/
def State.vSr (s : State) (c : Nat) (x : VCell) (sr : Nat) : Nat :=
  match sr with
  | 0x00 => c
  | 0x01 => (s.block (c / 20)).cycles % 2 ^ 32
  | 0x02 => x.cycleHi
  | 0x03 => x.status
  | 0x04 => x.emitStatus
  | 0x05 => x.emitCount
  | 0x06 => x.rngLo
  | 0x07 => x.rngHi
  | 0x08 => x.sels.length
  | 0x09 => x.paramLen
  | _ => 0

/-- A write of a system register (R9, R133): STATUS clears the bits written as 1, the key words store, RO registers discard. -/
def VCell.writeSr (x : VCell) (sr v : Nat) : VCell :=
  match sr with
  | 0x03 => { x with status := x.status - (x.status &&& v) }
  | 0x06 => { x with rngLo := v }
  | 0x07 => { x with rngHi := v }
  | _ => x

/-- V_SR: read or write a system register. -/
def execVSr (c : Nat) (s : State) : Outc :=
  .next (
    match s.vReady c 0x3E none (fun w => [cA (vAd w)]) with
    | none => s
    | some v =>
      let t := v.issue [cA (vAd v.w)]
      let sr := sysSr v.w
      if sysDir v.w then s.setV c ((v.x.writeSr sr (v.x.areg (vAd v.w))).go t 1 [])
      else
        let y := if sr = 0x01 then { v.x with cycleHi := (s.block (c / 20)).cycles / 2 ^ 32 % 2 ^ 32 } else v.x
        s.setV c ((y.setA (vAd v.w) (s.vSr c v.x sr)).go t 1 [cA (vAd v.w)]))

/-- V_NOP. -/
def execVNop (c : Nat) (s : State) : Outc :=
  .next (match s.vReady c 0x3F (some 0) (fun _ => []) with | none => s | some v => s.setV c (v.x.go (v.issue []) 1 []))

/-- V_END: issue stops; the commit follows once every earlier slice store has completed (R124). -/
def execVEnd (c : Nat) (s : State) : Outc :=
  .next (match s.vReady c 0x3F (some 1) (fun _ => []) with | none => s | some v => (s.setV c (v.x.go (v.issue []) 1 [])).endStart v.e)

/-- V_DRAIN: nothing issues until every earlier slice store has completed (R123). -/
def execVDrain (c : Nat) (s : State) : Outc :=
  .next (
    match s.vReady c 0x3F (some 3) (fun _ => []) with
    | none => s
    | some v =>
      let t := v.issue []
      let y := v.x.go t 1 []
      s.setV c { y with drain := true, board := { y.board with next := max (t + 1) (v.x.board.storeDone + 1) } })

/-! ## Start (R117) -/

/-- The slice-form address of a tile (R118). -/
def tileAddr (w : Waybill) : Nat := if w.kind = 0 then 2 ^ 31 + w.tileBlock * 2 ^ 25 + w.tileOff * 64 else 0

/-- Cycle 6 of a start on a V-cell (R117). -/
def State.startV (s : State) (c : Nat) (w : Waybill) : State :=
  let x := s.vcell c
  s.setV c { x with local' := Memory.writeL x.local' 0x3FFC0 (bytesOf 64 w.toNat), v := [], p := [], a := put0 [(1, 0x3FFC0)] 2 (tileAddr w), pc := 0, sels := [], status := 0, emitStatus := 0, emitCount := 0, rngLo := w.arg % 2 ^ 32, rngHi := w.arg / 2 ^ 32, pend := [], drain := false, board := {} }

end Sys2Proof.Machine
end

