-- ==== Sys2Proof/Machine/VMem.lean ====
section
/-! DEFINITION. Sys2Proof/Machine/VMem.lean: the memory instructions and the EMIT of vector cells, their run-time checks, and the
checks at bind (04_vector_cells R118, R122, R123, R132, R134, R135). -/

namespace Sys2Proof.Machine

/-- Where a run-time address leads (R118, R135), or the fault it makes. -/
inductive VAddr where
  | lm (off : Nat)
  | slice (block off : Nat)
  | bad (c : FaultCode)
deriving DecidableEq, Repr

/-- An address with an access size, checked in the order of R135's table. -/
def vAddr (a size : Nat) : VAddr :=
  if a / 2 ^ 31 % 2 = 0 then
    (if a / 2 ^ 18 ≠ 0 then .bad .lmRange else if a % size ≠ 0 then .bad .align else .lm a)
  else
    let b := a / 2 ^ 25 % 64
    let off := a % 2 ^ 25
    if 59 < b ∨ ringAreaBase ≤ off then .bad .sliceRange
    else if a % size ≠ 0 then .bad .align
    else .slice b off

/-- A run-time fault of a cell's start (R135). -/
def VEnv.fault (v : VEnv) (s : State) (c : FaultCode) (addr : Nat) : State := s.programFault v.e c v.x.pc addr

/-- Bytes of a VLD or VST type, and of one lane of it (R122). -/
def tyBytes (ty : Nat) : Nat := match ty with | 0 => 256 | 1 => 256 | 2 => 128 | 3 => 128 | _ => 64
def tyLane (ty : Nat) : Nat := match ty with | 0 => 4 | 1 => 4 | 2 => 2 | 3 => 2 | _ => 1

/-- A lane's word from its element in memory (R122). -/
def tyLoad (ty x : Nat) : Nat :=
  match ty with
  | 0 => x
  | 1 => x
  | 2 => fp32.code (bf16.decode x)
  | 3 => fp32.code (fp16.decode x)
  | 4 => fp32.code (e4m3.decode x)
  | 5 => fp32.code (e5m2.decode x)
  | 6 => wrapI 32 (sgn 8 x)
  | _ => x

/-- A narrowing store's code and flags (R106, R122, R133). -/
def narrow (f : Fmt) (x : Nat) : Nat × FpFlags := let v := fp32.decode x; (f.store v, f.storeFlags v)

/-- A lane's element in memory from its word (R122). -/
def tyStore (ty x : Nat) : Nat × FpFlags :=
  match ty with
  | 0 => (x, {})
  | 1 => (x, {})
  | 2 => narrow bf16 x
  | 3 => narrow fp16 x
  | 4 => narrow e4m3 x
  | 5 => narrow e5m2 x
  | 6 => let i := sgn 32 x; let j := max (-128) (min 127 i); (wrapI 8 j, { overflow := decide (i ≠ j) })
  | _ => let i := sgn 32 x; let j := max 0 (min 255 i); (wrapI 8 j, { overflow := decide (i ≠ j) })

/-- The words a load gives to lanes, from a byte source. -/
def loadLanes (get : Nat → Nat → Nat) (ty : Nat) (lanes : List Nat) : List (Nat × Nat) :=
  lanes.map (fun i => (i, tyLoad ty (get (i * tyLane ty) (tyLane ty))))

/-- The board after a slice load of these lines (R123), with the code of its destination; `add` is R101's addition. A load whose
line is one of an earlier store not yet complete begins in the cycle after that store completes. -/
def Board.load (b : Board) (t : Nat) (lines : List Nat) (add r : Nat) : Board :=
  let d := max (max t b.loadAt) (b.clear lines)
  { ((b.done t 1 [(r, d + cdiv lines.length 2 + 12 + add)]).note d) with loadAt := d + cdiv lines.length 2 }

/-- The board after a slice store of these lines (R123); `add` is R101's addition. -/
def Board.store (b : Board) (t : Nat) (lines : List Nat) (add : Nat) : Board :=
  let d := max t b.storeAt
  let e := d + cdiv lines.length 2 + 7 + add
  { ((b.done t 1 []).note d) with storeAt := d + cdiv lines.length 2, storeDone := max b.storeDone e, stores := b.stores.filter (fun x => decide (t ≤ x.2)) ++ lines.map (fun l => (l, e)) }

/-- A slice load by a V-cell: its access begins, and its destination waits. -/
def VEnv.sliceLoad (v : VEnv) (s : State) (t named off n r : Nat) (dest : Nat → Dest) (va : Nat) : State :=
  match s.phys v.ex.part named with
  | none => s.addViolation v.c v.ex.part va
  | some b =>
    let key := sliceKey b off
    let ls := linesOf key n
    let y := { v.x with pc := v.x.pc + 1, drain := false, pend := v.x.pend ++ [r], board := v.x.board.load (max t v.x.board.gate) ls (maxN (s.pathAdds v.c ls false)) r }
    (s.setV v.c y).addAccess { who := .cell v.c, part := v.ex.part, dest := dest key, got := [], left := 0, lost := 0, store := false } (readClaims v.c ls)

/-- A slice store by a V-cell. -/
def VEnv.sliceStore (v : VEnv) (s : State) (t named off : Nat) (bytes : List (Nat × BitVec 8)) (fl : FpFlags) (va : Nat) : State :=
  match s.phys v.ex.part named with
  | none => s.addViolation v.c v.ex.part va
  | some b =>
    let cl := writeClaims v.c (bytes.map (fun x => (sliceKey b off + x.1, x.2)))
    let ls := cl.map (fun x => x.1 * 2 ^ 19 + x.2.1)
    let y := { (v.x.flag fl) with pc := v.x.pc + 1, drain := false, board := v.x.board.store (max t v.x.board.gate) ls (maxN (s.pathAdds v.c ls true)) }
    let s1 := s.setV v.c y
    if cl.isEmpty then s1
    else s1.addAccess { who := .cell v.c, part := v.ex.part, dest := .none, got := [], left := 0, lost := 0, store := true } cl

/-- The address of a VM instruction. -/
def vmAddr (x : VCell) (w : Nat) : Nat := wrapI 32 ((x.areg (vmAn w) : Nat) + vmImm w * 64)

def vmRegs (w : Nat) : List Nat := [vVd w, cP (vmPg w), cA (vmAn w)]

/-- V_VLD: load from an + IMM × 64 (R122). -/
def execVVld (c : Nat) (s : State) : Outc :=
  .next (
    match s.vReady c 0x30 none vmRegs with
    | none => s
    | some v =>
      let ty := vmTy v.w
      let a := vmAddr v.x v.w
      let t := v.issue (vmRegs v.w)
      match vAddr a (tyBytes ty) with
      | .bad k => v.fault s k a
      | .lm off => s.setV c ((v.x.writeLanes (vVd v.w) (loadLanes (fun i n => Memory.readN v.x.local' (off + i) n) ty (v.x.active (vmPg v.w)))).go t 3 [vVd v.w])
      | .slice b off => v.sliceLoad s t b off (tyBytes ty) (vVd v.w) (fun key => .vreg (vVd v.w) ty (v.x.pred (vmPg v.w)) key) a)

/-- V_VST: store to an + IMM × 64; only the bytes of active lanes (R122). -/
def execVVst (c : Nat) (s : State) : Outc :=
  .next (
    match s.vReady c 0x31 none vmRegs with
    | none => s
    | some v =>
      let ty := vmTy v.w
      let a := vmAddr v.x v.w
      let t := v.issue (vmRegs v.w)
      let rs := (v.x.active (vmPg v.w)).map (fun i => (i, tyStore ty (v.x.lane (vVd v.w) i)))
      let bytes := rs.flatMap (fun r => keyed (r.1 * tyLane ty) (bytesOf (tyLane ty) r.2.1))
      let fl := joinAll (rs.map (·.2.2))
      match vAddr a (tyBytes ty) with
      | .bad k => v.fault s k a
      | .lm off => s.setV c (({ v.x with local' := bytes.foldl (fun (m : Sys2Proof.Mem) (x : Nat × BitVec 8) => Memory.write m (off + x.1) x.2) v.x.local' }.flag fl).go t 1 [])
      | .slice b off => v.sliceStore s t b off bytes fl a)

def gatherRegs (w : Nat) : List Nat := [vVd w, vVa w, cP (vPg w), cA (vVb w % 16)]

/-- The address of a gathered word, before its check: a[VB] + 4 × va[i]. -/
def VEnv.gatherAddr (v : VEnv) (i : Nat) : Nat := v.x.areg (vVb v.w % 16) + 4 * v.a i

/-- The first fault of a gather: slice form or a word beyond local memory, then alignment (R135). -/
def VEnv.gatherFault (v : VEnv) (act : List Nat) : Option (FaultCode × Nat) :=
  let base := v.x.areg (vVb v.w % 16)
  if 2 ^ 31 ≤ base then some (.lmRange, base)
  else
    match act.find? (fun i => decide (2 ^ 18 ≤ v.gatherAddr i)) with
    | some i => some (.lmRange, v.gatherAddr i)
    | none => match act.find? (fun i => v.gatherAddr i % 4 != 0) with | some i => some (.align, v.gatherAddr i) | none => none

/-- V_VLDX: vd[i] = word at a[VB] + 4 × va[i], local only. -/
def execVVldx (c : Nat) (s : State) : Outc :=
  .next (
    match s.vReady c 0x32 none gatherRegs with
    | none => s
    | some v =>
      let act := v.x.active (vPg v.w)
      let t := v.x.board.issue (gatherRegs v.w) v.x.board.gatherFree
      match v.gatherFault act with
      | some f => v.fault s f.1 f.2
      | none =>
        let y := (v.x.writeLanes (vVd v.w) (act.map (fun i => (i, Memory.readN v.x.local' (v.gatherAddr i) 4)))).go t 7 [vVd v.w]
        s.setV c { y with board := { y.board with gatherFree := t + 4 } })

/-- V_VSTX: word at a[VB] + 4 × va[i] = vd[i], local only; on equal addresses the higher lane wins. -/
def execVVstx (c : Nat) (s : State) : Outc :=
  .next (
    match s.vReady c 0x33 none gatherRegs with
    | none => s
    | some v =>
      let act := v.x.active (vPg v.w)
      let t := v.x.board.issue (gatherRegs v.w) v.x.board.gatherFree
      match v.gatherFault act with
      | some f => v.fault s f.1 f.2
      | none =>
        let y := { v.x with local' := act.foldl (fun (m : Sys2Proof.Mem) i => Memory.writeN m (v.gatherAddr i) 4 (v.x.lane (vVd v.w) i)) v.x.local' }.go t 1 []
        s.setV c { y with board := { y.board with gatherFree := t + 4 } })

/-- The address of an AI memory instruction. -/
def aiAddr (x : VCell) (w : Nat) : Nat := wrapI 32 ((x.areg (vAn w) : Nat) + vImm18 w * 4)

/-- V_LDA: ad = 32-bit word at an + IMM18 × 4. -/
def execVLda (c : Nat) (s : State) : Outc :=
  .next (
    match s.vReady c 0x34 none aiRegs with
    | none => s
    | some v =>
      let a := aiAddr v.x v.w
      let t := v.issue (aiRegs v.w)
      match vAddr a 4 with
      | .bad k => v.fault s k a
      | .lm off => s.setV c ((v.x.setA (vAd v.w) (Memory.readN v.x.local' off 4)).go t 3 [cA (vAd v.w)])
      | .slice b off => v.sliceLoad s t b off 4 (cA (vAd v.w)) (fun key => .areg (vAd v.w) key) a)

/-- V_STA: word at an + IMM18 × 4 = ad. -/
def execVSta (c : Nat) (s : State) : Outc :=
  .next (
    match s.vReady c 0x35 none aiRegs with
    | none => s
    | some v =>
      let a := aiAddr v.x v.w
      let t := v.issue (aiRegs v.w)
      let word := v.x.areg (vAd v.w)
      match vAddr a 4 with
      | .bad k => v.fault s k a
      | .lm off => s.setV c ({ v.x with local' := Memory.writeN v.x.local' off 4 word }.go t 1 [])
      | .slice b off => v.sliceStore s t b off (keyed 0 (bytesOf 4 word)) {} a)

/-- V_EMIT: the record at the local address in an becomes a waybill of the commit, or its reject code goes to ad and
EMIT_STATUS (R132). -/
def execVEmit (c : Nat) (s : State) : Outc :=
  .next (
    match s.vReady c 0x3F (some 2) aiRegs with
    | none => s
    | some v =>
      let a := v.x.areg (vAn v.w)
      let t := v.issue (aiRegs v.w)
      match vAddr a 64 with
      | .bad .sliceRange => v.fault s .lmRange a
      | .bad k => v.fault s (if 2 ^ 31 ≤ a then .lmRange else k) a
      | .slice _ _ => v.fault s .lmRange a
      | .lm off =>
        let r := s.addEmit v.e v.ex v.st (recordWaybill (Memory.readL v.x.local' off 64) v.st.wb.context (ctKeepF v.w))
        match r.2 with
        | none => r.1.setV c (({ v.x with emitCount := v.x.emitCount + 1 }.setA (vAd v.w) 0).go t 2 [cA (vAd v.w)])
        | some k => r.1.setV c (({ v.x with emitStatus := k.reject }.setA (vAd v.w) k.reject).go t 2 [cA (vAd v.w)]))

/-! ## The checks at bind (R134) -/

/-- The bits that an instruction of R121 may set, by OP (and by SUB for CTL): OP and the fields it uses. -/
def vMask (w : Nat) : Nat :=
  let f (hi lo : Nat) : Nat := (2 ^ (hi - lo + 1) - 1) * 2 ^ lo
  let vd := f 25 21
  let va := f 20 16
  let vb := f 15 11
  let vc := f 10 6
  let pg := f 5 3
  let fn := f 2 0
  let ai := f 25 0
  2 ^ 26 * 63 + (match vOp w with
    | 0x01 => vd + va + vb + pg + fn | 0x02 => vd + va + vb + pg + fn | 0x03 => vd + va + vb + pg + fn
    | 0x04 => vd + va + vb + vc + pg + fn | 0x05 => vd + va + vb + vc + pg + fn
    | 0x06 => vd + va + vb + pg + fn | 0x07 => vd + va + vb + pg + fn | 0x08 => vd + va + pg + fn | 0x09 => vd + va + pg + fn
    | 0x0A => vd + va + vb + pg + fn | 0x0B => vd + va + vb + pg + fn | 0x0C => vd + va + vb + pg + fn
    | 0x0D => vd + va + vb + pg + fn | 0x0E => vd + va + vb + pg + fn
    | 0x0F => vd + va + vb + f 8 6 + pg + fn
    | 0x10 => f 23 21 + va + vb + vc + pg + fn
    | 0x11 => f 23 21 + f 18 16 + (if vFn w = 4 then 0 else f 13 11) + fn
    | 0x12 => vd + va + (if vFn w = 0 then vb else 0) + pg + fn
    | 0x13 => vd + va + vb + pg + fn
    | 0x14 => vd + f 19 16 + pg + fn
    | 0x15 => vd + pg + fn
    | 0x18 => vd + va + pg + fn | 0x19 => vd + va + pg + fn | 0x1A => vd + va + pg + fn | 0x1B => vd + va + pg + fn
    | 0x1C => f 24 21 + f 18 16 | 0x1D => f 24 21 + f 18 16
    | 0x1E => f 25 7
    | 0x20 => vd + va + f 6 6 + pg + fn
    | 0x24 => f 10 0
    | 0x25 => va + pg + fn
    | 0x26 => f 25 16
    | 0x28 => vd + va + f 14 11 + pg + fn
    | 0x30 => ai | 0x31 => ai
    | 0x32 => vd + va + f 14 11 + pg + fn | 0x33 => vd + va + f 14 11 + pg + fn
    | 0x34 => ai | 0x35 => ai | 0x38 => ai
    | 0x39 => f 25 14 + fn
    | 0x3A => f 25 22 + f 17 0
    | 0x3C => if vbCond w = 6 then f 17 0 else if vbCond w = 7 then f 24 22 + f 17 0 else ai
    | 0x3E => f 25 16 + 1
    | 0x3F => f 17 15 + (if ctSub w = 2 then f 25 18 + f 14 14 else 0)
    | _ => 0)

/-- OP codes of R121. -/
def vOps : List Nat :=
  [0x01, 0x02, 0x03, 0x04, 0x05, 0x06, 0x07, 0x08, 0x09, 0x0A, 0x0B, 0x0C, 0x0D, 0x0E, 0x0F, 0x10, 0x11, 0x12, 0x13, 0x14, 0x15,
    0x18, 0x19, 0x1A, 0x1B, 0x1C, 0x1D, 0x1E, 0x20, 0x24, 0x25, 0x26, 0x28, 0x30, 0x31, 0x32, 0x33, 0x34, 0x35, 0x38, 0x39, 0x3A,
    0x3C, 0x3E, 0x3F]

/-- FN (or COND of VCMP) allowed for an instruction (R121, R134 BAD_TYPE). -/
def vTypeOk (w : Nat) : Bool :=
  let fn := vFn w
  match vOp w with
  | 0x01 => decide (fn ≤ 2) | 0x02 => decide (fn ≤ 2) | 0x03 => decide (fn ≤ 2) | 0x04 => decide (fn ≤ 1) | 0x05 => decide (fn ≤ 1)
  | 0x06 => decide (fn ≤ 3) | 0x07 => decide (fn ≤ 3) | 0x08 => decide (fn ≤ 2) | 0x09 => decide (fn ≤ 2)
  | 0x0A => fn == 0 | 0x0B => fn == 0 | 0x0C => fn == 0 | 0x0D => fn == 2 | 0x0E => fn == 2 || fn == 3 | 0x0F => fn == 0
  | 0x10 => (fn == 0 || fn == 2 || fn == 3) && decide (vVc w ≤ 6)
  | 0x11 => decide (fn ≤ 4) | 0x12 => decide (fn ≤ 6) | 0x13 => fn == 0 | 0x14 => fn == 0 | 0x15 => fn == 0
  | 0x18 => fn == 0 || fn == 2 | 0x19 => fn == 0 || fn == 2 || fn == 3 | 0x1A => fn == 0 || fn == 2 || fn == 3
  | 0x1B => fn == 0 || fn == 2 | 0x20 => decide (fn ≤ 5) | 0x25 => fn == 0 | 0x28 => decide (fn ≤ 1) | 0x32 => fn == 0 | 0x33 => fn == 0
  | _ => true

/-- The check code of one instruction in a program of n (R134), in the order of the table. -/
def vCheckOne (n i w : Nat) : Option Nat :=
  if !vOps.contains (vOp w) || (vOp w == 0x3F && 3 < ctSub w) then some ckBadOp
  else if rsvdSet w (vMask w) then some ckFieldSet
  else if !vTypeOk w then some ckBadType
  else if (vOp w == 0x10 || vOp w == 0x11) && vVd w % 8 == 0 then some ckP0Write
  else if vOp w == 0x3C && ((i : Int) + vbOff w < 0 || (n : Int) ≤ (i : Int) + vbOff w) then some ckBadTarget
  else if vOp w == 0x3E && 9 < sysSr w then some ckBadSr
  else none

/-- R134: the first failing instruction and its code, or none when the program passes. -/
def vCheck (prog : List (BitVec 8)) : Option (Nat × Nat) :=
  let n := prog.length / 4
  let word (i : Nat) : Nat := ofBytes ((prog.drop (4 * i)).take 4)
  match (List.range n).filterMap (fun i => (vCheckOne n i (word i)).map (fun c => (i, c))) with
  | x :: _ => some x
  | [] =>
    let l := word (n - 1)
    if (vOp l == 0x3F && ctSub l == 1) || (vOp l == 0x3C && vbCond l == 6) then none else some (n - 1, ckNoEnd)

end Sys2Proof.Machine
end

