-- ==== Sys2Proof/Machine/SCells.lean ====
section
/-! DEFINITION. Sys2Proof/Machine/SCells.lean: scalar cells: registers, arithmetic, branches, memory, fences and queues, stewards'
operations, and the checks at bind and appointment (05_scalar_cells R137-R149, R153-R159). -/

namespace Sys2Proof.Machine

/-! ## Instruction fields (R141) -/

def sOp (w : Nat) : Nat := w / 2 ^ 26 % 64
def sRd (w : Nat) : Nat := w / 2 ^ 21 % 32
def sRa (w : Nat) : Nat := w / 2 ^ 16 % 32
def sRb (w : Nat) : Nat := w / 2 ^ 11 % 32
def sFn (w : Nat) : Nat := w % 8
def sImm16 (w : Nat) : Int := sgn 16 w
def sZimm16 (w : Nat) : Nat := w % 2 ^ 16
def sSz (w : Nat) : Nat := w / 2 ^ 14 % 4
def sImm14 (w : Nat) : Int := sgn 14 w
/-- B format: RA, RB, COND, OFF. -/
def sbRa (w : Nat) : Nat := w / 2 ^ 21 % 32
def sbRb (w : Nat) : Nat := w / 2 ^ 16 % 32
def sbCond (w : Nat) : Nat := w / 2 ^ 13 % 8
def sbOff (w : Nat) : Int := sgn 13 w
def sImm21 (w : Nat) : Int := sgn 21 w
def sSub (w : Nat) : Nat := w / 2 ^ 6 % 32
/-- S format: SR and DIR. -/
def ssSr (w : Nat) : Nat := w / 2 ^ 10 % 64
def ssDir (w : Nat) : Bool := tbit w 0

/-! ## Registers (R137) -/

def SCell.reg (x : SCell) (r : Nat) : Nat := if r = 0 then 0 else get0 x.s r
def SCell.setR (x : SCell) (r v : Nat) : SCell := if r = 0 then x else { x with s := put0 x.s r (v % 2 ^ 64) }
def SCell.word (x : SCell) : Nat := Memory.readN x.store (4 * x.pc) 4
def sstDivZero : Nat := 4
def sstWriteLost : Nat := 8

/-! ## Issue (R144) -/

/-- What an S-cell step runs on: partition and context of its start or appointment; the engine and start of a station engine. -/
structure SEnv where
  c : Nat
  part : Nat
  ctx : Nat
  eng : Option (Engine × Start)
  x : SCell
  w : Nat
deriving DecidableEq, Repr


/-- Who an S-cell runs for: a station start, or its steward's appointment while it runs. -/
def State.sOwner (s : State) (c : Nat) : Option (Nat × Nat × Option (Engine × Start)) :=
  match s.running (cellId c) (c / 20) with
  | some (e, st) => some (e.part, st.wb.context, some (e, st))
  | none =>
    match Tab.find s.svc.stewards c with
    | none => none
    | some t =>
      if t.running && t.dismissing.isNone && !t.revoked && !s.engFrozen (cellId c) && s.blockRuns (c / 20) && !s.movingBlock (c / 20) && !s.partFrozen t.part then
        some (t.part, t.context, none)
      else none

/-- Outstanding slice, fence, queue and steward operations of an S-cell (R144). -/
def State.sOutstanding (s : State) (c : Nat) : Nat :=
  s.accessesOut c + (s.fen.port.filter (fun f => match f.reply with | .cell d _ => d == c | _ => false)).length +
    (s.spine.flits.filter (fun f => match f.load with | .fsig d _ _ => d == c | _ => false)).length

/-- The S-cell may issue its next instruction and it has this OP: no WAITQ runs, a DRAIN has been met, and no register it names
waits for a value (R144, R154). -/
def State.sReady (s : State) (c op : Nat) (sub : Option Nat) (regs : Nat → List Nat) : Option SEnv :=
  if cellKind c ≠ 3 then none
  else
    match s.sOwner c with
    | none => none
    | some (p, ctx, eng) =>
      let x := s.scell c
      let w := x.word
      if sOp w = op ∧ (match sub with | some k => sSub w == k | none => true) = true ∧ x.wait = none ∧
          (regs w).all (fun r => !x.pend.contains r) ∧ (x.drain = false ∨ s.storesOut c = 0) then
        some { c := c, part := p, ctx := ctx, eng := eng, x := x, w := w }
      else none

/-- On to the next instruction; the destination is usable `lat` cycles later (R142). -/
def SCell.go (x : SCell) (t lat : Nat) (rds : List Nat) : SCell :=
  { x with pc := (x.pc + 1) % 4096, drain := false, board := x.board.done t 1 (rds.map (fun r => (r, t + lat))) }

def SEnv.issue (v : SEnv) (regs : List Nat) : Nat := v.x.board.issue regs 0

/-- The issue cycle of a slice, fence, queue or steward operation: fewer than four are outstanding (R144). -/
def SEnv.issueOp (v : SEnv) (regs : List Nat) : Nat := max (v.issue regs) v.x.board.gate

/-- An S-cell has four operations outstanding (R144): no other is issued. -/
def State.sFull (s : State) (c : Nat) : Bool := decide (4 ≤ s.sOutstanding c)

/-- On to the next instruction after such an operation; its register is usable `lat` cycles later, until when it is outstanding. -/
def SCell.goOp (x : SCell) (t lat : Nat) (rds : List Nat) : SCell :=
  let y := x.go t lat rds
  { y with board := y.board.note (t + lat) }

/-- The count of an anchor-block path: a slice load's to that block (R146). -/
def SEnv.anchorLat (v : SEnv) (s : State) (b : Nat) : Nat := 12 + pathAdd (v.c / 20) b (s.block (v.c / 20)).mhz false

/-- The same to the anchor dispatcher of a queue: the block its hot ring is placed in. -/
def SEnv.queueLat (v : SEnv) (s : State) (q : Nat) : Nat :=
  v.anchorLat s ((((s.queue? q).bind (·.placed)).bind (fun a => s.phys v.part a.1)).getD (v.c / 20))

/-- A count of R146 in cycles of the cell's block: CLK_BLK, CLK_SPN and CLK_HUB. -/
def SEnv.clocks (v : SEnv) (s : State) (blk spn hub : Nat) : Nat :=
  let m := (s.block (v.c / 20)).mhz
  blk + spnCycles spn m + hubCycles hub m
def rRegs (w : Nat) : List Nat := [sRd w, sRa w, sRb w]
def iRegs (w : Nat) : List Nat := [sRd w, sRa w]

/-- An instruction whose only effect is a register. -/
def State.sAlu (s : State) (c op lat : Nat) (regs : Nat → List Nat) (f : SEnv → Nat) : State :=
  match s.sReady c op none regs with
  | none => s
  | some v => s.setS c ((v.x.setR (sRd v.w) (f v)).go (v.issue (regs v.w)) lat [sRd v.w])

def SEnv.a (v : SEnv) : Nat := v.x.reg (sRa v.w)
def SEnv.b (v : SEnv) : Nat := v.x.reg (sRb v.w)

/-! ## Arithmetic (R142, R143) -/

/-- S_ALU: FN 0 ADD, 1 SUB, 2 AND, 3 OR, 4 XOR, 5 SHL, 6 SHR logical, 7 SRA. -/
def execSAlu (c : Nat) (s : State) : Outc :=
  .next (s.sAlu c 0x01 1 rRegs (fun v =>
    let k := v.b % 64
    match sFn v.w with
    | 0 => v.a + v.b
    | 1 => v.a + 2 ^ 64 - v.b
    | 2 => v.a &&& v.b
    | 3 => v.a ||| v.b
    | 4 => v.a ^^^ v.b
    | 5 => v.a * 2 ^ k
    | 6 => v.a / 2 ^ k
    | _ => wrapI 64 (sgn 64 v.a / (2 ^ k : Nat))))

/-- S_CMP: FN 0 SLT, 1 SLTU, 2 MIN, 3 MINU, 4 MAX, 5 MAXU. -/
def execSCmp (c : Nat) (s : State) : Outc :=
  .next (s.sAlu c 0x02 1 rRegs (fun v =>
    let lt := decide (sgn 64 v.a < sgn 64 v.b)
    match sFn v.w with
    | 0 => if lt then 1 else 0
    | 1 => if v.a < v.b then 1 else 0
    | 2 => if lt then v.a else v.b
    | 3 => min v.a v.b
    | 4 => if lt then v.b else v.a
    | _ => max v.a v.b))

/-- S_MUL: FN 0 low 64 bits, 1 high 64 bits signed, 2 high 64 bits unsigned. -/
def execSMul (c : Nat) (s : State) : Outc :=
  .next (s.sAlu c 0x03 3 rRegs (fun v =>
    match sFn v.w with
    | 0 => v.a * v.b
    | 1 => wrapI 64 (sgn 64 v.a * sgn 64 v.b / (2 ^ 64 : Nat))
    | _ => v.a * v.b / 2 ^ 64))

/-- Quotient and remainder of R143, rounding toward zero; a zero divisor gives all ones and the dividend. -/
def sDiv (fn a b : Nat) : Nat :=
  match fn with
  | 0 => if b = 0 then 2 ^ 64 - 1 else wrapI 64 (Int.tdiv (sgn 64 a) (sgn 64 b))
  | 1 => if b = 0 then 2 ^ 64 - 1 else a / b
  | 2 => if b = 0 then a else wrapI 64 (Int.tmod (sgn 64 a) (sgn 64 b))
  | _ => if b = 0 then a else a % b

/-- S_DIV: FN 0 DIV, 1 DIVU, 2 REM, 3 REMU; DIVZERO is set by a zero divisor. -/
def execSDiv (c : Nat) (s : State) : Outc :=
  .next (
    match s.sReady c 0x04 none rRegs with
    | none => s
    | some v =>
      let t := v.x.board.issue (rRegs v.w) v.x.board.divFree
      let y := if v.b = 0 then { v.x with status := v.x.status ||| sstDivZero } else v.x
      let z := (y.setR (sRd v.w) (sDiv (sFn v.w) v.a v.b)).go t 34 [sRd v.w]
      s.setS c { z with board := { z.board with divFree := t + 34 } })

/-- S_ADDI: rd = ra + sext(IMM16). -/
def execSAddi (c : Nat) (s : State) : Outc := .next (s.sAlu c 0x08 1 iRegs (fun v => wrapI 64 ((v.a : Nat) + sImm16 v.w)))

/-- S_ANDI: rd = ra AND zext(IMM16). -/
def execSAndi (c : Nat) (s : State) : Outc := .next (s.sAlu c 0x09 1 iRegs (fun v => v.a &&& sZimm16 v.w))

/-- S_ORI: rd = ra OR zext(IMM16). -/
def execSOri (c : Nat) (s : State) : Outc := .next (s.sAlu c 0x0A 1 iRegs (fun v => v.a ||| sZimm16 v.w))

/-- S_XORI: rd = ra XOR zext(IMM16). -/
def execSXori (c : Nat) (s : State) : Outc := .next (s.sAlu c 0x0B 1 iRegs (fun v => v.a ^^^ sZimm16 v.w))

/-- S_SLTI: rd = (ra < sext(IMM16)), signed. -/
def execSSlti (c : Nat) (s : State) : Outc := .next (s.sAlu c 0x0C 1 iRegs (fun v => if sgn 64 v.a < sImm16 v.w then 1 else 0))

/-- S_SLTIU: rd = (ra < sext(IMM16)), unsigned. -/
def execSSltiu (c : Nat) (s : State) : Outc := .next (s.sAlu c 0x0D 1 iRegs (fun v => if v.a < wrapI 64 (sImm16 v.w) then 1 else 0))

/-- S_SHI: IMM16[7:6] 0 SHL, 1 SHR, 2 SRA; IMM16[5:0] the amount. -/
def execSShi (c : Nat) (s : State) : Outc :=
  .next (s.sAlu c 0x0E 1 iRegs (fun v =>
    let k := v.w % 64
    match v.w / 64 % 4 with
    | 0 => v.a * 2 ^ k
    | 1 => v.a / 2 ^ k
    | _ => wrapI 64 (sgn 64 v.a / (2 ^ k : Nat))))

/-- S_LUI: rd = sext(IMM21) << 16. -/
def execSLui (c : Nat) (s : State) : Outc := .next (s.sAlu c 0x0F 1 (fun w => [sRd w]) (fun v => wrapI 64 (sImm21 v.w * 65536)))

/-! ## Run-time faults (R158) -/

/-- Where an address leads (R140, R158). -/
def sAddr (a size : Nat) : VAddr :=
  if a / 2 ^ 32 ≠ 0 then .bad .lmRange
  else if a / 2 ^ 31 = 0 then
    (if a / 2 ^ 16 ≠ 0 then .bad .lmRange else if a % size ≠ 0 then .bad .align else .lm a)
  else
    let b := a / 2 ^ 25 % 64
    let off := a % 2 ^ 25
    if 59 < b ∨ ringAreaBase ≤ off then .bad .sliceRange
    else if a % size ≠ 0 then .bad .align
    else .slice b off

/-- A steward halts (R156, R158). -/
def State.haltSteward (s : State) (c : Nat) : State :=
  { s with svc := { s.svc with stewards := Tab.upd s.svc.stewards c (fun t => { t with running := false }) } }

/-- A run-time fault: a station engine's start ends as R135 describes; a steward halts, with STEWARD_FAULT (R158). -/
def SEnv.fault (v : SEnv) (s : State) (k : FaultCode) (addr : Nat) : State :=
  match v.eng with
  | some _ => s.programFault (cellId v.c) k v.x.pc addr
  | none => (s.haltSteward v.c).event 0x0006 v.part v.ctx true (srcCode 0 v.c) 0xFFFF (faultData v.x.pc k.num addr)

/-! ## Loads, stores, atomics (R144, R147, R167) -/

/-- Bytes of a SZ code. -/
def szBytes (sz : Nat) : Nat := 2 ^ sz

/-- The address of an M-format instruction. -/
def sMemAddr (v : SEnv) : Nat := wrapI 64 ((v.a : Nat) + sImm14 v.w)

/-- A loaded value extended to 64 bits. -/
def extend (n : Nat) (signed : Bool) (x : Nat) : Nat := if signed then wrapI 64 (sgn (8 * n) x) else x

/-- The board after a slice operation (R144): it begins at its issue or the cycle after the previous one began; its destinations are
usable `lat` cycles later, or a store completes at the end of that cycle. -/
def Board.sAccess (b : Board) (t lat : Nat) (rds : List Nat) (store : Bool) : Board :=
  let d := max t (b.loadAt + 1)
  { ((b.done t 1 (rds.map (fun r => (r, d + lat)))).note (d + lat + (if rds.isEmpty then 1 else 0))) with loadAt := d, storeDone := if store then max b.storeDone (d + lat) else b.storeDone }

/-- A load with its extension. -/
def State.sLoad (s : State) (c op : Nat) (signed : Bool) : State :=
  match s.sReady c op none iRegs with
  | none => s
  | some v =>
    let n := szBytes (sSz v.w)
    let a := sMemAddr v
    let t := v.issue (iRegs v.w)
    match sAddr a n with
    | .bad k => v.fault s k a
    | .lm off => s.setS c ((v.x.setR (sRd v.w) (extend n signed (Memory.readN v.x.local' off n))).go t 2 [sRd v.w])
    | .slice blk off =>
      match s.phys v.part blk with
      | none => s.addViolation c v.part a
      | some b =>
        if s.sFull c then s
        else
          let key := sliceKey b off
          let y := { v.x with pc := (v.x.pc + 1) % 4096, drain := false, pend := v.x.pend ++ [sRd v.w], board := v.x.board.sAccess (max t v.x.board.gate) (12 + pathAdd (c / 20) b (s.block (c / 20)).mhz false) [sRd v.w] false }
          (s.setS c y).addAccess { who := .cell c, part := v.part, dest := .sreg (sRd v.w) n signed key, got := [], left := 0, lost := 0, store := false } (readClaims c (linesOf key n))

/-- S_LD: rd = sign-extended SZ bytes at ra + IMM14. -/
def execSLd (c : Nat) (s : State) : Outc := .next (s.sLoad c 0x10 true)

/-- S_LDU: as LD, zero-extended. -/
def execSLdu (c : Nat) (s : State) : Outc := .next (s.sLoad c 0x11 false)

/-- S_ST: low SZ bytes of rd to ra + IMM14. -/
def execSSt (c : Nat) (s : State) : Outc :=
  .next (
    match s.sReady c 0x12 none iRegs with
    | none => s
    | some v =>
      let n := szBytes (sSz v.w)
      let a := sMemAddr v
      let t := v.issue (iRegs v.w)
      let bytes := bytesOf n (v.x.reg (sRd v.w))
      match sAddr a n with
      | .bad k => v.fault s k a
      | .lm off => s.setS c ({ v.x with local' := Memory.writeL v.x.local' off bytes }.go t 1 [])
      | .slice blk off =>
        match s.phys v.part blk with
        | none => s.addViolation c v.part a
        | some b =>
          if s.sFull c then s
          else
            let y := { v.x with pc := (v.x.pc + 1) % 4096, drain := false, board := v.x.board.sAccess (max t v.x.board.gate) (8 + pathAdd (c / 20) b (s.block (c / 20)).mhz true) [] true }
            (s.setS c y).addAccess { who := .cell c, part := v.part, dest := .none, got := [], left := 0, lost := 0, store := true } (writeClaims c (keyed (sliceKey b off) bytes)))

def xRegs (w : Nat) : List Nat := [sRd w, sRa w, sRb w]

/-- S_AMO: slice atomic at ra; rd = old value; operand rb (R167). -/
def execSAmo (c : Nat) (s : State) : Outc :=
  .next (
    match s.sReady c 0x13 none xRegs with
    | none => s
    | some v =>
      let n := atomicBytes (sSub v.w)
      let t := v.issue (xRegs v.w)
      match sAddr v.a n with
      | .bad k => v.fault s k v.a
      | .lm _ => v.fault s .lmRange v.a
      | .slice blk off =>
        match s.phys v.part blk with
        | none => s.addViolation c v.part v.a
        | some b =>
          if s.sFull c then s
          else
            let key := sliceKey b off
            let y := { v.x with pc := (v.x.pc + 1) % 4096, drain := false, pend := v.x.pend ++ [sRd v.w], board := v.x.board.sAccess (max t v.x.board.gate) (14 + pathAdd (c / 20) b (s.block (c / 20)).mhz false) [sRd v.w] true }
            (s.setS c y).addAccess { who := .cell c, part := v.part, dest := .samo (sRd v.w) n key, got := [], left := 0, lost := 0, store := true } [(b, key / 64 % 2 ^ 19, cellRank c b, .atomic (key % 64) (sSub v.w) v.b)])

/-! ## Branches (R142) -/

/-- The board after a taken branch or jump. -/
def SCell.jump (x : SCell) (t pc : Nat) : SCell := { x with pc := pc % 4096, drain := false, board := { x.board with next := t + 2 } }

/-- S_BR: branch to PC + OFF when ra COND rb. -/
def execSBr (c : Nat) (s : State) : Outc :=
  .next (
    match s.sReady c 0x18 none (fun w => [sbRa w, sbRb w]) with
    | none => s
    | some v =>
      let a := v.x.reg (sbRa v.w)
      let b := v.x.reg (sbRb v.w)
      let t := v.issue [sbRa v.w, sbRb v.w]
      let y := v.x.go t 1 []
      let taken := match sbCond v.w with
        | 0 => a == b
        | 1 => a != b
        | 2 => decide (sgn 64 a < sgn 64 b)
        | 3 => decide (sgn 64 b ≤ sgn 64 a)
        | 4 => decide (a < b)
        | _ => decide (b ≤ a)
      s.setS c (if taken then y.jump t ((v.x.pc : Int) + sbOff v.w).toNat else y))

/-- S_JAL: rd = PC + 1; PC = PC + IMM21. -/
def execSJal (c : Nat) (s : State) : Outc :=
  .next (
    match s.sReady c 0x19 none (fun w => [sRd w]) with
    | none => s
    | some v =>
      let t := v.issue [sRd v.w]
      s.setS c (((v.x.setR (sRd v.w) (v.x.pc + 1)).go t 1 [sRd v.w]).jump t ((v.x.pc : Int) + sImm21 v.w).toNat))

/-- S_JALR: rd = PC + 1; PC = (ra + sext(IMM16)) mod 4,096. -/
def execSJalr (c : Nat) (s : State) : Outc :=
  .next (
    match s.sReady c 0x1A none iRegs with
    | none => s
    | some v =>
      let t := v.issue (iRegs v.w)
      s.setS c (((v.x.setR (sRd v.w) (v.x.pc + 1)).go t 1 [sRd v.w]).jump t (wrapI 64 ((v.a : Nat) + sImm16 v.w) % 4096)))

/-! ## Fences, queues, system registers, control (R146, R148, R149) -/

/-- S_FRD: rd = the 64-bit word of fence ra[15:0], which the fence store returns (R146, R558). -/
def execSFrd (c : Nat) (s : State) : Outc :=
  .next (
    match s.sReady c 0x20 none iRegs with
    | none => s
    | some v =>
      let f := v.a % 65536
      if !s.fenceOf v.part f then v.fault s .badFence 0
      else if s.sFull c then s
      else
        let y := v.x.goOp (v.issueOp (iRegs v.w)) (v.clocks s 11 58 5) [sRd v.w]
        (s.setS c { y with pend := y.pend ++ [sRd v.w] }).sendFence { fence := f, part := v.part, context := v.ctx, op := .read, rank := engRank (cellId c), source := srcCode 0 c, reply := .cell c (sRd v.w) })

/-- S_QOCC: rd = TAIL − HEAD of tile queue ra[19:0]; all ones while its hot ring is not placed (R148). -/
def execSQocc (c : Nat) (s : State) : Outc :=
  .next (
    match s.sReady c 0x21 none iRegs with
    | none => s
    | some v =>
      let q := v.a % 2 ^ 20
      match s.queue? q with
      | none => v.fault s .badQueue 0
      | some y =>
        if y.part ≠ v.part then v.fault s .badQueue 0
        else if s.sFull c then s
        else s.setS c ((v.x.setR (sRd v.w) (if y.placed.isNone then 2 ^ 64 - 1 else y.tail - y.head)).goOp (v.issueOp (iRegs v.w)) (v.queueLat s q) [sRd v.w]))

/-- A system register of R149 as a read returns it. -/
def State.sSr (s : State) (v : SEnv) (sr : Nat) : Nat :=
  match sr with
  | 0x00 => v.c
  | 0x01 => (s.block (v.c / 20)).cycles
  | 0x03 => v.x.status
  | 0x04 => v.x.emitStatus
  | 0x05 => v.x.emitCount
  | 0x09 => v.x.paramLen
  | 0x0A => v.part
  | 0x0B => v.x.role
  | _ => 0

/-- S_SR: read a system register, or clear bits of STATUS (R149). -/
def execSSr (c : Nat) (s : State) : Outc :=
  .next (
    match s.sReady c 0x28 none iRegs with
    | none => s
    | some v =>
      let t := v.issue (iRegs v.w)
      if ssDir v.w then
        s.setS c ((if ssSr v.w = 3 then { v.x with status := v.x.status - (v.x.status &&& v.a) } else v.x).go t 1 [])
      else s.setS c ((v.x.setR (sRd v.w) (s.sSr v (ssSr v.w))).go t 1 [sRd v.w]))

/-- S_NOP. -/
def execSNop (c : Nat) (s : State) : Outc :=
  .next (match s.sReady c 0x2F (some 0) (fun _ => []) with | none => s | some v => s.setS c (v.x.go (v.issue []) 1 []))

/-- S_END: a station engine's issue stops and its commit is due (R145); a steward halts, with STEWARD_HALTED (R156). -/
def execSEnd (c : Nat) (s : State) : Outc :=
  .next (
    match s.sReady c 0x2F (some 1) (fun _ => []) with
    | none => s
    | some v =>
      let s1 := s.setS c (v.x.go (v.issue []) 1 [])
      match v.eng with
      | some _ => s1.endStart (cellId c)
      | none => (s1.haltSteward c).event 0x0005 v.part v.ctx true (srcCode 0 c) 0xFFFF 1)

/-- An emit of the record at local ra (R132, R148). In a steward, which has no commit, nothing is emitted and the value in rd is
free: the spec states none. -/
def State.sEmit (s : State) (c sub : Nat) (keepF : Bool) : State :=
  match s.sReady c 0x2F (some sub) iRegs with
  | none => s
  | some v =>
    let t := v.issue (iRegs v.w)
    match sAddr v.a 64 with
    | .bad k => v.fault s (if k = .sliceRange ∨ 2 ^ 31 ≤ v.a then .lmRange else k) v.a
    | .slice _ _ => v.fault s .lmRange v.a
    | .lm off =>
      match v.eng with
      | none => { s with free := s.free + 1 }.setS c ((v.x.setR (sRd v.w) (Config.freeNat s.free)).go t 2 [sRd v.w])
      | some (ex, st) =>
        let r := s.addEmit (cellId c) ex st (recordWaybill (Memory.readL v.x.local' off 64) st.wb.context keepF)
        match r.2 with
        | none => r.1.setS c (({ v.x with emitCount := v.x.emitCount + 1 }.setR (sRd v.w) 0).go t 2 [sRd v.w])
        | some k => r.1.setS c (({ v.x with emitStatus := k.reject }.setR (sRd v.w) k.reject).go t 2 [sRd v.w])

/-- S_EMIT. -/
def execSEmit (c : Nat) (s : State) : Outc := .next (s.sEmit c 2 false)

/-- S_EMIT_KEEPF. -/
def execSEmitKeepf (c : Nat) (s : State) : Outc := .next (s.sEmit c 3 true)

/-- S_DRAIN: nothing issues until every earlier slice store and AMO has completed (R144). -/
def execSDrain (c : Nat) (s : State) : Outc :=
  .next (
    match s.sReady c 0x2F (some 4) (fun _ => []) with
    | none => s
    | some v =>
      let t := v.issue []
      let y := v.x.go t 1 []
      s.setS c { y with drain := true, board := { y.board with next := max (t + 1) (v.x.board.storeDone + 1) } })

/-! ## Steward operations (R146, R153-R155) -/

/-- S_FSIG: signal fence ra[15:0] with rb; SUB 0 ADD, 1 SET. The status reaches rd with the store's reply. -/
def execSFsig (c : Nat) (s : State) : Outc :=
  .next (
    match s.sReady c 0x30 none xRegs with
    | none => s
    | some v =>
      let f := v.a % 65536
      if !s.fenceOf v.part f then v.fault s .badFence 0
      else if s.sFull c then s
      else
        let x := v.b
        let fl : FenceFlit := { fence := f, part := v.part, context := v.ctx, op := if sSub v.w = 0 then .add x false else .set x false, rank := engRank (cellId c), source := srcCode 0 c, reply := .cell c (sRd v.w) }
        let y := v.x.goOp (v.issueOp (xRegs v.w)) (v.clocks s 11 58 7) [sRd v.w]
        (s.setS c { y with pend := y.pend ++ [sRd v.w] }).sendFence fl)

/-- S_QPUT: enqueue the record at local ra into queue rb[19:0] (R146, R155, R73, R76). -/
def execSQput (c : Nat) (s : State) : Outc :=
  .next (
    match s.sReady c 0x31 none xRegs with
    | none => s
    | some v =>
      let q := v.b % 2 ^ 20
      let t := v.issueOp (xRegs v.w)
      let ret (s : State) (x : SCell) (k : Nat) : State := s.setS c ((x.setR (sRd v.w) k).goOp t (v.queueLat s q) [sRd v.w])
      match sAddr v.a 64 with
      | .bad k => v.fault s (if k = .sliceRange ∨ (2 ^ 31 ≤ v.a ∧ v.a < 2 ^ 32) then .lmRange else k) v.a
      | .slice _ _ => v.fault s .lmRange v.a
      | .lm off =>
        if !s.tileQ v.part q then v.fault s .badQueue v.a
        else if s.sFull c then s
        else
          let w := { (recordWaybill (Memory.readL v.x.local' off 64) v.ctx true) with resetGen := s.genOf v.part }.normalise
          match w.malformed s v.part with
          | some k => ret s { v.x with emitStatus := k.reject } 0x06
          | none =>
            if s.queueFull q then ret s v.x 0x02
            else ret (s.launch q w (engRank (cellId c))) { v.x with emitCount := v.x.emitCount + 1 } 0x00)

/-- Discard stale and revoked heads, with neither delivery nor fence action (R153); at most `n` of them. The number discarded is
answered too: each adds 2 CLK_BLK (R146). -/
def dropStale (s : State) (x : TileQ) (k : Nat) : Nat → TileQ × Nat
  | 0 => (x, k)
  | n + 1 =>
    match x.headWb with
    | none => (x, k)
    | some w => if w.resetGen ≠ s.genOf x.part ∨ s.ctxLive x.part w.context = false then dropStale s (x.pop s.now) (k + 1) n else (x, k)

/-- The queue of a steward's input, when VALID. -/
def State.stewardIn (s : State) (c i : Nat) : Option Nat := (Tab.find s.svc.stewards c).bind (fun t => t.inQ.getD i none)

/-- S_QTAKE: take the head of input rb[1:0] into local ra (R153). -/
def execSQtake (c : Nat) (s : State) : Outc :=
  .next (
    match s.sReady c 0x32 none xRegs with
    | none => s
    | some v =>
      let t := v.issueOp (xRegs v.w)
      match sAddr v.a 64 with
      | .bad k => v.fault s (if k = .sliceRange ∨ (2 ^ 31 ≤ v.a ∧ v.a < 2 ^ 32) then .lmRange else k) v.a
      | .slice _ _ => v.fault s .lmRange v.a
      | .lm off =>
        let empty (s : State) (k : Nat) : State := s.setS c ((v.x.setR (sRd v.w) 0x01).goOp t (12 + 2 * k) [sRd v.w])
        if s.sFull c then s
        else match (s.stewardIn c (v.b % 4)).bind (fun q => (s.queue? q).map (fun x => (q, x))) with
        | none => empty s 0
        | some (q, x0) =>
          let d := dropStale s x0 0 (x0.oldHot.length + x0.hot.length)
          let x := d.1
          match s.headNow x with
          | none => empty (s.setQueue q x) d.2
          | some w =>
            let s1 := (s.setQueue q (x.pop s.now)).fenceAction v.part w (engRank (cellId c)) (srcCode 0 c) false
            s1.setS c (({ v.x with local' := Memory.writeL v.x.local' off (bytesOf 64 w.toNat) }.setR (sRd v.w) 0).goOp t (12 + 2 * d.2) [sRd v.w]))

/-- S_WAITQ: issue stops until an input of the mask has a head-eligible waybill, or ra CLK_BLK have passed (R154). -/
def execSWaitq (c : Nat) (s : State) : Outc :=
  .next (
    match s.sReady c 0x33 none iRegs with
    | none => s
    | some v =>
      let y := v.x.go (v.issue (iRegs v.w)) 1 []
      let d := (s.block (c / 20)).cycles
      s.setS c { y with wait := some { rd := sRd v.w, mask := sSub v.w % 16, deadline := if v.a = 0 then none else some (d + v.a) } })

/-- Selected inputs whose queue a test holds for. -/
def State.inputMask (s : State) (c mask : Nat) (f : TileQ → Bool) : Nat :=
  ((List.range 4).filter (fun i => tbit mask i && (match (s.stewardIn c i).bind s.queue? with | some x => f x | none => false))).foldl
    (fun a i => a + 2 ^ i) 0

/-- S_WAITQ_RESUME: a waybill is head-eligible, or the time has passed: rd takes the mask of selected inputs that are
non-empty, or 0 on timeout (R154). -/
def execSWaitqResume (c : Nat) (s : State) : Outc :=
  .next (
    match s.sOwner c with
    | none => s
    | some _ =>
      let x := s.scell c
      match x.wait with
      | none => s
      | some q =>
        let ready := s.inputMask c q.mask (fun y => (s.headNow y).isSome)
        let full := s.inputMask c q.mask (fun y => y.headWb.isSome || !y.spill.isEmpty)
        if ready ≠ 0 then s.setS c ({ x with wait := none }.setR q.rd full)
        else
          match q.deadline with
          | some d => if d ≤ (s.block (c / 20)).cycles then s.setS c ({ x with wait := none }.setR q.rd 0) else s
          | none => s)

/-- The partition's cancel set (R281). -/
def State.cancelSet (s : State) (p : Nat) : Sys2Proof.Tab Nat := Tab.getD s.svc.cancel p []
def State.setCancel (s : State) (p : Nat) (t : Sys2Proof.Tab Nat) : State := { s with svc := { s.svc with cancel := Tab.put s.svc.cancel p t } }

/-- S_CANCEL: add (SUB 0) or remove (SUB 1) request ID ra[31:0] in the cancel set (R155, R281). -/
def execSCancel (c : Nat) (s : State) : Outc :=
  .next (
    match s.sReady c 0x34 none iRegs with
    | none => s
    | some v =>
      let id := v.a % 2 ^ 32
      let t := s.cancelSet v.part
      let ret (s : State) (k : Nat) : State := s.setS c ((v.x.setR (sRd v.w) k).goOp (v.issueOp (iRegs v.w)) (v.clocks s 11 49 0) [sRd v.w])
      if s.sFull c then s
      else if sSub v.w = 0 then
        (if 256 ≤ t.length ∧ Tab.has t id = false then ret s 0x05 else ret (s.setCancel v.part (Tab.put t id s.now)) 0x00)
      else if Tab.has t id then ret (s.setCancel v.part (Tab.del t id)) 0x00
      else ret s 0x01)

/-- S_PRED: set PRED_VALUE of station ra[15:0] to rb[0] (R146). -/
def execSPred (c : Nat) (s : State) : Outc :=
  .next (
    match s.sReady c 0x35 none xRegs with
    | none => s
    | some v =>
      let id := v.a % 65536
      match s.station? v.part id with
      | none => v.fault s .badStation 0
      | some t =>
        if s.sFull c then s
        else (s.setStation v.part id { t with predValue := tbit v.b 0 }).setS c ((v.x.setR (sRd v.w) 0).goOp (v.issueOp (xRegs v.w)) (v.anchorLat s ((s.anchorPhys v.part t).getD (c / 20))) [sRd v.w]))

/-- The register SUB of a cell as CRD reads it: STATUS, EMIT_STATUS, EMIT_COUNT. -/
def State.cellReg (s : State) (c sub : Nat) : Nat :=
  match cellKind c, sub with
  | 1, 0 => if (s.mcell c).accNan then 1 else 0
  | 1, 1 => (s.mcell c).emitStatus
  | 1, _ => (s.mcell c).emitted
  | 2, 0 => (s.vcell c).status
  | 2, 1 => (s.vcell c).emitStatus
  | 2, _ => (s.vcell c).emitCount
  | _, 0 => (s.scell c).status
  | _, 1 => (s.scell c).emitStatus
  | _, _ => (s.scell c).emitCount

/-- S_CRD: read register SUB of cell ra, by its number in named blocks (R142, R158). -/
def execSCrd (c : Nat) (s : State) : Outc :=
  .next (
    match s.sReady c 0x36 none iRegs with
    | none => s
    | some v =>
      match s.phys v.part (v.a / 20) with
      | none => v.fault s .badCell 0
      | some b =>
        if s.sFull c then s
        else s.setS c ((v.x.setR (sRd v.w) (s.cellReg (b * 20 + v.a % 20) (sSub v.w))).goOp (v.issueOp (iRegs v.w)) (v.anchorLat s b) [sRd v.w]))

/-- FENCE_SIGNAL_APPLY: the port's next group of up to four flits, `n` of them, reaches both arrays and is applied in SET, then
ADD order; each FSIG's status and each FRD's word leaves for its register as a class P0 response (R325, R326, R558, R146, R155, R172). -/
def execFenceSignalApply (n : Nat) (s : State) : Outc :=
  .next (
    let x := s.applyGroup n
    (x.1.fsigStatus x.2).foldl (fun (s : State) (r : Nat × Nat × Nat) => s.post (.fsig r.1 r.2.1 r.2.2) .response 0 fenceEnd (blockEnd (r.1 / 20))) x.1)

/-- An FSIG's status or an FRD's word reaches its register (R146, R155). -/
def State.takeStatus (s : State) (c rd status : Nat) : State :=
  let y := s.scell c
  if y.pend.contains rd then s.setS c ({ y with pend := y.pend.erase rd }.setR rd status) else s

/-! ## Start and appointment (R139, R152) -/

/-- Cycle 6 of a start on an S-cell (R139). -/
def State.startS (s : State) (c : Nat) (w : Waybill) : State :=
  let x := s.scell c
  s.setS c { x with local' := Memory.writeL x.local' 0xFFC0 (bytesOf 64 w.toNat), s := put0 [(1, 0xFFC0)] 2 (tileAddr w), pc := 0, role := 0, status := 0, emitStatus := 0, emitCount := 0, pend := [], drain := false, wait := none, board := {} }

/-! ## The checks at bind and appointment (R157) -/

/-- The bits an instruction of R142 may set, by OP and SUB. -/
def sMask (w : Nat) : Nat :=
  let f (hi lo : Nat) : Nat := (2 ^ (hi - lo + 1) - 1) * 2 ^ lo
  let rd := f 25 21
  let ra := f 20 16
  let rb := f 15 11
  let sub := f 10 6
  2 ^ 26 * 63 + (match sOp w with
    | 0x01 => rd + ra + rb + f 2 0 | 0x02 => rd + ra + rb + f 2 0 | 0x03 => rd + ra + rb + f 2 0 | 0x04 => rd + ra + rb + f 2 0
    | 0x08 => f 25 0 | 0x09 => f 25 0 | 0x0A => f 25 0 | 0x0B => f 25 0 | 0x0C => f 25 0 | 0x0D => f 25 0
    | 0x0E => rd + ra + f 7 0
    | 0x0F => f 25 0
    | 0x10 => f 25 0 | 0x11 => f 25 0 | 0x12 => f 25 0
    | 0x13 => rd + ra + rb + sub
    | 0x18 => f 25 0 | 0x19 => f 25 0 | 0x1A => f 25 0
    | 0x20 => rd + ra + sub | 0x21 => rd + ra + sub
    | 0x28 => (if ssDir w then ra else rd) + f 15 10 + 1
    | 0x2F => sub + (if sSub w = 2 ∨ sSub w = 3 then rd + ra else 0)
    | 0x30 => rd + ra + rb + sub | 0x31 => rd + ra + rb + sub | 0x32 => rd + ra + rb + sub
    | 0x33 => rd + ra + f 9 6
    | 0x34 => rd + ra + sub
    | 0x35 => rd + ra + rb + sub
    | 0x36 => rd + ra + sub
    | _ => 0)

def sOps : List Nat :=
  [0x01, 0x02, 0x03, 0x04, 0x08, 0x09, 0x0A, 0x0B, 0x0C, 0x0D, 0x0E, 0x0F, 0x10, 0x11, 0x12, 0x13, 0x18, 0x19, 0x1A, 0x20, 0x21,
    0x28, 0x2F, 0x30, 0x31, 0x32, 0x33, 0x34, 0x35, 0x36]

/-- FN, SUB, COND and SR directions allowed (R142, R157 BAD_TYPE). -/
def sTypeOk (w : Nat) : Bool :=
  let sub := sSub w
  match sOp w with
  | 0x02 => decide (sFn w ≤ 5) | 0x03 => decide (sFn w ≤ 2) | 0x04 => decide (sFn w ≤ 3)
  | 0x0E => w / 64 % 4 != 3
  | 0x13 => decide (sub ≤ 3) | 0x18 => decide (sbCond w ≤ 5) | 0x20 => sub == 0 | 0x21 => sub == 0
  | 0x28 => !ssDir w || ssSr w == 3
  | 0x30 => decide (sub ≤ 1) | 0x31 => sub == 0 | 0x32 => sub == 0 | 0x33 => sub % 16 != 0 | 0x34 => decide (sub ≤ 1)
  | 0x35 => sub == 0 | 0x36 => decide (sub ≤ 2)
  | _ => true

/-- System registers of R149. -/
def sSrs : List Nat := [0x00, 0x01, 0x03, 0x04, 0x05, 0x09, 0x0A, 0x0B]

/-- The check code of one instruction in a program of n (R157). -/
def sCheckOne (steward : Bool) (n i w : Nat) : Option Nat :=
  let target (off : Int) : Bool := (i : Int) + off < 0 || (n : Int) ≤ (i : Int) + off
  if !sOps.contains (sOp w) || (sOp w == 0x2F && 4 < sSub w) then some ckBadOp
  else if rsvdSet w (sMask w) then some ckFieldSet
  else if sOp w == 0x28 && !sSrs.contains (ssSr w) then some ckBadSr
  else if !sTypeOk w then some ckBadType
  else if (sOp w == 0x18 && target (sbOff w)) || (sOp w == 0x19 && target (sImm21 w)) then some ckBadTarget
  else if !steward && 0x30 ≤ sOp w then some ckPriv
  else none

/-- R157: the first failing instruction and its code, or none. The last instruction must be END or a jump that always leaves. -/
def sCheck (steward : Bool) (prog : List (BitVec 8)) : Option (Nat × Nat) :=
  let n := prog.length / 4
  let word (i : Nat) : Nat := ofBytes ((prog.drop (4 * i)).take 4)
  match (List.range n).filterMap (fun i => (sCheckOne steward n i (word i)).map (fun c => (i, c))) with
  | x :: _ => some x
  | [] =>
    let l := word (n - 1)
    if (sOp l == 0x2F && sSub l == 1) || sOp l == 0x19 || sOp l == 0x1A then none else some (n - 1, ckNoEnd)

end Sys2Proof.Machine
end

