-- ==== Sys2Proof/Machine/Services.lean ====
section
/-! DEFINITION. Sys2Proof/Machine/Services.lean: the milestone line and the cancel set (10_session_service R280, R281). -/

namespace Sys2Proof.Machine

/-! ## The milestone line (R280) -/

def State.setMilestone (s : State) (p off n : Nat) : State :=
  { s with svc := { s.svc with milestone := Tab.put s.svc.milestone p (off, n) } }

/-- R280: an offset below the ring area turns the line on with a count of 0; 0xFFFF_FFFF turns it off. -/
def milestoneSetBody (r : Nat) (e : CmdEnv) (s : State) : CmdRes :=
  let off := fldB r 0 4
  if rsvdSet r (maskOf [(0, 31, 0)]) then refuse s .rsvdSet
  else if off == 0xFFFFFFFF then done { s with svc := { s.svc with milestone := Tab.del s.svc.milestone e.part } } 0
  else if ringAreaBase ≤ off * 64 then refuse s .badAddr
  else done (s.setMilestone e.part off 0) 0

/-- MILESTONE_SET. -/
def execMilestoneSet (ring : Nat) (record : BitVec 64) (s : State) : Outc :=
  .next (runCmd s ring 0x001A record.toNat 0 (milestoneSetBody record.toNat))

/-- The 64 bytes of a milestone send: TIME_US, boot nonce, count of sends (R280). -/
def milestoneBytes (now : Nat) (nonce : BitVec 64) (n : Nat) : List Byte :=
  bytesOf 64 (plcB 0 8 now ||| plcB 8 8 nonce.toNat ||| plcB 16 8 n)

/-- The send of one partition's line to every block bound to it. -/
def State.milestoneSend (s : State) (p off n : Nat) : State :=
  match s.part? p with
  | none => s
  | some x =>
    let c : CrierSend := { id := s.fab.nextSend, device := true, part := p, resetGen := x.resetGen, src := none, hub := milestoneBytes s.now s.sys.bootNonce n, bytes := 64, dstLine := off, targets := Tab.vals x.blockMap, beats := 0, marks := [], why := 1, sender := 0, lostAt := [], stopped := none }
    if x.blockMap.isEmpty then s.setMilestone p off (n + 1)
    else ({ s with fab := { s.fab with sends := s.fab.sends ++ [c], nextSend := s.fab.nextSend + 1 } }).setMilestone p off (n + 1)

/-- MILESTONE_TICK: every 10 µs of TIME_US the hub timer sends each partition's line (R280). -/
def execMilestoneTick (s : State) : Outc :=
  .next (if s.now % 10 = 0 then s.svc.milestone.foldl (fun (s : State) e => s.milestoneSend e.1 e.2.1 e.2.2) s else s)

/-! ## The cancel set (R281) -/

/-- R281: REMOVE 0 enters the ID or restarts its hold time; REMOVE 1 takes it out. -/
def requestCancelBody (r : Nat) (e : CmdEnv) (s : State) : CmdRes :=
  let id := fldB r 0 4
  let t := s.cancelSet e.part
  if rsvdSet r (maskOf [(0, 31, 0), (4, 0, 0)]) then refuse s .rsvdSet
  else if 2 ^ 31 ≤ id then refuse s .badId
  else if bit r 4 0 then done (s.setCancel e.part (Tab.del t id)) 0
  else if 256 ≤ t.length && !Tab.has t id then (s, some (.busy .cancelSetFull 0))
  else done (s.setCancel e.part (Tab.put t id s.now)) 0

/-- REQUEST_CANCEL. -/
def execRequestCancel (ring : Nat) (record : BitVec 64) (s : State) : Outc :=
  .next (runCmd s ring 0x001B record.toNat 0 (requestCancelBody record.toNat))

/-- CANCEL_HOLD_EXPIRE: CANCEL_HOLD_MS of TIME_US has passed since the ID entered, and it leaves the set (R281). -/
def execCancelHoldExpire (p id : Nat) (s : State) : Outc :=
  .next (
    match Tab.find (s.cancelSet p) id with
    | some t0 => if t0 + s.zh 72 * 1000 ≤ s.now then s.setCancel p (Tab.del (s.cancelSet p) id) else s
    | none => s)

end Sys2Proof.Machine
end

