-- ==== Sys2Proof/Machine/Slices.lean ====
section
/-! DEFINITION. Sys2Proof/Machine/Slices.lean: bank arbitration, the completion of slice accesses, and the patrol scrub
(06_slice_memory R160-R170). -/

namespace Sys2Proof.Machine

/-! ## Where a line lies (R160) -/

/-- Slice of line n of a block: n[3:0] XOR n[7:4]. -/
def sliceOf (n : Nat) : Nat := (n % 16) ^^^ (n / 16 % 16)

/-- Bank: n[6:4] XOR n[10:8]. -/
def bankOf (n : Nat) : Nat := (n / 16 % 8) ^^^ (n / 256 % 8)

/-- Bank row: n[18:7]. -/
def bankRow (n : Nat) : Nat := n / 128 % 4096

/-! ## Claims of one cycle (R162-R165, R168) -/

/-- Reads, writes and accesses of either kind that the requester of a rank presents in one CLK_BLK (R162). -/
def rankWidth (rank : Nat) : Nat × Nat × Nat :=
  if rank ≤ 12 then (4, 2, 6) else if rank ≤ 18 then (2, 2, 4) else if rank ≤ 20 then (1, 1, 1) else if rank = 21 then (2, 2, 2)
  else if rank = 22 then (4, 4, 4) else if rank = 23 then (8, 8, 8) else if rank ≤ 27 then (2, 2, 4) else (1, 1, 1)

def LineOp.isRead : LineOp → Bool | .read => true | _ => false

/-- The claims a list presents within its requester's width, in order. -/
def within (w : Nat × Nat × Nat) : (reads writes : Nat) → List Claim → List Claim
  | _, _, [] => []
  | r, k, c :: l =>
    if w.2.2 ≤ r + k then []
    else if c.op.isRead then (if r < w.1 then c :: within w (r + 1) k l else within w r k l)
    else (if k < w.2.1 then c :: within w r (k + 1) l else within w r k l)

/-- The issuer of a claim. -/
def State.whoOf (s : State) (c : Claim) : Option Requester := (Tab.find s.fab.accesses c.access).map (·.who)

/-- The claim waits for an older one of its issuer on the same line, unless both read (R123; DESIGN CHOICE, log entry 46: the rules do
not say what two claims of one issuer on one line do in one cycle). -/
def State.heldBack (s : State) (older : List Claim) (c : Claim) : Bool :=
  older.any (fun d => d.block == c.block && d.line == c.line && !(d.op.isRead && c.op.isRead) && s.whoOf d == s.whoOf c)

/-- The claims of a list that no older one holds back. -/
def State.clear (s : State) : (older : List Claim) → List Claim → List Claim
  | _, [] => []
  | older, c :: l => if s.heldBack older c then s.clear (older ++ [c]) l else c :: s.clear (older ++ [c]) l

/-- The claims presented at a block's banks in this cycle, in rank order: those that wait are presented again, and the requester's width
bounds the new ones, since a waiting line holds no later one back (R162, R163; DEDUCED, log entry 46). -/
def State.presented (s : State) (block : Nat) : List Claim :=
  let here := s.clear [] (s.fab.claims.filter (fun c => c.block == block))
  (List.range 28).flatMap (fun i =>
    let l := here.filter (fun c => c.rank == i + 1)
    l.filter (·.issued) ++ within (rankWidth (i + 1)) 0 0 (l.filter (fun c => !c.issued)))

/-- What one cycle does: claims performed, in order, claims discarded whole (R165), and banks an atomic holds next cycle. -/
structure Granted where
  performed : List Claim
  lost : List Claim
  hold : List Nat
deriving DecidableEq, Repr

/-- Byte offsets a write or atomic covers in its line. -/
def LineOp.mask : LineOp → List Nat
  | .write bs => bs.map (·.1)
  | .atomic lo sub _ => (List.range (atomicBytes sub)).map (· + lo)
  | .adds sub ws => ws.flatMap (fun w => (List.range (atomicBytes sub)).map (· + w.1))
  | _ => []

def LineOp.isWrite : LineOp → Bool | .write _ => true | _ => false
def LineOp.isAtomic : LineOp → Bool | .atomic _ _ _ => true | .adds _ _ => true | _ => false

def overlapMask (a b : List Nat) : Bool := a.any (fun x => b.contains x)

/-- Writes of one line in rank order: merged where their masks are disjoint, else discarded whole (R165). -/
def mergeWrites : (taken : List Nat) → List Claim → List Claim × List Claim
  | _, [] => ([], [])
  | m, c :: l =>
    if overlapMask c.op.mask m then let r := mergeWrites m l; (r.1, c :: r.2)
    else let r := mergeWrites (m ++ c.op.mask) l; (c :: r.1, r.2)

/-- Grant ports of one slice to its claims in rank order (R163-R165, R168). -/
def grantSlice : (ports : Nat) → (busy : List Nat) → List Claim → Granted
  | 0, _, _ => { performed := [], lost := [], hold := [] }
  | n + 1, busy, cs =>
    match cs.find? (fun c => !busy.contains (bankOf c.line)) with
    | none => { performed := [], lost := [], hold := [] }
    | some c =>
      let same := cs.filter (fun d => d.line == c.line)
      let one : Granted :=
        if c.op.isRead then { performed := same.filter (fun d => d.op.isRead), lost := [], hold := [] }
        else if c.op.isWrite then
          let r := mergeWrites [] (same.filter (fun d => d.op.isWrite))
          { performed := r.1, lost := r.2, hold := [] }
        else if c.op.isAtomic then
          { performed := [c], lost := same.filter (fun d => d.op.isWrite && overlapMask d.op.mask c.op.mask), hold := [bankOf c.line] }
        else { performed := [], lost := [], hold := [] }
      let gone := one.performed ++ one.lost
      let rest := grantSlice n (bankOf c.line :: busy) (cs.filter (fun d => !gone.contains d))
      { performed := one.performed ++ rest.performed, lost := one.lost ++ rest.lost, hold := one.hold ++ rest.hold }

/-- A plain write that ranks below an atomic presented in the same cycle on overlapping bytes is discarded (R168). -/
def belowAtomic (p : List Claim) (c : Claim) : Bool :=
  c.op.isWrite && p.any (fun d => d.block == c.block && d.line == c.line && decide (d.rank < c.rank) && d.op.isAtomic && overlapMask d.op.mask c.op.mask)

/-- All of a block's slices in one cycle. -/
def State.grantBlock (s : State) (block : Nat) : Granted :=
  let p := s.presented block
  let cs := p.filter (fun c => !belowAtomic p c)
  (List.range 16).foldl (fun (g : Granted) sl =>
    let held := (s.fab.bankHold.filter (fun h => h / 128 == block && h / 8 % 16 == sl)).map (· % 8)
    let r := grantSlice (2 - held.length) held (cs.filter (fun c => sliceOf c.line == sl))
    { performed := g.performed ++ r.performed, lost := g.lost ++ r.lost, hold := g.hold ++ r.hold.map (fun b => block * 128 + sl * 8 + b) })
    { performed := [], lost := p.filter (belowAtomic p), hold := [] }

/-! ## What a granted claim does -/

/-- The bytes of a line from the slices. -/
def State.lineBytes (s : State) (c : Claim) : List (Nat × BitVec 8) :=
  let key := sliceKey c.block (c.line * 64)
  keyed key (Memory.readL s.fab.slices key 64)

/-- A line of an access is done: its bytes, or that its write was discarded. -/
def State.lineDone (s : State) (n : Nat) (bs : List (Nat × BitVec 8)) (lost : Bool) : State :=
  { s with fab := { s.fab with accesses := Tab.upd s.fab.accesses n (fun a => { a with left := a.left - 1, lost := a.lost + (if lost then 1 else 0), got := bs.foldl (fun (m : Sys2Proof.Mem) x => Memory.write m x.1 x.2) a.got }) } }

/-- The answer to a claim: at the crossbar for the block's own requesters; a claim that came through the spine port is answered by a
response flit in its request's class (R172). -/
def State.answerClaim (s : State) (c : Claim) (bs : List (Nat × BitVec 8)) (lost : Bool) : State :=
  if c.rank = 22 then
    match s.whoOf c with
    | some w => s.post (.reply c.access bs lost) .response c.cls (blockEnd c.block) w.home
    | none => s
  else s.lineDone c.access bs lost

/-- Perform one granted claim: the line's bytes go to its access, or its bytes to the slice, or both for an atomic (R167). -/
def State.performClaim (s : State) (c : Claim) : State :=
  let key := sliceKey c.block (c.line * 64)
  match c.op with
  | .read => s.answerClaim c (s.lineBytes c) false
  | .write bs => { s with fab := { s.fab with slices := bs.foldl (fun (m : Sys2Proof.Mem) (x : Nat × BitVec 8) => Memory.write m (key + x.1) x.2) s.fab.slices } }.answerClaim c [] false
  | .atomic lo sub op =>
    let n := atomicBytes sub
    let old := Memory.readN s.fab.slices (key + lo) n
    { s with fab := { s.fab with slices := Memory.writeN s.fab.slices (key + lo) n (atomicNew sub old op) } }.answerClaim c (keyed (key + lo) (bytesOf n old)) false
  | .adds sub ws =>
    { s with fab := { s.fab with slices := ws.foldl (fun (m : Sys2Proof.Mem) (w : Nat × Nat) => Memory.writeN m (key + w.1) (atomicBytes sub) (atomicNew sub (Memory.readN m (key + w.1) (atomicBytes sub)) w.2)) s.fab.slices } }.answerClaim c [] false
  | .violation _ => s

/-- A discarded write completes with WRITE_LOST (R165); a crier tap's is noted for its target's mark (R166). -/
def State.loseClaim (s : State) (c : Claim) : State :=
  let s1 := match s.whoOf c with
    | some (.crierTap n) => { s with fab := { s.fab with sends := s.fab.sends.map (fun (x : CrierSend) => if x.id == n then { x with lostAt := dedupN (x.lostAt ++ [c.block]) } else x) } }
    | _ => s
  s1.answerClaim c [] true

/-! ## The end of an access (R166) -/

/-- The data of a completed access reaches its register or store. -/
def State.deliver (s : State) (c : Nat) (a : Access) : State :=
  match a.dest with
  | .none => s
  | .vreg r ty mask key =>
    let x := s.vcell c
    let lanes := (List.range 64).filter (tbit mask)
    s.setV c { (x.writeLanes r (loadLanes (fun i n => Memory.readN a.got (key + i) n) ty lanes)) with pend := x.pend.erase r }
  | .areg r key =>
    let x := s.vcell c
    s.setV c { (x.setA r (Memory.readN a.got key 4)) with pend := x.pend.erase (cA r) }
  | .sreg r n signed key =>
    let x := s.scell c
    s.setS c { (x.setR r (extend n signed (Memory.readN a.got key n))) with pend := x.pend.erase r }
  | .samo r n key =>
    let x := s.scell c
    let hi := if n = 8 then 0 else Config.freeNat s.free % 2 ^ 32 * 2 ^ 32
    { s with free := s.free + 1 }.setS c { (x.setR r (Memory.readN a.got key n + hi)) with pend := x.pend.erase r }
  | .mload l => s.setM c ((s.mcell c).fill l a.got)
  | .crier n k key m => { s with fab := { s.fab with sends := s.fab.sends.map (fun (x : CrierSend) => if x.id == n then { x with data := Tab.put x.data k (Memory.readL a.got key m) } else x) } }
  | .caravan n k key m => { s with fab := { s.fab with streams := s.fab.streams.map (fun (x : CaravanStream) => if x.id == n then { x with data := Tab.put x.data k (Memory.readL a.got key m) } else x) } }
  | .mstore _ => s

/-- WRITE_LOST as its writer reports it, for each write that lost (R166). -/
def State.reportLost (s : State) (w : Requester) (n : Nat) : State :=
  match w with
  | .cell c =>
    match cellKind c with
    | 1 => s.setM c { s.mcell c with lostWrites := (s.mcell c).lostWrites + n }
    | 2 => s.setV c { s.vcell c with lostWrites := (s.vcell c).lostWrites + n }
    | _ => s.setS c { s.scell c with status := (s.scell c).status ||| sstWriteLost, lostWrites := (s.scell c).lostWrites + n }
  | .carrier c => { s with fab := { s.fab with lostWrites := Tab.put s.fab.lostWrites c (get0 s.fab.lostWrites c + n), streamStatus := Tab.put s.fab.streamStatus c 3 } }
  | _ => s

/-- An access whose last line is done ends: its losses are reported, and its data reaches its place. -/
def State.endAccess (s : State) (n : Nat) (a : Access) : State :=
  let s1 := { s with fab := { s.fab with accesses := Tab.del s.fab.accesses n } }
  let s2 := if a.lost = 0 then s1 else s1.reportLost a.who a.lost
  match a.who with
  | .cell c => s2.deliver c a
  | _ => s2.deliver 0 a

/-- Every access with no line left ends, in the order they began. -/
def State.endAccesses (s : State) : State :=
  (s.fab.accesses.filter (fun x => x.2.left == 0)).foldl (fun (s : State) x => s.endAccess x.1 x.2) s

/-- A violating access freezes its issuer, and goes no further (R505). -/
def State.violate (s : State) (c : Claim) (va : Nat) : State :=
  let s1 := { s with fab := { s.fab with claims := s.fab.claims.filter (· != c) } }
  match Tab.find s.fab.accesses c.access with
  | some a =>
    let s2 := { s1 with fab := { s1.fab with accesses := Tab.del s1.fab.accesses c.access } }
    match a.who with
    | .cell n => s2.freezeMaster .cell n violUnbound a.part va
    | .carrier n => s2.freezeMaster .carrier n violUnbound a.part va
    | .unit n => s2.freezeMaster .unit n violUnbound a.part va
    | .port n => s2.freezeMaster .port n violUnbound a.part va
    | _ => s2
  | none => s1

/-- One CLK_BLK of a block's banks: violating accesses freeze their issuers, claims are granted under R163-R168, the others wait, and
every access whose last line is done returns its data or status. Nothing is granted during a wipe, when accesses through the spine port
are discarded without a reply (R170), nor while the block's cells are stopped (R428). -/
def State.bankCycle (s : State) (block : Nat) : State :=
  if !s.blockRuns block then
    { s with fab := { s.fab with claims := s.fab.claims.filter (fun c => !(c.block == block && c.rank == 22 && (s.block block).wipe.isSome)) } }
  else
    let viol := s.fab.claims.filterMap (fun c => if c.block = block then (match c.op with | .violation va => some (c, va) | _ => none) else none)
    let s0 := viol.foldl (fun (s : State) (x : Claim × Nat) => s.violate x.1 x.2) s
    let p := s0.presented block
    let g := s0.grantBlock block
    let gone := g.performed ++ g.lost
    let s1 := { s0 with fab := { s0.fab with claims := (s0.fab.claims.filter (fun c => !gone.contains c)).map (fun c => if p.contains c then { c with issued := true } else c), bankHold := s0.fab.bankHold.filter (fun h => h / 128 != block) ++ g.hold } }
    let s2 := g.performed.foldl State.performClaim s1
    (g.lost.foldl State.loseClaim s2).endAccesses

/-! ## Scrub (R169) -/

/-- SLICE_PATROL_SCRUB: a bank that no claim wants in this cycle, an atomic's write cycle included, reads and rewrites its next line; a
single-bit error met is corrected and counted (R168, R169). -/
def execSlicePatrolScrub (block slice bank : Nat) (corrected : Bool) (s : State) : Outc :=
  .next (
    let b := s.block block
    if s.fab.claims.any (fun c => c.block == block && sliceOf c.line == slice && bankOf c.line == bank) || !s.blockRuns block ||
        s.fab.bankHold.contains (block * 128 + slice * 8 + bank) || 16 ≤ slice || 8 ≤ bank then s
    else
      let k := slice * 8 + bank
      s.setBlock block { b with scrub := put0 b.scrub k ((get0 b.scrub k + 1) % 3072), corrected := if corrected then b.corrected + 1 else b.corrected })

end Sys2Proof.Machine
end

