-- ==== Sys2Proof/Machine/Criers.lean ====
section
/-! DEFINITION. Sys2Proof/Machine/Criers.lean: crier sends, the region criers and the device root, and caravans (06_slice_memory
R176-R183, R185). -/

namespace Sys2Proof.Machine

/-! ## Crier sends (R176, R177) -/

/-- A carrier's stream ends with a status; on a failure its start ends and its input is forwarded with ABANDONED. -/
def State.endStream (s : State) (carrier status : Nat) : State :=
  let s1 := { s with fab := { s.fab with streamStatus := Tab.put s.fab.streamStatus carrier status } }
  let e := 0x2000 + carrier
  match s1.engine? e with
  | none => s1
  | some x =>
    match x.start with
    | none => s1
    | some st => s1.setEngine e { x with start := some { st with ended := true, faulted := decide (status = 1 ∨ status = 2) } }

/-- The named blocks a mask names (R176): of the ten of region r, or of the sixty. The region of a named block is that of its physical
block (R343). -/
def maskNames (device : Bool) (mask r : Nat) : List Nat :=
  if device then (List.range 60).filter (tbit mask) else ((List.range 10).filter (tbit mask)).map (· + r * 10)

/-- CRIER_SEND: a carrier's stream to a crier is checked, and waits for its stages (R176, R177). One that names a moving block is
held at its check until the switch (R363). -/
def execCrierSend (carrier : Nat) (device : Bool) (srcBlock srcOff length dstOff mask : Nat) (s : State) : Outc :=
  .next (
    let e := 0x2000 + carrier
    match s.running e (carrier / 4) with
    | none => s
    | some (x, _) =>
      if length < 64 ∨ 1048576 < length ∨ length % 64 ≠ 0 then s.endStream carrier 2
      else if ringAreaBase < srcOff * 64 + length ∨ ringAreaBase < dstOff * 64 + length then s.endStream carrier 1
      else
        match s.phys x.part srcBlock with
        | none => s.freezeEngine e violUnbound (srcBlock * 2 ^ 25 + srcOff * 64)
        | some sb =>
          let names := (maskNames device mask (regionOf sb)).filter (· != srcBlock)
          let ts := names.map (s.phys x.part)
          if ts.any Option.isNone then s.freezeEngine e violUnbound (dstOff * 64)
          else if (srcBlock :: names).any (s.movingName x.part) then s
          else if names.isEmpty then s.endStream carrier 0
          else
            let n : CrierSend := { id := s.fab.nextSend, device := device, part := x.part, resetGen := s.genOf x.part, src := some (sb, srcOff), hub := [], bytes := length, dstLine := dstOff, targets := ts.filterMap (fun t => t), beats := 0, marks := [], why := 0, sender := carrier, lostAt := [], stopped := none }
            { s with fab := { s.fab with sends := s.fab.sends ++ [n], nextSend := n.id + 1 } })

def State.send? (s : State) (n : Nat) : Option CrierSend := s.fab.sends.find? (fun x => x.id == n)
def State.updSend (s : State) (n : Nat) (f : CrierSend → CrierSend) : State :=
  { s with fab := { s.fab with sends := s.fab.sends.map (fun x => if x.id == n then f x else x) } }
def State.crier (s : State) (r : Nat) : Crier := Tab.getD s.fab.criers r {}
def State.setCrier (s : State) (r : Nat) (c : Crier) : State := { s with fab := { s.fab with criers := Tab.put s.fab.criers r c } }

/-- Beats of a send (R178). -/
def CrierSend.total (x : CrierSend) : Nat := cdiv x.bytes 256

/-- A send still has a stage to grant. -/
def CrierSend.pending (x : CrierSend) : Bool := decide (x.beats < x.total) && x.stopped.isNone

/-- Bytes of beat k. -/
def CrierSend.beatBytes (x : CrierSend) (k : Nat) : Nat := min 256 (x.bytes - k * 256)

/-- The region crier that serves a target of a send. -/
def CrierSend.crierOf (x : CrierSend) (t : Nat) : Nat := if x.device then regionOf t else regionOf x.srcBlock

/-- The next stage of a send: its beats, and its source lines read by the tap of the source block at rank 23 (R162, R176). -/
def State.takeStage (s : State) (x : CrierSend) : Stage × State :=
  let hi := min x.total (x.beats + 16)
  let s1 := s.updSend x.id (fun y => { y with beats := hi })
  let g : Stage := { send := x.id, next := x.beats, stop := hi }
  match x.src with
  | none => (g, s1)
  | some (b, off) =>
    (g, ((List.range (hi - x.beats)).map (· + x.beats)).foldl (fun (s : State) k =>
      let key := sliceKey b (off * 64 + k * 256)
      let n := x.beatBytes k
      s.addAccess { who := .crierTap x.id, part := x.part, dest := .crier x.id k key n, got := [], left := 0, lost := 0, store := false }
        ((linesOf key n).map (fun l => (l / 2 ^ 19, l % 2 ^ 19, 23, LineOp.read)))) s1)

/-- The bytes of beat k once its source has been read; a hub buffer holds them at once. -/
def CrierSend.beat? (x : CrierSend) (k : Nat) : Option (List (BitVec 8)) :=
  match x.src with
  | none => some ((x.hub.drop (k * 256)).take (x.beatBytes k))
  | some _ => Tab.find x.data k

/-! ## Stages (R178) -/

/-- How long after the block served last a source block comes round. -/
def turnAfter (last : Option Nat) (b : Nat) : Nat := match last with | some l => (b + 60 - (l + 1)) % 60 | none => b

/-- The next region sender, round-robin over source blocks after the block served last (R178). -/
def State.regionSender (s : State) (r : Nat) : Option CrierSend :=
  (sortBy (fun x => turnAfter (s.crier r).last x.srcBlock) (s.fab.sends.filter (fun x => !x.device && x.pending && regionOf x.srcBlock == r))).head?

/-- The next device sender: round-robin over source blocks, Innkeeper last (R178). -/
def State.deviceSender (s : State) : Option CrierSend :=
  (sortBy (fun x => if x.src.isSome then turnAfter s.fab.deviceLast x.srcBlock else 60) (s.fab.sends.filter (fun x => x.device && x.pending))).head?

/-- The device root admits the next sender's stage when every region has room for it: it holds two for each (R178). -/
def State.rootCycle (s : State) : State :=
  if (List.range 6).any (fun r => decide (2 ≤ (s.crier r).held.length)) then s
  else
    match s.deviceSender with
    | none => s
    | some x =>
      let g := s.takeStage x
      let s1 := (List.range 6).foldl (fun (s : State) r => s.setCrier r { s.crier r with held := (s.crier r).held ++ [g.1] }) g.2
      if x.src.isSome then { s1 with fab := { s1.fab with deviceLast := some x.srcBlock } } else s1

/-- CRIER_STAGE_GRANT: at a slot boundary of region r's crier, a held device stage is granted, unless the three previous slots carried
device stages and a region sender waits; else the next region sender's stage; else the slot stays empty (R178). Slots of 16 CLK_SPN
follow one another; those that passed without a grant were empty. -/
def execCrierStageGrant (r : Nat) (s : State) : Outc :=
  .next (
    let c := s.crier r
    if c.cur.isSome ∨ s.spine.cycle < c.slotEnd then s
    else
      let passed := (s.spine.cycle - c.slotEnd) / 16
      let c1 := { c with slotEnd := c.slotEnd + 16 * passed + 16 }
      let run := if passed = 0 then c.run else 0
      match c.held, s.regionSender r with
      | g :: l, none => s.setCrier r { c1 with cur := some g, held := l, run := run + 1 }
      | [], none => s.setCrier r { c1 with run := 0 }
      | held, some x =>
        if held ≠ [] ∧ run < 3 then s.setCrier r { c1 with cur := held.head?, held := held.tail, run := run + 1 }
        else
          let g := s.takeStage x
          g.2.setCrier r { c1 with cur := some g.1, run := 0, last := some x.srcBlock })

/-! ## Beats (R179, R185) -/

/-- Lines waiting at a block's crier tap. -/
def State.tapLines (s : State) (b : Nat) : Nat := (s.fab.claims.filter (fun c => c.block == b && c.rank == 23 && !c.op.isRead)).length

/-- Write a beat at one target's tap; a target under reset discards it (R185). -/
def State.beatTo (s : State) (x : CrierSend) (k : Nat) (bs : List (BitVec 8)) (t : Nat) : State :=
  if !s.blockRuns t then s.updSend x.id (fun y => { y with dead := dedupN (y.dead ++ [t]) })
  else
    s.addAccess { who := .crierTap x.id, part := x.part, dest := .none, got := [], left := 0, lost := 0, store := true }
      ((List.range (cdiv bs.length 64)).map (fun i => (t, x.dstLine + k * 4 + i, 23, LineOp.write (keyed 0 ((bs.drop (64 * i)).take 64)))))

/-- The beat on region r's crier has passed its checks: its failed ones count no more (R175). -/
def State.passed (s : State) (send r : Nat) : State :=
  { s with spine := { s.spine with fails := s.spine.fails.filter (fun x => !(x.2.1 == send && x.1 / 256 == r && decide (254 ≤ x.1 % 256))) } }

/-- One CLK_SPN of a region crier: its stage's next beat is placed when its source has been read and every target tap has room for its 4
lines; a beat that waits for room lengthens the slot (R179). A beat of an old reset generation is dropped at its targets (R185). -/
def State.crierCycle (s : State) (r : Nat) : State :=
  let c := s.crier r
  match c.cur with
  | none => s
  | some g =>
    match s.send? g.send with
    | none => s.setCrier r { c with cur := none }
    | some x =>
      match x.beat? g.next with
      | none => s
      | some bs =>
        if s.spine.cycle < c.hold then s
        else
          let ts := x.targets.filter (fun t => x.crierOf t == r)
          if ts.any (fun t => s.blockRuns t && decide (60 < s.tapLines t)) then s.setCrier r { c with slotEnd := c.slotEnd + 1 }
          else
            let s1 := (s.passed x.id r).setCrier r { c with beatAt := some s.spine.cycle, cur := if g.next + 1 < g.stop then some { g with next := g.next + 1 } else none }
            let s2 := if g.next + 1 = x.total then s1.updSend x.id (fun y => { y with doneIn := y.doneIn ++ [r] }) else s1
            if x.resetGen ≠ s.genOf x.part then s2 else ts.foldl (fun (s : State) t => s.beatTo x g.next bs t) s2

/-- A send stops: 2, a source line met an uncorrectable error; 4, its source block is reset. Its stages leave the criers (R185). -/
def State.stopSend (s : State) (n k : Nat) : State :=
  let s1 := s.updSend n (fun y => { y with stopped := some k })
  (List.range 6).foldl (fun (s : State) r =>
    let c := s.crier r
    if c.cur.any (fun g => g.send == n) || c.held.any (fun g => g.send == n) then
      s.setCrier r { c with cur := c.cur.filter (fun g => g.send != n), held := c.held.filter (fun g => g.send != n) }
    else s) s1

/-- The sends from a block stop when it is reset, but for those whose beats are all on the criers (R185). -/
def State.stopSends (s : State) (b : Nat) : State :=
  (s.fab.sends.filter (fun x => x.src.isSome && x.srcBlock == b && x.stopped.isNone && !(x.targets.all (fun t => x.doneIn.contains (x.crierOf t))))).foldl
    (fun (s : State) x => s.stopSend x.id 4) s

/-! ## Delivery marks (R180, R185) -/

/-- The mark a target returns (R180, R185): DROPPED with SOURCE_ERROR when a source line failed, TARGET_RESET when the target discarded
beats, SOURCE_RESET when the source was reset before the target had the last beat, WRITE_LOST when a line lost; else DELIVERED. -/
def State.markOf (s : State) (x : CrierSend) (t : Nat) : Option Nat :=
  if x.stopped = some 2 then some 2
  else if x.dead.contains t ∨ s.blockRuns t = false then some 3
  else if x.stopped.isSome ∧ x.doneIn.contains (x.crierOf t) = false then some 4
  else if x.lostAt.contains t then some 1
  else none

/-- A target's lines of a send still wait at its tap. -/
def State.tapBusy (s : State) (n t : Nat) : Bool :=
  s.fab.accesses.any (fun a => a.2.who == .crierTap n && a.2.store && s.fab.claims.any (fun c => c.access == a.1 && c.block == t))

/-- DELIVERY_MARK: a target has written the send's last beat, or the send has stopped, and its mark leaves for the sender: a flit of the
crier and control channel (R172, R180), of class P1 (DESIGN CHOICE, log entry 47: R172's table of classes does not name marks). -/
def execDeliveryMark (send target : Nat) (s : State) : Outc :=
  .next (
    match s.send? send with
    | none => s
    | some x =>
      if !x.targets.contains target || x.marked.contains target || s.tapBusy send target ||
          (!x.doneIn.contains (x.crierOf target) && x.stopped.isNone) then s
      else (s.updSend send (fun y => { y with marked := y.marked ++ [target] })).post (.mark send target (s.markOf x target)) .control 1 (blockEnd target)
        (if x.why = 0 then blockEnd (x.sender / 4) else hubEnd))

/-- A mark reaches the sender; when every mark has arrived the send is complete, and a carrier keeps its marks (R180). -/
def State.takeMark (s : State) (send target : Nat) (reason : Option Nat) : State :=
  match s.send? send with
  | none => s
  | some x =>
    let ms := x.marks ++ [{ block := target, reason := reason }]
    if ms.length = x.targets.length then
      let s1 := { s with fab := { s.fab with sends := s.fab.sends.filter (fun y => y.id != send) } }
      if x.why = 0 then
        { s1 with fab := { s1.fab with streamMarks := Tab.put s1.fab.streamMarks x.sender ms } }.endStream x.sender (if ms.any (fun m => m.reason.isSome) then 4 else 0)
      else s1
    else s.updSend send (fun y => { y with marks := ms })

/-! ## Caravans (R181-R183) -/

def caravanMask : Nat :=
  maskOf ([(0, 7, 0), (1, 4, 0), (68, 31, 0)] ++ (List.range 16).map (fun i => (4 + 4 * i, 24, 0)))

/-- Caravans are keyed partition * 256 + ID. -/
def cvKey (p id : Nat) : Nat := p * 256 + id

/-- The caravan a record defines; HEADROOM is an RO field, whose written value is discarded. -/
def caravanOf (p r : Nat) : Caravan :=
  let ms := (List.range (fld r 1 4 0)).map (fun i => (fld r (4 + 4 * i) 24 19, fld r (4 + 4 * i) 18 0))
  let rooms := ms.map (fun m => ringAreaBase - m.2 * 64)
  { part := p, members := ms, headroom := rooms.foldl min (rooms.headD 0), inFlight := 0 }

/-- R182: the answers in the order of its table; a caravan with writes in flight is replaced once they have completed. -/
def caravanDefineBody (r : Nat) (e : CmdEnv) (s : State) : CmdRes :=
  let n := fld r 1 4 0
  let k := cvKey e.part (fldB r 0 1)
  let x := caravanOf e.part r
  if x.members.any (fun m => (s.phys e.part m.1).isNone) then refuse s .notOwned
  else if n == 0 || 16 < n then refuse s .limit
  else if x.members.any (fun m => decide (ringAreaBase ≤ m.2 * 64)) then refuse s .badAddr
  else if rsvdSet r caravanMask || (List.range 16).any (fun i => decide (n ≤ i) && fldB r (4 + 4 * i) 4 != 0) then refuse s .rsvdSet
  else
    match Tab.find s.fab.caravans k with
    | some y =>
      if y.inFlight = 0 then done { s with fab := { s.fab with caravans := Tab.put s.fab.caravans k x } } x.headroom
      else ({ s with fab := { s.fab with caravanWaits := s.fab.caravanWaits ++ [{ key := k, ring := e.ring, replace := some x }] } }, none)
    | none => done { s with fab := { s.fab with caravans := Tab.put s.fab.caravans k x } } x.headroom

/-- CARAVAN_DEFINE. -/
def execCaravanDefine (ring : Nat) (record : BitVec 1024) (s : State) : Outc :=
  .next (runCmd s ring 0x0017 record.toNat 3 (caravanDefineBody record.toNat))

/-- R182: the ID is freed after the writes in flight to it. -/
def caravanReleaseBody (r : Nat) (e : CmdEnv) (s : State) : CmdRes :=
  let k := cvKey e.part (fldB r 0 1)
  if r / 256 % 2 ^ 56 != 0 then refuse s .rsvdSet
  else
    match Tab.find s.fab.caravans k with
    | none => refuse s .badId
    | some y =>
      if y.inFlight = 0 then done { s with fab := { s.fab with caravans := Tab.del s.fab.caravans k } } 0
      else ({ s with fab := { s.fab with caravanWaits := s.fab.caravanWaits ++ [{ key := k, ring := e.ring, replace := none }] } }, none)

/-- CARAVAN_RELEASE. -/
def execCaravanRelease (ring : Nat) (record : BitVec 64) (s : State) : Outc :=
  .next (runCmd s ring 0x0018 record.toNat 3 (caravanReleaseBody record.toNat))

/-- What waited for a caravan's writes in flight goes on (R182). -/
def State.caravanDrained (s : State) (k : Nat) : State :=
  let ws := s.fab.caravanWaits.filter (fun w => w.key == k)
  let s0 := { s with fab := { s.fab with caravanWaits := s.fab.caravanWaits.filter (fun w => w.key != k) } }
  ws.foldl (fun (s : State) w =>
    match w.replace with
    | some x => { s with fab := { s.fab with caravans := Tab.put s.fab.caravans k x } }.answerCmd w.ring (.ok x.headroom)
    | none => { s with fab := { s.fab with caravans := Tab.del s.fab.caravans k } }.answerCmd w.ring (.ok 0)) s0

/-- CARAVAN_WRITE: a carrier's stream writes `length` bytes, read from a block of its partition, to caravan-relative bytes from `off`. Past
HEADROOM it fails with BAD_ADDR before any copy is made; else the carrier reads the source lines once, and the region's replicator copies
every flit to each member (R183). A write naming a moving block is held (R350). -/
def execCaravanWrite (carrier id off srcBlock srcOff length : Nat) (s : State) : Outc :=
  .next (
    let e := 0x2000 + carrier
    match s.running e (carrier / 4) with
    | none => s
    | some (x, _) =>
      let k := cvKey x.part id
      match Tab.find s.fab.caravans k with
      | none => s.endStream carrier 1
      | some c =>
        if c.headroom < off + length ∨ ringAreaBase < srcOff * 64 + length then s.endStream carrier 1
        else if (s.phys x.part srcBlock).isNone || c.members.any (fun m => (s.phys x.part m.1).isNone) then s.freezeEngine e violUnbound off
        else if s.movingName x.part srcBlock || c.members.any (fun m => s.movingName x.part m.1) then s
        else if length = 0 then s.endStream carrier 0
        else
          let sb := (s.phys x.part srcBlock).getD 0
          let ms := c.members.map (fun m => ((s.phys x.part m.1).getD 0, m.2))
          let flits := List.range (cdiv length 64)
          let n := s.fab.nextSend
          let lines := sumN (flits.map (fun f => sumN (ms.map (fun m => (linesOf (m.2 * 64 + off + 64 * f) (min 64 (length - 64 * f))).length))))
          let a := s.fab.nextAccess
          let y : CaravanStream := { id := n, carrier := carrier, key := k, part := x.part, off := off, bytes := length, members := ms, data := [], flit := 0, member := 0, access := a }
          let s1 := { s with fab := { s.fab with
            nextSend := n + 1, nextAccess := a + 1, streams := s.fab.streams ++ [y], streamStatus := Tab.put s.fab.streamStatus carrier 0,
            accesses := Tab.put s.fab.accesses a { who := .carrier carrier, part := x.part, dest := .none, got := [], left := lines, lost := 0, store := true },
            caravans := Tab.put s.fab.caravans k { c with inFlight := c.inFlight + 1 } } }
          flits.foldl (fun (s : State) f =>
            let key := sliceKey sb (srcOff * 64 + 64 * f)
            s.addAccess { who := .carrier carrier, part := x.part, dest := .caravan n f key (min 64 (length - 64 * f)), got := [], left := 0, lost := 0, store := false }
              [(sb, key / 64 % 2 ^ 19, if sb = carrier / 4 then 24 + carrier % 4 else 22, LineOp.read)]) s1)

/-- A stream has a copy to make. -/
def CaravanStream.ready (y : CaravanStream) : Bool := Tab.has y.data y.flit

/-- The stream a region's replicator serves now: one in the middle of a flit, else the next in turn (R183). -/
def State.nextStream (s : State) (r : Nat) : Option CaravanStream :=
  let l := s.fab.streams.filter (fun y => y.carrier / 40 == r && y.ready)
  match l.find? (fun y => y.member != 0) with
  | some y => some y
  | none => match l.find? (fun y => decide (Tab.getD s.spine.lastStream r 0 < y.id)) with
    | some y => some y
    | none => l.head?

/-- One copy leaves a region's replicator: a class P2 request flit for each line it writes (R172, R183). -/
def State.copyOne (s : State) (r : Nat) : State :=
  match s.nextStream r with
  | none => s
  | some y =>
    match y.members[y.member]?, Tab.find y.data y.flit with
    | some m, some bs =>
      let bytes := keyed (sliceKey m.1 (m.2 * 64 + y.off + 64 * y.flit)) bs
      let s1 := (dedupN (bytes.map (fun b => b.1 / 64))).foldl (fun (s : State) l =>
        let c : Claim := { access := y.access, block := l / 2 ^ 19, line := l % 2 ^ 19, rank := 22, op := .write ((bytes.filter (fun b => b.1 / 64 == l)).map (fun b => (b.1 % 64, b.2))), cls := 2 }
        s.post (.claim c) .request 2 (blockEnd (y.carrier / 4)) (blockEnd c.block)) s
      let y1 := if y.member + 1 < y.members.length then { y with member := y.member + 1 } else { y with member := 0, flit := y.flit + 1, data := Tab.del y.data y.flit }
      { s1 with fab := { s1.fab with streams := s1.fab.streams.map (fun z => if z.id == y.id then y1 else z) }, spine := { s1.spine with lastStream := Tab.put s1.spine.lastStream r y.id } }
    | _, _ => s

/-- Streams that a reset takes away (R427, R430): their copies under way are dropped at their targets. -/
def State.dropStreams (s : State) (f : CaravanStream → Bool) : State :=
  (s.fab.streams.filter f).foldl (fun (s : State) y =>
    let s1 := { s with fab := { s.fab with streams := s.fab.streams.filter (fun z => z.id != y.id), caravans := Tab.upd s.fab.caravans y.key (fun c => { c with inFlight := c.inFlight - 1 }) } }
    if (Tab.find s1.fab.caravans y.key).all (fun c => c.inFlight == 0) then s1.caravanDrained y.key else s1) s

/-- Caravan streams whose last copy has been written end: WRITE_LOST when a line lost (R166), and the caravan has one write less in
flight (R182). -/
def State.endStreams (s : State) : State :=
  (s.fab.streams.filter (fun y => decide (cdiv y.bytes 64 ≤ y.flit) && !Tab.has s.fab.accesses y.access)).foldl (fun (s : State) y =>
    let s1 := { s with fab := { s.fab with streams := s.fab.streams.filter (fun z => z.id != y.id), caravans := Tab.upd s.fab.caravans y.key (fun c => { c with inFlight := c.inFlight - 1 }) } }
    let s2 := s1.endStream y.carrier (if get0 s1.fab.streamStatus y.carrier = 3 then 3 else 0)
    if (Tab.find s2.fab.caravans y.key).all (fun c => c.inFlight == 0) then s2.caravanDrained y.key else s2) s

end Sys2Proof.Machine
end

