-- ==== Sys2Proof/Machine/Regulators.lean ====
section
/-! DEFINITION. Sys2Proof/Machine/Regulators.lean: regulated masters issue and complete transactions, and what a controller's queue holds
 (15_regulation R410-R415, R420, R421; 08_main_memory R224, R227). -/

namespace Sys2Proof.Machine

/-! ## Masters (R410-R415) -/

/-- The channel group of a DPA: four channels (R33). -/
def State.groupOf (s : State) (dpa : Nat) : Nat := s.dpaChannel dpa / 4

/-- The key of a master on a group. -/
def regKey (p order g : Nat) : Nat := (p * 256 + order) * 16 + g

/-- Order number of the master an engine's transactions belong to (R410): carriers, and collective engines at their port. -/
def masterOrder (e : Nat) : Option Nat :=
  if engClass e = 2 then some (engNum e) else if engClass e = 5 then some (240 + engNum e) else none

/-- OT_MIN and OT_MAX of a master that the table does not list: Innkeeper's own, else no guarantee (R412, R413, R420). -/
def State.freshMaster (s : State) (p order : Nat) : RegMaster :=
  let zero : RegMaster := { otMin := 0, otMax := s.zh 68, p1 := 0, p3 := 0, waiting := 0, done := 0, demand := 0, subs := [] }
  if order = 254 then { zero with otMin := 16, otMax := 64 }
  else
    match s.part? p with
    | some x => if x.sealedShare then { zero with otMax := 0 } else zero
    | none => zero

def State.master (s : State) (k : Nat) : RegMaster := Tab.getD s.reg.masters k (s.freshMaster (k / 4096) (k / 16 % 256))

def State.setMaster (s : State) (k : Nat) (m : RegMaster) : State :=
  { s with reg := { s.reg with masters := Tab.put s.reg.masters k m } }

/-- W3 of a master at a slow-down step (R415). -/
def RegMaster.w3 (m : RegMaster) (step : Nat) : Nat :=
  if m.otMin < m.otMax then max 1 ((m.otMax - m.otMin) >>> step) else 0

/-- S(g). -/
def State.slowStep (s : State) (g : Nat) : Nat := Tab.getD s.reg.step g 0

/-- The class of the master's next transaction (R414): P1 (false), P3 (true), or none when it must wait. -/
def State.regClass (s : State) (k : Nat) : Option Bool :=
  let m := s.master k
  let n := m.p1 + m.p3
  if n < m.otMin then some false
  else if n < m.otMin + m.w3 (s.slowStep (k % 16)) then some true
  else none

/-- A transaction of the master is issued in a class (R414). -/
def State.regIssue (s : State) (k : Nat) (p3 : Bool) : State :=
  let m := s.master k
  s.setMaster k (if p3 then { m with p3 := m.p3 + 1 } else { m with p1 := m.p1 + 1 })

/-- A subchannel receives a transaction of a regulated master (R419). -/
def State.received (s : State) (r : MemReq) : State :=
  match r.reg with
  | none => s
  | some (k, _) =>
    let m := s.master k
    let sub := s.dpaChannel (r.line * 64) * 2 + subOf (r.line * 64)
    if m.subs.contains sub then s else s.setMaster k { m with subs := m.subs ++ [sub] }

/-- A transaction issued in a class has completed, or its reply was dropped (R410, R423). -/
def State.regDone (s : State) (k : Nat) (p3 completed : Bool) : State :=
  let m := s.master k
  let m1 := if p3 then { m with p3 := m.p3 - 1 } else { m with p1 := m.p1 - 1 }
  s.setMaster k { m1 with done := if completed then m.done + 1 else m.done }

/-! ## Pages that are held (R232, R244, R245) -/

/-- The bitmap line with which a restarted sequencer begins: that of the partition's first page on the channel; a line holds the bits of 512
of a channel's pages (R221, R245). -/
def State.scanFrom (s : State) (p ch : Nat) : Nat :=
  match (s.part? p).bind (fun x => x.runs.find? (fun r => s.dpaRegion r.1 == ch / 8)) with
  | some r => s.stripeOf r.1 / 512
  | none => 0

/-- A page is in flight in a sweep, or lies beyond the last bitmap line that a restarted sequencer has read (R244, R245). -/
def State.sweepHeld (s : State) (dpa : Nat) : Bool :=
  s.dram.rekeys.any (fun e =>
    let ch := s.dpaChannel dpa
    (Tab.find e.2.pages ch).any (fun g => g.page == dpa / 4096 * 4096) ||
    (match Tab.find e.2.scans ch with | some z => s.ownerOf dpa == some e.1 && decide (s.scanFrom e.1 ch + z.read ≤ s.stripeOf dpa / 512) | none => false))

/-- Requests to a page are held (R232, R244, R245). -/
def State.pageHeld (s : State) (dpa : Nat) : Bool := s.sweepHeld dpa || s.codedStarting dpa

/-! ## Requests on their way (R171, R227, R410) -/

/-- Where an engine's requests enter the spines: a carrier at its block's port, a collective engine at its fabric port. -/
def engEnd (e : Nat) : Nat × Nat :=
  if engClass e = 5 then fabricEnd (engNum e) else match engBlock e with | some b => blockEnd b | none => hubEnd

/-- A port of the module on its spine or at the hub switch. -/
def portEnd (n : Nat) : Nat × Nat := if n < 12 then fabricEnd n else hostEnd (n - 12)

/-- Where a request's answer goes. -/
def State.memHome (s : State) (w : MemWho) : Nat × Nat :=
  match w with
  | .walk b _ => blockEnd b
  | .engine e => engEnd e
  | .win n => (match Tab.find s.xlt.winOps n with | some o => portEnd o.port | none => hubEnd)
  | _ => hubEnd

/-- Send a request to its line's controller, on the request channel in its class (R172). -/
def State.sendMem (s : State) (r : MemReq) : State :=
  s.post (.memory r) .request (if r.p3 then 3 else 1) (s.memHome r.who) (channelEnd (s.dpaChannel (r.line * 64)))

/-- A request of a master is made: it waits there until its count lets it issue (R410, R414). -/
def State.transact (s : State) (part order : Nat) (r : MemReq) : State :=
  { s with dram := { s.dram with backlog := s.dram.backlog ++ [(regKey part order (s.groupOf (r.line * 64)), { r with id := s.dram.nextReq })], txns := Tab.put s.dram.txns s.dram.nextReq r.who, nextReq := s.dram.nextReq + 1 } }

/-- A master's port is DOWN or QUARANTINED: it issues nothing new (R423). -/
def State.portStopped (s : State) (order : Nat) : Bool :=
  decide (240 ≤ order) && (match Tab.find s.link.ports (order - 240) with
    | some x => x.state == .down || x.state == .quarantined
    | none => false)

/-- Every waiting transaction whose master may issue it leaves, in the order in which they were made (R414). -/
def State.issueTxns (s : State) : State :=
  s.dram.backlog.foldl (fun (s : State) x =>
    match if s.portStopped (x.1 / 16 % 256) then none else s.regClass x.1 with
    | some p3 => (s.regIssue x.1 p3).sendMem { x.2 with p3 := p3, reg := some (x.1, p3) }
    | none => { s with dram := { s.dram with backlog := s.dram.backlog ++ [x] } }) { s with dram := { s.dram with backlog := [] } }

/-- An engine has transactions under way. -/
def State.engBusy (s : State) (e : Nat) : Bool := s.dram.txns.any (fun x => x.2 == .engine e)

/-- Answers to an engine's transactions have nobody to go to (R426). -/
def State.dropTxns (s : State) (e : Nat) : State :=
  { s with dram := { s.dram with txns := Tab.all s.dram.txns (fun _ w => if w = .engine e then .none else w) }, xlt := { s.xlt with remote := s.xlt.remote.filter (fun x => x.engine != e) } }

/-! ## Sealed shares at a controller (R420, R421) -/

/-- The sealed partition that holds a share of a group, and the share (R420: at most one). -/
def State.sealedOn (s : State) (g : Nat) : Option (Nat × Nat) :=
  (s.part.parts.find? (fun e => e.2.sealedShare && Tab.getD e.2.chShare g 0 != 0)).map (fun e => (e.1, Tab.getD e.2.chShare g 0))

/-- The partition whose master issued a request: none for the controller's own traffic. -/
def MemReq.part (r : MemReq) : Option Nat := r.reg.map (fun x => x.1 / 4096)

/-- A request that holds an entry of a controller: queued, granted as a read whose data is still to come, or as a write not yet complete
(R227; R228's "ungranted entry" tells that a granted one is still an entry). -/
def Ctrl.held (c : Ctrl) : List MemReq :=
  c.queue ++ (c.reads.filter (fun x => !x.entry)).map (·.req) ++ c.sub0.busy.toList ++ c.sub1.busy.toList

/-- A controller has an entry for a request (R227); 3 SHARE of the 256 are kept for a sealed partition's (R421). -/
def State.roomFor (s : State) (ch : Nat) (r : MemReq) : Bool :=
  let l := (s.ctrl ch).held
  match s.sealedOn (ch / 4) with
  | some (p, sh) =>
    if r.part = some p then decide (l.length < 256)
    else decide (l.length + (3 * sh - (l.filter (fun q => q.part == some p)).length) < 256)
  | none => decide (l.length < 256)

end Sys2Proof.Machine
end

