-- ==== Sys2Proof/Machine/Translation.lean ====
section
/-! DEFINITION. Sys2Proof/Machine/Translation.lean: block translation units, walks, prefetch and mirror syncs (09_translation
R251-R266, R273-R275). -/

namespace Sys2Proof.Machine

def freshBtu : Btu :=
  { sets := [], ways := [], walkCache := [], walkPtr := 0, roots := [], rootPtr := 0, walks := [], streams := [], scanning := [] }

def State.btu (s : State) (b : Nat) : Btu := Tab.getD s.xlt.btus b freshBtu

def State.setBtu (s : State) (b : Nat) (x : Btu) : State :=
  { s with xlt := { s.xlt with btus := Tab.put s.xlt.btus b x } }

/-- The TLB entry of a page in a context (R256). -/
def Btu.lookup (x : Btu) (p c vpage : Nat) : Option TlbEntry :=
  (Tab.vals (Tab.getD x.sets (vpage % 256) [])).find? (fun e => e.part == p && e.context == c && e.vpage == vpage)

/-- Fill a TLB set at its round-robin way (R256). -/
def Btu.fill (x : Btu) (e : TlbEntry) : Btu :=
  let k := e.vpage % 256
  let set := (Tab.getD x.sets k []).filter (fun w => !(w.2.part == e.part && w.2.context == e.context && w.2.vpage == e.vpage))
  let w := Tab.getD x.ways k 0
  { x with sets := Tab.put x.sets k (Tab.put set w e), ways := Tab.put x.ways k ((w + 1) % 8) }

/-- VA bits from a level's index upward: the walk cache's tag (R256). -/
def walkTag (level va : Nat) : Nat := va / 2 ^ (12 + 9 * level)

/-- The walk cache's entry of a level for an address. -/
def Btu.walkHit (x : Btu) (p c level va : Nat) : Option Nat :=
  ((Tab.vals x.walkCache).find? (fun e => e.part == p && e.context == c && e.level == level && e.vtag == walkTag level va)).map (·.dte)

/-- Fill the walk cache at its round-robin pointer. -/
def Btu.walkFill (x : Btu) (e : WalkEntry) : Btu :=
  { x with walkCache := Tab.put x.walkCache x.walkPtr e, walkPtr := (x.walkPtr + 1) % 256 }

/-- Where a walk begins: the deepest level found in the walk cache, else the root (R258): level and table. -/
def State.walkFrom (s : State) (x : Btu) (p c va : Nat) : Nat × Nat :=
  match x.walkHit p c 1 va with
  | some d => (0, dteFrame d)
  | none =>
    match x.walkHit p c 2 va with
    | some d => (1, dteFrame d)
    | none =>
      match x.walkHit p c 3 va with
      | some d => (2, dteFrame d)
      | none => (3, match s.ctx? p c with | some k => k.root | none => 0)

/-- The root cache takes the context's root when the walk needs it (R256, R258). -/
def Btu.cacheRoot (x : Btu) (p c root : Nat) : Btu :=
  if (Tab.vals x.roots).any (fun r => r.1 == p && r.2.1 == c) then x
  else { x with roots := Tab.put x.roots x.rootPtr (p, c, root), rootPtr := (x.rootPtr + 1) % 16 }

/-- Walk slot of a stream: demand 2k, prefetch 2k + 1; fixed units 64-67 take slots 128-131 (R256). -/
def demandSlot (k : Nat) : Nat := if k < 64 then 2 * k else 64 + k

/-- The DPA of the entry a walk reads next. -/
def Walk.entryDpa (w : Walk) : Nat := w.table + vaIndex w.level w.va * 8

/-- Another walk of the context is reading the same leaf line (R260). -/
def Btu.joins (x : Btu) (w : Walk) : Bool :=
  w.level == 0 && (Tab.vals x.walks).any (fun v => v.part == w.part && v.context == w.context && v.level == 0 && !v.joined &&
    v.entryDpa / 64 == w.entryDpa / 64)

/-- A walk as its slot holds it at a level: one that joins another's read issues none (R260), and one whose table lies outside the carve-out
has nothing to read. -/
def State.placeWalk (s : State) (x : Btu) (w : Walk) : Walk :=
  { w with joined := x.joins w, req := none, ready := !s.inCarve w.part w.table || s.reserved w.table, data := [], poison := false }

/-- A walk whose next read has still to be issued. -/
def Walk.unread (w : Walk) : Bool := !w.joined && w.req.isNone && !w.ready

/-- Slots whose read is ready, in the order of R259: demand reads by slot, then prefetch reads by slot. -/
def Btu.readSlots (x : Btu) : List Nat :=
  let ks := sortBy id ((x.walks.filter (fun e => e.2.unread)).map (·.1))
  ks.filter (fun k => k % 2 == 0 || decide (128 ≤ k)) ++ ks.filter (fun k => !(k % 2 == 0 || decide (128 ≤ k)))

/-- A walk's next table read leaves (R258, R411): a demand read is a transaction of the master whose access missed, and waits there while its
counts say so (R414): none; a prefetch read is P3 and counted by nobody. -/
def State.issueWalk (s : State) (b slot : Nat) : Option State :=
  match Tab.find (s.btu b).walks slot with
  | none => none
  | some w =>
    let line := w.entryDpa / 64
    let sent (s : State) (p3 : Bool) (reg : Option (Nat × Bool)) : State :=
      let n := s.dram.nextReq
      let s1 := s.setBtu b { s.btu b with walks := Tab.put (s.btu b).walks slot { w with req := some n } }
      ({ s1 with dram := { s1.dram with nextReq := n + 1, txns := Tab.put s1.dram.txns n (.walk b slot) } }).sendMem { id := n, line := line, write := false, p3 := p3, who := .walk b slot, reg := reg }
    if w.prefetch then some (sent s true none)
    else
      match masterOrder w.engine with
      | none => some (sent s false none)
      | some o =>
        let k := regKey w.part o (s.groupOf (line * 64))
        match if s.portStopped o then none else s.regClass k with
        | none => none
        | some p3 => some (sent (s.regIssue k p3) p3 (some (k, p3)))

/-- A BTU issues at most one walk read in a CLK_BLK (R259): the first in its order that does not wait at its master. -/
def State.issueRead (s : State) (b : Nat) : State := ((s.btu b).readSlots.findSome? (s.issueWalk b)).getD s

/-- The CLK_BLK of one µs, more than there are walk slots: every walk read that may issue does. -/
def State.issueReads (s : State) : State :=
  s.xlt.btus.foldl (fun (s : State) e => e.2.readSlots.foldl (fun (s : State) _ => s.issueRead e.1) s) s

/-- The master's key of each transaction that waits at issue (R414, R419). -/
def State.waitingReads (s : State) : List Nat :=
  s.xlt.btus.flatMap (fun e => (Tab.vals e.2.walks).filterMap (fun w =>
    if !w.unread || w.prefetch then none
    else (masterOrder w.engine).map (fun o => regKey w.part o (s.groupOf w.entryDpa)))) ++ s.dram.backlog.map (·.1)

/-- Start a walk in a slot. -/
def State.startWalk (s : State) (b slot : Nat) (x : Btu) (st : Stream) (va : Nat) (prefetch : Bool) : State :=
  let f := s.walkFrom x st.part st.context va
  let w : Walk := { part := st.part, context := st.context, va := va, write := st.write, prefetch := prefetch, level := f.1, table := f.2, gen := 0, engine := st.engine, joined := false, req := none, ready := false }
  let x1 := if f.1 = 3 then x.cacheRoot st.part st.context f.2 else x
  s.setBtu b { x1 with walks := Tab.put x1.walks slot (s.placeWalk x w) }

/-- The block whose BTU an engine translates through (R251): a carrier its own, a collective engine its station's anchor block. Cells,
dispatch and combine units never translate. -/
def State.btuBlock (s : State) (e : Nat) : Option Nat :=
  if engClass e = 2 then some (engNum e / 4)
  else if engClass e = 5 then (s.engine? e).bind (fun x => (s.station? x.part x.station).bind (s.anchorPhys x.part))
  else none

/-- Partition and context of an engine of the block that translates and whose start runs (R251, R257). -/
def State.streamOwner (s : State) (b e : Nat) : Option (Nat × Nat) :=
  match s.engine? e with
  | none => none
  | some x =>
    match x.start with
    | none => none
    | some st =>
      if st.ended || s.btuBlock e != some b then none
      else some (x.part, match st.inputs with | i :: _ => i.2.context | [] => 0)

/-- The stream a carrier's or unit's program runs, as its block's BTU sees it (R257, R261): it is active with the pages to come that the
program gives it. Streams whose start has ended are gone. The programs of carriers are no part of this machine's spec, so the command
says which pages they are. -/
def State.withStream (s : State) (b k e : Nat) (write : Bool) (look : List Nat) : State :=
  let x := s.btu b
  let live := x.streams.filter (fun y => (s.streamOwner b y.2.engine).isSome)
  match s.streamOwner b e with
  | none => s.setBtu b { x with streams := live }
  | some (p, c) =>
    if decide (k < 64) && engClass e != 2 || decide (68 ≤ k) || (match Tab.find live k with | some y => y.engine != e | none => false) then s.setBtu b { x with streams := live }
    else s.setBtu b { x with streams := Tab.put live k { engine := e, part := p, context := c, look := look.map (· % 2 ^ 48), write := write } }

/-- TLB_MISS_WALK: a stream's next page misses, and its demand walk starts (R257, R258). -/
def execTlbMissWalk (block stream engine : Nat) (write : Bool) (look : List Nat) (s : State) : Outc :=
  .next (
    let s := s.withStream block stream engine write look
    let x := s.btu block
    match Tab.find x.streams stream with
    | none => s
    | some st =>
      match st.look with
      | [] => s
      | va :: _ =>
        if (x.lookup st.part st.context (va / 4096)).isSome || Tab.has x.walks (demandSlot stream) || s.engFrozen st.engine then s
        else s.startWalk block (demandSlot stream) x st va false)

/-- Prefetched entries not yet used (R261). -/
def Btu.unused (x : Btu) : Nat :=
  sumN (x.sets.map (fun e => ((Tab.vals e.2).filter (·.prefetched)).length))

/-- The first page of the look-ahead (128 pages at most) that is neither held nor in flight (R261): a walk brings the eight pages of its leaf
line (R260). -/
def Btu.prefetchPage (x : Btu) (st : Stream) : Option Nat :=
  (st.look.take 128).find? (fun va => (x.lookup st.part st.context (va / 4096)).isNone &&
    !(Tab.vals x.walks).any (fun w => w.part == st.part && w.context == st.context && w.va / 32768 == va / 32768))

/-- PREFETCH_WALK_START: a prefetch walk starts for the first such page, when the stream's prefetch slot is free and fewer
than 1,024 prefetched entries are unused (R261). -/
def execPrefetchWalkStart (block stream engine : Nat) (write : Bool) (look : List Nat) (s : State) : Outc :=
  .next (
    let s := s.withStream block stream engine write look
    let x := s.btu block
    match Tab.find x.streams stream with
    | none => s
    | some st =>
      if 64 ≤ stream || Tab.has x.walks (2 * stream + 1) || 1024 ≤ x.unused || s.engFrozen st.engine then s
      else
        match x.prefetchPage st with
        | none => s
        | some va => s.startWalk block (2 * stream + 1) x st va true)

/-- A stream passes every page at its head whose translation the TLB holds, marking prefetched entries used (R257, R261); a page it may
not use is its fault or violation, and ends it (R273). -/
def State.advance (s : State) (b k : Nat) : Nat → State
  | 0 => s
  | fuel + 1 =>
    let x := s.btu b
    match Tab.find x.streams k with
    | none => s
    | some st =>
      match st.look, s.part? st.part with
      | va :: l, some p =>
        (match x.lookup st.part st.context (va / 4096) with
         | none => s
         | some e =>
           match s.leaf st.part p e.dte va st.write with
           | .bad c => (s.setBtu b { x with streams := x.streams.filter (fun y => y.2.engine != st.engine) }).xlateFault st.engine st.part st.context va c
           | _ =>
             let set := Tab.all (Tab.getD x.sets (va / 4096 % 256) []) (fun _ y => if y = e then { y with prefetched := false } else y)
             State.advance (s.setBtu b { x with sets := Tab.put x.sets (va / 4096 % 256) set, streams := Tab.put x.streams k { st with look := l } }) b k fuel)
      | _, _ => s

/-- Every stream of a BTU advances as far as the TLB lets it. -/
def State.advanceAll (s : State) (b : Nat) : State :=
  (Tab.keys (s.btu b).streams).foldl (fun s k => s.advance b k (match Tab.find (s.btu b).streams k with | some st => st.look.length | none => 0)) s

/-- The eight DTEs of the leaf line a walk has read, with the pages they map. -/
def Walk.leafLine (w : Walk) : List (Nat × Nat) :=
  let first := w.va / 4096 - (w.entryDpa % 64) / 8
  (List.range 8).map (fun i => (first + i, ofBytes ((w.data.drop (8 * i)).take 8)))

/-- Fill the TLB from a leaf line (R260): every DTE that is VALID and carries no fault under R254; a prefetch walk skips
NOPREFETCH. -/
def Btu.fillLine (x : Btu) (w : Walk) : Btu :=
  w.leafLine.foldl (fun x e =>
    if tbit e.2 0 && !leafBad e.2 && !(w.prefetch && tbit e.2 6) && (x.lookup w.part w.context e.1).isNone then
      x.fill { part := w.part, context := w.context, vpage := e.1, dte := e.2, prefetched := w.prefetch }
    else x) x

/-- Joined walks whose page the TLB now holds are done; the others read for themselves (R260). -/
def Btu.dropJoined (x : Btu) : Btu :=
  { x with walks := Tab.all (Tab.keep x.walks (fun _ v => !(v.joined && (x.lookup v.part v.context (v.va / 4096)).isSome))) (fun _ v => { v with joined := false }) }

/-- What a walk's read finds (R252-R254, R273): the next table, the leaf, or a failure. -/
inductive WalkStep where
  | table (dte : Nat)
  | leaf
  | bad (c : XCode)
deriving DecidableEq, Repr

/-- The check of the entry a walk has read (R258, R273). -/
def State.walkCheck (s : State) (w : Walk) : WalkStep :=
  match s.part? w.part with
  | none => .bad .notValid
  | some p =>
    if !s.inCarve w.part w.table || s.reserved w.table then .bad .outOfCarveout
    else if w.poison then .bad .tablePoison
    else
      let dte := ofBytes ((w.data.drop (w.entryDpa % 64)).take 8)
      if w.level = 0 then
        (match s.leaf w.part p dte w.va w.write with
         | .bad c => .bad c
         | _ => .leaf)
      else if !tbit dte 0 then .bad .notValid
      else if tableBad dte then .bad .badDte
      else .table dte

/-- WALK_READ_RETURN: a walk's table line has arrived: the walk descends, fills the TLB, or meets a fault or violation (R258, R260, R273).
A leaf line's other entries fill the TLB even then, unless the walk is a prefetch: that fills nothing and reports nothing (R262). -/
def execWalkReadReturn (block slot : Nat) (s : State) : Outc :=
  .next (
    let x := s.btu block
    match Tab.find x.walks slot with
    | none => s
    | some w =>
      if w.joined || !w.ready then s
      else
        match s.walkCheck w with
        | .table dte =>
          let e : WalkEntry := { part := w.part, context := w.context, level := w.level, vtag := walkTag w.level w.va, dte := dte }
          let x1 := x.walkFill e
          s.setBtu block { x1 with walks := Tab.put x1.walks slot (s.placeWalk x { w with level := w.level - 1, table := dteFrame dte }) }
        | .leaf => (s.setBtu block (Btu.fillLine { x with walks := Tab.del x.walks slot } w).dropJoined).advanceAll block
        | .bad c =>
          let x1 := { x with walks := Tab.del x.walks slot }
          let x2 := if w.level = 0 && !w.prefetch && w.data.length == 64 && !w.poison then x1.fillLine w else x1
          let x3 := x2.dropJoined
          if w.prefetch then s.setBtu block x3
          else ((s.setBtu block { x3 with streams := x3.streams.filter (fun y => y.2.engine != w.engine) }).xlateFault w.engine w.part w.context w.va c).advanceAll block)

/-- A walk's read has reached its BTU: its line, or POISON; a walk begun again meanwhile drops it (R265, R275). -/
def State.walkData (s : State) (b slot n : Nat) (data : Option (List (BitVec 8))) : State :=
  match Tab.find (s.btu b).walks slot with
  | some w =>
    if w.req = some n then s.setBtu b { s.btu b with walks := Tab.put (s.btu b).walks slot { w with ready := true, data := data.getD [], poison := data.isNone } } else s
  | none => s

/-! ## Mirror syncs (R263-R265) -/

/-- The newest generation accepted for a context: of the last queued sync, else the current one (R264). -/
def State.newestGen (s : State) (p c : Nat) : Nat :=
  match (s.xlt.syncs.filter (fun y => y.part == p && y.context == c && y.ring.isSome)).getLast? with
  | some y => y.gen
  | none => match s.ctx? p c with | some k => k.tableGen | none => 0

/-- Generation g is newer than h, modulo 2^32 with a window of 2^31 (R264). -/
def genNewer (g h : Nat) : Bool :=
  let d := (g + 2 ^ 32 - h % 2 ^ 32) % 2 ^ 32
  decide (1 ≤ d) && decide (d < 2 ^ 31)

/-- Sixteen syncs of the partition are accepted and not answered (R264). -/
def State.syncsFull (s : State) (p : Nat) : Bool := decide (16 ≤ (s.xlt.syncs.filter (fun y => y.part == p && y.ring.isSome)).length)

/-- R263, R264: the refusals in the order of the table. -/
def mirrorSyncBody (r : Nat) (e : CmdEnv) (s : State) : CmdRes :=
  let c := fld r 0 11 0
  let all := bit r 1 4
  let gen := fldB r 4 4
  let base := fld r 8 47 0
  let pages := fldB r 16 4
  if rsvdSet r (maskOf [(0, 12, 0), (4, 31, 0), (8, 47, 0), (16, 31, 0)]) then refuse s .rsvdSet
  else if !genNewer gen (s.newestGen e.part c) then refuse s .staleGen
  else if base % 4096 != 0 || 2 ^ 48 < base + pages * 4096 || (all && (base != 0 || pages != 0)) || (!all && pages == 0) then
    refuse s .badRange
  else if !s.ctxLive e.part c then refuse s .badId
  else if s.syncsFull e.part then (s, some (.busy .syncQueueFull 0))
  else
    let y : Sync := { id := s.xlt.nextSync, part := e.part, context := c, all := all, gen := gen, base := base, pages := pages, ring := some e.ring, sent := false, waiting := [] }
    ({ s with xlt := { s.xlt with syncs := s.xlt.syncs ++ [y], nextSync := s.xlt.nextSync + 1 } }, none)

/-- MIRROR_SYNC. A full sync queue is the service's own answer and takes precedence over admission (R278). -/
def execMirrorSync (ring : Nat) (record : BitVec 256) (s : State) : Outc :=
  .next (runCmd s ring 0x0019 record.toNat (if (s.ring? ring).any (fun r => s.syncsFull r.part) then 0 else 3) (mirrorSyncBody record.toNat))

/-- Physical blocks bound to a partition, ascending. -/
def State.boundBlocks (s : State) (p : Nat) : List Nat :=
  match s.part? p with
  | some x => sortBy id (Tab.vals x.blockMap)
  | none => []

/-- MIRROR_SYNC_SEND: Innkeeper sends the invalidation of the partition's next sync to every bound block's BTU, one sync at a
time, as a class 3 item (R265 step 1, R276). -/
def execMirrorSyncSend (p : Nat) (s : State) : Outc :=
  .next (
    match s.xlt.syncs.find? (fun y => y.part == p) with
    | none => s
    | some y =>
      if y.sent || !s.innTurn 3 p 0 then s
      else
        let y1 := { y with sent := true, waiting := s.boundBlocks p }
        ({ s with xlt := { s.xlt with syncs := s.xlt.syncs.map (fun z => if z.id = y.id then y1 else z) } } : State).served 3 p)

/-- A VA lies in an invalidation's range. -/
def Sync.covers (y : Sync) (p c va : Nat) : Bool :=
  y.part == p && y.context == c && (y.all || (decide (y.base ≤ va) && decide (va < y.base + y.pages * 4096)))

/-- A walk-cache entry covers some VA of the range. -/
def Sync.coversTag (y : Sync) (e : WalkEntry) : Bool :=
  let sz := 2 ^ (12 + 9 * e.level)
  y.part == e.part && y.context == e.context &&
    (y.all || (decide (y.base < (e.vtag + 1) * sz) && decide (e.vtag * sz < y.base + y.pages * 4096)))

/-- BTU_INVALIDATE: a BTU receives an invalidation: matching entries are absent from now, the context's walks begin again, and
the scan of 256 CLK_BLK runs (R265 steps 2 and 3). -/
def execBtuInvalidate (block : Nat) (s : State) : Outc :=
  .next (
    let x := s.btu block
    match s.xlt.syncs.find? (fun y => y.sent && y.waiting.contains block && !x.scanning.any (fun z => z.1 == y.id)) with
    | none => s
    | some y =>
      let x1 := { x with sets := Tab.all x.sets (fun _ t => t.filter (fun e => !y.covers e.2.part e.2.context (e.2.vpage * 4096))), walkCache := x.walkCache.filter (fun e => !y.coversTag e.2), roots := if y.all then x.roots.filter (fun r => !(r.2.1 == y.part && r.2.2.1 == y.context)) else x.roots, scanning := x.scanning ++ [(y.id, s.dram.nextReq)] }
      let mine (w : Walk) : Bool := w.part == y.part && w.context == y.context
      let again (x : Btu) (e : Nat × Walk) : Btu :=
        let f := s.walkFrom x1 e.2.part e.2.context e.2.va
        { x with walks := Tab.put x.walks e.1 (s.placeWalk x { e.2 with level := f.1, table := f.2 }) }
      s.setBtu block ((x1.walks.filter (fun e => mine e.2)).foldl again { x1 with walks := x1.walks.filter (fun e => !mine e.2) }))

/-- Line accesses of the BTU's engines made before a transaction's number that have no completion status yet (R265 step 4). -/
def State.undrained (s : State) (b n : Nat) : Bool :=
  s.dram.txns.any (fun x => decide (x.1 < n) && (match x.2 with | .engine e => s.btuBlock e == some b | _ => false))

/-- BTU_INVALIDATE_ACK: the scan is done, and once every line access translated earlier has its completion status, the BTU acknowledges its
oldest invalidation (R265 steps 4 and 5). It waits for all of its engines' earlier accesses: DEDUCED (log entry 51). -/
def execBtuInvalidateAck (block : Nat) (s : State) : Outc :=
  .next (
    let x := s.btu block
    match x.scanning with
    | [] => s
    | i :: l =>
      if s.undrained block i.2 then s
      else
        let s1 := s.setBtu block { x with scanning := l }
        { s1 with xlt := { s1.xlt with syncs := s1.xlt.syncs.map (fun y => if y.id = i.1 then { y with waiting := y.waiting.filter (· != block) } else y) } })

/-- MIRROR_SYNCED: every BTU has acknowledged the partition's sync in hand: the context's generation is set, and MirrorSynced
is answered (R265). -/
def execMirrorSynced (p : Nat) (s : State) : Outc :=
  .next (
    match takeFirst (fun y => y.part == p) s.xlt.syncs with
    | none => s
    | some (y, l) =>
      match y.ring with
      | none => s
      | some q =>
        if !y.sent || !y.waiting.isEmpty then s
        else
          let s1 := { s with xlt := { s.xlt with syncs := l } }
          let s2 := match s1.ctx? p y.context with
            | some k => { s1 with host := { s1.host with contexts := Tab.put s1.host.contexts (ctxKey p y.context) { k with tableGen := y.gen } } }
            | none => s1
          s2.answerCmd q (.ok y.gen))

/-- A partition reset empties its entries and discards its walks in every BTU (R266). -/
def Btu.dropPart (x : Btu) (p : Nat) : Btu :=
  { x with sets := Tab.all x.sets (fun _ t => t.filter (fun e => e.2.part != p)), walkCache := x.walkCache.filter (fun e => e.2.part != p), roots := x.roots.filter (fun r => r.2.1 != p), walks := x.walks.filter (fun w => w.2.part != p) }

def State.dropXlate (s : State) (p : Nat) : State :=
  { s with xlt := { s.xlt with btus := Tab.all s.xlt.btus (fun _ b => b.dropPart p) } }

/-- A prefetch walk begins for each stream of a BTU that has come there by a move, for its first page neither held nor in flight (R275). -/
def State.restartPrefetch (s : State) (b : Nat) : State :=
  (s.btu b).streams.foldl (fun (s : State) e =>
    let x := s.btu b
    if 64 ≤ e.1 || Tab.has x.walks (2 * e.1 + 1) || 1024 ≤ x.unused then s
    else match x.prefetchPage e.2 with | some va => s.startWalk b (2 * e.1 + 1) x e.2 va true | none => s) s

/-- Streams go from one block's BTU to another's, which starts cold (R275): those of the engines named, with their new names. -/
def State.moveStreams (s : State) (src dst : Nat) (f : Nat → Option Nat) : State :=
  let x := s.btu src
  let mine := x.streams.filterMap (fun e => (f e.2.engine).map (fun n => (e.1, { e.2 with engine := n })))
  let s1 := s.setBtu src { x with streams := x.streams.filter (fun e => (f e.2.engine).isNone), walks := x.walks.filter (fun e => (f e.2.engine).isNone) }
  let place (t : Tab Stream) (k : Nat) : Nat := if k < 64 then k else (([64, 65, 66, 67] : List Nat).find? (fun j => !Tab.has t j)).getD k
  (s1.setBtu dst { s1.btu dst with streams := mine.foldl (fun (t : Tab Stream) e => Tab.put t (place t e.1) e.2) (s1.btu dst).streams }).restartPrefetch dst

end Sys2Proof.Machine
end

