-- ==== Sys2Proof/Machine/FixedUnits.lean ====
section
/-! DEFINITION. Sys2Proof/Machine/FixedUnits.lean: dispatch units, combine units and gathers (07_conditional_computation
R188-R213). A unit's reads and writes of slices claim their banks; its step takes the data of its reads at once (log entry 21). -/

namespace Sys2Proof.Machine

/-! ## Parameters and places -/

/-- The 64-byte parameter record of a fixed-unit station (R192, R203, R210), as loaded at its bind. -/
def Engine.rec64 (x : Engine) : Nat := Memory.readN x.params 0 64

/-- A place named by a 32-bit address field: [24:19] named block, [18:0] offset in 64-byte units. -/
structure Place where
  blk : Nat
  off : Nat
deriving DecidableEq, Repr

def placeAt (r byte : Nat) : Place := { blk := fld r byte 24 19, off := fld r byte 18 0 * 64 }

/-- `bytes` bytes at a place lie below the ring area, in a block bound to the partition (R192, R210). -/
def Place.fits (x : Place) (s : State) (p bytes : Nat) : Bool := decide (x.off + bytes ≤ ringAreaBase) && (s.phys p x.blk).isSome

/-- The address field's reserved bits are zero. -/
def addrRsvd (r byte : Nat) : Bool := fld r byte 31 25 != 0

def dispatchMask : Nat :=
  maskOf [(0, 7, 0), (1, 1, 0), (2, 12, 0), (4, 12, 0), (6, 12, 0), (8, 24, 0), (12, 24, 0), (16, 31, 0), (20, 7, 0), (21, 0, 0),
    (22, 15, 0), (24, 15, 0), (26, 12, 0)]

/-- The checks of a dispatch parameter record at bind (R190, R192), by byte. -/
def dispatchBad (s : State) (p r : Nat) : Option Ans :=
  let ne := fldB r 2 2
  let nt := fldB r 6 2
  let ns := fldB r 20 1
  if rsvdSet r dispatchMask then some (.refused .rsvdSet 0)
  else if fld r 0 3 0 == 0 || 8 < fld r 0 3 0 then some (badParam 0 0)
  else if 8 < fld r 0 7 4 then some (badParam 0 4)
  else if fld r 1 1 0 == 3 then some (badParam 1 0)
  else if ne == 0 || 4096 < ne then some (badParam 2 0)
  else if fldB r 4 2 == 0 || 4096 < fldB r 4 2 then some (badParam 4 0)
  else if nt == 0 || 4096 < nt then some (badParam 6 0)
  else if !(placeAt r 8).fits s p (nt * ne * 8) then some (badParam 8 0)
  else if !(placeAt r 12).fits s p (ns * fldB r 16 4) then some (badParam 12 0)
  else if fldB r 16 4 % 64 != 0 then some (badParam 16 0)
  else if ns == 0 || 64 < ns then some (badParam 20 0)
  else if bit r 21 0 && !s.fenceOf p (fldB r 22 2) then some (badParam 22 0)
  else none

def combineMask : Nat :=
  maskOf [(0, 1, 0), (1, 4, 0), (2, 12, 0), (4, 15, 0), (6, 15, 0), (8, 24, 0), (12, 31, 0), (16, 7, 0)]

/-- The checks of a combine parameter record at bind (R190, R203). -/
def combineBad (s : State) (p r : Nat) : Option Ans :=
  let f := fld r 1 4 0
  let cols := fldB r 2 2
  let pitch := fldB r 4 2
  let ns := fldB r 16 1
  if rsvdSet r combineMask then some (.refused .rsvdSet 0)
  else if f != 0x09 && f != 0x07 then some (badParam 1 0)
  else if cols == 0 || 4096 < cols then some (badParam 2 0)
  else if pitch % 16 != 0 || pitch < packedRow f cols then some (badParam 4 0)
  else if bit r 0 1 && !s.fenceOf p (fldB r 6 2) then some (badParam 6 0)
  else if !(placeAt r 8).fits s p (ns * fldB r 12 4) then some (badParam 8 0)
  else if fldB r 12 4 % 64 != 0 then some (badParam 12 0)
  else if ns == 0 || 64 < ns then some (badParam 16 0)
  else none

def gatherMask : Nat :=
  maskOf [(0, 47, 0), (8, 31, 0), (12, 31, 0), (16, 31, 0), (20, 24, 0), (24, 31, 0), (28, 7, 0), (29, 4, 0), (30, 12, 0), (32, 15, 0),
    (34, 12, 0), (36, 15, 0), (38, 0, 0), (40, 15, 0)]

/-- The checks of a gather parameter record at bind (R190, R210). -/
def gatherBad (s : State) (p r : Nat) : Option Ans :=
  let ib := fldB r 8 4
  let f := fld r 29 4 0
  let cols := fldB r 30 2
  let pitch := fldB r 32 2
  let ipt := fldB r 34 2
  let ns := fldB r 28 1
  if rsvdSet r gatherMask then some (.refused .rsvdSet 0)
  else if fldB r 0 6 % 64 != 0 then some (badParam 0 0)
  else if ib < 64 || 1048576 < ib || ib % 64 != 0 || pitch == 0 || ib % pitch != 0 then some (badParam 8 0)
  else if fldB r 12 4 % 64 != 0 then some (badParam 12 0)
  else if fldB r 16 4 == 0 then some (badParam 16 0)
  else if !(placeAt r 20).fits s p (ns * fldB r 24 4) then some (badParam 20 0)
  else if fldB r 24 4 % 64 != 0 then some (badParam 24 0)
  else if ns == 0 || 64 < ns then some (badParam 28 0)
  else if 0x0D < f then some (badParam 29 0)
  else if cols == 0 || 4096 < cols || cols % colsMultiple f != 0 then some (badParam 30 0)
  else if pitch % 16 != 0 || pitch < packedRow f cols then some (badParam 32 0)
  else if ipt == 0 || 4096 < ipt || 4096 < ipt * (ib / pitch) || 1048576 < ipt * ib || fldB r 24 4 < ipt * ib then some (badParam 34 0)
  else if bit r 38 0 && !s.fenceOf p (fldB r 40 2) then some (badParam 40 0)
  else none

/-- F0 + S + 1 − N_SLOTS is reached, or the slots are not guarded (R201). -/
def State.slotFree (s : State) (e : Nat) (en : Bool) (fence count nSlots : Nat) : Bool :=
  !en || decide (Tab.getD s.unit.f0 e 0 + count + 1 ≤ fenceValue (s.fenceWord fence) + nSlots)

/-- Physical key of byte `off` of a named block. -/
def State.keyOf (s : State) (p blk off : Nat) : Option Nat := (s.phys p blk).map (fun b => sliceKey b off)

/-- Slice bytes at a key, and written at a key. -/
def State.keyRead (s : State) (k n : Nat) : List (BitVec 8) := Memory.readL s.fab.slices k n
def State.keyWrite (s : State) (k : Nat) (l : List (BitVec 8)) : State := { s with fab := { s.fab with slices := Memory.writeL s.fab.slices k l } }

/-- Element (row, col) of a tile, as its code. -/
def State.tileElem (s : State) (k : Nat) (w : Waybill) (row col : Nat) : Nat :=
  let b := elemBits w.format
  ofBytes (s.keyRead (k + row * w.rowPitch + col * b / 8) (cdiv b 8))

/-- A start of a fixed unit that its station has a definition for. -/
def State.unitStart (s : State) (e : Nat) : Option (Engine × Start × Station) :=
  match s.engine? e with
  | none => none
  | some x =>
    match x.start, s.station? x.part x.station with
    | some st, some t => if s.engFrozen e || s.hung e || s.partFrozen x.part then none else some (x, st, t)
    | _, _ => none

/-- The engine's start is over with nothing committed. -/
def State.dropStart (s : State) (e : Nat) (x : Engine) : State :=
  let s1 := s.setEngine e { x with start := none }
  match s1.station? x.part x.station with
  | some t => (s1.setStation x.part x.station { t with starts := t.starts.filter (· != e), lastCommit := s.now }).leaveIfAsked x.part x.station e
  | none => s1

/-- A rejected start (R209): nothing commits, and each of its heads goes to REJECT_Q (R74). -/
def State.rejectStart (s : State) (e : Nat) (x : Engine) (st : Start) (t : Station) (c : Code) : State :=
  st.inputs.foldl (fun (s : State) (i : Nat × Waybill) =>
    s.reject x.part x.station t i.2.queue i.2 c (rankBlock ((s.anchorPhys x.part t).getD 0) 0)) (s.dropStart e x)

/-! ## Dispatch: the expert table, ranking and assignment (R193-R196) -/

/-- An expert table entry (R193). -/
structure Expert where
  valid : Bool
  pack : Bool
  slot : Nat
  capacity : Nat
  tag : Nat
  queue : Nat
deriving DecidableEq, Repr

def expertOf (w : Nat) : Expert :=
  { valid := tbit w 63, pack := tbit w 61, slot := w / 2 ^ 59 % 4, capacity := w / 2 ^ 36 % 2 ^ 13, tag := w / 2 ^ 20 % 65536, queue := w % 2 ^ 20 }

/-- RSVD bits of an entry. -/
def expertRsvd (w : Nat) : Bool := tbit w 62 || w / 2 ^ 49 % 2 ^ 10 != 0

/-- An entry that is faulty for itself, whatever its VALID: RSVD set, or its QUEUE is not a tile queue of the partition (R193). -/
def expertFaulty (s : State) (p w : Nat) : Bool := expertRsvd w || !s.tileQ p (w % 2 ^ 20)

/-- The table with its faulty entries disabled, and the first of them: two members of a pack on one SLOT are both faulty; members of a
pack are VALID entries (DESIGN CHOICE, log entry 48). -/
def experts (s : State) (p : Nat) (ws : List Nat) : List Expert × Option Nat :=
  let es := ws.map (fun w => if expertFaulty s p w then { expertOf w with valid := false } else expertOf w)
  let clash (i : Nat) (e : Expert) : Bool :=
    e.valid && e.pack && (List.zip (List.range es.length) es).any (fun (y : Nat × Expert) => y.1 != i && y.2.valid && y.2.pack && y.2.queue == e.queue && y.2.slot == e.slot)
  let es2 := (List.zip (List.range es.length) es).map (fun (y : Nat × Expert) => if clash y.1 y.2 then { y.2 with valid := false } else y.2)
  let bad := (List.zip (List.range ws.length) (List.zip ws es2)).find? (fun (y : Nat × Nat × Expert) => expertFaulty s p y.2.1 || (tbit y.2.1 63 && !y.2.2.valid))
  (es2, bad.map (·.1))

/-- Insertion in rank order: higher score first, equal scores by lower expert number (R194). Experts are offered ascending. -/
def insertRank (x : Num × Nat) : List (Num × Nat) → List (Num × Nat)
  | [] => [x]
  | y :: l => if (match y.1.cmp x.1 with | some c => decide (c < 0) | none => false) then x :: y :: l else y :: insertRank x l

/-- The experts of a token in rank order, with their scores (R194). -/
def rankExperts (es : List Expert) (score : Nat → Num) : List (Num × Nat) :=
  (List.zip (List.range es.length) es).foldl (fun (acc : List (Num × Nat)) (y : Nat × Expert) =>
    if y.2.valid && !(score y.1).isNan then insertRank (score y.1, y.1) acc else acc) []

/-- The effective capacity of an expert (R194). -/
def Expert.effective (e : Expert) (pitch : Nat) : Nat :=
  min (min e.capacity (if e.pack then 16 else 4096)) (if pitch = 0 then 4096 else 1048576 / pitch)

/-- A pair: its token, the choice's position, the expert it went to and its rank, and whether it was rerouted. -/
structure Pair where
  token : Nat
  pos : Nat
  expert : Nat
  rank : Nat
  rerouted : Bool
deriving DecidableEq, Repr

/-- Tokens an expert holds. -/
def loadOf' (ps : List Pair) (e : Nat) : Nat := (ps.filter (fun x => x.expert == e)).length

/-- Rounds 1 to TOPK (R195): assigned pairs, and overflowed ones in order. `cands` are (token, position, expert). -/
def assignRounds (room : Nat → Nat) : List (Nat × Nat × Nat) → List Pair → List (Nat × Nat) → List Pair × List (Nat × Nat)
  | [], ps, ov => (ps, ov)
  | (t, j, e) :: l, ps, ov =>
    if loadOf' ps e < room e then assignRounds room l (ps ++ [{ token := t, pos := j, expert := e, rank := j, rerouted := false }]) ov
    else assignRounds room l ps (ov ++ [(t, j)])

/-- The overflow round (R195). `reserves t` are the token's reserves with their ranks. -/
def assignOverflow (room : Nat → Nat) (reserves : Nat → List (Nat × Nat)) : List (Nat × Nat) → List Pair → List Pair
  | [], ps => ps
  | (t, j) :: l, ps =>
    match (reserves t).find? (fun (x : Nat × Nat) => !ps.any (fun q => q.token == t && q.expert == x.2) && decide (loadOf' ps x.2 < room x.2)) with
    | some (k, e) => assignOverflow room reserves l (ps ++ [{ token := t, pos := j, expert := e, rank := k, rerouted := true }])
    | none => assignOverflow room reserves l ps

/-- FP32 division, one rounding. -/
def fpDiv (a b : Nat) : Nat :=
  match fp32.decode a, fp32.decode b with
  | .nan, _ => fp32.nan
  | _, .nan => fp32.nan
  | .inf _, .inf _ => fp32.nan
  | .inf x, .fin y _ _ => fp32.infCode (x != y)
  | .fin x _ _, .inf y => fp32.signed (x != y) 0
  | .fin x m e, .fin y k g =>
    if k = 0 then (if m = 0 then fp32.nan else fp32.infCode (x != y)) else fp32.code (ratio (x != y) m k (e - g))

/-- log2 e as the FP32 constant that multiplies s − m (R196). -/
def log2eCode : Nat := 0x3FB8AA3B

/-- The gate weights of a token's assigned pairs, given their FP32 scores in rank order (R196). -/
def gateWeights (gate : Nat) (ss : List Nat) : List Nat :=
  match gate with
  | 0 => ss
  | 1 =>
    let sum := ss.tail.foldl (fun a x => (fp32.add a x).1) (ss.headD 0)
    ss.map (fun x => fpDiv x sum)
  | _ =>
    let m := ss.foldl (fun a x => fp32.code ((fp32.decode a).max (fp32.decode x))) (ss.headD 0)
    let ex := ss.map (fun x => (sfu32 0 ((fp32.mul (fp32.sub x m).1 log2eCode).1)).1)
    let sum := ex.tail.foldl (fun a x => (fp32.add a x).1) (ex.headD 0)
    ex.map (fun x => fpDiv x sum)

/-! ## Deliveries, the route map and the stage slot (R197-R200) -/

/-- The expert that gives its number to a delivery: the lowest member of its pack, or the expert itself. -/
def leadOf (es : List Expert) (i : Nat) : Nat :=
  match es[i]? with
  | some e => if e.pack then ((List.range es.length).find? (fun j => match es[j]? with | some y => y.valid && y.pack && y.queue == e.queue | none => false)).getD i else i
  | none => i

/-- Tokens of an expert in token row order. -/
def tokensOf (ps : List Pair) (e : Nat) : List Nat := sortBy (fun t => t) ((ps.filter (fun x => x.expert == e)).map (·.token))

/-- The delivery led by an expert (R197). -/
def deliveryOf (es : List Expert) (ps : List Pair) (lead : Nat) : Delivery :=
  let e := es.getD lead { valid := false, pack := false, slot := 0, capacity := 0, tag := 0, queue := 0 }
  if e.pack then
    let members := (List.range es.length).filter (fun j => leadOf es j == lead && (match es[j]? with | some y => y.valid && y.pack && y.queue == e.queue | none => false))
    let slotTokens (k : Nat) : List Nat := members.flatMap (fun j => match es[j]? with | some y => if y.slot == k then tokensOf ps j else [] | none => [])
    let rows := (List.range 4).flatMap (fun k => (List.range 16).map (fun i => (slotTokens k)[i]?))
    { queue := e.queue, tag := e.tag, lowest := lead, slots := sumN ((List.range 4).map (fun k => if (slotTokens k).isEmpty then 0 else 2 ^ k)), rows := rows }
  else { queue := e.queue, tag := e.tag, lowest := lead, slots := 0, rows := (tokensOf ps lead).map some }

/-- The row of a token of an expert in its delivery. -/
def rowIn (es : List Expert) (ps : List Pair) (q : Pair) : Nat :=
  let i := ((tokensOf ps q.expert).findIdx? (· == q.token)).getD 0
  match es[q.expert]? with
  | some e => if e.pack then 16 * e.slot + i else i
  | none => i

/-- Selection, assignment and gate weights of a start (R194-R199): its plan. `score t e` is an FP32 or BF16 score as a value. -/
def dispatchPlan (r : Nat) (es : List Expert) (tokens pitch table : Nat) (score : Nat → Nat → Num) : DispPlan :=
  let k := fld r 0 3 0
  let depth := fld r 0 7 4
  let ranks := (List.range tokens).map (fun t => rankExperts es (score t))
  let choice (t j : Nat) : Option Nat := ((ranks.getD t [])[j]?).map (·.2)
  let room (e : Nat) : Nat := match es[e]? with | some x => x.effective pitch | none => 0
  let cands := (List.range k).flatMap (fun j => (List.range tokens).filterMap (fun t => (choice t j).map (fun e => (t, j, e))))
  let a := assignRounds room cands [] []
  let ps := assignOverflow room (fun t => (List.range depth).filterMap (fun i => (choice t (k + i)).map (fun e => (k + i, e)))) a.2 a.1
  let leads := sortBy (fun i => i) (dedupN (ps.map (fun q => leadOf es q.expert)))
  let word (t j : Nat) : List Nat :=
    match ps.find? (fun q => q.token == t && q.pos == j) with
    | some q =>
      let mine := sortBy (fun (x : Pair) => x.rank) (ps.filter (fun x => x.token == t))
      let ws := gateWeights (fld r 1 1 0) (mine.map (fun x => fp32.code (score t x.expert)))
      let w := ws.getD ((mine.findIdx? (· == q)).getD 0) 0
      [2 ^ 31 + (if q.rerouted then 2 ^ 29 else 0) + ((leads.findIdx? (· == leadOf es q.expert)).getD 0) * 2 ^ 12 + rowIn es ps q, w]
    | none => if (choice t j).isSome then [2 ^ 30, 0] else [0, 0]
  { table := table, map := (List.range tokens).flatMap (fun t => (List.range k).flatMap (fun j => word t j)), dels := leads.map (deliveryOf es ps), dropped := decide (ps.length < cands.length) }

/-- Pitch of the route map (R199). -/
def mapPitch (k : Nat) : Nat := roundUp (8 * k) 16

/-- Offsets of each delivery's element rows and scales in the stage slot, and the slot's bytes in all (R198). -/
def stageLayout (pitch cols : Nat) (scales : Bool) : (at' : Nat) → List Delivery → List (Nat × Nat) × Nat
  | a, [] => ([], a)
  | a, d :: l =>
    let e := roundUp a 64
    let sc := roundUp (e + d.rows.length * pitch) 64
    let n := if scales then sc + d.rows.length * roundUp (cdiv cols 32) 16 else e + d.rows.length * pitch
    let x := stageLayout pitch cols scales n l
    ((e, sc) :: x.1, x.2)

/-- The layout of a plan for the activation tile `w`. -/
def DispPlan.layout (x : DispPlan) (r : Nat) (w : Waybill) : List (Nat × Nat) × Nat :=
  stageLayout w.rowPitch w.cols w.scales (w.rows * mapPitch (fld r 0 3 0)) x.dels

/-- What the stage slot at a key receives: the route map, then each delivery's rows and scales (R197-R199); bytes between a packed row
and its pitch are left as they are (R40). -/
def State.stageBytes' (s : State) (x : DispPlan) (r : Nat) (w : Waybill) (slot src scl : Nat) : List (Nat × BitVec 8) :=
  let k := fld r 0 3 0
  let map := (List.range w.rows).flatMap (fun t => keyed (slot + t * mapPitch k) (((x.map.drop (t * 2 * k)).take (2 * k)).flatMap (bytesOf 4)))
  let sp := roundUp (cdiv w.cols 32) 16
  let copy (src pitch n : Nat) (t : Option Nat) : List (BitVec 8) := match t with | some i => s.keyRead (src + i * pitch) n | none => List.replicate n 0
  map ++ (List.zip (x.layout r w).1 x.dels).flatMap (fun (y : (Nat × Nat) × Delivery) =>
    let rows := List.zip (List.range y.2.rows.length) y.2.rows
    rows.flatMap (fun (z : Nat × Option Nat) => keyed (slot + y.1.1 + z.1 * w.rowPitch) (copy src w.rowPitch (packedRow w.format w.cols) z.2)) ++
    (if w.scales then rows.flatMap (fun (z : Nat × Option Nat) => keyed (slot + y.1.2 + z.1 * sp) (copy scl sp (cdiv w.cols 32) z.2)) else []))

/-- The lines of the activation tile that the copy reads: those of every assigned row, elements and scales (R202). -/
def DispPlan.copyLines (x : DispPlan) (w : Waybill) (src scl : Nat) : List Nat :=
  x.dels.flatMap (fun d => (d.rows.filterMap (fun t => t)).flatMap (fun t =>
    linesOf (src + t * w.rowPitch) (packedRow w.format w.cols) ++
    (if w.scales then linesOf (scl + t * roundUp (cdiv w.cols 32) 16) (cdiv w.cols 32) else [])))

/-- The waybills a dispatch commit emits (R200): the route map by its route tag, the deliveries to their queues. -/
def dispatchEmits (x : DispPlan) (r count : Nat) (w : Waybill) : Waybill × List (Nat × Waybill) :=
  let st := placeAt r 12
  let batch := count % 65536
  let base := st.off / 64 + batch % fldB r 20 1 * (fldB r 16 4 / 64)
  let en := bit r 21 0
  let common : Waybill := { kind := 0, context := w.context, requestId := w.requestId, originCol := w.originCol, originRow := w.originRow }
  let map : Waybill := { common with dropped := x.dropped, last := w.last, routeTag := fldB r 24 2, tileBlock := st.blk, tileOff := base, format := 0x0B, cols := 2 * fld r 0 3 0, rows := w.rows, rowPitch := mapPitch (fld r 0 3 0), fenceId := if en then fldB r 22 2 else 0, fenceOp := if en then 1 else 0, fenceDelta := if en then 1 else 0, arg := x.dels.length * 2 ^ 16 + batch }
  let dels := (List.zip (List.range x.dels.length) (List.zip (x.layout r w).1 x.dels)).map (fun (y : Nat × (Nat × Nat) × Delivery) =>
    let d := y.2.2
    let n := d.rows.length
    (d.queue, ({ common with heavy := decide (fldB r 26 2 ≠ 0) && decide (fldB r 26 2 ≤ n), routeTag := d.tag, tileBlock := st.blk, tileOff := base + y.2.1.1 / 64, format := w.format, cols := w.cols, rows := n, rowPitch := w.rowPitch, scales := w.scales, scaleBlock := if w.scales then st.blk else 0, scaleOff := if w.scales then base + y.2.1.2 / 64 else 0, arg := x.table * 2 ^ 44 + batch * 2 ^ 28 + d.slots * 2 ^ 24 + d.lowest * 2 ^ 12 + y.1 } : Waybill)))
  (map, dels)

/-- The reject code of a dispatch start's inputs (R209), lowest first. -/
def dispatchReject (r : Nat) (a b : Waybill) : Option Code :=
  if b.kind != 0 || (b.format != 0x09 && b.format != 0x07) || b.cols != fldB r 2 2 || b.rows != a.rows || fldB r 4 2 < a.rows then some .badScores
  else if a.kind != 0 || a.sparsity != 0 then some .badInput
  else if fldB r 6 2 ≤ b.arg % 4096 then some .badTable
  else none

/-- The waybills of a fixed unit's commit that are well formed: a malformed one is not enqueued, and the rest proceeds (R76). -/
def State.wellFormedEmits (s : State) (p : Nat) (l : List Waybill) : List Waybill := l.filter (fun w => (w.malformed s p).isNone)

/-- The start of a revoked context ends: its accesses issue no more, and what it would emit would be consumed at its next dispatch (R77,
R329; DEDUCED, log entry 48: its commit emits nothing). -/
def State.endRevoked (s : State) (e : Nat) (x : Engine) (st : Start) : State :=
  s.setEngine e { x with start := some { st with emits := [], direct := [], ended := true } }

/-- The copy into the stage slot, once SLOT_FENCE lets it be written: the start's program is then at its end (R198, R201). -/
def State.dispatchWrite (s : State) (e : Nat) (x : Engine) (st : Start) (r : Nat) (d : DispRun) (pl : DispPlan) : State :=
  let w := st.wb
  if !s.ctxLive x.part w.context then s.endRevoked e x st
  else if !s.slotFree e (bit r 21 0) (fldB r 22 2) d.count (fldB r 20 1) then s
  else
    match s.keyOf x.part (placeAt r 12).blk (placeAt r 12).off, s.keyOf x.part w.tileBlock (w.tileOff * 64) with
    | some slot, some src =>
      let scl := if w.scales then s.keyOf x.part w.scaleBlock (w.scaleOff * 64) else some 0
      match scl with
      | none => s.freezeEngine e violUnbound (sliceKey w.scaleBlock (w.scaleOff * 64))
      | some sk =>
        let s1 := (s.readLines (.unit e) x.part (pl.copyLines w src sk)).writeBytes (.unit e) x.part (s.stageBytes' pl r w (slot + d.count % 65536 % fldB r 20 1 * fldB r 16 4) src sk)
        let em := dispatchEmits pl r d.count w
        s1.setEngine e { x with start := some { st with emits := s.wellFormedEmits x.part [em.1], direct := em.2.filter (fun y => (y.2.malformed s x.part).isNone), ended := true } }
    | _, _ => s.freezeEngine e violUnbound (sliceKey (placeAt r 12).blk (placeAt r 12).off)

def State.setDisp' (s : State) (e : Nat) (d : DispRun) : State := { s with unit := { s.unit with disp := Tab.put s.unit.disp e d } }

/-- DISPATCH_START: a dispatch unit reads its table and scores, selects, assigns, and copies into the stage slot unless
SLOT_FENCE makes it wait (R191-R202). -/
def execDispatchStart (unit : Nat) (s : State) : Outc :=
  .next (
    let e := 0x3000 + unit
    match s.unitStart e, Tab.find s.unit.disp e with
    | some (x, st, t), some d =>
      if st.ended || d.plan.isSome then s
      else if !s.ctxLive x.part st.wb.context then s.endRevoked e x st
      else
        let r := x.rec64
        let a := st.wb
        let b := match st.inputs with | [_, j] => j.2 | _ => {}
        match dispatchReject r a b with
        | some c => s.rejectStart e x st t c
        | none =>
          let ne := fldB r 2 2
          let table := b.arg % 4096
          match s.keyOf x.part (placeAt r 8).blk ((placeAt r 8).off + table * ne * 8), s.keyOf x.part b.tileBlock (b.tileOff * 64) with
          | some tk, some sk =>
            let ws := (List.range ne).map (fun i => ofBytes (s.keyRead (tk + 8 * i) 8))
            let ex := experts s x.part ws
            let f := if b.format = 0x09 then fp32 else bf16
            let pl := dispatchPlan r ex.1 a.rows a.rowPitch table (fun i j => f.decode (s.tileElem sk b i j))
            let s0 := (s.readLines (.unit e) x.part (linesOf tk (8 * ne))).readLines (.unit e) x.part ((List.range b.rows).flatMap (fun i => linesOf (sk + i * b.rowPitch) (packedRow b.format b.cols)))
            let s1 := match ex.2 with
              | some i => s0.event 0x0007 x.part a.context true 0 0xFFFF (plcB 0 2 table ||| plcB 2 2 i)
              | none => s0
            if fldB r 16 4 < (pl.layout r a).2 then s1.rejectStart e x st t .slotOverflow
            else
              let d1 := { d with plan := some pl }
              (s1.setDisp' e d1).dispatchWrite e x st r d1 pl
          | _, _ => s.freezeEngine e violUnbound (sliceKey b.tileBlock (b.tileOff * 64))
    | _, _ => s)

/-- DISPATCH_SLOT_FENCE_POLL: the unit reads SLOT_FENCE again, and writes its stage slot once the condition holds (R201). -/
def execDispatchSlotFencePoll (unit : Nat) (s : State) : Outc :=
  .next (
    let e := 0x3000 + unit
    match s.unitStart e, Tab.find s.unit.disp e with
    | some (x, st, _), some d =>
      (match d.plan with
       | some pl => if st.ended then s else s.dispatchWrite e x st x.rec64 d pl
       | none => s)
    | _, _ => s)

/-- A unit whose start has ended, with every write's status returned, commits, or its commit is held (R61, R67, R73, R202). -/
def State.unitCommit (s : State) (e : Nat) : State :=
  match s.engine? e with
  | none => s
  | some x =>
    match x.start with
    | none => s
    | some st => if st.ended && !st.heldFull && !st.heldOrder && (st.faulted || !s.storesPending e) then s.tryCommit e else s

/-- DISPATCH_COMMIT: the route map and the deliveries leave together, and both inputs' fence actions are performed (R200). -/
def execDispatchCommit (unit : Nat) (s : State) : Outc := .next (s.unitCommit (0x3000 + unit))

/-! ## Combine (R203-R208) -/

def freshComb : CombUnit := { taken := [], batches := [], held := [], closed := [], early := [], opened := 0 }

def State.comb (s : State) (e : Nat) : CombUnit := Tab.getD s.unit.comb e freshComb
def State.setComb (s : State) (e : Nat) (c : CombUnit) : State := { s with unit := { s.unit with comb := Tab.put s.unit.comb e c } }

/-- BATCH and DELIVERY of a result's ARG; BATCH and N_DELIVERIES of a route map's (R200). -/
def resBatch (w : Waybill) : Nat := w.arg / 2 ^ 28 % 65536
def resDelivery (w : Waybill) : Nat := w.arg % 4096
def mapBatch (w : Waybill) : Nat := w.arg % 65536
def mapDeliveries (w : Waybill) : Nat := w.arg / 2 ^ 16 % 2 ^ 13

/-- T × TOPK of a route map. -/
def mapEntries (w : Waybill) : Nat := w.rows * (w.cols / 2)

/-- The unit has a free batch and room for the route map's entries (R204). A map of more than 8,192 entries is taken too, to be rejected
with BAD_MAP (R209; DEDUCED, log entry 48). -/
def CombUnit.takesMap (c : CombUnit) (w : Waybill) : Bool :=
  let waiting := c.taken.filter (fun x => x.1 == 0)
  decide (c.batches.length + waiting.length < 16) &&
    decide (8192 < mapEntries w ∨ sumN (c.batches.map (·.size)) + sumN (waiting.map (fun x => mapEntries x.2)) + mapEntries w ≤ 8192)

/-- The result's batch is open, or the held-result store has room (R204). -/
def CombUnit.takesResult (c : CombUnit) (w : Waybill) : Bool :=
  c.batches.any (fun b => b.batch == resBatch w) ||
    decide (c.held.length + (c.taken.filter (fun x => x.1 == 1 && !c.batches.any (fun b => b.batch == resBatch x.2))).length < 64)

/-- The station and partition a combine unit is bound to. -/
def State.combStation (s : State) (e : Nat) : Option (Engine × Station) :=
  match s.engine? e with
  | none => none
  | some x =>
    match s.station? x.part x.station with
    | some t => if s.engFrozen e || s.hung e || s.partFrozen x.part then none else some (x, t)
    | none => none

/-- A route map is wrong (R209). -/
def badMap (r : Nat) (w : Waybill) : Bool :=
  w.kind != 0 || w.format != 0x0B || w.cols % 2 != 0 || w.cols < 2 || 16 < w.cols || 8192 < mapEntries w || fldB r 12 4 < w.rows * fldB r 4 2

/-- The VALID entries of a route map at a key (R199). -/
def State.readMap (s : State) (k : Nat) (w : Waybill) : List MapEntry :=
  (List.range w.rows).flatMap (fun t => (List.range (w.cols / 2)).filterMap (fun j =>
    let a := ofBytes (s.keyRead (k + t * w.rowPitch + 8 * j) 4)
    let g := ofBytes (s.keyRead (k + t * w.rowPitch + 8 * j + 4) 4)
    if tbit a 31 then some { token := t, delivery := a / 2 ^ 12 % 2 ^ 13, row := a % 2 ^ 12, weight := g } else none))

/-- The key of a batch's output slot (R203). -/
def State.outSlot (s : State) (p r batch : Nat) : Option Nat :=
  s.keyOf p (placeAt r 8).blk ((placeAt r 8).off + batch % fldB r 16 1 * fldB r 12 4)

/-- A batch receives a delivery. -/
def CombBatch.receive (b : CombBatch) (d : Nat) (ab : Bool) : CombBatch :=
  { b with received := if b.received.contains d || b.nDel ≤ d then b.received else b.received ++ [d], abandoned := b.abandoned || ab }

/-- COMBINE_OPEN_BATCH: the next route map opens its batch: the map is read, OUT_FENCE must let the output slot be written, and
with ZERO_FIRST the output tile is zeroed (R203, R204, R209). -/
def execCombineOpenBatch (unit : Nat) (s : State) : Outc :=
  .next (
    let e := 0x4000 + unit
    let c := s.comb e
    match s.combStation e, takeFirst (fun (x : Nat × Waybill) => x.1 == 0) c.taken with
    | some (x, t), some ((_, w), l) =>
      let r := x.rec64
      if badMap r w then (s.setComb e { c with taken := l }).reject x.part x.station t w.queue w .badMap (engRank e)
      else if !s.slotFree e (bit r 0 1) (fldB r 6 2) c.opened (fldB r 16 1) then s
      else
        match s.keyOf x.part w.tileBlock (w.tileOff * 64), s.outSlot x.part r (mapBatch w) with
        | some k, some o =>
          let s0 := s.readLines (.unit e) x.part ((List.range w.rows).flatMap (fun i => linesOf (k + i * w.rowPitch) (packedRow w.format w.cols)))
          let s1 := if bit r 0 0 then s0.writeBytes (.unit e) x.part ((List.range w.rows).flatMap (fun i => keyed (o + i * fldB r 4 2) (List.replicate (packedRow (fld r 1 4 0) (fldB r 2 2)) 0))) else s0
          let b : CombBatch := { batch := mapBatch w, map := w, entries := s.readMap k w, size := mapEntries w, nDel := mapDeliveries w, received := [], abandoned := false, zero := if bit r 0 0 then [s0.fab.nextAccess] else [], adds := [] }
          let early := c.early.filter (fun y => y.1 == b.batch)
          s1.setComb e { c with taken := l, batches := c.batches ++ [early.foldl (fun (b : CombBatch) y => b.receive y.2 true) b], early := c.early.filter (fun y => y.1 != b.batch), opened := c.opened + 1 }
        | _, _ => s.freezeEngine e violUnbound (sliceKey w.tileBlock (w.tileOff * 64))
    | _, _ => s)

/-- The result fails R205, or its DELIVERY is not one of its batch (R209). -/
def badResult (r : Nat) (b : CombBatch) (w : Waybill) : Bool :=
  w.kind != 0 || w.format != fld r 1 4 0 || w.cols != fldB r 2 2 || b.nDel ≤ resDelivery w

/-- w × element, rounded once to the output format (R205). -/
def weighted (fmt weight elem : Nat) : Nat :=
  let f := if fmt = 0x09 then fp32 else bf16
  f.code ((fp32.decode weight).mul (f.decode elem))

/-- The rows of a delivery that the route map names: element row and output row. -/
def CombBatch.named (b : CombBatch) (w : Waybill) : List MapEntry := b.entries.filter (fun m => m.delivery == resDelivery w && decide (m.row < w.rows))

/-- What a result adds to the output tile: by word, the FP32 product, or the pair of BF16 products; the second half of a row's last word
that lies past the row adds −0, which leaves it as it is (R40, R205). -/
def State.resultWords (s : State) (r : Nat) (b : CombBatch) (w : Waybill) (src out : Nat) : List (Nat × Nat) :=
  let fmt := fld r 1 4 0
  let eb := elemBits fmt / 8
  let cols := fldB r 2 2
  (b.named w).flatMap (fun m =>
    let prod (j : Nat) : Nat := weighted fmt m.weight (ofBytes (s.keyRead (src + m.row * w.rowPitch + j * eb) eb))
    (List.range (cdiv (cols * eb) 4)).map (fun k =>
      (out + m.token * fldB r 4 2 + 4 * k,
        if eb = 4 then prod k else prod (2 * k) + 65536 * (if 2 * k + 1 < cols then prod (2 * k + 1) else 0x8000))))

/-- Add the rows of a delivery to the output tile by line atomics, and read its lines (R205, R167). -/
def State.addResult (s : State) (e p r : Nat) (b : CombBatch) (w : Waybill) (src out : Nat) : State :=
  (s.readLines (.unit e) p ((b.named w).flatMap (fun m => linesOf (src + m.row * w.rowPitch) (packedRow w.format w.cols)))).addWords (.unit e) p
    (if fld r 1 4 0 = 0x09 then 4 else 5) (s.resultWords r b w src out)

def CombUnit.setBatch (c : CombUnit) (b : CombBatch) : CombUnit :=
  { c with batches := c.batches.map (fun y => if y.batch == b.batch then b else y) }

/-- Process one result of an open batch (R205, R206, R208). -/
def State.combProcess (s : State) (e : Nat) (x : Engine) (t : Station) (c : CombUnit) (b : CombBatch) (w : Waybill) : State :=
  let r := x.rec64
  if badResult r b w then
    (s.setComb e (c.setBatch (b.receive (resDelivery w) true))).reject x.part x.station t w.queue w .badResult (engRank e)
  else
    match s.keyOf x.part w.tileBlock (w.tileOff * 64), s.outSlot x.part r b.batch with
    | some src, some out =>
      let s1 := if s.ctxLive x.part w.context then s.addResult e x.part r b w src out else s
      let ids := (List.range (s1.fab.nextAccess - s.fab.nextAccess)).map (· + s.fab.nextAccess)
      (s1.setComb e (c.setBatch { b.receive (resDelivery w) false with adds := b.adds ++ ids })).fenceAction x.part w (engRank e) (engSource e) false
    | _, _ => s.freezeEngine e violUnbound (sliceKey w.tileBlock (w.tileOff * 64))

/-- The accesses are over: their statuses have returned. -/
def State.accessesDone (s : State) (l : List Nat) : Bool := l.all (fun n => !Tab.has s.fab.accesses n)

/-- The batch of a result is open, and its output tile zeroed where its station asks for that (R204). -/
def State.openBatch (s : State) (c : CombUnit) (w : Waybill) : Option CombBatch :=
  c.batches.find? (fun b => b.batch == resBatch w && s.accessesDone b.zero)

/-- COMBINE_RESULT: the unit takes the next result: a held one of an open batch first, else the next of input 1. A result of a
closed batch is discarded; one of a batch not yet open is held; one whose output tile is being zeroed waits (R204-R206, R208). -/
def execCombineResult (unit : Nat) (s : State) : Outc :=
  .next (
    let e := 0x4000 + unit
    let c := s.comb e
    match s.combStation e with
    | none => s
    | some (x, t) =>
      match takeFirst (fun (w : Waybill) => (s.openBatch c w).isSome) c.held with
      | some (w, l) =>
        (match s.openBatch c w with
         | some b => s.combProcess e x t { c with held := l } b w
         | none => s)
      | none =>
        match takeFirst (fun (y : Nat × Waybill) => y.1 == 1) c.taken with
        | none => s
        | some ((_, w), l) =>
          match s.openBatch c w with
          | some b => s.combProcess e x t { c with taken := l } b w
          | none =>
            if c.closed.contains (resBatch w) then s.setComb e { c with taken := l }
            else if c.batches.any (fun b => b.batch == resBatch w) then s
            else s.setComb e { c with taken := l, held := c.held ++ [w] })

/-- Every delivery of the batch has been received (R207). -/
def CombBatch.complete (b : CombBatch) : Bool := (List.range b.nDel).all (fun d => b.received.contains d)

/-- The output waybill of a batch (R207). -/
def CombBatch.output (b : CombBatch) (r : Nat) : Waybill :=
  let o := placeAt r 8
  { kind := 0, abandoned := b.abandoned, dropped := b.map.dropped, last := b.map.last, context := b.map.context, routeTag := b.map.routeTag, requestId := b.map.requestId, tileBlock := o.blk, tileOff := o.off / 64 + b.batch % fldB r 16 1 * (fldB r 12 4 / 64), format := fld r 1 4 0, cols := fldB r 2 2, rows := b.map.rows, rowPitch := fldB r 4 2, originCol := b.map.originCol, originRow := b.map.originRow, arg := b.map.arg }

/-- COMBINE_COMMIT: a batch whose deliveries have all been received, and whose accesses have returned their statuses, commits: its output
waybill leaves, and the route map's fence action is performed (R207). -/
def execCombineCommit (unit : Nat) (s : State) : Outc :=
  .next (
    let e := 0x4000 + unit
    let c := s.comb e
    match s.combStation e, takeFirst (fun (b : CombBatch) => b.complete && s.accessesDone (b.zero ++ b.adds)) c.batches with
    | some (x, t), some (b, l) =>
      if x.start.isSome then s
      else
        let st : Start := { part := x.part, station := x.station, inputs := [(0, b.map)], emits := s.wellFormedEmits x.part [b.output x.rec64], direct := [], ended := true, heldFull := false, heldOrder := false, begun := s.now, faulted := false }
        ((((s.setComb e { c with batches := l }).setEngine e { x with start := some st }).setStation x.part x.station { t with starts := t.starts ++ [e] })).tryCommit e
    | _, _ => s)

/-- The dispatcher reports a forwarded or consumed ABANDONED input to the combine unit (R206): a result counts as received
without addition, and is remembered until its batch opens; a route map's batch is closed. -/
def State.combReport (s : State) (e input : Nat) (w : Waybill) : State :=
  let c := s.comb e
  if input = 0 then
    s.setComb e { c with closed := (c.closed ++ [mapBatch w]).drop (c.closed.length + 1 - 64), held := c.held.filter (fun y => resBatch y != mapBatch w), early := c.early.filter (fun y => y.1 != mapBatch w) }
  else
    match c.batches.find? (fun b => b.batch == resBatch w) with
    | some b => s.setComb e (c.setBatch (b.receive (resDelivery w) true))
    | none => if c.closed.contains (resBatch w) then s else s.setComb e { c with early := c.early ++ [(resBatch w, resDelivery w)] }

end Sys2Proof.Machine
end

