-- ==== Sys2Proof/Machine/Windows.lean ====
section
/-! DEFINITION. Sys2Proof/Machine/Windows.lean: remote memory windows: outbound entries, the window table, keys and the ingress
check (09_translation R267-R272). -/

namespace Sys2Proof.Machine

/-- The window entry of a record or body at byte 8 (R269). -/
def winDefOf (r : Nat) : WinDef :=
  { valid := bit r 10 7, srcNode := fldB r 8 2, canWrite := bit r 10 6, canRead := bit r 10 5, part := fld r 11 5 0, keySlot := fldB r 12 1,
    keyAlt := fldB r 13 1, altValid := bit r 14 0, base := fldB r 16 8, length := fldB r 24 4 }

/-- The mask of a WindowOpen record: ID, and R269's entry at byte 8 with IN_FLIGHT discarded. -/
def windowOpenMask : List (Nat × Nat × Nat) :=
  [(0, 15, 0), (8, 15, 0), (10, 7, 5), (11, 5, 0), (12, 7, 0), (13, 7, 0), (14, 0, 0), (16, 63, 0), (24, 31, 0), (28, 31, 0)]

/-- R270's refusals. `own` is the partition a host window must belong to. -/
def State.windowRefusal (s : State) (id : Nat) (w : WinDef) (own : Option Nat) : Option Code :=
  match s.part? w.part with
  | none => some .badId
  | some x =>
    if x.destroying.isSome || (match own with | some p => p != w.part | none => false) then some .badId
    else if w.base % 4096 != 0 || w.length == 0 || usableBytes x < w.base + w.length * 4096 then some .badRange
    else if !Tab.has s.xlt.keys w.keySlot || (w.altValid && !Tab.has s.xlt.keys w.keyAlt) then some .noKey
    else if 4095 < id then some .badId
    else none

def State.setWindow (s : State) (id : Nat) (w : Window) : State :=
  { s with xlt := { s.xlt with windows := Tab.put s.xlt.windows id w } }

/-- An entry as `WindowOpen` writes it, VALID as the record has it (R9, R269). -/
def openWindow (w : WinDef) : Window :=
  { cfg := w, valid := w.valid, inFlight := 0, waits := [] }

/-- A window refuses new requests at once, and a close or replacement waits for its drain (R270, R271). -/
def State.drainWindow (s : State) (id : Nat) (x : Window) (w : WinWait) : State :=
  s.setWindow id { x with valid := false, waits := x.waits ++ [w] }

/-- Open a window, or replace a VALID one after its drain (R270): none when the answer comes later. -/
def State.windowOpen (s : State) (id : Nat) (w : WinDef) (ring : Option Nat) (ref : Option MsgRef) : State × Option Ans :=
  match Tab.find s.xlt.windows id with
  | some x =>
    if x.valid || !x.waits.isEmpty then (s.drainWindow id x { ring := ring, ref := ref, repl := some w }, none)
    else (s.setWindow id (openWindow w), some (.ok 0))
  | none => (s.setWindow id (openWindow w), some (.ok 0))

/-- WINDOW_OPEN of a host window, by a buffer of the owning partition: its SRC_NODE names this module's host ports. -/
def windowOpenBody (r : Nat) (e : CmdEnv) (s : State) : CmdRes :=
  let w := winDefOf r
  if bodyRsvd r windowOpenMask then refuse s .rsvdSet
  else if w.srcNode != 0xFFFF then (s, some (badParam 8 0))
  else
    match s.windowRefusal (fldB r 0 2) w (some e.part) with
    | some c => refuse s c
    | none => s.windowOpen (fldB r 0 2) w (some e.ring) none

/-- WINDOW_OPEN. -/
def execWindowOpen (ring : Nat) (record : BitVec 320) (s : State) : Outc :=
  .next (runCmd s ring 0x001C record.toNat 3 (windowOpenBody record.toNat))

/-- Close a window: it refuses new requests at once, and WindowClosed is sent when IN_FLIGHT reaches 0 (R271). -/
def State.windowClose (s : State) (id : Nat) (own : Option Nat) (ring : Option Nat) (ref : Option MsgRef) : State × Option Ans :=
  if 4095 < id then (s, some (.refused .badId 0))
  else
    match Tab.find s.xlt.windows id with
    | none => (s, some (.ok 0))
    | some x =>
      if (match own with | some p => p != x.cfg.part || x.cfg.srcNode != 0xFFFF | none => false) then (s, some (.refused .badId 0))
      else (s.drainWindow id x { ring := ring, ref := ref, repl := none }, none)

/-- R271. -/
def windowCloseBody (r : Nat) (e : CmdEnv) (s : State) : CmdRes :=
  if rsvdSet r (maskOf [(0, 15, 0)]) then refuse s .rsvdSet else s.windowClose (fldB r 0 2) (some e.part) (some e.ring) none

/-- WINDOW_CLOSE. -/
def execWindowClose (ring : Nat) (record : BitVec 64) (s : State) : Outc :=
  .next (runCmd s ring 0x001D record.toNat 3 (windowCloseBody record.toNat))

/-- WINDOW_OPEN_MSG: the fabric manager opens or replaces a fabric window (R270). -/
def execWindowOpenMsg (m : MsgRef) (body : BitVec 320) (s : State) : Outc :=
  .next (runMsg s m 3 (winDefOf body.toNat).part (fun s =>
    if bodyRsvd body.toNat windowOpenMask then refuseM s .rsvdSet
    else
      match s.windowRefusal (fldB body.toNat 0 2) (winDefOf body.toNat) none with
      | some c => refuseM s c
      | none => s.windowOpen (fldB body.toNat 0 2) (winDefOf body.toNat) none (some m)))

/-- WINDOW_CLOSE_MSG: the fabric manager closes a window (R271). -/
def execWindowCloseMsg (m : MsgRef) (body : BitVec 64) (s : State) : Outc :=
  .next (runMsg s m 3 0 (fun s =>
    if rsvdSet body.toNat (maskOf [(0, 15, 0)]) then refuseM s .rsvdSet
    else s.windowClose (fldB body.toNat 0 2) none none (some m)))

/-- WINDOW_CLOSED: a closing window's IN_FLIGHT is zero: the close or replacement that has waited longest is answered; once none waits, the
entry is gone, or the last one's window opens (R270, R271). -/
def execWindowClosed (id : Nat) (s : State) : Outc :=
  .next (
    match Tab.find s.xlt.windows id with
    | none => s
    | some x =>
      match x.waits with
      | [] => s
      | w :: l =>
        if x.inFlight != 0 then s
        else
          let s1 :=
            if !l.isEmpty then s.setWindow id { x with cfg := w.repl.getD x.cfg, waits := l }
            else match w.repl with
              | some d => s.setWindow id (openWindow d)
              | none => { s with xlt := { s.xlt with windows := Tab.del s.xlt.windows id } }
          let s2 := match w.ring with
            | some q => s1.answerCmd q (.ok 0)
            | none => s1
          match w.ref with
          | some m => s2.answerMsg m (.ok 0)
          | none => s2)

/-- R268, R353: an outbound entry names a port only while the partition's share of it is non-zero. -/
def windowRouteBody (r : Nat) (s : State) : MsgRes :=
  let p := fldB r 0 1
  let valid := bit r 11 7
  let port := fld r 13 3 0
  let share := match s.part? p with | some x => Tab.getD x.portShare port 0 | none => 0
  if !s.livePart p then refuseM s .badId
  else if bodyRsvd r [(0, 7, 0), (1, 7, 0), (8, 15, 0), (10, 11, 0), (11, 7, 7), (12, 5, 0), (13, 3, 0), (16, 63, 0)] then refuseM s .rsvdSet
  else if 60 < fld r 12 5 0 || (valid && fld r 12 5 0 == 0) then refuseM s .badId
  else if valid && 11 < port then refuseM s .badParam
  else if valid && !s.portPresent port then refuseM s .unitAbsent
  else if valid && share == 0 then refuseM s .badParam
  else
    let w : OutWin := { node := fldB r 8 2, valid := valid, window := fld r 10 11 0, part := fld r 12 5 0, port := port, key := BitVec.ofNat 64 (fldB r 16 8) }
    okM { s with xlt := { s.xlt with out := Tab.put s.xlt.out (p * 256 + fldB r 1 1) w } } 0

/-- WINDOW_ROUTE. -/
def execWindowRoute (m : MsgRef) (body : BitVec 192) (s : State) : Outc :=
  .next (runMsg s m 3 (fldB body.toNat 0 1) (windowRouteBody body.toNat))

/-- WINDOW_KEY_LOAD: a key enters a slot of the window key store (R269). -/
def execWindowKeyLoad (m : MsgRef) (body : BitVec 128) (s : State) : Outc :=
  .next (runMsg s m 3 0 (fun s =>
    if bodyRsvd body.toNat [(0, 7, 0), (8, 63, 0)] then refuseM s .rsvdSet
    else okM { s with xlt := { s.xlt with keys := Tab.put s.xlt.keys (fldB body.toNat 0 1) (BitVec.ofNat 64 (fldB body.toNat 8 8)) } } 0))

/-- What an ingress request asks of a window (R272): 0 read, 1 write, 2 atomic. -/
structure WinReq where
  node : Nat
  window : Nat
  part : Nat
  key : BitVec 64
  off : Nat
  kind : Nat
  bytes : Nat
deriving DecidableEq, Repr

/-- The ingress checks of R272 in order: the first that fails, else the DPA of each byte (R267). Every page a request reaches is checked. A
misaligned atomic is out of range (DESIGN CHOICE, log entry 15). -/
def State.ingress (s : State) (q : WinReq) : Except Code (List Nat) :=
  match Tab.find s.xlt.windows q.window with
  | none => .error .windowInvalid
  | some w =>
    let c := w.cfg
    let keyOk (k : Nat) : Bool := match Tab.find s.xlt.keys k with | some v => v == q.key | none => false
    if !w.valid then .error .windowInvalid
    else if c.srcNode != q.node then .error .windowSource
    else if !(keyOk c.keySlot || (c.altValid && keyOk c.keyAlt)) then .error .windowKey
    else if q.part != c.part then .error .windowPartition
    else if c.length * 4096 < q.off + q.bytes || c.length * 4096 ≤ q.off || (q.kind == 2 && q.off % q.bytes != 0) then .error .windowRange
    else if (q.kind == 0 && !c.canRead) || (q.kind == 1 && !c.canWrite) || (q.kind == 2 && !(c.canRead && c.canWrite)) then
      .error .windowPerm
    else
      match s.part? c.part with
      | none => .error .windowInvalid
      | some x =>
        let l := (List.range q.bytes).map (fun i => c.base + q.off + i)
        if l.any x.sealed then .error .windowSealed
        else
          let d := l.filterMap (fun o => s.dpaOfOff x.coded x.runs o)
          if d.length = q.bytes then .ok d else .error .windowRange

/-- The lines of a list of bytes' DPAs, each once: the transactions a window request makes of them (R410). -/
def lineNums (l : List Nat) : List Nat := dedupN (l.map (· / 64))

/-- A window request that passed is admitted: its lines become transactions of the port's master for the window's owner (R272, R410), and
IN_FLIGHT counts it (R269). `data` are the bytes of a write, `amo` an atomic's sub-operation and operand. -/
def State.admitWin (s : State) (n tag node : Nat) (q : WinReq) (l : List Nat) (data : List (BitVec 8)) (amo : Option (Nat × Nat)) : State :=
  match Tab.find s.xlt.windows q.window with
  | none => s
  | some w =>
    let k := s.xlt.nextOp
    let ls := lineNums l
    let o : WinOp := { port := n, tag := tag, node := node, part := q.part, window := q.window, kind := q.kind, dpas := l, left := ls.length }
    let s1 := s.setWindow q.window { w with inFlight := w.inFlight + 1 }
    let s2 := { s1 with xlt := { s1.xlt with winOps := Tab.put s1.xlt.winOps k o, nextOp := k + 1 } }
    ls.foldl (fun (s : State) line =>
      let bs := (List.zip l data).filter (fun x => x.1 / 64 == line)
      s.transact w.cfg.part (240 + n) { id := 0, line := line, write := q.kind != 0, lo := (match (l.find? (fun d => d / 64 == line)) with | some d => d % 64 | none => 0), data := bs.map (·.2), amo := amo, who := .win k }) s2

end Sys2Proof.Machine
end

