-- ==== Sys2Proof/Machine/Links.lean ====
section
/-! DEFINITION. Sys2Proof/Machine/Links.lean: Ralut ports: training, lane sparing, flits, replay, credits, transactions,
violations and quarantine (13_ralut_link R364-R387; R272, R355, R388). -/

namespace Sys2Proof.Machine

/-! ## Ports -/

/-- A port as it stands at power-up. -/
def freshPort : LPort :=
  { state := .down, lanes := [], spare := 0, flight := 0, trip := none, keep := false, readmit := none, partnerKind := 0,
    partnerNode := 0xFFFF, partnerQuarantined := false, swap := none, cycles := 0, expected := 0, naking := false, nakDue := false,
    lastBad := 0, partial' := [], rxHeld := [0, 0, 0, 0], rxFreed := [0, 0, 0, 0], inbox := [], nextSeq := 0, replay := [],
    resend := [], nak := none, failSeq := 0, fails := 0, ctrl := [], tx := [], credit := [0, 0, 0, 0], bufs := [0, 0, 0, 0],
    credTot := [0, 0, 0, 0], outstanding := [], nextTag := 0, flitCount := 0, slot := 0, mgmtSlot := none, lastPart := 0,
    vioWindow := 0, vioCount := 0, probationEnd := 0, noReadmit := 0, retryAt := 0 }

def State.port (s : State) (n : Nat) : LPort := Tab.getD s.link.ports n freshPort

def State.setPort (s : State) (n : Nat) (x : LPort) : State :=
  { s with link := { s.link with ports := Tab.put s.link.ports n x } }

def State.updPort (s : State) (n : Nat) (f : LPort → LPort) : State := s.setPort n (f (s.port n))

/-- A port of the part: F0-F11 as the variant has them, H0 and H1 (R2, R33). -/
def State.portHere (s : State) (n : Nat) : Bool := s.portPresent n || n == 12 || n == 13

/-- A host port. -/
def hostPort (n : Nat) : Bool := decide (12 ≤ n)

/-- The receive buffers announced at IDENT, in flits by VC (R376). -/
def rxBufs : List Nat := [512, 512, 1024, 64]

/-- The port carries flits of every kind (R368). -/
def LPort.carries (x : LPort) : Bool := x.state == .active || x.state == .probation

/-- The port has flits on its lanes. -/
def LPort.up (x : LPort) : Bool := x.carries || x.state == .quarantined || x.state == .ident || x.state == .doze

/-- Training failures, in the order in which the chapter names them (R366-R369). -/
def trainLanes : Nat := 1
def trainSkew : Nat := 2
def trainFlight : Nat := 3
def trainIdent : Nat := 4

/-- An engine's window access has an answer, or none any more. -/
def State.endRemote (s : State) (e va txn : Nat) (data : Option (List (BitVec 8))) : State :=
  { s with
    dram := { s.dram with txns := Tab.del s.dram.txns txn }
    xlt := { s.xlt with remote := s.xlt.remote.map (fun x => if x.engine = e ∧ x.va = va ∧ x.data = none then { x with data := data } else x) } }

/-- An engine whose window request can no longer be answered ends its start with LINK_UNAVAILABLE (R380). -/
def State.dropWindows (s : State) (n : Nat) : State :=
  let x := s.port n
  let s1 := s.setPort n { x with outstanding := x.outstanding.filter (fun t => match t.use with | .window _ _ _ => false | _ => true) }
  x.outstanding.foldl (fun s t => match t.use with
    | .window e va k => if Tab.find s.dram.txns k = some (.engine e) then (s.endRemote e va k none).programFault e .linkUnavailable 0xFFFF va else s
    | _ => s) s1

/-- The port goes to DOWN (R368): partial messages end, and its engines' window requests fail. -/
def State.portDown (s : State) (n : Nat) : State :=
  (s.updPort n (fun x => { x with state := .down, swap := none, partial' := [], keep := false, nak := none, resend := [], trip := none, retryAt := s.now + 1000000 })).dropWindows n

/-- Partner loss (R372). -/
def State.partnerLoss (s : State) (n : Nat) : State := (s.portDown n).linkEvent 0x0103 n 0

/-- A training that fails (R368): PORT_TRAIN_FAIL with its code; a retraining that kept its buffers is then lost to its partner
(R375). -/
def State.trainFail (s : State) (n code : Nat) : State :=
  let s1 := (if (s.port n).keep then s.partnerLoss n else s.portDown n).linkEvent 0x0104 n code
  match (s.port n).readmit with
  | some _ => s1.updPort n (fun x => { x with state := .down })
  | none => s1

/-- PORT_TRAIN_RETRY: a DOWN port starts PMD training, at power-up and every 1 s (R368, R523). In doze only H0.0 runs (R381). -/
def execPortTrainRetry (n : Nat) (s : State) : Outc :=
  .next (
    let x := s.port n
    if s.portHere n && x.state == .down && decide (x.retryAt ≤ s.now) && s.linksTrain then
      s.setPort n { x with state := .pmdTrain, retryAt := s.now + 1000000 }
    else s)

/-- PMD_TRAIN_DONE: PMD training ends with the lanes of the mask trained (R368): five give four positions and an idle spare, four
give no spare, fewer return the port to DOWN. -/
def execPmdTrainDone (n good : Nat) (s : State) : Outc :=
  .next (
    let x := s.port n
    if x.state != .pmdTrain then s
    else
      let l := (List.range 5).filter (fun i => tbit good i)
      if l.length < 4 then s.trainFail n trainLanes
      else s.setPort n { x with state := .align, lanes := l.take 4, spare := if l.length = 5 then 1 else 0, trip := none })

/-- Bytes of a CTRL flit's payload: its code and fields (R373). The spec gives no layout of the fields (DESIGN CHOICE, log entry 22). -/
def ctrlBytes (code : Nat) (fields : List (Nat × Nat)) : List (BitVec 8) :=
  bytesOf 1 code ++ fields.flatMap (fun f => bytesOf f.1 f.2)

/-- The IDENT flit the port sends (R369): partner kind 0, port name, node, variant, receive buffers. -/
def State.identFlit (s : State) (n : Nat) : List (BitVec 8) :=
  ctrlBytes 0x01 ([(1, 0), (1, n), (2, s.sys.nodeId), (1, if s.sys.variantT then 1 else 2)] ++ rxBufs.map (fun b => (2, b)))

/-- The 20-bit lane tag of a lane (R365): POSITION, IDLE_SPARE and CW_SEQ. -/
def LPort.laneTag (x : LPort) (cw lane : Nat) : Nat :=
  if x.lanes.contains lane then x.lanes.idxOf lane <<< 18 ||| cw
  else if lane = 4 ∧ x.spare = 1 then 1 <<< 17 ||| cw
  else cw

/-- SEQ, replay and credits begin anew (R373, R376), unless the training keeps them (R375). Messages received whole keep waiting outside the
receive buffers, whose credits begin anew (DESIGN CHOICE, log entry 23). -/
def LPort.restart (x : LPort) : LPort :=
  if x.keep then { x with naking := false, nakDue := false, resend := x.replay.map (·.1), nak := none, flitCount := 0 }
  else
    let gone := x.tx.filterMap (fun t => t.qp.map (·.2))
    { x with outstanding := x.outstanding.filter (fun o => !gone.contains o.tag), inbox := x.inbox.map (fun m => { m with flits := 0 }), expected := 0, naking := false, nakDue := false, lastBad := 0, partial' := [], rxHeld := [0, 0, 0, 0], rxFreed := [0, 0, 0, 0], nextSeq := 0, replay := [], resend := [], nak := none, failSeq := 0, fails := 0, ctrl := [], tx := x.tx.filterMap (fun t => if t.qp.isSome then none else some { t with sent := 0 }), credit := [0, 0, 0, 0], bufs := [0, 0, 0, 0], credTot := [0, 0, 0, 0], flitCount := 0, mgmtSlot := none, slot := 0 }

/-- The echo round trip's fixed counts of both ends: 2 × 58 CLK_LNK (R376, R378). -/
def fixedTrip : Nat := 116

/-- FLIGHT of a measured round trip: halved and rounded up (R367). -/
def flightOf (trip : Nat) : Nat := cdiv (trip - fixedTrip) 2

/-- CTRL_ECHO: a received ECHO. A request is answered; a reply ends the measurement of `trip` CLK_LNK (R367). -/
def execCtrlEcho (n : Nat) (reply : Bool) (trip : Nat) (s : State) : Outc :=
  .next (
    let x := s.port n
    if x.state != .align && x.state != .ident && x.state != .doze then s
    else if reply then s.setPort n { x with trip := some trip, flight := if x.state = .align then x.flight else flightOf trip }
    else s.setPort n { x with ctrl := x.ctrl ++ [ctrlBytes 0x02 [(1, 1)]] })

/-- ALIGN_DONE: codeword lock and the measurement of FLIGHT end, with the lanes of a group arriving `skew` CLK_LNK apart (R366,
R367): the port moves to IDENT, or fails with SKEW or FLIGHT. -/
def execAlignDone (n skew : Nat) (s : State) : Outc :=
  .next (
    let x := s.port n
    if x.state != .align then s
    else if 40 < skew then s.trainFail n trainSkew
    else
      match x.trip with
      | none => s
      | some t =>
        if 1024 < flightOf t then s.trainFail n trainFlight
        else
          let y := { x with flight := flightOf t, state := .ident, slot := 0 }
          let z := y.restart
          s.setPort n { z with ctrl := z.ctrl ++ [s.identFlit n] })

/-- CTRL_IDENT: the partner's IDENT is checked, and the port enters ACTIVE, or PROBATION after a PortReadmit or a retraining within its 10 s,
or fails (R369, R375, R386). -/
def execCtrlIdent (n kind pport node variant b0 b1 b2 b3 : Nat) (s : State) : Outc :=
  .next (
    let x := s.port n
    if x.state != .ident then s
    else if hostPort n != (kind == 2) then s.trainFail n trainIdent
    else
      let y := { x with partnerKind := kind, partnerPort := pport, partnerNode := node, partnerVariant := variant, partnerQuarantined := false, cycles := 0, keep := false, trip := none, state := if x.readmit.isSome || (x.keep && decide (s.now < x.probationEnd)) then .probation else .active, probationEnd := if x.readmit.isSome then s.now + 10000000 else x.probationEnd, readmit := none, bufs := [b0, b1, b2, b3], credit := if x.keep then x.credit else [b0, b1, b2, b3] }
      let s1 := s.setPort n y
      match x.readmit with
      | some m => s1.answerMsg m (.ok 0)
      | none => s1)

/-! ## Lane faults (R370-R372) -/

/-- A lane fault beyond sparing (R371): DOWN, and the loss passes to device level; in doze only the side-band stays (R381). -/
def State.laneLost (s : State) (n : Nat) : State :=
  let doze := (s.port n).state == .doze
  let s1 := s.portDown n
  if doze then s1 else s1.devFault 3 n

/-- The codeword number the port transmits (R365), modulo 2^16. -/
def LPort.cw (x : LPort) : Nat := x.cycles / 40 % 65536

/-- LANE_FAULT: one 1 ms window of a lane with `unc` uncorrectable codewords, `sym` corrected symbols, and whether it alone lost
lock (R370). A lane that holds a position asks for the spare, or the port is lost (R371). -/
def execLaneFault (n lane unc sym : Nat) (lost : Bool) (s : State) : Outc :=
  .next (
    let x := s.port n
    if !(decide (4 ≤ unc) || decide (s.zh 80 < sym) || lost) || !x.up then s
    else if lane == 4 && x.spare == 1 then (s.setPort n { x with spare := 2 }).linkEvent 0x0102 n 0
    else if !x.lanes.contains lane then s
    else if x.spare != 1 || x.swap.isSome then s.laneLost n
    else
      let pos := x.lanes.idxOf lane
      let at' := (x.cw + 64) % 65536
      s.setPort n { x with swap := some { position := pos, txAt := at', rxAt := none }, ctrl := x.ctrl ++ [ctrlBytes 0x03 [(1, pos), (2, at')]] })

/-- CTRL_SPARE_REQ: the partner names a position and its SWAP_AT; it is answered with this side's (R371). A request for another
position while a swap runs is a second fault (R387). -/
def execCtrlSpareReq (n pos at' : Nat) (s : State) : Outc :=
  .next (
    let x := s.port n
    if !x.up then s
    else
      match x.swap with
      | some w =>
        if w.position = pos then
          s.setPort n { x with swap := some { w with rxAt := some at' }, ctrl := x.ctrl ++ [ctrlBytes 0x04 [(2, w.txAt)]] }
        else s.laneLost n
      | none =>
        if x.spare != 1 then s.laneLost n
        else
          let mine := (x.cw + 64) % 65536
          s.setPort n { x with swap := some { position := pos, txAt := mine, rxAt := some at' }, ctrl := x.ctrl ++ [ctrlBytes 0x04 [(2, mine)]] })

/-- CTRL_SPARE_ACK: the partner's SWAP_AT fixes the receive direction's group (R371). -/
def execCtrlSpareAck (n at' : Nat) (s : State) : Outc :=
  .next (s.updPort n (fun x => { x with swap := x.swap.map (fun w => { w with rxAt := some at' }) }))

/-- SPARE_SWAP: at SWAP_AT the position moves to lane 4, and LANE_SPARED is raised (R371). -/
def execSpareSwap (n : Nat) (s : State) : Outc :=
  .next (
    let x := s.port n
    match x.swap with
    | none => s
    | some w =>
      if w.rxAt.isNone || decide (32768 ≤ (x.cw + 65536 - w.txAt) % 65536) then s
      else (s.setPort n { x with swap := none, spare := 3, lanes := lset x.lanes w.position 4 }).linkEvent 0x0101 n w.position)

/-- PARTNER_LOSS: loss of signal on all five lanes within one codeword (R372). -/
def execPartnerLoss (n : Nat) (s : State) : Outc :=
  .next (if !(s.port n).up then s else if (s.port n).state = .doze then s.portDown n else s.partnerLoss n)

/-- CTRL_LINK_DOWN: a received LINK_DOWN ends the port as partner loss (R372). -/
def execCtrlLinkDown (n : Nat) (s : State) : Outc :=
  .next (if !(s.port n).up then s else if (s.port n).state = .doze then s.portDown n else s.partnerLoss n)

/-! ## Messages sent -/

/-- A transaction header and body (R379). -/
def txnBytes (txn part tag status window queue addr : Nat) (key : BitVec 64) (length : Nat) (body : List (BitVec 8)) :
    List (BitVec 8) :=
  bytesOf 32 (plcB 0 1 txn ||| plc 1 5 0 part ||| plcB 2 2 tag ||| plc 4 23 0 length ||| plcB 8 2 status ||| plc 10 11 0 window |||
    plc 12 19 0 queue ||| plcB 16 8 addr ||| plcB 24 8 key.toNat) ++ body

/-- Queue a message for sending. -/
def State.sendMsg (s : State) (n part vc dest : Nat) (bytes : List (BitVec 8)) : State :=
  s.updPort n (fun x => { x with tx := x.tx ++ [{ part := part, vc := vc, dest := dest, bytes := bytes, sent := 0, qp := none }] })

/-- An RSP with a TAG and STATUS (R380, R383). A quarantined port drops the responses it owes (R385). -/
def State.respond (s : State) (n part dest tag status : Nat) (body : List (BitVec 8)) : State :=
  if (s.port n).state = .quarantined then s
  else (s.sendMsg n part 1 dest (txnBytes 0x07 part tag status 0 0 0 0 body.length body)).emitOut (.link n 0x07 [dest, tag, status])

/-- A TAG not among the outstanding ones. -/
def LPort.freeTag (x : LPort) : Nat :=
  let used (t : Nat) : Bool := x.outstanding.any (fun o => o.tag == t)
  ((List.range (x.outstanding.length + 1)).map (fun i => (x.nextTag + i) % 65536)).find? (fun t => !used t) |>.getD x.nextTag

/-- Queue a request with a fresh TAG that waits for its response. -/
def State.request (s : State) (n part txn addr length : Nat) (use : TagUse) (body : List (BitVec 8)) : State :=
  let x := s.port n
  let t := x.freeTag
  let s1 := s.setPort n { x with nextTag := (t + 1) % 65536, outstanding := x.outstanding ++ [{ tag := t, part := part, gen := s.genOf part, use := use }] }
  (s1.sendMsg n part 0 0xFFFF (txnBytes txn part t 0 0 0 addr 0 length body)).emitOut (.link n txn [part, t, addr, length])

/-! ## Violations (R382, R383, R385) -/

/-- A code counts toward quarantine (R383). -/
def Code.counts (c : Code) : Bool :=
  match c with
  | .doze | .nodeUnassigned | .linkUnavailable | .windowInvalid | .windowSource | .windowKey | .windowRange | .windowPerm => false
  | _ => true

/-- Log a violation, raise LINK_VIOLATION, and count it in its 1 s window (R382, R385). -/
def State.noteViolation (s : State) (n : Nat) (c : Code) (seq src : Nat) : State :=
  if !c.counts then s
  else
    let w := s.now / 1000000
    let s1 := s.updPort n (fun x => { x with vioWindow := w, vioCount := if x.vioWindow = w then x.vioCount + 1 else 1 })
    (s1.logFault 0x0105 0 0 (plcB 0 1 n ||| plcB 1 8 (c.link ||| src <<< 16 ||| seq <<< 32))).linkEvent 0x0105 n (c.link ||| src <<< 16 ||| seq <<< 32)

/-- Answer a violation with a CTRL VIOLATION flit (R382). -/
def State.violationFlit (s : State) (n : Nat) (c : Code) (seq : Nat) : State :=
  s.updPort n (fun x => { x with ctrl := x.ctrl ++ [ctrlBytes 0x05 [(2, c.link), (2, seq)]] })

/-- A violation of a flit or of a message that carries no TAG. -/
def State.flitViolation (s : State) (n : Nat) (c : Code) (seq src : Nat) : State :=
  (s.noteViolation n c seq src).violationFlit n c seq

/-! ## Reception (R373-R376, R379, R380, R382) -/

/-- The requests that carry a TAG: those that ask for a response, and QP_SEND, which QP_ACK answers (R379, R380). -/
def txnAnswered (t : Nat) : Bool := t == 0x01 || t == 0x04 || t == 0x05 || t == 0x06 || t == 0x0B

/-- The transactions a port may receive (R380). -/
def txnAllowed (n t : Nat) : Bool :=
  if hostPort n then [0x04, 0x05, 0x06, 0x07, 0x0A, 0x0B, 0x0D, 0x0E].contains t
  else [0x01, 0x02, 0x03, 0x04, 0x05, 0x06, 0x07, 0x0D, 0x10].contains t

/-- The transactions R380 names at all. -/
def txnKnown (t : Nat) : Bool := (decide (1 ≤ t) && decide (t ≤ 0x0E)) || t == 0x10

/-- LENGTH against the bytes carried and the bounds of R380. -/
def lengthBad (t len carried : Nat) : Bool :=
  match t with
  | 0x04 => carried != 0 || len < 64 || 4096 < len || len % 64 != 0
  | 0x05 => len != carried || len < 64 || 4096 < len
  | 0x06 => len != carried || len != 16
  | 0x0B => carried != 0 || len < 4 || 4096 < len || len % 4 != 0
  | 0x0A => len != carried || len != 8
  | 0x01 => len != carried || len < 64
  | 0x07 => len != carried
  | 0x0D => len != carried
  | 0x10 => len != carried
  | _ => len != carried || len != 0

/-- Reserved bits of a transaction header (R379). -/
def hdrRsvdSet (h : Nat) : Bool := fld h 1 7 6 != 0 || fld h 4 31 24 != 0 || fld h 10 15 12 != 0 || fld h 12 31 20 != 0

/-- What is wrong with a message received whole, in the order of R383's table. -/
def State.msgBad (s : State) (n : Nat) (m : RxMsg) (dest : Nat) : Option Code :=
  let h := ofBytes (m.bytes.take 32)
  let t := fldB h 0 1
  let tag := fldB h 2 2
  let x := s.port n
  if m.bytes.length < 32 then some .lengthMismatch
  else if hdrRsvdSet h then some .hdrRsvd
  else if !txnKnown t || !txnAllowed n t then some .badTxn
  else if !hostPort n && s.sys.nodeId == 0xFFFF && t != 0x0D then some .nodeUnassigned
  else if dest != s.sys.nodeId then some .badDest
  else if (m.src == s.sys.nodeId && s.sys.nodeId != 0xFFFF) || (m.src == 0xFFFF && !hostPort n) then some .badSrc
  else if x.state == .doze && !(([0x07, 0x0B, 0x0D, 0x0E] : List Nat).contains t) then some .doze
  else if lengthBad t (fld h 4 23 0) (m.bytes.length - 32) then some .lengthMismatch
  else if (t == 0x07 || t == 0x02) && !x.outstanding.any (fun o => o.tag == tag) then some .unexpectedRsp
  else if txnAnswered t && (x.inbox.any (fun o => o.src == m.src && txnAnswered (fldB (ofBytes (o.bytes.take 1)) 0 1) &&
      fldB (ofBytes (o.bytes.take 4)) 2 2 == tag) || s.xlt.winOps.any (fun o => o.2.port == n && o.2.node == m.src && o.2.tag == tag)) then some .tagInUse
  else none

/-- The flits of a message leave the receive buffer (R376). -/
def LPort.release (x : LPort) (vc flits : Nat) : LPort :=
  { x with rxHeld := lset x.rxHeld vc (x.rxHeld.getD vc 0 - flits), rxFreed := lset x.rxFreed vc ((x.rxFreed.getD vc 0 + flits) % 4096) }

/-- A message received whole: held for its transaction, or answered as a violation and discarded (R382, R383). -/
def State.msgEnd (s : State) (n : Nat) (m : RxMsg) (dest seq : Nat) : State :=
  match s.msgBad n m dest with
  | none => s.updPort n (fun x => { x with inbox := x.inbox ++ [m] })
  | some c =>
    let h := ofBytes (m.bytes.take 32)
    let t := fldB h 0 1
    let s1 := (s.updPort n (fun x => x.release m.vc m.flits)).noteViolation n c seq m.src
    if c == .doze || c == .nodeUnassigned || (c != .lengthMismatch && c != .hdrRsvd && c != .unexpectedRsp && (txnAnswered t || !txnKnown t)) then
      s1.respond n (fld h 1 5 0) m.src (fldB h 2 2) c.link []
    else if c.counts then s1.violationFlit n c seq
    else s1

/-- A DATA flit in order (R373, R376): the message on its VC grows, and ends with LAST. -/
def State.dataFlit (s : State) (n f : Nat) : State :=
  let x := s.port n
  let seq := fld f 0 11 0
  let vc := fld f 6 7 6
  let src := fldB f 10 2
  let len := fldB f 7 1
  let first := bit f 6 5
  let last := bit f 6 4
  if x.state = .quarantined then s.setPort n { x with rxFreed := lset x.rxFreed vc ((x.rxFreed.getD vc 0 + 1) % 4096) }
  else
    let past := decide (rxBufs.getD vc 0 ≤ x.rxHeld.getD vc 0)
    let cur := Tab.find x.partial' vc
    let why : Option Code :=
      if fld f 2 14 12 != 0 || fld f 4 13 12 != 0 || fld f 6 3 0 != 0 then some .hdrRsvd
      else if 236 < len || (len < 236 && !last) then some .badLen
      else if past then some .creditOverrun
      else if first == cur.isSome || (match cur with | some p => p.src != src | none => false) then some .fragOrder
      else none
    let s0 := s.setPort n { x with rxHeld := lset x.rxHeld vc (x.rxHeld.getD vc 0 + 1) }
    let s1 := match why with | some c => s0.flitViolation n c seq src | none => s0
    let base : RxPart := match cur with
      | some p => if first && why == some .fragOrder then { src := src, flits := p.flits, bytes := [], bad := true } else p
      | none => { src := src, flits := 0, bytes := [], bad := false }
    let p : RxPart := { src := base.src, flits := base.flits + 1, bytes := base.bytes ++ bytesOf (min len 236) (f >>> 96), bad := base.bad || why.isSome }
    if !last then s1.updPort n (fun y => { y with partial' := Tab.put y.partial' vc p })
    else
      let s2 := s1.updPort n (fun y => { y with partial' := Tab.del y.partial' vc })
      if p.bad then s2.updPort n (fun y => y.release vc p.flits)
      else s2.msgEnd n { src := p.src, vc := vc, flits := p.flits, bytes := p.bytes } (fldB f 8 2) seq

/-- Flits acknowledged by an ACK_SEQ, or none when it names a SEQ not yet sent (R374, R383). -/
def LPort.acked (x : LPort) (ack : Nat) : Option (List Nat) :=
  let oldest := (x.nextSeq + 4096 - x.replay.length % 4096) % 4096
  let d := (ack + 1 + 4096 - oldest) % 4096
  if 2048 ≤ d then some []
  else if x.replay.length < d then none
  else some ((List.range d).map (fun i => (oldest + i) % 4096))

/-- The ACK, NAK and credit total that every flit carries (R373-R376). Their violations are those of an IDLE flit and of a flit in its turn: a
flit received again by replay is counted once (R382). -/
def State.flitHeader (s : State) (n f : Nat) : State :=
  let x := s.port n
  let seq := fld f 0 11 0
  let src := fldB f 10 2
  let fresh := fld f 0 15 12 == 0 || seq == x.expected
  let s1 := match x.acked (fld f 2 11 0) with
    | none => if fresh then s.flitViolation n .ackAhead seq src else s
    | some l => s.setPort n { x with replay := Tab.keep x.replay (fun k _ => !l.contains k), resend := x.resend.filter (fun k => !l.contains k), fails := if l.contains x.failSeq then 0 else x.fails }
  let s2 := if bit f 3 7 then s1.updPort n (fun y => { y with nak := some (fld f 2 11 0) }) else s1
  let y := s2.port n
  let vc := fld f 4 15 14
  let tot := fld f 4 11 0
  let d := (tot + 4096 - y.credTot.getD vc 0) % 4096
  let c := y.credit.getD vc 0 + d
  let full := y.bufs.getD vc 0
  let s3 := s2.setPort n { y with credTot := lset y.credTot vc tot, credit := lset y.credit vc (min c full) }
  if fresh && decide (full < c) then s3.flitViolation n .creditExcess seq src else s3

/-- One bit step of the CRC-64 of R373. -/
def crcBit (r : Nat) (b : Bool) : Nat :=
  let top := tbit r 63 != b
  let r1 := (r <<< 1) % 2 ^ 64
  if top then r1 ^^^ 0x42F0E1EBA9EA3693 else r1

/-- CRC-64, polynomial 0x42F0_E1EB_A9EA_3693, initial value all ones, final inversion, bytes in order and each from its top bit
(DEDUCED, log entry 22: the spec names polynomial, initial value and inversion). -/
def crc64 (l : List (BitVec 8)) : Nat :=
  (l.foldl (fun r b => (List.range 8).foldl (fun r i => crcBit r (tbit b.toNat (7 - i))) r) (2 ^ 64 - 1)) ^^^ (2 ^ 64 - 1)

/-- The flit's CRC holds (R373). -/
def flitGood (f : Nat) : Bool := fldB f 248 8 == crc64 (bytesOf 248 f)

/-- A flit that is discarded for its CRC or an uncorrectable codeword (R374, R375): the first one sends NAK. -/
def LPort.discard (x : LPort) (seq : Option Nat) : LPort :=
  match seq with
  | none => if x.naking then x else { x with naking := true, nakDue := true, lastBad := x.expected }
  | some q =>
    let again := x.naking && decide ((x.lastBad + 4096 - q) % 4096 < 2048)
    { x with naking := true, nakDue := x.nakDue || !x.naking || again, lastBad := q }

/-- FLIT_RECEIVE: a flit of 256 bytes, with whether any of its bytes lay in an uncorrectable codeword (R373-R376, R382). CTRL codes
act in their own rows. -/
def execFlitReceive (n : Nat) (flit : BitVec 2048) (unc : Bool) (s : State) : Outc :=
  .next (
    let x := s.port n
    let f := flit.toNat
    if !x.up then s
    else if unc || !flitGood f then s.setPort n (x.discard none)
    else
      let ty := fld f 0 15 12
      let seq := fld f 0 11 0
      let src := fldB f 10 2
      let s0 := s.flitHeader n f
      let rsvd := fld f 2 14 12 != 0 || fld f 4 13 12 != 0 || fld f 6 3 0 != 0
      if ty = 0 then (if rsvd then s0.flitViolation n .hdrRsvd seq src else s0)
      else if 2 < ty then s0.flitViolation n .badType seq src
      else
        let y := s0.port n
        if seq ≠ y.expected then
          (if 2048 ≤ (seq + 4096 - y.expected) % 4096 then s0 else s0.setPort n (y.discard (some seq)))
        else
          let s1 := s0.setPort n { y with expected := (y.expected + 1) % 4096, naking := false, nakDue := false }
          if ty = 1 then s1.dataFlit n f
          else if fldB f 12 1 = 0 ∨ 8 < fldB f 12 1 then s1.flitViolation n .badType seq src
          else if rsvd then s1.flitViolation n .hdrRsvd seq src
          else if 236 < fldB f 7 1 then s1.flitViolation n .badLen seq src
          else s1)

/-- FLIT_NAK: a received NAK starts a go-back-N replay from ACK_SEQ + 1 (R375). -/
def execFlitNak (n : Nat) (s : State) : Outc :=
  .next (
    let x := s.port n
    match x.nak with
    | none => s
    | some a =>
      let from' := (a + 1) % 4096
      let k := (x.nextSeq + 4096 - from') % 4096
      let l := ((List.range (min k 1024)).map (fun i => (from' + i) % 4096)).filter (fun q => Tab.has x.replay q)
      s.setPort n { x with nak := none, resend := l, failSeq := from', fails := if x.failSeq = from' ∧ 0 < x.fails then x.fails + 1 else 1 })

/-- FLIT_REPLAY_RETRAIN: one flit has failed nine times in a row, and the port retrains through ALIGN and IDENT, keeping its
replay buffer and sequence numbers (R375). -/
def execFlitReplayRetrain (n : Nat) (s : State) : Outc :=
  .next (
    let x := s.port n
    if 9 ≤ x.fails && x.carries then s.setPort n { x with state := .align, keep := true, trip := none, fails := 0, partial' := x.partial' } else s)

/-! ## Transmission (R373, R374, R377) -/

/-- A flit without its acknowledgement, credit and CRC. -/
def flitBase (ty seq vc : Nat) (first last : Bool) (dest src : Nat) (payload : List (BitVec 8)) : Nat :=
  plc 0 15 12 ty ||| plc 0 11 0 seq ||| plc 6 7 6 vc ||| plcF 6 5 first ||| plcF 6 4 last ||| plcB 7 1 payload.length |||
  plcB 8 2 dest ||| plcB 10 2 src ||| ofBytes payload <<< 96

/-- Send one flit: it takes the port's acknowledgement, NAK and credit total (R373). -/
def State.putFlit (s : State) (n base : Nat) : State :=
  let x := s.port n
  let vc := x.flitCount % 4
  let f := base ||| plcF 3 7 x.nakDue ||| plc 2 11 0 ((x.expected + 4095) % 4096) ||| plc 4 15 14 vc ||| plc 4 11 0 (x.rxFreed.getD vc 0)
  let g := f ||| plcB 248 8 (crc64 (bytesOf 248 f))
  (s.setPort n { x with flitCount := x.flitCount + 1, nakDue := false }).emitOut (.flit n g)

/-- Send a new DATA or CTRL flit: it takes the next SEQ and enters the replay buffer (R374). -/
def State.newFlit (s : State) (n ty vc : Nat) (first last : Bool) (dest : Nat) (payload : List (BitVec 8)) : State :=
  let x := s.port n
  let b := flitBase ty x.nextSeq vc first last dest s.sys.nodeId payload
  (s.setPort n { x with nextSeq := (x.nextSeq + 1) % 4096, replay := Tab.put x.replay x.nextSeq b }).putFlit n b

/-- Bytes of a waybill's tile, scale array and metadata or bitmap. -/
def Waybill.tileBytes (w : Waybill) : Nat := if w.kind = 0 then w.rows * w.rowPitch else 0
def Waybill.scaleBytes (w : Waybill) : Nat := if w.kind = 0 ∧ w.scales then w.rows * scalePitch w.cols else 0
def Waybill.metaBytes (w : Waybill) : Nat :=
  if w.kind ≠ 0 then 0 else if w.sparsity ≠ 0 then w.rows * metaPitch w.cols
  else if w.zmap then cdiv w.rows 64 * zmapPitch w.cols else 0

/-- Bytes of a named block from an offset in 64-byte units. -/
def State.namedRead (s : State) (p blk off n : Nat) : List (BitVec 8) :=
  match s.phys p blk with
  | some b => s.sliceRead b (off * 64) n
  | none => []

/-- The body of a QP_SEND (R380): waybill, tile, scales and metadata. -/
def State.qpBody (s : State) (p : Nat) (w : Waybill) : List (BitVec 8) :=
  bytesOf 64 w.toNat ++ s.namedRead p w.tileBlock w.tileOff w.tileBytes ++ s.namedRead p w.scaleBlock w.scaleOff w.scaleBytes ++
  s.namedRead p w.metaBlock w.metaOff w.metaBytes

/-- The peer a send end's next waybill goes to, with its credits (R356): node, partition, queue, credits, whether it is old. -/
def QPair.peer (x : QPair) (w : Waybill) : Nat × Nat × Nat × Nat × Bool :=
  match x.oldPeers.find? (fun o => epochOlder w.epoch o.epoch) with
  | some o => (o.node, o.part, o.queue, o.credits, true)
  | none => (x.peerNode, x.peerPart, x.peerQueue, x.credits, false)

/-- A send end of the partition on the port that has a waybill ready and a landing credit (R355). -/
def State.qpReady (s : State) (n p : Nat) : Option (Nat × QPair × Waybill) :=
  s.part.qpairs.findSome? (fun e =>
    match e.2.buffer with
    | w :: _ => if e.2.part == p && !e.2.recv && e.2.port == n && decide (0 < (e.2.peer w).2.2.2.1) then some (e.1, e.2, w) else none
    | [] => none)

/-- Begin a QP_SEND: the message is built, and its TAG is outstanding (R379, R380). -/
def State.startQp (s : State) (n q : Nat) (e : QPair) (w : Waybill) : State :=
  let x := s.port n
  let t := x.freeTag
  let pr := e.peer w
  let body := s.qpBody e.part w
  let m : TxMsg := { part := e.part, vc := 2, dest := pr.1, bytes := txnBytes 0x01 pr.2.1 t 0 0 pr.2.2.1 0 0 body.length body, sent := 0, qp := some (q, t) }
  s.setPort n { x with nextTag := (t + 1) % 65536, outstanding := x.outstanding ++ [{ tag := t, part := e.part, gen := s.genOf e.part, use := .qpSend q }], tx := x.tx ++ [m] }

/-- The last flit of a QP_SEND has left: the waybill waits for its acknowledgement and a credit is spent (R355). -/
def State.qpSent (s : State) (q t : Nat) : State :=
  match Tab.find s.part.qpairs q with
  | none => s
  | some x =>
    match x.buffer with
    | [] => s
    | w :: l =>
      let old := (x.peer w).2.2.2.2
      let olds := x.oldPeers.map (fun o => if old && (x.oldPeers.find? (fun o => epochOlder w.epoch o.epoch)) == some o then { o with credits := o.credits - 1 } else o)
      s.setQpair q { x with buffer := l, unacked := x.unacked ++ [(t, w, old)], credits := if old then x.credits else x.credits - 1, oldPeers := olds, count := x.count + 1 }

/-- The message of a VC that a partition may send from now: the one in progress if it is the partition's, else its oldest. -/
def LPort.nextOn (x : LPort) (p vc : Nat) : Option TxMsg :=
  match x.tx.find? (fun t => t.vc == vc && decide (0 < t.sent)) with
  | some t => if t.part = p then some t else none
  | none => x.tx.find? (fun t => t.vc == vc && t.part == p)

/-- A message of a VC that may go on, whoever's it is. -/
def LPort.nextMgmt (x : LPort) : Option TxMsg :=
  match x.tx.find? (fun t => t.vc == 3 && decide (0 < t.sent)) with
  | some t => some t
  | none => x.tx.find? (fun t => t.vc == 3)

/-- Send the next flit of a message. -/
def State.sendPart (s : State) (n : Nat) (m : TxMsg) : State :=
  let off := m.sent * 236
  let payload := (m.bytes.drop off).take 236
  let last := decide (m.bytes.length ≤ off + 236)
  let x := s.port n
  let drop1 := (takeFirst (fun t => t == m) x.tx).map (·.2) |>.getD x.tx
  let tx := if last then drop1 else x.tx.map (fun t => if t == m then { m with sent := m.sent + 1 } else t)
  let s1 := s.setPort n { x with tx := tx, credit := lset x.credit m.vc (x.credit.getD m.vc 0 - 1), lastPart := if m.vc = 3 then x.lastPart else m.part, mgmtSlot := if m.vc = 3 then some x.slot else x.mgmtSlot }
  let s2 := s1.newFlit n 1 m.vc (m.sent == 0) last m.dest payload
  match m.qp with
  | some (q, t) => if last then s2.qpSent q t else s2
  | none => s2

/-- The VC on which a partition has a flit ready, in the order RSP, REQ, QP (R377). In doze only responses are sent (R381), and by a fabric
port of a module without a node ID (R369). -/
def State.readyVc (s : State) (n p : Nat) : Option Nat :=
  let x := s.port n
  let has (vc : Nat) : Bool := decide (0 < x.credit.getD vc 0) &&
    ((x.nextOn p vc).isSome || (vc == 2 && !x.tx.any (fun t => t.vc == 2 && decide (0 < t.sent)) && (s.qpReady n p).isSome))
  if x.state = .doze || (!hostPort n && s.sys.nodeId == 0xFFFF) then (if has 1 then some 1 else none)
  else ([1, 0, 2] : List Nat).find? has

/-- Send a flit of a partition on a VC. -/
def State.sendOn (s : State) (n p vc : Nat) : State :=
  match (s.port n).nextOn p vc with
  | some m => s.sendPart n m
  | none =>
    match s.qpReady n p with
    | some (q, e, w) =>
      let s1 := s.startQp n q e w
      match (s1.port n).nextOn p vc with
      | some m => s1.sendPart n m
      | none => s1
    | none => s

/-- The owner of a slot on a fabric port: the partition whose share covers it (R377). -/
def State.slotOwner (s : State) (n slot : Nat) : Option Nat :=
  let go := s.part.parts.foldl (fun (a : Nat × Option Nat) e =>
    let sh := Tab.getD e.2.portShare n 0
    (a.1 + sh, if a.2.isNone && decide (a.1 ≤ slot % 16) && decide (slot % 16 < a.1 + sh) then some e.1 else a.2)) (0, none)
  go.2

/-- The next partition after `last` in rising order, round-robin, that has a flit ready and may take the slot (R377). -/
def State.roundRobin (s : State) (n last : Nat) (host : Bool) : Option Nat :=
  let ok (p : Nat) : Bool := (s.readyVc n p).isSome &&
    (host || (match s.part? p with | some x => !x.sealedShare | none => true))
  let ps := dedupN (s.part.parts.map (·.1) ++ (s.port n).tx.map (·.part))
  let sorted := sortBy (fun p => (p + 256 - (last + 1) % 256) % 256) ps
  sorted.find? ok

/-- The partition that sends a DATA flit in this slot (R377). -/
def State.slotPart (s : State) (n : Nat) : Option Nat :=
  let x := s.port n
  if hostPort n then s.roundRobin n x.lastPart true
  else
    match s.slotOwner n x.slot with
    | some p =>
      if (s.readyVc n p).isSome then some p
      else if (match s.part? p with | some y => y.sealedShare | none => false) then none
      else s.roundRobin n x.lastPart false
    | none => s.roundRobin n x.lastPart false

/-- The port may send DATA now (R368, R385). -/
def LPort.sendsData (x : LPort) : Bool := (x.carries || x.state == .doze) && !x.partnerQuarantined

/-- What fills the slot (R377): a replayed flit, a CTRL flit, a MGMT flit, a DATA flit, an IDLE flit. -/
def State.fillSlot (s : State) (n : Nat) : State :=
  let x := s.port n
  let idle := flitBase 0 0 0 false false 0 0 []
  match x.resend with
  | q :: l => (s.setPort n { x with resend := l }).putFlit n (Tab.getD x.replay q idle)
  | [] =>
    if 1024 ≤ x.replay.length then s.putFlit n idle
    else
      match x.ctrl with
      | c :: l => (s.setPort n { x with ctrl := l }).newFlit n 2 0 true true 0xFFFF c
      | [] =>
        if !x.sendsData then s.putFlit n idle
        else
          let data := s.slotPart n
          let free := match x.mgmtSlot with | some m => decide (m + 16 ≤ x.slot) | none => true
          match (if (free || (s.roundRobin n x.lastPart true).isNone) && decide (0 < x.credit.getD 3 0) then x.nextMgmt else none) with
          | some m => s.sendPart n m
          | none =>
            match data with
            | some p => (match s.readyVc n p with | some vc => s.sendOn n p vc | none => s.putFlit n idle)
            | none => s.putFlit n idle

/-- At slot 0 of a codeword group the five lanes' codewords take their tags (R365, R366). -/
def State.groupTags (s : State) (n : Nat) : State :=
  let x := s.port n
  if x.slot % 10 = 0 ∧ x.state ≠ .doze then s.emitOut (.group n ((List.range 5).map (fun i => x.laneTag x.cw i))) else s

/-- FLIT_SLOT: at a slot start the port fills the slot (R377); slot 0 begins a codeword group (R366). -/
def execFlitSlot (n : Nat) (s : State) : Outc :=
  .next (
    if (s.port n).up then ((s.groupTags n).fillSlot n).updPort n (fun x => { x with slot := x.slot + 1 }) else s)

/-! ## Quarantine (R385, R386) -/

/-- The limit of violations in a window (R385, R386). -/
def State.vioLimit (s : State) (x : LPort) : Nat := if x.state = .probation then cdiv (s.zh 84) 10 else s.zh 84

/-- Messages partly sent on the QP channel go back to their send buffers, and responses owed are dropped (R385, R387). -/
def LPort.dropOwed (x : LPort) : LPort :=
  let gone := x.tx.filterMap (fun t => t.qp.map (·.2))
  { x with tx := x.tx.filter (fun t => t.vc != 1 && t.qp.isNone), outstanding := x.outstanding.filter (fun o => !gone.contains o.tag) }

/-- PORT_QUARANTINED: the violations of the port's window exceed the limit (R385). -/
def execPortQuarantined (n : Nat) (s : State) : Outc :=
  .next (
    let x := s.port n
    if !x.carries || x.vioCount ≤ s.vioLimit x || x.vioWindow != s.now / 1000000 then s
    else
      let y := x.dropOwed
      let s1 := s.setPort n { y with state := .quarantined, partial' := [], rxHeld := (List.range 4).map (fun v => sumN ((x.inbox.filter (fun m => m.vc == v)).map (·.flits))), rxFreed := (List.range 4).map (fun v => (x.rxFreed.getD v 0 + (match Tab.find x.partial' v with | some p => p.flits | none => 0)) % 4096), ctrl := y.ctrl ++ [ctrlBytes 0x06 []], noReadmit := if x.state = .probation then s.now + 60000000 else x.noReadmit }
      (s1.dropWindows n).linkEvent 0x0106 n 0)

/-- CTRL_QUARANTINE: the partner has quarantined this port's link: partly sent QP_SENDs stay in their send buffers, and DATA waits
for the readmission (R385, R387). -/
def execCtrlQuarantine (n : Nat) (s : State) : Outc :=
  .next (if (s.port n).up then s.updPort n (fun x => { (x.dropOwed) with partnerQuarantined := true, partial' := [] }) else s)

/-- CTRL_VIOLATION: the partner reports a violation of this side: it is logged, and LINK_VIOLATION is raised; it counts on the
partner's side (R382). -/
def execCtrlViolation (n code seq : Nat) (s : State) : Outc :=
  .next (if (s.port n).up then (s.logFault 0x0105 0 0 (plcB 0 1 n ||| plcB 1 8 (code ||| seq <<< 32))).linkEvent 0x0105 n (code ||| seq <<< 32) else s)

/-- PORT_READMIT: a quarantined port retrains from ALIGN and enters PROBATION; the answer comes then (R386). -/
def execPortReadmit (m : MsgRef) (body : BitVec 64) (s : State) : Outc :=
  .next (runMsg s m 0 0 (fun s =>
    let n := fldB body.toNat 0 1
    let x := s.port n
    if rsvdSet body.toNat (maskOf [(0, 7, 0)]) then refuseM s .rsvdSet
    else if 13 < n then refuseM s .badParam
    else if !s.portHere n then refuseM s .unitAbsent
    else if x.state != .quarantined then refuseM s .badParam
    else if s.now < x.noReadmit then (s, some (.busy .retryAfter (x.noReadmit - s.now)))
    else (s.setPort n { x with state := .align, keep := false, readmit := some m, trip := none, vioCount := 0 }, none)))

/-- PROBATION_END: 10 s have passed in PROBATION, and the port becomes ACTIVE (R386). -/
def execProbationEnd (n : Nat) (s : State) : Outc :=
  .next (
    let x := s.port n
    if x.state = .probation ∧ x.probationEnd ≤ s.now then s.setPort n { x with state := .active } else s)

/-- H0 sends RATE_CHANGE naming 50 Gb/s, and stops (R381). -/
def State.sendRate (s : State) : State :=
  if (s.port 12).carries then s.newFlit 12 2 0 true true 0xFFFF (ctrlBytes 0x07 [(2, 50)]) else s

/-- Only H0.0 stays, at the doze rate, its cycle counter starting anew with that training (R36); every other port goes to DOWN (R381, R442, R524). -/
def State.portsToDoze (s : State) : State :=
  let s1 := (Tab.keys s.link.ports).foldl (fun (s : State) n => if n = 12 ∨ (s.port n).state = .down then s else s.portDown n) s.sendRate
  s1.updPort 12 (fun x => { x.restart with state := .doze, lanes := [0], spare := 0, trip := none, bufs := x.bufs, credit := x.bufs, cycles := 0 })

/-- CTRL_RATE_CHANGE: H0 goes to the doze rate on H0.0 alone (R381), once its replay buffer is empty (R387). -/
def execCtrlRateChange (n : Nat) (s : State) : Outc :=
  .next (
    let x := s.port n
    if n ≠ 12 ∨ !x.carries ∨ x.replay ≠ [] then s
    else s.setPort n { (x.restart) with state := .doze, lanes := [0], spare := 0, trip := none, bufs := x.bufs, credit := x.bufs, cycles := 0 })

/-! ## Transactions received (R380) -/

/-- The oldest message of its VC whose TXN is this one, without it. -/
def LPort.take (x : LPort) (txn : Nat) : Option (RxMsg × LPort) :=
  let heads := ([0, 1, 2, 3] : List Nat).filterMap (fun v => x.inbox.find? (fun m => m.vc == v))
  match heads.find? (fun m => fldB (ofBytes (m.bytes.take 1)) 0 1 == txn) with
  | none => none
  | some m =>
    match takeFirst (fun o => o == m) x.inbox with
    | some (_, l) => some (m, { x with inbox := l }.release m.vc m.flits)
    | none => none

/-- Take a message of a transaction and act on it. -/
def State.onTxn (s : State) (n txn : Nat) (act : Nat → RxMsg → State → State) : State :=
  match (s.port n).take txn with
  | none => s
  | some (m, x) => act (ofBytes (m.bytes.take 32)) m (s.setPort n x)

/-- The window request a header spells (R272, R379). -/
def winReq (h src kind bytes : Nat) : WinReq :=
  { node := src, window := fld h 10 11 0, part := fld h 1 5 0, key := BitVec.ofNat 64 (fldB h 24 8), off := fldB h 16 8,
    kind := kind, bytes := bytes }

/-- A refused window request: WINDOW_PARTITION and WINDOW_SEALED are violations, sent as WINDOW_VIOLATION to the owner and the
operator, and they freeze the port's master (R272, R383, R505). -/
def State.winRefused (s : State) (n : Nat) (q : WinReq) (tag : Nat) (c : Code) : State :=
  let s1 := s.respond n q.part q.node tag c.link []
  if !c.counts then s1
  else
    let owner := match Tab.find s.xlt.windows q.window with | some w => w.cfg.part | none => 0
    let d := plcB 0 2 q.window ||| plcB 2 2 q.node ||| plcB 4 2 c.link
    let s2 := ((s1.noteViolation n c 0 q.node).event 0x000A owner 0 false 0 0xFFFF d).opEvent 0x000A owner 0 d
    s2.freezeMaster .port n (if c = .windowPartition then violWinPart else violWinSealed) owner q.off

/-- A port whose master is frozen serves no window request (R505). -/
def State.portFrozen (s : State) (n : Nat) : Bool := s.isFrozen .port n

/-- A port's next message of a kind waits in the port's buffers: its partition is frozen (R448). -/
def State.arrivalWaits (s : State) (n txn : Nat) : Bool :=
  match (s.port n).take txn with
  | some (m, _) => s.partFrozen (fld (ofBytes (m.bytes.take 32)) 1 5 0)
  | none => false

/-- A window request is checked (R272): refused, or admitted as DRAM requests of the port's master. One that names no byte is done. -/
def State.winServe (s : State) (n tag node : Nat) (q : WinReq) (data : List (BitVec 8)) (amo : Option (Nat × Nat)) : State :=
  match s.ingress q with
  | .error c => s.winRefused n q tag c
  | .ok l => if l.isEmpty then s.respond n q.part node tag 0 [] else s.admitWin n tag node q l data amo

/-- WIN_READ: an ingress window read is checked and served (R272, R380). -/
def execWinRead (n : Nat) (s : State) : Outc :=
  .next (if s.portFrozen n then s else s.onTxn n 0x04 (fun h m s =>
    s.winServe n (fldB h 2 2) m.src (winReq h m.src 0 (fld h 4 23 0)) [] none))

/-- WIN_WRITE: an ingress window write is checked and served (R272, R380). -/
def execWinWrite (n : Nat) (s : State) : Outc :=
  .next (if s.portFrozen n || s.arrivalWaits n 0x05 then s else s.onTxn n 0x05 (fun h m s =>
    s.winServe n (fldB h 2 2) m.src (winReq h m.src 1 (fld h 4 23 0)) (m.bytes.drop 32) none))

/-- The atomic a WIN_ATOMIC body names (R167, R380), as a bank's sub-operation; none for a code that is none. -/
def winAtomic (c : Nat) : Option Nat :=
  match c with | 0 => some 0 | 1 => some 1 | 2 => some 4 | 3 => some 5 | 4 => some 2 | 5 => some 3 | _ => none

/-- WIN_ATOMIC: an ingress window atomic is checked and served; its line's read gives the old value, and the new one is written as R228 merges
a partial write (R167, R272, R380). The operand stands in body bytes 8-15 (DEDUCED, log entry 15), and a body whose RSVD bits are set or
whose atomic is none is LENGTH_MISMATCH's neighbour HDR_RSVD. -/
def execWinAtomic (n : Nat) (s : State) : Outc :=
  .next (if s.portFrozen n || s.arrivalWaits n 0x06 then s else s.onTxn n 0x06 (fun h m s =>
    let body := ofBytes (m.bytes.drop 32)
    let bad := (s.noteViolation n .hdrRsvd 0 m.src).respond n (fld h 1 5 0) m.src (fldB h 2 2) Code.hdrRsvd.link []
    match winAtomic (fldB body 0 1) with
    | none => bad
    | some sub =>
      if (body >>> 8) % 2 ^ 56 ≠ 0 then bad
      else s.winServe n (fldB h 2 2) m.src (winReq h m.src 2 (atomicBytes sub)) [] (some (sub, fldB body 8 8))))

/-- A line of a window request has come: its bytes, the old ones of an atomic included, or POISON. With the last one the answer leaves and
IN_FLIGHT falls (R269, R272). What the bytes of a poisoned line read as on the link is left open: free values. -/
def State.winLine (s : State) (k line : Nat) (data : Option (List (BitVec 8))) : State :=
  match Tab.find s.xlt.winOps k with
  | none => s
  | some o =>
    let got := match data with | some l => if o.kind = 0 then Memory.writeL o.got (line * 64) l else o.got | none => o.got
    let o1 := { o with got := got, bad := if data.isNone then o.bad ++ [line] else o.bad, left := o.left - 1 }
    if o1.left ≠ 0 then { s with xlt := { s.xlt with winOps := Tab.put s.xlt.winOps k o1 } }
    else
      let body := if o.kind = 1 then [] else o.dpas.map (fun d => if o1.bad.contains (d / 64) then Config.freeByte (s.free + d) else Memory.read o1.got d)
      let windows := Tab.upd s.xlt.windows o.window (fun w => { w with inFlight := w.inFlight - 1 })
      { s with free := s.free + (if o1.bad.isEmpty then 0 else 1), xlt := { s.xlt with winOps := Tab.del s.xlt.winOps k, windows := windows } }.respond o.port o.part o.node o.tag 0 body

/-- QP_SEND: a receive end lands an arriving waybill in its landing slot and enqueues it in LOCAL_Q; the acknowledgement leaves at
the enqueue (R355). While LOCAL_Q is full (R73) or the partition is frozen (R448) the message waits. -/
def execQpSend (n : Nat) (s : State) : Outc :=
  .next (
    if s.arrivalWaits n 0x01 then s else
    match (s.port n).take 0x01 with
    | none => s
    | some (m, px) =>
      let h := ofBytes (m.bytes.take 32)
      let s0 := s.setPort n px
      let q := fld h 12 19 0
      match Tab.find s.part.qpairs q with
      | none => s0
      | some x =>
        if !x.recv || x.port != n || x.part != fld h 1 5 0 then s0
        else
          let w := Waybill.ofNat (ofBytes ((m.bytes.drop 32).take 64))
          let data := m.bytes.drop 96
          if data.length ≠ w.tileBytes + w.scaleBytes + w.metaBytes then s0.flitViolation n .lengthMismatch 0 m.src
          else
            let o1 := roundUp w.tileBytes 64
            let o2 := o1 + roundUp w.scaleBytes 64
            let ack (s : State) (c : Nat) : State :=
              s.sendMsg n x.part 1 m.src (txnBytes 0x02 x.peerPart (fldB h 2 2) 0 0 q c 0 0 [])
            let blk := fld x.landingAddr 0 24 19
            let line := fld x.landingAddr 0 18 0 + x.count % x.slots * (x.landingBytes / 64)
            let w1 := { w with resetGen := s.genOf x.part, context := x.context, srcStation := 0xFFFF, rejectCode := 0, fenceId := 0, fenceOp := 0, fenceDelta := 0 }
            if x.landingBytes < o2 + w.metaBytes then
              let s1 := s0.setQpair q { x with count := x.count + 1 }
              let c := match s.queue? x.localQ with | some y => y.consumer | none => .none
              let stn := consumerStation c
              let s2 := match s1.station? x.part stn with
                | some t => s1.reject x.part stn t x.localQ w1 .slotOverflow (rankPort n)
                | none => s1.rejectEvent x.part 0xFFFF x.localQ w1 .slotOverflow none
              ack s2 (x.count + 1)
            else
              match s.queue? x.localQ with
              | none => s0
              | some y =>
                if s.queueFull x.localQ then s
                else
                  let s1 := match s.phys x.part blk with
                    | some b => ((s0.sliceWrite b (line * 64) (data.take w.tileBytes)).sliceWrite b (line * 64 + o1) ((data.drop w.tileBytes).take w.scaleBytes)).sliceWrite b (line * 64 + o2) (data.drop (w.tileBytes + w.scaleBytes))
                    | none => s0
                  let w2 := if w.kind ≠ 0 then w1 else { w1 with tileBlock := blk, tileOff := line, scaleBlock := if w.scaleBytes = 0 then 0 else blk, scaleOff := if w.scaleBytes = 0 then 0 else line + o1 / 64, metaBlock := if w.metaBytes = 0 then 0 else blk, metaOff := if w.metaBytes = 0 then 0 else line + o2 / 64 }
                  let s2 := s1.setQpair q { x with count := x.count + 1 }
                  ack (s2.enqueueNow x.localQ y w2) (x.count + 1))

/-- QP_ACK: the receiver has enqueued the waybill, and the sender performs its fence action (R355). -/
def execQpAck (n : Nat) (s : State) : Outc :=
  .next (s.onTxn n 0x02 (fun h _ s =>
    let x := s.port n
    match takeFirst (fun o => o.tag == fldB h 2 2) x.outstanding with
    | none => s
    | some (o, l) =>
      let s1 := s.setPort n { x with outstanding := l }
      match o.use with
      | .qpSend q =>
        (match Tab.find s1.part.qpairs q with
         | none => s1
         | some e =>
           match takeFirst (fun u => u.1 == o.tag) e.unacked with
           | none => s1
           | some (u, rest) => (s1.setQpair q { e with unacked := rest }).fenceAction e.part u.2.1 (rankPort n) (srcCode 6 n) u.2.1.abandoned)
      | _ => s1))

/-- QP_CREDIT: the receive end has released landing slots; ADDR holds the arrivals released since open (R355, R380). -/
def execQpCredit (n : Nat) (s : State) : Outc :=
  .next (s.onTxn n 0x03 (fun h m s =>
    let q := fld h 12 19 0
    let a := fldB h 16 8
    { s with part := { s.part with qpairs := Tab.all s.part.qpairs (fun _ e =>
      if e.recv || e.port != n then e
      else if e.peerNode == m.src && e.peerQueue == q then
        (if e.returned < a then { e with credits := e.credits + (a - e.returned), returned := a } else e)
      else { e with oldPeers := e.oldPeers.map (fun o => if o.node == m.src && o.queue == q && o.returned < a then { o with credits := o.credits + (a - o.returned), returned := a } else o) }) } }))

/-- LANDING_FENCE_CREDIT: LANDING_FENCE has reached F0 + k + 1, and the credit for arrival k is returned (R355); a closing receive
end whose slots are all released is closed (R357). -/
def execLandingFenceCredit (q : Nat) (s : State) : Outc :=
  .next (
    match Tab.find s.part.qpairs q with
    | none => s
    | some x =>
      if !x.recv then s
      else
        let go := decide (x.returned < x.count) && fenceReaches (s.fenceWord x.landingFence) (x.f0 + x.returned + 1)
        let y := if go then { x with returned := x.returned + 1 } else x
        let s1 := if go then (s.setQpair q y).sendMsg x.port x.part 1 x.peerNode (txnBytes 0x03 x.peerPart 0 0 0 q y.returned 0 0 []) else s
        match y.closing with
        | some m =>
          if y.drained then (({ s1 with part := { s1.part with qpairs := Tab.del s1.part.qpairs q } } : State).storeDesc q).answerMsg m (.ok 0) else s1
        | none => s1)

/-- What a window's answer on the link means to its issuer (R272, R273). -/
def xcodeOf (status : Nat) : Option XCode :=
  if status = Code.windowInvalid.link then some .windowInvalid
  else if status = Code.windowSource.link then some .windowSource
  else if status = Code.windowKey.link then some .windowKey
  else if status = Code.windowPartition.link then some .windowPartition
  else if status = Code.windowRange.link then some .windowRange
  else if status = Code.windowPerm.link then some .windowPerm
  else if status = Code.windowSealed.link then some .windowSealed
  else none

/-- The context of the start an engine runs. -/
def State.engContext (s : State) (e : Nat) : Nat :=
  match (s.engine? e).bind (·.start) with
  | some st => (match st.inputs with | i :: _ => i.2.context | [] => 0)
  | none => 0

/-- The answer to an engine's access of a remote window: the line, or a write's status; else a fault or a violation of the engine (R273); a
status that R273 does not name leaves the access unanswered: LINK_UNAVAILABLE (R380). -/
def State.windowAnswer (s : State) (e part va txn status : Nat) (body : List (BitVec 8)) : State :=
  if Tab.find s.dram.txns txn ≠ some (.engine e) then { s with dram := { s.dram with txns := Tab.del s.dram.txns txn } }
  else if status = 0 then s.endRemote e va txn (some body)
  else
    let s1 := s.endRemote e va txn none
    match xcodeOf status with
    | some c => s1.xlateFault e part (s1.engContext e) va c
    | none => s1.programFault e .linkUnavailable 0xFFFF va

/-- RSP: a response to an outstanding request arrives (R380). One whose request belongs to an older reset generation has no effect
(R426). -/
def execRsp (n : Nat) (s : State) : Outc :=
  .next (s.onTxn n 0x07 (fun h m s =>
    let x := s.port n
    match takeFirst (fun o => o.tag == fldB h 2 2) x.outstanding with
    | none => s
    | some (o, l) =>
      let s1 := s.setPort n { x with outstanding := l }
      match o.use with
      | .window e va k => if o.gen ≠ s.genOf o.part then s1.endRemote e va k none else s1.windowAnswer e o.part va k (fldB h 8 2) (m.bytes.drop 32)
      | .hostRead (some key) => if o.gen ≠ s.genOf o.part then s1 else { s1 with fab := { s1.fab with slices := Memory.writeL s1.fab.slices key (m.bytes.drop 32) } }
      | .hostRead none => s1
      | .qpSend _ => s1))

/-- HOST_READ: the module issues a read of host memory for a partition (R380); the data goes to a slice key, or to the front
end. -/
def execHostRead (n part addr len : Nat) (dst : Option Nat) (s : State) : Outc :=
  .next (if hostPort n && (s.port n).carries then s.request n part 0x08 addr len (.hostRead dst) [] else s)

/-- HOST_WRITE: the module issues a posted write of host memory (R380). -/
def execHostWrite (n part addr : Nat) (data : List (BitVec 8)) (s : State) : Outc :=
  .next (
    if hostPort n && (s.port n).carries then
      (({ s with hostMem := Memory.writeL s.hostMem addr data }).sendMsg n part 0 0xFFFF (txnBytes 0x09 part 0 0 0 0 addr 0 data.length data)).emitOut (.link n 0x09 [part, addr, data.length])
    else s)

/-- NOTIFY: the module asks the adapter to interrupt a partition's function for a ring (R380). -/
def execNotify (n part queue : Nat) (s : State) : Outc :=
  .next (
    if hostPort n && (s.port n).carries then
      (s.sendMsg n part 0 0xFFFF (txnBytes 0x0C part 0 0 0 queue 0 0 0 [])).emitOut (.link n 0x0C [part, queue])
    else s)

/-- DOORBELL_TXN: an 8-byte doorbell arrives for the function of PARTITION (R309, R380). -/
def execDoorbellTxn (n : Nat) (s : State) : Outc :=
  .next (s.onTxn n 0x0A (fun h m s =>
    let p := fld h 1 5 0
    let off := fldB h 16 8
    let w := ofBytes (m.bytes.drop 32)
    if off % 8 ≠ 0 ∨ off < 0x10000 + p * 0x1000 ∨ 0x10000 + (p + 1) * 0x1000 ≤ off then s
    else s.doorbell p (fld w 0 31 28) w))

/-! ## The configuration space (R305-R308, R341) -/

/-- STATE of the identity header (R306). -/
def DevState.num : DevState → Nat
  | .starting => 0 | .ready => 1 | .doze => 2 | .withdrawn => 3 | .recovery => 4 | .halted => 5

/-- The identity header (R306). -/
def State.identHeader (s : State) : Nat :=
  plcB 0 2 0x5D7A ||| plcB 2 2 0x1200 ||| plcB 4 1 (if s.sys.variantT then 1 else 2) ||| plcB 5 1 s.sys.state.num |||
  plcB 6 2 s.sys.nodeId ||| plcB 8 8 s.sys.serial ||| plcB 16 4 0x1000 ||| plcB 20 4 s.sys.capLength ||| plcB 24 4 0x10000 |||
  plcB 28 4 s.sys.fwPorter ||| plcB 32 4 s.sys.fwInnkeeper ||| plcB 36 4 s.sys.haltCode

/-- The partition page (R341). -/
def State.partPage (p : Nat) (x : Partition) : Nat :=
  let bm := (List.range 60).foldl (fun a n => a ||| plcB (0x20 + n) 1 (match Tab.find x.blockMap n with
    | some b => b ||| (if x.moving.contains n then 0x80 else 0)
    | none => 0xFF)) 0
  let runs := (List.zip (List.range x.runs.length) x.runs).foldl (fun a r => a ||| plcB (0x60 + r.1 * 16) 8 r.2.1 ||| plcB (0x68 + r.1 * 16) 4 r.2.2) 0
  plc 0 5 0 p ||| plcF 1 1 x.coded ||| plcF 1 0 x.sealedShare ||| plcB 2 2 x.epoch ||| plcB 4 4 x.stripes |||
  plcB 8 2 x.runs.length ||| plcB 10 1 x.resetGen ||| plcB 0xC 4 x.queues ||| plcB 0x10 4 x.fences ||| plcB 0x14 4 x.sessions |||
  plcB 0x18 2 x.powerW ||| plcB 0x1A 2 x.companion ||| bm ||| runs

/-- A byte of the configuration space as the function of partition p reads it (R305, R307, R341). -/
def State.cfgByte (s : State) (p off : Nat) : BitVec 8 :=
  if off < 0x100 then BitVec.ofNat 8 (s.identHeader >>> (8 * off))
  else if 0x1000 ≤ off ∧ off < 0x5000 then (if s.sys.capLength = 0 then 0 else Memory.read s.sys.capTable (off - 0x1000))
  else if 0x10000 + p * 0x1000 ≤ off ∧ off < 0x10000 + (p + 1) * 0x1000 then
    match s.part? p with
    | some x => BitVec.ofNat 8 (State.partPage p x >>> (8 * (off % 0x1000)))
    | none => 0
  else 0

/-- CFG_READ: a configuration read from the adapter is answered (R305, R380). -/
def execCfgRead (n : Nat) (s : State) : Outc :=
  .next (s.onTxn n 0x0B (fun h m s =>
    let p := fld h 1 5 0
    let off := fldB h 16 8
    s.respond n p m.src (fldB h 2 2) 0 ((List.range (fld h 4 23 0)).map (fun i => s.cfgByte p (off + i)))))

/-! ## NODE_ASSIGN (R388) -/

/-- Something names another node: a queue pair, an outbound window entry, a collective group or a companion (R388). -/
def State.nodeInUse (s : State) : Bool :=
  !s.part.qpairs.isEmpty || s.xlt.out.any (fun w => w.2.valid) || !s.link.groups.isEmpty ||
  s.part.parts.any (fun p => p.2.companion != 0xFFFF)

/-- NODE_ASSIGN: the module's node ID (R334, R388). -/
def execNodeAssign (m : MsgRef) (body : BitVec 64) (s : State) : Outc :=
  .next (runMsg s m 3 0 (fun s =>
    let id := fldB body.toNat 0 2
    if rsvdSet body.toNat (maskOf [(0, 15, 0)]) then refuseM s .rsvdSet
    else if 0x8000 ≤ id then refuseM s .badParam
    else if id == s.sys.nodeId then okM s 0
    else if s.nodeInUse then refuseM s .inUse
    else okM { s with sys := { s.sys with nodeId := id } } 0))

end Sys2Proof.Machine
end

