-- ==== Sys2Proof/Machine/Gathers.lean ====
section
/-! DEFINITION. Sys2Proof/Machine/Gathers.lean: memory as engines reach it through their BTU, and gathers (09_translation R251, R256-R258,
R268, R273; 07_conditional_computation R210-R212; R410). -/

namespace Sys2Proof.Machine

/-! ## Lines that an engine reaches by virtual address (R251, R256, R268, R273) -/

/-- Why an access cannot take place, or not yet: a failure of R273, POISON (R239), a page held or an answer still to come, no translation in
the BTU, or a line of a remote window still to be asked for. -/
inductive EStop where
  | fault (c : XCode) (va : Nat)
  | poison (va : Nat)
  | wait
  | miss (va : Nat) (write : Bool)
  | ask (w : OutWin) (off va : Nat)
deriving DecidableEq, Repr

/-- The engine that accesses: its ID, its BTU's block, partition and context. -/
structure EngRef where
  id : Nat
  block : Nat
  part : Nat
  ctx : Nat
deriving DecidableEq, Repr

/-- The pieces of a byte range by line: address and length. -/
def linePieces : (fuel va n : Nat) → List (Nat × Nat)
  | 0, _, _ => []
  | fuel + 1, va, n => if n = 0 then [] else (va, min n (64 - va % 64)) :: linePieces fuel (va + min n (64 - va % 64)) (n - min n (64 - va % 64))

/-- The pieces of `n` bytes. -/
def piecesOf (va n : Nat) : List (Nat × Nat) := linePieces (n / 64 + 2) va n

/-- Where an address leads by the BTU's entry of its page (R256); none: it misses. -/
def State.engXlate (s : State) (g : EngRef) (va : Nat) (write : Bool) : Option XRes :=
  match (s.btu g.block).lookup g.part g.ctx (va / 4096), s.part? g.part with
  | some e, some x => some (s.leaf g.part x e.dte va write)
  | _, _ => none

/-- The line of a remote window that the engine has asked for. -/
def State.remoteLine (s : State) (e va : Nat) : Option RemoteLine :=
  s.xlt.remote.find? (fun x => x.engine == e && x.va == va / 64 * 64)

/-- A piece of a line as an engine reads it. -/
def State.engPiece (s : State) (g : EngRef) (va n : Nat) : Except EStop (List (BitVec 8)) :=
  match s.engXlate g va false with
  | none => .error (.miss va false)
  | some (.bad c) => .error (.fault c va)
  | some (.host a) => .ok (Memory.readL s.hostMem a n)
  | some (.dram d) => if s.pageHeld d then .error .wait else if s.poisoned d then .error (.poison va) else .ok (s.dramL d n)
  | some (.window i off) =>
    match s.remoteLine g.id va, Tab.find s.xlt.out (g.part * 256 + i) with
    | some x, _ => (match x.data with | some l => .ok ((l.drop (va % 64)).take n) | none => .error .wait)
    | none, some w => .error (.ask w (off / 64 * 64) (va / 64 * 64))
    | none, none => .error (.fault .badDte va)

/-- The bytes of several pieces, or why the first of them cannot be read. -/
def State.engReads (s : State) (g : EngRef) : List (Nat × Nat) → Except EStop (List (BitVec 8))
  | [] => .ok []
  | x :: l =>
    match s.engPiece g x.1 x.2 with
    | .error e => .error e
    | .ok bs => (match State.engReads s g l with | .ok r => .ok (bs ++ r) | .error e => .error e)

/-- Why a piece cannot be written, if it cannot. -/
def State.engNoWrite (s : State) (g : EngRef) (va : Nat) : Option EStop :=
  match s.engXlate g va true with
  | none => some (.miss va true)
  | some (.bad c) => some (.fault c va)
  | some (.dram d) => if s.pageHeld d then some .wait else none
  | some (.window i _) =>
    (match Tab.find s.xlt.out (g.part * 256 + i) with
     | some w => if (s.port w.port).carries then none else some (.ask w 0 va)
     | none => some (.fault .badDte va))
  | some (.host _) => none

/-- A window request of an engine leaves by its entry's port, with the entry's node, window, partition and key and the offset (R268, R380);
a port that is not up makes it LINK_UNAVAILABLE. -/
def State.askWindow (s : State) (g : EngRef) (va txn : Nat) (w : OutWin) (off length : Nat) (body : List (BitVec 8)) : State :=
  let x := s.port w.port
  if !x.carries then s.programFault g.id .linkUnavailable 0xFFFF va
  else
    let k := s.dram.nextReq
    let t := x.freeTag
    let s1 := { s with dram := { s.dram with txns := Tab.put s.dram.txns k (.engine g.id), nextReq := k + 1 } }
    let s2 := s1.setPort w.port { x with nextTag := (t + 1) % 65536, outstanding := x.outstanding ++ [{ tag := t, part := g.part, gen := s.genOf g.part, use := .window g.id va k }] }
    (s2.sendMsg w.port g.part 0 w.node (txnBytes txn w.part t 0 w.window 0 off w.key length body)).emitOut (.link w.port txn [w.part, t, off, length])

/-- A page's entry has been used (R261). -/
def State.usedPage (s : State) (g : EngRef) (va : Nat) : State :=
  let x := s.btu g.block
  let k := va / 4096 % 256
  let set := Tab.all (Tab.getD x.sets k []) (fun _ y => if y.part = g.part ∧ y.context = g.ctx ∧ y.vpage = va / 4096 then { y with prefetched := false } else y)
  s.setBtu g.block { x with sets := Tab.put x.sets k set }

/-- A line of DRAM that an engine reads or writes is a transaction of its master (R410). -/
def State.engTxn (s : State) (g : EngRef) (dpa : Nat) (write : Bool) : State :=
  match masterOrder g.id with
  | some o => s.transact g.part o { id := 0, line := dpa / 64, write := write, data := if write then List.replicate 64 0 else [], who := .engine g.id }
  | none => s

/-- What else a read of a piece leaves: its page's entry used, its transaction, and the remote line it took consumed. -/
def State.noteRead (s : State) (g : EngRef) (va : Nat) : State :=
  let s1 := s.usedPage g va
  match s.engXlate g va false with
  | some (.dram d) => s1.engTxn g d false
  | some (.window _ _) => { s1 with xlt := { s1.xlt with remote := s1.xlt.remote.filter (fun x => !(x.engine == g.id && x.va == va / 64 * 64)) } }
  | _ => s1

def State.noteReads (s : State) (g : EngRef) (l : List (Nat × Nat)) : State := l.foldl (fun (s : State) x => s.noteRead g x.1) s

/-- Write a piece that may be written. -/
def State.putPiece (s : State) (g : EngRef) (va : Nat) (l : List (BitVec 8)) : State :=
  let s1 := s.usedPage g va
  match s.engXlate g va true with
  | some (.dram d) => (s1.dramWriteLine (d / 64) (d % 64) l).engTxn g d true
  | some (.host a) => { s1 with hostMem := Memory.writeL s1.hostMem a l }
  | some (.window i off) => (match Tab.find s1.xlt.out (g.part * 256 + i) with | some w => s1.askWindow g va 0x05 w off l.length l | none => s1)
  | _ => s1

/-- The pieces in turn. -/
def State.putPieces (s : State) (g : EngRef) : List (Nat × Nat) → List (BitVec 8) → State
  | [], _ => s
  | x :: l, bs => State.putPieces (s.putPiece g x.1 (bs.take x.2)) g l (bs.drop x.2)

/-- Write bytes at an address: all of them, or, where one piece cannot be written now, none. -/
def State.engWrite (s : State) (g : EngRef) (va : Nat) (l : List (BitVec 8)) : Except EStop State :=
  match (piecesOf va l.length).findSome? (fun x => s.engNoWrite g x.1) with
  | some e => .error e
  | none => .ok (s.putPieces g (piecesOf va l.length) l)

/-- The walk slot of an engine's misses (R251, R256): a carrier's first stream context, and of a collective engine the slot it holds, else the
first free one of the four of fixed units (DESIGN CHOICE, log entry 51). -/
def State.engSlot (s : State) (g : EngRef) : Option Nat :=
  if engClass g.id = 2 then some (engNum g.id % 4 * 16)
  else ([64, 65, 66, 67] : List Nat).find? (fun k => !Tab.has (s.btu g.block).walks (demandSlot k))

/-- An access misses: its demand walk starts in the engine's slot, unless one of the engine's is under way (R257, R258). -/
def State.engMiss (s : State) (g : EngRef) (va : Nat) (write : Bool) : State :=
  let x := s.btu g.block
  if (Tab.vals x.walks).any (fun w => w.engine == g.id && !w.prefetch) then s
  else
    match s.engSlot g with
    | none => s
    | some k =>
      if Tab.has x.walks (demandSlot k) then s
      else s.startWalk g.block (demandSlot k) x { engine := g.id, part := g.part, context := g.ctx, look := [va], write := write } va false

/-- What becomes of an engine whose access stops: a failure ends its start or freezes it (R239, R273); a miss starts its walk; a line of a
window is asked for; else it waits. -/
def State.engStop (s : State) (g : EngRef) : EStop → State
  | .fault c va => s.xlateFault g.id g.part g.ctx va c
  | .poison va => s.programFault g.id .poison 0xFFFF va
  | .wait => s
  | .miss va write => s.engMiss g va write
  | .ask w off va =>
    if (s.port w.port).carries then
      { (s.askWindow g va 0x04 w off 64 []) with xlt := { s.xlt with remote := s.xlt.remote ++ [{ engine := g.id, va := va, data := none }] } }
    else s.programFault g.id .linkUnavailable 0xFFFF va

/-- A failure that ends the start or freezes the engine. -/
def EStop.final : EStop → Bool
  | .fault _ _ => true
  | .poison _ => true
  | _ => false

/-! ## Gather (R210-R212) -/

/-- One index entry (R211): an item number to fetch, skipped, or skipped and counted. -/
inductive GItem where
  | fetch (item pos : Nat)
  | skip
  | out
deriving DecidableEq, Repr

/-- The entries of the index tile at a key, in row-major order (R211). -/
def State.gatherEntries (s : State) (k : Nat) (w : Waybill) (nItems : Nat) : List GItem :=
  (List.range (w.rows * w.cols)).map (fun i =>
    let v := ofBytes (s.keyRead (k + i / w.cols * w.rowPitch + i % w.cols * 4) 4)
    if v = 0xFFFFFFFF then .skip
    else if w.format = 0x0A ∧ 2 ^ 31 ≤ v then .out
    else if nItems ≤ w.arg % 2 ^ 32 + v then .out
    else .fetch (w.arg % 2 ^ 32 + v) i)

/-- The items fetched, with their index positions. -/
def fetched (l : List GItem) : List (Nat × Nat) := l.filterMap (fun x => match x with | .fetch i p => some (i, p) | _ => none)

/-- Items in groups of one output tile. -/
def chunks (n : Nat) : (fuel : Nat) → List (Nat × Nat) → List (List (Nat × Nat))
  | 0, _ => []
  | f + 1, l => if l.isEmpty then [] else l.take n :: chunks n f (l.drop n)

/-- The output waybills of a gather (R211). -/
def gatherEmits (r count : Nat) (w : Waybill) (gs : List (List (Nat × Nat))) : List Waybill :=
  let d := placeAt r 20
  let en := bit r 38 0
  let base : Waybill := { context := w.context, requestId := w.requestId, originCol := w.originCol, originRow := w.originRow, routeTag := fldB r 36 2, fenceId := if en then fldB r 40 2 else 0, fenceOp := if en then 1 else 0, fenceDelta := if en then 1 else 0 }
  if gs.isEmpty then [{ base with kind := 1, last := w.last, originCol := 0, originRow := 0 }]
  else
    (List.zip (List.range gs.length) gs).map (fun (y : Nat × List (Nat × Nat)) =>
      let k := (count + y.1) % fldB r 28 1
      { base with kind := 0, last := w.last && decide (y.1 + 1 = gs.length), tileBlock := d.blk, tileOff := d.off / 64 + k * (fldB r 24 4 / 64), format := fld r 29 4 0, cols := fldB r 30 2, rows := y.2.length * (fldB r 8 4 / fldB r 32 2), rowPitch := fldB r 32 2, arg := y.2.length * 2 ^ 32 + (match y.2 with | z :: _ => z.2 | [] => 0) })

/-- Output numbers of the station that its gathers under way have taken. -/
def State.outsTaken (s : State) (t : Station) : Nat :=
  sumN (t.starts.map (fun e => match ((s.engine? e).bind (·.start)).bind (fun st => if st.ended then none else st.gather) with | some g => g.tiles | none => 0))

/-- The items from the `j`-th on, up to the first that cannot be read now: the bytes they put at their places, the pieces read, how many items
are then copied, and why it stops. -/
def State.gatherItems (s : State) (g : EngRef) (r dst first : Nat) : (j : Nat) → List (Nat × Nat) → List (Nat × BitVec 8) × List (Nat × Nat) × Nat × Option EStop
  | j, [] => ([], [], j, none)
  | j, (i, _) :: l =>
    let n := fldB r 8 4
    let ps := piecesOf ((fldB r 0 6 + i * fldB r 12 4) % 2 ^ 48) n
    match s.engReads g ps with
    | .error e => ([], [], j, some e)
    | .ok bs =>
      let per := fldB r 34 2
      let y := State.gatherItems s g r dst first (j + 1) l
      (keyed (dst + (first + j / per) % fldB r 28 1 * fldB r 24 4 + j % per * n) bs ++ y.1, ps ++ y.2.1, y.2.2.1, y.2.2.2)

/-- A gather copies what it can of its items; with the last one its program is at its end (R211, R212). -/
def State.gatherRun (s : State) (e : Nat) (x : Engine) (st : Start) (g : GatherRun) (es : List GItem) (dst : Nat) : State :=
  let r := x.rec64
  let w := st.wb
  let ref : EngRef := { id := e, block := engNum e / 4, part := x.part, ctx := w.context }
  let y := s.gatherItems ref r dst g.first g.copied ((fetched es).drop g.copied)
  let s1 := (s.writeBytes (.carrier (engNum e)) x.part y.1).noteReads ref y.2.1
  match y.2.2.2 with
  | some z => (s1.setEngine e { x with start := some { st with gather := some { g with copied := y.2.2.1 } } }).engStop ref z
  | none =>
    let k := stnKey x.part x.station
    let s2 := { s1 with unit := { s1.unit with outs := Tab.put s1.unit.outs k (Tab.getD s1.unit.outs k 0 + g.tiles) } }
    s2.setEngine e { x with start := some { st with emits := s.wellFormedEmits x.part (gatherEmits r g.first w (chunks (fldB r 34 2) (w.rows * w.cols) (fetched es))), gather := some { g with copied := y.2.2.1 }, ended := true } }

/-- GATHER_START: a gather carrier reads its index tile and copies the items it names into slices (R209-R212), or goes on with that: it waits
while its destination slots are guarded (R201), where a page misses its BTU, is held, or lies in a remote window whose answer is still to
come, and pauses while carrier 3 refills a hot ring (R72). -/
def execGatherStart (carrier : Nat) (s : State) : Outc :=
  .next (
    let e := 0x2000 + carrier
    match s.unitStart e with
    | none => s
    | some (x, st, t) =>
      let r := x.rec64
      let w := st.wb
      let refilling := carrier % 4 == 3 && s.stn.queues.any (fun q => q.2.refill != 0 && (q.2.placed.bind (fun a => s.phys q.2.part a.1)) == some (carrier / 4))
      if t.kind != 6 || st.ended || refilling || !s.blockRuns (carrier / 4) then s
      else if !s.ctxLive x.part w.context then s.endRevoked e x st
      else if w.kind != 0 then s.rejectStart e x st t .badInput
      else if w.format != 0x0B && w.format != 0x0A then s.rejectStart e x st t .badIndex
      else
        match s.keyOf x.part w.tileBlock (w.tileOff * 64), s.keyOf x.part (placeAt r 20).blk (placeAt r 20).off with
        | some k, some dst =>
          let es := s.gatherEntries k w (fldB r 16 4)
          (match st.gather with
           | some g => s.gatherRun e x st g es dst
           | none =>
             let n := (chunks (fldB r 34 2) (w.rows * w.cols) (fetched es)).length
             let first := Tab.getD s.unit.outs (stnKey x.part x.station) 0 + s.outsTaken t
             if 16 < n || fldB r 28 1 < n then s.rejectStart e x st t .slotOverflow
             else if !s.slotFree e (bit r 38 0) (fldB r 40 2) (first + n - 1) (fldB r 28 1) then s
             else
               let nOut := (es.filter (· == GItem.out)).length
               let s0 := s.dropTxns e
               let s1 := if nOut = 0 then s0 else s0.event 0x0008 x.part w.context true 0 0xFFFF nOut
               (s1.readLines (.carrier carrier) x.part ((List.range w.rows).flatMap (fun i => linesOf (k + i * w.rowPitch) (packedRow w.format w.cols)))).gatherRun e x st { first := first, tiles := n, copied := 0 } es dst)
        | _, _ => s.freezeEngine e violUnbound (sliceKey w.tileBlock (w.tileOff * 64)))

/-- GATHER_COMMIT: after the last write, and once its transactions are complete, the gather commits (R211, R212). -/
def execGatherCommit (carrier : Nat) (s : State) : Outc :=
  .next (
    match s.unitStart (0x2000 + carrier) with
    | some (_, st, t) => if t.kind == 6 && (st.faulted || !s.engBusy (0x2000 + carrier)) then s.unitCommit (0x2000 + carrier) else s
    | none => s)

end Sys2Proof.Machine
end

