-- ==== Sys2Proof/Machine/FabricJobs.lean ====
section
/-! DEFINITION. Sys2Proof/Machine/FabricJobs.lean: collective groups, collective engines and pace (14_fabric_jobs R389-R409). -/

namespace Sys2Proof.Machine

/-! ## Collective groups (R390, R391) -/

def collectiveGroupMask : List (Nat × Nat × Nat) :=
  [(0, 5, 0), (1, 7, 0), (2, 15, 0), (4, 15, 0), (6, 15, 0), (8, 15, 0), (10, 5, 0), (11, 3, 0), (12, 7, 0)]

/-- Groups are keyed partition * 256 + GROUP. -/
def groupKey (p g : Nat) : Nat := p * 256 + g

def State.group? (s : State) (p g : Nat) : Option Group := Tab.find s.link.groups (groupKey p g)

/-- The collective start that runs on a port's engine. -/
def State.coll? (s : State) (n : Nat) : Option CollRun := Tab.find s.link.colls n

def State.setColl (s : State) (n : Nat) (c : CollRun) : State := { s with link := { s.link with colls := Tab.put s.link.colls n c } }
def State.delColl (s : State) (n : Nat) : State := { s with link := { s.link with colls := Tab.del s.link.colls n } }

/-- Write bytes the spec leaves unspecified over a context's buffer: free values. -/
def State.scramble (s : State) (p c va n : Nat) : State :=
  s.writeVAL p c va ((List.range n).map (fun i => Config.freeByte (s.free + va + i)))

/-- Bytes of an element. -/
def collElem (r : Nat) : Nat := if fld r 1 4 0 = 0x07 then 2 else 4

/-- A running start of the group ends as a program fault with MEMBER_LOST, and its buffers hold unspecified values (R403). -/
def State.memberLost (s : State) (p g : Nat) : State :=
  s.link.colls.foldl (fun s c =>
    let e := 0x5000 + c.1
    match s.unitStart e with
    | none => s
    | some (x, st, _) =>
      if x.part ≠ p ∨ c.2.group ≠ g then s
      else
        let r := x.rec64
        let w := st.wb
        let n := fldB r 24 4
        let s1 := s.scramble p w.context (fldB r 8 6) (n * collElem r)
        let s2 := if bit r 1 5 then s1.scramble p w.context (fldB r 16 6) (n * 4) else s1
        ({ s2 with free := s2.free + 1 }.delColl c.1).programFault e .memberLost 0xFFFF 0) s

/-- R391's checks in order. -/
def collectiveGroupBody (r : Nat) (s : State) : MsgRes :=
  let p := fld r 0 5 0
  let g := fldB r 1 1
  let n := fldB r 2 2
  let port := fld r 11 3 0
  let cur := s.group? p g
  if !s.livePart p then refuseM s .badId
  else if port ≤ 11 && !(s.portPresent port && s.sys.variantT) then refuseM s .unitAbsent
  else if bodyRsvd r collectiveGroupMask then refuseM s .rsvdSet
  else if reservedPart (fld r 10 5 0) then refuseM s .badId
  else if n < 2 || 32768 < n || n ≤ fldB r 4 2 || 11 < port ||
      (match cur with | some x => x.gen == fldB r 12 1 | none => false) then refuseM s .badParam
  else if (match s.part? p with | some x => Tab.getD x.portShare port 0 | none => 0) == 0 then refuseM s .inUse
  else
    let x : Group := { members := n, rank := fldB r 4 2, nextNode := fldB r 6 2, prevNode := fldB r 8 2, nextPart := fld r 10 5 0, port := port, gen := fldB r 12 1 }
    let s1 := s.memberLost p g
    okM { s1 with link := { s1.link with groups := Tab.put s1.link.groups (groupKey p g) x } } 0

/-- COLLECTIVE_GROUP: a member's view of a ring (R390, R391). -/
def execCollectiveGroup (m : MsgRef) (body : BitVec 128) (s : State) : Outc :=
  .next (runMsg s m 3 (fld body.toNat 0 5 0) (collectiveGroupBody body.toNat))

/-- The fabric manager reports a node lost: the unsent waybills of the partition's queue pairs for an old peer there are consumed with
ABANDONED, oldest first; one whose message is on its way is sent (R356, R59). -/
def State.loseOldPeer (s : State) (p node : Nat) : State :=
  s.part.qpairs.foldl (fun s e =>
    let x := e.2
    if x.part != p || x.recv then s
    else
      let lost := fun (w : Waybill) => match x.oldPeers.find? (fun o => epochOlder w.epoch o.epoch) with | some o => o.node == node | none => false
      let out := x.buffer.take (if (s.port x.port).tx.any (fun t => t.qp.map (fun u => u.1) == some e.1) then 1 else 0)
      let rest := x.buffer.drop out.length
      (rest.filter lost).foldl (fun (s : State) w => s.fenceAction p w (rankPort x.port) (srcCode 6 x.port) true)
        (s.setQpair e.1 { x with buffer := out ++ rest.filter (fun w => !lost w) })) s

/-- MEMBER_LOST: every running start of the group ends with MEMBER_LOST (R403); queue pairs give up their old peers on that node (R356). -/
def execMemberLost (m : MsgRef) (body : BitVec 64) (s : State) : Outc :=
  .next (runMsg s m 0 0 (fun s =>
    let p := fldB body.toNat 0 1
    if !s.livePart p then refuseM s .badId
    else if bodyRsvd body.toNat [(0, 7, 0), (1, 7, 0), (2, 15, 0)] then refuseM s .rsvdSet
    else okM ((s.memberLost p (fldB body.toNat 1 1)).loseOldPeer p (fldB body.toNat 2 2)) 0))

/-! ## The collective station's parameters (R392-R394) -/

def collectiveMask : Nat :=
  maskOf [(0, 1, 0), (1, 5, 0), (2, 7, 0), (8, 47, 0), (16, 47, 0), (24, 31, 0)]

/-- A parameter record that fails R393 or R394 is answered at the bind; `port` is the engine's. -/
def collectiveBad (s : State) (p port r : Nat) : Option Ans :=
  let f := fld r 1 4 0
  if rsvdSet r collectiveMask then some (.refused .rsvdSet 0)
  else if fld r 0 1 0 == 3 then some (badParam 0 0)
  else if f != 0x09 && f != 0x07 then some (badParam 1 0)
  else if bit r 1 5 && f != 0x09 then some (badParam 1 5)
  else
    match s.group? p (fldB r 2 1) with
    | none => some (badParam 2 0)
    | some g =>
      if g.port != port then some (badParam 2 0)
      else if fldB r 8 6 % 64 != 0 then some (badParam 8 0)
      else if !bit r 1 5 && fldB r 16 6 != 0 then some (badParam 16 0)
      else if fldB r 24 4 % (32 * g.members) != 0 then some (badParam 24 0)
      else none

/-! ## Chunks, segments and formats (R395, R398, R399) -/

/-- Elements of segment `j` of chunk `c`: first element and how many (R395). -/
def segElems (e n c j : Nat) : Nat × Nat :=
  let len := e / n
  (c * len + j * 16384, min 16384 (len - j * 16384))

/-- Segments of a chunk. -/
def segCount (e n : Nat) : Nat := cdiv (e / n) 16384

/-- Steps of an operation (R395): ALL_REDUCE runs both parts. -/
def collSteps (op n : Nat) : Nat := if op = 0 then 2 * (n - 1) else n - 1

/-- A step belongs to the reduce-scatter part, and its number within its part. -/
def collPart (op n step : Nat) : Bool × Nat :=
  if op = 2 then (false, step) else if step < n - 1 then (true, step) else (false, step - (n - 1))

/-- The chunk a member sends and the chunk it receives in a step (R395). -/
def sendChunk (op n r step : Nat) : Nat :=
  let x := collPart op n step
  if x.1 then (r + n - x.2 % n) % n else (r + 1 + n - x.2 % n) % n
def recvChunk (op n r step : Nat) : Nat :=
  let x := collPart op n step
  if x.1 then (r + 2 * n - x.2 - 1) % n else (r + n - x.2 % n) % n

/-- FP32 codes of little-endian bytes, and back. -/
def words32 : (fuel : Nat) → List (BitVec 8) → List Nat
  | 0, _ => []
  | k + 1, l => if l.isEmpty then [] else ofBytes (l.take 4) :: words32 k (l.drop 4)
def bytes32 (l : List Nat) : List (BitVec 8) := l.flatMap (fun x => bytesOf 4 x)

/-- The compressed form of FP32 codes: FP8 E4M3 codes, then one E8M0 scale for each 32 (R107, R398). -/
def compress (xs : List Nat) : List (BitVec 8) :=
  let ns := xs.map fp32.decode
  let scs := (List.range (cdiv xs.length 32)).map (fun b => blockScale 0x03 ((ns.drop (32 * b)).take 32))
  (List.zip (List.range ns.length) ns).map (fun x => BitVec.ofNat 8 (storeCode 0x03 x.2 (some (scs.getD (x.1 / 32) 127)))) ++
    scs.map (fun k => BitVec.ofNat 8 k)

/-- D: the FP32 codes of a compressed segment of `n` elements (R398). -/
def decompress (n : Nat) (l : List (BitVec 8)) : List Nat :=
  (List.range n).map (fun i =>
    let k := (l.getD (n + i / 32) 0).toNat
    if k = 0xFF then fp32.nan else fp32.code ((e4m3.decode (l.getD i 0).toNat).scale ((k : Int) - 127)))

/-- The sum of two segments in the buffer's format (R126, R396). -/
def addSeg (r : Nat) (a b : List (BitVec 8)) : List (BitVec 8) :=
  if fld r 1 4 0 = 0x09 then
    bytes32 ((List.zip (words32 a.length a) (words32 b.length b)).map (fun x => (fp32.add x.1 x.2).1))
  else
    (List.zip (words32 a.length a) (words32 b.length b)).flatMap (fun x => bytesOf 4 (pairOp (fun p q => bf16.add p q) x.1 x.2).1)

/-- Wire bytes of a segment (R398). -/
def segBytes (r n : Nat) : Nat := if bit r 1 5 then n + cdiv n 32 else n * collElem r

/-! ## The start (R392, R395, R398) -/

/-- Arrivals of stale generations, and of no group, are dropped (R399, R409). -/
def State.dropStale (s : State) (n : Nat) : State :=
  let l := Tab.getD s.link.arrivals n []
  let ok := l.filter (fun a => match s.group? a.part a.group with | some g => g.gen == a.gen | none => false)
  { s with link := { s.link with arrivals := Tab.put s.link.arrivals n ok, dropped := s.link.dropped + (l.length - ok.length) } }

/-- The collective engine of a port, as it accesses memory through its anchor block's BTU (R251). -/
def State.collRef (s : State) (e : Nat) (x : Engine) (t : Station) (w : Waybill) : EngRef :=
  { id := e, block := (s.anchorPhys x.part t).getD 0, part := x.part, ctx := w.context }

/-- An access of a collective engine stops: with a failure its run is over. -/
def State.collStop (s : State) (n : Nat) (g : EngRef) (z : EStop) : State := (if z.final then s.delColl n else s).engStop g z

/-- Error feedback over the next elements of the buffer, at most one segment's (R398): x' = x + e is compressed, e takes what the
compression lost, and the buffer the decompressed value. -/
def State.feedback (s : State) (g : EngRef) (r k : Nat) : Except EStop State :=
  let n := min 16384 (fldB r 24 4 - k) * 4
  let vx := fldB r 8 6 + k * 4
  let ve := fldB r 16 6 + k * 4
  match s.engReads g (piecesOf vx n), s.engReads g (piecesOf ve n) with
  | .error z, _ => .error z
  | _, .error z => .error z
  | .ok xs, .ok es =>
    let sum := (List.zip (words32 xs.length xs) (words32 es.length es)).map (fun y => (fp32.add y.1 y.2).1)
    let d := decompress (n / 4) (compress sum)
    let err := (List.zip sum d).map (fun y => (fp32.sub y.1 y.2).1)
    match s.engWrite g ve (bytes32 err), (piecesOf vx n).findSome? (fun y => s.engNoWrite g y.1) with
    | .error z, _ => .error z
    | _, some z => .error z
    | .ok s1, none => .ok ((s1.putPieces g (piecesOf vx n) (bytes32 d)).noteReads g (piecesOf vx n ++ piecesOf ve n))

/-- COLLECTIVE_START: a collective engine begins (R392, R395); with COMPRESS and a reduce part it applies its error feedback, a segment's
elements at a time. The input must be of kind PARAM. -/
def execCollectiveStart (n : Nat) (s : State) : Outc :=
  .next (
    let e := 0x5000 + n
    match s.unitStart e with
    | none => s
    | some (x, st, t) =>
      let r := x.rec64
      let w := st.wb
      if t.kind != 8 || st.ended then s
      else if !s.ctxLive x.part w.context then (s.delColl n).endRevoked e x st
      else if w.kind != 2 then s.rejectStart e x st t .badInput
      else
        match s.coll? n, s.group? x.part (fldB r 2 1) with
        | some c, some _ =>
          if fldB r 24 4 ≤ c.fed then s
          else
            (match s.feedback (s.collRef e x t w) r c.fed with
             | .error z => s.collStop n (s.collRef e x t w) z
             | .ok s1 => s1.setColl n { c with fed := c.fed + 16384 })
        | none, some g =>
          let feeds := bit r 1 5 && fld r 0 1 0 != 2
          let c : CollRun := { seq := w.arg % 2 ^ 32, group := fldB r 2 1, gen := g.gen, sendStep := 0, sendSeg := 0, ready := [], fed := if feeds then 0 else fldB r 24 4 }
          ((s.dropTxns e).dropStale n).setColl n c
        | _, none => s)

/-! ## Sending (R399, R400) -/

/-- A COLL message of the engine still waits or is being sent. -/
def State.collBusy (s : State) (n : Nat) : Bool :=
  (s.port n).tx.any (fun t => t.vc == 2 && (ofBytes (t.bytes.take 1)) == 0x10)

/-- COLLECTIVE_SEGMENT_SEND: the member begins its next segment once its previous one has left and, after the first step, the
segment of the step before is ready (R400). In the first all-gather step of a compressed exchange the owner also writes its own
decompression (R398). -/
def execCollectiveSegmentSend (n : Nat) (s : State) : Outc :=
  .next (
    let e := 0x5000 + n
    match s.unitStart e, s.coll? n with
    | some (x, st, t), some c =>
      let r := x.rec64
      let w := st.wb
      let op := fld r 0 1 0
      match s.group? x.part c.group with
      | none => s
      | some g =>
        let N := g.members
        let E := fldB r 24 4
        if g.gen ≠ c.gen || segCount E N = 0 || collSteps op N ≤ c.sendStep || s.collBusy n || !(s.port n).carries || !s.ctxLive x.part w.context ||
            c.fed < E || (c.sendStep != 0 && !c.ready.contains ((c.sendStep - 1) * 2 ^ 24 + c.sendSeg)) then s
        else
          let b := s.collRef e x t w
          let seg := segElems E N (sendChunk op N g.rank c.sendStep) c.sendSeg
          let va := fldB r 8 6 + seg.1 * collElem r
          let ps := piecesOf va (seg.2 * collElem r)
          let out : Except EStop (List (BitVec 8) × State) :=
            match s.engReads b ps with
            | .error z => .error z
            | .ok raw =>
              let wire := if bit r 1 5 then compress (words32 raw.length raw) else raw
              if bit r 1 5 && collPart op N c.sendStep == (false, 0) then
                (match s.engWrite b va (bytes32 (decompress seg.2 wire)) with | .error z => .error z | .ok s1 => .ok (wire, s1))
              else .ok (wire, s)
          match out with
          | .error z => s.collStop n b z
          | .ok (wire, s1) =>
            let addr := g.gen * 2 ^ 56 + c.sendStep % 65536 * 2 ^ 40 + c.seq
            let s2 := (s1.noteReads b ps).sendMsg n x.part 2 g.nextNode (txnBytes 0x10 g.nextPart c.sendSeg 0 0 c.group addr 0 wire.length wire)
            let lastSeg := decide (segCount E N ≤ c.sendSeg + 1)
            s2.setColl n { c with sendStep := if lastSeg then c.sendStep + 1 else c.sendStep, sendSeg := if lastSeg then 0 else c.sendSeg + 1 }
    | _, _ => s)

/-! ## Receiving (R399, R400) -/

/-- COLL: a segment arrives: dropped and counted when its group is not defined or its generation is not current, else held; while 64
segments of starts still to come are held, it waits in the receive buffer (R399). -/
def execColl (n : Nat) (s : State) : Outc :=
  .next (
    match (s.port n).take 0x10 with
    | none => s
    | some (m, px) =>
      let h := ofBytes (m.bytes.take 32)
      let a := fldB h 16 8
      let seg : CollSeg := { src := m.src, part := fld h 1 5 0, group := fld h 12 7 0, gen := a / 2 ^ 56, step := a / 2 ^ 40 % 65536, seq := a % 2 ^ 32, index := fldB h 2 2, bytes := m.bytes.drop 32 }
      let l := Tab.getD s.link.arrivals n []
      let mine (x : CollSeg) : Bool := match s.coll? n with | some c => c.seq == x.seq && c.group == x.group && c.gen == x.gen | none => false
      let current := match s.group? seg.part seg.group with | some g => g.gen == seg.gen | none => false
      let s1 := s.setPort n px
      if !current then { s1 with link := { s1.link with dropped := s1.link.dropped + 1 } }
      else if !mine seg && 64 ≤ (l.filter (fun x => !mine x)).length then s
      else { s1 with link := { s1.link with arrivals := Tab.put s1.link.arrivals n (l ++ [seg]) } })

/-- COLLECTIVE_SEGMENT_READY: a received segment of the running start is decoded and added into its chunk, or stored over it (R395,
R398, R400). -/
def execCollectiveSegmentReady (n : Nat) (s : State) : Outc :=
  .next (
    let e := 0x5000 + n
    match s.unitStart e, s.coll? n with
    | some (x, st, t), some c =>
      let r := x.rec64
      let w := st.wb
      let op := fld r 0 1 0
      if !s.ctxLive x.part w.context || decide (c.fed < fldB r 24 4) then s
      else
      match s.group? x.part c.group, takeFirst (fun a => a.part == x.part && a.group == c.group && a.gen == c.gen && a.seq == c.seq) (Tab.getD s.link.arrivals n []) with
      | some g, some (a, l) =>
        let s0 := { s with link := { s.link with arrivals := Tab.put s.link.arrivals n l } }
        let N := g.members
        let E := fldB r 24 4
        let key := a.step * 2 ^ 24 + a.index
        if collSteps op N ≤ a.step || segCount E N ≤ a.index || c.ready.contains key || a.src ≠ g.prevNode then
          { s0 with link := { s0.link with dropped := s0.link.dropped + 1 } }
        else
          let seg := segElems E N (recvChunk op N g.rank a.step) a.index
          if a.bytes.length ≠ segBytes r seg.2 then s0.flitViolation n .lengthMismatch 0 a.src
          else
            let b := s.collRef e x t w
            let va := fldB r 8 6 + seg.1 * collElem r
            let ps := piecesOf va (seg.2 * collElem r)
            let adds := (collPart op N a.step).1
            let val := if bit r 1 5 then bytes32 (decompress seg.2 a.bytes) else a.bytes
            let new : Except EStop (List (BitVec 8)) :=
              if adds then (match s.engReads b ps with | .ok old => .ok (addSeg r old val) | .error z => .error z) else .ok val
            match new with
            | .error z => s.collStop n b z
            | .ok bytes =>
              match s0.engWrite b va bytes with
              | .error z => s.collStop n b z
              | .ok s1 => (if adds then s1.noteReads b ps else s1).setColl n { c with ready := c.ready ++ [key] }
      | _, _ => s
    | _, _ => s)

/-! ## Commit (R392) -/

/-- COLLECTIVE_COMMIT: every segment has been sent and made ready; the engine emits one PARAM waybill with the input's ARG, REQUEST_ID
and LAST. After REDUCE_SCATTER the chunks the member does not own are unspecified (R395). An ended start commits. -/
def execCollectiveCommit (n : Nat) (s : State) : Outc :=
  .next (
    let e := 0x5000 + n
    match s.unitStart e with
    | none => s
    | some (x, st, _) =>
      if st.ended then (s.delColl n).unitCommit e
      else
        match s.coll? n with
        | none => s
        | some c =>
          match s.group? x.part c.group with
          | none => s
          | some g =>
            let r := x.rec64
            let w := st.wb
            let op := fld r 0 1 0
            let N := g.members
            let E := fldB r 24 4
            if !s.ctxLive x.part w.context then ((s.delColl n).endRevoked e x st).unitCommit e
            else if s.engBusy e || c.fed < E || (segCount E N != 0 && decide (c.sendStep < collSteps op N)) || c.ready.length < collSteps op N * segCount E N || s.collBusy n then s
            else
              let len := E / N * collElem r
              let own := (g.rank + 1) % N
              let s1 := if op ≠ 1 then s else
                ((List.range N).filter (fun k => k != own)).foldl (fun s k => s.scramble x.part w.context (fldB r 8 6 + k * len) len) { s with free := s.free + 1 }
              let out : Waybill := { kind := 2, context := w.context, requestId := w.requestId, arg := w.arg, last := w.last }
              ((s1.delColl n).setEngine e { x with start := some { st with emits := [out], ended := true } }).unitCommit e)

/-! ## Pace (R405-R408) -/

/-- The blocks bound to a partition, by physical number. -/
def State.partBlocks (s : State) (p : Nat) : List Nat := match s.part? p with | some x => x.blockMap.map (·.2) | none => []

/-- The cycle counters of a partition's blocks now, by block: where its next window of pace counts from (R405). -/
def State.paceSeen (s : State) (p : Nat) : Tab Nat := (s.partBlocks p).foldl (fun (t : Tab Nat) b => Tab.put t b (s.block b).cycles) []

/-- The block cycles counted in a window over the partition's blocks, and those that their planned frequencies would give (R405). A block that
was not the partition's at the window's start takes no part (log entry 26). -/
def State.paceCounts (s : State) (p : Nat) (x : Pace) : Nat × Nat :=
  (s.partBlocks p).foldl (fun (a : Nat × Nat) b =>
    match Tab.find x.seen b with
    | some c => (a.1 + ((s.block b).cycles + 2 ^ 64 - c) % 2 ^ 64, a.2 + (s.block b).plannedMhz * (s.now - x.start))
    | none => a) (0, 0)

/-- PACE_WINDOW: a window of 100 µs of the partition's pace ends; a PaceNotice is sent when it is due (R405, R406). -/
def execPaceWindow (part : Nat) (s : State) : Outc :=
  .next (
    let x := Tab.getD s.link.pace part {}
    if s.now < x.start + 100 then s
    else
      let (counted, planned) := s.paceCounts part x
      if planned = 0 then { s with link := { s.link with pace := Tab.put s.link.pace part { x with seen := s.paceSeen part, start := s.now } } } else
      let slow := decide (counted * 10 < planned * 9)
      let good := decide (planned * 95 ≤ counted * 100)
      let low := if slow then x.low + 1 else 0
      let high := if good then x.high + 1 else 0
      let due := slow && decide (10 < low) && (!x.noticed || decide (x.lastNotice + 10000 ≤ s.now))
      let back := x.noticed && decide (10 ≤ high)
      let y : Pace := { low := low, high := high, noticed := (x.noticed || due) && !back, lastNotice := if due then s.now else x.lastNotice, seen := s.paceSeen part, start := s.now }
      let s1 := { s with link := { s.link with pace := Tab.put s.link.pace part y } }
      if due || back then s1.emitOut (.msg .fabricManager 0x0303 [part, if back then 1 else 0, counted * 1024 / planned, s.now])
      else s1)

/-- PACE_RELAY: PACE_LOSS is raised to the partition (R407). -/
def execPaceRelay (m : MsgRef) (body : BitVec 64) (s : State) : Outc :=
  .next (runMsg s m 0 0 (fun s =>
    let r := body.toNat
    let p := fldB r 0 1
    if !s.livePart p then refuseM s .badId
    else if bodyRsvd r [(0, 7, 0), (1, 0, 0), (2, 15, 0), (4, 15, 0)] then refuseM s .rsvdSet
    else okM (s.event 0x0013 p 0 false 0 0xFFFF (plcB 0 2 (fldB r 4 2) ||| plcB 2 2 (fldB r 2 2) ||| plcF 4 0 (bit r 1 0))) 0))

/-- PACE_CAP: the partition's frequency ceiling, at the highest 25 MHz step at or below it; it governs from the next allotment (R408,
R459). -/
def execPaceCap (m : MsgRef) (body : BitVec 64) (s : State) : Outc :=
  .next (runMsg s m 0 0 (fun s =>
    let r := body.toNat
    let p := fldB r 0 1
    let c := fldB r 2 2
    if !s.livePart p then refuseM s .badId
    else if bodyRsvd r [(0, 7, 0), (2, 15, 0)] then refuseM s .rsvdSet
    else if c != 0 && (c < 400 || 1000 < c) then refuseM s .badParam
    else okM { s with link := { s.link with paceCap := if c = 0 then Tab.del s.link.paceCap p else Tab.put s.link.paceCap p (c / 25 * 25) } } 0))

end Sys2Proof.Machine
end

