-- ==== Sys2Proof/Machine/Dram.lean ====
section
/-! DEFINITION. Sys2Proof/Machine/Dram.lean: memory controllers, their queues and frames, errors, the parity engine, key rotation and wipes
(08_main_memory R214-R250; R418). -/

namespace Sys2Proof.Machine

/-! ## Controllers -/

def Ctrl.sub (c : Ctrl) (k : Nat) : SubChan := if k = 0 then c.sub0 else c.sub1
def Ctrl.setSub (c : Ctrl) (k : Nat) (x : SubChan) : Ctrl := if k = 0 then { c with sub0 := x } else { c with sub1 := x }

/-- The request moves data from DRAM first: a read, or a partial write's read of its line (R228). -/
def MemReq.isRead (r : MemReq) : Bool := !r.write || r.partial'

/-- The requests waiting on one subchannel. -/
def State.entries (s : State) (ch sub : Nat) : List MemReq := (s.ctrl ch).queue.filter (fun r => subOf (r.line * 64) == sub)

/-- The request is for memory's contents. Sweeps and wipes rewrite lines as the controller holds them; accesses of engines, which take effect
with their command, and rewrites of corrected lines move nothing (log entry 50). -/
def MemReq.plain (r : MemReq) : Bool :=
  match r.who with
  | .none => true
  | .walk _ _ => true
  | .win _ => true
  | .row _ => true
  | _ => false

/-- The masters and units that a request answers: its own and those of the writes merged into it. -/
def MemReq.owners (r : MemReq) : List (Nat × MemWho × Option (Nat × Bool)) := (r.id, r.who, r.reg) :: r.more

/-- Set how a request enters the queue: present from now, and a write of part of a line reads it first (R224, R228). -/
def MemReq.present (r : MemReq) (n : Nat) : MemReq :=
  let part := r.write && (decide (r.data.length ≠ 64) || r.amo.isSome)
  { r with seq := n, partial' := part, after := if part then some n else r.after, clears := r.clears || (r.write && !part && r.after.isNone) }

/-- An earlier partial write of the line is not complete: a read of the line that came after it waits (R228). -/
def Ctrl.unmerged (c : Ctrl) (line before : Nat) : Bool :=
  (c.queue ++ c.reads.map (·.req) ++ c.sub0.busy.toList ++ c.sub1.busy.toList).any (fun q => q.write && q.line == line && q.plain &&
    (match q.after with | some n => decide (n < before) | none => false))

/-- Put a read that a write entry answers among the reads whose data is to come: ahead of those that DRAM answers (R228: 4 CLK_MC). -/
def answered (x : MemRead) (l : List MemRead) : List MemRead := l.takeWhile (·.entry) ++ [x] ++ l.dropWhile (·.entry)

/-- A full-line write merges into an entry, which keeps its place (R228). A write that came as a partial one, and whose line a younger
full write has covered meanwhile, leaves that write's data. -/
def MemReq.merge (e r : MemReq) : MemReq :=
  let older := match r.after with | some n => decide (n < e.seq) && e.clears | none => false
  let after := match e.after, r.after with | some a, some b => some (min a b) | some a, none => some a | none, x => x
  if older then { e with more := e.more ++ r.owners, after := after }
  else { e with lo := 0, data := r.data, partial' := false, clears := e.clears || r.clears, more := e.more ++ r.owners, after := after }

/-- A request enters a controller's queue (R224, R227, R228). -/
def Ctrl.enter (c : Ctrl) (r0 : MemReq) : Ctrl :=
  let r := r0.present c.nextSeq
  let c1 := { c with nextSeq := c.nextSeq + 1 }
  let same (e : MemReq) : Bool := e.plain && e.write && e.line == r.line && e.replay.isNone && e.amo.isNone
  if !r.plain then { c1 with queue := c.queue ++ [r] }
  else if r.isRead then
    match c.queue.find? (fun e => same e && !e.partial') with
    | some e => if c.unmerged r.line r.seq then { c1 with queue := c.queue ++ [r] } else { c1 with reads := answered { req := r, data := e.data, entry := true } c.reads }
    | none => { c1 with queue := c.queue ++ [r] }
  else
    let reads := if r.after.isSome then c.reads else c.reads.map (fun x => if x.req.plain && x.req.write && x.req.line == r.line then { x with req := { x.req with lo := 0, data := r.data, clears := true } } else x)
    match c.queue.find? same with
    | none => { c1 with queue := c.queue ++ [r], reads := reads }
    | some e =>
      let rest := c.queue.filter (fun q => same q && q.id != e.id)
      let e1 := rest.foldl (fun (x : MemReq) q => { x with more := x.more ++ q.owners }) (e.merge r)
      { c1 with queue := (c.queue.filter (fun q => !(same q && q.id != e.id))).map (fun q => if q.id = e.id ∧ same q = true then e1 else q), reads := reads }

/-! ## The way of a request (R227, R233, R235) -/

/-- The answer to a transaction leaves for its master: its line, or POISON, or a write's status. -/
def State.reply (s : State) (ch line : Nat) (data : Option (List (BitVec 8))) (w : Nat × MemWho × Option (Nat × Bool)) : State :=
  s.post (.memReply w.1 line data w.2.2) .response (match w.2.2 with | some (_, true) => 3 | _ => 1) (channelEnd ch) (s.memHome w.2.1)

/-- A request's status reaches a parity engine's row. -/
def State.rowStatus (s : State) (id : Nat) : State :=
  { s with dram := { s.dram with rows := s.dram.rows.map (fun q => if q.id = id then { q with out := q.out - 1 } else q) } }

/-- Everybody whom a write answers has its status. -/
def State.writeDone (s : State) (ch : Nat) (r : MemReq) : State :=
  r.owners.foldl (fun (s : State) w =>
    match w.2.1 with
    | .row n => s.rowStatus n
    | .walk _ _ => s.reply ch r.line (some []) w
    | .win _ => s.reply ch r.line (some []) w
    | .engine _ => s.reply ch r.line (some []) w
    | _ => s) s

/-- A request is in a controller's queue from now. -/
def State.memEnter (s : State) (ch : Nat) (r : MemReq) : State := s.setCtrl ch ((s.ctrl ch).enter r)

/-- The DPA of line k of a page of a row's stripe. -/
def State.rowDpa (s : State) (r : RowEntry) (page : Nat) : Nat :=
  r.region * 2 ^ s.spanBits + r.stripe * 32768 + page * 4096 + r.k * 64

/-- Bytewise XOR of lines. -/
def xorLines (l : List (List (BitVec 8))) : List (BitVec 8) :=
  l.foldl (fun a b => List.zipWith (· ^^^ ·) a b) (List.replicate 64 0)

/-- The stripe's other pages of a line: the six data pages and the parity page, or the seven data pages (R235). -/
def otherPages (dpa : Nat) : List Nat :=
  ((List.range 8).filter (fun p => p != dpa / 4096 % 8)).map (fun p => dpa / 32768 * 32768 + p * 4096 + dpa % 4096)

/-- A line of a lost DIMM rebuilt from the stripe's other pages (R235). -/
def State.reconstruct (s : State) (dpa : Nat) : List (BitVec 8) := xorLines ((otherPages dpa).map (fun a => s.arrayL a 64))

/-- A read of a lost channel's line: in a coded carve-out the engine reads the stripe's seven other lines; else, or with a second DIMM of the
region lost, the line cannot be read: POISON (DESIGN CHOICE, log entry 50). -/
def State.readLost (s : State) (ch : Nat) (r : MemReq) : State :=
  let dpa := r.line * 64
  let others := otherPages dpa
  if s.codedDpa dpa && !others.any (fun a => (s.ctrl (s.dpaChannel a)).lost) then
    let n := s.dram.nextReq
    let s1 := { s with dram := { s.dram with nextReq := n + 1, rebuilds := Tab.put s.dram.rebuilds n { req := r, left := others.length } } }
    others.foldl (fun (s : State) a => s.memEnter (s.dpaChannel a) { id := n, line := a / 64, write := false, who := .rebuild n }) s1
  else
    match r.who with
    | .row n => s.rowStatus n
    | .walk _ _ => s.reply ch r.line none (r.id, r.who, r.reg)
    | .win _ => s.reply ch r.line none (r.id, r.who, r.reg)
    | .engine _ => s.reply ch r.line none (r.id, r.who, r.reg)
    | _ => s

/-- A request to a line whose channel may be lost: no write is accepted there (R235). -/
def State.toChannel (s : State) (ch : Nat) (r : MemReq) : State :=
  if !(s.ctrl ch).lost then s.memEnter ch r else if r.write then s else s.readLost ch r

/-- Hold a request in its parity engine. -/
def State.holdRow (s : State) (r : MemReq) : State := { s with dram := { s.dram with rowWait := s.dram.rowWait ++ [r] } }

/-- An atomic's old line is kept for its answer (R272). -/
def State.keepOld (s : State) (r : MemReq) (l : List (BitVec 8)) : State :=
  match r.who, r.amo with
  | .win n, some _ => { s with xlt := { s.xlt with winOps := Tab.upd s.xlt.winOps n (fun o => { o with got := Memory.writeL o.got (r.line * 64) l }) } }
  | _, _ => s

/-- What a write makes of a line: its bytes over the line's, or an atomic's new word (R167, R228). -/
def MemReq.over (r : MemReq) (old : List (BitVec 8)) : List (BitVec 8) :=
  if r.clears then r.data
  else
    match r.amo with
    | some (sub, v) => overlay old r.lo (bytesOf (atomicBytes sub) (atomicNew sub (ofBytes ((old.drop r.lo).take (atomicBytes sub))) v))
    | none => overlay old r.lo r.data

/-- A request comes out of its spine (R227, R232, R233, R235). One to a coded carve-out passes its region's parity engine: a full-line write is
staged, and has its status at once, or waits for an entry; a read of a staged line is answered from the entry; a partial write of a line
that is not staged reads it first (R228). While the carve-out is initialised, it waits there. Once a DIMM is lost, writes to carve-outs are
not accepted. -/
def State.memIn (s : State) (ch : Nat) (r : MemReq) : State :=
  let dpa := r.line * 64
  if r.write && s.refusesWrite dpa then s
  else if !s.codedDpa dpa then s.toChannel ch r
  else if !r.plain then (if r.write || (s.engineLine r.line).isSome then s.reply ch r.line (some []) (r.id, r.who, r.reg) else s.toChannel ch r)
  else if s.codedStarting dpa then s.holdRow r
  else
    match (s.rowOf r.line).bind (fun q => Tab.find q.staged (dpa / 4096 % 8)), r.write with
    | some l, false => s.reply ch r.line (some l) (r.id, r.who, r.reg)
    | some l, true =>
      (match s.stage r.line (r.over l) with
       | some t => (t.keepOld r l).writeDone ch r
       | none => s.holdRow r)
    | none, true =>
      if r.data.length = 64 ∧ r.amo.isNone then
        (match s.stage r.line r.data with
         | some t => t.writeDone ch r
         | none => s.holdRow r)
      else s.toChannel ch r
    | none, false => s.toChannel ch r

/-! ## Frames (R222-R225) -/

/-- Direction of a new frame: R223. -/
def frameWrites (x : SubChan) (r w : Nat) : Bool :=
  if 1 ≤ r ∧ 3 ≤ x.writes then false
  else decide (64 ≤ w) || (decide (1 ≤ w) && (r == 0 || decide (3 ≤ x.reads)))

/-- Bank target t is in refresh hold in frame f (R225): of a group whose REFsb lies up to three frames back. -/
def Ctrl.refHold (c : Ctrl) (f t : Nat) : Bool :=
  c.refs.any (fun x => decide (x.2 < f) && decide (f ≤ x.2 + 3) && t / 32 == x.1 / 4 % 2 && t % 4 == x.1 % 4)

/-- Held under R244 or R245: its page is in flight, or lies beyond the bitmap line a restarted sequencer has read last. What sweeps, flips and
wipes ask for themselves is not. -/
def State.memHeld (s : State) (r : MemReq) : Bool :=
  match r.who with
  | .sweep _ => false
  | .flip _ => false
  | .bitmap _ => false
  | .wipe _ => false
  | _ => s.sweepHeld (r.line * 64)

/-- Rank of a request within its direction (R224, R238): replays, then P1, then P3; then the order in which they came. -/
def MemReq.rank (r : MemReq) : Nat := (if r.replay.isSome then 0 else if r.p3 then 2 else 1) * 2 ^ 64 + r.seq

/-- A data slot may be granted to a request under R421: the first N slots of a frame only to the sealed partition's, the others to
everything else. -/
def State.slotOpen (s : State) (ch slot : Nat) (r : MemReq) : Bool :=
  match s.sealedOn (ch / 4) with
  | none => true
  | some (p, sh) => (r.part == some p) == decide (slot < 34 * sh / 64)

/-- The request granted in the next data slot of a subchannel (R224, R238, R421). A replayed one waits for a later frame than the one in which
it failed, and goes ahead of every other there. -/
def State.slotGrant (s : State) (ch sub : Nat) (x : SubChan) : Option MemReq :=
  let c := s.ctrl ch
  let ok (r : MemReq) : Bool :=
    (if x.write then r.write && !r.partial' else r.isRead) && !s.memHeld r && !(r.isRead && c.unmerged r.line r.seq) &&
    !x.used.contains (bankTarget (r.line * 64)) && !c.refHold c.frame (bankTarget (r.line * 64)) &&
    (match r.replay with | some f => decide (f < c.frame) | none => s.slotOpen ch x.slot r)
  (sortBy MemReq.rank ((s.entries ch sub).filter ok)).head?

/-- A subchannel as the next frame begins: its direction is chosen from the waiting requests (R223), or by the frame's number where a
sealed partition holds a share (R421). -/
def State.nextSub (s : State) (ch sub f : Nat) : SubChan :=
  let x := (s.ctrl ch).sub sub
  let rs := ((s.entries ch sub).filter MemReq.isRead).length
  let ws := ((s.entries ch sub).filter (fun r => !r.isRead)).length
  let w := if (s.sealedOn (ch / 4)).isSome then f % 4 == 3 else frameWrites x rs ws
  { x with slot := 0, write := w, reads := if w then 0 else x.reads + 1, writes := if w then x.writes + 1 else 0, used := [], scrubbed := false }

/-- The next frame, of both subchannels (R222); every waiting request has been present one frame more. A change of refresh cadence takes
effect with a frame whose number is a multiple of 4 (R225). -/
def State.nextFrame (s : State) (ch : Nat) : Ctrl :=
  let c := s.ctrl ch
  let f := c.frame + 1
  { c with frame := f, sub0 := s.nextSub ch 0 f, sub1 := s.nextSub ch 1 f, hot := if f % 4 = 0 then c.hotNext else c.hot, refs := c.refs.filter (fun x => decide (f ≤ x.2 + 3)), queue := c.queue.map (fun r => { r with frames := r.frames + 1 }) }

/-- A refresh is due in a frame (R225), and its group. -/
def Ctrl.refDue (c : Ctrl) (f : Nat) : Bool := f % (if c.hot then 2 else 4) == 0
def Ctrl.refGroupOf (c : Ctrl) (f : Nat) : Nat := f / (if c.hot then 2 else 4) % 8

/-- The REFsb of the frame has been issued. -/
def Ctrl.refDone (c : Ctrl) (f : Nat) : Bool := c.refs.any (fun x => x.2 == f)

/-- Both subchannels are past the data slots of the frame. -/
def Ctrl.pastData (c : Ctrl) : Bool := decide (34 ≤ c.sub0.slot) && decide (34 ≤ c.sub1.slot)

/-! ## Work of the controller's own (R234, R243, R245, R248) -/

/-- Requests of one purpose that a controller holds. -/
def State.ownHeld (s : State) (ch : Nat) (w : MemWho) : Nat := (((s.ctrl ch).held).filter (fun r => r.who == w)).length

/-- A request of the controllers' own enters a queue, when it has an entry. -/
def State.tryEnter (s : State) (ch : Nat) (r : MemReq) : Option State :=
  if !(s.ctrl ch).lost && s.roomFor ch r then some (s.memEnter ch r) else none

def State.setRow (s : State) (r : RowEntry) : State :=
  { s with dram := { s.dram with rows := s.dram.rows.map (fun q => if q.id = r.id then r else q) } }

/-- The line of a row as its engine knows it: staged, read for the flush, or as DRAM holds it. -/
def State.rowLine (s : State) (r : RowEntry) (page : Nat) : List (BitVec 8) :=
  match Tab.find r.staged page with
  | some l => l
  | none => match Tab.find r.fetched page with | some l => l | none => s.arrayL (s.rowDpa r page) 64

/-- The parity line of a row: the XOR of the plaintext of the seven data lines (R231). -/
def State.parityLine (s : State) (r : RowEntry) : List (BitVec 8) :=
  xorLines (((List.range 8).filter (fun p => p != r.stripe % 8)).map (s.rowLine r))

/-- A row's flush goes on at one channel: its read or write there enters the queue, when there is an entry (R234). -/
def State.pushRow (s : State) (ch : Nat) (r : RowEntry) : State :=
  let page := ch % 8
  if ch / 8 != r.region then s
  else if r.asks.contains page then
    let q : MemReq := { id := 0, line := s.rowDpa r page / 64, write := false, who := .row r.id }
    if (s.ctrl ch).lost then (s.setRow { r with asks := r.asks.filter (· != page), out := r.out + 1 }).readLost ch q
    else (match s.tryEnter ch q with | some t => t.setRow { r with asks := r.asks.filter (· != page), out := r.out + 1 } | none => s)
  else if r.writing && r.todo.contains page then
    let l := if page = r.stripe % 8 then s.parityLine r else s.rowLine r page
    match s.tryEnter ch { id := 0, line := s.rowDpa r page / 64, write := true, data := l, who := .row r.id } with
    | some t => t.setRow { r with todo := r.todo.filter (· != page), out := r.out + 1 }
    | none => s
  else s

/-- The rows of a region, one after the other, at one channel. -/
def State.pushRows (s : State) (ch : Nat) : State :=
  s.dram.rows.foldl (fun (s : State) r => match s.dram.rows.find? (fun q => q.id == r.id) with | some q => s.pushRow ch q | none => s) s

/-- A line that a row's flush has read is in: with the last one its writes begin (R234). -/
def State.rowFetched (s : State) (id line : Nat) (l : List (BitVec 8)) : State :=
  match s.dram.rows.find? (fun q => q.id == id) with
  | none => s
  | some r =>
    let r1 := { r with out := r.out - 1, fetched := Tab.put r.fetched (line / 64 % 8) l }
    let s1 := s.setRow { r1 with writing := r1.asks.isEmpty && r1.out == 0 }
    if r1.asks.isEmpty ∧ r1.out = 0 then (List.range 8).foldl (fun (s : State) i => s.pushRows (r.region * 8 + i)) s1 else s1

/-- The partition's pages on a channel, ascending DPA. -/
def State.pagesOn (s : State) (runs : List (Nat × Nat)) (ch : Nat) : List Nat :=
  (runs.filter (fun r => s.dpaRegion r.1 == ch / 8)).flatMap (fun r => (List.range r.2).map (fun i => r.1 + i * 32768 + ch % 8 * 4096))

def State.setRekey (s : State) (p : Nat) (y : Rekey) : State :=
  { s with dram := { s.dram with rekeys := Tab.put s.dram.rekeys p y } }

def State.setSweep (s : State) (p ch : Nat) (f : SweepPage → SweepPage) : State :=
  { s with dram := { s.dram with rekeys := Tab.upd s.dram.rekeys p (fun y => { y with pages := Tab.upd y.pages ch f }) } }

/-- The next request of a partition's sweep on a channel: a read of its page, or with all 64 read a write under the new slot, P3 both, while
the sweep holds fewer than 64 entries there (R243); of a restarted sequencer, its next bitmap line, P1 (R245). -/
def State.sweepNext (s : State) (p ch : Nat) : Option State :=
  match Tab.find s.dram.rekeys p with
  | none => none
  | some y =>
    match Tab.find y.pages ch with
    | some g =>
      if 64 ≤ s.ownHeld ch (.sweep p) then none
      else if g.asked < 64 then
        (s.tryEnter ch { id := 0, line := g.page / 64 + g.asked, write := false, p3 := true, who := .sweep p }).map (fun t => t.setSweep p ch (fun g => { g with asked := g.asked + 1 }))
      else if g.data.length = 64 ∧ g.sent < 64 then
        (s.tryEnter ch { id := 0, line := g.page / 64 + g.sent, write := true, p3 := true, data := Tab.getD g.data g.sent [], who := .sweep p }).map (fun t => t.setSweep p ch (fun g => { g with sent := g.sent + 1 }))
      else none
    | none =>
      match Tab.find y.scans ch with
      | some z =>
        if z.out then none
        else (s.tryEnter ch { id := 0, line := Config.bitmapLine ch (s.scanFrom p ch + z.read), write := false, who := .bitmap p }).map (fun t => t.setRekey p { y with scans := Tab.put y.scans ch { z with out := true } })
      | none => none

/-- Lines of a carve-out on a channel, and the n-th of them in ascending order (R248). -/
def State.linesOn (s : State) (runs : List (Nat × Nat)) (ch : Nat) : Nat :=
  64 * sumN ((runs.filter (fun r => s.dpaRegion r.1 == ch / 8)).map (·.2))

def nthStripe : List (Nat × Nat) → Nat → Nat
  | [], _ => 0
  | (b, n) :: l, i => if i < n then b + i * 32768 else nthStripe l (i - n)

/-- The next write of a carve-out's wipe on a channel, while the wipe holds fewer than 64 entries there (R248). It follows the end of a sweep
of the partition (R250). -/
def State.wipeNext (s : State) (p ch : Nat) : Option State :=
  match s.dram.wipes.find? (fun w => w.kind == 2 && w.part == p), s.part? p with
  | some w, some x =>
    let i := Tab.getD w.next ch 0
    let runs := x.runs.filter (fun r => s.dpaRegion r.1 == ch / 8)
    if 64 ≤ s.ownHeld ch (.wipe p) ∨ s.linesOn x.runs ch ≤ i ∨ Tab.has s.dram.rekeys p = true then none
    else
      (s.tryEnter ch { id := 0, line := (nthStripe runs (i / 64) + ch % 8 * 4096) / 64 + i % 64, write := true, p3 := true, data := List.replicate 64 0, who := .wipe p }).map (fun t =>
        { t with dram := { t.dram with wipes := t.dram.wipes.map (fun v => if v = w then { v with next := Tab.put v.next ch (i + 1) } else v) } })
  | _, _ => none

/-- Repeat while there is a next request, at most `n` times. -/
def State.repeatNext (s : State) (next : State → Option State) : Nat → State
  | 0 => s
  | n + 1 => match next s with | some t => State.repeatNext t next n | none => s

/-- The controller's own work takes the entries it may have. -/
def State.topUp (s : State) (ch : Nat) : State :=
  let s1 := (Tab.keys s.dram.rekeys).foldl (fun (s : State) p => s.repeatNext (fun s => s.sweepNext p ch) 64) (s.pushRows ch)
  (s.dram.wipes.filter (fun w => w.kind == 2)).foldl (fun (s : State) w => s.repeatNext (fun s => s.wipeNext w.part ch) 64) s1

/-! ## Grants (R224) -/

/-- A line wiped: zero ciphertext, its page's bit 0, and no poison (R246). -/
def State.wipeLine (s : State) (line : Nat) : State :=
  let s1 := { s with dram := { s.dram with dram := s.dram.dram.filter (fun c => c.1 / 64 != line), written := Tab.del s.dram.written line, bitmap := Tab.del s.dram.bitmap (line / 64) } }
  let ch := s.dpaChannel (line * 64)
  s1.setCtrl ch { s1.ctrl ch with poison := (s1.ctrl ch).poison.filter (· != line) }

/-- A granted write is complete: memory holds it, and those it answers have its status (R224, R228, R239, R243, R246). -/
def State.complete (s : State) (ch : Nat) (r : MemReq) : State :=
  match r.who with
  | .sweep p => (s.setSweep p ch (fun g => { g with mask := if g.mask.contains (r.line % 64) then g.mask else g.mask ++ [r.line % 64] })).putLine r.line r.data false
  | .flip p =>
    match Tab.find s.dram.rekeys p with
    | some y => (match Tab.find y.pages ch with
      | some g => ({ s with dram := { s.dram with bitmap := Tab.put s.dram.bitmap (g.page / 4096) y.newSlot } }).setSweep p ch (fun g => { g with flip := 2 })
      | none => s)
    | none => s
  | .wipe _ => s.wipeLine r.line
  | .none => s.putLine r.line r.data r.clears
  | .walk _ _ => s.putLine r.line r.data r.clears
  | .win _ => (s.putLine r.line r.data r.clears).writeDone ch r
  | .row _ => (s.putLine r.line r.data r.clears).writeDone ch r
  | .engine _ => s.writeDone ch r
  | _ => s

/-- The write granted in the slot before is complete, 2 CLK_MC after its grant (R224). -/
def State.finishBusy (s : State) (ch sub : Nat) : State :=
  let c := s.ctrl ch
  match (c.sub sub).busy with
  | none => s
  | some r => (s.setCtrl ch (c.setSub sub { c.sub sub with busy := none })).complete ch r

/-- The bytes a granted read takes: of the DRAM itself for the controllers' own work, else what memory's readers see. -/
def State.grantData (s : State) (r : MemReq) : List (BitVec 8) :=
  match r.who with
  | .walk _ _ => s.dramL (r.line * 64) 64
  | .win _ => s.dramL (r.line * 64) 64
  | _ => s.arrayL (r.line * 64) 64

/-- DRAM_SLOT_GRANT: the write of the slot before is complete, the controller's own work queues what it may, and the next data slot of a
subchannel is granted to the highest-ranked eligible request, or is idle. Past the data slots of both subchannels the next frame begins,
once a due refresh has been issued (R222-R225). -/
def execDramSlotGrant (ch sub : Nat) (s : State) : Outc :=
  .next (
    if 48 ≤ ch ∨ 2 ≤ sub ∨ (s.ctrl ch).lost ∨ s.sys.state = .doze then s
    else
      let s := (s.finishBusy ch sub).topUp ch
      let c := s.ctrl ch
      let x := c.sub sub
      if 34 ≤ x.slot then (if !c.pastData || (c.refDue c.frame && !c.refDone c.frame) then s else s.setCtrl ch (s.nextFrame ch))
      else
        let s1 := { s with reg := { s.reg with slots := Tab.put s.reg.slots (ch * 2 + sub) (Tab.getD s.reg.slots (ch * 2 + sub) 0 + 1) } }
        match s.slotGrant ch sub x with
        | none => s1.setCtrl ch (c.setSub sub { x with slot := x.slot + 1 })
        | some r =>
          let x1 := { x with slot := x.slot + 1, used := x.used ++ [bankTarget (r.line * 64)], busy := if r.isRead then none else some r }
          let c1 := { c.setSub sub x1 with queue := c.queue.filter (fun y => y.seq != r.seq) }
          s1.setCtrl ch (if r.isRead then { c1 with reads := c1.reads ++ [{ req := r, data := s.grantData r }] } else c1))

/-- DRAM_REFSB: the same-bank refresh of a due frame is issued in its refresh slot (R225); in doze the DIMMs refresh themselves (R526). -/
def execDramRefsb (ch : Nat) (s : State) : Outc :=
  .next (
    let c := s.ctrl ch
    if ch < 48 ∧ s.sys.state ≠ .doze ∧ c.pastData = true ∧ c.refDue c.frame = true ∧ c.refDone c.frame = false then s.setCtrl ch { c with refs := c.refs ++ [(c.refGroupOf c.frame, c.frame)] } else s)

/-- DIMM_TEMP_85_CROSS: the cadence changes from the next frame whose number is a multiple of 4 (R225). -/
def execDimmTemp85Cross (ch : Nat) (above : Bool) (s : State) : Outc :=
  .next (if ch < 48 then s.setCtrl ch { s.ctrl ch with hotNext := above } else s)

/-- P3_PROMOTION: a P3 request present for 64 frames is ranked as P1 (R418). -/
def execP3Promotion (ch : Nat) (s : State) : Outc :=
  .next (s.setCtrl ch { s.ctrl ch with queue := (s.ctrl ch).queue.map (fun r => if r.p3 && 64 ≤ r.frames then { r with p3 := false } else r) })

/-! ## Errors (R218, R219, R226, R235-R239) -/

/-- Rank and device as one number: pseudo-channel, subchannel and device of ten. -/
def devKey (line dev : Nat) : Nat := ((line * 64 / 2 ^ 15 % 2) * 2 + subOf (line * 64)) * 16 + dev

/-- The code corrects the errors: at most 8 symbols, or with the rank's marked device erased, at most 4 further symbols
(R218, R219). Errors are given as (device, erroneous symbols). -/
def Ctrl.corrects (c : Ctrl) (line : Nat) (errs : List (Nat × Nat)) : Bool :=
  let marked := errs.filter (fun e => c.marked.contains (devKey line e.1))
  let rest := errs.filter (fun e => !c.marked.contains (devKey line e.1))
  let n := sumN (rest.map (·.2))
  if (List.range 10).any (fun d => c.marked.contains (devKey line d)) then decide (n ≤ 4)
  else decide (n + sumN (marked.map (·.2)) ≤ 8)

/-- Sixteen distinct corrected lines of one device within 1 s of TIME_US mark it (R219); a line corrected again counts with its latest
time. -/
def Ctrl.noteCorrected (c : Ctrl) (now line : Nat) (errs : List (Nat × Nat)) : Ctrl × List Nat :=
  let add := (errs.filter (fun e => decide (0 < e.2))).map (fun e => (devKey line e.1, line, now))
  let all := c.corrected.filter (fun e => decide (now < e.2.2 + 1000000) && !add.any (fun a => e.1 == a.1 && e.2.1 == a.2.1)) ++ add
  let newly := (dedupN (add.map (·.1))).filter (fun k => decide (16 ≤ (all.filter (fun e => e.1 == k)).length) && !c.marked.contains k)
  ({ c with corrected := all, marked := c.marked ++ newly }, newly)

/-- DRAM_DEVICE_MARKED to the operator (R219): the channel in SOURCE, rank and device in DATA. -/
def State.markEvents (s : State) (ch : Nat) (l : List Nat) : State :=
  l.foldl (fun s k => s.opEvent 0x0100 0 ch (plcB 0 4 k)) s

/-- A line was corrected: its devices are noted, and marked when it is the sixteenth (R219). -/
def State.noteLine (s : State) (ch line : Nat) (errs : List (Nat × Nat)) : State :=
  let m := (s.ctrl ch).noteCorrected s.now line errs
  (s.setCtrl ch m.1).markEvents ch m.2

/-- The DPA of the other copy of a reserved line, where R221 keeps one: regions 0 and 3, 1 and 4. Which lines of their areas these are the
spec does not say: a free value. -/
def State.otherCopy (s : State) (dpa : Nat) : Option Nat :=
  let r := s.dpaRegion dpa
  let o := dpa % 2 ^ s.spanBits
  if !Config.twoCopies (o / 64) then none
  else if r = 0 ∨ r = 1 then some ((r + 3) * 2 ^ s.spanBits + o) else if r = 3 ∨ r = 4 then some ((r - 3) * 2 ^ s.spanBits + o) else none

/-- A lost DIMM (R237) passes to device level. Reads that wait or are on their way there are rebuilt, or cannot be read (R235); writes are not
accepted any more. -/
def State.loseDimm (s : State) (ch : Nat) : State :=
  if s.dram.lostDimms.contains ch then s
  else
    let c := s.ctrl ch
    let l := ((c.reads.map (·.req)) ++ c.queue).filter (fun r => !r.write)
    let s1 := s.setCtrl ch { c with lost := true, queue := [], reads := [], sub0 := { c.sub0 with busy := none }, sub1 := { c.sub1 with busy := none } }
    let s2 := ({ s1 with dram := { s1.dram with lostDimms := s1.dram.lostDimms ++ [ch] } }.logFault 0x0200 0 ch 0).devFault 1 ch
    l.foldl (fun (s : State) r => s.readLost ch r) s2

/-- Poison a line (R239): MEMORY_POISON to its partition and the operator; a full list loses the DIMM (R237). -/
def State.poisonLine (s : State) (line : Nat) : State :=
  let ch := s.dpaChannel (line * 64)
  let c := s.ctrl ch
  let p := (s.ownerOf (line * 64)).getD 0
  let s1 := if c.poison.contains line then s else s.setCtrl ch { c with poison := c.poison ++ [line] }
  let s2 := (s1.event 0x000B p 0 false 0 0xFFFF (plcB 0 8 (line * 64))).opEvent 0x000B p 0 (plcB 0 8 (line * 64))
  if 1024 ≤ (s2.ctrl ch).poison.length then s2.loseDimm ch else s2

/-- An uncorrectable line (R236): in a coded carve-out it is reconstructed and rewritten as a P1 write; in the reserved area it is rewritten
from its other copy, or, without one, passes to device level; anywhere else it is poisoned. Lines uncorrectable in two devices of one rank
lose the DIMM (R237). -/
def State.uncorrectable (s : State) (ch line : Nat) (errs : List (Nat × Nat)) : State :=
  let dpa := line * 64
  let fix : MemReq := { id := 0, line := line, write := true, data := s.arrayL dpa 64, who := .repair }
  let s1 :=
    if s.codedDpa dpa then s.memEnter ch fix
    else if s.reserved dpa then
      match s.otherCopy dpa with
      | some d => (s.memEnter (s.dpaChannel d) { id := 0, line := d / 64, write := false, who := .repair }).memEnter ch fix
      | none => s.devFault 1 ch
    else s.poisonLine line
  let ks := dedupN ((s1.ctrl ch).bad ++ (errs.filter (fun e => decide (0 < e.2))).map (fun e => devKey line e.1))
  let s2 := s1.setCtrl ch { s1.ctrl ch with bad := ks }
  if ks.any (fun a => ks.any (fun b => a / 16 == b / 16 && a != b)) then s2.loseDimm ch else s2

/-- A bitmap line that a restarted sequencer asked for has come: past the last one the sweep goes on from the first page whose bit is not the
new slot's (R245). -/
def State.scanned (s : State) (p ch : Nat) : State :=
  match Tab.find s.dram.rekeys p, s.part? p with
  | some y, some x =>
    (match Tab.find y.scans ch with
     | some z =>
       let last := match (s.pagesOn x.runs ch).getLast? with | some a => s.stripeOf a / 512 | none => 0
       if last < s.scanFrom p ch + z.read + 1 then s.setRekey p { y with scans := Tab.del y.scans ch }
       else s.setRekey p { y with scans := Tab.put y.scans ch { read := z.read + 1, out := false } }
     | none => s)
  | _, _ => s

/-- One of a rebuilding's seven lines has come; with the last, the line is their XOR (R235). -/
def State.rebuilt (s : State) (n : Nat) : State :=
  match Tab.find s.dram.rebuilds n with
  | none => s
  | some b =>
    if 1 < b.left then { s with dram := { s.dram with rebuilds := Tab.put s.dram.rebuilds n { b with left := b.left - 1 } } }
    else
      let s1 := { s with dram := { s.dram with rebuilds := Tab.del s.dram.rebuilds n } }
      let l := s.reconstruct (b.req.line * 64)
      let ch := s.dpaChannel (b.req.line * 64)
      match b.req.who with
      | .row k => s1.rowFetched k b.req.line l
      | .none => s1
      | .repair => s1
      | .walk _ _ => s1.reply ch b.req.line (some l) (b.req.id, b.req.who, b.req.reg)
      | .win _ => s1.reply ch b.req.line (some l) (b.req.id, b.req.who, b.req.reg)
      | .engine _ => s1.reply ch b.req.line (some l) (b.req.id, b.req.who, b.req.reg)
      | _ => s1

/-- The data of a read goes where it belongs: a partial write's line is merged, and the write is present as a full-line write from now (R228);
a master has its line or POISON (R239); a sweep's buffer, a flush or a rebuilding takes it. -/
def State.memDeliver (s : State) (ch : Nat) (r : MemReq) (data : List (BitVec 8)) (poison : Bool) : State :=
  if r.write then
    let old := if poison then (List.range 64).map (fun i => Config.freeByte (s.free + i)) else data
    let s1 := (if poison then { s with free := s.free + 1 } else s).keepOld r old
    s1.memIn ch { r with partial' := false, lo := 0, data := r.over old, amo := none, replay := none, frames := 0 }
  else
    match r.who with
    | .walk _ _ => s.reply ch r.line (if poison then none else some data) (r.id, r.who, r.reg)
    | .win _ => s.reply ch r.line (if poison then none else some data) (r.id, r.who, r.reg)
    | .engine _ => s.reply ch r.line (if poison then none else some data) (r.id, r.who, r.reg)
    | .sweep p => s.setSweep p ch (fun g => if g.page = r.line / 64 * 4096 then { g with data := Tab.put g.data (r.line % 64) data } else g)
    | .bitmap p => s.scanned p ch
    | .row n => s.rowFetched n r.line data
    | .rebuild n => s.rebuilt n
    | _ => s

/-- DRAM_READ_DATA: the oldest read of a channel returns; one that DRAM answers is decoded (R218, R219, R236, R239). Errors are given by the
environment. -/
def execDramReadData (ch : Nat) (errs : List (Nat × Nat)) (s : State) : Outc :=
  .next (
    let c := s.ctrl ch
    match c.reads with
    | [] => s
    | x :: l =>
      let s0 := s.setCtrl ch { c with reads := l }
      if x.entry then s0.memDeliver ch x.req x.data false
      else
        let s1 := if c.corrects x.req.line errs then s0.noteLine ch x.req.line errs else s0.uncorrectable ch x.req.line errs
        s1.memDeliver ch x.req x.data (s1.poisoned (x.req.line * 64)))

/-- The n-th line of a subchannel of a channel, ascending in DPA (R226). -/
def State.scrubLine (s : State) (ch sub n : Nat) : Nat :=
  (ch / 8 * 2 ^ s.spanBits + n / 32 * 32768 + ch % 8 * 4096) / 64 + n % 32 * 2 + sub

/-- DRAM_PATROL_SCRUB: the frame's maintenance slot reads the subchannel's next line in ascending order, wrapping at the end of installed
memory; a corrected line enters the queue as a P3 write (R226), and one that cannot be corrected is treated as R236 says. -/
def execDramPatrolScrub (ch sub : Nat) (errs : List (Nat × Nat)) (s : State) : Outc :=
  .next (
    let c := s.ctrl ch
    let x := c.sub sub
    if 48 ≤ ch ∨ 2 ≤ sub ∨ x.slot < 34 ∨ x.scrubbed ∨ c.lost ∨ s.sys.state = .doze then s
    else
      let line := s.scrubLine ch sub x.scrub
      let s0 := s.setCtrl ch (c.setSub sub { x with scrubbed := true, scrub := if 32 * 2 ^ (s.spanBits - 15) ≤ x.scrub + 1 then 0 else x.scrub + 1 })
      if !errs.any (fun e => decide (0 < e.2)) then s0
      else if c.corrects line errs then (s0.noteLine ch line errs).memEnter ch { id := 0, line := line, write := true, p3 := true, data := s.arrayL (line * 64) 64, who := .repair }
      else s0.uncorrectable ch line errs)

/-- DRAM_BUS_REPLAY: a CRC or parity error on the bus, in the read or write granted with this number of presence: it is granted again in a
later frame ahead of every other request; command parity errors that persist through 3 retrainings lose the DIMM (R237, R238). -/
def execDramBusReplay (ch seq : Nat) (command : Bool) (s : State) : Outc :=
  .next (
    let c := s.ctrl ch
    let hit (o : Option MemReq) : Bool := match o with | some r => r.seq == seq | none => false
    let back := (c.reads.filter (fun x => !x.entry && x.req.seq == seq)).map (·.req) ++ ([c.sub0.busy, c.sub1.busy].filter hit).filterMap id
    let free (x : SubChan) : SubChan := if hit x.busy then { x with busy := none } else x
    let c1 := { c with reads := c.reads.filter (fun x => x.entry || x.req.seq != seq), sub0 := free c.sub0, sub1 := free c.sub1, queue := back.map (fun r => { r with replay := some c.frame }) ++ c.queue, retrains := if command then c.retrains + 1 else 0 }
    let s1 := s.setCtrl ch c1
    if command && 3 ≤ c1.retrains then s1.loseDimm ch else s1)

/-- DIMM_LOST: a DIMM is declared lost, by its PMIC's fault or one of R237's other cases. -/
def execDimmLost (ch : Nat) (s : State) : Outc := .next (if ch < 48 then s.loseDimm ch else s)

/-- An answer reaches its master: the count falls (R410, R423), and a walk, a window request or an engine has its line, or POISON (R239). An
answer whose master was reset meanwhile has nobody to go to (R426). -/
def State.memArrive (s : State) (id line : Nat) (data : Option (List (BitVec 8))) (reg : Option (Nat × Bool)) : State :=
  let who := Tab.getD s.dram.txns id .none
  let s1 := match reg with | some (k, p3) => s.regDone k p3 (who != MemWho.none) | none => s
  let s2 := { s1 with dram := { s1.dram with txns := Tab.del s1.dram.txns id } }
  match who with
  | .walk b slot => s2.walkData b slot id data
  | .win n => s2.winLine n line data
  | .engine e => if data.isNone then s2.programFault e .poison 0xFFFF (line * 64) else s2
  | _ => s2

/-! ## The parity engine (R231-R235) -/

/-- CLK_SPN after which a row is flushed (R234). -/
def rowAge : Nat := 2048

/-- A row entry is due for a flush (R234): full, 2,048 CLK_SPN since its first staged write, or the oldest of its region's 512 while a write
waits for an entry. -/
def State.rowDue (s : State) (r : RowEntry) : Bool :=
  !r.flushing && (decide (7 ≤ r.staged.length) || decide (r.born + rowAge ≤ s.spine.cycle) ||
    (decide (512 ≤ (s.dram.rows.filter (fun q => q.region == r.region)).length) &&
      s.dram.rowWait.any (fun w => s.dpaRegion (w.line * 64) == r.region && (s.rowOf w.line).isNone) &&
      (s.dram.rows.find? (fun q => q.region == r.region && !q.flushing)).any (fun q => q.id == r.id)))

/-- A row whose flush begins: a partial row first reads its unstaged data lines (R234). -/
def RowEntry.flush (r : RowEntry) : RowEntry :=
  let data := (List.range 8).filter (fun p => p != r.stripe % 8)
  let asks := data.filter (fun p => !Tab.has r.staged p)
  { r with flushing := true, writing := asks.isEmpty, asks := asks, todo := r.stripe % 8 :: data.filter (fun p => Tab.has r.staged p) }

/-- PARITY_ROW_FLUSH: the region's oldest due row is flushed: a full row as 8 P1 writes, present from now; a partial row reads its unstaged
data lines, then writes the staged lines and the parity line (R233, R234). -/
def execParityRowFlush (region : Nat) (s : State) : Outc :=
  .next (
    match s.dram.rows.find? (fun r => r.region == region && s.rowDue r) with
    | none => s
    | some r => (List.range 8).foldl (fun (s : State) i => s.pushRows (region * 8 + i)) (s.setRow r.flush))

/-- Every status of a row's flush has returned (R234). -/
def RowEntry.flushed (r : RowEntry) : Bool := r.flushing && r.writing && r.todo.isEmpty && r.out == 0

/-- The requests held in a region's engine come to it again, in order. -/
def State.rowRetry (s : State) (f : MemReq → Bool) : State :=
  (s.dram.rowWait.filter f).foldl (fun (s : State) r => s.memIn (s.dpaChannel (r.line * 64)) r) { s with dram := { s.dram with rowWait := s.dram.rowWait.filter (fun r => !f r) } }

/-- PARITY_ENTRY_FREED: every status of the region's oldest finished flush has returned: the entry is freed, and writes held for an entry
proceed (R234). -/
def execParityEntryFreed (region : Nat) (s : State) : Outc :=
  .next (
    match takeFirst (fun r => r.region == region && r.flushed) s.dram.rows with
    | none => s
    | some (_, l) => ({ s with dram := { s.dram with rows := l } }).rowRetry (fun w => s.dpaRegion (w.line * 64) == region))

/-- CODED_INIT_DONE: a coded carve-out's zero initialisation ends, and held requests are released (R232). -/
def execCodedInitDone (p : Nat) (s : State) : Outc :=
  .next ((s.updPart p (fun x => { x with initialising := false })).rowRetry (fun w => s.ownerOf (w.line * 64) == some p))

/-! ## Key rotation (R242-R245) -/

/-- R242. A partition asks for its own; the operator's function (partition 0) for any. -/
def partitionRekeyBody (r : Nat) (e : CmdEnv) (s : State) : CmdRes :=
  let p := fld r 0 5 0
  if rsvdSet r (maskOf [(0, 5, 0)]) then refuse s .rsvdSet
  else if p == 0 || 60 < p || (e.part != 0 && p != e.part) || !s.livePart p then refuse s .badId
  else if Tab.has s.dram.rekeys p || (match s.part? p with | some x => x.initialising | none => false) then
    (s, some (.busy .rekeyInProgress 0))
  else
    match Tab.find s.dram.keys p with
    | none => refuse s .badId
    | some k =>
      let n := 1 - k.cur
      let k1 := if n = 0 then { k with k0 := some s.dram.nextKey } else { k with k1 := some s.dram.nextKey }
      done { s with dram := { s.dram with keys := Tab.put s.dram.keys p k1, nextKey := s.dram.nextKey + 1, rekeys := Tab.put s.dram.rekeys p { newSlot := n } } } 0

/-- PARTITION_REKEY. -/
def execPartitionRekey (ring : Nat) (record : BitVec 64) (s : State) : Outc :=
  .next (runCmd s ring 0x001E record.toNat 0 (partitionRekeyBody record.toNat))

/-- REKEY_SWEEP_PAGE: the channel's next page that still has the old bit is in flight: its 64 lines are read under the old slot and written
under the new one, by P3 requests that the controller queues as it has entries; requests to it are held (R243). With no such page the
channel has finished. A sweep of a partition being destroyed takes no further page (R250), and a restarted sequencer reads its bitmap
lines first (R245). -/
def execRekeySweepPage (p ch : Nat) (s : State) : Outc :=
  .next (
    match Tab.find s.dram.rekeys p, s.part? p with
    | some y, some x =>
      if 48 ≤ ch ∨ Tab.has y.pages ch = true ∨ Tab.has y.scans ch = true ∨ y.done.contains ch = true ∨ y.stopping = true ∨ (s.ctrl ch).lost = true then s
      else
        match (s.pagesOn x.runs ch).find? (fun a => Tab.getD s.dram.bitmap (a / 4096) 0 != y.newSlot) with
        | none => s.setRekey p { y with done := y.done ++ [ch] }
        | some a => (s.setRekey p { y with pages := Tab.put y.pages ch { page := a } }).repeatNext (fun s => s.sweepNext p ch) 64
    | _, _ => s)

/-- REKEY_BITMAP_FLIP: the last of the page's rewrites is complete, and the bitmap line that holds its bit is written, as a P1 write (R243). -/
def execRekeyBitmapFlip (p ch : Nat) (s : State) : Outc :=
  .next (
    match (Tab.find s.dram.rekeys p).bind (fun y => Tab.find y.pages ch) with
    | none => s
    | some g =>
      if g.mask.length < 64 ∨ g.flip ≠ 0 then s
      else
        match s.tryEnter ch { id := 0, line := Config.bitmapLine ch (s.stripeOf g.page / 512), write := true, data := List.replicate 64 0, who := .flip p } with
        | some t => t.setSweep p ch (fun g => { g with flip := 1 })
        | none => s)

/-- A destroyed partition's sweep is over once no page of it is in flight: both slots are erased, and the wipe follows (R250). -/
def State.endSweep (s : State) (p : Nat) : State :=
  match Tab.find s.dram.rekeys p with
  | some y => if y.stopping && y.pages.isEmpty then { s with dram := { s.dram with rekeys := Tab.del s.dram.rekeys p, keys := Tab.del s.dram.keys p } } else s
  | none => s

/-- A carve-out is given up (R250, R342): its staged rows and the requests held in its engines are discarded, a sweep stops at its page
boundary, both its key slots are erased with the sweep's end, and the wipe begins. -/
def State.endCarveOut (s : State) (p : Nat) : State :=
  let own (dpa : Nat) : Bool := s.ownerOf dpa == some p
  let d := { s.dram with rows := s.dram.rows.filter (fun r => !own (s.rowDpa r 0)), rowWait := s.dram.rowWait.filter (fun r => !own (r.line * 64)), rekeys := Tab.upd s.dram.rekeys p (fun y => { y with stopping := true }), wipes := s.dram.wipes ++ [{ kind := 2, part := p }] }
  if Tab.has d.rekeys p then ({ s with dram := d } : State).endSweep p else { s with dram := { d with keys := Tab.del d.keys p } }

/-- REKEY_PAGE_RELEASE: the flip is complete; the page is released and held requests become eligible with their ranks (R243, R244). -/
def execRekeyPageRelease (p ch : Nat) (s : State) : Outc :=
  .next (
    match Tab.find s.dram.rekeys p with
    | none => s
    | some y =>
      match Tab.find y.pages ch with
      | some g => if g.flip = 2 then (s.setRekey p { y with pages := Tab.del y.pages ch, pos := Tab.put y.pos ch (Tab.getD y.pos ch 0 + 1) }).endSweep p else s
      | none => s)

/-- Channels that hold pages of the partition. -/
def State.channelsOf (s : State) (x : Partition) : List Nat :=
  (List.range 48).filter (fun ch => x.runs.any (fun r => s.dpaRegion r.1 == ch / 8))

/-- REKEY_DONE: every channel has finished: Porter erases the old slot, and the partition receives rekey_done (R243). -/
def execRekeyDone (p : Nat) (s : State) : Outc :=
  .next (
    match Tab.find s.dram.rekeys p, s.part? p, Tab.find s.dram.keys p with
    | some y, some x, some k =>
      if (s.channelsOf x).all (fun ch => y.done.contains ch) then
        let k1 := if y.newSlot = 0 then { k with k1 := none, cur := 0 } else { k with k0 := none, cur := 1 }
        { s with dram := { s.dram with keys := Tab.put s.dram.keys p k1, rekeys := Tab.del s.dram.rekeys p } }.emitOut (.rekeyDone p)
      else s
    | _, _, _ => s)

/-- SEQUENCER_RESTART: a controller's sequencer restarts: sweep buffer, mask and position stand, so that the page in flight is completed from
the buffer; then it reads the bitmap lines of each sweep's pages, and requests beyond the last line read are held (R245). -/
def execSequencerRestart (ch : Nat) (s : State) : Outc :=
  .next ({ s with dram := { s.dram with rekeys := Tab.all s.dram.rekeys (fun _ y => if y.done.contains ch then y else { y with scans := Tab.put y.scans ch {} }) } })

/-! ## Wiping (R246-R249) -/

/-- Frames of a full wipe: 34 writes of each subchannel a frame (R247); a DIMM has its capacity / 128 bytes lines per subchannel. -/
def State.wipeFrames (s : State) : Nat := cdiv (32 * 2 ^ (s.spanBits - 15)) 34

/-- A controller after a full wipe: the frames have passed, all of them WRITE frames, refreshes in their slots, and no line is poisoned. -/
def Ctrl.wiped (c : Ctrl) (n : Nat) : Ctrl :=
  let f := c.frame + n
  let sub (x : SubChan) : SubChan := { x with slot := 0, write := true, reads := 0, writes := n, used := [], busy := none }
  { c with frame := f, sub0 := sub c.sub0, sub1 := sub c.sub1, queue := [], reads := [], poison := [], refs := ([f - 3, f - 2, f - 1].filter (fun x => decide (c.frame ≤ x) && c.refDue x)).map (fun x => (c.refGroupOf x, x)) }

/-- DEVICE_WIPE: a device or life-cycle wipe in progress ends: every line of installed memory holds zero, no page has bit 1,
no line is poisoned, and every channel has run the frames it takes (R246, R247). -/
def execDeviceWipe (s : State) : Outc :=
  .next (
    if s.dram.wipes.any (fun w => decide (w.kind ≤ 1)) then
      { s with dram := { s.dram with dram := [], written := [], bitmap := [], rows := [], rowWait := [], rebuilds := [], rekeys := [], wipes := s.dram.wipes.filter (fun w => decide (1 < w.kind)), ctrls := (List.range 48).map (fun ch => (ch, (s.ctrl ch).wiped s.wipeFrames)) } }
    else s)

/-- A carve-out wipe has written every line: none is left to queue on a channel in service, or still in a queue (R248). -/
def State.wipeOver (s : State) (w : DramWipe) : Bool :=
  !Tab.has s.dram.rekeys w.part &&
  (List.range 48).all (fun ch => (s.ctrl ch).lost || (decide (s.linesOn (match s.part? w.part with | some x => x.runs | none => []) ch ≤ Tab.getD w.next ch 0) && s.ownHeld ch (.wipe w.part) == 0))

/-- CARVE_OUT_WIPE_DONE: a carve-out wipe ends, once all its writes are complete (R246, R248). -/
def execCarveOutWipeDone (p : Nat) (s : State) : Outc :=
  .next (
    if s.dram.wipes.any (fun w => w.kind == 2 && w.part == p && s.wipeOver w) then
      { s with dram := { s.dram with wipes := s.dram.wipes.filter (fun w => !(w.kind == 2 && w.part == p)) } }
    else s)

end Sys2Proof.Machine
end

