-- ==== Sys2Proof/Machine/Spines.lean ====
section
/-! DEFINITION. Sys2Proof/Machine/Spines.lean: the cycles of the region spines and the hub switch: places, credits, output arbitration,
arrivals, and failed checks (06_slice_memory R171-R175, R555). -/

namespace Sys2Proof.Machine

/-! ## Ports and places (R171, R172, R555) -/

/-- Flits a port moves per CLK_SPN in each direction. -/
def portWidth (node port : Nat) : Nat :=
  if node = 6 then (if port < 8 then 4 else if port < 10 then 2 else if port = 10 then 4 else 1)
  else (if port < 20 then 2 else 4)

/-- A die-to-die port. -/
def dieToDie (node port : Nat) : Bool := if node = 6 then decide (port < 6) else port == 20

def VChan.num : VChan → Nat
  | .response => 0
  | .management => 1
  | .control => 2
  | .request => 3

/-- The inbound buffer of a port and virtual channel, which holds 16 flits. -/
def placeKey (h : SHop) (vc : VChan) : Nat := (h.node * 32 + portOf h.inp) * 4 + vc.num

/-- Places of a buffer that its sender may not use: held, or with their credit still on its way (R172). -/
def State.placesUsed (s : State) (k : Nat) : Nat :=
  (s.spine.flits.filter (fun f => f.inside && (match f.way with | h :: _ => placeKey h f.vc == k | [] => false))).length +
  (s.spine.credits.filter (fun c => c.1 == k && decide (s.spine.cycle < c.2))).length

def State.placeFree (s : State) (h : SHop) (vc : VChan) : Bool := decide (s.placesUsed (placeKey h vc) < 16)

/-- Cycles until the credit of a freed place reaches its sender (R172). -/
def creditDelay (h : SHop) : Nat := if dieToDie h.node h.inp then 12 else 3

def State.updFlit (s : State) (n : Nat) (f : SFlit → SFlit) : State :=
  { s with spine := { s.spine with flits := s.spine.flits.map (fun x => if x.id == n then f x else x) } }

/-! ## Entry -/

/-- Flits that wait outside a port enter it in the order in which they were sent, as many as its width, while their channel has a place;
a flit may leave again after the crossing of 3 cycles (R28). -/
def State.enterPort (s : State) (node inp : Nat) : Nat → List SFlit → State
  | 0, _ => s
  | _, [] => s
  | w + 1, f :: l =>
    match f.way with
    | h :: _ =>
      if h.node = node ∧ h.inp = inp ∧ s.placeFree h f.vc = true then
        (s.updFlit f.id (fun x => { x with inside := true, ready := s.spine.cycle + 3 })).enterPort node inp w l
      else s.enterPort node inp (w + 1) l
    | [] => s.enterPort node inp (w + 1) l

/-- Where a flit outside the first port of its way waits: node * 32 + input. -/
def SFlit.outsideAt (f : SFlit) : Option Nat := if f.inside then none else match f.way with | h :: _ => some (h.node * 32 + h.inp) | [] => none

/-- The crier port of region r moves a crier beat in this CLK_SPN, and no unit flit (R188). -/
def State.beatNow (s : State) (r : Nat) : Bool := (s.crier r).beatAt == some s.spine.cycle

/-- Unit flits enter a region's crier port one by one, round-robin over the eight units after the one served last (R188). -/
def State.enterUnits (s : State) (r : Nat) : Nat → State
  | 0 => s
  | n + 1 =>
    let c := s.crier r
    let unit (f : SFlit) : Nat := match f.outsideAt with | some k => k % 32 - 24 | none => 0
    let l := s.spine.flits.filter (fun f => (match f.outsideAt with | some k => k / 32 == r && decide (24 ≤ k % 32) | none => false) &&
      (match f.way with | h :: _ => s.placeFree h f.vc | [] => false))
    match (sortBy (fun (f : SFlit) => (unit f + 7 - c.lastUnit) % 8 * 2 ^ 40 + f.id) l).head? with
    | none => s
    | some f => ((s.updFlit f.id (fun x => { x with inside := true, ready := s.spine.cycle + 3 })).setCrier r { c with lastUnit := unit f }).enterUnits r n

/-- All ports at which a flit waits to enter. -/
def State.enterAll (s : State) : State :=
  let ks := dedupN (s.spine.flits.filterMap SFlit.outsideAt)
  let rs := dedupN ((ks.filter (fun k => 24 ≤ k % 32)).map (· / 32))
  let s1 := rs.foldl (fun (s : State) r => if s.beatNow r then s else s.enterUnits r 4) s
  (ks.filter (fun k => k % 32 < 24)).foldl (fun (s : State) k =>
    s.enterPort (k / 32) (k % 32) (portWidth (k / 32) (k % 32)) (s.spine.flits.filter (fun f => !f.inside))) s1

/-! ## Outputs (R173) -/

/-- A hop's number: node * 256 + output for the check at an output, node * 256 + 128 + input for that of a die-to-die receiver (R175). -/
def outHop (h : SHop) : Nat := h.node * 256 + h.out
def inHop (h : SHop) : Nat := h.node * 256 + 128 + h.inp

/-- A request enters its controller only when that has an entry for it: until then the controller returns no credit, and the request waits in
the inbound buffer (R227). A write to a coded carve-out ends at the parity engine. -/
def State.admits (s : State) (f : SFlit) : Bool :=
  match f.load, f.way with
  | .memory r, [_] => (r.write && s.codedDpa (r.line * 64)) || (s.ctrl (s.dpaChannel (r.line * 64))).lost || s.roomFor (s.dpaChannel (r.line * 64)) r
  | _, _ => true

/-- The flits that an output may send now: inside, past their crossing or traverse, on no failed hop, and with a credit for the next
buffer, or leaving the last node. -/
def State.waiting (s : State) (node out : Nat) : List SFlit :=
  s.spine.flits.filter (fun f => f.inside && decide (f.ready ≤ s.spine.cycle) &&
    (match f.way with
     | h :: l => h.node == node && h.out == out && s.admits f && !s.fab.failedHops.contains (outHop h) && !s.fab.failedHops.contains (inHop h) &&
         (match l with | g :: _ => s.placeFree g f.vc | [] => true)
     | [] => false))

def SFlit.inp (f : SFlit) : Nat := match f.way with | h :: _ => portOf h.inp | [] => 0

/-- The key of the input an output served last, by class and channel. -/
def turnKey (node out cls : Nat) (vc : VChan) : Nat := ((node * 32 + out) * 4 + cls) * 4 + vc.num

/-- The flit a slot sends (R173): in a milestone slot the oldest, ties to the lower input; else the lowest class, then the channel's
order, then round-robin over the inputs after the one served last, and of one input the flit sent first. -/
def State.pick (s : State) (node out slot : Nat) : Option SFlit :=
  let l := s.waiting node out
  let key (f : SFlit) : Nat :=
    if slot % 16 = 15 then (f.born * 32 + f.inp) * 2 ^ 40 + f.id
    else
      let last := Tab.getD s.spine.lastIn (turnKey node out f.cls f.vc) 31
      ((f.cls * 4 + f.vc.num) * 32 + (f.inp + 31 - last) % 32) * 2 ^ 40 + f.id
  (sortBy key l).head?

/-- A flit leaves a node: its place frees, its checks have passed, and it holds a place of the next node, or crosses to its target. -/
def State.leaveNode (s : State) (f : SFlit) : State :=
  match f.way with
  | [] => s
  | h :: l =>
    let f1 := { f with way := l, ready := s.spine.cycle + hopCount h }
    { s with spine := { s.spine with
      flits := s.spine.flits.map (fun x => if x.id == f.id then f1 else x),
      lastIn := Tab.put s.spine.lastIn (turnKey h.node h.out f.cls f.vc) (portOf h.inp),
      credits := s.spine.credits ++ [(placeKey h f.vc, s.spine.cycle + creditDelay h)],
      fails := s.spine.fails.filter (fun (x : Nat × Nat × Nat) => x.2.1 != f.id || decide (254 ≤ x.1 % 256)) } }

/-- The slots of one output in one CLK_SPN. -/
def State.outputSlots (s : State) (node out : Nat) : Nat → State
  | 0 => s
  | n + 1 =>
    let w := portWidth node out
    let s1 := match s.pick node out (s.spine.cycle * w + (w - (n + 1))) with
      | some f => s.leaveNode f
      | none => s
    s1.outputSlots node out n

/-- A spine or the hub switch whose island is stretched has a cycle in every other CLK_SPN only (R464). -/
def State.stretchedOut (s : State) (node : Nat) : Bool := Tab.has s.pow.droop (60 + node) && s.spine.cycle % 2 == 1

/-- All outputs for which a flit waits; the crier port moves no unit flit in a cycle in which it moves a beat (R188). -/
def State.outputs (s : State) : State :=
  let os := dedupN (s.spine.flits.filterMap (fun f => if f.inside then (match f.way with | h :: _ => some (h.node * 32 + h.out) | [] => none) else none))
  (os.filter (fun k => !s.stretchedOut (k / 32) && !(k % 32 == 21 && s.beatNow (k / 32)))).foldl (fun (s : State) k => s.outputSlots (k / 32) (k % 32) (portWidth (k / 32) (k % 32))) s

/-! ## Arrivals -/

/-- A flit reaches its target: a claim its bank, unless its access is gone or its block is being wiped (R170); an answer its access; a
waybill, signal or predicate the place where its command takes it; an FSIG's status its register; a mark its sender. -/
def State.land (s : State) (f : SFlit) : State :=
  match f.load with
  | .claim c => if Tab.has s.fab.accesses c.access && (s.block c.block).wipe.isNone then { s with fab := { s.fab with claims := s.fab.claims ++ [c] } } else s
  | .reply n bs lost => s.lineDone n bs lost
  | .waybill => { s with stn := { s.stn with flight := s.stn.flight.map (fun x => if x.flit == some f.id then { x with flit := none, left := s.spine.cycle } else x) } }
  | .fence => { s with fen := { s.fen with port := s.fen.port.filter (fun x => x.flit != some f.id) ++ (s.fen.port.filter (fun x => x.flit == some f.id)).map (fun x => { x with flit := none }) } }
  | .pred => { s with stn := { s.stn with preds := s.stn.preds.map (fun x => if x.flit == some f.id then { x with flit := none } else x) } }
  | .fsig c rd k => s.takeStatus c rd k
  | .mark n t k => s.takeMark n t k
  | .memory r => (s.received r).memIn (s.dpaChannel (r.line * 64)) r
  | .memReply id line data reg => s.memArrive id line data reg

/-- The flits whose crossing to their target is over. -/
def State.arrivals (s : State) : State :=
  let here := s.spine.flits.filter (fun f => f.way.isEmpty && decide (f.ready ≤ s.spine.cycle))
  here.foldl State.land { s with spine := { s.spine with flits := s.spine.flits.filter (fun f => !(f.way.isEmpty && decide (f.ready ≤ s.spine.cycle))) } }

/-! ## One CLK_SPN -/

/-- The replicators, the device root and the region criers in one CLK_SPN: two copies, a stage, a beat (R178, R179, R183). -/
def State.busCycle (s : State) : State :=
  let s1 := if s.fab.streams.isEmpty then s else (List.range 6).foldl (fun (s : State) r => if s.stretchedOut r then s else (s.copyOne r).copyOne r) s
  if s.fab.sends.isEmpty then s1 else (List.range 6).foldl (fun (s : State) r => if s.stretchedOut r then s else s.crierCycle r) (if s1.stretchedOut 6 then s1 else s1.rootCycle)

/-- One CLK_SPN of the spines, the hub switch and the criers. -/
def State.spineCycle (s : State) : State :=
  let s1 := { s with spine := { s.spine with cycle := s.spine.cycle + 1, credits := s.spine.credits.filter (fun c => decide (s.spine.cycle + 1 < c.2)) } }
  let s2 := (if s1.dram.backlog.isEmpty then s1 else s1.issueTxns).busCycle
  (if s2.spine.flits.isEmpty then s2 else s2.arrivals.enterAll.outputs).endAccesses.endStreams

/-- Nothing is under way on the spines, the hub switch or the criers. -/
def State.spineIdle (s : State) : Bool := s.spine.flits.isEmpty && s.fab.streams.isEmpty && s.fab.sends.isEmpty && s.dram.backlog.isEmpty

/-- A number of CLK_SPN. With nothing under way only the count advances. -/
def State.spineRun (s : State) : Nat → State
  | 0 => s
  | n + 1 =>
    if s.spineIdle then { s with spine := { s.spine with cycle := s.spine.cycle + (n + 1), credits := [] } }
    else s.spineCycle.spineRun n

/-- SLICE_ACCESS_COMPLETE: one CLK_BLK of a block's banks (R163-R168) and of its BTU, which issues a walk read (R259), and with it one CLK_SPN, which brings claims of other blocks to it
and takes their answers back (DESIGN CHOICE, log entry 47: the table has no row for a cycle of CLK_SPN). -/
def execSliceAccessComplete (block : Nat) (s : State) : Outc := .next (((s.bankCycle block).issueRead block).spineCycle)

/-! ## Failed checks (R175) -/

/-- The flit is on a hop: it waits for its output's check, or has come through the die-to-die receiver. -/
def SFlit.onHop (f : SFlit) (hop : Nat) : Bool :=
  f.inside && (match f.way with | h :: _ => outHop h == hop || (dieToDie h.node h.inp && inHop h == hop) | [] => false)

/-- Failed checks in a row of a flit on a hop. -/
def State.failsOf (s : State) (hop flit : Nat) : Nat :=
  match s.spine.fails.find? (fun x => x.1 == hop && x.2.1 == flit) with
  | some x => x.2.2
  | none => 0

/-- The hop of region r's crier link at the spine, and at its die-to-die receiver (R185). -/
def crierHop (r : Nat) : Nat := r * 256 + 254
def crierDie (r : Nat) : Nat := r * 256 + 255

/-- The beat on region r's crier is on a hop of its link: a device stage's beat comes through the die-to-die receiver too. -/
def State.beatOn (s : State) (hop send : Nat) : Bool :=
  hop % 256 ≥ 254 && decide (hop / 256 < 6) &&
  (match (s.crier (hop / 256)).cur with
   | some g => g.send == send && (hop % 256 == 254 || (s.send? send).any (·.device))
   | none => false)

/-- One more failed check of a flit on a hop: its replay takes 10 CLK_SPN at a spine output, 28 at a die-to-die receiver. -/
def State.replay (s : State) (hop flit : Nat) : State :=
  let n := s.failsOf hop flit + 1
  let d := if 128 ≤ hop % 256 ∧ hop % 256 ≠ 254 then 28 else 10
  let s1 := { s with spine := { s.spine with fails := s.spine.fails.filter (fun (x : Nat × Nat × Nat) => !(x.1 == hop && x.2.1 == flit)) ++ [(hop, flit, n)] }, fab := { s.fab with replays := s.fab.replays + 1 } }
  if 254 ≤ hop % 256 then
    let c := s1.crier (hop / 256)
    s1.setCrier (hop / 256) { c with hold := s1.spine.cycle + d }
  else s1.updFlit flit (fun x => { x with ready := max x.ready s1.spine.cycle + d })

/-- A hop has failed: nothing crosses it any more, and the region, whose generation advances, or the hub, is lost (R175, R425, R441). -/
def State.failHop (s : State) (hop : Nat) : State :=
  if s.fab.failedHops.contains hop then s
  else
    let r := hop / 256
    let gens := if r < 6 then Tab.put s.fab.regionGen r ((get0 s.fab.regionGen r + 1) % 256) else s.fab.regionGen
    { s with fab := { s.fab with failedHops := s.fab.failedHops ++ [hop], regionGen := gens } }.devFault (if r < 6 then 2 else 7) r

/-- SPINE_FLIT_CRC_FAIL: a flit, or the beat of a crier send, fails its check on the hop it is on, and is replayed; its ninth failure there
with no passing check between means that the hop has failed (R175). -/
def execSpineFlitCrcFail (hop flit : Nat) (s : State) : Outc :=
  .next (
    if !(s.spine.flits.any (fun f => f.id == flit && f.onHop hop) || s.beatOn hop flit) then s
    else if s.failsOf hop flit < 8 then s.replay hop flit
    else s.failHop hop)

end Sys2Proof.Machine
end

