-- ==== Sys2Proof/Machine/Starts.lean ====
section
/-! DEFINITION. Sys2Proof/Machine/Starts.lean: binding engines to stations, appointing stewards, and the dispatcher's starts
(02_stations_and_waybills R51-R68, 05_scalar_cells R150-R156, R284). -/

namespace Sys2Proof.Machine

/-! ## STATION_BIND (R51, R54-R56, R79, R116, R138, R190, R392) -/

/-- The engine ID is of the type the station's kind names (R51), and its number is one of the part's. -/
def kindMatches (kind e : Nat) : Bool :=
  let n := engNum e
  match kind with
  | 1 => engClass e == 1 && n % 20 < 12
  | 2 => engClass e == 1 && decide (12 ≤ n % 20) && n % 20 < 18
  | 3 => engClass e == 1 && decide (18 ≤ n % 20)
  | 4 => engClass e == 3 && n < 24
  | 5 => engClass e == 4 && n < 24
  | 6 => engClass e == 2
  | 7 => engClass e == 2
  | 8 => engClass e == 5 && n < 12
  | _ => false

/-- A kind whose engines are the region's fixed units. -/
def regionKind (kind : Nat) : Bool := kind == 4 || kind == 5 || kind == 8

/-- The lowest-numbered physical block of a region bound to the partition (R54). -/
def State.lowestBlock (s : State) (p r : Nat) : Option Nat :=
  (List.range 60).find? (fun b => regionOf b == r && (s.named p b).isSome)

/-- The physical anchor block of a bind: the station's own, or the one its first engine fixes (R54). -/
def State.bindAnchor (s : State) (p : Nat) (t : Station) (e0 : Nat) : Option Nat :=
  match s.anchorPhys p t with
  | some b => some b
  | none => if regionKind t.kind then s.lowestBlock p (engRegion e0) else engBlock e0

/-- Ring space for a bind: the places of the inputs' hot rings when they are placed now (R54, R56, R71). -/
def State.bindRings (s : State) (b : Nat) (t : Station) : Option (List (Nat × Nat) × List (Nat × Nat)) :=
  placeRings s s.free (t.inQ.filter (fun q => match s.queue? q with | some x => x.placed.isNone | none => false)) (s.disp b).ringUse

/-- The program and parameter bytes of a station; none when they cannot be read. -/
def State.bindImage (s : State) (p : Nat) (t : Station) : Option (List (BitVec 8) × List (BitVec 8)) :=
  let prog := if programKind t.kind then (s.obj? p t.programHandle).bind (fun o => s.readObj o t.programOff t.programLen) else some []
  let par := if t.paramLen = 0 then some [] else (s.obj? p t.paramHandle).bind (fun o => s.readObj o 0 t.paramLen)
  match prog, par with
  | some a, some b => some (a, b)
  | _, _ => none

/-- The checks of the program or parameter record at bind (R98, R134, R157, R190, R392). -/
def State.bindCheck (s : State) (p : Nat) (t : Station) (e0 : Nat) (im : List (BitVec 8) × List (BitVec 8)) : Option Ans :=
  let prog (r : Option (Nat × Nat)) : Option Ans := r.map (fun x => .refused .badProgram (x.1 ||| x.2 <<< 16))
  match t.kind with
  | 1 => prog (mCheck im.1)
  | 2 => prog (vCheck im.1)
  | 3 => prog (sCheck false im.1)
  | 4 => dispatchBad s p (ofBytes im.2)
  | 5 => combineBad s p (ofBytes im.2)
  | 6 => gatherBad s p (ofBytes im.2)
  | 8 => collectiveBad s p (engNum e0) (ofBytes im.2)
  | _ => none

/-- Load a program and its parameters into a cell, and keep them as its bind image (R79, R116, R138). -/
def State.loadCell (s : State) (c : Nat) (im : List (BitVec 8) × List (BitVec 8)) : State :=
  let s1 := { s with cell := { s.cell with images := Tab.put s.cell.images c im } }
  match cellKind c with
  | 1 => s1.setM c { s1.mcell c with store := Memory.writeL [] 0 im.1, progLen := im.1.length, bBuf := Memory.writeL (s1.mcell c).bBuf 0 (im.2.take 131072), bScale := Memory.writeL (s1.mcell c).bScale 0 (im.2.drop 131072) }
  | 2 => s1.setV c { s1.vcell c with store := Memory.writeL [] 0 im.1, progLen := im.1.length, paramLen := im.2.length, local' := Memory.writeL (s1.vcell c).local' 0 im.2 }
  | _ => s1.setS c { s1.scell c with store := Memory.writeL [] 0 im.1, progLen := im.1.length, paramLen := im.2.length, role := 0, local' := Memory.writeL (s1.scell c).local' 0 im.2 }

/-- The fence a fixed unit's parameter record names, with its enable (R192, R203, R210). -/
def unitFence (kind r : Nat) : Option Nat :=
  match kind with
  | 4 => if bit r 21 0 then some (fldB r 22 2) else none
  | 5 => if bit r 0 1 then some (fldB r 6 2) else none
  | 6 => if bit r 38 0 then some (fldB r 40 2) else none
  | _ => none

/-- Hot rings placed in an anchor: each queue records its place, and the dispatcher's ring area is taken (R71). -/
def State.takePlaces (s : State) (p b : Nat) (places used : List (Nat × Nat)) : State :=
  let name := (s.named p b).getD 0
  let s1 := places.foldl (fun (s : State) (pl : Nat × Nat) =>
    match s.queue? pl.1 with
    | some x => s.setQueue pl.1 { x with placed := some (name, ringLine pl.2), headSince := s.now }
    | none => s) s
  { (s1.setDisp b { s1.disp b with ringUse := used }) with free := s1.free + places.length }

/-- The bind takes effect (R54, R55, R201). -/
def State.bindNow (s : State) (p id : Nat) (t : Station) (b : Nat) (es : List Nat) (im : List (BitVec 8) × List (BitVec 8))
    (rings : List (Nat × Nat) × List (Nat × Nat)) : State × Nat :=
  let first := t.anchor.isNone
  let s1 := s.takePlaces p b rings.1 rings.2
  let slot := match t.anchor with | some a => a.2 | none => ((s.disp b).freeSlot).getD 0
  let s2 := if first then s1.setDisp b { s1.disp b with slots := Tab.put (s1.disp b).slots slot (stnKey p id) } else s1
  let name := (s.named p b).getD 0
  let f0 := match t.engines with
    | e :: _ => Tab.getD s.unit.f0 e 0
    | [] => match unitFence t.kind (ofBytes im.2) with | some f => fenceValue (s.fenceWord f) | none => 0
  let s3 := es.foldl (fun (s : State) e =>
    let s1 := s.setEngine e { part := p, station := id, fromE := s.epochOf p, toE := none, start := none, params := if programKind t.kind then [] else Memory.writeL [] 0 im.2 }
    let s2 := if programKind t.kind then s1.loadCell (engNum e) im else s1
    let s3 : State := { s2 with unit := { s2.unit with f0 := Tab.put s2.unit.f0 e f0 } }
    if t.kind = 5 then s3.setComb e freshComb else s3) s2
  let s4 := if t.engines.isEmpty then { s3 with unit := { s3.unit with starts := Tab.put s3.unit.starts (stnKey p id) 0, outs := Tab.put s3.unit.outs (stnKey p id) 0 } } else s3
  (s4.setStation p id { t with anchor := some (name, slot), engines := t.engines ++ es, lastCommit := s.now }, name ||| slot <<< 8)

/-- R54's answers in row order. -/
def stationBindBody (r : Nat) (env : CmdEnv) (s : State) : CmdRes :=
  let id := fldB r 0 2
  let p := env.part
  let es := namedEngines r
  if (r >>> 24) % 2 ^ 40 != 0 then refuse s .rsvdSet
  else if fldB r 2 1 == 0 || 32 < fldB r 2 1 then (s, some (badParam 2 0))
  else
    match s.station? p id with
    | none => refuse s .badId
    | some t =>
      if engineBeyond r then refuse s .rsvdSet
      else if dedupN es != es then refuse s .badEngine
      else if es.any (fun e => !kindMatches t.kind e) then refuse s .badEngine
      else
        let phys := es.map (s.physEngine p)
        let ps := phys.filterMap (fun x => x)
        if ps.any (fun e => Tab.has s.svc.stewards (engNum e) && engClass e == 1) then refuse s .badEngine
        else if ps.any (fun e => (s.engine? e).isSome) then refuse s .engineBusy
        else if phys.any Option.isNone then refuse s .notOwned
        else
          match s.bindAnchor p t (ps.headD 0) with
          | none => refuse s .notOwned
          | some b =>
            if (s.named p b).isNone || (regionKind t.kind && ps.any (fun e => (s.lowestBlock p (engRegion e)).isNone)) then refuse s .notOwned
            else if ps.any (fun e => engRegion e != regionOf b) then refuse s .span
            else if t.kind == 8 && (!s.sys.variantT || ps.any (fun e => !s.portPresent (engNum e))) then refuse s .unitAbsent
            else if 120 < t.engines.length + ps.length || (t.kind == 4 && 4 < t.engines.length + ps.length) ||
                ((t.kind == 5 || t.kind == 8) && 1 < t.engines.length + ps.length) || (t.kind == 5 && t.anchor.isSome) then refuse s .limit
            else if t.anchor.isNone && ((s.disp b).freeSlot).isNone then refuse s .limit
            else
              match s.bindRings b t with
              | none => refuse s .noRingSpace
              | some rings =>
                match s.bindImage p t with
                | none => refuse s .badRange
                | some im =>
                  match s.bindCheck p t (ps.headD 0) im with
                  | some a => (s, some a)
                  | none => let x := s.bindNow p id t b ps im rings; done x.1 x.2

/-- STATION_BIND. -/
def execStationBind (ring : Nat) (record : BitVec 576) (s : State) : Outc :=
  .next (runCmd s ring 0x0011 record.toNat 3 (stationBindBody record.toNat))

/-! ## Stewards (R150-R152, R156, R284) -/

def stewardMask : Nat :=
  maskOf ([(0, 7, 0), (1, 0, 0), (2, 1, 0), (4, 31, 0), (8, 31, 0), (12, 31, 0), (16, 31, 0), (36, 31, 0)] ++
    (List.range 4).flatMap (fun i => [(20 + 4 * i, 19, 0), (20 + 4 * i, 31, 31)]))

/-- IN_Q[0..3] of an appointment record. -/
def stewardInQ (r : Nat) : List (Option Nat) :=
  (List.range 4).map (fun i => if bit r (23 + 4 * i) 7 then some (fld r (20 + 4 * i) 19 0) else none)

/-- The cell an appointment or dismissal names, when its block is bound to the partition. -/
def State.stewardCell (s : State) (p r : Nat) : Option Nat :=
  (s.phys p (fldB r 0 1)).map (fun b => b * 20 + 18 + fld r 1 0 0)

/-- A queue is an input of a station, or of a steward other than the halted one replaced. -/
def State.inputTakenBut (s : State) (c q : Nat) : Bool :=
  s.stn.stations.any (fun x => x.2.inQ.contains q) ||
  s.svc.stewards.any (fun x => x.1 != c && x.2.inQ.contains (some q)) || s.planQueue q

/-- The conditions of R284 on a ROLE 2 appointment: the field that breaks one. -/
def sessionStewardBad (r : Nat) : Option Ans :=
  if fldB r 4 4 != 0 then some (badParam 4 0) else if fldB r 8 4 != 0 then some (badParam 8 0)
  else if fldB r 12 4 != 0 then some (badParam 12 0) else if fldB r 16 4 != 0 then some (badParam 16 0)
  else if fldB r 36 4 != 0 then some (badParam 36 0) else if !bit r 23 7 then some (badParam 20 31)
  else
    match [1, 2, 3].find? (fun i => bit r (23 + 4 * i) 7) with
    | some i => some (badParam (20 + 4 * i) 31)
    | none => none

/-- A steward's queues have no consumer any more (R156). -/
def State.freeConsumers (s : State) (c : Nat) : State :=
  { s with stn := { s.stn with queues := Tab.all s.stn.queues (fun _ x => match x.consumer with | .steward c' _ => if c' = c then { x with consumer := .none } else x | _ => x) } }

/-- The steward begins at instruction 0 with its registers and STATUS zero (R152). -/
def State.startSteward (s : State) (c role : Nat) : State :=
  let x := s.scell c
  s.setS c { x with s := [], pc := 0, role := role, status := 0, emitStatus := 0, emitCount := 0, pend := [], drain := false, wait := none, board := {} }

/-- R151's answers in row order, after R10, R150 and R284. -/
def stewardAppointBody (r : Nat) (e : CmdEnv) (s : State) : CmdRes :=
  let p := e.part
  let role := fld r 2 1 0
  let inq := stewardInQ r
  let qs := inq.filterMap (fun x => x)
  let plen := fldB r 36 4
  if rsvdSet r stewardMask then refuse s .rsvdSet
  else if role == 0 || role == 3 then (s, some (badParam 2 0))
  else
    match (if role = 2 then sessionStewardBad r else none) with
    | some a => (s, some a)
    | none =>
      match s.stewardCell p r with
      | none => refuse s .notOwned
      | some c =>
        let running := match Tab.find s.svc.stewards c with | some x => x.running || x.dismissing.isSome || x.part != p | none => false
        if (s.engine? (cellId c)).isSome || running then refuse s .engineBusy
        else if qs.any (fun q => !s.tileQ p q) then refuse s .badQueue
        else if qs.any (s.inputTakenBut c) || dedupN qs != qs then refuse s .queueInUse
        else
          let b := c / 20
          match placeRings s s.free (qs.filter (fun q => match s.queue? q with | some x => x.placed.isNone | none => false)) (s.disp b).ringUse with
          | none => refuse s .noRingSpace
          | some rings =>
            if role == 1 && (16384 < plen || 65536 < fldB r 16 4) then refuse s .limit
            else if role == 1 && ((s.obj? p (fldB r 4 4)).isNone || (fldB r 12 4 != 0 && (s.obj? p (fldB r 12 4)).isNone)) then refuse s .badId
            else if role == 1 && (!fitsObj s p (fldB r 4 4) (fldB r 8 4) plen ||
                (if fldB r 12 4 = 0 then fldB r 16 4 != 0 else !fitsObj s p (fldB r 12 4) 0 (fldB r 16 4))) then refuse s .badRange
            else if role == 1 && (plen == 0 || plen % 4 != 0) then (s, some (badParam 36 0))
            else
              let prog := if role = 1 then (s.obj? p (fldB r 4 4)).bind (fun o => s.readObj o (fldB r 8 4) plen) else some []
              let par := if role = 1 ∧ fldB r 16 4 ≠ 0 then (s.obj? p (fldB r 12 4)).bind (fun o => s.readObj o 0 (fldB r 16 4)) else some []
              match prog, par with
              | some im, some pm =>
                match (if role = 1 then sCheck true im else none) with
                | some x => (s, some (.refused .badProgram (x.1 ||| x.2 <<< 16)))
                | none =>
                  let s1 := (s.freeConsumers c).takePlaces p b rings.1 rings.2
                  let s2 := (s1.loadCell c (im, pm)).startSteward c role
                  let s3 := (List.zip (List.range 4) inq).foldl (fun (s : State) i =>
                    match i.2 with
                    | some q => (match s.queue? q with | some x => s.setQueue q { x with consumer := .steward c i.1 } | none => s)
                    | none => s) s2
                  let t : Steward := { part := p, context := e.context, role := role, programHandle := fldB r 4 4, programOff := fldB r 8 4, programLen := plen, paramHandle := fldB r 12 4, paramLen := fldB r 16 4, inQ := inq, running := true, dismissing := none, revoked := false, plan := none }
                  done { s3 with svc := { s3.svc with stewards := Tab.put s3.svc.stewards c t } } 0
              | _, _ => refuse s .badRange

/-- STEWARD_APPOINT. -/
def execStewardAppoint (ring : Nat) (record : BitVec 512) (s : State) : Outc :=
  .next (runCmd s ring 0x0015 record.toNat 3 (stewardAppointBody record.toNat))

def State.setSteward (s : State) (c : Nat) (t : Steward) : State :=
  { s with svc := { s.svc with stewards := Tab.put s.svc.stewards c t } }

/-- A live plan names the steward (R283). -/
def State.stewardPlanned (s : State) (c : Nat) : Bool := s.svc.plans.any (fun x => x.2.stewardCell == c)

/-- R156. -/
def stewardDismissBody (r : Nat) (e : CmdEnv) (s : State) : CmdRes :=
  if rsvdSet r (maskOf [(0, 7, 0), (1, 0, 0)]) then refuse s .rsvdSet
  else
    match s.stewardCell e.part r with
    | none => refuse s .notOwned
    | some c =>
      match Tab.find s.svc.stewards c with
      | none => refuse s .badId
      | some t =>
        if t.part ≠ e.part then refuse s .badId
        else if s.stewardPlanned c then refuse s .planInUse
        else if t.dismissing.isSome || t.revoked then refuse s .badId
        else (s.setSteward c { t with dismissing := some e.ring }, none)

/-- STEWARD_DISMISS. -/
def execStewardDismiss (ring : Nat) (record : BitVec 64) (s : State) : Outc :=
  .next (runCmd s ring 0x0016 record.toNat 3 (stewardDismissBody record.toNat))

/-- No operation of the steward is outstanding: slice accesses, and registers whose value is on its way. -/
def State.stewardQuiet (s : State) (c : Nat) : Bool := s.accessesOut c == 0 && (s.scell c).pend.isEmpty

/-- STEWARD_DISMISSED: every outstanding operation has completed: its queues have no consumer, and StewardDismissed is sent (R156). -/
def execStewardDismissed (c : Nat) (s : State) : Outc :=
  .next (
    match Tab.find s.svc.stewards c with
    | none => s
    | some t =>
      if (t.dismissing.isNone && !t.revoked) || !s.stewardQuiet c then s
      else
        let s1 := (s.freeConsumers c)
        let s2 : State := { s1 with svc := { s1.svc with stewards := Tab.del s1.svc.stewards c } }
        match t.dismissing with
        | some q => s2.answerCmd q (.ok 0)
        | none => s2)

/-! ## The dispatcher (R58-R68, R77) -/

/-- The request is in its partition's cancel set (R60). -/
def State.cancelled (s : State) (p req : Nat) : Bool := Tab.has (Tab.getD s.svc.cancel p []) req

/-- An engine's serving range admits an epoch (R347, R62). -/
def Engine.admits (x : Engine) (ep : Nat) : Bool :=
  !epochOlder ep x.fromE && (match x.toE with | some t => !epochOlder t ep | none => true)

/-- A free engine: bound, without a start, not frozen, in a block that runs. -/
def State.engineFree (s : State) (t : Station) (e : Nat) : Bool :=
  match s.engine? e with
  | none => false
  | some x =>
    x.start.isNone && !s.engFrozen e && !s.hung e &&
    (match engBlock e with | some b => s.blockRuns b | none => true) &&
    !(engClass e == 1 && s.cell.retired.contains (engNum e))

/-- The engine a waybill set would take (R65): the first in bind order that is free and admits every epoch. A combine unit takes a
waybill while it has room for it (R204); one that is leaving takes no more starts, a combine unit no more maps (R55). -/
def State.takingEngine (s : State) (t : Station) (input : Nat) (ws : List Waybill) : Option Nat :=
  t.engines.find? (fun e =>
    match s.engine? e with
    | none => false
    | some x =>
      s.engineFree t e && ws.all (fun w => x.admits w.epoch) &&
      (if t.kind = 5 then (match ws with | w :: _ => if input = 0 then (s.comb e).takesMap w && !t.leaving e else (s.comb e).takesResult w | [] => false)
       else !t.leaving e))

/-- The waybill that is head of an input: one returned ahead of the queue's head first, of several the one returned first (R77; DESIGN
CHOICE, log entry 46). -/
def State.inputHead (s : State) (t : Station) (i : Nat) : Option Waybill :=
  match t.returned.find? (fun r => r.input == i) with
  | some r => some r.wb
  | none => (s.queue? (t.inQ.getD i 0xFFFFFFFF)).bind s.headNow

/-- Take the head of an input. -/
def State.popInput (s : State) (p id i : Nat) : State :=
  match s.station? p id with
  | none => s
  | some t =>
    match takeFirst (fun r => r.input == i) t.returned with
    | some (_, l) => s.setStation p id { t with returned := l }
    | none =>
      match s.queue? (t.inQ.getD i 0xFFFFFFFF) with
      | some x => s.setQueue (t.inQ.getD i 0xFFFFFFFF) (x.pop s.now)
      | none => s

/-- A waybill that takes no engine for what it is (R59, R62). -/
def Waybill.passes (w : Waybill) : Bool := w.kind == 1 || w.abandoned

/-- The station's candidate inputs in order (R62, R63): the input itself, or input 0 for a ZIP set. -/
def State.candidate (s : State) (t : Station) : Option Nat :=
  if t.zip then
    let ws := (List.range t.nIn).filterMap (s.inputHead t)
    if ws.length = t.nIn && (ws.any Waybill.passes || (s.takingEngine t 0 ws).isSome) then some 0 else none
  else
    ((List.range t.nIn).map (fun k => (t.lastIn + 1 + k) % t.nIn)).find? (fun i =>
      match s.inputHead t i with
      | some w => w.passes || (s.takingEngine t i [w]).isSome
      | none => false)

/-- The dispatcher may serve the station now: it is anchored here and does not move (R350), none of its forwards is held (R77), and its partition dispatches. -/
def State.stationServes (s : State) (b p id : Nat) (t : Station) : Bool :=
  s.anchorPhys p t == some b && s.blockRuns b && !s.movingBlock b && !s.pow.throttled.contains b &&
  !s.stn.held.any (fun h => match h with | .forward p' i' _ _ _ => p' == p && i' == id | _ => false) &&
  (match s.part? p with | some x => !x.frozen && !x.backlogStop | none => false)

/-- The next candidate of a dispatcher (R63): slot, partition, station, input. -/
def State.nextCandidate (s : State) (b : Nat) : Option (Nat × Nat × Nat × Nat) :=
  let d := s.disp b
  ((List.range 64).map (fun k => (d.lastSlot + 1 + k) % 64)).findSome? (fun slot =>
    match Tab.find d.slots slot with
    | none => none
    | some k =>
      let p := k / 65536
      let id := k % 65536
      match s.station? p id with
      | none => none
      | some t => if s.stationServes b p id t then (s.candidate t).map (fun i => (slot, p, id, i)) else none)

/-- What cycle 2 makes of a waybill (R68): 0 go on, 1 consumed as stale, 2 consumed as revoked, or its reject code. -/
inductive Check where
  | pass | stale | revoked | bad (c : Code)
deriving DecidableEq, Repr

/-- The checks of R68 in order. `mismatch` marks a ZIP head whose context differs from input 0's (R76). -/
def State.check2 (s : State) (p : Nat) (w : Waybill) (mismatch : Bool) : Check :=
  if w.resetGen ≠ s.genOf p then .stale
  else if !s.ctxLive p w.context then .revoked
  else
    match w.malformed s p with
    | some c => if mismatch && Code.contextMismatch.reject < c.reject then .bad .contextMismatch else .bad c
    | none => if mismatch then .bad .contextMismatch else .pass

/-- Begin a start on an engine (R66): the cell or unit is set up as its kind says, and the start is charged to the REQUEST_ID of
its input, of input 0 under ZIP (R472). -/
def State.begin (s : State) (p id e : Nat) (t : Station) (inputs : List (Nat × Waybill)) : State :=
  match s.engine? e with
  | none => s
  | some x =>
    let st : Start := { part := p, station := id, inputs := inputs, emits := [], direct := [], ended := false, heldFull := false, heldOrder := false, begun := s.now, faulted := false }
    let w := st.wb
    let s1 := ((s.setEngine e { x with start := some st }).setStation p id { t with starts := t.starts ++ [e] }).reckTouch p w.requestId w.context
    match t.kind with
    | 1 => s1.startM (engNum e) p w
    | 2 => s1.startV (engNum e) w
    | 3 => s1.startS (engNum e) w
    | 4 =>
      let n := Tab.getD s1.unit.starts (stnKey p id) 0
      { s1 with unit := { s1.unit with starts := Tab.put s1.unit.starts (stnKey p id) (n + 1), disp := Tab.put s1.unit.disp e { count := n, plan := none } } }
    | _ => s1

/-- Forward to OUT_Q[PRED_OUT], or consume (R58). -/
def State.predForward (s : State) (p id : Nat) (t : Station) (input : Nat) (w : Waybill) : State :=
  match t.output t.predOut with
  | some q => s.forward p id input q w ((s.anchorPhys p t).getD 0)
  | none => s.consume p t w

/-- A removed member of a start (R68): counted, or rejected. -/
def State.remove2 (s : State) (p id : Nat) (t : Station) (b input : Nat) (w : Waybill) (c : Check) : State :=
  match c with
  | .stale => s.setDisp b { s.disp b with staleCount := (s.disp b).staleCount + 1 }
  | .bad k => s.reject p id t (t.inQ.getD input 0xFFFFFFFF) w k (rankBlock b 0)
  | _ => s

/-- One waybill's dispatch on a station without ZIP (R58-R60, R65, R68). -/
def State.dispatchOne (s : State) (b p id input : Nat) (t : Station) (w0 : Waybill) (e : Option Nat) : State :=
  match s.check2 p w0 false with
  | .pass =>
    let w := { w0 with abandoned := w0.abandoned || s.cancelled p w0.requestId }
    if w.passes then
      let s1 := s.forwardRoute p id t input w
      if t.kind = 5 ∧ w.abandoned then (match t.engines with | u :: _ => s1.combReport u input w | [] => s1) else s1
    else if !t.isTrue w then s.predForward p id t input w
    else
      match e with
      | none => s
      | some u =>
        if t.kind = 5 then s.setComb u { s.comb u with taken := (s.comb u).taken ++ [(input, w)] }
        else s.begin p id u t [(input, w)]
  | c => s.remove2 p id t b input w0 c

/-- A ZIP set's dispatch (R62, R68, R76). -/
def State.dispatchZip (s : State) (b p id : Nat) (t : Station) (ws : List (Nat × Waybill)) (e : Option Nat) : State :=
  let ctx0 := match ws with | i :: _ => i.2.context | [] => 0
  let mism := ws.any (fun i => i.2.context != ctx0)
  let cs := ws.map (fun i => (i.1, { i.2 with abandoned := i.2.abandoned || s.cancelled p i.2.requestId }, s.check2 p i.2 (mism && i.1 != 0)))
  let gone := cs.filter (fun i => i.2.2 != Check.pass)
  let kept := cs.filter (fun i => i.2.2 == Check.pass)
  let rest := kept.filter (fun i => i.1 != 0)
  let s1 := gone.foldl (fun (s : State) i => s.remove2 p id t b i.1 i.2.1 i.2.2) s
  let eatRest (s : State) : State := rest.foldl (fun (s : State) i => s.consume p t i.2.1) s
  if !gone.isEmpty then
    match kept.find? (fun i => i.1 == 0) with
    | some i => eatRest (s1.forwardRoute p id t 0 { i.2.1 with abandoned := true })
    | none => eatRest s1
  else
    match cs with
    | [] => s1
    | i0 :: _ =>
      if cs.any (fun i => i.2.1.passes) then
        eatRest (s1.forwardRoute p id t 0 { i0.2.1 with abandoned := cs.any (fun i => i.2.1.abandoned) })
      else if cs.any (fun i => !t.isTrue i.2.1) then eatRest (s1.predForward p id t 0 i0.2.1)
      else
        match e with
        | some u => s1.begin p id u t (cs.map (fun i => (i.1, i.2.1)))
        | none => s1

/-- WAYBILL_START: the dispatcher of a block accepts its next candidate and takes it through its start, forward, consumption or
rejection (R58-R68). -/
def execWaybillStart (block : Nat) (s : State) : Outc :=
  .next (
    match s.nextCandidate block with
    | none => s
    | some (slot, p, id, i) =>
      match s.station? p id with
      | none => s
      | some t =>
        let s0 := s.setDisp block { s.disp block with lastSlot := slot }
        if t.zip then
          let ws := (List.range t.nIn).filterMap (fun k => (s.inputHead t k).map (fun w => (k, w)))
          let e := s.takingEngine t 0 (ws.map (·.2))
          let s1 := (List.range t.nIn).foldl (fun (s : State) k => s.popInput p id k) s0
          match s1.station? p id with
          | some t1 => s1.dispatchZip block p id t1 ws e
          | none => s1
        else
          match s.inputHead t i with
          | none => s
          | some w =>
            let e := s.takingEngine t i [w]
            let s1 := s0.popInput p id i
            match s1.station? p id with
            | some t1 => (s1.setStation p id { t1 with lastIn := i }).dispatchOne block p id i { t1 with lastIn := i } w e
            | none => s1)

end Sys2Proof.Machine
end

