-- ==== Sys2Proof/Machine/Sessions.lean ====
section
/-! DEFINITION. Sys2Proof/Machine/Sessions.lean: serving plans, sessions, steps, KV pages and the token ring
(10_session_service R282-R304). -/

namespace Sys2Proof.Machine

/-! ## Serving plans (R282, R283) -/

/-- Plans are keyed partition * 16 + PLAN_ID. -/
def planKey (p id : Nat) : Nat := p * 16 + id

def State.plan? (s : State) (k : Nat) : Option Plan := Tab.find s.svc.plans k

def State.setPlan (s : State) (k : Nat) (x : Plan) : State := { s with svc := { s.svc with plans := Tab.put s.svc.plans k x } }

def planMask : Nat :=
  maskOf [(0, 3, 0), (1, 7, 0), (2, 0, 0), (4, 19, 0), (8, 19, 0), (12, 19, 0), (16, 31, 0), (20, 31, 0), (24, 31, 0),
    (28, 31, 0), (32, 31, 0), (36, 31, 0), (40, 31, 0), (44, 15, 0), (46, 15, 0), (48, 15, 0), (50, 15, 0), (52, 31, 0),
    (56, 24, 0), (60, 7, 0)]

/-- The plan a record spells, with its tap-room and ostler queues. -/
def planOf (r ctx cell tap ost : Nat) : Plan :=
  { context := ctx, stewardCell := cell, entryQ := fld r 4 19 0, resultQ := fld r 8 19 0, tokenRing := fld r 12 19 0, kvPool := fldB r 16 4, kvPages := fldB r 20 4, kvPageBytes := fldB r 24 4, tableHandle := fldB r 28 4, logHandle := fldB r 32 4, vocab := fldB r 36 4, contextMax := fldB r 40 4, stepTokens := fldB r 44 2, maxBatch := fldB r 46 2, prefillChunk := fldB r 48 2, stepTimeoutMs := if fldB r 50 2 = 0 then 1000 else fldB r 50 2, sessionMax := fldB r 52 4, manifestAddr := fld r 56 24 0, manifestSlots := fldB r 60 1, tapQ := tap, ostlerQ := ost, nextStep := 0, steps := [], usedPages := [], unmirrored := false }

/-- Entries of a session's page table. -/
def Plan.tableEntries (x : Plan) : Nat := cdiv x.contextMax 16

/-- Bytes of one manifest slot (R282). -/
def Plan.slotBytes (x : Plan) : Nat := 64 * (x.maxBatch + 1)

/-- A field of a plan record outside its range (R282, R283): the lowest such field. -/
def planBad (s : State) (p r : Nat) : Option Ans :=
  let x := planOf r 0 0 0 0
  if (s.obj? p x.kvPool).isNone then some (badParam 16 0)
  else if x.kvPageBytes % 4096 != 0 || x.kvPageBytes == 0 then some (badParam 24 0)
  else if (s.obj? p x.tableHandle).isNone then some (badParam 28 0)
  else if (s.obj? p x.logHandle).isNone then some (badParam 32 0)
  else if x.vocab < 2 || 2 ^ 31 < x.vocab then some (badParam 36 0)
  else if x.contextMax < 16 || 1048576 < x.contextMax then some (badParam 40 0)
  else if x.stepTokens < 64 || 4096 < x.stepTokens || x.stepTokens % 64 != 0 then some (badParam 44 0)
  else if x.maxBatch == 0 || x.stepTokens < x.maxBatch then some (badParam 46 0)
  else if x.prefillChunk < 16 || 4096 < x.prefillChunk || x.prefillChunk % 16 != 0 then some (badParam 48 0)
  else if 60000 < fldB r 50 2 then some (badParam 50 0)
  else if x.sessionMax == 0 || 65536 < x.sessionMax then some (badParam 52 0)
  else if x.manifestSlots == 0 || 64 < x.manifestSlots then some (badParam 60 0)
  else if (s.phys p (x.manifestAddr / 2 ^ 19)).isNone ||
      ringAreaBase < x.manifestAddr % 2 ^ 19 * 64 + x.manifestSlots * x.slotBytes then some (badParam 56 0)
  else none

/-- Length of a live memory object. -/
def State.objLen (s : State) (p h : Nat) : Nat := match s.obj? p h with | some o => o.length | none => 0

/-- Sessions allotted to the partition's plans. -/
def State.plannedSessions (s : State) (p : Nat) : Nat := sumN ((s.svc.plans.filter (fun e => e.1 / 16 == p)).map (·.2.sessionMax))

/-- Too few pages, objects too small, or the session or queue allotment passed (R283). -/
def planOver (s : State) (p r : Nat) : Bool :=
  let x := planOf r 0 0 0 0
  let y := match s.part? p with | some y => (y.sessions, y.queues) | none => (0, 0)
  decide (x.kvPages < x.tableEntries + 1) || decide (s.objLen p x.kvPool < x.kvPages * x.kvPageBytes) ||
  decide (s.objLen p x.tableHandle < x.sessionMax * (4 * x.tableEntries + 256)) ||
  decide (s.objLen p x.logHandle < x.sessionMax * 4 * x.contextMax) ||
  decide (y.1 < s.plannedSessions p + x.sessionMax) || decide (y.2 < s.queueCount p + 2)

/-- The tap-room or ostler queue as Kloquen creates it (R283): the session scheduler's own, with a hot ring of 16 places. -/
def serviceQueue (p ctx now : Nat) (c : Consumer) : TileQ :=
  { part := p, context := ctx, consumer := c, placed := none, hotLog2 := 4, spillLog2 := 0, stallMs := 0, spillHandle := 0, spillOff := 0, tail := 0, head := 0, hot := [], spill := [], fullStalls := 0, refill := 0, oldPlace := none, oldHot := [], headSince := now, stalled := false }

/-- The ROLE 2 steward a plan record names: its cell and itself, when it runs and serves no plan (R283). -/
def State.planSteward (s : State) (p r : Nat) : Option (Nat × Steward) :=
  match s.stewardCell p (fldB r 1 1 ||| fld r 2 0 0 <<< 8) with
  | none => none
  | some c =>
    match Tab.find s.svc.stewards c with
    | none => none
    | some t => if t.part = p ∧ t.role = 2 ∧ t.running ∧ t.dismissing.isNone ∧ t.revoked = false ∧ t.plan.isNone then some (c, t) else none

/-- R283's answers in row order. -/
def planDefineBody (r : Nat) (e : CmdEnv) (s : State) : CmdRes :=
  let k := planKey e.part (fld r 0 3 0)
  if rsvdSet r planMask then refuse s .rsvdSet
  else if (s.plan? k).isSome then refuse s .planInUse
  else
    match s.planSteward e.part r with
    | none => refuse s .notAppointed
    | some (c, t) =>
      let x0 := planOf r e.context c 0 0
      if !s.tileQ e.part x0.entryQ || !s.tileQ e.part x0.resultQ || t.inQ.headD none != some x0.resultQ ||
          !(match s.ring? x0.tokenRing with | some g => g.part == e.part && g.ty == 4 | none => false) then refuse s .badQueue
      else
        match planBad s e.part r with
        | some a => (s, some a)
        | none =>
          if planOver s e.part r then refuse s .limit
          else
            match s.pickQueue with
            | none => refuse s .limit
            | some tap =>
              let s1 := ({ s with free := s.free + 1 }).setQueue tap (serviceQueue e.part e.context s.now .none)
              match s1.pickQueue with
              | none => refuse s .limit
              | some ost =>
                let s2 := ({ s1 with free := s1.free + 1 }).setQueue ost (serviceQueue e.part e.context s.now (.steward c 1))
                let s3 := s2.setSteward c { t with inQ := lset t.inQ 1 (some ost), plan := some k }
                done (((s3.setPlan k (planOf r e.context c tap ost)).storeDesc tap).storeDesc ost) (tap ||| ost <<< 32)

/-- PLAN_DEFINE. -/
def execPlanDefine (ring : Nat) (record : BitVec 512) (s : State) : Outc :=
  .next (runCmd s ring 0x0020 record.toNat 4 (planDefineBody record.toNat))

/-- A plan goes: its two queues go with it, and its steward serves no plan. -/
def State.dropPlan (s : State) (k : Nat) (x : Plan) : State :=
  let s1 := { s with svc := { s.svc with plans := Tab.del s.svc.plans k, stewards := Tab.upd s.svc.stewards x.stewardCell (fun t => { t with plan := none, inQ := lset t.inQ 1 none }) } }
  (({ s1 with stn := { s1.stn with queues := Tab.del (Tab.del s1.stn.queues x.tapQ) x.ostlerQ } } : State).storeDesc x.tapQ).storeDesc x.ostlerQ

/-- R283: a plan with no open session is freed. -/
def planReleaseBody (r : Nat) (e : CmdEnv) (s : State) : CmdRes :=
  let k := planKey e.part (fld r 0 3 0)
  if rsvdSet r (maskOf [(0, 3, 0)]) then refuse s .rsvdSet
  else
    match s.plan? k with
    | none => refuse s .badId
    | some x => if s.ses.sessions.any (fun y => y.2.plan == k) then refuse s .sessionOpen else done (s.dropPlan k x) 0

/-- PLAN_RELEASE. -/
def execPlanRelease (ring : Nat) (record : BitVec 64) (s : State) : Outc :=
  .next (runCmd s ring 0x0021 record.toNat 4 (planReleaseBody record.toNat))

/-! ## Sessions and their memory (R282, R285, R295) -/

def State.sess? (s : State) (slot : Nat) : Option Sess := Tab.find s.ses.sessions slot

def State.setSess (s : State) (slot : Nat) (x : Sess) : State := { s with ses := { s.ses with sessions := Tab.put s.ses.sessions slot x } }

def State.updSess (s : State) (slot : Nat) (f : Sess → Sess) : State := { s with ses := { s.ses with sessions := Tab.upd s.ses.sessions slot f } }

/-- The session handle (R285). -/
def Sess.handle (x : Sess) (slot : Nat) : Nat := x.gen <<< 16 ||| slot

/-- The next order number of the session service. -/
def State.order (s : State) : Nat × State := (s.ses.nextOrder, { s with ses := { s.ses with nextOrder := s.ses.nextOrder + 1 } })

/-- Write bytes into one of a plan's memory objects. -/
def State.writePlanObj (s : State) (p h off : Nat) (l : List Byte) : State :=
  match s.obj? p h with
  | some o => s.writeObj o off l
  | none => s

/-- A page-table entry of a session: a pool page number, or 0xFFFF_FFFF (R282). -/
def State.writeTable (s : State) (x : Sess) (y : Plan) (i v : Nat) : State :=
  if i < y.tableEntries then s.writePlanObj x.part y.tableHandle (x.k * 4 * y.tableEntries + 4 * i) (bytesOf 4 v) else s

/-- Log words of a session from a position (R282). -/
def State.writeLog (s : State) (x : Sess) (y : Plan) (pos : Nat) (l : List Nat) : State :=
  s.writePlanObj x.part y.logHandle (x.k * 4 * y.contextMax + 4 * pos) (l.flatMap (bytesOf 4))

/-- The lowest-numbered `n` free pool pages of a plan (R295): fewer when fewer are free. -/
def Plan.freePages (y : Plan) (n : Nat) : List Nat := ((List.range y.kvPages).filter (fun i => !y.usedPages.contains i)).take n

def Plan.freeCount (y : Plan) : Nat := y.kvPages - y.usedPages.length

/-- Give a session `n` more pages, the lowest-numbered free ones, with their table entries (R295). -/
def State.grantPages (s : State) (slot n : Nat) : State :=
  match s.sess? slot with
  | none => s
  | some x =>
    match s.plan? x.plan with
    | none => s
    | some y =>
      let ps := y.freePages n
      let s1 := (List.zip (List.range ps.length) ps).foldl (fun (s : State) i => s.writeTable x y (x.pages.length + i.1) i.2) s
      (s1.setPlan x.plan { y with usedPages := y.usedPages ++ ps }).setSess slot { x with pages := x.pages ++ ps }

/-- Take a session's pages back into the pool; its table entries become 0xFFFF_FFFF (R296). -/
def State.freeSessPages (s : State) (slot : Nat) : State :=
  match s.sess? slot with
  | none => s
  | some x =>
    match s.plan? x.plan with
    | none => s.setSess slot { x with pages := [], robbed := false }
    | some y =>
      let s1 := (List.range x.pages.length).foldl (fun (s : State) i => s.writeTable x y i 0xFFFFFFFF) s
      (s1.setPlan x.plan { y with usedPages := y.usedPages.filter (fun p => !x.pages.contains p) }).setSess slot { x with pages := [], robbed := false }

/-- Pages that cover positions 0 to 16 * (floor (n / 16) + 2) - 1, n being the highest position of `len` tokens (R295). -/
def coverPages (len : Nat) : Nat := (len - 1) / 16 + 2

/-- A step in flight holds a row of the session. -/
def Plan.inStep (y : Plan) (slot : Nat) : Bool := y.steps.any (fun st => st.rows.any (fun r => r.slot == slot && !r.returned))

def State.inStep (s : State) (x : Sess) (slot : Nat) : Bool := match s.plan? x.plan with | some y => y.inStep slot | none => false

/-- The results of a session's rows in flight are to be discarded (R296, R297, R304): the rows stay outstanding, and name no
session any more. -/
def State.voidRows (s : State) (slot : Nat) : State :=
  match s.sess? slot with
  | none => s
  | some x =>
    match s.plan? x.plan with
    | none => s
    | some y =>
      s.setPlan x.plan { y with steps := y.steps.map (fun st => { st with rows := st.rows.map (fun r => if r.slot = slot ∧ r.gen = x.gen then { r with live := false } else r) }) }

/-! ## The companion's copy of a session (R302, R439) -/

/-- The companion named for a partition (R334, R338). -/
def State.companion (s : State) (p : Nat) : Option Nat :=
  match s.part? p with
  | some x => if x.companion = 0xFFFF then none else some x.companion
  | none => none

/-- Send a mirror entry to the partition's companion, if it has one (R302, R439). -/
def State.mirrorSend (s : State) (p kind handle : Nat) (fields : List Nat) : State :=
  match s.companion p with
  | some n => s.emitOut (.msg (.node n) 0x0405 (kind :: handle :: fields))
  | none => s

/-- The SessionOpen record of a session, as its OPEN entry carries it (R286, R439). -/
def Sess.record (x : Sess) (prompt : Nat) : Nat :=
  plc 0 3 0 x.plan ||| plc 1 3 0 x.stops.length ||| plcB 2 2 x.topK ||| plcB 4 4 x.req ||| plcB 8 4 x.temperature |||
  plcB 12 4 x.topP ||| plcB 16 8 x.seed ||| plcB 32 4 prompt ||| plcB 36 4 x.maxNew ||| plcB 48 4 x.eos

/-- The 16 words of a stop entry (R287). -/
def stopWords (t : List Nat) : List Nat := t.length :: (t ++ List.replicate (15 - t.length) 0)

/-- SESSION_UNMIRRORED to the partition, once per plan (R302). -/
def State.unmirrored (s : State) (p plan : Nat) : State :=
  match s.plan? plan with
  | some y => if y.unmirrored then s else (s.setPlan plan { y with unmirrored := true }).event 0x000D p 0 false 0 0xFFFF 0
  | none => s

/-! ## Token records and the end of a generation (R297, R298) -/

/-- Add a record to a session's waiting ones. Without a companion it follows the local log write, and SESSION_UNMIRRORED goes to
the partition once per plan (R302). -/
def State.addRec (s : State) (slot : Nat) (x : Sess) (r : TokRec) : State :=
  match s.companion x.part with
  | some _ => s.setSess slot { x with recs := x.recs ++ [{ r with acked := false }] }
  | none => (s.setSess slot { x with recs := x.recs ++ [{ r with acked := true }] }).unmirrored x.part x.plan

/-- A generation ends with no token of its own: a record with TOKEN 0xFFFF_FFFF, END 1 and the REASON; the session is IDLE,
and what its rows in flight return is discarded (R290, R297). -/
def State.endGeneration (s : State) (slot reason : Nat) : State :=
  match (s.voidRows slot).sess? slot with
  | none => s
  | some x =>
    let o := (s.voidRows slot).order
    let x1 := { x with state := .idle, taken := [], filled := min x.filled x.tokens.length, round := x.round + 1, fails := 0, endedAt := o.1, preempted := none }
    let r : TokRec := { token := 0xFFFFFFFF, index := x.index, fin := true, reason := reason, stop := 0, acked := true }
    (o.2.addRec slot x1 r).mirrorSend x.part 4 (x.handle slot) [x.index, reason]

/-! ## SESSION_OPEN (R286-R289) -/

def sessionOpenMask : Nat :=
  maskOf [(0, 3, 0), (1, 3, 0), (2, 15, 0), (4, 31, 0), (8, 31, 0), (12, 31, 0), (16, 63, 0), (24, 31, 0), (28, 31, 0),
    (32, 31, 0), (36, 31, 0), (40, 31, 0), (44, 31, 0), (48, 31, 0)]

/-- Little-endian words of a byte string. -/
def tokenWords : List Byte → List Nat
  | a :: b :: c :: d :: l => ofBytes [a, b, c, d] :: tokenWords l
  | _ => []

/-- A stop entry as its 64 bytes spell it (R287): none when invalid. -/
def stopEntry (vocab : Nat) (l : List Byte) : Option (List Nat) :=
  let r := ofBytes l
  let n := fldB r 0 1
  let ws := tokenWords (l.drop 4)
  if n = 0 ∨ 15 < n ∨ fldB r 1 3 ≠ 0 ∨ (ws.take n).any (fun t => decide (vocab ≤ t)) ∨ (ws.drop n).any (· != 0) then none
  else some (ws.take n)

/-- A field of a SessionOpen record outside R286. -/
def sessionOpenBad (s : State) (p r : Nat) (y : Plan) : Option Ans :=
  let nStop := fld r 1 3 0
  let n := fldB r 32 4
  if 8 < nStop then some (badParam 1 0)
  else if fldB r 2 2 == 0 || 64 < fldB r 2 2 then some (badParam 2 0)
  else if 0x42C80000 < fldB r 8 4 then some (badParam 8 0)
  else if fldB r 12 4 == 0 || 0x3F800000 < fldB r 12 4 then some (badParam 12 0)
  else if (s.obj? p (fldB r 24 4)).isNone then some (badParam 24 0)
  else if fldB r 28 4 % 4 != 0 || s.objLen p (fldB r 24 4) < fldB r 28 4 + 4 * n then some (badParam 28 0)
  else if n == 0 || y.contextMax - 1 < n then some (badParam 32 0)
  else if fldB r 36 4 == 0 || 1048576 < fldB r 36 4 then some (badParam 36 0)
  else if (if nStop = 0 then fldB r 40 4 != 0 else (s.obj? p (fldB r 40 4)).isNone) then some (badParam 40 0)
  else if fldB r 44 4 % 64 != 0 || (nStop != 0 && s.objLen p (fldB r 40 4) < fldB r 44 4 + 64 * nStop) then some (badParam 44 0)
  else none

/-- The first index of a list at which a test holds. -/
def firstIdx {α : Type} (f : α → Bool) (l : List α) : Option Nat := l.findIdx? f

/-- Bytes of a live object, none when its translation fails. -/
def State.objBytes (s : State) (p h off n : Nat) : Option (List Byte) := (s.obj? p h).bind (fun o => s.readObj o off n)

/-- Open sessions of a plan. -/
def State.planSessions (s : State) (k : Nat) : List (Nat × Sess) := s.ses.sessions.filter (fun e => e.2.plan == k)

/-- A preempted session of the plan waits for pages (R289). -/
def State.preemptedWaiting (s : State) (k : Nat) : Bool := (s.planSessions k).any (fun e => e.2.preempted.isSome)

/-- The session's place in its plan's tables: the lowest not in use (R282). -/
def State.freeK (s : State) (k : Nat) (y : Plan) : Nat :=
  ((List.range y.sessionMax).find? (fun i => !(s.planSessions k).any (fun e => e.2.k == i))).getD 0

/-- Take an unused SLOT, with the GEN of its next use (R285). -/
def State.pickSlot (s : State) : Option (Nat × Nat) :=
  (pickId s.free 0 65536 s.ses.sessions.length (fun i => Tab.has s.ses.sessions i)).map (fun i => (i, (Tab.getD s.ses.gens i 0 + 1) % 256))

/-- Open a session in a slot (R285, R287, R289, R303): prompt to the log, page table empty, reckoning opened, home record made. Its stop
entries and EOS_TOKEN go into its 256 bytes of the session table, whose layout the spec does not give: free bytes (log entry 29). -/
def State.openSession (s : State) (slot : Nat) (x : Sess) (y : Plan) (flags : Nat) : State :=
  let s1 := { s with ses := { s.ses with gens := Tab.put s.ses.gens slot x.gen, homes := Tab.put s.ses.homes (acctKey x.part x.req) { owner := s.sys.nodeId, gen := 0, deadline := 0, ownerPart := x.part } } }
  let s2 := (s1.setSess slot x).writeLog x y 0 x.tokens
  let s3 := (List.range y.tableEntries).foldl (fun (s : State) i => s.writeTable x y i 0xFFFFFFFF) s2
  let s4 := s3.writePlanObj x.part y.tableHandle (y.sessionMax * 4 * y.tableEntries + 256 * x.k) ((List.range 256).map (fun i => Config.freeByte (s.free + i)))
  ({ s4 with free := s.free + 256 } : State).reckOpen x.part x.req x.context (x.handle slot) flags

/-- R289's answers in row order. -/
def sessionOpenBody (r : Nat) (e : CmdEnv) (s : State) : CmdRes :=
  let p := e.part
  let k := planKey p (fld r 0 3 0)
  let n := fldB r 32 4
  let nStop := fld r 1 3 0
  let eos := fldB r 48 4
  if rsvdSet r sessionOpenMask then refuse s .rsvdSet
  else
    match s.plan? k with
    | none => refuse s .badId
    | some y =>
      if bit r 7 7 then refuse s .badId
      else
        match sessionOpenBad s p r y with
        | some a => (s, some a)
        | none =>
          match s.objBytes p (fldB r 24 4) (fldB r 28 4) (4 * n) with
          | none => (s, some (badParam 24 0))
          | some pb =>
            match (if nStop = 0 then some [] else s.objBytes p (fldB r 40 4) (fldB r 44 4) (64 * nStop)) with
            | none => (s, some (badParam 40 0))
            | some sb =>
              let toks := tokenWords pb
              let ents := (List.range nStop).map (fun i => stopEntry y.vocab ((sb.drop (64 * i)).take 64))
              match firstIdx (fun t => decide (y.vocab ≤ t)) toks, firstIdx Option.isNone ents with
              | some i, _ => (s, some (.refused .badToken i))
              | none, some i => (s, some (.refused .badToken i))
              | none, none =>
                if y.vocab ≤ eos && eos != 0xFFFFFFFF then refuse s .badToken
                else if y.sessionMax ≤ (s.planSessions k).length || 65536 ≤ s.ses.sessions.length then (s, some (.busy .sessionLimit 0))
                else if y.freeCount < cdiv n 16 + 1 || s.preemptedWaiting k then (s, some (.busy .kvFull 0))
                else
                  match s.pickSlot with
                  | none => (s, some (.busy .sessionLimit 0))
                  | some (slot, gen) =>
                    let o := ({ s with free := s.free + 1 }).order
                    let x : Sess := { part := p, plan := k, k := s.freeK k y, gen := gen, context := e.context, req := fldB r 4 4, temperature := fldB r 8 4, topP := fldB r 12 4, topK := fldB r 2 2, seed := fldB r 16 8, maxNew := fldB r 36 4, eos := eos, stops := ents.filterMap (fun t => t), state := .prefill, tokens := toks, taken := [], filled := 0, made := 0, index := 0, round := 0, fails := 0, pages := [], admitted := o.1, served := 0, preempted := none, endedAt := 0, robbed := false, recs := [], confirmed := 0, closing := none, abandoned := false }
                    let s1 := (o.2.openSession slot x y 0).grantPages slot (cdiv n 16 + 1)
                    done (s1.mirrorSend p 1 (x.handle slot) ([x.record n] ++ toks ++ x.stops.flatMap stopWords)) (x.handle slot)

/-- SESSION_OPEN. -/
def execSessionOpen (ring : Nat) (record : BitVec 512) (s : State) : Outc :=
  .next (runCmd s ring 0x0022 record.toNat 4 (sessionOpenBody record.toNat))

/-! ## SESSION_APPEND, SESSION_CANCEL, SESSION_CLOSE (R288-R290, R303) -/

/-- The open session of the partition that a handle names: its slot and itself (R285, R289). A session that is being closed is
open no more (R304). -/
def State.openSess (s : State) (p h : Nat) : Option (Nat × Sess) :=
  match s.sess? (h % 65536) with
  | none => none
  | some x => if x.part = p ∧ h = x.handle (h % 65536) ∧ x.closing.isNone ∧ x.abandoned = false then some (h % 65536, x) else none

/-- R289's answers in row order, for an append. -/
def sessionAppendBody (r : Nat) (e : CmdEnv) (s : State) : CmdRes :=
  let p := e.part
  let n := fldB r 12 4
  if rsvdSet r (maskOf [(0, 31, 0), (4, 31, 0), (8, 31, 0), (12, 31, 0), (16, 31, 0)]) then refuse s .rsvdSet
  else
    match s.openSess p (fldB r 0 4) with
    | none => refuse s .badId
    | some (slot, x) =>
      match s.plan? x.plan with
      | none => refuse s .badId
      | some y =>
        let len := x.tokens.length + n
        if (s.obj? p (fldB r 4 4)).isNone then (s, some (badParam 4 0))
        else if fldB r 8 4 % 4 != 0 || s.objLen p (fldB r 4 4) < fldB r 8 4 + 4 * n then (s, some (badParam 8 0))
        else if n == 0 || y.contextMax - 1 < len then (s, some (badParam 12 0))
        else if fldB r 16 4 == 0 || 1048576 < fldB r 16 4 then (s, some (badParam 16 0))
        else
          match s.objBytes p (fldB r 4 4) (fldB r 8 4) (4 * n) with
          | none => (s, some (badParam 4 0))
          | some b =>
            let toks := tokenWords b
            match firstIdx (fun t => decide (y.vocab ≤ t)) toks with
            | some i => (s, some (.refused .badToken i))
            | none =>
              if x.state != SessState.idle then refuse s .sessionState
              else if y.freeCount < (cdiv len 16 - x.pages.length) + 1 || s.preemptedWaiting x.plan then (s, some (.busy .kvFull 0))
              else
                let o := s.order
                let x1 := { x with state := .prefill, tokens := x.tokens ++ toks, maxNew := fldB r 16 4, made := 0, round := x.round + 1, admitted := o.1, preempted := if x.robbed then some o.1 else none, filled := if x.pages = [] then 0 else x.filled }
                let s1 := ((o.2.setSess slot x1).writeLog x y x.tokens.length toks).grantPages slot (if x.robbed then 0 else coverPages len - x.pages.length)
                done (s1.mirrorSend p 2 (x.handle slot) (fldB r 16 4 :: toks)) 0

/-- SESSION_APPEND. -/
def execSessionAppend (ring : Nat) (record : BitVec 256) (s : State) : Outc :=
  .next (runCmd s ring 0x0023 record.toNat 4 (sessionAppendBody record.toNat))

/-- R290: a running generation ends with a CANCEL record, and the session is IDLE; an IDLE session writes no record. -/
def sessionCancelBody (r : Nat) (e : CmdEnv) (s : State) : CmdRes :=
  if rsvdSet r (maskOf [(0, 31, 0)]) then refuse s .rsvdSet
  else
    match s.openSess e.part (fldB r 0 4) with
    | none => refuse s .badId
    | some (slot, x) => if x.state = .idle then done s 0 else done (s.endGeneration slot 5) 0

/-- SESSION_CANCEL. -/
def execSessionCancel (ring : Nat) (record : BitVec 128) (s : State) : Outc :=
  .next (runCmd s ring 0x0024 record.toNat 4 (sessionCancelBody record.toNat))

/-- R303 step 1: a running generation ends with a CANCEL record, and the close waits. -/
def sessionCloseBody (r : Nat) (e : CmdEnv) (s : State) : CmdRes :=
  if rsvdSet r (maskOf [(0, 31, 0)]) then refuse s .rsvdSet
  else
    match s.openSess e.part (fldB r 0 4) with
    | none => refuse s .badId
    | some (slot, x) =>
      let s1 := if x.state = .idle then s else s.endGeneration slot 5
      (s1.updSess slot (fun x => { x with closing := some e.ring }), none)

/-- SESSION_CLOSE. -/
def execSessionClose (ring : Nat) (record : BitVec 128) (s : State) : Outc :=
  .next (runCmd s ring 0x0025 record.toNat 4 (sessionCloseBody record.toNat))

/-- A session leaves the module: pages and slot are free, its home record, lease and companion's mirror go. -/
def State.dropSession (s : State) (slot : Nat) : State :=
  match s.sess? slot with
  | none => s
  | some x =>
    let s1 := (s.freeSessPages slot).mirrorSend x.part 5 (x.handle slot) []
    { s1 with ses := { s1.ses with sessions := Tab.del s1.ses.sessions slot, homes := Tab.del s1.ses.homes (acctKey x.part x.req), leases := Tab.del s1.ses.leases (acctKey x.part x.req), taps := s1.ses.taps.filter (fun t => t.slot != slot) } }

/-- Records of the session still to be written: those of a token ring that is released are written no more (R329). -/
def State.recsLeft (s : State) (x : Sess) : Bool :=
  !x.recs.isEmpty && ((s.plan? x.plan).bind (fun y => s.ring? y.tokenRing)).isSome

/-- SESSION_CLOSE_COMPLETE: the session's steps in flight and last records are done: pages and slot are freed, the reckoning
closes, and SessionClosed carries its SEQ (R303). A session of a revoked context closes without an answer, its reckoning flagged
ABANDONED. The SEQ of a session that got no reckoning (R478) is a free value. -/
def execSessionCloseComplete (slot : Nat) (s : State) : Outc :=
  .next (
    match s.sess? slot with
    | none => s
    | some x =>
      if (x.closing.isNone && !x.abandoned) || s.inStep x slot || s.recsLeft x then s
      else
        let c := s.reckClose x.part x.req (if x.abandoned then flagAbandoned else 0)
        let s1 := c.1.dropSession slot
        match x.closing with
        | none => s1
        | some q =>
          match c.2 with
          | some n => s1.answerCmd q (.ok n)
          | none => ({ s1 with free := s1.free + 1 }).answerCmd q (.ok (Config.freeNat s1.free)))

/-- Sessions of a revoked context end with REASON ABANDONED (R303, R329). -/
def State.abandonSessions (s : State) (p c : Nat) : State :=
  ((s.ses.sessions.filter (fun e => e.2.part == p && e.2.context == c)).map (·.1)).foldl (fun (s : State) slot =>
    match s.sess? slot with
    | none => s
    | some x =>
      let s1 := if x.state = .idle then s else s.endGeneration slot 7
      s1.updSess slot (fun x => { x with abandoned := true })) s

/-! ## Steps (R291-R294) -/

/-- REQUEST_ID of a step's waybills (R294). -/
def stepReq (plan n : Nat) : Nat := 2 ^ 31 + plan % 16 * 65536 + n % 65536

/-- Tokens of a session as its steward knows them: those logged and those on their way to Innkeeper. -/
def Sess.known (x : Sess) : List Nat := x.tokens ++ x.taken

/-- Positions a next row would cover: those still to prefill, or the last token's. -/
def Sess.left (x : Sess) : Nat := x.known.length - x.filled

/-- The session is WAITING (R290): preempted, 64 records waiting, or its next row would enter a page not granted. -/
def Sess.waiting (x : Sess) : Bool := x.preempted.isSome || x.robbed || decide (64 ≤ x.recs.length) || decide (x.pages.length ≤ x.filled / 16)

/-- The request is this module's to schedule: it owns it and its lease is valid (R358, R360, R361). -/
def State.owned (s : State) (p req : Nat) : Bool :=
  match Tab.find s.ses.leases (acctKey p req) with
  | some l => l.waiting.isNone && l.handing.isNone && (l.homeNode == s.sys.nodeId || decide (s.now < l.validUntil))
  | none => match Tab.find s.ses.homes (acctKey p req) with | some h => h.owner == s.sys.nodeId | none => true

/-- The session may take a row of the next step. -/
def State.ready (s : State) (y : Plan) (e : Nat × Sess) : Bool :=
  !y.inStep e.1 && !e.2.waiting && s.owned e.2.part e.2.req && e.2.closing.isNone && !e.2.abandoned && decide (0 < e.2.left)

/-- A decode row of a session (R291). -/
def decodeRow (e : Nat × Sess) : StepRow :=
  { slot := e.1, gen := e.2.gen, round := e.2.round, pos := e.2.filled, count := 1, prefill := false, sample := true, live := true, returned := false }

/-- The rows of the plan's next step (R291): decode rows oldest served first, then at most one prefill row. -/
def State.stepRows (s : State) (k : Nat) (y : Plan) : List StepRow :=
  let cs := (s.planSessions k).filter (s.ready y)
  let dec := (sortBy (fun e => e.2.served) (cs.filter (fun e => e.2.state == SessState.decode))).take (min y.maxBatch y.stepTokens)
  let budget := y.stepTokens - dec.length
  let pre := (sortBy (fun e => e.2.admitted) (cs.filter (fun e => e.2.state == SessState.prefill))).head?
  dec.map decodeRow ++
  (match pre with
   | some e =>
     let c := min y.prefillChunk (min e.2.left budget)
     if budget = 0 then [] else [{ slot := e.1, gen := e.2.gen, round := e.2.round, pos := e.2.filled, count := c, prefill := true, sample := decide (c = e.2.left), live := true, returned := false }]
   | none => [])

/-- A manifest row's 64 bytes (R292). -/
def State.manifestRow (s : State) (y : Plan) (r : StepRow) : Nat :=
  match s.sess? r.slot with
  | none => 0
  | some x =>
    plcB 0 2 r.slot ||| plcF 2 7 r.prefill ||| plcF 2 6 r.sample ||| plcB 4 4 r.pos ||| plcB 8 4 r.count |||
    plcB 12 4 (if r.prefill then 0 else x.known.getD r.pos 0) ||| plcB 16 8 (x.k * 4 * y.contextMax) |||
    plcB 24 8 (x.k * 4 * y.tableEntries) ||| plcB 32 4 x.temperature ||| plcB 36 4 x.topP |||
    plcB 40 8 (x.seed + x.index + x.taken.length) ||| plcB 48 2 x.topK

/-- The plan's steward runs: its appointment stands, its block runs, and its partition is not frozen. -/
def State.stewardRuns (s : State) (p : Nat) (y : Plan) : Bool :=
  (match Tab.find s.svc.stewards y.stewardCell with | some t => t.running && t.dismissing.isNone && !t.revoked | none => false) &&
  s.blockRuns (y.stewardCell / 20) && !s.movingBlock (y.stewardCell / 20) && !s.partFrozen p && !s.engFrozen (cellId y.stewardCell)

/-- STEP_COMPOSE: the session steward composes the plan's next step, writes its manifest slot and QPUTs one waybill to ENTRY_Q
(R291, R292, R294). It does so when fewer than MANIFEST_SLOTS steps are in flight, a row can be formed and the queue has room. -/
def execStepCompose (p plan : Nat) (s : State) : Outc :=
  .next (
    let k := planKey p plan
    match s.plan? k with
    | none => s
    | some y =>
      let rows := s.stepRows k y
      if !s.stewardRuns p y || y.manifestSlots ≤ y.steps.length || rows.isEmpty || s.queueFull y.entryQ then s
      else
        let n := y.nextStep
        let off := y.manifestAddr % 2 ^ 19 * 64 + n % y.manifestSlots * y.slotBytes
        let blk := y.manifestAddr / 2 ^ 19
        let s1 := match s.phys p blk with
          | some b => s.sliceWrite b off (rows.flatMap (fun r => bytesOf 64 (s.manifestRow y r)))
          | none => s
        let w : Waybill := { kind := 0, resetGen := s.genOf p, context := y.context, requestId := stepReq plan n, tileBlock := blk, tileOff := off / 64, format := 0x0B, cols := 16, rows := rows.length, rowPitch := 64, arg := n % 65536 }
        let s2 := s1.launch y.entryQ w (engRank (cellId y.stewardCell))
        let s3 := rows.foldl (fun (s : State) r => s.updSess r.slot (fun x => { x with served := n + 1 })) s2
        s3.setPlan k { y with nextStep := n + 1, steps := y.steps ++ [{ n := n, begun := s.now, rows := rows }] })

/-- A row's session, while the row's results still count for it. -/
def State.rowSess (s : State) (r : StepRow) : Option Sess :=
  match s.sess? r.slot with
  | some x => if r.live ∧ x.gen = r.gen ∧ x.round = r.round then some x else none
  | none => none

/-- A row of the step failed (R293): its positions are scheduled again; the third consecutive failure ends the generation with
FAULT and raises SESSION_FAULT. -/
def State.failRow (s : State) (r : StepRow) : State :=
  match s.rowSess r with
  | none => s
  | some x =>
    if 2 ≤ x.fails then ((s.endGeneration r.slot 6).event 0x000C x.part x.context true 0 0xFFFF 0)
    else s.setSess r.slot { x with fails := x.fails + 1 }

/-- A row succeeded: its positions are in the KV pages; a sampled token goes to Innkeeper as a notice (R293). -/
def State.passRow (s : State) (r : StepRow) (token : Nat) : State :=
  match s.rowSess r with
  | none => s
  | some x =>
    let x1 := { x with fails := 0, filled := r.pos + r.count }
    if r.sample then
      { s.setSess r.slot { x1 with state := .decode, taken := x.taken ++ [token] } with ses := { (s.setSess r.slot { x1 with state := .decode, taken := x.taken ++ [token] }).ses with taps := s.ses.taps ++ [{ slot := r.slot, gen := r.gen, round := r.round, token := token }] } }
    else s.setSess r.slot x1

/-- Sessions that lost their pages during the step give them up now, and wait for re-admission unless they are IDLE (R296). -/
def State.settleRobbed (s : State) (rows : List StepRow) : State :=
  rows.foldl (fun (s : State) r =>
    match s.sess? r.slot with
    | some x => if x.robbed && x.gen == r.gen then s.freeSessPages r.slot else s
    | none => s) s

/-- Cut a section into the data of its chunks (R445): 3,968 bytes each, the last with what remains. -/
def cutChunks : (fuel : Nat) → List Byte → List (List Byte)
  | 0, l => [l]
  | f + 1, l => if l.length ≤ 3968 then [l] else l.take 3968 :: cutChunks f (l.drop 3968)

/-- One section of a portmanteau (R444): its kind, its INDEX, and its bytes. -/
structure Section where
  kind : Nat
  index : Nat
  data : List Byte
deriving DecidableEq, Repr

/-- The chunks of a section: kind, INDEX, LAST_IN_SECTION and data. -/
def Section.chunks (x : Section) : List (Nat × Nat × Bool × List Byte) :=
  let l := cutChunks (x.data.length / 3968) x.data
  (List.zip (List.range l.length) l).map (fun e => (x.kind, x.index, e.1 + 1 == l.length, e.2))

/-- The management session with a node (R496), whose transfer key a transfer to it is sealed under (R446). -/
def State.nodeSession (s : State) (node : Nat) : Nat := ((s.sec.sessions.find? (fun e => e.2.peer == some node)).map (·.1)).getD 0

/-- Send one PortmanteauChunk (R445, R446): TRANSFER, CHUNK, KIND, LAST_IN_SECTION, INDEX, the GCM tag, how many bytes of data, and the
encrypted data. -/
def State.sendChunk (s : State) (node transfer n : Nat) (c : Nat × Nat × Bool × List Byte) : State :=
  let e := Config.gcmSeal (s.nodeSession node) (transfer + n * 2 ^ 32) c.2.2.2
  s.emitOut (.msg (.node node) 0x0407 [transfer, n, c.1, if c.2.2.1 then 1 else 0, c.2.1, e.2, e.1.length, ofBytes e.1])

/-- Send sections in order, and then their END section: the number of chunks before it, and SHA-384 over their GCM tags (R444, R445). -/
def State.sendTransfer (s : State) (node transfer : Nat) (l : List Section) : State :=
  let cs := l.flatMap (·.chunks)
  let tags := (List.zip (List.range cs.length) cs).flatMap (fun e => bytesOf 16 (Config.gcmSeal (s.nodeSession node) (transfer + e.1 * 2 ^ 32) e.2.2.2.2).2)
  let fin : Section := { kind := 6, index := 0, data := bytesOf 4 cs.length ++ bytesOf 48 (Config.sha384 tags) }
  let all := cs ++ fin.chunks
  (List.zip (List.range all.length) all).foldl (fun (s : State) e => s.sendChunk node transfer e.1 e.2) s

/-- Bytes of one of a plan's memory objects; free where they cannot be read. -/
def State.planBytes (s : State) (p h off n : Nat) : List Byte :=
  ((s.obj? p h).bind (fun o => s.readObj o off n)).getD ((List.range n).map (fun i => Config.freeByte (s.free + off + i)))

/-- A hand-off's SESSION section (R359): the session's table entry, its page table, its KV pages in page-table order, and its log. -/
def State.sessionSection (s : State) (x : Sess) (y : Plan) : Section :=
  { kind := 7, index := 0, data :=
      s.planBytes x.part y.tableHandle (y.sessionMax * 4 * y.tableEntries + 256 * x.k) 256 ++
      s.planBytes x.part y.tableHandle (x.k * 4 * y.tableEntries) (4 * y.tableEntries) ++
      x.pages.flatMap (fun g => s.planBytes x.part y.kvPool (g * y.kvPageBytes) y.kvPageBytes) ++
      s.planBytes x.part y.logHandle (x.k * 4 * y.contextMax) (4 * x.tokens.length) }

/-- Bytes of a hand-off's SESSION section (R359), and the chunks of its transfer, END included (R445). -/
def Sess.sectionBytes (x : Sess) (y : Plan) : Nat := 256 + 4 * y.tableEntries + x.pages.length * y.kvPageBytes + 4 * x.tokens.length
def Sess.chunks (x : Sess) (y : Plan) : Nat := cdiv (x.sectionBytes y) 3968 + 1

/-- A hand-off whose session is in no step sends its state to the target as a transfer, and then LeaseOffer (R359, R361 step 2). -/
def State.tryOffer (s : State) (slot : Nat) : State :=
  match s.sess? slot with
  | none => s
  | some x =>
    match Tab.find s.ses.leases (acctKey x.part x.req), s.plan? x.plan with
    | some l, some y =>
      match l.handing with
      | none => s
      | some t =>
        if l.offered || y.inStep slot then s
        else
          let n := x.chunks y
          let s1 := { s.sendTransfer t l.transfer [s.sessionSection x y] with free := s.free + 1 }
          let s2 := s1.emitOut (.msg (.node t) 0x0113 [x.req, l.gen, x.part, l.homeNode, l.transfer, n])
          { s2 with ses := { s2.ses with leases := Tab.put s2.ses.leases (acctKey x.part x.req) { l with offered := true } } }
    | _, _ => s

/-- The step is complete (R293): its energy is divided among its rows (R294, R477), a row whose session is closed counting for the
house account (R490). -/
def State.stepDone (s : State) (k n : Nat) : State :=
  match s.plan? k with
  | none => s
  | some y =>
    match y.steps.find? (fun st => st.n == n) with
    | none => s
    | some st =>
      let s1 := s.setPlan k { y with steps := y.steps.filter (fun t => t.n != n) }
      let shares := st.rows.map (fun r => ((match s.sess? r.slot with | some x => if x.gen = r.gen then x.req else 0 | none => 0), r.count))
      st.rows.foldl (fun (s : State) r => s.tryOffer r.slot) ((s1.settleRobbed st.rows).reckStepDone (k / 16) (stepReq k n) shares)

/-- Mark a row returned. -/
def State.markRow (s : State) (k n i : Nat) : State :=
  match s.plan? k with
  | none => s
  | some y => s.setPlan k { y with steps := y.steps.map (fun st => if st.n = n then { st with rows := (List.zip (List.range st.rows.length) st.rows).map (fun e => if e.1 = i then { e.2 with returned := true } else e.2) } else st) }

/-- Complete the step when every row has returned. -/
def State.tryStepDone (s : State) (k n : Nat) : State :=
  match s.plan? k with
  | none => s
  | some y =>
    match y.steps.find? (fun st => st.n == n) with
    | some st => if st.rows.all (fun r => r.returned) then s.stepDone k n else s
    | none => s

/-- A result waybill (R293). -/
def State.stepResult (s : State) (k : Nat) (y : Plan) (w : Waybill) : State :=
  let i := w.arg / 2 ^ 32 % 65536
  let token := w.arg % 2 ^ 32
  let stray : State := { s with ses := { s.ses with strays := s.ses.strays + 1 } }
  match y.steps.find? (fun st => st.n % 65536 == w.arg / 2 ^ 48 && w.requestId == stepReq k st.n) with
  | none => stray
  | some st =>
    match st.rows.drop i with
    | [] => stray
    | r :: _ =>
      if r.returned then stray
      else
        let bad := w.abandoned || (decide (y.vocab ≤ token) && token != 0xFFFFFFFF) || (r.sample && token == 0xFFFFFFFF)
        let s1 := s.markRow k st.n i
        (if bad then s1.failRow r else s1.passRow r token).tryStepDone k st.n

/-- STEP_RESULT: the steward takes the head of RESULT_Q, performing its fence action as QTAKE does (R153), and handles it (R293). -/
def execStepResult (p plan : Nat) (s : State) : Outc :=
  .next (
    let k := planKey p plan
    match s.plan? k with
    | none => s
    | some y =>
      if !s.stewardRuns p y then s
      else
        match s.queue? y.resultQ with
        | none => s
        | some x0 =>
          let x := (dropStale s x0 0 (x0.oldHot.length + x0.hot.length)).1
          match s.headNow x with
          | none => s.setQueue y.resultQ x
          | some w =>
            ((s.setQueue y.resultQ (x.pop s.now)).fenceAction p w (engRank (cellId y.stewardCell)) (srcCode 0 y.stewardCell) false).stepResult k y w)

/-- STEP_TIMEOUT: STEP_TIMEOUT_MS after the manifest's QPUT, rows still missing are failed rows and the step is complete (R293). -/
def execStepTimeout (p plan : Nat) (s : State) : Outc :=
  .next (
    let k := planKey p plan
    match s.plan? k with
    | none => s
    | some y =>
      match y.steps with
      | [] => s
      | st :: _ =>
        if s.now < st.begun + y.stepTimeoutMs * 1000 then s
        else (((st.rows.filter (fun r => !r.returned)).foldl (fun (s : State) r => s.failRow r) s).stepDone k st.n))

/-! ## KV pages and preemption (R295, R296) -/

/-- The victim of a grant that finds no free page (R296): the IDLE session that ended longest ago, else the most recently admitted
session other than the requester; of the same plan, holding pages. -/
def State.victim (s : State) (k slot : Nat) : Option Nat :=
  let cs := (s.planSessions k).filter (fun e => e.1 != slot && !e.2.pages.isEmpty && !e.2.robbed)
  match (sortBy (fun e => e.2.endedAt) (cs.filter (fun e => e.2.state == SessState.idle))).head? with
  | some e => some e.1
  | none => (sortBy (fun e => e.2.admitted) cs).getLast?.map (·.1)

/-- Preempt a session (R296): its pages return to the pool, at once or when its step in flight is complete; one with a generation
running waits for re-admission. -/
def State.preempt (s : State) (slot : Nat) : State :=
  match s.sess? slot with
  | none => s
  | some x =>
    let busy := s.inStep x slot
    let s1 := if busy then s.voidRows slot else s
    let o := s1.order
    let x1 := { x with robbed := true, filled := 0, preempted := if x.state = .idle then none else some o.1, state := if x.state = .idle then .idle else .prefill }
    let s2 := o.2.setSess slot x1
    if busy then s2 else s2.freeSessPages slot

/-- Grant the session its next page; when no page is free a victim is preempted (R295, R296). -/
def State.grantNext (s : State) (slot : Nat) : State :=
  match s.sess? slot with
  | none => s
  | some x =>
    match s.plan? x.plan with
    | none => s
    | some y =>
      if 0 < y.freeCount then s.grantPages slot 1
      else
        match s.victim x.plan slot with
        | none => s
        | some v => (s.preempt v).grantPages slot 1

/-- Pages a preempted session needs to be admitted again (R289). -/
def Sess.need (x : Sess) : Nat := cdiv x.tokens.length 16 + 1

/-- SESSION_READMIT: free pages reach the need of the plan's first session waiting for its next page, or else of the session
preempted first, which goes to PREFILL from position 0 (R290, R296). -/
def execSessionReadmit (p plan : Nat) (s : State) : Outc :=
  .next (
    let k := planKey p plan
    match s.plan? k with
    | none => s
    | some y =>
      if !s.innTurn 4 p 0 then s
      else
      let short := (s.planSessions k).find? (fun e => e.2.preempted.isNone && !e.2.robbed && e.2.state != SessState.idle && !e.2.pages.isEmpty && decide (e.2.pages.length < coverPages e.2.tokens.length))
      match short with
      | some e => if y.freeCount = 0 then s else (s.grantPages e.1 (coverPages e.2.tokens.length - e.2.pages.length)).served 4 p
      | none =>
        match (sortBy (fun e => e.2.preempted.getD 0) ((s.planSessions k).filter (fun e => e.2.preempted.isSome && !e.2.robbed))).head? with
        | none => s
        | some e =>
          if y.freeCount < e.2.need then s
          else
            let o := s.order
            let x := { e.2 with preempted := none, state := .prefill, filled := 0, admitted := o.1 }
            (((o.2.setSess e.1 x).grantPages e.1 x.need).reckFlag p x.req flagReplayed).served 4 p)

/-! ## TOKEN_LOG_WRITE (R297, R302) -/

/-- A stop sequence matches: the last tokens of the current generation equal it (R297). The entry index of the first that does. -/
def stopMatch (gen : List Nat) (stops : List (List Nat)) : Option Nat := firstIdx (fun st => decide (st.length ≤ gen.length) && gen.drop (gen.length - st.length) == st) stops

/-- The end condition a token meets, of lowest REASON, with STOP_INDEX (R297): `x` is the session with the token in its log. -/
def endReason (x : Sess) (y : Plan) (token : Nat) : Option (Nat × Nat) :=
  if token = x.eos ∧ x.eos ≠ 0xFFFFFFFF then some (1, 0)
  else
    match stopMatch (x.tokens.drop (x.tokens.length - x.made)) x.stops with
    | some i => some (2, i)
    | none => if x.tokens.length = y.contextMax then some (3, 0) else if x.made = x.maxNew then some (4, 0) else none

/-- The module keeps the token ring and log of the request: it is its home. -/
def State.isHome (s : State) (p req : Nat) : Bool :=
  match Tab.find s.ses.leases (acctKey p req) with
  | some l => l.homeNode == s.sys.nodeId
  | none => true

/-- Log a token (R295, R297, R302): to the log, next page granted at a page's first position, end conditions, the companion's
entry, and the record that will follow it. An owner that is not the home keeps its own log and sends the home a notice (R359). -/
def State.logToken (s : State) (slot token : Nat) : State :=
  match s.sess? slot with
  | none => s
  | some x =>
    match s.plan? x.plan with
    | none => s
    | some y =>
      let pos := x.tokens.length
      let x1 := { x with tokens := x.tokens ++ [token], taken := x.taken.drop 1, made := x.made + 1, index := x.index + 1 }
      let s1 := (s.setSess slot x1).writeLog x y pos [token]
      let s2 := if s.owned x.part x.req ∧ pos % 16 = 0 ∧ x.preempted.isNone ∧ x.robbed = false then s1.grantNext slot else s1
      let e := endReason x1 y token
      let s3 := match e with
        | none => s2
        | some _ =>
          let o := (s2.voidRows slot).order
          o.2.updSess slot (fun x => { x with state := .idle, taken := [], filled := min x.filled x.tokens.length, round := x.round + 1, endedAt := o.1, preempted := none })
      if s.isHome x.part x.req then
        let r : TokRec := { token := token, index := x.index, fin := e.isSome, reason := (match e with | some c => c.1 | none => 0), stop := (match e with | some c => c.2 | none => 0), acked := true }
        match s3.sess? slot with
        | none => s3
        | some x3 =>
          let s4 := (s3.addRec slot x3 r).mirrorSend x.part 3 (x.handle slot) [x.index, pos, token, if x.confirmed = 0 then 0xFFFFFFFF else x.confirmed - 1]
          match e with
          | some c => s4.mirrorSend x.part 4 (x.handle slot) [x.index, c.1]
          | none => s4
      else
        match Tab.find s.ses.leases (acctKey x.part x.req) with
        | some l => if s.now < l.validUntil then s3.emitOut (.msg (.node l.homeNode) 0x0118 [x.req, l.gen, l.homePart, 1, x.index, pos, token]) else s3
        | none => s3

/-- The partition of a token notice. -/
def State.tapPart (s : State) (t : TapNote) : Nat := match s.sess? t.slot with | some x => x.part | none => 0

/-- TOKEN_LOG_WRITE: Innkeeper takes the next token notice, a class 4 item: partitions in turn, in order within one (R276, R277, R297). A
token of a generation that has ended is discarded. -/
def execTokenLogWrite (s : State) : Outc :=
  .next (
    match s.nextItem 4 s.tapPart s.ses.taps with
    | none => s
    | some (t, l) =>
      if !s.innTurn 4 (s.tapPart t) 0 then s
      else
        let s1 := { s with ses := { s.ses with taps := l } }
        (match s.sess? t.slot with
         | some x => if x.gen = t.gen ∧ x.round = t.round then s1.logToken t.slot t.token else s1
         | none => s1).served 4 (s.tapPart t))

/-- TOKEN_RECORD_WRITE: the session's oldest record is written into a released slot of the token ring once its mirror entry, if it
needs one, has been acknowledged (R298-R302). -/
def execTokenRecordWrite (slot : Nat) (s : State) : Outc :=
  .next (
    match s.sess? slot with
    | none => s
    | some x =>
      match x.recs with
      | [] => s
      | r :: l =>
        match (s.plan? x.plan).bind (fun y => (s.ring? y.tokenRing).map (fun g => (y.tokenRing, g))) with
        | none => s
        | some (q, g) =>
          if !r.acked || !g.room || !s.innTurn 4 x.part 0 then s
          else
            ((s.setSess slot { x with recs := l, confirmed := if r.token = 0xFFFFFFFF then x.confirmed else r.index + 1 }).writeRing q g (fun seq phase =>
              plcB 0 2 slot ||| plc 2 7 7 phase ||| plcF 2 6 r.fin ||| plc 2 5 3 r.reason ||| plc 2 2 0 r.stop ||| plcB 3 1 x.gen |||
              plcB 4 4 r.token ||| plcB 8 4 seq ||| plcB 12 4 r.index)).served 4 x.part)

/-! ## Partition reset (R304) -/

/-- A partition reset drops the steps in flight; the restarted steward reloads session state and schedules the rows again. Token
notices on their way are dropped with their generation; logs, pages and records stand. -/
def State.resetSessions (s : State) (p : Nat) : State :=
  let s1 := { s with svc := { s.svc with plans := Tab.all s.svc.plans (fun k y => if k / 16 = p then { y with steps := [] } else y) } }
  let mine := fun (t : TapNote) => match s.sess? t.slot with | some x => x.part == p | none => true
  let s2 := { s1 with ses := { s1.ses with taps := s1.ses.taps.filter (fun t => !mine t), sessions := Tab.all s1.ses.sessions (fun _ x => if x.part = p ∧ x.taken ≠ [] then { x with taken := [], filled := min x.filled (x.tokens.length - 1) } else x) } }
  ((s2.ses.sessions.filter (fun e => e.2.part == p && e.2.robbed)).map (·.1)).foldl (fun (s : State) i => s.freeSessPages i) s2

end Sys2Proof.Machine
end

