-- ==== Sys2Proof/Machine/Mirrors.lean ====
section
/-! DEFINITION. Sys2Proof/Machine/Mirrors.lean: the companion of a partition: mirror entries, holding partitions and takeover
(10_session_service R302, R304; 16_failure_hiding R438-R440). -/

namespace Sys2Proof.Machine

/-! ## The source's side (R302, R304, R439) -/

/-- Every waiting record of a partition's sessions may be written: it has no companion any more. -/
def State.ackAll (s : State) (p : Nat) : State :=
  { s with ses := { s.ses with sessions := Tab.all s.ses.sessions (fun _ x => if x.part = p then { x with recs := x.recs.map (fun r => { r with acked := true }) } else x) } }

/-- MIRROR_ENTRY_ACK: the companion answers the mirror entry of a KIND and INDEX of a session: success lets the token's or END
record be written (R302); NO_STRIPES raises SESSION_UNMIRRORED, and the source goes on without a companion (R439). -/
def execMirrorEntryAck (slot gen kind index : Nat) (ok : Bool) (s : State) : Outc :=
  .next (
    match s.sess? slot with
    | none => s
    | some x =>
      if x.gen ≠ gen then s
      else if ok then
        s.setSess slot { x with recs := x.recs.map (fun r => if r.index = index ∧ (kind = 3 ∧ r.token ≠ 0xFFFFFFFF ∨ kind = 4 ∧ r.token = 0xFFFFFFFF) then { r with acked := true } else r) }
      else ((s.updPart x.part (fun y => { y with companion := 0xFFFF })).ackAll x.part).unmirrored x.part x.plan)

/-- A session's log sent to a new companion (R304): OPEN with the tokens before the current generation, a TOKEN entry for each token
of it, and END for a generation that has ended. -/
def State.mirrorSession (s : State) (slot : Nat) (x : Sess) : State :=
  let n := x.tokens.length - x.made
  let h := x.handle slot
  let c := if x.confirmed = 0 then 0xFFFFFFFF else x.confirmed - 1
  let s1 := s.mirrorSend x.part 1 h ([x.record n] ++ x.tokens.take n ++ x.stops.flatMap stopWords)
  let s2 := (List.zip (List.range x.made) (x.tokens.drop n)).foldl (fun (s : State) e =>
    s.mirrorSend x.part 3 h [x.index - x.made + e.1, n + e.1, e.2, c]) s1
  let s3 := (x.recs.filter (fun r => r.token == 0xFFFFFFFF)).foldl (fun (s : State) r => s.mirrorSend x.part 4 h [r.index, r.reason]) s2
  if x.state = .idle ∧ x.recs.all (fun r => r.token != 0xFFFFFFFF) then s3.mirrorSend x.part 4 h [x.index - 1, 0] else s3

/-- The partition's companion is named, or none with 0xFFFF (R334, R338). A new companion is sent the logs of the open sessions, and
records that wait, wait for its acknowledgements (R304). -/
def companionSetBody (r : Nat) (s : State) : MsgRes :=
  let p := fldB r 0 1
  let n := fldB r 2 2
  if bodyRsvd r [(0, 7, 0), (2, 15, 0)] then refuseM s .rsvdSet
  else if !s.livePart p then refuseM s .badId
  else if n == s.sys.nodeId && n != 0xFFFF then refuseM s .badParam
  else
    let s1 := s.updPart p (fun x => { x with companion := n })
    if n == 0xFFFF then okM (s1.ackAll p) 0
    else if s.companion p == some n then okM s1 0
    else okM ((s.ses.sessions.filter (fun e => e.2.part == p)).foldl (fun (s : State) e => s.mirrorSession e.1 e.2) s1) 0

/-- COMPANION_SET. -/
def execCompanionSet (m : MsgRef) (body : BitVec 64) (s : State) : Outc :=
  .next (runMsg s m 3 (fldB body.toNat 0 1) (companionSetBody body.toNat))

/-! ## The companion's side (R438, R439) -/

def State.setHolding (s : State) (h : Nat) (x : Holding) : State := { s with ses := { s.ses with holdings := Tab.put s.ses.holdings h x } }

/-- MIRROR_ACCEPT's answers (R438): a holding partition binds no block. -/
def mirrorAcceptBody (r : Nat) (s : State) : MsgRes :=
  let h := fldB r 0 1
  if bodyRsvd r [(0, 7, 0), (2, 15, 0), (4, 7, 0)] then refuseM s .rsvdSet
  else
    match s.part? h with
    | none => refuseM s .badId
    | some x =>
      if x.destroying.isSome then refuseM s .badId
      else if !x.blockMap.isEmpty then refuseM s .inUse
      else okM (s.setHolding h { node := fldB r 2 2, part := fldB r 4 1, mirrors := [], bytes := 0, manifest := [] }) 0

/-- MIRROR_ACCEPT. -/
def execMirrorAccept (m : MsgRef) (body : BitVec 64) (s : State) : Outc :=
  .next (runPlain s m 3 (fldB body.toNat 0 1) (mirrorAcceptBody body.toNat))

/-- A session's mirror from its OPEN entry: record, prompt and stop entries (R439). -/
def mirrorOpen (body : List Byte) : Mirror :=
  let r := ofBytes ((body.drop 8).take 64)
  let nStop := fld r 1 3 0
  let n := min (fldB r 32 4) ((body.length - 72 - 64 * nStop) / 4)
  let stops := (List.range nStop).filterMap (fun i => stopEntry (2 ^ 32) (((body.drop (72 + 4 * n)).drop (64 * i)).take 64))
  { record := r, stops := stops, maxNew := fldB r 36 4, tokens := tokenWords ((body.drop 72).take (4 * n)), made := 0, index := 0, idle := false, records := [] }

/-- A TOKEN entry: the token at its position, and the records past CONFIRMED (R439). -/
def Mirror.token (x : Mirror) (index pos token confirmed : Nat) : Mirror :=
  let c := if confirmed = 0xFFFFFFFF then 0 else confirmed + 1
  let r : TokRec := { token := token, index := index, fin := false, reason := 0, stop := 0, acked := true }
  { x with tokens := x.tokens.take pos ++ [token], made := x.made + 1, index := index + 1, records := (x.records.filter (fun q => decide (c ≤ q.index) && q.index != index)) ++ [r] }

/-- An END entry: the generation has ended at an INDEX with a REASON; a natural end is that of its token (R439). -/
def Mirror.fin (x : Mirror) (index reason : Nat) : Mirror :=
  { x with idle := true, records := x.records.map (fun q => if q.index = index ∧ reason ≠ 0 ∧ reason < 5 then { q with fin := true, reason := reason } else q) }

/-- A mirror entry applied to its holding; none for a KIND that is none (R439). -/
def Holding.entry (h : Holding) (body : List Byte) : Option Holding :=
  let r := ofBytes (body.take 24)
  let k := fldB r 4 4
  let h1 := { h with bytes := h.bytes + body.length }
  match fldB r 0 1 with
  | 1 => some { h1 with mirrors := Tab.put h1.mirrors k (mirrorOpen body) }
  | 2 => some { h1 with mirrors := Tab.upd h1.mirrors k (fun x => { x with maxNew := fldB r 8 4, tokens := x.tokens ++ tokenWords (body.drop 12), made := 0, idle := false }) }
  | 3 => some { h1 with mirrors := Tab.upd h1.mirrors k (fun x => x.token (fldB r 8 4) (fldB r 12 4) (fldB r 16 4) (fldB r 20 4)) }
  | 4 => some { h1 with mirrors := Tab.upd h1.mirrors k (fun x => x.fin (fldB r 8 4) (fldB r 12 4)) }
  | 5 => some { h1 with mirrors := Tab.del h1.mirrors k }
  | 6 => some { h1 with manifest := h1.manifest ++ [body.drop 8] }
  | _ => none

/-- The holding partition that mirrors a source's partition. -/
def State.holdingFor (s : State) (node part : Nat) : Option (Nat × Holding) := s.ses.holdings.find? (fun e => e.2.node == node && e.2.part == part)

/-- R439's answers: the entry written to the holding carve-out; NO_STRIPES when it is full. -/
def mirrorEntryBody (node part : Nat) (body : List Byte) (s : State) : MsgRes :=
  match s.holdingFor node part with
  | none => refuseM s .badId
  | some (h, x) =>
    if fldB (ofBytes (body.take 8)) 1 3 != 0 then refuseM s .rsvdSet
    else if (match s.part? h with | some y => usableBytes y | none => 0) < x.bytes + body.length then refuseM s .noStripes
    else
      match x.entry body with
      | none => (s, some (badParam 0 0))
      | some y => okM (s.setHolding h y) 0

/-- MIRROR_ENTRY: a mirror entry of a partition of a node. -/
def execMirrorEntry (m : MsgRef) (node part : Nat) (body : List (BitVec 8)) (s : State) : Outc :=
  .next (runPlain s m 3 0 (mirrorEntryBody node part body))

/-! ## Takeover (R440) -/

/-- Resume one mirrored session in a plan of the target partition (R440): admitted with its logged tokens as its prompt when the pool
has the pages, else waiting for them; an IDLE session has its log and no pages. -/
def State.resumeSession (s : State) (node p oldHandle : Nat) (x : Mirror) : State :=
  let r := x.record
  let k := planKey p (fld r 0 3 0)
  match s.plan? k, s.pickSlot with
  | some y, some (slot, gen) =>
    let o := ({ s with free := s.free + 1 }).order
    let fit := !x.idle && decide (cdiv x.tokens.length 16 + 1 ≤ y.freeCount)
    let recs := x.records.map (fun q => { q with acked := (s.companion p).isNone })
    let first := match recs with | q :: _ => q.index | [] => x.index
    let z : Sess := { part := p, plan := k, k := s.freeK k y, gen := gen, context := y.context, req := fldB r 4 4, temperature := fldB r 8 4, topP := fldB r 12 4, topK := fldB r 2 2, seed := fldB r 16 8, maxNew := x.maxNew - x.made, eos := fldB r 48 4, stops := x.stops, state := if x.idle then .idle else .prefill, tokens := x.tokens, taken := [], filled := 0, made := 0, index := x.index, round := 0, fails := 0, pages := [], admitted := o.1, served := 0, preempted := if x.idle ∨ fit then none else some o.1, endedAt := o.1, robbed := false, recs := recs, confirmed := first, closing := none, abandoned := false }
    let s1 := o.2.openSession slot z y flagReplayed
    let s2 := if fit then s1.grantPages slot (cdiv x.tokens.length 16 + 1) else s1
    (s2.mirrorSession slot z).event 0x0018 p 0 false 0 0xFFFF
      (plcB 0 2 node ||| plcB 4 4 oldHandle ||| plcB 8 4 (z.handle slot) ||| plcB 12 4 z.req ||| plcB 16 4 first)
  | _, _ => s

/-- COMPANION_TAKEOVER's answers (R440): the target has a plan of the same PLAN_ID for every mirrored session. -/
def companionTakeoverBody (r : Nat) (s : State) : MsgRes :=
  let h := fldB r 0 1
  let p := fldB r 1 1
  let node := fldB r 2 2
  if bodyRsvd r [(0, 7, 0), (1, 7, 0), (2, 15, 0), (4, 7, 0)] then refuseM s .rsvdSet
  else
    match Tab.find s.ses.holdings h with
    | none => refuseM s .badId
    | some x =>
      if x.node != node || x.part != fldB r 4 1 || !s.livePart p then refuseM s .badId
      else if x.mirrors.any (fun e => (s.plan? (planKey p (fld e.2.record 0 3 0))).isNone) then refuseM s .badParam
      else okM ((x.mirrors.foldl (fun (s : State) e => s.resumeSession node p e.1 e.2) s).setHolding h { x with mirrors := [] }) 0

/-- COMPANION_TAKEOVER. -/
def execCompanionTakeover (m : MsgRef) (body : BitVec 64) (s : State) : Outc :=
  .next (runPlain s m 3 (fldB body.toNat 1 1) (companionTakeoverBody body.toNat))

end Sys2Proof.Machine
end

