-- ==== Sys2Proof/Machine/Leases.lean ====
section
/-! DEFINITION. Sys2Proof/Machine/Leases.lean: ownership of requests across modules (12_composition R358-R363). A partition that
serves a request on several modules has the same ID on each (log entry 31). -/

namespace Sys2Proof.Machine

/-- LEASE_MS in µs (R358). -/
def State.leaseUs (s : State) : Nat := s.zh 76 * 1000

def State.setLease (s : State) (k : Nat) (l : Lease) : State := { s with ses := { s.ses with leases := Tab.put s.ses.leases k l } }
def State.delLease (s : State) (k : Nat) : State := { s with ses := { s.ses with leases := Tab.del s.ses.leases k } }
def State.setHome (s : State) (k : Nat) (h : HomeRec) : State := { s with ses := { s.ses with homes := Tab.put s.ses.homes k h } }

/-- The work of a stale or foreign sender is dropped and counted (R361). -/
def staleLease (s : State) : MsgRes :=
  ({ s with ses := { s.ses with stale := s.ses.stale + 1 } }, some (.refused .leaseStale 0))

/-- The open session of a request here. -/
def State.reqSession (s : State) (p req : Nat) : Option (Nat × Sess) := s.ses.sessions.find? (fun e => e.2.part == p && e.2.req == req && e.2.closing.isNone)

/-! ## REQUEST_HANDOFF (R361 steps 1 and 2) -/

/-- R361: on the owner the hand-off begins: no step is composed for the request and its lease is not renewed any more; its state
is sent once its steps in flight are done. -/
def requestHandoffBody (r : Nat) (s : State) : MsgRes :=
  let p := fldB r 0 1
  let target := fldB r 2 2
  let req := fldB r 4 4
  let k := acctKey p req
  if bodyRsvd r [(0, 7, 0), (2, 15, 0), (4, 31, 0)] then refuseM s .rsvdSet
  else if !s.livePart p then refuseM s .badId
  else
    match s.reqSession p req with
    | none => refuseM s .notOwner
    | some (slot, _) =>
      if !s.owned p req then refuseM s .notOwner
      else
        let gen := match Tab.find s.ses.homes k with | some h => h.gen | none => 0
        let l := Tab.getD s.ses.leases k { gen := gen, homeNode := s.sys.nodeId, homePart := p, slot := slot, validUntil := 0, renewAt := 0, waiting := none, handing := none, transfer := 0, offered := false }
        let s1 := s.setLease k { l with handing := some target, transfer := s.ses.nextTransfer, offered := false }
        okM (({ s1 with ses := { s1.ses with nextTransfer := s1.ses.nextTransfer + 1 } }).tryOffer slot) 0

/-- REQUEST_HANDOFF. -/
def execRequestHandoff (m : MsgRef) (body : BitVec 128) (s : State) : Outc :=
  .next (runMsg s m 3 (fldB body.toNat 0 1) (requestHandoffBody body.toNat))

/-! ## The target's side (R359, R361 steps 3 and 4) -/

/-- The session state of a completed transfer becomes a session here, not scheduled until LeaseGrant arrives. -/
def State.placeSession (s : State) (p : Nat) (im : SessImage) (gen homeNode : Nat) : Option State :=
  let k := planKey p (im.sess.plan % 16)
  match s.plan? k, s.pickSlot with
  | some y, some (slot, g) =>
    if y.freeCount < im.kv.length then none
    else
      let o := ({ s with free := s.free + 1 }).order
      let x := { im.sess with part := p, plan := k, k := s.freeK k y, gen := g, context := y.context, pages := [], taken := [], recs := [], admitted := o.1, closing := none, abandoned := false, robbed := false, preempted := none }
      let s1 := o.2.openSession slot x y 0
      let s2 := ({ s1 with ses := { s1.ses with homes := Tab.del s1.ses.homes (acctKey p x.req) } }).grantPages slot im.kv.length
      let pages := match s2.sess? slot with | some z => z.pages | none => []
      let s3 := (List.zip pages im.kv).foldl (fun (s : State) e => s.writePlanObj p y.kvPool (e.1 * y.kvPageBytes) e.2) s2
      some (s3.setLease (acctKey p x.req) { gen := gen, homeNode := homeNode, homePart := im.homePart, slot := slot, validUntil := 0, renewAt := s.now + s.leaseUs / 2, waiting := some s.now, handing := none, transfer := 0, offered := false })
  | _, _ => none

/-- The chunks of a transfer whose END section matched; none before (R445, R446). -/
def Incoming.whole (t : Incoming) : Tab Chunk :=
  match t.final with
  | some c => c
  | none => t.gens.getLastD []

/-- LeaseOffer (R359): success only when the transfer's END section matched and it holds CHUNKS chunks; LeaseAccept follows to the home. -/
def leaseOfferBody (node r : Nat) (im : SessImage) (s : State) : MsgRes :=
  let p := fld r 5 5 0
  let home := fldB r 6 2
  let req := fldB r 0 4
  let gen := (fldB r 4 1 + 1) % 256
  if bodyRsvd r [(0, 31, 0), (4, 7, 0), (5, 5, 0), (6, 15, 0), (8, 31, 0), (12, 31, 0)] then refuseM s .rsvdSet
  else if !s.livePart p then refuseM s .badId
  else
    match takeFirst (fun t => t.node == node && t.transfer == fldB r 8 4) s.fail.inc with
    | none => refuseM s .badTag
    | some (t, l) =>
      if t.whole.isEmpty || t.whole.length != fldB r 12 4 || im.sess.req != req then refuseM s .badTag
      else
        match s.placeSession p im gen home with
        | none => refuseM s .badId
        | some s1 =>
          okM (({ s1 with fail := { s1.fail with inc := l } }).emitOut (.msg (.node home) 0x0114 [req, gen, im.homePart, node, s.now])) 0

/-- LEASE_OFFER: from an owner's node, with what the transfer's SESSION section says. -/
def execLeaseOffer (m : MsgRef) (node : Nat) (body : BitVec 128) (image : SessImage) (s : State) : Outc :=
  .next (runMsg s m 3 (fld body.toNat 5 5 0) (leaseOfferBody node body.toNat image))

/-- LeaseGrant (R360): the lease is valid until ECHO_US plus LEASE_MS, and a waiting target may schedule the request. -/
def leaseGrantBody (node r : Nat) (s : State) : MsgRes :=
  let k := acctKey (fld r 5 5 0) (fldB r 0 4)
  if bodyRsvd r [(0, 31, 0), (4, 7, 0), (5, 5, 0), (8, 63, 0)] then refuseM s .rsvdSet
  else
    match Tab.find s.ses.leases k with
    | none => refuseM s .notOwner
    | some l =>
      if l.homeNode != node || l.gen != fldB r 4 1 then refuseM s .leaseStale
      else okM (s.setLease k { l with validUntil := fldB r 8 8 + s.leaseUs, waiting := none }) 0

/-- LEASE_GRANT: from a home's node. -/
def execLeaseGrant (m : MsgRef) (node : Nat) (body : BitVec 128) (s : State) : Outc :=
  .next (runMsg s m 3 (fld body.toNat 5 5 0) (leaseGrantBody node body.toNat))

/-- A request's state is discarded here: a session whose home is another module goes; the home's own keeps its log. -/
def State.discardRequest (s : State) (k : Nat) (l : Lease) : State :=
  let s1 := s.delLease k
  if l.homeNode = s.sys.nodeId then s1.freeSessPages l.slot
  else
    match s1.sess? l.slot with
    | some x => (s1.voidRows l.slot |>.reckClose x.part x.req 0).1.dropSession l.slot
    | none => s1

/-- LEASE_GRANT_TIMEOUT: LEASE_MS after its LeaseAccept a target holds no LeaseGrant, and discards the state (R361). -/
def execLeaseGrantTimeout (p req : Nat) (s : State) : Outc :=
  .next (
    match Tab.find s.ses.leases (acctKey p req) with
    | none => s
    | some l =>
      match l.waiting with
      | none => s
      | some t => if t + s.leaseUs ≤ s.now then s.discardRequest (acctKey p req) l else s)

/-! ## The owner's side (R360) -/

/-- LEASE_RENEW_TIMER: every LEASE_MS / 2 the owner sends LeaseRenew with its TIME_US; not while a hand-off runs (R360, R361). -/
def execLeaseRenewTimer (p req : Nat) (s : State) : Outc :=
  .next (
    let k := acctKey p req
    match Tab.find s.ses.leases k with
    | none => s
    | some l =>
      if l.homeNode = s.sys.nodeId ∨ l.waiting.isSome ∨ l.handing.isSome ∨ s.now < l.renewAt then s
      else (s.setLease k { l with renewAt := s.now + s.leaseUs / 2 }).emitOut (.msg (.node l.homeNode) 0x0115 [req, l.gen, l.homePart, s.now]))

/-- LEASE_EXPIRE: an owner's lease lapses; it composes no further step for the request and sends no further notice (R360). -/
def execLeaseExpire (p req : Nat) (s : State) : Outc :=
  .next (
    let k := acctKey p req
    match Tab.find s.ses.leases k with
    | none => s
    | some l => if l.homeNode ≠ s.sys.nodeId ∧ l.waiting.isNone ∧ l.validUntil ≤ s.now then s.setLease k { l with validUntil := 0 } else s)

/-- The former owner learns that its lease is revoked: RequestHandedOff goes to the fabric manager, and the state is discarded. -/
def State.leaseRevoked (s : State) (p req gen : Nat) (l : Lease) : State :=
  (s.discardRequest (acctKey p req) l).emitOut (.msg .fabricManager 0x011A [req, gen, p])

/-- LeaseRevoked (R361 step 5). -/
def leaseRevokedBody (node r : Nat) (s : State) : MsgRes :=
  let p := fld r 5 5 0
  let req := fldB r 0 4
  if bodyRsvd r [(0, 31, 0), (4, 7, 0), (5, 5, 0)] then refuseM s .rsvdSet
  else
    match Tab.find s.ses.leases (acctKey p req) with
    | none => refuseM s .notOwner
    | some l => if l.homeNode != node then refuseM s .leaseStale else okM (s.leaseRevoked p req (fldB r 4 1) l) 0

/-- LEASE_REVOKED: from a home's node. -/
def execLeaseRevoked (m : MsgRef) (node : Nat) (body : BitVec 64) (s : State) : Outc :=
  .next (runMsg s m 3 (fld body.toNat 5 5 0) (leaseRevokedBody node body.toNat))

/-! ## The home's side (R360-R362) -/

/-- HOME_DEADLINE from a receipt now (R360). -/
def State.newDeadline (s : State) : Nat := s.now + s.leaseUs + 1000

/-- The record's deadline has not passed; the home's own ownership has none (R361, R363). -/
def State.inTime (s : State) (h : HomeRec) : Bool := h.owner == s.sys.nodeId || decide (s.now ≤ h.deadline)

/-- LeaseAccept (R361's table): from Y with g + 1, offered by X, in time: OWNER Y; LeaseGrant to Y and LeaseRevoked to X. -/
def leaseAcceptBody (node r : Nat) (s : State) : MsgRes :=
  let p := fld r 5 5 0
  let req := fldB r 0 4
  let k := acctKey p req
  if bodyRsvd r [(0, 31, 0), (4, 7, 0), (5, 5, 0), (6, 15, 0), (8, 63, 0)] then refuseM s .rsvdSet
  else
    match Tab.find s.ses.homes k with
    | none => staleLease s
    | some h =>
      let g := (h.gen + 1) % 256
      if fldB r 4 1 != g || fldB r 6 2 != h.owner || !s.inTime h then staleLease s
      else
        let s1 := (s.setHome k { owner := node, gen := g, deadline := s.newDeadline, ownerPart := p }).emitOut (.msg (.node node) 0x0116 [req, g, p, fldB r 8 8])
        if h.owner == s.sys.nodeId then
          match Tab.find s1.ses.leases k with
          | some l => okM (s1.leaseRevoked p req g l) 0
          | none => okM s1 0
        else okM (s1.emitOut (.msg (.node h.owner) 0x0117 [req, g, h.ownerPart])) 0

/-- LEASE_ACCEPT: from a target's node. -/
def execLeaseAccept (m : MsgRef) (node : Nat) (body : BitVec 128) (s : State) : Outc :=
  .next (runMsg s m 3 (fld body.toNat 5 5 0) (leaseAcceptBody node body.toNat))

/-- LeaseRenew (R361's table): from the owner with its generation, in time: the deadline is renewed, and LeaseGrant is sent. -/
def leaseRenewBody (node r : Nat) (s : State) : MsgRes :=
  let p := fld r 5 5 0
  let req := fldB r 0 4
  let k := acctKey p req
  if bodyRsvd r [(0, 31, 0), (4, 7, 0), (5, 5, 0), (8, 63, 0)] then refuseM s .rsvdSet
  else
    match Tab.find s.ses.homes k with
    | none => staleLease s
    | some h =>
      if h.owner != node || h.gen != fldB r 4 1 || !s.inTime h then staleLease s
      else okM ((s.setHome k { h with deadline := s.newDeadline }).emitOut (.msg (.node node) 0x0116 [req, h.gen, h.ownerPart, fldB r 8 8])) 0

/-- LEASE_RENEW: from an owner's node. -/
def execLeaseRenew (m : MsgRef) (node : Nat) (body : BitVec 128) (s : State) : Outc :=
  .next (runMsg s m 3 (fld body.toNat 5 5 0) (leaseRenewBody node body.toNat))

/-- Tokens of a notice logged in INDEX order; one whose generation has ended, or whose INDEX is not the next, is dropped. -/
def State.logNotice (s : State) (slot : Nat) : (index : Nat) → List Nat → State
  | _, [] => s
  | i, t :: l =>
    match s.sess? slot with
    | none => s
    | some x => State.logNotice (if x.state = .idle ∨ x.index ≠ i then s else s.logToken slot t) slot (i + 1) l

/-- TokenNotice (R359, R361): from the owner with its generation; else dropped and counted. -/
def tokenNoticeBody (node : Nat) (body : List Byte) (s : State) : MsgRes :=
  let r := ofBytes (body.take 16)
  let p := fld r 5 5 0
  let req := fldB r 0 4
  let n := fldB r 6 2
  match Tab.find s.ses.homes (acctKey p req) with
  | none => staleLease s
  | some h =>
    if fld r 5 7 6 != 0 then refuseM s .rsvdSet
    else if n == 0 || 1004 < n || body.length < 16 + 4 * n then (s, some (badParam 6 0))
    else if h.owner != node || h.gen != fldB r 4 1 then staleLease s
    else
      match s.reqSession p req with
      | none => staleLease s
      | some (slot, _) => okM (s.logNotice slot (fldB r 8 4) (tokenWords ((body.drop 16).take (4 * n)))) 0

/-- TOKEN_NOTICE: from an owner's node. -/
def execTokenNotice (m : MsgRef) (node : Nat) (body : List (BitVec 8)) (s : State) : Outc :=
  .next (runMsg s m 4 (fld (ofBytes (body.take 16)) 5 5 0) (tokenNoticeBody node body))

/-- A session is served here again from its log (R362): its prefill is replayed from position 0. -/
def State.replayFromLog (s : State) (slot : Nat) (x : Sess) : State :=
  if x.state = .idle then s
  else
    let o := s.order
    let fit := match s.plan? x.plan with | some y => decide (x.need ≤ y.freeCount + x.pages.length) | none => false
    let s1 := (o.2.freeSessPages slot).updSess slot (fun z => { z with state := .prefill, filled := 0, taken := [], admitted := o.1, preempted := if fit then none else some o.1 })
    (if fit then s1.grantPages slot x.need else s1).reckFlag x.part x.req flagReplayed

/-- DRAM lines that bytes of a memory object lie in. -/
def State.objLines (s : State) (p h off n : Nat) : List Nat :=
  match s.obj? p h with
  | none => []
  | some o =>
    let a := (o.va + off) / 64
    (List.range ((o.va + off + n + 63) / 64 - a)).filterMap (fun i =>
      match s.xlate p o.context (64 * (a + i)) false with
      | .dram d => some (d / 64)
      | _ => none)

/-- Lines of a session's page table and log (R282). -/
def State.sessLines (s : State) (x : Sess) (y : Plan) : List Nat :=
  s.objLines x.part y.tableHandle (x.k * 4 * y.tableEntries) (4 * y.tableEntries) ++
  s.objLines x.part y.logHandle (x.k * 4 * y.contextMax) (4 * x.tokens.length)

/-- A session whose log or page table holds a poisoned line (R451): with a companion, Innkeeper reads its log back, writes log and table
anew, and re-admits it from position 0; without one its generation ends with REASON FAULT. -/
def State.healSession (s : State) (slot : Nat) : State :=
  match s.sess? slot with
  | none => s
  | some x =>
    match s.plan? x.plan with
    | none => s
    | some y =>
      let l := (s.sessLines x y).filter (fun k => s.poisoned (64 * k))
      if l.isEmpty then s
      else if (s.companion x.part).isNone then (if x.state = .idle then s else s.endGeneration slot 6)
      else
        let s1 := { s with dram := { s.dram with ctrls := Tab.all s.dram.ctrls (fun _ c => { c with poison := c.poison.filter (fun k => !l.contains k) }) } }
        let s2 := (List.range y.tableEntries).foldl (fun (s : State) i => s.writeTable x y i (x.pages.getD i 0xFFFFFFFF)) (s1.writeLog x y 0 x.tokens)
        s2.replayFromLog slot x

/-- R239, R451: sessions affected by poisoned lines resume. -/
def State.healSessions (s : State) : State :=
  if s.dram.ctrls.all (fun c => c.2.poison.isEmpty) then s
  else (Tab.keys s.ses.sessions).foldl (fun (s : State) slot => s.healSession slot) s

/-- HOME_DEADLINE_RECLAIM: HOME_DEADLINE has passed: the home owns the request again, with the next OWNER_GEN, resumes the session
from its log, and sends OwnershipNotice (R362). -/
def execHomeDeadlineReclaim (p req : Nat) (s : State) : Outc :=
  .next (
    let k := acctKey p req
    match Tab.find s.ses.homes k with
    | none => s
    | some h =>
      if s.inTime h then s
      else
        let g := (h.gen + 1) % 256
        let s1 := (s.setHome k { owner := s.sys.nodeId, gen := g, deadline := 0, ownerPart := p }).delLease k
        let s2 := match s1.reqSession p req with | some (slot, x) => s1.replayFromLog slot x | none => s1
        s2.emitOut (.msg .fabricManager 0x0119 [req, g, p, s.sys.nodeId, h.owner, 0xFFFF]))

end Sys2Proof.Machine
end

