-- ==== Sys2Proof/Machine/Revocation.lean ====
section
/-! DEFINITION. Sys2Proof/Machine/Revocation.lean: context revocation (11_host_objects R329, R330), the destruction of a partition
(12_composition R342) and the steps of a block move that touch cells (R350). -/

namespace Sys2Proof.Machine

/-! ## CONTEXT_REVOKE, CONTEXT_REVOKED, CONTEXT_DRAINED (R310, R329) -/

/-- Step 3: every fence the context owns is signalled ADD 0 with ABANDONED, and has no owner any more (R324, R329). -/
def State.abandonFences (s : State) (p c : Nat) : State :=
  let own := s.fen.fences.filter (fun e => e.2.part == p && e.2.owner == some c)
  let s1 := own.foldl (fun (s : State) e =>
    s.sendFence { fence := e.1, part := p, context := c, op := .add 0 true, rank := rankFront, source := srcCode 7 0, reply := .none }) s
  { s1 with fen := { s1.fen with fences := Tab.all s1.fen.fences (fun _ f => if f.part = p ∧ f.owner = some c then { f with owner := none } else f) } }

/-- Step 5, stewards: those appointed from the context are dismissed, with STEWARD_HALTED (R156, R557). -/
def State.dismissStewards (s : State) (p c : Nat) : State :=
  (s.svc.stewards.filter (fun e => e.2.part == p && e.2.context == c && e.2.dismissing.isNone && !e.2.revoked)).foldl (fun (s : State) e =>
    (s.setSteward e.1 { e.2 with running := false, revoked := true }).event 0x0005 p c true (srcCode 0 e.1) 0xFFFF 2) s

/-- Step 6: the context's memory objects and rings are released; `keepReck` keeps the reckoning ring for entries still held (R490). -/
def State.releaseObjects (s : State) (p c : Nat) (keepReck : Bool) : State :=
  let kept := fun (r : Ring) => keepReck && r.ty == 6
  let hs := (s.host.rings.filter (fun e => e.2.part == p && kept e.2)).map (fun e => e.2.handle)
  { s with host := { s.host with rings := s.host.rings.filter (fun e => !(e.2.part == p && e.2.context == c) || kept e.2), objects := s.host.objects.filter (fun e => !(e.2.part == p && e.2.context == c) || hs.contains (e.2.gen * 65536 + e.2.index)) } }

/-- R329 for one live context: marked revoked at once, then steps 3 to 6. Its invalidation joins the partition's syncs (R266). -/
def State.revokeContext (s : State) (p c : Nat) (ring : Option Nat) (keepReck : Bool) : State :=
  match s.ctx? p c with
  | none => s
  | some k =>
    let s1 := { s with host := { s.host with contexts := Tab.put s.host.contexts (ctxKey p c) { k with live := false, revoker := ring } } }
    let s2 := (s1.abandonFences p c).abandonSessions p c
    let s3 := s2.reckCloseAll p (fun a => a.context == c) flagAbandoned
    let s4 := (s3.dismissStewards p c).releaseObjects p c keepReck
    let y : Sync := { id := s4.xlt.nextSync, part := p, context := c, all := true, gen := 0, base := 0, pages := 0, ring := none, sent := false, waiting := [] }
    let btus := Tab.all s4.xlt.btus (fun _ b => { b with streams := b.streams.filter (fun e => !(e.2.part == p && e.2.context == c)) })
    { s4 with xlt := { s4.xlt with syncs := s4.xlt.syncs ++ [y], nextSync := s4.xlt.nextSync + 1, btus := btus } }

/-- R329: not the submitting entry's own context, and live. -/
def contextRevokeBody (r : Nat) (e : CmdEnv) (s : State) : CmdRes :=
  let c := fld r 0 11 0
  if rsvdSet r (maskOf [(0, 11, 0)]) then refuse s .rsvdSet
  else if c == e.context || !s.ctxLive e.part c then refuse s .badId
  else (s.revokeContext e.part c (some e.ring) false, none)

/-- CONTEXT_REVOKE. -/
def execContextRevoke (ring : Nat) (record : BitVec 64) (s : State) : Outc :=
  .next (runCmd s ring 0x0002 record.toNat 3 (contextRevokeBody record.toNat))

/-- The partition's invalidation in hand is this context's revocation, and every BTU has acknowledged it. -/
def State.revokeSynced (s : State) (p c : Nat) : Bool :=
  match s.xlt.syncs.find? (fun y => y.part == p) with
  | some y => y.context == c && y.ring.isNone && y.sent && y.waiting.isEmpty
  | none => false

/-- CONTEXT_REVOKED: steps 3 to 6 are complete, the drain of every BTU and the context's sessions included: ContextRevoked is sent, and
the tag is draining (R329). -/
def execContextRevoked (p c : Nat) (s : State) : Outc :=
  .next (
    match s.ctx? p c with
    | none => s
    | some k =>
      let fences := s.fen.port.any (fun f => f.part == p && f.context == c && f.rank == rankFront)
      if k.live || !s.revokeSynced p c || fences || s.svc.stewards.any (fun e => e.2.part == p && e.2.context == c) ||
          s.ses.sessions.any (fun e => e.2.part == p && e.2.context == c) then s
      else
        match takeFirst (fun y => y.part == p) s.xlt.syncs with
        | none => s
        | some (_, l) =>
          let s1 := { s with xlt := { s.xlt with syncs := l }, host := { s.host with contexts := Tab.put s.host.contexts (ctxKey p c) { k with revoker := none } } }
          match k.revoker with
          | some q => s1.answerCmd q (.ok 0)
          | none => s1)

/-- Waybills of a context held in the partition's tile queues, or on their way to a place taken there (R310). -/
def State.ctxCount (s : State) (p c : Nat) : Nat :=
  let cnt (l : List Waybill) : Nat := (l.filter (fun w => w.context == c)).length
  sumN (s.stn.queues.map (fun x => if x.2.part == p then cnt x.2.hot + cnt x.2.spill + cnt x.2.oldHot else 0)) +
  sumN (s.stn.flight.map (fun f => if s.tileQ p f.queue then cnt [f.wb] else 0))

/-- CONTEXT_DRAINED: the waybill count of a revoked context reaches 0, and its tag is free (R310, R329). -/
def execContextDrained (p c : Nat) (s : State) : Outc :=
  .next (
    match s.ctx? p c with
    | none => s
    | some k =>
      if k.live || k.revoker.isSome || s.xlt.syncs.any (fun y => y.part == p && y.context == c) || s.ctxCount p c ≠ 0 then s
      else { s with host := { s.host with contexts := Tab.del s.host.contexts (ctxKey p c) } })

/-! ## PARTITION_DESTROY, PARTITION_DESTROYED (R342, R490) -/

/-- A block bound, a port share, or a queue pair (R342). -/
def State.partBusy (s : State) (p : Nat) (x : Partition) : Bool :=
  !x.blockMap.isEmpty || x.portShare.any (fun e => e.2 != 0) || s.part.qpairs.any (fun q => q.2.part == p)

/-- R342 steps 1 to 4: contexts revoked and reckonings closed, shares zero, keys erased, the carve-out's wipe begun (R250). -/
def partitionDestroyBody (m : MsgRef) (r : Nat) (s : State) : MsgRes :=
  let p := fldB r 0 1
  if bodyRsvd r [(0, 7, 0)] then refuseM s .rsvdSet
  else if !s.livePart p then refuseM s .badId
  else
    match s.part? p with
    | none => refuseM s .badId
    | some x =>
      if s.partBusy p x then refuseM s .partitionBusy
      else
        let cs := (s.host.contexts.filter (fun e => e.1 / 4096 == p && e.2.live)).map (fun e => e.1 % 4096)
        let s1 := cs.foldl (fun (s : State) c => s.revokeContext p c none true) s
        let s2 := (s1.reckCloseAll p (fun _ => true) flagAbandoned).updPart p (fun y => { y with chShare := [], destroying := some m })
        (s2.endCarveOut p, none)

/-- PARTITION_DESTROY. -/
def execPartitionDestroy (m : MsgRef) (body : BitVec 64) (s : State) : Outc :=
  .next (runMsg s m 3 (fldB body.toNat 0 1) (partitionDestroyBody m body.toNat))

/-- Everything of a partition leaves the machine, and its ID may be created again (R342). -/
def State.forgetPart (s : State) (p : Nat) : State :=
  let own := fun (k n : Nat) => k / n == p
  { s with
    part := { s.part with parts := Tab.del s.part.parts p, blockEpoch := s.part.blockEpoch.filter (fun e => !own e.1 64) },
    host := { s.host with contexts := s.host.contexts.filter (fun e => !own e.1 4096), objects := s.host.objects.filter (fun e => !own e.1 65536), rings := s.host.rings.filter (fun e => e.2.part != p), events := s.host.events.filter (fun e => e.part != p) },
    fen := { s.fen with fences := s.fen.fences.filter (fun e => e.2.part != p), waiters := s.fen.waiters.filter (fun w => w.part != p), port := s.fen.port.filter (fun f => f.part != p) },
    stn := { s.stn with stations := s.stn.stations.filter (fun e => !own e.1 65536), queues := s.stn.queues.filter (fun e => e.2.part != p) },
    svc := { s.svc with plans := s.svc.plans.filter (fun e => !own e.1 16), cancel := Tab.del s.svc.cancel p, milestone := Tab.del s.svc.milestone p, stewards := s.svc.stewards.filter (fun e => e.2.part != p) },
    fab := { s.fab with caravans := s.fab.caravans.filter (fun e => !own e.1 256) },
    xlt := { s.xlt with out := s.xlt.out.filter (fun e => !own e.1 256), windows := s.xlt.windows.filter (fun e => e.2.cfg.part != p), syncs := s.xlt.syncs.filter (fun y => y.part != p) },
    ses := { s.ses with sessions := s.ses.sessions.filter (fun e => e.2.part != p), homes := s.ses.homes.filter (fun e => !own e.1 (2 ^ 32)), leases := s.ses.leases.filter (fun e => !own e.1 (2 ^ 32)), holdings := Tab.del s.ses.holdings p } }

/-- PARTITION_DESTROYED: the wipe has ended and entries held for its reckoning ring have been delivered: the allotments are free and
PartitionDestroyed is sent (R342, R490), except to nobody when a migration destroyed it (R449). -/
def execPartitionDestroyed (p : Nat) (s : State) : Outc :=
  .next (
    match s.part? p with
    | none => s
    | some x =>
      match x.destroying with
      | none => s
      | some m =>
        let ring := s.host.rings.any (fun e => e.2.part == p && e.2.ty == 6)
        if s.dram.wipes.any (fun w => w.kind == 2 && w.part == p) || (ring && !(Tab.getD s.reck.held p []).isEmpty) then s
        else
          let s1 := s.forgetPart p
          let s2 := { s1 with reck := { s1.reck with held := Tab.del s1.reck.held p } }
          if m.msg = 0 then s2 else s2.answerMsg m (.ok 0))

/-! ## STATION_MOVED (R349) -/

/-- STATION_MOVED: every old ring is empty: its space is freed, the anchor fields switch, and StationMoved is sent (R349); the
streams of its fixed units go on in the new block's BTU (R275). -/
def execStationMoved (p id : Nat) (s : State) : Outc :=
  .next (
    match takeFirst (fun v => v.part == p && v.station == id) s.part.stationMoves, s.station? p id with
    | some (v, l), some t =>
      if t.inQ.any (fun q => match s.queue? q with | some x => !x.oldHot.isEmpty | none => false) then s
      else
        let old := (s.anchorPhys p t).getD 0
        let olds := t.inQ.filterMap (fun q => (s.queue? q).bind (fun x => x.oldPlace.map (fun o => o.2 - ringAreaBase / 64)))
        let d := s.disp old
        let s1 := s.setDisp old { d with slots := d.slots.filter (fun e => e.2 != stnKey p id), ringUse := d.ringUse.filter (fun u => !olds.contains u.1) }
        let s2 := t.inQ.foldl (fun (s : State) q =>
          match s.queue? q with
          | some x => s.setQueue q { x with oldPlace := none }
          | none => s) s1
        let s3 := s2.setStation p id { t with anchor := some (v.newAnchor, v.newSlot) }
        let s4 := s3.moveStreams old ((s3.phys p v.newAnchor).getD old) (fun e => if engClass e = 5 ∧ t.engines.contains e = true then some e else none)
        ({ s4 with part := { s4.part with stationMoves := l } }).answerMsg v.ref (.ok 0)
    | _, _ => s)

/-! ## BLOCK_MOVE_DRAINED, BLOCK_MOVE_COPIED (R350) -/

/-- The drain of a moving block is done: no start and no outstanding operation of its stewards, no access in flight into or out of it,
no crier send or caravan write naming it, no refill group of its rings (R350 step 3). -/
def State.moveDrained (s : State) (v : BlockMv) : Bool :=
  !s.stn.engines.any (fun e => engBlock e.1 == some v.src && e.2.start.isSome) &&
  s.svc.stewards.all (fun e => e.1 / 20 != v.src || s.stewardQuiet e.1) &&
  !s.fab.claims.any (fun c => c.block == v.src) &&
  !s.sendNames v.src && !s.flitOf v.src &&
  !s.stn.queues.any (fun q => q.2.part == v.part && q.2.refill != 0 && (match q.2.placed with | some a => a.1 == v.name | none => false))

def State.setMove (s : State) (v : BlockMv) : State :=
  { s with part := { s.part with moves := s.part.moves.map (fun w => if w.src == v.src then v else w) } }

/-- BLOCK_MOVE_DRAINED: the drain ends and the copy begins (R350 steps 3 and 4). -/
def execBlockMoveDrained (src : Nat) (s : State) : Outc :=
  .next (
    match s.part.moves.find? (fun v => v.src == src && v.step == 3) with
    | none => s
    | some v => if s.moveDrained v then s.setMove { v with step := 4 } else s)

/-- The number of an engine once the block it lies in has moved. -/
def movedEngine (src dst e : Nat) : Nat :=
  if engBlock e = some src then
    (if engClass e = 1 then e + dst * 20 - src * 20 else e + dst * 4 - src * 4)
  else e

/-- The number of a cell once its block has moved. -/
def movedCell (src dst c : Nat) : Nat := if c / 20 = src then c + dst * 20 - src * 20 else c

/-- The number of a physical block once one has moved. -/
def movedBlock (src dst b : Nat) : Nat := if b = src then dst else b

/-- A table with its keys renumbered. -/
def Tab.renum {α : Type} (t : Tab α) (f : Nat → Nat) : Tab α := t.foldl (fun acc e => Tab.put acc (f e.1) e.2) []

/-- What a table holds for cells of DEST_BLOCK gives way, and the moved cells' entries take their new numbers. -/
def Tab.moveCells {α : Type} (t : Tab α) (src dst : Nat) : Tab α := Tab.renum (t.filter (fun e => e.1 / 20 != dst)) (movedCell src dst)

/-- A WAITQ's deadline in the block cycles of DEST_BLOCK: as many cycles on as it was in the source (R154, R350). -/
def SCell.rebase (x : SCell) (was now : Nat) : SCell :=
  { x with wait := x.wait.map (fun q => { q with deadline := q.deadline.map (fun d => now + (d - was)) }) }

/-- The key of a master once a block has moved: each carrier of DEST_BLOCK takes the counts of its counterpart (R423). -/
def movedMaster (src dst k : Nat) : Nat :=
  if k / 16 % 256 < 240 ∧ k / 64 % 64 = src then k + dst * 64 - src * 64 else k

/-- The key of a profile once a block has moved (R469). -/
def movedProfile (src dst k : Nat) : Nat := if k / 2 ^ 22 = src then k + dst * 2 ^ 22 - src * 2 ^ 22 else k

/-- What a moving block holds is now held by DEST_BLOCK: slices, engines with their stations and serving ranges, cells, stewards,
dispatcher slots and ring places, accesses held for the switch (R350 step 5), operating point and profile (R469). -/
def State.switchBlock (s : State) (v : BlockMv) : State :=
  let fe := movedEngine v.src v.dst
  let fc := movedCell v.src v.dst
  let fb := movedBlock v.src v.dst
  let retired := s.cell.retired.filter (fun c => c / 20 != v.src)
  { s with
    fab := { s.fab with slices := Memory.copyRange s.fab.slices (sliceKey v.src 0) (2 ^ 25) s.fab.slices (sliceKey v.dst 0), claims := s.fab.claims.map (fun c => { c with block := fb c.block }), blocks := Tab.put (Tab.put s.fab.blocks v.dst { s.block v.dst with bound := some (v.part, v.name), powered := true, mhz := (s.block v.src).mhz, plannedMhz := (s.block v.src).plannedMhz, cycles := if (s.block v.dst).powered then (s.block v.dst).cycles else 0 }) v.src { s.block v.src with bound := none, wipe := some .move } },
    cell := { s.cell with m := Tab.moveCells s.cell.m v.src v.dst, v := Tab.moveCells s.cell.v v.src v.dst, s := Tab.moveCells (Tab.all s.cell.s (fun c x => if c / 20 = v.src then x.rebase (s.block v.src).cycles (if (s.block v.dst).powered then (s.block v.dst).cycles else 0) else x)) v.src v.dst, images := Tab.moveCells s.cell.images v.src v.dst, retired := retired },
    stn := { s.stn with engines := Tab.renum s.stn.engines fe, stations := Tab.all s.stn.stations (fun _ t => { t with engines := t.engines.map fe, unbinds := t.unbinds.map (fun u => (u.1, u.2.map fe)), starts := t.starts.map fe }), queues := Tab.all s.stn.queues (fun _ q => { q with consumer := match q.consumer with | .steward c i => .steward (fc c) i | c => c }), disps := Tab.put (Tab.del s.stn.disps v.src) v.dst { s.disp v.src with staleCount := (s.disp v.dst).staleCount } },
    svc := { s.svc with stewards := Tab.renum s.svc.stewards fc, plans := Tab.all s.svc.plans (fun _ y => { y with stewardCell := fc y.stewardCell }) },
    reg := { s.reg with masters := Tab.renum s.reg.masters (movedMaster v.src v.dst) },
    pow := { s.pow with profile := Tab.renum s.pow.profile (movedProfile v.src v.dst), chosen := Tab.renum s.pow.chosen fb, volts := Tab.renum s.pow.volts fb, throttled := s.pow.throttled.map fb, overCeil := Tab.renum s.pow.overCeil fb },
    part := { s.part with blockEpoch := Tab.put (Tab.del s.part.blockEpoch (v.part * 64 + v.src)) (v.part * 64 + v.dst) (s.epochOf v.part) } }

/-- The streams of a block that has moved go on in DEST_BLOCK's BTU, which starts cold, and the source's is emptied (R266, R275). -/
def State.moveBtu (s : State) (v : BlockMv) : State :=
  let s1 := { s with xlt := { s.xlt with btus := Tab.del s.xlt.btus v.dst } }
  let s2 := s1.moveStreams v.src v.dst (fun e => some (movedEngine v.src v.dst e))
  { s2 with xlt := { s2.xlt with btus := Tab.del s2.xlt.btus v.src } }

/-- A cell as its bind image leaves it (R79, R116, R138). -/
def State.bindLoad (s : State) (c : Nat) : State :=
  let s1 := match cellKind c with
    | 1 => s.setM c {}
    | 2 => s.setV c {}
    | _ => s.setS c {}
  match Tab.find s1.cell.images c with | some im => s1.loadCell c im | none => s1

/-- The cells of DEST_BLOCK hold the bind images of their counterparts; of the source's cells only the stewards' registers, program counters
and local memories follow (R350 steps 1 and 4). -/
def State.loadMoved (s : State) (dst : Nat) : State :=
  (List.range 20).foldl (fun (s : State) i => if Tab.has s.svc.stewards (dst * 20 + i) then s else s.bindLoad (dst * 20 + i)) s

/-- BLOCK_MOVE_COPIED: the copy ends, the entry becomes DEST_BLOCK and the mark is cleared; the source's wipe begins (R350 steps 4 to
6). -/
def execBlockMoveCopied (src : Nat) (s : State) : Outc :=
  .next (
    match s.part.moves.find? (fun v => v.src == src && v.step == 4) with
    | none => s
    | some v =>
      let s1 := (s.switchBlock v).updPart v.part (fun x => { x with blockMap := Tab.put x.blockMap v.name v.dst, moving := x.moving.filter (· != v.name) })
      ((s1.moveBtu v).loadMoved v.dst).setMove { v with step := 6 })

end Sys2Proof.Machine
end

