-- ==== Sys2Proof/Machine/HangRecords.lean ====
section
/-! DEFINITION. Sys2Proof/Machine/HangRecords.lean: what a hang record holds and where it lies (16_failure_hiding R434, R435). The rule names
the contents of the sections and not their bytes: the places within a section are the model's (DESIGN CHOICE, log entry 32). -/

namespace Sys2Proof.Machine

/-! ## The capture area (R434) -/

/-- U of R434. -/
def captureBytes (x : Partition) : Nat := usableBytes x / 1048576 * 1048576

/-- C of R434. -/
def captureSlots (x : Partition) : Nat := min 16 (captureBytes x / 8388608)

/-- Captures made for a partition. -/
def State.captureCount (s : State) (p : Nat) : Nat := Tab.getD s.fail.captured p 0

/-- The index of the partition's next record, none without a capture area. -/
def State.captureIndex (s : State) (p : Nat) : Option Nat :=
  match s.part? p with
  | some x => if captureSlots x = 0 then none else some (s.captureCount p % captureSlots x)
  | none => none

/-- Write bytes at a carve-out offset, line by line (R267); `fuel` bounds the lines. -/
def State.carveWrite (s : State) (x : Partition) (off : Nat) (data : List (BitVec 8)) : Nat → State
  | 0 => s
  | fuel + 1 =>
    if data.isEmpty then s
    else
      let n := 64 - off % 64
      let s1 := match s.dpaOfOff x.coded x.runs off with
        | some d => s.dramWriteLine (d / 64) (d % 64) (data.take n)
        | none => s
      State.carveWrite s1 x (off + n) (data.drop n) fuel

/-! ## What a record shows (R435) -/

/-- The cells, stations and queues that a record is about. -/
structure HangScope where
  cells : List Nat
  stations : List Station
  queues : List Nat

/-- Those of one station. -/
def Station.scope (t : Station) : HangScope :=
  { cells := (t.engines.filter (fun e => engClass e == 1)).map engNum, stations := [t], queues := dedupN (t.inQ ++ t.outQ.filterMap id) }

/-- Those of some physical blocks: all their cells, the stations anchored there and the queues whose hot rings lie there. -/
def State.blocksScope (s : State) (bs : List Nat) : HangScope :=
  { cells := bs.flatMap (fun b => (List.range 20).map (fun i => b * 20 + i))
    stations := (s.stn.stations.filter (fun e => match s.anchorPhys (e.1 / 65536) e.2 with | some b => bs.contains b | none => false)).map (·.2)
    queues := (s.stn.queues.filter (fun e => match e.2.placed.bind (fun a => s.phys e.2.part a.1) with | some b => bs.contains b | none => false)).map (·.1) }

/-- An engine's: its station's, or of a steward its own cell and input queues. -/
def State.engineScope (s : State) (e : Nat) : HangScope :=
  match (s.engine? e).bind (fun x => s.station? x.part x.station), Tab.find s.svc.stewards (engNum e) with
  | some t, _ => t.scope
  | none, some w => { cells := [engNum e], stations := [], queues := dedupN (w.inQ.filterMap id) }
  | none, none => { cells := [], stations := [], queues := [] }

/-- The engine ID of a frozen master; none for a port's. -/
def masterEngine (k : MasterKind) (n : Nat) : Option Nat :=
  match k with
  | .cell => some (0x1000 + n) | .carrier => some (0x2000 + n) | .unit => some n | .port => none

/-- What the record before a reset is about: the station concerned, or the block; before a reset of a whole partition, its blocks. -/
def State.hangScope (s : State) (r : ResetOf) : HangScope :=
  match r with
  | .engine e => s.engineScope e
  | .station p id => (match s.station? p id with | some t => t.scope | none => s.blocksScope [])
  | .block b => s.blocksScope [b]
  | .part p => s.blocksScope (s.boundBlocks p)
  | .master k n => (match masterEngine k n with | some e => s.engineScope e | none => s.blocksScope [])
  | .retire c _ => s.engineScope (cellId c)

/-- Accumulator tiles of an M-cell that hold a word other than zero, a bit each. -/
def MCell.occupied (x : MCell) : Nat :=
  (List.range 16).foldl (fun a t => a ||| (if x.acc.any (fun e => e.1 / 4096 == t && e.2 != 0) then 1 <<< t else 0)) 0

/-- Bytes of the numbers of a register table. -/
def regBytes (t : Tab Nat) (count width : Nat) : List (BitVec 8) := (List.range count).flatMap (fun i => bytesOf width (Tab.getD t i 0))

/-- Section 0's entry of a cell, 2 KiB: program counter, STATUS, EMIT_STATUS, EMIT_COUNT, accumulator occupancy, the input waybill from byte
64, then the predicates and the registers, of which a V-cell's vector registers stand last and are cut. -/
def State.cellEntry (s : State) (c : Nat) : List (BitVec 8) :=
  let pc := match cellKind c with | 1 => (s.mcell c).pc | 2 => (s.vcell c).pc | _ => (s.scell c).pc
  let occ := if cellKind c = 1 then (s.mcell c).occupied else 0
  let wb := match (s.engine? (cellId c)).bind (·.start) with | some st => (match st.inputs with | i :: _ => i.2.toNat | [] => 0) | none => 0
  let regs := match cellKind c with
    | 1 => []
    | 2 => regBytes (s.vcell c).p 8 8 ++ regBytes (s.vcell c).a 16 4 ++ regBytes (s.vcell c).v 2048 4
    | _ => regBytes (s.scell c).s 32 8
  let head := bytesOf 64 (plcB 0 4 pc ||| plcB 4 4 (s.cellReg c 0) ||| plcB 8 4 (s.cellReg c 1) ||| plcB 12 4 (s.cellReg c 2) ||| plcB 16 4 occ)
  let l := (head ++ bytesOf 64 wb ++ regs).take 2048
  l ++ List.replicate (2048 - l.length) 0

/-- The four waybills in a queue's head buffer (R64). -/
def State.headBuffer (s : State) (q : Nat) : List Waybill :=
  match s.queue? q with
  | some x => (x.oldHot ++ x.hot).take 4
  | none => []

/-- The fences named by the head buffers' waybills and by the stations' parameter records, each once. -/
def State.hangFences (s : State) (h : HangScope) : List Nat :=
  dedupN ((h.queues.flatMap s.headBuffer).filterMap (fun w => if w.fenceOp = 0 then none else some w.fenceId) ++
    h.stations.flatMap (fun t => t.engines.filterMap (fun e => (s.engine? e).bind (fun x => x.paramFence t.kind))))

/-- Section 4: for each anchor's dispatcher its slot pointer, for each station its round-robin pointer, and the forwards held. -/
def State.hangDispatch (s : State) (p : Nat) (h : HangScope) : List (BitVec 8) :=
  let anchors := dedupN (h.stations.filterMap (s.anchorPhys p))
  let held := s.stn.held.filterMap (fun y => match y with
    | .forward p' id _ w q => if p' == p && (s.station? p id).any h.stations.contains then some (bytesOf 8 (id ||| q <<< 32) ++ bytesOf 64 w.toNat) else none
    | _ => none)
  anchors.flatMap (fun b => bytesOf 8 (s.disp b).lastSlot) ++ h.stations.flatMap (fun t => bytesOf 8 t.lastIn) ++ held.flatMap id

/-- The five sections, in order (R435). -/
def State.hangSections (s : State) (p : Nat) (r : ResetOf) : List (List (BitVec 8)) :=
  let h := s.hangScope r
  let four (q : Nat) : List (BitVec 8) :=
    let l := (s.headBuffer q).flatMap (fun w => bytesOf 64 w.toNat)
    l ++ List.replicate (256 - l.length) 0
  [h.cells.flatMap s.cellEntry, h.queues.flatMap (fun q => bytesOf 64 ((s.descImage q).getD 0)), h.queues.flatMap four,
    (s.hangFences h).flatMap (fun f => bytesOf 8 (s.fenceWord f).toNat), s.hangDispatch p h]

/-- The sections one after another in the room of a record, and TRUNC: bit i says that section i was cut (R435). -/
def packSections : (i room : Nat) → List (List (BitVec 8)) → List (BitVec 8) × Nat
  | _, _, [] => ([], 0)
  | i, room, x :: l =>
    let rest := packSections (i + 1) (room - x.length) l
    (x.take room ++ rest.1, (if room < x.length then 1 <<< i else 0) ||| rest.2)

/-- The header of a hang record (R435). -/
def State.hangHeader (s : State) (c : Capture) (x : Partition) (part : Bool) (trunc : Nat) : Nat :=
  plcB 0 2 1 ||| plcB 2 1 c.cause ||| plcF 3 0 part ||| plcB 4 4 (s.captureCount c.part) ||| plcB 8 8 c.begun |||
  plcB 16 8 s.sys.bootNonce.toNat ||| plcB 24 1 x.resetGen ||| plcB 26 2 x.epoch ||| plcB 28 4 c.source |||
  plcB 32 2 c.station ||| plcB 34 2 trunc

/-- A hang record of a capture: header and sections, of whose bytes a PARTIAL one has `written` (R434, R435). -/
def State.hangRecord (s : State) (c : Capture) (x : Partition) (written : Option Nat) : List (BitVec 8) :=
  let z := packSections 0 (1048576 - 64) (s.hangSections c.part c.next)
  bytesOf 64 (s.hangHeader c x written.isSome z.2) ++ (match written with | some n => z.1.take n | none => z.1)

end Sys2Proof.Machine
end

