-- ==== Sys2Proof/Machine/Failures.lean ====
section
/-! DEFINITION. Sys2Proof/Machine/Failures.lean: watchdogs, hang records, resets and cell sparing (16_failure_hiding R424-R438, R450,
R451; 02_stations_and_waybills R75, R77; 06_slice_memory R169, R170). -/

namespace Sys2Proof.Machine

/-! ## Resetting cells and units (R425, R430, R436) -/

/-- The accesses of an issuer are gone: their replies are dropped by the advanced generation (R426). -/
def State.dropRequester (s : State) (w : Requester) : State :=
  let ids := (s.accessesOf w).map (·.1)
  { s with fab := { s.fab with accesses := s.fab.accesses.filter (fun a => !ids.contains a.1), claims := s.fab.claims.filter (fun c => !ids.contains c.access) } }

/-- A generation advances now (R426): domain 0 cell, 1 block, 2 partition. -/
def State.noteAdvance (s : State) (domain n : Nat) : State :=
  { s with fail := { s.fail with advanced := Tab.put s.fail.advanced (domain * 2 ^ 20 + n) s.now } }

/-- A generation may advance again: 50 µs after its last advance (R426). -/
def State.mayAdvance (s : State) (domain n : Nat) : Bool :=
  match Tab.find s.fail.advanced (domain * 2 ^ 20 + n) with
  | some t => decide (t + 50 ≤ s.now)
  | none => true

/-- A cell reloads its bind image (R430, R436). A steward's cell begins again at instruction 0 (R156). -/
def State.reloadCell (s : State) (c : Nat) : State :=
  let s2 := s.bindLoad c
  match Tab.find s2.svc.stewards c with
  | some t => s2.startSteward c t.role
  | none => s2

/-- No reply of a signal on its way will reach a register of one of these cells (R426). -/
def State.dropReplies (s : State) (f : Nat → Bool) : State :=
  { s with
    fen := { s.fen with port := s.fen.port.map (fun x => match x.reply with | .cell c _ => if f c then { x with reply := .none } else x | _ => x) }
    spine := { s.spine with flits := s.spine.flits.map (fun x => match x.load with | .fsig c _ _ => if f c then { x with load := .reply s.fab.nextAccess [] false } else x | _ => x) } }

/-- A cell is reset: its accesses are dropped, its generation advances, and it reloads (R430, R436). -/
def State.resetCell (s : State) (c : Nat) : State :=
  let s1 := (s.dropRequester (.cell c)).dropReplies (fun d => d == c)
  (({ s1 with cell := { s1.cell with gens := Tab.put s1.cell.gens c ((Tab.getD s1.cell.gens c 0 + 1) % 256) } }).noteAdvance 0 c).reloadCell c

/-- A carrier or fixed unit is reset: what it has under way is gone. -/
def State.resetUnit (s : State) (e : Nat) : State :=
  let s0 := (s.dropStreams (fun y => engClass e == 2 && y.carrier == engNum e)).dropTxns e
  let s1 := s0.dropRequester (if engClass e = 2 then .carrier (engNum e) else .unit e)
  { s1 with
    unit := { s1.unit with disp := Tab.del s1.unit.disp e },
    link := { s1.link with colls := if engClass e = 5 then Tab.del s1.link.colls (engNum e) else s1.link.colls },
    fab := { s1.fab with sends := s1.fab.sends.filter (fun x => !(engClass e == 2 && x.why == 0 && x.sender == engNum e)) },
    xlt := { s1.xlt with btus := Tab.all s1.xlt.btus (fun _ b => { b with streams := b.streams.filter (fun y => y.2.engine != e), walks := b.walks.filter (fun y => y.2.engine != e) }) } }

def State.resetEngine (s : State) (e : Nat) : State := if engClass e = 1 then s.resetCell (engNum e) else s.resetUnit e

/-- A start commits nothing, and its input waybills become the station's next candidates, ahead of their queues' heads (R77, R448). -/
def State.returnStart (s : State) (e : Nat) : State :=
  match s.engine? e with
  | none => s
  | some x =>
    match x.start, s.station? x.part x.station with
    | some st, some t =>
      let back : List Returned := st.inputs.map (fun i => { input := i.1, wb := i.2 })
      let s1 := (s.setEngine e { x with start := none }).setStation x.part x.station { t with returned := t.returned ++ back, starts := t.starts.filter (· != e) }
      ({ s1 with stn := { s1.stn with held := s1.stn.held.filter (· != Holder.engine e) } }).leaveIfAsked x.part x.station e
    | _, _ => s

/-- A start commits nothing, and its first input is forwarded with ABANDONED (R135, R430, R431). -/
def State.abandonNow (s : State) (e : Nat) : State :=
  match s.engine? e with
  | none => s
  | some x =>
    match x.start, s.station? x.part x.station with
    | some st, some t => s.abandonStart e x st t
    | _, _ => s

/-- A cell is retired (R436): the spare of its kind takes its numbers with the bind image, its generation advances and its waybill is
re-run (R77). A spare already in use exhausts the spares and passes to device level; an S-cell has none (R159). CELL_RETIRED goes to
the operator. Causes: 1 uncorrectable error, 2 second engine hang, 3 ageing. -/
def State.retireCell (s : State) (c cause : Nat) : State :=
  let b := c / 20
  if cellKind c = 3 then s.devFault 4 c
  else
    let x := s.block b
    let used := if cellKind c = 1 then x.spareM else x.spareV
    let s1 := (s.resetCell c).returnStart (cellId c)
    let s2 := if used then ({ s1 with cell := { s1.cell with retired := s1.cell.retired ++ [c] } }).devFault 4 c
      else s1.setBlock b (if cellKind c = 1 then { s1.block b with spareM := true } else { s1.block b with spareV := true })
    (s2.opEvent 0x0017 ((x.bound.map (·.1)).getD 0) c (plcB 0 1 cause)).logFault 0x0017 ((x.bound.map (·.1)).getD 0) c cause

/-! ## Captures (R434) -/

/-- A capture waits for this reset already. -/
def State.capturing (s : State) (r : ResetOf) : Bool := s.fail.captures.any (fun c => c.next == r)

/-- A reset waits, for its capture or (`done`) only for its generations. -/
def State.queueReset (s : State) (p cause source station : Nat) (next : ResetOf) (done : Bool) : State :=
  let c : Capture := { part := p, cause := cause, source := source, station := station, begun := s.now, next := next, done := done }
  { s with fail := { s.fail with captures := s.fail.captures ++ [c] } }

/-- Innkeeper is to capture a record before a reset (R434). A fault that would cause a reset already waiting causes no second one; each
PartitionReset message is a reset of its own. -/
def State.addCapture (s : State) (p cause source station : Nat) (next : ResetOf) : State :=
  if s.capturing next && cause != 6 then s else s.queueReset p cause source station next false

/-! ## Partition and block resets (R427, R428) -/

/-- What a partition reset does to one of its engines: a running start commits nothing and its engine is reset (R427 step 3). -/
def State.resetBound (s : State) (e : Nat) : State :=
  match s.engine? e with
  | none => s
  | some x =>
    let s1 := if x.start.isSome then (s.setEngine e { x with start := none }).resetEngine e else s
    let s2 := if engClass e = 4 then s1.setComb e { s1.comb e with taken := [], batches := [], held := [] } else s1
    ({ s2 with stn := { s2.stn with held := s2.stn.held.filter (· != Holder.engine e) } }).leaveIfAsked x.part x.station e

/-- R427 step 4: replies of the partition's accesses and arrivals for its collectives are dropped, forwards held for it are consumed,
and its BTU entries are gone. -/
def State.dropOld (s : State) (p : Nat) : State :=
  let ids := (s.fab.accesses.filter (fun a => a.2.part == p)).map (·.1)
  let s1 := { s with fab := { s.fab with accesses := s.fab.accesses.filter (fun a => a.2.part != p), claims := s.fab.claims.filter (fun c => !ids.contains c.access) } }
  let s2 := { s1.dropStreams (fun y => y.part == p) with link := { s1.link with arrivals := Tab.all s1.link.arrivals (fun _ l => l.filter (fun g => g.part != p)) } }
  let mine := fun (h : Holder) => match h with | .forward p' _ _ _ _ => p' == p | _ => false
  ({ s2 with stn := { s2.stn with held := s2.stn.held.filter (fun h => !mine h), stations := Tab.all s2.stn.stations (fun k t => if k / 65536 = p then { t with starts := [], returned := [], lastCommit := s.now } else t) } }).dropXlate p

/-- R427 step 5: stewards reload and restart, the cancel set empties, frozen masters of the partition are released. -/
def State.restartServices (s : State) (p : Nat) : State :=
  let s1 := (s.svc.stewards.filter (fun e => e.2.part == p && !e.2.revoked)).foldl (fun (s : State) e =>
    (s.resetCell e.1).setSteward e.1 { e.2 with running := e.2.dismissing.isNone }) s
  { s1 with svc := { s1.svc with cancel := Tab.del s1.svc.cancel p }, sys := { s1.sys with frozen := s1.sys.frozen.filter (fun f => f.part != p) } }

/-- A partition reset after its capture (R427). CAUSE is that of PartitionResetDone: 1 block reset, 2 PartitionReset. -/
def State.partReset (s : State) (p cause : Nat) : State :=
  match s.part? p with
  | none => s
  | some x =>
    let s1 := (s.setPart p { x with resetGen := (x.resetGen + 1) % 256 }).noteAdvance 2 p
    let es := (s1.stn.engines.filter (fun e => e.2.part == p)).map (·.1)
    let s2 := es.foldl (fun (s : State) e => s.resetBound e) s1
    let s3 := (((s2.dropOld p).restartServices p).resetSessions p).event 0x0015 p 0 false 0 0xFFFF 0
    { s3 with fail := { s3.fail with resets := s3.fail.resets ++ [{ part := p, cause := cause }] } }

/-- R428 step 4: the waybills of a hot ring in the block are discarded, and HEAD advances past them. -/
def TileQ.discardHot (q : TileQ) (now : Nat) : TileQ :=
  { q with head := q.head + q.oldHot.length + q.hot.length, hot := [], oldHot := [], refill := 0, headSince := now, stalled := false }

/-- A block reset's steps 2 to 6 (R428): the block stops, its generation advances, its hot rings are discarded, and its wipe begins.
The partition reset follows when the wipe ends. A migration of a frozen partition is given up first, and its work resumes (R450). -/
def State.blockReset (s : State) (b : Nat) : State :=
  let x := s.block b
  let s0 := match x.bound with
    | some (p, _) =>
      if s.fail.out.any (fun o => o.part == p && o.migrate && o.frozen) then
        ({ s with fail := { s.fail with out := s.fail.out.filter (fun o => o.part != p) } }).updPart p (fun y => { y with frozen := false })
      else s
    | none => s
  let s1 := (s0.setBlock b { s0.block b with resetting := true, gen := (x.gen + 1) % 256, wipe := if x.wipe.isSome then x.wipe else some .reset }).noteAdvance 1 b
  let inB := fun (q : TileQ) => match q.placed with | some a => s.phys q.part a.1 == some b | none => false
  let s1 := s1.stopSends b
  let n := sumN (s1.stn.queues.map (fun e => if inB e.2 then e.2.hot.length else 0))
  let s2 := { s1 with stn := { s1.stn with queues := Tab.all s1.stn.queues (fun _ q => if inB q then q.discardHot s.now else q) } }
  s2.setDisp b { s2.disp b with staleCount := (s2.disp b).staleCount + n }

/-! ## The reset that a capture held back (R426, R434) -/

/-- The cells among engines that hold a start. -/
def State.startedCells (s : State) (es : List Nat) : List Nat :=
  (es.filter (fun e => engClass e == 1 && (match s.engine? e with | some x => x.start.isSome | none => false))).map engNum

/-- The domains whose generations a reset advances (R425): 0 a cell, 1 a block, 2 a partition, each with its number. -/
def State.resetDomains (s : State) : ResetOf → List (Nat × Nat)
  | .engine e => if engClass e = 1 then [(0, engNum e)] else []
  | .station p id => match s.station? p id with | some t => (s.startedCells t.engines).map (fun c => (0, c)) | none => []
  | .block b => [(1, b)]
  | .part p =>
    (2, p) :: ((s.startedCells ((s.stn.engines.filter (fun e => e.2.part == p)).map (·.1))) ++
      (s.svc.stewards.filter (fun e => e.2.part == p && !e.2.revoked)).map (·.1)).map (fun c => (0, c))
  | .master .cell n => [(0, n)]
  | .master _ _ => []
  | .retire c _ => [(0, c)]

/-- A block of the partition is in a quiet window, which completes before the partition's reset (R535). -/
def State.inWindow (s : State) (r : ResetOf) : Bool :=
  match r with
  | .part p => (s.boundBlocks p).any (fun b => (Tab.find s.age.islands b).any (fun x => x.quiet.isSome))
  | _ => false

/-- Each of them may advance now (R426, R535). -/
def State.mayReset (s : State) (r : ResetOf) : Bool := (s.resetDomains r).all (fun d => s.mayAdvance d.1 d.2) && !s.inWindow r

/-- A cell is retired, at once or when its generation may advance (R426, R436). -/
def State.retireSoon (s : State) (c cause : Nat) : State :=
  if s.mayReset (.retire c cause) then s.retireCell c cause
  else if s.hung (cellId c) then s
  else s.queueReset 0 cause c 0xFFFF (.retire c cause) true

/-- CELL_UNCORRECTABLE: an error in a cell's register, local memory or stores. One of a single bit is corrected in line and counted; an
uncorrectable one retires the cell, and an S-cell's goes to device level (R19, R113, R136, R159, R436). -/
def execCellUncorrectable (c : Nat) (single : Bool) (s : State) : Outc :=
  .next (
    if 1200 ≤ c ∨ s.cell.retired.contains c then s
    else if single then { s with cell := { s.cell with corrected := s.cell.corrected + 1 } }
    else s.retireSoon c 1)

/-- SLICE_WIPE_DONE: a slice wipe has written zero to every line, and claims through the spine port that came during it are discarded
(R170). A reset wipe ends the block reset: the block's cells reload,
and the partition reset follows, when its generations may advance (R428 steps 6 and 7). -/
def execSliceWipeDone (block : Nat) (s : State) : Outc :=
  .next (
    let x := s.block block
    match x.wipe with
    | none => s
    | some k =>
      let s1 := { s with fab := { s.fab with slices := Memory.wipe s.fab.slices (sliceKey block 0) (2 ^ 25), claims := s.fab.claims.filter (fun c => !(c.block == block && c.rank == 22)) } }
      let s2 := s1.setBlock block { x with wipe := none, resetting := false }
      match k, x.bound with
      | .reset, some (p, _) =>
        let s3 := (List.range 20).foldl (fun (s : State) i => if Tab.has s.cell.images (block * 20 + i) then s.reloadCell (block * 20 + i) else s) s2
        if s3.mayReset (.part p) then s3.partReset p 1 else s3.queueReset p 5 block 0xFFFF (.part p) true
      | _, _ => s2)

/-- A steward's cell. -/
def State.isSteward (s : State) (e : Nat) : Bool := engClass e == 1 && Tab.has s.svc.stewards (engNum e)

/-- The reset itself (R427, R428, R430, R431, R436, R506). `cause` is its record's: a partition reset that a message asked for has 6. -/
def State.doReset (s : State) (cause : Nat) (r : ResetOf) : State :=
  match r with
  | .engine e => if engClass e = 1 then (s.resetEngine e).returnStart e else (s.resetEngine e).abandonNow e
  | .station p id =>
    match s.station? p id with
    | none => s
    | some t => (t.engines.filter (fun e => match s.engine? e with | some x => x.start.isSome | none => false)).foldl (fun (s : State) e => (s.resetEngine e).abandonNow e) s
  | .block b => s.blockReset b
  | .part p => s.partReset p (if cause = 6 then 2 else 1)
  | .master k n =>
    let s1 := { s with sys := { s.sys with frozen := s.sys.frozen.filter (fun f => !(f.kind == k && f.num == n)) } }
    match masterEngine k n with
    | some e => (s1.resetEngine e).abandonNow e
    | none => s1
  | .retire c k => s.retireCell c k

/-- A reset takes place if its capture has ended and its generations may advance; one that would come sooner waits (R426). -/
def State.runReset (s : State) (c : Capture) : State :=
  if c.done && s.mayReset c.next then
    match takeFirst (fun y => y == c) s.fail.captures with
    | some (_, l) => ({ s with fail := { s.fail with captures := l } }).doReset c.cause c.next
    | none => s
  else s

/-- The resets that may take place do so, in the order of their causes. -/
def State.runResets (s : State) : State := s.fail.captures.foldl (fun (s : State) c => s.runReset c) s

/-- The first capture equal to `c` has ended. -/
def captureEnded (c : Capture) : List Capture → List Capture
  | [] => []
  | y :: l => if y = c then { y with done := true } :: l else y :: captureEnded c l

/-- A capture ends: the record is written when there is an area, HANG_CAPTURED goes to the partition and the operator, and the reset
proceeds (R434, R557). `written` is how much of its sections a PARTIAL record has. -/
def State.endCapture (s : State) (c : Capture) (written : Option Nat) : State :=
  let mark := fun (s : State) => { s with fail := { s.fail with captures := captureEnded c s.fail.captures } }
  match s.part? c.part with
  | none => (mark s).runResets
  | some x =>
    let k := s.captureIndex c.part
    let s1 := match k with
      | some i => s.carveWrite x (captureBytes x - (i + 1) * 1048576) (s.hangRecord c x written) 16385
      | none => s
    let d := plcB 0 2 (k.getD 0xFFFF) ||| plcB 2 1 c.cause ||| plcF 3 0 k.isNone ||| plcF 3 1 written.isSome ||| plcB 4 4 (s.captureCount c.part)
    let s2 := (s1.event 0x0016 c.part 0 false c.source c.station d).opEvent 0x0016 c.part c.source d
    (mark { s2 with fail := { s2.fail with captured := Tab.put s2.fail.captured c.part (s.captureCount c.part + 1) } }).runResets

/-- HANG_CAPTURE: Innkeeper captures the partition's oldest waiting record, and the reset proceeds (R434, R435). -/
def execHangCapture (p : Nat) (s : State) : Outc :=
  .next (
    match s.fail.captures.find? (fun c => c.part == p && !c.done) with
    | none => s
    | some c => if s.innTurn 3 p 0 then (s.endCapture c none).served 3 p else s)

/-- HANG_CAPTURE_TIMEOUT: 2 ms have passed with so many bytes of the sections written: the record is left marked PARTIAL, and the reset
proceeds (R434). -/
def execHangCaptureTimeout (p written : Nat) (s : State) : Outc :=
  .next (
    match s.fail.captures.find? (fun c => c.part == p && !c.done) with
    | none => s
    | some c => if c.begun + 2000 ≤ s.now then s.endCapture c (some written) else s)

/-! ## PARTITION_RESET_MSG, PARTITION_RESET_DONE (R427, R438) -/

/-- R438: MOVE_IN_PROGRESS while the partition is frozen. -/
def partitionResetBody (r : Nat) (s : State) : MsgRes :=
  let p := fldB r 0 1
  if bodyRsvd r [(0, 7, 0)] then refuseM s .rsvdSet
  else if !s.livePart p then refuseM s .badId
  else if s.partFrozen p then busyM s .moveInProgress
  else okM (s.addCapture p 6 0 0xFFFF (.part p)) 0

/-- PARTITION_RESET_MSG. -/
def execPartitionResetMsg (m : MsgRef) (body : BitVec 64) (s : State) : Outc :=
  .next (runPlain s m 3 (fldB body.toNat 0 1) (partitionResetBody body.toNat))

/-- PARTITION_RESET_DONE: every engine is free and every steward has restarted, so PartitionResetDone is sent (R427, R438). -/
def execPartitionResetDone (p : Nat) (s : State) : Outc :=
  .next (
    match takeFirst (fun (r : PartReset) => r.part == p) s.fail.resets with
    | none => s
    | some (r, l) =>
      let stopped := (s.boundBlocks p).any (fun b => !s.blockRuns b)
      let waiting := s.svc.stewards.any (fun e => e.2.part == p && !e.2.revoked && e.2.dismissing.isNone && !e.2.running)
      if stopped || waiting then s
      else ({ s with fail := { s.fail with resets := l } }).emitOut (.msg .fabricManager 0x040C [p, r.cause, s.genOf p]))

/-! ## SLICE_SEC_DED_ERROR (R169, R363) -/

/-- A block move whose source meets an uncorrectable error during its copy is abandoned: DEST_BLOCK is released and wiped (R363). -/
def State.abandonMove (s : State) (v : BlockMv) : State :=
  let s1 := { s with part := { s.part with moves := s.part.moves.filter (· != v) } }
  let s2 := (s1.updPart v.part (fun x => { x with moving := x.moving.filter (· != v.name) })).updBlock v.dst (fun b => { b with bound := none, wipe := some .move })
  s2.answerMsg v.ref (.refused .moveAbandoned 0)

/-- SLICE_SEC_DED_ERROR: a single-bit error is corrected in line and counted. An uncorrectable one leaves its access incomplete, and
the block is reset after a capture with cause 5 (R19, R169, R428); a crier send whose source line it was ends (R185). An unbound block is wiped again with nobody's record. -/
def execSliceSecDedError (block : Nat) (uncorrectable : Bool) (access : Nat) (s : State) : Outc :=
  .next (
    if 60 ≤ block then s
    else if !uncorrectable then s.updBlock block (fun b => { b with corrected := b.corrected + 1 })
    else
      let s0 := { s with fab := { s.fab with claims := s.fab.claims.filter (fun c => !(c.access == access && c.block == block)) } }
      let s1 := match Tab.find s.fab.accesses access with
        | some a => (match a.who, a.store with | .crierTap n, false => s0.stopSend n 2 | _, _ => s0)
        | none => s0
      let s2 := match s1.part.moves.find? (fun v => v.src == block && v.step == 4) with
        | some v => s1.abandonMove v
        | none => s1
      match (s2.block block).bound with
      | some (p, _) => s2.addCapture p 5 block 0xFFFF (.block block)
      | none => s2.blockReset block)

/-! ## Watchdogs (R429-R433) -/

/-- The exact counts make an event of the cell or unit due: it holds a start, whose next issue, completion or commit is due unless its
commit is held (R73, R61), is not frozen, waits for no access outside its crossbar port, and its block runs (R125, R145, R429, R506); a
steward runs and is not in a WAITQ. -/
def State.watched (s : State) (e : Nat) : Bool :=
  !s.engFrozen e && (engClass e != 1 || (s.accessesOut (engNum e) == 0 && s.blockRuns (engNum e / 20))) &&
  (match s.engine? e with
   | some x => (match x.start with | some st => !st.heldFull && !st.heldOrder | none => false)
   | none => match Tab.find s.svc.stewards (engNum e) with
     | some t => engClass e == 1 && t.running && !s.partFrozen t.part && (s.scell (engNum e)).wait.isNone
     | none => false)

/-- The partition and station an engine serves. -/
def State.servedBy (s : State) (e : Nat) : Nat × Nat :=
  match s.engine? e with
  | some x => (x.part, x.station)
  | none => match Tab.find s.svc.stewards (engNum e) with | some t => (t.part, 0xFFFF) | none => (0, 0xFFFF)

/-- ENGINE_WATCHDOG_EXPIRE: a watched cell or unit passes 1,024 cycles without its due event (R429): a record is captured and it is
reset; a second hang within 1 s retires a cell, and passes a unit to device level (R430). -/
def execEngineWatchdogExpire (e : Nat) (s : State) : Outc :=
  .next (
    if !s.watched e || s.hung e then s
    else
      let again := match Tab.find s.fail.hangs e with | some t => decide (s.now < t + 1000000) | none => false
      let s1 := { s with fail := { s.fail with hangs := Tab.put s.fail.hangs e s.now } }
      let w := s.servedBy e
      if engClass e = 1 then
        if again && cellKind (engNum e) != 3 then s1.retireSoon (engNum e) 2
        else (if again then s1.devFault 4 e else s1).addCapture w.1 1 (engNum e) w.2 (.engine e)
      else (if again then s1.devFault 4 e else s1).addCapture w.1 2 e w.2 (.engine e))

/-- A block that the station depends on moves (R351, R431). -/
def State.stationMoving (s : State) (p : Nat) (t : Station) : Bool :=
  (match s.anchorPhys p t with | some b => s.movingBlock b | none => false) ||
  t.engines.any (fun e => match engBlock e with | some b => s.movingBlock b | none => false)

/-- The station's watchdog counts now (R431, R506). -/
def State.stationCounts (s : State) (p : Nat) (t : Station) : Bool :=
  let st := fun (e : Nat) => (s.engine? e).bind (·.start)
  (s.inputsWaiting t || t.engines.any (fun e => (st e).isSome)) &&
  !t.engines.any (fun e => match st e with | some y => y.heldFull || y.heldOrder | none => false) &&
  !s.stationMoving p t && !s.partFrozen p && !t.engines.any s.engFrozen

/-- One µs of every station's watchdog: the count starts from zero at each commit, stands while a condition fails, and goes on from
there (R431). -/
def State.tickWatchdogs (s : State) : State :=
  { s with fail := { s.fail with age := s.stn.stations.foldl (fun (a : Tab (Nat × Nat)) e =>
    let old := match Tab.find a e.1 with | some (n, c) => if c = e.2.lastCommit then n else 0 | none => 0
    if e.2.anchor.isSome then Tab.put a e.1 (if s.stationCounts (e.1 / 65536) e.2 then old + 1 else old, e.2.lastCommit) else a) s.fail.age } }

/-- One µs of queue stall age does not pass while the anchor's block moves (R351). -/
def State.tickStalls (s : State) : State :=
  { s with stn := { s.stn with queues := Tab.all s.stn.queues (fun _ q => if s.ringMoving q then { q with headSince := q.headSince + 1 } else q) } }

/-- STATION_HUNG: a station's watchdog reaches WATCHDOG_MS (R75, R431): its event goes out, a record is captured, and its running starts
are abandoned; with every bound engine free, it is its dispatcher that hangs, and the block is reset (R433). -/
def execStationHung (p id : Nat) (s : State) : Outc :=
  .next (
    match s.station? p id, Tab.find s.fail.age (stnKey p id) with
    | some t, some (n, c) =>
      match s.anchorPhys p t with
      | none => s
      | some b =>
        let free := t.engines.all (fun e => match s.engine? e with | some x => x.start.isNone | none => true)
        let r := if free then ResetOf.block b else ResetOf.station p id
        if c ≠ t.lastCommit ∨ n < t.watchdog * 1000 ∨ s.capturing r then s
        else
          let s1 := (s.event 0x0003 p 0 false b id (plcB 0 2 t.watchdog ||| plcB 2 2 ((s.captureIndex p).getD 0xFFFF)))
          s1.addCapture p (if free then 4 else 3) b id r
    | _, _ => s)

/-- QUEUE_STALLED: a queue's head has been eligible for STALL_MS without starting; it is raised once for each stall and causes no reset
(R75, R432). -/
def execQueueStalled (q : Nat) (s : State) : Outc :=
  .next (
    match s.queue? q with
    | none => s
    | some x =>
      match x.headWb with
      | none => s
      | some w =>
        if x.stalled || s.now < x.headSince + x.ageMs * 1000 || s.ringMoving x then s
        else (s.setQueue q { x with stalled := true }).event 0x0002 x.part w.context true q (consumerStation x.consumer) (plcB 0 2 x.ageMs))

/-- DISPATCHER_HANG: a candidate with a free engine has stood at position 0 for 64 CLK_BLK without winning a slot: the block is reset
(R433). -/
def execDispatcherHang (block : Nat) (s : State) : Outc :=
  .next (
    match s.nextCandidate block with
    | none => s
    | some (_, p, id, _) => s.addCapture p 4 block id (.block block))

end Sys2Proof.Machine
end

