-- ==== Sys2Proof/Machine/Reckonings.lean ====
section
/-! DEFINITION. Sys2Proof/Machine/Reckonings.lean: the reconciliation of each millisecond, epochs and their signed roots, delivery, and
live readings (18_reckoning R470-R490). -/

namespace Sys2Proof.Machine

/-! ## Rounding (R475) -/

/-- The whole units of num ÷ den divided by weights, each recipient given as its REQ_ID and weight (R475): floors, then one unit each by
descending fraction and ascending REQ_ID. -/
def shareOut (num den : Nat) (l : List (Nat × Nat)) : List Nat :=
  let tot := sumN (l.map (·.2))
  let d := den * tot
  if d = 0 then l.map (fun _ => 0)
  else
    let floors := l.map (fun x => num * x.2 / d)
    let left := num / den - sumN floors
    let order := sortBy (fun i => (d - num * (l.getD i (0, 0)).2 % d) * 2 ^ 32 + (l.getD i (0, 0)).1)
      ((List.range l.length).filter (fun i => decide (0 < num * (l.getD i (0, 0)).2 % d)))
    let win := order.take left
    (List.zip (List.range l.length) floors).map (fun x => if win.contains x.1 then x.2 + 1 else x.2)

/-! ## Attribution (R472-R477) -/

/-- Energy added to an account in a category: 0 compute, 1 slice memory, 2 main memory, 3 links, else shared. -/
def Account.add (a : Account) (cat : Nat) (uj : Int) : Account :=
  match cat with
  | 0 => { a with compute := a.compute + uj, charged := true }
  | 1 => { a with slice := a.slice + uj, charged := true }
  | 2 => { a with dram := a.dram + uj, charged := true }
  | 3 => { a with link := a.link + uj, charged := true }
  | _ => { a with shared := a.shared + uj, charged := true }

/-- Energy added to an account by its key; a house or operator account comes into being with it. -/
def State.addAccount (s : State) (key cat : Nat) (uj : Int) (time : Nat) : State :=
  let base := Tab.getD s.reck.accounts key (freshAccount (key / 2 ^ 32) (key % 2 ^ 32) 0 0 (if key = 0 then flagOperator else flagHouse) time)
  let a := base.add cat uj
  { s with reck := { s.reck with accounts := Tab.put s.reck.accounts key { a with lastCharge := max a.lastCharge time } } }

/-- A leaf of the partition and request that was open at a time of the window now ending (R476). -/
def Leaf.covers (l : Leaf) (p req time : Nat) : Bool :=
  l.acct.part == p && l.acct.req == req && req != 0 && decide (l.acct.start ≤ time) && decide (time ≤ l.endUs)

/-- Update the first leaf that meets a test, in the open epoch or in one not yet signed. -/
def updLeaf (f : Leaf → Bool) (g : Account → Account) : List Leaf → List Leaf
  | [] => []
  | l :: ls => if f l then { l with acct := g l.acct } :: ls else l :: updLeaf f g ls

def State.updLeaves (s : State) (f : Leaf → Bool) (g : Account → Account) : State :=
  if s.reck.leaves.any f then { s with reck := { s.reck with leaves := updLeaf f g s.reck.leaves } }
  else { s with reck := { s.reck with unsigned := s.reck.unsigned.map (fun e => { e with leaves := updLeaf f g e.leaves }) } }

/-- Every leaf not yet signed. -/
def State.allLeaves (s : State) : List Leaf := s.reck.leaves ++ s.reck.unsigned.flatMap (·.leaves)

/-- A direct charge reaches its reckoning (R472, R476, R478): a session step's energy is held for it; else the open reckoning of the ID,
the one that closed in this window, a new one, or the house account. -/
def State.charge (s : State) (c : Charge) : State :=
  let key := acctKey c.part c.req
  if c.req = 0 then s.addAccount (acctKey c.part 0) c.cat c.uj c.time
  else if 2 ^ 31 ≤ c.req then
    let a := (Tab.getD s.reck.steps key (freshAccount c.part c.req c.context 0 0 c.time)).add c.cat c.uj
    { s with reck := { s.reck with steps := Tab.put s.reck.steps key a } }
  else
    let open' := match Tab.find s.reck.accounts key with | some a => decide (a.start ≤ c.time) | none => false
    if open' then s.addAccount key c.cat c.uj c.time
    else if s.allLeaves.any (fun l => l.covers c.part c.req c.time) then
      s.updLeaves (fun l => l.covers c.part c.req c.time) (fun a => a.add c.cat c.uj)
    else
      let s1 := if s.reckIsOpen c.part c.req then s else s.reckOpenAt c.part c.req c.context 0 0 c.time
      if s1.reckIsOpen c.part c.req then s1.addAccount key c.cat c.uj c.time
      else s1.addAccount (acctKey c.part 0) c.cat c.uj c.time

/-- The share of a row of a completed step: to its session's reckoning, open or closed in this window, or to the house account (R477,
R490). -/
def State.chargeRow (s : State) (p req cat uj : Nat) : State :=
  if uj = 0 then s
  else if req ≠ 0 ∧ s.reckIsOpen p req then s.addAccount (acctKey p req) cat uj s.now
  else if s.allLeaves.any (fun l => l.acct.part == p && l.acct.req == req && req != 0 && decide (s.now < l.endUs + 1000)) then
    s.updLeaves (fun l => l.acct.part == p && l.acct.req == req && decide (s.now < l.endUs + 1000)) (fun a => a.add cat uj)
  else s.addAccount (acctKey p 0) cat uj s.now

/-- The energy held for a completed step is divided among its rows (R477). -/
def State.divideStep (s : State) (key : Nat) (rows : List (Nat × Nat)) : State :=
  let p := key / 2 ^ 32
  match Tab.find s.reck.steps key with
  | none => s
  | some a =>
    let s1 := { s with reck := { s.reck with steps := Tab.del s.reck.steps key } }
    ([(0, a.compute), (1, a.slice), (2, a.dram), (3, a.link)] : List (Nat × Int)).foldl (fun (s : State) e =>
      (List.zip rows (shareOut e.2.toNat 1 rows)).foldl (fun (s : State) x => s.chargeRow p x.1.1 e.1 x.2) s) s1

/-! ## Shared energy (R473, R476) -/

/-- When each reckoning of a partition was open within the window [b, e): its REQ_ID, and from when to when. -/
def State.openSpans (s : State) (p b e : Nat) : List (Nat × Nat × Nat) :=
  let acc := (s.reck.accounts.filter (fun x => x.2.part == p && x.1 % 2 ^ 32 != 0)).map (fun x => (x.2.req, max b x.2.start, e))
  let lvs := (s.allLeaves.filter (fun l => l.acct.part == p && l.acct.req != 0 && decide (b < l.endUs))).map (fun l => (l.acct.req, max b l.acct.start, min e l.endUs))
  (acc ++ lvs).filter (fun x => decide (x.2.1 < x.2.2))

/-- µs covered by spans sorted by their begin, from a cursor onward. -/
def covered : (cursor : Nat) → List (Nat × Nat × Nat) → Nat
  | _, [] => 0
  | c, x :: l =>
    let b := max c x.2.1
    (x.2.2 - b) + covered (max c x.2.2) l

/-- SH_p of a window is divided by time among the partition's reckonings; answers the µJ divided (R473, R476). -/
def State.shareWindow (s : State) (p direct : Nat) : State × Nat :=
  let b := s.now - 1000
  let w := let z := s.zh 88; if z = 0 then s.reck.calShared else z
  let ppm := let z := s.zh 92; if z = 0xFFFFFFFF then s.reck.calLoss else z
  let den := 11520 * 1000000
  let num := Tab.getD s.reck.winShares p 0 * w * 1000 * 1000000 + direct * ppm * 11520
  let spans := s.openSpans p b s.now
  let house := 1000 - covered b (sortBy (·.2.1) spans)
  let out := List.zip ((0, 0, 0) :: spans) (shareOut num den ((0, house) :: spans.map (fun x => (x.1, x.2.2 - x.2.1))))
  let s1 := out.foldl (fun (s : State) y =>
    let req := y.1.1
    if y.2 = 0 then s
    else if req = 0 then s.addAccount (acctKey p 0) 4 y.2 0
    else if y.1.2.2 = s.now ∧ s.reckIsOpen p req then
      { s with reck := { s.reck with accounts := Tab.upd s.reck.accounts (acctKey p req) (fun a => a.add 4 y.2) } }
    else s.updLeaves (fun l => l.covers p req y.1.2.1 && decide (b < l.endUs)) (fun a => a.add 4 y.2)) s
  (s1, num / den)

/-! ## RECONCILIATION_WINDOW (R471-R477, R458) -/

/-- The next window's budget of a partition, in mW: each whole mJ of excess of its block energy lowers it by as much, down to half of
POWER_W (R458). -/
def nextBudget (powerW blockUj : Nat) : Nat := max (powerW * 500) (powerW * 1000 - (blockUj - powerW * 1000) / 1000 * 1000)

/-- The power domain is present (R2). -/
def State.domainHere (s : State) (d : Nat) : Bool := decide (d < 94) && (s.sys.variantT || !(decide (84 ≤ d) && decide (d < 90)))

/-- Charges of partitions the module holds, made in domains that are present (R2: an absent domain carries no energy). -/
def State.validCharges (s : State) (l : List Charge) : List Charge :=
  l.filter (fun c => (s.part? c.part).isSome && s.domainHere c.domain)

/-- Energy of a partition among charges. -/
def directOf (l : List Charge) (p : Nat) : Nat := sumN ((l.filter (fun c => c.part == p)).map (·.uj))

/-- Compute and slice-memory energy of a partition in block domains (R458). -/
def blockEnergy (l : List Charge) (p : Nat) : Nat :=
  sumN ((l.filter (fun c => c.part == p && decide (c.cat ≤ 1) && decide (c.domain < 60))).map (·.uj))

def addTab (t : Tab Nat) (k v : Nat) : Tab Nat := Tab.put t k (Tab.getD t k 0 + v)

/-- One window is reconciled: direct charges, steps that have completed, shared energy, and the residue. -/
def State.reconcile (s : State) (charges : List Charge) : State :=
  let l := s.validCharges charges
  let meas := (s.reck.acc + s.reck.rem) / 1000
  let s1 := l.foldl (fun (s : State) c => s.charge c) s
  let s2 := s1.reck.doneSteps.foldl (fun (s : State) e => s.divideStep e.1 e.2) s1
  let x := (Tab.keys s2.part.parts).foldl (fun (y : State × Nat) p =>
    let z := y.1.shareWindow p (directOf l p)
    ({ z.1 with reck := { z.1.reck with live := addTab z.1.reck.live p (directOf l p + z.2) } }, y.2 + directOf l p + z.2)) (s2, 0)
  let s3 := x.1.addAccount 0 4 ((meas : Int) - x.2) 0
  { s3 with
    reck := { s3.reck with doneSteps := [], acc := 0, samples := 0, rem := (s.reck.acc + s.reck.rem) % 1000, metered := s3.reck.metered + meas, firstWin := some (s3.reck.firstWin.getD (s.now - 1000)), lastWin := s.now, winShares := s.reck.shares, liveMeter := s3.reck.liveMeter + meas, liveDomains := (charges.filter (fun c => s.domainHere c.domain)).foldl (fun t c => addTab t c.domain c.uj) s3.reck.liveDomains },
    pow := { s3.pow with budget := s3.part.parts.map (fun e => (e.1, nextBudget e.2.powerW (blockEnergy l e.1))) } }

/-- RECONCILIATION_WINDOW: a window of 1 ms ends, with the charges the estimators made in it. The windows of a doze carry no direct
charges (R527). -/
def execReconciliationWindow (charges : List Charge) (s : State) : Outc :=
  .next (
    if s.now % 1000 ≠ 0 ∨ s.now = 0 ∨ s.reck.lastWin = s.now then s
    else s.reconcile (if s.sys.state = .doze then [] else charges))

/-! ## RECKONING_IDLE_CLOSE, RECKONING_EPOCH_CLOSE (R478, R481) -/

/-- RECKONING_IDLE_CLOSE: no direct charge has reached a request's reckoning for RECKON_IDLE_MS (R478). -/
def execReckoningIdleClose (p req : Nat) (s : State) : Outc :=
  .next (
    match Tab.find s.reck.accounts (acctKey p req) with
    | none => s
    | some a =>
      if req ≠ 0 ∧ a.session = 0 ∧ a.lastCharge + s.zh 96 * 1000 ≤ s.now then (s.reckClose p req flagIdle).1 else s)

/-- RECKONING_EPOCH_CLOSE: 1,000,000 µs after the epoch opened it closes; the leaf that fills an epoch closes it at once (R481). -/
def execReckoningEpochClose (s : State) : Outc :=
  .next (if s.sys.state ≠ .doze ∧ (s.reck.opened + 1000000 ≤ s.now ∨ 65536 ≤ s.reck.leaves.length + s.reck.sealCount) then s.epochClose else s)

/-! ## RECKONING_ROOT_SIGNED (R480-R485) -/

/-- An energy field: 64 bits in two's complement (R480). -/
def energy64 (x : Int) : Nat := wrapI 64 x

/-- The reckoning record of a leaf (R480). -/
def State.recordOf (s : State) (epoch : Nat) (l : Leaf) : Nat :=
  let a := l.acct
  plcB 0 8 l.seq ||| plcB 8 4 a.req ||| plc 12 5 0 a.part ||| plcB 13 1 a.flags ||| plcB 14 2 s.sys.nodeId |||
  plcB 16 8 s.sys.bootNonce.toNat ||| plcB 24 8 a.start ||| plcB 32 8 l.endUs ||| plcB 40 8 (energy64 a.compute) |||
  plcB 48 8 (energy64 a.slice) ||| plcB 56 8 (energy64 a.dram) ||| plcB 64 8 (energy64 a.link) ||| plcB 72 8 (energy64 a.shared) |||
  plc 80 11 0 a.context ||| plcB 84 4 a.session ||| plcB 88 8 epoch

/-- A hash as its 48 bytes. -/
def hashBytes (h : Nat) : List (BitVec 8) := bytesOf 48 h

/-- Leaf hash and node hash (R482). -/
def leafHash (record : Nat) : Nat := Config.sha384 (0 :: bytesOf 128 record)
def nodeHash (l r : Nat) : Nat := Config.sha384 (1 :: (hashBytes l ++ hashBytes r))

/-- The largest power of two below n, for n of 2 or more. -/
def splitAt (n : Nat) : Nat := 2 ^ Nat.log2 (n - 1)

/-- The Merkle tree hash of a list of leaf hashes (RFC 9162, 2.1.1), with at most `fuel` levels. -/
def merkle : (fuel : Nat) → List Nat → Nat
  | 0, l => l.headD 0
  | f + 1, l =>
    if l.length ≤ 1 then l.headD (Config.sha384 [])
    else nodeHash (merkle f (l.take (splitAt l.length))) (merkle f (l.drop (splitAt l.length)))

/-- The audit path of leaf i (RFC 9162, 2.1.3), nearest the leaf first. -/
def auditPath : (fuel i : Nat) → List Nat → List Nat
  | 0, _, _ => []
  | f + 1, i, l =>
    if l.length ≤ 1 then []
    else
      let k := splitAt l.length
      if i < k then auditPath f i (l.take k) ++ [merkle f (l.drop k)]
      else auditPath f (i - k) (l.drop k) ++ [merkle f (l.take k)]

/-- The root header (R483). -/
def State.rootHeader (s : State) (e : Epoch) (root prev : Nat) : Nat :=
  plcB 0 8 e.num ||| plcB 8 2 s.sys.nodeId ||| plcB 12 4 e.leaves.length ||| plcB 16 8 s.sys.bootNonce.toNat ||| plcB 24 8 e.opened |||
  plcB 32 8 e.closed ||| plcB 40 48 root ||| plcB 88 48 prev ||| plcB 136 8 e.metered

/-- Key numbers for Config.sign: the boot's reckoning keys, RSA-3072 and SLH-DSA (R483). -/
def State.reckKey (s : State) (slh : Bool) : Nat := 4 * s.sys.bootNonce.toNat + (if slh then 1 else 0)

/-- The signed root: header and both signatures, 36,192 bytes (R483). -/
def State.signedRoot (s : State) (header : Nat) : List (BitVec 8) :=
  let h := bytesOf 144 header
  let d := Config.sha384 h
  h ++ bytesOf 384 (Config.sign (s.reckKey false) d) ++ bytesOf 35664 (Config.sign (s.reckKey true) d)

/-- The 36 ROOT entries of a signed root (R484). -/
def rootItems (epoch : Nat) (root : List (BitVec 8)) : List RingItem :=
  (List.range 36).map (fun i => { kind := 2, part := i, epoch := epoch, payload := ofBytes ((root.drop (1008 * i)).take 1008) })

/-- The RECORD entry of a leaf (R484). -/
def State.recordItem (s : State) (e : Epoch) (hashes : List Nat) (i : Nat) (l : Leaf) : RingItem :=
  let path := auditPath 17 i hashes
  { kind := 1, part := 0, epoch := e.num, payload := s.recordOf e.num l ||| plcB 128 4 i ||| plcB 132 1 path.length ||| ofBytes (path.flatMap hashBytes) <<< (8 * 136) }

/-- Entries join those a partition's reckoning ring waits for (R485). -/
def State.holdItems (s : State) (p : Nat) (l : List RingItem) : State :=
  { s with reck := { s.reck with held := Tab.put s.reck.held p (Tab.getD s.reck.held p [] ++ l) } }

/-- The reckoning ring of a partition (R484). -/
def State.reckRing (s : State) (p : Nat) : Option (Nat × Ring) := s.host.rings.find? (fun e => e.2.part == p && e.2.ty == 6)

/-- Partitions with a reckoning ring. -/
def State.reckRings (s : State) : List Nat := (s.host.rings.filter (fun e => e.2.ty == 6)).map (·.2.part)

/-- Write held entries of a partition while its ring has room, at most `n` of them (R485). -/
def State.flushHeld (s : State) (p : Nat) : (n : Nat) → State
  | 0 => s
  | n + 1 =>
    match s.reckRing p, Tab.getD s.reck.held p [] with
    | some (q, r), x :: l =>
      if r.room then
        let s1 := s.writeRing q r (fun seq phase => plcB 0 4 seq ||| plc 4 7 7 phase ||| plcB 5 1 x.kind ||| plcB 6 2 x.part ||| plcB 8 8 x.epoch ||| x.payload <<< 128)
        State.flushHeld { s1 with reck := { s1.reck with held := if l.isEmpty then Tab.del s1.reck.held p else Tab.put s1.reck.held p l } } p n
      else s
    | _, _ => s

/-- Deliver what waits for a partition's ring. -/
def State.deliverHeld (s : State) (p : Nat) : State := s.flushHeld p (Tab.getD s.reck.held p []).length

/-- The oldest closed epoch is signed and delivered (R481-R485). -/
def State.signRoot (s : State) : State :=
  match s.reck.unsigned with
  | [] => s
  | e :: rest =>
    let hashes := e.leaves.map (fun l => leafHash (s.recordOf e.num l))
    let root := merkle 17 hashes
    let prev := match s.reck.prevRoot with
      | some r => r
      | none => Config.sha384 (bytesOf 8 s.sys.bootNonce.toNat ++ bytesOf 8 s.sys.serial)
    let parts := rootItems e.num (s.signedRoot (s.rootHeader e root prev))
    let idx := List.zip (List.range e.leaves.length) e.leaves
    let s1 := s.reckRings.foldl (fun (s : State) p =>
      (s.holdItems p ((idx.filter (fun x => x.2.acct.part == p)).map (fun x => s.recordItem e hashes x.1 x.2) ++ parts)).deliverHeld p) s
    { s1 with reck := { s1.reck with unsigned := rest, prevRoot := some root } }

/-- RECKONING_ROOT_SIGNED: the reckoning engine ends the signing of the oldest closed epoch, once every window up to its close has been
reconciled (R483, R485, R490). -/
def execReckoningRootSigned (s : State) : Outc :=
  .next (
    match s.reck.unsigned with
    | e :: _ => if (e.closed ≤ s.reck.lastWin ∨ s.sys.state = .withdrawn) ∧ s.innTurn 2 0 0 then s.signRoot.served 2 0 else s
    | [] => s)

/-- The window in hand ends at a withdrawal's close (R489): no charges are made in what there is of it, and what the meter measured is residue
(DESIGN CHOICE, log entry 28). -/
def State.closeWindow (s : State) : State :=
  let meas := (s.reck.acc + s.reck.rem) / 1000
  let s1 := s.addAccount 0 4 meas 0
  { s1 with reck := { s1.reck with acc := 0, samples := 0, rem := (s.reck.acc + s.reck.rem) % 1000, metered := s1.reck.metered + meas, firstWin := some (s1.reck.firstWin.getD (s.now / 1000 * 1000)), lastWin := s.now, liveMeter := s1.reck.liveMeter + meas } }

/-- Every closed epoch is signed and delivered, in order (R489, R490). -/
def State.signAll (s : State) : State := s.reck.unsigned.foldl (fun (s : State) _ => s.signRoot) s

/-! ## RECKONING_BACKLOG, RECKONING_RING_WRITE (R485) -/

/-- RECKONING_BACKLOG: at 4,096 held entries the partition's dispatchers begin no start, and below 3,072 they resume (R485). -/
def execReckoningBacklog (p : Nat) (s : State) : Outc :=
  .next (
    match s.part? p with
    | none => s
    | some x =>
      let n := (Tab.getD s.reck.held p []).length
      if !x.backlogStop && decide (4096 ≤ n) then
        (s.updPart p (fun x => { x with backlogStop := true })).event 0x001B p 0 false 0 0xFFFF 0
      else if x.backlogStop && decide (n < 3072) then s.updPart p (fun x => { x with backlogStop := false })
      else s)

/-- RECKONING_RING_WRITE: the oldest held entry is written when the ring has room for it (R301, R485). -/
def execReckoningRingWrite (p : Nat) (s : State) : Outc := .next (s.flushHeld p 1)

/-! ## LIVE_READINGS, CLOCK_READ (R487, R488) -/

/-- LOST_WRITES of a block's cells and carriers (R488). -/
def State.lostOf (s : State) (b : Nat) : Nat :=
  sumN ((s.cell.m.filter (fun e => e.1 / 20 == b)).map (·.2.lostWrites)) + sumN ((s.cell.v.filter (fun e => e.1 / 20 == b)).map (·.2.lostWrites)) +
  sumN ((s.cell.s.filter (fun e => e.1 / 20 == b)).map (·.2.lostWrites)) + sumN ((s.fab.lostWrites.filter (fun e => e.1 / 4 == b)).map (·.2))

/-- The 16 bytes of a block in a COUNTERS entry (R488). -/
def State.counters (s : State) (b : Nat) : Nat :=
  plcB 0 8 (s.block b).cycles ||| plcB 8 4 (Tab.getD s.pow.stretched b 0) ||| plcB 12 4 (s.lostOf b)

/-- The COUNTERS payload for (entry, physical block) pairs. -/
def State.countersOf (s : State) (l : List (Nat × Nat)) : Nat := l.foldl (fun a e => a ||| s.counters e.2 <<< (128 * e.1)) 0

/-- A tenant's POWER and COUNTERS entries (R488). -/
def State.tenantItems (s : State) (p : Nat) : List RingItem :=
  let map := match s.part? p with | some x => x.blockMap | none => []
  [{ kind := 3, part := 0, epoch := 0, payload := plcB 0 8 s.now ||| plcB 8 2 (5 * (Tab.getD s.reck.live p 0 / 500000)) },
   { kind := 4, part := 0, epoch := 0, payload := s.countersOf map }]

/-- The operator's POWER and COUNTERS entries (R488); AON is domain 94. -/
def State.operatorItems (s : State) : List RingItem :=
  [{ kind := 3, part := 0, epoch := 0, payload := (List.range 95).foldl (fun a d => a ||| plcB (16 + 8 * d) 8 (Tab.getD s.reck.liveDomains d 0)) (plcB 0 8 s.now ||| plcB 8 8 s.reck.liveMeter) },
   { kind := 4, part := 0, epoch := 0, payload := s.countersOf ((List.range 60).map (fun b => (b, b))) }]

/-- LIVE_READINGS: at multiples of 100 ms one POWER and one COUNTERS entry go to each reckoning ring (R488). -/
def execLiveReadings (s : State) : Outc :=
  .next (
    if s.now % 100000 ≠ 0 ∨ s.now = 0 then s
    else
      let s1 := s.reckRings.foldl (fun (s : State) p => (s.holdItems p (if p = 0 then s.operatorItems else s.tenantItems p)).deliverHeld p) s
      { s1 with reck := { s1.reck with live := [], liveMeter := 0, liveDomains := [] } })

/-- CLOCK_READ: TIME_US (R487). -/
def execClockRead (m : MsgRef) (body : BitVec 64) (s : State) : Outc :=
  .next (runPlain s m 0 0 (fun s => if body.toNat ≠ 0 then refuseM s .rsvdSet else okM s s.now))

end Sys2Proof.Machine
end

