-- ==== Sys2Proof/Machine/Boot.lean ====
section
/-! DEFINITION. Sys2Proof/Machine/Boot.lean: power, reset and wake pins, and what survives a device reset (20_startup_ageing R523, R525,
21_module_hardware R537-R547). -/

namespace Sys2Proof.Machine

/-! ## Device reset (R249, R489, R497, R523, R525) -/

/-- What a device reset leaves: fuses, flash, what AON holds, the outside world and the queue of commands; everything else is as at
power-good. -/
def State.deviceReset (s : State) : State :=
  { State.reset with
    pending := s.pending,
    sys := { SysUnit.reset with variantT := s.sys.variantT, serial := s.sys.serial },
    reck := { ReckUnit.reset with calShared := s.reck.calShared, calLoss := s.reck.calLoss },
    pow := { PowUnit.reset with recent := s.pow.recent, above := s.pow.above, past := s.pow.past, under := s.pow.under, temps := s.pow.temps, dimmTemps := s.pow.dimmTemps, tripped := s.pow.tripped },
    age := { AgeUnit.reset with moduleH := s.age.moduleH, moduleUs := s.age.moduleUs },
    sec := { SecUnit.reset with lc := s.sec.lc, banks := s.sec.banks },
    fw := { FwUnit.reset with flash := s.fw.flash, record := s.fw.record, minSvn := s.fw.minSvn },
    boot := { s.boot with running := false, steps := [], clockBad := false, zhohiCopy := none, dozeWait := s.boot.dozeLow.any (fun n => decide (1000 ≤ n)) },
    hostMem := s.hostMem, sent := s.sent, log := s.log, free := s.free }

/-- The device starts from step 1 (R523). -/
def State.restart (s : State) : State :=
  let s1 := s.deviceReset
  ({ s1 with boot := { s1.boot with running := true } } : State).drive s

/-- A power loss: PWRGD deasserts, and every switched domain powers down (R539, R540). -/
def State.powerLoss (s : State) : State :=
  let s1 := s.deviceReset
  ({ s1 with boot := { s1.boot with pwrgd := false } } : State).drive s

/-- A power loss by which AON goes down too: a power cycle (R538, R540, R545). -/
def State.inputLoss (s : State) : State :=
  let s1 := s.deviceReset
  ({ s1 with boot := { s1.boot with pwrgd := false, aon := false, tripPin := false }, pow := { s1.pow with tripped := false, recent := [], above := 0, past := 0, under := 0 }, age := AgeUnit.reset } : State).drive s

/-! ## Power pins (R538-R540, R545) -/

/-- Junction sensors read 100 °C or more (R545). -/
def PowUnit.hot (w : PowUnit) : Bool := w.temps.any (fun e => decide (1000 ≤ e.2))

/-- AON_START: the bus reaches 44 V: AON starts, and SLOT_ID is sampled from the straps (R538, R546). -/
def execAonStart (slotId : BitVec 6) (s : State) : Outc :=
  .next (
    if s.boot.aon then s
    else { s with boot := { s.boot with aon := true, closed := true, slotId := slotId.toNat } })

/-- PWR_EN_ASSERT: PWR_EN high enables the conversion stages; ignored while a junction reads 100 °C or more. After 1 s low it ends a power
cycle, which releases a TRIP (R465, R540, R545). -/
def execPwrEnAssert (s : State) : Outc :=
  .next (
    match s.boot.enLow with
    | none => s
    | some n =>
      if s.pow.hot then s
      else ({ s with boot := { s.boot with enLow := none }, pow := { s.pow with tripped := s.pow.tripped && decide (n < 1000000) } } : State).drive s)

/-- PWR_EN_DEASSERT: a power loss; AON stays up, and THERM_TRIP_N is released (R540, R545). -/
def execPwrEnDeassert (s : State) : Outc :=
  .next (
    if s.boot.enLow.isSome then s
    else
      let s1 := s.powerLoss
      ({ s1 with boot := { s1.boot with enLow := some 0, tripPin := false } } : State).drive s1)

/-- PWRGD_START: the rails are up: PWRGD is released, and the start begins, unless RESET_N holds the device (R523, R540, R552). -/
def execPwrgdStart (s : State) : Outc :=
  .next (
    if s.boot.pwrgd || !s.boot.aon || s.boot.enLow.isSome || !s.boot.closed then s
    else ({ s with boot := { s.boot with pwrgd := true, running := s.boot.resetLow.isNone } } : State).drive s)

/-- POWER_FAIL: the bus falls to 42 V (R539). -/
def execPowerFail (s : State) : Outc := .next (if s.boot.aon then s.inputLoss else s)

/-- OVER_VOLTAGE_CUTOFF: the input has been above 60 V for 10 µs: the input switch opens, which is a power loss (R537, R552). -/
def execOverVoltageCutoff (s : State) : Outc :=
  .next (if s.boot.aon then (let s1 := s.inputLoss; { s1 with boot := { s1.boot with closed := false } }) else s)

/-! ## RESET_N (R525, R544, R552) -/

/-- RESET_N_ASSERT: RESET_N is driven low; at 100 µs the device is in reset. -/
def execResetNAssert (s : State) : Outc :=
  .next (if s.boot.resetLow.isSome then s else { s with boot := { s.boot with resetLow := some 0 } })

/-- RESET_N: its release, which starts the device from step 1 when it has been low for 100 µs and power is good. -/
def execResetN (s : State) : Outc :=
  .next (
    match s.boot.resetLow with
    | none => s
    | some n =>
      let s1 : State := { s with boot := { s.boot with resetLow := none } }
      if n < 100 then s1
      else if s.boot.pwrgd then s1.restart
      else s1)

/-- The 100th µs low puts the device into reset, where it stays until the release. -/
def State.tickReset (s : State) : State :=
  let up (o : Option Nat) : Option Nat := o.map (· + 1)
  let s1 : State := { s with boot := { s.boot with resetLow := up s.boot.resetLow, dozeLow := up s.boot.dozeLow, enLow := up s.boot.enLow } }
  if s1.boot.resetLow = some 100 then s1.deviceReset.drive s1 else s1

/-! ## SMBus (R547) -/

/-- What a read of an SMBus register returns (R547). -/
def State.smbus (s : State) (cmd : Nat) : Nat :=
  let flag (b : Bool) (n : Nat) : Nat := if b then 2 ^ n else 0
  match cmd with
  | 0x00 => 0x1200
  | 0x01 => s.sys.state.num
  | 0x02 => s.boot.slotId
  | 0x03 => s.boot.mv / 10 % 65536
  | 0x04 => s.boot.ma / 10 % 65536
  | 0x05 => if s.pow.recent.isEmpty then 0 else sumN s.pow.recent / s.pow.recent.length / 1000 % 65536
  | 0x06 => maxN (Tab.vals s.pow.temps) / 10 % 256
  | 0x07 => maxN (Tab.vals s.pow.dimmTemps) / 10 % 256
  | 0x08 => flag s.boot.tripPin 5 + flag s.pow.emergency 4 + flag (s.sys.state == .halted) 3 + flag (s.sys.state == .withdrawn) 2 + flag (s.sys.state == .recovery) 1 + flag s.boot.pwrgd 0
  | 0x09 => s.sys.haltCode
  | _ => 0

/-- SMBUS_WRITE: a write command is not acknowledged and changes nothing (R547). -/
def execSmbusWrite (_command : BitVec 8) (_data : BitVec 16) (s : State) : Outc := .next s

end Sys2Proof.Machine
end

