-- ==== Sys2Proof/Machine/Security.lean ====
section
/-! DEFINITION. Sys2Proof/Machine/Security.lean: management frames and sessions, attestation, the life cycle, weights bound to a device
set, released masters and debug (19_security_firmware R491-R507; R333, R516). -/

namespace Sys2Proof.Machine

/-! ## Management frames (R332-R334, R492, R516) -/

/-- Body bytes of a message that reaches the module (R334 and the tables of the chapters that define it): none when the code is unknown,
some none when no length is listed. -/
def msgLength (msg : Nat) : Option (Option Nat) :=
  match msg with
  | 0x0101 => some (some 64) | 0x0102 => some (some 8) | 0x0103 => some (some 8) | 0x0104 => some (some 8) | 0x0105 => some (some 8)
  | 0x0106 => some (some 8) | 0x0107 => some (some 8) | 0x0108 => some (some 8) | 0x0109 => some (some 64) | 0x010A => some (some 16)
  | 0x010B => some (some 8) | 0x010C => some (some 8) | 0x010D => some (some 24) | 0x010E => some (some 40) | 0x010F => some (some 8)
  | 0x0110 => some (some 16) | 0x0111 => some (some 16) | 0x0112 => some (some 8) | 0x0113 => some (some 16) | 0x0114 => some (some 16)
  | 0x0115 => some (some 16) | 0x0116 => some (some 16) | 0x0117 => some (some 8) | 0x0118 => some none | 0x0201 => some (some 8)
  | 0x0301 => some (some 16) | 0x0302 => some (some 8) | 0x0304 => some (some 8) | 0x0305 => some (some 8) | 0x0401 => some (some 8)
  | 0x0403 => some (some 8) | 0x0404 => some (some 8) | 0x0405 => some none | 0x0406 => some (some 8) | 0x0407 => some (some 4032)
  | 0x0408 => some (some 8) | 0x0409 => some (some 8) | 0x040A => some (some 8) | 0x040B => some (some 8) | 0x0501 => some (some 8)
  | 0x0601 => some (some 8) | 0x0701 => some (some 2008) | 0x0703 => some (some 4008) | 0x0704 => some (some 56)
  | 0x0706 => some (some 2056) | 0x0707 => some (some 8) | 0x0708 => some (some 112) | 0x0709 => some (some 4008)
  | 0x070A => some (some 8) | 0x070B => some (some 16) | 0x070C => some (some 2064) | 0x070D => some (some 8) | 0x070E => some (some 8)
  | 0x070F => some (some 32) | 0x0801 => some (some 2064) | 0x0802 => some none | 0x0803 => some none | 0x0805 => some none
  | 0x0806 => some (some 16)
  | _ => if msg < 0x8000 then none else some none

/-- Messages Porter serves without a session (R492, R495). -/
def handshakeMsg (msg : Nat) : Bool := msg == 0x0701 || msg == 0x0703

/-- The message is served in the device's state (R497, R515, R524). -/
def State.msgServed (s : State) (msg : Nat) : Bool :=
  let attest := msg == 0x0704
  if s.sec.lc = .retired then attest
  else
    match s.sys.state with
    | .recovery => attest || handshakeMsg msg || msg == 0x070B || msg == 0x070C || msg == 0x070D
    | .halted => attest || handshakeMsg msg
    | _ => true

def State.setSession (s : State) (n : Nat) (x : MgmtSess) : State := { s with sec := { s.sec with sessions := Tab.put s.sec.sessions n x } }

def State.endSession (s : State) (n : Nat) : State := { s with sec := { s.sec with sessions := Tab.del s.sec.sessions n } }

/-- Refuse a frame, and record the refusal in the fault log (R333). -/
def State.refuseFrame (s : State) (m : MsgRef) (c : Code) : State := (s.logFault c.mgmt 0 0 (plcB 0 4 m.session ||| plcB 4 2 m.msg)).answerMsg m (.refused c 0)

/-- The checks on an accepted message's code, length, reserved bytes and the device's state (R10, R334). -/
def State.checkMsg (s : State) (m : MsgRef) (h : Nat) : State :=
  if !s.msgServed m.msg then s.answerMsg m (.refused .locked 0)
  else
    match msgLength m.msg with
    | none => s.answerMsg m (.refused .badParam 0)
    | some l =>
      if (match l with | some n => n != fldB h 2 2 | none => fldB h 2 2 % 8 != 0 || decide (4032 < fldB h 2 2)) then s.answerMsg m (.refused .badParam (fieldRef 2 0))
      else if fldB h 20 4 ≠ 0 then s.answerMsg m (.refused .rsvdSet 0)
      else s

/-- Porter checks a frame whose first 24 bytes are `h` (R333); `tagOk` says that its TAG verifies under the session's key. A message that
passes is accepted: its row's command follows. -/
def State.checkFrame (s : State) (h : Nat) (tagOk : Bool) : State :=
  let m : MsgRef := { session := fldB h 4 4, corr := fldB h 16 4, msg := fldB h 0 2 }
  if handshakeMsg m.msg || (m.msg == 0x0704 && m.session == 0) then s.checkMsg m h
  else
    match Tab.find s.sec.sessions m.session with
    | none => s.refuseFrame m .badSession
    | some x =>
      if !tagOk then
        let s1 := s.refuseFrame m .badTag
        if 15 ≤ x.badTags then s1.endSession m.session else s1.setSession m.session { x with badTags := x.badTags + 1 }
      else if fldB h 8 8 ≤ x.seqIn then s.refuseFrame m .replay
      else (s.setSession m.session { x with seqIn := fldB h 8 8, used := s.now, badTags := 0 }).checkMsg m h

/-- MGMT_TXN: a management frame that has arrived on a port reaches Porter (R380, R333). -/
def execMgmtTxn (n : Nat) (tagOk : Bool) (s : State) : Outc :=
  .next (s.onTxn n 0x0D (fun _ m s => s.checkFrame (ofBytes ((m.bytes.drop 32).take 24)) tagOk))

/-- UART_FRAME: a management frame arrives on the side-band UART: one whose CRC fails is discarded without an answer (R516). -/
def execUartFrame (header : BitVec 192) (crcOk tagOk : Bool) (s : State) : Outc :=
  .next (if crcOk && s.boot.aon then s.checkFrame header.toNat tagOk else s)

/-- The message came in an owner session, of the first kind of R496. -/
def State.owner (s : State) (m : MsgRef) : Bool := match Tab.find s.sec.sessions m.session with | some x => x.peer.isNone | none => false

/-! ## The handshake (R495, R496) -/

/-- HANDSHAKE_INIT: `unwrapOk` says that both ciphertexts decrypt; `rsvd` holds bytes 2,000 to 2,007 (R10). Porter assigns SESSION and sends HandshakeReply. -/
def execHandshakeInit (m : MsgRef) (nonceI : BitVec 384) (unwrapOk : Bool) (rsvd : Nat) (s : State) : Outc :=
  .next (
    if s.sec.lc = .retired then s.answerMsg m (.refused .locked 0)
    else if rsvd ≠ 0 then s.answerMsg m (.refused .rsvdSet 0)
    else if !unwrapOk then s.answerMsg m (.refused .keyUnwrap 0)
    else
      let n := s.sec.nextSession
      let nonceM := Config.random s.free % 2 ^ 384
      let s1 := { s with free := s.free + 1, sec := { s.sec with nextSession := n + 1, half := s.sec.half ++ [({ session := n, begun := s.now, parts := 0 } : HalfOpen)] } }
      s1.emitOut (.msg (.initiator n) 0x0702 [nonceM, n, Config.hmac n (nonceI.toNat + nonceM * 2 ^ 384)]))

/-- The session that has been idle longest. -/
def idlest : Tab MgmtSess → Option Nat
  | [] => none
  | e :: l =>
    match idlest l with
    | none => some e.1
    | some k => if (Tab.getD l k e.2).used < e.2.used then some k else some e.1

/-- HANDSHAKE_FINISH: a part of the initiator's keys and signatures for a half-open handshake; with the last part Porter opens the session
when both signatures verify and the initiator is authorised: by the owner bank's keys, or as another module (its node). In FACTORY every
initiator is authorised. `rsvd` holds the RSVD bytes 4 to 7 (R10). -/
def execHandshakeFinish (m : MsgRef) (session part nParts : Nat) (sigOk authorised : Bool) (node : Option Nat) (rsvd : Nat) (s : State) : Outc :=
  .next (
    if rsvd ≠ 0 then s.answerMsg m (.refused .rsvdSet 0)
    else match s.sec.half.find? (fun x => x.session == session) with
    | none => s.answerMsg m (.refused .badSession 0)
    | some x =>
      let others := s.sec.half.filter (fun y => y.session != session)
      let drop : State := { s with sec := { s.sec with half := others } }
      if part ≠ x.parts ∨ nParts ≤ part then s.answerMsg m (.refused .badParam 0)
      else if part + 1 < nParts then ({ s with sec := { s.sec with half := others ++ [{ x with parts := part + 1 }] } } : State).answerMsg m (.ok 0)
      else if !sigOk then drop.answerMsg m (.refused .badSignature 0)
      else if !authorised && s.sec.lc != .factory then drop.answerMsg m (.refused .notAuthorised 0)
      else
        let kept := if drop.sec.sessions.length < 64 then drop.sec.sessions else (match idlest drop.sec.sessions with | some k => Tab.del drop.sec.sessions k | none => [])
        let y : MgmtSess := { peer := node, seqIn := 0, seqOut := 0, used := s.now, badTags := 0 }
        ({ drop with sec := { drop.sec with sessions := Tab.put kept session y } } : State).answerMsg m (.ok session))

/-- HANDSHAKE_TIMEOUT: 1 s after HandshakeInit a half-open handshake ends. -/
def execHandshakeTimeout (session : Nat) (s : State) : Outc :=
  .next ({ s with sec := { s.sec with half := s.sec.half.filter (fun x => !(x.session == session && decide (x.begun + 1000000 ≤ s.now))) } })

/-! ## Attestation (R493, R494) -/

def LcState.num : LcState → Nat
  | .factory => 0 | .owned => 1 | .service => 2 | .retired => 3

/-- The image a processor runs, by type and unit. -/
def State.runOf (s : State) (ty unit : Nat) : Option FwImage := (Tab.find s.fw.run (ty * 256 + unit)).map (·.image)

/-- PORTER_HASH. -/
def State.porterHash (s : State) : Nat := match s.runOf 1 0 with | some i => i.hash | none => 0

/-- SVN of the image that unit 0 of a type runs. -/
def State.runSvn (s : State) (ty : Nat) : Nat := match s.runOf ty 0 with | some i => i.svn | none => 0

/-- The seed of the keys made from CDI_P (R493), as far as the model tells it: Porter's image hash, its SVN and the life cycle. -/
def State.cdi (s : State) : Nat := s.porterHash * 2 ^ 16 + s.runSvn 1 * 2 ^ 8 + s.sec.lc.num

/-- SHA-384 over the headers of every running image but Porter's, in type and unit order (R494). -/
def State.imagesHash (s : State) : Nat :=
  Config.sha384 ((s.fw.run.filter (fun e => decide (512 ≤ e.1))).flatMap (fun e => bytesOf 512 e.2.image.header))

/-- OWNER_HASH. -/
def State.ownerHash (s : State) : Nat :=
  match s.sec.banks.getLast? with
  | some b => Config.sha384 (hashBytes b.rsa ++ hashBytes b.slh)
  | none => 0

/-- Bytes 0-383 of the attestation report (R494). -/
def State.report (s : State) (nonce : Nat) : Nat :=
  plcB 0 2 1 ||| plcB 2 1 s.sec.lc.num ||| plcB 3 1 (if s.sec.banks.isEmpty then 0xFF else s.sec.banks.length - 1) |||
  plcB 4 2 s.sys.nodeId ||| plcB 6 1 (if s.sys.variantT then 1 else 2) ||| plcB 8 8 s.sys.serial ||| plcB 16 8 s.sys.bootNonce.toNat |||
  plcB 24 8 s.now ||| plcB 32 48 nonce ||| plcB 80 48 s.porterHash ||| plcB 128 48 s.imagesHash ||| plcB 176 48 s.ownerHash |||
  plcB 224 48 (Config.keyHash 1 s.cdi) ||| plcB 272 48 (Config.keyHash 2 (s.cdi * 2 ^ 64 + s.sys.bootNonce.toNat)) |||
  (List.range 5).foldl (fun a i => a ||| plcB (320 + i) 1 (s.runSvn (i + 1))) 0 ||| plcF 328 0 s.sec.debug

/-- Key numbers of the alias keys for Config.sign. -/
def State.aliasKey (s : State) (slh : Bool) : Nat := 4 * s.cdi + (if slh then 3 else 2)

/-- The report with its two signatures: 30,560 bytes (R494). -/
def State.signedReport (s : State) (nonce : Nat) : List (BitVec 8) :=
  let b := bytesOf 384 (s.report nonce)
  let d := Config.sha384 b
  b ++ bytesOf 384 (Config.sign (s.aliasKey false) d) ++ bytesOf 29792 (Config.sign (s.aliasKey true) d)

/-- AttestPart messages of an item: 4,000 bytes each. -/
def State.sendParts (s : State) (m : MsgRef) (item : Nat) (b : List (BitVec 8)) : State :=
  let n := cdiv b.length 4000
  (List.range n).foldl (fun (s : State) i => s.emitOut (.msg (.initiator m.session) 0x0705 [i, n, item, ofBytes ((b.drop (4000 * i)).take 4000)])) s

/-- ATTEST_REQUEST: success, then the item in parts. A certificate's bytes are not given by the spec: free values, in one part. -/
def execAttestRequest (m : MsgRef) (body : BitVec 448) (s : State) : Outc :=
  .next (
    let r := body.toNat
    let item := fldB r 48 1
    if rsvdSet r (maskOf [(0, 383, 0), (48, 7, 0)]) then s.answerMsg m (.refused .rsvdSet 0)
    else if 2 < item then s.answerMsg m (badParam 48 0)
    else
      let s1 := s.answerMsg m (.ok 0)
      if item = 0 then s1.sendParts m 0 (s.signedReport (fldB r 0 48))
      else ({ s1 with free := s1.free + 1 } : State).emitOut (.msg (.initiator m.session) 0x0705 [0, 1, item, Config.freeNat s1.free]))

/-! ## Device sets and sealed weights (R500-R503) -/

/-- WEIGHT_SET_JOIN: `unwrapOk` says that both decryptions and the tag succeed, and `key` is the set key (R501). -/
def execWeightSetJoin (m : MsgRef) (setId : BitVec 32) (key : Nat) (unwrapOk : Bool) (rsvd : Nat) (s : State) : Outc :=
  .next (runPlain s m 0 0 (fun s =>
    if rsvd ≠ 0 then refuseM s .rsvdSet
    else if !unwrapOk then refuseM s .keyUnwrap
    else if !Tab.has s.sec.sets setId.toNat && decide (16 ≤ s.sec.sets.length) then refuseM s .setFull
    else okM { s with sec := { s.sec with sets := Tab.put s.sec.sets setId.toNat key } } 0))

/-- WEIGHT_SET_LEAVE: the key is erased (R501). -/
def execWeightSetLeave (m : MsgRef) (body : BitVec 64) (s : State) : Outc :=
  .next (runPlain s m 0 0 (fun s =>
    if bodyRsvd body.toNat [(0, 31, 0)] then refuseM s .rsvdSet
    else okM { s with sec := { s.sec with sets := Tab.del s.sec.sets (fldB body.toNat 0 4) } } 0))

/-- Plaintext bytes of blob chunk i. -/
def chunkPlain (chunks plain i : Nat) : Nat := if i + 1 = chunks then plain - 65536 * (chunks - 1) else 65536

/-- The plaintext of a blob whose bytes are given (R500); none when a chunk's tag fails. -/
def openBlob (key setId chunks plain : Nat) : (fuel i : Nat) → List (BitVec 8) → Option (List (BitVec 8))
  | 0, _, _ => some []
  | f + 1, i, l =>
    let n := chunkPlain chunks plain i + 16
    match Config.gcmOpen key (setId + i * 2 ^ 32) (l.take n) with
    | none => none
    | some b => (openBlob key setId chunks plain f (i + 1) (l.drop n)).map (fun rest => b ++ rest)

/-- The carve-out offset and length of the whole pages an object covers (R503); none unless they lie one after the other in the
partition's carve-out. -/
def State.sealRange (s : State) (x : Partition) (o : MemObj) : Option (Nat × Nat) :=
  let pages := cdiv (o.va % 4096 + o.length) 4096
  let offs := (List.range pages).map (fun i =>
    match s.xlate o.part o.context (o.va / 4096 * 4096 + 4096 * i) false with
    | .dram dpa => s.offOfDpa x.coded x.runs dpa
    | _ => none)
  match offs with
  | some a :: _ => if offs = (List.range pages).map (fun i => some (a + 4096 * i)) then some (a, 4096 * pages) else none
  | _ => none

/-- Write bytes at a carve-out offset. -/
def State.carvePut (s : State) (x : Partition) (off : Nat) (data : List (BitVec 8)) : State := s.carveWrite x off data (data.length + 1)

/-- R502: the blob is decrypted chunk by chunk into the destination, whose pages are then sealed. -/
def weightLoadBody (r : Nat) (e : CmdEnv) (s : State) : CmdRes :=
  let set := fldB r 0 4
  let chunks := fldB r 16 4
  let plain := fldB r 20 4
  if rsvdSet r (maskOf [(0, 31, 0), (4, 31, 0), (8, 31, 0), (12, 31, 0), (16, 31, 0), (20, 31, 0)]) then refuse s .rsvdSet
  else
    match Tab.find s.sec.sets set, s.part? e.part, s.obj? e.part (fldB r 4 4), s.obj? e.part (fldB r 12 4) with
    | none, _, _, _ => refuse s .noSet
    | some key, some x, some src, some dst =>
      let bytes := plain + 16 * chunks
      if dst.host ∨ plain = 0 ∨ chunks ≠ cdiv plain 65536 ∨ dst.length < plain then refuse s .badRange
      else
        match s.readObj src (fldB r 8 4) bytes, s.sealRange x dst with
        | some blob, some (a, n) =>
          if 16 ≤ (x.sealedRanges.filter (fun y => y.1 != fldB r 12 4)).length then refuse s .sealFull
          else
            match openBlob key set chunks plain chunks 0 blob with
            | none => (s.carvePut x a (List.replicate n 0), some (.refused .blobTag 0))
            | some b =>
              let s1 := s.carvePut x (a + dst.va % 4096) b
              done (s1.updPart e.part (fun y => { y with sealedRanges := y.sealedRanges.filter (fun z => z.1 != fldB r 12 4) ++ [(fldB r 12 4, a, n)], sealedSets := Tab.put y.sealedSets (fldB r 12 4) set })) 0
        | _, _ => refuse s .badRange
    | _, _, _, _ => refuse s .badRange

/-- The partition of a submission ring is frozen, so that its weight commands wait (R517). -/
def State.ringFrozen (s : State) (ring : Nat) : Bool := match s.ring? ring with | some r => s.partFrozen r.part | none => false

/-- WEIGHT_LOAD. -/
def execWeightLoad (ring : Nat) (record : BitVec 256) (s : State) : Outc :=
  .next (if s.ringFrozen ring then s else runCmd s ring 0x0026 record.toNat 0 (weightLoadBody record.toNat))

/-- R502: the range is written with zero and unsealed. -/
def weightReleaseBody (r : Nat) (e : CmdEnv) (s : State) : CmdRes :=
  let h := fldB r 0 4
  if rsvdSet r (maskOf [(0, 31, 0)]) then refuse s .rsvdSet
  else
    match s.part? e.part with
    | none => refuse s .badRange
    | some x =>
      match x.sealedRanges.find? (fun y => y.1 == h) with
      | none => refuse s .badRange
      | some y => done ((s.carvePut x y.2.1 (List.replicate y.2.2 0)).updPart e.part (fun z => { z with sealedRanges := z.sealedRanges.filter (fun w => w.1 != h), sealedSets := Tab.del z.sealedSets h })) 0

/-- WEIGHT_RELEASE. -/
def execWeightRelease (ring : Nat) (record : BitVec 64) (s : State) : Outc :=
  .next (if s.ringFrozen ring then s else runCmd s ring 0x0027 record.toNat 0 (weightReleaseBody record.toNat))

/-! ## The life cycle (R497-R499) -/

/-- The transition is allowed to the session that asks (R497): the state it leads to, and whether the hashes carried are fused. -/
def State.transition (s : State) (m : MsgRef) (target : Nat) (newOwner : Bool) : Option (LcState × Bool) :=
  match s.sec.lc, target with
  | .factory, 1 => if Tab.has s.sec.sessions m.session then some (.owned, true) else none
  | .owned, 2 => if s.owner m && s.sec.token then some (.service, false) else none
  | .service, 1 => if s.owner m then some (.owned, newOwner) else none
  | .owned, 3 => if s.owner m then some (.retired, false) else none
  | .service, 3 => if s.owner m then some (.retired, false) else none
  | _, _ => none

def lifecycleSetBody (m : MsgRef) (r : Nat) (s : State) : MsgRes :=
  if s.fw.act.isSome then busyM s .activationInProgress
  else if bodyRsvd r [(0, 7, 0), (1, 0, 0), (8, 383, 0), (56, 383, 0)] then refuseM s .rsvdSet
  else
    match s.transition m (fldB r 0 1) (bit r 1 0) with
    | none => refuseM s .badTransition
    | some (next, fuse) =>
      if (Tab.keys s.part.parts).any s.livePart then refuseM s .inUse
      else if fuse && decide (4 ≤ s.sec.banks.length) then refuseM s .limit
      else
        let bank : OwnerBank := { rsa := fldB r 8 48, slh := fldB r 56 48 }
        okM { s with sec := { s.sec with change := some (next, if fuse then some bank else none) } } 0

/-- LIFECYCLE_SET: an accepted transition is answered first, and then fused. -/
def execLifecycleSet (m : MsgRef) (body : BitVec 896) (s : State) : Outc := .next (runPlain s m 0 0 (lifecycleSetBody m body.toNat))

/-- An accepted transition is fused, and the device resets as for RESET_N, with its wipe (R498). -/
def State.fuse (s : State) : State :=
  match s.sec.change with
  | none => s
  | some (next, bank) => ({ s with sec := { s.sec with lc := next, banks := s.sec.banks ++ bank.toList } } : State).restart

/-- SERVICE_TOKEN: a part of a service token; with the last, `sigOk` says that it verifies under both vendor roots, and `unitOk` that it
names this UNIT_SERIAL (R497). -/
def execServiceToken (m : MsgRef) (last sigOk unitOk : Bool) (s : State) : Outc :=
  .next (runPlain s m 0 0 (fun s =>
    if !s.owner m then refuseM s .notAuthorised
    else if !last then okM s 0
    else if !sigOk then refuseM s .badSignature
    else if !unitOk then refuseM s .wrongUnit
    else okM { s with sec := { s.sec with token := true } } 0))

/-- R499: a DPA is read or written; another address is a unit register, whose layout the spec does not give: it reads what debug last
wrote there, else a free value. -/
def debugBody (m : MsgRef) (r : Nat) (s : State) : MsgRes :=
  let a := fldB r 8 8
  let v := fldB r 16 8
  if s.sec.lc = .owned ∨ s.sec.lc = .retired then refuseM s .locked
  else if !s.owner m then refuseM s .notAuthorised
  else if bodyRsvd r [(0, 7, 0), (8, 63, 0), (16, 63, 0)] then refuseM s .rsvdSet
  else if 1 < fldB r 0 1 then (s, some (badParam 0 0))
  else
    let s1 : State := { s with sec := { s.sec with debug := true } }
    if s.installed a then
      (if fldB r 0 1 = 0 then okM s1 (ofBytes (s.dramL a 8)) else okM (s1.dramWrite a (bytesOf 8 v)) 0)
    else if fldB r 0 1 = 1 then okM { s1 with sec := { s1.sec with debugRegs := Tab.put s1.sec.debugRegs a v } } 0
    else
      match Tab.find s.sec.debugRegs a with
      | some w => okM s1 w
      | none => okM { s1 with free := s1.free + 1 } (Config.freeNat s1.free % 2 ^ 64)

/-- DEBUG_ACCESS. -/
def execDebugAccess (m : MsgRef) (body : BitVec 256) (s : State) : Outc := .next (runPlain s m 0 0 (debugBody m body.toNat))

/-! ## MASTER_RELEASE (R506) -/

/-- The master a KIND and a MASTER name (R492): ports by their order number of R410, fixed units by their engine ID. -/
def masterOfBody (kind n : Nat) : Option (MasterKind × Nat) :=
  match kind with
  | 0 => some (.cell, n)
  | 1 => some (.carrier, n)
  | 2 => some (.unit, n)
  | 3 => if 240 ≤ n then some (.port, n - 240) else none
  | _ => none

def masterReleaseBody (r : Nat) (s : State) : MsgRes :=
  if bodyRsvd r [(0, 31, 0), (4, 7, 0)] then refuseM s .rsvdSet
  else
    match masterOfBody (fldB r 4 1) (fldB r 0 4) with
    | none => refuseM s .badParam
    | some (k, n) =>
      if k = .port ∧ n < 12 ∧ s.portPresent n = false then refuseM s .unitAbsent
      else match s.sys.frozen.find? (fun f => f.kind == k && f.num == n) with
      | none => refuseM s .notFrozen
      | some f =>
        let st := match (masterEngine k n).bind s.engine? with | some e => e.station | none => 0xFFFF
        okM (s.addCapture f.part 6 n st (.master k n)) 0

/-- MASTER_RELEASE. -/
def execMasterRelease (m : MsgRef) (body : BitVec 64) (s : State) : Outc := .next (runPlain s m 0 0 (masterReleaseBody body.toNat))

end Sys2Proof.Machine
end

