-- ==== Sys2Proof/Machine/Firmware.lean ====
section
/-! DEFINITION. Sys2Proof/Machine/Firmware.lean: firmware slots, their bundles, activation and commit (19_security_firmware R508-R515). -/

namespace Sys2Proof.Machine

/-! ## CRC-32C (R510, R516, R519, R533) -/

/-- One step of CRC-32C, least significant bit first, for the bit that leaves the register. -/
def crc32Bit (c : Nat) : Nat := if c % 2 = 1 then (c / 2) ^^^ 0x82F63B78 else c / 2

/-- A byte enters the register. -/
def crc32Byte (c : Nat) (b : BitVec 8) : Nat :=
  crc32Bit (crc32Bit (crc32Bit (crc32Bit (crc32Bit (crc32Bit (crc32Bit (crc32Bit (c ^^^ b.toNat))))))))

/-- CRC-32C of a byte string. -/
def crc32c (l : List (BitVec 8)) : Nat := l.foldl crc32Byte 0xFFFFFFFF ^^^ 0xFFFFFFFF

/-! ## Processors -/

/-- Units of a processor type, in unit order (R512): ports by number. -/
def State.unitsOf (s : State) (ty : Nat) : List Nat :=
  match ty with
  | 1 => [0]
  | 2 => List.range 8
  | 3 => List.range 48
  | 4 => (List.range 14).filter s.portHere
  | 5 => List.range 60
  | _ => []

def fwKey (ty unit : Nat) : Nat := ty * 256 + unit

/-- A processor runs from the slot. -/
def FwUnit.runsFrom (f : FwUnit) (slot : Bool) : Bool := f.run.any (fun e => e.2.slot == slot)

/-! ## FIRMWARE_BEGIN, FIRMWARE_WRITE (R510) -/

/-- Bytes a slot holds (R518). -/
def slotBytes : Nat := 40 * 1048576

/-- Flash address of a slot (R518). -/
def slotBase (slot : Bool) : Nat := if slot then 0x02900000 else 0x00100000

def firmwareBeginBody (m : MsgRef) (r : Nat) (s : State) : MsgRes :=
  let slot := fldB r 0 1 == 1
  if bodyRsvd r [(0, 7, 0), (4, 31, 0)] then refuseM s .rsvdSet
  else if 1 < fldB r 0 1 then (s, some (badParam 0 0))
  else if slotBytes < fldB r 4 4 ∨ fldB r 4 4 = 0 then (s, some (badParam 4 0))
  else if s.fw.runsFrom slot || (match s.fw.act with | some a => a.slot == slot | none => false) then refuseM s .slotInUse
  else okM { s with fw := { s.fw with opened := some { slot := slot, bytes := fldB r 4 4, session := m.session, pieces := [] } } } 0

/-- FIRMWARE_BEGIN. -/
def execFirmwareBegin (m : MsgRef) (body : BitVec 128) (s : State) : Outc := .next (runPlain s m 0 0 (firmwareBeginBody m body.toNat))

/-- The bytes of a block under way, as its pieces give them. -/
def blockBytes (o : OpenSlot) (blk n : Nat) : List (BitVec 8) :=
  ((List.range 32).flatMap (fun i => (Tab.getD o.pieces (blk * 32 + i) (List.replicate 2048 0)))).take n

/-- R510: pieces of a block wait in Porter; with its last piece the block is written, read back and checked. -/
def firmwareWriteBody (m : MsgRef) (h : Nat) (data : List (BitVec 8)) (s : State) : MsgRes :=
  let blk := fldB h 0 2
  let piece := fldB h 2 1
  match s.fw.opened with
  | none => refuseM s .slotInUse
  | some o =>
    if o.session ≠ m.session then refuseM s .slotInUse
    else if bodyRsvd h [(0, 15, 0), (2, 7, 0), (4, 31, 0)] then refuseM s .rsvdSet
    else if o.bytes ≤ blk * 65536 then (s, some (badParam 0 0))
    else if 31 < piece then (s, some (badParam 2 0))
    else
      let o1 := { o with pieces := Tab.put o.pieces (blk * 32 + piece) ((data ++ List.replicate 2048 0).take 2048) }
      if piece < 31 ∧ blk * 65536 + piece * 2048 + 2048 < o.bytes then okM { s with fw := { s.fw with opened := some o1 } } 0
      else
        let b := blockBytes o1 blk (min 65536 (o.bytes - blk * 65536))
        let o2 := { o1 with pieces := o1.pieces.filter (fun e => e.1 / 32 != blk) }
        let s1 := { s with fw := { s.fw with opened := some o2, flash := Memory.writeL s.fw.flash (slotBase o.slot + blk * 65536) b } }
        if crc32c b = fldB h 4 4 then okM s1 0 else refuseM s1 .blockCrc

/-- FIRMWARE_WRITE: bytes 0-15 of the body, and its data. -/
def execFirmwareWrite (m : MsgRef) (header : BitVec 128) (data : List (BitVec 8)) (s : State) : Outc :=
  .next (runPlain s m 0 0 (firmwareWriteBody m header.toNat data))

/-! ## FIRMWARE_ACTIVATE (R509, R511, R515) -/

/-- Fields of a compatibility entry (R508). -/
def vecProvides (v : Nat) : Bool := tbit v 31
def vecId (v : Nat) : Nat := v / 2 ^ 16 % 2 ^ 15
def vecMajor (v : Nat) : Nat := v / 2 ^ 8 % 2 ^ 8
def vecMinor (v : Nat) : Nat := v % 2 ^ 8

/-- A requirement is met by a set of images (R511). -/
def metBy (set : List FwImage) (v : Nat) : Bool :=
  set.any (fun i => i.vec.any (fun w => vecProvides w && vecId w == vecId v && vecMajor w == vecMajor v && decide (vecMinor v ≤ vecMinor w)))

/-- Every requirement of an image is met by a set. -/
def FwImage.metIn (i : FwImage) (set : List FwImage) : Bool := i.vec.all (fun v => vecProvides v || metBy set v)

/-- A type may switch to its new image: its requirements are met now, and every other running image's stay met (R511). -/
def mayTake (running : List FwImage) (new : FwImage) : Bool :=
  let others := running.filter (fun i => i.hwType != new.hwType)
  new.metIn running && others.all (fun i => i.metIn (new :: others))

/-- The activation order of R511: the lowest type that may switch, again and again; none when none may. `fuel` bounds the types. -/
def activationOrder : (fuel : Nat) → List FwImage → List FwImage → Option (List Nat)
  | _, _, [] => some []
  | 0, _, _ => none
  | f + 1, running, news =>
    match (sortBy (·.hwType) news).find? (mayTake running) with
    | none => none
    | some n =>
      (activationOrder f (n :: running.filter (fun i => i.hwType != n.hwType)) (news.filter (fun i => i.hwType != n.hwType))).map (fun l => n.hwType :: l)

/-- An image is not accepted (R509). -/
def State.imageBad (s : State) (i : FwImage) : Option Code :=
  if !i.verified then some .badSignature
  else if i.hwType = 0 ∨ 5 < i.hwType then some .wrongHw
  else if i.bound && i.unitId != s.sys.serial then some .wrongUnit
  else if i.svn < Tab.getD s.fw.minSvn i.hwType 0 then some .rollback
  else none

/-- The images that run now, each once. -/
def FwUnit.running (f : FwUnit) : List FwImage := (f.run.map (·.2.image)).foldl (fun l i => if l.contains i then l else l ++ [i]) []

/-- INTERFACES of the capability table: the compatibility vector of the running images (R308, R512). -/
def State.writeInterfaces (s : State) : State :=
  let v := dedupN ((sortBy (·.hwType) s.fw.running).flatMap (·.vec))
  let b := (((v.flatMap (fun w => bytesOf 4 w)) ++ List.replicate 256 0).take 256)
  if s.sys.capLength = 0 then s else { s with sys := { s.sys with capTable := Memory.writeL s.sys.capTable 0x300 b } }

/-- FIRMWARE_ACTIVATED goes to the operator, and INTERFACES is rewritten (R512). -/
def State.noteSwitch (s : State) (ty unit : Nat) : State := s.writeInterfaces.opEvent 0x001D 0 0 (plcB 0 1 ty ||| plcB 1 1 unit)

/-- The switch at the head of the order begins; Porter's is recorded as pending, at once (R512). An order that has ended answers the
message. -/
def State.nextSwitch (s : State) (a : Activation) : (fuel : Nat) → State
  | 0 => s
  | f + 1 =>
    match a.order with
    | [] => ({ s with fw := { s.fw with act := none } } : State).answerMsg a.ref (.ok 0)
    | 1 :: rest =>
      match Tab.find a.images 1 with
      | none => s
      | some i =>
        let s1 := ({ s with fw := { s.fw with record := Tab.put s.fw.record (fwKey 1 0) { slot := a.slot, image := i } } } : State).noteSwitch 1 0
        s1.nextSwitch { a with order := rest } f
    | ty :: _ => { s with fw := { s.fw with act := some { a with unitNow := (s.unitsOf ty).headD 0, begun := s.now } } }

/-- Every image of the slot is verified in full before anything changes; in RECOVERY the images are recorded for every processor at once,
and the device resets (R515). `images` is what the slot's bundle holds (R510). -/
def firmwareActivateBody (m : MsgRef) (r : Nat) (images : List FwImage) (s : State) : State :=
  let slot := fldB r 0 1 == 1
  let fail (c : Code) : State := s.answerMsg m (.refused c 0)
  if s.fw.act.isSome then s.answerMsg m (.busy .activationInProgress 0)
  else if bodyRsvd r [(0, 7, 0)] then fail .rsvdSet
  else if 1 < fldB r 0 1 then s.answerMsg m (badParam 0 0)
  else
    match images.findSome? s.imageBad with
    | some c => fail c
    | none =>
      let byType := sortBy (·.hwType) images
      if byType.map (·.hwType) ≠ [1, 2, 3, 4, 5] then fail .wrongHw
      else if s.sys.state = .recovery then
        let rec' := byType.foldl (fun (t : Tab FwRun) i => (s.unitsOf i.hwType).foldl (fun (t : Tab FwRun) u => Tab.put t (fwKey i.hwType u) { slot := slot, image := i }) t) s.fw.record
        (({ s with fw := { s.fw with record := rec' } } : State).answerMsg m (.ok 0)).restart
      else
        match activationOrder 5 s.fw.running byType with
        | none => fail .noOrder
        | some order =>
          let a : Activation := { ref := m, slot := slot, images := byType.map (fun i => (i.hwType, i)), order := order, unitNow := 0, begun := s.now }
          s.nextSwitch a 6

/-- FIRMWARE_ACTIVATE. -/
def execFirmwareActivate (m : MsgRef) (body : BitVec 64) (images : List FwImage) (s : State) : Outc :=
  .next (firmwareActivateBody m body.toNat images s)

/-! ## Switching (R512, R513, R517) -/

/-- A sequencer restarts under R245; a restart of any other processor leaves service as it is (R512). -/
def State.switchEffect (s : State) (ty unit : Nat) : State :=
  if ty = 3 then (match execSequencerRestart unit s with | .next t => t | _ => s) else s

/-- FIRMWARE_SWITCH_READY: the processor runs the new image and reports ready: the switch is recorded, and the next one begins; after the
last one the message is answered. A withdrawal stops the activation after the current switch (R517). -/
def execFirmwareSwitchReady (s : State) : Outc :=
  .next (
    match s.fw.act with
    | none => s
    | some a =>
      match a.order with
      | [] => s
      | ty :: rest =>
        match Tab.find a.images ty with
        | none => s
        | some i =>
          let k := fwKey ty a.unitNow
          let y : FwRun := { slot := a.slot, image := i }
          let s1 := { s with fw := { s.fw with run := Tab.put s.fw.run k y, record := Tab.put s.fw.record k y }, sys := { s.sys with fwInnkeeper := if ty = 2 then i.version else s.sys.fwInnkeeper } }
          let s2 := (s1.switchEffect ty a.unitNow).noteSwitch ty a.unitNow
          if s2.fail.withdraw.isSome then ({ s2 with fw := { s2.fw with act := none } } : State).answerMsg a.ref (.busy .evacuating 0)
          else
            match (s2.unitsOf ty).find? (fun u => decide (a.unitNow < u)) with
            | some u => { s2 with fw := { s2.fw with act := some { a with unitNow := u, begun := s2.now } } }
            | none => s2.nextSwitch { a with order := rest } 6)

/-- FIRMWARE_SWITCH_TIMEOUT: the processor has not reported ready within 1 s: it returns to its recorded slot, and the activation stops
(R513). -/
def execFirmwareSwitchTimeout (s : State) : Outc :=
  .next (
    match s.fw.act with
    | none => s
    | some a =>
      if s.now < a.begun + 1000000 then s
      else ({ s with fw := { s.fw with act := none } } : State).answerMsg a.ref (.refused .badSignature (a.order.headD 0 + a.unitNow * 256)))

/-! ## FIRMWARE_COMMIT (R514) -/

/-- All processors of a type run from one slot. -/
def State.oneSlot (s : State) (ty : Nat) : Bool :=
  match (s.unitsOf ty).map (fun u => (Tab.find s.fw.run (fwKey ty u)).map (·.slot)) with
  | [] => true
  | x :: l => l.all (fun y => y == x)

def firmwareCommitBody (r : Nat) (s : State) : MsgRes :=
  if r ≠ 0 then refuseM s .rsvdSet
  else if !(([1, 2, 3, 4, 5] : List Nat).all s.oneSlot) then refuseM s .badTransition
  else
    let up := ([1, 2, 3, 4, 5] : List Nat).foldl (fun (t : Tab Nat) ty => Tab.put t ty (max (Tab.getD t ty 0) (s.runSvn ty))) s.fw.minSvn
    okM { s with fw := { s.fw with minSvn := up } } 0

/-- FIRMWARE_COMMIT: the fused SVN minimum of each type becomes its running image's SVN. -/
def execFirmwareCommit (m : MsgRef) (body : BitVec 64) (s : State) : Outc := .next (runPlain s m 0 0 (firmwareCommitBody body.toNat))

end Sys2Proof.Machine
end

