-- ==== Sys2Proof/Machine/Evacuation.lean ====
section
/-! DEFINITION. Sys2Proof/Machine/Evacuation.lean: withdrawal, freezing, portmanteaus and migration (16_failure_hiding R438,
R441-R451). -/

namespace Sys2Proof.Machine

/-! ## Freezing (R448) -/

/-- A start that runs longer than its station's WATCHDOG_MS (R448 step 2). -/
def State.overlong (s : State) (x : Engine) (st : Start) : Bool :=
  match s.station? x.part x.station with
  | some t => decide (st.begun + t.watchdog * 1000 < s.now)
  | none => true

/-- Starts of a frozen partition whose commit is held for a full queue, or which run too long, commit nothing, and their waybills return
ahead of the head (R448 step 2). -/
def State.returnStuck (s : State) (p : Nat) : State :=
  ((s.stn.engines.filter (fun e => e.2.part == p && (match e.2.start with | some st => st.heldFull || s.overlong e.2 st | none => false))).map (·.1)).foldl
    (fun (s : State) e => (s.resetEngine e).returnStart e) s

/-- Freeze a partition (R448); its open reckonings close, flagged MOVED (R479). -/
def State.freezePart (s : State) (p : Nat) : State :=
  ((s.updPart p (fun x => { x with frozen := true })).returnStuck p).reckCloseAll p (fun _ => true) flagMoved

/-- A frozen partition has come to rest: no start, no outstanding operation of a steward, no refill group, nothing on its way to its
queues or fences (R448). -/
def State.atRest (s : State) (p : Nat) : Bool :=
  s.stn.engines.all (fun e => e.2.part != p || e.2.start.isNone) &&
  s.svc.stewards.all (fun e => e.2.part != p || s.stewardQuiet e.1) &&
  s.stn.queues.all (fun q => q.2.part != p || q.2.refill == 0) &&
  s.stn.flight.all (fun f => !s.tileQ p f.queue) && s.fen.port.all (fun f => f.part != p)

/-! ## Sending a portmanteau (R444, R445) -/

/-- The named blocks of a partition that lay in a lost region (R441 cause 2). -/
def State.lostRegion (s : State) (r : Nat) : Bool := s.fab.failedHops.any (fun h => h / 256 == r)

def State.slicesLost (s : State) (x : Partition) : Bool := x.blockMap.any (fun e => s.lostRegion (regionOf e.2))

/-- The portmanteau header (R444). -/
def State.portHeader (s : State) (p : Nat) (x : Partition) (gen : Nat) (frozen : Bool) : Nat :=
  plcB 0 2 1 ||| plcF 2 0 x.coded ||| plcF 2 1 frozen ||| plcF 2 2 (frozen && s.slicesLost x) ||| plcB 3 1 gen ||| plcB 4 4 x.stripes |||
  plcB 8 2 x.epoch ||| plcB 10 1 x.resetGen ||| plcB 11 1 p ||| plcB 12 2 s.sys.nodeId ||| plcB 16 8 s.now |||
  plcB 24 8 s.sys.bootNonce.toNat

/-- The carve-out offset at which a run begins. -/
def runStart (coded : Bool) : List (Nat × Nat) → Nat → Nat
  | [], _ => 0
  | _, 0 => 0
  | (_, n) :: l, i + 1 => n * stripeBytes coded + runStart coded l i

/-- The plaintext of a carve-out line: reconstructed where its channel is lost (R235, R451), free where it is poisoned (R239). -/
def State.plainLine (s : State) (dpa : Nat) : List (BitVec 8) :=
  if s.dram.lostDimms.contains (s.dpaChannel dpa) then s.reconstruct dpa
  else if s.poisoned dpa then (List.range 64).map (fun i => Config.freeByte (s.free + dpa + i))
  else s.dramL dpa 64

/-- A sealed page is left behind: the target's attestation shows no join of its SET_ID (R504). -/
def Partition.leftBehind (x : Partition) (node off : Nat) : Bool :=
  x.sealedRanges.any (fun r => decide (r.2.1 ≤ off) && decide (off < r.2.1 + r.2.2) && !Config.joined node (Tab.getD x.sealedSets r.1 0))

/-- The plaintext of the page at a carve-out offset, as a portmanteau to `node` holds it: zeros in place of a page left behind
(DESIGN CHOICE, log entry 34). -/
def State.portPage (s : State) (x : Partition) (node off : Nat) : List (BitVec 8) :=
  match s.dpaOfOff x.coded x.runs off with
  | some d => if x.leftBehind node off then List.replicate 4096 0 else (List.range 64).flatMap (fun i => s.plainLine (d + 64 * i))
  | none => []

/-- The carve-out offsets of a run's pages, in order; of those, the ones `dirty` lists by DPA / 4096. -/
def State.runPages (s : State) (x : Partition) (i : Nat) (r : Nat × Nat) (dirty : Option (List Nat)) : List Nat :=
  match dirty with
  | none => (List.range (r.2 * (stripeBytes x.coded / 4096))).map (fun j => runStart x.coded x.runs i + 4096 * j)
  | some l => sortBy id ((l.filter (fun a => inRun (a * 4096) r)).filterMap (fun a => s.offOfDpa x.coded x.runs (a * 4096)))

/-- The PAGES section of a run (R444): its pages; dirty pages each behind its offset in the carve-out, 8 bytes. -/
def State.pagesSection (s : State) (x : Partition) (node i : Nat) (r : Nat × Nat) (dirty : Option (List Nat)) : Section :=
  { kind := 2, index := i, data := (s.runPages x i r dirty).flatMap (fun a => (if dirty.isSome then bytesOf 8 a else []) ++ s.portPage x node a) }

/-- The SLICES section of a named block (R444). -/
def State.slicesSection (s : State) (x : Partition) (n : Nat) : Section :=
  { kind := 3, index := n, data := s.sliceRead (Tab.getD x.blockMap n n) 0 25165824 }

/-- A section whose layout the spec does not give: one chunk of free bytes (DESIGN CHOICE, log entry 34). -/
def State.openSection (s : State) (kind : Nat) : Section :=
  { kind := kind, index := 0, data := (List.range 3968).map (fun i => Config.freeByte (s.free + kind * 4096 + i)) }

/-- The sections of one portmanteau before END, in table order (R444). -/
def State.portSections (s : State) (o : Outgoing) (x : Partition) (dirty : Option (List Nat)) (frozen : Bool) : List Section :=
  ({ kind := 0, index := 0, data := bytesOf 64 (s.portHeader o.part x o.gen frozen) } : Section) :: (if frozen then [s.openSection 1] else []) ++
  (List.zip (List.range x.runs.length) x.runs).map (fun ir => s.pagesSection x o.node ir.1 ir.2 dirty) ++
  (if frozen then ((x.blockMap.filter (fun e => !s.lostRegion (regionOf e.2))).map (·.1)).map (s.slicesSection x) ++ [s.openSection 4, s.openSection 5] else [])

/-- Send one portmanteau as PortmanteauChunks of its transfer, over the ports of its message (R442, R445). -/
def State.sendSections (s : State) (o : Outgoing) (dirty : Option (List Nat)) (frozen : Bool) : State :=
  match s.part? o.part with
  | none => s
  | some x => { s.sendTransfer o.node o.transfer (s.portSections o x dirty frozen) with free := s.free + 1 }

/-- Whether a withdrawal cause permits evacuation (R441). -/
def evacuable (cause : Nat) : Bool := decide (cause ≤ 6)

/-- The partition can be saved (R441): by every cause that has passed to device level, and by the loss of several DIMMs of a region
(R451). -/
def State.canSave (s : State) (x : Partition) : Bool :=
  s.sys.devFaults.all evacuable &&
  x.runs.all (fun r =>
    let reg := s.dpaRegion r.1
    let lost := (s.dram.lostDimms.filter (fun ch => ch / 8 == reg)).length
    !s.lostRegion reg && (lost == 0 || (lost == 1 && x.coded)))

/-- A partition is abandoned: whoever asked for its evacuation is told (R443). -/
def State.abandonPart (s : State) (p : Nat) : State :=
  let refs := (s.fail.out.filter (fun o => o.part == p)).filterMap (·.ref)
  let s1 := { s with fail := { s.fail with status := Tab.put s.fail.status p 2, out := s.fail.out.filter (fun o => o.part != p) } }
  refs.foldl (fun (s : State) m => s.answerMsg m (.refused .inUse p)) s1

/-- Every save whose partition is frozen and at rest is sent in full, or as its last dirty pages with every other section (R442, R449). A
partition that a second loss of a DIMM has made impossible to save is abandoned (R451). -/
def State.sendSaves (s : State) : State :=
  s.fail.out.foldl (fun (s : State) o =>
    if s.fail.withdraw.isSome && !o.saved && (s.part? o.part).any (fun x => !s.canSave x) then s.abandonPart o.part else
    let s0 := if o.frozen && !o.saved then s.returnStuck o.part else s
    if o.frozen && !o.saved && s0.atRest o.part then
      let dirty := if o.migrate then some (Tab.getD s0.dram.dirty o.part []) else none
      let s1 := s0.sendSections o dirty true
      { s1 with fail := { s1.fail with out := s1.fail.out.map (fun q => if q = o then { o with saved := true } else q) }, dram := { s1.dram with dirty := Tab.del s1.dram.dirty o.part } }
    else s0) s

/-! ## WITHDRAWAL (R441, R442) -/

/-- The ports that WithdrawNotice goes out on: every ACTIVE port, and H0 (R442). -/
def State.noticePorts (s : State) : List Nat := (List.range 14).filter (fun n => n == 12 || (s.port n).state == .active)

/-- WithdrawNotice goes out (R438, R442 step 1). -/
def State.sendNotice (s : State) (cause : Nat) : State :=
  let l := [cause, if evacuable cause then 1 else 0, s.sys.devUnits.headD 0, s.now]
  s.noticePorts.foldl (fun (s : State) n => s.emitOut (.link n 0x0D (0x0402 :: l))) (s.emitOut (.msg .fabricManager 0x0402 l))

/-- WithdrawNotice goes out, every partition receives DEVICE_EVENT and is frozen (R442 steps 1 and 2). -/
def State.withdrawFor (s : State) (cause : Nat) : State :=
  let w : Withdraw := { cause := cause, evacuable := evacuable cause, noticed := s.now }
  let s1 := ({ s with fail := { s.fail with withdraw := some w } }).sendNotice cause
  let ps := Tab.keys s1.part.parts
  let s2 := ps.foldl (fun (s : State) p => (s.event 0x0014 p 0 false 0 0xFFFF 0).updPart p (fun x => { x with evacuating := true })) s1
  let s3 := ps.foldl (fun (s : State) p => s.freezePart p) s2
  if evacuable cause then s3 else ps.foldl (fun (s : State) p => s.abandonPart p) s3

/-- WITHDRAWAL: a fault that no spare, mirror or code hides turns into a withdrawal of the device (R441, R442). -/
def execWithdrawal (s : State) : Outc :=
  .next (
    match s.fail.withdraw, s.sys.devFaults with
    | none, c :: _ => s.withdrawFor c
    | _, _ => s)

/-! ## EVACUATE_TO (R442, R443) -/

/-- Fabric ports named by PORTS. -/
def portsOf (mask : Nat) : List Nat := (List.range 12).filter (fun n => tbit mask n)

/-- The checks that EvacuateTo and MigrateStart share. -/
def State.moveChecks (s : State) (r : Nat) : Option Ans :=
  if bodyRsvd r [(0, 7, 0), (1, 7, 0), (2, 15, 0), (4, 11, 0)] then some (.refused .rsvdSet 0)
  else if !s.livePart (fldB r 0 1) || 60 < fldB r 1 1 || (fldB r 2 2 != 0xFFFF && fldB r 1 1 == 0) then some (.refused .badId 0)
  else if (portsOf (fldB r 4 2)).any (fun n => !s.portPresent n) then some (.refused .unitAbsent 0)
  else if s.fail.out.any (fun o => o.part == fldB r 0 1) then some (.busy .moveInProgress 0)
  else none

/-- What a save of a partition is, as its message asks. -/
def State.newOutgoing (s : State) (r : Nat) (migrate frozen : Bool) (ref : Option MsgRef) (bits : List (Nat × Nat)) : Outgoing :=
  { part := fldB r 0 1, node := fldB r 2 2, targetPart := fldB r 1 1, ports := fldB r 4 2, transfer := s.ses.nextTransfer, migrate := migrate, gen := 0, frozen := frozen, saved := false, ref := ref, bitmap := bits }

def State.addOutgoing (s : State) (o : Outgoing) : State :=
  { s with fail := { s.fail with out := s.fail.out ++ [o] }, ses := { s.ses with nextTransfer := s.ses.nextTransfer + 1 } }

/-- EvacuateTo: the partition is saved and sent, and success is answered when PortmanteauRestored arrives; a partition that cannot be
saved, or whose target is none, is abandoned (R442, R443). -/
def evacuateBody (m : MsgRef) (r : Nat) (s : State) : MsgRes :=
  let p := fldB r 0 1
  match s.moveChecks r, s.part? p with
  | some a, _ => (s, some a)
  | none, none => refuseM s .badId
  | none, some x =>
    if Tab.getD s.fail.status p 0 = 2 then (s, some (.refused .inUse p))
    else if fldB r 2 2 = 0xFFFF ∨ s.canSave x = false then (s.abandonPart p, some (.refused .inUse p))
    else if portsOf (fldB r 4 2) = [] then refuseM s .badParam
    else
      let s1 := (if x.frozen then s else s.freezePart p).updPart p (fun x => { x with evacuating := true })
      ((s1.addOutgoing (s1.newOutgoing r false true (some m) [])).sendSaves, none)

/-- EVACUATE_TO. -/
def execEvacuateTo (m : MsgRef) (body : BitVec 64) (s : State) : Outc :=
  .next (runPlain s m 3 (fldB body.toNat 0 1) (evacuateBody m body.toNat))

/-! ## MIGRATE_START, MIGRATE_GENERATION_DONE, MIGRATE_CANCEL (R449) -/

/-- Stripes of a dirty bitmap: one bit for each carve-out page. -/
def bitmapStripes (x : Partition) : Nat := cdiv (cdiv (usableBytes x / 4096) 8) 32768

/-- R449: NO_STRIPES when the free stripes of its regions cannot hold the dirty bitmap; generation 0 sends every page. -/
def migrateStartBody (r : Nat) (s : State) : MsgRes :=
  let p := fldB r 0 1
  match s.moveChecks r, s.part? p with
  | some a, _ => (s, some a)
  | none, none => refuseM s .badId
  | none, some x =>
    if fldB r 2 2 = 0xFFFF ∨ portsOf (fldB r 4 2) = [] then refuseM s .badParam
    else if runStripes (s.allot x.regions (bitmapStripes x)) < bitmapStripes x then refuseM s .noStripes
    else
      let o := s.newOutgoing r true false none (s.allot x.regions (bitmapStripes x))
      let s1 := { s.addOutgoing o with dram := { s.dram with dirty := Tab.put s.dram.dirty p [] } }
      okM (s1.sendSections o none false) o.transfer

/-- MIGRATE_START. -/
def execMigrateStart (m : MsgRef) (body : BitVec 64) (s : State) : Outc :=
  .next (runPlain s m 3 (fldB body.toNat 0 1) (migrateStartBody body.toNat))

def State.setOut (s : State) (o o' : Outgoing) : State :=
  { s with fail := { s.fail with out := s.fail.out.map (fun q => if q = o then o' else q) } }

/-- MIGRATE_GENERATION_DONE: a pre-copy generation has been sent. The next sends the pages dirtied since it began; when those are at most
MIGRATE_STOP_PAGES, or after generation 8, the partition is frozen and the final copy follows (R449). -/
def execMigrateGenerationDone (p : Nat) (s : State) : Outc :=
  .next (
    match s.fail.out.find? (fun o => o.part == p && o.migrate && !o.frozen) with
    | none => s
    | some o =>
      let dirty := Tab.getD s.dram.dirty p []
      if dirty.length ≤ s.zh 104 ∨ 8 ≤ o.gen then ((s.freezePart p).setOut o { o with frozen := true }).sendSaves
      else
        let o1 := { o with gen := o.gen + 1 }
        let s1 := { s.setOut o o1 with dram := { s.dram with dirty := Tab.put s.dram.dirty p [] } }
        s1.sendSections o1 (some dirty) false)

/-- R449: before the freeze the pre-copy ends; after it, MOVE_IN_PROGRESS. -/
def migrateCancelBody (r : Nat) (s : State) : MsgRes :=
  let p := fldB r 0 1
  if bodyRsvd r [(0, 7, 0)] then refuseM s .rsvdSet
  else
    match s.fail.out.find? (fun o => o.part == p && o.migrate) with
    | none => refuseM s .badId
    | some o =>
      if o.frozen then busyM s .moveInProgress
      else okM { s with fail := { s.fail with out := s.fail.out.filter (· != o) }, dram := { s.dram with dirty := Tab.del s.dram.dirty p } } 0

/-- MIGRATE_CANCEL. -/
def execMigrateCancel (m : MsgRef) (body : BitVec 64) (s : State) : Outc :=
  .next (runPlain s m 3 (fldB body.toNat 0 1) (migrateCancelBody body.toNat))

/-! ## PORTMANTEAU_RESTORED (R442, R449) -/

/-- A migrated partition is destroyed at its source (R342, R449): its blocks are released and wiped, its engines, stewards and queue
pairs leave, its contexts are revoked, its keys erased and its carve-out wiped. -/
def State.destroyMigrated (s : State) (p : Nat) : State :=
  let bs := s.boundBlocks p
  let es := (s.stn.engines.filter (fun e => e.2.part == p)).map (·.1)
  let s1 := es.foldl (fun (s : State) e => (s.resetEngine e).delEngine e) s
  let s2 := bs.foldl (fun (s : State) b => (s.setDisp b { s.disp b with slots := [], ringUse := [] }).updBlock b (fun x => { x with bound := none, wipe := some .release })) s1
  let s3 := { s2 with svc := { s2.svc with stewards := s2.svc.stewards.filter (fun e => e.2.part != p) }, part := { s2.part with qpairs := s2.part.qpairs.filter (fun e => e.2.part != p) } }
  let cs := (s3.host.contexts.filter (fun e => e.1 / 4096 == p && e.2.live)).map (fun e => e.1 % 4096)
  let s4 := cs.foldl (fun (s : State) c => s.revokeContext p c none true) s3
  let s5 := (s4.dropXlate p).updPart p (fun y => { y with chShare := [], portShare := [], blockMap := [], destroying := some { session := 0, corr := 0, msg := 0 } })
  bs.foldl (fun (s : State) b => { s with xlt := { s.xlt with btus := Tab.del s.xlt.btus b } }) (s5.endCarveOut p)

/-- PORTMANTEAU_RESTORED: the target has restored the partition: it counts as evacuated, or is migrated and destroyed here (R442,
R449). -/
def execPortmanteauRestored (m : MsgRef) (node : Nat) (body : BitVec 64) (s : State) : Outc :=
  .next (runPlain s m 3 0 (fun s =>
    let r := body.toNat
    let p := fldB r 0 1
    if bodyRsvd r [(0, 7, 0), (4, 31, 0)] then refuseM s .rsvdSet
    else
      match s.fail.out.find? (fun o => o.part == p && o.transfer == fldB r 4 4 && o.node == node && o.saved) with
      | none => refuseM s .badId
      | some o =>
        let s1 := { s with fail := { s.fail with out := s.fail.out.filter (· != o) } }
        if o.migrate then okM ((s1.emitOut (.msg .fabricManager 0x040D [p, o.transfer])).destroyMigrated p) 0
        else
          let s2 := { s1 with fail := { s1.fail with status := Tab.put s1.fail.status p 1 } }
          okM (match o.ref with | some q => s2.answerMsg q (.ok 0) | none => s2) 0))

/-- EVAC_LIMIT_EXPIRE: EVAC_LIMIT_S seconds after the WithdrawNotice, partitions not evacuated are abandoned (R443). -/
def execEvacLimitExpire (s : State) : Outc :=
  .next (
    match s.fail.withdraw with
    | none => s
    | some w =>
      if s.now < w.noticed + s.zh 100 * 1000000 then s
      else ((Tab.keys s.part.parts).filter (fun p => !Tab.has s.fail.status p)).foldl (fun (s : State) p => s.abandonPart p) s)

/-- Every block loses power. -/
def State.powerOffBlocks (s : State) : State :=
  { s with fab := { s.fab with blocks := Tab.all s.fab.blocks (fun _ b => { b with powered := false }) } }

/-- Every switched domain powers down; AON and H0.0 at the doze rate stay (R442, R524). -/
def State.switchedOff (s : State) : State := s.powerOffBlocks.portsToDoze

/-- WITHDRAWN: every partition is evacuated or abandoned: every reckoning closes, the epoch is sealed, signed and delivered, the switched domains power
down, ALERT_N asserts (low), and STATE becomes WITHDRAWN (R442 step 5, R489). -/
def execWithdrawn (s : State) : Outc :=
  .next (
    match s.fail.withdraw with
    | none => s
    | some _ =>
      if s.sys.state = .withdrawn || (Tab.keys s.part.parts).any (fun p => !Tab.has s.fail.status p) then s
      else
        let s1 := (Tab.keys s.part.parts).foldl (fun (s : State) p =>
          s.reckCloseAll p (fun _ => true) (if Tab.getD s.fail.status p 0 = 1 then flagMoved else flagAbandoned)) s
        let s2 := s1.closeWindow.epochClose.signAll.switchedOff
        ({ s2 with sys := { s2.sys with state := .withdrawn } } : State).drive s)

/-! ## PORTMANTEAU_CHUNK (R445, R446) -/

/-- The transfer being received from a node, or a fresh one. -/
def State.incoming (s : State) (node transfer : Nat) : Incoming :=
  (s.fail.inc.find? (fun i => i.node == node && i.transfer == transfer)).getD { node := node, transfer := transfer, chunks := [], gens := [], final := none }

def State.setIncoming (s : State) (i : Incoming) : State :=
  { s with fail := { s.fail with inc := s.fail.inc.filter (fun j => !(j.node == i.node && j.transfer == i.transfer)) ++ [i] } }

def State.dropIncoming (s : State) (node transfer : Nat) : State :=
  { s with fail := { s.fail with inc := s.fail.inc.filter (fun j => !(j.node == node && j.transfer == transfer)) } }

/-- The header a portmanteau's chunks begin with (R444). -/
def chunkHeader (t : Tab Chunk) : Nat := match Tab.find t 0 with | some c => ofBytes (c.data.take 64) | none => 0

/-- PORTMANTEAU_CHUNK: a chunk arrives, with its 64-byte header and its decrypted data; `tagOk` says that its GCM tag verifies, `endOk`
that an END section matches the tags received. A bad tag is answered BAD_TAG; an END that does not match rejects the whole transfer
(R446), and is answered BAD_TAG too (DESIGN CHOICE, log entry 34). A whole pre-copy generation is kept; a whole final copy is ready to restore. -/
def execPortmanteauChunk (m : MsgRef) (node : Nat) (header : BitVec 512) (data : List (BitVec 8)) (tagOk endOk : Bool) (s : State) : Outc :=
  .next (runPlain s m 3 0 (fun s =>
    let h := header.toNat
    let tr := fldB h 0 4
    if !tagOk then refuseM s .badTag
    else if rsvdSet h (maskOf [(0, 31, 0), (4, 31, 0), (8, 7, 0), (9, 0, 0), (10, 15, 0), (16, 127, 0)]) then refuseM s .rsvdSet
    else
      let i := s.incoming node tr
      let c : Chunk := { kind := fldB h 8 1, index := fldB h 10 2, last := bit h 9 0, data := data.take 3968 }
      let chunks := Tab.put i.chunks (fldB h 4 4) c
      if c.kind ≠ 6 then okM (s.setIncoming { i with chunks := chunks }) 0
      else if !endOk then refuseM (s.dropIncoming node tr) .badTag
      else if bit (chunkHeader chunks) 2 1 then okM (s.setIncoming { i with chunks := [], final := some chunks }) 0
      else okM (s.setIncoming { i with chunks := [], gens := i.gens ++ [chunks] }) 0))

/-! ## PORTMANTEAU_RESTORE (R447) -/

/-- The bytes of a section: its chunks in order (R445). -/
def sectionBytes (t : Tab Chunk) (kind index : Nat) : List (BitVec 8) :=
  ((Tab.vals t).filter (fun c => c.kind == kind && c.index == index)).flatMap (·.data)

/-- Indices of a section kind that the chunks hold. -/
def sectionIndices (t : Tab Chunk) (kind : Nat) : List Nat := dedupN (((Tab.vals t).filter (fun c => c.kind == kind)).map (·.index))

/-- Pages each preceded by its offset in the carve-out (8 bytes), as generations after the first send them (R444). -/
def State.loadDirty (s : State) (x : Partition) : (fuel : Nat) → List (BitVec 8) → State
  | 0, _ => s
  | f + 1, l => if l.isEmpty then s else State.loadDirty (s.carveWrite x (ofBytes (l.take 8)) ((l.drop 8).take 4096) 65) x f (l.drop 4104)

/-- Load the PAGES sections of one portmanteau into a carve-out. `full` says that a run's pages come in offset order. -/
def State.loadPages (s : State) (x : Partition) (t : Tab Chunk) (full : Bool) : State :=
  (sectionIndices t 2).foldl (fun (s : State) i =>
    let l := sectionBytes t 2 i
    if full then s.carveWrite x (runStart x.coded x.runs i) l (l.length / 64 + 2) else s.loadDirty x (l.length / 4104 + 1) l) s

/-- Load every pre-copy generation, oldest first. -/
def State.loadGens (s : State) (x : Partition) (gens : List (Tab Chunk)) : State :=
  gens.foldl (fun (s : State) t => s.loadPages x t (fldB (chunkHeader t) 3 1 == 0)) s

/-- Physical numbers at the target of engines and cells numbered in named blocks, and of a region's fixed units. -/
def PartImage.toPhys (im : PartImage) (x : Partition) (e : Nat) : Nat :=
  let ph (n : Nat) : Nat := Tab.getD x.blockMap n n
  match engClass e with
  | 1 => 0x1000 + ph (engNum e / 20) * 20 + engNum e % 20
  | 2 => 0x2000 + ph (engNum e / 4) * 4 + engNum e % 4
  | 5 => e
  | _ =>
    match im.blocks.find? (fun b => b.2 == engNum e / 4) with
    | some b => engClass e * 4096 + regionOf (ph b.1) * 4 + engNum e % 4
    | none => e

def PartImage.cellPhys (x : Partition) (c : Nat) : Nat := Tab.getD x.blockMap (c / 20) (c / 20) * 20 + c % 20

/-- What the manifest names is here, and free (R447): its named blocks are bound, those that share a region at the source share one
here, and its device-wide IDs are unused. -/
def State.restoreBad (s : State) (x : Partition) (h : Nat) (im : PartImage) : Option Code :=
  if (im.stations.any (fun t => t.2.kind == 8) && !s.sys.variantT) || im.qpairs.any (fun q => !s.portPresent q.2.port) then some .unitAbsent
  else if fldB h 4 4 != x.stripes || bit h 2 0 != x.coded then some .badParam
  else if im.blocks.any (fun b => (Tab.find x.blockMap b.1).isNone) then some .badParam
  else if im.blocks.any (fun a => im.blocks.any (fun b => a.2 == b.2 &&
      regionOf (Tab.getD x.blockMap a.1 0) != regionOf (Tab.getD x.blockMap b.1 0))) then some .badParam
  else if (Tab.keys im.rings ++ Tab.keys im.queues ++ Tab.keys im.qpairs).any s.queueUsed || (Tab.keys im.fences).any (fun f => Tab.has s.fen.fences f) ||
      (Tab.keys im.sessions).any (fun k => Tab.has s.ses.sessions k) then some .inUse
  else none

/-- Put every entry of a table into another under a changed key. -/
def Tab.merge {α : Type} (t u : Tab α) (f : Nat → Nat) : Tab α := u.foldl (fun acc e => Tab.put acc (f e.1) e.2) t

/-- The manifest, units and state take their places in the target partition (R447): keys and numbers become this module's. -/
def State.loadImage (s : State) (p : Nat) (x : Partition) (im : PartImage) : State :=
  let fe := im.toPhys x
  let fc := PartImage.cellPhys x
  let stations := Tab.all im.stations (fun _ t => { t with engines := t.engines.map fe, starts := [], unbinds := [] })
  let queues := Tab.all im.queues (fun _ q => { q with part := p, consumer := match q.consumer with | .steward c i => .steward (fc c) i | c => c })
  let s1 := { s with
    host := { s.host with contexts := Tab.merge s.host.contexts im.contexts (ctxKey p), objects := Tab.merge s.host.objects (Tab.all im.objects (fun _ o => { o with part := p })) (fun i => p * 65536 + i), rings := Tab.merge s.host.rings (Tab.all im.rings (fun _ r => { r with part := p })) id },
    fen := { s.fen with fences := Tab.merge s.fen.fences (Tab.all im.fences (fun _ f => { f with part := p })) id },
    stn := { s.stn with stations := Tab.merge s.stn.stations stations (stnKey p), queues := Tab.merge s.stn.queues queues id, engines := Tab.merge s.stn.engines (Tab.all im.engines (fun _ e => { e with part := p, start := none })) fe },
    fab := { s.fab with caravans := Tab.merge s.fab.caravans (Tab.all im.caravans (fun _ c => { c with part := p, inFlight := 0 })) (fun i => p * 256 + i) },
    xlt := { s.xlt with out := Tab.merge s.xlt.out im.windows (fun i => p * 256 + i) },
    svc := { s.svc with plans := Tab.merge s.svc.plans (Tab.all im.plans (fun _ y => { y with stewardCell := fc y.stewardCell, steps := [] })) (fun i => p * 16 + i), stewards := Tab.merge s.svc.stewards (Tab.all im.stewards (fun _ t => { t with part := p })) fc },
    cell := { s.cell with s := Tab.merge s.cell.s (Tab.all im.cells (fun _ y => { y with store := Memory.canon y.store, local' := Memory.canon y.local' })) fc },
    ses := { s.ses with sessions := Tab.merge s.ses.sessions (Tab.all im.sessions (fun _ y => { y with part := p, plan := p * 16 + y.plan % 16 })) id },
    part := { s.part with qpairs := Tab.merge s.part.qpairs (Tab.all im.qpairs (fun _ q => { q with part := p })) id },
    unit := { s.unit with disp := Tab.merge s.unit.disp im.disp fe, comb := Tab.merge s.unit.comb im.comb fe } }
  let s2 := stations.foldl (fun (s : State) t =>
    match t.2.anchor with
    | none => s
    | some (n, slot) => let b := Tab.getD x.blockMap n n; s.setDisp b { s.disp b with slots := Tab.put (s.disp b).slots slot (stnKey p t.1) }) s1
  queues.foldl (fun (s : State) q =>
    match q.2.placed with
    | none => s
    | some (n, line) => let b := Tab.getD x.blockMap n n; s.setDisp b { s.disp b with ringUse := (s.disp b).ringUse ++ [(line - ringLine 0, 2 ^ q.2.hotLog2)] }) s2

/-- The SLICES sections (R444): every named block's bytes. -/
def State.loadSlices (s : State) (x : Partition) (t : Tab Chunk) : State :=
  (sectionIndices t 3).foldl (fun (s : State) n =>
    let b := Tab.getD x.blockMap n n
    { s with fab := { s.fab with slices := Memory.writeL (Memory.wipe s.fab.slices (sliceKey b 0) (2 ^ 25)) (sliceKey b 0) (sectionBytes t 3 n) } }) s

/-- PORTMANTEAU_RESTORE: the final copy of a transfer is whole: it is loaded into the target partition in section order, E and RESET_GEN
take the saved values, reckonings closed MOVED open again flagged CONTINUED, PortmanteauRestored goes to the source, and dispatch
resumes (R447, R479, R504). The command gives what the MANIFEST, UNITS and STATE sections say. A target that does not fit answers the
message that brought END and discards the transfer. -/
def execPortmanteauRestore (m : MsgRef) (node transfer target : Nat) (image : PartImage) (s : State) : Outc :=
  .next (
    let i := s.incoming node transfer
    match i.final, s.part? target with
    | some t, some x =>
      let h := chunkHeader t
      match s.restoreBad x h image with
      | some c => (s.dropIncoming node transfer).answerMsg m (.refused c 0)
      | none =>
        let s1 := ((s.loadGens x i.gens).loadPages x t (i.gens.isEmpty)).loadSlices x t
        let s2 := s1.loadImage target x image
        let s3 := s2.updPart target (fun y => { y with epoch := fldB h 8 2, resetGen := fldB h 10 1, frozen := false, evacuating := false, sealedRanges := if image.sealedLost then [] else image.sealedRanges, sealedSets := if image.sealedLost then [] else image.sealedSets })
        let s4 := { s3 with part := { s3.part with blockEpoch := (Tab.vals x.blockMap).foldl (fun (b : Tab Nat) k => Tab.put b (target * 64 + k) (fldB h 8 2)) s3.part.blockEpoch } }
        let s5 := image.reckonings.foldl (fun (s : State) r => s.reckOpen target r.1 r.2.1 r.2.2 flagContinued) s4
        let s6 := if image.sealedLost then s5.event 0x001C target 0 false 0 0xFFFF 0 else s5
        let s7 := (s6.dropIncoming node transfer).emitOut (.msg (.node node) 0x0408 [fldB h 11 1, transfer])
        if bit h 2 2 then s7.partReset target 1 else s7
    | _, _ => s)

/-! ## PORTMANTEAU_ADOPT (R450) -/

/-- R450: the last completed generation becomes live, its PAGES only, flagged stale in the partition's first event. -/
def portmanteauAdoptBody (r : Nat) (s : State) : MsgRes :=
  let p := fldB r 0 1
  if bodyRsvd r [(0, 7, 0), (4, 31, 0)] then refuseM s .rsvdSet
  else if !s.livePart p then refuseM s .badId
  else
    match s.fail.inc.find? (fun i => i.transfer == fldB r 4 4), s.part? p with
    | some i, some x =>
      match i.gens with
      | [] => refuseM s .badId
      | t :: _ =>
        let h := chunkHeader t
        if fldB h 4 4 ≠ x.stripes ∨ bit h 2 0 ≠ x.coded then refuseM s .badParam
        else okM (((s.loadGens x i.gens).dropIncoming i.node i.transfer).event 0x0014 p 0 false 0 0xFFFF (plcF 0 0 true)) 0
    | _, _ => refuseM s .badId

/-- PORTMANTEAU_ADOPT. -/
def execPortmanteauAdopt (m : MsgRef) (body : BitVec 64) (s : State) : Outc :=
  .next (runPlain s m 3 (fldB body.toNat 0 1) (portmanteauAdoptBody body.toNat))

end Sys2Proof.Machine
end

