-- ==== Sys2Proof/Machine/Power.lean ====
section
/-! DEFINITION. Sys2Proof/Machine/Power.lean: operating points, the module cap, partition budgets, hints, droop and power emergencies
(17_power_control R452-R469, and R470's samples). -/

namespace Sys2Proof.Machine

/-! ## Operating points (R454, R455) -/

/-- The offset of a block island's margin plan at a frequency, in mV (R454, R529). -/
def State.offsetMv (s : State) (b f : Nat) : Int :=
  match Tab.find s.age.islands b with
  | some x => x.offsets.getD ((f - 400) / 25) 0
  | none => 0

/-- V(f) plus the island's offset, in 1/96 mV (R454). -/
def State.opVolt (s : State) (b f : Nat) : Int := 57600 + ((f : Int) - 400) * 40 + 96 * s.offsetMv b f

/-- Blocks of a station: those its engines lie in. -/
def Station.blocks (t : Station) : List Nat := dedupN (t.engines.filterMap engBlock)

/-- Blocks of the station a key names. -/
def State.keyBlocks (s : State) (k : Nat) : List Nat :=
  match Tab.find s.stn.stations k with
  | some t => t.blocks
  | none => []

/-- A block's profile of a station: mean energy in nJ and mean time in ns of one start (R460). -/
def State.profileOf (s : State) (b k : Nat) : Nat × Nat := Tab.getD s.pow.profile (b * 2 ^ 22 + k) (0, 0)

/-- A HEAVY waybill's phase lasts the profiled start time from its enqueue (R463). -/
def State.heavyRuns (s : State) (h : Nat × Nat × Nat) : Bool := decide (s.now < h.2.2 + cdiv (s.profileOf h.1 h.2.1).2 1000)

/-- The guard voltage of a HEAVY phase stands on the block (R463), in 1/96 mV. -/
def State.guardVolt (s : State) (b : Nat) : Int :=
  if s.pow.hints.any (fun e => e.2.heavy && e.2.begun && (s.keyBlocks e.1).contains b) ||
      s.stn.heavy.any (fun h => s.heavyRuns h && (s.keyBlocks h.2.1).contains b) then 96 * (s.zh 78 : Int) else 0

/-- The voltage a block needs at a frequency. -/
def State.voltAt (s : State) (b f : Nat) : Int := s.opVolt b f + s.guardVolt b

/-- The voltage of a block. -/
def State.volt (s : State) (b : Nat) : Int := Tab.getD s.pow.volts b (s.opVolt b (s.block b).mhz)

def State.setVolt (s : State) (b : Nat) (v : Int) : State := { s with pow := { s.pow with volts := Tab.put s.pow.volts b v } }

/-- The frequency falls first, and the voltage follows (R455). -/
def State.fallTo (s : State) (b f : Nat) : State :=
  let s1 := s.updBlock b (fun x => { x with mhz := f })
  { s1.setVolt b (s1.voltAt b f) with pow := { (s1.setVolt b (s1.voltAt b f)).pow with lead := Tab.del s.pow.lead b } }

/-- Every powered block above its ceiling falls to it at once (R457, R465, R467). -/
def State.applyCeilings (s : State) : State :=
  (Tab.keys s.fab.blocks).foldl (fun (s : State) b =>
    if (s.block b).powered && decide (s.ceiling b < (s.block b).mhz) then s.fallTo b (s.ceiling b) else s) s

/-- The frequency a block should run at: the planned one, lowered by its budget and by emergencies (R454, R460, R467). -/
def State.targetMhz (s : State) (b : Nat) : Nat :=
  min (min (s.block b).plannedMhz (Tab.getD s.pow.chosen b 1000)) (s.ceiling b)

/-- OPERATING_POINT_CHANGE: a fall takes effect at once; a rise raises the voltage, and the frequency changes 5 µs later (R455). -/
def execOperatingPointChange (b : Nat) (s : State) : Outc :=
  .next (
    let f := s.targetMhz b
    let now := (s.block b).mhz
    if !(s.block b).powered then s
    else if f < now then s.fallTo b f
    else if f = now then s.setVolt b (s.voltAt b f)
    else
      match Tab.find s.pow.lead b with
      | some t =>
        if s.volt b < s.voltAt b f then { s.setVolt b (s.voltAt b f) with pow := { (s.setVolt b (s.voltAt b f)).pow with lead := Tab.put s.pow.lead b s.now } }
        else if s.now < t + 5 then s
        else
          let s1 := s.updBlock b (fun x => { x with mhz := f })
          { s1 with pow := { s1.pow with lead := Tab.del s1.pow.lead b } }
      | none => { s.setVolt b (s.voltAt b f) with pow := { (s.setVolt b (s.voltAt b f)).pow with lead := Tab.put s.pow.lead b s.now } })

/-! ## METER_SAMPLE (R457, R465, R470) -/

/-- METER_SAMPLE: a sample of input voltage and current, 10 µs after the last: its energy joins the window's, and its power the rolling
mean and the counts of the emergencies. -/
def execMeterSample (mv ma : Nat) (s : State) : Outc :=
  .next (
    if !s.boot.aon then s
    else
      let mw := mv * ma / 1000
      let past := decide (78000 < ma) || decide (3600000 < mw)
      { s with
        reck := { s.reck with acc := s.reck.acc + mv * ma / 100, samples := s.reck.samples + 1 },
        boot := { s.boot with mv := mv, ma := ma },
        pow := { s.pow with recent := (mw :: s.pow.recent).take 1000, above := if s.sys.capW * 1000 < mw then s.pow.above + 1 else 0, past := if past then s.pow.past + 1 else 0, under := if past then 0 else s.pow.under + 1 } })

/-! ## Emergencies (R457, R465-R467) -/

/-- The 10 ms rolling mean exceeds a power in mW: it needs 1,000 samples. -/
def PowUnit.meanAbove (w : PowUnit) (mw : Nat) : Bool := w.recent.length == 1000 && decide (mw * 1000 < sumN w.recent)

/-- The 10 ms rolling mean is below a power in µW. -/
def PowUnit.meanBelow (w : PowUnit) (uw : Nat) : Bool := w.recent.length == 1000 && decide (sumN w.recent < uw)

/-- An emergency begins: DEVICE_EVENT to every partition, POWER_EMERGENCY to the operator, and an entry in the fault log (R465). A quiet
window is abandoned, and another idle window is sought (R535). -/
def State.emergency (s s0 : State) (cause : Nat) : State :=
  let s1 := (Tab.keys s.part.parts).foldl (fun (s : State) p => s.event 0x0014 p 0 false 0 0xFFFF 0) s
  let s2 := (s1.opEvent 0x0019 0 0 cause).logFault 0x0019 0 0 cause
  ({ s2 with age := { s2.age with islands := Tab.all s2.age.islands (fun _ x => { x with quiet := none }) } } : State).drive s0

/-- CAP_EMERGENCY: input power has stayed above the cap for 10 ms, or the rolling mean exceeds it (R457). -/
def execCapEmergency (s : State) : Outc :=
  .next (
    if !s.pow.cap.on && (decide (1000 ≤ s.pow.above) || s.pow.meanAbove (s.sys.capW * 1000)) then
      ({ s with pow := { s.pow with cap := { s.pow.cap with on := true, moved := s.now } } } : State).emergency s 1
    else s)

/-- A ceiling a step lower or higher, when its time has come: 25 MHz every 100 µs downwards, every 1 ms upwards (R457, R465). -/
def Ceil.move (c : Ceil) (now : Nat) : Ceil :=
  if c.on then
    (if c.moved + 100 ≤ now then { c with mhz := max 400 (c.mhz - 25), moved := now } else c)
  else if c.mhz < 1000 && decide (c.moved + 1000 ≤ now) then { c with mhz := min 1000 (c.mhz + 25), moved := now }
  else c

/-- CEILING_STEP: the ceilings of an emergency move by 25 MHz: cause 1, 2 or 3. -/
def execCeilingStep (cause : Nat) (s : State) : Outc :=
  .next (
    let w := s.pow
    match cause with
    | 1 => ({ s with pow := { w with cap := w.cap.move s.now } } : State).applyCeilings
    | 2 =>
      if !w.overOn && decide (w.overMoved + 1000 ≤ s.now) then
        { s with pow := { w with overCeil := (Tab.all w.overCeil (fun _ f => f + 25)).filter (fun e => decide (e.2 < 1000)), overMoved := s.now } }
      else s
    | 3 => ({ s with pow := { w with therm := w.therm.move s.now } } : State).applyCeilings
    | _ => s)

/-- OVERCURRENT: two samples in a row above 78 A or 3,600 W put every block at half its frequency, no lower than 400 MHz (R465). -/
def execOvercurrent (s : State) : Outc :=
  .next (
    if s.pow.past < 2 then s
    else
      let half (b : Block) : Nat := max 400 (b.mhz / 2 / 25 * 25)
      let ceil := s.fab.blocks.filterMap (fun e => if e.2.powered then some (e.1, half e.2) else none)
      let s1 := ({ s with pow := { s.pow with overOn := true, past := 0, overCeil := ceil } } : State).applyCeilings
      if s.pow.overOn then s1 else s1.emergency s 2)

/-- THERMAL: a reading of a block's junction sensor, in tenths of a degree: at 95 °C or more the emergency begins; below 92 °C on every
sensor its release is timed (R465). -/
def execThermal (b temp : Nat) (s : State) : Outc :=
  .next (
    let temps := Tab.put s.pow.temps b temp
    let cool := temps.all (fun e => decide (e.2 < 920))
    let s1 : State := { s with pow := { s.pow with temps := temps, coolAt := if cool then some (s.pow.coolAt.getD s.now) else none } }
    if 950 ≤ temp ∧ !s.pow.therm.on then
      ({ s1 with pow := { s1.pow with therm := { s1.pow.therm with on := true, moved := s.now } } } : State).emergency s 3
    else s1)

/-- DIMM_THERMAL: a reading of a DIMM, in tenths of a degree: above 95 °C every block's ceiling is 600 MHz; below 90 °C on every DIMM the
release is timed (R465). -/
def execDimmThermal (ch temp : Nat) (s : State) : Outc :=
  .next (
    let temps := Tab.put s.pow.dimmTemps ch temp
    let cool := temps.all (fun e => decide (e.2 < 900))
    let s1 : State := { s with pow := { s.pow with dimmTemps := temps, dimmCool := if cool then some (s.pow.dimmCool.getD s.now) else none } }
    if 950 < temp ∧ !s.pow.dimm then
      (({ s1 with pow := { s1.pow with dimm := true } } : State).applyCeilings).emergency s 4
    else s1)

/-- EMERGENCY_RELEASE: the release condition of a cause has held for its period (R457, R465). -/
def execEmergencyRelease (cause : Nat) (s : State) : Outc :=
  .next (
    let w := s.pow
    let since (o : Option Nat) (us : Nat) : Bool := match o with | some t => decide (t + us ≤ s.now) | none => false
    match cause with
    | 1 =>
      if w.cap.on && w.meanBelow (s.sys.capW * 950000) then
        ({ s with pow := { w with cap := { w.cap with on := false, moved := s.now } } } : State).drive s
      else s
    | 2 => if w.overOn && decide (100 ≤ w.under) then ({ s with pow := { w with overOn := false, overMoved := s.now } } : State).drive s else s
    | 3 =>
      if w.therm.on && since w.coolAt 10000 then
        ({ s with pow := { w with therm := { w.therm with on := false, moved := s.now } } } : State).drive s
      else s
    | 4 => if w.dimm && since w.dimmCool 100000 then ({ s with pow := { w with dimm := false } } : State).drive s else s
    | _ => s)

/-- TRIP: a junction at 110 °C: THERM_TRIP_N asserts, every switched domain powers down, Porter sends WithdrawNotice from AON, every
partition is left to its companion, and STATE becomes WITHDRAWN; no epoch is sealed (R442, R465). -/
def execTrip (b temp : Nat) (s : State) : Outc :=
  .next (
    if temp < 1100 ∨ s.pow.tripped then s
    else
      let s1 : State := { s with pow := { s.pow with tripped := true, temps := Tab.put s.pow.temps b temp, coolAt := none }, boot := { s.boot with tripPin := true } }
      let s2 := (s1.emergency s1 5).switchedOff.devFault 8 b
      let s3 := ({ s2 with fail := { s2.fail with withdraw := some { cause := 8, evacuable := false, noticed := s.now } } } : State).emitOut (.msg .operator 0x0402 [8, 0, 0, s.now])
      let s4 := (Tab.keys s3.part.parts).foldl (fun (s : State) p => s.abandonPart p) s3
      ({ s4 with sys := { s4.sys with state := .withdrawn } } : State).drive s)

/-! ## MODULE_CAP (R456) -/

/-- POWER_W of the live partitions. -/
def State.powerSum (s : State) : Nat := sumN (s.part.parts.map (fun e => if e.2.destroying.isNone then e.2.powerW else 0))

def moduleCapBody (r : Nat) (s : State) : MsgRes :=
  let w := fldB r 0 2
  if bodyRsvd r [(0, 15, 0)] then refuseM s .rsvdSet
  else if w < 800 ∨ 3000 < w then (s, some (badParam 0 0))
  else if w < s.powerSum then refuseM s .overcommit
  else okM { s with sys := { s.sys with capW := w } } 0

/-- MODULE_CAP. -/
def execModuleCap (m : MsgRef) (body : BitVec 64) (s : State) : Outc := .next (runPlain s m 0 0 (moduleCapBody body.toNat))

/-! ## POWER_ALLOTMENT (R458-R460) -/

/-- A moving average with weight 1/8 (R460). -/
def average (old x : Nat × Nat) : Nat × Nat :=
  if old = (0, 0) then x else ((7 * old.1 + x.1) / 8, (7 * old.2 + x.2) / 8)

/-- A block's profile takes up the starts that ended; stations without an engine in the block leave it (R460). -/
def State.profileBlock (s : State) (m : BlockPower) : State :=
  let here (k : Nat) : Bool := (s.keyBlocks k).contains m.block
  let t := m.starts.foldl (fun t x => if here x.1 then Tab.put t (m.block * 2 ^ 22 + x.1) (average (Tab.getD t (m.block * 2 ^ 22 + x.1) (0, 0)) x.2) else t) s.pow.profile
  { s with pow := { s.pow with profile := t.filter (fun e => e.1 / 2 ^ 22 != m.block || here (e.1 % 2 ^ 22)) } }

/-- The profiled power of a station in a block, in µW. -/
def State.profilePower (s : State) (b k : Nat) : Nat :=
  let x := s.profileOf b k
  if x.2 = 0 then 0 else x.1 * 1000000 / x.2

/-- f × V(f)² of an operating point, in MHz and (1/96 mV)². -/
def State.fv2 (s : State) (b f : Nat) : Nat := f * (s.opVolt b f).toNat ^ 2

/-- D_b (R460), in µW: measured dynamic power scaled to the planned operating point, plus leakage, plus the profiled power of every HEAVY
waybill or hint pending. A LIGHT hint lowers it by an amount the spec does not give: a free value. -/
def State.predicted (s : State) (b : Nat) (m : BlockPower) : Nat :=
  let fn := (s.block b).mhz
  let base := m.dyn * s.fv2 b (s.block b).plannedMhz / s.fv2 b fn + m.leak
  let wbs := sumN ((s.stn.heavy.filter (fun h => h.1 == b && s.heavyRuns h)).map (fun h => s.profilePower b h.2.1))
  let hints := sumN ((s.pow.hints.filter (fun e => e.2.heavy && (s.keyBlocks e.1).contains b)).map (fun e => s.profilePower b e.1))
  let light := s.pow.hints.any (fun e => !e.2.heavy && e.2.begun && (s.keyBlocks e.1).contains b)
  let d := base + wbs + hints
  if light then d - Config.freeNat (s.free + b) % (d + 1) else d

/-- The frequency steps at or below a frequency, highest first. -/
def stepsFrom (f : Nat) : List Nat := (List.range ((f - 400) / 25 + 1)).map (fun i => 400 + 25 * ((f - 400) / 25 - i))

/-- The step a block may take within its allotment budget × d ÷ sum (R460); none when even 400 MHz exceeds it. Powers in µW. -/
def State.stepFor (s : State) (b : Nat) (m : BlockPower) (budget d sum : Nat) : Option Nat :=
  let now := s.fv2 b (s.block b).mhz
  (stepsFrom (s.block b).plannedMhz).find? (fun f => decide ((m.leak * now + m.dyn * s.fv2 b f) * sum ≤ budget * d * now))

/-- The budget of a partition in the window in force, in mW (R458). -/
def State.budgetMw (s : State) (p : Nat) (x : Partition) : Nat := Tab.getD s.pow.budget p (x.powerW * 1000)

/-- What was measured of a block. -/
def powerOf (l : List BlockPower) (b : Nat) : BlockPower := (l.find? (fun m => m.block == b)).getD { block := b, dyn := 0, leak := 0, starts := [] }

/-- One partition's budget is divided among its blocks (R459, R460). -/
def State.allotPower (s : State) (l : List BlockPower) (p : Nat) (x : Partition) : State :=
  let bs := Tab.vals x.blockMap
  let s1 := bs.foldl (fun (s : State) b => s.updBlock b (fun k => { k with plannedMhz := s.planned p b })) s
  let ds := bs.map (fun b => (b, s1.predicted b (powerOf l b)))
  let sum := sumN (ds.map (·.2))
  let budget := s.budgetMw p x * 1000
  let pick (s : State) (b d : Nat) : State :=
    if sum ≤ budget then { s with pow := { s.pow with chosen := Tab.del s.pow.chosen b, throttled := s.pow.throttled.filter (· != b) } }
    else
      match s.stepFor b (powerOf l b) budget d sum with
      | some f => { s with pow := { s.pow with chosen := Tab.put s.pow.chosen b f, throttled := s.pow.throttled.filter (· != b) } }
      | none => { s with pow := { s.pow with chosen := Tab.put s.pow.chosen b 400, throttled := s.pow.throttled.filter (· != b) ++ [b] } }
  ds.foldl (fun (s : State) e => pick s e.1 e.2) s1

/-- POWER_ALLOTMENT: at every multiple of 100 µs, with what the estimators measured of the blocks: profiles are kept, the planned
frequencies are set, and every partition's budget is divided (R459, R460). -/
def execPowerAllotment (powers : List BlockPower) (s : State) : Outc :=
  .next (
    if s.now % 100 ≠ 0 then s
    else
      let s1 := powers.foldl (fun (s : State) m => s.profileBlock m) s
      let s2 := s1.part.parts.foldl (fun (s : State) e => s.allotPower powers e.1 e.2) s1
      { s2 with free := s2.free + 60, stn := { s2.stn with heavy := s2.stn.heavy.filter s2.heavyRuns } })

/-! ## Hints (R462, R463) -/

/-- R462: END takes the station's hint away; LIGHT and HEAVY replace it. -/
def hintBody (r : Nat) (e : CmdEnv) (s : State) : CmdRes :=
  let id := fldB r 0 2
  let cls := fld r 2 1 0
  let k := stnKey e.part id
  let bound := match s.station? e.part id with | some t => !t.engines.isEmpty | none => false
  if rsvdSet r (maskOf [(0, 15, 0), (2, 1, 0), (4, 31, 0), (8, 31, 0)]) then refuse s .rsvdSet
  else if !bound then refuse s .badId
  else if cls = 3 then (s, some (badParam 2 0))
  else if 1000000 < fldB r 4 4 then (s, some (badParam 4 0))
  else if fldB r 8 4 = 0 ∨ 1000000 < fldB r 8 4 then (s, some (badParam 8 0))
  else
    let h : HintRec := { heavy := cls == 2, start := s.now + fldB r 4 4, duration := fldB r 8 4, begun := false }
    let old : State := { s with stn := { s.stn with heavy := s.stn.heavy.filter (fun x => x.2.1 != k) }, pow := { s.pow with hints := Tab.del s.pow.hints k } }
    if cls = 0 then done ((s.keyBlocks k).foldl (fun (s : State) b => s.setVolt b (s.voltAt b (s.block b).mhz)) old) 0
    else done { old with pow := { old.pow with hints := Tab.put old.pow.hints k h } } 0

/-- HINT. -/
def execHint (ring : Nat) (record : BitVec 128) (s : State) : Outc :=
  .next (runCmd s ring 0x001F record.toNat 0 (hintBody record.toNat))

/-- The blocks of a station take the voltage of their operating point and the hints in force (R463). -/
def State.reVolt (s : State) (k : Nat) : State :=
  (s.keyBlocks k).foldl (fun (s : State) b => s.setVolt b (s.voltAt b (s.block b).mhz)) s

/-- HINT_PHASE_START: a hint's phase begins, for HEAVY 5 µs ahead, and the voltage of the station's blocks rises (R463). A HEAVY waybill's
phase begins at its enqueue. -/
def execHintPhaseStart (p station : Nat) (s : State) : Outc :=
  .next (
    let k := stnKey p station
    match Tab.find s.pow.hints k with
    | some h =>
      if h.begun ∨ s.now + (if h.heavy then 5 else 0) < h.start then s
      else ({ s with pow := { s.pow with hints := Tab.put s.pow.hints k { h with begun := true } } } : State).reVolt k
    | none => if s.stn.heavy.any (fun x => x.2.1 == k && s.heavyRuns x) then s.reVolt k else s)

/-- HINT_PHASE_END: a phase ends, and its guard voltage or lowered prediction goes (R463). -/
def execHintPhaseEnd (p station : Nat) (s : State) : Outc :=
  .next (
    let k := stnKey p station
    let past := match Tab.find s.pow.hints k with | some h => decide (h.start + h.duration ≤ s.now) | none => false
    let s1 : State := { s with stn := { s.stn with heavy := s.stn.heavy.filter (fun x => x.2.1 != k || s.heavyRuns x) }, pow := { s.pow with hints := if past then Tab.del s.pow.hints k else s.pow.hints } }
    s1.reVolt k)

/-! ## DROOP_STRETCH (R464) -/

/-- DROOP_STRETCH: a sample of an island's droop detector, 30 mV or more below the operating-point voltage or not: a low one stretches
the period; the 64th good one in a row returns it. A stretched sample counts a stretched cycle (R464). Islands are numbered as log entry
48 says: 0-59 the blocks, 60-65 the spines, 66 the hub switch, 67 the hub service island, 68 and 69 the fence stores, 70-117 the memory
controllers, 118-131 the link ports. -/
def execDroopStretch (island : Nat) (below : Bool) (s : State) : Outc :=
  .next (
    match Tab.find s.pow.droop island with
    | none => if below then { s with pow := { s.pow with droop := Tab.put s.pow.droop island 0 } } else s
    | some n =>
      let count := Tab.put s.pow.stretched island ((Tab.getD s.pow.stretched island 0 + 1) % 2 ^ 32)
      let d := if below then Tab.put s.pow.droop island 0 else if n + 1 < 64 then Tab.put s.pow.droop island (n + 1) else Tab.del s.pow.droop island
      { s with pow := { s.pow with droop := d, stretched := count } })

/-! ## POWER_DOWN_ISLAND (R24, R452, R453) -/

/-- Nothing of the block is in flight through the crossings of its island, in or out: claims, flits, crier sends, accesses of its cells and
carriers, waybills and signals of its sources (R24, R453). -/
def State.islandEmpty (s : State) (b : Nat) : Bool :=
  let mine (rank : Nat) : Bool := decide (rank / 32 = b)
  !s.fab.claims.any (fun c => c.block == b) && !s.sendNames b && !s.flitOf b &&
  !s.fab.accesses.any (fun a => match a.2.who with | .cell c => c / 20 == b | .carrier c => c / 4 == b | _ => false) &&
  !s.stn.flight.any (fun f => mine f.rank) && !s.fen.port.any (fun f => mine f.rank)

/-- POWER_DOWN_ISLAND: a block that is not bound, being wiped, moved to or planned powers down once its crossings are empty; a domain that
is down holds no state (R452, R453). -/
def execPowerDownIsland (b : Nat) (s : State) : Outc :=
  .next (
    let x := s.block b
    let planned := match Tab.find s.age.islands b with | some i => i.quiet.isSome || i.due.isSome | none => false
    if !x.powered || x.bound.isSome || x.wipe.isSome || x.resetting || planned || s.part.moves.any (fun v => v.dst == b || v.src == b) ||
        !s.islandEmpty b then s
    else
      let s1 := s.setBlock b { x with powered := false, mhz := 1000, cycles := 0 }
      { s1 with pow := { s1.pow with volts := Tab.del s1.pow.volts b, lead := Tab.del s1.pow.lead b, chosen := Tab.del s1.pow.chosen b, throttled := s1.pow.throttled.filter (· != b), droop := Tab.del s1.pow.droop b, stretched := Tab.del s1.pow.stretched b, overCeil := Tab.del s1.pow.overCeil b, profile := s1.pow.profile.filter (fun e => e.1 / 2 ^ 22 != b) } })

end Sys2Proof.Machine
end

