-- ==== Sys2Proof/Machine/Ageing.lean ====
section
/-! DEFINITION. Sys2Proof/Machine/Ageing.lean: ageing monitors, margin plans, quiet windows, the wear record and the service horizon
(20_startup_ageing R528-R535). -/

namespace Sys2Proof.Machine

/-! ## The margin plan (R529) -/

/-- An island of which nothing is known yet (R533). -/
def freshIsland : Island :=
  { hours := 0, partUs := 0, planH := 0, roKhz := 0, plans := 0, offsets := [], limit := 1000, cells := [], spares := [], horizon := 0xFFFFFFFF, due := none, quiet := none, draining := false, quiesceAt := none }

def State.island (s : State) (b : Nat) : Island := Tab.getD s.age.islands b freshIsland

def State.setIsland (s : State) (b : Nat) (x : Island) : State := { s with age := { s.age with islands := Tab.put s.age.islands b x } }

/-- A need at step k (400 + 25k MHz), interpolated between the anchors, in twelfths of a mV. -/
def needAt (needs : List Nat) (k : Nat) : Int :=
  let n0 : Int := needs.getD 0 0
  let n1 : Int := needs.getD 1 0
  let n2 : Int := needs.getD 2 0
  if k ≤ 12 then 12 * n0 + (n1 - n0) * k else 12 * n1 + (n2 - n1) * ((k : Int) - 12)

/-- The offset at step k before its cap, in mV: need and guard over V(f), rounded up to 5 mV. -/
def rawOffset (needs : List Nat) (guard k : Nat) : Int := -((-(needAt needs k + 12 * guard - (7200 + 125 * k))) / 60) * 5

/-- The 25 offsets of a plan. -/
def planOffsets (needs : List Nat) (guard : Nat) : List Int := (List.range 25).map (fun k => min 100 (rawOffset needs guard k))

/-- The highest frequency whose offset needs no cap; 400 MHz when none does. -/
def planLimit (needs : List Nat) (guard : Nat) : Nat :=
  match ((List.range 25).map (fun i => 24 - i)).find? (fun k => decide (rawOffset needs guard k ≤ 100)) with
  | some k => 400 + 25 * k
  | none => 400

/-- A cell's new SLOPE (R533): at the second plan the change per hour, and at later plans the mean of it and the previous value. Where no
hour lies between two plans the spec gives no value: a free one. -/
def newSlope (seed plans : Nat) (old : CellWear) (need hours : Nat) : Int :=
  if plans = 0 then 0
  else if hours = 0 then sgn 16 (Config.freeNat seed)
  else
    let d := ((need : Int) - old.need) * 1000 / hours
    if plans = 1 then d else (old.slope + d) / 2

/-- What a plan makes of a list of needs. -/
def State.wearOf (s : State) (x : Island) (old : List CellWear) (needs : List Nat) : List CellWear :=
  (List.zip (List.range needs.length) needs).map (fun e =>
    { need := e.2, slope := newSlope (s.free + e.1) x.plans (old.getD e.1 { need := e.2, slope := 0 }) e.2 (x.hours - x.planH) })

/-! ## Service horizon (R534) -/

/-- Powered hours until a cell is predicted to fail; none when its SLOPE is zero or less. -/
def CellWear.fails (w : CellWear) (guard : Nat) : Option Nat :=
  if w.slope ≤ 0 then none else some ((950 - guard - w.need) * 1000 / w.slope.toNat)

/-- The n-th (from 0) of the predicted failures of cells, in ascending order. -/
def nthFailure (guard n : Nat) (l : List CellWear) : Option Nat := (sortBy id (l.filterMap (fun w => w.fails guard)))[n]?

/-- The horizon of an island, unknown when no failure is predicted. -/
def islandHorizon (guard : Nat) (spareM spareV : Bool) (cells : List CellWear) : Nat :=
  let l := [nthFailure guard (if spareM then 0 else 1) (cells.take 12), nthFailure guard (if spareV then 0 else 1) ((cells.drop 12).take 6), nthFailure guard 0 ((cells.drop 18).take 2)]
  (l.filterMap id).foldl min 0xFFFFFFFF

/-- The device's service horizon: unknown while a bound island has fewer than two plans. -/
def State.horizon (s : State) : Nat :=
  if (List.range 60).any (fun b => (s.block b).bound.isSome && decide ((s.island b).plans < 2)) then 0xFFFFFFFF
  else (s.age.islands.map (·.2.horizon)).foldl min 0xFFFFFFFF

/-- HORIZON_READ (R534). -/
def execHorizonRead (m : MsgRef) (s : State) : Outc := .next (runPlain s m 0 0 (fun s => okM s s.horizon))

/-! ## Plans and retirements (R529, R530) -/

/-- Cells whose need at 1,000 MHz and guard exceed 0.950 V. -/
def agedCells (guard : Nat) (m : Measured) : List Nat := (List.range m.cells.length).filter (fun i => decide (950 < m.cells.getD i 0 + guard))

/-- The wear entry of a retired cell's number follows the spare that takes it (R533). -/
def Island.takeSpare (x : Island) (i : Nat) : Island :=
  let k := if i < 12 then 0 else 1
  { x with cells := lset x.cells i (x.spares.getD k { need := 0, slope := 0 }), spares := lset x.spares k { need := 0, slope := 0 } }

/-- A plan is set from a characterisation, and SERVICE_HORIZON goes to the operator (R529, R533, R534). -/
def State.setMargin (s : State) (b : Nat) (m : Measured) (khz : Nat) : State :=
  let x := s.island b
  let g := s.zh 79
  let cells := s.wearOf x x.cells m.cells
  let spares := s.wearOf x x.spares m.spares
  let k := s.block b
  let y : Island := { x with planH := x.hours, roKhz := khz, plans := x.plans + 1, offsets := planOffsets m.needs g, limit := planLimit m.needs g, cells := cells, spares := spares, horizon := if x.plans = 0 then 0xFFFFFFFF else islandHorizon g k.spareM k.spareV cells, due := none, quiet := none, draining := false, quiesceAt := none }
  let s1 := { s.setIsland b y with free := s.free + 22, age := { (s.setIsland b y).age with planned := true } }
  (s1.updBlock b (fun k => { k with quiesced := false })).opEvent 0x001F 0 0 (plcB 0 4 s1.horizon)

/-- What a characterisation leads to: a plan; or the retirement of aged cells, after which the island is characterised again; or, when no
spare can help, a fault that passes to device level, with the island's old plan standing (R530). -/
def State.characterised (s : State) (b : Nat) (m : Measured) (khz : Nat) : State :=
  let aged := agedCells (s.zh 79) m
  let past : State := s.setIsland b { s.island b with quiet := none, draining := false }
  if m.replicaBad then past.devFault 4 b
  else if aged.isEmpty then s.setMargin b m khz
  else aged.foldl (fun (s : State) i =>
    let spare := i < 18 && !(if i < 12 then (s.block b).spareM else (s.block b).spareV)
    let s1 := s.retireCell (b * 20 + i) 3
    if spare then s1.setIsland b ((s1.island b).takeSpare i) else s1) past

/-! ## When an island is planned (R531, R532) -/

/-- The island falls due, unless it is so already. -/
def State.fallDue (s : State) (b : Nat) : State :=
  let x := s.island b
  if x.due.isSome then s else s.setIsland b { x with due := some s.now }

/-- MARGIN_PLAN_DUE: the powered hours since the last plan have reached REPLAN_HOURS. -/
def execMarginPlanDue (b : Nat) (s : State) : Outc :=
  .next (if b < 60 ∧ (s.island b).planH + s.zh 102 ≤ (s.island b).hours then s.fallDue b else s)

/-- RING_OSCILLATOR_READ: the hourly reading: 3% or more below the last plan's makes the island due. -/
def execRingOscillatorRead (b khz : Nat) (s : State) : Outc :=
  .next (if b < 60 ∧ khz * 100 ≤ (s.island b).roKhz * 97 then s.fallDue b else s)

/-- The island holds no start, has no head-eligible candidate, and receives no access (R532). -/
def State.islandIdle (s : State) (b : Nat) : Bool :=
  !s.stn.engines.any (fun e => engBlock e.1 == some b && e.2.start.isSome) && (s.nextCandidate b).isNone && s.islandEmpty b

/-- IDLE_WINDOW_FOUND: a 100 µs idle window of a due island: its quiet window begins at once. An unbound island is powered for its plan,
quiesced (R531, R532). -/
def execIdleWindowFound (b : Nat) (s : State) : Outc :=
  .next (
    let x := s.island b
    if 60 ≤ b ∨ x.due.isNone ∨ x.quiet.isSome then s
    else if (s.block b).bound.isSome then (if s.islandIdle b then s.setIsland b { x with quiet := some s.now, quiesceAt := none } else s)
    else if (s.block b).wipe.isSome ∨ s.part.moves.any (fun v => v.src == b) then s
    else (s.updBlock b (fun k => { k with powered := true, quiesced := true })).setIsland b { x with quiet := some s.now })

/-- QUIET_WINDOW_DONE: the characterisation of an island in its quiet window ends (R529, R530). -/
def execQuietWindowDone (b : Nat) (m : Measured) (khz : Nat) (s : State) : Outc :=
  .next (if (s.island b).quiet.isSome then s.characterised b m khz else s)

/-- QUIET_WAIT_EXPIRE: QUIET_WAIT_H hours after a bound island fell due without an idle window: QuiesceNotice names the time, and
MARGIN_QUIESCE goes to the partition (R532). -/
def execQuietWaitExpire (b : Nat) (s : State) : Outc :=
  .next (
    let x := s.island b
    match x.due, (s.block b).bound with
    | some t, some (p, name) =>
      if x.quiet.isSome || x.quiesceAt.isSome || x.draining || decide (s.now < t + s.zh 108 * 3600000000) then s
      else
        let at' := s.now + s.zh 110 * 1000000
        ((s.setIsland b { x with quiesceAt := some at' }).emitOut (.msg .fabricManager 0x0804 [p, name, at'])).event 0x001E p 0 false 0 0xFFFF (plcB 0 1 name ||| plcB 8 8 at')
    | _, _ => s)

/-- QUIESCE_TIME: the announced time has come: the island is drained, and once drained its quiet window begins. A block that has moved or is
moving is not quiesced (R532, R535). -/
def execQuiesceTime (b : Nat) (s : State) : Outc :=
  .next (
    let x := s.island b
    let drained (p name : Nat) : Bool := s.moveDrained { part := p, name := name, src := b, dst := b, step := 3, ref := { session := 0, corr := 0, msg := 0 } }
    match (s.block b).bound with
    | none => s.setIsland b { x with quiesceAt := none, draining := false }
    | some (p, name) =>
      if s.part.moves.any (fun v => v.src == b) then s.setIsland b { x with quiesceAt := none, draining := false }
      else if x.draining then (if drained p name then s.setIsland b { x with draining := false, quiet := some s.now } else s)
      else
        match x.quiesceAt with
        | none => s
        | some t =>
          if s.now < t then s
          else if drained p name then s.setIsland b { x with quiesceAt := none, quiet := some s.now }
          else s.setIsland b { x with quiesceAt := none, draining := true })

/-- A µs passes for powered islands and for AON (R531, R533). -/
def State.tickHours (s : State) : State :=
  let up := s.age.islands.map (fun e =>
    if (s.block e.1).powered then (e.1, if e.2.partUs + 1 < 3600000000 then { e.2 with partUs := e.2.partUs + 1 } else { e.2 with partUs := 0, hours := e.2.hours + 1 })
    else e)
  let full := decide (3600000000 ≤ s.age.moduleUs + 1)
  { s with age := { s.age with islands := up, moduleUs := if full then 0 else s.age.moduleUs + 1, moduleH := if full then s.age.moduleH + 1 else s.age.moduleH } }

/-! ## The wear record (R533) -/

/-- A CELL or SPARE entry: need, and SLOPE in 16 bits. -/
def CellWear.word (w : CellWear) : Nat := plcB 0 2 w.need ||| plcB 2 2 (wrapI 16 w.slope)

/-- The 144-byte entry of an island. -/
def State.wearEntry (s : State) (b : Nat) : Nat :=
  let x := s.island b
  let k := s.block b
  let idx (n : Nat) : List Nat := List.range n
  plcB 0 1 b ||| plcF 1 1 k.spareV ||| plcF 1 0 k.spareM ||| plcB 4 4 x.hours ||| plcB 8 4 x.planH ||| plcB 12 4 x.roKhz |||
  (idx 25).foldl (fun a i => a ||| plcB (16 + i) 1 (wrapI 8 (x.offsets.getD i 0 / 5))) 0 |||
  (idx 20).foldl (fun a i => a ||| plcB (44 + 4 * i) 4 (x.cells.getD i { need := 0, slope := 0 }).word) 0 |||
  (idx 2).foldl (fun a i => a ||| plcB (124 + 4 * i) 4 (x.spares.getD i { need := 0, slope := 0 }).word) 0 ||| plcB 132 4 x.horizon

/-- The 8,704 bytes of a wear record, with its CRC. -/
def State.wearRecord (s : State) (seq : Nat) : List (BitVec 8) :=
  let head (crc : Nat) : List (BitVec 8) := bytesOf 64 (plcB 0 4 0x4B515752 ||| plcB 4 4 crc ||| plcB 8 8 seq ||| plcB 16 4 s.age.moduleH ||| plcB 20 4 s.horizon)
  let body := (List.range 60).flatMap (fun b => bytesOf 144 (s.wearEntry b))
  head (crc32c (head 0 ++ body)) ++ body

/-- Where the places of the flash region lie (R518, R533): 170 of 12 KiB in each half. -/
def wearPlace (k : Nat) : Nat := 0x05100000 + k / 170 * 0x200000 + k % 170 * 12288

/-- The bytes of a record go to a place; the first place of a half erases the half (R533). -/
def putWear (flash : Mem) (k : Nat) (l : List (BitVec 8)) : Mem :=
  let a := wearPlace k
  Memory.writeL (if k % 170 = 0 then flash.filter (fun c => !(decide (a ≤ c.1) && decide (c.1 < a + 0x200000))) else flash) a l

/-- WEAR_RECORD_WRITE: at each whole hour of TIME_US and after each plan the record is written (R533). -/
def execWearRecordWrite (s : State) : Outc :=
  .next (
    let h := s.now / 3600000000
    if s.age.planned || decide (s.age.wroteH < h) then
      { s with age := { s.age with seq := s.age.seq + 1, record := s.wearRecord (s.age.seq + 1), place := (s.age.place + 1) % 340, wroteH := h, planned := false }, fw := { s.fw with flash := putWear s.fw.flash s.age.place (s.wearRecord (s.age.seq + 1)) } }
    else s)

/-- A cell's entry read back. -/
def cellWear (w : Nat) : CellWear := { need := fldB w 0 2, slope := sgn 16 (fldB w 2 2) }

/-- An island's entry read back (R533): the number of plans is told by what the entry holds. -/
def islandOf (e : Nat) : Island :=
  let hor := fldB e 132 4
  { freshIsland with hours := fldB e 4 4, planH := fldB e 8 4, roKhz := fldB e 12 4, plans := if fldB e 12 4 = 0 then 0 else if hor = 0xFFFFFFFF then 1 else 2, offsets := (List.range 25).map (fun i => sgn 8 (fldB e (16 + i) 1) * 5), cells := (List.range 20).map (fun i => cellWear (fldB e (44 + 4 * i) 4)), spares := (List.range 2).map (fun i => cellWear (fldB e (124 + 4 * i) 4)), horizon := hor }

/-- The record at a place, with its SEQ, if its MAGIC and CRC check (R533). -/
def wearAt (flash : Mem) (k : Nat) : Option (Nat × Nat × List (BitVec 8)) :=
  if ofBytes (Memory.readL flash (wearPlace k) 4) = 0x4B515752 then
    let l := Memory.readL flash (wearPlace k) 8704
    if crc32c (l.take 4 ++ [0, 0, 0, 0] ++ l.drop 8) = ofBytes ((l.drop 4).take 4) then some (ofBytes ((l.drop 8).take 8), k, l) else none
  else none

/-- The record of highest SEQ that the flash region holds. -/
def wearNewest (flash : Mem) : Option (Nat × Nat × List (BitVec 8)) :=
  ((List.range 340).filterMap (wearAt flash)).foldl (fun o x => match o with | some y => if y.1 < x.1 then some x else o | none => some x) none

/-- Islands, spares in use and hours are read from the wear record at a start; without a record every island is new, and WEAR_LOST goes to the
operator (R533). -/
def State.loadWear (s : State) : State :=
  match wearNewest s.fw.flash with
  | none => s.opEvent 0x0021 0 0 0
  | some (seq, k, l) =>
    let entries := (List.range 60).map (fun b => (b, ofBytes ((l.drop (64 + 144 * b)).take 144)))
    let s1 : State := { s with age := { s.age with islands := entries.map (fun e => (e.1, islandOf e.2)), moduleH := max s.age.moduleH (ofBytes ((l.drop 16).take 4)), seq := seq, record := l, place := (k + 1) % 340 } }
    entries.foldl (fun (s : State) e => if bit e.2 1 0 || bit e.2 1 1 then s.updBlock e.1 (fun k => { k with spareM := bit e.2 1 0, spareV := bit e.2 1 1 }) else s) s1

end Sys2Proof.Machine
end

