-- ==== Sys2Proof/Machine/Startup.lean ====
section
/-! DEFINITION. Sys2Proof/Machine/Startup.lean: the Zhohi image, the start sequence, doze and wake, and the fault log
(20_startup_ageing R518-R527, R556; 11_host_objects R307, R308). -/

namespace Sys2Proof.Machine

/-! ## The Zhohi image (R519-R522) -/

/-- Flash address of a copy (R518). -/
def zhohiBase (copy : Nat) : Nat := copy * 0x80000

/-- Fields of the body: byte offset, bytes, lowest and highest value (R521). MEM_RATE_MAX and REG_LOW have rules of their own, and
SHARED_W and LOSS_PPM a further value that names the calibration record. -/
def zhohiFields : List (Nat × Nat × Nat × Nat) :=
  [(64, 2, 8800, 12800), (66, 2, 800, 3000), (68, 2, 8, 256), (70, 1, 64, 255), (71, 1, 0, 254), (72, 4, 10, 60000),
   (76, 2, 10, 1000), (78, 1, 0, 50), (79, 1, 10, 50), (80, 4, 1000, 10000000), (84, 4, 1, 100000), (88, 2, 50, 800),
   (92, 4, 0, 200000), (96, 4, 1, 60000), (100, 2, 10, 600), (102, 2, 100, 2000), (104, 4, 1, 16777216), (108, 2, 1, 168),
   (110, 2, 1, 600)]

/-- Bytes of the body that name a field; the others are RSVD. -/
def zhohiMask : Nat := maskOf ([(0, 31, 0), (4, 15, 0), (8, 63, 0), (16, 31, 0)] ++ zhohiFields.map (fun f => (f.1, 8 * f.2.1 - 1, 0)))

/-- The value of a field is one it may hold. -/
def zhohiGood (body off n lo hi : Nat) : Bool :=
  let v := fldB body off n
  if off = 64 then v == 8800 || v == 10400 || v == 12800
  else if off = 71 then decide (v < (if fldB body 70 1 < 64 then 192 else fldB body 70 1))
  else if off = 88 then v == 0 || (decide (lo ≤ v) && decide (v ≤ hi))
  else if off = 92 then v == 0xFFFFFFFF || decide (v ≤ hi)
  else decide (lo ≤ v) && decide (v ≤ hi)

/-- The 256 bytes of a copy's body. -/
def State.zhohiBody (s : State) (copy : Nat) : List (BitVec 8) := Memory.readL s.fw.flash (zhohiBase copy) 256

/-- The body with its CRC field taken as zero. -/
def noCrc (b : List (BitVec 8)) : List (BitVec 8) := b.take 16 ++ [0, 0, 0, 0] ++ b.drop 20

/-- A copy is valid (R519): `sig` says that its keys hash to the current owner bank and both its signatures verify. In FACTORY a copy is
valid with an all-zero trailer. -/
def State.zhohiValid (s : State) (copy : Nat) (sig : Bool) : Bool :=
  let b := s.zhohiBody copy
  let r := ofBytes b
  fldB r 0 4 == 0x4B515A48 && fldB r 4 2 == 1 && crc32c (noCrc b) == fldB r 16 4 && !rsvdSet r zhohiMask &&
  (if s.sec.lc = .factory then (Memory.readL s.fw.flash (zhohiBase copy + 256) 36484).all (fun x => x == 0) else sig)

/-- The copy a start uses: the valid one of higher SEQ. -/
def State.zhohiPick (s : State) (sig0 sig1 : Bool) : Option Nat :=
  let seq (c : Nat) : Nat := fldB (ofBytes (s.zhohiBody c)) 8 8
  match s.zhohiValid 0 sig0, s.zhohiValid 1 sig1 with
  | true, true => some (if seq 0 < seq 1 then 1 else 0)
  | true, false => some 0
  | false, true => some 1
  | false, false => none

/-- Step 3: the image is read; a field outside its range takes its default, which ZHOHI_DEFAULTS names, and so does every field when no
copy is valid (R520, R521). CAP_W is the cap until a ModuleCap (R456). -/
def State.readZhohi (s : State) (sig0 sig1 : Bool) : State :=
  match s.zhohiPick sig0 sig1 with
  | none => s.opEvent 0x0020 0 0 0
  | some c =>
    let r := ofBytes (s.zhohiBody c)
    let good := zhohiFields.filter (fun f => zhohiGood r f.1 f.2.1 f.2.2.1 f.2.2.2)
    let bad := zhohiFields.filter (fun f => !zhohiGood r f.1 f.2.1 f.2.2.1 f.2.2.2)
    let s1 : State := { s with sys := { s.sys with zhohi := good.map (fun f => (f.1, fldB r f.1 f.2.1)) }, boot := { s.boot with zhohiCopy := some c } }
    let s2 : State := { s1 with sys := { s1.sys with capW := s1.zh 66 } }
    bad.foldl (fun (s : State) f => s.opEvent 0x0020 0 0 (plcB 0 2 f.1)) s2

/-- R522: 2,048-byte pieces of a copy; PIECE 0 erases the copy first. -/
def zhohiWriteBody (m : MsgRef) (h : Nat) (data : List (BitVec 8)) (s : State) : MsgRes :=
  let copy := fldB h 0 1
  let piece := fldB h 2 2
  if s.sys.state = .recovery then refuseM s .locked
  else if !s.owner m then refuseM s .notAuthorised
  else if bodyRsvd h [(0, 7, 0), (2, 15, 0)] then refuseM s .rsvdSet
  else if 1 < copy then (s, some (badParam 0 0))
  else if 17 < piece then (s, some (badParam 2 0))
  else if s.boot.zhohiCopy = some copy then refuseM s .slotInUse
  else
    let base := zhohiBase copy
    let f := if piece = 0 then s.fw.flash.filter (fun c => !(decide (base ≤ c.1) && decide (c.1 < base + 0x80000))) else s.fw.flash
    okM { s with fw := { s.fw with flash := Memory.writeL f (base + 2048 * piece) ((data ++ List.replicate 2048 0).take 2048) } } 0

/-- ZHOHI_WRITE: bytes 0-15 of the body, and its data. -/
def execZhohiWrite (m : MsgRef) (header : BitVec 128) (data : List (BitVec 8)) (s : State) : Outc :=
  .next (runPlain s m 0 0 (zhohiWriteBody m header.toNat data))

/-! ## The capability table (R307, R308) -/

/-- Latency constants HOP[0..13]: clock code and count (R28, R308). -/
def hopWords (rate : Nat) : List Nat :=
  let w (c n : Nat) : Nat := c * 2 ^ 28 + n
  [w 0 4, w 0 4, w 1 3, w 0 3, w 1 8, w 1 12, w 1 6, w 3 3, w 1 3, w 2 3, w 1 3, w 15 3, w 3 (if rate = 12800 then 88 else if rate = 10400 then 76 else 64), w 3 2]

/-- Frequencies in kHz (R21, R308). -/
def freqWords (rate : Nat) : List Nat := [1000000, 400000, 1250000, 1600000, rate * 125, 1562500, 390625]

/-- Little-endian words of n bytes. -/
def wordsL (n : Nat) (l : List Nat) : List (BitVec 8) := l.flatMap (bytesOf n)

/-- The capability table below INTERFACES, as (offset, bytes). -/
def State.capFields (s : State) : List (Nat × List (BitVec 8)) :=
  let bits (n : Nat) (f : Nat → Bool) : Nat := (List.range n).foldl (fun a i => if f i then a + 2 ^ i else a) 0
  let used (n : Nat) : Bool := (s.port n).spare == 3
  [(0x000, bytesOf 2 1), (0x002, bytesOf 2 0x400), (0x004, bytesOf 2 s.dram.rate), (0x006, bytesOf 2 s.dram.dimmGb),
   (0x008, bytesOf 8 (6 * 2 ^ s.spanBits)), (0x010, bytesOf 4 (6 * s.regionStripes * 32768 / 2 ^ 20)),
   (0x040, bytesOf 12 (bits 94 s.domainHere)), (0x04C, bytesOf 2 (bits 12 (fun n => s.sys.variantT && s.portPresent n))), (0x04E, bytesOf 1 (if s.sys.variantT then 1 else 0)),
   (0x080, bytesOf 4 1200), (0x084, bytesOf 4 1048576), (0x088, bytesOf 4 65536), (0x08C, bytesOf 1 60), (0x08E, bytesOf 2 4096),
   (0x090, bytesOf 4 65536), (0x094, bytesOf 2 4096), (0x096, bytesOf 2 65535), (0x100, wordsL 4 (hopWords s.dram.rate)),
   (0x140, wordsL 4 (freqWords s.dram.rate)), (0x200, List.replicate 60 0x80),
   (0x240, (List.range 14).map (fun n => if s.portHere n then (if used n then 0xC0 else 0x80) else 0))]

/-- The table is written, then CAP_LENGTH, then STATE becomes READY (R307). -/
def State.publish (s : State) : State :=
  let t := s.capFields.foldl (fun (m : Mem) e => Memory.writeL m e.1 e.2) []
  let s1 : State := { s with sys := { s.sys with capTable := t, capLength := 0x400 } }
  let s2 := s1.writeInterfaces
  { s2 with sys := { s2.sys with state := .ready }, boot := { s2.boot with running := false } }

/-! ## The start sequence (R515, R523, R524) -/

/-- Steps that must have ended before a step begins. -/
def stepAfter (n : Nat) : List Nat :=
  match n with
  | 2 => [1] | 3 => [2] | 4 => [3] | 5 => [4] | 6 => [4] | 7 => [5, 6] | 8 => [4] | 9 => [3] | 10 => [7, 9] | _ => []

/-- The start halts (R524). -/
def State.halt (s : State) (code detail : Nat) : State :=
  let s1 := (s.logFault code 0 0 detail).switchedOff
  { s1 with sys := { s1.sys with state := .halted, haltCode := code }, boot := { s1.boot with running := false } }

/-- No image of a slot starts: RECOVERY, on H0.0 and the side-band UART (R515). -/
def State.recover (s : State) : State :=
  let s1 := s.portsToDoze
  { s1 with sys := { s1.sys with state := .recovery }, boot := { s1.boot with running := false } }

/-- The image of a type that a slot holds and that verifies. -/
def StepInfo.image (i : StepInfo) (slot : Bool) (ty : Nat) : Option FwImage :=
  (if slot then i.slotB else i.slotA).find? (fun x => x.hwType == ty && x.verified)

/-- What a processor starts from: the slot its activation record names, else the other; and whether it fell back (R513, R515, R523). -/
def State.startImage (s : State) (i : StepInfo) (ty unit : Nat) : Option (FwRun × Bool) :=
  let slot := match Tab.find s.fw.record (fwKey ty unit) with | some r => r.slot | none => false
  match i.image slot ty, i.image (!slot) ty with
  | some x, _ => some ({ slot := slot, image := x }, false)
  | none, some x => some ({ slot := !slot, image := x }, true)
  | none, none => none

/-- A processor runs an image. A fall-back of step 4 is logged as IMAGE_FALLBACK, whose code the spec does not give: a free value. -/
def State.startProcessor (s : State) (i : StepInfo) (ty unit : Nat) : Option State :=
  match s.startImage i ty unit with
  | none => none
  | some (r, fell) =>
    let s1 : State := { s with fw := { s.fw with run := Tab.put s.fw.run (fwKey ty unit) r }, sys := { s.sys with fwPorter := if ty = 1 then r.image.version else s.sys.fwPorter, fwInnkeeper := if ty = 2 then r.image.version else s.sys.fwInnkeeper } }
    some (if fell && ty != 1 then ({ s1 with free := s1.free + 1 } : State).logFault (Config.freeNat s1.free % 65536) 0 0 (plcB 0 1 ty ||| plcB 1 1 unit) else s1)

/-- Every processor of step 4 starts; none when one has no image. -/
def State.startAll (s : State) (i : StepInfo) : Option State :=
  ((([2, 3, 4, 5] : List Nat).flatMap (fun ty => (s.unitsOf ty).map (fun u => (ty, u))))).foldl
    (fun (o : Option State) x => o.bind (fun s => s.startProcessor i x.1 x.2)) (some s)

/-- Step 6: the islands' cold-start plans and retirements, in the order given; a fault that passes to device level halts the start
(R530). -/
def State.coldPlans (s : State) (l : List (Nat × Measured × Nat)) : State :=
  l.foldl (fun (s : State) e => if e.1 < 60 then s.characterised e.1 e.2.1 e.2.2 else s) s.loadWear

/-- A step that has ended well. -/
def State.startDone (s : State) (n : Nat) : State :=
  let s1 : State := { s with boot := { s.boot with steps := s.boot.steps ++ [n] } }
  if (n = 5 ∨ n = 6) ∧ s1.boot.steps.contains 5 ∧ s1.boot.steps.contains 6 then
    { s1 with dram := { s1.dram with wipes := s1.dram.wipes ++ [{ kind := 0, part := 0 }] } }
  else s1

/-- A DIMM of R214's table that supports 8,800 MT/s. -/
def Dimm.good (d : Dimm) : Bool :=
  d.x4 && ((d.gb == 64 && d.deviceGb == 16 && d.rowBits == 16) || (d.gb == 128 && d.deviceGb == 32 && d.rowBits == 17) ||
    (d.gb == 256 && d.deviceGb == 64 && d.rowBits == 18)) && d.rates.contains 8800

/-- The sockets that break the population of R214 (R216): empty, outside the table, without 8,800 MT/s, or unlike socket 0's DIMM. -/
def badSockets (l : List (Option Dimm)) : List Nat :=
  (List.range 48).filter (fun n => match l.getD n none with
    | some d => !d.good || l.getD 0 none != some d
    | none => true)

/-- The rate of R215: the highest of the three that every DIMM supports, no higher than MEM_RATE_MAX. -/
def State.memRate (s : State) (d : Dimm) : Nat :=
  (([12800, 10400, 8800] : List Nat).find? (fun r => d.rates.contains r && decide (r ≤ s.zh 64))).getD 8800

/-- Step 5: the SPDs give the population and the rate (R215, R216), and the device's own key slots are loaded with fresh keys (R240). The
log's DETAIL has a bit for each socket: DESIGN CHOICE (log entry 28). -/
def State.readSpd (s : State) (i : StepInfo) : State :=
  match badSockets i.dimms, i.dimms.getD 0 none with
  | [], some d =>
    if i.ok then
      let k := s.dram.nextKey
      ({ s with dram := { s.dram with rate := s.memRate d, dimmGb := d.gb, devKeys := { k0 := some k, k1 := some (k + 1), cur := 0 }, nextKey := k + 2 } } : State).startDone 5
    else s.halt i.halt 0
  | l, _ => s.halt 1 (l.foldl (fun a n => a + 2 ^ n) 0)

/-- A step of a start ends as `i` says. -/
def State.endStep (s : State) (n : Nat) (i : StepInfo) : State :=
  match n with
  | 1 =>
    if i.ok then ({ s with sys := { s.sys with bootNonce := Config.bootNonce s.free, timeUs := 0 }, free := s.free + 1 } : State).startDone 1
    else { s with boot := { s.boot with clockBad := true, running := false } }
  | 2 => (match s.startProcessor i 1 0 with | some t => t.startDone 2 | none => s.recover)
  | 3 => (if i.ok then s.readZhohi i.sig0 i.sig1 else s.opEvent 0x0020 0 0 0).startDone 3
  | 4 => (match s.startAll i with | some t => t.startDone 4 | none => s.recover)
  | 5 => s.readSpd i
  | 6 =>
    let t := s.coldPlans i.islands
    if !i.ok then s.halt i.halt 0 else if t.sys.devFaults.isEmpty then t.startDone 6 else t.halt 3 0
  | 7 => if !i.ok then s.halt (if i.halt = 6 then 6 else 4) 0 else if s.dram.wipes.any (fun w => decide (w.kind ≤ 1)) then s else s.startDone 7
  | 8 => s.startDone 8
  | 9 => if i.ok then s.startDone 9 else s.halt i.halt 0
  | 10 => s.publish.startDone 10
  | _ => s

/-- START_STEP_COMPLETE: a step of the start sequence ends, and the steps that follow it may begin (R523). -/
def execStartStepComplete (n : Nat) (info : StepInfo) (s : State) : Outc :=
  .next (
    if !s.boot.running || s.boot.steps.contains n || !(stepAfter n).all (fun k => s.boot.steps.contains k) then s
    else (s.endStep n info).drive s)

/-! ## Doze (R381, R526, R527) -/

/-- The conditions for doze: READY, no block bound, no emergency, and no activation, wipe, evacuation or margin plan running. -/
def State.dozeOk (s : State) : Bool :=
  s.sys.state == .ready && !s.fab.blocks.any (fun e => e.2.bound.isSome || e.2.wipe.isSome || e.2.quiesced) && !s.pow.emergency &&
  s.fw.act.isNone && s.dram.wipes.isEmpty && s.fail.out.isEmpty && s.fail.withdraw.isNone &&
  !s.age.islands.any (fun e => e.2.quiet.isSome || e.2.draining)

/-- Doze is entered (R526): the epoch is closed, signed and delivered, the DIMMs enter self-refresh, the ports follow R381. -/
def State.enterDoze (s : State) : State :=
  let s1 := s.epochClose.signAll.portsToDoze
  { s1 with sys := { s1.sys with state := .doze }, boot := { s1.boot with dozeWait := false } }

/-- Doze ends (R527): the ports train again, and memory, partitions, boot nonce and TIME_US stand. -/
def State.wake (s : State) : State :=
  if s.sys.state = .doze then
    let s1 : State := { s with sys := { s.sys with state := .ready } }
    s1.updPort 12 (fun x => { x.restart with state := .down, keep := false, retryAt := s.now, lanes := [] })
  else s

/-- Nothing is under way in a crossing of a spine, the hub switch or a block (R24), and Innkeeper holds no item (R526). -/
def State.crossingsEmpty (s : State) : Bool := s.spineIdle && s.fab.claims.isEmpty && s.stn.flight.isEmpty && s.fen.port.isEmpty && s.innReqs.isEmpty

/-- A permitted doze begins at once, or waits until every crossing is empty (R24) and Innkeeper has completed what it holds (R526). -/
def State.beginDoze (s : State) : State :=
  if s.crossingsEmpty then s.enterDoze else { s with boot := { s.boot with dozeWait := true } }

/-- DOZE_ENTER: from an operator session. -/
def execDozeEnter (m : MsgRef) (s : State) : Outc :=
  .next (runPlain s m 0 0 (fun s => if !s.owner m then refuseM s .notAuthorised else if s.dozeOk then okM s.beginDoze 0 else refuseM s .inUse))

/-- DOZE_EXIT. -/
def execDozeExit (m : MsgRef) (s : State) : Outc := .next (runPlain s m 0 0 (fun s => okM s.wake 0))

/-- A doze that waits begins as soon as its conditions hold; 1 ms of DOZE_REQ_N low asks for one, except in HALTED and WITHDRAWN (R526,
R535). -/
def State.tickDoze (s : State) : State :=
  let ask := s.boot.dozeLow == some 1000 && s.sys.state != .halted && s.sys.state != .withdrawn && s.sys.state != .doze
  let s1 : State := if ask then { s with boot := { s.boot with dozeWait := true } } else s
  if s1.boot.dozeWait && s1.dozeOk && s1.crossingsEmpty then s1.enterDoze else s1

/-- DOZE_REQ_N_ASSERT: DOZE_REQ_N falls. -/
def execDozeReqNAssert (s : State) : Outc :=
  .next (if s.boot.dozeLow.isSome then s else { s with boot := { s.boot with dozeLow := some 0 } })

/-- DOZE_REQ_N_RELEASE: DOZE_REQ_N rises: a doze that waits is taken back, and a doze ends (R527). -/
def execDozeReqNRelease (s : State) : Outc :=
  .next (if s.boot.dozeLow.isNone then s else ({ s with boot := { s.boot with dozeLow := none, dozeWait := false } } : State).wake)

/-- WAKE: a WAKE transaction on H0.0 (R380, R527). -/
def execWake (s : State) : Outc := .next (s.onTxn 12 0x0E (fun _ _ s => s.wake))

/-! ## The fault log (R556) -/

/-- The entries the flash region holds, oldest first: 131,072 of them. -/
def State.heldLog (s : State) : List FaultEntry := (s.log.take 131072).reverse

/-- A fault-log entry's 64 bytes. -/
def FaultEntry.toNat (e : FaultEntry) : Nat :=
  plcB 0 8 e.seq ||| plcB 8 8 e.time ||| plcB 16 8 e.nonce.toNat ||| plcB 24 2 e.code ||| plc 26 5 0 e.part ||| plc 27 5 0 e.slot |||
  plcB 28 4 e.source ||| plcB 32 32 e.detail

/-- The 4,000-byte body of a FaultLogPart. -/
def logPart (l : List FaultEntry) : Nat :=
  (match l with | e :: _ => plcB 0 8 e.seq | [] => 0) ||| plcB 8 2 l.length ||| ofBytes (l.flatMap (fun e => bytesOf 64 e.toNat)) <<< 128

/-- FAULT_LOG_READ: the newest SEQ in VALUE, then one FaultLogPart (R556). -/
def execFaultLogRead (m : MsgRef) (body : BitVec 128) (s : State) : Outc :=
  .next (
    let r := body.toNat
    let n := fldB r 8 2
    if !s.owner m then s.answerMsg m (.refused .notAuthorised 0)
    else if bodyRsvd r [(0, 63, 0), (8, 15, 0)] then s.answerMsg m (.refused .rsvdSet 0)
    else if n = 0 ∨ 62 < n then s.answerMsg m (badParam 8 0)
    else
      let l := (s.heldLog.filter (fun e => decide (fldB r 0 8 ≤ e.seq))).take n
      (s.answerMsg m (.ok (match s.log with | e :: _ => e.seq | [] => 0))).emitOut (.msg (.initiator m.session) 0x0807 [logPart l]))

/-! ## Descriptor write-back (R437) -/

/-- QUEUE_DESCRIPTOR_WRITEBACK: every 1 ms the counters of cached queue descriptors go to both device-reserved copies. -/
def execQueueDescriptorWriteback (s : State) : Outc :=
  .next (
    if s.now % 1000 ≠ 0 then s
    else
      s.stn.cached.foldl (fun (s : State) q => match s.descImage q with | some n => s.copyDesc q n | none => s) s)

end Sys2Proof.Machine
end

