-- ==== Sys2Proof/Machine/Clock.lean ====
section
/-! DEFINITION. Sys2Proof/Machine/Clock.lean: what one microsecond without a command does: the local counters count (R36), and what the
spec times happens. The table has no row for a tick; a step on an empty queue is one (DESIGN CHOICE, log entry 3). -/

namespace Sys2Proof.Machine

/-- TIME_US counts from the moment Porter runs (R36, R523). -/
def State.tickTime (s : State) : State :=
  if s.boot.steps.contains 1 then { s with sys := { s.sys with timeUs := (s.sys.timeUs + 1) % 2 ^ 64 } } else s

/-- A powered block's cycle counter counts its CLK_BLK, stretched cycles included (R36): a stretched period is twice as long, so that half
as many cycles pass (R23, R464). -/
def Block.tick (stretched : Bool) (b : Block) : Block :=
  if b.powered then { b with cycles := (b.cycles + (if stretched then b.mhz / 2 else b.mhz)) % 2 ^ 64 } else b

/-- A trained port's link cycle counter counts its CLK_LNK: 1,562.5 MHz, in doze 390.625 MHz (R21, R36), half as many
while its island is stretched (R464); `t` is the µs that ends. -/
def LPort.tick (t : Nat) (stretched : Bool) (x : LPort) : LPort :=
  let n (khz : Nat) : Nat := ((t + 1) * khz / 1000 - t * khz / 1000) / (if stretched then 2 else 1)
  match x.state with
  | .active => { x with cycles := (x.cycles + n 1562500) % 2 ^ 48 }
  | .probation => { x with cycles := (x.cycles + n 1562500) % 2 ^ 48 }
  | .quarantined => { x with cycles := (x.cycles + n 1562500) % 2 ^ 48 }
  | .doze => { x with cycles := (x.cycles + n 390625) % 2 ^ 48 }
  | .down => x
  | .pmdTrain => x
  | .align => x
  | .ident => x

/-- The counters of the islands and ports. -/
def State.tickCounters (s : State) : State :=
  { s with
    fab := { s.fab with blocks := Tab.all s.fab.blocks (fun n b => b.tick (Tab.has s.pow.droop n)) }
    link := { s.link with ports := Tab.all s.link.ports (fun n x => x.tick s.now (Tab.has s.pow.droop (118 + n))) } }

/-- One µs passes: 1,250 CLK_SPN of the spines and criers (R21; DESIGN CHOICE, log entry 47), and the counters. With AON down nothing counts. -/
def State.tick (s : State) : State :=
  if s.boot.aon then (s.issueReads.spineRun 1250).tickCounters.tickTime.tickWatchdogs.tickStalls.tickHours.runResets.healSessions.sendSaves.tickReset.tickDoze.fuse else s

end Sys2Proof.Machine
end

