-- ==== Sys2Proof/Machine/Regulation.lean ====
section
/-! DEFINITION. Sys2Proof/Machine/Regulation.lean: the regulation window and the controllers' feedback (15_regulation R412-R419,
R423). -/

namespace Sys2Proof.Machine

/-! ## REGULATION_SAMPLE (R416, R419) -/

/-- Queue entries a controller holds (R227). -/
def State.occupancy (s : State) (ch : Nat) : Nat := (s.ctrl ch).held.length

/-- S(g) after a sample (R416, R423): the high sample governs. -/
def State.nextStep (s : State) (g : Nat) : Nat :=
  let occ := (List.range 4).map (fun i => s.occupancy (g * 4 + i))
  if occ.any (fun n => decide (s.zh 70 ≤ n)) then min 7 (s.slowStep g + 1)
  else if occ.all (fun n => decide (n ≤ s.zh 71)) then 0
  else s.slowStep g

/-- A master's demand sample (R419): outstanding and waiting transactions number at least OT_MIN. -/
def RegMaster.sample (m : RegMaster) : RegMaster :=
  if 1 ≤ m.otMin ∧ m.otMin ≤ m.p1 + m.p3 + m.waiting then { m with demand := m.demand + 1 } else m

/-- The demand sample of the master of a key; one whose port is QUARANTINED or DOWN shows none (R419, R423). -/
def State.sampleMaster (s : State) (waits : List Nat) (k : Nat) (m : RegMaster) : RegMaster :=
  let m1 : RegMaster := { m with waiting := (waits.filter (· == k)).length }
  if s.portStopped (k / 16 % 256) then m1 else m1.sample

/-- REGULATION_SAMPLE: at a whole µs of TIME_US every group's controllers are sampled, S(g) follows, and each master's demand is noted
(R416, R419). -/
def execRegulationSample (s : State) : Outc :=
  .next (
    if s.reg.sampled = some s.now then s
    else
      let step := (List.range 12).foldl (fun (t : Tab Nat) g => Tab.put t g (s.nextStep g)) s.reg.step
      let waits := s.waitingReads
      let masters := Tab.all s.reg.masters (s.sampleMaster waits)
      { s with reg := { s.reg with step := step, masters := masters, sampled := some s.now } })

/-! ## REGULATION_WINDOW (R412, R413, R419) -/

/-- Order numbers of a partition's regulated masters, ascending (R412). -/
def Partition.masterOrders (x : Partition) : List Nat :=
  (sortBy id (Tab.vals x.blockMap)).flatMap (fun b => (List.range 4).map (· + b * 4)) ++
  ((List.range 12).filter (fun n => Tab.getD x.portShare n 0 != 0)).map (· + 240) ++ [252, 253]

/-- OT_MIN of the i-th of n masters (R412). -/
def otMinOf (pmin n i : Nat) : Nat := pmin / n + (if i < pmin % n then 1 else 0)

/-- A master as the next window begins: new OT_MIN and OT_MAX (R412, R413), outstanding transactions kept with their class. -/
def State.windowMaster (s : State) (x : Partition) (k otMin : Nat) : RegMaster :=
  { s.master k with otMin := otMin, otMax := if x.sealedShare then otMin else max (s.zh 68) otMin, waiting := 0, done := 0, demand := 0, subs := [] }

/-- Every master with a guarantee on a group in the next window. -/
def State.windowMasters (s : State) : Tab RegMaster :=
  s.part.parts.foldl (fun (t : Tab RegMaster) e =>
    let l := e.2.masterOrders
    e.2.chShare.foldl (fun (t : Tab RegMaster) gs =>
      (List.zip (List.range l.length) l).foldl (fun (t : Tab RegMaster) io =>
        let k := regKey e.1 io.2 gs.1
        Tab.put t k (s.windowMaster e.2 k (otMinOf (12 * gs.2) l.length io.1))) t) t) []

/-- A master that has no guarantee but transactions outstanding: it keeps them. -/
def State.restMasters (s : State) : Tab RegMaster :=
  (s.reg.masters.filter (fun e => decide (0 < e.2.p1 + e.2.p3))).map (fun e =>
    (e.1, { s.freshMaster (e.1 / 4096) (e.1 / 16 % 256) with p1 := e.2.p1, p3 := e.2.p3 }))

/-- The guarantee of a master in the window that ends (R419). -/
def State.guarantee (s : State) (m : RegMaster) : Nat :=
  m.otMin * sumN (m.subs.map (fun i => Tab.getD s.reg.slots i 0)) / 1024

/-- GUARANTEE_MISSED, to the master's partition and to the operator (R419). -/
def State.checkGuarantee (s : State) (k : Nat) (m : RegMaster) : State :=
  let g := s.guarantee m
  let p := k / 4096
  let order := k / 16 % 256
  let d := plcB 0 2 (k % 16) ||| plcB 2 2 m.otMin ||| plcB 4 4 g ||| plcB 8 4 m.done
  if 10 ≤ m.demand ∧ m.done < g then (s.event 0x0011 p 0 false order 0xFFFF d).opEvent 0x0011 p order d else s

/-- S_p of a partition in 1/11520 (R473). -/
def State.boundShare (s : State) (x : Partition) : Nat :=
  64 * x.blockMap.length + 5 * sumN (Tab.vals x.chShare) + (if s.sys.variantT then 20 else 40) * sumN (Tab.vals x.portShare)

/-- REGULATION_WINDOW: a window begins at a multiple of 10 µs (R413): the guarantees of the one that ends are checked, OT_MIN and OT_MAX
are computed anew, share changes take effect and are answered (R352), and bound shares are fixed (R473). -/
def execRegulationWindow (s : State) : Outc :=
  .next (
    if s.now % 10 ≠ 0 ∨ s.reg.begun = some s.now then s
    else
      let s1 := if s.reg.begun = some (s.now - 10) ∧ 10 ≤ s.now then s.reg.masters.foldl (fun (s : State) e => s.checkGuarantee e.1 e.2) s else s
      let masters := (s1.windowMasters).foldl (fun (t : Tab RegMaster) e => Tab.put t e.1 e.2) s1.restMasters
      let s2 := { s1 with reg := { s1.reg with masters := masters, slots := [], begun := some s.now } }
      let s3 := { s2 with reck := { s2.reck with shares := Tab.all s2.part.parts (fun _ x => s2.boundShare x) } }
      let s4 := s3.part.shareRefs.foldl (fun (s : State) m => s.answerMsg m (.ok 0)) s3
      { s4 with part := { s4.part with shareRefs := [] } })

end Sys2Proof.Machine
end

