-- ==== Sys2Proof/Machine/Dispatch.lean ====
section
/-! DEFINITION. Sys2Proof/Machine/Dispatch.lean: one arm per command of Syntax.lean, each one direct call of its meaning. -/

namespace Sys2Proof.Machine

def exec (i : Instr) (s : State) : Host.Outcome State Fault Refusal :=
  match i with
  | .contextCreate ring record => Sys2Proof.Machine.execContextCreate ring record s
  | .contextRevoke ring record => Sys2Proof.Machine.execContextRevoke ring record s
  | .contextRevoked p c => Sys2Proof.Machine.execContextRevoked p c s
  | .contextDrained p c => Sys2Proof.Machine.execContextDrained p c s
  | .memoryObjectCreate ring record => Sys2Proof.Machine.execMemoryObjectCreate ring record s
  | .memoryObjectRelease ring record => Sys2Proof.Machine.execMemoryObjectRelease ring record s
  | .queueCreate ring record => Sys2Proof.Machine.execQueueCreate ring record s
  | .queueDestroy ring record => Sys2Proof.Machine.execQueueDestroy ring record s
  | .fenceCreate ring record => Sys2Proof.Machine.execFenceCreate ring record s
  | .fenceRelease ring record => Sys2Proof.Machine.execFenceRelease ring record s
  | .fenceSignal ring record => Sys2Proof.Machine.execFenceSignal ring record s
  | .fenceWait ring record => Sys2Proof.Machine.execFenceWait ring record s
  | .fenceWaitTimeout ring => Sys2Proof.Machine.execFenceWaitTimeout ring s
  | .fenceReset ring record => Sys2Proof.Machine.execFenceReset ring record s
  | .resultFetch ring record => Sys2Proof.Machine.execResultFetch ring record s
  | .fenceSignalApply n => Sys2Proof.Machine.execFenceSignalApply n s
  | .stationDefine ring record => Sys2Proof.Machine.execStationDefine ring record s
  | .stationBind ring record => Sys2Proof.Machine.execStationBind ring record s
  | .stationUnbind ring record => Sys2Proof.Machine.execStationUnbind ring record s
  | .stationUnbound p id => Sys2Proof.Machine.execStationUnbound p id s
  | .stationPredicate ring record => Sys2Proof.Machine.execStationPredicate ring record s
  | .stationPredicateArrive p id => Sys2Proof.Machine.execStationPredicateArrive p id s
  | .stationPredicated p id => Sys2Proof.Machine.execStationPredicated p id s
  | .waybillSubmit ring record => Sys2Proof.Machine.execWaybillSubmit ring record s
  | .stewardAppoint ring record => Sys2Proof.Machine.execStewardAppoint ring record s
  | .stewardDismiss ring record => Sys2Proof.Machine.execStewardDismiss ring record s
  | .stewardDismissed c => Sys2Proof.Machine.execStewardDismissed c s
  | .caravanDefine ring record => Sys2Proof.Machine.execCaravanDefine ring record s
  | .caravanRelease ring record => Sys2Proof.Machine.execCaravanRelease ring record s
  | .mirrorSync ring record => Sys2Proof.Machine.execMirrorSync ring record s
  | .mirrorSyncSend p => Sys2Proof.Machine.execMirrorSyncSend p s
  | .btuInvalidate block => Sys2Proof.Machine.execBtuInvalidate block s
  | .btuInvalidateAck block => Sys2Proof.Machine.execBtuInvalidateAck block s
  | .mirrorSynced p => Sys2Proof.Machine.execMirrorSynced p s
  | .milestoneSet ring record => Sys2Proof.Machine.execMilestoneSet ring record s
  | .milestoneTick => Sys2Proof.Machine.execMilestoneTick s
  | .requestCancel ring record => Sys2Proof.Machine.execRequestCancel ring record s
  | .cancelHoldExpire p id => Sys2Proof.Machine.execCancelHoldExpire p id s
  | .windowOpen ring record => Sys2Proof.Machine.execWindowOpen ring record s
  | .windowClose ring record => Sys2Proof.Machine.execWindowClose ring record s
  | .windowOpenMsg m body => Sys2Proof.Machine.execWindowOpenMsg m body s
  | .windowCloseMsg m body => Sys2Proof.Machine.execWindowCloseMsg m body s
  | .windowClosed id => Sys2Proof.Machine.execWindowClosed id s
  | .partitionRekey ring record => Sys2Proof.Machine.execPartitionRekey ring record s
  | .rekeySweepPage p ch => Sys2Proof.Machine.execRekeySweepPage p ch s
  | .rekeyBitmapFlip p ch => Sys2Proof.Machine.execRekeyBitmapFlip p ch s
  | .rekeyPageRelease p ch => Sys2Proof.Machine.execRekeyPageRelease p ch s
  | .rekeyDone p => Sys2Proof.Machine.execRekeyDone p s
  | .sequencerRestart ch => Sys2Proof.Machine.execSequencerRestart ch s
  | .hint ring record => Sys2Proof.Machine.execHint ring record s
  | .hintPhaseStart p station => Sys2Proof.Machine.execHintPhaseStart p station s
  | .hintPhaseEnd p station => Sys2Proof.Machine.execHintPhaseEnd p station s
  | .planDefine ring record => Sys2Proof.Machine.execPlanDefine ring record s
  | .planRelease ring record => Sys2Proof.Machine.execPlanRelease ring record s
  | .sessionOpen ring record => Sys2Proof.Machine.execSessionOpen ring record s
  | .sessionAppend ring record => Sys2Proof.Machine.execSessionAppend ring record s
  | .sessionCancel ring record => Sys2Proof.Machine.execSessionCancel ring record s
  | .sessionClose ring record => Sys2Proof.Machine.execSessionClose ring record s
  | .sessionCloseComplete slot => Sys2Proof.Machine.execSessionCloseComplete slot s
  | .weightLoad ring record => Sys2Proof.Machine.execWeightLoad ring record s
  | .weightRelease ring record => Sys2Proof.Machine.execWeightRelease ring record s
  | .submissionTailDoorbell page stamp w => Sys2Proof.Machine.execSubmissionTailDoorbell page stamp w s
  | .completionHeadDoorbell page stamp w => Sys2Proof.Machine.execCompletionHeadDoorbell page stamp w s
  | .eventHeadDoorbell page stamp w => Sys2Proof.Machine.execEventHeadDoorbell page stamp w s
  | .tokenRingHeadDoorbell page stamp w => Sys2Proof.Machine.execTokenRingHeadDoorbell page stamp w s
  | .reckoningRingHeadDoorbell page stamp w => Sys2Proof.Machine.execReckoningRingHeadDoorbell page stamp w s
  | .configWriteReadOnly fn addr => Sys2Proof.Machine.execConfigWriteReadOnly fn addr s
  | .submissionEntry q => Sys2Proof.Machine.execSubmissionEntry q s
  | .commandBufferStart q => Sys2Proof.Machine.execCommandBufferStart q s
  | .answerWrittenOnRoom q => Sys2Proof.Machine.execAnswerWrittenOnRoom q s
  | .eventWrite => Sys2Proof.Machine.execEventWrite s
  | .eventsLost q => Sys2Proof.Machine.execEventsLost q s
  | .waybillStart block => Sys2Proof.Machine.execWaybillStart block s
  | .waybillEnqueue q => Sys2Proof.Machine.execWaybillEnqueue q s
  | .hubDirectoryEnqueue q => Sys2Proof.Machine.execHubDirectoryEnqueue q s
  | .refillGroupStart q => Sys2Proof.Machine.execRefillGroupStart q s
  | .refillGroupComplete q => Sys2Proof.Machine.execRefillGroupComplete q s
  | .engineCommit e => Sys2Proof.Machine.execEngineCommit e s
  | .heldCommitComplete => Sys2Proof.Machine.execHeldCommitComplete s
  | .orderedCommitSignal p station => Sys2Proof.Machine.execOrderedCommitSignal p station s
  | .mEnd c => Sys2Proof.Machine.execMEnd c s
  | .mLda c => Sys2Proof.Machine.execMLda c s
  | .mLdb c => Sys2Proof.Machine.execMLdb c s
  | .mMma c => Sys2Proof.Machine.execMMma c s
  | .mMmaeg c => Sys2Proof.Machine.execMMmaeg c s
  | .mAccz c => Sys2Proof.Machine.execMAccz c s
  | .mAccst c => Sys2Proof.Machine.execMAccst c s
  | .mAccld c => Sys2Proof.Machine.execMAccld c s
  | .mEmit c => Sys2Proof.Machine.execMEmit c s
  | .mRepeat c => Sys2Proof.Machine.execMRepeat c s
  | .mSync c => Sys2Proof.Machine.execMSync c s
  | .vVadd c => Sys2Proof.Machine.execVVadd c s
  | .vVsub c => Sys2Proof.Machine.execVVsub c s
  | .vVmul c => Sys2Proof.Machine.execVVmul c s
  | .vVfma c => Sys2Proof.Machine.execVVfma c s
  | .vVfnma c => Sys2Proof.Machine.execVVfnma c s
  | .vVmin c => Sys2Proof.Machine.execVVmin c s
  | .vVmax c => Sys2Proof.Machine.execVVmax c s
  | .vVabs c => Sys2Proof.Machine.execVVabs c s
  | .vVneg c => Sys2Proof.Machine.execVVneg c s
  | .vVand c => Sys2Proof.Machine.execVVand c s
  | .vVor c => Sys2Proof.Machine.execVVor c s
  | .vVxor c => Sys2Proof.Machine.execVVxor c s
  | .vVshl c => Sys2Proof.Machine.execVVshl c s
  | .vVshr c => Sys2Proof.Machine.execVVshr c s
  | .vVsel c => Sys2Proof.Machine.execVVsel c s
  | .vVcmp c => Sys2Proof.Machine.execVVcmp c s
  | .vPlogic c => Sys2Proof.Machine.execVPlogic c s
  | .vVcvt c => Sys2Proof.Machine.execVVcvt c s
  | .vVperm c => Sys2Proof.Machine.execVVperm c s
  | .vVmova c => Sys2Proof.Machine.execVVmova c s
  | .vVlane c => Sys2Proof.Machine.execVVlane c s
  | .vVradd c => Sys2Proof.Machine.execVVradd c s
  | .vVrmax c => Sys2Proof.Machine.execVVrmax c s
  | .vVrmin c => Sys2Proof.Machine.execVVrmin c s
  | .vVscan c => Sys2Proof.Machine.execVVscan c s
  | .vVffs c => Sys2Proof.Machine.execVVffs c s
  | .vVpcnt c => Sys2Proof.Machine.execVVpcnt c s
  | .vVext c => Sys2Proof.Machine.execVVext c s
  | .vVsfu c => Sys2Proof.Machine.execVVsfu c s
  | .vTkinit c => Sys2Proof.Machine.execVTkinit c s
  | .vTkpush c => Sys2Proof.Machine.execVTkpush c s
  | .vTkpop c => Sys2Proof.Machine.execVTkpop c s
  | .vVrand c => Sys2Proof.Machine.execVVrand c s
  | .vVld c => Sys2Proof.Machine.execVVld c s
  | .vVst c => Sys2Proof.Machine.execVVst c s
  | .vVldx c => Sys2Proof.Machine.execVVldx c s
  | .vVstx c => Sys2Proof.Machine.execVVstx c s
  | .vLda c => Sys2Proof.Machine.execVLda c s
  | .vSta c => Sys2Proof.Machine.execVSta c s
  | .vAaddi c => Sys2Proof.Machine.execVAaddi c s
  | .vAop c => Sys2Proof.Machine.execVAop c s
  | .vAlui c => Sys2Proof.Machine.execVAlui c s
  | .vBr c => Sys2Proof.Machine.execVBr c s
  | .vSr c => Sys2Proof.Machine.execVSr c s
  | .vNop c => Sys2Proof.Machine.execVNop c s
  | .vEnd c => Sys2Proof.Machine.execVEnd c s
  | .vEmit c => Sys2Proof.Machine.execVEmit c s
  | .vDrain c => Sys2Proof.Machine.execVDrain c s
  | .sAlu c => Sys2Proof.Machine.execSAlu c s
  | .sCmp c => Sys2Proof.Machine.execSCmp c s
  | .sMul c => Sys2Proof.Machine.execSMul c s
  | .sDiv c => Sys2Proof.Machine.execSDiv c s
  | .sAddi c => Sys2Proof.Machine.execSAddi c s
  | .sAndi c => Sys2Proof.Machine.execSAndi c s
  | .sOri c => Sys2Proof.Machine.execSOri c s
  | .sXori c => Sys2Proof.Machine.execSXori c s
  | .sSlti c => Sys2Proof.Machine.execSSlti c s
  | .sSltiu c => Sys2Proof.Machine.execSSltiu c s
  | .sShi c => Sys2Proof.Machine.execSShi c s
  | .sLui c => Sys2Proof.Machine.execSLui c s
  | .sLd c => Sys2Proof.Machine.execSLd c s
  | .sLdu c => Sys2Proof.Machine.execSLdu c s
  | .sSt c => Sys2Proof.Machine.execSSt c s
  | .sAmo c => Sys2Proof.Machine.execSAmo c s
  | .sBr c => Sys2Proof.Machine.execSBr c s
  | .sJal c => Sys2Proof.Machine.execSJal c s
  | .sJalr c => Sys2Proof.Machine.execSJalr c s
  | .sFrd c => Sys2Proof.Machine.execSFrd c s
  | .sQocc c => Sys2Proof.Machine.execSQocc c s
  | .sSr c => Sys2Proof.Machine.execSSr c s
  | .sNop c => Sys2Proof.Machine.execSNop c s
  | .sEnd c => Sys2Proof.Machine.execSEnd c s
  | .sEmit c => Sys2Proof.Machine.execSEmit c s
  | .sEmitKeepf c => Sys2Proof.Machine.execSEmitKeepf c s
  | .sDrain c => Sys2Proof.Machine.execSDrain c s
  | .sFsig c => Sys2Proof.Machine.execSFsig c s
  | .sQput c => Sys2Proof.Machine.execSQput c s
  | .sQtake c => Sys2Proof.Machine.execSQtake c s
  | .sWaitq c => Sys2Proof.Machine.execSWaitq c s
  | .sWaitqResume c => Sys2Proof.Machine.execSWaitqResume c s
  | .sCancel c => Sys2Proof.Machine.execSCancel c s
  | .sPred c => Sys2Proof.Machine.execSPred c s
  | .sCrd c => Sys2Proof.Machine.execSCrd c s
  | .sliceAccessComplete block => Sys2Proof.Machine.execSliceAccessComplete block s
  | .crierSend carrier device srcBlock srcOff length dstOff mask => Sys2Proof.Machine.execCrierSend carrier device srcBlock srcOff length dstOff mask s
  | .crierStageGrant r => Sys2Proof.Machine.execCrierStageGrant r s
  | .deliveryMark send target => Sys2Proof.Machine.execDeliveryMark send target s
  | .caravanWrite carrier id off srcBlock srcOff length => Sys2Proof.Machine.execCaravanWrite carrier id off srcBlock srcOff length s
  | .spineFlitCrcFail hop flit => Sys2Proof.Machine.execSpineFlitCrcFail hop flit s
  | .sliceSecDedError block uncorrectable access => Sys2Proof.Machine.execSliceSecDedError block uncorrectable access s
  | .sliceWipeDone block => Sys2Proof.Machine.execSliceWipeDone block s
  | .dispatchStart unit => Sys2Proof.Machine.execDispatchStart unit s
  | .dispatchSlotFencePoll unit => Sys2Proof.Machine.execDispatchSlotFencePoll unit s
  | .dispatchCommit unit => Sys2Proof.Machine.execDispatchCommit unit s
  | .combineOpenBatch unit => Sys2Proof.Machine.execCombineOpenBatch unit s
  | .combineResult unit => Sys2Proof.Machine.execCombineResult unit s
  | .combineCommit unit => Sys2Proof.Machine.execCombineCommit unit s
  | .gatherStart carrier => Sys2Proof.Machine.execGatherStart carrier s
  | .gatherCommit carrier => Sys2Proof.Machine.execGatherCommit carrier s
  | .collectiveStart n => Sys2Proof.Machine.execCollectiveStart n s
  | .collectiveSegmentSend n => Sys2Proof.Machine.execCollectiveSegmentSend n s
  | .collectiveSegmentReady n => Sys2Proof.Machine.execCollectiveSegmentReady n s
  | .collectiveCommit n => Sys2Proof.Machine.execCollectiveCommit n s
  | .dramSlotGrant ch sub => Sys2Proof.Machine.execDramSlotGrant ch sub s
  | .dramReadData ch errs => Sys2Proof.Machine.execDramReadData ch errs s
  | .dramRefsb ch => Sys2Proof.Machine.execDramRefsb ch s
  | .dramPatrolScrub ch sub errs => Sys2Proof.Machine.execDramPatrolScrub ch sub errs s
  | .dimmTemp85Cross ch above => Sys2Proof.Machine.execDimmTemp85Cross ch above s
  | .dramBusReplay ch seq command => Sys2Proof.Machine.execDramBusReplay ch seq command s
  | .dimmLost ch => Sys2Proof.Machine.execDimmLost ch s
  | .p3Promotion ch => Sys2Proof.Machine.execP3Promotion ch s
  | .parityRowFlush region => Sys2Proof.Machine.execParityRowFlush region s
  | .parityEntryFreed region => Sys2Proof.Machine.execParityEntryFreed region s
  | .deviceWipe => Sys2Proof.Machine.execDeviceWipe s
  | .carveOutWipeDone p => Sys2Proof.Machine.execCarveOutWipeDone p s
  | .codedInitDone p => Sys2Proof.Machine.execCodedInitDone p s
  | .tlbMissWalk block stream engine write look => Sys2Proof.Machine.execTlbMissWalk block stream engine write look s
  | .walkReadReturn block slot => Sys2Proof.Machine.execWalkReadReturn block slot s
  | .prefetchWalkStart block stream engine write look => Sys2Proof.Machine.execPrefetchWalkStart block stream engine write look s
  | .windowRoute m body => Sys2Proof.Machine.execWindowRoute m body s
  | .windowKeyLoad m body => Sys2Proof.Machine.execWindowKeyLoad m body s
  | .partitionCreate m body => Sys2Proof.Machine.execPartitionCreate m body s
  | .partitionDestroy m body => Sys2Proof.Machine.execPartitionDestroy m body s
  | .partitionDestroyed p => Sys2Proof.Machine.execPartitionDestroyed p s
  | .blockBind m body => Sys2Proof.Machine.execBlockBind m body s
  | .blockRelease m body => Sys2Proof.Machine.execBlockRelease m body s
  | .blockReleased block => Sys2Proof.Machine.execBlockReleased block s
  | .blockMove m body => Sys2Proof.Machine.execBlockMove m body s
  | .blockMoveDrained src => Sys2Proof.Machine.execBlockMoveDrained src s
  | .blockMoveCopied src => Sys2Proof.Machine.execBlockMoveCopied src s
  | .blockMoved src => Sys2Proof.Machine.execBlockMoved src s
  | .stationMove m body => Sys2Proof.Machine.execStationMove m body s
  | .stationMoved p id => Sys2Proof.Machine.execStationMoved p id s
  | .epochNotice p block => Sys2Proof.Machine.execEpochNotice p block s
  | .epochRetire p => Sys2Proof.Machine.execEpochRetire p s
  | .channelShare m body => Sys2Proof.Machine.execChannelShare m body s
  | .portShare m body => Sys2Proof.Machine.execPortShare m body s
  | .queuePairOpen m body => Sys2Proof.Machine.execQueuePairOpen m body s
  | .queuePairRetarget m body => Sys2Proof.Machine.execQueuePairRetarget m body s
  | .queuePairRetargeted q => Sys2Proof.Machine.execQueuePairRetargeted q s
  | .queuePairClose m body => Sys2Proof.Machine.execQueuePairClose m body s
  | .companionSet m body => Sys2Proof.Machine.execCompanionSet m body s
  | .requestHandoff m body => Sys2Proof.Machine.execRequestHandoff m body s
  | .nodeAssign m body => Sys2Proof.Machine.execNodeAssign m body s
  | .leaseOffer m node body image => Sys2Proof.Machine.execLeaseOffer m node body image s
  | .leaseAccept m node body => Sys2Proof.Machine.execLeaseAccept m node body s
  | .leaseRenew m node body => Sys2Proof.Machine.execLeaseRenew m node body s
  | .leaseRenewTimer p req => Sys2Proof.Machine.execLeaseRenewTimer p req s
  | .leaseGrant m node body => Sys2Proof.Machine.execLeaseGrant m node body s
  | .leaseExpire p req => Sys2Proof.Machine.execLeaseExpire p req s
  | .leaseRevoked m node body => Sys2Proof.Machine.execLeaseRevoked m node body s
  | .leaseGrantTimeout p req => Sys2Proof.Machine.execLeaseGrantTimeout p req s
  | .tokenNotice m node body => Sys2Proof.Machine.execTokenNotice m node body s
  | .homeDeadlineReclaim p req => Sys2Proof.Machine.execHomeDeadlineReclaim p req s
  | .stepCompose p plan => Sys2Proof.Machine.execStepCompose p plan s
  | .stepResult p plan => Sys2Proof.Machine.execStepResult p plan s
  | .stepTimeout p plan => Sys2Proof.Machine.execStepTimeout p plan s
  | .tokenLogWrite => Sys2Proof.Machine.execTokenLogWrite s
  | .sessionReadmit p plan => Sys2Proof.Machine.execSessionReadmit p plan s
  | .mirrorEntryAck slot gen kind index ok => Sys2Proof.Machine.execMirrorEntryAck slot gen kind index ok s
  | .tokenRecordWrite slot => Sys2Proof.Machine.execTokenRecordWrite slot s
  | .mirrorEntry m node part body => Sys2Proof.Machine.execMirrorEntry m node part body s
  | .mirrorAccept m body => Sys2Proof.Machine.execMirrorAccept m body s
  | .companionTakeover m body => Sys2Proof.Machine.execCompanionTakeover m body s
  | .partitionResetMsg m body => Sys2Proof.Machine.execPartitionResetMsg m body s
  | .partitionResetDone p => Sys2Proof.Machine.execPartitionResetDone p s
  | .hangCapture p => Sys2Proof.Machine.execHangCapture p s
  | .hangCaptureTimeout p written => Sys2Proof.Machine.execHangCaptureTimeout p written s
  | .engineWatchdogExpire e => Sys2Proof.Machine.execEngineWatchdogExpire e s
  | .stationHung p id => Sys2Proof.Machine.execStationHung p id s
  | .queueStalled q => Sys2Proof.Machine.execQueueStalled q s
  | .dispatcherHang block => Sys2Proof.Machine.execDispatcherHang block s
  | .cellUncorrectable c single => Sys2Proof.Machine.execCellUncorrectable c single s
  | .withdrawal => Sys2Proof.Machine.execWithdrawal s
  | .evacuateTo m body => Sys2Proof.Machine.execEvacuateTo m body s
  | .portmanteauChunk m node header data tagOk endOk => Sys2Proof.Machine.execPortmanteauChunk m node header data tagOk endOk s
  | .portmanteauRestore m node transfer target image => Sys2Proof.Machine.execPortmanteauRestore m node transfer target image s
  | .portmanteauRestored m node body => Sys2Proof.Machine.execPortmanteauRestored m node body s
  | .withdrawn => Sys2Proof.Machine.execWithdrawn s
  | .evacLimitExpire => Sys2Proof.Machine.execEvacLimitExpire s
  | .migrateStart m body => Sys2Proof.Machine.execMigrateStart m body s
  | .migrateGenerationDone p => Sys2Proof.Machine.execMigrateGenerationDone p s
  | .migrateCancel m body => Sys2Proof.Machine.execMigrateCancel m body s
  | .portmanteauAdopt m body => Sys2Proof.Machine.execPortmanteauAdopt m body s
  | .collectiveGroup m body => Sys2Proof.Machine.execCollectiveGroup m body s
  | .memberLost m body => Sys2Proof.Machine.execMemberLost m body s
  | .paceWindow part => Sys2Proof.Machine.execPaceWindow part s
  | .paceRelay m body => Sys2Proof.Machine.execPaceRelay m body s
  | .paceCap m body => Sys2Proof.Machine.execPaceCap m body s
  | .portReadmit m body => Sys2Proof.Machine.execPortReadmit m body s
  | .probationEnd n => Sys2Proof.Machine.execProbationEnd n s
  | .portTrainRetry n => Sys2Proof.Machine.execPortTrainRetry n s
  | .pmdTrainDone n good => Sys2Proof.Machine.execPmdTrainDone n good s
  | .alignDone n skew => Sys2Proof.Machine.execAlignDone n skew s
  | .ctrlIdent n kind pport node variant b0 b1 b2 b3 => Sys2Proof.Machine.execCtrlIdent n kind pport node variant b0 b1 b2 b3 s
  | .ctrlEcho n reply trip => Sys2Proof.Machine.execCtrlEcho n reply trip s
  | .laneFault n lane unc sym lost => Sys2Proof.Machine.execLaneFault n lane unc sym lost s
  | .ctrlSpareReq n pos at' => Sys2Proof.Machine.execCtrlSpareReq n pos at' s
  | .ctrlSpareAck n at' => Sys2Proof.Machine.execCtrlSpareAck n at' s
  | .spareSwap n => Sys2Proof.Machine.execSpareSwap n s
  | .partnerLoss n => Sys2Proof.Machine.execPartnerLoss n s
  | .ctrlLinkDown n => Sys2Proof.Machine.execCtrlLinkDown n s
  | .ctrlViolation n code seq => Sys2Proof.Machine.execCtrlViolation n code seq s
  | .ctrlQuarantine n => Sys2Proof.Machine.execCtrlQuarantine n s
  | .ctrlRateChange n => Sys2Proof.Machine.execCtrlRateChange n s
  | .flitReceive n flit unc => Sys2Proof.Machine.execFlitReceive n flit unc s
  | .flitNak n => Sys2Proof.Machine.execFlitNak n s
  | .flitReplayRetrain n => Sys2Proof.Machine.execFlitReplayRetrain n s
  | .portQuarantined n => Sys2Proof.Machine.execPortQuarantined n s
  | .qpSend n => Sys2Proof.Machine.execQpSend n s
  | .qpAck n => Sys2Proof.Machine.execQpAck n s
  | .qpCredit n => Sys2Proof.Machine.execQpCredit n s
  | .landingFenceCredit q => Sys2Proof.Machine.execLandingFenceCredit q s
  | .winRead n => Sys2Proof.Machine.execWinRead n s
  | .winWrite n => Sys2Proof.Machine.execWinWrite n s
  | .winAtomic n => Sys2Proof.Machine.execWinAtomic n s
  | .rsp n => Sys2Proof.Machine.execRsp n s
  | .hostRead n part addr len dst => Sys2Proof.Machine.execHostRead n part addr len dst s
  | .hostWrite n part addr data => Sys2Proof.Machine.execHostWrite n part addr data s
  | .doorbellTxn n => Sys2Proof.Machine.execDoorbellTxn n s
  | .cfgRead n => Sys2Proof.Machine.execCfgRead n s
  | .notify n part queue => Sys2Proof.Machine.execNotify n part queue s
  | .mgmtTxn n tagOk => Sys2Proof.Machine.execMgmtTxn n tagOk s
  | .coll n => Sys2Proof.Machine.execColl n s
  | .uartFrame header crcOk tagOk => Sys2Proof.Machine.execUartFrame header crcOk tagOk s
  | .regulationWindow => Sys2Proof.Machine.execRegulationWindow s
  | .regulationSample => Sys2Proof.Machine.execRegulationSample s
  | .moduleCap m body => Sys2Proof.Machine.execModuleCap m body s
  | .meterSample mv ma => Sys2Proof.Machine.execMeterSample mv ma s
  | .reconciliationWindow charges => Sys2Proof.Machine.execReconciliationWindow charges s
  | .powerAllotment powers => Sys2Proof.Machine.execPowerAllotment powers s
  | .operatingPointChange b => Sys2Proof.Machine.execOperatingPointChange b s
  | .capEmergency => Sys2Proof.Machine.execCapEmergency s
  | .ceilingStep cause => Sys2Proof.Machine.execCeilingStep cause s
  | .overcurrent => Sys2Proof.Machine.execOvercurrent s
  | .thermal b temp => Sys2Proof.Machine.execThermal b temp s
  | .dimmThermal ch temp => Sys2Proof.Machine.execDimmThermal ch temp s
  | .emergencyRelease cause => Sys2Proof.Machine.execEmergencyRelease cause s
  | .trip b temp => Sys2Proof.Machine.execTrip b temp s
  | .droopStretch island below => Sys2Proof.Machine.execDroopStretch island below s
  | .powerDownIsland b => Sys2Proof.Machine.execPowerDownIsland b s
  | .reckoningIdleClose p req => Sys2Proof.Machine.execReckoningIdleClose p req s
  | .reckoningEpochClose => Sys2Proof.Machine.execReckoningEpochClose s
  | .reckoningRootSigned => Sys2Proof.Machine.execReckoningRootSigned s
  | .reckoningBacklog p => Sys2Proof.Machine.execReckoningBacklog p s
  | .reckoningRingWrite p => Sys2Proof.Machine.execReckoningRingWrite p s
  | .liveReadings => Sys2Proof.Machine.execLiveReadings s
  | .clockRead m body => Sys2Proof.Machine.execClockRead m body s
  | .handshakeInit m nonceI unwrapOk rsvd => Sys2Proof.Machine.execHandshakeInit m nonceI unwrapOk rsvd s
  | .handshakeFinish m session part nParts sigOk authorised node rsvd => Sys2Proof.Machine.execHandshakeFinish m session part nParts sigOk authorised node rsvd s
  | .handshakeTimeout session => Sys2Proof.Machine.execHandshakeTimeout session s
  | .attestRequest m body => Sys2Proof.Machine.execAttestRequest m body s
  | .weightSetJoin m setId key unwrapOk rsvd => Sys2Proof.Machine.execWeightSetJoin m setId key unwrapOk rsvd s
  | .weightSetLeave m body => Sys2Proof.Machine.execWeightSetLeave m body s
  | .lifecycleSet m body => Sys2Proof.Machine.execLifecycleSet m body s
  | .serviceToken m last sigOk unitOk => Sys2Proof.Machine.execServiceToken m last sigOk unitOk s
  | .masterRelease m body => Sys2Proof.Machine.execMasterRelease m body s
  | .firmwareBegin m body => Sys2Proof.Machine.execFirmwareBegin m body s
  | .firmwareWrite m header data => Sys2Proof.Machine.execFirmwareWrite m header data s
  | .firmwareActivate m body images => Sys2Proof.Machine.execFirmwareActivate m body images s
  | .firmwareSwitchReady => Sys2Proof.Machine.execFirmwareSwitchReady s
  | .firmwareSwitchTimeout => Sys2Proof.Machine.execFirmwareSwitchTimeout s
  | .firmwareCommit m body => Sys2Proof.Machine.execFirmwareCommit m body s
  | .debugAccess m body => Sys2Proof.Machine.execDebugAccess m body s
  | .zhohiWrite m header data => Sys2Proof.Machine.execZhohiWrite m header data s
  | .faultLogRead m body => Sys2Proof.Machine.execFaultLogRead m body s
  | .horizonRead m => Sys2Proof.Machine.execHorizonRead m s
  | .dozeEnter m => Sys2Proof.Machine.execDozeEnter m s
  | .dozeExit m => Sys2Proof.Machine.execDozeExit m s
  | .dozeReqNAssert => Sys2Proof.Machine.execDozeReqNAssert s
  | .dozeReqNRelease => Sys2Proof.Machine.execDozeReqNRelease s
  | .wake => Sys2Proof.Machine.execWake s
  | .pwrgdStart => Sys2Proof.Machine.execPwrgdStart s
  | .resetN => Sys2Proof.Machine.execResetN s
  | .startStepComplete n info => Sys2Proof.Machine.execStartStepComplete n info s
  | .pwrEnAssert => Sys2Proof.Machine.execPwrEnAssert s
  | .pwrEnDeassert => Sys2Proof.Machine.execPwrEnDeassert s
  | .aonStart slotId => Sys2Proof.Machine.execAonStart slotId s
  | .powerFail => Sys2Proof.Machine.execPowerFail s
  | .overVoltageCutoff => Sys2Proof.Machine.execOverVoltageCutoff s
  | .smbusWrite command data => Sys2Proof.Machine.execSmbusWrite command data s
  | .wearRecordWrite => Sys2Proof.Machine.execWearRecordWrite s
  | .ringOscillatorRead b khz => Sys2Proof.Machine.execRingOscillatorRead b khz s
  | .marginPlanDue b => Sys2Proof.Machine.execMarginPlanDue b s
  | .idleWindowFound b => Sys2Proof.Machine.execIdleWindowFound b s
  | .quietWindowDone b m khz => Sys2Proof.Machine.execQuietWindowDone b m khz s
  | .quietWaitExpire b => Sys2Proof.Machine.execQuietWaitExpire b s
  | .quiesceTime b => Sys2Proof.Machine.execQuiesceTime b s
  | .resetNAssert => Sys2Proof.Machine.execResetNAssert s
  | .flitSlot n => Sys2Proof.Machine.execFlitSlot n s
  | .queueDescriptorWriteback => Sys2Proof.Machine.execQueueDescriptorWriteback s
  | .slicePatrolScrub block slice bank corrected => Sys2Proof.Machine.execSlicePatrolScrub block slice bank corrected s

end Sys2Proof.Machine
end

