-- ==== Sys2Proof/WellFormed.lean ====
section
/-! DEFINITION. Sys2Proof/WellFormed.lean: the well-formed commands: every number a command carries names a unit, partition or object
that the hardware can have (R2, R312, R332, R334). A record or body is checked by its meaning, which answers for it. -/

namespace Sys2Proof

open Machine (MsgRef)

/-- A queue ID has 20 bits (R312). -/
def queueIdOk (q : Nat) : Bool := decide (q < 2 ^ 20)
/-- Ports F0-F11, H0 and H1 are 0-13 (R386). -/
def portOk (n : Nat) : Bool := decide (n < 14)
/-- Partitions are 1-60 (R14, R334). -/
def partOk (p : Nat) : Bool := decide (1 ≤ p) && decide (p ≤ 60)
/-- A context tag has 12 bits (R310). -/
def ctxOk (c : Nat) : Bool := decide (c < 4096)
/-- Blocks and their islands are 0-59 (R33). -/
def blockOk (b : Nat) : Bool := decide (b < 60)
/-- Cells: block * 20 and the place in the block (R33). -/
def cellOk (c : Nat) : Bool := decide (c < 1200)
/-- Places 0-11 of a block are M-cells (R33). -/
def mCellOk (c : Nat) : Bool := cellOk c && decide (c % 20 < 12)
/-- Places 12-17 are V-cells. -/
def vCellOk (c : Nat) : Bool := cellOk c && decide (12 ≤ c % 20) && decide (c % 20 < 18)
/-- Places 18 and 19 are S-cells. -/
def sCellOk (c : Nat) : Bool := cellOk c && decide (18 ≤ c % 20)
/-- Carriers: block * 4 and the carrier (R33). -/
def carrierOk (c : Nat) : Bool := decide (c < 240)
/-- Dispatch and combine units: region * 4 and the unit (R33, R189). -/
def fixedUnitOk (u : Nat) : Bool := decide (u < 24)
/-- The six regions (R33). -/
def regionOk (r : Nat) : Bool := decide (r < 6)
/-- The 48 DIMMs, each on a channel of its own (R214). -/
def dimmOk (c : Nat) : Bool := decide (c < 48)
/-- A channel's two subchannels (R217). -/
def subOk (c : Nat) : Bool := decide (c < 2)
/-- A slice of the 16 of a block (R33). -/
def sliceOk (n : Nat) : Bool := decide (n < 16)
/-- A bank of the 8 of a slice (R33). -/
def bankOk (n : Nat) : Bool := decide (n < 8)
/-- An engine ID (R54, R557): class 1 cells, 2 carriers, 3 dispatch, 4 combine, 5 collective units. -/
def engineOk (e : Nat) : Bool :=
  match e / 4096 with
  | 1 => cellOk (e % 4096)
  | 2 => carrierOk (e % 4096)
  | 3 => fixedUnitOk (e % 4096)
  | 4 => fixedUnitOk (e % 4096)
  | 5 => decide (e % 4096 < 12)
  | _ => false
/-- STATION_ID has 16 bits (R52). -/
def stationIdOk (i : Nat) : Bool := decide (i < 65536)
/-- PLAN_ID 0-15 (R283). -/
def planOk (i : Nat) : Bool := decide (i < 16)
/-- A node ID has 16 bits (R388). -/
def nodeOk (n : Nat) : Bool := decide (n < 65536)
/-- A window ID has 12 bits (R379). -/
def windowIdOk (i : Nat) : Bool := decide (i < 4096)
/-- CARAVAN_ID has 8 bits (R181). -/
def caravanIdOk (i : Nat) : Bool := decide (i < 256)
/-- A fence group holds up to four flits (R325, R558). -/
def groupOk (n : Nat) : Bool := decide (n ≤ 4)
/-- Steps 1-10 of a start (R523). -/
def stepOk (n : Nat) : Bool := decide (1 ≤ n) && decide (n ≤ 10)
/-- The bytes of one body or stream: at most 1 MB (R176, R332). -/
def bytesOk (l : List (BitVec 8)) : Bool := decide (l.length ≤ 1048576)
/-- A message row's reference carries that row's MSG, and CORR has 32 bits (R332, R334). -/
def msgOk (code : Nat) (m : MsgRef) : Bool := m.msg == code && decide (m.corr < 2 ^ 32)

/-- The command is well-formed. -/
def Instr.wellFormed (i : Instr) : Bool :=
  match i with
  | .contextCreate ring _ => queueIdOk ring
  | .contextRevoke ring _ => queueIdOk ring
  | .contextRevoked p c => partOk p && ctxOk c
  | .contextDrained p c => partOk p && ctxOk c
  | .memoryObjectCreate ring _ => queueIdOk ring
  | .memoryObjectRelease ring _ => queueIdOk ring
  | .queueCreate ring _ => queueIdOk ring
  | .queueDestroy ring _ => queueIdOk ring
  | .fenceCreate ring _ => queueIdOk ring
  | .fenceRelease ring _ => queueIdOk ring
  | .fenceSignal ring _ => queueIdOk ring
  | .fenceWait ring _ => queueIdOk ring
  | .fenceWaitTimeout ring => queueIdOk ring
  | .fenceReset ring _ => queueIdOk ring
  | .resultFetch ring _ => queueIdOk ring
  | .fenceSignalApply n => groupOk n
  | .stationDefine ring _ => queueIdOk ring
  | .stationBind ring _ => queueIdOk ring
  | .stationUnbind ring _ => queueIdOk ring
  | .stationUnbound p id => partOk p && stationIdOk id
  | .stationPredicate ring _ => queueIdOk ring
  | .stationPredicateArrive p id => partOk p && stationIdOk id
  | .stationPredicated p id => partOk p && stationIdOk id
  | .waybillSubmit ring _ => queueIdOk ring
  | .stewardAppoint ring _ => queueIdOk ring
  | .stewardDismiss ring _ => queueIdOk ring
  | .stewardDismissed c => sCellOk c
  | .caravanDefine ring _ => queueIdOk ring
  | .caravanRelease ring _ => queueIdOk ring
  | .mirrorSync ring _ => queueIdOk ring
  | .mirrorSyncSend p => partOk p
  | .btuInvalidate block => blockOk block
  | .btuInvalidateAck block => blockOk block
  | .mirrorSynced p => partOk p
  | .milestoneSet ring _ => queueIdOk ring
  | .milestoneTick => true
  | .requestCancel ring _ => queueIdOk ring
  | .cancelHoldExpire p _ => partOk p
  | .windowOpen ring _ => queueIdOk ring
  | .windowClose ring _ => queueIdOk ring
  | .windowOpenMsg m _ => msgOk 0x010E m
  | .windowCloseMsg m _ => msgOk 0x010F m
  | .windowClosed id => windowIdOk id
  | .partitionRekey ring _ => queueIdOk ring
  | .rekeySweepPage p ch => partOk p && dimmOk ch
  | .rekeyBitmapFlip p ch => partOk p && dimmOk ch
  | .rekeyPageRelease p ch => partOk p && dimmOk ch
  | .rekeyDone p => partOk p
  | .sequencerRestart ch => dimmOk ch
  | .hint ring _ => queueIdOk ring
  | .hintPhaseStart p station => partOk p && stationIdOk station
  | .hintPhaseEnd p station => partOk p && stationIdOk station
  | .planDefine ring _ => queueIdOk ring
  | .planRelease ring _ => queueIdOk ring
  | .sessionOpen ring _ => queueIdOk ring
  | .sessionAppend ring _ => queueIdOk ring
  | .sessionCancel ring _ => queueIdOk ring
  | .sessionClose ring _ => queueIdOk ring
  | .sessionCloseComplete _ => true
  | .weightLoad ring _ => queueIdOk ring
  | .weightRelease ring _ => queueIdOk ring
  | .submissionTailDoorbell _ _ _ => true
  | .completionHeadDoorbell _ _ _ => true
  | .eventHeadDoorbell _ _ _ => true
  | .tokenRingHeadDoorbell _ _ _ => true
  | .reckoningRingHeadDoorbell _ _ _ => true
  | .configWriteReadOnly _ _ => true
  | .submissionEntry q => queueIdOk q
  | .commandBufferStart q => queueIdOk q
  | .answerWrittenOnRoom q => queueIdOk q
  | .eventWrite => true
  | .eventsLost q => queueIdOk q
  | .waybillStart block => blockOk block
  | .waybillEnqueue q => queueIdOk q
  | .hubDirectoryEnqueue q => queueIdOk q
  | .refillGroupStart q => queueIdOk q
  | .refillGroupComplete q => queueIdOk q
  | .engineCommit e => engineOk e
  | .heldCommitComplete => true
  | .orderedCommitSignal p station => partOk p && stationIdOk station
  | .mEnd c => mCellOk c
  | .mLda c => mCellOk c
  | .mLdb c => mCellOk c
  | .mMma c => mCellOk c
  | .mMmaeg c => mCellOk c
  | .mAccz c => mCellOk c
  | .mAccst c => mCellOk c
  | .mAccld c => mCellOk c
  | .mEmit c => mCellOk c
  | .mRepeat c => mCellOk c
  | .mSync c => mCellOk c
  | .vVadd c => vCellOk c
  | .vVsub c => vCellOk c
  | .vVmul c => vCellOk c
  | .vVfma c => vCellOk c
  | .vVfnma c => vCellOk c
  | .vVmin c => vCellOk c
  | .vVmax c => vCellOk c
  | .vVabs c => vCellOk c
  | .vVneg c => vCellOk c
  | .vVand c => vCellOk c
  | .vVor c => vCellOk c
  | .vVxor c => vCellOk c
  | .vVshl c => vCellOk c
  | .vVshr c => vCellOk c
  | .vVsel c => vCellOk c
  | .vVcmp c => vCellOk c
  | .vPlogic c => vCellOk c
  | .vVcvt c => vCellOk c
  | .vVperm c => vCellOk c
  | .vVmova c => vCellOk c
  | .vVlane c => vCellOk c
  | .vVradd c => vCellOk c
  | .vVrmax c => vCellOk c
  | .vVrmin c => vCellOk c
  | .vVscan c => vCellOk c
  | .vVffs c => vCellOk c
  | .vVpcnt c => vCellOk c
  | .vVext c => vCellOk c
  | .vVsfu c => vCellOk c
  | .vTkinit c => vCellOk c
  | .vTkpush c => vCellOk c
  | .vTkpop c => vCellOk c
  | .vVrand c => vCellOk c
  | .vVld c => vCellOk c
  | .vVst c => vCellOk c
  | .vVldx c => vCellOk c
  | .vVstx c => vCellOk c
  | .vLda c => vCellOk c
  | .vSta c => vCellOk c
  | .vAaddi c => vCellOk c
  | .vAop c => vCellOk c
  | .vAlui c => vCellOk c
  | .vBr c => vCellOk c
  | .vSr c => vCellOk c
  | .vNop c => vCellOk c
  | .vEnd c => vCellOk c
  | .vEmit c => vCellOk c
  | .vDrain c => vCellOk c
  | .sAlu c => sCellOk c
  | .sCmp c => sCellOk c
  | .sMul c => sCellOk c
  | .sDiv c => sCellOk c
  | .sAddi c => sCellOk c
  | .sAndi c => sCellOk c
  | .sOri c => sCellOk c
  | .sXori c => sCellOk c
  | .sSlti c => sCellOk c
  | .sSltiu c => sCellOk c
  | .sShi c => sCellOk c
  | .sLui c => sCellOk c
  | .sLd c => sCellOk c
  | .sLdu c => sCellOk c
  | .sSt c => sCellOk c
  | .sAmo c => sCellOk c
  | .sBr c => sCellOk c
  | .sJal c => sCellOk c
  | .sJalr c => sCellOk c
  | .sFrd c => sCellOk c
  | .sQocc c => sCellOk c
  | .sSr c => sCellOk c
  | .sNop c => sCellOk c
  | .sEnd c => sCellOk c
  | .sEmit c => sCellOk c
  | .sEmitKeepf c => sCellOk c
  | .sDrain c => sCellOk c
  | .sFsig c => sCellOk c
  | .sQput c => sCellOk c
  | .sQtake c => sCellOk c
  | .sWaitq c => sCellOk c
  | .sWaitqResume c => sCellOk c
  | .sCancel c => sCellOk c
  | .sPred c => sCellOk c
  | .sCrd c => sCellOk c
  | .sliceAccessComplete block => blockOk block
  | .crierSend carrier _ srcBlock _ _ _ _ => carrierOk carrier && blockOk srcBlock
  | .crierStageGrant r => regionOk r
  | .deliveryMark _ _ => true
  | .caravanWrite carrier id _ srcBlock _ _ => carrierOk carrier && caravanIdOk id && blockOk srcBlock
  | .spineFlitCrcFail _ _ => true
  | .sliceSecDedError block _ _ => blockOk block
  | .sliceWipeDone block => blockOk block
  | .dispatchStart unit => fixedUnitOk unit
  | .dispatchSlotFencePoll unit => fixedUnitOk unit
  | .dispatchCommit unit => fixedUnitOk unit
  | .combineOpenBatch unit => fixedUnitOk unit
  | .combineResult unit => fixedUnitOk unit
  | .combineCommit unit => fixedUnitOk unit
  | .gatherStart carrier => carrierOk carrier
  | .gatherCommit carrier => carrierOk carrier
  | .collectiveStart n => portOk n
  | .collectiveSegmentSend n => portOk n
  | .collectiveSegmentReady n => portOk n
  | .collectiveCommit n => portOk n
  | .dramSlotGrant ch sub => dimmOk ch && subOk sub
  | .dramReadData ch _ => dimmOk ch
  | .dramRefsb ch => dimmOk ch
  | .dramPatrolScrub ch sub _ => dimmOk ch && subOk sub
  | .dimmTemp85Cross ch _ => dimmOk ch
  | .dramBusReplay ch _ _ => dimmOk ch
  | .dimmLost ch => dimmOk ch
  | .p3Promotion ch => dimmOk ch
  | .parityRowFlush region => regionOk region
  | .parityEntryFreed region => regionOk region
  | .deviceWipe => true
  | .carveOutWipeDone p => partOk p
  | .codedInitDone p => partOk p
  | .tlbMissWalk block _ engine _ _ => blockOk block && engineOk engine
  | .walkReadReturn block _ => blockOk block
  | .prefetchWalkStart block _ engine _ _ => blockOk block && engineOk engine
  | .windowRoute m _ => msgOk 0x010D m
  | .windowKeyLoad m _ => msgOk 0x0110 m
  | .partitionCreate m _ => msgOk 0x0101 m
  | .partitionDestroy m _ => msgOk 0x0102 m
  | .partitionDestroyed p => partOk p
  | .blockBind m _ => msgOk 0x0103 m
  | .blockRelease m _ => msgOk 0x0104 m
  | .blockReleased block => blockOk block
  | .blockMove m _ => msgOk 0x0105 m
  | .blockMoveDrained src => blockOk src
  | .blockMoveCopied src => blockOk src
  | .blockMoved src => blockOk src
  | .stationMove m _ => msgOk 0x0106 m
  | .stationMoved p id => partOk p && stationIdOk id
  | .epochNotice p block => partOk p && blockOk block
  | .epochRetire p => partOk p
  | .channelShare m _ => msgOk 0x0107 m
  | .portShare m _ => msgOk 0x0108 m
  | .queuePairOpen m _ => msgOk 0x0109 m
  | .queuePairRetarget m _ => msgOk 0x010A m
  | .queuePairRetargeted q => queueIdOk q
  | .queuePairClose m _ => msgOk 0x010B m
  | .companionSet m _ => msgOk 0x010C m
  | .requestHandoff m _ => msgOk 0x0111 m
  | .nodeAssign m _ => msgOk 0x0112 m
  | .leaseOffer m node _ _ => msgOk 0x0113 m && nodeOk node
  | .leaseAccept m node _ => msgOk 0x0114 m && nodeOk node
  | .leaseRenew m node _ => msgOk 0x0115 m && nodeOk node
  | .leaseRenewTimer p _ => partOk p
  | .leaseGrant m node _ => msgOk 0x0116 m && nodeOk node
  | .leaseExpire p _ => partOk p
  | .leaseRevoked m node _ => msgOk 0x0117 m && nodeOk node
  | .leaseGrantTimeout p _ => partOk p
  | .tokenNotice m node body => msgOk 0x0118 m && nodeOk node && bytesOk body
  | .homeDeadlineReclaim p _ => partOk p
  | .stepCompose p plan => partOk p && planOk plan
  | .stepResult p plan => partOk p && planOk plan
  | .stepTimeout p plan => partOk p && planOk plan
  | .tokenLogWrite => true
  | .sessionReadmit p plan => partOk p && planOk plan
  | .mirrorEntryAck _ _ _ _ _ => true
  | .tokenRecordWrite _ => true
  | .mirrorEntry m node part body => msgOk 0x0405 m && nodeOk node && partOk part && bytesOk body
  | .mirrorAccept m _ => msgOk 0x0404 m
  | .companionTakeover m _ => msgOk 0x0406 m
  | .partitionResetMsg m _ => msgOk 0x0401 m
  | .partitionResetDone p => partOk p
  | .hangCapture p => partOk p
  | .hangCaptureTimeout p _ => partOk p
  | .engineWatchdogExpire e => engineOk e
  | .stationHung p id => partOk p && stationIdOk id
  | .queueStalled q => queueIdOk q
  | .dispatcherHang block => blockOk block
  | .cellUncorrectable c _ => cellOk c
  | .withdrawal => true
  | .evacuateTo m _ => msgOk 0x0403 m
  | .portmanteauChunk m node _ data _ _ => msgOk 0x0407 m && nodeOk node && bytesOk data
  | .portmanteauRestore m node _ target _ => msgOk 0x0407 m && nodeOk node && partOk target
  | .portmanteauRestored m node _ => msgOk 0x0408 m && nodeOk node
  | .withdrawn => true
  | .evacLimitExpire => true
  | .migrateStart m _ => msgOk 0x0409 m
  | .migrateGenerationDone p => partOk p
  | .migrateCancel m _ => msgOk 0x040A m
  | .portmanteauAdopt m _ => msgOk 0x040B m
  | .collectiveGroup m _ => msgOk 0x0301 m
  | .memberLost m _ => msgOk 0x0302 m
  | .paceWindow part => partOk part
  | .paceRelay m _ => msgOk 0x0304 m
  | .paceCap m _ => msgOk 0x0305 m
  | .portReadmit m _ => msgOk 0x0201 m
  | .probationEnd n => portOk n
  | .portTrainRetry n => portOk n
  | .pmdTrainDone n _ => portOk n
  | .alignDone n _ => portOk n
  | .ctrlIdent n _ _ node _ _ _ _ _ => portOk n && nodeOk node
  | .ctrlEcho n _ _ => portOk n
  | .laneFault n _ _ _ _ => portOk n
  | .ctrlSpareReq n _ _ => portOk n
  | .ctrlSpareAck n _ => portOk n
  | .spareSwap n => portOk n
  | .partnerLoss n => portOk n
  | .ctrlLinkDown n => portOk n
  | .ctrlViolation n _ _ => portOk n
  | .ctrlQuarantine n => portOk n
  | .ctrlRateChange n => portOk n
  | .flitReceive n _ _ => portOk n
  | .flitNak n => portOk n
  | .flitReplayRetrain n => portOk n
  | .portQuarantined n => portOk n
  | .qpSend n => portOk n
  | .qpAck n => portOk n
  | .qpCredit n => portOk n
  | .landingFenceCredit q => queueIdOk q
  | .winRead n => portOk n
  | .winWrite n => portOk n
  | .winAtomic n => portOk n
  | .rsp n => portOk n
  | .hostRead n part _ _ _ => portOk n && partOk part
  | .hostWrite n part _ data => portOk n && partOk part && bytesOk data
  | .doorbellTxn n => portOk n
  | .cfgRead n => portOk n
  | .notify n part queue => portOk n && partOk part && queueIdOk queue
  | .mgmtTxn n _ => portOk n
  | .coll n => portOk n
  | .uartFrame _ _ _ => true
  | .regulationWindow => true
  | .regulationSample => true
  | .moduleCap m _ => msgOk 0x0501 m
  | .meterSample _ _ => true
  | .reconciliationWindow _ => true
  | .powerAllotment _ => true
  | .operatingPointChange b => blockOk b
  | .capEmergency => true
  | .ceilingStep _ => true
  | .overcurrent => true
  | .thermal b _ => blockOk b
  | .dimmThermal ch _ => dimmOk ch
  | .emergencyRelease _ => true
  | .trip b _ => blockOk b
  | .droopStretch island _ => decide (island < 132)
  | .powerDownIsland b => blockOk b
  | .reckoningIdleClose p _ => partOk p
  | .reckoningEpochClose => true
  | .reckoningRootSigned => true
  | .reckoningBacklog p => partOk p
  | .reckoningRingWrite p => partOk p
  | .liveReadings => true
  | .clockRead m _ => msgOk 0x0601 m
  | .handshakeInit m _ _ _ => msgOk 0x0701 m
  | .handshakeFinish m _ part _ _ _ _ _ => msgOk 0x0703 m && partOk part
  | .handshakeTimeout _ => true
  | .attestRequest m _ => msgOk 0x0704 m
  | .weightSetJoin m _ _ _ _ => msgOk 0x0706 m
  | .weightSetLeave m _ => msgOk 0x0707 m
  | .lifecycleSet m _ => msgOk 0x0708 m
  | .serviceToken m _ _ _ => msgOk 0x0709 m
  | .masterRelease m _ => msgOk 0x070A m
  | .firmwareBegin m _ => msgOk 0x070B m
  | .firmwareWrite m _ data => msgOk 0x070C m && bytesOk data
  | .firmwareActivate m _ _ => msgOk 0x070D m
  | .firmwareSwitchReady => true
  | .firmwareSwitchTimeout => true
  | .firmwareCommit m _ => msgOk 0x070E m
  | .debugAccess m _ => msgOk 0x070F m
  | .zhohiWrite m _ data => msgOk 0x0801 m && bytesOk data
  | .faultLogRead m _ => msgOk 0x0806 m
  | .horizonRead m => msgOk 0x0805 m
  | .dozeEnter m => msgOk 0x0802 m
  | .dozeExit m => msgOk 0x0803 m
  | .dozeReqNAssert => true
  | .dozeReqNRelease => true
  | .wake => true
  | .pwrgdStart => true
  | .resetN => true
  | .startStepComplete n _ => stepOk n
  | .pwrEnAssert => true
  | .pwrEnDeassert => true
  | .aonStart _ => true
  | .powerFail => true
  | .overVoltageCutoff => true
  | .smbusWrite _ _ => true
  | .wearRecordWrite => true
  | .ringOscillatorRead b _ => blockOk b
  | .marginPlanDue b => blockOk b
  | .idleWindowFound b => blockOk b
  | .quietWindowDone b _ _ => blockOk b
  | .quietWaitExpire b => blockOk b
  | .quiesceTime b => blockOk b
  | .resetNAssert => true
  | .flitSlot n => portOk n
  | .queueDescriptorWriteback => true
  | .slicePatrolScrub block slice bank _ => blockOk block && sliceOk slice && bankOk bank

end Sys2Proof
end

