-- ==== Sys2Proof/Safety.lean ====
section
/-! DEFINITION. Sys2Proof/Safety.lean: what counts as a safe step and a safe run. -/

namespace Sys2Proof.Safety

open Machine

/-- The command meets neither a fault nor a refusal. -/
def Completes (c : Instr) (s : State) : Prop := ∃ t, exec c s = .next t

/-- A run of `n` steps meets neither a fault nor a refusal. -/
def SafeRun : Nat → State → Prop
  | 0, _ => True
  | n + 1, s => ∃ t, step s = .next t ∧ SafeRun n t

/-- Host memory, the slices, main memory, the capability table, the flash and every cell's local memory are in canonical form: each
byte has one place, and equal memories are equal data. -/
def MemoriesCanonical (s : State) : Bool :=
  Memory.wf s.hostMem && Memory.wf s.fab.slices && Memory.wf s.dram.dram && Memory.wf s.sys.capTable && Memory.wf s.fw.flash &&
  s.cell.v.all (fun e => Memory.wf e.2.local') && s.cell.s.all (fun e => Memory.wf e.2.local')

/-- The fault log's entries, newest first, are numbered without a gap (R556). -/
def LogInOrder : List FaultEntry → Bool
  | a :: b :: l => a.seq == b.seq + 1 && LogInOrder (b :: l)
  | _ => true

/-- `l` is `l0` with newer entries before it, each of them with slot `k` (R546, R556). -/
def LogGrown (k : Nat) (l0 l : List FaultEntry) : Prop := ∃ m, l = m ++ l0 ∧ ∀ e ∈ m, e.slot = k

end Sys2Proof.Safety
end

