-- ==== Sys2Proof/Certificates/Slice0/Obligations.lean ====
section
/-! DEFINITION. Sys2Proof/Certificates/Slice0/Obligations.lean: the statements for the provers. A statement about commands says, for each
command it names, the state in which it has the effect of its rule and the next state that exec answers there: a record update of the
state before, so that it says what is unchanged too, or some next state with the parts named. -/

open Sys2Proof Sys2Proof.Machine

namespace Sys2Proof.Spec

/-- The host command runs now: it stands at the front of its ring's running buffer, its context is live, and its class admits it with its
turn come (R277, R278, R317, R318); class 0, the front end, takes it at once. -/
def Ready (s : State) (q opcode record cls : Nat) (e : CmdEnv) : Prop :=
  s.front q opcode record = some e ∧ s.ctxLive e.part e.context = true ∧ s.intake ⟨cls, e.part, q * 65536 + opcode⟩ (q * 65536 + opcode) = .run

/-- The management message is served now: its class admits it with its turn come, and neither the module nor the partition is being
evacuated (R277, R278, R336, R442). -/
def Served (s : State) (m : MsgRef) (cls p : Nat) : Prop :=
  s.intake (m.item cls p) m.key = .run ∧ s.fail.withdraw = none ∧
  (∀ x, s.part? p = some x → x.evacuating = false)

/-- The management message is admitted with its turn come (R277, R278). -/
def Admitted (s : State) (m : MsgRef) (cls p : Nat) : Prop := s.intake (m.item cls p) m.key = .run

/-- Both copies of the composition table are written (R336, R437). -/
def wroteTable (s : State) : State := { s with part := { s.part with tableWrites := s.part.tableWrites + 2 } }

end Sys2Proof.Spec

open Sys2Proof.Spec

/-- A step runs the command at the front on the queue's rest. -/
def Obligations.StepRunsFront : Prop :=
  ∀ (c : Instr) (s : State) (l : List Instr), step { s with pending := c :: l } = exec c { s with pending := l }

/-- Every command has an effect, a next state: none meets a fault or a refusal. On an empty queue a microsecond passes, in which nothing happens
while AON is down: the model's choice (log entry 3). -/
def Obligations.EveryStepCompletes : Prop :=
  (∀ (c : Instr) (s : State), ∃ t, exec c s = .next t) ∧ (∀ s, s.pending = [] → step s = .next s.tick) ∧ (∀ (s : State), s.boot.aon = false → s.tick = s)

/-- At power-good the block starts: AON is up, no partition, context, object, ring, station, fence, session or reckoning exists, no block is
bound or powered, no port is up, nothing is frozen (R306, R523). Memories are empty and canonical. Where the spec gives a field no reset
value (the module cap's default of 3,000 W before step 3, the empty tables), it is the model's choice (log entry 2). -/
def Obligations.ResetState : Prop :=
  State.reset.pending = [] ∧ State.reset.sys.state = .starting ∧ State.reset.boot.aon = true ∧ State.reset.boot.running = true ∧
  State.reset.part.parts = [] ∧ State.reset.host.contexts = [] ∧ State.reset.host.objects = [] ∧ State.reset.host.rings = [] ∧
  State.reset.fen.fences = [] ∧ State.reset.stn.stations = [] ∧ State.reset.stn.queues = [] ∧ State.reset.ses.sessions = [] ∧
  State.reset.svc.plans = [] ∧ State.reset.reck.accounts = [] ∧ State.reset.xlt.windows = [] ∧ State.reset.sys.frozen = [] ∧
  State.reset.sys.capW = 3000 ∧ State.reset.fail.withdraw = none ∧ State.reset.sec.sessions = [] ∧ State.reset.log = [] ∧
  (∀ b, (State.reset.block b).bound = none ∧ (State.reset.block b).powered = false) ∧ (∀ n, (State.reset.port n).state = .down) ∧
  Safety.MemoriesCanonical State.reset = true ∧ Safety.LogInOrder State.reset.log = true

/-- The identity header at power-good (R306): the fields of its Reset column, the fused variant one of the two, and every RSVD byte zero, as
every function reads them. -/
def Obligations.HeaderAtPowerGood : Prop :=
  (∀ (s : State) p off, off < 256 → s.cfgByte p off = BitVec.ofNat 8 (s.identHeader >>> (8 * off))) ∧
  (∀ (h : Nat), h = State.reset.identHeader → fldB h 0 2 = 0x5D7A ∧ fldB h 2 2 = 0x1200 ∧ (fldB h 4 1 = 1 ∨ fldB h 4 1 = 2) ∧ fldB h 5 1 = 0 ∧ fldB h 6 2 = 0xFFFF ∧
    fldB h 16 4 = 0x1000 ∧ fldB h 20 4 = 0 ∧ fldB h 24 4 = 0x10000 ∧ fldB h 28 4 = 0 ∧ fldB h 32 4 = 0 ∧ fldB h 36 4 = 0 ∧ h < 2 ^ 320)

/-- Every byte memory keeps its canonical form in every step: host memory, the slices, main memory, the capability table, the flash, and the
local memory of every vector and scalar cell. -/
def Obligations.MemoriesStayCanonical : Prop :=
  ∀ s t, Safety.MemoriesCanonical s = true → step s = .next t → Safety.MemoriesCanonical t = true

/-- The fault log only grows, its entries are numbered without a gap, and every entry a step adds carries the SLOT_ID in force (R556). -/
def Obligations.FaultLogGrowsInOrder : Prop :=
  ∀ s t, Safety.LogInOrder s.log = true → step s = .next t → Safety.LogInOrder t.log = true ∧ Safety.LogGrown s.boot.slotId s.log t.log

/-- What no command changes: the queue of the commands that wait, the fused variant and serial, the factory's calibration; and what no command
takes back: the module's hours, as long as AON is up after it, and the fused SVN minimums (R1, R306, R470, R514, R533). -/
def Obligations.WhatNoCommandChanges : Prop :=
  ∀ c s t, exec c s = .next t → t.pending = s.pending ∧ t.sys.variantT = s.sys.variantT ∧ t.sys.serial = s.sys.serial ∧
    t.reck.calShared = s.reck.calShared ∧ t.reck.calLoss = s.reck.calLoss ∧ (t.boot.aon = true → s.age.moduleH ≤ t.age.moduleH) ∧
    (∀ ty, Tab.getD s.fw.minSvn ty 0 ≤ Tab.getD t.fw.minSvn ty 0)

/-- SLOT_ID is sampled by AON_START alone, and by it only when AON is down; SMBus register 0x02 reads it, and every entry that a command or a
microsecond adds to the fault log carries it (R546). -/
def Obligations.SlotIdIsSampledOnce : Prop :=
  (∀ id (s : State), s.boot.aon = false → exec (.aonStart id) s = .next { s with boot := { s.boot with aon := true, closed := true, slotId := id.toNat } }) ∧
  (∀ id (s : State), s.boot.aon = true → exec (.aonStart id) s = .next s) ∧
  (∀ c s t, exec c s = .next t → (∀ id, c ≠ .aonStart id) → t.boot.slotId = s.boot.slotId ∧ Safety.LogGrown s.boot.slotId s.log t.log) ∧
  (∀ (s : State), s.tick.boot.slotId = s.boot.slotId ∧ Safety.LogGrown s.boot.slotId s.log s.tick.log) ∧
  (∀ (s : State), s.smbus 0x02 = s.boot.slotId)

/-- Each block runs at the lowest ceiling that an emergency sets (R467): the ceiling is the least of theirs, a block that needs more runs at it,
and when a ceiling falls every powered block above it falls to it, the others staying as they are. -/
def Obligations.LowestCeiling : Prop :=
  (∀ (s : State) b, s.ceiling b ≤ s.pow.cap.mhz ∧ s.ceiling b ≤ s.pow.therm.mhz ∧ (s.pow.dimm = true → s.ceiling b ≤ 600) ∧
    (∀ m, Tab.find s.pow.overCeil b = some m → s.ceiling b ≤ m) ∧ s.ceiling b ≤ 1000 ∧
    (s.ceiling b = s.pow.cap.mhz ∨ s.ceiling b = s.pow.therm.mhz ∨ (s.pow.dimm = true ∧ s.ceiling b = 600) ∨ Tab.find s.pow.overCeil b = some (s.ceiling b) ∨ s.ceiling b = 1000)) ∧
  (∀ (s : State) b, s.targetMhz b ≤ s.ceiling b ∧ (s.ceiling b ≤ (s.block b).plannedMhz → s.ceiling b ≤ Tab.getD s.pow.chosen b 1000 → s.targetMhz b = s.ceiling b)) ∧
  (∀ (s : State) b, s.applyCeilings.ceiling b = s.ceiling b ∧ (s.applyCeilings.block b).powered = (s.block b).powered ∧
    (s.applyCeilings.block b).mhz = if (s.block b).powered = true ∧ s.ceiling b < (s.block b).mhz then s.ceiling b else (s.block b).mhz)

/-- An early resend (R12): the time left is answered, the sender is held to the first answer's time, and it counts as no violation, since
nothing but the answer happens. Which request counts as the resend is the model's choice (log entry 46): a command of the same ring and
OPCODE, a message of the same session and MSG. What becomes of a request that reaches Innkeeper (R277, R278): it is turned away, it begins,
or it waits in its class's queue until no more items stand before it than there are cores; its meaning then runs on the state in which it
has left the queue. Every item of a lower class stands before it, and so do those of its own class and partition that came before. -/
def Obligations.EarlyResend : Prop :=
  (∀ (s : State) key n, Tab.getD s.svc.retry key 0 ≤ s.now → s.noteRetry key (.busy .retryAfter n) = { s with svc := { s.svc with retry := Tab.put s.svc.retry key (s.now + n) } }) ∧
  (∀ (s : State) cls p key, cls ≠ 0 → s.now < Tab.getD s.svc.retry key 0 →
    s.admission cls p key = some (.busy .retryAfter (Tab.getD s.svc.retry key 0 - s.now)) ∧
    s.noteRetry key (.busy .retryAfter (Tab.getD s.svc.retry key 0 - s.now)) = s) ∧
  (∀ (s : State) (m : MsgRef) cls p body, cls ≠ 0 → (∀ y, y ∈ s.svc.waiting → y.key ≠ (m.item cls p).key) → s.now < Tab.getD s.svc.retry m.key 0 →
    runMsg s m cls p body = s.answerMsg m (.busy .retryAfter (Tab.getD s.svc.retry m.key 0 - s.now)) ∧
    runPlain s m cls p body = s.answerMsg m (.busy .retryAfter (Tab.getD s.svc.retry m.key 0 - s.now))) ∧
  (∀ (s : State) q op w cls e body, s.front q op w = some e → s.ctxLive e.part e.context = true → cls ≠ 0 → (∀ y, y ∈ s.svc.waiting → y.key ≠ q * 65536 + op) → s.now < Tab.getD s.svc.retry (q * 65536 + op) 0 →
    runCmd s q op w cls body = s.answerCmd q (.busy .retryAfter (Tab.getD s.svc.retry (q * 65536 + op) 0 - s.now))) ∧
  (∀ (s : State) (x : InnItem) key a, x.cls ≠ 0 → (∀ y, y ∈ s.svc.waiting → y.key ≠ x.key) → s.admission x.cls x.part key = some a → s.intake x key = .away a) ∧
  (∀ (s : State) (x : InnItem) key, x.cls ≠ 0 → (∀ y, y ∈ s.svc.waiting → y.key ≠ x.key) → s.admission x.cls x.part key = none →
    (s.innTurn x.cls x.part (innCount s.innItems x.cls x.part) = false → s.intake x key = .enter) ∧
    (s.innTurn x.cls x.part (innCount s.innItems x.cls x.part) = true → (x.session = none ∨ ∀ y, y ∈ s.svc.waiting → y.session ≠ x.session) → s.intake x key = .run) ∧
    ((∃ n, x.session = some n ∧ ∃ y, y ∈ s.svc.waiting ∧ y.session = some n) → s.intake x key = .enter)) ∧
  (∀ (s : State) (x : InnItem) key i, x.cls ≠ 0 → (∃ y, y ∈ s.svc.waiting ∧ y.key = x.key) → (s.innReqs.filter (fun y => y.cls == x.cls && y.part == x.part)).findIdx? (fun y => y.key == x.key) = some i →
    s.intake x key = if s.innTurn x.cls x.part (innCount s.innWork x.cls x.part + i) = true then .turn else .stay) ∧
  (∀ (s : State) cls p k, s.innTurn cls p k = true ↔ s.innAhead cls p k < s.innCores) ∧
  (∀ (s : State), s.innCores ≤ 8 ∧ (s.sys.devFaults.contains 6 = false → s.fw.act = none → s.innCores = 8)) ∧
  (∀ (s : State) cls p k, (s.innItems.filter (fun e => decide (e.1 < cls))).length ≤ s.innAhead cls p k) ∧
  (∀ (s : State) cls p k, p < 64 → k ≤ innCount s.innItems cls p → (s.innItems.filter (fun e => decide (e.1 < cls))).length + k ≤ s.innAhead cls p k) ∧
  (∀ (s : State) cls p key, cls ≠ 0 → Tab.getD s.svc.retry key 0 ≤ s.now → s.fail.withdraw = none → s.classFull cls p = true →
    s.admission cls p key = some (.busy .retryAfter (min 10000 (10 * cdiv (s.itemsUpTo cls) 64)))) ∧
  (∀ (s : State) cls p key, cls ≠ 0 → Tab.getD s.svc.retry key 0 ≤ s.now → s.fail.withdraw = none → s.classFull cls p = false → s.admission cls p key = none) ∧
  (∀ (s : State) p key n, Tab.getD s.svc.retry key 0 ≤ s.now → s.fail.withdraw = some n → s.admission 4 p key = some (.busy .retryAfter 10000)) ∧
  (∀ (s : State) q op w cls e body k, s.front q op w = some e → s.ctxLive e.part e.context = true → k = q * 65536 + op →
    (s.intake ⟨cls, e.part, k⟩ k = .turn → runCmd s q op w cls body = State.served (finishCmd q (body e { s with svc := { s.svc with waiting := s.svc.waiting.filter (fun x => x.key != k) } })) cls e.part) ∧
    (s.intake ⟨cls, e.part, k⟩ k = .enter → runCmd s q op w cls body = { s with svc := { s.svc with waiting := s.svc.waiting.filter s.innLive ++ [⟨cls, e.part, k⟩] } }) ∧
    (s.intake ⟨cls, e.part, k⟩ k = .stay → runCmd s q op w cls body = s) ∧
    (∀ a, s.intake ⟨cls, e.part, k⟩ k = .away a → runCmd s q op w cls body = (s.noteRetry k a).answerCmd q a)) ∧
  (∀ (s : State) q op w cls e body, s.front q op w = some e → s.ctxLive e.part e.context = false → runCmd s q op w cls body = s.answerCmd q (.refused .contextRevoked 0)) ∧
  (∀ (s : State) (m : MsgRef) cls p body x t, x = m.item cls p → t = { s with svc := { s.svc with waiting := s.svc.waiting.filter (fun y => y.key != x.key) } } →
    (s.intake x m.key = .turn → runMsg s m cls p body = State.served (tableMsg t m p body) cls p ∧ runPlain s m cls p body = State.served (finishMsg m (body t)) cls p) ∧
    (s.intake x m.key = .enter → runMsg s m cls p body = s.enqueueReq x ∧ runPlain s m cls p body = s.enqueueReq x) ∧
    (s.intake x m.key = .stay → runMsg s m cls p body = s ∧ runPlain s m cls p body = s) ∧
    (∀ a, s.intake x m.key = .away a → runMsg s m cls p body = (s.noteRetry m.key a).answerMsg m a ∧ runPlain s m cls p body = (s.noteRetry m.key a).answerMsg m a))

/-- Which epoch is older (R346), and what an enqueue stamps (R46): the STATION, the QUEUE and the epoch in force where the queue's ring is,
which is the partition's unless its notice is still on the way (R347). -/
def Obligations.EpochOrder : Prop :=
  (∀ a b : Nat, epochOlder a b = true ↔ 1 ≤ ((b : Int) - a) % 65536 ∧ ((b : Int) - a) % 65536 ≤ 32767) ∧
  (∀ a, epochOlder a a = false) ∧ (∀ a b, epochOlder a b = true → epochOlder b a = false) ∧
  (∀ (w : Waybill) (s : State) q x, (w.stamp s q x).epoch = s.queueEpoch x ∧ (w.stamp s q x).queue = q ∧ (w.stamp s q x).station = consumerStation x.consumer) ∧
  (∀ (s : State) x, x.placed = none → s.queueEpoch x = s.epochOf x.part) ∧
  (∀ (s : State) x, (∀ b, Tab.find s.part.blockEpoch (x.part * 64 + b) = none ∨ Tab.find s.part.blockEpoch (x.part * 64 + b) = some (s.epochOf x.part)) → s.queueEpoch x = s.epochOf x.part)

/-- What the context and memory object commands do (R310, R311, R329). -/
def Obligations.ContextAndObjectCommands : Prop :=
  (∀ q (r : BitVec 128) e s, Ready s q 0x0001 r.toNat 3 e → rsvdSet r.toNat contextCreateMask = false →
    s.ctx? e.part (fld r.toNat 0 11 0) = none → fld r.toNat 8 43 0 % 4096 = 0 → s.inCarve e.part (fld r.toNat 8 43 0) = true →
    (bit r.toNat 7 7 = true → ∃ x, s.ring? (fld r.toNat 4 19 0) = some x ∧ x.part = e.part ∧ x.ty = 2) →
    exec (.contextCreate q r) s = .next (State.served (State.answerCmd { s with host := { s.host with contexts := Tab.put s.host.contexts (ctxKey e.part (fld r.toNat 0 11 0)) { root := fld r.toNat 8 43 0, eventQ := if bit r.toNat 7 7 then some (fld r.toNat 4 19 0) else none, tableGen := 0, live := true, revoker := none } } } q (.ok 0)) 3 e.part)) ∧
  (∀ q (r : BitVec 64) e s, Ready s q 0x0002 r.toNat 3 e → rsvdSet r.toNat (maskOf [(0, 11, 0)]) = false →
    fld r.toNat 0 11 0 ≠ e.context → s.ctxLive e.part (fld r.toNat 0 11 0) = true →
    exec (.contextRevoke q r) s = .next (State.served ((s.revokeContext e.part (fld r.toNat 0 11 0) (some e.ring) false).await q) 3 e.part)) ∧
  (∀ p c k y l s, s.ctx? p c = some k → k.live = false → s.revokeSynced p c = true →
    s.fen.port.any (fun f => f.part == p && f.context == c && f.rank == rankFront) = false →
    s.svc.stewards.any (fun e => e.2.part == p && e.2.context == c) = false → s.ses.sessions.any (fun e => e.2.part == p && e.2.context == c) = false → takeFirst (fun y => y.part == p) s.xlt.syncs = some (y, l) →
    ∃ t, exec (.contextRevoked p c) s = .next t ∧
      (k.revoker = none → t = { s with xlt := { s.xlt with syncs := l }, host := { s.host with contexts := Tab.put s.host.contexts (ctxKey p c) { k with revoker := none } } }) ∧
      (∀ q, k.revoker = some q → t = State.answerCmd { s with xlt := { s.xlt with syncs := l }, host := { s.host with contexts := Tab.put s.host.contexts (ctxKey p c) { k with revoker := none } } } q (.ok 0))) ∧
  (∀ p c k s, s.ctx? p c = some k → k.live = false → k.revoker = none →
    s.xlt.syncs.any (fun y => y.part == p && y.context == c) = false → s.ctxCount p c = 0 →
    exec (.contextDrained p c) s = .next { s with host := { s.host with contexts := Tab.del s.host.contexts (ctxKey p c) } }) ∧
  (∀ q (r : BitVec 256) e i s, Ready s q 0x0003 r.toNat 3 e → rsvdSet r.toNat memoryObjectCreateMask = false →
    s.ctxLive e.part (fld r.toNat 0 11 0) = true → fld r.toNat 8 47 0 + fldB r.toNat 16 8 ≤ 2 ^ 48 → fldB r.toNat 16 8 ≠ 0 →
    fld r.toNat 8 47 0 % 4096 = 0 →
    pickId s.free 1 65535 s.host.objects.length (fun i => Tab.has s.host.objects (e.part * 65536 + i)) = some i →
    ∃ t g, exec (.memoryObjectCreate q r) s = .next (State.served (State.answerCmd t q (.ok (g * 65536 + i))) 3 e.part) ∧
      Tab.find t.host.objects (e.part * 65536 + i) = some { part := e.part, context := fld r.toNat 0 11 0, gen := g, index := i, va := fld r.toNat 8 47 0, length := fldB r.toNat 16 8, host := bit r.toNat 2 0 } ∧
      t = { s with host := t.host, free := t.free } ∧ t.host.rings = s.host.rings ∧ t.host.contexts = s.host.contexts) ∧
  (∀ q (r : BitVec 64) e o s, Ready s q 0x0004 r.toNat 3 e → rsvdSet r.toNat (maskOf [(0, 31, 0)]) = false →
    s.obj? e.part (fldB r.toNat 0 4) = some o → s.objInUse e.part (fldB r.toNat 0 4) = false →
    exec (.memoryObjectRelease q r) s = .next (State.served (State.answerCmd { s with host := { s.host with objects := Tab.del s.host.objects (objKey e.part (fldB r.toNat 0 4)) } } q (.ok 0)) 3 e.part))

/-- What QUEUE_CREATE of a tile queue and of a ring, and QUEUE_DESTROY, do (R312-R314). -/
def Obligations.QueueCommands : Prop :=
  (∀ q (r : BitVec 576) e x n s, Ready s q 0x0005 r.toNat 3 e → fld r.toNat 0 3 0 = 3 → rsvdSet r.toNat tileRecordMask = false →
    tileBad s e.part r.toNat = none → s.part? e.part = some x → s.queueCount e.part < x.queues →
    (fldB r.toNat 21 1 ≠ 0 → fitsObj s e.part (fldB r.toNat 24 4) (fldB r.toNat 28 4) (2 ^ fldB r.toNat 21 1 * 64) = true) →
    s.pickQueue = some n →
    exec (.queueCreate q r) s = .next (State.served ((({ s with free := s.free + 1 }.setQueue n { part := e.part, context := e.context, consumer := .none, placed := none, hotLog2 := fldB r.toNat 20 1, spillLog2 := fldB r.toNat 21 1, stallMs := fldB r.toNat 22 2, spillHandle := fldB r.toNat 24 4, spillOff := fldB r.toNat 28 4, tail := 0, head := 0, hot := [], spill := [], fullStalls := 0, refill := 0, oldPlace := none, oldHot := [], headSince := s.now, stalled := false }).storeDesc n).answerCmd q (.ok n)) 3 e.part)) ∧
  (∀ q (r : BitVec 576) e x n s, Ready s q 0x0005 r.toNat 3 e → hostRingType (fld r.toNat 0 3 0) = true → rsvdSet r.toNat ringRecordMask = false →
    ringBad s e.part (fld r.toNat 0 3 0) r.toNat = none → s.part? e.part = some x → s.queueCount e.part < x.queues →
    (fld r.toNat 0 3 0 = 2 → bit r.toNat 15 0 = true → s.host.rings.any (fun q => q.2.part == e.part && q.2.ty == 2 && q.2.partEvents) = false) →
    (fld r.toNat 0 3 0 = 6 → s.host.rings.any (fun q => q.2.part == e.part && q.2.ty == 6) = false) →
    fitsObj s e.part (fldB r.toNat 16 4) (fldB r.toNat 20 4) (2 ^ fldB r.toNat 14 1 * entryBytes (fld r.toNat 0 3 0)) = true →
    s.pickQueue = some n →
    exec (.queueCreate q r) s = .next (State.served ((({ s with free := s.free + 1 }.setRing n { part := e.part, ty := fld r.toNat 0 3 0, context := e.context, log2 := fldB r.toNat 14 1, partEvents := bit r.toNat 15 0, handle := fldB r.toNat 16 4, off := fldB r.toNat 20 4, cqValid := bit r.toNat 27 7, cq := fld r.toNat 24 19 0, produced := 0, consumed := 0, overflows := 0, lost := 0, cur := none, out := [] }).storeDesc n).answerCmd q (.ok n)) 3 e.part)) ∧
  (∀ q (r : BitVec 64) e s, Ready s q 0x0006 r.toNat 3 e → rsvdSet r.toNat (maskOf [(0, 19, 0)]) = false →
    (s.ringOf e.part (fld r.toNat 0 19 0) || s.tileQ e.part (fld r.toNat 0 19 0)) = true → s.queueNamed e.part (fld r.toNat 0 19 0) = false →
    s.queueHolds (fld r.toNat 0 19 0) = false →
    exec (.queueDestroy q r) s = .next (State.served ((State.storeDesc { s with host := { s.host with rings := Tab.del s.host.rings (fld r.toNat 0 19 0) }, stn := { s.stn with queues := Tab.del s.stn.queues (fld r.toNat 0 19 0) } } (fld r.toNat 0 19 0)).answerCmd q (.ok 0)) 3 e.part))

/-- What a doorbell does: it moves its ring's own count, or it is discarded with DOORBELL_INVALID; a write elsewhere in configuration space is
answered READ_ONLY (R305, R309). How a submission entry is taken and its buffer begun, and how answers and events that waited are written,
the events in Innkeeper's turn (R277, R316, R318, R320, R322). -/
def Obligations.DoorbellsAndBuffers : Prop :=
  (∀ p kind (c : Nat → Nat → BitVec 64 → Instr), (kind, c) ∈ [(0, Instr.submissionTailDoorbell), (1, .completionHeadDoorbell), (2, .eventHeadDoorbell), (3, .tokenRingHeadDoorbell), (4, .reckoningRingHeadDoorbell)] →
    ∀ (w : BitVec 64) s,
      (∀ r, doorbellBad s p kind w.toNat = none → s.ring? (fld w.toNat 0 19 0) = some r →
        exec (c p p w) s = .next (s.setRing (fld w.toNat 0 19 0) (if kind = 0 then { r with produced := extendCount r.produced w.toNat } else { r with consumed := extendCount r.consumed w.toNat }))) ∧
      (∀ why, doorbellBad s p kind w.toNat = some why →
        exec (c p p w) s = .next (s.event 0x000F p 0 false (fld w.toNat 0 19 0) 0xFFFF (plcB 0 8 w.toNat ||| plcB 8 1 why))) ∧
      (∀ page, page ≠ p → exec (c page p w) s = .next s)) ∧
  (∀ fn addr s, (addr < 0x10000 + fn * 0x1000 ∨ 0x10000 + (fn + 1) * 0x1000 ≤ addr) →
    exec (.configWriteReadOnly fn addr) s = .next (s.emitOut (.data fn Code.readOnly.host))) ∧
  (∀ q r o l cs s, s.ring? q = some r → r.ty = 0 → r.cur = none → r.out = [] → r.consumed < r.produced → s.obj? r.part r.handle = some o →
    s.readObj o (r.off + r.consumed % 2 ^ r.log2 * 64) 64 = some l → rsvdSet (ofBytes l) submissionMask = false →
    (subBufOf (ofBytes l)).bufOff % 8 = 0 → 8 ≤ (subBufOf (ofBytes l)).bufBytes → (subBufOf (ofBytes l)).bufBytes ≤ 65536 →
    s.bufferCmds r.part (subBufOf (ofBytes l)) = some cs →
    ((subBufOf (ofBytes l)).waitEn = true → s.fenceOf r.part (subBufOf (ofBytes l)).waitFence = true) →
    ((subBufOf (ofBytes l)).signalEn = true → s.fenceOf r.part (subBufOf (ofBytes l)).signalFence = true) →
    exec (.submissionEntry q) s = .next (s.setRing q { r with cur := some { subBufOf (ofBytes l) with phase := .waiting } })) ∧
  (∀ q r b cs s, s.ring? q = some r → r.cur = some b → b.phase = .waiting → s.ctxLive r.part b.context = true →
    (b.waitEn = true → fenceAband (s.fenceWord b.waitFence) = false ∧ b.waitValue ≤ fenceValue (s.fenceWord b.waitFence)) →
    s.bufferCmds r.part b = some cs → cs ≠ [] →
    exec (.commandBufferStart q) s = .next ((s.setRing q { r with cur := some { b with cmds := cs, phase := .running, forced := none } }).skipBad q cs.length)) ∧
  (∀ q r b cs s, s.ring? q = some r → r.cur = some b → b.phase = .waiting → s.ctxLive r.part b.context = true →
    b.waitEn = true → fenceAband (s.fenceWord b.waitFence) = true → s.bufferCmds r.part b = some cs → cs ≠ [] →
    exec (.commandBufferStart q) s = .next ((s.setRing q { r with cur := some { b with cmds := cs, phase := .running, forced := some .fenceAbandoned } }).skipBad q cs.length)) ∧
  (∀ q r s, s.ring? q = some r →
    exec (.answerWrittenOnRoom q) s = .next (((s.flushOut q (r.out.length + 1)).tryEnd q).skipBad q (s.cmdsLeft q))) ∧
  (∀ e l l1 r s, s.nextItem 5 (fun (x : EventRec) => x.part) (s.host.events.filter (fun x => decide (x.time + 1000 ≤ s.now))) = some (e, l) → s.innTurn 5 e.part 0 = true →
    l1 = l ++ s.host.events.filter (fun x => decide (s.now < x.time + 1000)) → s.ring? e.queue = some r →
    (r.lost = 0 → r.room = true → exec .eventWrite s = .next (State.served (State.writeRing { s with host := { s.host with events := l1 } } e.queue r (eventEntry e s.sys.bootNonce)) 5 e.part)) ∧
    (r.room = false → exec .eventWrite s = .next (State.served (State.setRing { s with host := { s.host with events := l1 } } e.queue { r with overflows := sat32 (r.overflows + e.count), lost := r.lost + e.count }) 5 e.part))) ∧
  (∀ q r s, s.ring? q = some r → r.ty = 2 → r.lost ≠ 0 → r.room = true → s.innTurn 5 r.part 0 = true →
    exec (.eventsLost q) s = .next (State.served (s.writeRing q { r with lost := 0 } (eventEntry { queue := q, code := 0x0010, context := 0, part := r.part, source := q, station := 0xFFFF, count := r.lost, time := s.now, data := 0 } s.sys.bootNonce)) 5 r.part))

/-- What the fence commands do (R324, R325, R326, R327): a wait and a fetch read the fence at the store, and what the read gives decides the
answer. A signal that reaches the fence store alone (R325): ADD gives VALUE + x and SET gives x; refused below VALUE or above 2^63 - 1, it
leaves VALUE; ABANDONED, once set, stays, and is set by a signal that carries it, refused or not; both arrays are written. -/
def Obligations.FenceCommands : Prop :=
  (∀ q (r : BitVec 128) e x i s, Ready s q 0x0007 r.toNat 0 e → rsvdSet r.toNat (maskOf [(0, 63, 0)]) = false → fldB r.toNat 0 8 < 2 ^ 63 →
    s.part? e.part = some x → (s.fen.fences.filter (fun f => f.2.part == e.part)).length < x.fences →
    pickId s.free 0 65536 s.fen.fences.length (fun i => Tab.has s.fen.fences i) = some i →
    exec (.fenceCreate q r) s = .next (({ s with free := s.free + 1 }.setFence i { part := e.part, owner := some e.context, wordA := BitVec.ofNat 64 (fldB r.toNat 0 8), wordB := BitVec.ofNat 64 (fldB r.toNat 0 8) }).answerCmd q (.ok i))) ∧
  (∀ q (r : BitVec 64) e x s, Ready s q 0x0008 r.toNat 0 e → rsvdSet r.toNat (maskOf [(0, 15, 0)]) = false →
    Tab.find s.fen.fences (fldB r.toNat 0 2) = some x → x.part = e.part → x.mayOwn e.context = true → s.fenceNamed e.part (fldB r.toNat 0 2) = false →
    s.entryWaits e.part (fldB r.toNat 0 2) = false →
    ∃ t, t = s.answerWaiters (fldB r.toNat 0 2) (.notReady (s.fenceWord (fldB r.toNat 0 2)).toNat) ∧
      exec (.fenceRelease q r) s = .next (State.answerCmd { t with fen := { t.fen with fences := Tab.del t.fen.fences (fldB r.toNat 0 2) } } q (.ok 0))) ∧
  (∀ q (r : BitVec 128) e s, Ready s q 0x0009 r.toNat 0 e → rsvdSet r.toNat (maskOf [(0, 15, 0), (2, 1, 0), (8, 63, 0)]) = false →
    fld r.toNat 2 1 0 = 1 ∨ fld r.toNat 2 1 0 = 2 → fldB r.toNat 8 8 < 2 ^ 63 → s.fenceOf e.part (fldB r.toNat 0 2) = true →
    exec (.fenceSignal q r) s = .next (State.await (s.sendFence { fence := fldB r.toNat 0 2, part := e.part, context := e.context, op := if fld r.toNat 2 1 0 = 1 then .add (fldB r.toNat 8 8) false else .set (fldB r.toNat 8 8) false, rank := rankFront, source := srcCode 7 0, reply := .ring e.ring }) q)) ∧
  (∀ q (r : BitVec 192) e s, Ready s q 0x000A r.toNat 0 e → rsvdSet r.toNat (maskOf [(0, 15, 0), (8, 63, 0), (16, 31, 0)]) = false →
    fldB r.toNat 8 8 < 2 ^ 63 → fldB r.toNat 16 4 ≤ 10000000 → s.fenceOf e.part (fldB r.toNat 0 2) = true →
    exec (.fenceWait q r) s = .next (State.await (s.sendFence { fence := fldB r.toNat 0 2, part := e.part, context := e.context, op := .read, rank := rankFront, source := srcCode 7 0, reply := .wait e.ring (fldB r.toNat 8 8) (if fldB r.toNat 16 4 = 0 then none else some (s.now + fldB r.toNat 16 4)) }) q)) ∧
  (∀ f q target dl n y (s : State), s.fen.port = [f] → f.flit = none → f.op = .read → f.reply = .wait q target dl → Tab.find s.fen.fences f.fence = some y → y.part = f.part → y.wordB = y.wordA → n ≠ 0 →
    ∃ v, v = State.setFence { s with fen := { s.fen with port := [] } } f.fence y ∧
      (fenceReaches y.wordA target = true → exec (.fenceSignalApply n) s = .next (v.answerCmd q (.ok y.wordA.toNat)).releaseWaiters) ∧
      (fenceReaches y.wordA target = false → dl = none → exec (.fenceSignalApply n) s = .next (v.answerCmd q (.notReady y.wordA.toNat)).releaseWaiters) ∧
      (∀ d, fenceReaches y.wordA target = false → dl = some d → (s.fen.waiters.filter (fun x => x.part == f.part)).length < 4096 →
        exec (.fenceSignalApply n) s = .next (State.releaseWaiters { v with fen := { v.fen with waiters := v.fen.waiters ++ [{ ring := q, part := f.part, fence := f.fence, target := target, deadline := d }] } })) ∧
      (∀ d, fenceReaches y.wordA target = false → dl = some d → 4096 ≤ (s.fen.waiters.filter (fun x => x.part == f.part)).length →
        exec (.fenceSignalApply n) s = .next (v.answerCmd q (.busy .waitFull 0)).releaseWaiters)) ∧
  (∀ q w s, s.fen.waiters.find? (fun w => w.ring == q) = some w → w.deadline ≤ s.now →
    exec (.fenceWaitTimeout q) s = .next (State.answerCmd { s with fen := { s.fen with waiters := s.fen.waiters.filter (fun x => x.ring != q) } } q (.notReady (s.fenceWord w.fence).toNat))) ∧
  (∀ q (r : BitVec 128) e x s, Ready s q 0x000B r.toNat 0 e → rsvdSet r.toNat (maskOf [(0, 15, 0), (8, 63, 0)]) = false → fldB r.toNat 8 8 < 2 ^ 63 →
    Tab.find s.fen.fences (fldB r.toNat 0 2) = some x → x.part = e.part → x.mayOwn e.context = true → s.fenceNamed e.part (fldB r.toNat 0 2) = false →
    ∃ v, v = s.setFence (fldB r.toNat 0 2) { x with owner := some e.context } ∧
    exec (.fenceReset q r) s = .next (State.await (((v.answerWaiters (fldB r.toNat 0 2) (.ok ((v.fenceWord (fldB r.toNat 0 2)) ||| BitVec.ofNat 64 (2 ^ 63)).toNat)).abandonEntries e.part (fldB r.toNat 0 2)).sendFence { fence := fldB r.toNat 0 2, part := e.part, context := e.context, op := .reset (fldB r.toNat 8 8), rank := rankFront, source := srcCode 7 0, reply := .ring e.ring }) q)) ∧
  (∀ q (r : BitVec 384) e src dst s, Ready s q 0x000C r.toNat 0 e →
    rsvdSet r.toNat (maskOf [(0, 15, 0), (8, 63, 0), (16, 31, 0), (20, 31, 0), (24, 63, 0), (32, 63, 0), (40, 31, 0)]) = false →
    fldB r.toNat 8 8 < 2 ^ 63 → fldB r.toNat 40 4 % 64 = 0 → fldB r.toNat 40 4 ≤ 16777216 → s.fenceOf e.part (fldB r.toNat 0 2) = true →
    s.obj? e.part (fldB r.toNat 16 4) = some src → s.obj? e.part (fldB r.toNat 20 4) = some dst → fldB r.toNat 24 8 + fldB r.toNat 40 4 ≤ src.length →
    fldB r.toNat 32 8 + fldB r.toNat 40 4 ≤ dst.length → s.readsSealed src (fldB r.toNat 24 8) (fldB r.toNat 40 4) = false →
    exec (.resultFetch q r) s = .next (State.await (s.sendFence { fence := fldB r.toNat 0 2, part := e.part, context := e.context, op := .read, rank := rankFront, source := srcCode 7 0, reply := .fetch e.ring r.toNat }) q)) ∧
  (∀ (s : State) p r w src dst, s.obj? p (fldB r 16 4) = some src → s.obj? p (fldB r 20 4) = some dst → fenceAband w = false →
    (fldB r 8 8 ≤ fenceValue w → s.fetchResult p r w = (s.copyObj src dst (fldB r 24 8) (fldB r 32 8) (fldB r 40 4), some (.ok w.toNat))) ∧
    (fenceValue w < fldB r 8 8 → s.fetchResult p r w = (s, some (.notReady w.toNat)))) ∧
  (∀ (s : State) p r w, fenceAband w = true → s.fetchResult p r w = (s, some (.refused .fenceAbandoned w.toNat))) ∧
  (∀ (s : State) f q r res, f.reply = .fetch q r → res ≠ SigRes.gone → replyFlit s ⟨f, res⟩ = finishCmd q (s.fetchResult f.part r (s.fenceWord f.fence))) ∧
  (∀ (f : FenceFlit) (y : Fence) (x v : Nat) (ab : Bool) (s : State),
    s.fen.port = [f] → f.flit = none → Tab.find s.fen.fences f.fence = some y → y.part = f.part → y.wordB = y.wordA →
    (f.op = .add x ab ∧ v = fenceValue y.wordA + x ∨ f.op = .set x ab ∧ v = x) →
    ∃ t z, exec (.fenceSignalApply 4) s = .next t ∧ Tab.find t.fen.fences f.fence = some z ∧
      z = { y with wordA := z.wordA, wordB := z.wordA } ∧
      fenceValue z.wordA = (if v < fenceValue y.wordA ∨ 2 ^ 63 - 1 < v then fenceValue y.wordA else v) ∧
      fenceAband z.wordA = (fenceAband y.wordA || ab) ∧
      (∀ g, g ≠ f.fence → Tab.find t.fen.fences g = Tab.find s.fen.fences g))

/-- What the station commands do (R52-R55, R58, R561). -/
def Obligations.StationCommands : Prop :=
  (∀ q (r : BitVec 1024) e s, Ready s q 0x0010 r.toNat 3 e → rsvdSet r.toNat stationMask = false → stationBadParam r.toNat = none →
    s.station? e.part (fldB r.toNat 0 2) = none →
    (programKind (fld r.toNat 2 3 0) = true → fitsObj s e.part (fldB r.toNat 4 4) (fldB r.toNat 8 4) (fldB r.toNat 80 4) = true ∧
      fldB r.toNat 80 4 ≤ programLimit (fld r.toNat 2 3 0) ∧ fldB r.toNat 16 4 ≤ paramLimit (fld r.toNat 2 3 0)) →
    (fldB r.toNat 12 4 ≠ 0 → fitsObj s e.part (fldB r.toNat 12 4) 0 (fldB r.toNat 16 4) = true) → (fldB r.toNat 12 4 = 0 → fldB r.toNat 16 4 = 0) →
    (s.stn.stations.filter (fun x => x.1 / 65536 == e.part)).length < 4096 →
    (∀ i, i ∈ (stationOf r.toNat e.context s.now).inQ → s.tileQ e.part i = true ∧ s.inputTaken i = false) →
    dedupN (stationOf r.toNat e.context s.now).inQ = (stationOf r.toNat e.context s.now).inQ →
    (∀ i, i ∈ (stationOf r.toNat e.context s.now).outQ.filterMap (fun x => x) → (s.tileQ e.part i || s.sendEnd e.part i) = true ∧ s.planQueue i = false) →
    (∀ i, (stationOf r.toNat e.context s.now).rejectQ = some i → s.tileQ e.part i = true ∧ s.planQueue i = false) →
    exec (.stationDefine q r) s = .next (State.served (((s.setStation e.part (fldB r.toNat 0 2) (stationOf r.toNat e.context s.now)).setConsumers (fun i => .station (fldB r.toNat 0 2) i) (stationOf r.toNat e.context s.now).inQ).answerCmd q (.ok 0xFFFF)) 3 e.part)) ∧
  (∀ q (r : BitVec 576) e t b rings im s, Ready s q 0x0011 r.toNat 3 e → (r.toNat >>> 24) % 2 ^ 40 = 0 → fldB r.toNat 2 1 ≠ 0 → fldB r.toNat 2 1 ≤ 32 →
    s.station? e.part (fldB r.toNat 0 2) = some t → engineBeyond r.toNat = false → dedupN (namedEngines r.toNat) = namedEngines r.toNat →
    (∀ x, x ∈ namedEngines r.toNat → kindMatches t.kind x = true ∧ ∃ y, s.physEngine e.part x = some y ∧ s.engine? y = none ∧
      (engClass y = 1 → Tab.has s.svc.stewards (engNum y) = false) ∧ engRegion y = regionOf b ∧
      (regionKind t.kind = true → (s.lowestBlock e.part (engRegion y)).isSome = true) ∧ (t.kind = 8 → s.sys.variantT = true ∧ s.portPresent (engNum y) = true)) →
    s.bindAnchor e.part t (((namedEngines r.toNat).filterMap (s.physEngine e.part)).headD 0) = some b → (s.named e.part b).isSome = true →
    t.engines.length + fldB r.toNat 2 1 ≤ (if t.kind = 4 then 4 else if t.kind = 5 ∨ t.kind = 8 then 1 else 120) → (t.kind = 5 → t.anchor = none) →
    (t.anchor = none → (s.disp b).freeSlot.isSome = true) → s.bindRings b t = some rings → s.bindImage e.part t = some im →
    s.bindCheck e.part t (((namedEngines r.toNat).filterMap (s.physEngine e.part)).headD 0) im = none →
    ∃ u v t', exec (.stationBind q r) s = .next (State.served (State.answerCmd u q (.ok v)) 3 e.part) ∧ u = { s with stn := u.stn, cell := u.cell, unit := u.unit, free := u.free } ∧ u.station? e.part (fldB r.toNat 0 2) = some t' ∧
      t'.engines = t.engines ++ (namedEngines r.toNat).filterMap (s.physEngine e.part) ∧ t'.inQ = t.inQ ∧ t'.outQ = t.outQ ∧ t'.lastCommit = s.now ∧
      t'.anchor.isSome = true ∧ (t.anchor.isSome = true → t'.anchor.map (·.2) = t.anchor.map (·.2))) ∧
  (∀ q (r : BitVec 576) e t s, Ready s q 0x0012 r.toNat 3 e → (r.toNat >>> 24) % 2 ^ 40 = 0 → fldB r.toNat 2 1 ≠ 0 → fldB r.toNat 2 1 ≤ 32 →
    s.station? e.part (fldB r.toNat 0 2) = some t → engineBeyond r.toNat = false →
    (∀ x, x ∈ namedEngines r.toNat → ∃ y, s.physEngine e.part x = some y ∧ s.boundTo e.part (fldB r.toNat 0 2) y = true) →
    ∀ es idle u, es = dedupN ((namedEngines r.toNat).filterMap (s.physEngine e.part)) → (t.engines.filter (fun y => !es.contains y && !t.leaving y) ≠ [] ∨ s.inputsWaiting t = false) →
    idle = es.filter s.engineIdle → u = t.without idle.contains →
    exec (.stationUnbind q r) s = .next (State.served ((idle.foldl State.delEngine
      (s.setStation e.part (fldB r.toNat 0 2) { u with unbinds := u.unbinds ++ [(q, es.filter (fun y => !s.engineIdle y))] })).await q) 3 e.part)) ∧
  (∀ p id t q l s, s.station? p id = some t → takeFirst (fun u => u.2.isEmpty) t.unbinds = some ((q, []), l) →
    exec (.stationUnbound p id) s = .next ((s.setStation p id { t with unbinds := l }).answerCmd q (.ok 0))) ∧
  (∀ q (r : BitVec 64) e t s, Ready s q 0x0013 r.toNat 0 e → rsvdSet r.toNat (maskOf [(0, 15, 0), (2, 0, 0)]) = false →
    s.station? e.part (fldB r.toNat 0 2) = some t →
    (t.anchor = none → exec (.stationPredicate q r) s = .next ((s.setStation e.part (fldB r.toNat 0 2) { t with predValue := bit r.toNat 2 0 }).answerCmd q (.ok 0))) ∧
    (t.anchor ≠ none → exec (.stationPredicate q r) s = .next (State.await (State.post { s with stn := { s.stn with preds := s.stn.preds ++ [{ part := e.part, station := fldB r.toNat 0 2, value := bit r.toNat 2 0, ring := some q, arrived := false, flit := some s.spine.nextFlit }] } }
      .pred .control 0 hubEnd (((t.anchor.bind (fun a => s.phys e.part a.1)).map blockEnd).getD hubEnd)) q))) ∧
  (∀ p id f l t s, takeFirst (fun f => f.part == p && f.station == id && !f.arrived && f.flit.isNone) s.stn.preds = some (f, l) → s.station? p id = some t →
    exec (.stationPredicateArrive p id) s = .next (State.setStation { s with stn := { s.stn with preds := if f.ring.isSome then l ++ [{ f with arrived := true }] else l } } p id { t with predValue := f.value })) ∧
  (∀ p id f l q s, takeFirst (fun f => f.part == p && f.station == id && f.arrived) s.stn.preds = some (f, l) → f.ring = some q →
    exec (.stationPredicated p id) s = .next (State.answerCmd { s with stn := { s.stn with preds := l } } q (.ok 0)))

/-- How a waybill is submitted, enqueued and refilled (R46, R71-R73): it goes to the hot ring while that has a place and nothing is spilled,
else to the spill ring, and is held while there is no place at all. -/
def Obligations.WaybillQueues : Prop :=
  (∀ q (r : BitVec 576) e s, Ready s q 0x0014 r.toNat 0 e → (r.toNat >>> 20) % 2 ^ 44 = 0 → s.tileQ e.part (fld r.toNat 0 19 0) = true →
    s.planQueue (fld r.toNat 0 19 0) = false → s.queueFull (fld r.toNat 0 19 0) = false →
    ({ Waybill.ofNat (r.toNat >>> 64) with context := e.context, srcStation := 0xFFFF, rejectCode := 0, resetGen := s.genOf e.part }.normalise).malformed s e.part = none →
    exec (.waybillSubmit q r) s = .next ((s.launch (fld r.toNat 0 19 0) ({ Waybill.ofNat (r.toNat >>> 64) with context := e.context, srcStation := 0xFFFF, rejectCode := 0, resetGen := s.genOf e.part }.normalise) rankFront).answerCmd q (.ok 0))) ∧
  (∀ q f l x s, s.nextFlight q = some (f, l) → s.queue? q = some x → x.placed.isSome = true →
    (s.placesOf x = 0 → exec (.waybillEnqueue q) s = .next { s with stn := { s.stn with flight := l, held := s.stn.held ++ [.enqueue q f.wb f.rank] } }) ∧
    (s.placesOf x ≠ 0 → exec (.waybillEnqueue q) s = .next (State.enqueueNow { s with stn := { s.stn with flight := l } } q x f.wb))) ∧
  (∀ q f l x s, s.nextFlight q = some (f, l) → s.queue? q = some x → x.placed = none → s.placesOf x ≠ 0 →
    exec (.hubDirectoryEnqueue q) s = .next (State.enqueueNow { s with stn := { s.stn with flight := l } } q x f.wb)) ∧
  (∀ q f l x s, s.nextFlight q = some (f, l) → s.queue? q = some x → x.placed = none → s.placesOf x = 0 →
    exec (.hubDirectoryEnqueue q) s = .next (State.countStall { s with stn := { s.stn with flight := l, held := s.stn.held ++ [.enqueue q f.wb f.rank] } } q)) ∧
  (∀ (s : State) q x o w, x.placed = none → (w.stamp s q x).heavy = false → s.obj? x.part x.spillHandle = some o →
    ∃ v, v = s.enqueueNow q x w ∧ v.queue? q = some { x with tail := x.tail + 1, spill := x.spill ++ [w.stamp s q x] }) ∧
  (∀ (s : State) q x a off b w, x.placed = some (a, off) → s.phys x.part a = some b → (w.stamp s q x).heavy = false →
    ∃ v y, v = s.enqueueNow q x w ∧ v.queue? q = some y ∧ y.tail = x.tail + 1 ∧
      (x.spill = [] → 0 < x.hotFree → s.ringMoving x = false → y.hot = x.hot ++ [w.stamp s q x] ∧ y.spill = []) ∧
      (x.spill ≠ [] ∨ x.hotFree = 0 ∨ s.ringMoving x = true → y.hot = x.hot ∧ y.spill = x.spill ++ [w.stamp s q x])) ∧
  (∀ q x s, s.queue? q = some x → x.groupSize ≠ 0 → s.ringMoving x = false → s.partFrozen x.part = false →
    exec (.refillGroupStart q) s = .next (s.setQueue q { x with refill := x.groupSize })) ∧
  (∀ q x s, s.queue? q = some x → x.refill ≠ 0 →
    ∃ t, exec (.refillGroupComplete q) s = .next t ∧ t = { s with stn := t.stn, fab := t.fab } ∧
      t.queue? q = some { x with hot := x.hot ++ x.spill.take x.refill, spill := x.spill.drop x.refill, refill := 0, headSince := if x.hot = [] ∧ x.oldHot = [] then s.now else x.headSince } ∧
      (∀ k, k ≠ q → t.queue? k = s.queue? k))

/-- How a dispatcher starts a waybill on a free engine, and how a start commits (R58, R63, R66, R68, R73, R77). When a waybill passes its checks
and needs an engine, it leaves the returned waybills or its queue's head, the chosen engine holds the start, and its input is the station's
last served, its slot the dispatcher's; a zip station's start holds the heads of all its inputs; a combine unit takes the waybill into its
buffer. At its commit a start leaves its engine and its station, and what it held for full queues is held no longer. -/
def Obligations.StartsAndCommits : Prop :=
  (∀ b slot p id i t w u s, s.nextCandidate b = some (slot, p, id, i) → s.station? p id = some t → t.zip = false → t.kind ≠ 5 →
    s.inputHead t i = some w → s.takingEngine t i [w] = some u → s.check2 p w false = .pass → w.passes = false → s.cancelled p w.requestId = false → t.isTrue w = true →
    ∃ v y, exec (.waybillStart b) s = .next v ∧ v = { s with host := v.host, fen := v.fen, part := v.part, stn := v.stn, fab := v.fab, spine := v.spine, cell := v.cell, unit := v.unit, reck := v.reck, free := v.free } ∧ v.engine? u = some y ∧
      y.start = some { part := p, station := id, inputs := [(i, w)], emits := [], direct := [], ended := false, heldFull := false, heldOrder := false, begun := s.now, faulted := false } ∧
      (v.disp b).lastSlot = slot ∧
      (∀ x, takeFirst (fun r => r.input == i) t.returned = none → s.queue? (t.inQ.getD i 0xFFFFFFFF) = some x →
        v.queue? (t.inQ.getD i 0xFFFFFFFF) = some (x.pop s.now) ∧ v.station? p id = some { t with lastIn := i, starts := t.starts ++ [u] }) ∧
      (∀ r l, takeFirst (fun r => r.input == i) t.returned = some (r, l) →
        v.queue? (t.inQ.getD i 0xFFFFFFFF) = s.queue? (t.inQ.getD i 0xFFFFFFFF) ∧ v.station? p id = some { t with lastIn := i, starts := t.starts ++ [u], returned := l })) ∧
  (∀ b slot p id i t u ctx ws s, s.nextCandidate b = some (slot, p, id, i) → s.station? p id = some t → t.zip = true → t.kind ≠ 5 →
    ws = (List.range t.nIn).filterMap (fun k => (s.inputHead t k).map (fun w => (k, w))) → ws ≠ [] → s.takingEngine t 0 (ws.map (·.2)) = some u →
    (∀ y, y ∈ ws → s.check2 p y.2 false = .pass ∧ y.2.passes = false ∧ s.cancelled p y.2.requestId = false ∧ t.isTrue y.2 = true ∧ y.2.context = ctx) →
    ∃ v y, exec (.waybillStart b) s = .next v ∧ v.engine? u = some y ∧ (v.disp b).lastSlot = slot ∧
      y.start = some { part := p, station := id, inputs := ws, emits := [], direct := [], ended := false, heldFull := false, heldOrder := false, begun := s.now, faulted := false }) ∧
  (∀ b slot p id i t w u s, s.nextCandidate b = some (slot, p, id, i) → s.station? p id = some t → t.zip = false → t.kind = 5 →
    s.inputHead t i = some w → s.takingEngine t i [w] = some u → s.check2 p w false = .pass → w.passes = false → s.cancelled p w.requestId = false → t.isTrue w = true →
    ∃ v, exec (.waybillStart b) s = .next v ∧ (v.disp b).lastSlot = slot ∧ (v.comb u).taken = (s.comb u).taken ++ [(i, w)] ∧ v.stn.engines = s.stn.engines) ∧
  (∀ b s, s.nextCandidate b = none → exec (.waybillStart b) s = .next s) ∧
  (∀ e x st t s, s.engine? e = some x → x.start = some st → s.station? x.part x.station = some t → st.ended = true → st.heldFull = false → st.heldOrder = false →
    st.faulted = false → s.storesPending e = false → (t.ordered = true → t.starts.head? = some e) → s.canCommit s.stn.held (st.items t) = true →
    exec (.engineCommit e) s = .next (s.performCommit e x { st with heldOrder := false } t)) ∧
  (∀ e x st t s, s.engine? e = some x → x.start = some st → s.station? x.part x.station = some t → st.ended = true → st.heldFull = false → st.heldOrder = false →
    st.faulted = false → s.storesPending e = false → t.ordered = true → t.starts.head? ≠ some e →
    exec (.engineCommit e) s = .next (s.setEngine e { x with start := some { st with heldOrder := true } })) ∧
  (∀ e x st t (s : State), t.leaving e = false → (st.emits.all (fun w => (t.route w).isSome)) = true →
    (s.performCommit e x st t).engine? e = some { x with start := none } ∧
    (s.performCommit e x st t).station? x.part x.station = some { t with starts := t.starts.filter (· != e), lastCommit := s.now } ∧
    (s.performCommit e x st t).stn.held = s.stn.held.filter (· != Holder.engine e)) ∧
  (∀ q w rank s, s.stn.held = [Holder.enqueue q w rank] → s.room q ≠ 0 →
    exec .heldCommitComplete s = .next (State.launch { s with stn := { s.stn with held := [] } } q w rank)) ∧
  (∀ q w rank (s : State), s.stn.held = [Holder.enqueue q w rank] → s.room q = 0 → exec .heldCommitComplete s = .next s) ∧
  (∀ e x st t s, s.stn.held = [Holder.engine e] → s.engine? e = some x → x.start = some st → s.station? x.part x.station = some t → s.canCommit [] (st.items t) = true →
    exec .heldCommitComplete s = .next (s.performCommit e x st t)) ∧
  (∀ p id t e l x st s, s.station? p id = some t → t.starts = e :: l → s.engine? e = some x → x.part = p → x.station = id → x.start = some st → t.ordered = true → st.heldOrder = true →
    st.ended = true → st.faulted = false → s.canCommit s.stn.held (st.items t) = true →
    exec (.orderedCommitSignal p id) s = .next (s.performCommit e x { st with heldOrder := false } t))

/-- What the steward commands do (R150-R152, R156). What the milestone and cancel commands do (R280, R281). -/
def Obligations.StewardCommands : Prop :=
  (∀ q (r : BitVec 512) e c rings im pm s, Ready s q 0x0015 r.toNat 3 e → rsvdSet r.toNat stewardMask = false → fld r.toNat 2 1 0 = 1 →
    s.stewardCell e.part r.toNat = some c → s.engine? (cellId c) = none → Tab.find s.svc.stewards c = none →
    (∀ i, i ∈ (stewardInQ r.toNat).filterMap (fun x => x) → s.tileQ e.part i = true ∧ s.inputTakenBut c i = false) →
    dedupN ((stewardInQ r.toNat).filterMap (fun x => x)) = (stewardInQ r.toNat).filterMap (fun x => x) →
    placeRings s s.free (((stewardInQ r.toNat).filterMap (fun x => x)).filter (fun q => match s.queue? q with | some x => x.placed.isNone | none => false)) (s.disp (c / 20)).ringUse = some rings →
    fldB r.toNat 36 4 ≤ 16384 → fldB r.toNat 16 4 ≤ 65536 → fldB r.toNat 36 4 ≠ 0 → fldB r.toNat 36 4 % 4 = 0 →
    fitsObj s e.part (fldB r.toNat 4 4) (fldB r.toNat 8 4) (fldB r.toNat 36 4) = true →
    (fldB r.toNat 12 4 = 0 → fldB r.toNat 16 4 = 0 ∧ pm = []) → (fldB r.toNat 12 4 ≠ 0 → fitsObj s e.part (fldB r.toNat 12 4) 0 (fldB r.toNat 16 4) = true) →
    (s.obj? e.part (fldB r.toNat 4 4)).bind (fun o => s.readObj o (fldB r.toNat 8 4) (fldB r.toNat 36 4)) = some im →
    (fldB r.toNat 16 4 ≠ 0 → (s.obj? e.part (fldB r.toNat 12 4)).bind (fun o => s.readObj o 0 (fldB r.toNat 16 4)) = some pm) → (fldB r.toNat 16 4 = 0 → pm = []) →
    sCheck true im = none →
    ∃ t, exec (.stewardAppoint q r) s = .next (State.served (State.answerCmd t q (.ok 0)) 3 e.part) ∧ t = { s with svc := t.svc, stn := t.stn, cell := t.cell, free := t.free } ∧
      Tab.find t.svc.stewards c = some { part := e.part, context := e.context, role := 1, programHandle := fldB r.toNat 4 4, programOff := fldB r.toNat 8 4, programLen := fldB r.toNat 36 4, paramHandle := fldB r.toNat 12 4, paramLen := fldB r.toNat 16 4, inQ := stewardInQ r.toNat, running := true, dismissing := none, revoked := false, plan := none } ∧
      (t.scell c).pc = 0 ∧ (t.scell c).role = 1 ∧ (t.scell c).status = 0) ∧
  (∀ q (r : BitVec 64) e c t s, Ready s q 0x0016 r.toNat 3 e → rsvdSet r.toNat (maskOf [(0, 7, 0), (1, 0, 0)]) = false → s.stewardCell e.part r.toNat = some c →
    Tab.find s.svc.stewards c = some t → t.part = e.part → s.stewardPlanned c = false → t.dismissing = none → t.revoked = false →
    exec (.stewardDismiss q r) s = .next (State.served ((s.setSteward c { t with dismissing := some q }).await q) 3 e.part)) ∧
  (∀ c t q s, Tab.find s.svc.stewards c = some t → t.dismissing = some q → s.stewardQuiet c = true →
    exec (.stewardDismissed c) s = .next (State.answerCmd { s.freeConsumers c with svc := { (s.freeConsumers c).svc with stewards := Tab.del (s.freeConsumers c).svc.stewards c } } q (.ok 0))) ∧
  (∀ q (r : BitVec 64) e s, Ready s q 0x001A r.toNat 0 e → rsvdSet r.toNat (maskOf [(0, 31, 0)]) = false →
    (fldB r.toNat 0 4 = 0xFFFFFFFF → exec (.milestoneSet q r) s = .next (State.answerCmd { s with svc := { s.svc with milestone := Tab.del s.svc.milestone e.part } } q (.ok 0))) ∧
    (fldB r.toNat 0 4 * 64 < ringAreaBase → exec (.milestoneSet q r) s = .next (State.answerCmd { s with svc := { s.svc with milestone := Tab.put s.svc.milestone e.part (fldB r.toNat 0 4, 0) } } q (.ok 0)))) ∧
  (∀ p off n x s, s.now % 10 = 0 → s.svc.milestone = [(p, (off, n))] → s.part? p = some x → x.blockMap ≠ [] →
    ∃ t, exec .milestoneTick s = .next t ∧ t = { s with fab := t.fab, svc := t.svc } ∧ t.svc.milestone = [(p, (off, n + 1))] ∧ t.fab.nextSend = s.fab.nextSend + 1 ∧
      ∃ c, t.fab.sends = s.fab.sends ++ [c] ∧ c.hub = milestoneBytes s.now s.sys.bootNonce n ∧ c.dstLine = off ∧ c.targets = Tab.vals x.blockMap ∧ c.bytes = 64) ∧
  (∀ q (r : BitVec 64) e s, Ready s q 0x001B r.toNat 0 e → rsvdSet r.toNat (maskOf [(0, 31, 0), (4, 0, 0)]) = false → fldB r.toNat 0 4 < 2 ^ 31 →
    (bit r.toNat 4 0 = true → exec (.requestCancel q r) s = .next ((s.setCancel e.part (Tab.del (s.cancelSet e.part) (fldB r.toNat 0 4))).answerCmd q (.ok 0))) ∧
    (bit r.toNat 4 0 = false → ((s.cancelSet e.part).length < 256 ∨ Tab.has (s.cancelSet e.part) (fldB r.toNat 0 4) = true) →
      exec (.requestCancel q r) s = .next ((s.setCancel e.part (Tab.put (s.cancelSet e.part) (fldB r.toNat 0 4) s.now)).answerCmd q (.ok 0)))) ∧
  (∀ p id t0 s, Tab.find (s.cancelSet p) id = some t0 → t0 + s.zh 72 * 1000 ≤ s.now →
    exec (.cancelHoldExpire p id) s = .next (s.setCancel p (Tab.del (s.cancelSet p) id)))

namespace Sys2Proof.Spec

/-- A V-cell instruction writes the active lanes of vd with `g` and joins `fl` into STATUS; the program counter moves on, and nothing
else of the cell but its scoreboard, and nothing outside the cell, changes (R114, R115, R123, R133). -/
def LaneEffect (con : Nat → Instr) (op : Nat) (regs : Nat → List Nat) (g : VEnv → Nat → Nat) (fl : VEnv → Nat) : Prop :=
  ∀ c s v, s.vReady c op none regs = some v → ∃ y, exec (con c) s = .next (s.setV c y) ∧
    y = { v.x with pc := v.x.pc + 1, drain := false, v := y.v, status := v.x.status ||| fl v, board := y.board } ∧
    ∀ r i, i < 64 → y.lane r i = if r = vVd v.w ∧ tbit (v.x.pred (vPg v.w)) i = true then g v i % 2 ^ 32 else v.x.lane r i

/-- The STATUS bits of the active lanes. -/
def laneFlags (f : VEnv → Nat → Nat × FpFlags) (v : VEnv) : Nat := (joinAll ((v.x.active (vPg v.w)).map (fun i => (f v i).2))).status

/-- A lane-by-lane instruction of `n` sources. -/
def LaneRule (con : Nat → Instr) (op n : Nat) (f : VEnv → Nat → Nat × FpFlags) : Prop :=
  LaneEffect con op (vvRegs n) (fun v i => (f v i).1) (laneFlags f)

/-- A result of one format or of a BF16 pair: the low and high halves apart (R115). -/
def lowHigh (f : Nat → Nat → Nat × FpFlags) (a b : Nat) : Nat × FpFlags :=
  ((f (a % 65536) (b % 65536)).1 + (f (a / 65536 % 65536) (b / 65536 % 65536)).1 * 65536,
    (f (a % 65536) (b % 65536)).2.join (f (a / 65536 % 65536) (b / 65536 % 65536)).2)

/-- Element x, a value and its index, ranks before y in a selection's order (R129): the larger, or the smaller, value first, equal values by
the lower index, NaN after every number. -/
def RanksBefore (smallest : Bool) (x y : Nat × Nat) : Prop :=
  if (fp32.decode y.1).isNan = true then (fp32.decode x.1).isNan = false ∨ x.2 < y.2
  else (fp32.decode x.1).isNan = false ∧ ∃ r, (fp32.decode x.1).cmp (fp32.decode y.1) = some r ∧ ((if smallest then r < 0 else 0 < r) ∨ (r = 0 ∧ x.2 < y.2))

/-- A V-cell instruction that changes only its cell: with these hypotheses on what it reads, the cell after it. -/
def CellEffect (con : Nat → Instr) (op : Nat) (sub : Option Nat) (regs : Nat → List Nat) (f : VEnv → Nat → VCell) (lat : Nat) (rds : VEnv → List Nat) : Prop :=
  ∀ c s v, s.vReady c op sub regs = some v → exec (con c) s = .next (s.setV c ((f v (v.x.board.issue (regs v.w) 0)).go (v.x.board.issue (regs v.w) 0) lat (rds v)))

end Sys2Proof.Spec

/-- The arithmetic of vector lanes (R115, R121, R126, R133): VADD, VSUB, VMUL, VFMA, VFNMA, VMIN, VMAX, VABS, VNEG. The absolute value and the
negation of -2^31 have no result the spec states (log entry 1): that lane alone is open. -/
def Obligations.VectorArithmetic : Prop :=
  LaneRule .vVadd 0x01 2 (fun v i => if v.fn = 0 then fp32.add (v.a i) (v.b i) else if v.fn = 1 then lowHigh bf16.add (v.a i) (v.b i) else ((v.a i + v.b i) % 2 ^ 32, {})) ∧
  LaneRule .vVsub 0x02 2 (fun v i => if v.fn = 0 then fp32.sub (v.a i) (v.b i) else if v.fn = 1 then lowHigh bf16.sub (v.a i) (v.b i) else ((v.a i + 2 ^ 32 - v.b i) % 2 ^ 32, {})) ∧
  LaneRule .vVmul 0x03 2 (fun v i => if v.fn = 0 then fp32.mul (v.a i) (v.b i) else if v.fn = 1 then lowHigh bf16.mul (v.a i) (v.b i) else (v.a i * v.b i % 2 ^ 32, {})) ∧
  LaneRule .vVfma 0x04 3 (fun v i => if v.fn = 0 then fp32.fma (v.a i) (v.b i) (v.cc i) else
    (fun l h => (l.1 + h.1 * 65536, l.2.join h.2)) (bf16.fma (v.a i % 65536) (v.b i % 65536) (v.cc i % 65536)) (bf16.fma (v.a i / 65536 % 65536) (v.b i / 65536 % 65536) (v.cc i / 65536 % 65536))) ∧
  LaneRule .vVfnma 0x05 3 (fun v i => if v.fn = 0 then fp32.fma (v.a i ^^^ 2 ^ 31) (v.b i) (v.cc i) else
    (fun l h => (l.1 + h.1 * 65536, l.2.join h.2)) (bf16.fma ((v.a i % 65536) ^^^ 2 ^ 15) (v.b i % 65536) (v.cc i % 65536)) (bf16.fma ((v.a i / 65536 % 65536) ^^^ 2 ^ 15) (v.b i / 65536 % 65536) (v.cc i / 65536 % 65536))) ∧
  LaneRule .vVmin 0x06 2 (fun v i => minMax false v.fn (v.a i) (v.b i)) ∧
  LaneRule .vVmax 0x07 2 (fun v i => minMax true v.fn (v.a i) (v.b i)) ∧
  (∀ (con : Nat → Instr) op g gi, (con, op, g, gi) ∈ [(Instr.vVabs, 0x08, Num.abs, fun (x : Int) => (x.natAbs : Int)), (.vVneg, 0x09, Num.negate, fun x => -x)] →
    ∀ c s v, s.vReady c op none (vvRegs 1) = some v → ∃ y, exec (con c) s = .next ({ s with free := s.free + 1 }.setV c y) ∧
      y = { v.x with pc := v.x.pc + 1, drain := false, v := y.v, status := y.status, board := y.board } ∧
      (∀ r i, i < 64 → ¬(r = vVd v.w ∧ tbit (v.x.pred (vPg v.w)) i = true) → y.lane r i = v.x.lane r i) ∧
      (∀ i, i < 64 → tbit (v.x.pred (vPg v.w)) i = true →
        (v.fn = 0 → y.lane (vVd v.w) i = (fp32.round (g (fp32.decode (v.a i)))).1 % 2 ^ 32) ∧
        (v.fn = 1 → y.lane (vVd v.w) i = (lowHigh (fun a _ => bf16.round (g (bf16.decode a))) (v.a i) 0).1 % 2 ^ 32) ∧
        (2 ≤ v.fn → v.a i ≠ 2 ^ 31 → y.lane (vVd v.w) i = wrapI 32 (gi (sgn 32 (v.a i)))) ∧
        (2 ≤ v.fn → y.status = v.x.status)))

/-- Bitwise, shift, conversion and movement of vector lanes (R121, R126): VAND, VOR, VXOR, VSHL, VSHR, VSEL, VCVT, VPERM, VMOVA, VLANE. -/
def Obligations.VectorLogicAndMoves : Prop :=
  LaneRule .vVand 0x0A 2 (fun v i => (v.a i &&& v.b i, {})) ∧
  LaneRule .vVor 0x0B 2 (fun v i => (v.a i ||| v.b i, {})) ∧
  LaneRule .vVxor 0x0C 2 (fun v i => (v.a i ^^^ v.b i, {})) ∧
  LaneRule .vVshl 0x0D 2 (fun v i => (v.a i <<< (v.b i % 32), {})) ∧
  LaneRule .vVshr 0x0E 2 (fun v i => (if v.fn = 2 then wrapI 32 (sgn 32 (v.a i) / (2 ^ (v.b i % 32) : Nat)) else v.a i >>> (v.b i % 32), {})) ∧
  LaneEffect .vVsel 0x0F vselRegs (fun v i => if tbit (v.x.pred (vVc v.w % 8)) i = true then v.a i else v.b i) (fun _ => 0) ∧
  LaneRule .vVcvt 0x12 2 (fun v i =>
    if v.fn = 0 then ((bf16.round (fp32.decode (v.a i))).1 + (bf16.round (fp32.decode (v.b i))).1 * 65536, (bf16.round (fp32.decode (v.a i))).2.join (bf16.round (fp32.decode (v.b i))).2)
    else if v.fn = 1 then fp32.round (bf16.decode (v.a i % 65536))
    else if v.fn = 2 then fp32.round (bf16.decode (v.a i / 65536))
    else if v.fn = 3 then toInt32 (fp32.decode (v.a i))
    else if v.fn = 4 then fp32.round (Num.ofInt (sgn 32 (v.a i)))
    else if v.fn = 5 then fp32.round (Num.ofInt (v.a i : Nat))
    else fp32.round (toIntegral (fp32.decode (v.a i)))) ∧
  LaneRule .vVperm 0x13 2 (fun v i => (v.a (v.b i % 64), {})) ∧
  LaneEffect .vVmova 0x14 vmovaRegs (fun v _ => v.x.areg (vVa v.w % 16)) (fun _ => 0) ∧
  LaneRule .vVlane 0x15 0 (fun _ i => (i, {}))

/-- Reductions, scans, special functions, and comparisons over lanes (R121, R126-R128): VRADD, VRMAX, VRMIN, VSCAN, VSFU, VCMP, PLOGIC, VFFS,
VPCNT, VEXT. The top-k unit and random words (R129-R131). A selection opens with its K and counter, and of the elements offered to it keeps
at most K, the best, in rank order; a pop writes the oldest selection's elements in that order and its fill values; VRAND writes the words
of the generator. -/
def Obligations.VectorReductions : Prop :=
  LaneEffect .vVradd 0x18 (vvRegs 1) (fun v _ => (treeSum (if v.fn = 2 then intAdd else fp32.add) 6 ((List.range 64).map (fun i => if tbit (v.x.pred (vPg v.w)) i then v.a i else 0))).1)
    (fun v => (treeSum (if v.fn = 2 then intAdd else fp32.add) 6 ((List.range 64).map (fun i => if tbit (v.x.pred (vPg v.w)) i then v.a i else 0))).2.status) ∧
  (∀ (con : Nat → Instr) op mx, (con, op, mx) ∈ [(Instr.vVrmax, 0x19, true), (.vVrmin, 0x1A, false)] →
    LaneEffect con op (vvRegs 1) (fun v i => (reduceExtreme mx v (v.x.active (vPg v.w))).1.getD i 0) (fun v => (reduceExtreme mx v (v.x.active (vPg v.w))).2.status) ∧
    (∀ v : VEnv, v.fn = 3 → (∀ i, v.a i < 2 ^ 32) → (reduceExtreme mx v (v.x.active (vPg v.w))).1 = List.replicate 64 (((v.x.active (vPg v.w)).map v.a).foldl (if mx then max else min) (if mx then 0 else 2 ^ 32 - 1) % 2 ^ 32))) ∧
  LaneEffect .vVscan 0x1B (vvRegs 1) (fun v i => (scanLevels (if v.fn = 2 then intAdd else fp32.add) 6 1 (v.masked (v.x.active (vPg v.w)) 0)).1.getD i 0)
    (fun v => (scanLevels (if v.fn = 2 then intAdd else fp32.add) 6 1 (v.masked (v.x.active (vPg v.w)) 0)).2.status) ∧
  LaneRule .vVsfu 0x20 1 (fun v i => if tbit v.w 6 = true then lowHigh (fun a _ => sfuBf v.fn a) (v.a i) 0 else sfu32 v.fn (v.a i)) ∧
  (∀ c s v, s.vReady c 0x10 none vcmpRegs = some v → ∃ y, exec (.vVcmp c) s = .next (s.setV c y) ∧
    y = { v.x with pc := v.x.pc + 1, drain := false, p := y.p, board := y.board } ∧
    (∀ q, q < 8 → q ≠ vVd v.w % 8 → y.pred q = v.x.pred q) ∧
    (vVd v.w % 8 ≠ 0 → ∀ i, i < 64 → tbit (y.pred (vVd v.w % 8)) i = (tbit (v.x.pred (vPg v.w)) i && condOf (vVc v.w) (cmpBy v.fn (v.a i) (v.b i))))) ∧
  (∀ c s v, s.vReady c 0x11 none plogicRegs = some v → ∃ y, exec (.vPlogic c) s = .next (s.setV c y) ∧
    y = { v.x with pc := v.x.pc + 1, drain := false, p := y.p, board := y.board } ∧
    (∀ q, q < 8 → q ≠ vVd v.w % 8 → y.pred q = v.x.pred q) ∧
    (vVd v.w % 8 ≠ 0 → y.pred (vVd v.w % 8) = (fun (a b : Nat) => if v.fn = 0 then a &&& b else if v.fn = 1 then a ||| b else if v.fn = 2 then a ^^^ b else if v.fn = 3 then a &&& (2 ^ 64 - 1 - b) else 2 ^ 64 - 1 - a)
      (v.x.pred (vVa v.w % 8)) (v.x.pred (vVb v.w % 8)) % 2 ^ 64)) ∧
  CellEffect .vVffs 0x1C none vffsRegs (fun v _ => v.x.setA (vVd v.w % 16) (((List.range 64).find? (tbit (v.x.pred (vVa v.w % 8)))).getD 64)) 2 (fun v => [cA (vVd v.w % 16)]) ∧
  CellEffect .vVpcnt 0x1D none vffsRegs (fun v _ => v.x.setA (vVd v.w % 16) ((List.range 64).filter (tbit (v.x.pred (vVa v.w % 8)))).length) 2 (fun v => [cA (vVd v.w % 16)]) ∧
  CellEffect .vVext 0x1E none vextRegs (fun v _ => v.x.setA (vAd v.w) (v.x.lane (v.w / 2 ^ 17 % 32) ((v.x.areg (vxAm v.w) + vxLane v.w) % 64))) 2 (fun v => [cA (vAd v.w)]) ∧
  CellEffect .vTkinit 0x24 none tkRegs (fun v t =>
    if 4 ≤ v.x.sels.length then { v.x with status := v.x.status ||| 512, sels := (v.x.sels.map (fun q => { q with isOpen := false })).tail ++ [{ k := tkKm1 v.w + 1, smallest := tbit v.w 0, counter := v.x.areg (tkAn v.w), items := [], isOpen := true, lastPush := t }] }
    else { v.x with sels := v.x.sels.map (fun q => { q with isOpen := false }) ++ [{ k := tkKm1 v.w + 1, smallest := tbit v.w 0, counter := v.x.areg (tkAn v.w), items := [], isOpen := true, lastPush := t }] }) 1 (fun _ => []) ∧
  (∀ c s v q l, s.vReady c 0x25 none (fun w => [vVa w, cP (vPg w)]) = some v → v.x.sels = l ++ [q] → q.isOpen = true → q.counter + 63 ≤ 0xFFFFFFFF →
    ∃ y q', exec (.vTkpush c) s = .next (s.setV c y) ∧ y = { v.x with pc := v.x.pc + 1, drain := false, sels := l ++ [q'], board := y.board } ∧
      q'.k = q.k ∧ q'.smallest = q.smallest ∧ q'.counter = q.counter + 64 ∧ q'.isOpen = true ∧ (q.items.length ≤ q.k → q'.items.length ≤ q.k) ∧
      (∀ e, e ∈ q'.items → e ∈ q.items ∨ ∃ i, i < 64 ∧ tbit (v.x.pred (vPg v.w)) i = true ∧ e = (v.a i, q.counter + i)) ∧
      (q.items.Pairwise (RanksBefore q.smallest) → q.items.length ≤ q.k → (∀ e, e ∈ q.items → e.2 < q.counter) →
        q'.items.Pairwise (RanksBefore q.smallest) ∧
        ∀ e, (e ∈ q.items ∨ ∃ i, i < 64 ∧ tbit (v.x.pred (vPg v.w)) i = true ∧ e = (v.a i, q.counter + i)) →
          e ∈ q'.items ∨ (q'.items.length = q.k ∧ ∀ f, f ∈ q'.items → RanksBefore q.smallest f e))) ∧
  (∀ c s v q l, s.vReady c 0x25 none (fun w => [vVa w, cP (vPg w)]) = some v → v.x.sels = l ++ [q] → q.isOpen = true → 0xFFFFFFFF < q.counter + 63 →
    exec (.vTkpush c) s = .next (s.setV c ((v.x.setStatus stTkOvf).go (v.issue [vVa v.w, cP (vPg v.w)]) 1 []))) ∧
  (∀ c s v, s.vReady c 0x25 none (fun w => [vVa w, cP (vPg w)]) = some v → v.x.openSel = none →
    exec (.vTkpush c) s = .next (s.setV c ((v.x.setStatus stTkEmpty).go (v.issue [vVa v.w, cP (vPg v.w)]) 1 []))) ∧
  (∀ c s v q l, s.vReady c 0x26 none (fun w => [vVd w, tkVe w]) = some v → v.x.sels = q :: l → vVd v.w ≠ tkVe v.w →
    ∃ y, exec (.vTkpop c) s = .next (s.setV c y) ∧ y = { v.x with pc := v.x.pc + 1, drain := false, sels := l, v := y.v, board := y.board } ∧
      (∀ i, i < 64 → y.lane (vVd v.w) i = (match q.items[i]? with | some e => e.1 | none => fp32.infCode (!q.smallest)) % 2 ^ 32 ∧
        y.lane (tkVe v.w) i = (match q.items[i]? with | some e => e.2 | none => 0xFFFFFFFF) % 2 ^ 32) ∧
      (∀ r i, i < 64 → r ≠ vVd v.w → r ≠ tkVe v.w → y.lane r i = v.x.lane r i)) ∧
  (∀ c s v, s.vReady c 0x26 none (fun w => [vVd w, tkVe w]) = some v → v.x.sels = [] → vVd v.w ≠ tkVe v.w →
    ∃ y b, exec (.vTkpop c) s = .next ({ s with free := s.free + 1 }.setV c y) ∧ y = { v.x with pc := v.x.pc + 1, drain := false, status := v.x.status ||| stTkEmpty, v := y.v, board := y.board } ∧
      (∀ i, i < 64 → y.lane (vVd v.w) i = fp32.infCode b % 2 ^ 32 ∧ y.lane (tkVe v.w) i = 0xFFFFFFFF % 2 ^ 32) ∧
      (∀ r i, i < 64 → r ≠ vVd v.w → r ≠ tkVe v.w → y.lane r i = v.x.lane r i)) ∧
  LaneEffect .vVrand 0x28 vrandRegs (fun v i => if v.fn = 0 then philox (v.a i) i (v.x.areg (vVb v.w % 16)) v.x.rngLo v.x.rngHi
    else fp32.code (.fin false (philox (v.a i) i (v.x.areg (vVb v.w % 16)) v.x.rngLo v.x.rngHi / 256) (-24))) (fun _ => 0)

/-- Address arithmetic, branches, system registers and control on a vector cell (R119, R121, R123, R133). -/
def Obligations.VectorControl : Prop :=
  CellEffect .vAaddi 0x38 none aiRegs (fun v _ => v.x.setA (vAd v.w) (wrapI 32 ((v.x.areg (vAn v.w) : Int) + vImm18 v.w))) 1 (fun v => [cA (vAd v.w)]) ∧
  (∀ c s v, s.vReady c 0x39 none arRegs = some v → ∃ y, exec (.vAop c) s = .next ({ s with free := s.free + 1 }.setV c y) ∧
    y = { v.x with pc := v.x.pc + 1, drain := false, a := y.a, board := y.board } ∧ (∀ r, r ≠ vAd v.w → y.areg r = v.x.areg r) ∧
    (vAd v.w ≠ 0 → (v.fn = 5 ∨ v.fn = 6 → v.x.areg (vAm v.w) < 32) →
      y.areg (vAd v.w) = (fun (a b : Nat) => if v.fn = 0 then a + b else if v.fn = 1 then a + 2 ^ 32 - b else if v.fn = 2 then a &&& b else if v.fn = 3 then a ||| b else if v.fn = 4 then a ^^^ b
        else if v.fn = 5 then a * 2 ^ b else if v.fn = 6 then a / 2 ^ b else a * b) (v.x.areg (vAn v.w)) (v.x.areg (vAm v.w)) % 2 ^ 32)) ∧
  CellEffect .vAlui 0x3A none (fun w => [cA (vAd w)]) (fun v _ => v.x.setA (vAd v.w) (v.w % 2 ^ 18 * 2 ^ 14)) 1 (fun v => [cA (vAd v.w)]) ∧
  (∀ c s v, s.vReady c 0x3C none brRegs = some v → ∃ y, exec (.vBr c) s = .next (s.setV c y) ∧
    y = { v.x with pc := if vBranch v.x v.w = true then ((v.x.pc : Int) + vbOff v.w).toNat else v.x.pc + 1, drain := false, board := y.board }) ∧
  (∀ c s v, s.vReady c 0x3E none (fun w => [cA (vAd w)]) = some v →
    (sysDir v.w = false → sysSr v.w ≠ 0x01 → exec (.vSr c) s = .next (s.setV c ((v.x.setA (vAd v.w) (s.vSr c v.x (sysSr v.w))).go (v.issue [cA (vAd v.w)]) 1 [cA (vAd v.w)]))) ∧
    (sysDir v.w = false → sysSr v.w = 0x01 → exec (.vSr c) s = .next (s.setV c (({ v.x with cycleHi := (s.block (c / 20)).cycles / 2 ^ 32 % 2 ^ 32 }.setA (vAd v.w) ((s.block (c / 20)).cycles % 2 ^ 32)).go (v.issue [cA (vAd v.w)]) 1 [cA (vAd v.w)]))) ∧
    (sysDir v.w = true → exec (.vSr c) s = .next (s.setV c ((v.x.writeSr (sysSr v.w) (v.x.areg (vAd v.w))).go (v.issue [cA (vAd v.w)]) 1 [])))) ∧
  CellEffect .vNop 0x3F (some 0) (fun _ => []) (fun v _ => v.x) 1 (fun _ => []) ∧
  (∀ c s v, s.vReady c 0x3F (some 1) (fun _ => []) = some v →
    exec (.vEnd c) s = .next ((s.setV c (v.x.go (v.issue []) 1 [])).endStart (cellId c)) ∧
    ((s.setV c (v.x.go (v.issue []) 1 [])).endStart (cellId c)).engine? (cellId c) = some { v.ex with start := some { v.st with ended := true } }) ∧
  (∀ c s v, s.vReady c 0x3F (some 3) (fun _ => []) = some v → ∃ y, exec (.vDrain c) s = .next (s.setV c y) ∧
    y = { v.x with pc := v.x.pc + 1, drain := true, board := y.board })

/-- The memory instructions and the EMIT of a vector cell (R118, R122, R123, R132, R135): in local memory at once, in slice memory as an access:
its claims on lines of its own block stand at their banks, those on other lines go out over the spine. -/
def Obligations.VectorMemory : Prop :=
  (∀ c s v off, s.vReady c 0x30 none vmRegs = some v → vAddr (vmAddr v.x v.w) (tyBytes (vmTy v.w)) = .lm off →
    exec (.vVld c) s = .next (s.setV c ((v.x.writeLanes (vVd v.w) ((v.x.active (vmPg v.w)).map (fun i => (i, tyLoad (vmTy v.w) (Memory.readN v.x.local' (off + i * tyLane (vmTy v.w)) (tyLane (vmTy v.w))))))).go (v.issue (vmRegs v.w)) 3 [vVd v.w]))) ∧
  (∀ c s v n off, s.vReady c 0x30 none vmRegs = some v → vAddr (vmAddr v.x v.w) (tyBytes (vmTy v.w)) = .slice n off →
    exec (.vVld c) s = .next (v.sliceLoad s (v.issue (vmRegs v.w)) n off (tyBytes (vmTy v.w)) (vVd v.w) (fun key => .vreg (vVd v.w) (vmTy v.w) (v.x.pred (vmPg v.w)) key) (vmAddr v.x v.w))) ∧
  (∀ c s v n off, s.vReady c 0x34 none aiRegs = some v → vAddr (aiAddr v.x v.w) 4 = .slice n off →
    exec (.vLda c) s = .next (v.sliceLoad s (v.issue (aiRegs v.w)) n off 4 (cA (vAd v.w)) (fun key => .areg (vAd v.w) key) (aiAddr v.x v.w))) ∧
  (∀ (v : VEnv) s at' n off len r dest va b, s.phys v.ex.part n = some b →
    ∃ t a, t = v.sliceLoad s at' n off len r dest va ∧ t = { s with cell := t.cell, fab := t.fab, spine := t.spine } ∧ (t.vcell v.c).pc = v.x.pc + 1 ∧ (t.vcell v.c).pend = v.x.pend ++ [r] ∧
      (t.vcell v.c).v = v.x.v ∧ (t.vcell v.c).a = v.x.a ∧ t.fab.slices = s.fab.slices ∧ Tab.find t.fab.accesses s.fab.nextAccess = some a ∧ a.who = .cell v.c ∧ a.dest = dest (sliceKey b off) ∧
      a.left = (linesOf (sliceKey b off) len).length ∧
      t.fab.claims = s.fab.claims ++ ((linesOf (sliceKey b off) len).filter (fun l => v.c / 20 == l / 2 ^ 19)).map (fun l => { access := s.fab.nextAccess, block := l / 2 ^ 19, line := l % 2 ^ 19, rank := cellRank v.c (l / 2 ^ 19), op := LineOp.read }) ∧
      ((linesOf (sliceKey b off) len).all (fun l => v.c / 20 == l / 2 ^ 19) = true → t.spine = s.spine)) ∧
  (∀ c s v off, s.vReady c 0x31 none vmRegs = some v → Memory.wf v.x.local' = true → vAddr (vmAddr v.x v.w) (tyBytes (vmTy v.w)) = .lm off →
    ∃ y, exec (.vVst c) s = .next (s.setV c y) ∧ y = { v.x with pc := v.x.pc + 1, drain := false, local' := y.local', status := y.status, board := y.board } ∧
      (∀ i, i < 64 → tbit (v.x.pred (vmPg v.w)) i = true → Memory.readN y.local' (off + i * tyLane (vmTy v.w)) (tyLane (vmTy v.w)) = (tyStore (vmTy v.w) (v.x.lane (vVd v.w) i)).1 % 256 ^ tyLane (vmTy v.w)) ∧
      (∀ a, (∀ i, i < 64 → tbit (v.x.pred (vmPg v.w)) i = true → a < off + i * tyLane (vmTy v.w) ∨ off + (i + 1) * tyLane (vmTy v.w) ≤ a) → Memory.read y.local' a = Memory.read v.x.local' a)) ∧
  (∀ c s v n off, s.vReady c 0x31 none vmRegs = some v → vAddr (vmAddr v.x v.w) (tyBytes (vmTy v.w)) = .slice n off →
    ∃ fl, exec (.vVst c) s = .next (v.sliceStore s (v.issue (vmRegs v.w)) n off ((v.x.active (vmPg v.w)).flatMap (fun i => keyed (i * tyLane (vmTy v.w)) (bytesOf (tyLane (vmTy v.w)) (tyStore (vmTy v.w) (v.x.lane (vVd v.w) i)).1))) fl (vmAddr v.x v.w))) ∧
  (∀ c s v n off, s.vReady c 0x35 none aiRegs = some v → vAddr (aiAddr v.x v.w) 4 = .slice n off →
    exec (.vSta c) s = .next (v.sliceStore s (v.issue (aiRegs v.w)) n off (keyed 0 (bytesOf 4 (v.x.areg (vAd v.w)))) {} (aiAddr v.x v.w))) ∧
  (∀ (v : VEnv) s at' n off bytes fl va b cl, s.phys v.ex.part n = some b → cl = writeClaims v.c (bytes.map (fun x => (sliceKey b off + x.1, x.2))) →
    ∃ t, t = v.sliceStore s at' n off bytes fl va ∧ t = { s with cell := t.cell, fab := t.fab, spine := t.spine } ∧ (t.vcell v.c).pc = v.x.pc + 1 ∧ (t.vcell v.c).v = v.x.v ∧ (t.vcell v.c).a = v.x.a ∧
      t.fab.slices = s.fab.slices ∧
      t.fab.claims = s.fab.claims ++ (cl.filter (fun x => x.2.2.1 != 22)).map (fun x => { access := s.fab.nextAccess, block := x.1, line := x.2.1, rank := x.2.2.1, op := x.2.2.2 })) ∧
  (∀ c s v k, s.vReady c 0x30 none vmRegs = some v → vAddr (vmAddr v.x v.w) (tyBytes (vmTy v.w)) = .bad k → exec (.vVld c) s = .next (v.fault s k (vmAddr v.x v.w))) ∧
  (∀ c s v k, s.vReady c 0x31 none vmRegs = some v → vAddr (vmAddr v.x v.w) (tyBytes (vmTy v.w)) = .bad k → exec (.vVst c) s = .next (v.fault s k (vmAddr v.x v.w))) ∧
  (∀ c s v, s.vReady c 0x32 none gatherRegs = some v → v.gatherFault (v.x.active (vPg v.w)) = none →
    ∃ y, exec (.vVldx c) s = .next (s.setV c y) ∧ y = { v.x with pc := v.x.pc + 1, drain := false, v := y.v, board := y.board } ∧
      ∀ r i, i < 64 → y.lane r i = if r = vVd v.w ∧ tbit (v.x.pred (vPg v.w)) i = true then Memory.readN v.x.local' (v.x.areg (vVb v.w % 16) + 4 * v.a i) 4 % 2 ^ 32 else v.x.lane r i) ∧
  (∀ c s v, s.vReady c 0x33 none gatherRegs = some v → Memory.wf v.x.local' = true → v.gatherFault (v.x.active (vPg v.w)) = none →
    ∃ y, exec (.vVstx c) s = .next (s.setV c y) ∧ y = { v.x with pc := v.x.pc + 1, drain := false, local' := y.local', board := y.board } ∧
      (∀ i, i < 64 → tbit (v.x.pred (vPg v.w)) i = true → (∀ j, i < j → j < 64 → tbit (v.x.pred (vPg v.w)) j = true → v.a j ≠ v.a i) →
        Memory.readN y.local' (v.x.areg (vVb v.w % 16) + 4 * v.a i) 4 = v.x.lane (vVd v.w) i % 2 ^ 32) ∧
      (∀ a, (∀ i, i < 64 → tbit (v.x.pred (vPg v.w)) i = true → a < v.x.areg (vVb v.w % 16) + 4 * v.a i ∨ v.x.areg (vVb v.w % 16) + 4 * v.a i + 4 ≤ a) → Memory.read y.local' a = Memory.read v.x.local' a)) ∧
  (∀ c s v off, s.vReady c 0x34 none aiRegs = some v → vAddr (aiAddr v.x v.w) 4 = .lm off →
    exec (.vLda c) s = .next (s.setV c ((v.x.setA (vAd v.w) (Memory.readN v.x.local' off 4)).go (v.issue (aiRegs v.w)) 3 [cA (vAd v.w)]))) ∧
  (∀ c s v off, s.vReady c 0x35 none aiRegs = some v → vAddr (aiAddr v.x v.w) 4 = .lm off →
    exec (.vSta c) s = .next (s.setV c ({ v.x with local' := Memory.writeN v.x.local' off 4 (v.x.areg (vAd v.w)) }.go (v.issue (aiRegs v.w)) 1 []))) ∧
  (∀ c s v off w, s.vReady c 0x3F (some 2) aiRegs = some v → vAddr (v.x.areg (vAn v.w)) 64 = .lm off →
    w = (recordWaybill (Memory.readL v.x.local' off 64) v.st.wb.context (ctKeepF v.w)).normalise → s.emitBad v.ex.part v.st w = none →
    exec (.vEmit c) s = .next ((s.setEngine v.e { v.ex with start := some { v.st with emits := v.st.emits ++ [w] } }).setV c (({ v.x with emitCount := v.x.emitCount + 1 }.setA (vAd v.w) 0).go (v.issue (aiRegs v.w)) 2 [cA (vAd v.w)]))) ∧
  (∀ c s v off k, s.vReady c 0x3F (some 2) aiRegs = some v → vAddr (v.x.areg (vAn v.w)) 64 = .lm off →
    s.emitBad v.ex.part v.st (recordWaybill (Memory.readL v.x.local' off 64) v.st.wb.context (ctKeepF v.w)).normalise = some k →
    exec (.vEmit c) s = .next (s.setV c (({ v.x with emitStatus := k.reject }.setA (vAd v.w) k.reject).go (v.issue (aiRegs v.w)) 2 [cA (vAd v.w)])))

namespace Sys2Proof.Spec

/-- An S-cell instruction writes rd, discarded for s0, and moves on; nothing else of the cell but its scoreboard, and nothing outside
the cell, changes (R137, R142, R144). -/
def RegEffect (con : Nat → Instr) (op : Nat) (sub : Option Nat) (regs : Nat → List Nat) (ok : State → SEnv → Prop) (f : State → SEnv → Nat) : Prop :=
  ∀ c s v, s.sReady c op sub regs = some v → ok s v → ∃ y, exec (con c) s = .next (s.setS c y) ∧
    y = { v.x with pc := (v.x.pc + 1) % 4096, drain := false, s := y.s, board := y.board } ∧
    ∀ r, y.reg r = if r = sRd v.w ∧ r ≠ 0 then f s v % 2 ^ 64 else v.x.reg r

/-- The signed reading of a 64-bit word. -/
def s64 (x : Nat) : Int := sgn 64 x

end Sys2Proof.Spec

/-- The register arithmetic of scalar cells (R137, R142, R143): ALU, CMP, MUL, DIV and the immediates. A zero divisor gives all ones and the
dividend, and sets DIVZERO. -/
def Obligations.ScalarArithmetic : Prop :=
  RegEffect .sAlu 0x01 none rRegs (fun _ _ => True) (fun _ v =>
    if sFn v.w = 0 then v.a + v.b else if sFn v.w = 1 then v.a + 2 ^ 64 - v.b else if sFn v.w = 2 then v.a &&& v.b else if sFn v.w = 3 then v.a ||| v.b else if sFn v.w = 4 then v.a ^^^ v.b
    else if sFn v.w = 5 then v.a <<< (v.b % 64) else if sFn v.w = 6 then v.a >>> (v.b % 64) else wrapI 64 (s64 v.a / (2 ^ (v.b % 64) : Nat))) ∧
  RegEffect .sCmp 0x02 none rRegs (fun _ _ => True) (fun _ v =>
    if sFn v.w = 0 then (if s64 v.a < s64 v.b then 1 else 0) else if sFn v.w = 1 then (if v.a < v.b then 1 else 0) else if sFn v.w = 2 then (if s64 v.a < s64 v.b then v.a else v.b)
    else if sFn v.w = 3 then min v.a v.b else if sFn v.w = 4 then (if s64 v.a < s64 v.b then v.b else v.a) else max v.a v.b) ∧
  RegEffect .sMul 0x03 none rRegs (fun _ _ => True) (fun _ v =>
    if sFn v.w = 0 then v.a * v.b else if sFn v.w = 1 then wrapI 64 (s64 v.a * s64 v.b / (2 ^ 64 : Nat)) else v.a * v.b / 2 ^ 64) ∧
  (∀ c s v, s.sReady c 0x04 none rRegs = some v → ∃ y, exec (.sDiv c) s = .next (s.setS c y) ∧
    y = { v.x with pc := (v.x.pc + 1) % 4096, drain := false, s := y.s, status := if v.b = 0 then v.x.status ||| 4 else v.x.status, board := y.board } ∧
    ∀ r, y.reg r = if r = sRd v.w ∧ r ≠ 0 then (if v.b = 0 then (if sFn v.w < 2 then 2 ^ 64 - 1 else v.a) else if sFn v.w = 0 then wrapI 64 (Int.tdiv (s64 v.a) (s64 v.b))
      else if sFn v.w = 1 then v.a / v.b else if sFn v.w = 2 then wrapI 64 (Int.tmod (s64 v.a) (s64 v.b)) else v.a % v.b) % 2 ^ 64 else v.x.reg r) ∧
  RegEffect .sAddi 0x08 none iRegs (fun _ _ => True) (fun _ v => wrapI 64 ((v.a : Int) + sImm16 v.w)) ∧
  RegEffect .sAndi 0x09 none iRegs (fun _ _ => True) (fun _ v => v.a &&& (v.w % 65536)) ∧
  RegEffect .sOri 0x0A none iRegs (fun _ _ => True) (fun _ v => v.a ||| (v.w % 65536)) ∧
  RegEffect .sXori 0x0B none iRegs (fun _ _ => True) (fun _ v => v.a ^^^ (v.w % 65536)) ∧
  RegEffect .sSlti 0x0C none iRegs (fun _ _ => True) (fun _ v => if s64 v.a < sImm16 v.w then 1 else 0) ∧
  RegEffect .sSltiu 0x0D none iRegs (fun _ _ => True) (fun _ v => if v.a < wrapI 64 (sImm16 v.w) then 1 else 0) ∧
  RegEffect .sShi 0x0E none iRegs (fun _ _ => True) (fun _ v => if v.w / 64 % 4 = 0 then v.a <<< (v.w % 64) else if v.w / 64 % 4 = 1 then v.a >>> (v.w % 64) else wrapI 64 (s64 v.a / (2 ^ (v.w % 64) : Nat))) ∧
  RegEffect .sLui 0x0F none (fun w => [sRd w]) (fun _ _ => True) (fun _ v => wrapI 64 (sImm21 v.w * 65536))

/-- Loads, stores and atomics of a scalar cell (R140, R144, R147, R167). Branches, jumps, system registers and control of a scalar cell (R142,
R144, R145, R148, R149, R156). -/
def Obligations.ScalarMemoryAndControl : Prop :=
  (∀ off, RegEffect .sLd 0x10 none iRegs (fun _ v => sAddr (sMemAddr v) (2 ^ sSz v.w) = .lm off) (fun _ v => wrapI 64 (sgn (8 * 2 ^ sSz v.w) (Memory.readN v.x.local' off (2 ^ sSz v.w))))) ∧
  (∀ off, RegEffect .sLdu 0x11 none iRegs (fun _ v => sAddr (sMemAddr v) (2 ^ sSz v.w) = .lm off) (fun _ v => Memory.readN v.x.local' off (2 ^ sSz v.w))) ∧
  (∀ c s v n off b, s.sReady c 0x11 none iRegs = some v → sAddr (sMemAddr v) (2 ^ sSz v.w) = .slice n off → s.phys v.part n = some b → s.sOutstanding c < 4 →
    ∃ t a, exec (.sLdu c) s = .next t ∧ t = { s with cell := t.cell, fab := t.fab, spine := t.spine } ∧ (t.scell c).pc = (v.x.pc + 1) % 4096 ∧ (t.scell c).pend = v.x.pend ++ [sRd v.w] ∧
      (t.scell c).s = v.x.s ∧ Tab.find t.fab.accesses s.fab.nextAccess = some a ∧ a.who = .cell c ∧ a.dest = .sreg (sRd v.w) (2 ^ sSz v.w) false (sliceKey b off)) ∧
  (∀ c s v off, s.sReady c 0x12 none iRegs = some v → Memory.wf v.x.local' = true → sAddr (sMemAddr v) (2 ^ sSz v.w) = .lm off →
    ∃ y, exec (.sSt c) s = .next (s.setS c y) ∧ y = { v.x with pc := (v.x.pc + 1) % 4096, drain := false, local' := y.local', board := y.board } ∧
      Memory.readN y.local' off (2 ^ sSz v.w) = v.x.reg (sRd v.w) % 256 ^ 2 ^ sSz v.w ∧
      (∀ a, a < off ∨ off + 2 ^ sSz v.w ≤ a → Memory.read y.local' a = Memory.read v.x.local' a)) ∧
  (∀ c s v n off b, s.sReady c 0x12 none iRegs = some v → sAddr (sMemAddr v) (2 ^ sSz v.w) = .slice n off → s.phys v.part n = some b → s.sOutstanding c < 4 →
    ∃ t, exec (.sSt c) s = .next t ∧ t = { s with cell := t.cell, fab := t.fab, spine := t.spine } ∧ (t.scell c).pc = (v.x.pc + 1) % 4096 ∧ (t.scell c).s = v.x.s ∧ t.fab.slices = s.fab.slices ∧
      t.fab.nextAccess = s.fab.nextAccess + 1) ∧
  (∀ c s v n off b, s.sReady c 0x13 none xRegs = some v → sAddr v.a (atomicBytes (sSub v.w)) = .slice n off → s.phys v.part n = some b → s.sOutstanding c < 4 →
    ∃ t a, exec (.sAmo c) s = .next t ∧ t = { s with cell := t.cell, fab := t.fab, spine := t.spine } ∧ (t.scell c).pc = (v.x.pc + 1) % 4096 ∧ (t.scell c).pend = v.x.pend ++ [sRd v.w] ∧
      Tab.find t.fab.accesses s.fab.nextAccess = some a ∧ a.who = .cell c ∧ a.dest = .samo (sRd v.w) (atomicBytes (sSub v.w)) (sliceKey b off) ∧
      t.fab.slices = s.fab.slices ∧
      t.fab.claims = s.fab.claims ++ if cellRank c b = 22 then [] else [{ access := s.fab.nextAccess, block := b, line := sliceKey b off / 64 % 2 ^ 19, rank := cellRank c b, op := .atomic (sliceKey b off % 64) (sSub v.w) v.b }]) ∧
  (∀ c s v, s.sReady c 0x18 none (fun w => [sbRa w, sbRb w]) = some v → ∃ y, exec (.sBr c) s = .next (s.setS c y) ∧
    y = { v.x with pc := if (fun (a b : Nat) => if sbCond v.w = 0 then a = b else if sbCond v.w = 1 then a ≠ b else if sbCond v.w = 2 then s64 a < s64 b else if sbCond v.w = 3 then s64 b ≤ s64 a
      else if sbCond v.w = 4 then a < b else b ≤ a) (v.x.reg (sbRa v.w)) (v.x.reg (sbRb v.w)) then ((v.x.pc : Int) + sbOff v.w).toNat % 4096 else (v.x.pc + 1) % 4096, drain := false, board := y.board }) ∧
  (∀ (con : Nat → Instr) op regs (f : SEnv → Nat), (con, op, regs, f) ∈ [(Instr.sJal, 0x19, fun w => [sRd w], fun v => ((v.x.pc : Int) + sImm21 v.w).toNat % 4096), (.sJalr, 0x1A, iRegs, fun v => wrapI 64 ((v.a : Int) + sImm16 v.w) % 4096)] →
    ∀ c s v, s.sReady c op none regs = some v → ∃ y, exec (con c) s = .next (s.setS c y) ∧ y = { v.x with pc := f v, drain := false, s := y.s, board := y.board } ∧
      ∀ r, y.reg r = if r = sRd v.w ∧ r ≠ 0 then (v.x.pc + 1) % 2 ^ 64 else v.x.reg r) ∧
  (∀ c s v, s.sReady c 0x20 none iRegs = some v → s.fenceOf v.part (v.a % 65536) = true → s.sOutstanding c < 4 → ∃ y,
    exec (.sFrd c) s = .next ((s.setS c y).sendFence { fence := v.a % 65536, part := v.part, context := v.ctx, op := .read, rank := engRank (cellId c), source := srcCode 0 c, reply := .cell c (sRd v.w) }) ∧
    y = { v.x with pc := (v.x.pc + 1) % 4096, drain := false, pend := v.x.pend ++ [sRd v.w], board := y.board }) ∧
  (∀ x, RegEffect .sQocc 0x21 none iRegs (fun s v => s.queue? (v.a % 2 ^ 20) = some x ∧ x.part = v.part ∧ s.sOutstanding v.c < 4) (fun _ _ => if x.placed = none then 2 ^ 64 - 1 else x.tail - x.head)) ∧
  RegEffect .sSr 0x28 none iRegs (fun _ v => ssDir v.w = false) (fun s v => s.sSr v (ssSr v.w)) ∧
  (∀ c s v, s.sReady c 0x28 none iRegs = some v → ssDir v.w = true → ssSr v.w = 3 → ∃ y, exec (.sSr c) s = .next (s.setS c y) ∧
    y = { v.x with pc := (v.x.pc + 1) % 4096, drain := false, status := v.x.status - (v.x.status &&& v.a), board := y.board }) ∧
  (∀ c s v, s.sReady c 0x2F (some 0) (fun _ => []) = some v → ∃ y, exec (.sNop c) s = .next (s.setS c y) ∧ y = { v.x with pc := (v.x.pc + 1) % 4096, drain := false, board := y.board }) ∧
  (∀ c s v, s.sReady c 0x2F (some 4) (fun _ => []) = some v → ∃ y, exec (.sDrain c) s = .next (s.setS c y) ∧ y = { v.x with pc := (v.x.pc + 1) % 4096, drain := true, board := y.board }) ∧
  (∀ c s v, s.sReady c 0x2F (some 1) (fun _ => []) = some v →
    (∀ ex st, v.eng = some (ex, st) → exec (.sEnd c) s = .next ((s.setS c (v.x.go (v.issue []) 1 [])).endStart (cellId c))) ∧
    (v.eng = none → exec (.sEnd c) s = .next (((s.setS c (v.x.go (v.issue []) 1 [])).haltSteward c).event 0x0005 v.part v.ctx true (srcCode 0 c) 0xFFFF 1))) ∧
  (∀ (con : Nat → Instr) sub keep, (con, sub, keep) ∈ [(Instr.sEmit, 2, false), (.sEmitKeepf, 3, true)] →
    ∀ c s v off ex st w, s.sReady c 0x2F (some sub) iRegs = some v → sAddr v.a 64 = .lm off → v.eng = some (ex, st) →
      w = (recordWaybill (Memory.readL v.x.local' off 64) st.wb.context keep).normalise →
      (s.emitBad ex.part st w = none →
        exec (con c) s = .next ((s.setEngine (cellId c) { ex with start := some { st with emits := st.emits ++ [w] } }).setS c (({ v.x with emitCount := v.x.emitCount + 1 }.setR (sRd v.w) 0).go (v.issue (iRegs v.w)) 2 [sRd v.w]))) ∧
      (∀ k, s.emitBad ex.part st w = some k →
        exec (con c) s = .next (s.setS c (({ v.x with emitStatus := k.reject }.setR (sRd v.w) k.reject).go (v.issue (iRegs v.w)) 2 [sRd v.w]))))

/-- What only a steward may do (R146, R148, R153-R155, R281). -/
def Obligations.StewardInstructions : Prop :=
  (∀ c s v, s.sReady c 0x30 none xRegs = some v → s.fenceOf v.part (v.a % 65536) = true → s.sOutstanding c < 4 → ∃ y,
    exec (.sFsig c) s = .next ((s.setS c y).sendFence { fence := v.a % 65536, part := v.part, context := v.ctx, op := if sSub v.w = 0 then .add v.b false else .set v.b false, rank := engRank (cellId c), source := srcCode 0 c, reply := .cell c (sRd v.w) }) ∧
    y = { v.x with pc := (v.x.pc + 1) % 4096, drain := false, pend := v.x.pend ++ [sRd v.w], board := y.board }) ∧
  (∀ c s v off w, s.sReady c 0x31 none xRegs = some v → sAddr v.a 64 = .lm off → s.tileQ v.part (v.b % 2 ^ 20) = true → s.sOutstanding c < 4 →
    w = { (recordWaybill (Memory.readL v.x.local' off 64) v.ctx true) with resetGen := s.genOf v.part }.normalise →
    (∀ k, w.malformed s v.part = some k → exec (.sQput c) s = .next (s.setS c (({ v.x with emitStatus := k.reject }.setR (sRd v.w) 6).goOp (v.issueOp (xRegs v.w)) (v.queueLat s (v.b % 2 ^ 20)) [sRd v.w]))) ∧
    (w.malformed s v.part = none → s.queueFull (v.b % 2 ^ 20) = false →
      exec (.sQput c) s = .next ((s.launch (v.b % 2 ^ 20) w (engRank (cellId c))).setS c (({ v.x with emitCount := v.x.emitCount + 1 }.setR (sRd v.w) 0).goOp (v.issueOp (xRegs v.w)) (v.queueLat s (v.b % 2 ^ 20)) [sRd v.w]))) ∧
    (w.malformed s v.part = none → s.queueFull (v.b % 2 ^ 20) = true → exec (.sQput c) s = .next (s.setS c ((v.x.setR (sRd v.w) 2).goOp (v.issueOp (xRegs v.w)) (v.queueLat s (v.b % 2 ^ 20)) [sRd v.w])))) ∧
  (∀ c s v off q x0 x k, s.sReady c 0x32 none xRegs = some v → sAddr v.a 64 = .lm off → s.sOutstanding c < 4 → s.stewardIn c (v.b % 4) = some q → s.queue? q = some x0 →
    dropStale s x0 0 (x0.oldHot.length + x0.hot.length) = (x, k) →
    (∀ w, s.headNow x = some w → exec (.sQtake c) s = .next (((s.setQueue q (x.pop s.now)).fenceAction v.part w (engRank (cellId c)) (srcCode 0 c) false).setS c
      (({ v.x with local' := Memory.writeL v.x.local' off (bytesOf 64 w.toNat) }.setR (sRd v.w) 0).goOp (v.issueOp (xRegs v.w)) (12 + 2 * k) [sRd v.w]))) ∧
    (s.headNow x = none → exec (.sQtake c) s = .next ((s.setQueue q x).setS c ((v.x.setR (sRd v.w) 1).goOp (v.issueOp (xRegs v.w)) (12 + 2 * k) [sRd v.w])))) ∧
  (∀ c s v off, s.sReady c 0x32 none xRegs = some v → sAddr v.a 64 = .lm off → s.sOutstanding c < 4 → s.stewardIn c (v.b % 4) = none →
    exec (.sQtake c) s = .next (s.setS c ((v.x.setR (sRd v.w) 1).goOp (v.issueOp (xRegs v.w)) 12 [sRd v.w]))) ∧
  (∀ (s : State) x w k n, x.headWb = some w → w.resetGen = s.genOf x.part → s.ctxLive x.part w.context = true → dropStale s x k n = (x, k)) ∧
  (∀ c s v, s.sReady c 0x33 none iRegs = some v → ∃ y, exec (.sWaitq c) s = .next (s.setS c y) ∧
    y = { v.x with pc := (v.x.pc + 1) % 4096, drain := false, wait := some { rd := sRd v.w, mask := sSub v.w % 16, deadline := if v.a = 0 then none else some ((s.block (c / 20)).cycles + v.a) }, board := y.board }) ∧
  (∀ c s o q, s.sOwner c = some o → (s.scell c).wait = some q →
    (s.inputMask c q.mask (fun y => (s.headNow y).isSome) ≠ 0 → exec (.sWaitqResume c) s = .next (s.setS c ({ s.scell c with wait := none }.setR q.rd (s.inputMask c q.mask (fun y => y.headWb.isSome || !y.spill.isEmpty))))) ∧
    (∀ d, s.inputMask c q.mask (fun y => (s.headNow y).isSome) = 0 → q.deadline = some d → d ≤ (s.block (c / 20)).cycles → exec (.sWaitqResume c) s = .next (s.setS c ({ s.scell c with wait := none }.setR q.rd 0)))) ∧
  (∀ c s v ret, s.sReady c 0x34 none iRegs = some v → s.sOutstanding c < 4 →
    ret = (fun (t : State) (k : Nat) => t.setS c ((v.x.setR (sRd v.w) k).goOp (v.issueOp (iRegs v.w)) (v.clocks s 11 49 0) [sRd v.w])) →
    (sSub v.w = 0 → ((s.cancelSet v.part).length < 256 ∨ Tab.has (s.cancelSet v.part) (v.a % 2 ^ 32) = true) → exec (.sCancel c) s = .next (ret (s.setCancel v.part (Tab.put (s.cancelSet v.part) (v.a % 2 ^ 32) s.now)) 0)) ∧
    (sSub v.w = 0 → 256 ≤ (s.cancelSet v.part).length → Tab.has (s.cancelSet v.part) (v.a % 2 ^ 32) = false → exec (.sCancel c) s = .next (ret s 5)) ∧
    (sSub v.w ≠ 0 → Tab.has (s.cancelSet v.part) (v.a % 2 ^ 32) = true → exec (.sCancel c) s = .next (ret (s.setCancel v.part (Tab.del (s.cancelSet v.part) (v.a % 2 ^ 32))) 0)) ∧
    (sSub v.w ≠ 0 → Tab.has (s.cancelSet v.part) (v.a % 2 ^ 32) = false → exec (.sCancel c) s = .next (ret s 1))) ∧
  (∀ c s v t, s.sReady c 0x35 none xRegs = some v → s.station? v.part (v.a % 65536) = some t → s.sOutstanding c < 4 →
    exec (.sPred c) s = .next ((s.setStation v.part (v.a % 65536) { t with predValue := tbit v.b 0 }).setS c ((v.x.setR (sRd v.w) 0).goOp (v.issueOp (xRegs v.w)) (v.anchorLat s ((s.anchorPhys v.part t).getD (c / 20))) [sRd v.w]))) ∧
  (∀ b, RegEffect .sCrd 0x36 none iRegs (fun s v => s.phys v.part (v.a / 20) = some b ∧ s.sOutstanding v.c < 4) (fun s v => s.cellReg (b * 20 + v.a % 20) (sSub v.w)))

namespace Sys2Proof.Spec

/-- A load has begun: the sequencer has moved on, and its access waits for its lines, or it is complete when it fetches none (R91, R99). -/
def LoadBegun (s t : State) (c : Nat) (v : MEnv) (l : MLoad) : Prop :=
  ∃ m, m = { v.m with pc := v.m.advance.pc, rep := v.m.advance.rep, issue := m.issue, ops := m.ops } ∧
    (l.lines = [] → t = s.setM c (m.fill l [])) ∧
    (l.lines ≠ [] → t = (s.setM c m).addAccess { who := .cell c, part := v.x.part, dest := .mload l, got := [], left := 0, lost := 0, store := false } (readClaims c l.lines))

/-- An accumulator word. -/
def accWord (m : MCell) (tile i n : Nat) : Nat := get0 m.acc (tile * 4096 + i * 64 + n)

/-- An array operation is done: each row group with an operand has its new words, every other word of the accumulators is as before, the
tile has the pair's type, and the sequencer has moved on (R84, R86, R108, R111). -/
def ArrayDone (s t : State) (c : Nat) (v : MEnv) (sel : Nat → Option BPlace) : Prop :=
  ∃ m, t = { s with free := s.free + 1 }.setM c m ∧
    m = { v.m with acc := m.acc, intTiles := m.intTiles, pc := v.m.advance.pc, rep := v.m.advance.rep, issue := m.issue, ops := m.ops } ∧
    (∀ i n, i < 64 → n < 64 → accWord m v.d.acc i n = match sel (i / 16) with
      | some pl => v.m.outElem v.d pl (s.free * 4096 + i * 64 + n) (v.m.prior v.d i n) i n
      | none => accWord v.m v.d.acc i n) ∧
    (∀ tile i n, tile ≠ v.d.acc → i < 64 → n < 64 → accWord m tile i n = accWord v.m tile i n) ∧
    m.intTiles.contains v.d.acc = v.d.intAcc

end Sys2Proof.Spec

/-- Loads and stores of a matrix cell: LDA, LDB, ACCLD, ACCST (R87-R90, R94, R96, R99, R105-R107). The array operations and the clear (R82-R86,
R102, R108-R111): MMA, MMAEG, ACCZ. The order of the FP32 additions is free. The sequencer of a matrix cell (R91, R92, R94, R95, R97): EMIT,
REPEAT, SYNC, END. -/
def Obligations.MatrixCommands : Prop :=
  (∀ c s v, s.mReady c 0x01 (fun _ t => isLoad t) = some v → partsBad (s.ldaParts v.x.part v.st.wb v.d v.d.rows) = false →
    ∃ t, exec (.mLda c) s = .next t ∧ LoadBegun s t c v (loadOf (some v.d.ahalf) none false (s.ldaParts v.x.part v.st.wb v.d v.d.rows))) ∧
  (∀ c s v ps, s.mReady c 0x02 (fun _ t => isLoad t) = some v → partsBad ps = false →
    ps = (s.elemPart v.x.part v.st.wb v.d v.d.fmtB (storedK v.d.sparsity v.d.k) (v.d.bOff * 64) v.d.rows,
      if v.d.scaleB then some (s.scalePart v.x.part v.st.wb v.d (storedK v.d.sparsity v.d.k) (v.d.bscaleOff * 16) v.d.rows) else none,
      if v.d.sparsity = 0 then none else some (s.metaPart v.x.part v.st.wb v.d (storedK v.d.sparsity v.d.k) (v.d.metaOff * 64))) →
    ∃ t, exec (.mLdb c) s = .next t ∧ LoadBegun s t c v (loadOf none none false ps)) ∧
  (∀ c s v b, s.mReady c 0x07 (fun d t => isLoad t || tileOf t == some d.acc) = some v → s.phys v.x.part (mBlock v.d.addr) = some b →
    ∃ t l, exec (.mAccld c) s = .next t ∧ LoadBegun s t c v l ∧ l.half = none ∧ l.tile = some v.d.acc ∧ l.int = (v.d.fmtA == 0x0A) ∧
      l.elems = { addr := sliceKey b (mOff v.d.addr), pitch := v.d.pitch, bit0 := 0, bits := 2048, width := 2048, rowsF := 64, rows := 64, dst := 0, dstPitch := 256 }) ∧
  (∀ c s v b el sc mp, s.mReady c 0x06 (fun d t => isStore t || tileOf t == some d.acc) = some v → s.phys v.x.part (mBlock v.d.addr) = some b → el = sliceKey b (mOff v.d.addr) →
    (v.d.scaleA = true → ∃ b2, s.phys v.x.part (mBlock v.d.addr2) = some b2 ∧ sc = sliceKey b2 (mOff v.d.addr2)) → (v.d.scaleA = false → sc = 0) →
    (v.d.zmap = true → ∃ b3, s.phys v.x.part (mBlock v.d.addr3) = some b3 ∧ mp = sliceKey b3 (mOff v.d.addr3)) → (v.d.zmap = false → mp = 0) →
    ∃ m, exec (.mAccst c) s = .next ((s.setM c m).addAccess { who := .cell c, part := v.x.part, dest := .mstore v.d.acc, got := [], left := 0, lost := 0, store := true } (writeClaims c (v.m.storeBytes v.d el sc mp))) ∧
      m = { v.m with accNan := v.m.accNan || v.m.nanStored v.d, pc := v.m.advance.pc, rep := v.m.advance.rep, issue := m.issue, ops := m.ops }) ∧
  (∀ c s v, s.mReady c 0x03 arrayWaits = some v → ∃ t, exec (.mMma c) s = .next t ∧ ArrayDone s t c v (fun _ => some (v.d.bPlace none))) ∧
  (∀ c s v, s.mReady c 0x04 arrayWaits = some v → ∃ t, exec (.mMmaeg c) s = .next t ∧
    ArrayDone s t c v (fun j => if v.d.arg / 16 ^ j % 16 = 15 then none else some (v.d.bPlace (some (v.d.arg / 16 ^ j % 16))))) ∧
  (∀ (m : MCell) d pl order prior i n, d.intAcc = true → m.outElem d pl order prior i n =
    wrapI 32 (sgn 32 (if d.accum = true then prior else 0) + ((m.groups d).map (fun g => numInt (m.groupSum d pl i n g))).foldl (· + ·) 0)) ∧
  (∀ (m : MCell) d pl order prior i n, m.groups d = [] → prior < 2 ^ 32 → m.outElem d pl order prior i n = if d.accum = true then prior else 0) ∧
  (∀ c s v, s.mReady c 0x05 (fun d t => isStore t || tileOf t == some d.acc) = some v → ∃ m, exec (.mAccz c) s = .next (s.setM c m) ∧
    m = { v.m with acc := m.acc, intTiles := m.intTiles, pc := v.m.advance.pc, rep := v.m.advance.rep, issue := m.issue, ops := m.ops } ∧
    (∀ tile i n, i < 64 → n < 64 → accWord m tile i n = if tile = v.d.acc then 0 else accWord v.m tile i n) ∧ m.intTiles.contains v.d.acc = false) ∧
  (∀ c s v w, s.mReady c 0x08 (fun _ _ => false) = some v → w = (emitWaybill v.st.wb v.d).normalise → s.emitBad v.x.part v.st w = none →
    ∃ m, exec (.mEmit c) s = .next ((s.setEngine v.e { v.x with start := some { v.st with emits := v.st.emits ++ [w] } }).setM c m) ∧
      m = { v.m with emitted := v.m.emitted + 1, pc := v.m.advance.pc, rep := v.m.advance.rep, issue := m.issue, ops := m.ops }) ∧
  (∀ c s v k, s.mReady c 0x08 (fun _ _ => false) = some v → s.emitBad v.x.part v.st (emitWaybill v.st.wb v.d).normalise = some k →
    ∃ m, exec (.mEmit c) s = .next (s.setM c m) ∧ m = { v.m with emitStatus := k.reject, pc := v.m.advance.pc, rep := v.m.advance.rep, issue := m.issue, ops := m.ops }) ∧
  (∀ c s v, s.mReady c 0x09 (fun _ _ => false) = some v → ∃ m, exec (.mRepeat c) s = .next (s.setM c m) ∧
    m = { v.m with pc := v.m.pc + 1, rep := some { first := v.m.pc + 1, span := v.d.rows, count := v.d.k, pass := 0, addrStep := v.d.addr, bStep := v.d.bOff, accStep := v.d.acc }, issue := m.issue }) ∧
  (∀ c s v, s.mReady c 0x0A (fun _ _ => true) = some v → ∃ m, exec (.mSync c) s = .next (s.setM c m) ∧
    m = { v.m with pc := v.m.advance.pc, rep := v.m.advance.rep, issue := m.issue } ∧ (∀ o, o ∈ v.m.ops → o.done < m.issue)) ∧
  (∀ c s v, s.mReady c 0x00 (fun _ _ => true) = some v → ∃ m, exec (.mEnd c) s = .next ((s.setM c m).endStart v.e) ∧ m = { v.m with issue := m.issue } ∧
    ((s.setM c m).endStart v.e).engine? v.e = some { v.x with start := some { v.st with ended := true } }) ∧
  (∀ m : MCell, m.rep = none → m.advance = { m with pc := m.pc + 1 }) ∧
  (∀ (m : MCell) r, m.rep = some r → m.pc + 1 = r.first + r.span → r.pass + 1 < r.count → m.advance = { m with pc := r.first, rep := some { r with pass := r.pass + 1 } })

namespace Sys2Proof.Spec

/-- Nothing is under way on the spines or the criers, and the block's BTU has no walk read to issue: a CLK_BLK of the block's banks is
seen alone. -/
def Quiet (s : State) (b : Nat) : Prop :=
  s.spine.flits = [] ∧ s.fab.streams = [] ∧ s.fab.sends = [] ∧ s.dram.backlog = [] ∧ (s.btu b).readSlots = []

/-- One CLK_SPN has passed on a quiet spine: the count, and the credits that came home. -/
def clkSpn (s : State) : State := { s with spine := { s.spine with cycle := s.spine.cycle + 1, credits := s.spine.credits.filter (fun c => decide (s.spine.cycle + 1 < c.2)) } }

/-- One claim of the block's own requester is alone at its banks (R163). -/
def Alone (s : State) (b : Nat) (c : Claim) (n : Nat) (a : Access) : Prop :=
  s.blockRuns b = true ∧ s.fab.claims = [c] ∧ c.block = b ∧ s.fab.bankHold = [] ∧ s.fab.accesses = [(n, a)] ∧ c.access = n ∧ 1 ≤ c.rank ∧ c.rank ≤ 28 ∧ c.rank ≠ 22 ∧
    a.left = 1 ∧ a.lost = 0

/-- The bytes of a write are in the slices. -/
def wrote (s : State) (b : Nat) (c : Claim) (bs : List (Nat × BitVec 8)) : Sys2Proof.Mem :=
  bs.foldl (fun (m : Sys2Proof.Mem) (x : Nat × BitVec 8) => Memory.write m (sliceKey b (c.line * 64) + x.1) x.2) s.fab.slices

/-- How many empty slots of a region's crier passed since its last slot ended, and the run of device slots that they leave (R178). -/
def slotsPassed (s : State) (r : Nat) : Nat := (s.spine.cycle - (s.crier r).slotEnd) / 16
def runNow (s : State) (r : Nat) : Nat := if slotsPassed s r = 0 then (s.crier r).run else 0
def slotNow (s : State) (r : Nat) : Crier := { s.crier r with slotEnd := (s.crier r).slotEnd + 16 * slotsPassed s r + 16 }

end Sys2Proof.Spec

/-- How claims reach the banks of a block whose cells run (R163-R168): a read gives its line, a write its bytes, an atomic the old word, and of
two writes of one line by two requesters whose bytes overlap the lower rank is done and the other discarded; claims done are gone. In a wipe
the claims that came through the spine port are discarded (R170). A scrub takes a bank that nothing else uses (R169). -/
def Obligations.SliceAccesses : Prop :=
  (∀ b (c : Claim) n a bs s, Quiet s b → Alone s b c n a → a.dest = .none → c.op = .write bs →
    exec (.sliceAccessComplete b) s = .next (clkSpn { s with fab := { s.fab with claims := [], accesses := [], slices := wrote s b c bs } })) ∧
  (∀ b (c : Claim) n a lo sub op s, Quiet s b → Alone s b c n a → a.dest = .none → c.op = .atomic lo sub op →
    exec (.sliceAccessComplete b) s = .next (clkSpn { s with fab := { s.fab with claims := [], accesses := [], bankHold := [b * 128 + sliceOf c.line * 8 + bankOf c.line], slices := Memory.writeN s.fab.slices (sliceKey b (c.line * 64) + lo) (atomicBytes sub) (atomicNew sub (Memory.readN s.fab.slices (sliceKey b (c.line * 64) + lo) (atomicBytes sub)) op) } })) ∧
  (∀ b (c : Claim) n a k r sz key s, Quiet s b → Alone s b c n a →
    a.got = [] → a.who = .cell k → a.dest = .sreg r sz false key → c.op = .read → r ≠ 0 →
    sliceKey b (c.line * 64) ≤ key → key + sz ≤ sliceKey b (c.line * 64) + 64 →
    ∃ t, exec (.sliceAccessComplete b) s = .next t ∧ t = clkSpn { s with fab := { s.fab with claims := [], accesses := [] }, cell := t.cell } ∧
      (t.scell k).reg r = Memory.readN s.fab.slices key sz % 2 ^ 64 ∧ (∀ q, q ≠ r → (t.scell k).reg q = (s.scell k).reg q)) ∧
  (∀ b (c d : Claim) bs cs s, Quiet s b → s.blockRuns b = true → s.fab.claims = [c, d] → c.block = b → d.block = b → s.fab.bankHold = [] →
    1 ≤ c.rank → c.rank < d.rank → d.rank ≤ 28 → c.rank ≠ 22 → d.rank ≠ 22 → c.line = d.line → s.whoOf c ≠ s.whoOf d →
    c.op = .write bs → d.op = .write cs → overlapMask d.op.mask c.op.mask = true →
    ∃ t, exec (.sliceAccessComplete b) s = .next t ∧ t.fab.claims = [] ∧ t.fab.slices = wrote s b c bs) ∧
  (∀ b s, Quiet s b → (s.block b).wipe.isSome = true → s.fab.accesses = [] →
    exec (.sliceAccessComplete b) s = .next (clkSpn { s with fab := { s.fab with claims := s.fab.claims.filter (fun c => !(c.block == b && c.rank == 22)) } })) ∧
  (∀ b sl bank corr s, s.blockRuns b = true → s.fab.claims = [] → s.fab.bankHold = [] → sl < 16 → bank < 8 →
    ∃ x, exec (.slicePatrolScrub b sl bank corr) s = .next (s.setBlock b x) ∧ x = { s.block b with scrub := x.scrub, corrected := (s.block b).corrected + if corr = true then 1 else 0 } ∧
      get0 x.scrub (sl * 8 + bank) = (get0 (s.block b).scrub (sl * 8 + bank) + 1) % 3072)

/-- What the crier commands do (R176-R180, R185): a send waits for its stages; a slot of 16 CLK_SPN takes a held device stage, or after three of
them, or with none held, the next region sender's, of at most 16 beats, or stays empty; a target's mark leaves for the sender, and the last
mark completes the send, with status 4 when one was not DELIVERED. A flit that fails its check is replayed, and its ninth failure fails the
hop (R175). What the caravan commands do (R181-R183). -/
def Obligations.CrierCommands : Prop :=
  (∀ car dev sb so len dst mask x st b names s, s.running (0x2000 + car) (car / 4) = some (x, st) → 64 ≤ len → len ≤ 1048576 → len % 64 = 0 → so * 64 + len ≤ ringAreaBase → dst * 64 + len ≤ ringAreaBase →
    s.phys x.part sb = some b → names = (maskNames dev mask (regionOf b)).filter (· != sb) → names ≠ [] → (∀ n, n ∈ names → (s.phys x.part n).isSome = true ∧ s.movingName x.part n = false) → s.movingName x.part sb = false →
    exec (.crierSend car dev sb so len dst mask) s = .next { s with fab := { s.fab with nextSend := s.fab.nextSend + 1, sends := s.fab.sends ++ [{ id := s.fab.nextSend, device := dev, part := x.part, resetGen := s.genOf x.part, src := some (b, so), hub := [], bytes := len, dstLine := dst, targets := names.filterMap (s.phys x.part), beats := 0, marks := [], why := 0, sender := car, lostAt := [], stopped := none }] } }) ∧
  (∀ car dev sb so len dst mask x st s, s.running (0x2000 + car) (car / 4) = some (x, st) → (len < 64 ∨ 1048576 < len ∨ len % 64 ≠ 0) →
    exec (.crierSend car dev sb so len dst mask) s = .next (s.endStream car 2)) ∧
  (∀ r s, ((s.crier r).cur.isSome = true ∨ s.spine.cycle < (s.crier r).slotEnd) → exec (.crierStageGrant r) s = .next s) ∧
  (∀ r s, (s.crier r).cur = none → (s.crier r).slotEnd ≤ s.spine.cycle →
    ((s.crier r).held = [] → s.regionSender r = none → exec (.crierStageGrant r) s = .next (s.setCrier r { slotNow s r with run := 0 })) ∧
    (∀ g l, (s.crier r).held = g :: l → runNow s r < 3 ∨ s.regionSender r = none →
      exec (.crierStageGrant r) s = .next (s.setCrier r { slotNow s r with cur := some g, held := l, run := runNow s r + 1 })) ∧
    (∀ x, (s.crier r).held = [] ∨ 3 ≤ runNow s r → s.regionSender r = some x → ∃ t, exec (.crierStageGrant r) s = .next t ∧ t = { s with fab := t.fab } ∧
      t.crier r = { slotNow s r with cur := some { send := x.id, next := x.beats, stop := min x.total (x.beats + 16) }, run := 0, last := some x.srcBlock } ∧
      t.fab.slices = s.fab.slices ∧ t.fab.sends = s.fab.sends.map (fun y => if y.id == x.id then { y with beats := min x.total (x.beats + 16) } else y))) ∧
  (∀ id b (x : CrierSend) s, s.send? id = some x → x.targets.contains b = true → x.marked.contains b = false → s.tapBusy id b = false → (x.doneIn.contains (x.crierOf b) = true ∨ x.stopped.isSome = true) →
    exec (.deliveryMark id b) s = .next ((s.updSend id (fun y => { y with marked := y.marked ++ [b] })).post (.mark id b (s.markOf x b)) .control 1 (blockEnd b) (if x.why = 0 then blockEnd (x.sender / 4) else hubEnd))) ∧
  (∀ (x : CrierSend) b (s : State), (x.stopped = some 2 → s.markOf x b = some 2) ∧
    (x.stopped = none → (x.dead.contains b = true ∨ s.blockRuns b = false) → s.markOf x b = some 3) ∧
    (x.stopped = some 4 → x.dead.contains b = false → s.blockRuns b = true → x.doneIn.contains (x.crierOf b) = false → s.markOf x b = some 4) ∧
    (x.stopped = none → x.dead.contains b = false → s.blockRuns b = true → s.markOf x b = if x.lostAt.contains b = true then some 1 else none)) ∧
  (∀ id b k (x : CrierSend) (s : State), s.send? id = some x →
    (x.marks.length + 1 ≠ x.targets.length → s.takeMark id b k = s.updSend id (fun y => { y with marks := x.marks ++ [{ block := b, reason := k }] })) ∧
    (x.marks.length + 1 = x.targets.length → x.why = 0 → s.takeMark id b k =
      State.endStream { s with fab := { s.fab with sends := s.fab.sends.filter (fun y => y.id != id), streamMarks := Tab.put s.fab.streamMarks x.sender (x.marks ++ [{ block := b, reason := k }]) } } x.sender
      (if (x.marks ++ [({ block := b, reason := k } : Mark)]).any (fun m => m.reason.isSome) = true then 4 else 0))) ∧
  (∀ hop flit s, s.spine.flits.any (fun f => f.id == flit && f.onHop hop) = true → s.failsOf hop flit < 8 →
    ∃ t, exec (.spineFlitCrcFail hop flit) s = .next t ∧ t = { s with spine := t.spine, fab := t.fab } ∧ t.failsOf hop flit = s.failsOf hop flit + 1 ∧ t.fab.replays = s.fab.replays + 1 ∧
      t.fab.failedHops = s.fab.failedHops) ∧
  (∀ hop flit s, s.spine.flits.any (fun f => f.id == flit && f.onHop hop) = true → 8 ≤ s.failsOf hop flit → hop < 1536 → s.fab.failedHops.contains hop = false →
    ∃ t, exec (.spineFlitCrcFail hop flit) s = .next (State.devFault t 2 (hop / 256)) ∧ t = { s with fab := t.fab } ∧ hop ∈ t.fab.failedHops ∧
    get0 t.fab.regionGen (hop / 256) = (get0 s.fab.regionGen (hop / 256) + 1) % 256) ∧
  (∀ q (r : BitVec 1024) e s, Ready s q 0x0017 r.toNat 3 e → 1 ≤ fld r.toNat 1 4 0 → fld r.toNat 1 4 0 ≤ 16 → rsvdSet r.toNat caravanMask = false →
    (∀ i, fld r.toNat 1 4 0 ≤ i → i < 16 → fldB r.toNat (4 + 4 * i) 4 = 0) →
    (∀ m, m ∈ (caravanOf e.part r.toNat).members → (s.phys e.part m.1).isSome = true ∧ m.2 * 64 < ringAreaBase) →
    (∀ y, Tab.find s.fab.caravans (cvKey e.part (fldB r.toNat 0 1)) = some y → y.inFlight = 0) →
    exec (.caravanDefine q r) s = .next (State.served (State.answerCmd { s with fab := { s.fab with caravans := Tab.put s.fab.caravans (cvKey e.part (fldB r.toNat 0 1)) (caravanOf e.part r.toNat) } } q (.ok (caravanOf e.part r.toNat).headroom)) 3 e.part) ∧
    (∀ m, m ∈ (caravanOf e.part r.toNat).members → (caravanOf e.part r.toNat).headroom + m.2 * 64 ≤ ringAreaBase)) ∧
  (∀ q (r : BitVec 64) e y s, Ready s q 0x0018 r.toNat 3 e → r.toNat / 256 % 2 ^ 56 = 0 → Tab.find s.fab.caravans (cvKey e.part (fldB r.toNat 0 1)) = some y →
    (y.inFlight = 0 → exec (.caravanRelease q r) s = .next (State.served (State.answerCmd { s with fab := { s.fab with caravans := Tab.del s.fab.caravans (cvKey e.part (fldB r.toNat 0 1)) } } q (.ok 0)) 3 e.part)) ∧
    (y.inFlight ≠ 0 → exec (.caravanRelease q r) s = .next (State.served (State.await { s with fab := { s.fab with caravanWaits := s.fab.caravanWaits ++ [{ key := cvKey e.part (fldB r.toNat 0 1), ring := q, replace := none }] } } q) 3 e.part))) ∧
  (∀ car id off sb so len x st c s, s.running (0x2000 + car) (car / 4) = some (x, st) → Tab.find s.fab.caravans (cvKey x.part id) = some c →
    (c.headroom < off + len ∨ ringAreaBase < so * 64 + len → exec (.caravanWrite car id off sb so len) s = .next (s.endStream car 1)) ∧
    (∀ b, off + len ≤ c.headroom → so * 64 + len ≤ ringAreaBase → 0 < len → s.phys x.part sb = some b → s.movingName x.part sb = false →
      (∀ m, m ∈ c.members → (s.phys x.part m.1).isSome = true ∧ s.movingName x.part m.1 = false) →
      ∃ t y, exec (.caravanWrite car id off sb so len) s = .next t ∧ t = { s with fab := t.fab, spine := t.spine } ∧ t.fab.slices = s.fab.slices ∧
        t.fab.streams = s.fab.streams ++ [y] ∧ y.id = s.fab.nextSend ∧ y.carrier = car ∧ y.off = off ∧ y.bytes = len ∧ y.members = c.members.map (fun m => ((s.phys x.part m.1).getD 0, m.2)) ∧
        Tab.find t.fab.caravans (cvKey x.part id) = some { c with inFlight := c.inFlight + 1 }))

/-- What a mirror sync does from its command to its answer (R263-R265): it is queued, or refused while sixteen wait; sent to every bound block,
taken by each block's translation unit, acknowledged once the earlier accesses are done, and answered with its generation, which the context
then has. How walks start, descend and end (R256-R262, R273). -/
def Obligations.TranslationCommands : Prop :=
  (∀ q (r : BitVec 256) e s, Ready s q 0x0019 r.toNat 3 e → rsvdSet r.toNat (maskOf [(0, 12, 0), (4, 31, 0), (8, 47, 0), (16, 31, 0)]) = false → s.ctxLive e.part (fld r.toNat 0 11 0) = true →
    genNewer (fldB r.toNat 4 4) (s.newestGen e.part (fld r.toNat 0 11 0)) = true → fld r.toNat 8 47 0 % 4096 = 0 → fld r.toNat 8 47 0 + fldB r.toNat 16 4 * 4096 ≤ 2 ^ 48 →
    (bit r.toNat 1 4 = true → fld r.toNat 8 47 0 = 0 ∧ fldB r.toNat 16 4 = 0) → (bit r.toNat 1 4 = false → fldB r.toNat 16 4 ≠ 0) →
    (s.xlt.syncs.filter (fun y => y.part == e.part && y.ring.isSome)).length < 16 →
    exec (.mirrorSync q r) s = .next (State.served (State.await { s with xlt := { s.xlt with nextSync := s.xlt.nextSync + 1, syncs := s.xlt.syncs ++ [{ id := s.xlt.nextSync, part := e.part, context := fld r.toNat 0 11 0, all := bit r.toNat 1 4, gen := fldB r.toNat 4 4, base := fld r.toNat 8 47 0, pages := fldB r.toNat 16 4, ring := some q, sent := false, waiting := [] }] } } q) 3 e.part)) ∧
  (∀ q (r : BitVec 256) e s, Ready s q 0x0019 r.toNat 0 e → rsvdSet r.toNat (maskOf [(0, 12, 0), (4, 31, 0), (8, 47, 0), (16, 31, 0)]) = false → s.ctxLive e.part (fld r.toNat 0 11 0) = true →
    genNewer (fldB r.toNat 4 4) (s.newestGen e.part (fld r.toNat 0 11 0)) = true → fld r.toNat 8 47 0 % 4096 = 0 → fld r.toNat 8 47 0 + fldB r.toNat 16 4 * 4096 ≤ 2 ^ 48 →
    (bit r.toNat 1 4 = true → fld r.toNat 8 47 0 = 0 ∧ fldB r.toNat 16 4 = 0) → (bit r.toNat 1 4 = false → fldB r.toNat 16 4 ≠ 0) →
    16 ≤ (s.xlt.syncs.filter (fun y => y.part == e.part && y.ring.isSome)).length → exec (.mirrorSync q r) s = .next (s.answerCmd q (.busy .syncQueueFull 0))) ∧
  (∀ p y s, s.xlt.syncs.find? (fun y => y.part == p) = some y → y.sent = false → s.innTurn 3 p 0 = true →
    exec (.mirrorSyncSend p) s = .next (State.served { s with xlt := { s.xlt with syncs := s.xlt.syncs.map (fun z => if z.id = y.id then { y with sent := true, waiting := s.boundBlocks p } else z) } } 3 p)) ∧
  (∀ b y s, s.xlt.syncs.find? (fun y => y.sent && y.waiting.contains b && !(s.btu b).scanning.any (fun z => z.1 == y.id)) = some y → ∃ t, exec (.btuInvalidate b) s = .next t ∧
    t = { s with xlt := t.xlt } ∧ (t.btu b).scanning = (s.btu b).scanning ++ [(y.id, s.dram.nextReq)] ∧ t.xlt.syncs = s.xlt.syncs ∧
    ∀ p c v, (t.btu b).lookup p c v = if y.covers p c (v * 4096) = true then none else (s.btu b).lookup p c v) ∧
  (∀ b i l s, (s.btu b).scanning = i :: l → s.undrained b i.2 = false → ∃ t, exec (.btuInvalidateAck b) s = .next t ∧ t = { s with xlt := t.xlt } ∧ t.btu b = { s.btu b with scanning := l } ∧
    t.xlt.syncs = s.xlt.syncs.map (fun y => if y.id = i.1 then { y with waiting := y.waiting.filter (· != b) } else y)) ∧
  (∀ b i l s, (s.btu b).scanning = i :: l → s.undrained b i.2 = true → exec (.btuInvalidateAck b) s = .next s) ∧
  (∀ p y l q k s, takeFirst (fun y => y.part == p) s.xlt.syncs = some (y, l) → y.ring = some q → y.sent = true → y.waiting = [] → s.ctx? p y.context = some k →
    exec (.mirrorSynced p) s = .next (State.answerCmd { s with xlt := { s.xlt with syncs := l }, host := { s.host with contexts := Tab.put s.host.contexts (ctxKey p y.context) { k with tableGen := y.gen } } } q (.ok y.gen))) ∧
  (∀ b k e wr look s1 st va l s, s1 = s.withStream b k e wr look → Tab.find (s1.btu b).streams k = some st → st.look = va :: l → (s1.btu b).lookup st.part st.context (va / 4096) = none →
    Tab.has (s1.btu b).walks (demandSlot k) = false → s1.engFrozen st.engine = false →
    ∃ t w, exec (.tlbMissWalk b k e wr look) s = .next t ∧ t = { s with xlt := t.xlt } ∧ Tab.find (t.btu b).walks (demandSlot k) = some w ∧
      w.va = va ∧ w.part = st.part ∧ w.context = st.context ∧ w.prefetch = false ∧ w.req = none ∧ (w.level, w.table) = s1.walkFrom (s1.btu b) st.part st.context va) ∧
  (∀ b k e wr look s1 st va s, s1 = s.withStream b k e wr look → Tab.find (s1.btu b).streams k = some st → k < 64 → Tab.has (s1.btu b).walks (2 * k + 1) = false → (s1.btu b).unused < 1024 →
    s1.engFrozen st.engine = false → (s1.btu b).prefetchPage st = some va →
    ∃ t w, exec (.prefetchWalkStart b k e wr look) s = .next t ∧ t = { s with xlt := t.xlt } ∧ Tab.find (t.btu b).walks (2 * k + 1) = some w ∧
      w.va = va ∧ w.part = st.part ∧ w.context = st.context ∧ w.prefetch = true) ∧
  (∀ b slot w dte s, Tab.find (s.btu b).walks slot = some w → w.joined = false → w.ready = true → s.walkCheck w = .table dte →
    ∃ t w', exec (.walkReadReturn b slot) s = .next t ∧ t = { s with xlt := t.xlt } ∧ Tab.find (t.btu b).walks slot = some w' ∧
      w'.level = w.level - 1 ∧ w'.table = dteFrame dte ∧ w'.va = w.va) ∧
  (∀ b slot w s, Tab.find (s.btu b).walks slot = some w → w.joined = false → w.ready = true → s.walkCheck w = .leaf →
    ∃ x, exec (.walkReadReturn b slot) s = .next ((s.setBtu b x).advanceAll b) ∧ Tab.has x.walks slot = false ∧ x.streams = (s.btu b).streams ∧
      (w.prefetch = false → w.table % 4096 = 0 → (x.lookup w.part w.context (w.va / 4096)).isSome = true)) ∧
  (∀ b slot w c s, Tab.find (s.btu b).walks slot = some w → w.joined = false → w.ready = true → s.walkCheck w = .bad c →
    ∃ x, Tab.has x.walks slot = false ∧
      (w.prefetch = true → exec (.walkReadReturn b slot) s = .next (s.setBtu b x)) ∧
      (w.prefetch = false → x.streams = (s.btu b).streams.filter (fun y => y.2.engine != w.engine) ∧
        exec (.walkReadReturn b slot) s = .next (((s.setBtu b x).xlateFault w.engine w.part w.context w.va c).advanceAll b)))

/-- What opening, closing and routing a window does (R268-R271). -/
def Obligations.WindowCommands : Prop :=
  (∀ q (r : BitVec 320) e s, Ready s q 0x001C r.toNat 3 e → rsvdSet r.toNat (maskOf windowOpenMask) = false → (winDefOf r.toNat).srcNode = 0xFFFF →
    s.windowRefusal (fldB r.toNat 0 2) (winDefOf r.toNat) (some e.part) = none →
    (Tab.find s.xlt.windows (fldB r.toNat 0 2) = none → exec (.windowOpen q r) s = .next (State.served ((s.setWindow (fldB r.toNat 0 2) (openWindow (winDefOf r.toNat))).answerCmd q (.ok 0)) 3 e.part)) ∧
    (∀ x, Tab.find s.xlt.windows (fldB r.toNat 0 2) = some x → (x.valid = true ∨ x.waits ≠ []) →
      exec (.windowOpen q r) s = .next (State.served (State.await (s.setWindow (fldB r.toNat 0 2) { x with valid := false, waits := x.waits ++ [{ ring := some q, ref := none, repl := some (winDefOf r.toNat) }] }) q) 3 e.part))) ∧
  (∀ q (r : BitVec 64) e x s, Ready s q 0x001D r.toNat 3 e → rsvdSet r.toNat (maskOf [(0, 15, 0)]) = false → fldB r.toNat 0 2 ≤ 4095 → Tab.find s.xlt.windows (fldB r.toNat 0 2) = some x →
    x.cfg.part = e.part → x.cfg.srcNode = 0xFFFF →
    exec (.windowClose q r) s = .next (State.served (State.await (s.setWindow (fldB r.toNat 0 2) { x with valid := false, waits := x.waits ++ [{ ring := some q, ref := none, repl := none }] }) q) 3 e.part)) ∧
  (∀ m (r : BitVec 320) s, Served s m 3 (winDefOf r.toNat).part → rsvdSet r.toNat (maskOf windowOpenMask) = false → s.windowRefusal (fldB r.toNat 0 2) (winDefOf r.toNat) none = none →
    Tab.find s.xlt.windows (fldB r.toNat 0 2) = none → exec (.windowOpenMsg m r) s = .next (State.served ((wroteTable (s.setWindow (fldB r.toNat 0 2) (openWindow (winDefOf r.toNat)))).answerMsg m (.ok 0)) 3 (winDefOf r.toNat).part)) ∧
  (∀ m (r : BitVec 64) x s, Served s m 3 0 → rsvdSet r.toNat (maskOf [(0, 15, 0)]) = false → fldB r.toNat 0 2 ≤ 4095 → Tab.find s.xlt.windows (fldB r.toNat 0 2) = some x →
    exec (.windowCloseMsg m r) s = .next (State.served (wroteTable (s.setWindow (fldB r.toNat 0 2) { x with valid := false, waits := x.waits ++ [{ ring := none, ref := some m, repl := none }] })) 3 0)) ∧
  (∀ id x w l q s, Tab.find s.xlt.windows id = some x → x.waits = w :: l → x.inFlight = 0 → w.ref = none → w.ring = some q →
    (l ≠ [] → exec (.windowClosed id) s = .next ((s.setWindow id { x with cfg := w.repl.getD x.cfg, waits := l }).answerCmd q (.ok 0))) ∧
    (l = [] → w.repl = none → exec (.windowClosed id) s = .next (State.answerCmd { s with xlt := { s.xlt with windows := Tab.del s.xlt.windows id } } q (.ok 0))) ∧
    (∀ d, l = [] → w.repl = some d → exec (.windowClosed id) s = .next ((s.setWindow id (openWindow d)).answerCmd q (.ok 0)))) ∧
  (∀ id x m s, Tab.find s.xlt.windows id = some x → x.waits = [{ ring := none, ref := some m, repl := none }] → x.inFlight = 0 →
    exec (.windowClosed id) s = .next (State.answerMsg { s with xlt := { s.xlt with windows := Tab.del s.xlt.windows id } } m (.ok 0))) ∧
  (∀ id x s, Tab.find s.xlt.windows id = some x → x.inFlight ≠ 0 → exec (.windowClosed id) s = .next s) ∧
  (∀ m (r : BitVec 192) x s, Served s m 3 (fldB r.toNat 0 1) → s.part? (fldB r.toNat 0 1) = some x → x.destroying = none →
    rsvdSet r.toNat (maskOf [(0, 7, 0), (1, 7, 0), (8, 15, 0), (10, 11, 0), (11, 7, 7), (12, 5, 0), (13, 3, 0), (16, 63, 0)]) = false →
    fld r.toNat 12 5 0 ≤ 60 → (bit r.toNat 11 7 = true → fld r.toNat 12 5 0 ≠ 0) →
    (bit r.toNat 11 7 = true → fld r.toNat 13 3 0 ≤ 11 ∧ s.portPresent (fld r.toNat 13 3 0) = true ∧ Tab.getD x.portShare (fld r.toNat 13 3 0) 0 ≠ 0) →
    exec (.windowRoute m r) s = .next (State.served ((wroteTable { s with xlt := { s.xlt with out := Tab.put s.xlt.out (fldB r.toNat 0 1 * 256 + fldB r.toNat 1 1) { node := fldB r.toNat 8 2, valid := bit r.toNat 11 7, window := fld r.toNat 10 11 0, part := fld r.toNat 12 5 0, port := fld r.toNat 13 3 0, key := BitVec.ofNat 64 (fldB r.toNat 16 8) } } }).answerMsg m (.ok 0)) 3 (fldB r.toNat 0 1))) ∧
  (∀ m (r : BitVec 128) s, Served s m 3 0 → rsvdSet r.toNat (maskOf [(0, 7, 0), (8, 63, 0)]) = false →
    exec (.windowKeyLoad m r) s = .next (State.served ((wroteTable { s with xlt := { s.xlt with keys := Tab.put s.xlt.keys (fldB r.toNat 0 1) (BitVec.ofNat 64 (fldB r.toNat 8 8)) } }).answerMsg m (.ok 0)) 3 0))

namespace Sys2Proof.Spec

/-- A controller before its next data slot: the write of the slot before is complete, and the controller's own work has queued what it may. -/
def beforeSlot (s : State) (ch sub : Nat) : State := (s.finishBusy ch sub).topUp ch

/-- The subchannel after its maintenance slot's scrub. -/
def scrubbed (s : State) (ch sub : Nat) : State :=
  s.setCtrl ch ((s.ctrl ch).setSub sub { (s.ctrl ch).sub sub with scrubbed := true, scrub := if 32 * 2 ^ (s.spanBits - 15) ≤ ((s.ctrl ch).sub sub).scrub + 1 then 0 else ((s.ctrl ch).sub sub).scrub + 1 })

/-- A read or write that a page's sweep asks for: P3 (R243). -/
def sweepRead (p page i : Nat) : MemReq := { id := 0, line := page / 64 + i, write := false, p3 := true, who := .sweep p }
def sweepWrite (p page i : Nat) (l : List (BitVec 8)) : MemReq := { id := 0, line := page / 64 + i, write := true, p3 := true, data := l, who := .sweep p }

/-- The write of the bitmap line that holds a page's bit: P1 (R243). -/
def flipWrite (s : State) (p ch page : Nat) : MemReq := { id := 0, line := Config.bitmapLine ch (s.stripeOf page / 512), write := true, data := List.replicate 64 0, who := .flip p }

/-- A flush's read or write at one channel: P1 (R234). -/
def rowRead (s : State) (r : RowEntry) (page : Nat) : MemReq := { id := 0, line := s.rowDpa r page / 64, write := false, who := .row r.id }
def rowWrite (s : State) (r : RowEntry) (page : Nat) : MemReq :=
  { id := 0, line := s.rowDpa r page / 64, write := true, data := if page = r.stripe % 8 then s.parityLine r else s.rowLine r page, who := .row r.id }

end Sys2Proof.Spec

/-- How a controller's frames go (R222-R228, R418): a data slot is granted to a read, whose line is then on its way, or to a write, which is
visible from the slot's end; with the 34 data slots of both subchannels past, the next frame begins, in the direction that the waiting
requests choose; refreshes and the promotion of P3 requests; what a read's data does. -/
def Obligations.MemoryFrames : Prop :=
  (∀ ch sub r s u, ch < 48 → sub < 2 → (s.ctrl ch).lost = false → s.sys.state ≠ .doze → u = beforeSlot s ch sub → ((u.ctrl ch).sub sub).slot < 34 →
    u.slotGrant ch sub ((u.ctrl ch).sub sub) = some r → ∃ t, exec (.dramSlotGrant ch sub) s = .next t ∧
    t = { u with dram := t.dram, reg := t.reg } ∧ ((t.ctrl ch).sub sub).slot = ((u.ctrl ch).sub sub).slot + 1 ∧ (∀ y, y ∈ (t.ctrl ch).queue → y.seq ≠ r.seq) ∧ t.dram.dram = u.dram.dram ∧
    (r.isRead = true → (t.ctrl ch).reads = (u.ctrl ch).reads ++ [{ req := r, data := u.grantData r }]) ∧
    (r.isRead = false → (t.ctrl ch).reads = (u.ctrl ch).reads ∧ ((t.ctrl ch).sub sub).busy = some r)) ∧
  (∀ ch sub s u, ch < 48 → sub < 2 → (s.ctrl ch).lost = false → s.sys.state ≠ .doze → u = beforeSlot s ch sub → ((u.ctrl ch).sub sub).slot < 34 →
    u.slotGrant ch sub ((u.ctrl ch).sub sub) = none → ∃ t, exec (.dramSlotGrant ch sub) s = .next t ∧ t = { u with dram := t.dram, reg := t.reg } ∧
    t.ctrl ch = (u.ctrl ch).setSub sub { (u.ctrl ch).sub sub with slot := ((u.ctrl ch).sub sub).slot + 1 }) ∧
  (∀ ch sub r f (s : State), s.slotGrant ch sub ((s.ctrl ch).sub sub) = some r → (r.replay = some f → f < (s.ctrl ch).frame) ∧ ((s.ctrl ch).sub sub).used.contains (bankTarget (r.line * 64)) = false ∧
    (s.ctrl ch).refHold (s.ctrl ch).frame (bankTarget (r.line * 64)) = false ∧ s.memHeld r = false) ∧
  (∀ ch sub (r : MemReq) (s : State), ch < 48 → ((s.ctrl ch).sub sub).busy = some r → (r.who = .none ∨ ∃ n, r.who = .win n) → r.data.length = 64 → Memory.wf s.dram.dram = true →
    ∀ i, i < 64 → Memory.read (s.finishBusy ch sub).dram.dram (r.line * 64 + i) = r.data.getD i 0) ∧
  (∀ ch sub s u, ch < 48 → sub < 2 → (s.ctrl ch).lost = false → s.sys.state ≠ .doze → u = beforeSlot s ch sub → 34 ≤ ((u.ctrl ch).sub sub).slot → (u.ctrl ch).pastData = true →
    ((u.ctrl ch).refDue (u.ctrl ch).frame = true → (u.ctrl ch).refDone (u.ctrl ch).frame = true) → u.sealedOn (ch / 4) = none → ∃ c, exec (.dramSlotGrant ch sub) s = .next (u.setCtrl ch c) ∧
    c.frame = (u.ctrl ch).frame + 1 ∧ c.reads = (u.ctrl ch).reads ∧ c.queue.length = (u.ctrl ch).queue.length ∧
    ∀ k, k < 2 → (c.sub k).slot = 0 ∧ (c.sub k).used = [] ∧ (c.sub k).scrubbed = false ∧
      (c.sub k).write = frameWrites ((u.ctrl ch).sub k) ((u.entries ch k).filter MemReq.isRead).length ((u.entries ch k).filter (fun r => !r.isRead)).length) ∧
  (∀ (x : SubChan) r w, frameWrites x r w = true ↔ ¬ (1 ≤ r ∧ 3 ≤ x.writes) ∧ (64 ≤ w ∨ (1 ≤ w ∧ (r = 0 ∨ 3 ≤ x.reads)))) ∧
  (∀ ch s, ch < 48 → s.sys.state ≠ .doze → (s.ctrl ch).pastData = true → (s.ctrl ch).refDue (s.ctrl ch).frame = true → (s.ctrl ch).refDone (s.ctrl ch).frame = false →
    exec (.dramRefsb ch) s = .next (s.setCtrl ch { s.ctrl ch with refs := (s.ctrl ch).refs ++ [((s.ctrl ch).frame / (if (s.ctrl ch).hot = true then 2 else 4) % 8, (s.ctrl ch).frame)] })) ∧
  (∀ ch above s, ch < 48 → exec (.dimmTemp85Cross ch above) s = .next (s.setCtrl ch { s.ctrl ch with hotNext := above })) ∧
  (∀ ch s, exec (.p3Promotion ch) s = .next (s.setCtrl ch { s.ctrl ch with queue := (s.ctrl ch).queue.map (fun r => if r.p3 && 64 ≤ r.frames then { r with p3 := false } else r) })) ∧
  (∀ ch x l s b slot, (s.ctrl ch).reads = x :: l → x.req.write = false → x.req.who = .walk b slot → x.entry = true →
    exec (.dramReadData ch []) s = .next ((s.setCtrl ch { s.ctrl ch with reads := l }).reply ch x.req.line (some x.data) (x.req.id, x.req.who, x.req.reg))) ∧
  (∀ ch x l s b slot, (s.ctrl ch).reads = x :: l → x.req.write = false → x.req.who = .walk b slot → x.entry = false → s.dpaChannel (x.req.line * 64) = ch →
    ∃ c, exec (.dramReadData ch []) s = .next ((s.setCtrl ch c).reply ch x.req.line (if s.poisoned (x.req.line * 64) = true then none else some x.data) (x.req.id, x.req.who, x.req.reg)) ∧
      c = { s.ctrl ch with reads := l, corrected := c.corrected }) ∧
  (∀ ch x l s, (s.ctrl ch).reads = x :: l → x.entry = true → x.req.write = true → x.req.amo = none → x.req.clears = false → x.req.who = .none → x.data.length = 64 → x.req.lo + x.req.data.length ≤ 64 →
    (s.ctrl ch).queue = [] → l = [] → (s.ctrl ch).lost = false → s.refusesWrite (x.req.line * 64) = false → s.codedDpa (x.req.line * 64) = false →
    ∃ c q, exec (.dramReadData ch []) s = .next (s.setCtrl ch c) ∧ c.reads = [] ∧ c.queue = [q] ∧ q.write = true ∧ q.partial' = false ∧ q.line = x.req.line ∧ q.lo = 0 ∧
    q.data = x.data.take x.req.lo ++ x.req.data ++ x.data.drop (x.req.lo + x.req.data.length))

/-- Scrub, replay, loss and parity (R226, R231-R239). Key rotation and wiping (R242-R249). -/
def Obligations.MemoryErrorsAndKeys : Prop :=
  (∀ ch sub line s, ch < 48 → sub < 2 → 34 ≤ ((s.ctrl ch).sub sub).slot → ((s.ctrl ch).sub sub).scrubbed = false → (s.ctrl ch).lost = false → s.sys.state ≠ .doze →
    line = s.scrubLine ch sub ((s.ctrl ch).sub sub).scrub →
    exec (.dramPatrolScrub ch sub []) s = .next (scrubbed s ch sub) ∧
    (∀ errs, errs.any (fun e => decide (0 < e.2)) = true → (s.ctrl ch).corrects line errs = true → exec (.dramPatrolScrub ch sub errs) s =
      .next (((scrubbed s ch sub).noteLine ch line errs).memEnter ch { id := 0, line := line, write := true, p3 := true, data := s.arrayL (line * 64) 64, who := .repair })) ∧
    (∀ errs, errs.any (fun e => decide (0 < e.2)) = true → (s.ctrl ch).corrects line errs = false → exec (.dramPatrolScrub ch sub errs) s = .next ((scrubbed s ch sub).uncorrectable ch line errs))) ∧
  (∀ ch line d n (s : State), s.dpaChannel (line * 64) = ch → (s.ctrl ch).bad = [] → 0 < n → s.codedDpa (line * 64) = true →
    ∃ c, s.uncorrectable ch line [(d, n)] = s.setCtrl ch c ∧ c = { (s.ctrl ch).enter { id := 0, line := line, write := true, data := s.arrayL (line * 64) 64, who := .repair } with bad := [devKey line d] }) ∧
  (∀ ch x s, (s.ctrl ch).reads = [x] → x.entry = false → (s.ctrl ch).sub0.busy = none → (s.ctrl ch).sub1.busy = none → exec (.dramBusReplay ch x.req.seq false) s =
    .next (s.setCtrl ch { s.ctrl ch with reads := [], queue := { x.req with replay := some (s.ctrl ch).frame } :: (s.ctrl ch).queue, retrains := 0 })) ∧
  (∀ ch w s, (s.ctrl ch).reads = [] → (s.ctrl ch).sub0.busy = some w → (s.ctrl ch).sub1.busy = none → exec (.dramBusReplay ch w.seq false) s =
    .next (s.setCtrl ch { s.ctrl ch with sub0 := { (s.ctrl ch).sub0 with busy := none }, queue := { w with replay := some (s.ctrl ch).frame } :: (s.ctrl ch).queue, retrains := 0 })) ∧
  (∀ ch s, ch < 48 → s.dram.lostDimms.contains ch = false → (s.ctrl ch).reads = [] → (s.ctrl ch).queue = [] → exec (.dimmLost ch) s = .next
    ((State.logFault { (s.setCtrl ch { s.ctrl ch with lost := true, sub0 := { (s.ctrl ch).sub0 with busy := none }, sub1 := { (s.ctrl ch).sub1 with busy := none } }) with
      dram := { (s.setCtrl ch { s.ctrl ch with lost := true, sub0 := { (s.ctrl ch).sub0 with busy := none }, sub1 := { (s.ctrl ch).sub1 with busy := none } }).dram with lostDimms := s.dram.lostDimms ++ [ch] } } 0x0200 0 ch 0).devFault 1 ch)) ∧
  (∀ ch r b slot (s : State), r.who = .walk b slot → (s.codedDpa (r.line * 64) = false ∨ (otherPages (r.line * 64)).any (fun a => (s.ctrl (s.dpaChannel a)).lost) = true) →
    s.readLost ch r = s.reply ch r.line none (r.id, r.who, r.reg)) ∧
  (∀ n b x slot (s : State), Tab.find s.dram.rebuilds n = some b → b.left = 1 → b.req.who = .walk x slot →
    s.rebuilt n = State.reply { s with dram := { s.dram with rebuilds := Tab.del s.dram.rebuilds n } } (s.dpaChannel (b.req.line * 64)) b.req.line
      (some (xorLines ((otherPages (b.req.line * 64)).map (fun a => s.arrayL a 64)))) (b.req.id, b.req.who, b.req.reg)) ∧
  (∀ g r s, s.dram.rows.find? (fun r => r.region == g && s.rowDue r) = some r →
    exec (.parityRowFlush g) s = .next ((List.range 8).foldl (fun (s : State) i => s.pushRows (g * 8 + i)) (s.setRow r.flush))) ∧
  (∀ r : RowEntry, r.flush.flushing = true ∧ (∀ p, p ∈ r.flush.asks ↔ p < 8 ∧ p ≠ r.stripe % 8 ∧ Tab.has r.staged p = false) ∧
    (∀ p, p ∈ r.flush.todo ↔ p = r.stripe % 8 ∨ (p < 8 ∧ Tab.has r.staged p = true)) ∧ (r.flush.writing = true ↔ r.flush.asks = [])) ∧
  (∀ ch r (s : State), ch / 8 = r.region → (s.ctrl ch).lost = false →
    (r.asks.contains (ch % 8) = true → s.roomFor ch (rowRead s r (ch % 8)) = true →
      s.pushRow ch r = (s.memEnter ch (rowRead s r (ch % 8))).setRow { r with asks := r.asks.filter (· != ch % 8), out := r.out + 1 }) ∧
    (r.asks.contains (ch % 8) = false → r.writing = true → r.todo.contains (ch % 8) = true → s.roomFor ch (rowWrite s r (ch % 8)) = true →
      s.pushRow ch r = (s.memEnter ch (rowWrite s r (ch % 8))).setRow { r with todo := r.todo.filter (· != ch % 8), out := r.out + 1 })) ∧
  (∀ g r l s, takeFirst (fun r => r.region == g && r.flushed) s.dram.rows = some (r, l) →
    (s.dram.rowWait.filter (fun w => s.dpaRegion (w.line * 64) == g) = [] → exec (.parityEntryFreed g) s = .next { s with dram := { s.dram with rows := l } }) ∧
    (∀ w, s.dram.rowWait = [w] → s.dpaRegion (w.line * 64) = g → exec (.parityEntryFreed g) s = .next (State.memIn { s with dram := { s.dram with rows := l, rowWait := [] } } (s.dpaChannel (w.line * 64)) w))) ∧
  (∀ p x s, s.part? p = some x → s.dram.rowWait = [] → exec (.codedInitDone p) s = .next (s.setPart p { x with initialising := false })) ∧
  (∀ q (r : BitVec 64) e p k x s, Ready s q 0x001E r.toNat 0 e → rsvdSet r.toNat (maskOf [(0, 5, 0)]) = false → p = fld r.toNat 0 5 0 → p ≠ 0 → p ≤ 60 → (e.part = 0 ∨ p = e.part) →
    s.part? p = some x → x.destroying = none → x.initialising = false → Tab.has s.dram.rekeys p = false → Tab.find s.dram.keys p = some k →
    exec (.partitionRekey q r) s = .next (State.answerCmd { s with dram := { s.dram with nextKey := s.dram.nextKey + 1, keys := Tab.put s.dram.keys p (if 1 - k.cur = 0 then { k with k0 := some s.dram.nextKey } else { k with k1 := some s.dram.nextKey }), rekeys := Tab.put s.dram.rekeys p { newSlot := 1 - k.cur } } } q (.ok 0))) ∧
  (∀ p ch y x s, ch < 48 → Tab.find s.dram.rekeys p = some y → s.part? p = some x → Tab.has y.pages ch = false → Tab.has y.scans ch = false → y.done.contains ch = false → y.stopping = false → (s.ctrl ch).lost = false →
    ((s.pagesOn x.runs ch).find? (fun a => Tab.getD s.dram.bitmap (a / 4096) 0 != y.newSlot) = none → exec (.rekeySweepPage p ch) s = .next (s.setRekey p { y with done := y.done ++ [ch] })) ∧
    (∀ a, (s.pagesOn x.runs ch).find? (fun a => Tab.getD s.dram.bitmap (a / 4096) 0 != y.newSlot) = some a →
      exec (.rekeySweepPage p ch) s = .next ((s.setRekey p { y with pages := Tab.put y.pages ch { page := a } }).repeatNext (fun s => s.sweepNext p ch) 64))) ∧
  (∀ p ch y g (s : State), Tab.find s.dram.rekeys p = some y → Tab.find y.pages ch = some g → (s.ctrl ch).lost = false →
    (64 ≤ s.ownHeld ch (.sweep p) → s.sweepNext p ch = none) ∧
    (s.ownHeld ch (.sweep p) < 64 → g.asked < 64 → s.roomFor ch (sweepRead p g.page g.asked) = true →
      s.sweepNext p ch = some ((s.memEnter ch (sweepRead p g.page g.asked)).setSweep p ch (fun g => { g with asked := g.asked + 1 }))) ∧
    (s.ownHeld ch (.sweep p) < 64 → 64 ≤ g.asked → g.data.length = 64 → g.sent < 64 → s.roomFor ch (sweepWrite p g.page g.sent (Tab.getD g.data g.sent [])) = true →
      s.sweepNext p ch = some ((s.memEnter ch (sweepWrite p g.page g.sent (Tab.getD g.data g.sent []))).setSweep p ch (fun g => { g with sent := g.sent + 1 })))) ∧
  (∀ p ch y g s, Tab.find s.dram.rekeys p = some y → Tab.find y.pages ch = some g →
    (g.mask.length < 64 → exec (.rekeyBitmapFlip p ch) s = .next s) ∧
    (64 ≤ g.mask.length → g.flip = 0 → (s.ctrl ch).lost = false → s.roomFor ch (flipWrite s p ch g.page) = true →
      exec (.rekeyBitmapFlip p ch) s = .next ((s.memEnter ch (flipWrite s p ch g.page)).setSweep p ch (fun g => { g with flip := 1 })))) ∧
  (∀ p ch y g r (s : State), Tab.find s.dram.rekeys p = some y → Tab.find y.pages ch = some g → r.who = .flip p →
    s.complete ch r = State.setSweep { s with dram := { s.dram with bitmap := Tab.put s.dram.bitmap (g.page / 4096) y.newSlot } } p ch (fun g => { g with flip := 2 })) ∧
  (∀ p ch y g s, Tab.find s.dram.rekeys p = some y → Tab.find y.pages ch = some g → y.stopping = false →
    (g.flip = 2 → exec (.rekeyPageRelease p ch) s = .next (s.setRekey p { y with pages := Tab.del y.pages ch, pos := Tab.put y.pos ch (Tab.getD y.pos ch 0 + 1) })) ∧
    (g.flip ≠ 2 → exec (.rekeyPageRelease p ch) s = .next s)) ∧
  (∀ p y x k s, Tab.find s.dram.rekeys p = some y → s.part? p = some x → Tab.find s.dram.keys p = some k → (∀ ch, ch < 48 → x.runs.any (fun r => s.dpaRegion r.1 == ch / 8) = true → ch ∈ y.done) →
    exec (.rekeyDone p) s = .next (State.emitOut { s with dram := { s.dram with keys := Tab.put s.dram.keys p (if y.newSlot = 0 then { k with k1 := none, cur := 0 } else { k with k0 := none, cur := 1 }), rekeys := Tab.del s.dram.rekeys p } } (.rekeyDone p))) ∧
  (∀ ch s, ∃ t, exec (.sequencerRestart ch) s = .next t ∧ t = { s with dram := { s.dram with rekeys := t.dram.rekeys } } ∧
    ∀ p, Tab.find t.dram.rekeys p = (Tab.find s.dram.rekeys p).map (fun y => if y.done.contains ch = true then y else { y with scans := Tab.put y.scans ch {} })) ∧
  (∀ s, s.dram.wipes.any (fun w => decide (w.kind ≤ 1)) = true → ∃ t, exec .deviceWipe s = .next t ∧ t = { s with dram := t.dram } ∧ t.dram.dram = [] ∧ t.dram.written = [] ∧ t.dram.bitmap = [] ∧ t.dram.rekeys = [] ∧
    (∀ ch, ch < 48 → (t.ctrl ch).poison = [] ∧ (t.ctrl ch).queue = [] ∧ (t.ctrl ch).frame = (s.ctrl ch).frame + s.wipeFrames) ∧ t.dram.wipes = s.dram.wipes.filter (fun w => decide (1 < w.kind))) ∧
  (∀ line s, Memory.wf s.dram.dram = true → ∀ a, Memory.read (State.wipeLine s line).dram.dram a = if a / 64 = line then 0 else Memory.read s.dram.dram a) ∧
  (∀ p w s, w ∈ s.dram.wipes → w.kind = 2 → w.part = p → s.wipeOver w = true →
    exec (.carveOutWipeDone p) s = .next { s with dram := { s.dram with wipes := s.dram.wipes.filter (fun w => !(w.kind == 2 && w.part == p)) } }) ∧
  (∀ p s, (∀ w, w ∈ s.dram.wipes → w.kind = 2 → w.part = p → s.wipeOver w = false) → exec (.carveOutWipeDone p) s = .next s)

/-- What a dispatch start does (R191-R202): it reads its table and scores, plans, asks for the writes of its stage slot once SLOT_FENCE lets it,
and ends with the route map and the deliveries to emit, those that are well formed; wrong inputs are rejected; the commit lets them leave
once the writes are done. A start of a revoked context emits nothing. -/
def Obligations.DispatchUnits : Prop :=
  (∀ u e x st t d a b i j tk sk slot src scl pl s, e = 0x3000 + u → s.unitStart e = some (x, st, t) → Tab.find s.unit.disp e = some d → st.ended = false → d.plan = none → st.inputs = [(i, a), (j, b)] →
    s.ctxLive x.part a.context = true → dispatchReject x.rec64 a b = none →
    s.keyOf x.part (placeAt x.rec64 8).blk ((placeAt x.rec64 8).off + b.arg % 4096 * fldB x.rec64 2 2 * 8) = some tk → s.keyOf x.part b.tileBlock (b.tileOff * 64) = some sk →
    (experts s x.part ((List.range (fldB x.rec64 2 2)).map (fun i => ofBytes (s.keyRead (tk + 8 * i) 8)))).2 = none →
    pl = dispatchPlan x.rec64 (experts s x.part ((List.range (fldB x.rec64 2 2)).map (fun i => ofBytes (s.keyRead (tk + 8 * i) 8)))).1 a.rows a.rowPitch (b.arg % 4096)
      (fun i j => (if b.format = 0x09 then fp32 else bf16).decode (s.tileElem sk b i j)) →
    (pl.layout x.rec64 a).2 ≤ fldB x.rec64 16 4 → s.keyOf x.part (placeAt x.rec64 12).blk (placeAt x.rec64 12).off = some slot → s.keyOf x.part a.tileBlock (a.tileOff * 64) = some src →
    (a.scales = true → s.keyOf x.part a.scaleBlock (a.scaleOff * 64) = some scl) → (a.scales = false → scl = 0) →
    ∃ w, w = { s with unit := w.unit, fab := w.fab, spine := w.spine } ∧ w.unit = { s.unit with disp := Tab.put s.unit.disp e { d with plan := some pl } } ∧ w.fab.slices = s.fab.slices ∧
    (s.slotFree e (bit x.rec64 21 0) (fldB x.rec64 22 2) d.count (fldB x.rec64 20 1) = true →
      exec (.dispatchStart u) s = .next (State.setEngine ((w.readLines (.unit e) x.part (pl.copyLines a src scl)).writeBytes (.unit e) x.part (s.stageBytes' pl x.rec64 a (slot + d.count % 65536 % fldB x.rec64 20 1 * fldB x.rec64 16 4) src scl)) e
        { x with start := some { st with emits := [(dispatchEmits pl x.rec64 d.count a).1].filter (fun y => (y.malformed s x.part).isNone), direct := (dispatchEmits pl x.rec64 d.count a).2.filter (fun y => (y.2.malformed s x.part).isNone), ended := true } })) ∧
    (s.slotFree e (bit x.rec64 21 0) (fldB x.rec64 22 2) d.count (fldB x.rec64 20 1) = false → exec (.dispatchStart u) s = .next w)) ∧
  (∀ u e x st t d a b i j k s, e = 0x3000 + u → s.unitStart e = some (x, st, t) → Tab.find s.unit.disp e = some d → st.ended = false → d.plan = none → st.inputs = [(i, a), (j, b)] →
    s.ctxLive x.part a.context = true → dispatchReject x.rec64 a b = some k → exec (.dispatchStart u) s = .next (s.rejectStart e x st t k)) ∧
  (∀ u e x st t d s, e = 0x3000 + u → s.unitStart e = some (x, st, t) → Tab.find s.unit.disp e = some d → st.ended = false → d.plan = none → s.ctxLive x.part st.wb.context = false →
    exec (.dispatchStart u) s = .next (s.setEngine e { x with start := some { st with emits := [], direct := [], ended := true } })) ∧
  (∀ u e x st t d a l pl slot src scl s, e = 0x3000 + u → s.unitStart e = some (x, st, t) → Tab.find s.unit.disp e = some d → st.ended = false → d.plan = some pl → st.inputs = a :: l → s.ctxLive x.part a.2.context = true →
    s.keyOf x.part (placeAt x.rec64 12).blk (placeAt x.rec64 12).off = some slot → s.keyOf x.part a.2.tileBlock (a.2.tileOff * 64) = some src →
    (a.2.scales = true → s.keyOf x.part a.2.scaleBlock (a.2.scaleOff * 64) = some scl) → (a.2.scales = false → scl = 0) →
    (s.slotFree e (bit x.rec64 21 0) (fldB x.rec64 22 2) d.count (fldB x.rec64 20 1) = false → exec (.dispatchSlotFencePoll u) s = .next s) ∧
    (s.slotFree e (bit x.rec64 21 0) (fldB x.rec64 22 2) d.count (fldB x.rec64 20 1) = true →
    exec (.dispatchSlotFencePoll u) s = .next (State.setEngine ((s.readLines (.unit e) x.part (pl.copyLines a.2 src scl)).writeBytes (.unit e) x.part (s.stageBytes' pl x.rec64 a.2 (slot + d.count % 65536 % fldB x.rec64 20 1 * fldB x.rec64 16 4) src scl)) e
      { x with start := some { st with emits := [(dispatchEmits pl x.rec64 d.count a.2).1].filter (fun y => (y.malformed s x.part).isNone), direct := (dispatchEmits pl x.rec64 d.count a.2).2.filter (fun y => (y.2.malformed s x.part).isNone), ended := true } }))) ∧
  (∀ u e x st t s, e = 0x3000 + u → s.engine? e = some x → x.start = some st → s.station? x.part x.station = some t → st.ended = true → st.heldFull = false → st.heldOrder = false → st.faulted = false →
    (s.storesPending e = true → exec (.dispatchCommit u) s = .next s) ∧
    (s.storesPending e = false → (t.ordered = true → t.starts.head? = some e) → s.canCommit s.stn.held (st.items t) = true →
      exec (.dispatchCommit u) s = .next (s.performCommit e x { st with heldOrder := false } t)))

/-- No expert is given more tokens than its effective capacity, and a token's pair keeps the choice it was offered for (R194, R195). -/
def Obligations.AssignmentWithinCapacity : Prop :=
  (∀ room cands ps ov, (∀ e, loadOf' ps e ≤ room e) → ∀ e, loadOf' (assignRounds room cands ps ov).1 e ≤ room e) ∧
  (∀ room res ov ps, (∀ e, loadOf' ps e ≤ room e) → ∀ e, loadOf' (assignOverflow room res ov ps) e ≤ room e) ∧
  (∀ room cands ps ov q, q ∈ (assignRounds room cands ps ov).1 → q ∈ ps ∨ (q.token, q.pos, q.expert) ∈ cands ∧ q.rank = q.pos ∧ q.rerouted = false) ∧
  (∀ room cands ps ov, (assignRounds room cands ps ov).1.length + (assignRounds room cands ps ov).2.length = ps.length + ov.length + cands.length) ∧
  (∀ (e : Expert) pitch, e.effective pitch ≤ e.capacity ∧ (e.pack = true → e.effective pitch ≤ 16) ∧ e.effective pitch * pitch ≤ 1048576)

/-- What a combine unit does (R203-R208): a route map opens its batch, a result is added to it by line atomics, or held, or waits while the
output tile is zeroed, and a batch that has received all its deliveries commits once its accesses are done. A forwarded ABANDONED input
closes its batch, or counts as received. What a gather does (R209-R212): it reads its index tile and copies the items it names to its slots,
as far as they can be read now, goes on with that later, and with the last item emits its output tiles; it commits once its accesses and
transactions are complete. -/
def Obligations.CombineUnitsAndGathers : Prop :=
  (∀ u e x t i w l k o s0 s, e = 0x4000 + u → s.combStation e = some (x, t) → takeFirst (fun (y : Nat × Waybill) => y.1 == 0) (s.comb e).taken = some ((i, w), l) → badMap x.rec64 w = false →
    s.slotFree e (bit x.rec64 0 1) (fldB x.rec64 6 2) (s.comb e).opened (fldB x.rec64 16 1) = true → s.keyOf x.part w.tileBlock (w.tileOff * 64) = some k → s.outSlot x.part x.rec64 (mapBatch w) = some o →
    (s.comb e).early.filter (fun y => y.1 == mapBatch w) = [] →
    s0 = s.readLines (.unit e) x.part ((List.range w.rows).flatMap (fun i => linesOf (k + i * w.rowPitch) (packedRow w.format w.cols))) →
    ∃ z, (bit x.rec64 0 0 = false → z = []) ∧ (bit x.rec64 0 0 = true → z = [s0.fab.nextAccess]) ∧
      exec (.combineOpenBatch u) s = .next (State.setComb (if bit x.rec64 0 0 = true then s0.writeBytes (.unit e) x.part ((List.range w.rows).flatMap (fun i => keyed (o + i * fldB x.rec64 4 2) (List.replicate (packedRow (fld x.rec64 1 4 0) (fldB x.rec64 2 2)) 0))) else s0) e
        { s.comb e with taken := l, opened := (s.comb e).opened + 1, batches := (s.comb e).batches ++ [{ batch := mapBatch w, map := w, entries := s.readMap k w, size := mapEntries w, nDel := mapDeliveries w, received := [], abandoned := false, zero := z, adds := [] }] })) ∧
  (∀ u e x t i w l s, e = 0x4000 + u → s.combStation e = some (x, t) → takeFirst (fun (y : Nat × Waybill) => y.1 == 0) (s.comb e).taken = some ((i, w), l) → badMap x.rec64 w = true →
    exec (.combineOpenBatch u) s = .next ((s.setComb e { s.comb e with taken := l }).reject x.part x.station t w.queue w .badMap (engRank e))) ∧
  (∀ u e x t i w l s, e = 0x4000 + u → s.combStation e = some (x, t) → (s.comb e).held = [] → takeFirst (fun (y : Nat × Waybill) => y.1 == 1) (s.comb e).taken = some ((i, w), l) →
    (∀ b, s.openBatch (s.comb e) w = some b → exec (.combineResult u) s = .next (s.combProcess e x t { s.comb e with taken := l } b w)) ∧
    (s.openBatch (s.comb e) w = none → (s.comb e).closed.contains (resBatch w) = true → exec (.combineResult u) s = .next (s.setComb e { s.comb e with taken := l })) ∧
    (s.openBatch (s.comb e) w = none → (s.comb e).closed.contains (resBatch w) = false → (s.comb e).batches.any (fun b => b.batch == resBatch w) = true → exec (.combineResult u) s = .next s) ∧
    (s.openBatch (s.comb e) w = none → (s.comb e).closed.contains (resBatch w) = false → (s.comb e).batches.any (fun b => b.batch == resBatch w) = false →
      exec (.combineResult u) s = .next (s.setComb e { s.comb e with taken := l, held := (s.comb e).held ++ [w] }))) ∧
  (∀ u e x t w l b s, e = 0x4000 + u → s.combStation e = some (x, t) → takeFirst (fun (w : Waybill) => (s.openBatch (s.comb e) w).isSome) (s.comb e).held = some (w, l) → s.openBatch (s.comb e) w = some b →
    exec (.combineResult u) s = .next (s.combProcess e x t { s.comb e with held := l } b w)) ∧
  (∀ (s : State) e x t c b w src out v, badResult x.rec64 b w = false → s.keyOf x.part w.tileBlock (w.tileOff * 64) = some src → s.outSlot x.part x.rec64 b.batch = some out →
    v = (if s.ctxLive x.part w.context = true then s.addResult e x.part x.rec64 b w src out else s) →
    s.combProcess e x t c b w = (v.setComb e (c.setBatch { b with received := if b.received.contains (resDelivery w) then b.received else b.received ++ [resDelivery w], adds := b.adds ++ (List.range (v.fab.nextAccess - s.fab.nextAccess)).map (· + s.fab.nextAccess) })).fenceAction x.part w (engRank e) (engSource e) false) ∧
  (∀ (s : State) e x t c b w, badResult x.rec64 b w = true → s.combProcess e x t c b w =
    (s.setComb e (c.setBatch { b with received := if b.received.contains (resDelivery w) || b.nDel ≤ resDelivery w then b.received else b.received ++ [resDelivery w], abandoned := true })).reject x.part x.station t w.queue w .badResult (engRank e)) ∧
  (∀ (s : State) r b w src out, fld r 1 4 0 = 0x09 → s.resultWords r b w src out = (b.entries.filter (fun m => m.delivery == resDelivery w && decide (m.row < w.rows))).flatMap (fun m =>
    (List.range (fldB r 2 2)).map (fun j => (out + m.token * fldB r 4 2 + 4 * j, fp32.code ((fp32.decode m.weight).mul (fp32.decode (ofBytes (s.keyRead (src + m.row * w.rowPitch + j * 4) 4)))))))) ∧
  (∀ u e x t b l s, e = 0x4000 + u → s.combStation e = some (x, t) → takeFirst (fun (b : CombBatch) => b.complete && s.accessesDone (b.zero ++ b.adds)) (s.comb e).batches = some (b, l) → x.start = none →
    ∃ v, v = (((s.setComb e { s.comb e with batches := l }).setEngine e { x with start := some { part := x.part, station := x.station, inputs := [(0, b.map)], emits := [b.output x.rec64].filter (fun w => (w.malformed s x.part).isNone), direct := [], ended := true, heldFull := false, heldOrder := false, begun := s.now, faulted := false } }).setStation x.part x.station { t with starts := t.starts ++ [e] }) ∧
      exec (.combineCommit u) s = .next (v.tryCommit e)) ∧
  (∀ (s : State) e w, s.combReport e 0 w = s.setComb e { s.comb e with closed := ((s.comb e).closed ++ [mapBatch w]).drop ((s.comb e).closed.length + 1 - 64), held := (s.comb e).held.filter (fun y => resBatch y != mapBatch w), early := (s.comb e).early.filter (fun y => y.1 != mapBatch w) }) ∧
  (∀ (s : State) e b w, (s.comb e).batches.find? (fun b => b.batch == resBatch w) = some b → s.combReport e 1 w = s.setComb e ((s.comb e).setBatch (b.receive (resDelivery w) true))) ∧
  (∀ (s : State) e w, (s.comb e).batches.find? (fun b => b.batch == resBatch w) = none → (s.comb e).closed.contains (resBatch w) = false →
    s.combReport e 1 w = s.setComb e { s.comb e with early := (s.comb e).early ++ [(resBatch w, resDelivery w)] }) ∧
  (∀ car e x st t k dst es n first s, e = 0x2000 + car → s.unitStart e = some (x, st, t) → t.kind = 6 → st.ended = false → s.blockRuns (car / 4) = true → s.ctxLive x.part st.wb.context = true →
    (car % 4 ≠ 3 ∨ s.stn.queues.any (fun q => q.2.refill != 0 && (q.2.placed.bind (fun a => s.phys q.2.part a.1)) == some (car / 4)) = false) →
    st.wb.kind = 0 → (st.wb.format = 0x0B ∨ st.wb.format = 0x0A) → s.keyOf x.part st.wb.tileBlock (st.wb.tileOff * 64) = some k →
    s.keyOf x.part (placeAt x.rec64 20).blk (placeAt x.rec64 20).off = some dst → es = s.gatherEntries k st.wb (fldB x.rec64 16 4) →
    (∀ g, st.gather = some g → exec (.gatherStart car) s = .next (s.gatherRun e x st g es dst)) ∧
    (st.gather = none → n = (chunks (fldB x.rec64 34 2) (st.wb.rows * st.wb.cols) (fetched es)).length → first = Tab.getD s.unit.outs (stnKey x.part x.station) 0 + s.outsTaken t →
      (16 < n ∨ fldB x.rec64 28 1 < n → exec (.gatherStart car) s = .next (s.rejectStart e x st t .slotOverflow)) ∧
      (n ≤ 16 → n ≤ fldB x.rec64 28 1 → s.slotFree e (bit x.rec64 38 0) (fldB x.rec64 40 2) (first + n - 1) (fldB x.rec64 28 1) = true → (∀ y, y ∈ es → y ≠ GItem.out) →
        exec (.gatherStart car) s = .next (((s.dropTxns e).readLines (.carrier car) x.part ((List.range st.wb.rows).flatMap (fun i => linesOf (k + i * st.wb.rowPitch) (packedRow st.wb.format st.wb.cols)))).gatherRun e x st { first := first, tiles := n, copied := 0 } es dst)))) ∧
  (∀ (s : State) e x st g es dst ref y v, ref = ({ id := e, block := engNum e / 4, part := x.part, ctx := st.wb.context } : EngRef) →
    y = s.gatherItems ref x.rec64 dst g.first g.copied ((fetched es).drop g.copied) → v = (s.writeBytes (.carrier (engNum e)) x.part y.1).noteReads ref y.2.1 →
    (∀ z, y.2.2.2 = some z → s.gatherRun e x st g es dst = (v.setEngine e { x with start := some { st with gather := some { g with copied := y.2.2.1 } } }).engStop ref z) ∧
    (y.2.2.2 = none → s.gatherRun e x st g es dst = State.setEngine { v with unit := { v.unit with outs := Tab.put v.unit.outs (stnKey x.part x.station) (Tab.getD v.unit.outs (stnKey x.part x.station) 0 + g.tiles) } } e
      { x with start := some { st with emits := s.wellFormedEmits x.part (gatherEmits x.rec64 g.first st.wb (chunks (fldB x.rec64 34 2) (st.wb.rows * st.wb.cols) (fetched es))), gather := some { g with copied := y.2.2.1 }, ended := true } })) ∧
  (∀ car e x st t s, e = 0x2000 + car → s.unitStart e = some (x, st, t) → t.kind = 6 → st.ended = true → st.heldFull = false → st.heldOrder = false → st.faulted = false →
    (s.engBusy e = true ∨ s.storesPending e = true → exec (.gatherCommit car) s = .next s) ∧
    (s.engBusy e = false → s.storesPending e = false → (t.ordered = true → t.starts.head? = some e) → s.canCommit s.stn.held (st.items t) = true →
      exec (.gatherCommit car) s = .next (s.performCommit e x { st with heldOrder := false } t))) ∧
  (∀ (s : State) k w nItems i v, i < w.rows * w.cols → v = ofBytes (s.keyRead (k + i / w.cols * w.rowPitch + i % w.cols * 4) 4) →
    (s.gatherEntries k w nItems)[i]? = some (if v = 0xFFFFFFFF then .skip else if w.format = 0x0A ∧ 2 ^ 31 ≤ v then .out else if nItems ≤ w.arg % 2 ^ 32 + v then .out else .fetch (w.arg % 2 ^ 32 + v) i)) ∧
  (∀ (s : State) g va n d, s.engXlate g va false = some (.dram d) → s.pageHeld d = false → s.engPiece g va n = if s.poisoned d = true then .error (.poison va) else .ok (s.dramL d n)) ∧
  (∀ (s : State) g va n, s.engXlate g va false = none → s.engPiece g va n = .error (.miss va false))

/-- What the collective commands do (R390-R403, R409): groups, a start with its error feedback a segment at a time, sending, receiving, adding
or storing segments, and the commit. What the pace commands do (R405-R408): a window of 100 µs counts the blocks' cycles against their
planned ones; eleven slow windows in a row give a notice, again after 10 ms, ten good ones take it back. -/
def Obligations.CollectivesAndPace : Prop :=
  (∀ m (r : BitVec 128) x s, Served s m 3 (fld r.toNat 0 5 0) → s.part? (fld r.toNat 0 5 0) = some x → x.destroying = none → s.portPresent (fld r.toNat 11 3 0) = true → s.sys.variantT = true → fld r.toNat 11 3 0 ≤ 11 →
    rsvdSet r.toNat (maskOf collectiveGroupMask) = false → reservedPart (fld r.toNat 10 5 0) = false → 2 ≤ fldB r.toNat 2 2 → fldB r.toNat 2 2 ≤ 32768 → fldB r.toNat 4 2 < fldB r.toNat 2 2 →
    (∀ g, s.group? (fld r.toNat 0 5 0) (fldB r.toNat 1 1) = some g → g.gen ≠ fldB r.toNat 12 1) → Tab.getD x.portShare (fld r.toNat 11 3 0) 0 ≠ 0 → s.link.colls = [] →
    exec (.collectiveGroup m r) s = .next (State.served ((wroteTable { s with link := { s.link with groups := Tab.put s.link.groups (groupKey (fld r.toNat 0 5 0) (fldB r.toNat 1 1)) { members := fldB r.toNat 2 2, rank := fldB r.toNat 4 2, nextNode := fldB r.toNat 6 2, prevNode := fldB r.toNat 8 2, nextPart := fld r.toNat 10 5 0, port := fld r.toNat 11 3 0, gen := fldB r.toNat 12 1 } } }).answerMsg m (.ok 0)) 3 (fld r.toNat 0 5 0))) ∧
  (∀ m (r : BitVec 64) s, Served s m 0 0 → s.livePart (fldB r.toNat 0 1) = true → rsvdSet r.toNat (maskOf [(0, 7, 0), (1, 7, 0), (2, 15, 0)]) = false →
    exec (.memberLost m r) s = .next ((wroteTable ((s.memberLost (fldB r.toNat 0 1) (fldB r.toNat 1 1)).loseOldPeer (fldB r.toNat 0 1) (fldB r.toNat 2 2))).answerMsg m (.ok 0))) ∧
  (∀ n x st t g s, s.unitStart (0x5000 + n) = some (x, st, t) → t.kind = 8 → st.ended = false → s.coll? n = none → s.ctxLive x.part st.wb.context = true → st.wb.kind = 2 →
    s.group? x.part (fldB x.rec64 2 1) = some g →
    exec (.collectiveStart n) s = .next (((s.dropTxns (0x5000 + n)).dropStale n).setColl n { seq := st.wb.arg % 2 ^ 32, group := fldB x.rec64 2 1, gen := g.gen, sendStep := 0, sendSeg := 0, ready := [], fed := if bit x.rec64 1 5 = true ∧ fld x.rec64 0 1 0 ≠ 2 then 0 else fldB x.rec64 24 4 })) ∧
  (∀ n x st t g c s, s.unitStart (0x5000 + n) = some (x, st, t) → t.kind = 8 → st.ended = false → s.coll? n = some c → s.ctxLive x.part st.wb.context = true → st.wb.kind = 2 → s.group? x.part (fldB x.rec64 2 1) = some g → c.fed < fldB x.rec64 24 4 →
    (∀ v, s.feedback (s.collRef (0x5000 + n) x t st.wb) x.rec64 c.fed = .ok v → exec (.collectiveStart n) s = .next (v.setColl n { c with fed := c.fed + 16384 })) ∧
    (∀ z, s.feedback (s.collRef (0x5000 + n) x t st.wb) x.rec64 c.fed = .error z → exec (.collectiveStart n) s = .next (s.collStop n (s.collRef (0x5000 + n) x t st.wb) z))) ∧
  (∀ n x st t c g seg va ps raw wire b s, s.unitStart (0x5000 + n) = some (x, st, t) → s.coll? n = some c → s.group? x.part c.group = some g → g.gen = c.gen → segCount (fldB x.rec64 24 4) g.members ≠ 0 → c.sendStep < collSteps (fld x.rec64 0 1 0) g.members →
    s.collBusy n = false → (s.port n).carries = true → s.ctxLive x.part st.wb.context = true → fldB x.rec64 24 4 ≤ c.fed → (c.sendStep ≠ 0 → c.ready.contains ((c.sendStep - 1) * 2 ^ 24 + c.sendSeg) = true) →
    (bit x.rec64 1 5 = true → collPart (fld x.rec64 0 1 0) g.members c.sendStep ≠ (false, 0)) →
    seg = segElems (fldB x.rec64 24 4) g.members (sendChunk (fld x.rec64 0 1 0) g.members g.rank c.sendStep) c.sendSeg → va = fldB x.rec64 8 6 + seg.1 * collElem x.rec64 →
    ps = piecesOf va (seg.2 * collElem x.rec64) → b = s.collRef (0x5000 + n) x t st.wb → s.engReads b ps = .ok raw → wire = (if bit x.rec64 1 5 = true then compress (words32 raw.length raw) else raw) →
    exec (.collectiveSegmentSend n) s = .next (((s.noteReads b ps).sendMsg n x.part 2 g.nextNode (txnBytes 0x10 g.nextPart c.sendSeg 0 0 c.group (g.gen * 2 ^ 56 + c.sendStep % 65536 * 2 ^ 40 + c.seq) 0 wire.length wire)).setColl n
      (if segCount (fldB x.rec64 24 4) g.members ≤ c.sendSeg + 1 then { c with sendStep := c.sendStep + 1, sendSeg := 0 } else { c with sendSeg := c.sendSeg + 1 }))) ∧
  (∀ n m px h s, (s.port n).take 0x10 = some (m, px) → h = ofBytes (m.bytes.take 32) →
    (∀ g, s.group? (fld h 1 5 0) (fld h 12 7 0) = some g → g.gen = fldB h 16 8 / 2 ^ 56 → (Tab.getD s.link.arrivals n []).length < 64 →
      exec (.coll n) s = .next { s.setPort n px with link := { (s.setPort n px).link with arrivals := Tab.put (s.setPort n px).link.arrivals n (Tab.getD s.link.arrivals n [] ++ [{ src := m.src, part := fld h 1 5 0, group := fld h 12 7 0, gen := fldB h 16 8 / 2 ^ 56, step := fldB h 16 8 / 2 ^ 40 % 65536, seq := fldB h 16 8 % 2 ^ 32, index := fldB h 2 2, bytes := m.bytes.drop 32 }]) } }) ∧
    (s.group? (fld h 1 5 0) (fld h 12 7 0) = none → exec (.coll n) s = .next { s.setPort n px with link := { (s.setPort n px).link with dropped := (s.setPort n px).link.dropped + 1 } })) ∧
  (∀ n m px g h s, (s.port n).take 0x10 = some (m, px) → h = ofBytes (m.bytes.take 32) → s.group? (fld h 1 5 0) (fld h 12 7 0) = some g → g.gen = fldB h 16 8 / 2 ^ 56 → s.coll? n = none →
    64 ≤ (Tab.getD s.link.arrivals n []).length → exec (.coll n) s = .next s) ∧
  (∀ n x st t c g a l seg ps va b s0 s, s.unitStart (0x5000 + n) = some (x, st, t) → s.coll? n = some c → s.ctxLive x.part st.wb.context = true → fldB x.rec64 24 4 ≤ c.fed → s.group? x.part c.group = some g →
    takeFirst (fun a => a.part == x.part && a.group == c.group && a.gen == c.gen && a.seq == c.seq) (Tab.getD s.link.arrivals n []) = some (a, l) →
    a.step < collSteps (fld x.rec64 0 1 0) g.members → a.index < segCount (fldB x.rec64 24 4) g.members → c.ready.contains (a.step * 2 ^ 24 + a.index) = false → a.src = g.prevNode →
    seg = segElems (fldB x.rec64 24 4) g.members (recvChunk (fld x.rec64 0 1 0) g.members g.rank a.step) a.index → bit x.rec64 1 5 = false → a.bytes.length = seg.2 * collElem x.rec64 →
    va = fldB x.rec64 8 6 + seg.1 * collElem x.rec64 → ps = piecesOf va (seg.2 * collElem x.rec64) → b = s.collRef (0x5000 + n) x t st.wb →
    s0 = ({ s with link := { s.link with arrivals := Tab.put s.link.arrivals n l } } : State) →
    (∀ v, (collPart (fld x.rec64 0 1 0) g.members a.step).1 = false → s0.engWrite b va a.bytes = .ok v →
      exec (.collectiveSegmentReady n) s = .next (v.setColl n { c with ready := c.ready ++ [a.step * 2 ^ 24 + a.index] })) ∧
    (∀ v old, (collPart (fld x.rec64 0 1 0) g.members a.step).1 = true → s.engReads b ps = .ok old → s0.engWrite b va (addSeg x.rec64 old a.bytes) = .ok v →
      exec (.collectiveSegmentReady n) s = .next ((v.noteReads b ps).setColl n { c with ready := c.ready ++ [a.step * 2 ^ 24 + a.index] }))) ∧
  (∀ n x st t c g s, s.unitStart (0x5000 + n) = some (x, st, t) → st.ended = false → s.coll? n = some c → s.group? x.part c.group = some g → s.ctxLive x.part st.wb.context = true → s.engBusy (0x5000 + n) = false → fldB x.rec64 24 4 ≤ c.fed →
    collSteps (fld x.rec64 0 1 0) g.members ≤ c.sendStep →
    collSteps (fld x.rec64 0 1 0) g.members * segCount (fldB x.rec64 24 4) g.members ≤ c.ready.length → s.collBusy n = false → fld x.rec64 0 1 0 ≠ 1 →
    exec (.collectiveCommit n) s = .next (((s.delColl n).setEngine (0x5000 + n) { x with start := some { st with ended := true, emits := [{ kind := 2, context := st.wb.context, requestId := st.wb.requestId, arg := st.wb.arg, last := st.wb.last }] } }).unitCommit (0x5000 + n))) ∧
  (∀ n x st t s, s.unitStart (0x5000 + n) = some (x, st, t) → st.ended = true → exec (.collectiveCommit n) s = .next ((s.delColl n).unitCommit (0x5000 + n))) ∧
  (∀ p s, s.now < (Tab.getD s.link.pace p {}).start + 100 → exec (.paceWindow p) s = .next s) ∧
  (∀ p n planned x s, x = Tab.getD s.link.pace p {} → x.start + 100 ≤ s.now → s.paceCounts p x = (n, planned) →
    (planned = 0 → exec (.paceWindow p) s = .next { s with link := { s.link with pace := Tab.put s.link.pace p { x with seen := s.paceSeen p, start := s.now } } }) ∧
    (n * 10 < planned * 9 → (x.noticed = false ∨ x.lastNotice + 10000 ≤ s.now) → 10 ≤ x.low →
      exec (.paceWindow p) s = .next (State.emitOut { s with link := { s.link with pace := Tab.put s.link.pace p { low := x.low + 1, high := 0, noticed := true, lastNotice := s.now, seen := s.paceSeen p, start := s.now } } } (.msg .fabricManager 0x0303 [p, 0, n * 1024 / planned, s.now]))) ∧
    (n * 10 < planned * 9 → x.low < 10 → exec (.paceWindow p) s = .next { s with link := { s.link with pace := Tab.put s.link.pace p { x with low := x.low + 1, high := 0, seen := s.paceSeen p, start := s.now } } }) ∧
    (n * 10 < planned * 9 → x.noticed = true → s.now < x.lastNotice + 10000 → exec (.paceWindow p) s = .next { s with link := { s.link with pace := Tab.put s.link.pace p { x with low := x.low + 1, high := 0, seen := s.paceSeen p, start := s.now } } }) ∧
    (planned ≠ 0 → planned * 9 ≤ n * 10 → n * 100 < planned * 95 → exec (.paceWindow p) s = .next { s with link := { s.link with pace := Tab.put s.link.pace p { x with low := 0, high := 0, seen := s.paceSeen p, start := s.now } } }) ∧
    (planned ≠ 0 → planned * 95 ≤ n * 100 → x.noticed = true → 9 ≤ x.high → exec (.paceWindow p) s = .next (State.emitOut { s with link := { s.link with pace := Tab.put s.link.pace p { low := 0, high := x.high + 1, noticed := false, lastNotice := x.lastNotice, seen := s.paceSeen p, start := s.now } } } (.msg .fabricManager 0x0303 [p, 1, n * 1024 / planned, s.now])))) ∧
  (∀ p b c x (s : State), s.partBlocks p = [b] → Tab.find x.seen b = some c → s.paceCounts p x = (((s.block b).cycles + 2 ^ 64 - c) % 2 ^ 64, (s.block b).plannedMhz * (s.now - x.start))) ∧
  (∀ m (r : BitVec 64) s, Served s m 0 0 → s.livePart (fldB r.toNat 0 1) = true → rsvdSet r.toNat (maskOf [(0, 7, 0), (1, 0, 0), (2, 15, 0), (4, 15, 0)]) = false →
    exec (.paceRelay m r) s = .next ((wroteTable (s.event 0x0013 (fldB r.toNat 0 1) 0 false 0 0xFFFF (plcB 0 2 (fldB r.toNat 4 2) ||| plcB 2 2 (fldB r.toNat 2 2) ||| plcF 4 0 (bit r.toNat 1 0)))).answerMsg m (.ok 0))) ∧
  (∀ m (r : BitVec 64) s, Served s m 0 0 → s.livePart (fldB r.toNat 0 1) = true → rsvdSet r.toNat (maskOf [(0, 7, 0), (2, 15, 0)]) = false → (fldB r.toNat 2 2 = 0 ∨ 400 ≤ fldB r.toNat 2 2 ∧ fldB r.toNat 2 2 ≤ 1000) →
    exec (.paceCap m r) s = .next ((wroteTable { s with link := { s.link with paceCap := if fldB r.toNat 2 2 = 0 then Tab.del s.link.paceCap (fldB r.toNat 0 1) else Tab.put s.link.paceCap (fldB r.toNat 0 1) (fldB r.toNat 2 2 / 25 * 25) } }).answerMsg m (.ok 0)))

/-- In every step a member receives the chunk that the member before it sends, and sends next what it has just received (R395). -/
def Obligations.RingSchedule : Prop :=
  ∀ op n r step, 2 ≤ n → r < n → op ≤ 2 → step < collSteps op n →
    recvChunk op n r step = sendChunk op n ((r + n - 1) % n) step ∧ sendChunk op n r step < n ∧
    (step + 1 < collSteps op n → sendChunk op n r (step + 1) = recvChunk op n r step)

/-- What the training, sparing and quarantine commands of a port do (R364-R372, R385-R388): a training failure, a lane loss and a partner loss
are the model's operations of those names. -/
def Obligations.PortStates : Prop :=
  (∀ m (r : BitVec 64) s, Served s m 3 0 → rsvdSet r.toNat (maskOf [(0, 15, 0)]) = false → fldB r.toNat 0 2 < 0x8000 → fldB r.toNat 0 2 ≠ s.sys.nodeId → s.nodeInUse = false →
    exec (.nodeAssign m r) s = .next (State.served ((wroteTable { s with sys := { s.sys with nodeId := fldB r.toNat 0 2 } }).answerMsg m (.ok 0)) 3 0)) ∧
  (∀ n s, s.portHere n = true → (s.port n).state = .down → (s.port n).retryAt ≤ s.now → s.linksTrain = true →
    exec (.portTrainRetry n) s = .next (s.setPort n { s.port n with state := .pmdTrain, retryAt := s.now + 1000000 })) ∧
  (∀ n good l s, (s.port n).state = .pmdTrain → l = (List.range 5).filter (fun i => tbit good i) →
    (4 ≤ l.length → exec (.pmdTrainDone n good) s = .next (s.setPort n { s.port n with state := .align, lanes := l.take 4, spare := if l.length = 5 then 1 else 0, trip := none })) ∧
    (l.length < 4 → exec (.pmdTrainDone n good) s = .next (s.trainFail n 1))) ∧
  (∀ n trip s, (s.port n).state = .align →
    exec (.ctrlEcho n true trip) s = .next (s.setPort n { s.port n with trip := some trip }) ∧
    exec (.ctrlEcho n false trip) s = .next (s.setPort n { s.port n with ctrl := (s.port n).ctrl ++ [ctrlBytes 0x02 [(1, 1)]] })) ∧
  (∀ n skew t y s, (s.port n).state = .align →
    (40 < skew → exec (.alignDone n skew) s = .next (s.trainFail n 2)) ∧
    (skew ≤ 40 → (s.port n).trip = some t → 1024 < cdiv (t - 116) 2 → exec (.alignDone n skew) s = .next (s.trainFail n 3)) ∧
    (skew ≤ 40 → (s.port n).trip = some t → cdiv (t - 116) 2 ≤ 1024 → y = LPort.restart { s.port n with flight := cdiv (t - 116) 2, state := .ident, slot := 0 } →
      exec (.alignDone n skew) s = .next (s.setPort n { y with ctrl := y.ctrl ++ [s.identFlit n] }))) ∧
  (∀ n kind pport node variant b0 b1 b2 b3 x s, (s.port n).state = .ident →
    x = { s.port n with partnerKind := kind, partnerPort := pport, partnerNode := node, partnerVariant := variant, partnerQuarantined := false, cycles := 0, keep := false, trip := none, bufs := [b0, b1, b2, b3] } →
    ((12 ≤ n ↔ kind = 2) → (s.port n).readmit = none → (s.port n).keep = false →
      exec (.ctrlIdent n kind pport node variant b0 b1 b2 b3) s = .next (s.setPort n { x with state := .active, credit := [b0, b1, b2, b3] })) ∧
    ((12 ≤ n ↔ kind = 2) → (s.port n).readmit = none → (s.port n).keep = true →
      exec (.ctrlIdent n kind pport node variant b0 b1 b2 b3) s = .next (s.setPort n { x with state := if s.now < (s.port n).probationEnd then .probation else .active })) ∧
    (∀ m, (12 ≤ n ↔ kind = 2) → (s.port n).readmit = some m → (s.port n).keep = false →
      exec (.ctrlIdent n kind pport node variant b0 b1 b2 b3) s = .next ((s.setPort n { x with state := .probation, probationEnd := s.now + 10000000, readmit := none, credit := [b0, b1, b2, b3] }).answerMsg m (.ok 0))) ∧
    (¬ (12 ≤ n ↔ kind = 2) → exec (.ctrlIdent n kind pport node variant b0 b1 b2 b3) s = .next (s.trainFail n 4))) ∧
  (∀ m (r : BitVec 64) n s, Served s m 0 0 → rsvdSet r.toNat (maskOf [(0, 7, 0)]) = false → n = fldB r.toNat 0 1 → n ≤ 13 → s.portHere n = true → (s.port n).state = .quarantined → (s.port n).noReadmit ≤ s.now →
    exec (.portReadmit m r) s = .next (wroteTable (s.setPort n { s.port n with state := .align, keep := false, readmit := some m, trip := none, vioCount := 0 }))) ∧
  (∀ n s, (s.port n).state = .probation → (s.port n).probationEnd ≤ s.now → exec (.probationEnd n) s = .next (s.setPort n { s.port n with state := .active })) ∧
  (∀ n lane unc sym lost s, (4 ≤ unc ∨ s.zh 80 < sym ∨ lost = true) → (s.port n).up = true → (s.port n).lanes.contains lane = true →
    ((s.port n).spare = 1 → (s.port n).swap = none → lane ≠ 4 → exec (.laneFault n lane unc sym lost) s = .next (s.setPort n { s.port n with swap := some { position := (s.port n).lanes.idxOf lane, txAt := ((s.port n).cw + 64) % 65536, rxAt := none }, ctrl := (s.port n).ctrl ++ [ctrlBytes 0x03 [(1, (s.port n).lanes.idxOf lane), (2, ((s.port n).cw + 64) % 65536)]] })) ∧
    ((s.port n).spare ≠ 1 → (s.port n).state ≠ .doze → exec (.laneFault n lane unc sym lost) s = .next ((s.portDown n).devFault 3 n)) ∧
    ((s.port n).spare ≠ 1 → (s.port n).state = .doze → exec (.laneFault n lane unc sym lost) s = .next (s.portDown n))) ∧
  (∀ n pos at' s, (s.port n).up = true →
    ((s.port n).swap = none → (s.port n).spare = 1 → exec (.ctrlSpareReq n pos at') s = .next (s.setPort n { s.port n with swap := some { position := pos, txAt := ((s.port n).cw + 64) % 65536, rxAt := some at' }, ctrl := (s.port n).ctrl ++ [ctrlBytes 0x04 [(2, ((s.port n).cw + 64) % 65536)]] })) ∧
    (∀ w, (s.port n).swap = some w → w.position ≠ pos → exec (.ctrlSpareReq n pos at') s = .next (s.laneLost n))) ∧
  (∀ n at' w s, (s.port n).swap = some w → exec (.ctrlSpareAck n at') s = .next (s.setPort n { s.port n with swap := some { w with rxAt := some at' } })) ∧
  (∀ n w a s, (s.port n).swap = some w → w.rxAt = some a → ((s.port n).cw + 65536 - w.txAt) % 65536 < 32768 →
    exec (.spareSwap n) s = .next ((s.setPort n { s.port n with swap := none, spare := 3, lanes := lset (s.port n).lanes w.position 4 }).linkEvent 0x0101 n w.position)) ∧
  (∀ n s, (s.port n).up = true → (s.port n).state ≠ .doze → exec (.partnerLoss n) s = .next ((s.portDown n).linkEvent 0x0103 n 0) ∧ exec (.ctrlLinkDown n) s = .next ((s.portDown n).linkEvent 0x0103 n 0)) ∧
  (∀ n s, (s.port n).state = .doze → exec (.partnerLoss n) s = .next (s.portDown n) ∧ exec (.ctrlLinkDown n) s = .next (s.portDown n)) ∧
  (∀ n code seq s, (s.port n).up = true → exec (.ctrlViolation n code seq) s = .next ((s.logFault 0x0105 0 0 (plcB 0 1 n ||| plcB 1 8 (code ||| seq <<< 32))).linkEvent 0x0105 n (code ||| seq <<< 32))) ∧
  (∀ n s, (s.port n).up = true → exec (.ctrlQuarantine n) s = .next (s.setPort n { (s.port n).dropOwed with partnerQuarantined := true, partial' := [] })) ∧
  (∀ n s, (s.port n).carries = true → s.vioLimit (s.port n) < (s.port n).vioCount → (s.port n).vioWindow = s.now / 1000000 →
    ∃ t, exec (.portQuarantined n) s = .next ((t.dropWindows n).linkEvent 0x0106 n 0) ∧ (t.port n).state = .quarantined ∧ (t.port n).partial' = [] ∧ (t.port n).ctrl = (s.port n).ctrl ++ [ctrlBytes 0x06 []] ∧
      (t.port n).tx = (s.port n).tx.filter (fun m => m.vc != 1 && m.qp.isNone) ∧ t = s.setPort n (t.port n)) ∧
  (∀ s, (s.port 12).carries = true → (s.port 12).replay = [] →
    exec (.ctrlRateChange 12) s = .next (s.setPort 12 { (s.port 12).restart with state := .doze, lanes := [0], spare := 0, trip := none, bufs := (s.port 12).bufs, credit := (s.port 12).bufs, cycles := 0 }))

/-- What a flit's arrival, replay and slot do (R373-R377): a discarded flit and one out of order leave everything but the port's own flags; a
flit in order is taken once. A port's slot is filled by a replayed flit first, then a CTRL flit; a full replay buffer and an idle port send
IDLE (R374, R377). -/
def Obligations.FlitsAndSlots : Prop :=
  (∀ n (f : BitVec 2048) s, (s.port n).up = true → flitGood f.toNat = true →
    (fld f.toNat 0 15 12 = 0 → fld f.toNat 2 14 12 = 0 → fld f.toNat 4 13 12 = 0 → fld f.toNat 6 3 0 = 0 → exec (.flitReceive n f false) s = .next (s.flitHeader n f.toNat)) ∧
    (fld f.toNat 0 15 12 = 0 → (fld f.toNat 2 14 12 ≠ 0 ∨ fld f.toNat 4 13 12 ≠ 0 ∨ fld f.toNat 6 3 0 ≠ 0) → exec (.flitReceive n f false) s = .next ((s.flitHeader n f.toNat).flitViolation n .hdrRsvd (fld f.toNat 0 11 0) (fldB f.toNat 10 2))) ∧
    (2 < fld f.toNat 0 15 12 → exec (.flitReceive n f false) s = .next ((s.flitHeader n f.toNat).flitViolation n .badType (fld f.toNat 0 11 0) (fldB f.toNat 10 2))) ∧
    (fld f.toNat 0 15 12 = 1 → fld f.toNat 0 11 0 = ((s.flitHeader n f.toNat).port n).expected → exec (.flitReceive n f false) s = .next (State.dataFlit ((s.flitHeader n f.toNat).setPort n { (s.flitHeader n f.toNat).port n with expected := (((s.flitHeader n f.toNat).port n).expected + 1) % 4096, naking := false, nakDue := false }) n f.toNat)) ∧
    (fld f.toNat 0 15 12 = 1 → (fld f.toNat 0 11 0 + 4096 - ((s.flitHeader n f.toNat).port n).expected) % 4096 ≥ 2048 → exec (.flitReceive n f false) s = .next (s.flitHeader n f.toNat))) ∧
  (∀ n (f : BitVec 2048) unc s, (s.port n).up = true → (unc = true ∨ flitGood f.toNat = false) → (s.port n).naking = false →
    exec (.flitReceive n f unc) s = .next (s.setPort n { s.port n with naking := true, nakDue := true, lastBad := (s.port n).expected })) ∧
  (∀ n a s, (s.port n).nak = some a → ∃ l, exec (.flitNak n) s = .next (s.setPort n { s.port n with nak := none, resend := l, failSeq := (a + 1) % 4096, fails := if (s.port n).failSeq = (a + 1) % 4096 ∧ 0 < (s.port n).fails then (s.port n).fails + 1 else 1 }) ∧
    l = ((List.range (min (((s.port n).nextSeq + 4096 - (a + 1) % 4096) % 4096) 1024)).map (fun i => ((a + 1) % 4096 + i) % 4096)).filter (fun q => Tab.has (s.port n).replay q)) ∧
  (∀ n s, 9 ≤ (s.port n).fails → (s.port n).carries = true → exec (.flitReplayRetrain n) s = .next (s.setPort n { s.port n with state := .align, keep := true, trip := none, fails := 0 })) ∧
  (∀ n s, (s.port n).up = true → exec (.flitSlot n) s = .next (((s.groupTags n).fillSlot n).setPort n { ((s.groupTags n).fillSlot n).port n with slot := (((s.groupTags n).fillSlot n).port n).slot + 1 }) ∧
    ((s.port n).slot % 10 = 0 → (s.port n).state ≠ .doze → s.groupTags n = s.emitOut (.group n ((List.range 5).map (fun i => (s.port n).laneTag (s.port n).cw i)))) ∧
    ((s.port n).slot % 10 ≠ 0 → s.groupTags n = s)) ∧
  (∀ n (s : State),
    (∀ q l, (s.port n).resend = q :: l → s.fillSlot n = (s.setPort n { s.port n with resend := l }).putFlit n (Tab.getD (s.port n).replay q (flitBase 0 0 0 false false 0 0 []))) ∧
    ((s.port n).resend = [] → 1024 ≤ (s.port n).replay.length → s.fillSlot n = s.putFlit n (flitBase 0 0 0 false false 0 0 [])) ∧
    (∀ c l, (s.port n).resend = [] → (s.port n).replay.length < 1024 → (s.port n).ctrl = c :: l → s.fillSlot n = (s.setPort n { s.port n with ctrl := l }).newFlit n 2 0 true true 0xFFFF c) ∧
    ((s.port n).resend = [] → (s.port n).replay.length < 1024 → (s.port n).ctrl = [] → (s.port n).sendsData = false → s.fillSlot n = s.putFlit n (flitBase 0 0 0 false false 0 0 [])))

/-- What the transactions of a port do (R355, R380). The message is the oldest of its virtual channel, and leaves its buffer. -/
def Obligations.Transactions : Prop :=
  (∀ n m px h q x y w data s, (s.port n).take 0x01 = some (m, px) → s.arrivalWaits n 0x01 = false → h = ofBytes (m.bytes.take 32) → q = fld h 12 19 0 → Tab.find s.part.qpairs q = some x → x.recv = true → x.port = n → x.part = fld h 1 5 0 →
    w = Waybill.ofNat (ofBytes ((m.bytes.drop 32).take 64)) → data = m.bytes.drop 96 → data = [] → w.kind = 1 → s.queue? x.localQ = some y → s.queueFull x.localQ = false →
    exec (.qpSend n) s = .next (State.sendMsg ((State.setQpair (s.setPort n px) q { x with count := x.count + 1 }).enqueueNow x.localQ y { w with resetGen := s.genOf x.part, context := x.context, srcStation := 0xFFFF, rejectCode := 0, fenceId := 0, fenceOp := 0, fenceDelta := 0 })
      n x.part 1 m.src (txnBytes 0x02 x.peerPart (fldB h 2 2) 0 0 q (x.count + 1) 0 0 []))) ∧
  (∀ n m px h q x y w data blk line b o1 o2 s, (s.port n).take 0x01 = some (m, px) → s.arrivalWaits n 0x01 = false → h = ofBytes (m.bytes.take 32) → q = fld h 12 19 0 → Tab.find s.part.qpairs q = some x → x.recv = true → x.port = n → x.part = fld h 1 5 0 →
    w = Waybill.ofNat (ofBytes ((m.bytes.drop 32).take 64)) → data = m.bytes.drop 96 → data.length = w.tileBytes + w.scaleBytes + w.metaBytes → w.kind = 0 → o1 = roundUp w.tileBytes 64 → o2 = o1 + roundUp w.scaleBytes 64 → o2 + w.metaBytes ≤ x.landingBytes →
    s.queue? x.localQ = some y → s.queueFull x.localQ = false → blk = fld x.landingAddr 0 24 19 → line = fld x.landingAddr 0 18 0 + x.count % x.slots * (x.landingBytes / 64) → s.phys x.part blk = some b →
    exec (.qpSend n) s = .next (State.sendMsg ((State.setQpair ((((s.setPort n px).sliceWrite b (line * 64) (data.take w.tileBytes)).sliceWrite b (line * 64 + o1) ((data.drop w.tileBytes).take w.scaleBytes)).sliceWrite b (line * 64 + o2) (data.drop (w.tileBytes + w.scaleBytes))) q { x with count := x.count + 1 }).enqueueNow x.localQ y
      { w with resetGen := s.genOf x.part, context := x.context, srcStation := 0xFFFF, rejectCode := 0, fenceId := 0, fenceOp := 0, fenceDelta := 0, tileBlock := blk, tileOff := line, scaleBlock := if w.scaleBytes = 0 then 0 else blk, scaleOff := if w.scaleBytes = 0 then 0 else line + o1 / 64, metaBlock := if w.metaBytes = 0 then 0 else blk, metaOff := if w.metaBytes = 0 then 0 else line + o2 / 64 })
      n x.part 1 m.src (txnBytes 0x02 x.peerPart (fldB h 2 2) 0 0 q (x.count + 1) 0 0 []))) ∧
  (∀ n m px h q x y w data stn t s, (s.port n).take 0x01 = some (m, px) → s.arrivalWaits n 0x01 = false → h = ofBytes (m.bytes.take 32) → q = fld h 12 19 0 → Tab.find s.part.qpairs q = some x → x.recv = true → x.port = n → x.part = fld h 1 5 0 →
    w = Waybill.ofNat (ofBytes ((m.bytes.drop 32).take 64)) → data = m.bytes.drop 96 → data.length = w.tileBytes + w.scaleBytes + w.metaBytes → x.landingBytes < roundUp w.tileBytes 64 + roundUp w.scaleBytes 64 + w.metaBytes →
    s.queue? x.localQ = some y → stn = consumerStation y.consumer → s.station? x.part stn = some t →
    exec (.qpSend n) s = .next (State.sendMsg ((State.setQpair (s.setPort n px) q { x with count := x.count + 1 }).reject x.part stn t x.localQ { w with resetGen := s.genOf x.part, context := x.context, srcStation := 0xFFFF, rejectCode := 0, fenceId := 0, fenceOp := 0, fenceDelta := 0 } .slotOverflow (rankPort n))
      n x.part 1 m.src (txnBytes 0x02 x.peerPart (fldB h 2 2) 0 0 q (x.count + 1) 0 0 []))) ∧
  (∀ n s, s.arrivalWaits n 0x01 = true → exec (.qpSend n) s = .next s) ∧
  (∀ n m px o l q e u rest s, (s.port n).take 0x02 = some (m, px) → takeFirst (fun o => o.tag == fldB (ofBytes (m.bytes.take 32)) 2 2) px.outstanding = some (o, l) → o.use = .qpSend q → Tab.find s.part.qpairs q = some e →
    takeFirst (fun u => u.1 == o.tag) e.unacked = some (u, rest) →
    exec (.qpAck n) s = .next (State.fenceAction (State.setQpair ((s.setPort n px).setPort n { px with outstanding := l }) q { e with unacked := rest }) e.part u.2.1 (rankPort n) (srcCode 6 n) u.2.1.abandoned)) ∧
  (∀ n m px h s, (s.port n).take 0x03 = some (m, px) → h = ofBytes (m.bytes.take 32) → ∃ t, exec (.qpCredit n) s = .next t ∧
    (∀ q e, Tab.find s.part.qpairs q = some e → e.recv = false → e.port = n → e.peerNode = m.src → e.peerQueue = fld h 12 19 0 → e.returned < fldB h 16 8 →
      Tab.find t.part.qpairs q = some { e with credits := e.credits + (fldB h 16 8 - e.returned), returned := fldB h 16 8 }) ∧
    t = { s.setPort n px with part := { s.part with qpairs := t.part.qpairs } }) ∧
  (∀ q x s, Tab.find s.part.qpairs q = some x → x.recv = true → x.returned < x.count → fenceReaches (s.fenceWord x.landingFence) (x.f0 + x.returned + 1) = true → x.closing = none →
    exec (.landingFenceCredit q) s = .next ((s.setQpair q { x with returned := x.returned + 1 }).sendMsg x.port x.part 1 x.peerNode (txnBytes 0x03 x.peerPart 0 0 0 q (x.returned + 1) 0 0 []))) ∧
  (∀ n m px q s, s.portFrozen n = false → (s.port n).take 0x04 = some (m, px) → q = winReq (ofBytes (m.bytes.take 32)) m.src 0 (fld (ofBytes (m.bytes.take 32)) 4 23 0) →
    (∀ l, (s.setPort n px).ingress q = .ok l → l ≠ [] →
      exec (.winRead n) s = .next ((s.setPort n px).admitWin n (fldB (ofBytes (m.bytes.take 32)) 2 2) m.src q l [] none)) ∧
    (∀ c, (s.setPort n px).ingress q = .error c → exec (.winRead n) s = .next ((s.setPort n px).winRefused n q (fldB (ofBytes (m.bytes.take 32)) 2 2) c))) ∧
  (∀ n m px q s, s.portFrozen n = false → s.arrivalWaits n 0x05 = false → (s.port n).take 0x05 = some (m, px) → q = winReq (ofBytes (m.bytes.take 32)) m.src 1 (fld (ofBytes (m.bytes.take 32)) 4 23 0) →
    (∀ l, (s.setPort n px).ingress q = .ok l → l ≠ [] →
      exec (.winWrite n) s = .next ((s.setPort n px).admitWin n (fldB (ofBytes (m.bytes.take 32)) 2 2) m.src q l (m.bytes.drop 32) none)) ∧
    (∀ c, (s.setPort n px).ingress q = .error c → exec (.winWrite n) s = .next ((s.setPort n px).winRefused n q (fldB (ofBytes (m.bytes.take 32)) 2 2) c))) ∧
  (∀ n m px h body sub q l s, s.portFrozen n = false → s.arrivalWaits n 0x06 = false → (s.port n).take 0x06 = some (m, px) → h = ofBytes (m.bytes.take 32) → body = ofBytes (m.bytes.drop 32) → winAtomic (fldB body 0 1) = some sub →
    (body >>> 8) % 2 ^ 56 = 0 → q = winReq h m.src 2 (atomicBytes sub) →
    ((s.setPort n px).ingress q = .ok l → l ≠ [] → exec (.winAtomic n) s = .next ((s.setPort n px).admitWin n (fldB h 2 2) m.src q l [] (some (sub, fldB body 8 8)))) ∧
    (∀ c, (s.setPort n px).ingress q = .error c → exec (.winAtomic n) s = .next ((s.setPort n px).winRefused n q (fldB h 2 2) c))) ∧
  (∀ n q tag (c : Code) (s : State), c.counts = false → s.winRefused n q tag c = s.respond n q.part q.node tag c.link []) ∧
  (∀ k line data (o : WinOp) (s : State), Tab.find s.xlt.winOps k = some o → 1 < o.left → o.kind = 0 →
    s.winLine k line (some data) = { s with xlt := { s.xlt with winOps := Tab.put s.xlt.winOps k { o with got := Memory.writeL o.got (line * 64) data, left := o.left - 1 } } }) ∧
  (∀ k line data (o : WinOp) x (s : State), Tab.find s.xlt.winOps k = some o → o.left = 1 → o.kind = 0 → o.bad = [] →
    x = { s.xlt with winOps := Tab.del s.xlt.winOps k, windows := Tab.upd s.xlt.windows o.window (fun w => { w with inFlight := w.inFlight - 1 }) } →
    s.winLine k line (some data) = State.respond { s with xlt := x } o.port o.part o.node o.tag 0 (o.dpas.map (Memory.read (Memory.writeL o.got (line * 64) data)))) ∧
  (∀ k line (o : WinOp) x (s : State), Tab.find s.xlt.winOps k = some o → o.left = 1 → o.kind = 1 → o.bad = [] →
    x = { s.xlt with winOps := Tab.del s.xlt.winOps k, windows := Tab.upd s.xlt.windows o.window (fun w => { w with inFlight := w.inFlight - 1 }) } →
    s.winLine k line (some []) = State.respond { s with xlt := x } o.port o.part o.node o.tag 0 []) ∧
  (∀ n m px o l key s, (s.port n).take 0x07 = some (m, px) → takeFirst (fun o => o.tag == fldB (ofBytes (m.bytes.take 32)) 2 2) px.outstanding = some (o, l) → o.gen = s.genOf o.part → o.use = .hostRead (some key) →
    exec (.rsp n) s = .next { (s.setPort n px).setPort n { px with outstanding := l } with fab := { s.fab with slices := Memory.writeL s.fab.slices key (m.bytes.drop 32) } }) ∧
  (∀ n m px o l e va k s, (s.port n).take 0x07 = some (m, px) → takeFirst (fun o => o.tag == fldB (ofBytes (m.bytes.take 32)) 2 2) px.outstanding = some (o, l) → o.gen = s.genOf o.part → o.use = .window e va k →
    exec (.rsp n) s = .next (((s.setPort n px).setPort n { px with outstanding := l }).windowAnswer e o.part va k (fldB (ofBytes (m.bytes.take 32)) 8 2) (m.bytes.drop 32))) ∧
  (∀ e part va k status body (s : State), Tab.find s.dram.txns k = some (.engine e) →
    s.windowAnswer e part va k 0 body = s.endRemote e va k (some body) ∧
    (∀ c, status ≠ 0 → xcodeOf status = some c → s.windowAnswer e part va k status body = (s.endRemote e va k none).xlateFault e part ((s.endRemote e va k none).engContext e) va c) ∧
    (status ≠ 0 → xcodeOf status = none → s.windowAnswer e part va k status body = (s.endRemote e va k none).programFault e .linkUnavailable 0xFFFF va)) ∧  (∀ n part addr len dst s, 12 ≤ n → (s.port n).carries = true → exec (.hostRead n part addr len dst) s = .next (s.request n part 0x08 addr len (.hostRead dst) [])) ∧
  (∀ n part addr data s, 12 ≤ n → (s.port n).carries = true →
    exec (.hostWrite n part addr data) s = .next ((State.sendMsg { s with hostMem := Memory.writeL s.hostMem addr data } n part 0 0xFFFF (txnBytes 0x09 part 0 0 0 0 addr 0 data.length data)).emitOut (.link n 0x09 [part, addr, data.length]))) ∧
  (∀ n part queue s, 12 ≤ n → (s.port n).carries = true → exec (.notify n part queue) s = .next ((s.sendMsg n part 0 0xFFFF (txnBytes 0x0C part 0 0 0 queue 0 0 0 [])).emitOut (.link n 0x0C [part, queue]))) ∧
  (∀ n m px h s, (s.port n).take 0x0A = some (m, px) → h = ofBytes (m.bytes.take 32) → fldB h 16 8 % 8 = 0 → 0x10000 + fld h 1 5 0 * 0x1000 ≤ fldB h 16 8 → fldB h 16 8 < 0x10000 + (fld h 1 5 0 + 1) * 0x1000 →
    exec (.doorbellTxn n) s = .next ((s.setPort n px).doorbell (fld h 1 5 0) (fld (ofBytes (m.bytes.drop 32)) 0 31 28) (ofBytes (m.bytes.drop 32)))) ∧
  (∀ n m px h s, (s.port n).take 0x0B = some (m, px) → h = ofBytes (m.bytes.take 32) →
    exec (.cfgRead n) s = .next ((s.setPort n px).respond n (fld h 1 5 0) m.src (fldB h 2 2) 0 ((List.range (fld h 4 23 0)).map (fun i => (s.setPort n px).cfgByte (fld h 1 5 0) (fldB h 16 8 + i)))))

/-- What the commands on partitions, blocks and epochs do (R337-R348, R342). A carve-out's runs: R339's choice gives at most the stripes that
are asked for, in runs that hold at least one stripe each. -/
def Obligations.PartitionsAndBlocks : Prop :=
  (∀ m (r : BitVec 512) p s, p = fld r.toNat 0 5 0 → Served s m 3 p → 1 ≤ p → p ≤ 60 → s.part? p = none → bodyRsvd r.toNat partitionCreateMask = false →
    fld r.toNat 1 5 0 ≠ 0 → 1 ≤ fldB r.toNat 4 4 → 1 ≤ fldB r.toNat 8 4 → fldB r.toNat 8 4 ≤ 1048576 → 1 ≤ fldB r.toNat 12 4 → fldB r.toNat 12 4 ≤ 65536 → fldB r.toNat 16 4 ≤ 65536 → 20 ≤ fldB r.toNat 20 2 → fldB r.toNat 20 2 ≤ 3000 → fldB r.toNat 22 2 = 0xFFFF →
    s.overcommit (fldB r.toNat 8 4) (fldB r.toNat 12 4) (fldB r.toNat 16 4) (fldB r.toNat 20 2) = false → runStripes (s.allot (fld r.toNat 1 5 0) (fldB r.toNat 4 4)) = fldB r.toNat 4 4 → (s.allot (fld r.toNat 1 5 0) (fldB r.toNat 4 4)).length ≤ 250 →
    ∃ t x, exec (.partitionCreate m r) s = .next (State.served ((wroteTable t).answerMsg m (.ok p)) 3 p) ∧ t.part? p = some x ∧ x.stripes = fldB r.toNat 4 4 ∧ x.queues = fldB r.toNat 8 4 ∧ x.fences = fldB r.toNat 12 4 ∧ x.sessions = fldB r.toNat 16 4 ∧ x.powerW = fldB r.toNat 20 2 ∧ x.companion = 0xFFFF ∧
      x.coded = bit r.toNat 2 0 ∧ x.sealedShare = bit r.toNat 2 1 ∧ x.runs = s.allot (fld r.toNat 1 5 0) (fldB r.toNat 4 4) ∧ x.epoch = 0 ∧ x.blockMap = [] ∧ x.chShare = [] ∧ x.portShare = [] ∧ x.destroying = none ∧
      Tab.find t.dram.keys p = some { k0 := some s.dram.nextKey, k1 := some (s.dram.nextKey + 1), cur := 0 } ∧ t = { s with part := { s.part with parts := Tab.put s.part.parts p x }, dram := t.dram }) ∧
  (∀ m (r : BitVec 64) p b name x s, p = fldB r.toNat 0 1 → b = fldB r.toNat 1 1 → name = fldB r.toNat 2 1 → Served s m 3 p → bodyRsvd r.toNat [(0, 7, 0), (1, 7, 0), (2, 7, 0)] = false → s.part? p = some x → x.destroying = none → name ≤ 59 →
    (s.blockNotFree b = none → Tab.find x.blockMap name = none → ∃ t y z, exec (.blockBind m r) s = .next (State.served ((wroteTable t).answerMsg m (.ok 0)) 3 p) ∧ y = { x with blockMap := Tab.put x.blockMap name b } ∧
      z = { s.block b with bound := some (p, name), powered := true, plannedMhz := s.planned p b, mhz := min (s.planned p b) (t.ceiling b), cycles := if (s.block b).powered then (s.block b).cycles else 0 } ∧
      t = { s with part := { s.part with parts := Tab.put s.part.parts p y, blockEpoch := Tab.put s.part.blockEpoch (p * 64 + b) x.epoch }, fab := { s.fab with blocks := Tab.put s.fab.blocks b z }, pow := (s.bindPower p b).pow }) ∧
    (s.blockNotFree b = none → Tab.find x.blockMap name ≠ none → exec (.blockBind m r) s = .next (State.served (s.answerMsg m (.refused .nameInUse 0)) 3 p)) ∧
    (60 ≤ b → exec (.blockBind m r) s = .next (State.served (s.answerMsg m (.refused .unitAbsent 0)) 3 p))) ∧
  (∀ m (r : BitVec 64) p name b x s, p = fldB r.toNat 0 1 → name = fldB r.toNat 2 1 → Served s m 3 p → bodyRsvd r.toNat [(0, 7, 0), (2, 7, 0)] = false → s.part? p = some x → Tab.find x.blockMap name = some b → s.blockMoving p name = false → s.blockInUse p name b = false →
    s.part.releases = [] → s.lastEngineIn p b = false → x.unretired.length < 16 →
    exec (.blockRelease m r) s = .next (State.served (wroteTable { s.advanceEpoch p with stn := { s.stn with engines := Tab.all s.stn.engines (fun e y => if engBlock e == some b && y.part == p then { y with toE := some (s.epochOf p) } else y) }, part := { (s.advanceEpoch p).part with releases := [{ part := p, name := name, phys := b, epoch := s.epochOf p, wiping := false, ref := m }] } }) 3 p)) ∧
  (∀ b r l s, takeFirst (fun r => r.phys == b && r.wiping) s.part.releases = some (r, l) → (s.block b).wipe = none → exec (.blockReleased b) s = .next (({ s with part := { s.part with releases := l } }).answerMsg r.ref (.ok 0))) ∧
  (∀ p b n s, s.named p b = some n → exec (.epochNotice p b) s = .next { s with part := { s.part with blockEpoch := Tab.put s.part.blockEpoch (p * 64 + b) (s.epochOf p) } }) ∧
  (∀ p x e l s, s.part? p = some x → x.unretired = e :: l → s.epochCount p e = 0 → s.part.releases = [] → exec (.epochRetire p) s = .next (s.setPart p { x with unretired := l })) ∧
  (∀ p x e l s, s.part? p = some x → x.unretired = e :: l → s.epochCount p e ≠ 0 → exec (.epochRetire p) s = .next s) ∧
  (∀ m (r : BitVec 64) p x s, p = fldB r.toNat 0 1 → Served s m 3 p → bodyRsvd r.toNat [(0, 7, 0)] = false → s.part? p = some x → x.destroying = none → s.partBusy p x = false → s.host.contexts = [] →
    exec (.partitionDestroy m r) s = .next (State.served (wroteTable (State.endCarveOut ((s.reckCloseAll p (fun _ => true) flagAbandoned).updPart p (fun y => { y with chShare := [], destroying := some m })) p)) 3 p)) ∧
  (∀ p x m s, s.part? p = some x → x.destroying = some m → m.msg ≠ 0 → s.dram.wipes.any (fun w => w.kind == 2 && w.part == p) = false → Tab.getD s.reck.held p [] = [] →
    exec (.partitionDestroyed p) s = .next (({ s.forgetPart p with reck := { s.reck with held := Tab.del s.reck.held p } }).answerMsg m (.ok 0))) ∧
  (∀ endDpa cur l need, runStripes (takeGaps endDpa cur l need) ≤ need) ∧
  (∀ endDpa cur l need r, r ∈ takeGaps endDpa cur l need → 1 ≤ r.2 ∧ r.2 ≤ need)

/-- What the moves of blocks and stations and the shares do (R349-R353). What the queue pair messages do (R354-R357). The ID of a queue pair is
any free one (log entry 1). -/
def Obligations.MovesAndQueuePairs : Prop :=
  (∀ m (r : BitVec 64) p dst name src x s, p = fldB r.toNat 0 1 → dst = fldB r.toNat 1 1 → name = fldB r.toNat 2 1 → Served s m 3 p → bodyRsvd r.toNat [(0, 7, 0), (1, 7, 0), (2, 7, 0)] = false → s.part? p = some x → x.destroying = none → name ≤ 59 →
    Tab.find x.blockMap name = some src → s.blockNotFree dst = none → regionOf src = regionOf dst → x.moving = [] → x.unretired.length < 16 →
    ∃ t y, exec (.blockMove m r) s = .next (State.served (wroteTable t) 3 p) ∧ t.part? p = some y ∧ y.moving = [name] ∧ y.epoch = (x.epoch + 1) % 65536 ∧ y.unretired = x.unretired ++ [x.epoch] ∧ y.blockMap = x.blockMap ∧ (t.block dst).powered = true ∧ (t.block dst).mhz = (s.block src).mhz ∧
      t.part.moves = s.part.moves ++ [{ part := p, name := name, src := src, dst := dst, step := 3, ref := m }] ∧ t = { s with part := t.part, fab := { s.fab with blocks := t.fab.blocks } }) ∧
  (∀ src v s, s.part.moves.find? (fun v => v.src == src && v.step == 3) = some v → s.moveDrained v = true → exec (.blockMoveDrained src) s = .next (s.setMove { v with step := 4 })) ∧
  (∀ src v s, s.part.moves.find? (fun v => v.src == src && v.step == 4) = some v →
    exec (.blockMoveCopied src) s = .next (((((s.switchBlock v).updPart v.part (fun x => { x with blockMap := Tab.put x.blockMap v.name v.dst, moving := x.moving.filter (· != v.name) })).moveBtu v).loadMoved v.dst).setMove { v with step := 6 })) ∧
  (∀ src v l s, takeFirst (fun v => v.src == src && v.step == 6) s.part.moves = some (v, l) → (s.block src).wipe = none → exec (.blockMoved src) s = .next (({ s with part := { s.part with moves := l } }).answerMsg v.ref (.ok 0))) ∧
  (∀ m (r : BitVec 64) p na id t x a slot b s, p = fldB r.toNat 0 1 → na = fldB r.toNat 2 1 → id = fldB r.toNat 4 2 → Served s m 3 p → bodyRsvd r.toNat [(0, 7, 0), (2, 7, 0), (4, 15, 0)] = false → s.station? p id = some t → s.part? p = some x → t.anchor = some (a, slot) →
    Tab.find x.blockMap a = some b → Tab.find x.blockMap na = some b → (s.disp b).slots = [] → t.inQ = [] → s.part.stationMoves = [] → x.moving = [] → x.unretired.length < 16 →
    exec (.stationMove m r) s = .next (State.served (wroteTable (let u := (s.setDisp b { s.disp b with slots := [(0, stnKey p id)] }).advanceEpoch p; { u with part := { u.part with stationMoves := [{ part := p, station := id, newAnchor := na, newSlot := 0, ref := m }] } })) 3 p)) ∧
  (∀ p id v l t old u w s, takeFirst (fun v => v.part == p && v.station == id) s.part.stationMoves = some (v, l) → s.station? p id = some t → t.inQ = [] → old = (s.anchorPhys p t).getD 0 →
    u = (s.setDisp old { s.disp old with slots := (s.disp old).slots.filter (fun e => e.2 != stnKey p id) }).setStation p id { t with anchor := some (v.newAnchor, v.newSlot) } → w = u.moveStreams old ((u.phys p v.newAnchor).getD old) (fun e => if engClass e = 5 ∧ t.engines.contains e = true then some e else none) →
    exec (.stationMoved p id) s = .next (State.answerMsg { w with part := { w.part with stationMoves := l } } v.ref (.ok 0))) ∧
  (∀ m (r : BitVec 64) p x s, p = fldB r.toNat 0 1 → Served s m 3 p → bodyRsvd r.toNat [(0, 7, 0), (1, 7, 0), (2, 7, 0)] = false → s.part? p = some x → x.destroying = none → x.sealedShare = false → fldB r.toNat 1 1 ≤ 11 → 1 ≤ fldB r.toNat 2 1 →
    s.shareSum p (·.chShare) (fldB r.toNat 1 1) + fldB r.toNat 2 1 ≤ 64 →
    ∃ t, exec (.channelShare m r) s = .next (State.served (wroteTable t) 3 p) ∧ t.part? p = some { x with chShare := Tab.put x.chShare (fldB r.toNat 1 1) (fldB r.toNat 2 1) } ∧ t.part.shareRefs = s.part.shareRefs ++ [m] ∧ t = { s with part := t.part }) ∧
  (∀ m (r : BitVec 64) p x s, p = fldB r.toNat 0 1 → Served s m 3 p → bodyRsvd r.toNat [(0, 7, 0), (1, 7, 0), (2, 7, 0)] = false → s.part? p = some x → x.destroying = none → fldB r.toNat 1 1 ≤ 11 → s.portPresent (fldB r.toNat 1 1) = true → 1 ≤ fldB r.toNat 2 1 → fldB r.toNat 2 1 ≤ 16 →
    (s.shareSum p (·.portShare) (fldB r.toNat 1 1) + fldB r.toNat 2 1 ≤ 16 → ∃ t, exec (.portShare m r) s = .next (State.served ((wroteTable t).answerMsg m (.ok 0)) 3 p) ∧ t.part? p = some { x with portShare := Tab.put x.portShare (fldB r.toNat 1 1) (fldB r.toNat 2 1) } ∧ t = { s with part := { s.part with parts := t.part.parts } }) ∧
    (16 < s.shareSum p (·.portShare) (fldB r.toNat 1 1) + fldB r.toNat 2 1 → exec (.portShare m r) s = .next (State.served (s.answerMsg m (.refused .overcommit 0)) 3 p))) ∧
  (∀ m (r : BitVec 512) p x s, p = fld r.toNat 0 29 24 → Served s m 3 p → s.part? p = some x → x.destroying = none → bodyRsvd r.toNat queuePairMask = false → bit r.toNat 4 7 = false → fld r.toNat 4 3 0 ≤ 11 → 1 ≤ fldB r.toNat 5 1 → fldB r.toNat 5 1 ≤ 64 → 1 ≤ fld r.toNat 8 5 0 → fld r.toNat 8 5 0 ≤ 60 → s.portPresent (fld r.toNat 4 3 0) = true →
    Tab.getD x.portShare (fld r.toNat 4 3 0) 0 ≠ 0 → s.queueCount p < x.queues → ∀ q, s.pickQueue = some q →
    ∃ t e, exec (.queuePairOpen m r) s = .next (State.served ((wroteTable t).answerMsg m (.ok q)) 3 p) ∧ Tab.find t.part.qpairs q = some e ∧ e.part = p ∧ e.recv = false ∧ e.port = fld r.toNat 4 3 0 ∧ e.slots = fldB r.toNat 5 1 ∧ e.credits = fldB r.toNat 5 1 ∧ e.peerNode = fldB r.toNat 6 2 ∧ e.peerPart = fld r.toNat 8 5 0 ∧
      e.peerQueue = fld r.toNat 12 19 0 ∧ e.peerEpoch = x.epoch ∧ e.buffer = [] ∧ e.unacked = [] ∧ t = { s with part := { s.part with qpairs := Tab.put s.part.qpairs q e }, stn := { s.stn with descA := t.stn.descA, descB := t.stn.descB }, free := s.free + 1 }) ∧
  (∀ m (r : BitVec 128) p q e x s, p = fldB r.toNat 0 1 → q = fld r.toNat 4 19 0 → Served s m 3 p → bodyRsvd r.toNat [(0, 7, 0), (4, 19, 0), (8, 15, 0), (10, 5, 0), (12, 19, 0)] = false → Tab.find s.part.qpairs q = some e → e.part = p → e.recv = false → s.part? p = some x → x.unretired.length < 16 → 1 ≤ fld r.toNat 10 5 0 → fld r.toNat 10 5 0 ≤ 60 →
    ∃ t f, exec (.queuePairRetarget m r) s = .next (State.served (wroteTable t) 3 p) ∧ Tab.find t.part.qpairs q = some f ∧ f.peerNode = fldB r.toNat 8 2 ∧ f.peerPart = fld r.toNat 10 5 0 ∧ f.peerQueue = fld r.toNat 12 19 0 ∧ f.peerEpoch = (x.epoch + 1) % 65536 ∧ f.credits = e.slots ∧
      f.oldPeers = e.oldPeers ++ [{ node := e.peerNode, part := e.peerPart, queue := e.peerQueue, credits := e.credits, returned := e.returned, epoch := (x.epoch + 1) % 65536 }] ∧ f.returned = 0 ∧ f.retarget = e.retarget ++ [(m, (x.epoch + 1) % 65536)] ∧ f.unacked = e.unacked.map (fun u => (u.1, u.2.1, true)) ∧ f.buffer = e.buffer ∧ t = { s with part := t.part, stn := { s.stn with descA := t.stn.descA, descB := t.stn.descB } }) ∧
  (∀ q e m k l s, Tab.find s.part.qpairs q = some e → e.retarget = (m, k) :: l →
    ((∀ u ∈ e.unacked, ¬ (u.2.2 = true ∧ epochOlder u.2.1.epoch k = true)) → (∀ w ∈ e.buffer, epochOlder w.epoch k = false) →
      exec (.queuePairRetargeted q) s = .next ((s.setQpair q { e with oldPeers := e.oldPeers.filter (fun o => o.epoch != k), retarget := l }).answerMsg m (.ok 0))) ∧
    ((∃ w ∈ e.buffer, epochOlder w.epoch k = true) → exec (.queuePairRetargeted q) s = .next s)) ∧
  (∀ m (r : BitVec 64) p q e s, p = fldB r.toNat 0 1 → q = fld r.toNat 4 19 0 → Served s m 3 p → bodyRsvd r.toNat [(0, 7, 0), (4, 19, 0)] = false → Tab.find s.part.qpairs q = some e → e.part = p →
    (e.recv = true → e.returned = e.count → exec (.queuePairClose m r) s = .next (State.served ((wroteTable (State.storeDesc { s with part := { s.part with qpairs := Tab.del s.part.qpairs q } } q)).answerMsg m (.ok 0)) 3 p)) ∧
    (e.recv = true → e.returned ≠ e.count → exec (.queuePairClose m r) s = .next (State.served (wroteTable (s.setQpair q { e with closing := some m })) 3 p)) ∧
    (e.recv = false → (∀ t ∈ s.stn.stations, some q ∉ t.2.outQ) → e.buffer = [] → e.unacked = [] → exec (.queuePairClose m r) s = .next (State.served ((wroteTable (State.storeDesc { s with part := { s.part with qpairs := Tab.del s.part.qpairs q } } q)).answerMsg m (.ok 0)) 3 p)) ∧
    (e.recv = false → (e.buffer ≠ [] ∨ e.unacked ≠ []) → exec (.queuePairClose m r) s = .next (State.served (s.answerMsg m (.refused .inUse 0)) 3 p)))

/-- What the session commands of the host do (R282-R290, R303). IDs are any free ones (log entry 1). The end condition of lowest REASON wins:
EOS first, then a stop sequence, then the context and the token limits (R297). -/
def Obligations.SessionCommands : Prop :=
  (∀ q (r : BitVec 512) e c t tap ost s, Ready s q 0x0020 r.toNat 4 e → rsvdSet r.toNat planMask = false → s.plan? (planKey e.part (fld r.toNat 0 3 0)) = none → s.planSteward e.part r.toNat = some (c, t) →
    s.tileQ e.part (fld r.toNat 4 19 0) = true → s.tileQ e.part (fld r.toNat 8 19 0) = true → t.inQ.headD none = some (fld r.toNat 8 19 0) → (∃ g, s.ring? (fld r.toNat 12 19 0) = some g ∧ g.part = e.part ∧ g.ty = 4) → planBad s e.part r.toNat = none → planOver s e.part r.toNat = false →
    s.pickQueue = some tap → (State.setQueue { s with free := s.free + 1 } tap (serviceQueue e.part e.context s.now .none)).pickQueue = some ost → tap ≠ ost →
    ∃ u : State, exec (.planDefine q r) s = .next (State.served (u.answerCmd q (.ok (tap ||| ost <<< 32))) 4 e.part) ∧ u.plan? (planKey e.part (fld r.toNat 0 3 0)) = some (planOf r.toNat e.context c tap ost) ∧ u.queue? tap = some (serviceQueue e.part e.context s.now .none) ∧ u.queue? ost = some (serviceQueue e.part e.context s.now (.steward c 1)) ∧
      Tab.find u.svc.stewards c = some { t with inQ := lset t.inQ 1 (some ost), plan := some (planKey e.part (fld r.toNat 0 3 0)) } ∧ u = { s with svc := u.svc, stn := u.stn, free := s.free + 2 }) ∧
  (∀ q (r : BitVec 64) e y s, Ready s q 0x0021 r.toNat 4 e → rsvdSet r.toNat (maskOf [(0, 3, 0)]) = false → s.plan? (planKey e.part (fld r.toNat 0 3 0)) = some y →
    (s.ses.sessions = [] → exec (.planRelease q r) s = .next (State.served ((s.dropPlan (planKey e.part (fld r.toNat 0 3 0)) y).answerCmd q (.ok 0)) 4 e.part)) ∧
    (s.ses.sessions.any (fun z => z.2.plan == planKey e.part (fld r.toNat 0 3 0)) = true → exec (.planRelease q r) s = .next (State.served (s.answerCmd q (.refused .sessionOpen 0)) 4 e.part))) ∧
  (∀ q (r : BitVec 512) e y b slot gen s, Ready s q 0x0022 r.toNat 4 e → rsvdSet r.toNat sessionOpenMask = false → s.plan? (planKey e.part (fld r.toNat 0 3 0)) = some y → bit r.toNat 7 7 = false → sessionOpenBad s e.part r.toNat y = none → fld r.toNat 1 3 0 = 0 →
    s.objBytes e.part (fldB r.toNat 24 4) (fldB r.toNat 28 4) (4 * fldB r.toNat 32 4) = some b → (∀ t ∈ tokenWords b, t < y.vocab) → fldB r.toNat 48 4 = 0xFFFFFFFF → (s.planSessions (planKey e.part (fld r.toNat 0 3 0))).length < y.sessionMax → s.ses.sessions.length < 65536 → s.preemptedWaiting (planKey e.part (fld r.toNat 0 3 0)) = false →
    s.pickSlot = some (slot, gen) →
    (y.freeCount < cdiv (fldB r.toNat 32 4) 16 + 1 → exec (.sessionOpen q r) s = .next (State.served (s.answerCmd q (.busy .kvFull 0)) 4 e.part)) ∧
    (cdiv (fldB r.toNat 32 4) 16 + 1 ≤ y.freeCount → ∃ (t : State) (x : Sess), exec (.sessionOpen q r) s = .next (State.served (t.answerCmd q (.ok (gen <<< 16 ||| slot))) 4 e.part) ∧ t = { s with svc := t.svc, host := t.host, dram := t.dram, ses := t.ses, reck := t.reck, hostMem := t.hostMem, sent := t.sent, free := t.free } ∧ t.sess? slot = some x ∧ x.part = e.part ∧ x.gen = gen ∧ x.req = fldB r.toNat 4 4 ∧ x.maxNew = fldB r.toNat 36 4 ∧ x.state = .prefill ∧ x.tokens = tokenWords b ∧ x.stops = [] ∧ x.made = 0 ∧ x.index = 0 ∧
      Tab.find t.ses.homes (acctKey e.part x.req) = some { owner := s.sys.nodeId, gen := 0, deadline := 0, ownerPart := e.part })) ∧
  (∀ q (r : BitVec 256) e slot x y b s, Ready s q 0x0023 r.toNat 4 e → rsvdSet r.toNat (maskOf [(0, 31, 0), (4, 31, 0), (8, 31, 0), (12, 31, 0), (16, 31, 0)]) = false → s.openSess e.part (fldB r.toNat 0 4) = some (slot, x) → s.plan? x.plan = some y →
    (s.obj? e.part (fldB r.toNat 4 4)).isSome = true → fldB r.toNat 8 4 % 4 = 0 → fldB r.toNat 8 4 + 4 * fldB r.toNat 12 4 ≤ s.objLen e.part (fldB r.toNat 4 4) → 1 ≤ fldB r.toNat 12 4 → x.tokens.length + fldB r.toNat 12 4 ≤ y.contextMax - 1 → 1 ≤ fldB r.toNat 16 4 → fldB r.toNat 16 4 ≤ 1048576 →
    s.objBytes e.part (fldB r.toNat 4 4) (fldB r.toNat 8 4) (4 * fldB r.toNat 12 4) = some b → (∀ t ∈ tokenWords b, t < y.vocab) → x.state = .idle → (cdiv (x.tokens.length + fldB r.toNat 12 4) 16 - x.pages.length) + 1 ≤ y.freeCount → s.preemptedWaiting x.plan = false →
    ∃ (t : State) (z : Sess), exec (.sessionAppend q r) s = .next (State.served (t.answerCmd q (.ok 0)) 4 e.part) ∧ t = { s with svc := t.svc, dram := t.dram, ses := t.ses, hostMem := t.hostMem, sent := t.sent } ∧ t.sess? slot = some z ∧ z.state = .prefill ∧ z.tokens = x.tokens ++ tokenWords b ∧ z.maxNew = fldB r.toNat 16 4 ∧ z.made = 0 ∧ z.round = x.round + 1 ∧ z.index = x.index) ∧
  (∀ q (r : BitVec 128) e slot x s, Ready s q 0x0024 r.toNat 4 e → rsvdSet r.toNat (maskOf [(0, 31, 0)]) = false → s.openSess e.part (fldB r.toNat 0 4) = some (slot, x) →
    exec (.sessionCancel q r) s = .next (State.served ((if x.state = .idle then s else s.endGeneration slot 5).answerCmd q (.ok 0)) 4 e.part)) ∧
  (∀ q (r : BitVec 128) e slot x s, Ready s q 0x0025 r.toNat 4 e → rsvdSet r.toNat (maskOf [(0, 31, 0)]) = false → s.openSess e.part (fldB r.toNat 0 4) = some (slot, x) →
    exec (.sessionClose q r) s = .next (State.served (((if x.state = .idle then s else s.endGeneration slot 5).updSess slot (fun x => { x with closing := some e.ring })).await q) 4 e.part)) ∧
  (∀ slot x q n t s, s.sess? slot = some x → x.closing = some q → s.inStep x slot = false → x.recs = [] → s.reckClose x.part x.req (if x.abandoned then flagAbandoned else 0) = (t, some n) → exec (.sessionCloseComplete slot) s = .next ((t.dropSession slot).answerCmd q (.ok n))) ∧
  (∀ x y, x.eos ≠ 0xFFFFFFFF → endReason x y x.eos = some (1, 0)) ∧
  (∀ x y token i, (token ≠ x.eos ∨ x.eos = 0xFFFFFFFF) → stopMatch (x.tokens.drop (x.tokens.length - x.made)) x.stops = some i → endReason x y token = some (2, i)) ∧
  (∀ x y token, (token ≠ x.eos ∨ x.eos = 0xFFFFFFFF) → stopMatch (x.tokens.drop (x.tokens.length - x.made)) x.stops = none →
    endReason x y token = if x.tokens.length = y.contextMax then some (3, 0) else if x.made = x.maxNew then some (4, 0) else none)

/-- A generation that ends leaves its session IDLE and one record with END, REASON and the next INDEX behind (R290, R297). -/
def Obligations.GenerationEnds : Prop :=
  ∀ slot reason x (s : State), s.sess? slot = some x → s.companion x.part = none → ∃ y, (s.endGeneration slot reason).sess? slot = some y ∧ y.state = .idle ∧ y.taken = [] ∧ y.tokens = x.tokens ∧ y.round = x.round + 1 ∧ y.pages = x.pages ∧
    y.recs = x.recs ++ [{ token := 0xFFFFFFFF, index := x.index, fin := true, reason := reason, stop := 0, acked := true }]

/-- What the steps of a plan do (R291-R298). -/
def Obligations.Steps : Prop :=
  (∀ p plan y s, s.plan? (planKey p plan) = some y → s.stewardRuns p y = true → y.steps.length < y.manifestSlots → s.stepRows (planKey p plan) y ≠ [] → s.queueFull y.entryQ = false →
    ∃ (t : State) (z : Plan), exec (.stepCompose p plan) s = .next t ∧ t = { s with svc := t.svc, part := t.part, stn := t.stn, fab := t.fab, spine := t.spine, ses := t.ses } ∧ t.plan? (planKey p plan) = some z ∧ z.nextStep = y.nextStep + 1 ∧ z.steps = y.steps ++ [{ n := y.nextStep, begun := s.now, rows := s.stepRows (planKey p plan) y }]) ∧
  (∀ p plan y x w z s, s.plan? (planKey p plan) = some y → s.stewardRuns p y = true → s.queue? y.resultQ = some x → z = (dropStale s x 0 (x.oldHot.length + x.hot.length)).1 → s.headNow z = some w →
    exec (.stepResult p plan) s = .next (State.stepResult (State.fenceAction (s.setQueue y.resultQ (z.pop s.now)) p w (engRank (cellId y.stewardCell)) (srcCode 0 y.stewardCell) false) (planKey p plan) y w)) ∧
  (∀ p plan y st l s, s.plan? (planKey p plan) = some y → y.steps = st :: l → st.begun + y.stepTimeoutMs * 1000 ≤ s.now →
    exec (.stepTimeout p plan) s = .next (((st.rows.filter (fun r => !r.returned)).foldl (fun (s : State) r => s.failRow r) s).stepDone (planKey p plan) st.n)) ∧
  (∀ t l x s, s.nextItem 4 s.tapPart s.ses.taps = some (t, l) → s.innTurn 4 x.part 0 = true → s.sess? t.slot = some x → x.gen = t.gen → x.round = t.round → exec .tokenLogWrite s = .next (State.served (State.logToken { s with ses := { s.ses with taps := l } } t.slot t.token) 4 x.part)) ∧
  (∀ t l x s, s.nextItem 4 s.tapPart s.ses.taps = some (t, l) → s.innTurn 4 x.part 0 = true → s.sess? t.slot = some x → (x.gen ≠ t.gen ∨ x.round ≠ t.round) → exec .tokenLogWrite s = .next (State.served { s with ses := { s.ses with taps := l } } 4 x.part)) ∧
  (∀ t l x s, s.nextItem 4 s.tapPart s.ses.taps = some (t, l) → s.sess? t.slot = some x → s.innTurn 4 x.part 0 = false → exec .tokenLogWrite s = .next s) ∧
  (∀ p plan y e s, s.plan? (planKey p plan) = some y → s.innTurn 4 p 0 = true → s.planSessions (planKey p plan) = [e] → e.2.robbed = false → e.2.need ≤ y.freeCount → (∃ n, e.2.preempted = some n) →
    exec (.sessionReadmit p plan) s = .next (State.served (State.reckFlag (State.grantPages (State.setSess { s with ses := { s.ses with nextOrder := s.ses.nextOrder + 1 } } e.1 { e.2 with preempted := none, state := .prefill, filled := 0, admitted := s.ses.nextOrder }) e.1 e.2.need) p e.2.req flagReplayed) 4 p)) ∧
  (∀ p plan y e s, s.plan? (planKey p plan) = some y → s.innTurn 4 p 0 = true → s.planSessions (planKey p plan) = [e] → e.2.robbed = false → e.2.preempted = none → e.2.state ≠ .idle → e.2.pages ≠ [] → e.2.pages.length < coverPages e.2.tokens.length → y.freeCount ≠ 0 →
    exec (.sessionReadmit p plan) s = .next (State.served (s.grantPages e.1 (coverPages e.2.tokens.length - e.2.pages.length)) 4 p)) ∧
  (∀ slot x r l y g s, s.sess? slot = some x → x.recs = r :: l → s.plan? x.plan = some y → s.ring? y.tokenRing = some g → r.acked = true → g.room = true → s.innTurn 4 x.part 0 = true →
    exec (.tokenRecordWrite slot) s = .next (State.served (State.writeRing (s.setSess slot { x with recs := l, confirmed := if r.token = 0xFFFFFFFF then x.confirmed else r.index + 1 }) y.tokenRing g (fun seq phase => plcB 0 2 slot ||| plc 2 7 7 phase ||| plcF 2 6 r.fin ||| plc 2 5 3 r.reason ||| plc 2 2 0 r.stop ||| plcB 3 1 x.gen |||
      plcB 4 4 r.token ||| plcB 8 4 seq ||| plcB 12 4 r.index)) 4 x.part))

/-- What the companion's commands do (R302, R304, R438-R440). -/
def Obligations.Companions : Prop :=
  (∀ m (r : BitVec 64) p n x s, p = fldB r.toNat 0 1 → n = fldB r.toNat 2 2 → Served s m 3 p → bodyRsvd r.toNat [(0, 7, 0), (2, 15, 0)] = false → s.part? p = some x → x.destroying = none → s.ses.sessions = [] → n ≠ s.sys.nodeId →
    ∃ t, exec (.companionSet m r) s = .next (State.served ((wroteTable t).answerMsg m (.ok 0)) 3 p) ∧ t.part? p = some { x with companion := n } ∧ t = { s with part := { s.part with parts := t.part.parts }, ses := { s.ses with sessions := t.ses.sessions } }) ∧
  (∀ slot x kind index s, s.sess? slot = some x → exec (.mirrorEntryAck slot x.gen kind index true) s = .next (s.setSess slot { x with recs := x.recs.map (fun r => if r.index = index ∧ (kind = 3 ∧ r.token ≠ 0xFFFFFFFF ∨ kind = 4 ∧ r.token = 0xFFFFFFFF) then { r with acked := true } else r) })) ∧
  (∀ slot x kind index s, s.sess? slot = some x → exec (.mirrorEntryAck slot x.gen kind index false) s = .next (((s.updPart x.part (fun y => { y with companion := 0xFFFF })).ackAll x.part).unmirrored x.part x.plan)) ∧
  (∀ m (r : BitVec 64) x s, Admitted s m 3 (fldB r.toNat 0 1) → bodyRsvd r.toNat [(0, 7, 0), (2, 15, 0), (4, 7, 0)] = false → s.part? (fldB r.toNat 0 1) = some x → x.destroying = none →
    (x.blockMap = [] → exec (.mirrorAccept m r) s = .next (State.served ((s.setHolding (fldB r.toNat 0 1) { node := fldB r.toNat 2 2, part := fldB r.toNat 4 1, mirrors := [], bytes := 0, manifest := [] }).answerMsg m (.ok 0)) 3 (fldB r.toNat 0 1))) ∧
    (x.blockMap ≠ [] → exec (.mirrorAccept m r) s = .next (State.served (s.answerMsg m (.refused .inUse 0)) 3 (fldB r.toNat 0 1)))) ∧
  (∀ m node part body h x y z s, Admitted s m 3 0 → s.holdingFor node part = some (h, x) → fldB (ofBytes (body.take 8)) 1 3 = 0 → s.part? h = some z →
    (x.bytes + body.length ≤ usableBytes z → x.entry body = some y → exec (.mirrorEntry m node part body) s = .next (State.served ((s.setHolding h y).answerMsg m (.ok 0)) 3 0)) ∧
    (usableBytes z < x.bytes + body.length → exec (.mirrorEntry m node part body) s = .next (State.served (s.answerMsg m (.refused .noStripes 0)) 3 0))) ∧
  (∀ m (r : BitVec 64) x z s, Admitted s m 3 (fldB r.toNat 1 1) → bodyRsvd r.toNat [(0, 7, 0), (1, 7, 0), (2, 15, 0), (4, 7, 0)] = false → Tab.find s.ses.holdings (fldB r.toNat 0 1) = some x → x.node = fldB r.toNat 2 2 → x.part = fldB r.toNat 4 1 → s.part? (fldB r.toNat 1 1) = some z → z.destroying = none →
    x.mirrors.all (fun e => (s.plan? (planKey (fldB r.toNat 1 1) (fld e.2.record 0 3 0))).isSome) = true →
    exec (.companionTakeover m r) s = .next (State.served (((x.mirrors.foldl (fun (s : State) e => s.resumeSession (fldB r.toNat 2 2) (fldB r.toNat 1 1) e.1 e.2) s).setHolding (fldB r.toNat 0 1) { x with mirrors := [] }).answerMsg m (.ok 0)) 3 (fldB r.toNat 1 1)))

/-- What the lease commands do (R358-R363). -/
def Obligations.Leases : Prop :=
  (∀ m (r : BitVec 128) p k slot x t s, p = fldB r.toNat 0 1 → k = acctKey p (fldB r.toNat 4 4) → Served s m 3 p → bodyRsvd r.toNat [(0, 7, 0), (2, 15, 0), (4, 31, 0)] = false → s.part? p = some t → t.destroying = none → s.reqSession p (fldB r.toNat 4 4) = some (slot, x) →
    (s.owned p (fldB r.toNat 4 4) = false → exec (.requestHandoff m r) s = .next (State.served (s.answerMsg m (.refused .notOwner 0)) 3 p)) ∧
    (∀ l, s.owned p (fldB r.toNat 4 4) = true → Tab.find s.ses.leases k = some l → exec (.requestHandoff m r) s = .next (State.served ((wroteTable (State.tryOffer { s with ses := { s.ses with leases := Tab.put s.ses.leases k { l with handing := some (fldB r.toNat 2 2), transfer := s.ses.nextTransfer, offered := false }, nextTransfer := s.ses.nextTransfer + 1 } } slot)).answerMsg m (.ok 0)) 3 p))) ∧
  (∀ m node (r : BitVec 128) im p t l u z s, p = fld r.toNat 5 5 0 → Served s m 3 p → bodyRsvd r.toNat [(0, 31, 0), (4, 7, 0), (5, 5, 0), (6, 15, 0), (8, 31, 0), (12, 31, 0)] = false → s.part? p = some z → z.destroying = none →
    takeFirst (fun t => t.node == node && t.transfer == fldB r.toNat 8 4) s.fail.inc = some (t, l) → t.whole ≠ [] → t.whole.length = fldB r.toNat 12 4 → im.sess.req = fldB r.toNat 0 4 → s.placeSession p im ((fldB r.toNat 4 1 + 1) % 256) (fldB r.toNat 6 2) = some u →
    exec (.leaseOffer m node r im) s = .next (State.served ((wroteTable (State.emitOut { u with fail := { u.fail with inc := l } } (.msg (.node (fldB r.toNat 6 2)) 0x0114 [fldB r.toNat 0 4, (fldB r.toNat 4 1 + 1) % 256, im.homePart, node, s.now]))).answerMsg m (.ok 0)) 3 p)) ∧
  (∀ m node (r : BitVec 128) k l s, k = acctKey (fld r.toNat 5 5 0) (fldB r.toNat 0 4) → Served s m 3 (fld r.toNat 5 5 0) → bodyRsvd r.toNat [(0, 31, 0), (4, 7, 0), (5, 5, 0), (8, 63, 0)] = false → Tab.find s.ses.leases k = some l → l.homeNode = node →
    (l.gen = fldB r.toNat 4 1 → exec (.leaseGrant m node r) s = .next (State.served ((wroteTable (s.setLease k { l with validUntil := fldB r.toNat 8 8 + s.leaseUs, waiting := none })).answerMsg m (.ok 0)) 3 (fld r.toNat 5 5 0))) ∧
    (l.gen ≠ fldB r.toNat 4 1 → exec (.leaseGrant m node r) s = .next (State.served (s.answerMsg m (.refused .leaseStale 0)) 3 (fld r.toNat 5 5 0)))) ∧
  (∀ p req l t s, Tab.find s.ses.leases (acctKey p req) = some l → l.waiting = some t → t + s.leaseUs ≤ s.now → exec (.leaseGrantTimeout p req) s = .next (s.discardRequest (acctKey p req) l)) ∧
  (∀ p req l s, Tab.find s.ses.leases (acctKey p req) = some l → l.homeNode ≠ s.sys.nodeId → l.waiting = none → l.handing = none → l.renewAt ≤ s.now →
    exec (.leaseRenewTimer p req) s = .next ((s.setLease (acctKey p req) { l with renewAt := s.now + s.leaseUs / 2 }).emitOut (.msg (.node l.homeNode) 0x0115 [req, l.gen, l.homePart, s.now]))) ∧
  (∀ p req l s, Tab.find s.ses.leases (acctKey p req) = some l → l.homeNode ≠ s.sys.nodeId → l.waiting = none → l.validUntil ≤ s.now → exec (.leaseExpire p req) s = .next (s.setLease (acctKey p req) { l with validUntil := 0 })) ∧
  (∀ m node (r : BitVec 64) l s, Served s m 3 (fld r.toNat 5 5 0) → bodyRsvd r.toNat [(0, 31, 0), (4, 7, 0), (5, 5, 0)] = false → Tab.find s.ses.leases (acctKey (fld r.toNat 5 5 0) (fldB r.toNat 0 4)) = some l → l.homeNode = node →
    exec (.leaseRevoked m node r) s = .next (State.served ((wroteTable (s.leaseRevoked (fld r.toNat 5 5 0) (fldB r.toNat 0 4) (fldB r.toNat 4 1) l)).answerMsg m (.ok 0)) 3 (fld r.toNat 5 5 0))) ∧
  (∀ m node (r : BitVec 128) p req k h s, p = fld r.toNat 5 5 0 → req = fldB r.toNat 0 4 → k = acctKey p req → Served s m 3 p → bodyRsvd r.toNat [(0, 31, 0), (4, 7, 0), (5, 5, 0), (6, 15, 0), (8, 63, 0)] = false → Tab.find s.ses.homes k = some h →
    (fldB r.toNat 4 1 = (h.gen + 1) % 256 → fldB r.toNat 6 2 = h.owner → h.owner ≠ s.sys.nodeId → s.now ≤ h.deadline →
      exec (.leaseAccept m node r) s = .next (State.served ((wroteTable (((s.setHome k { owner := node, gen := (h.gen + 1) % 256, deadline := s.now + s.leaseUs + 1000, ownerPart := p }).emitOut (.msg (.node node) 0x0116 [req, (h.gen + 1) % 256, p, fldB r.toNat 8 8])).emitOut (.msg (.node h.owner) 0x0117 [req, (h.gen + 1) % 256, h.ownerPart]))).answerMsg m (.ok 0)) 3 p)) ∧
    (fldB r.toNat 4 1 ≠ (h.gen + 1) % 256 → exec (.leaseAccept m node r) s = .next (State.served (({ s with ses := { s.ses with stale := s.ses.stale + 1 } }).answerMsg m (.refused .leaseStale 0)) 3 p))) ∧
  (∀ m node (r : BitVec 128) k h s, k = acctKey (fld r.toNat 5 5 0) (fldB r.toNat 0 4) → Served s m 3 (fld r.toNat 5 5 0) → bodyRsvd r.toNat [(0, 31, 0), (4, 7, 0), (5, 5, 0), (8, 63, 0)] = false → Tab.find s.ses.homes k = some h → h.owner = node → h.gen = fldB r.toNat 4 1 → s.now ≤ h.deadline →
    exec (.leaseRenew m node r) s = .next (State.served ((wroteTable ((s.setHome k { h with deadline := s.now + s.leaseUs + 1000 }).emitOut (.msg (.node node) 0x0116 [fldB r.toNat 0 4, h.gen, h.ownerPart, fldB r.toNat 8 8]))).answerMsg m (.ok 0)) 3 (fld r.toNat 5 5 0))) ∧
  (∀ m node (body : List (BitVec 8)) r p h slot x s, r = ofBytes (body.take 16) → p = fld r 5 5 0 → Served s m 4 p → Tab.find s.ses.homes (acctKey p (fldB r 0 4)) = some h → fld r 5 7 6 = 0 → 1 ≤ fldB r 6 2 → fldB r 6 2 ≤ 1004 → 16 + 4 * fldB r 6 2 ≤ body.length → h.owner = node → h.gen = fldB r 4 1 →
    s.reqSession p (fldB r 0 4) = some (slot, x) → exec (.tokenNotice m node body) s = .next (State.served ((wroteTable (s.logNotice slot (fldB r 8 4) (tokenWords ((body.drop 16).take (4 * fldB r 6 2))))).answerMsg m (.ok 0)) 4 p)) ∧
  (∀ p req h s, Tab.find s.ses.homes (acctKey p req) = some h → h.owner ≠ s.sys.nodeId → h.deadline < s.now → s.ses.sessions = [] →
    exec (.homeDeadlineReclaim p req) s = .next (((s.setHome (acctKey p req) { owner := s.sys.nodeId, gen := (h.gen + 1) % 256, deadline := 0, ownerPart := p }).delLease (acctKey p req)).emitOut (.msg .fabricManager 0x0119 [req, (h.gen + 1) % 256, p, s.sys.nodeId, h.owner, 0xFFFF])))

/-- What the errors, hangs and resets do (R169, R170, R425-R438): a record is captured before the reset that the fault causes. A partition reset
advances the partition's generation by one, notes the instant, and leaves its report waiting (R425-R427). -/
def Obligations.FailuresAndResets : Prop :=
  (∀ b acc s, b < 60 → exec (.sliceSecDedError b false acc) s = .next (s.setBlock b { s.block b with corrected := (s.block b).corrected + 1 })) ∧
  (∀ b acc p n s, b < 60 → s.part.moves = [] → (s.block b).bound = some (p, n) → (∀ a k, Tab.find s.fab.accesses acc = some a → a.who ≠ .crierTap k ∨ a.store = true) →
    exec (.sliceSecDedError b true acc) s = .next (State.addCapture { s with fab := { s.fab with claims := s.fab.claims.filter (fun c => !(c.access == acc && c.block == b)) } } p 5 b 0xFFFF (.block b))) ∧
  (∀ b acc p n a k s, b < 60 → s.part.moves = [] → (s.block b).bound = some (p, n) → Tab.find s.fab.accesses acc = some a → a.who = .crierTap k → a.store = false →
    exec (.sliceSecDedError b true acc) s = .next (State.addCapture (State.stopSend { s with fab := { s.fab with claims := s.fab.claims.filter (fun c => !(c.access == acc && c.block == b)) } } k 2) p 5 b 0xFFFF (.block b))) ∧
  (∀ b k s, (s.block b).wipe = some k → k ≠ .reset → exec (.sliceWipeDone b) s = .next (State.setBlock { s with fab := { s.fab with slices := Memory.wipe s.fab.slices (sliceKey b 0) (2 ^ 25), claims := s.fab.claims.filter (fun c => !(c.block == b && c.rank == 22)) } } b { s.block b with wipe := none, resetting := false })) ∧
  (∀ c s, c < 1200 → s.cell.retired.contains c = false → s.mayReset (.retire c 1) = true → exec (.cellUncorrectable c false) s = .next (s.retireCell c 1)) ∧
  (∀ c s, c < 1200 → s.cell.retired.contains c = false → exec (.cellUncorrectable c true) s = .next { s with cell := { s.cell with corrected := s.cell.corrected + 1 } }) ∧
  (∀ e x s, engClass e ≠ 1 → s.watched e = true → s.hung e = false → Tab.find s.fail.hangs e = none → s.engine? e = some x →
    exec (.engineWatchdogExpire e) s = .next (State.addCapture { s with fail := { s.fail with hangs := Tab.put s.fail.hangs e s.now } } x.part 2 e x.station (.engine e))) ∧
  (∀ e s, s.watched e = false → exec (.engineWatchdogExpire e) s = .next s) ∧
  (∀ p id t n b s, s.station? p id = some t → Tab.find s.fail.age (stnKey p id) = some (n, t.lastCommit) → s.anchorPhys p t = some b → t.watchdog * 1000 ≤ n → s.fail.captures = [] →
    (t.engines = [] → exec (.stationHung p id) s = .next ((s.event 0x0003 p 0 false b id (plcB 0 2 t.watchdog ||| plcB 2 2 ((s.captureIndex p).getD 0xFFFF))).addCapture p 4 b id (.block b))) ∧
    (∀ e x, t.engines = [e] → s.engine? e = some x → x.start ≠ none → exec (.stationHung p id) s = .next ((s.event 0x0003 p 0 false b id (plcB 0 2 t.watchdog ||| plcB 2 2 ((s.captureIndex p).getD 0xFFFF))).addCapture p 3 b id (.station p id)))) ∧
  (∀ q x w s, s.queue? q = some x → x.headWb = some w → s.ringMoving x = false →
    (x.stalled = false → x.headSince + x.ageMs * 1000 ≤ s.now → exec (.queueStalled q) s = .next ((s.setQueue q { x with stalled := true }).event 0x0002 x.part w.context true q (consumerStation x.consumer) (plcB 0 2 x.ageMs))) ∧
    (x.stalled = true → exec (.queueStalled q) s = .next s)) ∧
  (∀ b a p id t s, s.nextCandidate b = some (a, p, id, t) → exec (.dispatcherHang b) s = .next (s.addCapture p 4 b id (.block b))) ∧
  (∀ p c s, s.fail.captures.find? (fun c => c.part == p && !c.done) = some c →
    (s.innTurn 3 p 0 = true → exec (.hangCapture p) s = .next (State.served (s.endCapture c none) 3 p)) ∧ (s.innTurn 3 p 0 = false → exec (.hangCapture p) s = .next s)) ∧
  (∀ p written c s, s.fail.captures.find? (fun c => c.part == p && !c.done) = some c →
    (c.begun + 2000 ≤ s.now → exec (.hangCaptureTimeout p written) s = .next (s.endCapture c (some written))) ∧
    (s.now < c.begun + 2000 → exec (.hangCaptureTimeout p written) s = .next s)) ∧
  (∀ (c : Capture) w x i d t (s : State), s.part? c.part = some x → s.captureIndex c.part = some i → d = plcB 0 2 i ||| plcB 2 1 c.cause ||| plcF 3 1 w.isSome ||| plcB 4 4 (s.captureCount c.part) →
    t = State.opEvent ((s.carveWrite x (captureBytes x - (i + 1) * 1048576) (s.hangRecord c x w) 16385).event 0x0016 c.part 0 false c.source c.station d) 0x0016 c.part c.source d →
    s.endCapture c w = State.runResets { t with fail := { t.fail with captured := Tab.put t.fail.captured c.part (s.captureCount c.part + 1), captures := captureEnded c t.fail.captures } }) ∧
  (∀ m (r : BitVec 64) x s, Admitted s m 3 (fldB r.toNat 0 1) → bodyRsvd r.toNat [(0, 7, 0)] = false → s.part? (fldB r.toNat 0 1) = some x → x.destroying = none →
    (x.frozen = false → exec (.partitionResetMsg m r) s = .next (State.served ((s.addCapture (fldB r.toNat 0 1) 6 0 0xFFFF (.part (fldB r.toNat 0 1))).answerMsg m (.ok 0)) 3 (fldB r.toNat 0 1))) ∧
    (x.frozen = true → exec (.partitionResetMsg m r) s = .next (State.served (s.answerMsg m (.busy .moveInProgress 0)) 3 (fldB r.toNat 0 1)))) ∧
  (∀ p r l s, takeFirst (fun r => r.part == p) s.fail.resets = some (r, l) → (s.boundBlocks p).all s.blockRuns = true → s.svc.stewards = [] →
    exec (.partitionResetDone p) s = .next (({ s with fail := { s.fail with resets := l } }).emitOut (.msg .fabricManager 0x040C [p, r.cause, s.genOf p]))) ∧
  (∀ p cause x (s : State), s.part? p = some x → s.stn.engines = [] → s.svc.stewards = [] → s.ses.sessions = [] →
    (∃ y, (s.partReset p cause).part? p = some y ∧ y.resetGen = (x.resetGen + 1) % 256 ∧ y.epoch = x.epoch ∧ y.runs = x.runs ∧ y.blockMap = x.blockMap) ∧
    Tab.find (s.partReset p cause).fail.advanced (2 * 2 ^ 20 + p) = some s.now ∧ (s.partReset p cause).fail.resets = s.fail.resets ++ [{ part := p, cause := cause }])

/-- What withdrawal, migration and portmanteaus do (R441-R450). What a chunk's tag and an END section say, and what a restored image holds, are
operands. -/
def Obligations.Evacuation : Prop :=
  (∀ c l s, s.fail.withdraw = none → s.sys.devFaults = c :: l → exec .withdrawal s = .next (s.withdrawFor c)) ∧
  (∀ m (r : BitVec 64) p x s, p = fldB r.toNat 0 1 → Admitted s m 3 p → s.moveChecks r.toNat = none → s.part? p = some x → Tab.getD s.fail.status p 0 ≠ 2 →
    ((fldB r.toNat 2 2 = 0xFFFF ∨ s.canSave x = false) → exec (.evacuateTo m r) s = .next (State.served ((s.abandonPart p).answerMsg m (.refused .inUse p)) 3 p)) ∧
    (fldB r.toNat 2 2 ≠ 0xFFFF → s.canSave x = true → portsOf (fldB r.toNat 4 2) ≠ [] →
      exec (.evacuateTo m r) s = .next (State.served (State.sendSaves (let t := State.updPart (if x.frozen then s else s.freezePart p) p (fun x => { x with evacuating := true }); t.addOutgoing (t.newOutgoing r.toNat false true (some m) []))) 3 p))) ∧
  (∀ m (r : BitVec 64) p x o s, p = fldB r.toNat 0 1 → Admitted s m 3 p → s.moveChecks r.toNat = none → s.part? p = some x → fldB r.toNat 2 2 ≠ 0xFFFF → portsOf (fldB r.toNat 4 2) ≠ [] → bitmapStripes x ≤ runStripes (s.allot x.regions (bitmapStripes x)) → o = s.newOutgoing r.toNat true false none (s.allot x.regions (bitmapStripes x)) →
    exec (.migrateStart m r) s = .next (State.served ((State.sendSections { s.addOutgoing o with dram := { s.dram with dirty := Tab.put s.dram.dirty p [] } } o none false).answerMsg m (.ok s.ses.nextTransfer)) 3 p)) ∧
  (∀ p o d s, s.fail.out.find? (fun o => o.part == p && o.migrate && !o.frozen) = some o → Tab.getD s.dram.dirty p [] = d →
    (d.length ≤ s.zh 104 → exec (.migrateGenerationDone p) s = .next ((s.freezePart p).setOut o { o with frozen := true }).sendSaves) ∧
    (s.zh 104 < d.length → o.gen < 8 → exec (.migrateGenerationDone p) s = .next (State.sendSections { s.setOut o { o with gen := o.gen + 1 } with dram := { s.dram with dirty := Tab.put s.dram.dirty p [] } } { o with gen := o.gen + 1 } (some d) false))) ∧
  (∀ m (r : BitVec 64) p o s, p = fldB r.toNat 0 1 → Admitted s m 3 p → bodyRsvd r.toNat [(0, 7, 0)] = false → s.fail.out.find? (fun o => o.part == p && o.migrate) = some o →
    (o.frozen = false → exec (.migrateCancel m r) s = .next (State.served (({ s with fail := { s.fail with out := s.fail.out.filter (· != o) }, dram := { s.dram with dirty := Tab.del s.dram.dirty p } }).answerMsg m (.ok 0)) 3 p)) ∧
    (o.frozen = true → exec (.migrateCancel m r) s = .next (State.served (s.answerMsg m (.busy .moveInProgress 0)) 3 p))) ∧
  (∀ m node (r : BitVec 64) p o q s, p = fldB r.toNat 0 1 → Admitted s m 3 0 → bodyRsvd r.toNat [(0, 7, 0), (4, 31, 0)] = false → s.fail.out.find? (fun o => o.part == p && o.transfer == fldB r.toNat 4 4 && o.node == node && o.saved) = some o →
    (o.migrate = false → o.ref = some q → exec (.portmanteauRestored m node r) s = .next (State.served ((State.answerMsg { s with fail := { s.fail with out := s.fail.out.filter (· != o), status := Tab.put s.fail.status p 1 } } q (.ok 0)).answerMsg m (.ok 0)) 3 0)) ∧
    (o.migrate = true → exec (.portmanteauRestored m node r) s = .next (State.served (((State.emitOut { s with fail := { s.fail with out := s.fail.out.filter (· != o) } } (.msg .fabricManager 0x040D [p, o.transfer])).destroyMigrated p).answerMsg m (.ok 0)) 3 0))) ∧
  (∀ w s, s.fail.withdraw = some w → w.noticed + s.zh 100 * 1000000 ≤ s.now → exec .evacLimitExpire s = .next (((Tab.keys s.part.parts).filter (fun p => !Tab.has s.fail.status p)).foldl (fun (s : State) p => s.abandonPart p) s)) ∧
  (∀ w s, s.fail.withdraw = some w → s.sys.state ≠ .withdrawn → s.part.parts = [] → exec .withdrawn s = .next (State.drive { s.closeWindow.epochClose.signAll.switchedOff with sys := { s.closeWindow.epochClose.signAll.switchedOff.sys with state := .withdrawn } } s)) ∧
  (∀ m node (h : BitVec 512) data endOk c s, Admitted s m 3 0 → rsvdSet h.toNat (maskOf [(0, 31, 0), (4, 31, 0), (8, 7, 0), (9, 0, 0), (10, 15, 0), (16, 127, 0)]) = false → c = Chunk.mk (fldB h.toNat 8 1) (fldB h.toNat 10 2) (bit h.toNat 9 0) (data.take 3968) →
    exec (.portmanteauChunk m node h data false endOk) s = .next (State.served (s.answerMsg m (.refused .badTag 0)) 3 0) ∧
    (c.kind ≠ 6 → exec (.portmanteauChunk m node h data true endOk) s = .next (State.served ((s.setIncoming { s.incoming node (fldB h.toNat 0 4) with chunks := Tab.put (s.incoming node (fldB h.toNat 0 4)).chunks (fldB h.toNat 4 4) c }).answerMsg m (.ok 0)) 3 0)) ∧
    (c.kind = 6 → exec (.portmanteauChunk m node h data true false) s = .next (State.served ((s.dropIncoming node (fldB h.toNat 0 4)).answerMsg m (.refused .badTag 0)) 3 0)) ∧
    (∀ i t, c.kind = 6 → i = s.incoming node (fldB h.toNat 0 4) → t = Tab.put i.chunks (fldB h.toNat 4 4) c → exec (.portmanteauChunk m node h data true true) s = .next (State.served ((s.setIncoming (if bit (chunkHeader t) 2 1 = true then { i with chunks := [], final := some t } else { i with chunks := [], gens := i.gens ++ [t] })).answerMsg m (.ok 0)) 3 0))) ∧
  (∀ m node tr target im t x y s, (s.incoming node tr).final = some t → s.part? target = some x →
    (∀ c, s.restoreBad x (chunkHeader t) im = some c → exec (.portmanteauRestore m node tr target im) s = .next ((s.dropIncoming node tr).answerMsg m (.refused c 0))) ∧
    (s.restoreBad x (chunkHeader t) im = none → im.reckonings = [] → im.sealedLost = false → bit (chunkHeader t) 2 2 = false →
      y = (State.loadImage (State.loadSlices (State.loadPages (s.loadGens x (s.incoming node tr).gens) x t (s.incoming node tr).gens.isEmpty) x t) target x im).updPart target (fun y => { y with epoch := fldB (chunkHeader t) 8 2, resetGen := fldB (chunkHeader t) 10 1, frozen := false, evacuating := false, sealedRanges := im.sealedRanges, sealedSets := im.sealedSets }) →
      exec (.portmanteauRestore m node tr target im) s = .next ((State.dropIncoming { y with part := { y.part with blockEpoch := (Tab.vals x.blockMap).foldl (fun (b : Tab Nat) k => Tab.put b (target * 64 + k) (fldB (chunkHeader t) 8 2)) y.part.blockEpoch } } node tr).emitOut (.msg (.node node) 0x0408 [fldB (chunkHeader t) 11 1, tr])))) ∧
  (∀ m (r : BitVec 64) p i t l x s, p = fldB r.toNat 0 1 → Admitted s m 3 p → bodyRsvd r.toNat [(0, 7, 0), (4, 31, 0)] = false → s.part? p = some x → x.destroying = none → s.fail.inc.find? (fun i => i.transfer == fldB r.toNat 4 4) = some i → i.gens = t :: l → fldB (chunkHeader t) 4 4 = x.stripes → bit (chunkHeader t) 2 0 = x.coded →
    exec (.portmanteauAdopt m r) s = .next (State.served ((((s.loadGens x i.gens).dropIncoming i.node i.transfer).event 0x0014 p 0 false 0 0xFFFF 1).answerMsg m (.ok 0)) 3 p))

/-- What a regulation window and a sample do (R412-R419): a sample sets each group's step from its channels' occupancy and counts each master's;
the window checks the guarantees of the one before, gives each master its new limits, and answers the share changes. The OT_MIN of a
partition's masters share its guarantee out whole, and no two differ by more than one (R412). -/
def Obligations.Regulation : Prop :=
  (∀ (s : State), s.reg.sampled ≠ some s.now → ∃ t : State, exec .regulationSample s = .next t ∧ t.reg.masters = Tab.all s.reg.masters (s.sampleMaster s.waitingReads) ∧ (∀ g, g < 12 → Tab.getD t.reg.step g 0 = s.nextStep g) ∧ t.reg.sampled = some s.now ∧ t = { s with reg := t.reg }) ∧
  (∀ (s : State), s.reg.sampled = some s.now → exec .regulationSample s = .next s) ∧
  (∀ (s c : State), s.now % 10 = 0 → s.reg.begun ≠ some s.now → c = (if s.reg.begun = some (s.now - 10) ∧ 10 ≤ s.now then s.reg.masters.foldl (fun (s : State) e => s.checkGuarantee e.1 e.2) s else s) →
    ∃ t u : State, exec .regulationWindow s = .next { u with part := { u.part with shareRefs := [] } } ∧ u = t.part.shareRefs.foldl (fun (s : State) m => s.answerMsg m (.ok 0)) t ∧ t.reg.begun = some s.now ∧ t.reg.slots = [] ∧ t.reck.shares = Tab.all c.part.parts (fun _ x => c.boundShare x) ∧
    t.reg.masters = c.windowMasters.foldl (fun (l : Tab RegMaster) e => Tab.put l e.1 e.2) c.restMasters ∧ t = { c with reg := t.reg, reck := { c.reck with shares := t.reck.shares } }) ∧
  (∀ (s : State), (s.now % 10 ≠ 0 ∨ s.reg.begun = some s.now) → exec .regulationWindow s = .next s) ∧
  (∀ pmin n, 1 ≤ n → sumN ((List.range n).map (otMinOf pmin n)) = pmin) ∧
  (∀ pmin n i j, i < n → j < n → otMinOf pmin n i ≤ otMinOf pmin n j + 1)

namespace Sys2Proof.Spec

/-- The root that a leaf's hash and its audit path give in a tree of n leaves (R482, R484): the path's last node is the sibling at the
top. -/
def rootFrom : (fuel n i hash : Nat) → List Nat → Nat
  | 0, _, _, h, _ => h
  | f + 1, n, i, h, path =>
    if n ≤ 1 then h
    else if i < splitAt n then nodeHash (rootFrom f (splitAt n) i h path.dropLast) (path.getLastD 0)
    else nodeHash (path.getLastD 0) (rootFrom f (n - splitAt n) (i - splitAt n) h path.dropLast)

end Sys2Proof.Spec

/-- What the operating points, caps and hints do (R454-R464). A LIGHT hint's lowering of D_b is a free value (log entry 1), and no clause here
rests on it. What the power emergencies do (R457, R465-R467): each begins once, steps its ceiling, and ends when its release condition has
held. -/
def Obligations.PowerControl : Prop :=
  (∀ m (r : BitVec 64) s, Admitted s m 0 0 → bodyRsvd r.toNat [(0, 15, 0)] = false → 800 ≤ fldB r.toNat 0 2 → fldB r.toNat 0 2 ≤ 3000 →
    (s.powerSum ≤ fldB r.toNat 0 2 → exec (.moduleCap m r) s = .next (({ s with sys := { s.sys with capW := fldB r.toNat 0 2 } }).answerMsg m (.ok 0))) ∧
    (fldB r.toNat 0 2 < s.powerSum → exec (.moduleCap m r) s = .next (s.answerMsg m (.refused .overcommit 0)))) ∧
  (∀ mv ma s, s.boot.aon = true → exec (.meterSample mv ma) s = .next { s with reck := { s.reck with acc := s.reck.acc + mv * ma / 100, samples := s.reck.samples + 1 }, boot := { s.boot with mv := mv, ma := ma }, pow := { s.pow with recent := (mv * ma / 1000 :: s.pow.recent).take 1000, above := if s.sys.capW * 1000 < mv * ma / 1000 then s.pow.above + 1 else 0, past := if 78000 < ma ∨ 3600000 < mv * ma / 1000 then s.pow.past + 1 else 0, under := if 78000 < ma ∨ 3600000 < mv * ma / 1000 then 0 else s.pow.under + 1 } }) ∧
  (∀ b f s, (s.block b).powered = true → f = s.targetMhz b →
    (f < (s.block b).mhz → exec (.operatingPointChange b) s = .next (s.fallTo b f)) ∧
    ((s.block b).mhz < f → Tab.find s.pow.lead b = none → exec (.operatingPointChange b) s = .next { s with pow := { s.pow with volts := Tab.put s.pow.volts b (s.voltAt b f), lead := Tab.put s.pow.lead b s.now } }) ∧
    (∀ t, (s.block b).mhz < f → Tab.find s.pow.lead b = some t → s.voltAt b f ≤ s.volt b → t + 5 ≤ s.now → exec (.operatingPointChange b) s = .next { s.setBlock b { s.block b with mhz := f } with pow := { s.pow with lead := Tab.del s.pow.lead b } }) ∧
    (∀ t, (s.block b).mhz < f → Tab.find s.pow.lead b = some t → s.voltAt b f ≤ s.volt b → s.now < t + 5 → exec (.operatingPointChange b) s = .next s)) ∧
  (∀ (s : State), s.now % 100 = 0 → s.part.parts = [] → exec (.powerAllotment []) s = .next { s with free := s.free + 60, stn := { s.stn with heavy := s.stn.heavy.filter s.heavyRuns } }) ∧
  (∀ l p x (s : State), s.now % 100 = 0 → s.part.parts = [(p, x)] → exec (.powerAllotment l) s = .next (let u := (l.foldl (fun (s : State) m => s.profileBlock m) s).allotPower l p x; { u with free := u.free + 60, stn := { u.stn with heavy := u.stn.heavy.filter u.heavyRuns } })) ∧
  (∀ q (r : BitVec 128) e t k s, Ready s q 0x001F r.toNat 0 e → rsvdSet r.toNat (maskOf [(0, 15, 0), (2, 1, 0), (4, 31, 0), (8, 31, 0)]) = false → s.station? e.part (fldB r.toNat 0 2) = some t → t.engines ≠ [] → fldB r.toNat 4 4 ≤ 1000000 → 1 ≤ fldB r.toNat 8 4 → fldB r.toNat 8 4 ≤ 1000000 → k = stnKey e.part (fldB r.toNat 0 2) →
    (fld r.toNat 2 1 0 = 0 → exec (.hint q r) s = .next (State.answerCmd ((s.keyBlocks k).foldl (fun (s : State) b => s.setVolt b (s.voltAt b (s.block b).mhz)) { s with stn := { s.stn with heavy := s.stn.heavy.filter (fun x => x.2.1 != k) }, pow := { s.pow with hints := Tab.del s.pow.hints k } }) q (.ok 0))) ∧
    ((fld r.toNat 2 1 0 = 1 ∨ fld r.toNat 2 1 0 = 2) → exec (.hint q r) s = .next (({ s with stn := { s.stn with heavy := s.stn.heavy.filter (fun x => x.2.1 != k) }, pow := { s.pow with hints := Tab.put (Tab.del s.pow.hints k) k { heavy := fld r.toNat 2 1 0 == 2, start := s.now + fldB r.toNat 4 4, duration := fldB r.toNat 8 4, begun := false } } }).answerCmd q (.ok 0)))) ∧
  (∀ p id h s, Tab.find s.pow.hints (stnKey p id) = some h → h.begun = false → h.start ≤ s.now + (if h.heavy then 5 else 0) →
    exec (.hintPhaseStart p id) s = .next (State.reVolt { s with pow := { s.pow with hints := Tab.put s.pow.hints (stnKey p id) { h with begun := true } } } (stnKey p id))) ∧
  (∀ p id s, Tab.find s.pow.hints (stnKey p id) = none → s.stn.heavy.any (fun x => x.2.1 == stnKey p id && s.heavyRuns x) = true → exec (.hintPhaseStart p id) s = .next (s.reVolt (stnKey p id))) ∧
  (∀ p id s, (∀ h, Tab.find s.pow.hints (stnKey p id) = some h → s.now < h.start + h.duration) →
    exec (.hintPhaseEnd p id) s = .next (State.reVolt { s with stn := { s.stn with heavy := s.stn.heavy.filter (fun x => x.2.1 != stnKey p id || s.heavyRuns x) } } (stnKey p id))) ∧
  (∀ p id h s, Tab.find s.pow.hints (stnKey p id) = some h → h.start + h.duration ≤ s.now →
    exec (.hintPhaseEnd p id) s = .next (State.reVolt { s with stn := { s.stn with heavy := s.stn.heavy.filter (fun x => x.2.1 != stnKey p id || s.heavyRuns x) }, pow := { s.pow with hints := Tab.del s.pow.hints (stnKey p id) } } (stnKey p id))) ∧
  (∀ b s, (Tab.find s.pow.droop b = none → exec (.droopStretch b true) s = .next { s with pow := { s.pow with droop := Tab.put s.pow.droop b 0 } }) ∧
    (Tab.find s.pow.droop b = none → exec (.droopStretch b false) s = .next s) ∧
    (∀ n, Tab.find s.pow.droop b = some n → exec (.droopStretch b true) s = .next { s with pow := { s.pow with droop := Tab.put s.pow.droop b 0, stretched := Tab.put s.pow.stretched b ((Tab.getD s.pow.stretched b 0 + 1) % 2 ^ 32) } }) ∧
    (∀ n, Tab.find s.pow.droop b = some n → exec (.droopStretch b false) s = .next { s with pow := { s.pow with droop := if n + 1 < 64 then Tab.put s.pow.droop b (n + 1) else Tab.del s.pow.droop b, stretched := Tab.put s.pow.stretched b ((Tab.getD s.pow.stretched b 0 + 1) % 2 ^ 32) } })) ∧
  (∀ b s, (s.block b).powered = true → (s.block b).bound = none → (s.block b).wipe = none → (s.block b).resetting = false → Tab.find s.age.islands b = none → s.part.moves = [] → s.islandEmpty b = true →
    ∃ t, exec (.powerDownIsland b) s = .next t ∧ t.block b = { s.block b with powered := false, mhz := 1000, cycles := 0 } ∧ t = { s with fab := { s.fab with blocks := Tab.put s.fab.blocks b (t.block b) }, pow := t.pow }) ∧
  (∀ b s, (s.block b).bound ≠ none → exec (.powerDownIsland b) s = .next s) ∧
  (∀ (s : State), s.pow.cap.on = false → 1000 ≤ s.pow.above → exec .capEmergency s = .next (State.emergency { s with pow := { s.pow with cap := { s.pow.cap with on := true, moved := s.now } } } s 1)) ∧
  (∀ (s : State), s.pow.cap.on = true → exec .capEmergency s = .next s) ∧
  (∀ (s : State), s.pow.cap.on = true → s.pow.cap.moved + 100 ≤ s.now → exec (.ceilingStep 1) s = .next (State.applyCeilings { s with pow := { s.pow with cap := { s.pow.cap with mhz := max 400 (s.pow.cap.mhz - 25), moved := s.now } } })) ∧
  (∀ (s : State), s.pow.therm.on = false → s.pow.therm.mhz < 1000 → s.pow.therm.moved + 1000 ≤ s.now → exec (.ceilingStep 3) s = .next (State.applyCeilings { s with pow := { s.pow with therm := { s.pow.therm with mhz := min 1000 (s.pow.therm.mhz + 25), moved := s.now } } })) ∧
  (∀ (s : State), 2 ≤ s.pow.past → s.pow.overOn = false → ∃ t : State, exec .overcurrent s = .next (t.applyCeilings.emergency s 2) ∧ t.pow.overOn = true ∧ t.pow.past = 0 ∧
    t.pow.overCeil = s.fab.blocks.filterMap (fun e => if e.2.powered then some (e.1, max 400 (e.2.mhz / 2 / 25 * 25)) else none) ∧ t = { s with pow := t.pow }) ∧
  (∀ (s : State), 2 ≤ s.pow.past → s.pow.overOn = true → exec .overcurrent s = .next (State.applyCeilings { s with pow := { s.pow with past := 0, overCeil := s.fab.blocks.filterMap (fun e => if e.2.powered then some (e.1, max 400 (e.2.mhz / 2 / 25 * 25)) else none) } })) ∧
  (∀ (s : State), s.pow.past < 2 → exec .overcurrent s = .next s) ∧
  (∀ b temp s, 950 ≤ temp → s.pow.therm.on = false → exec (.thermal b temp) s = .next (State.emergency { s with pow := { s.pow with temps := Tab.put s.pow.temps b temp, coolAt := if (Tab.put s.pow.temps b temp).all (fun e => decide (e.2 < 920)) then some (s.pow.coolAt.getD s.now) else none, therm := { s.pow.therm with on := true, moved := s.now } } } s 3)) ∧
  (∀ b temp s, temp < 950 → exec (.thermal b temp) s = .next { s with pow := { s.pow with temps := Tab.put s.pow.temps b temp, coolAt := if (Tab.put s.pow.temps b temp).all (fun e => decide (e.2 < 920)) then some (s.pow.coolAt.getD s.now) else none } }) ∧
  (∀ c temp s, 950 < temp → s.pow.dimm = false → ∃ t : State, exec (.dimmThermal c temp) s = .next (t.applyCeilings.emergency s 4) ∧ t.pow.dimm = true ∧ t.pow.dimmTemps = Tab.put s.pow.dimmTemps c temp ∧ t = { s with pow := t.pow }) ∧
  (∀ (s : State), s.pow.overOn = true → 100 ≤ s.pow.under → exec (.emergencyRelease 2) s = .next (State.drive { s with pow := { s.pow with overOn := false, overMoved := s.now } } s)) ∧
  (∀ t (s : State), s.pow.therm.on = true → s.pow.coolAt = some t → t + 10000 ≤ s.now → exec (.emergencyRelease 3) s = .next (State.drive { s with pow := { s.pow with therm := { s.pow.therm with on := false, moved := s.now } } } s)) ∧
  (∀ t (s : State), s.pow.dimm = true → s.pow.dimmCool = some t → t + 100000 ≤ s.now → exec (.emergencyRelease 4) s = .next (State.drive { s with pow := { s.pow with dimm := false } } s)) ∧
  (∀ b temp s, 1100 ≤ temp → s.pow.tripped = false → ∃ t : State, exec (.trip b temp) s = .next (t.drive s) ∧ t = { s with sys := t.sys, host := t.host, stn := t.stn, fab := t.fab, link := t.link, dram := t.dram, xlt := t.xlt, fail := t.fail, pow := t.pow, age := t.age, boot := t.boot, sent := t.sent, log := t.log } ∧ t.sys.state = .withdrawn ∧ t.pow.tripped = true ∧ t.boot.tripPin = true ∧ t.fail.withdraw = some { cause := 8, evacuable := false, noticed := s.now })

/-- What the reckoning commands do (R470-R488). Closing a reckoning makes it a leaf with the next SEQ, closes the account, and changes no other
account (R478, R480). -/
def Obligations.Reckonings : Prop :=
  (∀ l s, s.now % 1000 = 0 → s.now ≠ 0 → s.reck.lastWin ≠ s.now → exec (.reconciliationWindow l) s = .next (s.reconcile (if s.sys.state = .doze then [] else l))) ∧
  (∀ l s, s.reck.lastWin = s.now → exec (.reconciliationWindow l) s = .next s) ∧
  (∀ p req a s, Tab.find s.reck.accounts (acctKey p req) = some a → req ≠ 0 → a.session = 0 → a.lastCharge + s.zh 96 * 1000 ≤ s.now → ∃ t, exec (.reckoningIdleClose p req) s = .next t ∧ s.reckClose p req flagIdle = (t, some s.reck.nextSeq)) ∧
  (∀ p req a s, Tab.find s.reck.accounts (acctKey p req) = some a → a.session ≠ 0 → exec (.reckoningIdleClose p req) s = .next s) ∧
  (∀ (s : State), s.sys.state ≠ .doze → s.reck.opened + 1000000 ≤ s.now → exec .reckoningEpochClose s = .next s.epochClose) ∧
  (∀ (s : State), s.sys.state = .doze → exec .reckoningEpochClose s = .next s) ∧
  (∀ e l (s : State), s.reck.unsigned = e :: l → (e.closed ≤ s.reck.lastWin ∨ s.sys.state = .withdrawn) → s.innTurn 2 0 0 = true → ∃ t, exec .reckoningRootSigned s = .next (State.served t 2 0) ∧ t = { s with host := t.host, dram := t.dram, reck := t.reck, hostMem := t.hostMem, sent := t.sent } ∧ t.reck.unsigned = l ∧ t.reck.prevRoot = some (merkle 17 (e.leaves.map (fun l => leafHash (s.recordOf e.num l))))) ∧
  (∀ (s : State), s.innTurn 2 0 0 = false → exec .reckoningRootSigned s = .next s) ∧
  (∀ p x s, s.part? p = some x → (x.backlogStop = false → 4096 ≤ (Tab.getD s.reck.held p []).length → exec (.reckoningBacklog p) s = .next ((s.updPart p (fun x => { x with backlogStop := true })).event 0x001B p 0 false 0 0xFFFF 0)) ∧
    (x.backlogStop = true → (Tab.getD s.reck.held p []).length < 3072 → exec (.reckoningBacklog p) s = .next (s.updPart p (fun x => { x with backlogStop := false })))) ∧
  (∀ p q g x l s, s.reckRing p = some (q, g) → Tab.getD s.reck.held p [] = x :: l → g.room = true → l ≠ [] → ∃ t : State, exec (.reckoningRingWrite p) s = .next { t with reck := { t.reck with held := Tab.put t.reck.held p l } } ∧
    t = s.writeRing q g (fun seq phase => plcB 0 4 seq ||| plc 4 7 7 phase ||| plcB 5 1 x.kind ||| plcB 6 2 x.part ||| plcB 8 8 x.epoch ||| x.payload <<< 128)) ∧
  (∀ (s : State), s.now % 100000 = 0 → s.now ≠ 0 → ∃ t : State, exec .liveReadings s = .next { t with reck := { t.reck with live := [], liveMeter := 0, liveDomains := [] } } ∧ t = s.reckRings.foldl (fun (s : State) p => (s.holdItems p (if p = 0 then s.operatorItems else s.tenantItems p)).deliverHeld p) s) ∧
  (∀ m s, Admitted s m 0 0 → exec (.clockRead m 0) s = .next (s.answerMsg m (.ok s.now))) ∧
  (∀ p req flags a (s : State), Tab.find s.reck.accounts (acctKey p req) = some a → s.reck.leaves.length + s.reck.sealCount < 65535 →
    ∃ t, s.reckClose p req flags = (t, some s.reck.nextSeq) ∧ t.reck.nextSeq = s.reck.nextSeq + 1 ∧ t.reck.leaves = s.reck.leaves ++ [{ seq := s.reck.nextSeq, endUs := s.now, acct := { a with flags := a.flags ||| flags } }] ∧ Tab.find t.reck.accounts (acctKey p req) = none ∧
      (∀ k, k ≠ acctKey p req → Tab.find t.reck.accounts k = Tab.find s.reck.accounts k) ∧ t = { s with reck := t.reck })

/-- Whole units are shared out whole: the shares of a division add up to its quotient (R475). -/
def Obligations.SharesAddUp : Prop :=
  ∀ num den l, 0 < den → 0 < sumN (l.map (·.2)) → (shareOut num den l).length = l.length ∧ sumN (shareOut num den l) = num / den

/-- Every leaf's audit path leads to the signed root (R482-R484). -/
def Obligations.AuditPaths : Prop :=
  ∀ fuel (l : List Nat) i, i < l.length → l.length ≤ 2 ^ fuel → rootFrom fuel l.length i (l.getD i 0) (auditPath fuel i l) = merkle fuel l

/-- What the management sessions, attestation, life cycle and weight commands do (R333, R491-R507). The verdicts of unwrapping and of signatures
are operands; keys, hashes and random numbers are free functions (log entry 1). A frame whose TAG verifies is accepted once: its SEQ becomes
the session's, and the same frame again is refused as a replay (R333). -/
def Obligations.Security : Prop :=
  (∀ n m px tagOk s, (s.port n).take 0x0D = some (m, px) → exec (.mgmtTxn n tagOk) s = .next ((s.setPort n px).checkFrame (ofBytes ((m.bytes.drop 32).take 24)) tagOk)) ∧
  (∀ (h : BitVec 192) tagOk s, s.boot.aon = true → exec (.uartFrame h true tagOk) s = .next (s.checkFrame h.toNat tagOk) ∧ exec (.uartFrame h false tagOk) s = .next s) ∧
  (∀ m (nonce : BitVec 384) s, s.sec.lc ≠ .retired →
    exec (.handshakeInit m nonce false 0) s = .next (s.answerMsg m (.refused .keyUnwrap 0)) ∧
    (∀ ok rsvd, rsvd ≠ 0 → exec (.handshakeInit m nonce ok rsvd) s = .next (s.answerMsg m (.refused .rsvdSet 0))) ∧
    exec (.handshakeInit m nonce true 0) s = .next (State.emitOut { s with free := s.free + 1, sec := { s.sec with nextSession := s.sec.nextSession + 1, half := s.sec.half ++ [{ session := s.sec.nextSession, begun := s.now, parts := 0 }] } } (.msg (.initiator s.sec.nextSession) 0x0702 [Config.random s.free % 2 ^ 384, s.sec.nextSession, Config.hmac s.sec.nextSession (nonce.toNat + Config.random s.free % 2 ^ 384 * 2 ^ 384)]))) ∧
  (∀ m session n x node s, s.sec.half.find? (fun x => x.session == session) = some x → n = x.parts + 1 → s.sec.sessions.length < 64 →
    exec (.handshakeFinish m session x.parts n true true node 0) s = .next (({ s with sec := { s.sec with half := s.sec.half.filter (fun y => y.session != session), sessions := Tab.put s.sec.sessions session { peer := node, seqIn := 0, seqOut := 0, used := s.now, badTags := 0 } } }).answerMsg m (.ok session)) ∧
    (∀ part k ok a rsvd, rsvd ≠ 0 → exec (.handshakeFinish m session part k ok a node rsvd) s = .next (s.answerMsg m (.refused .rsvdSet 0))) ∧
    (∀ a, exec (.handshakeFinish m session x.parts n false a node 0) s = .next (({ s with sec := { s.sec with half := s.sec.half.filter (fun y => y.session != session) } }).answerMsg m (.refused .badSignature 0)))) ∧
  (∀ n s, exec (.handshakeTimeout n) s = .next { s with sec := { s.sec with half := s.sec.half.filter (fun x => !(x.session == n && decide (x.begun + 1000000 ≤ s.now))) } }) ∧
  (∀ m (r : BitVec 448) s, rsvdSet r.toNat (maskOf [(0, 383, 0), (48, 7, 0)]) = false →
    (fldB r.toNat 48 1 = 0 → exec (.attestRequest m r) s = .next ((s.answerMsg m (.ok 0)).sendParts m 0 (s.signedReport (fldB r.toNat 0 48)))) ∧
    (2 < fldB r.toNat 48 1 → exec (.attestRequest m r) s = .next (s.answerMsg m (badParam 48 0)))) ∧
  (∀ m (id : BitVec 32) key s, Admitted s m 0 0 → s.sec.sets.length < 16 →
    exec (.weightSetJoin m id key true 0) s = .next (({ s with sec := { s.sec with sets := Tab.put s.sec.sets id.toNat key } }).answerMsg m (.ok 0)) ∧ exec (.weightSetJoin m id key false 0) s = .next (s.answerMsg m (.refused .keyUnwrap 0)) ∧
    (∀ ok rsvd, rsvd ≠ 0 → exec (.weightSetJoin m id key ok rsvd) s = .next (s.answerMsg m (.refused .rsvdSet 0)))) ∧
  (∀ m (id : BitVec 32) key s, 16 ≤ s.sec.sets.length → Tab.has s.sec.sets id.toNat = false → exec (.weightSetJoin m id key true 0) s = .next (s.answerMsg m (.refused .setFull 0))) ∧
  (∀ m (r : BitVec 64) s, Admitted s m 0 0 → bodyRsvd r.toNat [(0, 31, 0)] = false → exec (.weightSetLeave m r) s = .next (({ s with sec := { s.sec with sets := Tab.del s.sec.sets (fldB r.toNat 0 4) } }).answerMsg m (.ok 0))) ∧
  (∀ q (r : BitVec 256) e key x src dst blob a n s, Ready s q 0x0026 r.toNat 0 e → s.ringFrozen q = false → rsvdSet r.toNat (maskOf [(0, 31, 0), (4, 31, 0), (8, 31, 0), (12, 31, 0), (16, 31, 0), (20, 31, 0)]) = false → Tab.find s.sec.sets (fldB r.toNat 0 4) = some key → s.part? e.part = some x →
    s.obj? e.part (fldB r.toNat 4 4) = some src → s.obj? e.part (fldB r.toNat 12 4) = some dst → dst.host = false → 1 ≤ fldB r.toNat 20 4 → fldB r.toNat 16 4 = cdiv (fldB r.toNat 20 4) 65536 → fldB r.toNat 20 4 ≤ dst.length →
    s.readObj src (fldB r.toNat 8 4) (fldB r.toNat 20 4 + 16 * fldB r.toNat 16 4) = some blob → s.sealRange x dst = some (a, n) → (x.sealedRanges.filter (fun y => y.1 != fldB r.toNat 12 4)).length < 16 →
    exec (.weightLoad q r) s = .next (match openBlob key (fldB r.toNat 0 4) (fldB r.toNat 16 4) (fldB r.toNat 20 4) (fldB r.toNat 16 4) 0 blob with
      | none => (s.carvePut x a (List.replicate n 0)).answerCmd q (.refused .blobTag 0)
      | some b => ((s.carvePut x (a + dst.va % 4096) b).updPart e.part (fun y => { y with sealedRanges := y.sealedRanges.filter (fun z => z.1 != fldB r.toNat 12 4) ++ [(fldB r.toNat 12 4, a, n)], sealedSets := Tab.put y.sealedSets (fldB r.toNat 12 4) (fldB r.toNat 0 4) })).answerCmd q (.ok 0))) ∧
  (∀ q (r : BitVec 64) e x y s, Ready s q 0x0027 r.toNat 0 e → s.ringFrozen q = false → rsvdSet r.toNat (maskOf [(0, 31, 0)]) = false → s.part? e.part = some x → x.sealedRanges.find? (fun y => y.1 == fldB r.toNat 0 4) = some y →
    exec (.weightRelease q r) s = .next (((s.carvePut x y.2.1 (List.replicate y.2.2 0)).updPart e.part (fun z => { z with sealedRanges := z.sealedRanges.filter (fun w => w.1 != fldB r.toNat 0 4), sealedSets := Tab.del z.sealedSets (fldB r.toNat 0 4) })).answerCmd q (.ok 0))) ∧
  (∀ m (r : BitVec 896) s, Admitted s m 0 0 → s.fw.act = none → bodyRsvd r.toNat [(0, 7, 0), (1, 0, 0), (8, 383, 0), (56, 383, 0)] = false → s.part.parts = [] →
    (∀ next, s.transition m (fldB r.toNat 0 1) (bit r.toNat 1 0) = some (next, false) → exec (.lifecycleSet m r) s = .next (({ s with sec := { s.sec with change := some (next, none) } }).answerMsg m (.ok 0))) ∧
    (∀ next, s.transition m (fldB r.toNat 0 1) (bit r.toNat 1 0) = some (next, true) → s.sec.banks.length < 4 → exec (.lifecycleSet m r) s = .next (({ s with sec := { s.sec with change := some (next, some { rsa := fldB r.toNat 8 48, slh := fldB r.toNat 56 48 }) } }).answerMsg m (.ok 0))) ∧
    (s.transition m (fldB r.toNat 0 1) (bit r.toNat 1 0) = none → exec (.lifecycleSet m r) s = .next (s.answerMsg m (.refused .badTransition 0)))) ∧
  (∀ m s, Admitted s m 0 0 → s.owner m = true → exec (.serviceToken m true true true) s = .next (({ s with sec := { s.sec with token := true } }).answerMsg m (.ok 0)) ∧
    exec (.serviceToken m true true false) s = .next (s.answerMsg m (.refused .wrongUnit 0)) ∧ exec (.serviceToken m true false true) s = .next (s.answerMsg m (.refused .badSignature 0))) ∧
  (∀ m (r : BitVec 256) s, Admitted s m 0 0 →
    ((s.sec.lc = .owned ∨ s.sec.lc = .retired) → exec (.debugAccess m r) s = .next (s.answerMsg m (.refused .locked 0))) ∧
    ((s.sec.lc = .factory ∨ s.sec.lc = .service) → s.owner m = true → bodyRsvd r.toNat [(0, 7, 0), (8, 63, 0), (16, 63, 0)] = false → s.installed (fldB r.toNat 8 8) = true →
      (fldB r.toNat 0 1 = 0 → exec (.debugAccess m r) s = .next (({ s with sec := { s.sec with debug := true } }).answerMsg m (.ok (ofBytes (s.dramL (fldB r.toNat 8 8) 8))))) ∧
      (fldB r.toNat 0 1 = 1 → exec (.debugAccess m r) s = .next ((State.dramWrite { s with sec := { s.sec with debug := true } } (fldB r.toNat 8 8) (bytesOf 8 (fldB r.toNat 16 8))).answerMsg m (.ok 0))))) ∧
  (∀ m (r : BitVec 64) k n s, Admitted s m 0 0 → bodyRsvd r.toNat [(0, 31, 0), (4, 7, 0)] = false → masterOfBody (fldB r.toNat 4 1) (fldB r.toNat 0 4) = some (k, n) →
    (k = .port → n < 12 → s.portPresent n = false → exec (.masterRelease m r) s = .next (s.answerMsg m (.refused .unitAbsent 0))) ∧
    ((k ≠ .port ∨ 12 ≤ n ∨ s.portPresent n = true) → s.sys.frozen.find? (fun f => f.kind == k && f.num == n) = none → exec (.masterRelease m r) s = .next (s.answerMsg m (.refused .notFrozen 0))) ∧
    (∀ f, (k ≠ .port ∨ 12 ≤ n ∨ s.portPresent n = true) → s.sys.frozen.find? (fun f => f.kind == k && f.num == n) = some f →
      exec (.masterRelease m r) s = .next ((s.addCapture f.part 6 n (match (masterEngine k n).bind s.engine? with | some e => e.station | none => 0xFFFF) (.master k n)).answerMsg m (.ok 0)))) ∧
  (∀ h x (s : State), handshakeMsg (fldB h 0 2) = false → (fldB h 0 2 ≠ 0x0704 ∨ fldB h 4 4 ≠ 0) → Tab.find s.sec.sessions (fldB h 4 4) = some x → x.seqIn < fldB h 8 8 →
    ∃ t y, s.checkFrame h true = t ∧ Tab.find t.sec.sessions (fldB h 4 4) = some y ∧ y.seqIn = fldB h 8 8 ∧
      t.checkFrame h true = t.refuseFrame { session := fldB h 4 4, corr := fldB h 16 4, msg := fldB h 0 2 } .replay)

/-- What the firmware commands do (R508-R515). A bundle's images are operands. -/
def Obligations.Firmware : Prop :=
  (∀ m (r : BitVec 128) s, Admitted s m 0 0 → bodyRsvd r.toNat [(0, 7, 0), (4, 31, 0)] = false → fldB r.toNat 0 1 ≤ 1 → 1 ≤ fldB r.toNat 4 4 → fldB r.toNat 4 4 ≤ slotBytes → s.fw.act = none →
    (s.fw.runsFrom (fldB r.toNat 0 1 == 1) = false → exec (.firmwareBegin m r) s = .next (({ s with fw := { s.fw with opened := some { slot := fldB r.toNat 0 1 == 1, bytes := fldB r.toNat 4 4, session := m.session, pieces := [] } } }).answerMsg m (.ok 0))) ∧
    (s.fw.runsFrom (fldB r.toNat 0 1 == 1) = true → exec (.firmwareBegin m r) s = .next (s.answerMsg m (.refused .slotInUse 0)))) ∧
  (∀ m (h : BitVec 128) data o p s, Admitted s m 0 0 → s.fw.opened = some o → o.session = m.session → bodyRsvd h.toNat [(0, 15, 0), (2, 7, 0), (4, 31, 0)] = false → fldB h.toNat 0 2 * 65536 < o.bytes → fldB h.toNat 2 1 ≤ 31 →
    p = Tab.put o.pieces (fldB h.toNat 0 2 * 32 + fldB h.toNat 2 1) ((data ++ List.replicate 2048 0).take 2048) →
    (fldB h.toNat 2 1 < 31 → fldB h.toNat 0 2 * 65536 + fldB h.toNat 2 1 * 2048 + 2048 < o.bytes → exec (.firmwareWrite m h data) s = .next (({ s with fw := { s.fw with opened := some { o with pieces := p } } }).answerMsg m (.ok 0))) ∧
    (∀ b, o.bytes ≤ fldB h.toNat 0 2 * 65536 + fldB h.toNat 2 1 * 2048 + 2048 → b = blockBytes { o with pieces := p } (fldB h.toNat 0 2) (min 65536 (o.bytes - fldB h.toNat 0 2 * 65536)) →
      exec (.firmwareWrite m h data) s = .next (({ s with fw := { s.fw with opened := some { o with pieces := p.filter (fun e => e.1 / 32 != fldB h.toNat 0 2) }, flash := Memory.writeL s.fw.flash (slotBase o.slot + fldB h.toNat 0 2 * 65536) b } }).answerMsg m (if crc32c b = fldB h.toNat 4 4 then .ok 0 else .refused .blockCrc 0)))) ∧
  (∀ m (r : BitVec 64) images s, bodyRsvd r.toNat [(0, 7, 0)] = false → fldB r.toNat 0 1 ≤ 1 →
    (s.fw.act ≠ none → exec (.firmwareActivate m r images) s = .next (s.answerMsg m (.busy .activationInProgress 0))) ∧
    (∀ c, s.fw.act = none → images.findSome? s.imageBad = some c → exec (.firmwareActivate m r images) s = .next (s.answerMsg m (.refused c 0))) ∧
    (∀ order, s.fw.act = none → images.findSome? s.imageBad = none → (sortBy (·.hwType) images).map (·.hwType) = [1, 2, 3, 4, 5] → s.sys.state ≠ .recovery → activationOrder 5 s.fw.running (sortBy (·.hwType) images) = some order →
      exec (.firmwareActivate m r images) s = .next (s.nextSwitch { ref := m, slot := fldB r.toNat 0 1 == 1, images := (sortBy (·.hwType) images).map (fun i => (i.hwType, i)), order := order, unitNow := 0, begun := s.now } 6))) ∧
  (∀ a ty rest i t s, s.fw.act = some a → a.order = ty :: rest → Tab.find a.images ty = some i →
    t = State.noteSwitch (State.switchEffect { s with fw := { s.fw with run := Tab.put s.fw.run (fwKey ty a.unitNow) { slot := a.slot, image := i }, record := Tab.put s.fw.record (fwKey ty a.unitNow) { slot := a.slot, image := i } }, sys := { s.sys with fwInnkeeper := if ty = 2 then i.version else s.sys.fwInnkeeper } } ty a.unitNow) ty a.unitNow →
    (t.fail.withdraw ≠ none → exec .firmwareSwitchReady s = .next (({ t with fw := { t.fw with act := none } }).answerMsg a.ref (.busy .evacuating 0))) ∧
    (∀ u, t.fail.withdraw = none → (t.unitsOf ty).find? (fun u => decide (a.unitNow < u)) = some u → exec .firmwareSwitchReady s = .next { t with fw := { t.fw with act := some { a with unitNow := u, begun := t.now } } }) ∧
    (t.fail.withdraw = none → (t.unitsOf ty).find? (fun u => decide (a.unitNow < u)) = none → exec .firmwareSwitchReady s = .next (t.nextSwitch { a with order := rest } 6))) ∧
  (∀ a (s : State), a.order = [] → s.nextSwitch a 6 = ({ s with fw := { s.fw with act := none } }).answerMsg a.ref (.ok 0)) ∧
  (∀ a ty rest (s : State), a.order = ty :: rest → ty ≠ 1 → s.nextSwitch a 6 = { s with fw := { s.fw with act := some { a with unitNow := (s.unitsOf ty).headD 0, begun := s.now } } }) ∧
  (∀ a s, s.fw.act = some a → (a.begun + 1000000 ≤ s.now → exec .firmwareSwitchTimeout s = .next (({ s with fw := { s.fw with act := none } }).answerMsg a.ref (.refused .badSignature (a.order.headD 0 + a.unitNow * 256)))) ∧
    (s.now < a.begun + 1000000 → exec .firmwareSwitchTimeout s = .next s)) ∧
  (∀ m s, Admitted s m 0 0 → (([1, 2, 3, 4, 5] : List Nat).all s.oneSlot = true → ∃ l, exec (.firmwareCommit m 0) s = .next (({ s with fw := { s.fw with minSvn := l } }).answerMsg m (.ok 0)) ∧ ∀ ty, 1 ≤ ty → ty ≤ 5 → Tab.getD l ty 0 = max (Tab.getD s.fw.minSvn ty 0) (s.runSvn ty)) ∧
    (([1, 2, 3, 4, 5] : List Nat).all s.oneSlot = false → exec (.firmwareCommit m 0) s = .next (s.answerMsg m (.refused .badTransition 0))))

/-- What the power, reset and SMBus pins do (R537-R547, R523, R525). A device reset keeps the fuses, the flash, the fault log and what AON
holds, and leaves every partition, session and reckoning gone (R497, R518, R525, R533, R556). What the start, doze, the fault log and the
descriptors' write-back do (R437, R519-R527, R556). A step's result is an operand. -/
def Obligations.PinsAndStart : Prop :=
  (∀ (slot : BitVec 6) s, s.boot.aon = false → exec (.aonStart slot) s = .next { s with boot := { s.boot with aon := true, closed := true, slotId := slot.toNat } }) ∧
  (∀ n s, s.boot.enLow = some n → s.pow.hot = false → exec .pwrEnAssert s = .next (State.drive { s with boot := { s.boot with enLow := none }, pow := { s.pow with tripped := s.pow.tripped && decide (n < 1000000) } } s)) ∧
  (∀ n s, s.boot.enLow = some n → s.pow.hot = true → exec .pwrEnAssert s = .next s) ∧
  (∀ (s : State), s.boot.enLow = none → exec .pwrEnDeassert s = .next (State.drive { s.powerLoss with boot := { s.powerLoss.boot with enLow := some 0, tripPin := false } } s.powerLoss)) ∧
  (∀ (s : State), s.boot.pwrgd = false → s.boot.aon = true → s.boot.enLow = none → s.boot.closed = true → exec .pwrgdStart s = .next (State.drive { s with boot := { s.boot with pwrgd := true, running := s.boot.resetLow.isNone } } s)) ∧
  (∀ (s : State), s.boot.aon = true → exec .powerFail s = .next s.inputLoss ∧ exec .overVoltageCutoff s = .next { s.inputLoss with boot := { s.inputLoss.boot with closed := false } }) ∧
  (∀ (s : State), s.boot.resetLow = none → exec .resetNAssert s = .next { s with boot := { s.boot with resetLow := some 0 } }) ∧
  (∀ n (s : State), s.boot.resetLow = some n →
    (n < 100 → exec .resetN s = .next { s with boot := { s.boot with resetLow := none } }) ∧
    (100 ≤ n → s.boot.pwrgd = true → exec .resetN s = .next (State.restart { s with boot := { s.boot with resetLow := none } }))) ∧
  (∀ c d s, exec (.smbusWrite c d) s = .next s) ∧
  (∀ (s : State), s.deviceReset.part = PartUnit.reset ∧ s.deviceReset.ses = SessUnit.reset ∧ s.deviceReset.host = HostUnit.reset ∧ s.deviceReset.fen = FenceUnit.reset ∧ s.deviceReset.stn = StationUnit.reset ∧ s.deviceReset.dram = DramUnit.reset ∧ s.deviceReset.reck.accounts = [] ∧ s.deviceReset.sys.state = .starting ∧ s.deviceReset.sys.nodeId = 0xFFFF ∧
    s.deviceReset.sec.lc = s.sec.lc ∧ s.deviceReset.sec.banks = s.sec.banks ∧ s.deviceReset.sec.sessions = [] ∧ s.deviceReset.fw.flash = s.fw.flash ∧ s.deviceReset.fw.minSvn = s.fw.minSvn ∧ s.deviceReset.age = { AgeUnit.reset with moduleH := s.age.moduleH, moduleUs := s.age.moduleUs } ∧ s.deviceReset.log = s.log ∧ s.deviceReset.sys.serial = s.sys.serial ∧ s.deviceReset.boot.steps = []) ∧
  (∀ n i (s : State), s.boot.running = true → s.boot.steps.contains n = false → (stepAfter n).all (fun k => s.boot.steps.contains k) = true → exec (.startStepComplete n i) s = .next ((s.endStep n i).drive s)) ∧
  (∀ n i (s : State), s.boot.running = false → exec (.startStepComplete n i) s = .next s) ∧
  (∀ m (h : BitVec 128) data s, Admitted s m 0 0 → s.sys.state ≠ .recovery → s.owner m = true → bodyRsvd h.toNat [(0, 7, 0), (2, 15, 0)] = false → fldB h.toNat 0 1 ≤ 1 → fldB h.toNat 2 2 ≤ 17 →
    (s.boot.zhohiCopy ≠ some (fldB h.toNat 0 1) → fldB h.toNat 2 2 = 0 → exec (.zhohiWrite m h data) s = .next (({ s with fw := { s.fw with flash := Memory.writeL (s.fw.flash.filter (fun c => !(decide (zhohiBase (fldB h.toNat 0 1) ≤ c.1) && decide (c.1 < zhohiBase (fldB h.toNat 0 1) + 0x80000)))) (zhohiBase (fldB h.toNat 0 1)) ((data ++ List.replicate 2048 0).take 2048) } }).answerMsg m (.ok 0))) ∧
    (s.boot.zhohiCopy ≠ some (fldB h.toNat 0 1) → fldB h.toNat 2 2 ≠ 0 → exec (.zhohiWrite m h data) s = .next (({ s with fw := { s.fw with flash := Memory.writeL s.fw.flash (zhohiBase (fldB h.toNat 0 1) + 2048 * fldB h.toNat 2 2) ((data ++ List.replicate 2048 0).take 2048) } }).answerMsg m (.ok 0))) ∧
    (s.boot.zhohiCopy = some (fldB h.toNat 0 1) → exec (.zhohiWrite m h data) s = .next (s.answerMsg m (.refused .slotInUse 0)))) ∧
  (∀ m s, Admitted s m 0 0 →
    (s.owner m = true → s.dozeOk = true → s.crossingsEmpty = true → exec (.dozeEnter m) s = .next (s.enterDoze.answerMsg m (.ok 0))) ∧
    (s.owner m = true → s.dozeOk = true → s.crossingsEmpty = false → exec (.dozeEnter m) s = .next (State.answerMsg { s with boot := { s.boot with dozeWait := true } } m (.ok 0))) ∧
    (s.owner m = true → s.dozeOk = false → exec (.dozeEnter m) s = .next (s.answerMsg m (.refused .inUse 0))) ∧
    (s.owner m = false → exec (.dozeEnter m) s = .next (s.answerMsg m (.refused .notAuthorised 0)))) ∧
  (∀ m s, Admitted s m 0 0 → exec (.dozeExit m) s = .next (s.wake.answerMsg m (.ok 0))) ∧
  (∀ (s : State), s.boot.dozeLow = none → exec .dozeReqNAssert s = .next { s with boot := { s.boot with dozeLow := some 0 } }) ∧
  (∀ n (s : State), s.boot.dozeLow = some n → exec .dozeReqNRelease s = .next (State.wake { s with boot := { s.boot with dozeLow := none, dozeWait := false } })) ∧
  (∀ m px s, (s.port 12).take 0x0E = some (m, px) → exec .wake s = .next (s.setPort 12 px).wake) ∧
  (∀ m (r : BitVec 128) s, s.owner m = true → bodyRsvd r.toNat [(0, 63, 0), (8, 15, 0)] = false → 1 ≤ fldB r.toNat 8 2 → fldB r.toNat 8 2 ≤ 62 →
    exec (.faultLogRead m r) s = .next ((s.answerMsg m (.ok (match s.log with | e :: _ => e.seq | [] => 0))).emitOut (.msg (.initiator m.session) 0x0807 [logPart ((s.heldLog.filter (fun e => decide (fldB r.toNat 0 8 ≤ e.seq))).take (fldB r.toNat 8 2))]))) ∧
  (∀ (s : State), s.now % 1000 = 0 → ∃ t : State, exec .queueDescriptorWriteback s = .next t ∧ t = { s with stn := { s.stn with descA := t.stn.descA, descB := t.stn.descB } } ∧
    (∀ q n, q ∈ s.stn.cached → s.descImage q = some n → Tab.find t.stn.descA q = some n ∧ Tab.find t.stn.descB q = some n) ∧
    (∀ q, q ∉ s.stn.cached ∨ s.descImage q = none → Tab.find t.stn.descA q = Tab.find s.stn.descA q ∧ Tab.find t.stn.descB q = Tab.find s.stn.descB q)) ∧
  (∀ (s : State), s.now % 1000 ≠ 0 → exec .queueDescriptorWriteback s = .next s)

/-- What the ageing commands do (R528-R535). A characterisation's measured values are operands. A margin plan never gives less than need and
guard, but for its cap at 100 mV (R529): a raw offset, over V(f), covers them, and by less than one step of 5 mV. -/
def Obligations.Ageing : Prop :=
  (∀ m s, Admitted s m 0 0 → exec (.horizonRead m) s = .next (s.answerMsg m (.ok s.horizon))) ∧
  (∀ b s, b < 60 → (s.island b).planH + s.zh 102 ≤ (s.island b).hours → (s.island b).due = none → exec (.marginPlanDue b) s = .next (s.setIsland b { s.island b with due := some s.now })) ∧
  (∀ b khz s, b < 60 → khz * 100 ≤ (s.island b).roKhz * 97 → (s.island b).due = none → exec (.ringOscillatorRead b khz) s = .next (s.setIsland b { s.island b with due := some s.now })) ∧
  (∀ b khz s, (s.island b).roKhz * 97 < khz * 100 → exec (.ringOscillatorRead b khz) s = .next s) ∧
  (∀ b s, b < 60 → (s.island b).due ≠ none → (s.island b).quiet = none → (s.block b).bound ≠ none → s.islandIdle b = true → exec (.idleWindowFound b) s = .next (s.setIsland b { s.island b with quiet := some s.now, quiesceAt := none })) ∧
  (∀ b s, b < 60 → (s.island b).due ≠ none → (s.island b).quiet = none → (s.block b).bound = none → (s.block b).wipe = none → (∀ v ∈ s.part.moves, v.src ≠ b) →
    exec (.idleWindowFound b) s = .next ((s.updBlock b (fun k => { k with powered := true, quiesced := true })).setIsland b { s.island b with quiet := some s.now })) ∧
  (∀ b m khz s, (s.island b).quiet ≠ none → exec (.quietWindowDone b m khz) s = .next (s.characterised b m khz)) ∧
  (∀ b t p name s, (s.island b).due = some t → (s.block b).bound = some (p, name) → (s.island b).quiet = none → (s.island b).quiesceAt = none → (s.island b).draining = false → t + s.zh 108 * 3600000000 ≤ s.now →
    exec (.quietWaitExpire b) s = .next (((s.setIsland b { s.island b with quiesceAt := some (s.now + s.zh 110 * 1000000) }).emitOut (.msg .fabricManager 0x0804 [p, name, s.now + s.zh 110 * 1000000])).event 0x001E p 0 false 0 0xFFFF (plcB 0 1 name ||| plcB 8 8 (s.now + s.zh 110 * 1000000)))) ∧
  (∀ b t p name s, (s.block b).bound = some (p, name) → s.part.moves = [] → (s.island b).draining = false → (s.island b).quiesceAt = some t → t ≤ s.now →
    exec (.quiesceTime b) s = .next (s.setIsland b (if s.moveDrained { part := p, name := name, src := b, dst := b, step := 3, ref := { session := 0, corr := 0, msg := 0 } } then { s.island b with quiesceAt := none, quiet := some s.now } else { s.island b with quiesceAt := none, draining := true }))) ∧
  (∀ (s : State), (s.age.planned = true ∨ s.age.wroteH < s.now / 3600000000) → exec .wearRecordWrite s = .next { s with age := { s.age with seq := s.age.seq + 1, record := s.wearRecord (s.age.seq + 1), place := (s.age.place + 1) % 340, wroteH := s.now / 3600000000, planned := false }, fw := { s.fw with flash := putWear s.fw.flash s.age.place (s.wearRecord (s.age.seq + 1)) } }) ∧
  (∀ (s : State), s.age.planned = false → s.now / 3600000000 ≤ s.age.wroteH → exec .wearRecordWrite s = .next s) ∧
  (∀ needs guard k, needAt needs k + 12 * guard ≤ 7200 + 125 * k + 12 * rawOffset needs guard k ∧ 7200 + 125 * k + 12 * rawOffset needs guard k < needAt needs k + 12 * guard + 60 ∧
    (planOffsets needs guard).length = 25 ∧ ∀ o ∈ planOffsets needs guard, o ≤ 100)
end

