-- ==== Sys2Proof/Laws/Tab.lean ====
section
/-! SUPPORT. Sys2Proof/Laws/Tab.lean: what reading a table or a byte memory after a change gives, and that every memory operation keeps the
canonical form. -/

namespace Sys2Proof.Machine

variable {α β : Type}

@[simp] theorem Tab.find_nil (k : Nat) : Tab.find ([] : Sys2Proof.Tab α) k = none := rfl
@[simp] theorem Tab.find_cons (k k' : Nat) (v : α) (l : Sys2Proof.Tab α) : Tab.find ((k', v) :: l) k = if k = k' then some v else Tab.find l k := rfl

/-- A put entry is found at its key, and the entries at other keys are as before. -/
@[simp] theorem Tab.find_put (t : Sys2Proof.Tab α) (k k' : Nat) (v : α) : Tab.find (Tab.put t k v) k' = if k' = k then some v else Tab.find t k' := by
  induction t with
  | nil => simp [Tab.put]
  | cons a l ih =>
    obtain ⟨b, w⟩ := a
    unfold Tab.put
    split
    · simp
    · split
      · rename_i h
        subst h
        simp only [Tab.find_cons]
        split <;> rfl
      · rename_i h
        simp only [Tab.find_cons, ih]
        split
        · rename_i h'
          subst h'
          simp [Ne.symm h]
        · rfl

/-- A deleted key is not found, and the entries at other keys are as before. -/
@[simp] theorem Tab.find_del (t : Sys2Proof.Tab α) (k k' : Nat) : Tab.find (Tab.del t k) k' = if k' = k then none else Tab.find t k' := by
  induction t with
  | nil => simp [Tab.del]
  | cons a l ih =>
    obtain ⟨b, w⟩ := a
    unfold Tab.del
    split
    · rename_i h
      subst h
      rw [ih]
      simp only [Tab.find_cons]
      split <;> rfl
    · rename_i h
      simp only [Tab.find_cons, ih]
      split
      · rename_i h'
        subst h'
        simp [Ne.symm h]
      · rfl

@[simp] theorem Tab.find_all (t : Sys2Proof.Tab α) (f : Nat → α → β) (k : Nat) : Tab.find (Tab.all t f) k = (Tab.find t k).map (f k) := by
  induction t with
  | nil => rfl
  | cons a l ih =>
    obtain ⟨b, w⟩ := a
    show (if k = b then some (f b w) else Tab.find (Tab.all l f) k) = _
    simp only [Tab.find_cons, ih]
    split
    · rename_i h; subst h; rfl
    · rfl

/-- Of two puts at one key the later one stands. -/
@[simp] theorem Tab.put_put (t : Sys2Proof.Tab α) (k : Nat) (v w : α) : Tab.put (Tab.put t k v) k w = Tab.put t k w := by
  induction t with
  | nil => simp [Tab.put]
  | cons a l ih =>
    obtain ⟨b, x⟩ := a
    by_cases h1 : k < b
    · simp [Tab.put, h1]
    · by_cases h2 : k = b
      · subst h2; simp [Tab.put]
      · simp [Tab.put, h1, h2, ih]

@[simp] theorem Tab.getD_put (t : Sys2Proof.Tab α) (k k' : Nat) (v d : α) : Tab.getD (Tab.put t k v) k' d = if k' = k then v else Tab.getD t k' d := by
  simp only [Tab.getD, Tab.find_put]
  split <;> rfl

@[simp] theorem Tab.has_put (t : Sys2Proof.Tab α) (k k' : Nat) (v : α) : Tab.has (Tab.put t k v) k' = (decide (k' = k) || Tab.has t k') := by
  simp only [Tab.has, Tab.find_put]
  split <;> simp_all

@[simp] theorem Tab.has_del (t : Sys2Proof.Tab α) (k k' : Nat) : Tab.has (Tab.del t k) k' = (!decide (k' = k) && Tab.has t k') := by
  simp only [Tab.has, Tab.find_del]
  split <;> simp_all

/-- A word put into a table of words reads back, and the others are as before. -/
@[simp] theorem get0_put0 (t : Sys2Proof.Tab Nat) (k k' v : Nat) : get0 (put0 t k v) k' = if k' = k then v else get0 t k' := by
  unfold put0 get0 Tab.getD
  split
  · rename_i h
    subst h
    rw [Tab.find_del]
    split <;> rfl
  · rw [Tab.find_put]
    split <;> rfl

/-! ## Byte memories -/

@[simp] theorem Memory.read_nil (a : Nat) : Memory.read [] a = 0 := rfl
@[simp] theorem Memory.read_cons (a k : Nat) (v : BitVec 8) (l : Sys2Proof.Mem) : Memory.read ((k, v) :: l) a = if a = k then v else Memory.read l a := rfl

/-- The canonical form bounds every key of the tail from below. -/
theorem Memory.wf_tail {k : Nat} {v : BitVec 8} {l : Sys2Proof.Mem} (h : Memory.wf ((k, v) :: l) = true) : Memory.wf l = true ∧ v ≠ 0 := by
  cases l with
  | nil => simpa [Memory.wf, Memory.unlisted] using h
  | cons a l =>
    obtain ⟨b, w⟩ := a
    simp [Memory.wf, Memory.unlisted] at h
    exact ⟨h.2, h.1.2⟩

/-- An address below the first key is not listed. -/
theorem Memory.read_below {a k : Nat} {v : BitVec 8} {l : Sys2Proof.Mem} (h : Memory.wf ((k, v) :: l) = true) (ha : a < k) : Memory.read ((k, v) :: l) a = 0 := by
  induction l generalizing k v with
  | nil => simp [Nat.ne_of_lt ha]
  | cons b l ih =>
    obtain ⟨k', v'⟩ := b
    have h1 := h
    simp [Memory.wf] at h1
    have := ih (Memory.wf_tail h).1 (Nat.lt_trans ha h1.1.1)
    rw [Memory.read_cons, if_neg (Nat.ne_of_lt ha), this]

/-- In canonical form a write is read back, and every other byte is as before. -/
theorem Memory.read_write {m : Sys2Proof.Mem} (h : Memory.wf m = true) (a a' : Nat) (b : BitVec 8) :
    Memory.read (Memory.write m a b) a' = if a' = a then b else Memory.read m a' := by
  induction m with
  | nil =>
    unfold Memory.write
    split
    · rename_i hb; subst hb; simp [Memory.unlisted]
    · simp
  | cons x l ih =>
    obtain ⟨k, v⟩ := x
    unfold Memory.write
    split
    · rename_i hk
      split
      · rename_i hb
        subst hb
        split
        · rename_i he; subst he; exact Memory.read_below h hk
        · rfl
      · simp
    · split
      · rename_i hk
        subst hk
        split
        · rename_i hb
          subst hb
          split
          · rename_i he
            subst he
            cases l with
            | nil => rfl
            | cons y l =>
              obtain ⟨k', v'⟩ := y
              have h1 := h
              simp [Memory.wf] at h1
              exact Memory.read_below (Memory.wf_tail h).1 h1.1.1
          · rename_i he; simp [he]
        · simp only [Memory.read_cons]
          split <;> rfl
      · rename_i hk
        rw [Memory.read_cons, ih (Memory.wf_tail h).1, Memory.read_cons]
        split
        · rename_i he
          subst he
          rw [if_neg (fun e => hk e.symm)]
        · rfl

/-- Every listed key of a canonical memory is at least a bound below its first key. -/
theorem Memory.wf_cons {k : Nat} {v : BitVec 8} {l : Sys2Proof.Mem} (hl : Memory.wf l = true) (hv : v ≠ 0) (hk : ∀ x, l.head? = some x → k < x.1) : Memory.wf ((k, v) :: l) = true := by
  cases l with
  | nil => simpa [Memory.wf, Memory.unlisted] using hv
  | cons a l =>
    obtain ⟨b, w⟩ := a
    simp [Memory.wf, Memory.unlisted, hl, hk (b, w) rfl]
    exact hv

theorem Memory.write_head {m : Sys2Proof.Mem} {a k : Nat} {b : BitVec 8} (h : Memory.wf m = true) (ha : k < a) (hm : ∀ x, m.head? = some x → k < x.1) :
    ∀ x, (Memory.write m a b).head? = some x → k < x.1 := by
  intro x hx
  cases m with
  | nil =>
    unfold Memory.write at hx
    split at hx
    · simp at hx
    · simp at hx; subst hx; exact ha
  | cons y l =>
    obtain ⟨k', v⟩ := y
    have h0 := hm _ rfl
    unfold Memory.write at hx
    split at hx
    · split at hx
      · simp at hx; subst hx; exact h0
      · simp at hx; subst hx; exact ha
    · split at hx
      · split at hx
        · cases l with
          | nil => simp at hx
          | cons z l =>
            obtain ⟨k2, v2⟩ := z
            simp at hx
            subst hx
            simp [Memory.wf] at h
            exact Nat.lt_trans h0 h.1.1
        · simp at hx; subst hx; exact ha
      · simp at hx; subst hx; exact h0

/-- A write keeps the canonical form. -/
theorem Memory.wf_write {m : Sys2Proof.Mem} (h : Memory.wf m = true) (a : Nat) (b : BitVec 8) : Memory.wf (Memory.write m a b) = true := by
  induction m with
  | nil =>
    unfold Memory.write
    split
    · rfl
    · rename_i hb; simpa [Memory.wf] using hb
  | cons x l ih =>
    obtain ⟨k, v⟩ := x
    unfold Memory.write
    split
    · rename_i hk
      split
      · exact h
      · rename_i hb
        exact Memory.wf_cons h hb (by rintro x hx; simp at hx; subst hx; exact hk)
    · split
      · rename_i hk
        subst hk
        split
        · exact (Memory.wf_tail h).1
        · rename_i hb
          exact Memory.wf_cons (Memory.wf_tail h).1 hb (by
            rintro x hx
            cases l with
            | nil => simp at hx
            | cons z l =>
              obtain ⟨k2, v2⟩ := z
              simp at hx
              subst hx
              simp [Memory.wf] at h
              exact h.1.1)
      · rename_i h1 h2
        have hl := (Memory.wf_tail h).1
        refine Memory.wf_cons (ih hl) (Memory.wf_tail h).2 (Memory.write_head hl (by omega) ?_)
        rintro x hx
        cases l with
        | nil => simp at hx
        | cons z l =>
          obtain ⟨k2, v2⟩ := z
          simp at hx
          subst hx
          simp [Memory.wf] at h
          exact h.1.1

/-- Writing bytes, a number, a wipe and a copy keep the canonical form. -/
theorem Memory.wf_writeL {m : Sys2Proof.Mem} (h : Memory.wf m = true) (a : Nat) (l : List (BitVec 8)) : Memory.wf (Memory.writeL m a l) = true := by
  induction l generalizing m a with
  | nil => exact h
  | cons b l ih => exact ih (Memory.wf_write h a b) (a + 1)

theorem Memory.wf_writeN {m : Sys2Proof.Mem} (h : Memory.wf m = true) (a n v : Nat) : Memory.wf (Memory.writeN m a n v) = true := by
  induction n generalizing m a v with
  | zero => exact h
  | succ n ih => exact ih (Memory.wf_write h a _) (a + 1) (v / 256)

theorem Memory.wf_filter {m : Sys2Proof.Mem} (h : Memory.wf m = true) (f : Nat × BitVec 8 → Bool) :
    Memory.wf (m.filter f) = true ∧ ∀ k, (∀ x, m.head? = some x → k < x.1) → ∀ x, (m.filter f).head? = some x → k < x.1 := by
  induction m with
  | nil => exact ⟨rfl, fun _ _ x hx => by simp at hx⟩
  | cons y l ih =>
    obtain ⟨k0, v⟩ := y
    have hl := Memory.wf_tail h
    have ih1 := ih hl.1
    have hh : ∀ x, l.head? = some x → k0 < x.1 := by
      rintro x hx
      cases l with
      | nil => simp at hx
      | cons z l =>
        obtain ⟨k2, v2⟩ := z
        simp at hx
        subst hx
        simp [Memory.wf] at h
        exact h.1.1
    by_cases hf : f (k0, v) = true
    · rw [List.filter_cons_of_pos hf]
      refine ⟨Memory.wf_cons ih1.1 hl.2 (ih1.2 k0 hh), ?_⟩
      rintro k hk x hx
      simp at hx
      subst hx
      exact hk _ rfl
    · rw [List.filter_cons_of_neg hf]
      refine ⟨ih1.1, ?_⟩
      rintro k hk x hx
      exact ih1.2 k (fun z hz => Nat.lt_trans (hk _ rfl) (hh z hz)) x hx

theorem Memory.wf_wipe {m : Sys2Proof.Mem} (h : Memory.wf m = true) (a n : Nat) : Memory.wf (Memory.wipe m a n) = true := (Memory.wf_filter h _).1

theorem Memory.wf_copyRange {m : Sys2Proof.Mem} (a n : Nat) {d : Sys2Proof.Mem} (hd : Memory.wf d = true) (b : Nat) : Memory.wf (Memory.copyRange m a n d b) = true := by
  unfold Memory.copyRange
  generalize (m.filter _) = l
  have h := Memory.wf_wipe hd b n
  generalize Memory.wipe d b n = w at h
  induction l generalizing w with
  | nil => exact h
  | cons x l ih => exact ih _ (Memory.wf_write h _ _)

end Sys2Proof.Machine
end

