-- ==== Sys2Proof/Laws/Cells.lean ====
section
/-! SUPPORT. Sys2Proof/Laws/Cells.lean: what writing lanes and registers of a vector cell, and registers of a scalar cell, gives on reading. -/

namespace Sys2Proof.Machine

@[simp] theorem State.vcell_setV (s : State) (c d : Nat) (x : VCell) : (s.setV c x).vcell d = if d = c then x else s.vcell d := by
  simp [State.vcell, State.setV]
@[simp] theorem State.mcell_setM (s : State) (c d : Nat) (x : MCell) : (s.setM c x).mcell d = if d = c then x else s.mcell d := by
  simp [State.mcell, State.setM]
@[simp] theorem State.scell_setS (s : State) (c d : Nat) (x : SCell) : (s.setS c x).scell d = if d = c then x else s.scell d := by
  simp [State.scell, State.setS]

/-- A lane write is seen at its lane only. -/
theorem VCell.lane_setLane (x : VCell) (r i v r' i' : Nat) (hi : i < 64) (hi' : i' < 64) :
    (x.setLane r i v).lane r' i' = if r' = r ∧ i' = i then v % 2 ^ 32 else x.lane r' i' := by
  have : (r' * 64 + i' = r * 64 + i) ↔ (r' = r ∧ i' = i) := by omega
  simp only [VCell.setLane, VCell.lane, get0_put0, this]

/-- A lane-by-lane write of the lanes of a list without repeats. -/
theorem VCell.lane_writeLanes (x : VCell) (r : Nat) (l : List Nat) (g : Nat → Nat) (hl : ∀ i ∈ l, i < 64) (r' i' : Nat) (hi' : i' < 64) :
    (x.writeLanes r (l.map (fun i => (i, g i)))).lane r' i' = if r' = r ∧ i' ∈ l then g i' % 2 ^ 32 else x.lane r' i' := by
  unfold VCell.writeLanes
  induction l generalizing x with
  | nil => simp
  | cons a l ih =>
    rw [List.map_cons, List.foldl_cons, ih _ (fun i hi => hl i (List.mem_cons_of_mem _ hi)), VCell.lane_setLane _ _ _ _ _ _ (hl a List.mem_cons_self) hi']
    by_cases h1 : r' = r <;> by_cases h2 : i' ∈ l <;> by_cases h3 : i' = a <;> simp_all

/-- Writing lanes changes the vector registers alone. -/
theorem VCell.writeLanes_eq (x : VCell) (r : Nat) (l : List (Nat × Nat)) : x.writeLanes r l = { x with v := (x.writeLanes r l).v } := by
  unfold VCell.writeLanes
  induction l generalizing x with
  | nil => rfl
  | cons a l ih =>
    rw [List.foldl_cons, ih]
    rfl

theorem VCell.mem_active (x : VCell) (pg i : Nat) : i ∈ x.active pg ↔ i < 64 ∧ tbit (x.pred pg) i = true := by
  simp [VCell.active]

theorem VCell.areg_setA (x : VCell) (a v b : Nat) : (x.setA a v).areg b = if b = a ∧ a ≠ 0 then v % 2 ^ 32 else x.areg b := by
  unfold VCell.setA
  split
  · rename_i h; subst h; simp
  · rename_i h
    unfold VCell.areg
    simp only [get0_put0]
    by_cases h1 : b = 0 <;> by_cases h2 : b = a <;> simp_all

theorem VCell.setA_eq (x : VCell) (a v : Nat) : x.setA a v = { x with a := (x.setA a v).a } := by
  unfold VCell.setA; split <;> rfl

theorem VCell.pred_setPred (x : VCell) (p v q : Nat) : (x.setPred p v).pred q = if q = p ∧ p ≠ 0 then v % 2 ^ 64 else x.pred q := by
  unfold VCell.setPred
  split
  · rename_i h; subst h; simp
  · rename_i h
    unfold VCell.pred
    simp only [get0_put0]
    by_cases h1 : q = 0 <;> by_cases h2 : q = p <;> simp_all

theorem VCell.setPred_eq (x : VCell) (p v : Nat) : x.setPred p v = { x with p := (x.setPred p v).p } := by
  unfold VCell.setPred; split <;> rfl

/-- A scalar register reads back what was written; register 0 discards it and reads 0 (R137). -/
theorem SCell.reg_setR (x : SCell) (a v b : Nat) : (x.setR a v).reg b = if b = a ∧ b ≠ 0 then v % 2 ^ 64 else x.reg b := by
  unfold SCell.setR
  split
  · rename_i h; subst h; rw [if_neg (fun h => h.2 h.1)]
  · rename_i h
    unfold SCell.reg
    simp only [get0_put0]
    by_cases h1 : b = 0 <;> by_cases h2 : b = a <;> simp_all

theorem SCell.setR_eq (x : SCell) (p v : Nat) : x.setR p v = { x with s := (x.setR p v).s } := by
  unfold SCell.setR; split <;> rfl

end Sys2Proof.Machine
end

