-- ==== Sys2Proof/Laws/Canonical.lean ====
section
/-! SUPPORT. Sys2Proof/Laws/Canonical.lean: what every operation of the machine keeps (canonical memories, the order of the fault log,
SLOT_ID, the fuses, the queue): the ground lemmas that Laws/Keeps.lean rests on. -/

namespace Sys2Proof.Machine

/-- Every entry's local memory is canonical. -/
def VLocals (t : Sys2Proof.Tab VCell) : Prop := t.all (fun e => Memory.wf e.2.local') = true
def SLocals (t : Sys2Proof.Tab SCell) : Prop := t.all (fun e => Memory.wf e.2.local') = true

/-- What a state is compared with: the queue, a SLOT_ID, a fault log, the fused variant and serial, the calibration, the module's hours and
the fused SVN minimums. -/
structure KeepBase where
  /-- whether its memories are canonical, and whether its fault log is in order -/
  mem : Prop
  ordered : Prop
  slot : Nat
  log : List FaultEntry
  variantT : Bool
  serial : Nat
  pending : List Sys2Proof.Instr
  calShared : Nat
  calLoss : Nat
  hours : Nat
  minSvn : Sys2Proof.Tab Nat

/-- What every operation keeps, part by part: the canonical form of the memories, the order of the fault log and its growth over the base,
the base's SLOT_ID, the fuses, and the module's hours while AON is up. -/
structure Canon7 (kB : KeepBase) (h sl dr cap fl : Sys2Proof.Mem) (v : Sys2Proof.Tab VCell) (sc : Sys2Proof.Tab SCell) (slot : Nat) (log : List FaultEntry)
    (variantT : Bool) (serial : Nat) (pending : List Sys2Proof.Instr) (calShared calLoss : Nat) (aon : Bool) (hours : Nat) (minSvn : Sys2Proof.Tab Nat) : Prop where
  h : kB.mem → Memory.wf h = true
  sl : kB.mem → Memory.wf sl = true
  dr : kB.mem → Memory.wf dr = true
  cap : kB.mem → Memory.wf cap = true
  fl : kB.mem → Memory.wf fl = true
  v : kB.mem → VLocals v
  sc : kB.mem → SLocals sc
  slot : slot = kB.slot
  ord : kB.ordered → Safety.LogInOrder log = true
  grown : Safety.LogGrown kB.slot kB.log log
  variantT : variantT = kB.variantT
  serial : serial = kB.serial
  pending : pending = kB.pending
  calShared : calShared = kB.calShared
  calLoss : calLoss = kB.calLoss
  hours : aon = false ∨ kB.hours ≤ hours
  minSvn : ∀ ty, Tab.getD kB.minSvn ty 0 ≤ Tab.getD minSvn ty 0

/-- What every operation but AON_START keeps. -/
def Canon (kB : KeepBase) (s : State) : Prop :=
  Canon7 kB s.hostMem s.fab.slices s.dram.dram s.sys.capTable s.fw.flash s.cell.v s.cell.s s.boot.slotId s.log s.sys.variantT s.sys.serial s.pending s.reck.calShared
    s.reck.calLoss s.boot.aon s.age.moduleH s.fw.minSvn

/-- The base a state gives. -/
def State.base (s : State) : KeepBase := { mem := Safety.MemoriesCanonical s = true, ordered := Safety.LogInOrder s.log = true, slot := s.boot.slotId, log := s.log, variantT := s.sys.variantT, serial := s.sys.serial, pending := s.pending, calShared := s.reck.calShared, calLoss := s.reck.calLoss, hours := s.age.moduleH, minSvn := s.fw.minSvn }

variable {kB : KeepBase}

theorem memories_iff (s : State) : Safety.MemoriesCanonical s = true ↔
    Memory.wf s.hostMem = true ∧ Memory.wf s.fab.slices = true ∧ Memory.wf s.dram.dram = true ∧ Memory.wf s.sys.capTable = true ∧
    Memory.wf s.fw.flash = true ∧ VLocals s.cell.v ∧ SLocals s.cell.s := by
  simp only [Safety.MemoriesCanonical, Bool.and_eq_true, VLocals, SLocals, and_assoc]

/-- Every state keeps to its own base. -/
theorem canon_start (s : State) : Canon s.base s := by
  have h := fun hm => (memories_iff s).1 hm
  exact ⟨fun hm => (h hm).1, fun hm => (h hm).2.1, fun hm => (h hm).2.2.1, fun hm => (h hm).2.2.2.1, fun hm => (h hm).2.2.2.2.1, fun hm => (h hm).2.2.2.2.2.1, fun hm => (h hm).2.2.2.2.2.2, rfl, id, ⟨[], rfl, fun _ h => nomatch h⟩, rfl, rfl, rfl, rfl, rfl, .inr (Nat.le_refl _), fun _ => Nat.le_refl _⟩

theorem Canon.memories {s : State} (h : Canon kB s) (hm : kB.mem) : Safety.MemoriesCanonical s = true :=
  (memories_iff s).2 ⟨h.h hm, h.sl hm, h.dr hm, h.cap hm, h.fl hm, h.v hm, h.sc hm⟩

/-- A record of State keeps it when its parts do. -/
theorem canon_mk (pending sys svc host fen part stn fab spine cell unit dram xlt link ses reck fail reg pow age sec fw boot hostMem sent log free) :
    Canon kB (State.mk pending sys svc host fen part stn fab spine cell unit dram xlt link ses reck fail reg pow age sec fw boot hostMem sent log free) ↔
      Canon7 kB hostMem fab.slices dram.dram sys.capTable fw.flash cell.v cell.s boot.slotId log sys.variantT sys.serial pending reck.calShared
        reck.calLoss boot.aon age.moduleH fw.minSvn := Iff.rfl

theorem canon7 {s : State} (h : Canon kB s) :
    Canon7 kB s.hostMem s.fab.slices s.dram.dram s.sys.capTable s.fw.flash s.cell.v s.cell.s s.boot.slotId s.log s.sys.variantT s.sys.serial s.pending s.reck.calShared
      s.reck.calLoss s.boot.aon s.age.moduleH s.fw.minSvn := h

theorem canon_foldl {α : Type} {f : State → α → State} {l : List α} {s : State} (h : Canon kB s) (hf : ∀ t a, Canon kB t → Canon kB (f t a)) :
    Canon kB (l.foldl f s) := by
  induction l generalizing s with
  | nil => exact h
  | cons a l ih => exact ih (hf s a h)

theorem canon_foldl_fst {α β : Type} {f : State × β → α → State × β} {l : List α} {s : State × β} (h : Canon kB s.1)
    (hf : ∀ t a, Canon kB t.1 → Canon kB (f t a).1) : Canon kB (l.foldl f s).1 := by
  induction l generalizing s with
  | nil => exact h
  | cons a l ih => exact ih (hf s a h)

/-! ## Tables of cells -/

theorem VLocals.nil : VLocals [] := rfl
theorem SLocals.nil : SLocals [] := rfl

theorem Tab.all_put {α : Type} {t : Sys2Proof.Tab α} {k : Nat} {x : α} {p : α → Bool} (h : List.all t (fun e => p e.2) = true) (hx : p x = true) :
    List.all (Tab.put t k x) (fun e => p e.2) = true := by
  induction t with
  | nil => simp [Tab.put, hx]
  | cons a l ih =>
    obtain ⟨k', v⟩ := a
    rw [List.all_cons, Bool.and_eq_true] at h
    unfold Tab.put
    split
    · rw [List.all_cons, List.all_cons, hx, h.1, h.2]; rfl
    · split
      · rw [List.all_cons, hx, h.2]; rfl
      · rw [List.all_cons, h.1, ih h.2]; rfl

theorem Tab.all_del {α : Type} {t : Sys2Proof.Tab α} {k : Nat} {p : α → Bool} (h : List.all t (fun e => p e.2) = true) :
    List.all (Tab.del t k) (fun e => p e.2) = true := by
  induction t with
  | nil => rfl
  | cons a l ih =>
    obtain ⟨k', v⟩ := a
    rw [List.all_cons, Bool.and_eq_true] at h
    unfold Tab.del
    split
    · exact ih h.2
    · rw [List.all_cons, h.1, ih h.2]; rfl

theorem Tab.all_find {α : Type} {t : Sys2Proof.Tab α} {k : Nat} {p : α → Bool} {x : α} (h : List.all t (fun e => p e.2) = true) (hx : Tab.find t k = some x) :
    p x = true := by
  induction t with
  | nil => simp at hx
  | cons a l ih =>
    obtain ⟨k', v⟩ := a
    rw [List.all_cons, Bool.and_eq_true] at h
    rw [Tab.find_cons] at hx
    split at hx
    · simp at hx; subst hx; exact h.1
    · exact ih h.2 hx

end Sys2Proof.Machine
end

