-- ==== Sys2Proof/Laws/Commands.lean ====
section
/-! SUPPORT. Sys2Proof/Laws/Commands.lean: what the shared frames of the commands do: a host command (R317, R318), a management message
that a table serves (R332), and one that runs its meaning alone. -/

namespace Sys2Proof.Machine

/-! ## Host commands -/

/-- The environment of a front command names its ring. -/
theorem State.front_ring {s : State} {q op record : Nat} {e : CmdEnv} (h : s.front q op record = some e) : e.ring = q := by
  simp only [State.front] at h
  split at h <;> try contradiction
  split at h <;> try contradiction
  split at h <;> try contradiction
  split at h <;> simp at h
  rw [← h]

/-- A command that is not the front one of its ring changes nothing. -/
theorem runCmd_not_front {s : State} {q op record cls : Nat} (body : CmdEnv → State → CmdRes) (h : s.front q op record = none) :
    runCmd s q op record cls body = s := by
  unfold runCmd; rw [h]

/-- A command of a context that is not live is answered CONTEXT_REVOKED. -/
theorem runCmd_revoked {s : State} {q op record cls : Nat} {e : CmdEnv} (body : CmdEnv → State → CmdRes)
    (h : s.front q op record = some e) (hl : s.ctxLive e.part e.context = false) :
    runCmd s q op record cls body = s.answerCmd q (.refused .contextRevoked 0) := by
  unfold runCmd; rw [h]; dsimp only; rw [hl]; rfl

/-- A command that Innkeeper turns away is answered so. -/
theorem runCmd_turned {s : State} {q op record cls : Nat} {e : CmdEnv} {a : Ans} (body : CmdEnv → State → CmdRes)
    (h : s.front q op record = some e) (hl : s.ctxLive e.part e.context = true)
    (ha : s.intake ⟨cls, e.part, q * 65536 + op⟩ (q * 65536 + op) = .away a) :
    runCmd s q op record cls body = (s.noteRetry (q * 65536 + op) a).answerCmd q a := by
  unfold runCmd; rw [h]; dsimp only; rw [hl, ha]; rfl

/-- A command whose turn has come, and that never waited, runs its body; its answer is written or awaited. -/
theorem runCmd_runs {s : State} {q op record cls : Nat} {e : CmdEnv} (body : CmdEnv → State → CmdRes)
    (h : s.front q op record = some e) (hl : s.ctxLive e.part e.context = true)
    (ha : s.intake ⟨cls, e.part, q * 65536 + op⟩ (q * 65536 + op) = .run) :
    runCmd s q op record cls body = (finishCmd q (body e s)).served cls e.part := by
  unfold runCmd; rw [h]; dsimp only; rw [hl, ha]; rfl

/-- A command that waited, and whose turn has come, leaves its queue and runs. -/
theorem runCmd_turn {s : State} {q op record cls : Nat} {e : CmdEnv} (body : CmdEnv → State → CmdRes)
    (h : s.front q op record = some e) (hl : s.ctxLive e.part e.context = true)
    (ha : s.intake ⟨cls, e.part, q * 65536 + op⟩ (q * 65536 + op) = .turn) :
    runCmd s q op record cls body = (finishCmd q (body e (s.leaveQueue (q * 65536 + op)))).served cls e.part := by
  unfold runCmd; rw [h]; dsimp only; rw [hl, ha]; rfl

/-- A command whose turn has not come enters its class's queue. -/
theorem runCmd_enters {s : State} {q op record cls : Nat} {e : CmdEnv} (body : CmdEnv → State → CmdRes)
    (h : s.front q op record = some e) (hl : s.ctxLive e.part e.context = true)
    (ha : s.intake ⟨cls, e.part, q * 65536 + op⟩ (q * 65536 + op) = .enter) :
    runCmd s q op record cls body = s.enqueueReq ⟨cls, e.part, q * 65536 + op⟩ := by
  unfold runCmd; rw [h]; dsimp only; rw [hl, ha]; rfl

/-- A command that waits goes on waiting. -/
theorem runCmd_stays {s : State} {q op record cls : Nat} {e : CmdEnv} (body : CmdEnv → State → CmdRes)
    (h : s.front q op record = some e) (hl : s.ctxLive e.part e.context = true)
    (ha : s.intake ⟨cls, e.part, q * 65536 + op⟩ (q * 65536 + op) = .stay) :
    runCmd s q op record cls body = s := by
  unfold runCmd; rw [h]; dsimp only; rw [hl, ha]; rfl

/-- The front end and Porter, class 0, take every request at once. -/
@[simp] theorem State.intake_zero (s : State) (p k key : Nat) : s.intake ⟨0, p, k⟩ key = .run := rfl
@[simp] theorem State.served_zero (s : State) (p : Nat) : s.served 0 p = s := rfl

@[simp] theorem finishCmd_some (q : Nat) (s : State) (a : Ans) : finishCmd q (s, some a) = s.answerCmd q a := rfl
@[simp] theorem finishCmd_none (q : Nat) (s : State) : finishCmd q (s, none) = s.await q := rfl

/-! ## Management messages -/

/-- A message's item has the class and the partition it was given. -/
@[simp] theorem MsgRef.item_zero (m : MsgRef) (p : Nat) : (m.item 0 p).cls = 0 := rfl

theorem takeMsg_runs {s : State} {m : MsgRef} {cls p : Nat} (f : State → State) (ha : s.intake (m.item cls p) m.key = .run) :
    s.takeMsg m cls p f = (f s).served cls p := by
  unfold State.takeMsg; rw [ha]

theorem takeMsg_turn {s : State} {m : MsgRef} {cls p : Nat} (f : State → State) (ha : s.intake (m.item cls p) m.key = .turn) :
    s.takeMsg m cls p f = (f (s.leaveQueue (m.item cls p).key)).served cls p := by
  unfold State.takeMsg; rw [ha]

theorem takeMsg_enters {s : State} {m : MsgRef} {cls p : Nat} (f : State → State) (ha : s.intake (m.item cls p) m.key = .enter) :
    s.takeMsg m cls p f = s.enqueueReq (m.item cls p) := by
  unfold State.takeMsg; rw [ha]

theorem takeMsg_stays {s : State} {m : MsgRef} {cls p : Nat} (f : State → State) (ha : s.intake (m.item cls p) m.key = .stay) :
    s.takeMsg m cls p f = s := by
  unfold State.takeMsg; rw [ha]

theorem takeMsg_turned {s : State} {m : MsgRef} {cls p : Nat} {a : Ans} (f : State → State)
    (ha : s.intake (m.item cls p) m.key = .away a) : s.takeMsg m cls p f = (s.noteRetry m.key a).answerMsg m a := by
  unfold State.takeMsg; rw [ha]

/-- Porter's own messages begin at once. -/
@[simp] theorem takeMsg_zero (s : State) (m : MsgRef) (p : Nat) (f : State → State) : s.takeMsg m 0 p f = f s := rfl

@[simp] theorem finishMsg_some (m : MsgRef) (s : State) (a : Ans) : finishMsg m (s, some a) = s.answerMsg m a := rfl
@[simp] theorem finishMsg_none (m : MsgRef) (s : State) : finishMsg m (s, none) = s := rfl

theorem runPlain_answers {s t : State} {m : MsgRef} {cls p : Nat} {a : Ans} {body : State → MsgRes}
    (ha : s.intake (m.item cls p) m.key = .run) (hb : body s = (t, some a)) :
    runPlain s m cls p body = (t.answerMsg m a).served cls p := by
  unfold runPlain; rw [takeMsg_runs _ ha, hb]; rfl

theorem runPlain_later {s t : State} {m : MsgRef} {cls p : Nat} {body : State → MsgRes}
    (ha : s.intake (m.item cls p) m.key = .run) (hb : body s = (t, none)) :
    runPlain s m cls p body = t.served cls p := by
  unfold runPlain; rw [takeMsg_runs _ ha, hb]; rfl

/-- In a withdrawal a message of the partition tables is answered Busy (R442). -/
theorem tableMsg_withdrawing {s : State} {m : MsgRef} {p : Nat} (body : State → MsgRes) (hw : s.fail.withdraw.isSome = true) :
    tableMsg s m p body = s.answerMsg m (.busy .evacuating 0) := by
  unfold tableMsg; rw [hw]; rfl

/-- Outside a withdrawal, and for a partition that is not being evacuated, the body decides. -/
theorem tableMsg_open {s : State} {m : MsgRef} {p : Nat} {body : State → MsgRes} (hw : s.fail.withdraw = none)
    (he : ∀ x, s.part? p = some x → x.evacuating = false) :
    tableMsg s m p body = finishMsg m
      (if (match (body s).2 with | some (.ok _) => true | none => true | _ => false)
       then { (body s).1 with part := { (body s).1.part with tableWrites := (body s).1.part.tableWrites + 2 } } else (body s).1, (body s).2) := by
  unfold tableMsg
  rw [hw]
  cases hx : s.part? p with
  | none => rfl
  | some x => simp only [he x hx]; rfl

/-- A message that its table refuses is answered so. -/
theorem runMsg_refused {s t : State} {m : MsgRef} {cls p : Nat} {body : State → MsgRes} {c : Code} {v : Nat}
    (ha : s.intake (m.item cls p) m.key = .run) (hw : s.fail.withdraw = none)
    (he : ∀ x, s.part? p = some x → x.evacuating = false) (hb : body s = (t, some (.refused c v))) :
    runMsg s m cls p body = (t.answerMsg m (.refused c v)).served cls p := by
  unfold runMsg; rw [takeMsg_runs _ ha, tableMsg_open hw he, hb]; rfl

/-- A message that its table serves at once writes the table twice and is answered with success. -/
theorem runMsg_done {s t : State} {m : MsgRef} {cls p : Nat} {body : State → MsgRes} {v : Nat}
    (ha : s.intake (m.item cls p) m.key = .run) (hw : s.fail.withdraw = none)
    (he : ∀ x, s.part? p = some x → x.evacuating = false) (hb : body s = (t, some (.ok v))) :
    runMsg s m cls p body =
      ({ t with part := { t.part with tableWrites := t.part.tableWrites + 2 } }.answerMsg m (.ok v)).served cls p := by
  unfold runMsg; rw [takeMsg_runs _ ha, tableMsg_open hw he, hb]; rfl

/-- A message whose answer comes later writes the table twice. -/
theorem runMsg_later {s t : State} {m : MsgRef} {cls p : Nat} {body : State → MsgRes}
    (ha : s.intake (m.item cls p) m.key = .run) (hw : s.fail.withdraw = none)
    (he : ∀ x, s.part? p = some x → x.evacuating = false) (hb : body s = (t, none)) :
    runMsg s m cls p body = { t with part := { t.part with tableWrites := t.part.tableWrites + 2 } }.served cls p := by
  unfold runMsg; rw [takeMsg_runs _ ha, tableMsg_open hw he, hb]; rfl

end Sys2Proof.Machine
end

