-- ==== Sys2Proof/Laws/Keeps.lean ====
section
/-! SUPPORT. Sys2Proof/Laws/Keeps.lean: every operation of the machine that answers a state keeps the canonical form of every byte memory:
one lemma an operation, named after it. -/

namespace Sys2Proof.Machine

variable {kB : KeepBase}

theorem canon_fst {α : Type} {p : State × α} {a : State} {b : α} (e : p = (a, b)) (h : Canon kB p.1) : Canon kB a := by subst e; exact h
theorem canon_snd {α : Type} {p : α × State} {a : State} {b : α} (e : p = (b, a)) (h : Canon kB p.2) : Canon kB a := by subst e; exact h
theorem vlocals_upd {t : Tab VCell} {k : Nat} {f : VCell → VCell} (h : VLocals t) (hf : ∀ x, Memory.wf x.local' = true → Memory.wf (f x).local' = true) : VLocals (Tab.upd t k f) := by
  unfold Tab.upd
  split
  · rename_i e; exact Tab.all_put (p := fun x : VCell => Memory.wf x.local') h (hf _ (Tab.all_find (p := fun x : VCell => Memory.wf x.local') h e))
  · exact h
theorem slocals_upd {t : Tab SCell} {k : Nat} {f : SCell → SCell} (h : SLocals t) (hf : ∀ x, Memory.wf x.local' = true → Memory.wf (f x).local' = true) : SLocals (Tab.upd t k f) := by
  unfold Tab.upd
  split
  · rename_i e; exact Tab.all_put (p := fun x : SCell => Memory.wf x.local') h (hf _ (Tab.all_find (p := fun x : SCell => Memory.wf x.local') h e))
  · exact h
theorem Tab.all_puts {α : Type} {p : α → Bool} {u : Tab α} {f : Nat → Nat} {acc : Tab α} (h : List.all acc (fun e => p e.2) = true) (hu : List.all u (fun e => p e.2) = true) :
    List.all (u.foldl (fun acc e => Tab.put acc (f e.1) e.2) acc) (fun e => p e.2) = true := by
  induction u generalizing acc with
  | nil => exact h
  | cons a l ih =>
    rw [List.all_cons, Bool.and_eq_true] at hu
    exact ih (Tab.all_put h hu.1) hu.2
theorem vlocals_renum {t : Tab VCell} {f : Nat → Nat} (h : VLocals t) : VLocals (Tab.renum t f) := Tab.all_puts (p := fun x : VCell => Memory.wf x.local') rfl h
theorem slocals_renum {t : Tab SCell} {f : Nat → Nat} (h : SLocals t) : SLocals (Tab.renum t f) := Tab.all_puts (p := fun x : SCell => Memory.wf x.local') rfl h
theorem Memory.wf_canon (m : Sys2Proof.Mem) : Memory.wf (Memory.canon m) = true := by
  induction m with
  | nil => rfl
  | cons a l ih => exact Memory.wf_write ih _ _
theorem slocals_merge {t u : Tab SCell} {f : Nat → Nat} (h : SLocals t) :
    SLocals (Tab.merge t (Tab.all u (fun _ y => { y with store := Memory.canon y.store, local' := Memory.canon y.local' })) f) := by
  refine Tab.all_puts (p := fun x : SCell => Memory.wf x.local') h ?_
  simp [Tab.all, List.all_map, Memory.wf_canon]
theorem vcell_local {s : State} {c : Nat} (hC : Canon kB s) (hm : kB.mem) : Memory.wf (s.vcell c).local' = true := by
  unfold State.vcell Tab.getD
  cases h : Tab.find s.cell.v c with
  | none => rfl
  | some x => exact Tab.all_find (p := fun x : VCell => Memory.wf x.local') (hC.v hm) h
theorem scell_local {s : State} {c : Nat} (hC : Canon kB s) (hm : kB.mem) : Memory.wf (s.scell c).local' = true := by
  unfold State.scell Tab.getD
  cases h : Tab.find s.cell.s c with
  | none => rfl
  | some x => exact Tab.all_find (p := fun x : SCell => Memory.wf x.local') (hC.sc hm) h
theorem vReady_local {s : State} {c op sub regs v} (hC : Canon kB s) (hm : kB.mem) (h : s.vReady c op sub regs = some v) : Memory.wf v.x.local' = true := by
  unfold State.vReady at h
  repeat' split at h
  all_goals try contradiction
  all_goals first | (cases h; exact vcell_local hC hm) | (dsimp only at h; split at h <;> first | contradiction | (cases h; exact vcell_local hC hm))
theorem sReady_local {s : State} {c op sub regs v} (hC : Canon kB s) (hm : kB.mem) (h : s.sReady c op sub regs = some v) : Memory.wf v.x.local' = true := by
  unfold State.sReady at h
  repeat' split at h
  all_goals try contradiction
  all_goals first | (cases h; exact scell_local hC hm) | (dsimp only at h; split at h <;> first | contradiction | (cases h; exact scell_local hC hm))
theorem canon_v {s : State} {v : Tab VCell} (hC : Canon kB s) (hv : kB.mem → VLocals v) : Canon kB { s with cell := { s.cell with v := v } } := { hC with v := hv }
theorem canon_sc {s : State} {v : Tab SCell} (hC : Canon kB s) (hv : kB.mem → SLocals v) : Canon kB { s with cell := { s.cell with s := v } } := { hC with sc := hv }
@[simp] theorem VCell.go_local (x : VCell) (t l : Nat) (r : List Nat) : (x.go t l r).local' = x.local' := rfl
@[simp] theorem VCell.setLane_local (x : VCell) (r i v : Nat) : (x.setLane r i v).local' = x.local' := rfl
@[simp] theorem VCell.writeLanes_local (x : VCell) (r : Nat) (l : List (Nat × Nat)) : (x.writeLanes r l).local' = x.local' := by rw [VCell.writeLanes_eq]
@[simp] theorem VCell.setA_local (x : VCell) (a v : Nat) : (x.setA a v).local' = x.local' := by rw [VCell.setA_eq]
@[simp] theorem VCell.setPred_local (x : VCell) (a v : Nat) : (x.setPred a v).local' = x.local' := by rw [VCell.setPred_eq]
@[simp] theorem VCell.flag_local (x : VCell) (f : FpFlags) : (x.flag f).local' = x.local' := by unfold VCell.flag; (repeat' split) <;> rfl
@[simp] theorem VCell.setStatus_local (x : VCell) (v : Nat) : (x.setStatus v).local' = x.local' := rfl
@[simp] theorem VCell.writeSr_local (x : VCell) (r v : Nat) : (x.writeSr r v).local' = x.local' := by unfold VCell.writeSr; (repeat' split) <;> rfl
@[simp] theorem SCell.go_local (x : SCell) (t l : Nat) (r : List Nat) : (x.go t l r).local' = x.local' := rfl
@[simp] theorem SCell.jump_local (x : SCell) (t l : Nat) : (x.jump t l).local' = x.local' := rfl
@[simp] theorem SCell.setR_local (x : SCell) (t l : Nat) : (x.setR t l).local' = x.local' := by unfold SCell.setR; (repeat' split) <;> rfl
theorem canon_ite_fst {α : Type} {c : Prop} [Decidable c] {a b : State × α} (ha : Canon kB a.1) (hb : Canon kB b.1) : Canon kB (if c then a else b).1 := by split <;> assumption

theorem wf_foldl {α : Type} {f : Sys2Proof.Mem → α → Sys2Proof.Mem} {l : List α} {m : Sys2Proof.Mem} (h : Memory.wf m = true) (hf : ∀ m a, Memory.wf m = true → Memory.wf (f m a) = true) : Memory.wf (l.foldl f m) = true := by
  induction l generalizing m with
  | nil => exact h
  | cons a l ih => exact ih (hf _ _ h)
theorem all_filter {α : Type} {l : List α} {p q : α → Bool} (h : l.all p = true) : (l.filter q).all p = true := by
  rw [List.all_eq_true] at h ⊢; exact fun x hx => h x (List.mem_filter.1 hx).1
theorem vlocals_move {t : Tab VCell} {a b : Nat} (h : VLocals t) : VLocals (Tab.moveCells t a b) := vlocals_renum (all_filter h)
theorem slocals_move {t : Tab SCell} {a b : Nat} (h : SLocals t) : SLocals (Tab.moveCells t a b) := slocals_renum (all_filter h)
theorem slocals_all {t : Tab SCell} {f : Nat → SCell → SCell} (h : SLocals t) (hf : ∀ k x, Memory.wf x.local' = true → Memory.wf (f k x).local' = true) : SLocals (Tab.all t f) := by
  unfold SLocals Tab.all at *
  rw [List.all_map]
  rw [List.all_eq_true] at h ⊢
  exact fun e he => hf _ _ (h e he)

theorem State.event_canon {s : State} {code part ctx useCtx source station data} (hC : Canon kB s) : Canon kB (State.event s code part ctx useCtx source station data) := by
  unfold State.event
  repeat' first | (with_reducible assumption) | (with_reducible apply canon_foldl) | (simp only [canon_mk]) | (with_reducible apply canon7) | split | (intro _) | (dsimp only)
theorem State.setEngine_canon {s : State} {e x} (hC : Canon kB s) : Canon kB (State.setEngine s e x) := by
  unfold State.setEngine
  repeat' first | (with_reducible assumption) | (with_reducible apply canon_foldl) | (simp only [canon_mk]) | (with_reducible apply canon7) | split | (intro _) | (dsimp only)
theorem State.programFault_canon {s : State} {e c index addr} (hC : Canon kB s) : Canon kB (State.programFault s e c index addr) := by
  unfold State.programFault
  repeat' first | (with_reducible assumption) | (with_reducible apply State.event_canon) | (with_reducible apply State.setEngine_canon) | (with_reducible apply canon_foldl) | (simp only [canon_mk]) | (with_reducible apply canon7) | split | (intro _) | (dsimp only)
theorem State.haltSteward_canon {s : State} {c} (hC : Canon kB s) : Canon kB (State.haltSteward s c) := by
  unfold State.haltSteward
  repeat' first | (with_reducible assumption) | (with_reducible apply canon_foldl) | (simp only [canon_mk]) | (with_reducible apply canon7) | split | (intro _) | (dsimp only)
theorem SEnv.fault_canon {s : State} {v k addr} (hC : Canon kB s) : Canon kB (SEnv.fault v s k addr) := by
  unfold SEnv.fault
  repeat' first | (with_reducible assumption) | (with_reducible apply State.event_canon) | (with_reducible apply State.haltSteward_canon) | (with_reducible apply State.programFault_canon) | (with_reducible apply canon_foldl) | (simp only [canon_mk]) | (with_reducible apply canon7) | split | (intro _) | (dsimp only)
theorem State.setRing_canon {s : State} {q r} (hC : Canon kB s) : Canon kB (State.setRing s q r) := by
  unfold State.setRing
  repeat' first | (with_reducible assumption) | (with_reducible apply canon_foldl) | (simp only [canon_mk]) | (with_reducible apply canon7) | split | (intro _) | (dsimp only)
theorem State.stage_canon {s t : State} {line data} (hC : Canon kB s) (ht : s.stage line data = some t) : Canon kB t := by
  unfold State.stage at ht
  dsimp only at ht
  repeat' (split at ht)
  all_goals first | (cases ht; done) | (cases ht; exact hC)
theorem State.patchSweep_canon {s : State} {line data} (hC : Canon kB s) : Canon kB (State.patchSweep s line data) := by
  unfold State.patchSweep
  repeat' first | (with_reducible assumption) | (with_reducible apply canon_foldl) | (simp only [canon_mk]) | (with_reducible apply canon7) | split | (intro _) | (dsimp only)
theorem State.setCtrl_canon {s : State} {ch c} (hC : Canon kB s) : Canon kB (State.setCtrl s ch c) := by
  unfold State.setCtrl
  repeat' first | (with_reducible assumption) | (with_reducible apply canon_foldl) | (simp only [canon_mk]) | (with_reducible apply canon7) | split | (intro _) | (dsimp only)
theorem State.putLine_canon {s : State} {line data clears} (hC : Canon kB s) : Canon kB (s.putLine line data clears) := by
  have h1 : ∀ w d, Canon kB { s with dram := { s.dram with dram := Memory.writeL s.dram.dram (line * 64) data, written := w, dirty := d } } :=
    fun w d => { hC with dr := fun hm => Memory.wf_writeL (hC.dr hm) _ _ }
  unfold State.putLine
  extract_lets dpa s1 ch
  split
  · exact State.setCtrl_canon (h1 _ _)
  · exact h1 _ _
theorem State.dramPutLine_canon {s : State} {line lo data} (hC : Canon kB s) : Canon kB (s.dramPutLine line lo data) := by
  unfold State.dramPutLine
  exact State.patchSweep_canon (State.putLine_canon hC)
theorem State.dramWriteLine_canon {s : State} {line lo data} (hC : Canon kB s) : Canon kB (State.dramWriteLine s line lo data) := by
  unfold State.dramWriteLine
  repeat' first | (with_reducible assumption) | (refine State.stage_canon ?_ (by assumption)) | (with_reducible apply State.dramPutLine_canon) | (with_reducible apply canon_foldl) | (simp only [canon_mk]) | (with_reducible apply canon7) | split | (intro _) | (dsimp only)
theorem State.writeVA_canon {s : State} {p c va l} (hC : Canon kB s) : Canon kB (s.writeVA p c va l) := by
  unfold State.writeVA
  split
  · exact State.dramWriteLine_canon hC
  · exact { hC with h := fun hm => Memory.wf_writeL (hC.h hm) _ _ }
  · exact hC
theorem State.writeLines_canon {s : State} {p c va n l} (hC : Canon kB s) : Canon kB (s.writeLines p c va n l) := by
  induction n generalizing s va l with
  | zero => exact hC
  | succ n ih =>
    unfold State.writeLines
    split
    · exact hC
    · exact ih (State.writeVA_canon hC)
theorem State.writeVAL_canon {s : State} {p c va l} (hC : Canon kB s) : Canon kB (s.writeVAL p c va l) := State.writeLines_canon hC
theorem State.writeObj_canon {s : State} {o off l} (hC : Canon kB s) : Canon kB (State.writeObj s o off l) := by
  unfold State.writeObj
  repeat' first | (with_reducible assumption) | (with_reducible apply State.writeVAL_canon) | (with_reducible apply canon_foldl) | (simp only [canon_mk]) | (with_reducible apply canon7) | split | (intro _) | (dsimp only)
theorem State.emitOut_canon {s : State} {o} (hC : Canon kB s) : Canon kB (State.emitOut s o) := by
  unfold State.emitOut
  repeat' first | (with_reducible assumption) | (with_reducible apply canon_foldl) | (simp only [canon_mk]) | (with_reducible apply canon7) | split | (intro _) | (dsimp only)
theorem State.writeRing_canon {s : State} {q r mk} (hC : Canon kB s) : Canon kB (State.writeRing s q r mk) := by
  unfold State.writeRing
  repeat' first | (with_reducible assumption) | (with_reducible apply State.emitOut_canon) | (with_reducible apply State.setRing_canon) | (with_reducible apply State.writeObj_canon) | (with_reducible apply canon_foldl) | (simp only [canon_mk]) | (with_reducible apply canon7) | split | (intro _) | (dsimp only)
theorem State.flushOut_canon {s : State} {q n} (hC : Canon kB s) : Canon kB (s.flushOut q n) := by
  induction n generalizing s with
  | zero => exact hC
  | succ n ih =>
    unfold State.flushOut
    repeat' first | (with_reducible assumption) | (with_reducible apply State.writeRing_canon) | (with_reducible apply State.setRing_canon) | (with_reducible apply ih) | split
theorem State.entryRefused_canon {s : State} {q r b c} (hC : Canon kB s) : Canon kB (State.entryRefused s q r b c) := by
  unfold State.entryRefused
  repeat' first | (with_reducible assumption) | (with_reducible apply State.flushOut_canon) | (with_reducible apply State.setRing_canon) | (with_reducible apply canon_foldl) | (simp only [canon_mk]) | (with_reducible apply canon7) | split | (intro _) | (dsimp only)
theorem State.post_canon {s : State} {load vc cls a b} (hC : Canon kB s) : Canon kB (State.post s load vc cls a b) := by
  unfold State.post
  repeat' first | (with_reducible assumption) | (with_reducible apply canon_foldl) | (simp only [canon_mk]) | (with_reducible apply canon7) | split | (intro _) | (dsimp only)
theorem State.sendFence_canon {s : State} {f} (hC : Canon kB s) : Canon kB (State.sendFence s f) := by
  unfold State.sendFence
  repeat' first | (with_reducible assumption) | (with_reducible apply State.post_canon) | (with_reducible apply canon_foldl) | (simp only [canon_mk]) | (with_reducible apply canon7) | split | (intro _) | (dsimp only)
theorem State.endBuffer_canon {s : State} {q early} (hC : Canon kB s) : Canon kB (State.endBuffer s q early) := by
  unfold State.endBuffer
  repeat' first | (with_reducible assumption) | (with_reducible apply State.sendFence_canon) | (with_reducible apply State.setRing_canon) | (with_reducible apply canon_foldl) | (simp only [canon_mk]) | (with_reducible apply canon7) | split | (intro _) | (dsimp only)
theorem State.tryEnd_canon {s : State} {q} (hC : Canon kB s) : Canon kB (State.tryEnd s q) := by
  unfold State.tryEnd
  repeat' first | (with_reducible assumption) | (with_reducible apply State.endBuffer_canon) | (with_reducible apply canon_foldl) | (simp only [canon_mk]) | (with_reducible apply canon7) | split | (intro _) | (dsimp only)
theorem State.answerOne_canon {s : State} {q a} (hC : Canon kB s) : Canon kB (State.answerOne s q a) := by
  unfold State.answerOne
  repeat' first | (with_reducible assumption) | (with_reducible apply State.flushOut_canon) | (with_reducible apply State.setRing_canon) | (with_reducible apply State.tryEnd_canon) | (with_reducible apply canon_foldl) | (simp only [canon_mk]) | (with_reducible apply canon7) | split | (intro _) | (dsimp only)
theorem State.skipBad_canon {s : State} {q n} (hC : Canon kB s) : Canon kB (s.skipBad q n) := by
  induction n generalizing s with
  | zero => exact hC
  | succ n ih =>
    unfold State.skipBad
    repeat' first | (with_reducible assumption) | (with_reducible apply State.answerOne_canon) | (with_reducible apply ih) | split
theorem State.abandonEntries_canon {s : State} {p f} (hC : Canon kB s) : Canon kB (State.abandonEntries s p f) := by
  unfold State.abandonEntries
  repeat' first | (with_reducible assumption) | (with_reducible apply State.endBuffer_canon) | (with_reducible apply State.entryRefused_canon) | (with_reducible apply State.setRing_canon) | (with_reducible apply State.skipBad_canon) | (with_reducible apply canon_foldl) | (simp only [canon_mk]) | (with_reducible apply canon7) | split | (intro _) | (dsimp only)
theorem State.abandonFences_canon {s : State} {p c} (hC : Canon kB s) : Canon kB (State.abandonFences s p c) := by
  unfold State.abandonFences
  repeat' first | (with_reducible assumption) | (with_reducible apply State.sendFence_canon) | (with_reducible apply canon_foldl) | (simp only [canon_mk]) | (with_reducible apply canon7) | split | (intro _) | (dsimp only)
theorem State.setBlock_canon {s : State} {b x} (hC : Canon kB s) : Canon kB (State.setBlock s b x) := by
  unfold State.setBlock
  repeat' first | (with_reducible assumption) | (with_reducible apply canon_foldl) | (simp only [canon_mk]) | (with_reducible apply canon7) | split | (intro _) | (dsimp only)
theorem State.updBlock_canon {s : State} {b f} (hC : Canon kB s) : Canon kB (State.updBlock s b f) := by
  unfold State.updBlock
  repeat' first | (with_reducible assumption) | (with_reducible apply State.setBlock_canon) | (with_reducible apply canon_foldl) | (simp only [canon_mk]) | (with_reducible apply canon7) | split | (intro _) | (dsimp only)
theorem State.updPart_canon {s : State} {p f} (hC : Canon kB s) : Canon kB (State.updPart s p f) := by
  unfold State.updPart
  repeat' first | (with_reducible assumption) | (with_reducible apply canon_foldl) | (simp only [canon_mk]) | (with_reducible apply canon7) | split | (intro _) | (dsimp only)
theorem State.answerMsg_canon {s : State} {r a} (hC : Canon kB s) : Canon kB (State.answerMsg s r a) := by
  unfold State.answerMsg
  repeat' first | (with_reducible assumption) | (with_reducible apply State.emitOut_canon) | (with_reducible apply canon_foldl) | (simp only [canon_mk]) | (with_reducible apply canon7) | split | (intro _) | (dsimp only)
theorem State.abandonMove_canon {s : State} {v} (hC : Canon kB s) : Canon kB (State.abandonMove s v) := by
  unfold State.abandonMove
  repeat' first | (with_reducible assumption) | (with_reducible apply State.answerMsg_canon) | (with_reducible apply State.updBlock_canon) | (with_reducible apply State.updPart_canon) | (with_reducible apply canon_foldl) | (simp only [canon_mk]) | (with_reducible apply canon7) | split | (intro _) | (dsimp only)
theorem State.sealAccount_canon {s : State} {key} (hC : Canon kB s) : Canon kB (State.sealAccount s key) := by
  unfold State.sealAccount
  repeat' first | (with_reducible assumption) | (with_reducible apply canon_foldl) | (simp only [canon_mk]) | (with_reducible apply canon7) | split | (intro _) | (dsimp only)
theorem State.epochClose_canon {s : State} (hC : Canon kB s) : Canon kB (State.epochClose s) := by
  unfold State.epochClose
  repeat' first | (with_reducible assumption) | (with_reducible apply State.sealAccount_canon) | (with_reducible apply canon_foldl) | (simp only [canon_mk]) | (with_reducible apply canon7) | split | (intro _) | (dsimp only)
theorem State.reckClose_canon {s : State} {p req flags} (hC : Canon kB s) : Canon kB (State.reckClose s p req flags).1 := by
  unfold State.reckClose
  repeat' first | (with_reducible assumption) | (with_reducible apply State.epochClose_canon) | (with_reducible apply canon_foldl) | (simp only [canon_mk]) | (with_reducible apply canon7) | split | (intro _) | (dsimp only)
theorem State.reckLast_canon {s : State} {p w} (hC : Canon kB s) : Canon kB (State.reckLast s p w) := by
  unfold State.reckLast
  repeat' first | (with_reducible assumption) | (with_reducible apply State.reckClose_canon) | (with_reducible apply canon_foldl) | (simp only [canon_mk]) | (with_reducible apply canon7) | (refine canon_fst (by assumption) ?_) | split | (intro _) | (dsimp only)
theorem State.fenceAction_canon {s : State} {p w rank source aband} (hC : Canon kB s) : Canon kB (State.fenceAction s p w rank source aband) := by
  unfold State.fenceAction
  repeat' first | (with_reducible assumption) | (with_reducible apply State.sendFence_canon) | (with_reducible apply canon_foldl) | (simp only [canon_mk]) | (with_reducible apply canon7) | split | (intro _) | (dsimp only)
theorem State.consume_canon {s : State} {p t w} (hC : Canon kB s) : Canon kB (State.consume s p t w) := by
  unfold State.consume
  repeat' first | (with_reducible assumption) | (with_reducible apply State.fenceAction_canon) | (with_reducible apply State.reckLast_canon) | (with_reducible apply canon_foldl) | (simp only [canon_mk]) | (with_reducible apply canon7) | split | (intro _) | (dsimp only)
theorem State.reckFlag_canon {s : State} {p req flag} (hC : Canon kB s) : Canon kB (State.reckFlag s p req flag) := by
  unfold State.reckFlag
  repeat' first | (with_reducible assumption) | (with_reducible apply canon_foldl) | (simp only [canon_mk]) | (with_reducible apply canon7) | split | (intro _) | (dsimp only)
theorem State.reckFull_canon {s : State} {p} (hC : Canon kB s) : Canon kB (State.reckFull s p) := by
  unfold State.reckFull
  repeat' first | (with_reducible assumption) | (with_reducible apply State.event_canon) | (with_reducible apply canon_foldl) | (simp only [canon_mk]) | (with_reducible apply canon7) | split | (intro _) | (dsimp only)
theorem State.reckOpenAt_canon {s : State} {p req ctx session flags at'} (hC : Canon kB s) : Canon kB (State.reckOpenAt s p req ctx session flags at') := by
  unfold State.reckOpenAt
  repeat' first | (with_reducible assumption) | (with_reducible apply State.reckFlag_canon) | (with_reducible apply State.reckFull_canon) | (with_reducible apply canon_foldl) | (simp only [canon_mk]) | (with_reducible apply canon7) | split | (intro _) | (dsimp only)
theorem State.reckOpen_canon {s : State} {p req ctx session flags} (hC : Canon kB s) : Canon kB (State.reckOpen s p req ctx session flags) := by
  unfold State.reckOpen
  repeat' first | (with_reducible assumption) | (with_reducible apply State.reckOpenAt_canon) | (with_reducible apply canon_foldl) | (simp only [canon_mk]) | (with_reducible apply canon7) | split | (intro _) | (dsimp only)
theorem State.reckTouch_canon {s : State} {p req ctx} (hC : Canon kB s) : Canon kB (State.reckTouch s p req ctx) := by
  unfold State.reckTouch
  repeat' first | (with_reducible assumption) | (with_reducible apply State.reckOpen_canon) | (with_reducible apply canon_foldl) | (simp only [canon_mk]) | (with_reducible apply canon7) | split | (intro _) | (dsimp only)
theorem State.setQueue_canon {s : State} {q x} (hC : Canon kB s) : Canon kB (State.setQueue s q x) := by
  unfold State.setQueue
  repeat' first | (with_reducible assumption) | (with_reducible apply canon_foldl) | (simp only [canon_mk]) | (with_reducible apply canon7) | split | (intro _) | (dsimp only)
theorem State.countStall_canon {s : State} {q} (hC : Canon kB s) : Canon kB (State.countStall s q) := by
  unfold State.countStall
  repeat' first | (with_reducible assumption) | (with_reducible apply State.setQueue_canon) | (with_reducible apply canon_foldl) | (simp only [canon_mk]) | (with_reducible apply canon7) | split | (intro _) | (dsimp only)
theorem State.launch_canon {s : State} {q w rank} (hC : Canon kB s) : Canon kB (State.launch s q w rank) := by
  unfold State.launch
  repeat' first | (with_reducible assumption) | (with_reducible apply State.post_canon) | (with_reducible apply canon_foldl) | (simp only [canon_mk]) | (with_reducible apply canon7) | split | (intro _) | (dsimp only)
theorem State.forward_canon {s : State} {p station input q w b} (hC : Canon kB s) : Canon kB (State.forward s p station input q w b) := by
  unfold State.forward
  repeat' first | (with_reducible assumption) | (with_reducible apply State.countStall_canon) | (with_reducible apply State.launch_canon) | (with_reducible apply State.reckTouch_canon) | (with_reducible apply canon_foldl) | (simp only [canon_mk]) | (with_reducible apply canon7) | split | (intro _) | (dsimp only)
theorem State.forwardRoute_canon {s : State} {p station t input w} (hC : Canon kB s) : Canon kB (State.forwardRoute s p station t input w) := by
  unfold State.forwardRoute
  repeat' first | (with_reducible assumption) | (with_reducible apply State.consume_canon) | (with_reducible apply State.forward_canon) | (with_reducible apply canon_foldl) | (simp only [canon_mk]) | (with_reducible apply canon7) | split | (intro _) | (dsimp only)
theorem State.setStation_canon {s : State} {p i x} (hC : Canon kB s) : Canon kB (State.setStation s p i x) := by
  unfold State.setStation
  repeat' first | (with_reducible assumption) | (with_reducible apply canon_foldl) | (simp only [canon_mk]) | (with_reducible apply canon7) | split | (intro _) | (dsimp only)
theorem State.delEngine_canon {s : State} {e} (hC : Canon kB s) : Canon kB (State.delEngine s e) := by
  unfold State.delEngine
  repeat' first | (with_reducible assumption) | (with_reducible apply canon_foldl) | (simp only [canon_mk]) | (with_reducible apply canon7) | split | (intro _) | (dsimp only)
theorem State.leaveIfAsked_canon {s : State} {p i e} (hC : Canon kB s) : Canon kB (State.leaveIfAsked s p i e) := by
  unfold State.leaveIfAsked
  repeat' first | (with_reducible assumption) | (with_reducible apply State.delEngine_canon) | (with_reducible apply State.setStation_canon) | (with_reducible apply canon_foldl) | (simp only [canon_mk]) | (with_reducible apply canon7) | (simp only [VCell.go_local, VCell.setLane_local, VCell.writeLanes_local, VCell.setA_local, VCell.setPred_local, VCell.flag_local, VCell.setStatus_local, VCell.writeSr_local, SCell.go_local, SCell.jump_local, SCell.setR_local]) | (with_reducible apply Memory.wf_writeL) | (with_reducible apply vcell_local) | (with_reducible apply scell_local) | (exact vReady_local hC (by assumption) (by assumption)) | (exact sReady_local hC (by assumption) (by assumption)) | (exact rfl) | split | (intro _) | (dsimp only)
theorem State.abandonStart_canon {s : State} {e x st t} (hC : Canon kB s) : Canon kB (State.abandonStart s e x st t) := by
  unfold State.abandonStart
  repeat' first | (with_reducible assumption) | (with_reducible apply State.consume_canon) | (with_reducible apply State.forwardRoute_canon) | (with_reducible apply State.leaveIfAsked_canon) | (with_reducible apply State.setEngine_canon) | (with_reducible apply State.setStation_canon) | (with_reducible apply canon_foldl) | (simp only [canon_mk]) | (with_reducible apply canon7) | (simp only [VCell.go_local, VCell.setLane_local, VCell.writeLanes_local, VCell.setA_local, VCell.setPred_local, VCell.flag_local, VCell.setStatus_local, VCell.writeSr_local, SCell.go_local, SCell.jump_local, SCell.setR_local]) | (with_reducible apply Memory.wf_writeL) | (with_reducible apply vcell_local) | (with_reducible apply scell_local) | (exact vReady_local hC (by assumption) (by assumption)) | (exact sReady_local hC (by assumption) (by assumption)) | (exact rfl) | split | (intro _) | (dsimp only)
theorem State.abandonNow_canon {s : State} {e} (hC : Canon kB s) : Canon kB (State.abandonNow s e) := by
  unfold State.abandonNow
  repeat' first | (with_reducible assumption) | (with_reducible apply State.abandonStart_canon) | (with_reducible apply canon_foldl) | (simp only [canon_mk]) | (with_reducible apply canon7) | split | (intro _) | (dsimp only)
theorem State.abandonPart_canon {s : State} {p} (hC : Canon kB s) : Canon kB (State.abandonPart s p) := by
  unfold State.abandonPart
  repeat' first | (with_reducible assumption) | (with_reducible apply State.answerMsg_canon) | (with_reducible apply canon_foldl) | (simp only [canon_mk]) | (with_reducible apply canon7) | split | (intro _) | (dsimp only)
theorem State.setPlan_canon {s : State} {k x} (hC : Canon kB s) : Canon kB (State.setPlan s k x) := by
  unfold State.setPlan
  repeat' first | (with_reducible assumption) | (with_reducible apply canon_foldl) | (simp only [canon_mk]) | (with_reducible apply canon7) | split | (intro _) | (dsimp only)
theorem State.voidRows_canon {s : State} {slot} (hC : Canon kB s) : Canon kB (State.voidRows s slot) := by
  unfold State.voidRows
  repeat' first | (with_reducible assumption) | (with_reducible apply State.setPlan_canon) | (with_reducible apply canon_foldl) | (simp only [canon_mk]) | (with_reducible apply canon7) | split | (intro _) | (dsimp only)
theorem State.order_canon {s : State} (hC : Canon kB s) : Canon kB (State.order s).2 := by
  unfold State.order
  repeat' first | (with_reducible assumption) | (with_reducible apply canon_foldl) | (simp only [canon_mk]) | (with_reducible apply canon7) | split | (intro _) | (dsimp only)
theorem State.mirrorSend_canon {s : State} {p kind handle fields} (hC : Canon kB s) : Canon kB (State.mirrorSend s p kind handle fields) := by
  unfold State.mirrorSend
  repeat' first | (with_reducible assumption) | (with_reducible apply State.emitOut_canon) | (with_reducible apply canon_foldl) | (simp only [canon_mk]) | (with_reducible apply canon7) | split | (intro _) | (dsimp only)
theorem State.setSess_canon {s : State} {slot x} (hC : Canon kB s) : Canon kB (State.setSess s slot x) := by
  unfold State.setSess
  repeat' first | (with_reducible assumption) | (with_reducible apply canon_foldl) | (simp only [canon_mk]) | (with_reducible apply canon7) | split | (intro _) | (dsimp only)
theorem State.unmirrored_canon {s : State} {p plan} (hC : Canon kB s) : Canon kB (State.unmirrored s p plan) := by
  unfold State.unmirrored
  repeat' first | (with_reducible assumption) | (with_reducible apply State.event_canon) | (with_reducible apply State.setPlan_canon) | (with_reducible apply canon_foldl) | (simp only [canon_mk]) | (with_reducible apply canon7) | split | (intro _) | (dsimp only)
theorem State.addRec_canon {s : State} {slot x r} (hC : Canon kB s) : Canon kB (State.addRec s slot x r) := by
  unfold State.addRec
  repeat' first | (with_reducible assumption) | (with_reducible apply State.setSess_canon) | (with_reducible apply State.unmirrored_canon) | (with_reducible apply canon_foldl) | (simp only [canon_mk]) | (with_reducible apply canon7) | (simp only [VCell.go_local, VCell.setLane_local, VCell.writeLanes_local, VCell.setA_local, VCell.setPred_local, VCell.flag_local, VCell.setStatus_local, VCell.writeSr_local, SCell.go_local, SCell.jump_local, SCell.setR_local]) | (with_reducible apply Memory.wf_writeL) | (with_reducible apply vcell_local) | (with_reducible apply scell_local) | (exact vReady_local hC (by assumption) (by assumption)) | (exact sReady_local hC (by assumption) (by assumption)) | (exact rfl) | split | (intro _) | (dsimp only)
theorem State.endGeneration_canon {s : State} {slot reason} (hC : Canon kB s) : Canon kB (State.endGeneration s slot reason) := by
  unfold State.endGeneration
  repeat' first | (with_reducible assumption) | (with_reducible apply State.addRec_canon) | (with_reducible apply State.mirrorSend_canon) | (with_reducible apply State.order_canon) | (with_reducible apply State.voidRows_canon) | (with_reducible apply canon_foldl) | (simp only [canon_mk]) | (with_reducible apply canon7) | (refine canon_fst (by assumption) ?_) | (refine canon_snd (by assumption) ?_) | split | (intro _) | (dsimp only)
theorem State.updSess_canon {s : State} {slot f} (hC : Canon kB s) : Canon kB (State.updSess s slot f) := by
  unfold State.updSess
  repeat' first | (with_reducible assumption) | (with_reducible apply canon_foldl) | (simp only [canon_mk]) | (with_reducible apply canon7) | split | (intro _) | (dsimp only)
theorem State.abandonSessions_canon {s : State} {p c} (hC : Canon kB s) : Canon kB (State.abandonSessions s p c) := by
  unfold State.abandonSessions
  repeat' first | (with_reducible assumption) | (with_reducible apply State.endGeneration_canon) | (with_reducible apply State.updSess_canon) | (with_reducible apply canon_foldl) | (simp only [canon_mk]) | (with_reducible apply canon7) | split | (intro _) | (dsimp only)
theorem State.ackAll_canon {s : State} {p} (hC : Canon kB s) : Canon kB (State.ackAll s p) := by
  unfold State.ackAll
  repeat' first | (with_reducible assumption) | (with_reducible apply canon_foldl) | (simp only [canon_mk]) | (with_reducible apply canon7) | split | (intro _) | (dsimp only)
theorem State.addAccess_canon {s : State} {a claims} (hC : Canon kB s) : Canon kB (State.addAccess s a claims) := by
  unfold State.addAccess
  repeat' first | (with_reducible assumption) | (with_reducible apply State.post_canon) | (with_reducible apply canon_foldl) | (simp only [canon_mk]) | (with_reducible apply canon7) | split | (intro _) | (dsimp only)
theorem State.addAccount_canon {s : State} {key cat uj time} (hC : Canon kB s) : Canon kB (State.addAccount s key cat uj time) := by
  unfold State.addAccount
  repeat' first | (with_reducible assumption) | (with_reducible apply canon_foldl) | (simp only [canon_mk]) | (with_reducible apply canon7) | split | (intro _) | (dsimp only)
theorem State.queueReset_canon {s : State} {p cause source station next done} (hC : Canon kB s) : Canon kB (State.queueReset s p cause source station next done) := by
  unfold State.queueReset
  repeat' first | (with_reducible assumption) | (with_reducible apply canon_foldl) | (simp only [canon_mk]) | (with_reducible apply canon7) | split | (intro _) | (dsimp only)
theorem State.addCapture_canon {s : State} {p cause source station next} (hC : Canon kB s) : Canon kB (State.addCapture s p cause source station next) := by
  unfold State.addCapture
  repeat' first | (with_reducible assumption) | (with_reducible apply State.queueReset_canon) | (with_reducible apply canon_foldl) | (simp only [canon_mk]) | (with_reducible apply canon7) | split | (intro _) | (dsimp only)
theorem State.addEmit_canon {s : State} {e x st w0} (hC : Canon kB s) : Canon kB (State.addEmit s e x st w0).1 := by
  unfold State.addEmit
  repeat' first | (with_reducible assumption) | (with_reducible apply State.setEngine_canon) | (with_reducible apply canon_foldl) | (simp only [canon_mk]) | (with_reducible apply canon7) | split | (intro _) | (dsimp only)
theorem State.addOutgoing_canon {s : State} {o} (hC : Canon kB s) : Canon kB (State.addOutgoing s o) := by
  unfold State.addOutgoing
  repeat' first | (with_reducible assumption) | (with_reducible apply canon_foldl) | (simp only [canon_mk]) | (with_reducible apply canon7) | split | (intro _) | (dsimp only)
theorem State.addWords_canon {s : State} {w p sub words} (hC : Canon kB s) : Canon kB (State.addWords s w p sub words) := by
  unfold State.addWords
  repeat' first | (with_reducible assumption) | (with_reducible apply State.addAccess_canon) | (with_reducible apply canon_foldl) | (simp only [canon_mk]) | (with_reducible apply canon7) | split | (intro _) | (dsimp only)
theorem State.readLines_canon {s : State} {w p lines} (hC : Canon kB s) : Canon kB (State.readLines s w p lines) := by
  unfold State.readLines
  repeat' first | (with_reducible assumption) | (with_reducible apply State.addAccess_canon) | (with_reducible apply canon_foldl) | (simp only [canon_mk]) | (with_reducible apply canon7) | split | (intro _) | (dsimp only)
theorem State.addResult_canon {s : State} {e p r b w src out} (hC : Canon kB s) : Canon kB (State.addResult s e p r b w src out) := by
  unfold State.addResult
  repeat' first | (with_reducible assumption) | (with_reducible apply State.addWords_canon) | (with_reducible apply State.readLines_canon) | (with_reducible apply canon_foldl) | (simp only [canon_mk]) | (with_reducible apply canon7) | split | (intro _) | (dsimp only)
theorem State.addViolation_canon {s : State} {c p va} (hC : Canon kB s) : Canon kB (State.addViolation s c p va) := by
  unfold State.addViolation
  repeat' first | (with_reducible assumption) | (with_reducible apply State.addAccess_canon) | (with_reducible apply canon_foldl) | (simp only [canon_mk]) | (with_reducible apply canon7) | split | (intro _) | (dsimp only)
theorem State.setWindow_canon {s : State} {id w} (hC : Canon kB s) : Canon kB (State.setWindow s id w) := by
  unfold State.setWindow
  repeat' first | (with_reducible assumption) | (with_reducible apply canon_foldl) | (simp only [canon_mk]) | (with_reducible apply canon7) | split | (intro _) | (dsimp only)
theorem State.transact_canon {s : State} {part order r} (hC : Canon kB s) : Canon kB (State.transact s part order r) := by
  unfold State.transact
  repeat' first | (with_reducible assumption) | (with_reducible apply canon_foldl) | (simp only [canon_mk]) | (with_reducible apply canon7) | split | (intro _) | (dsimp only)
theorem State.admitWin_canon {s : State} {n tag node q l data amo} (hC : Canon kB s) : Canon kB (State.admitWin s n tag node q l data amo) := by
  unfold State.admitWin
  repeat' first | (with_reducible assumption) | (with_reducible apply State.setWindow_canon) | (with_reducible apply State.transact_canon) | (with_reducible apply canon_foldl) | (simp only [canon_mk]) | (with_reducible apply canon7) | split | (intro _) | (dsimp only)
theorem State.logFault_canon {s : State} {c p r d} (hC : Canon kB s) : Canon kB (s.logFault c p r d) := by
  unfold State.logFault
  refine { hC with ord := ?_, grown := ?_ }
  · have := hC.ord
    intro ho
    cases h : s.log with
    | nil => rfl
    | cons a l => rw [h] at this; simp [Safety.LogInOrder, this ho]
  · obtain ⟨m, hm, hs⟩ := hC.grown
    refine ⟨_ :: m, congrArg _ hm, ?_⟩
    intro e he
    cases he with
    | head => exact hC.slot
    | tail _ h => exact hs e h
theorem State.opEvent_canon {s : State} {code part source data} (hC : Canon kB s) : Canon kB (State.opEvent s code part source data) := by
  unfold State.opEvent
  repeat' first | (with_reducible assumption) | (with_reducible apply canon_foldl) | (simp only [canon_mk]) | (with_reducible apply canon7) | split | (intro _) | (dsimp only)
theorem State.freezeMaster_canon {s : State} {k n code p addr} (hC : Canon kB s) : Canon kB (State.freezeMaster s k n code p addr) := by
  unfold State.freezeMaster
  repeat' first | (with_reducible assumption) | (with_reducible apply State.event_canon) | (with_reducible apply State.logFault_canon) | (with_reducible apply State.opEvent_canon) | (with_reducible apply canon_foldl) | (simp only [canon_mk]) | (with_reducible apply canon7) | split | (intro _) | (dsimp only)
theorem State.freezeEngine_canon {s : State} {e code addr} (hC : Canon kB s) : Canon kB (State.freezeEngine s e code addr) := by
  unfold State.freezeEngine
  repeat' first | (with_reducible assumption) | (with_reducible apply State.freezeMaster_canon) | (with_reducible apply canon_foldl) | (simp only [canon_mk]) | (with_reducible apply canon7) | split | (intro _) | (dsimp only)
theorem State.xlateFault_canon {s : State} {e p ctx va c} (hC : Canon kB s) : Canon kB (State.xlateFault s e p ctx va c) := by
  unfold State.xlateFault
  repeat' first | (with_reducible assumption) | (with_reducible apply State.event_canon) | (with_reducible apply State.freezeEngine_canon) | (with_reducible apply State.programFault_canon) | (with_reducible apply canon_foldl) | (simp only [canon_mk]) | (with_reducible apply canon7) | split | (intro _) | (dsimp only)
theorem State.setBtu_canon {s : State} {b x} (hC : Canon kB s) : Canon kB (State.setBtu s b x) := by
  unfold State.setBtu
  repeat' first | (with_reducible assumption) | (with_reducible apply canon_foldl) | (simp only [canon_mk]) | (with_reducible apply canon7) | split | (intro _) | (dsimp only)
theorem State.advance_canon {s : State} {b k n} (hC : Canon kB s) : Canon kB (s.advance b k n) := by
  induction n generalizing s with
  | zero => exact hC
  | succ n ih =>
    unfold State.advance
    repeat' first | (with_reducible assumption) | (with_reducible apply ih) | (with_reducible apply State.xlateFault_canon) | (with_reducible apply State.setBtu_canon) | split | (dsimp only)
theorem State.advanceAll_canon {s : State} {b} (hC : Canon kB s) : Canon kB (s.advanceAll b) := canon_foldl hC fun _ _ h => State.advance_canon h
theorem State.advanceEpoch_canon {s : State} {p} (hC : Canon kB s) : Canon kB (State.advanceEpoch s p) := by
  unfold State.advanceEpoch
  repeat' first | (with_reducible assumption) | (with_reducible apply State.updPart_canon) | (with_reducible apply canon_foldl) | (simp only [canon_mk]) | (with_reducible apply canon7) | split | (intro _) | (dsimp only)
theorem State.allotPower_canon {s : State} {l p x} (hC : Canon kB s) : Canon kB (State.allotPower s l p x) := by
  unfold State.allotPower
  repeat' first | (with_reducible assumption) | (with_reducible apply State.updBlock_canon) | (with_reducible apply canon_foldl) | (simp only [canon_mk]) | (with_reducible apply canon7) | split | (intro _) | (dsimp only)
theorem State.lineDone_canon {s : State} {n bs lost} (hC : Canon kB s) : Canon kB (State.lineDone s n bs lost) := by
  unfold State.lineDone
  repeat' first | (with_reducible assumption) | (with_reducible apply canon_foldl) | (simp only [canon_mk]) | (with_reducible apply canon7) | split | (intro _) | (dsimp only)
theorem State.answerClaim_canon {s : State} {c bs lost} (hC : Canon kB s) : Canon kB (State.answerClaim s c bs lost) := by
  unfold State.answerClaim
  repeat' first | (with_reducible assumption) | (with_reducible apply State.lineDone_canon) | (with_reducible apply State.post_canon) | (with_reducible apply canon_foldl) | (simp only [canon_mk]) | (with_reducible apply canon7) | split | (intro _) | (dsimp only)
theorem State.answerCmd_canon {s : State} {q a} (hC : Canon kB s) : Canon kB (State.answerCmd s q a) := by
  unfold State.answerCmd
  repeat' first | (with_reducible assumption) | (with_reducible apply State.answerOne_canon) | (with_reducible apply State.skipBad_canon) | (with_reducible apply canon_foldl) | (simp only [canon_mk]) | (with_reducible apply canon7) | split | (intro _) | (dsimp only)
theorem State.answerWaiters_canon {s : State} {f a} (hC : Canon kB s) : Canon kB (State.answerWaiters s f a) := by
  unfold State.answerWaiters
  repeat' first | (with_reducible assumption) | (with_reducible apply State.answerCmd_canon) | (with_reducible apply canon_foldl) | (simp only [canon_mk]) | (with_reducible apply canon7) | split | (intro _) | (dsimp only)
theorem State.setVolt_canon {s : State} {b v} (hC : Canon kB s) : Canon kB (State.setVolt s b v) := by
  unfold State.setVolt
  repeat' first | (with_reducible assumption) | (with_reducible apply canon_foldl) | (simp only [canon_mk]) | (with_reducible apply canon7) | split | (intro _) | (dsimp only)
theorem State.fallTo_canon {s : State} {b f} (hC : Canon kB s) : Canon kB (State.fallTo s b f) := by
  unfold State.fallTo
  repeat' first | (with_reducible assumption) | (with_reducible apply State.setVolt_canon) | (with_reducible apply State.updBlock_canon) | (with_reducible apply canon_foldl) | (simp only [canon_mk]) | (with_reducible apply canon7) | (simp only [VCell.go_local, VCell.setLane_local, VCell.writeLanes_local, VCell.setA_local, VCell.setPred_local, VCell.flag_local, VCell.setStatus_local, VCell.writeSr_local, SCell.go_local, SCell.jump_local, SCell.setR_local]) | (with_reducible apply Memory.wf_writeL) | (with_reducible apply vcell_local) | (with_reducible apply scell_local) | (exact vReady_local hC (by assumption) (by assumption)) | (exact sReady_local hC (by assumption) (by assumption)) | (exact rfl) | split | (intro _) | (dsimp only)
theorem State.applyCeilings_canon {s : State} (hC : Canon kB s) : Canon kB (State.applyCeilings s) := by
  unfold State.applyCeilings
  repeat' first | (with_reducible assumption) | (with_reducible apply State.fallTo_canon) | (with_reducible apply canon_foldl) | (simp only [canon_mk]) | (with_reducible apply canon7) | split | (intro _) | (dsimp only)
theorem State.setFence_canon {s : State} {f x} (hC : Canon kB s) : Canon kB (State.setFence s f x) := by
  unfold State.setFence
  repeat' first | (with_reducible assumption) | (with_reducible apply canon_foldl) | (simp only [canon_mk]) | (with_reducible apply canon7) | split | (intro _) | (dsimp only)
theorem applyFlit_canon {x f} (hC : Canon kB x.1) : Canon kB (applyFlit x f).1 := by
  unfold applyFlit
  repeat' first | (with_reducible assumption) | (with_reducible apply State.setFence_canon) | split | (dsimp only)
theorem State.releaseWaiters_canon {s : State} (hC : Canon kB s) : Canon kB (State.releaseWaiters s) := by
  unfold State.releaseWaiters
  repeat' first | (with_reducible assumption) | (with_reducible apply State.answerCmd_canon) | (with_reducible apply canon_foldl) | (simp only [canon_mk]) | (with_reducible apply canon7) | split | (intro _) | (dsimp only)
theorem State.beginWait_canon {s : State} {p f q t deadline} (hC : Canon kB s) : Canon kB (State.beginWait s p f q t deadline) := by
  unfold State.beginWait
  repeat' first | (with_reducible assumption) | (with_reducible apply State.answerCmd_canon) | (with_reducible apply canon_foldl) | (simp only [canon_mk]) | (with_reducible apply canon7) | split | (intro _) | (dsimp only)
theorem State.await_canon {s : State} {q} (hC : Canon kB s) : Canon kB (State.await s q) := by
  unfold State.await
  repeat' first | (with_reducible assumption) | (with_reducible apply State.setRing_canon) | (with_reducible apply canon_foldl) | (simp only [canon_mk]) | (with_reducible apply canon7) | split | (intro _) | (dsimp only)
theorem finishCmd_canon {q x} (hC : Canon kB x.1) : Canon kB (finishCmd q x) := by
  unfold finishCmd
  split
  · exact State.answerCmd_canon hC
  · exact State.await_canon hC
theorem done_canon {s : State} {v} (hC : Canon kB s) : Canon kB (done s v).1 := by
  unfold done
  repeat' first | (with_reducible assumption) | (with_reducible apply canon_foldl) | (simp only [canon_mk]) | (with_reducible apply canon7) | split | (intro _) | (dsimp only)
theorem State.copyObj_canon {s : State} {src dst so d n} (hC : Canon kB s) : Canon kB (State.copyObj s src dst so d n) := by
  unfold State.copyObj
  repeat' first | (with_reducible assumption) | (with_reducible apply State.writeObj_canon) | (with_reducible apply canon_foldl) | (simp only [canon_mk]) | (with_reducible apply canon7) | split | (intro _) | (dsimp only)
theorem refuse_canon {s : State} {c} (hC : Canon kB s) : Canon kB (refuse s c).1 := by
  unfold refuse
  repeat' first | (with_reducible assumption) | (with_reducible apply canon_foldl) | (simp only [canon_mk]) | (with_reducible apply canon7) | split | (intro _) | (dsimp only)
theorem State.fetchResult_canon {s : State} {p r w} (hC : Canon kB s) : Canon kB (State.fetchResult s p r w).1 := by
  unfold State.fetchResult
  repeat' first | (with_reducible assumption) | (with_reducible apply State.copyObj_canon) | (with_reducible apply done_canon) | (with_reducible apply refuse_canon) | (with_reducible apply canon_foldl) | (simp only [canon_mk]) | (with_reducible apply canon7) | (refine canon_fst (by assumption) ?_) | split | (intro _) | (dsimp only)
theorem replyFlit_canon {s : State} {d} (hC : Canon kB s) : Canon kB (replyFlit s d) := by
  unfold replyFlit
  repeat' first | (with_reducible assumption) | (with_reducible apply State.answerCmd_canon) | (with_reducible apply State.beginWait_canon) | (with_reducible apply State.event_canon) | (with_reducible apply State.fetchResult_canon) | (with_reducible apply State.logFault_canon) | (with_reducible apply finishCmd_canon) | (with_reducible apply canon_foldl) | (simp only [canon_mk]) | (with_reducible apply canon7) | (refine canon_fst (by assumption) ?_) | split | (intro _) | (dsimp only)
theorem State.applyGroup_canon {s : State} {n} (hC : Canon kB s) : Canon kB (s.applyGroup n).1 := by
  unfold State.applyGroup
  exact State.releaseWaiters_canon (canon_foldl (canon_foldl_fst (s := (_, [])) hC fun _ _ h => applyFlit_canon h) fun _ _ h => replyFlit_canon h)
theorem State.setS_canon {s : State} {c : Nat} {x : SCell} (hC : Canon kB s) (hx : kB.mem → Memory.wf x.local' = true) : Canon kB (s.setS c x) :=
  { hC with sc := fun hm => Tab.all_put (p := fun x : SCell => Memory.wf x.local') (hC.sc hm) (hx hm) }
theorem State.takeStatus_canon {s : State} {c rd status} (hC : Canon kB s) : Canon kB (State.takeStatus s c rd status) := by
  unfold State.takeStatus
  repeat' first | (with_reducible assumption) | (with_reducible apply State.setS_canon) | (with_reducible apply canon_foldl) | (simp only [canon_mk]) | (with_reducible apply canon7) | (simp only [VCell.go_local, VCell.setLane_local, VCell.writeLanes_local, VCell.setA_local, VCell.setPred_local, VCell.flag_local, VCell.setStatus_local, VCell.writeSr_local, SCell.go_local, SCell.jump_local, SCell.setR_local]) | (with_reducible apply Memory.wf_writeL) | (with_reducible apply vcell_local) | (with_reducible apply scell_local) | (exact vReady_local hC (by assumption) (by assumption)) | (exact sReady_local hC (by assumption) (by assumption)) | (exact rfl) | split | (intro _) | (dsimp only)
theorem State.endStream_canon {s : State} {carrier status} (hC : Canon kB s) : Canon kB (State.endStream s carrier status) := by
  unfold State.endStream
  repeat' first | (with_reducible assumption) | (with_reducible apply State.setEngine_canon) | (with_reducible apply canon_foldl) | (simp only [canon_mk]) | (with_reducible apply canon7) | split | (intro _) | (dsimp only)
theorem State.updSend_canon {s : State} {n f} (hC : Canon kB s) : Canon kB (State.updSend s n f) := by
  unfold State.updSend
  repeat' first | (with_reducible assumption) | (with_reducible apply canon_foldl) | (simp only [canon_mk]) | (with_reducible apply canon7) | split | (intro _) | (dsimp only)
theorem State.takeMark_canon {s : State} {send target reason} (hC : Canon kB s) : Canon kB (State.takeMark s send target reason) := by
  unfold State.takeMark
  repeat' first | (with_reducible assumption) | (with_reducible apply State.endStream_canon) | (with_reducible apply State.updSend_canon) | (with_reducible apply canon_foldl) | (simp only [canon_mk]) | (with_reducible apply canon7) | split | (intro _) | (dsimp only)
theorem State.memEnter_canon {s : State} {ch r} (hC : Canon kB s) : Canon kB (State.memEnter s ch r) := by
  unfold State.memEnter
  repeat' first | (with_reducible assumption) | (with_reducible apply State.setCtrl_canon) | (with_reducible apply canon_foldl) | (simp only [canon_mk]) | (with_reducible apply canon7) | split | (intro _) | (dsimp only)
theorem State.rowStatus_canon {s : State} {id} (hC : Canon kB s) : Canon kB (State.rowStatus s id) := by
  unfold State.rowStatus
  repeat' first | (with_reducible assumption) | (with_reducible apply canon_foldl) | (simp only [canon_mk]) | (with_reducible apply canon7) | split | (intro _) | (dsimp only)
theorem State.reply_canon {s : State} {ch line data w} (hC : Canon kB s) : Canon kB (State.reply s ch line data w) := by
  unfold State.reply
  repeat' first | (with_reducible assumption) | (with_reducible apply State.post_canon) | (with_reducible apply canon_foldl) | (simp only [canon_mk]) | (with_reducible apply canon7) | split | (intro _) | (dsimp only)
theorem State.readLost_canon {s : State} {ch r} (hC : Canon kB s) : Canon kB (State.readLost s ch r) := by
  unfold State.readLost
  repeat' first | (with_reducible assumption) | (with_reducible apply State.memEnter_canon) | (with_reducible apply State.reply_canon) | (with_reducible apply State.rowStatus_canon) | (with_reducible apply canon_foldl) | (simp only [canon_mk]) | (with_reducible apply canon7) | split | (intro _) | (dsimp only)
theorem State.toChannel_canon {s : State} {ch r} (hC : Canon kB s) : Canon kB (State.toChannel s ch r) := by
  unfold State.toChannel
  repeat' first | (with_reducible assumption) | (with_reducible apply State.memEnter_canon) | (with_reducible apply State.readLost_canon) | (with_reducible apply canon_foldl) | (simp only [canon_mk]) | (with_reducible apply canon7) | split | (intro _) | (dsimp only)
theorem State.holdRow_canon {s : State} {r} (hC : Canon kB s) : Canon kB (State.holdRow s r) := by
  unfold State.holdRow
  repeat' first | (with_reducible assumption) | (with_reducible apply canon_foldl) | (simp only [canon_mk]) | (with_reducible apply canon7) | split | (intro _) | (dsimp only)
theorem State.writeDone_canon {s : State} {ch r} (hC : Canon kB s) : Canon kB (State.writeDone s ch r) := by
  unfold State.writeDone
  repeat' first | (with_reducible assumption) | (with_reducible apply State.reply_canon) | (with_reducible apply State.rowStatus_canon) | (with_reducible apply canon_foldl) | (simp only [canon_mk]) | (with_reducible apply canon7) | split | (intro _) | (dsimp only)
theorem State.keepOld_canon {s : State} {r l} (hC : Canon kB s) : Canon kB (State.keepOld s r l) := by
  unfold State.keepOld
  repeat' first | (with_reducible assumption) | (with_reducible apply canon_foldl) | (simp only [canon_mk]) | (with_reducible apply canon7) | split | (intro _) | (dsimp only)
theorem State.memIn_canon {s : State} {ch r} (hC : Canon kB s) : Canon kB (State.memIn s ch r) := by
  unfold State.memIn
  repeat' first | (with_reducible assumption) | (refine State.stage_canon ?_ (by assumption)) | (with_reducible apply State.holdRow_canon) | (with_reducible apply State.keepOld_canon) | (with_reducible apply State.reply_canon) | (with_reducible apply State.toChannel_canon) | (with_reducible apply State.writeDone_canon) | (with_reducible apply canon_foldl) | (simp only [canon_mk]) | (with_reducible apply canon7) | split | (intro _) | (dsimp only)
theorem State.setMaster_canon {s : State} {k m} (hC : Canon kB s) : Canon kB (State.setMaster s k m) := by
  unfold State.setMaster
  repeat' first | (with_reducible assumption) | (with_reducible apply canon_foldl) | (simp only [canon_mk]) | (with_reducible apply canon7) | split | (intro _) | (dsimp only)
theorem State.received_canon {s : State} {r} (hC : Canon kB s) : Canon kB (State.received s r) := by
  unfold State.received
  repeat' first | (with_reducible assumption) | (with_reducible apply State.setMaster_canon) | (with_reducible apply canon_foldl) | (simp only [canon_mk]) | (with_reducible apply canon7) | split | (intro _) | (dsimp only)
theorem State.regDone_canon {s : State} {k p3 completed} (hC : Canon kB s) : Canon kB (State.regDone s k p3 completed) := by
  unfold State.regDone
  repeat' first | (with_reducible assumption) | (with_reducible apply State.setMaster_canon) | (with_reducible apply canon_foldl) | (simp only [canon_mk]) | (with_reducible apply canon7) | split | (intro _) | (dsimp only)
theorem State.walkData_canon {s : State} {b slot n data} (hC : Canon kB s) : Canon kB (State.walkData s b slot n data) := by
  unfold State.walkData
  repeat' first | (with_reducible assumption) | (with_reducible apply State.setBtu_canon) | (with_reducible apply canon_foldl) | (simp only [canon_mk]) | (with_reducible apply canon7) | split | (intro _) | (dsimp only)
theorem State.setPort_canon {s : State} {n x} (hC : Canon kB s) : Canon kB (State.setPort s n x) := by
  unfold State.setPort
  repeat' first | (with_reducible assumption) | (with_reducible apply canon_foldl) | (simp only [canon_mk]) | (with_reducible apply canon7) | split | (intro _) | (dsimp only)
theorem State.updPort_canon {s : State} {n f} (hC : Canon kB s) : Canon kB (State.updPort s n f) := by
  unfold State.updPort
  repeat' first | (with_reducible assumption) | (with_reducible apply State.setPort_canon) | (with_reducible apply canon_foldl) | (simp only [canon_mk]) | (with_reducible apply canon7) | split | (intro _) | (dsimp only)
theorem State.sendMsg_canon {s : State} {n part vc dest bytes} (hC : Canon kB s) : Canon kB (State.sendMsg s n part vc dest bytes) := by
  unfold State.sendMsg
  repeat' first | (with_reducible assumption) | (with_reducible apply State.updPort_canon) | (with_reducible apply canon_foldl) | (simp only [canon_mk]) | (with_reducible apply canon7) | split | (intro _) | (dsimp only)
theorem State.respond_canon {s : State} {n part dest tag status body} (hC : Canon kB s) : Canon kB (State.respond s n part dest tag status body) := by
  unfold State.respond
  repeat' first | (with_reducible assumption) | (with_reducible apply State.emitOut_canon) | (with_reducible apply State.sendMsg_canon) | (with_reducible apply canon_foldl) | (simp only [canon_mk]) | (with_reducible apply canon7) | split | (intro _) | (dsimp only)
theorem State.winLine_canon {s : State} {k line data} (hC : Canon kB s) : Canon kB (State.winLine s k line data) := by
  unfold State.winLine
  repeat' first | (with_reducible assumption) | (with_reducible apply State.respond_canon) | (with_reducible apply canon_foldl) | (simp only [canon_mk]) | (with_reducible apply canon7) | split | (intro _) | (dsimp only)
theorem State.memArrive_canon {s : State} {id line data reg} (hC : Canon kB s) : Canon kB (State.memArrive s id line data reg) := by
  unfold State.memArrive
  repeat' first | (with_reducible assumption) | (with_reducible apply State.programFault_canon) | (with_reducible apply State.regDone_canon) | (with_reducible apply State.walkData_canon) | (with_reducible apply State.winLine_canon) | (with_reducible apply canon_foldl) | (simp only [canon_mk]) | (with_reducible apply canon7) | split | (intro _) | (dsimp only)
theorem State.land_canon {s : State} {f} (hC : Canon kB s) : Canon kB (State.land s f) := by
  unfold State.land
  repeat' first | (with_reducible assumption) | (with_reducible apply State.lineDone_canon) | (with_reducible apply State.memArrive_canon) | (with_reducible apply State.memIn_canon) | (with_reducible apply State.received_canon) | (with_reducible apply State.takeMark_canon) | (with_reducible apply State.takeStatus_canon) | (with_reducible apply canon_foldl) | (simp only [canon_mk]) | (with_reducible apply canon7) | split | (intro _) | (dsimp only)
theorem State.arrivals_canon {s : State} (hC : Canon kB s) : Canon kB (State.arrivals s) := by
  unfold State.arrivals
  repeat' first | (with_reducible assumption) | (with_reducible apply State.land_canon) | (with_reducible apply canon_foldl) | (simp only [canon_mk]) | (with_reducible apply canon7) | split | (intro _) | (dsimp only)
theorem State.askWindow_canon {s : State} {g va txn w off length body} (hC : Canon kB s) : Canon kB (State.askWindow s g va txn w off length body) := by
  unfold State.askWindow
  repeat' first | (with_reducible assumption) | (with_reducible apply State.emitOut_canon) | (with_reducible apply State.programFault_canon) | (with_reducible apply State.sendMsg_canon) | (with_reducible apply State.setPort_canon) | (with_reducible apply canon_foldl) | (simp only [canon_mk]) | (with_reducible apply canon7) | split | (intro _) | (dsimp only)
theorem State.violate_canon {s : State} {c va} (hC : Canon kB s) : Canon kB (State.violate s c va) := by
  unfold State.violate
  repeat' first | (with_reducible assumption) | (with_reducible apply State.freezeMaster_canon) | (with_reducible apply canon_foldl) | (simp only [canon_mk]) | (with_reducible apply canon7) | split | (intro _) | (dsimp only)
theorem State.performClaim_canon {s : State} {c} (hC : Canon kB s) : Canon kB (s.performClaim c) := by
  unfold State.performClaim
  repeat' first | (with_reducible assumption) | (with_reducible apply State.answerClaim_canon) | split | (dsimp only)
  · exact { hC with sl := fun hm => wf_foldl (hC.sl hm) fun _ _ h => Memory.wf_write h _ _ }
  · exact { hC with sl := fun hm => Memory.wf_writeN (hC.sl hm) _ _ _ }
  · exact { hC with sl := fun hm => wf_foldl (hC.sl hm) fun _ _ h => Memory.wf_writeN h _ _ _ }
theorem State.setM_canon {s : State} {c x} (hC : Canon kB s) : Canon kB (State.setM s c x) := by
  unfold State.setM
  repeat' first | (with_reducible assumption) | (with_reducible apply canon_foldl) | (simp only [canon_mk]) | (with_reducible apply canon7) | split | (intro _) | (dsimp only)
theorem State.setV_canon {s : State} {c : Nat} {x : VCell} (hC : Canon kB s) (hx : kB.mem → Memory.wf x.local' = true) : Canon kB (s.setV c x) :=
  { hC with v := fun hm => Tab.all_put (p := fun x : VCell => Memory.wf x.local') (hC.v hm) (hx hm) }
theorem State.reportLost_canon {s : State} {w n} (hC : Canon kB s) : Canon kB (State.reportLost s w n) := by
  unfold State.reportLost
  repeat' first | (with_reducible assumption) | (with_reducible apply State.setM_canon) | (with_reducible apply State.setS_canon) | (with_reducible apply State.setV_canon) | (with_reducible apply canon_foldl) | (simp only [canon_mk]) | (with_reducible apply canon7) | (simp only [VCell.go_local, VCell.setLane_local, VCell.writeLanes_local, VCell.setA_local, VCell.setPred_local, VCell.flag_local, VCell.setStatus_local, VCell.writeSr_local, SCell.go_local, SCell.jump_local, SCell.setR_local]) | (with_reducible apply Memory.wf_writeL) | (with_reducible apply vcell_local) | (with_reducible apply scell_local) | (exact vReady_local hC (by assumption) (by assumption)) | (exact sReady_local hC (by assumption) (by assumption)) | (exact rfl) | split | (intro _) | (dsimp only)
theorem State.deliver_canon {s : State} {c a} (hC : Canon kB s) : Canon kB (State.deliver s c a) := by
  unfold State.deliver
  repeat' first | (with_reducible assumption) | (with_reducible apply State.setM_canon) | (with_reducible apply State.setS_canon) | (with_reducible apply State.setV_canon) | (with_reducible apply canon_foldl) | (simp only [canon_mk]) | (with_reducible apply canon7) | (simp only [VCell.go_local, VCell.setLane_local, VCell.writeLanes_local, VCell.setA_local, VCell.setPred_local, VCell.flag_local, VCell.setStatus_local, VCell.writeSr_local, SCell.go_local, SCell.jump_local, SCell.setR_local]) | (with_reducible apply Memory.wf_writeL) | (with_reducible apply vcell_local) | (with_reducible apply scell_local) | (exact vReady_local hC (by assumption) (by assumption)) | (exact sReady_local hC (by assumption) (by assumption)) | (exact rfl) | split | (intro _) | (dsimp only)
theorem State.endAccess_canon {s : State} {n a} (hC : Canon kB s) : Canon kB (State.endAccess s n a) := by
  unfold State.endAccess
  repeat' first | (with_reducible assumption) | (with_reducible apply State.deliver_canon) | (with_reducible apply State.reportLost_canon) | (with_reducible apply canon_foldl) | (simp only [canon_mk]) | (with_reducible apply canon7) | split | (intro _) | (dsimp only)
theorem State.endAccesses_canon {s : State} (hC : Canon kB s) : Canon kB (State.endAccesses s) := by
  unfold State.endAccesses
  repeat' first | (with_reducible assumption) | (with_reducible apply State.endAccess_canon) | (with_reducible apply canon_foldl) | (simp only [canon_mk]) | (with_reducible apply canon7) | split | (intro _) | (dsimp only)
theorem State.loseClaim_canon {s : State} {c} (hC : Canon kB s) : Canon kB (State.loseClaim s c) := by
  unfold State.loseClaim
  repeat' first | (with_reducible assumption) | (with_reducible apply State.answerClaim_canon) | (with_reducible apply canon_foldl) | (simp only [canon_mk]) | (with_reducible apply canon7) | split | (intro _) | (dsimp only)
theorem State.bankCycle_canon {s : State} {block} (hC : Canon kB s) : Canon kB (State.bankCycle s block) := by
  unfold State.bankCycle
  repeat' first | (with_reducible assumption) | (with_reducible apply State.endAccesses_canon) | (with_reducible apply State.loseClaim_canon) | (with_reducible apply State.performClaim_canon) | (with_reducible apply State.violate_canon) | (with_reducible apply canon_foldl) | (simp only [canon_mk]) | (with_reducible apply canon7) | split | (intro _) | (dsimp only)
theorem State.beatTo_canon {s : State} {x k bs t} (hC : Canon kB s) : Canon kB (State.beatTo s x k bs t) := by
  unfold State.beatTo
  repeat' first | (with_reducible assumption) | (with_reducible apply State.addAccess_canon) | (with_reducible apply State.updSend_canon) | (with_reducible apply canon_foldl) | (simp only [canon_mk]) | (with_reducible apply canon7) | split | (intro _) | (dsimp only)
theorem State.beginLoad_canon {s : State} {c p m l} (hC : Canon kB s) : Canon kB (State.beginLoad s c p m l) := by
  unfold State.beginLoad
  repeat' first | (with_reducible assumption) | (with_reducible apply State.addAccess_canon) | (with_reducible apply State.setM_canon) | (with_reducible apply canon_foldl) | (simp only [canon_mk]) | (with_reducible apply canon7) | split | (intro _) | (dsimp only)
theorem State.startM_canon {s : State} {c p w} (hC : Canon kB s) : Canon kB (State.startM s c p w) := by
  unfold State.startM
  repeat' first | (with_reducible assumption) | (with_reducible apply State.addViolation_canon) | (with_reducible apply State.beginLoad_canon) | (with_reducible apply State.setM_canon) | (with_reducible apply canon_foldl) | (simp only [canon_mk]) | (with_reducible apply canon7) | split | (intro _) | (dsimp only)
theorem State.startV_canon {s : State} {c w} (hC : Canon kB s) : Canon kB (s.startV c w) := by
  unfold State.startV
  with_reducible apply State.setV_canon
  · exact hC
  · intro hm
    with_reducible apply Memory.wf_writeL
    exact vcell_local hC hm
theorem State.startS_canon {s : State} {c w} (hC : Canon kB s) : Canon kB (s.startS c w) := by
  unfold State.startS
  with_reducible apply State.setS_canon
  · exact hC
  · intro hm
    with_reducible apply Memory.wf_writeL
    exact scell_local hC hm
theorem State.begin_canon {s : State} {p id e t inputs} (hC : Canon kB s) : Canon kB (State.begin s p id e t inputs) := by
  unfold State.begin
  repeat' first | (with_reducible assumption) | (with_reducible apply State.reckTouch_canon) | (with_reducible apply State.setEngine_canon) | (with_reducible apply State.setStation_canon) | (with_reducible apply State.startM_canon) | (with_reducible apply State.startS_canon) | (with_reducible apply State.startV_canon) | (with_reducible apply canon_foldl) | (simp only [canon_mk]) | (with_reducible apply canon7) | (simp only [VCell.go_local, VCell.setLane_local, VCell.writeLanes_local, VCell.setA_local, VCell.setPred_local, VCell.flag_local, VCell.setStatus_local, VCell.writeSr_local, SCell.go_local, SCell.jump_local, SCell.setR_local]) | (with_reducible apply Memory.wf_writeL) | (with_reducible apply vcell_local) | (with_reducible apply scell_local) | (exact vReady_local hC (by assumption) (by assumption)) | (exact sReady_local hC (by assumption) (by assumption)) | (exact rfl) | split | (intro _) | (dsimp only)
theorem State.endRemote_canon {s : State} {e va txn data} (hC : Canon kB s) : Canon kB (State.endRemote s e va txn data) := by
  unfold State.endRemote
  repeat' first | (with_reducible assumption) | (with_reducible apply canon_foldl) | (simp only [canon_mk]) | (with_reducible apply canon7) | split | (intro _) | (dsimp only)
theorem State.dropWindows_canon {s : State} {n} (hC : Canon kB s) : Canon kB (State.dropWindows s n) := by
  unfold State.dropWindows
  repeat' first | (with_reducible assumption) | (with_reducible apply State.endRemote_canon) | (with_reducible apply State.programFault_canon) | (with_reducible apply State.setPort_canon) | (with_reducible apply canon_foldl) | (simp only [canon_mk]) | (with_reducible apply canon7) | split | (intro _) | (dsimp only)
theorem State.portDown_canon {s : State} {n} (hC : Canon kB s) : Canon kB (State.portDown s n) := by
  unfold State.portDown
  repeat' first | (with_reducible assumption) | (with_reducible apply State.dropWindows_canon) | (with_reducible apply State.updPort_canon) | (with_reducible apply canon_foldl) | (simp only [canon_mk]) | (with_reducible apply canon7) | split | (intro _) | (dsimp only)
theorem State.putFlit_canon {s : State} {n base} (hC : Canon kB s) : Canon kB (State.putFlit s n base) := by
  unfold State.putFlit
  repeat' first | (with_reducible assumption) | (with_reducible apply State.emitOut_canon) | (with_reducible apply State.setPort_canon) | (with_reducible apply canon_foldl) | (simp only [canon_mk]) | (with_reducible apply canon7) | split | (intro _) | (dsimp only)
theorem State.newFlit_canon {s : State} {n ty vc first last dest payload} (hC : Canon kB s) : Canon kB (State.newFlit s n ty vc first last dest payload) := by
  unfold State.newFlit
  repeat' first | (with_reducible assumption) | (with_reducible apply State.putFlit_canon) | (with_reducible apply State.setPort_canon) | (with_reducible apply canon_foldl) | (simp only [canon_mk]) | (with_reducible apply canon7) | split | (intro _) | (dsimp only)
theorem State.sendRate_canon {s : State} (hC : Canon kB s) : Canon kB (State.sendRate s) := by
  unfold State.sendRate
  repeat' first | (with_reducible assumption) | (with_reducible apply State.newFlit_canon) | (with_reducible apply canon_foldl) | (simp only [canon_mk]) | (with_reducible apply canon7) | split | (intro _) | (dsimp only)
theorem State.portsToDoze_canon {s : State} (hC : Canon kB s) : Canon kB (State.portsToDoze s) := by
  unfold State.portsToDoze
  repeat' first | (with_reducible assumption) | (with_reducible apply State.portDown_canon) | (with_reducible apply State.sendRate_canon) | (with_reducible apply State.updPort_canon) | (with_reducible apply canon_foldl) | (simp only [canon_mk]) | (with_reducible apply canon7) | split | (intro _) | (dsimp only)
theorem State.flushHeld_canon {s : State} {p n} (hC : Canon kB s) : Canon kB (s.flushHeld p n) := by
  induction n generalizing s with
  | zero => exact hC
  | succ n ih =>
    unfold State.flushHeld
    repeat' first | (with_reducible assumption) | (with_reducible apply State.writeRing_canon) | (with_reducible apply ih) | (simp only [canon_mk]) | (with_reducible apply canon7) | split | (dsimp only)
theorem State.deliverHeld_canon {s : State} {p} (hC : Canon kB s) : Canon kB (State.deliverHeld s p) := by
  unfold State.deliverHeld
  repeat' first | (with_reducible assumption) | (with_reducible apply State.flushHeld_canon) | (with_reducible apply canon_foldl) | (simp only [canon_mk]) | (with_reducible apply canon7) | split | (intro _) | (dsimp only)
theorem State.holdItems_canon {s : State} {p l} (hC : Canon kB s) : Canon kB (State.holdItems s p l) := by
  unfold State.holdItems
  repeat' first | (with_reducible assumption) | (with_reducible apply canon_foldl) | (simp only [canon_mk]) | (with_reducible apply canon7) | split | (intro _) | (dsimp only)
theorem State.signRoot_canon {s : State} (hC : Canon kB s) : Canon kB (State.signRoot s) := by
  unfold State.signRoot
  repeat' first | (with_reducible assumption) | (with_reducible apply State.deliverHeld_canon) | (with_reducible apply State.holdItems_canon) | (with_reducible apply canon_foldl) | (simp only [canon_mk]) | (with_reducible apply canon7) | split | (intro _) | (dsimp only)
theorem State.signAll_canon {s : State} (hC : Canon kB s) : Canon kB (State.signAll s) := by
  unfold State.signAll
  repeat' first | (with_reducible assumption) | (with_reducible apply State.signRoot_canon) | (with_reducible apply canon_foldl) | (simp only [canon_mk]) | (with_reducible apply canon7) | split | (intro _) | (dsimp only)
theorem State.enterDoze_canon {s : State} (hC : Canon kB s) : Canon kB (State.enterDoze s) := by
  unfold State.enterDoze
  repeat' first | (with_reducible assumption) | (with_reducible apply State.epochClose_canon) | (with_reducible apply State.portsToDoze_canon) | (with_reducible apply State.signAll_canon) | (with_reducible apply canon_foldl) | (simp only [canon_mk]) | (with_reducible apply canon7) | split | (intro _) | (dsimp only)
theorem State.beginDoze_canon {s : State} (hC : Canon kB s) : Canon kB (State.beginDoze s) := by
  unfold State.beginDoze
  repeat' first | (with_reducible assumption) | (with_reducible apply State.enterDoze_canon) | (with_reducible apply canon_foldl) | (simp only [canon_mk]) | (with_reducible apply canon7) | split | (intro _) | (dsimp only)
theorem State.loadCell_canon {s : State} {c im} (hC : Canon kB s) : Canon kB (State.loadCell s c im) := by
  unfold State.loadCell
  repeat' first | (with_reducible assumption) | (with_reducible apply State.setM_canon) | (with_reducible apply State.setS_canon) | (with_reducible apply State.setV_canon) | (with_reducible apply canon_foldl) | (simp only [canon_mk]) | (with_reducible apply canon7) | (simp only [VCell.go_local, VCell.setLane_local, VCell.writeLanes_local, VCell.setA_local, VCell.setPred_local, VCell.flag_local, VCell.setStatus_local, VCell.writeSr_local, SCell.go_local, SCell.jump_local, SCell.setR_local]) | (with_reducible apply Memory.wf_writeL) | (with_reducible apply vcell_local) | (with_reducible apply scell_local) | (exact vReady_local hC (by assumption) (by assumption)) | (exact sReady_local hC (by assumption) (by assumption)) | (exact rfl) | split | (intro _) | (dsimp only)
theorem State.bindLoad_canon {s : State} {c} (hC : Canon kB s) : Canon kB (State.bindLoad s c) := by
  unfold State.bindLoad
  repeat' first | (with_reducible assumption) | (with_reducible apply State.loadCell_canon) | (with_reducible apply State.setM_canon) | (with_reducible apply State.setS_canon) | (with_reducible apply State.setV_canon) | (with_reducible apply canon_foldl) | (simp only [canon_mk]) | (with_reducible apply canon7) | (simp only [VCell.go_local, VCell.setLane_local, VCell.writeLanes_local, VCell.setA_local, VCell.setPred_local, VCell.flag_local, VCell.setStatus_local, VCell.writeSr_local, SCell.go_local, SCell.jump_local, SCell.setR_local]) | (with_reducible apply Memory.wf_writeL) | (with_reducible apply vcell_local) | (with_reducible apply scell_local) | (exact vReady_local hC (by assumption) (by assumption)) | (exact sReady_local hC (by assumption) (by assumption)) | (exact rfl) | split | (intro _) | (dsimp only)
theorem State.setDisp_canon {s : State} {b d} (hC : Canon kB s) : Canon kB (State.setDisp s b d) := by
  unfold State.setDisp
  repeat' first | (with_reducible assumption) | (with_reducible apply canon_foldl) | (simp only [canon_mk]) | (with_reducible apply canon7) | split | (intro _) | (dsimp only)
theorem State.takePlaces_canon {s : State} {p b places used} (hC : Canon kB s) : Canon kB (State.takePlaces s p b places used) := by
  unfold State.takePlaces
  repeat' first | (with_reducible assumption) | (with_reducible apply State.setDisp_canon) | (with_reducible apply State.setQueue_canon) | (with_reducible apply canon_foldl) | (simp only [canon_mk]) | (with_reducible apply canon7) | split | (intro _) | (dsimp only)
theorem State.setComb_canon {s : State} {e c} (hC : Canon kB s) : Canon kB (State.setComb s e c) := by
  unfold State.setComb
  repeat' first | (with_reducible assumption) | (with_reducible apply canon_foldl) | (simp only [canon_mk]) | (with_reducible apply canon7) | split | (intro _) | (dsimp only)
theorem State.bindNow_canon {s : State} {p id t b es im rings} (hC : Canon kB s) : Canon kB (State.bindNow s p id t b es im rings).1 := by
  unfold State.bindNow
  repeat' first | (with_reducible assumption) | (with_reducible apply State.loadCell_canon) | (with_reducible apply State.setComb_canon) | (with_reducible apply State.setDisp_canon) | (with_reducible apply State.setEngine_canon) | (with_reducible apply State.setStation_canon) | (with_reducible apply State.takePlaces_canon) | (with_reducible apply canon_foldl) | (simp only [canon_mk]) | (with_reducible apply canon7) | (simp only [VCell.go_local, VCell.setLane_local, VCell.writeLanes_local, VCell.setA_local, VCell.setPred_local, VCell.flag_local, VCell.setStatus_local, VCell.writeSr_local, SCell.go_local, SCell.jump_local, SCell.setR_local]) | (with_reducible apply Memory.wf_writeL) | (with_reducible apply vcell_local) | (with_reducible apply scell_local) | (exact vReady_local hC (by assumption) (by assumption)) | (exact sReady_local hC (by assumption) (by assumption)) | (exact rfl) | split | (intro _) | (dsimp only)
theorem State.bindPower_canon {s : State} {p b} (hC : Canon kB s) : Canon kB (State.bindPower s p b) := by
  unfold State.bindPower
  repeat' first | (with_reducible assumption) | (with_reducible apply canon_foldl) | (simp only [canon_mk]) | (with_reducible apply canon7) | split | (intro _) | (dsimp only)
theorem State.noteAdvance_canon {s : State} {domain n} (hC : Canon kB s) : Canon kB (State.noteAdvance s domain n) := by
  unfold State.noteAdvance
  repeat' first | (with_reducible assumption) | (with_reducible apply canon_foldl) | (simp only [canon_mk]) | (with_reducible apply canon7) | split | (intro _) | (dsimp only)
theorem State.setCrier_canon {s : State} {r c} (hC : Canon kB s) : Canon kB (State.setCrier s r c) := by
  unfold State.setCrier
  repeat' first | (with_reducible assumption) | (with_reducible apply canon_foldl) | (simp only [canon_mk]) | (with_reducible apply canon7) | split | (intro _) | (dsimp only)
theorem State.stopSend_canon {s : State} {n k} (hC : Canon kB s) : Canon kB (State.stopSend s n k) := by
  unfold State.stopSend
  repeat' first | (with_reducible assumption) | (with_reducible apply State.setCrier_canon) | (with_reducible apply State.updSend_canon) | (with_reducible apply canon_foldl) | (simp only [canon_mk]) | (with_reducible apply canon7) | split | (intro _) | (dsimp only)
theorem State.stopSends_canon {s : State} {b} (hC : Canon kB s) : Canon kB (State.stopSends s b) := by
  unfold State.stopSends
  repeat' first | (with_reducible assumption) | (with_reducible apply State.stopSend_canon) | (with_reducible apply canon_foldl) | (simp only [canon_mk]) | (with_reducible apply canon7) | split | (intro _) | (dsimp only)
theorem State.blockReset_canon {s : State} {b} (hC : Canon kB s) : Canon kB (State.blockReset s b) := by
  unfold State.blockReset
  repeat' first | (with_reducible assumption) | (with_reducible apply State.noteAdvance_canon) | (with_reducible apply State.setBlock_canon) | (with_reducible apply State.setDisp_canon) | (with_reducible apply State.stopSends_canon) | (with_reducible apply State.updPart_canon) | (with_reducible apply canon_foldl) | (simp only [canon_mk]) | (with_reducible apply canon7) | split | (intro _) | (dsimp only)
theorem State.copyOne_canon {s : State} {r} (hC : Canon kB s) : Canon kB (State.copyOne s r) := by
  unfold State.copyOne
  repeat' first | (with_reducible assumption) | (with_reducible apply State.post_canon) | (with_reducible apply canon_foldl) | (simp only [canon_mk]) | (with_reducible apply canon7) | split | (intro _) | (dsimp only)
theorem State.passed_canon {s : State} {send r} (hC : Canon kB s) : Canon kB (State.passed s send r) := by
  unfold State.passed
  repeat' first | (with_reducible assumption) | (with_reducible apply canon_foldl) | (simp only [canon_mk]) | (with_reducible apply canon7) | split | (intro _) | (dsimp only)
theorem State.crierCycle_canon {s : State} {r} (hC : Canon kB s) : Canon kB (State.crierCycle s r) := by
  unfold State.crierCycle
  repeat' first | (with_reducible assumption) | (with_reducible apply State.beatTo_canon) | (with_reducible apply State.passed_canon) | (with_reducible apply State.setCrier_canon) | (with_reducible apply State.updSend_canon) | (with_reducible apply canon_foldl) | (simp only [canon_mk]) | (with_reducible apply canon7) | split | (intro _) | (dsimp only)
theorem State.takeStage_canon {s : State} {x} (hC : Canon kB s) : Canon kB (State.takeStage s x).2 := by
  unfold State.takeStage
  repeat' first | (with_reducible assumption) | (with_reducible apply State.addAccess_canon) | (with_reducible apply State.updSend_canon) | (with_reducible apply canon_foldl) | (simp only [canon_mk]) | (with_reducible apply canon7) | split | (intro _) | (dsimp only)
theorem State.rootCycle_canon {s : State} (hC : Canon kB s) : Canon kB (State.rootCycle s) := by
  unfold State.rootCycle
  repeat' first | (with_reducible assumption) | (with_reducible apply State.setCrier_canon) | (with_reducible apply State.takeStage_canon) | (with_reducible apply canon_foldl) | (simp only [canon_mk]) | (with_reducible apply canon7) | (refine canon_fst (by assumption) ?_) | (refine canon_snd (by assumption) ?_) | split | (intro _) | (dsimp only)
theorem State.busCycle_canon {s : State} (hC : Canon kB s) : Canon kB (State.busCycle s) := by
  unfold State.busCycle
  repeat' first | (with_reducible assumption) | (with_reducible apply State.copyOne_canon) | (with_reducible apply State.crierCycle_canon) | (with_reducible apply State.rootCycle_canon) | (with_reducible apply canon_foldl) | (simp only [canon_mk]) | (with_reducible apply canon7) | split | (intro _) | (dsimp only)
theorem State.copyDesc_canon {s : State} {q n} (hC : Canon kB s) : Canon kB (State.copyDesc s q n) := by
  unfold State.copyDesc
  repeat' first | (with_reducible assumption) | (with_reducible apply canon_foldl) | (simp only [canon_mk]) | (with_reducible apply canon7) | split | (intro _) | (dsimp only)
theorem State.cacheDesc_canon {s : State} {q} (hC : Canon kB s) : Canon kB (State.cacheDesc s q) := by
  unfold State.cacheDesc
  repeat' first | (with_reducible assumption) | (with_reducible apply State.copyDesc_canon) | (with_reducible apply canon_foldl) | (simp only [canon_mk]) | (with_reducible apply canon7) | split | (intro _) | (dsimp only)
theorem State.caravanDrained_canon {s : State} {k} (hC : Canon kB s) : Canon kB (State.caravanDrained s k) := by
  unfold State.caravanDrained
  repeat' first | (with_reducible assumption) | (with_reducible apply State.answerCmd_canon) | (with_reducible apply canon_foldl) | (simp only [canon_mk]) | (with_reducible apply canon7) | split | (intro _) | (dsimp only)
theorem State.carveWrite_canon {s : State} {x off data n} (hC : Canon kB s) : Canon kB (s.carveWrite x off data n) := by
  induction n generalizing s off data with
  | zero => exact hC
  | succ n ih =>
    unfold State.carveWrite
    repeat' first | (with_reducible assumption) | (with_reducible apply State.dramWriteLine_canon) | (with_reducible apply ih) | split | (dsimp only)
theorem State.carvePut_canon {s : State} {x off data} (hC : Canon kB s) : Canon kB (State.carvePut s x off data) := by
  unfold State.carvePut
  repeat' first | (with_reducible assumption) | (with_reducible apply State.carveWrite_canon) | (with_reducible apply canon_foldl) | (simp only [canon_mk]) | (with_reducible apply canon7) | split | (intro _) | (dsimp only)
theorem State.setIsland_canon {s : State} {b x} (hC : Canon kB s) : Canon kB (State.setIsland s b x) := by
  unfold State.setIsland
  repeat' first | (with_reducible assumption) | (with_reducible apply canon_foldl) | (simp only [canon_mk]) | (with_reducible apply canon7) | split | (intro _) | (dsimp only)
theorem State.devFault_canon {s : State} {cause unit} (hC : Canon kB s) : Canon kB (State.devFault s cause unit) := by
  unfold State.devFault
  repeat' first | (with_reducible assumption) | (with_reducible apply canon_foldl) | (simp only [canon_mk]) | (with_reducible apply canon7) | split | (intro _) | (dsimp only)
theorem State.setMargin_canon {s : State} {b m khz} (hC : Canon kB s) : Canon kB (State.setMargin s b m khz) := by
  unfold State.setMargin
  repeat' first | (with_reducible assumption) | (with_reducible apply State.opEvent_canon) | (with_reducible apply State.setIsland_canon) | (with_reducible apply State.updBlock_canon) | (with_reducible apply canon_foldl) | (simp only [canon_mk]) | (with_reducible apply canon7) | split | (intro _) | (dsimp only)
theorem State.returnStart_canon {s : State} {e} (hC : Canon kB s) : Canon kB (State.returnStart s e) := by
  unfold State.returnStart
  repeat' first | (with_reducible assumption) | (with_reducible apply State.leaveIfAsked_canon) | (with_reducible apply State.setEngine_canon) | (with_reducible apply State.setStation_canon) | (with_reducible apply canon_foldl) | (simp only [canon_mk]) | (with_reducible apply canon7) | (simp only [VCell.go_local, VCell.setLane_local, VCell.writeLanes_local, VCell.setA_local, VCell.setPred_local, VCell.flag_local, VCell.setStatus_local, VCell.writeSr_local, SCell.go_local, SCell.jump_local, SCell.setR_local]) | (with_reducible apply Memory.wf_writeL) | (with_reducible apply vcell_local) | (with_reducible apply scell_local) | (exact vReady_local hC (by assumption) (by assumption)) | (exact sReady_local hC (by assumption) (by assumption)) | (exact rfl) | split | (intro _) | (dsimp only)
theorem State.dropReplies_canon {s : State} {f} (hC : Canon kB s) : Canon kB (State.dropReplies s f) := by
  unfold State.dropReplies
  repeat' first | (with_reducible assumption) | (with_reducible apply canon_foldl) | (simp only [canon_mk]) | (with_reducible apply canon7) | split | (intro _) | (dsimp only)
theorem State.dropRequester_canon {s : State} {w} (hC : Canon kB s) : Canon kB (State.dropRequester s w) := by
  unfold State.dropRequester
  repeat' first | (with_reducible assumption) | (with_reducible apply canon_foldl) | (simp only [canon_mk]) | (with_reducible apply canon7) | split | (intro _) | (dsimp only)
theorem State.startSteward_canon {s : State} {c r} (hC : Canon kB s) : Canon kB (s.startSteward c r) := by
  unfold State.startSteward
  exact State.setS_canon hC (scell_local hC)
theorem State.reloadCell_canon {s : State} {c} (hC : Canon kB s) : Canon kB (State.reloadCell s c) := by
  unfold State.reloadCell
  repeat' first | (with_reducible assumption) | (with_reducible apply State.bindLoad_canon) | (with_reducible apply State.startSteward_canon) | (with_reducible apply canon_foldl) | (simp only [canon_mk]) | (with_reducible apply canon7) | split | (intro _) | (dsimp only)
theorem State.resetCell_canon {s : State} {c} (hC : Canon kB s) : Canon kB (State.resetCell s c) := by
  unfold State.resetCell
  repeat' first | (with_reducible assumption) | (with_reducible apply State.dropReplies_canon) | (with_reducible apply State.dropRequester_canon) | (with_reducible apply State.noteAdvance_canon) | (with_reducible apply State.reloadCell_canon) | (with_reducible apply canon_foldl) | (simp only [canon_mk]) | (with_reducible apply canon7) | split | (intro _) | (dsimp only)
theorem State.retireCell_canon {s : State} {c cause} (hC : Canon kB s) : Canon kB (State.retireCell s c cause) := by
  unfold State.retireCell
  repeat' first | (with_reducible assumption) | (with_reducible apply State.devFault_canon) | (with_reducible apply State.logFault_canon) | (with_reducible apply State.opEvent_canon) | (with_reducible apply State.resetCell_canon) | (with_reducible apply State.returnStart_canon) | (with_reducible apply State.setBlock_canon) | (with_reducible apply canon_foldl) | (simp only [canon_mk]) | (with_reducible apply canon7) | split | (intro _) | (dsimp only)
theorem State.characterised_canon {s : State} {b m khz} (hC : Canon kB s) : Canon kB (State.characterised s b m khz) := by
  unfold State.characterised
  repeat' first | (with_reducible assumption) | (with_reducible apply State.devFault_canon) | (with_reducible apply State.retireCell_canon) | (with_reducible apply State.setIsland_canon) | (with_reducible apply State.setMargin_canon) | (with_reducible apply canon_foldl) | (simp only [canon_mk]) | (with_reducible apply canon7) | split | (intro _) | (dsimp only)
theorem State.updLeaves_canon {s : State} {f g} (hC : Canon kB s) : Canon kB (State.updLeaves s f g) := by
  unfold State.updLeaves
  repeat' first | (with_reducible assumption) | (with_reducible apply canon_foldl) | (simp only [canon_mk]) | (with_reducible apply canon7) | split | (intro _) | (dsimp only)
theorem State.charge_canon {s : State} {c} (hC : Canon kB s) : Canon kB (State.charge s c) := by
  unfold State.charge
  repeat' first | (with_reducible assumption) | (with_reducible apply State.addAccount_canon) | (with_reducible apply State.reckOpenAt_canon) | (with_reducible apply State.updLeaves_canon) | (with_reducible apply canon_foldl) | (simp only [canon_mk]) | (with_reducible apply canon7) | split | (intro _) | (dsimp only)
theorem State.chargeRow_canon {s : State} {p req cat uj} (hC : Canon kB s) : Canon kB (State.chargeRow s p req cat uj) := by
  unfold State.chargeRow
  repeat' first | (with_reducible assumption) | (with_reducible apply State.addAccount_canon) | (with_reducible apply State.updLeaves_canon) | (with_reducible apply canon_foldl) | (simp only [canon_mk]) | (with_reducible apply canon7) | split | (intro _) | (dsimp only)
theorem State.checkMsg_canon {s : State} {m h} (hC : Canon kB s) : Canon kB (State.checkMsg s m h) := by
  unfold State.checkMsg
  repeat' first | (with_reducible assumption) | (with_reducible apply State.answerMsg_canon) | (with_reducible apply canon_foldl) | (simp only [canon_mk]) | (with_reducible apply canon7) | split | (intro _) | (dsimp only)
theorem State.refuseFrame_canon {s : State} {m c} (hC : Canon kB s) : Canon kB (State.refuseFrame s m c) := by
  unfold State.refuseFrame
  repeat' first | (with_reducible assumption) | (with_reducible apply State.answerMsg_canon) | (with_reducible apply State.logFault_canon) | (with_reducible apply canon_foldl) | (simp only [canon_mk]) | (with_reducible apply canon7) | split | (intro _) | (dsimp only)
theorem State.endSession_canon {s : State} {n} (hC : Canon kB s) : Canon kB (State.endSession s n) := by
  unfold State.endSession
  repeat' first | (with_reducible assumption) | (with_reducible apply canon_foldl) | (simp only [canon_mk]) | (with_reducible apply canon7) | split | (intro _) | (dsimp only)
theorem State.setSession_canon {s : State} {n x} (hC : Canon kB s) : Canon kB (State.setSession s n x) := by
  unfold State.setSession
  repeat' first | (with_reducible assumption) | (with_reducible apply canon_foldl) | (simp only [canon_mk]) | (with_reducible apply canon7) | split | (intro _) | (dsimp only)
theorem State.checkFrame_canon {s : State} {h tagOk} (hC : Canon kB s) : Canon kB (State.checkFrame s h tagOk) := by
  unfold State.checkFrame
  repeat' first | (with_reducible assumption) | (with_reducible apply State.checkMsg_canon) | (with_reducible apply State.endSession_canon) | (with_reducible apply State.refuseFrame_canon) | (with_reducible apply State.setSession_canon) | (with_reducible apply canon_foldl) | (simp only [canon_mk]) | (with_reducible apply canon7) | (simp only [VCell.go_local, VCell.setLane_local, VCell.writeLanes_local, VCell.setA_local, VCell.setPred_local, VCell.flag_local, VCell.setStatus_local, VCell.writeSr_local, SCell.go_local, SCell.jump_local, SCell.setR_local]) | (with_reducible apply Memory.wf_writeL) | (with_reducible apply vcell_local) | (with_reducible apply scell_local) | (exact vReady_local hC (by assumption) (by assumption)) | (exact sReady_local hC (by assumption) (by assumption)) | (exact rfl) | split | (intro _) | (dsimp only)
theorem State.checkGuarantee_canon {s : State} {k m} (hC : Canon kB s) : Canon kB (State.checkGuarantee s k m) := by
  unfold State.checkGuarantee
  repeat' first | (with_reducible assumption) | (with_reducible apply State.event_canon) | (with_reducible apply State.opEvent_canon) | (with_reducible apply canon_foldl) | (simp only [canon_mk]) | (with_reducible apply canon7) | split | (intro _) | (dsimp only)
theorem State.clearRuns_canon {s : State} {runs} (hC : Canon kB s) : Canon kB (s.clearRuns runs) := by
  unfold State.clearRuns
  exact { hC with dr := fun hm => (Memory.wf_filter (hC.dr hm) _).1 }
theorem State.closeWindow_canon {s : State} (hC : Canon kB s) : Canon kB (State.closeWindow s) := by
  unfold State.closeWindow
  repeat' first | (with_reducible assumption) | (with_reducible apply State.addAccount_canon) | (with_reducible apply canon_foldl) | (simp only [canon_mk]) | (with_reducible apply canon7) | split | (intro _) | (dsimp only)
theorem State.loadWear_canon {s : State} (hC : Canon kB s) : Canon kB s.loadWear := by
  unfold State.loadWear
  split
  · exact State.opEvent_canon hC
  · dsimp only
    refine canon_foldl ?_ fun _ _ h => by split; exact State.updBlock_canon h; exact h
    exact { hC with hours := hC.hours.imp id fun h => Nat.le_trans h (Nat.le_max_left _ _) }
theorem State.coldPlans_canon {s : State} {l} (hC : Canon kB s) : Canon kB (State.coldPlans s l) := by
  unfold State.coldPlans
  repeat' first | (with_reducible assumption) | (with_reducible apply State.characterised_canon) | (with_reducible apply State.loadWear_canon) | (with_reducible apply canon_foldl) | (simp only [canon_mk]) | (with_reducible apply canon7) | split | (intro _) | (dsimp only)
theorem State.startWalk_canon {s : State} {b slot x st va prefetch} (hC : Canon kB s) : Canon kB (State.startWalk s b slot x st va prefetch) := by
  unfold State.startWalk
  repeat' first | (with_reducible assumption) | (with_reducible apply State.setBtu_canon) | (with_reducible apply canon_foldl) | (simp only [canon_mk]) | (with_reducible apply canon7) | split | (intro _) | (dsimp only)
theorem State.engMiss_canon {s : State} {g va write} (hC : Canon kB s) : Canon kB (State.engMiss s g va write) := by
  unfold State.engMiss
  repeat' first | (with_reducible assumption) | (with_reducible apply State.startWalk_canon) | (with_reducible apply canon_foldl) | (simp only [canon_mk]) | (with_reducible apply canon7) | split | (intro _) | (dsimp only)
theorem State.engStop_canon {s : State} {g y2} (hC : Canon kB s) : Canon kB (State.engStop s g y2) := by
  unfold State.engStop
  repeat' first | (with_reducible assumption) | (with_reducible apply State.askWindow_canon) | (with_reducible apply State.engMiss_canon) | (with_reducible apply State.programFault_canon) | (with_reducible apply State.xlateFault_canon) | (with_reducible apply canon_foldl) | (simp only [canon_mk]) | (with_reducible apply canon7) | split | (intro _) | (dsimp only)
theorem State.delColl_canon {s : State} {n} (hC : Canon kB s) : Canon kB (State.delColl s n) := by
  unfold State.delColl
  repeat' first | (with_reducible assumption) | (with_reducible apply canon_foldl) | (simp only [canon_mk]) | (with_reducible apply canon7) | split | (intro _) | (dsimp only)
theorem State.collStop_canon {s : State} {n g z} (hC : Canon kB s) : Canon kB (State.collStop s n g z) := by
  unfold State.collStop
  repeat' first | (with_reducible assumption) | (with_reducible apply State.delColl_canon) | (with_reducible apply State.engStop_canon) | (with_reducible apply canon_foldl) | (simp only [canon_mk]) | (with_reducible apply canon7) | split | (intro _) | (dsimp only)
theorem State.rejectEvent_canon {s : State} {p station q w c rejectQ} (hC : Canon kB s) : Canon kB (State.rejectEvent s p station q w c rejectQ) := by
  unfold State.rejectEvent
  repeat' first | (with_reducible assumption) | (with_reducible apply State.event_canon) | (with_reducible apply canon_foldl) | (simp only [canon_mk]) | (with_reducible apply canon7) | split | (intro _) | (dsimp only)
theorem State.reject_canon {s : State} {p station t q w c rank} (hC : Canon kB s) : Canon kB (State.reject s p station t q w c rank) := by
  unfold State.reject
  repeat' first | (with_reducible assumption) | (with_reducible apply State.launch_canon) | (with_reducible apply State.rejectEvent_canon) | (with_reducible apply canon_foldl) | (simp only [canon_mk]) | (with_reducible apply canon7) | split | (intro _) | (dsimp only)
theorem State.combProcess_canon {s : State} {e x t c b w} (hC : Canon kB s) : Canon kB (State.combProcess s e x t c b w) := by
  unfold State.combProcess
  repeat' first | (with_reducible assumption) | (with_reducible apply State.addResult_canon) | (with_reducible apply State.fenceAction_canon) | (with_reducible apply State.freezeEngine_canon) | (with_reducible apply State.reject_canon) | (with_reducible apply State.setComb_canon) | (with_reducible apply canon_foldl) | (simp only [canon_mk]) | (with_reducible apply canon7) | split | (intro _) | (dsimp only)
theorem State.combReport_canon {s : State} {e input w} (hC : Canon kB s) : Canon kB (State.combReport s e input w) := by
  unfold State.combReport
  repeat' first | (with_reducible assumption) | (with_reducible apply State.setComb_canon) | (with_reducible apply canon_foldl) | (simp only [canon_mk]) | (with_reducible apply canon7) | split | (intro _) | (dsimp only)
theorem State.setSweep_canon {s : State} {p ch f} (hC : Canon kB s) : Canon kB (State.setSweep s p ch f) := by
  unfold State.setSweep
  repeat' first | (with_reducible assumption) | (with_reducible apply canon_foldl) | (simp only [canon_mk]) | (with_reducible apply canon7) | split | (intro _) | (dsimp only)
theorem State.wipeLine_canon {s : State} {line} (hC : Canon kB s) : Canon kB (s.wipeLine line) := by
  unfold State.wipeLine
  exact State.setCtrl_canon { hC with dr := fun hm => (Memory.wf_filter (hC.dr hm) _).1 }
theorem State.complete_canon {s : State} {ch r} (hC : Canon kB s) : Canon kB (State.complete s ch r) := by
  unfold State.complete
  repeat' first | (with_reducible assumption) | (with_reducible apply State.putLine_canon) | (with_reducible apply State.setSweep_canon) | (with_reducible apply State.wipeLine_canon) | (with_reducible apply State.writeDone_canon) | (with_reducible apply canon_foldl) | (simp only [canon_mk]) | (with_reducible apply canon7) | (simp only [VCell.go_local, VCell.setLane_local, VCell.writeLanes_local, VCell.setA_local, VCell.setPred_local, VCell.flag_local, VCell.setStatus_local, VCell.writeSr_local, SCell.go_local, SCell.jump_local, SCell.setR_local]) | (with_reducible apply Memory.wf_writeL) | (with_reducible apply vcell_local) | (with_reducible apply scell_local) | (exact vReady_local hC (by assumption) (by assumption)) | (exact sReady_local hC (by assumption) (by assumption)) | (exact rfl) | split | (intro _) | (dsimp only)
theorem State.violationFlit_canon {s : State} {n c seq} (hC : Canon kB s) : Canon kB (State.violationFlit s n c seq) := by
  unfold State.violationFlit
  repeat' first | (with_reducible assumption) | (with_reducible apply State.updPort_canon) | (with_reducible apply canon_foldl) | (simp only [canon_mk]) | (with_reducible apply canon7) | split | (intro _) | (dsimp only)
theorem State.linkEvent_canon {s : State} {code port info} (hC : Canon kB s) : Canon kB (State.linkEvent s code port info) := by
  unfold State.linkEvent
  repeat' first | (with_reducible assumption) | (with_reducible apply State.emitOut_canon) | (with_reducible apply State.opEvent_canon) | (with_reducible apply canon_foldl) | (simp only [canon_mk]) | (with_reducible apply canon7) | split | (intro _) | (dsimp only)
theorem State.noteViolation_canon {s : State} {n c seq src} (hC : Canon kB s) : Canon kB (State.noteViolation s n c seq src) := by
  unfold State.noteViolation
  repeat' first | (with_reducible assumption) | (with_reducible apply State.linkEvent_canon) | (with_reducible apply State.logFault_canon) | (with_reducible apply State.updPort_canon) | (with_reducible apply canon_foldl) | (simp only [canon_mk]) | (with_reducible apply canon7) | split | (intro _) | (dsimp only)
theorem State.flitViolation_canon {s : State} {n c seq src} (hC : Canon kB s) : Canon kB (State.flitViolation s n c seq src) := by
  unfold State.flitViolation
  repeat' first | (with_reducible assumption) | (with_reducible apply State.noteViolation_canon) | (with_reducible apply State.violationFlit_canon) | (with_reducible apply canon_foldl) | (simp only [canon_mk]) | (with_reducible apply canon7) | split | (intro _) | (dsimp only)
theorem State.msgEnd_canon {s : State} {n m dest seq} (hC : Canon kB s) : Canon kB (State.msgEnd s n m dest seq) := by
  unfold State.msgEnd
  repeat' first | (with_reducible assumption) | (with_reducible apply State.noteViolation_canon) | (with_reducible apply State.respond_canon) | (with_reducible apply State.updPort_canon) | (with_reducible apply State.violationFlit_canon) | (with_reducible apply canon_foldl) | (simp only [canon_mk]) | (with_reducible apply canon7) | split | (intro _) | (dsimp only)
theorem State.dataFlit_canon {s : State} {n f} (hC : Canon kB s) : Canon kB (State.dataFlit s n f) := by
  unfold State.dataFlit
  repeat' first | (with_reducible assumption) | (with_reducible apply State.flitViolation_canon) | (with_reducible apply State.msgEnd_canon) | (with_reducible apply State.setPort_canon) | (with_reducible apply State.updPort_canon) | (with_reducible apply canon_foldl) | (simp only [canon_mk]) | (with_reducible apply canon7) | split | (intro _) | (dsimp only)
theorem State.delLease_canon {s : State} {k} (hC : Canon kB s) : Canon kB (State.delLease s k) := by
  unfold State.delLease
  repeat' first | (with_reducible assumption) | (with_reducible apply canon_foldl) | (simp only [canon_mk]) | (with_reducible apply canon7) | split | (intro _) | (dsimp only)
theorem State.dropTxns_canon {s : State} {e} (hC : Canon kB s) : Canon kB (State.dropTxns s e) := by
  unfold State.dropTxns
  repeat' first | (with_reducible assumption) | (with_reducible apply canon_foldl) | (simp only [canon_mk]) | (with_reducible apply canon7) | split | (intro _) | (dsimp only)
theorem State.dropStreams_canon {s : State} {f} (hC : Canon kB s) : Canon kB (State.dropStreams s f) := by
  unfold State.dropStreams
  repeat' first | (with_reducible assumption) | (with_reducible apply State.caravanDrained_canon) | (with_reducible apply canon_foldl) | (simp only [canon_mk]) | (with_reducible apply canon7) | split | (intro _) | (dsimp only)
theorem State.resetUnit_canon {s : State} {e} (hC : Canon kB s) : Canon kB (State.resetUnit s e) := by
  unfold State.resetUnit
  repeat' first | (with_reducible assumption) | (with_reducible apply State.dropRequester_canon) | (with_reducible apply State.dropStreams_canon) | (with_reducible apply State.dropTxns_canon) | (with_reducible apply canon_foldl) | (simp only [canon_mk]) | (with_reducible apply canon7) | split | (intro _) | (dsimp only)
theorem State.resetEngine_canon {s : State} {e} (hC : Canon kB s) : Canon kB (State.resetEngine s e) := by
  unfold State.resetEngine
  repeat' first | (with_reducible assumption) | (with_reducible apply State.resetCell_canon) | (with_reducible apply State.resetUnit_canon) | (with_reducible apply canon_foldl) | (simp only [canon_mk]) | (with_reducible apply canon7) | split | (intro _) | (dsimp only)
theorem State.reckCloseAll_canon {s : State} {p f flags} (hC : Canon kB s) : Canon kB (State.reckCloseAll s p f flags) := by
  unfold State.reckCloseAll
  repeat' first | (with_reducible assumption) | (with_reducible apply State.reckClose_canon) | (with_reducible apply canon_foldl) | (simp only [canon_mk]) | (with_reducible apply canon7) | (refine canon_fst (by assumption) ?_) | split | (intro _) | (dsimp only)
theorem State.releaseObjects_canon {s : State} {p c keepReck} (hC : Canon kB s) : Canon kB (State.releaseObjects s p c keepReck) := by
  unfold State.releaseObjects
  repeat' first | (with_reducible assumption) | (with_reducible apply canon_foldl) | (simp only [canon_mk]) | (with_reducible apply canon7) | split | (intro _) | (dsimp only)
theorem State.setSteward_canon {s : State} {c t} (hC : Canon kB s) : Canon kB (State.setSteward s c t) := by
  unfold State.setSteward
  repeat' first | (with_reducible assumption) | (with_reducible apply canon_foldl) | (simp only [canon_mk]) | (with_reducible apply canon7) | split | (intro _) | (dsimp only)
theorem State.dismissStewards_canon {s : State} {p c} (hC : Canon kB s) : Canon kB (State.dismissStewards s p c) := by
  unfold State.dismissStewards
  repeat' first | (with_reducible assumption) | (with_reducible apply State.event_canon) | (with_reducible apply State.setSteward_canon) | (with_reducible apply canon_foldl) | (simp only [canon_mk]) | (with_reducible apply canon7) | (simp only [VCell.go_local, VCell.setLane_local, VCell.writeLanes_local, VCell.setA_local, VCell.setPred_local, VCell.flag_local, VCell.setStatus_local, VCell.writeSr_local, SCell.go_local, SCell.jump_local, SCell.setR_local]) | (with_reducible apply Memory.wf_writeL) | (with_reducible apply vcell_local) | (with_reducible apply scell_local) | (exact vReady_local hC (by assumption) (by assumption)) | (exact sReady_local hC (by assumption) (by assumption)) | (exact rfl) | split | (intro _) | (dsimp only)
theorem State.revokeContext_canon {s : State} {p c ring keepReck} (hC : Canon kB s) : Canon kB (State.revokeContext s p c ring keepReck) := by
  unfold State.revokeContext
  repeat' first | (with_reducible assumption) | (with_reducible apply State.abandonFences_canon) | (with_reducible apply State.abandonSessions_canon) | (with_reducible apply State.dismissStewards_canon) | (with_reducible apply State.reckCloseAll_canon) | (with_reducible apply State.releaseObjects_canon) | (with_reducible apply canon_foldl) | (simp only [canon_mk]) | (with_reducible apply canon7) | split | (intro _) | (dsimp only)
theorem State.dropXlate_canon {s : State} {p} (hC : Canon kB s) : Canon kB (State.dropXlate s p) := by
  unfold State.dropXlate
  repeat' first | (with_reducible assumption) | (with_reducible apply canon_foldl) | (simp only [canon_mk]) | (with_reducible apply canon7) | split | (intro _) | (dsimp only)
theorem State.endSweep_canon {s : State} {p} (hC : Canon kB s) : Canon kB (State.endSweep s p) := by
  unfold State.endSweep
  repeat' first | (with_reducible assumption) | (with_reducible apply canon_foldl) | (simp only [canon_mk]) | (with_reducible apply canon7) | split | (intro _) | (dsimp only)
theorem State.endCarveOut_canon {s : State} {p} (hC : Canon kB s) : Canon kB (State.endCarveOut s p) := by
  unfold State.endCarveOut
  repeat' first | (with_reducible assumption) | (with_reducible apply State.endSweep_canon) | (with_reducible apply canon_foldl) | (simp only [canon_mk]) | (with_reducible apply canon7) | split | (intro _) | (dsimp only)
theorem State.destroyMigrated_canon {s : State} {p} (hC : Canon kB s) : Canon kB (State.destroyMigrated s p) := by
  unfold State.destroyMigrated
  repeat' first | (with_reducible assumption) | (with_reducible apply State.delEngine_canon) | (with_reducible apply State.dropXlate_canon) | (with_reducible apply State.endCarveOut_canon) | (with_reducible apply State.resetEngine_canon) | (with_reducible apply State.revokeContext_canon) | (with_reducible apply State.setDisp_canon) | (with_reducible apply State.updBlock_canon) | (with_reducible apply State.updPart_canon) | (with_reducible apply canon_foldl) | (simp only [canon_mk]) | (with_reducible apply canon7) | split | (intro _) | (dsimp only)
theorem State.reset_canon : Canon State.reset.base State.reset := canon_start _
theorem State.deviceReset_canon {s : State} (hC : Canon kB s) : Canon kB s.deviceReset :=
  ⟨hC.h, fun _ => rfl, fun _ => rfl, fun _ => rfl, hC.fl, fun _ => rfl, fun _ => rfl, hC.slot, hC.ord, hC.grown, hC.variantT, hC.serial, hC.pending, hC.calShared, hC.calLoss, hC.hours, hC.minSvn⟩
theorem State.writePlanObj_canon {s : State} {p h off l} (hC : Canon kB s) : Canon kB (State.writePlanObj s p h off l) := by
  unfold State.writePlanObj
  repeat' first | (with_reducible assumption) | (with_reducible apply State.writeObj_canon) | (with_reducible apply canon_foldl) | (simp only [canon_mk]) | (with_reducible apply canon7) | split | (intro _) | (dsimp only)
theorem State.writeTable_canon {s : State} {x y i v} (hC : Canon kB s) : Canon kB (State.writeTable s x y i v) := by
  unfold State.writeTable
  repeat' first | (with_reducible assumption) | (with_reducible apply State.writePlanObj_canon) | (with_reducible apply canon_foldl) | (simp only [canon_mk]) | (with_reducible apply canon7) | split | (intro _) | (dsimp only)
theorem State.freeSessPages_canon {s : State} {slot} (hC : Canon kB s) : Canon kB (State.freeSessPages s slot) := by
  unfold State.freeSessPages
  repeat' first | (with_reducible assumption) | (with_reducible apply State.setPlan_canon) | (with_reducible apply State.setSess_canon) | (with_reducible apply State.writeTable_canon) | (with_reducible apply canon_foldl) | (simp only [canon_mk]) | (with_reducible apply canon7) | (simp only [VCell.go_local, VCell.setLane_local, VCell.writeLanes_local, VCell.setA_local, VCell.setPred_local, VCell.flag_local, VCell.setStatus_local, VCell.writeSr_local, SCell.go_local, SCell.jump_local, SCell.setR_local]) | (with_reducible apply Memory.wf_writeL) | (with_reducible apply vcell_local) | (with_reducible apply scell_local) | (exact vReady_local hC (by assumption) (by assumption)) | (exact sReady_local hC (by assumption) (by assumption)) | (exact rfl) | split | (intro _) | (dsimp only)
theorem State.dropSession_canon {s : State} {slot} (hC : Canon kB s) : Canon kB (State.dropSession s slot) := by
  unfold State.dropSession
  repeat' first | (with_reducible assumption) | (with_reducible apply State.freeSessPages_canon) | (with_reducible apply State.mirrorSend_canon) | (with_reducible apply canon_foldl) | (simp only [canon_mk]) | (with_reducible apply canon7) | split | (intro _) | (dsimp only)
theorem State.discardRequest_canon {s : State} {k l} (hC : Canon kB s) : Canon kB (State.discardRequest s k l) := by
  unfold State.discardRequest
  repeat' first | (with_reducible assumption) | (with_reducible apply State.delLease_canon) | (with_reducible apply State.dropSession_canon) | (with_reducible apply State.freeSessPages_canon) | (with_reducible apply State.reckClose_canon) | (with_reducible apply State.voidRows_canon) | (with_reducible apply canon_foldl) | (simp only [canon_mk]) | (with_reducible apply canon7) | (refine canon_fst (by assumption) ?_) | split | (intro _) | (dsimp only)
theorem State.predForward_canon {s : State} {p id t input w} (hC : Canon kB s) : Canon kB (State.predForward s p id t input w) := by
  unfold State.predForward
  repeat' first | (with_reducible assumption) | (with_reducible apply State.consume_canon) | (with_reducible apply State.forward_canon) | (with_reducible apply canon_foldl) | (simp only [canon_mk]) | (with_reducible apply canon7) | split | (intro _) | (dsimp only)
theorem State.remove2_canon {s : State} {p id t b input w c} (hC : Canon kB s) : Canon kB (State.remove2 s p id t b input w c) := by
  unfold State.remove2
  repeat' first | (with_reducible assumption) | (with_reducible apply State.reject_canon) | (with_reducible apply State.setDisp_canon) | (with_reducible apply canon_foldl) | (simp only [canon_mk]) | (with_reducible apply canon7) | split | (intro _) | (dsimp only)
theorem State.dispatchOne_canon {s : State} {b p id input t w0 e} (hC : Canon kB s) : Canon kB (State.dispatchOne s b p id input t w0 e) := by
  unfold State.dispatchOne
  repeat' first | (with_reducible assumption) | (with_reducible apply State.begin_canon) | (with_reducible apply State.combReport_canon) | (with_reducible apply State.forwardRoute_canon) | (with_reducible apply State.predForward_canon) | (with_reducible apply State.remove2_canon) | (with_reducible apply State.setComb_canon) | (with_reducible apply canon_foldl) | (simp only [canon_mk]) | (with_reducible apply canon7) | split | (intro _) | (dsimp only)
theorem State.endRevoked_canon {s : State} {e x st} (hC : Canon kB s) : Canon kB (State.endRevoked s e x st) := by
  unfold State.endRevoked
  repeat' first | (with_reducible assumption) | (with_reducible apply State.setEngine_canon) | (with_reducible apply canon_foldl) | (simp only [canon_mk]) | (with_reducible apply canon7) | split | (intro _) | (dsimp only)
theorem State.writeBytes_canon {s : State} {w p bytes} (hC : Canon kB s) : Canon kB (State.writeBytes s w p bytes) := by
  unfold State.writeBytes
  repeat' first | (with_reducible assumption) | (with_reducible apply State.addAccess_canon) | (with_reducible apply canon_foldl) | (simp only [canon_mk]) | (with_reducible apply canon7) | split | (intro _) | (dsimp only)
theorem State.dispatchWrite_canon {s : State} {e x st r d pl} (hC : Canon kB s) : Canon kB (State.dispatchWrite s e x st r d pl) := by
  unfold State.dispatchWrite
  repeat' first | (with_reducible assumption) | (with_reducible apply State.endRevoked_canon) | (with_reducible apply State.freezeEngine_canon) | (with_reducible apply State.readLines_canon) | (with_reducible apply State.setEngine_canon) | (with_reducible apply State.writeBytes_canon) | (with_reducible apply canon_foldl) | (simp only [canon_mk]) | (with_reducible apply canon7) | split | (intro _) | (dsimp only)
theorem State.dispatchZip_canon {s : State} {b p id t ws e} (hC : Canon kB s) : Canon kB (State.dispatchZip s b p id t ws e) := by
  unfold State.dispatchZip
  repeat' first | (with_reducible assumption) | (with_reducible apply State.begin_canon) | (with_reducible apply State.consume_canon) | (with_reducible apply State.forwardRoute_canon) | (with_reducible apply State.predForward_canon) | (with_reducible apply State.remove2_canon) | (with_reducible apply canon_foldl) | (simp only [canon_mk]) | (with_reducible apply canon7) | split | (intro _) | (dsimp only)
theorem State.divideStep_canon {s : State} {key rows} (hC : Canon kB s) : Canon kB (State.divideStep s key rows) := by
  unfold State.divideStep
  repeat' first | (with_reducible assumption) | (with_reducible apply State.chargeRow_canon) | (with_reducible apply canon_foldl) | (simp only [canon_mk]) | (with_reducible apply canon7) | split | (intro _) | (dsimp only)
theorem State.setPart_canon {s : State} {p x} (hC : Canon kB s) : Canon kB (State.setPart s p x) := by
  unfold State.setPart
  repeat' first | (with_reducible assumption) | (with_reducible apply canon_foldl) | (simp only [canon_mk]) | (with_reducible apply canon7) | split | (intro _) | (dsimp only)
theorem State.resetBound_canon {s : State} {e} (hC : Canon kB s) : Canon kB (State.resetBound s e) := by
  unfold State.resetBound
  repeat' first | (with_reducible assumption) | (with_reducible apply State.leaveIfAsked_canon) | (with_reducible apply State.resetEngine_canon) | (with_reducible apply State.setComb_canon) | (with_reducible apply State.setEngine_canon) | (with_reducible apply canon_foldl) | (simp only [canon_mk]) | (with_reducible apply canon7) | split | (intro _) | (dsimp only)
theorem State.resetSessions_canon {s : State} {p} (hC : Canon kB s) : Canon kB (State.resetSessions s p) := by
  unfold State.resetSessions
  repeat' first | (with_reducible assumption) | (with_reducible apply State.freeSessPages_canon) | (with_reducible apply canon_foldl) | (simp only [canon_mk]) | (with_reducible apply canon7) | split | (intro _) | (dsimp only)
theorem State.restartServices_canon {s : State} {p} (hC : Canon kB s) : Canon kB (State.restartServices s p) := by
  unfold State.restartServices
  repeat' first | (with_reducible assumption) | (with_reducible apply State.resetCell_canon) | (with_reducible apply State.setSteward_canon) | (with_reducible apply canon_foldl) | (simp only [canon_mk]) | (with_reducible apply canon7) | (simp only [VCell.go_local, VCell.setLane_local, VCell.writeLanes_local, VCell.setA_local, VCell.setPred_local, VCell.flag_local, VCell.setStatus_local, VCell.writeSr_local, SCell.go_local, SCell.jump_local, SCell.setR_local]) | (with_reducible apply Memory.wf_writeL) | (with_reducible apply vcell_local) | (with_reducible apply scell_local) | (exact vReady_local hC (by assumption) (by assumption)) | (exact sReady_local hC (by assumption) (by assumption)) | (exact rfl) | split | (intro _) | (dsimp only)
theorem State.dropOld_canon {s : State} {p} (hC : Canon kB s) : Canon kB (State.dropOld s p) := by
  unfold State.dropOld
  repeat' first | (with_reducible assumption) | (with_reducible apply State.dropStreams_canon) | (with_reducible apply State.dropXlate_canon) | (with_reducible apply canon_foldl) | (simp only [canon_mk]) | (with_reducible apply canon7) | split | (intro _) | (dsimp only)
theorem State.partReset_canon {s : State} {p cause} (hC : Canon kB s) : Canon kB (State.partReset s p cause) := by
  unfold State.partReset
  repeat' first | (with_reducible assumption) | (with_reducible apply State.dropOld_canon) | (with_reducible apply State.event_canon) | (with_reducible apply State.noteAdvance_canon) | (with_reducible apply State.resetBound_canon) | (with_reducible apply State.resetSessions_canon) | (with_reducible apply State.restartServices_canon) | (with_reducible apply State.setPart_canon) | (with_reducible apply canon_foldl) | (simp only [canon_mk]) | (with_reducible apply canon7) | split | (intro _) | (dsimp only)
theorem State.doReset_canon {s : State} {cause r} (hC : Canon kB s) : Canon kB (State.doReset s cause r) := by
  unfold State.doReset
  repeat' first | (with_reducible assumption) | (with_reducible apply State.abandonNow_canon) | (with_reducible apply State.blockReset_canon) | (with_reducible apply State.partReset_canon) | (with_reducible apply State.resetEngine_canon) | (with_reducible apply State.retireCell_canon) | (with_reducible apply State.returnStart_canon) | (with_reducible apply canon_foldl) | (simp only [canon_mk]) | (with_reducible apply canon7) | split | (intro _) | (dsimp only)
theorem State.doorbell_canon {s : State} {p kind w} (hC : Canon kB s) : Canon kB (State.doorbell s p kind w) := by
  unfold State.doorbell
  repeat' first | (with_reducible assumption) | (with_reducible apply State.event_canon) | (with_reducible apply State.setRing_canon) | (with_reducible apply canon_foldl) | (simp only [canon_mk]) | (with_reducible apply canon7) | split | (intro _) | (dsimp only)
theorem State.drainWindow_canon {s : State} {id x w} (hC : Canon kB s) : Canon kB (State.drainWindow s id x w) := by
  unfold State.drainWindow
  repeat' first | (with_reducible assumption) | (with_reducible apply State.setWindow_canon) | (with_reducible apply canon_foldl) | (simp only [canon_mk]) | (with_reducible apply canon7) | split | (intro _) | (dsimp only)
theorem State.dramWriteL_canon {s : State} {dpa data n} (hC : Canon kB s) : Canon kB (s.dramWriteL dpa data n) := by
  induction n generalizing s dpa data with
  | zero => exact hC
  | succ n ih =>
    unfold State.dramWriteL
    repeat' first | (with_reducible assumption) | (with_reducible apply State.dramWriteLine_canon) | (with_reducible apply ih) | split | (dsimp only)
theorem State.dramWrite_canon {s : State} {dpa data} (hC : Canon kB s) : Canon kB (State.dramWrite s dpa data) := by
  unfold State.dramWrite
  repeat' first | (with_reducible assumption) | (with_reducible apply State.dramWriteL_canon) | (with_reducible apply canon_foldl) | (simp only [canon_mk]) | (with_reducible apply canon7) | split | (intro _) | (dsimp only)
theorem State.draw_canon {s : State} (hC : Canon kB s) : Canon kB (State.draw s).2 := by
  unfold State.draw
  repeat' first | (with_reducible assumption) | (with_reducible apply canon_foldl) | (simp only [canon_mk]) | (with_reducible apply canon7) | split | (intro _) | (dsimp only)
theorem State.drive_canon {s s0 : State} (hC : Canon kB s) : Canon kB (s.drive s0) := by
  unfold State.drive
  repeat' first | (with_reducible assumption) | (with_reducible apply State.emitOut_canon) | split | (dsimp only)
theorem State.dropIncoming_canon {s : State} {node transfer} (hC : Canon kB s) : Canon kB (State.dropIncoming s node transfer) := by
  unfold State.dropIncoming
  repeat' first | (with_reducible assumption) | (with_reducible apply canon_foldl) | (simp only [canon_mk]) | (with_reducible apply canon7) | split | (intro _) | (dsimp only)
theorem State.storeDesc_canon {s : State} {q} (hC : Canon kB s) : Canon kB (State.storeDesc s q) := by
  unfold State.storeDesc
  repeat' first | (with_reducible assumption) | (with_reducible apply State.cacheDesc_canon) | (with_reducible apply State.copyDesc_canon) | (with_reducible apply canon_foldl) | (simp only [canon_mk]) | (with_reducible apply canon7) | split | (intro _) | (dsimp only)
theorem State.dropPlan_canon {s : State} {k x} (hC : Canon kB s) : Canon kB (State.dropPlan s k x) := by
  unfold State.dropPlan
  repeat' first | (with_reducible assumption) | (with_reducible apply State.storeDesc_canon) | (with_reducible apply canon_foldl) | (simp only [canon_mk]) | (with_reducible apply canon7) | split | (intro _) | (dsimp only)
theorem State.dropStale_canon {s : State} {n} (hC : Canon kB s) : Canon kB (State.dropStale s n) := by
  unfold State.dropStale
  repeat' first | (with_reducible assumption) | (with_reducible apply canon_foldl) | (simp only [canon_mk]) | (with_reducible apply canon7) | split | (intro _) | (dsimp only)
theorem State.dropStart_canon {s : State} {e x} (hC : Canon kB s) : Canon kB (State.dropStart s e x) := by
  unfold State.dropStart
  repeat' first | (with_reducible assumption) | (with_reducible apply State.leaveIfAsked_canon) | (with_reducible apply State.setEngine_canon) | (with_reducible apply State.setStation_canon) | (with_reducible apply canon_foldl) | (simp only [canon_mk]) | (with_reducible apply canon7) | (simp only [VCell.go_local, VCell.setLane_local, VCell.writeLanes_local, VCell.setA_local, VCell.setPred_local, VCell.flag_local, VCell.setStatus_local, VCell.writeSr_local, SCell.go_local, SCell.jump_local, SCell.setR_local]) | (with_reducible apply Memory.wf_writeL) | (with_reducible apply vcell_local) | (with_reducible apply scell_local) | (exact vReady_local hC (by assumption) (by assumption)) | (exact sReady_local hC (by assumption) (by assumption)) | (exact rfl) | split | (intro _) | (dsimp only)
theorem State.emergency_canon {s s0 : State} {c} (hC : Canon kB s) : Canon kB (s.emergency s0 c) := by
  unfold State.emergency
  repeat' first | (with_reducible assumption) | (with_reducible apply State.drive_canon) | (with_reducible apply State.logFault_canon) | (with_reducible apply State.opEvent_canon) | (with_reducible apply canon_foldl) | (with_reducible apply State.event_canon) | (simp only [canon_mk]) | (with_reducible apply canon7) | (intro _) | (dsimp only)
theorem State.runReset_canon {s : State} {c} (hC : Canon kB s) : Canon kB (State.runReset s c) := by
  unfold State.runReset
  repeat' first | (with_reducible assumption) | (with_reducible apply State.doReset_canon) | (with_reducible apply canon_foldl) | (simp only [canon_mk]) | (with_reducible apply canon7) | split | (intro _) | (dsimp only)
theorem State.runResets_canon {s : State} (hC : Canon kB s) : Canon kB (State.runResets s) := by
  unfold State.runResets
  repeat' first | (with_reducible assumption) | (with_reducible apply State.runReset_canon) | (with_reducible apply canon_foldl) | (simp only [canon_mk]) | (with_reducible apply canon7) | split | (intro _) | (dsimp only)
theorem State.endCapture_canon {s : State} {c written} (hC : Canon kB s) : Canon kB (State.endCapture s c written) := by
  unfold State.endCapture
  repeat' first | (with_reducible assumption) | (with_reducible apply State.carveWrite_canon) | (with_reducible apply State.event_canon) | (with_reducible apply State.opEvent_canon) | (with_reducible apply State.runResets_canon) | (with_reducible apply canon_foldl) | (simp only [canon_mk]) | (with_reducible apply canon7) | split | (intro _) | (dsimp only)
theorem State.endStart_canon {s : State} {e} (hC : Canon kB s) : Canon kB (State.endStart s e) := by
  unfold State.endStart
  repeat' first | (with_reducible assumption) | (with_reducible apply State.setEngine_canon) | (with_reducible apply canon_foldl) | (simp only [canon_mk]) | (with_reducible apply canon7) | split | (intro _) | (dsimp only)
theorem State.startDone_canon {s : State} {n} (hC : Canon kB s) : Canon kB (State.startDone s n) := by
  unfold State.startDone
  repeat' first | (with_reducible assumption) | (with_reducible apply canon_foldl) | (simp only [canon_mk]) | (with_reducible apply canon7) | split | (intro _) | (dsimp only)
theorem State.startProcessor_canon {s t : State} {i ty u} (hC : Canon kB s) (ht : s.startProcessor i ty u = some t) : Canon kB t := by
  unfold State.startProcessor at ht
  split at ht
  · cases ht
  · cases ht
    repeat' first | (with_reducible assumption) | (with_reducible apply State.logFault_canon) | (simp only [canon_mk]) | (with_reducible apply canon7) | split | (dsimp only)
theorem State.recover_canon {s : State} (hC : Canon kB s) : Canon kB (State.recover s) := by
  unfold State.recover
  repeat' first | (with_reducible assumption) | (with_reducible apply State.portsToDoze_canon) | (with_reducible apply canon_foldl) | (simp only [canon_mk]) | (with_reducible apply canon7) | split | (intro _) | (dsimp only)
theorem State.readZhohi_canon {s : State} {sig0 sig1} (hC : Canon kB s) : Canon kB (State.readZhohi s sig0 sig1) := by
  unfold State.readZhohi
  repeat' first | (with_reducible assumption) | (with_reducible apply State.opEvent_canon) | (with_reducible apply canon_foldl) | (simp only [canon_mk]) | (with_reducible apply canon7) | split | (intro _) | (dsimp only)
theorem State.startAll_canon {s t : State} {i} (hC : Canon kB s) (ht : s.startAll i = some t) : Canon kB t := by
  unfold State.startAll at ht
  have key : ∀ (l : List (Nat × Nat)) (o : Option State), (∀ u, o = some u → Canon kB u) →
      ∀ t, l.foldl (fun (o : Option State) x => o.bind (fun s => s.startProcessor i x.1 x.2)) o = some t → Canon kB t := by
    intro l
    induction l with
    | nil => exact fun o ho t ht => ho t ht
    | cons a l ih =>
      intro o ho t ht
      refine ih _ ?_ t ht
      intro u hu
      cases o with
      | none => cases hu
      | some v => exact State.startProcessor_canon (ho v rfl) hu
  exact key _ _ (fun u hu => by cases hu; exact hC) t ht
theorem State.powerOffBlocks_canon {s : State} (hC : Canon kB s) : Canon kB (State.powerOffBlocks s) := by
  unfold State.powerOffBlocks
  repeat' first | (with_reducible assumption) | (with_reducible apply canon_foldl) | (simp only [canon_mk]) | (with_reducible apply canon7) | split | (intro _) | (dsimp only)
theorem State.switchedOff_canon {s : State} (hC : Canon kB s) : Canon kB (State.switchedOff s) := by
  unfold State.switchedOff
  repeat' first | (with_reducible assumption) | (with_reducible apply State.portsToDoze_canon) | (with_reducible apply State.powerOffBlocks_canon) | (with_reducible apply canon_foldl) | (simp only [canon_mk]) | (with_reducible apply canon7) | split | (intro _) | (dsimp only)
theorem State.halt_canon {s : State} {code detail} (hC : Canon kB s) : Canon kB (State.halt s code detail) := by
  unfold State.halt
  repeat' first | (with_reducible assumption) | (with_reducible apply State.logFault_canon) | (with_reducible apply State.switchedOff_canon) | (with_reducible apply canon_foldl) | (simp only [canon_mk]) | (with_reducible apply canon7) | split | (intro _) | (dsimp only)
theorem State.readSpd_canon {s : State} {i} (hC : Canon kB s) : Canon kB (State.readSpd s i) := by
  unfold State.readSpd
  repeat' first | (with_reducible assumption) | (with_reducible apply State.halt_canon) | (with_reducible apply State.startDone_canon) | (with_reducible apply canon_foldl) | (simp only [canon_mk]) | (with_reducible apply canon7) | split | (intro _) | (dsimp only)
theorem State.writeInterfaces_canon {s : State} (hC : Canon kB s) : Canon kB s.writeInterfaces := by
  unfold State.writeInterfaces
  repeat' first | (with_reducible assumption) | split | (dsimp only)
  exact { hC with cap := fun hm => Memory.wf_writeL (hC.cap hm) _ _ }
theorem State.publish_canon {s : State} (hC : Canon kB s) : Canon kB s.publish := by
  have key : ∀ (l : List (Nat × List Byte)) (m : Mem), Memory.wf m = true → Memory.wf (l.foldl (fun (m : Mem) e => Memory.writeL m e.1 e.2) m) = true := by
    intro l
    induction l with
    | nil => exact fun _ h => h
    | cons a l ih => exact fun m h => ih _ (Memory.wf_writeL h _ _)
  unfold State.publish
  dsimp only
  simp only [canon_mk]
  with_reducible apply canon7
  with_reducible apply State.writeInterfaces_canon
  simp only [canon_mk]
  have h1 := key s.capFields [] rfl
  generalize s.capFields.foldl (fun (m : Mem) e => Memory.writeL m e.1 e.2) [] = m at h1 ⊢
  exact { hC with cap := fun hm => h1 }
theorem State.endStep_canon {s : State} {n i} (hC : Canon kB s) : Canon kB (State.endStep s n i) := by
  unfold State.endStep
  repeat' first | (with_reducible assumption) | (refine State.startAll_canon ?_ (by assumption)) | (refine State.startProcessor_canon ?_ (by assumption)) | (with_reducible apply State.coldPlans_canon) | (with_reducible apply State.halt_canon) | (with_reducible apply State.opEvent_canon) | (with_reducible apply State.publish_canon) | (with_reducible apply State.readSpd_canon) | (with_reducible apply State.readZhohi_canon) | (with_reducible apply State.recover_canon) | (with_reducible apply State.startDone_canon) | (with_reducible apply canon_foldl) | (simp only [canon_mk]) | (with_reducible apply canon7) | split | (intro _) | (dsimp only)
theorem State.endStreams_canon {s : State} (hC : Canon kB s) : Canon kB (State.endStreams s) := by
  unfold State.endStreams
  repeat' first | (with_reducible assumption) | (with_reducible apply State.caravanDrained_canon) | (with_reducible apply State.endStream_canon) | (with_reducible apply canon_foldl) | (simp only [canon_mk]) | (with_reducible apply canon7) | split | (intro _) | (dsimp only)
theorem State.engTxn_canon {s : State} {g dpa write} (hC : Canon kB s) : Canon kB (State.engTxn s g dpa write) := by
  unfold State.engTxn
  repeat' first | (with_reducible assumption) | (with_reducible apply State.transact_canon) | (with_reducible apply canon_foldl) | (simp only [canon_mk]) | (with_reducible apply canon7) | split | (intro _) | (dsimp only)
theorem State.usedPage_canon {s : State} {g va} (hC : Canon kB s) : Canon kB (State.usedPage s g va) := by
  unfold State.usedPage
  repeat' first | (with_reducible assumption) | (with_reducible apply State.setBtu_canon) | (with_reducible apply canon_foldl) | (simp only [canon_mk]) | (with_reducible apply canon7) | split | (intro _) | (dsimp only)
theorem State.putPiece_canon {s : State} {g va l} (hC : Canon kB s) : Canon kB (s.putPiece g va l) := by
  have h1 : Canon kB (s.usedPage g va) := State.usedPage_canon hC
  unfold State.putPiece
  extract_lets s1
  repeat' first | (with_reducible assumption) | (with_reducible apply State.engTxn_canon) | (with_reducible apply State.dramWriteLine_canon) | (with_reducible apply State.askWindow_canon) | (exact { h1 with h := fun hm => Memory.wf_writeL (h1.h hm) _ _ }) | split
theorem State.putPieces_canon {s : State} {g l bs} (hC : Canon kB s) : Canon kB (s.putPieces g l bs) := by
  induction l generalizing s bs with
  | nil => exact hC
  | cons x l ih => exact ih (State.putPiece_canon hC)
theorem State.heavyHint_canon {s : State} {x w} (hC : Canon kB s) : Canon kB (State.heavyHint s x w) := by
  unfold State.heavyHint
  repeat' first | (with_reducible assumption) | (with_reducible apply canon_foldl) | (simp only [canon_mk]) | (with_reducible apply canon7) | split | (intro _) | (dsimp only)
theorem State.ringWrite_canon {s : State} {p b off l} (hC : Canon kB s) : Canon kB (State.ringWrite s p b off l) := by
  unfold State.ringWrite
  repeat' first | (with_reducible assumption) | (with_reducible apply canon_foldl) | (simp only [canon_mk]) | (with_reducible apply canon7) | split | (intro _) | (dsimp only)
theorem State.enqueueNow_canon {s : State} {q x w0} (hC : Canon kB s) : Canon kB (State.enqueueNow s q x w0) := by
  unfold State.enqueueNow
  repeat' first | (with_reducible assumption) | (with_reducible apply State.cacheDesc_canon) | (with_reducible apply State.heavyHint_canon) | (with_reducible apply State.ringWrite_canon) | (with_reducible apply State.setQueue_canon) | (with_reducible apply State.writeObj_canon) | (with_reducible apply canon_foldl) | (simp only [canon_mk]) | (with_reducible apply canon7) | split | (intro _) | (dsimp only)
theorem State.enqueueReq_canon {s : State} {x} (hC : Canon kB s) : Canon kB (State.enqueueReq s x) := by
  unfold State.enqueueReq
  repeat' first | (with_reducible assumption) | (with_reducible apply canon_foldl) | (simp only [canon_mk]) | (with_reducible apply canon7) | split | (intro _) | (dsimp only)
theorem State.updFlit_canon {s : State} {n f} (hC : Canon kB s) : Canon kB (State.updFlit s n f) := by
  unfold State.updFlit
  repeat' first | (with_reducible assumption) | (with_reducible apply canon_foldl) | (simp only [canon_mk]) | (with_reducible apply canon7) | split | (intro _) | (dsimp only)
theorem State.enterUnits_canon {s : State} {r n} (hC : Canon kB s) : Canon kB (s.enterUnits r n) := by
  induction n generalizing s with
  | zero => exact hC
  | succ n ih =>
    unfold State.enterUnits
    repeat' first | (with_reducible assumption) | (with_reducible apply ih) | (with_reducible apply State.setCrier_canon) | (with_reducible apply State.updFlit_canon) | split | (dsimp only)
theorem State.enterPort_canon {s : State} {node inp n l} (hC : Canon kB s) : Canon kB (s.enterPort node inp n l) := by
  induction l generalizing s n with
  | nil => cases n <;> exact hC
  | cons f l ih =>
    cases n with
    | zero => exact hC
    | succ n =>
      unfold State.enterPort
      repeat' first | (with_reducible assumption) | (with_reducible apply ih) | (with_reducible apply State.updFlit_canon) | split
theorem State.enterAll_canon {s : State} (hC : Canon kB s) : Canon kB s.enterAll := by
  unfold State.enterAll
  extract_lets ks rs s1
  have h1 : Canon kB s1 := canon_foldl hC fun _ _ h => by split; exact h; exact State.enterUnits_canon h
  exact canon_foldl h1 fun _ _ h => State.enterPort_canon h
theorem State.failHop_canon {s : State} {hop} (hC : Canon kB s) : Canon kB (State.failHop s hop) := by
  unfold State.failHop
  repeat' first | (with_reducible assumption) | (with_reducible apply State.devFault_canon) | (with_reducible apply canon_foldl) | (simp only [canon_mk]) | (with_reducible apply canon7) | split | (intro _) | (dsimp only)
theorem State.failRow_canon {s : State} {r} (hC : Canon kB s) : Canon kB (State.failRow s r) := by
  unfold State.failRow
  repeat' first | (with_reducible assumption) | (with_reducible apply State.endGeneration_canon) | (with_reducible apply State.event_canon) | (with_reducible apply State.setSess_canon) | (with_reducible apply canon_foldl) | (simp only [canon_mk]) | (with_reducible apply canon7) | (simp only [VCell.go_local, VCell.setLane_local, VCell.writeLanes_local, VCell.setA_local, VCell.setPred_local, VCell.flag_local, VCell.setStatus_local, VCell.writeSr_local, SCell.go_local, SCell.jump_local, SCell.setR_local]) | (with_reducible apply Memory.wf_writeL) | (with_reducible apply vcell_local) | (with_reducible apply scell_local) | (exact vReady_local hC (by assumption) (by assumption)) | (exact sReady_local hC (by assumption) (by assumption)) | (exact rfl) | split | (intro _) | (dsimp only)
theorem State.fallDue_canon {s : State} {b} (hC : Canon kB s) : Canon kB (State.fallDue s b) := by
  unfold State.fallDue
  repeat' first | (with_reducible assumption) | (with_reducible apply State.setIsland_canon) | (with_reducible apply canon_foldl) | (simp only [canon_mk]) | (with_reducible apply canon7) | split | (intro _) | (dsimp only)
theorem State.noteRead_canon {s : State} {g va} (hC : Canon kB s) : Canon kB (State.noteRead s g va) := by
  unfold State.noteRead
  repeat' first | (with_reducible assumption) | (with_reducible apply State.engTxn_canon) | (with_reducible apply State.usedPage_canon) | (with_reducible apply canon_foldl) | (simp only [canon_mk]) | (with_reducible apply canon7) | split | (intro _) | (dsimp only)
theorem State.noteReads_canon {s : State} {g l} (hC : Canon kB s) : Canon kB (State.noteReads s g l) := by
  unfold State.noteReads
  repeat' first | (with_reducible assumption) | (with_reducible apply State.noteRead_canon) | (with_reducible apply canon_foldl) | (simp only [canon_mk]) | (with_reducible apply canon7) | split | (intro _) | (dsimp only)
theorem State.setQpair_canon {s : State} {q x} (hC : Canon kB s) : Canon kB (State.setQpair s q x) := by
  unfold State.setQpair
  repeat' first | (with_reducible assumption) | (with_reducible apply canon_foldl) | (simp only [canon_mk]) | (with_reducible apply canon7) | split | (intro _) | (dsimp only)
theorem State.qpSent_canon {s : State} {q t} (hC : Canon kB s) : Canon kB (State.qpSent s q t) := by
  unfold State.qpSent
  repeat' first | (with_reducible assumption) | (with_reducible apply State.setQpair_canon) | (with_reducible apply canon_foldl) | (simp only [canon_mk]) | (with_reducible apply canon7) | split | (intro _) | (dsimp only)
theorem State.sendPart_canon {s : State} {n m} (hC : Canon kB s) : Canon kB (State.sendPart s n m) := by
  unfold State.sendPart
  repeat' first | (with_reducible assumption) | (with_reducible apply State.newFlit_canon) | (with_reducible apply State.qpSent_canon) | (with_reducible apply State.setPort_canon) | (with_reducible apply canon_foldl) | (simp only [canon_mk]) | (with_reducible apply canon7) | split | (intro _) | (dsimp only)
theorem State.startQp_canon {s : State} {n q e w} (hC : Canon kB s) : Canon kB (State.startQp s n q e w) := by
  unfold State.startQp
  repeat' first | (with_reducible assumption) | (with_reducible apply State.setPort_canon) | (with_reducible apply canon_foldl) | (simp only [canon_mk]) | (with_reducible apply canon7) | split | (intro _) | (dsimp only)
theorem State.sendOn_canon {s : State} {n p vc} (hC : Canon kB s) : Canon kB (State.sendOn s n p vc) := by
  unfold State.sendOn
  repeat' first | (with_reducible assumption) | (with_reducible apply State.sendPart_canon) | (with_reducible apply State.startQp_canon) | (with_reducible apply canon_foldl) | (simp only [canon_mk]) | (with_reducible apply canon7) | split | (intro _) | (dsimp only)
theorem State.fillSlot_canon {s : State} {n} (hC : Canon kB s) : Canon kB (State.fillSlot s n) := by
  unfold State.fillSlot
  repeat' first | (with_reducible assumption) | (with_reducible apply State.newFlit_canon) | (with_reducible apply State.putFlit_canon) | (with_reducible apply State.sendOn_canon) | (with_reducible apply State.sendPart_canon) | (with_reducible apply State.setPort_canon) | (with_reducible apply canon_foldl) | (simp only [canon_mk]) | (with_reducible apply canon7) | split | (intro _) | (dsimp only)
theorem State.finishBusy_canon {s : State} {ch sub} (hC : Canon kB s) : Canon kB (State.finishBusy s ch sub) := by
  unfold State.finishBusy
  repeat' first | (with_reducible assumption) | (with_reducible apply State.complete_canon) | (with_reducible apply State.setCtrl_canon) | (with_reducible apply canon_foldl) | (simp only [canon_mk]) | (with_reducible apply canon7) | split | (intro _) | (dsimp only)
theorem State.flitHeader_canon {s : State} {n f} (hC : Canon kB s) : Canon kB (State.flitHeader s n f) := by
  unfold State.flitHeader
  repeat' first | (with_reducible assumption) | (with_reducible apply State.flitViolation_canon) | (with_reducible apply State.setPort_canon) | (with_reducible apply State.updPort_canon) | (with_reducible apply canon_foldl) | (simp only [canon_mk]) | (with_reducible apply canon7) | split | (intro _) | (dsimp only)
theorem State.forgetPart_canon {s : State} {p} (hC : Canon kB s) : Canon kB (State.forgetPart s p) := by
  unfold State.forgetPart
  repeat' first | (with_reducible assumption) | (with_reducible apply canon_foldl) | (simp only [canon_mk]) | (with_reducible apply canon7) | split | (intro _) | (dsimp only)
theorem State.freeConsumers_canon {s : State} {c} (hC : Canon kB s) : Canon kB (State.freeConsumers s c) := by
  unfold State.freeConsumers
  repeat' first | (with_reducible assumption) | (with_reducible apply canon_foldl) | (simp only [canon_mk]) | (with_reducible apply canon7) | split | (intro _) | (dsimp only)
theorem State.returnStuck_canon {s : State} {p} (hC : Canon kB s) : Canon kB (State.returnStuck s p) := by
  unfold State.returnStuck
  repeat' first | (with_reducible assumption) | (with_reducible apply State.resetEngine_canon) | (with_reducible apply State.returnStart_canon) | (with_reducible apply canon_foldl) | (simp only [canon_mk]) | (with_reducible apply canon7) | split | (intro _) | (dsimp only)
theorem State.freezePart_canon {s : State} {p} (hC : Canon kB s) : Canon kB (State.freezePart s p) := by
  unfold State.freezePart
  repeat' first | (with_reducible assumption) | (with_reducible apply State.reckCloseAll_canon) | (with_reducible apply State.returnStuck_canon) | (with_reducible apply State.updPart_canon) | (with_reducible apply canon_foldl) | (simp only [canon_mk]) | (with_reducible apply canon7) | split | (intro _) | (dsimp only)
theorem State.restart_canon {s : State} (hC : Canon kB s) : Canon kB (State.restart s) := by
  unfold State.restart
  repeat' first | (with_reducible assumption) | (with_reducible apply State.deviceReset_canon) | (with_reducible apply State.drive_canon) | (with_reducible apply canon_foldl) | (simp only [canon_mk]) | (with_reducible apply canon7) | split | (intro _) | (dsimp only)
theorem State.fuse_canon {s : State} (hC : Canon kB s) : Canon kB (State.fuse s) := by
  unfold State.fuse
  repeat' first | (with_reducible assumption) | (with_reducible apply State.restart_canon) | (with_reducible apply canon_foldl) | (simp only [canon_mk]) | (with_reducible apply canon7) | split | (intro _) | (dsimp only)
theorem State.gatherRun_canon {s : State} {e x st g es dst} (hC : Canon kB s) : Canon kB (State.gatherRun s e x st g es dst) := by
  unfold State.gatherRun
  repeat' first | (with_reducible assumption) | (with_reducible apply State.engStop_canon) | (with_reducible apply State.noteReads_canon) | (with_reducible apply State.setEngine_canon) | (with_reducible apply State.writeBytes_canon) | (with_reducible apply canon_foldl) | (simp only [canon_mk]) | (with_reducible apply canon7) | split | (intro _) | (dsimp only)
theorem State.grantPages_canon {s : State} {slot n} (hC : Canon kB s) : Canon kB (State.grantPages s slot n) := by
  unfold State.grantPages
  repeat' first | (with_reducible assumption) | (with_reducible apply State.setPlan_canon) | (with_reducible apply State.setSess_canon) | (with_reducible apply State.writeTable_canon) | (with_reducible apply canon_foldl) | (simp only [canon_mk]) | (with_reducible apply canon7) | (simp only [VCell.go_local, VCell.setLane_local, VCell.writeLanes_local, VCell.setA_local, VCell.setPred_local, VCell.flag_local, VCell.setStatus_local, VCell.writeSr_local, SCell.go_local, SCell.jump_local, SCell.setR_local]) | (with_reducible apply Memory.wf_writeL) | (with_reducible apply vcell_local) | (with_reducible apply scell_local) | (exact vReady_local hC (by assumption) (by assumption)) | (exact sReady_local hC (by assumption) (by assumption)) | (exact rfl) | split | (intro _) | (dsimp only)
theorem State.preempt_canon {s : State} {slot} (hC : Canon kB s) : Canon kB (State.preempt s slot) := by
  unfold State.preempt
  repeat' first | (with_reducible assumption) | (with_reducible apply State.freeSessPages_canon) | (with_reducible apply State.order_canon) | (with_reducible apply State.setSess_canon) | (with_reducible apply State.voidRows_canon) | (with_reducible apply canon_foldl) | (simp only [canon_mk]) | (with_reducible apply canon7) | (refine canon_fst (by assumption) ?_) | (refine canon_snd (by assumption) ?_) | (simp only [VCell.go_local, VCell.setLane_local, VCell.writeLanes_local, VCell.setA_local, VCell.setPred_local, VCell.flag_local, VCell.setStatus_local, VCell.writeSr_local, SCell.go_local, SCell.jump_local, SCell.setR_local]) | (with_reducible apply Memory.wf_writeL) | (with_reducible apply vcell_local) | (with_reducible apply scell_local) | (exact vReady_local hC (by assumption) (by assumption)) | (exact sReady_local hC (by assumption) (by assumption)) | (exact rfl) | split | (intro _) | (dsimp only)
theorem State.grantNext_canon {s : State} {slot} (hC : Canon kB s) : Canon kB (State.grantNext s slot) := by
  unfold State.grantNext
  repeat' first | (with_reducible assumption) | (with_reducible apply State.grantPages_canon) | (with_reducible apply State.preempt_canon) | (with_reducible apply canon_foldl) | (simp only [canon_mk]) | (with_reducible apply canon7) | split | (intro _) | (dsimp only)
theorem State.groupTags_canon {s : State} {n} (hC : Canon kB s) : Canon kB (State.groupTags s n) := by
  unfold State.groupTags
  repeat' first | (with_reducible assumption) | (with_reducible apply State.emitOut_canon) | (with_reducible apply canon_foldl) | (simp only [canon_mk]) | (with_reducible apply canon7) | split | (intro _) | (dsimp only)
theorem State.writeLog_canon {s : State} {x y pos l} (hC : Canon kB s) : Canon kB (State.writeLog s x y pos l) := by
  unfold State.writeLog
  repeat' first | (with_reducible assumption) | (with_reducible apply State.writePlanObj_canon) | (with_reducible apply canon_foldl) | (simp only [canon_mk]) | (with_reducible apply canon7) | split | (intro _) | (dsimp only)
theorem State.replayFromLog_canon {s : State} {slot x} (hC : Canon kB s) : Canon kB (State.replayFromLog s slot x) := by
  unfold State.replayFromLog
  repeat' first | (with_reducible assumption) | (with_reducible apply State.freeSessPages_canon) | (with_reducible apply State.grantPages_canon) | (with_reducible apply State.order_canon) | (with_reducible apply State.reckFlag_canon) | (with_reducible apply State.updSess_canon) | (with_reducible apply canon_foldl) | (simp only [canon_mk]) | (with_reducible apply canon7) | (refine canon_fst (by assumption) ?_) | (refine canon_snd (by assumption) ?_) | split | (intro _) | (dsimp only)
theorem State.healSession_canon {s : State} {slot} (hC : Canon kB s) : Canon kB (State.healSession s slot) := by
  unfold State.healSession
  repeat' first | (with_reducible assumption) | (with_reducible apply State.endGeneration_canon) | (with_reducible apply State.replayFromLog_canon) | (with_reducible apply State.writeLog_canon) | (with_reducible apply State.writeTable_canon) | (with_reducible apply canon_foldl) | (simp only [canon_mk]) | (with_reducible apply canon7) | split | (intro _) | (dsimp only)
theorem State.healSessions_canon {s : State} (hC : Canon kB s) : Canon kB (State.healSessions s) := by
  unfold State.healSessions
  repeat' first | (with_reducible assumption) | (with_reducible apply State.healSession_canon) | (with_reducible apply canon_foldl) | (simp only [canon_mk]) | (with_reducible apply canon7) | split | (intro _) | (dsimp only)
theorem State.inputLoss_canon {s : State} (hC : Canon kB s) : Canon kB s.inputLoss := by
  unfold State.inputLoss
  dsimp only
  apply State.drive_canon
  exact { State.deviceReset_canon hC with hours := .inl rfl }
theorem State.sendMem_canon {s : State} {r} (hC : Canon kB s) : Canon kB (State.sendMem s r) := by
  unfold State.sendMem
  repeat' first | (with_reducible assumption) | (with_reducible apply State.post_canon) | (with_reducible apply canon_foldl) | (simp only [canon_mk]) | (with_reducible apply canon7) | split | (intro _) | (dsimp only)
theorem State.regIssue_canon {s : State} {k p3} (hC : Canon kB s) : Canon kB (State.regIssue s k p3) := by
  unfold State.regIssue
  repeat' first | (with_reducible assumption) | (with_reducible apply State.setMaster_canon) | (with_reducible apply canon_foldl) | (simp only [canon_mk]) | (with_reducible apply canon7) | split | (intro _) | (dsimp only)
theorem State.issueWalk_canon {s t : State} {b slot} (hC : Canon kB s) (ht : s.issueWalk b slot = some t) : Canon kB t := by
  have key : ∀ (u : State) (x : Btu) (n : Nat) (l : Tab MemWho) (r : MemReq), Canon kB u → Canon kB (({ u.setBtu b x with dram := { (u.setBtu b x).dram with nextReq := n, txns := l } } : State).sendMem r) :=
    fun u x n l r h => State.sendMem_canon (show Canon kB (u.setBtu b x) from State.setBtu_canon h)
  unfold State.issueWalk at ht
  dsimp only at ht
  repeat' (split at ht)
  all_goals first
    | (cases ht; done)
    | (cases ht; exact key _ _ _ _ _ hC)
    | (cases ht; exact key _ _ _ _ _ (State.regIssue_canon hC))
theorem State.issueRead_canon {s : State} {b} (hC : Canon kB s) : Canon kB (s.issueRead b) := by
  have key : ∀ l : List Nat, Canon kB ((l.findSome? (s.issueWalk b)).getD s) := by
    intro l
    induction l with
    | nil => exact hC
    | cons a l ih =>
      rw [List.findSome?_cons]
      split
      · rename_i t e; exact State.issueWalk_canon hC e
      · exact ih
  exact key _
theorem State.issueReads_canon {s : State} (hC : Canon kB s) : Canon kB (State.issueReads s) := by
  unfold State.issueReads
  repeat' first | (with_reducible assumption) | (with_reducible apply State.issueRead_canon) | (with_reducible apply canon_foldl) | (simp only [canon_mk]) | (with_reducible apply canon7) | split | (intro _) | (dsimp only)
theorem State.issueTxns_canon {s : State} (hC : Canon kB s) : Canon kB (State.issueTxns s) := by
  unfold State.issueTxns
  repeat' first | (with_reducible assumption) | (with_reducible apply State.regIssue_canon) | (with_reducible apply State.sendMem_canon) | (with_reducible apply canon_foldl) | (simp only [canon_mk]) | (with_reducible apply canon7) | split | (intro _) | (dsimp only)
theorem State.keyWrite_canon {s : State} {k l} (hC : Canon kB s) : Canon kB (s.keyWrite k l) := { hC with sl := fun hm => Memory.wf_writeL (hC.sl hm) _ _ }
theorem State.laneLost_canon {s : State} {n} (hC : Canon kB s) : Canon kB (State.laneLost s n) := by
  unfold State.laneLost
  repeat' first | (with_reducible assumption) | (with_reducible apply State.devFault_canon) | (with_reducible apply State.portDown_canon) | (with_reducible apply canon_foldl) | (simp only [canon_mk]) | (with_reducible apply canon7) | split | (intro _) | (dsimp only)
theorem State.leaseRevoked_canon {s : State} {p req gen l} (hC : Canon kB s) : Canon kB (State.leaseRevoked s p req gen l) := by
  unfold State.leaseRevoked
  repeat' first | (with_reducible assumption) | (with_reducible apply State.discardRequest_canon) | (with_reducible apply State.emitOut_canon) | (with_reducible apply canon_foldl) | (simp only [canon_mk]) | (with_reducible apply canon7) | split | (intro _) | (dsimp only)
theorem State.leaveNode_canon {s : State} {f} (hC : Canon kB s) : Canon kB (State.leaveNode s f) := by
  unfold State.leaveNode
  repeat' first | (with_reducible assumption) | (with_reducible apply canon_foldl) | (simp only [canon_mk]) | (with_reducible apply canon7) | split | (intro _) | (dsimp only)
theorem State.leaveQueue_canon {s : State} {key} (hC : Canon kB s) : Canon kB (State.leaveQueue s key) := by
  unfold State.leaveQueue
  repeat' first | (with_reducible assumption) | (with_reducible apply canon_foldl) | (simp only [canon_mk]) | (with_reducible apply canon7) | split | (intro _) | (dsimp only)
theorem State.loadDirty_canon {s : State} {x n l} (hC : Canon kB s) : Canon kB (s.loadDirty x n l) := by
  induction n generalizing s l with
  | zero => exact hC
  | succ n ih =>
    unfold State.loadDirty
    repeat' first | (with_reducible assumption) | (with_reducible apply State.carveWrite_canon) | (with_reducible apply ih) | split
theorem State.loadPages_canon {s : State} {x t full} (hC : Canon kB s) : Canon kB (State.loadPages s x t full) := by
  unfold State.loadPages
  repeat' first | (with_reducible assumption) | (with_reducible apply State.carveWrite_canon) | (with_reducible apply State.loadDirty_canon) | (with_reducible apply canon_foldl) | (simp only [canon_mk]) | (with_reducible apply canon7) | split | (intro _) | (dsimp only)
theorem State.loadGens_canon {s : State} {x gens} (hC : Canon kB s) : Canon kB (State.loadGens s x gens) := by
  unfold State.loadGens
  repeat' first | (with_reducible assumption) | (with_reducible apply State.loadPages_canon) | (with_reducible apply canon_foldl) | (simp only [canon_mk]) | (with_reducible apply canon7) | split | (intro _) | (dsimp only)
theorem State.loadImage_canon {s : State} {p x im} (hC : Canon kB s) : Canon kB (s.loadImage p x im) := by
  unfold State.loadImage
  repeat' first | (with_reducible assumption) | (with_reducible apply canon_foldl) | (with_reducible apply State.setDisp_canon) | (intro _) | split | (dsimp only)
  exact { hC with sc := fun hm => slocals_merge (hC.sc hm) }
theorem State.loadMoved_canon {s : State} {dst} (hC : Canon kB s) : Canon kB (State.loadMoved s dst) := by
  unfold State.loadMoved
  repeat' first | (with_reducible assumption) | (with_reducible apply State.bindLoad_canon) | (with_reducible apply canon_foldl) | (simp only [canon_mk]) | (with_reducible apply canon7) | split | (intro _) | (dsimp only)
theorem State.loadSlices_canon {s : State} {x t} (hC : Canon kB s) : Canon kB (s.loadSlices x t) := by
  unfold State.loadSlices
  exact canon_foldl hC fun _ _ h => { h with sl := fun hm => Memory.wf_writeL (Memory.wf_wipe (h.sl hm) _ _) _ _ }
theorem State.logToken_canon {s : State} {slot token} (hC : Canon kB s) : Canon kB (State.logToken s slot token) := by
  unfold State.logToken
  repeat' first | (with_reducible assumption) | (with_reducible apply State.addRec_canon) | (with_reducible apply State.emitOut_canon) | (with_reducible apply State.grantNext_canon) | (with_reducible apply State.mirrorSend_canon) | (with_reducible apply State.order_canon) | (with_reducible apply State.setSess_canon) | (with_reducible apply State.updSess_canon) | (with_reducible apply State.voidRows_canon) | (with_reducible apply State.writeLog_canon) | (with_reducible apply canon_foldl) | (simp only [canon_mk]) | (with_reducible apply canon7) | (refine canon_fst (by assumption) ?_) | (refine canon_snd (by assumption) ?_) | (simp only [VCell.go_local, VCell.setLane_local, VCell.writeLanes_local, VCell.setA_local, VCell.setPred_local, VCell.flag_local, VCell.setStatus_local, VCell.writeSr_local, SCell.go_local, SCell.jump_local, SCell.setR_local]) | (with_reducible apply Memory.wf_writeL) | (with_reducible apply vcell_local) | (with_reducible apply scell_local) | (exact vReady_local hC (by assumption) (by assumption)) | (exact sReady_local hC (by assumption) (by assumption)) | (exact rfl) | split | (intro _) | (dsimp only)
theorem State.logNotice_canon {s : State} {slot i l} (hC : Canon kB s) : Canon kB (s.logNotice slot i l) := by
  induction l generalizing s i with
  | nil => exact hC
  | cons a l ih =>
    unfold State.logNotice
    repeat' first | (with_reducible assumption) | (with_reducible apply State.logToken_canon) | (with_reducible apply ih) | split
theorem State.loseDimm_canon {s : State} {ch} (hC : Canon kB s) : Canon kB (State.loseDimm s ch) := by
  unfold State.loseDimm
  repeat' first | (with_reducible assumption) | (with_reducible apply State.devFault_canon) | (with_reducible apply State.logFault_canon) | (with_reducible apply State.readLost_canon) | (with_reducible apply State.setCtrl_canon) | (with_reducible apply canon_foldl) | (simp only [canon_mk]) | (with_reducible apply canon7) | split | (intro _) | (dsimp only)
theorem State.loseOldPeer_canon {s : State} {p node} (hC : Canon kB s) : Canon kB (State.loseOldPeer s p node) := by
  unfold State.loseOldPeer
  repeat' first | (with_reducible assumption) | (with_reducible apply State.fenceAction_canon) | (with_reducible apply State.setQpair_canon) | (with_reducible apply canon_foldl) | (simp only [canon_mk]) | (with_reducible apply canon7) | split | (intro _) | (dsimp only)
theorem State.markEvents_canon {s : State} {ch l} (hC : Canon kB s) : Canon kB (State.markEvents s ch l) := by
  unfold State.markEvents
  repeat' first | (with_reducible assumption) | (with_reducible apply State.opEvent_canon) | (with_reducible apply canon_foldl) | (simp only [canon_mk]) | (with_reducible apply canon7) | split | (intro _) | (dsimp only)
theorem State.markRow_canon {s : State} {k n i} (hC : Canon kB s) : Canon kB (State.markRow s k n i) := by
  unfold State.markRow
  repeat' first | (with_reducible assumption) | (with_reducible apply State.setPlan_canon) | (with_reducible apply canon_foldl) | (simp only [canon_mk]) | (with_reducible apply canon7) | split | (intro _) | (dsimp only)
theorem State.setRekey_canon {s : State} {p y} (hC : Canon kB s) : Canon kB (State.setRekey s p y) := by
  unfold State.setRekey
  repeat' first | (with_reducible assumption) | (with_reducible apply canon_foldl) | (simp only [canon_mk]) | (with_reducible apply canon7) | split | (intro _) | (dsimp only)
theorem State.scanned_canon {s : State} {p ch} (hC : Canon kB s) : Canon kB (State.scanned s p ch) := by
  unfold State.scanned
  repeat' first | (with_reducible assumption) | (with_reducible apply State.setRekey_canon) | (with_reducible apply canon_foldl) | (simp only [canon_mk]) | (with_reducible apply canon7) | split | (intro _) | (dsimp only)
theorem State.setRow_canon {s : State} {r} (hC : Canon kB s) : Canon kB (State.setRow s r) := by
  unfold State.setRow
  repeat' first | (with_reducible assumption) | (with_reducible apply canon_foldl) | (simp only [canon_mk]) | (with_reducible apply canon7) | split | (intro _) | (dsimp only)
theorem State.tryEnter_canon {s t : State} {ch r} (hC : Canon kB s) (ht : s.tryEnter ch r = some t) : Canon kB t := by
  unfold State.tryEnter at ht
  split at ht
  · cases ht; exact State.memEnter_canon hC
  · cases ht
theorem State.pushRow_canon {s : State} {ch r} (hC : Canon kB s) : Canon kB (State.pushRow s ch r) := by
  unfold State.pushRow
  repeat' first | (with_reducible assumption) | (refine State.tryEnter_canon ?_ (by assumption)) | (with_reducible apply State.readLost_canon) | (with_reducible apply State.setRow_canon) | (with_reducible apply canon_foldl) | (simp only [canon_mk]) | (with_reducible apply canon7) | split | (intro _) | (dsimp only)
theorem State.pushRows_canon {s : State} {ch} (hC : Canon kB s) : Canon kB (State.pushRows s ch) := by
  unfold State.pushRows
  repeat' first | (with_reducible assumption) | (with_reducible apply State.pushRow_canon) | (with_reducible apply canon_foldl) | (simp only [canon_mk]) | (with_reducible apply canon7) | split | (intro _) | (dsimp only)
theorem State.rowFetched_canon {s : State} {id line l} (hC : Canon kB s) : Canon kB (State.rowFetched s id line l) := by
  unfold State.rowFetched
  repeat' first | (with_reducible assumption) | (with_reducible apply State.pushRows_canon) | (with_reducible apply State.setRow_canon) | (with_reducible apply canon_foldl) | (simp only [canon_mk]) | (with_reducible apply canon7) | split | (intro _) | (dsimp only)
theorem State.rebuilt_canon {s : State} {n} (hC : Canon kB s) : Canon kB (State.rebuilt s n) := by
  unfold State.rebuilt
  repeat' first | (with_reducible assumption) | (with_reducible apply State.reply_canon) | (with_reducible apply State.rowFetched_canon) | (with_reducible apply canon_foldl) | (simp only [canon_mk]) | (with_reducible apply canon7) | split | (intro _) | (dsimp only)
theorem State.memDeliver_canon {s : State} {ch r data poison} (hC : Canon kB s) : Canon kB (State.memDeliver s ch r data poison) := by
  unfold State.memDeliver
  repeat' first | (with_reducible assumption) | (with_reducible apply State.keepOld_canon) | (with_reducible apply State.memIn_canon) | (with_reducible apply State.rebuilt_canon) | (with_reducible apply State.reply_canon) | (with_reducible apply State.rowFetched_canon) | (with_reducible apply State.scanned_canon) | (with_reducible apply State.setSweep_canon) | (with_reducible apply canon_foldl) | (simp only [canon_mk]) | (with_reducible apply canon7) | (simp only [VCell.go_local, VCell.setLane_local, VCell.writeLanes_local, VCell.setA_local, VCell.setPred_local, VCell.flag_local, VCell.setStatus_local, VCell.writeSr_local, SCell.go_local, SCell.jump_local, SCell.setR_local]) | (with_reducible apply Memory.wf_writeL) | (with_reducible apply vcell_local) | (with_reducible apply scell_local) | (exact vReady_local hC (by assumption) (by assumption)) | (exact sReady_local hC (by assumption) (by assumption)) | (exact rfl) | split | (intro _) | (dsimp only)
theorem State.scramble_canon {s : State} {p c va n} (hC : Canon kB s) : Canon kB (s.scramble p c va n) := State.writeVAL_canon hC
theorem State.memberLost_canon {s : State} {p g} (hC : Canon kB s) : Canon kB (State.memberLost s p g) := by
  unfold State.memberLost
  repeat' first | (with_reducible assumption) | (with_reducible apply State.delColl_canon) | (with_reducible apply State.programFault_canon) | (with_reducible apply State.scramble_canon) | (with_reducible apply canon_foldl) | (simp only [canon_mk]) | (with_reducible apply canon7) | split | (intro _) | (dsimp only)
theorem State.setMilestone_canon {s : State} {p off n} (hC : Canon kB s) : Canon kB (State.setMilestone s p off n) := by
  unfold State.setMilestone
  repeat' first | (with_reducible assumption) | (with_reducible apply canon_foldl) | (simp only [canon_mk]) | (with_reducible apply canon7) | split | (intro _) | (dsimp only)
theorem State.milestoneSend_canon {s : State} {p off n} (hC : Canon kB s) : Canon kB (State.milestoneSend s p off n) := by
  unfold State.milestoneSend
  repeat' first | (with_reducible assumption) | (with_reducible apply State.setMilestone_canon) | (with_reducible apply canon_foldl) | (simp only [canon_mk]) | (with_reducible apply canon7) | split | (intro _) | (dsimp only)
theorem State.mirrorSession_canon {s : State} {slot x} (hC : Canon kB s) : Canon kB (State.mirrorSession s slot x) := by
  unfold State.mirrorSession
  repeat' first | (with_reducible assumption) | (with_reducible apply State.mirrorSend_canon) | (with_reducible apply canon_foldl) | (simp only [canon_mk]) | (with_reducible apply canon7) | split | (intro _) | (dsimp only)
theorem State.restartPrefetch_canon {s : State} {b} (hC : Canon kB s) : Canon kB (State.restartPrefetch s b) := by
  unfold State.restartPrefetch
  repeat' first | (with_reducible assumption) | (with_reducible apply State.startWalk_canon) | (with_reducible apply canon_foldl) | (simp only [canon_mk]) | (with_reducible apply canon7) | split | (intro _) | (dsimp only)
theorem State.moveStreams_canon {s : State} {src dst f} (hC : Canon kB s) : Canon kB (State.moveStreams s src dst f) := by
  unfold State.moveStreams
  repeat' first | (with_reducible assumption) | (with_reducible apply State.restartPrefetch_canon) | (with_reducible apply State.setBtu_canon) | (with_reducible apply canon_foldl) | (simp only [canon_mk]) | (with_reducible apply canon7) | split | (intro _) | (dsimp only)
theorem State.moveBtu_canon {s : State} {v} (hC : Canon kB s) : Canon kB (State.moveBtu s v) := by
  unfold State.moveBtu
  repeat' first | (with_reducible assumption) | (with_reducible apply State.moveStreams_canon) | (with_reducible apply canon_foldl) | (simp only [canon_mk]) | (with_reducible apply canon7) | split | (intro _) | (dsimp only)
theorem State.noteSwitch_canon {s : State} {ty unit} (hC : Canon kB s) : Canon kB (State.noteSwitch s ty unit) := by
  unfold State.noteSwitch
  repeat' first | (with_reducible assumption) | (with_reducible apply State.opEvent_canon) | (with_reducible apply State.writeInterfaces_canon) | (with_reducible apply canon_foldl) | (simp only [canon_mk]) | (with_reducible apply canon7) | split | (intro _) | (dsimp only)
theorem State.nextSwitch_canon {s : State} {a n} (hC : Canon kB s) : Canon kB (s.nextSwitch a n) := by
  induction n generalizing s a with
  | zero => exact hC
  | succ n ih =>
    unfold State.nextSwitch
    repeat' first | (with_reducible assumption) | (with_reducible apply State.answerMsg_canon) | (with_reducible apply State.noteSwitch_canon) | (with_reducible apply ih) | (simp only [canon_mk]) | (with_reducible apply canon7) | split | (dsimp only)
theorem State.noOutput_canon {s : State} {e x y w} (hC : Canon kB s) : Canon kB (s.noOutput e x y w) := by
  unfold State.noOutput
  dsimp only
  split
  · split
    · simp only [canon_mk]; exact canon7 hC
    · split
      · exact canon_v hC fun hm => vlocals_upd (hC.v hm) fun _ h => h
      · exact canon_sc hC fun hm => slocals_upd (hC.sc hm) fun _ h => h
  · exact State.reject_canon hC
theorem State.noteLine_canon {s : State} {ch line errs} (hC : Canon kB s) : Canon kB (State.noteLine s ch line errs) := by
  unfold State.noteLine
  repeat' first | (with_reducible assumption) | (with_reducible apply State.markEvents_canon) | (with_reducible apply State.setCtrl_canon) | (with_reducible apply canon_foldl) | (simp only [canon_mk]) | (with_reducible apply canon7) | split | (intro _) | (dsimp only)
theorem State.noteRetry_canon {s : State} {key a} (hC : Canon kB s) : Canon kB (State.noteRetry s key a) := by
  unfold State.noteRetry
  repeat' first | (with_reducible assumption) | (with_reducible apply canon_foldl) | (simp only [canon_mk]) | (with_reducible apply canon7) | split | (intro _) | (dsimp only)
theorem State.onTxn_canon {s : State} {n txn act} (hC : Canon kB s) (ha : ∀ r m t, Canon kB t → Canon kB (act r m t)) : Canon kB (s.onTxn n txn act) := by
  unfold State.onTxn
  split
  · exact hC
  · exact ha _ _ _ (State.setPort_canon hC)
theorem State.openSession_canon {s : State} {slot x y flags} (hC : Canon kB s) : Canon kB (State.openSession s slot x y flags) := by
  unfold State.openSession
  repeat' first | (with_reducible assumption) | (with_reducible apply State.reckOpen_canon) | (with_reducible apply State.setSess_canon) | (with_reducible apply State.writeLog_canon) | (with_reducible apply State.writePlanObj_canon) | (with_reducible apply State.writeTable_canon) | (with_reducible apply canon_foldl) | (simp only [canon_mk]) | (with_reducible apply canon7) | (simp only [VCell.go_local, VCell.setLane_local, VCell.writeLanes_local, VCell.setA_local, VCell.setPred_local, VCell.flag_local, VCell.setStatus_local, VCell.writeSr_local, SCell.go_local, SCell.jump_local, SCell.setR_local]) | (with_reducible apply Memory.wf_writeL) | (with_reducible apply vcell_local) | (with_reducible apply scell_local) | (exact vReady_local hC (by assumption) (by assumption)) | (exact sReady_local hC (by assumption) (by assumption)) | (exact rfl) | split | (intro _) | (dsimp only)
theorem State.outputSlots_canon {s : State} {node out n} (hC : Canon kB s) : Canon kB (s.outputSlots node out n) := by
  induction n generalizing s with
  | zero => exact hC
  | succ n ih =>
    unfold State.outputSlots
    dsimp only
    apply ih
    split
    · exact State.leaveNode_canon hC
    · exact hC
theorem State.outputs_canon {s : State} (hC : Canon kB s) : Canon kB s.outputs := canon_foldl hC fun _ _ h => State.outputSlots_canon h
theorem State.partnerLoss_canon {s : State} {n} (hC : Canon kB s) : Canon kB (State.partnerLoss s n) := by
  unfold State.partnerLoss
  repeat' first | (with_reducible assumption) | (with_reducible apply State.linkEvent_canon) | (with_reducible apply State.portDown_canon) | (with_reducible apply canon_foldl) | (simp only [canon_mk]) | (with_reducible apply canon7) | split | (intro _) | (dsimp only)
theorem State.passRow_canon {s : State} {r token} (hC : Canon kB s) : Canon kB (State.passRow s r token) := by
  unfold State.passRow
  repeat' first | (with_reducible assumption) | (with_reducible apply State.setSess_canon) | (with_reducible apply canon_foldl) | (simp only [canon_mk]) | (with_reducible apply canon7) | (simp only [VCell.go_local, VCell.setLane_local, VCell.writeLanes_local, VCell.setA_local, VCell.setPred_local, VCell.flag_local, VCell.setStatus_local, VCell.writeSr_local, SCell.go_local, SCell.jump_local, SCell.setR_local]) | (with_reducible apply Memory.wf_writeL) | (with_reducible apply vcell_local) | (with_reducible apply scell_local) | (exact vReady_local hC (by assumption) (by assumption)) | (exact sReady_local hC (by assumption) (by assumption)) | (exact rfl) | split | (intro _) | (dsimp only)
theorem State.performCommit_canon {s : State} {e x st t} (hC : Canon kB s) : Canon kB (s.performCommit e x st t) := by
  unfold State.performCommit
  repeat' first | (with_reducible assumption) | (with_reducible apply State.leaveIfAsked_canon) | (with_reducible apply State.setStation_canon) | (with_reducible apply State.setEngine_canon) | (with_reducible apply canon_foldl) | (with_reducible apply State.launch_canon) | (with_reducible apply State.fenceAction_canon) | (with_reducible apply State.reckLast_canon) | (with_reducible apply State.noOutput_canon) | (simp only [canon_mk]) | (with_reducible apply canon7) | (intro _) | split | (dsimp only)
theorem State.setLease_canon {s : State} {k l} (hC : Canon kB s) : Canon kB (State.setLease s k l) := by
  unfold State.setLease
  repeat' first | (with_reducible assumption) | (with_reducible apply canon_foldl) | (simp only [canon_mk]) | (with_reducible apply canon7) | split | (intro _) | (dsimp only)
theorem State.placeSession_canon {s t : State} {p im gen n} (hC : Canon kB s) (ht : s.placeSession p im gen n = some t) : Canon kB t := by
  unfold State.placeSession at ht
  dsimp only at ht
  repeat' (split at ht)
  all_goals first | (cases ht; done) | skip
  all_goals (simp only [Option.some.injEq] at ht; subst ht)
  repeat' first | (with_reducible assumption) | (with_reducible apply State.setLease_canon) | (with_reducible apply canon_foldl) | (with_reducible apply State.writePlanObj_canon) | (with_reducible apply State.grantPages_canon) | (with_reducible apply State.openSession_canon) | (with_reducible apply State.order_canon) | (simp only [canon_mk]) | (with_reducible apply canon7) | (intro _) | (dsimp only)
theorem State.poisonLine_canon {s : State} {line} (hC : Canon kB s) : Canon kB (State.poisonLine s line) := by
  unfold State.poisonLine
  repeat' first | (with_reducible assumption) | (with_reducible apply State.event_canon) | (with_reducible apply State.loseDimm_canon) | (with_reducible apply State.opEvent_canon) | (with_reducible apply State.setCtrl_canon) | (with_reducible apply canon_foldl) | (simp only [canon_mk]) | (with_reducible apply canon7) | split | (intro _) | (dsimp only)
theorem State.popInput_canon {s : State} {p id i} (hC : Canon kB s) : Canon kB (State.popInput s p id i) := by
  unfold State.popInput
  repeat' first | (with_reducible assumption) | (with_reducible apply State.setQueue_canon) | (with_reducible apply State.setStation_canon) | (with_reducible apply canon_foldl) | (simp only [canon_mk]) | (with_reducible apply canon7) | (simp only [VCell.go_local, VCell.setLane_local, VCell.writeLanes_local, VCell.setA_local, VCell.setPred_local, VCell.flag_local, VCell.setStatus_local, VCell.writeSr_local, SCell.go_local, SCell.jump_local, SCell.setR_local]) | (with_reducible apply Memory.wf_writeL) | (with_reducible apply vcell_local) | (with_reducible apply scell_local) | (exact vReady_local hC (by assumption) (by assumption)) | (exact sReady_local hC (by assumption) (by assumption)) | (exact rfl) | split | (intro _) | (dsimp only)
theorem State.powerLoss_canon {s : State} (hC : Canon kB s) : Canon kB (State.powerLoss s) := by
  unfold State.powerLoss
  repeat' first | (with_reducible assumption) | (with_reducible apply State.deviceReset_canon) | (with_reducible apply State.drive_canon) | (with_reducible apply canon_foldl) | (simp only [canon_mk]) | (with_reducible apply canon7) | split | (intro _) | (dsimp only)
theorem State.profileBlock_canon {s : State} {m} (hC : Canon kB s) : Canon kB (State.profileBlock s m) := by
  unfold State.profileBlock
  repeat' first | (with_reducible assumption) | (with_reducible apply canon_foldl) | (simp only [canon_mk]) | (with_reducible apply canon7) | split | (intro _) | (dsimp only)
theorem State.reVolt_canon {s : State} {k} (hC : Canon kB s) : Canon kB (State.reVolt s k) := by
  unfold State.reVolt
  repeat' first | (with_reducible assumption) | (with_reducible apply State.setVolt_canon) | (with_reducible apply canon_foldl) | (simp only [canon_mk]) | (with_reducible apply canon7) | (simp only [VCell.go_local, VCell.setLane_local, VCell.writeLanes_local, VCell.setA_local, VCell.setPred_local, VCell.flag_local, VCell.setStatus_local, VCell.writeSr_local, SCell.go_local, SCell.jump_local, SCell.setR_local]) | (with_reducible apply Memory.wf_writeL) | (with_reducible apply vcell_local) | (with_reducible apply scell_local) | (exact vReady_local hC (by assumption) (by assumption)) | (exact sReady_local hC (by assumption) (by assumption)) | (exact rfl) | split | (intro _) | (dsimp only)
theorem State.reckStepDone_canon {s : State} {p id rows} (hC : Canon kB s) : Canon kB (State.reckStepDone s p id rows) := by
  unfold State.reckStepDone
  repeat' first | (with_reducible assumption) | (with_reducible apply canon_foldl) | (simp only [canon_mk]) | (with_reducible apply canon7) | split | (intro _) | (dsimp only)
theorem State.shareWindow_canon {s : State} {p direct} (hC : Canon kB s) : Canon kB (State.shareWindow s p direct).1 := by
  unfold State.shareWindow
  repeat' first | (with_reducible assumption) | (with_reducible apply State.addAccount_canon) | (with_reducible apply State.updLeaves_canon) | (with_reducible apply canon_foldl) | (simp only [canon_mk]) | (with_reducible apply canon7) | split | (intro _) | (dsimp only)
theorem State.reconcile_canon {s : State} {ch} (hC : Canon kB s) : Canon kB (s.reconcile ch) := by
  unfold State.reconcile
  repeat' first | (with_reducible assumption) | (with_reducible apply State.addAccount_canon) | (with_reducible apply canon_foldl_fst) | (with_reducible apply State.shareWindow_canon) | (with_reducible apply canon_foldl) | (with_reducible apply State.divideStep_canon) | (with_reducible apply State.charge_canon) | (simp only [canon_mk]) | (with_reducible apply canon7) | (intro _) | (dsimp only)
theorem State.rejectStart_canon {s : State} {e x st t c} (hC : Canon kB s) : Canon kB (State.rejectStart s e x st t c) := by
  unfold State.rejectStart
  repeat' first | (with_reducible assumption) | (with_reducible apply State.dropStart_canon) | (with_reducible apply State.reject_canon) | (with_reducible apply canon_foldl) | (simp only [canon_mk]) | (with_reducible apply canon7) | split | (intro _) | (dsimp only)
theorem State.releaseBlock_canon {s : State} {x} (hC : Canon kB s) : Canon kB (State.releaseBlock s x) := by
  unfold State.releaseBlock
  repeat' first | (with_reducible assumption) | (with_reducible apply State.delEngine_canon) | (with_reducible apply State.updBlock_canon) | (with_reducible apply State.updPart_canon) | (with_reducible apply canon_foldl) | (simp only [canon_mk]) | (with_reducible apply canon7) | split | (intro _) | (dsimp only)
theorem State.repeatNext_canon {s : State} {next n} (hC : Canon kB s) (hn : ∀ s t, Canon kB s → next s = some t → Canon kB t) : Canon kB (s.repeatNext next n) := by
  induction n generalizing s with
  | zero => exact hC
  | succ n ih =>
    unfold State.repeatNext
    split
    · rename_i e; exact ih (hn _ _ hC e)
    · exact hC
theorem State.replay_canon {s : State} {hop flit} (hC : Canon kB s) : Canon kB (State.replay s hop flit) := by
  unfold State.replay
  repeat' first | (with_reducible assumption) | (with_reducible apply State.setCrier_canon) | (with_reducible apply State.updFlit_canon) | (with_reducible apply canon_foldl) | (simp only [canon_mk]) | (with_reducible apply canon7) | split | (intro _) | (dsimp only)
theorem State.request_canon {s : State} {n part txn addr length use body} (hC : Canon kB s) : Canon kB (State.request s n part txn addr length use body) := by
  unfold State.request
  repeat' first | (with_reducible assumption) | (with_reducible apply State.emitOut_canon) | (with_reducible apply State.sendMsg_canon) | (with_reducible apply State.setPort_canon) | (with_reducible apply canon_foldl) | (simp only [canon_mk]) | (with_reducible apply canon7) | split | (intro _) | (dsimp only)
theorem State.resumeSession_canon {s : State} {node p oldHandle x} (hC : Canon kB s) : Canon kB (State.resumeSession s node p oldHandle x) := by
  unfold State.resumeSession
  repeat' first | (with_reducible assumption) | (with_reducible apply State.event_canon) | (with_reducible apply State.grantPages_canon) | (with_reducible apply State.mirrorSession_canon) | (with_reducible apply State.openSession_canon) | (with_reducible apply State.order_canon) | (with_reducible apply canon_foldl) | (simp only [canon_mk]) | (with_reducible apply canon7) | (refine canon_fst (by assumption) ?_) | (refine canon_snd (by assumption) ?_) | split | (intro _) | (dsimp only)
theorem State.retireSoon_canon {s : State} {c cause} (hC : Canon kB s) : Canon kB (State.retireSoon s c cause) := by
  unfold State.retireSoon
  repeat' first | (with_reducible assumption) | (with_reducible apply State.queueReset_canon) | (with_reducible apply State.retireCell_canon) | (with_reducible apply canon_foldl) | (simp only [canon_mk]) | (with_reducible apply canon7) | split | (intro _) | (dsimp only)
theorem State.roomAt_canon {s : State} {cq} (hC : Canon kB s) : Canon kB (State.roomAt s cq) := by
  unfold State.roomAt
  repeat' first | (with_reducible assumption) | (with_reducible apply State.flushOut_canon) | (with_reducible apply State.skipBad_canon) | (with_reducible apply State.tryEnd_canon) | (with_reducible apply canon_foldl) | (simp only [canon_mk]) | (with_reducible apply canon7) | split | (intro _) | (dsimp only)
theorem State.rowRetry_canon {s : State} {f} (hC : Canon kB s) : Canon kB (State.rowRetry s f) := by
  unfold State.rowRetry
  repeat' first | (with_reducible assumption) | (with_reducible apply State.memIn_canon) | (with_reducible apply canon_foldl) | (simp only [canon_mk]) | (with_reducible apply canon7) | split | (intro _) | (dsimp only)
theorem State.sAlu_canon {s : State} {c op lat regs f} (hC : Canon kB s) : Canon kB (State.sAlu s c op lat regs f) := by
  unfold State.sAlu
  repeat' first | (with_reducible assumption) | (with_reducible apply State.setS_canon) | (with_reducible apply canon_foldl) | (simp only [canon_mk]) | (with_reducible apply canon7) | (simp only [VCell.go_local, VCell.setLane_local, VCell.writeLanes_local, VCell.setA_local, VCell.setPred_local, VCell.flag_local, VCell.setStatus_local, VCell.writeSr_local, SCell.go_local, SCell.jump_local, SCell.setR_local]) | (with_reducible apply Memory.wf_writeL) | (with_reducible apply vcell_local) | (with_reducible apply scell_local) | (exact vReady_local hC (by assumption) (by assumption)) | (exact sReady_local hC (by assumption) (by assumption)) | (exact rfl) | split | (intro _) | (dsimp only)
theorem State.sEmit_canon {s : State} {c sub keepF} (hC : Canon kB s) : Canon kB (State.sEmit s c sub keepF) := by
  unfold State.sEmit
  repeat' first | (with_reducible assumption) | (with_reducible apply SEnv.fault_canon) | (with_reducible apply State.addEmit_canon) | (with_reducible apply State.setS_canon) | (with_reducible apply canon_foldl) | (simp only [canon_mk]) | (with_reducible apply canon7) | (refine canon_fst (by assumption) ?_) | (simp only [VCell.go_local, VCell.setLane_local, VCell.writeLanes_local, VCell.setA_local, VCell.setPred_local, VCell.flag_local, VCell.setStatus_local, VCell.writeSr_local, SCell.go_local, SCell.jump_local, SCell.setR_local]) | (with_reducible apply Memory.wf_writeL) | (with_reducible apply vcell_local) | (with_reducible apply scell_local) | (exact vReady_local hC (by assumption) (by assumption)) | (exact sReady_local hC (by assumption) (by assumption)) | (exact rfl) | split | (intro _) | (dsimp only)
theorem State.sLoad_canon {s : State} {c op signed} (hC : Canon kB s) : Canon kB (State.sLoad s c op signed) := by
  unfold State.sLoad
  repeat' first | (with_reducible assumption) | (with_reducible apply SEnv.fault_canon) | (with_reducible apply State.addAccess_canon) | (with_reducible apply State.addViolation_canon) | (with_reducible apply State.setS_canon) | (with_reducible apply canon_foldl) | (simp only [canon_mk]) | (with_reducible apply canon7) | (simp only [VCell.go_local, VCell.setLane_local, VCell.writeLanes_local, VCell.setA_local, VCell.setPred_local, VCell.flag_local, VCell.setStatus_local, VCell.writeSr_local, SCell.go_local, SCell.jump_local, SCell.setR_local]) | (with_reducible apply Memory.wf_writeL) | (with_reducible apply vcell_local) | (with_reducible apply scell_local) | (exact vReady_local hC (by assumption) (by assumption)) | (exact sReady_local hC (by assumption) (by assumption)) | (exact rfl) | split | (intro _) | (dsimp only)
theorem State.sendChunk_canon {s : State} {node transfer n c} (hC : Canon kB s) : Canon kB (State.sendChunk s node transfer n c) := by
  unfold State.sendChunk
  repeat' first | (with_reducible assumption) | (with_reducible apply State.emitOut_canon) | (with_reducible apply canon_foldl) | (simp only [canon_mk]) | (with_reducible apply canon7) | split | (intro _) | (dsimp only)
theorem State.sendNotice_canon {s : State} {cause} (hC : Canon kB s) : Canon kB (State.sendNotice s cause) := by
  unfold State.sendNotice
  repeat' first | (with_reducible assumption) | (with_reducible apply State.emitOut_canon) | (with_reducible apply canon_foldl) | (simp only [canon_mk]) | (with_reducible apply canon7) | split | (intro _) | (dsimp only)
theorem State.sendParts_canon {s : State} {m item b} (hC : Canon kB s) : Canon kB (State.sendParts s m item b) := by
  unfold State.sendParts
  repeat' first | (with_reducible assumption) | (with_reducible apply State.emitOut_canon) | (with_reducible apply canon_foldl) | (simp only [canon_mk]) | (with_reducible apply canon7) | split | (intro _) | (dsimp only)
theorem State.sendTransfer_canon {s : State} {node transfer l} (hC : Canon kB s) : Canon kB (State.sendTransfer s node transfer l) := by
  unfold State.sendTransfer
  repeat' first | (with_reducible assumption) | (with_reducible apply State.sendChunk_canon) | (with_reducible apply canon_foldl) | (simp only [canon_mk]) | (with_reducible apply canon7) | split | (intro _) | (dsimp only)
theorem State.sendSections_canon {s : State} {o dirty frozen} (hC : Canon kB s) : Canon kB (State.sendSections s o dirty frozen) := by
  unfold State.sendSections
  repeat' first | (with_reducible assumption) | (with_reducible apply State.sendTransfer_canon) | (with_reducible apply canon_foldl) | (simp only [canon_mk]) | (with_reducible apply canon7) | split | (intro _) | (dsimp only)
theorem State.sendSaves_canon {s : State} (hC : Canon kB s) : Canon kB (State.sendSaves s) := by
  unfold State.sendSaves
  repeat' first | (with_reducible assumption) | (with_reducible apply State.abandonPart_canon) | (with_reducible apply State.returnStuck_canon) | (with_reducible apply State.sendSections_canon) | (with_reducible apply canon_foldl) | (simp only [canon_mk]) | (with_reducible apply canon7) | split | (intro _) | (dsimp only)
theorem State.served_canon {s : State} {cls p} (hC : Canon kB s) : Canon kB (State.served s cls p) := by
  unfold State.served
  repeat' first | (with_reducible assumption) | (with_reducible apply canon_foldl) | (simp only [canon_mk]) | (with_reducible apply canon7) | split | (intro _) | (dsimp only)
theorem State.setCancel_canon {s : State} {p t} (hC : Canon kB s) : Canon kB (State.setCancel s p t) := by
  unfold State.setCancel
  repeat' first | (with_reducible assumption) | (with_reducible apply canon_foldl) | (simp only [canon_mk]) | (with_reducible apply canon7) | split | (intro _) | (dsimp only)
theorem State.setColl_canon {s : State} {n c} (hC : Canon kB s) : Canon kB (State.setColl s n c) := by
  unfold State.setColl
  repeat' first | (with_reducible assumption) | (with_reducible apply canon_foldl) | (simp only [canon_mk]) | (with_reducible apply canon7) | split | (intro _) | (dsimp only)
theorem State.setConsumers_canon {s : State} {mk qs} (hC : Canon kB s) : Canon kB (State.setConsumers s mk qs) := by
  unfold State.setConsumers
  repeat' first | (with_reducible assumption) | (with_reducible apply State.setQueue_canon) | (with_reducible apply canon_foldl) | (simp only [canon_mk]) | (with_reducible apply canon7) | split | (intro _) | (dsimp only)
theorem State.setDisp'_canon {s : State} {e d} (hC : Canon kB s) : Canon kB (State.setDisp' s e d) := by
  unfold State.setDisp'
  repeat' first | (with_reducible assumption) | (with_reducible apply canon_foldl) | (simp only [canon_mk]) | (with_reducible apply canon7) | split | (intro _) | (dsimp only)
theorem State.setHolding_canon {s : State} {h x} (hC : Canon kB s) : Canon kB (State.setHolding s h x) := by
  unfold State.setHolding
  repeat' first | (with_reducible assumption) | (with_reducible apply canon_foldl) | (simp only [canon_mk]) | (with_reducible apply canon7) | split | (intro _) | (dsimp only)
theorem State.setHome_canon {s : State} {k h} (hC : Canon kB s) : Canon kB (State.setHome s k h) := by
  unfold State.setHome
  repeat' first | (with_reducible assumption) | (with_reducible apply canon_foldl) | (simp only [canon_mk]) | (with_reducible apply canon7) | split | (intro _) | (dsimp only)
theorem State.setIncoming_canon {s : State} {i} (hC : Canon kB s) : Canon kB (State.setIncoming s i) := by
  unfold State.setIncoming
  repeat' first | (with_reducible assumption) | (with_reducible apply canon_foldl) | (simp only [canon_mk]) | (with_reducible apply canon7) | split | (intro _) | (dsimp only)
theorem State.setMove_canon {s : State} {v} (hC : Canon kB s) : Canon kB (State.setMove s v) := by
  unfold State.setMove
  repeat' first | (with_reducible assumption) | (with_reducible apply canon_foldl) | (simp only [canon_mk]) | (with_reducible apply canon7) | split | (intro _) | (dsimp only)
theorem State.setOut_canon {s : State} {o o'} (hC : Canon kB s) : Canon kB (State.setOut s o o') := by
  unfold State.setOut
  repeat' first | (with_reducible assumption) | (with_reducible apply canon_foldl) | (simp only [canon_mk]) | (with_reducible apply canon7) | split | (intro _) | (dsimp only)
theorem State.settleRobbed_canon {s : State} {rows} (hC : Canon kB s) : Canon kB (State.settleRobbed s rows) := by
  unfold State.settleRobbed
  repeat' first | (with_reducible assumption) | (with_reducible apply State.freeSessPages_canon) | (with_reducible apply canon_foldl) | (simp only [canon_mk]) | (with_reducible apply canon7) | split | (intro _) | (dsimp only)
theorem State.sliceWrite_canon {s : State} {b off l} (hC : Canon kB s) : Canon kB (s.sliceWrite b off l) := by
  unfold State.sliceWrite
  split
  · exact hC
  · exact { hC with sl := fun hm => Memory.wf_writeL (hC.sl hm) _ _ }
theorem State.spineCycle_canon {s : State} (hC : Canon kB s) : Canon kB (State.spineCycle s) := by
  unfold State.spineCycle
  repeat' first | (with_reducible assumption) | (with_reducible apply State.arrivals_canon) | (with_reducible apply State.busCycle_canon) | (with_reducible apply State.endAccesses_canon) | (with_reducible apply State.endStreams_canon) | (with_reducible apply State.enterAll_canon) | (with_reducible apply State.issueTxns_canon) | (with_reducible apply State.outputs_canon) | (with_reducible apply canon_foldl) | (simp only [canon_mk]) | (with_reducible apply canon7) | split | (intro _) | (dsimp only)
theorem State.spineRun_canon {s : State} {n} (hC : Canon kB s) : Canon kB (s.spineRun n) := by
  induction n generalizing s with
  | zero => exact hC
  | succ n ih =>
    unfold State.spineRun
    split
    · exact hC
    · exact ih (State.spineCycle_canon hC)
theorem State.tryOffer_canon {s : State} {slot} (hC : Canon kB s) : Canon kB (State.tryOffer s slot) := by
  unfold State.tryOffer
  repeat' first | (with_reducible assumption) | (with_reducible apply State.emitOut_canon) | (with_reducible apply State.sendTransfer_canon) | (with_reducible apply canon_foldl) | (simp only [canon_mk]) | (with_reducible apply canon7) | split | (intro _) | (dsimp only)
theorem State.stepDone_canon {s : State} {k n} (hC : Canon kB s) : Canon kB (State.stepDone s k n) := by
  unfold State.stepDone
  repeat' first | (with_reducible assumption) | (with_reducible apply State.reckStepDone_canon) | (with_reducible apply State.setPlan_canon) | (with_reducible apply State.settleRobbed_canon) | (with_reducible apply State.tryOffer_canon) | (with_reducible apply canon_foldl) | (simp only [canon_mk]) | (with_reducible apply canon7) | split | (intro _) | (dsimp only)
theorem State.tryStepDone_canon {s : State} {k n} (hC : Canon kB s) : Canon kB (State.tryStepDone s k n) := by
  unfold State.tryStepDone
  repeat' first | (with_reducible assumption) | (with_reducible apply State.stepDone_canon) | (with_reducible apply canon_foldl) | (simp only [canon_mk]) | (with_reducible apply canon7) | split | (intro _) | (dsimp only)
theorem State.stepResult_canon {s : State} {k y w} (hC : Canon kB s) : Canon kB (State.stepResult s k y w) := by
  unfold State.stepResult
  repeat' first | (with_reducible assumption) | (with_reducible apply State.failRow_canon) | (with_reducible apply State.markRow_canon) | (with_reducible apply State.passRow_canon) | (with_reducible apply State.tryStepDone_canon) | (with_reducible apply canon_foldl) | (simp only [canon_mk]) | (with_reducible apply canon7) | split | (intro _) | (dsimp only)
theorem State.sweepNext_canon {s t : State} {p ch} (hC : Canon kB s) (ht : s.sweepNext p ch = some t) : Canon kB t := by
  unfold State.sweepNext at ht
  repeat' (split at ht)
  all_goals first
    | (cases ht; done)
    | (obtain ⟨u, hu, rfl⟩ := Option.map_eq_some_iff.1 ht
       first | exact State.setSweep_canon (State.tryEnter_canon hC hu) | exact State.setRekey_canon (State.tryEnter_canon hC hu))
theorem State.switchBlock_canon {s : State} {v} (hC : Canon kB s) : Canon kB (s.switchBlock v) := by
  unfold State.switchBlock
  extract_lets fe fc fb retired
  refine { hC with sl := fun hm => Memory.wf_copyRange _ _ (hC.sl hm) _, v := fun hm => vlocals_move (hC.v hm), sc := fun hm => slocals_move ?_ }
  exact slocals_all (hC.sc hm) fun _ x h => by split <;> exact h
theorem State.switchEffect_canon {s : State} {ty unit} (hC : Canon kB s) : Canon kB (s.switchEffect ty unit) := by
  unfold State.switchEffect
  split
  · exact hC
  · exact hC
theorem State.takeMsg_canon {s : State} {m cls p f} (hC : Canon kB s) (hf : ∀ t, Canon kB t → Canon kB (f t)) : Canon kB (s.takeMsg m cls p f) := by
  unfold State.takeMsg
  repeat' first | (with_reducible assumption) | (with_reducible apply State.answerMsg_canon) | (with_reducible apply State.noteRetry_canon) | (with_reducible apply State.served_canon) | (with_reducible apply State.enqueueReq_canon) | (with_reducible apply State.leaveQueue_canon) | (with_reducible apply hf) | split
theorem State.tickDoze_canon {s : State} (hC : Canon kB s) : Canon kB (State.tickDoze s) := by
  unfold State.tickDoze
  repeat' first | (with_reducible assumption) | (with_reducible apply State.enterDoze_canon) | (with_reducible apply canon_foldl) | (simp only [canon_mk]) | (with_reducible apply canon7) | split | (intro _) | (dsimp only)
theorem State.tickReset_canon {s : State} (hC : Canon kB s) : Canon kB (State.tickReset s) := by
  unfold State.tickReset
  repeat' first | (with_reducible assumption) | (with_reducible apply State.deviceReset_canon) | (with_reducible apply State.drive_canon) | (with_reducible apply canon_foldl) | (simp only [canon_mk]) | (with_reducible apply canon7) | split | (intro _) | (dsimp only)
theorem State.tickHours_canon {s : State} (hC : Canon kB s) : Canon kB s.tickHours := by
  refine { hC with hours := ?_ }
  show _ ∨ kB.hours ≤ if _ then _ else _
  split
  · exact hC.hours.imp id Nat.le_succ_of_le
  · exact hC.hours
theorem State.tickStalls_canon {s : State} (hC : Canon kB s) : Canon kB (State.tickStalls s) := by
  unfold State.tickStalls
  repeat' first | (with_reducible assumption) | (with_reducible apply canon_foldl) | (simp only [canon_mk]) | (with_reducible apply canon7) | split | (intro _) | (dsimp only)
theorem State.tickWatchdogs_canon {s : State} (hC : Canon kB s) : Canon kB (State.tickWatchdogs s) := by
  unfold State.tickWatchdogs
  repeat' first | (with_reducible assumption) | (with_reducible apply canon_foldl) | (simp only [canon_mk]) | (with_reducible apply canon7) | split | (intro _) | (dsimp only)
theorem State.tickTime_canon {s : State} (hC : Canon kB s) : Canon kB (State.tickTime s) := by
  unfold State.tickTime
  repeat' first | (with_reducible assumption) | (with_reducible apply canon_foldl) | (simp only [canon_mk]) | (with_reducible apply canon7) | split | (intro _) | (dsimp only)
theorem State.tickCounters_canon {s : State} (hC : Canon kB s) : Canon kB (State.tickCounters s) := by
  unfold State.tickCounters
  repeat' first | (with_reducible assumption) | (with_reducible apply canon_foldl) | (simp only [canon_mk]) | (with_reducible apply canon7) | split | (intro _) | (dsimp only)
theorem State.tick_canon {s : State} (hC : Canon kB s) : Canon kB (State.tick s) := by
  unfold State.tick
  repeat' first | (with_reducible assumption) | (with_reducible apply State.fuse_canon) | (with_reducible apply State.healSessions_canon) | (with_reducible apply State.issueReads_canon) | (with_reducible apply State.runResets_canon) | (with_reducible apply State.sendSaves_canon) | (with_reducible apply State.spineRun_canon) | (with_reducible apply State.tickCounters_canon) | (with_reducible apply State.tickDoze_canon) | (with_reducible apply State.tickHours_canon) | (with_reducible apply State.tickReset_canon) | (with_reducible apply State.tickStalls_canon) | (with_reducible apply State.tickTime_canon) | (with_reducible apply State.tickWatchdogs_canon) | (with_reducible apply canon_foldl) | (simp only [canon_mk]) | (with_reducible apply canon7) | split | (intro _) | (dsimp only)
theorem State.wipeNext_canon {s t : State} {p ch} (hC : Canon kB s) (ht : s.wipeNext p ch = some t) : Canon kB t := by
  unfold State.wipeNext at ht
  dsimp only at ht
  repeat' (split at ht)
  all_goals first
    | (cases ht; done)
    | (obtain ⟨u, hu, rfl⟩ := Option.map_eq_some_iff.1 ht; have h := State.tryEnter_canon hC hu; exact h)
theorem State.topUp_canon {s : State} {ch} (hC : Canon kB s) : Canon kB (s.topUp ch) := by
  unfold State.topUp
  exact canon_foldl (canon_foldl (State.pushRows_canon hC) fun _ _ h => State.repeatNext_canon h fun _ _ h e => State.sweepNext_canon h e)
    fun _ _ h => State.repeatNext_canon h fun _ _ h e => State.wipeNext_canon h e
theorem State.trainFail_canon {s : State} {n code} (hC : Canon kB s) : Canon kB (State.trainFail s n code) := by
  unfold State.trainFail
  repeat' first | (with_reducible assumption) | (with_reducible apply State.linkEvent_canon) | (with_reducible apply State.partnerLoss_canon) | (with_reducible apply State.portDown_canon) | (with_reducible apply State.updPort_canon) | (with_reducible apply canon_foldl) | (simp only [canon_mk]) | (with_reducible apply canon7) | split | (intro _) | (dsimp only)
theorem State.tryCommit_canon {s : State} {e} (hC : Canon kB s) : Canon kB (State.tryCommit s e) := by
  unfold State.tryCommit
  repeat' first | (with_reducible assumption) | (with_reducible apply State.abandonStart_canon) | (with_reducible apply State.countStall_canon) | (with_reducible apply State.performCommit_canon) | (with_reducible apply State.setEngine_canon) | (with_reducible apply canon_foldl) | (simp only [canon_mk]) | (with_reducible apply canon7) | split | (intro _) | (dsimp only)
theorem State.tryHeld_canon {s t : State} {o h} (hC : Canon kB s) (ht : s.tryHeld o h = some t) : Canon kB t := by
  unfold State.tryHeld at ht
  repeat' split at ht
  all_goals first | cases ht | skip
  all_goals first | exact State.performCommit_canon hC | (apply State.launch_canon; simp only [canon_mk]; exact canon7 hC)
theorem State.uncorrectable_canon {s : State} {ch line errs} (hC : Canon kB s) : Canon kB (State.uncorrectable s ch line errs) := by
  unfold State.uncorrectable
  repeat' first | (with_reducible assumption) | (with_reducible apply State.devFault_canon) | (with_reducible apply State.loseDimm_canon) | (with_reducible apply State.memEnter_canon) | (with_reducible apply State.poisonLine_canon) | (with_reducible apply State.setCtrl_canon) | (with_reducible apply canon_foldl) | (simp only [canon_mk]) | (with_reducible apply canon7) | split | (intro _) | (dsimp only)
theorem State.unitCommit_canon {s : State} {e} (hC : Canon kB s) : Canon kB (State.unitCommit s e) := by
  unfold State.unitCommit
  repeat' first | (with_reducible assumption) | (with_reducible apply State.tryCommit_canon) | (with_reducible apply canon_foldl) | (simp only [canon_mk]) | (with_reducible apply canon7) | split | (intro _) | (dsimp only)
theorem State.vLanes_canon {s : State} {c op n lat f} (hC : Canon kB s) : Canon kB (State.vLanes s c op n lat f) := by
  unfold State.vLanes
  repeat' first | (with_reducible assumption) | (with_reducible apply State.setV_canon) | (with_reducible apply canon_foldl) | (simp only [canon_mk]) | (with_reducible apply canon7) | (simp only [VCell.go_local, VCell.setLane_local, VCell.writeLanes_local, VCell.setA_local, VCell.setPred_local, VCell.flag_local, VCell.setStatus_local, VCell.writeSr_local, SCell.go_local, SCell.jump_local, SCell.setR_local]) | (with_reducible apply Memory.wf_writeL) | (with_reducible apply vcell_local) | (with_reducible apply scell_local) | (exact vReady_local hC (by assumption) (by assumption)) | (exact sReady_local hC (by assumption) (by assumption)) | (exact rfl) | split | (intro _) | (dsimp only)
theorem State.vWhole_canon {s : State} {c op n lat f} (hC : Canon kB s) : Canon kB (State.vWhole s c op n lat f) := by
  unfold State.vWhole
  repeat' first | (with_reducible assumption) | (with_reducible apply State.setV_canon) | (with_reducible apply canon_foldl) | (simp only [canon_mk]) | (with_reducible apply canon7) | (simp only [VCell.go_local, VCell.setLane_local, VCell.writeLanes_local, VCell.setA_local, VCell.setPred_local, VCell.flag_local, VCell.setStatus_local, VCell.writeSr_local, SCell.go_local, SCell.jump_local, SCell.setR_local]) | (with_reducible apply Memory.wf_writeL) | (with_reducible apply vcell_local) | (with_reducible apply scell_local) | (exact vReady_local hC (by assumption) (by assumption)) | (exact sReady_local hC (by assumption) (by assumption)) | (exact rfl) | split | (intro _) | (dsimp only)
theorem State.wake_canon {s : State} (hC : Canon kB s) : Canon kB (State.wake s) := by
  unfold State.wake
  repeat' first | (with_reducible assumption) | (with_reducible apply State.updPort_canon) | (with_reducible apply canon_foldl) | (simp only [canon_mk]) | (with_reducible apply canon7) | split | (intro _) | (dsimp only)
theorem State.winRefused_canon {s : State} {n q tag c} (hC : Canon kB s) : Canon kB (State.winRefused s n q tag c) := by
  unfold State.winRefused
  repeat' first | (with_reducible assumption) | (with_reducible apply State.event_canon) | (with_reducible apply State.freezeMaster_canon) | (with_reducible apply State.noteViolation_canon) | (with_reducible apply State.opEvent_canon) | (with_reducible apply State.respond_canon) | (with_reducible apply canon_foldl) | (simp only [canon_mk]) | (with_reducible apply canon7) | split | (intro _) | (dsimp only)
theorem State.winServe_canon {s : State} {n tag node q data amo} (hC : Canon kB s) : Canon kB (State.winServe s n tag node q data amo) := by
  unfold State.winServe
  repeat' first | (with_reducible assumption) | (with_reducible apply State.admitWin_canon) | (with_reducible apply State.respond_canon) | (with_reducible apply State.winRefused_canon) | (with_reducible apply canon_foldl) | (simp only [canon_mk]) | (with_reducible apply canon7) | split | (intro _) | (dsimp only)
theorem State.windowAnswer_canon {s : State} {e part va txn status body} (hC : Canon kB s) : Canon kB (State.windowAnswer s e part va txn status body) := by
  unfold State.windowAnswer
  repeat' first | (with_reducible assumption) | (with_reducible apply State.endRemote_canon) | (with_reducible apply State.programFault_canon) | (with_reducible apply State.xlateFault_canon) | (with_reducible apply canon_foldl) | (simp only [canon_mk]) | (with_reducible apply canon7) | split | (intro _) | (dsimp only)
theorem State.windowClose_canon {s : State} {id own ring ref} (hC : Canon kB s) : Canon kB (State.windowClose s id own ring ref).1 := by
  unfold State.windowClose
  repeat' first | (with_reducible assumption) | (with_reducible apply State.drainWindow_canon) | (with_reducible apply canon_foldl) | (simp only [canon_mk]) | (with_reducible apply canon7) | split | (intro _) | (dsimp only)
theorem State.windowOpen_canon {s : State} {id w ring ref} (hC : Canon kB s) : Canon kB (State.windowOpen s id w ring ref).1 := by
  unfold State.windowOpen
  repeat' first | (with_reducible assumption) | (with_reducible apply State.drainWindow_canon) | (with_reducible apply State.setWindow_canon) | (with_reducible apply canon_foldl) | (simp only [canon_mk]) | (with_reducible apply canon7) | split | (intro _) | (dsimp only)

theorem State.withStream_canon {s : State} {b k e write look} (hC : Canon kB s) : Canon kB (State.withStream s b k e write look) := by
  unfold State.withStream
  repeat' first | (with_reducible assumption) | (with_reducible apply State.setBtu_canon) | (with_reducible apply canon_foldl) | (simp only [canon_mk]) | (with_reducible apply canon7) | split | (intro _) | (dsimp only)
theorem State.withdrawFor_canon {s : State} {cause} (hC : Canon kB s) : Canon kB (State.withdrawFor s cause) := by
  unfold State.withdrawFor
  repeat' first | (with_reducible assumption) | (with_reducible apply State.abandonPart_canon) | (with_reducible apply State.event_canon) | (with_reducible apply State.freezePart_canon) | (with_reducible apply State.sendNotice_canon) | (with_reducible apply State.updPart_canon) | (with_reducible apply canon_foldl) | (simp only [canon_mk]) | (with_reducible apply canon7) | split | (intro _) | (dsimp only)
theorem State.writeLost_canon {s : State} {q r} (hC : Canon kB s) : Canon kB (State.writeLost s q r) := by
  unfold State.writeLost
  repeat' first | (with_reducible assumption) | (with_reducible apply State.writeRing_canon) | (with_reducible apply canon_foldl) | (simp only [canon_mk]) | (with_reducible apply canon7) | split | (intro _) | (dsimp only)
theorem State.writeEvent_canon {s : State} {e} (hC : Canon kB s) : Canon kB (State.writeEvent s e) := by
  unfold State.writeEvent
  repeat' first | (with_reducible assumption) | (with_reducible apply State.setRing_canon) | (with_reducible apply State.writeLost_canon) | (with_reducible apply State.writeRing_canon) | (with_reducible apply canon_foldl) | (simp only [canon_mk]) | (with_reducible apply canon7) | split | (intro _) | (dsimp only)
theorem VEnv.fault_canon {s : State} {v c addr} (hC : Canon kB s) : Canon kB (VEnv.fault v s c addr) := by
  unfold VEnv.fault
  repeat' first | (with_reducible assumption) | (with_reducible apply State.programFault_canon) | (with_reducible apply canon_foldl) | (simp only [canon_mk]) | (with_reducible apply canon7) | split | (intro _) | (dsimp only)
theorem VEnv.sliceLoad_canon {v : VEnv} {s : State} {t named off n r dest va} (hC : Canon kB s) (hv : kB.mem → Memory.wf v.x.local' = true) : Canon kB (v.sliceLoad s t named off n r dest va) := by
  unfold VEnv.sliceLoad
  repeat' first | (with_reducible assumption) | (with_reducible apply State.addViolation_canon) | (with_reducible apply State.addAccess_canon) | (with_reducible apply State.setV_canon) | split | (dsimp only)
theorem VEnv.sliceStore_canon {v : VEnv} {s : State} {t named off bytes fl va} (hC : Canon kB s) (hv : kB.mem → Memory.wf v.x.local' = true) : Canon kB (v.sliceStore s t named off bytes fl va) := by
  unfold VEnv.sliceStore
  repeat' first | (with_reducible assumption) | (with_reducible apply State.addViolation_canon) | (with_reducible apply State.addAccess_canon) | (with_reducible apply State.setV_canon) | (simp only [VCell.flag_local]) | split | (dsimp only)
theorem refuseM_canon {s : State} {c} (hC : Canon kB s) : Canon kB (refuseM s c).1 := by
  unfold refuseM
  repeat' first | (with_reducible assumption) | (with_reducible apply canon_foldl) | (simp only [canon_mk]) | (with_reducible apply canon7) | split | (intro _) | (dsimp only)
theorem okM_canon {s : State} {v} (hC : Canon kB s) : Canon kB (okM s v).1 := by
  unfold okM
  repeat' first | (with_reducible assumption) | (with_reducible apply canon_foldl) | (simp only [canon_mk]) | (with_reducible apply canon7) | split | (intro _) | (dsimp only)
theorem blockBindBody_canon {s : State} {r} (hC : Canon kB s) : Canon kB (blockBindBody r s).1 := by
  unfold blockBindBody
  repeat' first | (with_reducible assumption) | (with_reducible apply State.bindPower_canon) | (with_reducible apply State.setBlock_canon) | (with_reducible apply State.updPart_canon) | (with_reducible apply okM_canon) | (with_reducible apply refuseM_canon) | (with_reducible apply canon_foldl) | (simp only [canon_mk]) | (with_reducible apply canon7) | (refine canon_fst (by assumption) ?_) | split | (intro _) | (dsimp only)
theorem busyM_canon {s : State} {c} (hC : Canon kB s) : Canon kB (busyM s c).1 := by
  unfold busyM
  repeat' first | (with_reducible assumption) | (with_reducible apply canon_foldl) | (simp only [canon_mk]) | (with_reducible apply canon7) | split | (intro _) | (dsimp only)
theorem blockMoveBody_canon {s : State} {m r} (hC : Canon kB s) : Canon kB (blockMoveBody m r s).1 := by
  unfold blockMoveBody
  repeat' first | (with_reducible assumption) | (with_reducible apply State.advanceEpoch_canon) | (with_reducible apply State.updBlock_canon) | (with_reducible apply State.updPart_canon) | (with_reducible apply busyM_canon) | (with_reducible apply refuseM_canon) | (with_reducible apply canon_foldl) | (simp only [canon_mk]) | (with_reducible apply canon7) | (refine canon_fst (by assumption) ?_) | split | (intro _) | (dsimp only)
theorem blockReleaseBody_canon {s : State} {m r} (hC : Canon kB s) : Canon kB (blockReleaseBody m r s).1 := by
  unfold blockReleaseBody
  repeat' first | (with_reducible assumption) | (with_reducible apply State.advanceEpoch_canon) | (with_reducible apply busyM_canon) | (with_reducible apply refuseM_canon) | (with_reducible apply canon_foldl) | (simp only [canon_mk]) | (with_reducible apply canon7) | (refine canon_fst (by assumption) ?_) | split | (intro _) | (dsimp only)
theorem caravanDefineBody_canon {s : State} {r e} (hC : Canon kB s) : Canon kB (caravanDefineBody r e s).1 := by
  unfold caravanDefineBody
  repeat' first | (with_reducible assumption) | (with_reducible apply done_canon) | (with_reducible apply refuse_canon) | (with_reducible apply canon_foldl) | (simp only [canon_mk]) | (with_reducible apply canon7) | (refine canon_fst (by assumption) ?_) | split | (intro _) | (dsimp only)
theorem caravanReleaseBody_canon {s : State} {r e} (hC : Canon kB s) : Canon kB (caravanReleaseBody r e s).1 := by
  unfold caravanReleaseBody
  repeat' first | (with_reducible assumption) | (with_reducible apply done_canon) | (with_reducible apply refuse_canon) | (with_reducible apply canon_foldl) | (simp only [canon_mk]) | (with_reducible apply canon7) | (refine canon_fst (by assumption) ?_) | split | (intro _) | (dsimp only)
theorem channelShareBody_canon {s : State} {m r} (hC : Canon kB s) : Canon kB (channelShareBody m r s).1 := by
  unfold channelShareBody
  repeat' first | (with_reducible assumption) | (with_reducible apply State.updPart_canon) | (with_reducible apply refuseM_canon) | (with_reducible apply canon_foldl) | (simp only [canon_mk]) | (with_reducible apply canon7) | (refine canon_fst (by assumption) ?_) | split | (intro _) | (dsimp only)
theorem collectiveGroupBody_canon {s : State} {r} (hC : Canon kB s) : Canon kB (collectiveGroupBody r s).1 := by
  unfold collectiveGroupBody
  repeat' first | (with_reducible assumption) | (with_reducible apply State.memberLost_canon) | (with_reducible apply okM_canon) | (with_reducible apply refuseM_canon) | (with_reducible apply canon_foldl) | (simp only [canon_mk]) | (with_reducible apply canon7) | (refine canon_fst (by assumption) ?_) | split | (intro _) | (dsimp only)
theorem companionSetBody_canon {s : State} {r} (hC : Canon kB s) : Canon kB (companionSetBody r s).1 := by
  unfold companionSetBody
  repeat' first | (with_reducible assumption) | (with_reducible apply State.ackAll_canon) | (with_reducible apply State.mirrorSession_canon) | (with_reducible apply State.updPart_canon) | (with_reducible apply okM_canon) | (with_reducible apply refuseM_canon) | (with_reducible apply canon_foldl) | (simp only [canon_mk]) | (with_reducible apply canon7) | (refine canon_fst (by assumption) ?_) | split | (intro _) | (dsimp only)
theorem companionTakeoverBody_canon {s : State} {r} (hC : Canon kB s) : Canon kB (companionTakeoverBody r s).1 := by
  unfold companionTakeoverBody
  repeat' first | (with_reducible assumption) | (with_reducible apply State.resumeSession_canon) | (with_reducible apply State.setHolding_canon) | (with_reducible apply okM_canon) | (with_reducible apply refuseM_canon) | (with_reducible apply canon_foldl) | (simp only [canon_mk]) | (with_reducible apply canon7) | (refine canon_fst (by assumption) ?_) | split | (intro _) | (dsimp only)
theorem completeHeld_canon {o l} {s : State} (hC : Canon kB s) : Canon kB (completeHeld o l s) := by
  induction l generalizing s o with
  | nil => unfold completeHeld; exact hC
  | cons h l ih =>
    unfold completeHeld
    split
    · rename_i e; exact ih (State.tryHeld_canon hC e)
    · exact ih hC
theorem contextCreateBody_canon {s : State} {r e} (hC : Canon kB s) : Canon kB (contextCreateBody r e s).1 := by
  unfold contextCreateBody
  repeat' first | (with_reducible assumption) | (with_reducible apply done_canon) | (with_reducible apply refuse_canon) | (with_reducible apply canon_foldl) | (simp only [canon_mk]) | (with_reducible apply canon7) | (refine canon_fst (by assumption) ?_) | split | (intro _) | (dsimp only)
theorem contextRevokeBody_canon {s : State} {r e} (hC : Canon kB s) : Canon kB (contextRevokeBody r e s).1 := by
  unfold contextRevokeBody
  repeat' first | (with_reducible assumption) | (with_reducible apply State.revokeContext_canon) | (with_reducible apply refuse_canon) | (with_reducible apply canon_foldl) | (simp only [canon_mk]) | (with_reducible apply canon7) | (refine canon_fst (by assumption) ?_) | split | (intro _) | (dsimp only)
theorem debugBody_canon {s : State} {m r} (hC : Canon kB s) : Canon kB (debugBody m r s).1 := by
  unfold debugBody
  repeat' first | (with_reducible assumption) | (with_reducible apply State.dramWrite_canon) | (with_reducible apply okM_canon) | (with_reducible apply refuseM_canon) | (with_reducible apply canon_foldl) | (simp only [canon_mk]) | (with_reducible apply canon7) | (refine canon_fst (by assumption) ?_) | split | (intro _) | (dsimp only)
theorem evacuateBody_canon {s : State} {m r} (hC : Canon kB s) : Canon kB (evacuateBody m r s).1 := by
  unfold evacuateBody
  repeat' first | (with_reducible assumption) | (with_reducible apply State.abandonPart_canon) | (with_reducible apply State.addOutgoing_canon) | (with_reducible apply State.freezePart_canon) | (with_reducible apply State.sendSaves_canon) | (with_reducible apply State.updPart_canon) | (with_reducible apply refuseM_canon) | (with_reducible apply canon_foldl) | (simp only [canon_mk]) | (with_reducible apply canon7) | (refine canon_fst (by assumption) ?_) | split | (intro _) | (dsimp only)
theorem runCmd_canon {s : State} {q opcode record cls body} (hC : Canon kB s) (hb : ∀ e t, Canon kB t → Canon kB (body e t).1) : Canon kB (runCmd s q opcode record cls body) := by
  unfold runCmd
  repeat' first | (with_reducible assumption) | (with_reducible apply State.answerCmd_canon) | (with_reducible apply State.noteRetry_canon) | (with_reducible apply State.served_canon) | (with_reducible apply State.enqueueReq_canon) | (with_reducible apply State.leaveQueue_canon) | (with_reducible apply finishCmd_canon) | (with_reducible apply hb) | split | (dsimp only)
theorem memoryObjectCreateBody_canon {s : State} {r e} (hC : Canon kB s) : Canon kB (memoryObjectCreateBody r e s).1 := by
  unfold memoryObjectCreateBody
  repeat' first | (with_reducible assumption) | (with_reducible apply done_canon) | (with_reducible apply refuse_canon) | (with_reducible apply canon_foldl) | (simp only [canon_mk]) | (with_reducible apply canon7) | (refine canon_fst (by assumption) ?_) | split | (intro _) | (dsimp only)
theorem memoryObjectReleaseBody_canon {s : State} {r e} (hC : Canon kB s) : Canon kB (memoryObjectReleaseBody r e s).1 := by
  unfold memoryObjectReleaseBody
  repeat' first | (with_reducible assumption) | (with_reducible apply done_canon) | (with_reducible apply refuse_canon) | (with_reducible apply canon_foldl) | (simp only [canon_mk]) | (with_reducible apply canon7) | (refine canon_fst (by assumption) ?_) | split | (intro _) | (dsimp only)
theorem queueCreateBody_canon {s : State} {r e} (hC : Canon kB s) : Canon kB (queueCreateBody r e s).1 := by
  unfold queueCreateBody
  repeat' first | (with_reducible assumption) | (with_reducible apply State.setQueue_canon) | (with_reducible apply State.setRing_canon) | (with_reducible apply State.storeDesc_canon) | (with_reducible apply done_canon) | (with_reducible apply refuse_canon) | (with_reducible apply canon_foldl) | (simp only [canon_mk]) | (with_reducible apply canon7) | (refine canon_fst (by assumption) ?_) | split | (intro _) | (dsimp only)
theorem queueDestroyBody_canon {s : State} {r e} (hC : Canon kB s) : Canon kB (queueDestroyBody r e s).1 := by
  unfold queueDestroyBody
  repeat' first | (with_reducible assumption) | (with_reducible apply State.storeDesc_canon) | (with_reducible apply done_canon) | (with_reducible apply refuse_canon) | (with_reducible apply canon_foldl) | (simp only [canon_mk]) | (with_reducible apply canon7) | (refine canon_fst (by assumption) ?_) | split | (intro _) | (dsimp only)
theorem fenceCreateBody_canon {s : State} {r e} (hC : Canon kB s) : Canon kB (fenceCreateBody r e s).1 := by
  unfold fenceCreateBody
  repeat' first | (with_reducible assumption) | (with_reducible apply State.setFence_canon) | (with_reducible apply done_canon) | (with_reducible apply refuse_canon) | (with_reducible apply canon_foldl) | (simp only [canon_mk]) | (with_reducible apply canon7) | (refine canon_fst (by assumption) ?_) | split | (intro _) | (dsimp only)
theorem fenceReleaseBody_canon {s : State} {r e} (hC : Canon kB s) : Canon kB (fenceReleaseBody r e s).1 := by
  unfold fenceReleaseBody
  repeat' first | (with_reducible assumption) | (with_reducible apply State.answerWaiters_canon) | (with_reducible apply State.setFence_canon) | (with_reducible apply done_canon) | (with_reducible apply refuse_canon) | (with_reducible apply canon_foldl) | (simp only [canon_mk]) | (with_reducible apply canon7) | (refine canon_fst (by assumption) ?_) | split | (intro _) | (dsimp only)
theorem fenceSignalBody_canon {s : State} {r e} (hC : Canon kB s) : Canon kB (fenceSignalBody r e s).1 := by
  unfold fenceSignalBody
  repeat' first | (with_reducible assumption) | (with_reducible apply State.sendFence_canon) | (with_reducible apply refuse_canon) | (with_reducible apply canon_foldl) | (simp only [canon_mk]) | (with_reducible apply canon7) | (refine canon_fst (by assumption) ?_) | split | (intro _) | (dsimp only)
theorem fenceWaitBody_canon {s : State} {r e} (hC : Canon kB s) : Canon kB (fenceWaitBody r e s).1 := by
  unfold fenceWaitBody
  repeat' first | (with_reducible assumption) | (with_reducible apply State.sendFence_canon) | (with_reducible apply refuse_canon) | (with_reducible apply canon_foldl) | (simp only [canon_mk]) | (with_reducible apply canon7) | (refine canon_fst (by assumption) ?_) | split | (intro _) | (dsimp only)
theorem fenceResetBody_canon {s : State} {r e} (hC : Canon kB s) : Canon kB (fenceResetBody r e s).1 := by
  unfold fenceResetBody
  repeat' first | (with_reducible assumption) | (with_reducible apply State.abandonEntries_canon) | (with_reducible apply State.answerWaiters_canon) | (with_reducible apply State.sendFence_canon) | (with_reducible apply State.setFence_canon) | (with_reducible apply refuse_canon) | (with_reducible apply canon_foldl) | (simp only [canon_mk]) | (with_reducible apply canon7) | (refine canon_fst (by assumption) ?_) | split | (intro _) | (dsimp only)
theorem resultFetchBody_canon {s : State} {r e} (hC : Canon kB s) : Canon kB (resultFetchBody r e s).1 := by
  unfold resultFetchBody
  repeat' first | (with_reducible assumption) | (with_reducible apply State.sendFence_canon) | (with_reducible apply refuse_canon) | (with_reducible apply canon_foldl) | (simp only [canon_mk]) | (with_reducible apply canon7) | (refine canon_fst (by assumption) ?_) | split | (intro _) | (dsimp only)
theorem stationDefineBody_canon {s : State} {r e} (hC : Canon kB s) : Canon kB (stationDefineBody r e s).1 := by
  unfold stationDefineBody
  repeat' first | (with_reducible assumption) | (with_reducible apply State.setConsumers_canon) | (with_reducible apply State.setStation_canon) | (with_reducible apply done_canon) | (with_reducible apply refuse_canon) | (with_reducible apply canon_foldl) | (simp only [canon_mk]) | (with_reducible apply canon7) | (refine canon_fst (by assumption) ?_) | (simp only [VCell.go_local, VCell.setLane_local, VCell.writeLanes_local, VCell.setA_local, VCell.setPred_local, VCell.flag_local, VCell.setStatus_local, VCell.writeSr_local, SCell.go_local, SCell.jump_local, SCell.setR_local]) | (with_reducible apply Memory.wf_writeL) | (with_reducible apply vcell_local) | (with_reducible apply scell_local) | (exact vReady_local hC (by assumption) (by assumption)) | (exact sReady_local hC (by assumption) (by assumption)) | (exact rfl) | split | (intro _) | (dsimp only)
theorem stationBindBody_canon {s : State} {r env} (hC : Canon kB s) : Canon kB (stationBindBody r env s).1 := by
  unfold stationBindBody
  repeat' first | (with_reducible assumption) | (with_reducible apply State.bindNow_canon) | (with_reducible apply done_canon) | (with_reducible apply refuse_canon) | (with_reducible apply canon_foldl) | (simp only [canon_mk]) | (with_reducible apply canon7) | (refine canon_fst (by assumption) ?_) | (with_reducible apply canon_ite_fst) | split | (intro _) | (dsimp only)
theorem stationUnbindBody_canon {s : State} {r e} (hC : Canon kB s) : Canon kB (stationUnbindBody r e s).1 := by
  unfold stationUnbindBody
  repeat' first | (with_reducible assumption) | (with_reducible apply State.delEngine_canon) | (with_reducible apply State.setStation_canon) | (with_reducible apply refuse_canon) | (with_reducible apply canon_foldl) | (simp only [canon_mk]) | (with_reducible apply canon7) | (refine canon_fst (by assumption) ?_) | (simp only [VCell.go_local, VCell.setLane_local, VCell.writeLanes_local, VCell.setA_local, VCell.setPred_local, VCell.flag_local, VCell.setStatus_local, VCell.writeSr_local, SCell.go_local, SCell.jump_local, SCell.setR_local]) | (with_reducible apply Memory.wf_writeL) | (with_reducible apply vcell_local) | (with_reducible apply scell_local) | (exact vReady_local hC (by assumption) (by assumption)) | (exact sReady_local hC (by assumption) (by assumption)) | (exact rfl) | split | (intro _) | (dsimp only)
theorem stationPredicateBody_canon {s : State} {r e} (hC : Canon kB s) : Canon kB (stationPredicateBody r e s).1 := by
  unfold stationPredicateBody
  repeat' first | (with_reducible assumption) | (with_reducible apply State.post_canon) | (with_reducible apply State.setStation_canon) | (with_reducible apply done_canon) | (with_reducible apply refuse_canon) | (with_reducible apply canon_foldl) | (simp only [canon_mk]) | (with_reducible apply canon7) | (refine canon_fst (by assumption) ?_) | (simp only [VCell.go_local, VCell.setLane_local, VCell.writeLanes_local, VCell.setA_local, VCell.setPred_local, VCell.flag_local, VCell.setStatus_local, VCell.writeSr_local, SCell.go_local, SCell.jump_local, SCell.setR_local]) | (with_reducible apply Memory.wf_writeL) | (with_reducible apply vcell_local) | (with_reducible apply scell_local) | (exact vReady_local hC (by assumption) (by assumption)) | (exact sReady_local hC (by assumption) (by assumption)) | (exact rfl) | split | (intro _) | (dsimp only)
theorem waybillSubmitBody_canon {s : State} {r e} (hC : Canon kB s) : Canon kB (waybillSubmitBody r e s).1 := by
  unfold waybillSubmitBody
  repeat' first | (with_reducible assumption) | (with_reducible apply State.launch_canon) | (with_reducible apply done_canon) | (with_reducible apply refuse_canon) | (with_reducible apply canon_foldl) | (simp only [canon_mk]) | (with_reducible apply canon7) | (refine canon_fst (by assumption) ?_) | split | (intro _) | (dsimp only)
theorem stewardAppointBody_canon {s : State} {r e} (hC : Canon kB s) : Canon kB (stewardAppointBody r e s).1 := by
  unfold stewardAppointBody
  repeat' first | (with_reducible assumption) | (with_reducible apply State.freeConsumers_canon) | (with_reducible apply State.loadCell_canon) | (with_reducible apply State.setQueue_canon) | (with_reducible apply State.startSteward_canon) | (with_reducible apply State.takePlaces_canon) | (with_reducible apply done_canon) | (with_reducible apply refuse_canon) | (with_reducible apply canon_foldl) | (simp only [canon_mk]) | (with_reducible apply canon7) | (refine canon_fst (by assumption) ?_) | (with_reducible apply canon_ite_fst) | split | (intro _) | (dsimp only)
theorem stewardDismissBody_canon {s : State} {r e} (hC : Canon kB s) : Canon kB (stewardDismissBody r e s).1 := by
  unfold stewardDismissBody
  repeat' first | (with_reducible assumption) | (with_reducible apply State.setSteward_canon) | (with_reducible apply refuse_canon) | (with_reducible apply canon_foldl) | (simp only [canon_mk]) | (with_reducible apply canon7) | (refine canon_fst (by assumption) ?_) | (simp only [VCell.go_local, VCell.setLane_local, VCell.writeLanes_local, VCell.setA_local, VCell.setPred_local, VCell.flag_local, VCell.setStatus_local, VCell.writeSr_local, SCell.go_local, SCell.jump_local, SCell.setR_local]) | (with_reducible apply Memory.wf_writeL) | (with_reducible apply vcell_local) | (with_reducible apply scell_local) | (exact vReady_local hC (by assumption) (by assumption)) | (exact sReady_local hC (by assumption) (by assumption)) | (exact rfl) | split | (intro _) | (dsimp only)
theorem mirrorSyncBody_canon {s : State} {r e} (hC : Canon kB s) : Canon kB (mirrorSyncBody r e s).1 := by
  unfold mirrorSyncBody
  repeat' first | (with_reducible assumption) | (with_reducible apply refuse_canon) | (with_reducible apply canon_foldl) | (simp only [canon_mk]) | (with_reducible apply canon7) | (refine canon_fst (by assumption) ?_) | split | (intro _) | (dsimp only)
theorem milestoneSetBody_canon {s : State} {r e} (hC : Canon kB s) : Canon kB (milestoneSetBody r e s).1 := by
  unfold milestoneSetBody
  repeat' first | (with_reducible assumption) | (with_reducible apply State.setMilestone_canon) | (with_reducible apply done_canon) | (with_reducible apply refuse_canon) | (with_reducible apply canon_foldl) | (simp only [canon_mk]) | (with_reducible apply canon7) | (refine canon_fst (by assumption) ?_) | split | (intro _) | (dsimp only)
theorem requestCancelBody_canon {s : State} {r e} (hC : Canon kB s) : Canon kB (requestCancelBody r e s).1 := by
  unfold requestCancelBody
  repeat' first | (with_reducible assumption) | (with_reducible apply State.setCancel_canon) | (with_reducible apply done_canon) | (with_reducible apply refuse_canon) | (with_reducible apply canon_foldl) | (simp only [canon_mk]) | (with_reducible apply canon7) | (refine canon_fst (by assumption) ?_) | split | (intro _) | (dsimp only)
theorem windowOpenBody_canon {s : State} {r e} (hC : Canon kB s) : Canon kB (windowOpenBody r e s).1 := by
  unfold windowOpenBody
  repeat' first | (with_reducible assumption) | (with_reducible apply State.windowOpen_canon) | (with_reducible apply refuse_canon) | (with_reducible apply canon_foldl) | (simp only [canon_mk]) | (with_reducible apply canon7) | (refine canon_fst (by assumption) ?_) | split | (intro _) | (dsimp only)
theorem windowCloseBody_canon {s : State} {r e} (hC : Canon kB s) : Canon kB (windowCloseBody r e s).1 := by
  unfold windowCloseBody
  repeat' first | (with_reducible assumption) | (with_reducible apply State.windowClose_canon) | (with_reducible apply refuse_canon) | (with_reducible apply canon_foldl) | (simp only [canon_mk]) | (with_reducible apply canon7) | (refine canon_fst (by assumption) ?_) | split | (intro _) | (dsimp only)
theorem finishMsg_canon {m x} (hC : Canon kB x.1) : Canon kB (finishMsg m x) := by
  unfold finishMsg
  split
  · exact State.answerMsg_canon hC
  · exact hC
theorem tableMsg_canon {s : State} {m p body} (hC : Canon kB s) (hb : ∀ t, Canon kB t → Canon kB (body t).1) : Canon kB (tableMsg s m p body) := by
  have h1 := hb s hC
  unfold tableMsg
  repeat' first | (with_reducible assumption) | (with_reducible apply State.answerMsg_canon) | (with_reducible apply finishMsg_canon) | (simp only [canon_mk]) | (with_reducible apply canon7) | split | (dsimp only)
theorem runMsg_canon {s : State} {m cls p body} (hC : Canon kB s) (hb : ∀ t, Canon kB t → Canon kB (body t).1) : Canon kB (runMsg s m cls p body) :=
  State.takeMsg_canon hC fun _ h => tableMsg_canon h hb
theorem partitionRekeyBody_canon {s : State} {r e} (hC : Canon kB s) : Canon kB (partitionRekeyBody r e s).1 := by
  unfold partitionRekeyBody
  repeat' first | (with_reducible assumption) | (with_reducible apply done_canon) | (with_reducible apply refuse_canon) | (with_reducible apply canon_foldl) | (simp only [canon_mk]) | (with_reducible apply canon7) | (refine canon_fst (by assumption) ?_) | split | (intro _) | (dsimp only)
theorem hintBody_canon {s : State} {r e} (hC : Canon kB s) : Canon kB (hintBody r e s).1 := by
  unfold hintBody
  repeat' first | (with_reducible assumption) | (with_reducible apply State.setVolt_canon) | (with_reducible apply done_canon) | (with_reducible apply refuse_canon) | (with_reducible apply canon_foldl) | (simp only [canon_mk]) | (with_reducible apply canon7) | (refine canon_fst (by assumption) ?_) | (simp only [VCell.go_local, VCell.setLane_local, VCell.writeLanes_local, VCell.setA_local, VCell.setPred_local, VCell.flag_local, VCell.setStatus_local, VCell.writeSr_local, SCell.go_local, SCell.jump_local, SCell.setR_local]) | (with_reducible apply Memory.wf_writeL) | (with_reducible apply vcell_local) | (with_reducible apply scell_local) | (exact vReady_local hC (by assumption) (by assumption)) | (exact sReady_local hC (by assumption) (by assumption)) | (exact rfl) | split | (intro _) | (dsimp only)
theorem planDefineBody_canon {s : State} {r e} (hC : Canon kB s) : Canon kB (planDefineBody r e s).1 := by
  unfold planDefineBody
  repeat' first | (with_reducible assumption) | (with_reducible apply State.setPlan_canon) | (with_reducible apply State.setQueue_canon) | (with_reducible apply State.setSteward_canon) | (with_reducible apply State.storeDesc_canon) | (with_reducible apply done_canon) | (with_reducible apply refuse_canon) | (with_reducible apply canon_foldl) | (simp only [canon_mk]) | (with_reducible apply canon7) | (refine canon_fst (by assumption) ?_) | (simp only [VCell.go_local, VCell.setLane_local, VCell.writeLanes_local, VCell.setA_local, VCell.setPred_local, VCell.flag_local, VCell.setStatus_local, VCell.writeSr_local, SCell.go_local, SCell.jump_local, SCell.setR_local]) | (with_reducible apply Memory.wf_writeL) | (with_reducible apply vcell_local) | (with_reducible apply scell_local) | (exact vReady_local hC (by assumption) (by assumption)) | (exact sReady_local hC (by assumption) (by assumption)) | (exact rfl) | split | (intro _) | (dsimp only)
theorem planReleaseBody_canon {s : State} {r e} (hC : Canon kB s) : Canon kB (planReleaseBody r e s).1 := by
  unfold planReleaseBody
  repeat' first | (with_reducible assumption) | (with_reducible apply State.dropPlan_canon) | (with_reducible apply done_canon) | (with_reducible apply refuse_canon) | (with_reducible apply canon_foldl) | (simp only [canon_mk]) | (with_reducible apply canon7) | (refine canon_fst (by assumption) ?_) | split | (intro _) | (dsimp only)
theorem sessionOpenBody_canon {s : State} {r e} (hC : Canon kB s) : Canon kB (sessionOpenBody r e s).1 := by
  unfold sessionOpenBody
  repeat' first | (with_reducible assumption) | (with_reducible apply State.grantPages_canon) | (with_reducible apply State.mirrorSend_canon) | (with_reducible apply State.openSession_canon) | (with_reducible apply State.order_canon) | (with_reducible apply done_canon) | (with_reducible apply refuse_canon) | (with_reducible apply canon_foldl) | (simp only [canon_mk]) | (with_reducible apply canon7) | (refine canon_fst (by assumption) ?_) | (refine canon_snd (by assumption) ?_) | split | (intro _) | (dsimp only)
theorem sessionAppendBody_canon {s : State} {r e} (hC : Canon kB s) : Canon kB (sessionAppendBody r e s).1 := by
  unfold sessionAppendBody
  repeat' first | (with_reducible assumption) | (with_reducible apply State.grantPages_canon) | (with_reducible apply State.mirrorSend_canon) | (with_reducible apply State.order_canon) | (with_reducible apply State.setSess_canon) | (with_reducible apply State.writeLog_canon) | (with_reducible apply done_canon) | (with_reducible apply refuse_canon) | (with_reducible apply canon_foldl) | (simp only [canon_mk]) | (with_reducible apply canon7) | (refine canon_fst (by assumption) ?_) | (refine canon_snd (by assumption) ?_) | (simp only [VCell.go_local, VCell.setLane_local, VCell.writeLanes_local, VCell.setA_local, VCell.setPred_local, VCell.flag_local, VCell.setStatus_local, VCell.writeSr_local, SCell.go_local, SCell.jump_local, SCell.setR_local]) | (with_reducible apply Memory.wf_writeL) | (with_reducible apply vcell_local) | (with_reducible apply scell_local) | (exact vReady_local hC (by assumption) (by assumption)) | (exact sReady_local hC (by assumption) (by assumption)) | (exact rfl) | split | (intro _) | (dsimp only)
theorem sessionCancelBody_canon {s : State} {r e} (hC : Canon kB s) : Canon kB (sessionCancelBody r e s).1 := by
  unfold sessionCancelBody
  repeat' first | (with_reducible assumption) | (with_reducible apply State.endGeneration_canon) | (with_reducible apply done_canon) | (with_reducible apply refuse_canon) | (with_reducible apply canon_foldl) | (simp only [canon_mk]) | (with_reducible apply canon7) | (refine canon_fst (by assumption) ?_) | split | (intro _) | (dsimp only)
theorem sessionCloseBody_canon {s : State} {r e} (hC : Canon kB s) : Canon kB (sessionCloseBody r e s).1 := by
  unfold sessionCloseBody
  repeat' first | (with_reducible assumption) | (with_reducible apply State.endGeneration_canon) | (with_reducible apply State.updSess_canon) | (with_reducible apply refuse_canon) | (with_reducible apply canon_foldl) | (simp only [canon_mk]) | (with_reducible apply canon7) | (refine canon_fst (by assumption) ?_) | split | (intro _) | (dsimp only)
theorem weightLoadBody_canon {s : State} {r e} (hC : Canon kB s) : Canon kB (weightLoadBody r e s).1 := by
  unfold weightLoadBody
  repeat' first | (with_reducible assumption) | (with_reducible apply State.carvePut_canon) | (with_reducible apply State.updPart_canon) | (with_reducible apply done_canon) | (with_reducible apply refuse_canon) | (with_reducible apply canon_foldl) | (simp only [canon_mk]) | (with_reducible apply canon7) | (refine canon_fst (by assumption) ?_) | split | (intro _) | (dsimp only)
theorem weightReleaseBody_canon {s : State} {r e} (hC : Canon kB s) : Canon kB (weightReleaseBody r e s).1 := by
  unfold weightReleaseBody
  repeat' first | (with_reducible assumption) | (with_reducible apply State.carvePut_canon) | (with_reducible apply State.updPart_canon) | (with_reducible apply done_canon) | (with_reducible apply refuse_canon) | (with_reducible apply canon_foldl) | (simp only [canon_mk]) | (with_reducible apply canon7) | (refine canon_fst (by assumption) ?_) | split | (intro _) | (dsimp only)
theorem windowRouteBody_canon {s : State} {r} (hC : Canon kB s) : Canon kB (windowRouteBody r s).1 := by
  unfold windowRouteBody
  repeat' first | (with_reducible assumption) | (with_reducible apply okM_canon) | (with_reducible apply refuseM_canon) | (with_reducible apply canon_foldl) | (simp only [canon_mk]) | (with_reducible apply canon7) | (refine canon_fst (by assumption) ?_) | split | (intro _) | (dsimp only)
theorem partitionCreateBody_canon {s : State} {r} (hC : Canon kB s) : Canon kB (partitionCreateBody r s).1 := by
  unfold partitionCreateBody
  repeat' first | (with_reducible assumption) | (with_reducible apply State.clearRuns_canon) | (with_reducible apply State.setPart_canon) | (with_reducible apply busyM_canon) | (with_reducible apply okM_canon) | (with_reducible apply refuseM_canon) | (with_reducible apply canon_foldl) | (simp only [canon_mk]) | (with_reducible apply canon7) | (refine canon_fst (by assumption) ?_) | split | (intro _) | (dsimp only)
theorem partitionDestroyBody_canon {s : State} {m r} (hC : Canon kB s) : Canon kB (partitionDestroyBody m r s).1 := by
  unfold partitionDestroyBody
  repeat' first | (with_reducible assumption) | (with_reducible apply State.endCarveOut_canon) | (with_reducible apply State.reckCloseAll_canon) | (with_reducible apply State.revokeContext_canon) | (with_reducible apply State.updPart_canon) | (with_reducible apply refuseM_canon) | (with_reducible apply canon_foldl) | (simp only [canon_mk]) | (with_reducible apply canon7) | (refine canon_fst (by assumption) ?_) | split | (intro _) | (dsimp only)
theorem stationMoveBody_canon {s : State} {m r} (hC : Canon kB s) : Canon kB (stationMoveBody m r s).1 := by
  unfold stationMoveBody
  repeat' first | (with_reducible assumption) | (with_reducible apply State.advanceEpoch_canon) | (with_reducible apply State.setDisp_canon) | (with_reducible apply State.setQueue_canon) | (with_reducible apply busyM_canon) | (with_reducible apply refuseM_canon) | (with_reducible apply canon_foldl) | (simp only [canon_mk]) | (with_reducible apply canon7) | (refine canon_fst (by assumption) ?_) | split | (intro _) | (dsimp only)
theorem portShareBody_canon {s : State} {r} (hC : Canon kB s) : Canon kB (portShareBody r s).1 := by
  unfold portShareBody
  repeat' first | (with_reducible assumption) | (with_reducible apply State.updPart_canon) | (with_reducible apply okM_canon) | (with_reducible apply refuseM_canon) | (with_reducible apply canon_foldl) | (simp only [canon_mk]) | (with_reducible apply canon7) | (refine canon_fst (by assumption) ?_) | split | (intro _) | (dsimp only)
theorem queuePairOpenBody_canon {s : State} {r} (hC : Canon kB s) : Canon kB (queuePairOpenBody r s).1 := by
  unfold queuePairOpenBody
  repeat' first | (with_reducible assumption) | (with_reducible apply State.storeDesc_canon) | (with_reducible apply okM_canon) | (with_reducible apply refuseM_canon) | (with_reducible apply canon_foldl) | (simp only [canon_mk]) | (with_reducible apply canon7) | (refine canon_fst (by assumption) ?_) | split | (intro _) | (dsimp only)
theorem queuePairRetargetBody_canon {s : State} {m r} (hC : Canon kB s) : Canon kB (queuePairRetargetBody m r s).1 := by
  unfold queuePairRetargetBody
  repeat' first | (with_reducible assumption) | (with_reducible apply State.advanceEpoch_canon) | (with_reducible apply State.setQpair_canon) | (with_reducible apply State.storeDesc_canon) | (with_reducible apply busyM_canon) | (with_reducible apply refuseM_canon) | (with_reducible apply canon_foldl) | (simp only [canon_mk]) | (with_reducible apply canon7) | (refine canon_fst (by assumption) ?_) | split | (intro _) | (dsimp only)
theorem queuePairCloseBody_canon {s : State} {m r} (hC : Canon kB s) : Canon kB (queuePairCloseBody m r s).1 := by
  unfold queuePairCloseBody
  repeat' first | (with_reducible assumption) | (with_reducible apply State.setQpair_canon) | (with_reducible apply State.storeDesc_canon) | (with_reducible apply okM_canon) | (with_reducible apply refuseM_canon) | (with_reducible apply canon_foldl) | (simp only [canon_mk]) | (with_reducible apply canon7) | (refine canon_fst (by assumption) ?_) | split | (intro _) | (dsimp only)
theorem requestHandoffBody_canon {s : State} {r} (hC : Canon kB s) : Canon kB (requestHandoffBody r s).1 := by
  unfold requestHandoffBody
  repeat' first | (with_reducible assumption) | (with_reducible apply State.setLease_canon) | (with_reducible apply State.tryOffer_canon) | (with_reducible apply okM_canon) | (with_reducible apply refuseM_canon) | (with_reducible apply canon_foldl) | (simp only [canon_mk]) | (with_reducible apply canon7) | (refine canon_fst (by assumption) ?_) | split | (intro _) | (dsimp only)
theorem leaseOfferBody_canon {s : State} {node r im} (hC : Canon kB s) : Canon kB (leaseOfferBody node r im s).1 := by
  unfold leaseOfferBody
  repeat' first | (with_reducible assumption) | (refine State.placeSession_canon ?_ (by assumption)) | (with_reducible apply State.emitOut_canon) | (with_reducible apply okM_canon) | (with_reducible apply refuseM_canon) | (with_reducible apply canon_foldl) | (simp only [canon_mk]) | (with_reducible apply canon7) | (refine canon_fst (by assumption) ?_) | split | (intro _) | (dsimp only)
theorem staleLease_canon {s : State} (hC : Canon kB s) : Canon kB (staleLease s).1 := by
  unfold staleLease
  repeat' first | (with_reducible assumption) | (with_reducible apply canon_foldl) | (simp only [canon_mk]) | (with_reducible apply canon7) | split | (intro _) | (dsimp only)
theorem leaseAcceptBody_canon {s : State} {node r} (hC : Canon kB s) : Canon kB (leaseAcceptBody node r s).1 := by
  unfold leaseAcceptBody
  repeat' first | (with_reducible assumption) | (with_reducible apply State.emitOut_canon) | (with_reducible apply State.leaseRevoked_canon) | (with_reducible apply State.setHome_canon) | (with_reducible apply okM_canon) | (with_reducible apply refuseM_canon) | (with_reducible apply staleLease_canon) | (with_reducible apply canon_foldl) | (simp only [canon_mk]) | (with_reducible apply canon7) | (refine canon_fst (by assumption) ?_) | split | (intro _) | (dsimp only)
theorem leaseRenewBody_canon {s : State} {node r} (hC : Canon kB s) : Canon kB (leaseRenewBody node r s).1 := by
  unfold leaseRenewBody
  repeat' first | (with_reducible assumption) | (with_reducible apply State.emitOut_canon) | (with_reducible apply State.setHome_canon) | (with_reducible apply okM_canon) | (with_reducible apply refuseM_canon) | (with_reducible apply staleLease_canon) | (with_reducible apply canon_foldl) | (simp only [canon_mk]) | (with_reducible apply canon7) | (refine canon_fst (by assumption) ?_) | split | (intro _) | (dsimp only)
theorem leaseGrantBody_canon {s : State} {node r} (hC : Canon kB s) : Canon kB (leaseGrantBody node r s).1 := by
  unfold leaseGrantBody
  repeat' first | (with_reducible assumption) | (with_reducible apply State.setLease_canon) | (with_reducible apply okM_canon) | (with_reducible apply refuseM_canon) | (with_reducible apply canon_foldl) | (simp only [canon_mk]) | (with_reducible apply canon7) | (refine canon_fst (by assumption) ?_) | split | (intro _) | (dsimp only)
theorem leaseRevokedBody_canon {s : State} {node r} (hC : Canon kB s) : Canon kB (leaseRevokedBody node r s).1 := by
  unfold leaseRevokedBody
  repeat' first | (with_reducible assumption) | (with_reducible apply State.leaseRevoked_canon) | (with_reducible apply okM_canon) | (with_reducible apply refuseM_canon) | (with_reducible apply canon_foldl) | (simp only [canon_mk]) | (with_reducible apply canon7) | (refine canon_fst (by assumption) ?_) | split | (intro _) | (dsimp only)
theorem tokenNoticeBody_canon {s : State} {node body} (hC : Canon kB s) : Canon kB (tokenNoticeBody node body s).1 := by
  unfold tokenNoticeBody
  repeat' first | (with_reducible assumption) | (with_reducible apply State.logNotice_canon) | (with_reducible apply okM_canon) | (with_reducible apply refuseM_canon) | (with_reducible apply staleLease_canon) | (with_reducible apply canon_foldl) | (simp only [canon_mk]) | (with_reducible apply canon7) | (refine canon_fst (by assumption) ?_) | split | (intro _) | (dsimp only)
theorem runPlain_canon {s : State} {m cls p body} (hC : Canon kB s) (hb : ∀ t, Canon kB t → Canon kB (body t).1) : Canon kB (runPlain s m cls p body) :=
  State.takeMsg_canon hC fun _ h => finishMsg_canon (hb _ h)
theorem mirrorEntryBody_canon {s : State} {node part body} (hC : Canon kB s) : Canon kB (mirrorEntryBody node part body s).1 := by
  unfold mirrorEntryBody
  repeat' first | (with_reducible assumption) | (with_reducible apply State.setHolding_canon) | (with_reducible apply okM_canon) | (with_reducible apply refuseM_canon) | (with_reducible apply canon_foldl) | (simp only [canon_mk]) | (with_reducible apply canon7) | (refine canon_fst (by assumption) ?_) | split | (intro _) | (dsimp only)
theorem mirrorAcceptBody_canon {s : State} {r} (hC : Canon kB s) : Canon kB (mirrorAcceptBody r s).1 := by
  unfold mirrorAcceptBody
  repeat' first | (with_reducible assumption) | (with_reducible apply State.setHolding_canon) | (with_reducible apply okM_canon) | (with_reducible apply refuseM_canon) | (with_reducible apply canon_foldl) | (simp only [canon_mk]) | (with_reducible apply canon7) | (refine canon_fst (by assumption) ?_) | split | (intro _) | (dsimp only)
theorem partitionResetBody_canon {s : State} {r} (hC : Canon kB s) : Canon kB (partitionResetBody r s).1 := by
  unfold partitionResetBody
  repeat' first | (with_reducible assumption) | (with_reducible apply State.addCapture_canon) | (with_reducible apply busyM_canon) | (with_reducible apply okM_canon) | (with_reducible apply refuseM_canon) | (with_reducible apply canon_foldl) | (simp only [canon_mk]) | (with_reducible apply canon7) | (refine canon_fst (by assumption) ?_) | split | (intro _) | (dsimp only)
theorem migrateStartBody_canon {r : Nat} {s : State} (hC : Canon kB s) : Canon kB (migrateStartBody r s).1 := by
  unfold migrateStartBody
  repeat' first | (with_reducible assumption) | (with_reducible apply refuseM_canon) | (with_reducible apply okM_canon) | (with_reducible apply State.sendSections_canon) | split | (dsimp only)
  all_goals (simp only [canon_mk]; exact { State.addOutgoing_canon hC with dr := hC.dr })
theorem migrateCancelBody_canon {s : State} {r} (hC : Canon kB s) : Canon kB (migrateCancelBody r s).1 := by
  unfold migrateCancelBody
  repeat' first | (with_reducible assumption) | (with_reducible apply busyM_canon) | (with_reducible apply okM_canon) | (with_reducible apply refuseM_canon) | (with_reducible apply canon_foldl) | (simp only [canon_mk]) | (with_reducible apply canon7) | (refine canon_fst (by assumption) ?_) | split | (intro _) | (dsimp only)
theorem portmanteauAdoptBody_canon {s : State} {r} (hC : Canon kB s) : Canon kB (portmanteauAdoptBody r s).1 := by
  unfold portmanteauAdoptBody
  repeat' first | (with_reducible assumption) | (with_reducible apply State.dropIncoming_canon) | (with_reducible apply State.event_canon) | (with_reducible apply State.loadGens_canon) | (with_reducible apply okM_canon) | (with_reducible apply refuseM_canon) | (with_reducible apply canon_foldl) | (simp only [canon_mk]) | (with_reducible apply canon7) | (refine canon_fst (by assumption) ?_) | split | (intro _) | (dsimp only)
theorem moduleCapBody_canon {s : State} {r} (hC : Canon kB s) : Canon kB (moduleCapBody r s).1 := by
  unfold moduleCapBody
  repeat' first | (with_reducible assumption) | (with_reducible apply okM_canon) | (with_reducible apply refuseM_canon) | (with_reducible apply canon_foldl) | (simp only [canon_mk]) | (with_reducible apply canon7) | (refine canon_fst (by assumption) ?_) | split | (intro _) | (dsimp only)
theorem lifecycleSetBody_canon {s : State} {m r} (hC : Canon kB s) : Canon kB (lifecycleSetBody m r s).1 := by
  unfold lifecycleSetBody
  repeat' first | (with_reducible assumption) | (with_reducible apply busyM_canon) | (with_reducible apply okM_canon) | (with_reducible apply refuseM_canon) | (with_reducible apply canon_foldl) | (simp only [canon_mk]) | (with_reducible apply canon7) | (refine canon_fst (by assumption) ?_) | split | (intro _) | (dsimp only)
theorem masterReleaseBody_canon {s : State} {r} (hC : Canon kB s) : Canon kB (masterReleaseBody r s).1 := by
  unfold masterReleaseBody
  repeat' first | (with_reducible assumption) | (with_reducible apply State.addCapture_canon) | (with_reducible apply okM_canon) | (with_reducible apply refuseM_canon) | (with_reducible apply canon_foldl) | (simp only [canon_mk]) | (with_reducible apply canon7) | (refine canon_fst (by assumption) ?_) | split | (intro _) | (dsimp only)
theorem firmwareBeginBody_canon {s : State} {m r} (hC : Canon kB s) : Canon kB (firmwareBeginBody m r s).1 := by
  unfold firmwareBeginBody
  repeat' first | (with_reducible assumption) | (with_reducible apply okM_canon) | (with_reducible apply refuseM_canon) | (with_reducible apply canon_foldl) | (simp only [canon_mk]) | (with_reducible apply canon7) | (refine canon_fst (by assumption) ?_) | split | (intro _) | (dsimp only)
theorem firmwareWriteBody_canon {m h data} {s : State} (hC : Canon kB s) : Canon kB (firmwareWriteBody m h data s).1 := by
  have key : ∀ b a o, Canon kB { s with fw := { s.fw with opened := o, flash := Memory.writeL s.fw.flash a b } } :=
    fun _ _ _ => { hC with fl := fun hm => Memory.wf_writeL (hC.fl hm) _ _ }
  unfold firmwareWriteBody
  repeat' first | (with_reducible assumption) | (exact key _ _ _) | (with_reducible apply refuseM_canon) | (with_reducible apply okM_canon) | split | (dsimp only)
  all_goals exact hC
theorem firmwareActivateBody_canon {s : State} {m r images} (hC : Canon kB s) : Canon kB (firmwareActivateBody m r images s) := by
  unfold firmwareActivateBody
  repeat' first | (with_reducible assumption) | (with_reducible apply State.answerMsg_canon) | (with_reducible apply State.nextSwitch_canon) | (with_reducible apply State.restart_canon) | (with_reducible apply canon_foldl) | (simp only [canon_mk]) | (with_reducible apply canon7) | split | (intro _) | (dsimp only)
theorem firmwareCommitBody_canon {r : Nat} {s : State} (hC : Canon kB s) : Canon kB (firmwareCommitBody r s).1 := by
  have key : ∀ (l : List Nat) (t : Tab Nat), (∀ ty, Tab.getD kB.minSvn ty 0 ≤ Tab.getD t ty 0) →
      ∀ ty, Tab.getD kB.minSvn ty 0 ≤ Tab.getD (l.foldl (fun (t : Tab Nat) ty => Tab.put t ty (max (Tab.getD t ty 0) (s.runSvn ty))) t) ty 0 := by
    intro l
    induction l with
    | nil => exact fun t h => h
    | cons a l ih =>
      intro t h
      refine ih _ fun ty => ?_
      rw [Tab.getD_put]
      split
      · rename_i e; subst e; exact Nat.le_trans (h ty) (Nat.le_max_left _ _)
      · exact h ty
  unfold firmwareCommitBody
  dsimp only
  split
  · exact hC
  · split
    · exact hC
    · exact { hC with minSvn := key _ _ hC.minSvn }
theorem zhohiWriteBody_canon {m h data} {s : State} (hC : Canon kB s) : Canon kB (zhohiWriteBody m h data s).1 := by
  have key : ∀ f a b, (kB.mem → Memory.wf f = true) → Canon kB { s with fw := { s.fw with flash := Memory.writeL f a b } } :=
    fun _ _ _ h => { hC with fl := fun hm => Memory.wf_writeL (h hm) _ _ }
  unfold zhohiWriteBody
  repeat' first | (with_reducible assumption) | (with_reducible apply refuseM_canon) | (with_reducible apply okM_canon) | split | (dsimp only)
  · exact key _ _ _ fun hm => (Memory.wf_filter (hC.fl hm) _).1
  · exact key _ _ _ hC.fl

end Sys2Proof.Machine
end

