-- ==== Sys2Proof/Laws/State.lean ====
section
/-! SUPPORT. Sys2Proof/Laws/State.lean: what each update of the state leaves as it was, one lemma for each update: one equation for
every field of State, and, in the unit that the update writes, one for every other field of that unit. As simp lemmas each conjunct
rewrites on its own, so no proof has to unfold a record update. -/

namespace Sys2Proof.Machine

@[simp] theorem State.setPart_frame (s : State) (p : Nat) (x : Partition) :
    (s.setPart p x).pending = s.pending ∧ (s.setPart p x).sys = s.sys ∧ (s.setPart p x).svc = s.svc ∧ (s.setPart p x).host = s.host ∧
    (s.setPart p x).fen = s.fen ∧ (s.setPart p x).part.releases = s.part.releases ∧ (s.setPart p x).part.moves = s.part.moves ∧
    (s.setPart p x).part.stationMoves = s.part.stationMoves ∧ (s.setPart p x).part.qpairs = s.part.qpairs ∧
    (s.setPart p x).part.blockEpoch = s.part.blockEpoch ∧ (s.setPart p x).part.tableWrites = s.part.tableWrites ∧
    (s.setPart p x).part.shareRefs = s.part.shareRefs ∧ (s.setPart p x).stn = s.stn ∧ (s.setPart p x).fab = s.fab ∧
    (s.setPart p x).spine = s.spine ∧ (s.setPart p x).cell = s.cell ∧ (s.setPart p x).unit = s.unit ∧ (s.setPart p x).dram = s.dram ∧
    (s.setPart p x).xlt = s.xlt ∧ (s.setPart p x).link = s.link ∧ (s.setPart p x).ses = s.ses ∧ (s.setPart p x).reck = s.reck ∧
    (s.setPart p x).fail = s.fail ∧ (s.setPart p x).reg = s.reg ∧ (s.setPart p x).pow = s.pow ∧ (s.setPart p x).age = s.age ∧
    (s.setPart p x).sec = s.sec ∧ (s.setPart p x).fw = s.fw ∧ (s.setPart p x).boot = s.boot ∧ (s.setPart p x).hostMem = s.hostMem ∧
    (s.setPart p x).sent = s.sent ∧ (s.setPart p x).log = s.log ∧ (s.setPart p x).free = s.free :=
  ⟨rfl, rfl, rfl, rfl, rfl, rfl, rfl, rfl, rfl, rfl, rfl, rfl, rfl, rfl, rfl, rfl, rfl, rfl, rfl, rfl, rfl, rfl, rfl, rfl, rfl, rfl, rfl, rfl, rfl, rfl, rfl, rfl, rfl⟩

@[simp] theorem State.updPart_frame (s : State) (p : Nat) (f : Partition → Partition) :
    (s.updPart p f).pending = s.pending ∧ (s.updPart p f).sys = s.sys ∧ (s.updPart p f).svc = s.svc ∧ (s.updPart p f).host = s.host ∧
    (s.updPart p f).fen = s.fen ∧ (s.updPart p f).part.releases = s.part.releases ∧ (s.updPart p f).part.moves = s.part.moves ∧
    (s.updPart p f).part.stationMoves = s.part.stationMoves ∧ (s.updPart p f).part.qpairs = s.part.qpairs ∧
    (s.updPart p f).part.blockEpoch = s.part.blockEpoch ∧ (s.updPart p f).part.tableWrites = s.part.tableWrites ∧
    (s.updPart p f).part.shareRefs = s.part.shareRefs ∧ (s.updPart p f).stn = s.stn ∧ (s.updPart p f).fab = s.fab ∧
    (s.updPart p f).spine = s.spine ∧ (s.updPart p f).cell = s.cell ∧ (s.updPart p f).unit = s.unit ∧ (s.updPart p f).dram = s.dram ∧
    (s.updPart p f).xlt = s.xlt ∧ (s.updPart p f).link = s.link ∧ (s.updPart p f).ses = s.ses ∧ (s.updPart p f).reck = s.reck ∧
    (s.updPart p f).fail = s.fail ∧ (s.updPart p f).reg = s.reg ∧ (s.updPart p f).pow = s.pow ∧ (s.updPart p f).age = s.age ∧
    (s.updPart p f).sec = s.sec ∧ (s.updPart p f).fw = s.fw ∧ (s.updPart p f).boot = s.boot ∧ (s.updPart p f).hostMem = s.hostMem ∧
    (s.updPart p f).sent = s.sent ∧ (s.updPart p f).log = s.log ∧ (s.updPart p f).free = s.free :=
  ⟨rfl, rfl, rfl, rfl, rfl, rfl, rfl, rfl, rfl, rfl, rfl, rfl, rfl, rfl, rfl, rfl, rfl, rfl, rfl, rfl, rfl, rfl, rfl, rfl, rfl, rfl, rfl, rfl, rfl, rfl, rfl, rfl, rfl⟩

@[simp] theorem State.setBlock_frame (s : State) (b : Nat) (x : Block) :
    (s.setBlock b x).pending = s.pending ∧ (s.setBlock b x).sys = s.sys ∧ (s.setBlock b x).svc = s.svc ∧
    (s.setBlock b x).host = s.host ∧ (s.setBlock b x).fen = s.fen ∧ (s.setBlock b x).part = s.part ∧ (s.setBlock b x).stn = s.stn ∧
    (s.setBlock b x).fab.slices = s.fab.slices ∧ (s.setBlock b x).fab.claims = s.fab.claims ∧
    (s.setBlock b x).fab.accesses = s.fab.accesses ∧ (s.setBlock b x).fab.nextAccess = s.fab.nextAccess ∧
    (s.setBlock b x).fab.lostWrites = s.fab.lostWrites ∧ (s.setBlock b x).fab.sends = s.fab.sends ∧
    (s.setBlock b x).fab.nextSend = s.fab.nextSend ∧ (s.setBlock b x).fab.criers = s.fab.criers ∧
    (s.setBlock b x).fab.deviceLast = s.fab.deviceLast ∧ (s.setBlock b x).fab.caravans = s.fab.caravans ∧
    (s.setBlock b x).fab.caravanWaits = s.fab.caravanWaits ∧ (s.setBlock b x).fab.streams = s.fab.streams ∧
    (s.setBlock b x).fab.failedHops = s.fab.failedHops ∧ (s.setBlock b x).fab.replays = s.fab.replays ∧
    (s.setBlock b x).fab.bankHold = s.fab.bankHold ∧ (s.setBlock b x).fab.streamStatus = s.fab.streamStatus ∧
    (s.setBlock b x).fab.streamMarks = s.fab.streamMarks ∧ (s.setBlock b x).fab.regionGen = s.fab.regionGen ∧
    (s.setBlock b x).spine = s.spine ∧ (s.setBlock b x).cell = s.cell ∧ (s.setBlock b x).unit = s.unit ∧
    (s.setBlock b x).dram = s.dram ∧ (s.setBlock b x).xlt = s.xlt ∧ (s.setBlock b x).link = s.link ∧ (s.setBlock b x).ses = s.ses ∧
    (s.setBlock b x).reck = s.reck ∧ (s.setBlock b x).fail = s.fail ∧ (s.setBlock b x).reg = s.reg ∧ (s.setBlock b x).pow = s.pow ∧
    (s.setBlock b x).age = s.age ∧ (s.setBlock b x).sec = s.sec ∧ (s.setBlock b x).fw = s.fw ∧ (s.setBlock b x).boot = s.boot ∧
    (s.setBlock b x).hostMem = s.hostMem ∧ (s.setBlock b x).sent = s.sent ∧ (s.setBlock b x).log = s.log ∧
    (s.setBlock b x).free = s.free :=
  ⟨rfl, rfl, rfl, rfl, rfl, rfl, rfl, rfl, rfl, rfl, rfl, rfl, rfl, rfl, rfl, rfl, rfl, rfl, rfl, rfl, rfl, rfl, rfl, rfl, rfl, rfl, rfl, rfl, rfl, rfl, rfl, rfl, rfl, rfl, rfl, rfl, rfl, rfl, rfl, rfl, rfl, rfl, rfl, rfl⟩

@[simp] theorem State.updBlock_frame (s : State) (b : Nat) (f : Block → Block) :
    (s.updBlock b f).pending = s.pending ∧ (s.updBlock b f).sys = s.sys ∧ (s.updBlock b f).svc = s.svc ∧
    (s.updBlock b f).host = s.host ∧ (s.updBlock b f).fen = s.fen ∧ (s.updBlock b f).part = s.part ∧ (s.updBlock b f).stn = s.stn ∧
    (s.updBlock b f).fab.slices = s.fab.slices ∧ (s.updBlock b f).fab.claims = s.fab.claims ∧
    (s.updBlock b f).fab.accesses = s.fab.accesses ∧ (s.updBlock b f).fab.nextAccess = s.fab.nextAccess ∧
    (s.updBlock b f).fab.lostWrites = s.fab.lostWrites ∧ (s.updBlock b f).fab.sends = s.fab.sends ∧
    (s.updBlock b f).fab.nextSend = s.fab.nextSend ∧ (s.updBlock b f).fab.criers = s.fab.criers ∧
    (s.updBlock b f).fab.deviceLast = s.fab.deviceLast ∧ (s.updBlock b f).fab.caravans = s.fab.caravans ∧
    (s.updBlock b f).fab.caravanWaits = s.fab.caravanWaits ∧ (s.updBlock b f).fab.streams = s.fab.streams ∧
    (s.updBlock b f).fab.failedHops = s.fab.failedHops ∧ (s.updBlock b f).fab.replays = s.fab.replays ∧
    (s.updBlock b f).fab.bankHold = s.fab.bankHold ∧ (s.updBlock b f).fab.streamStatus = s.fab.streamStatus ∧
    (s.updBlock b f).fab.streamMarks = s.fab.streamMarks ∧ (s.updBlock b f).fab.regionGen = s.fab.regionGen ∧
    (s.updBlock b f).spine = s.spine ∧ (s.updBlock b f).cell = s.cell ∧ (s.updBlock b f).unit = s.unit ∧
    (s.updBlock b f).dram = s.dram ∧ (s.updBlock b f).xlt = s.xlt ∧ (s.updBlock b f).link = s.link ∧ (s.updBlock b f).ses = s.ses ∧
    (s.updBlock b f).reck = s.reck ∧ (s.updBlock b f).fail = s.fail ∧ (s.updBlock b f).reg = s.reg ∧ (s.updBlock b f).pow = s.pow ∧
    (s.updBlock b f).age = s.age ∧ (s.updBlock b f).sec = s.sec ∧ (s.updBlock b f).fw = s.fw ∧ (s.updBlock b f).boot = s.boot ∧
    (s.updBlock b f).hostMem = s.hostMem ∧ (s.updBlock b f).sent = s.sent ∧ (s.updBlock b f).log = s.log ∧
    (s.updBlock b f).free = s.free :=
  ⟨rfl, rfl, rfl, rfl, rfl, rfl, rfl, rfl, rfl, rfl, rfl, rfl, rfl, rfl, rfl, rfl, rfl, rfl, rfl, rfl, rfl, rfl, rfl, rfl, rfl, rfl, rfl, rfl, rfl, rfl, rfl, rfl, rfl, rfl, rfl, rfl, rfl, rfl, rfl, rfl, rfl, rfl, rfl, rfl⟩

@[simp] theorem State.setRing_frame (s : State) (q : Nat) (r : Ring) :
    (s.setRing q r).pending = s.pending ∧ (s.setRing q r).sys = s.sys ∧ (s.setRing q r).svc = s.svc ∧
    (s.setRing q r).host.contexts = s.host.contexts ∧ (s.setRing q r).host.objects = s.host.objects ∧
    (s.setRing q r).host.objGens = s.host.objGens ∧ (s.setRing q r).host.events = s.host.events ∧ (s.setRing q r).fen = s.fen ∧
    (s.setRing q r).part = s.part ∧ (s.setRing q r).stn = s.stn ∧ (s.setRing q r).fab = s.fab ∧ (s.setRing q r).spine = s.spine ∧
    (s.setRing q r).cell = s.cell ∧ (s.setRing q r).unit = s.unit ∧ (s.setRing q r).dram = s.dram ∧ (s.setRing q r).xlt = s.xlt ∧
    (s.setRing q r).link = s.link ∧ (s.setRing q r).ses = s.ses ∧ (s.setRing q r).reck = s.reck ∧ (s.setRing q r).fail = s.fail ∧
    (s.setRing q r).reg = s.reg ∧ (s.setRing q r).pow = s.pow ∧ (s.setRing q r).age = s.age ∧ (s.setRing q r).sec = s.sec ∧
    (s.setRing q r).fw = s.fw ∧ (s.setRing q r).boot = s.boot ∧ (s.setRing q r).hostMem = s.hostMem ∧ (s.setRing q r).sent = s.sent ∧
    (s.setRing q r).log = s.log ∧ (s.setRing q r).free = s.free :=
  ⟨rfl, rfl, rfl, rfl, rfl, rfl, rfl, rfl, rfl, rfl, rfl, rfl, rfl, rfl, rfl, rfl, rfl, rfl, rfl, rfl, rfl, rfl, rfl, rfl, rfl, rfl, rfl, rfl, rfl, rfl⟩

@[simp] theorem State.setQueue_frame (s : State) (q : Nat) (x : TileQ) :
    (s.setQueue q x).pending = s.pending ∧ (s.setQueue q x).sys = s.sys ∧ (s.setQueue q x).svc = s.svc ∧
    (s.setQueue q x).host = s.host ∧ (s.setQueue q x).fen = s.fen ∧ (s.setQueue q x).part = s.part ∧
    (s.setQueue q x).stn.stations = s.stn.stations ∧ (s.setQueue q x).stn.engines = s.stn.engines ∧
    (s.setQueue q x).stn.disps = s.stn.disps ∧ (s.setQueue q x).stn.flight = s.stn.flight ∧ (s.setQueue q x).stn.held = s.stn.held ∧
    (s.setQueue q x).stn.preds = s.stn.preds ∧ (s.setQueue q x).stn.heavy = s.stn.heavy ∧ (s.setQueue q x).stn.cached = s.stn.cached ∧
    (s.setQueue q x).stn.descA = s.stn.descA ∧ (s.setQueue q x).stn.descB = s.stn.descB ∧ (s.setQueue q x).fab = s.fab ∧
    (s.setQueue q x).spine = s.spine ∧ (s.setQueue q x).cell = s.cell ∧ (s.setQueue q x).unit = s.unit ∧
    (s.setQueue q x).dram = s.dram ∧ (s.setQueue q x).xlt = s.xlt ∧ (s.setQueue q x).link = s.link ∧ (s.setQueue q x).ses = s.ses ∧
    (s.setQueue q x).reck = s.reck ∧ (s.setQueue q x).fail = s.fail ∧ (s.setQueue q x).reg = s.reg ∧ (s.setQueue q x).pow = s.pow ∧
    (s.setQueue q x).age = s.age ∧ (s.setQueue q x).sec = s.sec ∧ (s.setQueue q x).fw = s.fw ∧ (s.setQueue q x).boot = s.boot ∧
    (s.setQueue q x).hostMem = s.hostMem ∧ (s.setQueue q x).sent = s.sent ∧ (s.setQueue q x).log = s.log ∧
    (s.setQueue q x).free = s.free :=
  ⟨rfl, rfl, rfl, rfl, rfl, rfl, rfl, rfl, rfl, rfl, rfl, rfl, rfl, rfl, rfl, rfl, rfl, rfl, rfl, rfl, rfl, rfl, rfl, rfl, rfl, rfl, rfl, rfl, rfl, rfl, rfl, rfl, rfl, rfl, rfl, rfl⟩

@[simp] theorem State.setStation_frame (s : State) (p i : Nat) (x : Station) :
    (s.setStation p i x).pending = s.pending ∧ (s.setStation p i x).sys = s.sys ∧ (s.setStation p i x).svc = s.svc ∧
    (s.setStation p i x).host = s.host ∧ (s.setStation p i x).fen = s.fen ∧ (s.setStation p i x).part = s.part ∧
    (s.setStation p i x).stn.engines = s.stn.engines ∧ (s.setStation p i x).stn.disps = s.stn.disps ∧
    (s.setStation p i x).stn.queues = s.stn.queues ∧ (s.setStation p i x).stn.flight = s.stn.flight ∧
    (s.setStation p i x).stn.held = s.stn.held ∧ (s.setStation p i x).stn.preds = s.stn.preds ∧
    (s.setStation p i x).stn.heavy = s.stn.heavy ∧ (s.setStation p i x).stn.cached = s.stn.cached ∧
    (s.setStation p i x).stn.descA = s.stn.descA ∧ (s.setStation p i x).stn.descB = s.stn.descB ∧ (s.setStation p i x).fab = s.fab ∧
    (s.setStation p i x).spine = s.spine ∧ (s.setStation p i x).cell = s.cell ∧ (s.setStation p i x).unit = s.unit ∧
    (s.setStation p i x).dram = s.dram ∧ (s.setStation p i x).xlt = s.xlt ∧ (s.setStation p i x).link = s.link ∧
    (s.setStation p i x).ses = s.ses ∧ (s.setStation p i x).reck = s.reck ∧ (s.setStation p i x).fail = s.fail ∧
    (s.setStation p i x).reg = s.reg ∧ (s.setStation p i x).pow = s.pow ∧ (s.setStation p i x).age = s.age ∧
    (s.setStation p i x).sec = s.sec ∧ (s.setStation p i x).fw = s.fw ∧ (s.setStation p i x).boot = s.boot ∧
    (s.setStation p i x).hostMem = s.hostMem ∧ (s.setStation p i x).sent = s.sent ∧ (s.setStation p i x).log = s.log ∧
    (s.setStation p i x).free = s.free :=
  ⟨rfl, rfl, rfl, rfl, rfl, rfl, rfl, rfl, rfl, rfl, rfl, rfl, rfl, rfl, rfl, rfl, rfl, rfl, rfl, rfl, rfl, rfl, rfl, rfl, rfl, rfl, rfl, rfl, rfl, rfl, rfl, rfl, rfl, rfl, rfl, rfl⟩

@[simp] theorem State.setEngine_frame (s : State) (e : Nat) (x : Engine) :
    (s.setEngine e x).pending = s.pending ∧ (s.setEngine e x).sys = s.sys ∧ (s.setEngine e x).svc = s.svc ∧
    (s.setEngine e x).host = s.host ∧ (s.setEngine e x).fen = s.fen ∧ (s.setEngine e x).part = s.part ∧
    (s.setEngine e x).stn.stations = s.stn.stations ∧ (s.setEngine e x).stn.disps = s.stn.disps ∧
    (s.setEngine e x).stn.queues = s.stn.queues ∧ (s.setEngine e x).stn.flight = s.stn.flight ∧
    (s.setEngine e x).stn.held = s.stn.held ∧ (s.setEngine e x).stn.preds = s.stn.preds ∧ (s.setEngine e x).stn.heavy = s.stn.heavy ∧
    (s.setEngine e x).stn.cached = s.stn.cached ∧ (s.setEngine e x).stn.descA = s.stn.descA ∧
    (s.setEngine e x).stn.descB = s.stn.descB ∧ (s.setEngine e x).fab = s.fab ∧ (s.setEngine e x).spine = s.spine ∧
    (s.setEngine e x).cell = s.cell ∧ (s.setEngine e x).unit = s.unit ∧ (s.setEngine e x).dram = s.dram ∧
    (s.setEngine e x).xlt = s.xlt ∧ (s.setEngine e x).link = s.link ∧ (s.setEngine e x).ses = s.ses ∧
    (s.setEngine e x).reck = s.reck ∧ (s.setEngine e x).fail = s.fail ∧ (s.setEngine e x).reg = s.reg ∧
    (s.setEngine e x).pow = s.pow ∧ (s.setEngine e x).age = s.age ∧ (s.setEngine e x).sec = s.sec ∧ (s.setEngine e x).fw = s.fw ∧
    (s.setEngine e x).boot = s.boot ∧ (s.setEngine e x).hostMem = s.hostMem ∧ (s.setEngine e x).sent = s.sent ∧
    (s.setEngine e x).log = s.log ∧ (s.setEngine e x).free = s.free :=
  ⟨rfl, rfl, rfl, rfl, rfl, rfl, rfl, rfl, rfl, rfl, rfl, rfl, rfl, rfl, rfl, rfl, rfl, rfl, rfl, rfl, rfl, rfl, rfl, rfl, rfl, rfl, rfl, rfl, rfl, rfl, rfl, rfl, rfl, rfl, rfl, rfl⟩

@[simp] theorem State.delEngine_frame (s : State) (e : Nat) :
    (s.delEngine e).pending = s.pending ∧ (s.delEngine e).sys = s.sys ∧ (s.delEngine e).svc = s.svc ∧ (s.delEngine e).host = s.host ∧
    (s.delEngine e).fen = s.fen ∧ (s.delEngine e).part = s.part ∧ (s.delEngine e).stn.stations = s.stn.stations ∧
    (s.delEngine e).stn.disps = s.stn.disps ∧ (s.delEngine e).stn.queues = s.stn.queues ∧ (s.delEngine e).stn.flight = s.stn.flight ∧
    (s.delEngine e).stn.held = s.stn.held ∧ (s.delEngine e).stn.preds = s.stn.preds ∧ (s.delEngine e).stn.heavy = s.stn.heavy ∧
    (s.delEngine e).stn.cached = s.stn.cached ∧ (s.delEngine e).stn.descA = s.stn.descA ∧ (s.delEngine e).stn.descB = s.stn.descB ∧
    (s.delEngine e).fab = s.fab ∧ (s.delEngine e).spine = s.spine ∧ (s.delEngine e).cell = s.cell ∧ (s.delEngine e).unit = s.unit ∧
    (s.delEngine e).dram = s.dram ∧ (s.delEngine e).xlt = s.xlt ∧ (s.delEngine e).link = s.link ∧ (s.delEngine e).ses = s.ses ∧
    (s.delEngine e).reck = s.reck ∧ (s.delEngine e).fail = s.fail ∧ (s.delEngine e).reg = s.reg ∧ (s.delEngine e).pow = s.pow ∧
    (s.delEngine e).age = s.age ∧ (s.delEngine e).sec = s.sec ∧ (s.delEngine e).fw = s.fw ∧ (s.delEngine e).boot = s.boot ∧
    (s.delEngine e).hostMem = s.hostMem ∧ (s.delEngine e).sent = s.sent ∧ (s.delEngine e).log = s.log ∧
    (s.delEngine e).free = s.free :=
  ⟨rfl, rfl, rfl, rfl, rfl, rfl, rfl, rfl, rfl, rfl, rfl, rfl, rfl, rfl, rfl, rfl, rfl, rfl, rfl, rfl, rfl, rfl, rfl, rfl, rfl, rfl, rfl, rfl, rfl, rfl, rfl, rfl, rfl, rfl, rfl, rfl⟩

@[simp] theorem State.setDisp_frame (s : State) (b : Nat) (d : Disp) :
    (s.setDisp b d).pending = s.pending ∧ (s.setDisp b d).sys = s.sys ∧ (s.setDisp b d).svc = s.svc ∧ (s.setDisp b d).host = s.host ∧
    (s.setDisp b d).fen = s.fen ∧ (s.setDisp b d).part = s.part ∧ (s.setDisp b d).stn.stations = s.stn.stations ∧
    (s.setDisp b d).stn.engines = s.stn.engines ∧ (s.setDisp b d).stn.queues = s.stn.queues ∧
    (s.setDisp b d).stn.flight = s.stn.flight ∧ (s.setDisp b d).stn.held = s.stn.held ∧ (s.setDisp b d).stn.preds = s.stn.preds ∧
    (s.setDisp b d).stn.heavy = s.stn.heavy ∧ (s.setDisp b d).stn.cached = s.stn.cached ∧ (s.setDisp b d).stn.descA = s.stn.descA ∧
    (s.setDisp b d).stn.descB = s.stn.descB ∧ (s.setDisp b d).fab = s.fab ∧ (s.setDisp b d).spine = s.spine ∧
    (s.setDisp b d).cell = s.cell ∧ (s.setDisp b d).unit = s.unit ∧ (s.setDisp b d).dram = s.dram ∧ (s.setDisp b d).xlt = s.xlt ∧
    (s.setDisp b d).link = s.link ∧ (s.setDisp b d).ses = s.ses ∧ (s.setDisp b d).reck = s.reck ∧ (s.setDisp b d).fail = s.fail ∧
    (s.setDisp b d).reg = s.reg ∧ (s.setDisp b d).pow = s.pow ∧ (s.setDisp b d).age = s.age ∧ (s.setDisp b d).sec = s.sec ∧
    (s.setDisp b d).fw = s.fw ∧ (s.setDisp b d).boot = s.boot ∧ (s.setDisp b d).hostMem = s.hostMem ∧ (s.setDisp b d).sent = s.sent ∧
    (s.setDisp b d).log = s.log ∧ (s.setDisp b d).free = s.free :=
  ⟨rfl, rfl, rfl, rfl, rfl, rfl, rfl, rfl, rfl, rfl, rfl, rfl, rfl, rfl, rfl, rfl, rfl, rfl, rfl, rfl, rfl, rfl, rfl, rfl, rfl, rfl, rfl, rfl, rfl, rfl, rfl, rfl, rfl, rfl, rfl, rfl⟩

@[simp] theorem State.setCtrl_frame (s : State) (ch : Nat) (c : Ctrl) :
    (s.setCtrl ch c).pending = s.pending ∧ (s.setCtrl ch c).sys = s.sys ∧ (s.setCtrl ch c).svc = s.svc ∧
    (s.setCtrl ch c).host = s.host ∧ (s.setCtrl ch c).fen = s.fen ∧ (s.setCtrl ch c).part = s.part ∧ (s.setCtrl ch c).stn = s.stn ∧
    (s.setCtrl ch c).fab = s.fab ∧ (s.setCtrl ch c).spine = s.spine ∧ (s.setCtrl ch c).cell = s.cell ∧
    (s.setCtrl ch c).unit = s.unit ∧ (s.setCtrl ch c).dram.dram = s.dram.dram ∧ (s.setCtrl ch c).dram.written = s.dram.written ∧
    (s.setCtrl ch c).dram.rate = s.dram.rate ∧ (s.setCtrl ch c).dram.dimmGb = s.dram.dimmGb ∧
    (s.setCtrl ch c).dram.keys = s.dram.keys ∧ (s.setCtrl ch c).dram.devKeys = s.dram.devKeys ∧
    (s.setCtrl ch c).dram.nextKey = s.dram.nextKey ∧ (s.setCtrl ch c).dram.bitmap = s.dram.bitmap ∧
    (s.setCtrl ch c).dram.rekeys = s.dram.rekeys ∧ (s.setCtrl ch c).dram.rows = s.dram.rows ∧
    (s.setCtrl ch c).dram.nextRow = s.dram.nextRow ∧ (s.setCtrl ch c).dram.rowWait = s.dram.rowWait ∧
    (s.setCtrl ch c).dram.rebuilds = s.dram.rebuilds ∧ (s.setCtrl ch c).dram.wipes = s.dram.wipes ∧
    (s.setCtrl ch c).dram.lostDimms = s.dram.lostDimms ∧ (s.setCtrl ch c).dram.dirty = s.dram.dirty ∧
    (s.setCtrl ch c).dram.backlog = s.dram.backlog ∧ (s.setCtrl ch c).dram.txns = s.dram.txns ∧
    (s.setCtrl ch c).dram.nextReq = s.dram.nextReq ∧ (s.setCtrl ch c).xlt = s.xlt ∧ (s.setCtrl ch c).link = s.link ∧
    (s.setCtrl ch c).ses = s.ses ∧ (s.setCtrl ch c).reck = s.reck ∧ (s.setCtrl ch c).fail = s.fail ∧ (s.setCtrl ch c).reg = s.reg ∧
    (s.setCtrl ch c).pow = s.pow ∧ (s.setCtrl ch c).age = s.age ∧ (s.setCtrl ch c).sec = s.sec ∧ (s.setCtrl ch c).fw = s.fw ∧
    (s.setCtrl ch c).boot = s.boot ∧ (s.setCtrl ch c).hostMem = s.hostMem ∧ (s.setCtrl ch c).sent = s.sent ∧
    (s.setCtrl ch c).log = s.log ∧ (s.setCtrl ch c).free = s.free :=
  ⟨rfl, rfl, rfl, rfl, rfl, rfl, rfl, rfl, rfl, rfl, rfl, rfl, rfl, rfl, rfl, rfl, rfl, rfl, rfl, rfl, rfl, rfl, rfl, rfl, rfl, rfl, rfl, rfl, rfl, rfl, rfl, rfl, rfl, rfl, rfl, rfl, rfl, rfl, rfl, rfl, rfl, rfl, rfl, rfl, rfl⟩

@[simp] theorem State.setMaster_frame (s : State) (k : Nat) (m : RegMaster) :
    (s.setMaster k m).pending = s.pending ∧ (s.setMaster k m).sys = s.sys ∧ (s.setMaster k m).svc = s.svc ∧
    (s.setMaster k m).host = s.host ∧ (s.setMaster k m).fen = s.fen ∧ (s.setMaster k m).part = s.part ∧
    (s.setMaster k m).stn = s.stn ∧ (s.setMaster k m).fab = s.fab ∧ (s.setMaster k m).spine = s.spine ∧
    (s.setMaster k m).cell = s.cell ∧ (s.setMaster k m).unit = s.unit ∧ (s.setMaster k m).dram = s.dram ∧
    (s.setMaster k m).xlt = s.xlt ∧ (s.setMaster k m).link = s.link ∧ (s.setMaster k m).ses = s.ses ∧
    (s.setMaster k m).reck = s.reck ∧ (s.setMaster k m).fail = s.fail ∧ (s.setMaster k m).reg.step = s.reg.step ∧
    (s.setMaster k m).reg.slots = s.reg.slots ∧ (s.setMaster k m).reg.begun = s.reg.begun ∧
    (s.setMaster k m).reg.sampled = s.reg.sampled ∧ (s.setMaster k m).pow = s.pow ∧ (s.setMaster k m).age = s.age ∧
    (s.setMaster k m).sec = s.sec ∧ (s.setMaster k m).fw = s.fw ∧ (s.setMaster k m).boot = s.boot ∧
    (s.setMaster k m).hostMem = s.hostMem ∧ (s.setMaster k m).sent = s.sent ∧ (s.setMaster k m).log = s.log ∧
    (s.setMaster k m).free = s.free :=
  ⟨rfl, rfl, rfl, rfl, rfl, rfl, rfl, rfl, rfl, rfl, rfl, rfl, rfl, rfl, rfl, rfl, rfl, rfl, rfl, rfl, rfl, rfl, rfl, rfl, rfl, rfl, rfl, rfl, rfl, rfl⟩

@[simp] theorem State.setFence_frame (s : State) (f : Nat) (x : Fence) :
    (s.setFence f x).pending = s.pending ∧ (s.setFence f x).sys = s.sys ∧ (s.setFence f x).svc = s.svc ∧
    (s.setFence f x).host = s.host ∧ (s.setFence f x).fen.waiters = s.fen.waiters ∧ (s.setFence f x).fen.port = s.fen.port ∧
    (s.setFence f x).fen.serveB = s.fen.serveB ∧ (s.setFence f x).fen.failed = s.fen.failed ∧ (s.setFence f x).part = s.part ∧
    (s.setFence f x).stn = s.stn ∧ (s.setFence f x).fab = s.fab ∧ (s.setFence f x).spine = s.spine ∧ (s.setFence f x).cell = s.cell ∧
    (s.setFence f x).unit = s.unit ∧ (s.setFence f x).dram = s.dram ∧ (s.setFence f x).xlt = s.xlt ∧ (s.setFence f x).link = s.link ∧
    (s.setFence f x).ses = s.ses ∧ (s.setFence f x).reck = s.reck ∧ (s.setFence f x).fail = s.fail ∧ (s.setFence f x).reg = s.reg ∧
    (s.setFence f x).pow = s.pow ∧ (s.setFence f x).age = s.age ∧ (s.setFence f x).sec = s.sec ∧ (s.setFence f x).fw = s.fw ∧
    (s.setFence f x).boot = s.boot ∧ (s.setFence f x).hostMem = s.hostMem ∧ (s.setFence f x).sent = s.sent ∧
    (s.setFence f x).log = s.log ∧ (s.setFence f x).free = s.free :=
  ⟨rfl, rfl, rfl, rfl, rfl, rfl, rfl, rfl, rfl, rfl, rfl, rfl, rfl, rfl, rfl, rfl, rfl, rfl, rfl, rfl, rfl, rfl, rfl, rfl, rfl, rfl, rfl, rfl, rfl, rfl⟩

@[simp] theorem State.setM_frame (s : State) (c : Nat) (x : MCell) :
    (s.setM c x).pending = s.pending ∧ (s.setM c x).sys = s.sys ∧ (s.setM c x).svc = s.svc ∧ (s.setM c x).host = s.host ∧
    (s.setM c x).fen = s.fen ∧ (s.setM c x).part = s.part ∧ (s.setM c x).stn = s.stn ∧ (s.setM c x).fab = s.fab ∧
    (s.setM c x).spine = s.spine ∧ (s.setM c x).cell.v = s.cell.v ∧ (s.setM c x).cell.s = s.cell.s ∧
    (s.setM c x).cell.images = s.cell.images ∧ (s.setM c x).cell.retired = s.cell.retired ∧
    (s.setM c x).cell.corrected = s.cell.corrected ∧ (s.setM c x).cell.gens = s.cell.gens ∧ (s.setM c x).unit = s.unit ∧
    (s.setM c x).dram = s.dram ∧ (s.setM c x).xlt = s.xlt ∧ (s.setM c x).link = s.link ∧ (s.setM c x).ses = s.ses ∧
    (s.setM c x).reck = s.reck ∧ (s.setM c x).fail = s.fail ∧ (s.setM c x).reg = s.reg ∧ (s.setM c x).pow = s.pow ∧
    (s.setM c x).age = s.age ∧ (s.setM c x).sec = s.sec ∧ (s.setM c x).fw = s.fw ∧ (s.setM c x).boot = s.boot ∧
    (s.setM c x).hostMem = s.hostMem ∧ (s.setM c x).sent = s.sent ∧ (s.setM c x).log = s.log ∧ (s.setM c x).free = s.free :=
  ⟨rfl, rfl, rfl, rfl, rfl, rfl, rfl, rfl, rfl, rfl, rfl, rfl, rfl, rfl, rfl, rfl, rfl, rfl, rfl, rfl, rfl, rfl, rfl, rfl, rfl, rfl, rfl, rfl, rfl, rfl, rfl, rfl⟩

@[simp] theorem State.setV_frame (s : State) (c : Nat) (x : VCell) :
    (s.setV c x).pending = s.pending ∧ (s.setV c x).sys = s.sys ∧ (s.setV c x).svc = s.svc ∧ (s.setV c x).host = s.host ∧
    (s.setV c x).fen = s.fen ∧ (s.setV c x).part = s.part ∧ (s.setV c x).stn = s.stn ∧ (s.setV c x).fab = s.fab ∧
    (s.setV c x).spine = s.spine ∧ (s.setV c x).cell.m = s.cell.m ∧ (s.setV c x).cell.s = s.cell.s ∧
    (s.setV c x).cell.images = s.cell.images ∧ (s.setV c x).cell.retired = s.cell.retired ∧
    (s.setV c x).cell.corrected = s.cell.corrected ∧ (s.setV c x).cell.gens = s.cell.gens ∧ (s.setV c x).unit = s.unit ∧
    (s.setV c x).dram = s.dram ∧ (s.setV c x).xlt = s.xlt ∧ (s.setV c x).link = s.link ∧ (s.setV c x).ses = s.ses ∧
    (s.setV c x).reck = s.reck ∧ (s.setV c x).fail = s.fail ∧ (s.setV c x).reg = s.reg ∧ (s.setV c x).pow = s.pow ∧
    (s.setV c x).age = s.age ∧ (s.setV c x).sec = s.sec ∧ (s.setV c x).fw = s.fw ∧ (s.setV c x).boot = s.boot ∧
    (s.setV c x).hostMem = s.hostMem ∧ (s.setV c x).sent = s.sent ∧ (s.setV c x).log = s.log ∧ (s.setV c x).free = s.free :=
  ⟨rfl, rfl, rfl, rfl, rfl, rfl, rfl, rfl, rfl, rfl, rfl, rfl, rfl, rfl, rfl, rfl, rfl, rfl, rfl, rfl, rfl, rfl, rfl, rfl, rfl, rfl, rfl, rfl, rfl, rfl, rfl, rfl⟩

@[simp] theorem State.setS_frame (s : State) (c : Nat) (x : SCell) :
    (s.setS c x).pending = s.pending ∧ (s.setS c x).sys = s.sys ∧ (s.setS c x).svc = s.svc ∧ (s.setS c x).host = s.host ∧
    (s.setS c x).fen = s.fen ∧ (s.setS c x).part = s.part ∧ (s.setS c x).stn = s.stn ∧ (s.setS c x).fab = s.fab ∧
    (s.setS c x).spine = s.spine ∧ (s.setS c x).cell.m = s.cell.m ∧ (s.setS c x).cell.v = s.cell.v ∧
    (s.setS c x).cell.images = s.cell.images ∧ (s.setS c x).cell.retired = s.cell.retired ∧
    (s.setS c x).cell.corrected = s.cell.corrected ∧ (s.setS c x).cell.gens = s.cell.gens ∧ (s.setS c x).unit = s.unit ∧
    (s.setS c x).dram = s.dram ∧ (s.setS c x).xlt = s.xlt ∧ (s.setS c x).link = s.link ∧ (s.setS c x).ses = s.ses ∧
    (s.setS c x).reck = s.reck ∧ (s.setS c x).fail = s.fail ∧ (s.setS c x).reg = s.reg ∧ (s.setS c x).pow = s.pow ∧
    (s.setS c x).age = s.age ∧ (s.setS c x).sec = s.sec ∧ (s.setS c x).fw = s.fw ∧ (s.setS c x).boot = s.boot ∧
    (s.setS c x).hostMem = s.hostMem ∧ (s.setS c x).sent = s.sent ∧ (s.setS c x).log = s.log ∧ (s.setS c x).free = s.free :=
  ⟨rfl, rfl, rfl, rfl, rfl, rfl, rfl, rfl, rfl, rfl, rfl, rfl, rfl, rfl, rfl, rfl, rfl, rfl, rfl, rfl, rfl, rfl, rfl, rfl, rfl, rfl, rfl, rfl, rfl, rfl, rfl, rfl⟩

@[simp] theorem State.setPlan_frame (s : State) (k : Nat) (x : Plan) :
    (s.setPlan k x).pending = s.pending ∧ (s.setPlan k x).sys = s.sys ∧ (s.setPlan k x).svc.waiting = s.svc.waiting ∧
    (s.setPlan k x).svc.lastServed = s.svc.lastServed ∧ (s.setPlan k x).svc.retry = s.svc.retry ∧
    (s.setPlan k x).svc.cancel = s.svc.cancel ∧ (s.setPlan k x).svc.milestone = s.svc.milestone ∧
    (s.setPlan k x).svc.stewards = s.svc.stewards ∧ (s.setPlan k x).host = s.host ∧ (s.setPlan k x).fen = s.fen ∧
    (s.setPlan k x).part = s.part ∧ (s.setPlan k x).stn = s.stn ∧ (s.setPlan k x).fab = s.fab ∧ (s.setPlan k x).spine = s.spine ∧
    (s.setPlan k x).cell = s.cell ∧ (s.setPlan k x).unit = s.unit ∧ (s.setPlan k x).dram = s.dram ∧ (s.setPlan k x).xlt = s.xlt ∧
    (s.setPlan k x).link = s.link ∧ (s.setPlan k x).ses = s.ses ∧ (s.setPlan k x).reck = s.reck ∧ (s.setPlan k x).fail = s.fail ∧
    (s.setPlan k x).reg = s.reg ∧ (s.setPlan k x).pow = s.pow ∧ (s.setPlan k x).age = s.age ∧ (s.setPlan k x).sec = s.sec ∧
    (s.setPlan k x).fw = s.fw ∧ (s.setPlan k x).boot = s.boot ∧ (s.setPlan k x).hostMem = s.hostMem ∧ (s.setPlan k x).sent = s.sent ∧
    (s.setPlan k x).log = s.log ∧ (s.setPlan k x).free = s.free :=
  ⟨rfl, rfl, rfl, rfl, rfl, rfl, rfl, rfl, rfl, rfl, rfl, rfl, rfl, rfl, rfl, rfl, rfl, rfl, rfl, rfl, rfl, rfl, rfl, rfl, rfl, rfl, rfl, rfl, rfl, rfl, rfl, rfl⟩

@[simp] theorem State.setSess_frame (s : State) (slot : Nat) (x : Sess) :
    (s.setSess slot x).pending = s.pending ∧ (s.setSess slot x).sys = s.sys ∧ (s.setSess slot x).svc = s.svc ∧
    (s.setSess slot x).host = s.host ∧ (s.setSess slot x).fen = s.fen ∧ (s.setSess slot x).part = s.part ∧
    (s.setSess slot x).stn = s.stn ∧ (s.setSess slot x).fab = s.fab ∧ (s.setSess slot x).spine = s.spine ∧
    (s.setSess slot x).cell = s.cell ∧ (s.setSess slot x).unit = s.unit ∧ (s.setSess slot x).dram = s.dram ∧
    (s.setSess slot x).xlt = s.xlt ∧ (s.setSess slot x).link = s.link ∧ (s.setSess slot x).ses.gens = s.ses.gens ∧
    (s.setSess slot x).ses.taps = s.ses.taps ∧ (s.setSess slot x).ses.strays = s.ses.strays ∧
    (s.setSess slot x).ses.nextOrder = s.ses.nextOrder ∧ (s.setSess slot x).ses.holdings = s.ses.holdings ∧
    (s.setSess slot x).ses.homes = s.ses.homes ∧ (s.setSess slot x).ses.leases = s.ses.leases ∧
    (s.setSess slot x).ses.stale = s.ses.stale ∧ (s.setSess slot x).ses.nextTransfer = s.ses.nextTransfer ∧
    (s.setSess slot x).reck = s.reck ∧ (s.setSess slot x).fail = s.fail ∧ (s.setSess slot x).reg = s.reg ∧
    (s.setSess slot x).pow = s.pow ∧ (s.setSess slot x).age = s.age ∧ (s.setSess slot x).sec = s.sec ∧ (s.setSess slot x).fw = s.fw ∧
    (s.setSess slot x).boot = s.boot ∧ (s.setSess slot x).hostMem = s.hostMem ∧ (s.setSess slot x).sent = s.sent ∧
    (s.setSess slot x).log = s.log ∧ (s.setSess slot x).free = s.free :=
  ⟨rfl, rfl, rfl, rfl, rfl, rfl, rfl, rfl, rfl, rfl, rfl, rfl, rfl, rfl, rfl, rfl, rfl, rfl, rfl, rfl, rfl, rfl, rfl, rfl, rfl, rfl, rfl, rfl, rfl, rfl, rfl, rfl, rfl, rfl, rfl⟩

@[simp] theorem State.updSess_frame (s : State) (slot : Nat) (f : Sess → Sess) :
    (s.updSess slot f).pending = s.pending ∧ (s.updSess slot f).sys = s.sys ∧ (s.updSess slot f).svc = s.svc ∧
    (s.updSess slot f).host = s.host ∧ (s.updSess slot f).fen = s.fen ∧ (s.updSess slot f).part = s.part ∧
    (s.updSess slot f).stn = s.stn ∧ (s.updSess slot f).fab = s.fab ∧ (s.updSess slot f).spine = s.spine ∧
    (s.updSess slot f).cell = s.cell ∧ (s.updSess slot f).unit = s.unit ∧ (s.updSess slot f).dram = s.dram ∧
    (s.updSess slot f).xlt = s.xlt ∧ (s.updSess slot f).link = s.link ∧ (s.updSess slot f).ses.gens = s.ses.gens ∧
    (s.updSess slot f).ses.taps = s.ses.taps ∧ (s.updSess slot f).ses.strays = s.ses.strays ∧
    (s.updSess slot f).ses.nextOrder = s.ses.nextOrder ∧ (s.updSess slot f).ses.holdings = s.ses.holdings ∧
    (s.updSess slot f).ses.homes = s.ses.homes ∧ (s.updSess slot f).ses.leases = s.ses.leases ∧
    (s.updSess slot f).ses.stale = s.ses.stale ∧ (s.updSess slot f).ses.nextTransfer = s.ses.nextTransfer ∧
    (s.updSess slot f).reck = s.reck ∧ (s.updSess slot f).fail = s.fail ∧ (s.updSess slot f).reg = s.reg ∧
    (s.updSess slot f).pow = s.pow ∧ (s.updSess slot f).age = s.age ∧ (s.updSess slot f).sec = s.sec ∧ (s.updSess slot f).fw = s.fw ∧
    (s.updSess slot f).boot = s.boot ∧ (s.updSess slot f).hostMem = s.hostMem ∧ (s.updSess slot f).sent = s.sent ∧
    (s.updSess slot f).log = s.log ∧ (s.updSess slot f).free = s.free :=
  ⟨rfl, rfl, rfl, rfl, rfl, rfl, rfl, rfl, rfl, rfl, rfl, rfl, rfl, rfl, rfl, rfl, rfl, rfl, rfl, rfl, rfl, rfl, rfl, rfl, rfl, rfl, rfl, rfl, rfl, rfl, rfl, rfl, rfl, rfl, rfl⟩

@[simp] theorem State.setSteward_frame (s : State) (c : Nat) (t : Steward) :
    (s.setSteward c t).pending = s.pending ∧ (s.setSteward c t).sys = s.sys ∧ (s.setSteward c t).svc.waiting = s.svc.waiting ∧
    (s.setSteward c t).svc.lastServed = s.svc.lastServed ∧ (s.setSteward c t).svc.retry = s.svc.retry ∧
    (s.setSteward c t).svc.cancel = s.svc.cancel ∧ (s.setSteward c t).svc.milestone = s.svc.milestone ∧
    (s.setSteward c t).svc.plans = s.svc.plans ∧ (s.setSteward c t).host = s.host ∧ (s.setSteward c t).fen = s.fen ∧
    (s.setSteward c t).part = s.part ∧ (s.setSteward c t).stn = s.stn ∧ (s.setSteward c t).fab = s.fab ∧
    (s.setSteward c t).spine = s.spine ∧ (s.setSteward c t).cell = s.cell ∧ (s.setSteward c t).unit = s.unit ∧
    (s.setSteward c t).dram = s.dram ∧ (s.setSteward c t).xlt = s.xlt ∧ (s.setSteward c t).link = s.link ∧
    (s.setSteward c t).ses = s.ses ∧ (s.setSteward c t).reck = s.reck ∧ (s.setSteward c t).fail = s.fail ∧
    (s.setSteward c t).reg = s.reg ∧ (s.setSteward c t).pow = s.pow ∧ (s.setSteward c t).age = s.age ∧
    (s.setSteward c t).sec = s.sec ∧ (s.setSteward c t).fw = s.fw ∧ (s.setSteward c t).boot = s.boot ∧
    (s.setSteward c t).hostMem = s.hostMem ∧ (s.setSteward c t).sent = s.sent ∧ (s.setSteward c t).log = s.log ∧
    (s.setSteward c t).free = s.free :=
  ⟨rfl, rfl, rfl, rfl, rfl, rfl, rfl, rfl, rfl, rfl, rfl, rfl, rfl, rfl, rfl, rfl, rfl, rfl, rfl, rfl, rfl, rfl, rfl, rfl, rfl, rfl, rfl, rfl, rfl, rfl, rfl, rfl⟩

@[simp] theorem State.setBtu_frame (s : State) (b : Nat) (x : Btu) :
    (s.setBtu b x).pending = s.pending ∧ (s.setBtu b x).sys = s.sys ∧ (s.setBtu b x).svc = s.svc ∧ (s.setBtu b x).host = s.host ∧
    (s.setBtu b x).fen = s.fen ∧ (s.setBtu b x).part = s.part ∧ (s.setBtu b x).stn = s.stn ∧ (s.setBtu b x).fab = s.fab ∧
    (s.setBtu b x).spine = s.spine ∧ (s.setBtu b x).cell = s.cell ∧ (s.setBtu b x).unit = s.unit ∧ (s.setBtu b x).dram = s.dram ∧
    (s.setBtu b x).xlt.syncs = s.xlt.syncs ∧ (s.setBtu b x).xlt.nextSync = s.xlt.nextSync ∧ (s.setBtu b x).xlt.out = s.xlt.out ∧
    (s.setBtu b x).xlt.windows = s.xlt.windows ∧ (s.setBtu b x).xlt.keys = s.xlt.keys ∧ (s.setBtu b x).xlt.winOps = s.xlt.winOps ∧
    (s.setBtu b x).xlt.nextOp = s.xlt.nextOp ∧ (s.setBtu b x).xlt.remote = s.xlt.remote ∧ (s.setBtu b x).link = s.link ∧
    (s.setBtu b x).ses = s.ses ∧ (s.setBtu b x).reck = s.reck ∧ (s.setBtu b x).fail = s.fail ∧ (s.setBtu b x).reg = s.reg ∧
    (s.setBtu b x).pow = s.pow ∧ (s.setBtu b x).age = s.age ∧ (s.setBtu b x).sec = s.sec ∧ (s.setBtu b x).fw = s.fw ∧
    (s.setBtu b x).boot = s.boot ∧ (s.setBtu b x).hostMem = s.hostMem ∧ (s.setBtu b x).sent = s.sent ∧ (s.setBtu b x).log = s.log ∧
    (s.setBtu b x).free = s.free :=
  ⟨rfl, rfl, rfl, rfl, rfl, rfl, rfl, rfl, rfl, rfl, rfl, rfl, rfl, rfl, rfl, rfl, rfl, rfl, rfl, rfl, rfl, rfl, rfl, rfl, rfl, rfl, rfl, rfl, rfl, rfl, rfl, rfl, rfl, rfl⟩

@[simp] theorem State.setWindow_frame (s : State) (id : Nat) (w : Window) :
    (s.setWindow id w).pending = s.pending ∧ (s.setWindow id w).sys = s.sys ∧ (s.setWindow id w).svc = s.svc ∧
    (s.setWindow id w).host = s.host ∧ (s.setWindow id w).fen = s.fen ∧ (s.setWindow id w).part = s.part ∧
    (s.setWindow id w).stn = s.stn ∧ (s.setWindow id w).fab = s.fab ∧ (s.setWindow id w).spine = s.spine ∧
    (s.setWindow id w).cell = s.cell ∧ (s.setWindow id w).unit = s.unit ∧ (s.setWindow id w).dram = s.dram ∧
    (s.setWindow id w).xlt.btus = s.xlt.btus ∧ (s.setWindow id w).xlt.syncs = s.xlt.syncs ∧
    (s.setWindow id w).xlt.nextSync = s.xlt.nextSync ∧ (s.setWindow id w).xlt.out = s.xlt.out ∧
    (s.setWindow id w).xlt.keys = s.xlt.keys ∧ (s.setWindow id w).xlt.winOps = s.xlt.winOps ∧
    (s.setWindow id w).xlt.nextOp = s.xlt.nextOp ∧ (s.setWindow id w).xlt.remote = s.xlt.remote ∧ (s.setWindow id w).link = s.link ∧
    (s.setWindow id w).ses = s.ses ∧ (s.setWindow id w).reck = s.reck ∧ (s.setWindow id w).fail = s.fail ∧
    (s.setWindow id w).reg = s.reg ∧ (s.setWindow id w).pow = s.pow ∧ (s.setWindow id w).age = s.age ∧
    (s.setWindow id w).sec = s.sec ∧ (s.setWindow id w).fw = s.fw ∧ (s.setWindow id w).boot = s.boot ∧
    (s.setWindow id w).hostMem = s.hostMem ∧ (s.setWindow id w).sent = s.sent ∧ (s.setWindow id w).log = s.log ∧
    (s.setWindow id w).free = s.free :=
  ⟨rfl, rfl, rfl, rfl, rfl, rfl, rfl, rfl, rfl, rfl, rfl, rfl, rfl, rfl, rfl, rfl, rfl, rfl, rfl, rfl, rfl, rfl, rfl, rfl, rfl, rfl, rfl, rfl, rfl, rfl, rfl, rfl, rfl, rfl⟩

@[simp] theorem State.setQpair_frame (s : State) (q : Nat) (x : QPair) :
    (s.setQpair q x).pending = s.pending ∧ (s.setQpair q x).sys = s.sys ∧ (s.setQpair q x).svc = s.svc ∧
    (s.setQpair q x).host = s.host ∧ (s.setQpair q x).fen = s.fen ∧ (s.setQpair q x).part.parts = s.part.parts ∧
    (s.setQpair q x).part.releases = s.part.releases ∧ (s.setQpair q x).part.moves = s.part.moves ∧
    (s.setQpair q x).part.stationMoves = s.part.stationMoves ∧ (s.setQpair q x).part.blockEpoch = s.part.blockEpoch ∧
    (s.setQpair q x).part.tableWrites = s.part.tableWrites ∧ (s.setQpair q x).part.shareRefs = s.part.shareRefs ∧
    (s.setQpair q x).stn = s.stn ∧ (s.setQpair q x).fab = s.fab ∧ (s.setQpair q x).spine = s.spine ∧ (s.setQpair q x).cell = s.cell ∧
    (s.setQpair q x).unit = s.unit ∧ (s.setQpair q x).dram = s.dram ∧ (s.setQpair q x).xlt = s.xlt ∧ (s.setQpair q x).link = s.link ∧
    (s.setQpair q x).ses = s.ses ∧ (s.setQpair q x).reck = s.reck ∧ (s.setQpair q x).fail = s.fail ∧ (s.setQpair q x).reg = s.reg ∧
    (s.setQpair q x).pow = s.pow ∧ (s.setQpair q x).age = s.age ∧ (s.setQpair q x).sec = s.sec ∧ (s.setQpair q x).fw = s.fw ∧
    (s.setQpair q x).boot = s.boot ∧ (s.setQpair q x).hostMem = s.hostMem ∧ (s.setQpair q x).sent = s.sent ∧
    (s.setQpair q x).log = s.log ∧ (s.setQpair q x).free = s.free :=
  ⟨rfl, rfl, rfl, rfl, rfl, rfl, rfl, rfl, rfl, rfl, rfl, rfl, rfl, rfl, rfl, rfl, rfl, rfl, rfl, rfl, rfl, rfl, rfl, rfl, rfl, rfl, rfl, rfl, rfl, rfl, rfl, rfl, rfl⟩

@[simp] theorem State.setRekey_frame (s : State) (p : Nat) (y : Rekey) :
    (s.setRekey p y).pending = s.pending ∧ (s.setRekey p y).sys = s.sys ∧ (s.setRekey p y).svc = s.svc ∧
    (s.setRekey p y).host = s.host ∧ (s.setRekey p y).fen = s.fen ∧ (s.setRekey p y).part = s.part ∧ (s.setRekey p y).stn = s.stn ∧
    (s.setRekey p y).fab = s.fab ∧ (s.setRekey p y).spine = s.spine ∧ (s.setRekey p y).cell = s.cell ∧
    (s.setRekey p y).unit = s.unit ∧ (s.setRekey p y).dram.dram = s.dram.dram ∧ (s.setRekey p y).dram.written = s.dram.written ∧
    (s.setRekey p y).dram.rate = s.dram.rate ∧ (s.setRekey p y).dram.dimmGb = s.dram.dimmGb ∧
    (s.setRekey p y).dram.ctrls = s.dram.ctrls ∧ (s.setRekey p y).dram.keys = s.dram.keys ∧
    (s.setRekey p y).dram.devKeys = s.dram.devKeys ∧ (s.setRekey p y).dram.nextKey = s.dram.nextKey ∧
    (s.setRekey p y).dram.bitmap = s.dram.bitmap ∧ (s.setRekey p y).dram.rows = s.dram.rows ∧
    (s.setRekey p y).dram.nextRow = s.dram.nextRow ∧ (s.setRekey p y).dram.rowWait = s.dram.rowWait ∧
    (s.setRekey p y).dram.rebuilds = s.dram.rebuilds ∧ (s.setRekey p y).dram.wipes = s.dram.wipes ∧
    (s.setRekey p y).dram.lostDimms = s.dram.lostDimms ∧ (s.setRekey p y).dram.dirty = s.dram.dirty ∧
    (s.setRekey p y).dram.backlog = s.dram.backlog ∧ (s.setRekey p y).dram.txns = s.dram.txns ∧
    (s.setRekey p y).dram.nextReq = s.dram.nextReq ∧ (s.setRekey p y).xlt = s.xlt ∧ (s.setRekey p y).link = s.link ∧
    (s.setRekey p y).ses = s.ses ∧ (s.setRekey p y).reck = s.reck ∧ (s.setRekey p y).fail = s.fail ∧ (s.setRekey p y).reg = s.reg ∧
    (s.setRekey p y).pow = s.pow ∧ (s.setRekey p y).age = s.age ∧ (s.setRekey p y).sec = s.sec ∧ (s.setRekey p y).fw = s.fw ∧
    (s.setRekey p y).boot = s.boot ∧ (s.setRekey p y).hostMem = s.hostMem ∧ (s.setRekey p y).sent = s.sent ∧
    (s.setRekey p y).log = s.log ∧ (s.setRekey p y).free = s.free :=
  ⟨rfl, rfl, rfl, rfl, rfl, rfl, rfl, rfl, rfl, rfl, rfl, rfl, rfl, rfl, rfl, rfl, rfl, rfl, rfl, rfl, rfl, rfl, rfl, rfl, rfl, rfl, rfl, rfl, rfl, rfl, rfl, rfl, rfl, rfl, rfl, rfl, rfl, rfl, rfl, rfl, rfl, rfl, rfl, rfl, rfl⟩

@[simp] theorem State.setLease_frame (s : State) (k : Nat) (l : Lease) :
    (s.setLease k l).pending = s.pending ∧ (s.setLease k l).sys = s.sys ∧ (s.setLease k l).svc = s.svc ∧
    (s.setLease k l).host = s.host ∧ (s.setLease k l).fen = s.fen ∧ (s.setLease k l).part = s.part ∧ (s.setLease k l).stn = s.stn ∧
    (s.setLease k l).fab = s.fab ∧ (s.setLease k l).spine = s.spine ∧ (s.setLease k l).cell = s.cell ∧
    (s.setLease k l).unit = s.unit ∧ (s.setLease k l).dram = s.dram ∧ (s.setLease k l).xlt = s.xlt ∧ (s.setLease k l).link = s.link ∧
    (s.setLease k l).ses.sessions = s.ses.sessions ∧ (s.setLease k l).ses.gens = s.ses.gens ∧ (s.setLease k l).ses.taps = s.ses.taps ∧
    (s.setLease k l).ses.strays = s.ses.strays ∧ (s.setLease k l).ses.nextOrder = s.ses.nextOrder ∧
    (s.setLease k l).ses.holdings = s.ses.holdings ∧ (s.setLease k l).ses.homes = s.ses.homes ∧
    (s.setLease k l).ses.stale = s.ses.stale ∧ (s.setLease k l).ses.nextTransfer = s.ses.nextTransfer ∧
    (s.setLease k l).reck = s.reck ∧ (s.setLease k l).fail = s.fail ∧ (s.setLease k l).reg = s.reg ∧ (s.setLease k l).pow = s.pow ∧
    (s.setLease k l).age = s.age ∧ (s.setLease k l).sec = s.sec ∧ (s.setLease k l).fw = s.fw ∧ (s.setLease k l).boot = s.boot ∧
    (s.setLease k l).hostMem = s.hostMem ∧ (s.setLease k l).sent = s.sent ∧ (s.setLease k l).log = s.log ∧
    (s.setLease k l).free = s.free :=
  ⟨rfl, rfl, rfl, rfl, rfl, rfl, rfl, rfl, rfl, rfl, rfl, rfl, rfl, rfl, rfl, rfl, rfl, rfl, rfl, rfl, rfl, rfl, rfl, rfl, rfl, rfl, rfl, rfl, rfl, rfl, rfl, rfl, rfl, rfl, rfl⟩

@[simp] theorem State.setHome_frame (s : State) (k : Nat) (h : HomeRec) :
    (s.setHome k h).pending = s.pending ∧ (s.setHome k h).sys = s.sys ∧ (s.setHome k h).svc = s.svc ∧ (s.setHome k h).host = s.host ∧
    (s.setHome k h).fen = s.fen ∧ (s.setHome k h).part = s.part ∧ (s.setHome k h).stn = s.stn ∧ (s.setHome k h).fab = s.fab ∧
    (s.setHome k h).spine = s.spine ∧ (s.setHome k h).cell = s.cell ∧ (s.setHome k h).unit = s.unit ∧ (s.setHome k h).dram = s.dram ∧
    (s.setHome k h).xlt = s.xlt ∧ (s.setHome k h).link = s.link ∧ (s.setHome k h).ses.sessions = s.ses.sessions ∧
    (s.setHome k h).ses.gens = s.ses.gens ∧ (s.setHome k h).ses.taps = s.ses.taps ∧ (s.setHome k h).ses.strays = s.ses.strays ∧
    (s.setHome k h).ses.nextOrder = s.ses.nextOrder ∧ (s.setHome k h).ses.holdings = s.ses.holdings ∧
    (s.setHome k h).ses.leases = s.ses.leases ∧ (s.setHome k h).ses.stale = s.ses.stale ∧
    (s.setHome k h).ses.nextTransfer = s.ses.nextTransfer ∧ (s.setHome k h).reck = s.reck ∧ (s.setHome k h).fail = s.fail ∧
    (s.setHome k h).reg = s.reg ∧ (s.setHome k h).pow = s.pow ∧ (s.setHome k h).age = s.age ∧ (s.setHome k h).sec = s.sec ∧
    (s.setHome k h).fw = s.fw ∧ (s.setHome k h).boot = s.boot ∧ (s.setHome k h).hostMem = s.hostMem ∧ (s.setHome k h).sent = s.sent ∧
    (s.setHome k h).log = s.log ∧ (s.setHome k h).free = s.free :=
  ⟨rfl, rfl, rfl, rfl, rfl, rfl, rfl, rfl, rfl, rfl, rfl, rfl, rfl, rfl, rfl, rfl, rfl, rfl, rfl, rfl, rfl, rfl, rfl, rfl, rfl, rfl, rfl, rfl, rfl, rfl, rfl, rfl, rfl, rfl, rfl⟩

@[simp] theorem State.setHolding_frame (s : State) (h : Nat) (x : Holding) :
    (s.setHolding h x).pending = s.pending ∧ (s.setHolding h x).sys = s.sys ∧ (s.setHolding h x).svc = s.svc ∧
    (s.setHolding h x).host = s.host ∧ (s.setHolding h x).fen = s.fen ∧ (s.setHolding h x).part = s.part ∧
    (s.setHolding h x).stn = s.stn ∧ (s.setHolding h x).fab = s.fab ∧ (s.setHolding h x).spine = s.spine ∧
    (s.setHolding h x).cell = s.cell ∧ (s.setHolding h x).unit = s.unit ∧ (s.setHolding h x).dram = s.dram ∧
    (s.setHolding h x).xlt = s.xlt ∧ (s.setHolding h x).link = s.link ∧ (s.setHolding h x).ses.sessions = s.ses.sessions ∧
    (s.setHolding h x).ses.gens = s.ses.gens ∧ (s.setHolding h x).ses.taps = s.ses.taps ∧
    (s.setHolding h x).ses.strays = s.ses.strays ∧ (s.setHolding h x).ses.nextOrder = s.ses.nextOrder ∧
    (s.setHolding h x).ses.homes = s.ses.homes ∧ (s.setHolding h x).ses.leases = s.ses.leases ∧
    (s.setHolding h x).ses.stale = s.ses.stale ∧ (s.setHolding h x).ses.nextTransfer = s.ses.nextTransfer ∧
    (s.setHolding h x).reck = s.reck ∧ (s.setHolding h x).fail = s.fail ∧ (s.setHolding h x).reg = s.reg ∧
    (s.setHolding h x).pow = s.pow ∧ (s.setHolding h x).age = s.age ∧ (s.setHolding h x).sec = s.sec ∧ (s.setHolding h x).fw = s.fw ∧
    (s.setHolding h x).boot = s.boot ∧ (s.setHolding h x).hostMem = s.hostMem ∧ (s.setHolding h x).sent = s.sent ∧
    (s.setHolding h x).log = s.log ∧ (s.setHolding h x).free = s.free :=
  ⟨rfl, rfl, rfl, rfl, rfl, rfl, rfl, rfl, rfl, rfl, rfl, rfl, rfl, rfl, rfl, rfl, rfl, rfl, rfl, rfl, rfl, rfl, rfl, rfl, rfl, rfl, rfl, rfl, rfl, rfl, rfl, rfl, rfl, rfl, rfl⟩

@[simp] theorem State.setPort_frame (s : State) (n : Nat) (x : LPort) :
    (s.setPort n x).pending = s.pending ∧ (s.setPort n x).sys = s.sys ∧ (s.setPort n x).svc = s.svc ∧ (s.setPort n x).host = s.host ∧
    (s.setPort n x).fen = s.fen ∧ (s.setPort n x).part = s.part ∧ (s.setPort n x).stn = s.stn ∧ (s.setPort n x).fab = s.fab ∧
    (s.setPort n x).spine = s.spine ∧ (s.setPort n x).cell = s.cell ∧ (s.setPort n x).unit = s.unit ∧ (s.setPort n x).dram = s.dram ∧
    (s.setPort n x).xlt = s.xlt ∧ (s.setPort n x).link.groups = s.link.groups ∧ (s.setPort n x).link.colls = s.link.colls ∧
    (s.setPort n x).link.arrivals = s.link.arrivals ∧ (s.setPort n x).link.dropped = s.link.dropped ∧
    (s.setPort n x).link.pace = s.link.pace ∧ (s.setPort n x).link.paceCap = s.link.paceCap ∧ (s.setPort n x).ses = s.ses ∧
    (s.setPort n x).reck = s.reck ∧ (s.setPort n x).fail = s.fail ∧ (s.setPort n x).reg = s.reg ∧ (s.setPort n x).pow = s.pow ∧
    (s.setPort n x).age = s.age ∧ (s.setPort n x).sec = s.sec ∧ (s.setPort n x).fw = s.fw ∧ (s.setPort n x).boot = s.boot ∧
    (s.setPort n x).hostMem = s.hostMem ∧ (s.setPort n x).sent = s.sent ∧ (s.setPort n x).log = s.log ∧
    (s.setPort n x).free = s.free :=
  ⟨rfl, rfl, rfl, rfl, rfl, rfl, rfl, rfl, rfl, rfl, rfl, rfl, rfl, rfl, rfl, rfl, rfl, rfl, rfl, rfl, rfl, rfl, rfl, rfl, rfl, rfl, rfl, rfl, rfl, rfl, rfl, rfl⟩

@[simp] theorem State.updPort_frame (s : State) (n : Nat) (f : LPort → LPort) :
    (s.updPort n f).pending = s.pending ∧ (s.updPort n f).sys = s.sys ∧ (s.updPort n f).svc = s.svc ∧ (s.updPort n f).host = s.host ∧
    (s.updPort n f).fen = s.fen ∧ (s.updPort n f).part = s.part ∧ (s.updPort n f).stn = s.stn ∧ (s.updPort n f).fab = s.fab ∧
    (s.updPort n f).spine = s.spine ∧ (s.updPort n f).cell = s.cell ∧ (s.updPort n f).unit = s.unit ∧ (s.updPort n f).dram = s.dram ∧
    (s.updPort n f).xlt = s.xlt ∧ (s.updPort n f).link.groups = s.link.groups ∧ (s.updPort n f).link.colls = s.link.colls ∧
    (s.updPort n f).link.arrivals = s.link.arrivals ∧ (s.updPort n f).link.dropped = s.link.dropped ∧
    (s.updPort n f).link.pace = s.link.pace ∧ (s.updPort n f).link.paceCap = s.link.paceCap ∧ (s.updPort n f).ses = s.ses ∧
    (s.updPort n f).reck = s.reck ∧ (s.updPort n f).fail = s.fail ∧ (s.updPort n f).reg = s.reg ∧ (s.updPort n f).pow = s.pow ∧
    (s.updPort n f).age = s.age ∧ (s.updPort n f).sec = s.sec ∧ (s.updPort n f).fw = s.fw ∧ (s.updPort n f).boot = s.boot ∧
    (s.updPort n f).hostMem = s.hostMem ∧ (s.updPort n f).sent = s.sent ∧ (s.updPort n f).log = s.log ∧
    (s.updPort n f).free = s.free :=
  ⟨rfl, rfl, rfl, rfl, rfl, rfl, rfl, rfl, rfl, rfl, rfl, rfl, rfl, rfl, rfl, rfl, rfl, rfl, rfl, rfl, rfl, rfl, rfl, rfl, rfl, rfl, rfl, rfl, rfl, rfl, rfl, rfl⟩

@[simp] theorem State.setColl_frame (s : State) (n : Nat) (c : CollRun) :
    (s.setColl n c).pending = s.pending ∧ (s.setColl n c).sys = s.sys ∧ (s.setColl n c).svc = s.svc ∧ (s.setColl n c).host = s.host ∧
    (s.setColl n c).fen = s.fen ∧ (s.setColl n c).part = s.part ∧ (s.setColl n c).stn = s.stn ∧ (s.setColl n c).fab = s.fab ∧
    (s.setColl n c).spine = s.spine ∧ (s.setColl n c).cell = s.cell ∧ (s.setColl n c).unit = s.unit ∧ (s.setColl n c).dram = s.dram ∧
    (s.setColl n c).xlt = s.xlt ∧ (s.setColl n c).link.ports = s.link.ports ∧ (s.setColl n c).link.groups = s.link.groups ∧
    (s.setColl n c).link.arrivals = s.link.arrivals ∧ (s.setColl n c).link.dropped = s.link.dropped ∧
    (s.setColl n c).link.pace = s.link.pace ∧ (s.setColl n c).link.paceCap = s.link.paceCap ∧ (s.setColl n c).ses = s.ses ∧
    (s.setColl n c).reck = s.reck ∧ (s.setColl n c).fail = s.fail ∧ (s.setColl n c).reg = s.reg ∧ (s.setColl n c).pow = s.pow ∧
    (s.setColl n c).age = s.age ∧ (s.setColl n c).sec = s.sec ∧ (s.setColl n c).fw = s.fw ∧ (s.setColl n c).boot = s.boot ∧
    (s.setColl n c).hostMem = s.hostMem ∧ (s.setColl n c).sent = s.sent ∧ (s.setColl n c).log = s.log ∧
    (s.setColl n c).free = s.free :=
  ⟨rfl, rfl, rfl, rfl, rfl, rfl, rfl, rfl, rfl, rfl, rfl, rfl, rfl, rfl, rfl, rfl, rfl, rfl, rfl, rfl, rfl, rfl, rfl, rfl, rfl, rfl, rfl, rfl, rfl, rfl, rfl, rfl⟩

@[simp] theorem State.setDisp'_frame (s : State) (e : Nat) (d : DispRun) :
    (s.setDisp' e d).pending = s.pending ∧ (s.setDisp' e d).sys = s.sys ∧ (s.setDisp' e d).svc = s.svc ∧
    (s.setDisp' e d).host = s.host ∧ (s.setDisp' e d).fen = s.fen ∧ (s.setDisp' e d).part = s.part ∧ (s.setDisp' e d).stn = s.stn ∧
    (s.setDisp' e d).fab = s.fab ∧ (s.setDisp' e d).spine = s.spine ∧ (s.setDisp' e d).cell = s.cell ∧
    (s.setDisp' e d).unit.comb = s.unit.comb ∧ (s.setDisp' e d).unit.starts = s.unit.starts ∧
    (s.setDisp' e d).unit.outs = s.unit.outs ∧ (s.setDisp' e d).unit.f0 = s.unit.f0 ∧ (s.setDisp' e d).dram = s.dram ∧
    (s.setDisp' e d).xlt = s.xlt ∧ (s.setDisp' e d).link = s.link ∧ (s.setDisp' e d).ses = s.ses ∧ (s.setDisp' e d).reck = s.reck ∧
    (s.setDisp' e d).fail = s.fail ∧ (s.setDisp' e d).reg = s.reg ∧ (s.setDisp' e d).pow = s.pow ∧ (s.setDisp' e d).age = s.age ∧
    (s.setDisp' e d).sec = s.sec ∧ (s.setDisp' e d).fw = s.fw ∧ (s.setDisp' e d).boot = s.boot ∧
    (s.setDisp' e d).hostMem = s.hostMem ∧ (s.setDisp' e d).sent = s.sent ∧ (s.setDisp' e d).log = s.log ∧
    (s.setDisp' e d).free = s.free :=
  ⟨rfl, rfl, rfl, rfl, rfl, rfl, rfl, rfl, rfl, rfl, rfl, rfl, rfl, rfl, rfl, rfl, rfl, rfl, rfl, rfl, rfl, rfl, rfl, rfl, rfl, rfl, rfl, rfl, rfl, rfl⟩

@[simp] theorem State.setComb_frame (s : State) (e : Nat) (c : CombUnit) :
    (s.setComb e c).pending = s.pending ∧ (s.setComb e c).sys = s.sys ∧ (s.setComb e c).svc = s.svc ∧ (s.setComb e c).host = s.host ∧
    (s.setComb e c).fen = s.fen ∧ (s.setComb e c).part = s.part ∧ (s.setComb e c).stn = s.stn ∧ (s.setComb e c).fab = s.fab ∧
    (s.setComb e c).spine = s.spine ∧ (s.setComb e c).cell = s.cell ∧ (s.setComb e c).unit.disp = s.unit.disp ∧
    (s.setComb e c).unit.starts = s.unit.starts ∧ (s.setComb e c).unit.outs = s.unit.outs ∧ (s.setComb e c).unit.f0 = s.unit.f0 ∧
    (s.setComb e c).dram = s.dram ∧ (s.setComb e c).xlt = s.xlt ∧ (s.setComb e c).link = s.link ∧ (s.setComb e c).ses = s.ses ∧
    (s.setComb e c).reck = s.reck ∧ (s.setComb e c).fail = s.fail ∧ (s.setComb e c).reg = s.reg ∧ (s.setComb e c).pow = s.pow ∧
    (s.setComb e c).age = s.age ∧ (s.setComb e c).sec = s.sec ∧ (s.setComb e c).fw = s.fw ∧ (s.setComb e c).boot = s.boot ∧
    (s.setComb e c).hostMem = s.hostMem ∧ (s.setComb e c).sent = s.sent ∧ (s.setComb e c).log = s.log ∧
    (s.setComb e c).free = s.free :=
  ⟨rfl, rfl, rfl, rfl, rfl, rfl, rfl, rfl, rfl, rfl, rfl, rfl, rfl, rfl, rfl, rfl, rfl, rfl, rfl, rfl, rfl, rfl, rfl, rfl, rfl, rfl, rfl, rfl, rfl, rfl⟩

@[simp] theorem State.setIsland_frame (s : State) (b : Nat) (x : Island) :
    (s.setIsland b x).pending = s.pending ∧ (s.setIsland b x).sys = s.sys ∧ (s.setIsland b x).svc = s.svc ∧
    (s.setIsland b x).host = s.host ∧ (s.setIsland b x).fen = s.fen ∧ (s.setIsland b x).part = s.part ∧
    (s.setIsland b x).stn = s.stn ∧ (s.setIsland b x).fab = s.fab ∧ (s.setIsland b x).spine = s.spine ∧
    (s.setIsland b x).cell = s.cell ∧ (s.setIsland b x).unit = s.unit ∧ (s.setIsland b x).dram = s.dram ∧
    (s.setIsland b x).xlt = s.xlt ∧ (s.setIsland b x).link = s.link ∧ (s.setIsland b x).ses = s.ses ∧
    (s.setIsland b x).reck = s.reck ∧ (s.setIsland b x).fail = s.fail ∧ (s.setIsland b x).reg = s.reg ∧
    (s.setIsland b x).pow = s.pow ∧ (s.setIsland b x).age.moduleH = s.age.moduleH ∧ (s.setIsland b x).age.moduleUs = s.age.moduleUs ∧
    (s.setIsland b x).age.seq = s.age.seq ∧ (s.setIsland b x).age.record = s.age.record ∧ (s.setIsland b x).age.place = s.age.place ∧
    (s.setIsland b x).age.wroteH = s.age.wroteH ∧ (s.setIsland b x).age.planned = s.age.planned ∧ (s.setIsland b x).sec = s.sec ∧
    (s.setIsland b x).fw = s.fw ∧ (s.setIsland b x).boot = s.boot ∧ (s.setIsland b x).hostMem = s.hostMem ∧
    (s.setIsland b x).sent = s.sent ∧ (s.setIsland b x).log = s.log ∧ (s.setIsland b x).free = s.free :=
  ⟨rfl, rfl, rfl, rfl, rfl, rfl, rfl, rfl, rfl, rfl, rfl, rfl, rfl, rfl, rfl, rfl, rfl, rfl, rfl, rfl, rfl, rfl, rfl, rfl, rfl, rfl, rfl, rfl, rfl, rfl, rfl, rfl, rfl⟩

@[simp] theorem State.setVolt_frame (s : State) (b : Nat) (v : Int) :
    (s.setVolt b v).pending = s.pending ∧ (s.setVolt b v).sys = s.sys ∧ (s.setVolt b v).svc = s.svc ∧ (s.setVolt b v).host = s.host ∧
    (s.setVolt b v).fen = s.fen ∧ (s.setVolt b v).part = s.part ∧ (s.setVolt b v).stn = s.stn ∧ (s.setVolt b v).fab = s.fab ∧
    (s.setVolt b v).spine = s.spine ∧ (s.setVolt b v).cell = s.cell ∧ (s.setVolt b v).unit = s.unit ∧ (s.setVolt b v).dram = s.dram ∧
    (s.setVolt b v).xlt = s.xlt ∧ (s.setVolt b v).link = s.link ∧ (s.setVolt b v).ses = s.ses ∧ (s.setVolt b v).reck = s.reck ∧
    (s.setVolt b v).fail = s.fail ∧ (s.setVolt b v).reg = s.reg ∧ (s.setVolt b v).pow.recent = s.pow.recent ∧
    (s.setVolt b v).pow.above = s.pow.above ∧ (s.setVolt b v).pow.past = s.pow.past ∧ (s.setVolt b v).pow.under = s.pow.under ∧
    (s.setVolt b v).pow.cap = s.pow.cap ∧ (s.setVolt b v).pow.therm = s.pow.therm ∧ (s.setVolt b v).pow.dimm = s.pow.dimm ∧
    (s.setVolt b v).pow.overOn = s.pow.overOn ∧ (s.setVolt b v).pow.overCeil = s.pow.overCeil ∧
    (s.setVolt b v).pow.overMoved = s.pow.overMoved ∧ (s.setVolt b v).pow.temps = s.pow.temps ∧
    (s.setVolt b v).pow.coolAt = s.pow.coolAt ∧ (s.setVolt b v).pow.dimmTemps = s.pow.dimmTemps ∧
    (s.setVolt b v).pow.dimmCool = s.pow.dimmCool ∧ (s.setVolt b v).pow.hints = s.pow.hints ∧
    (s.setVolt b v).pow.chosen = s.pow.chosen ∧ (s.setVolt b v).pow.lead = s.pow.lead ∧
    (s.setVolt b v).pow.throttled = s.pow.throttled ∧ (s.setVolt b v).pow.budget = s.pow.budget ∧
    (s.setVolt b v).pow.profile = s.pow.profile ∧ (s.setVolt b v).pow.droop = s.pow.droop ∧
    (s.setVolt b v).pow.stretched = s.pow.stretched ∧ (s.setVolt b v).pow.tripped = s.pow.tripped ∧ (s.setVolt b v).age = s.age ∧
    (s.setVolt b v).sec = s.sec ∧ (s.setVolt b v).fw = s.fw ∧ (s.setVolt b v).boot = s.boot ∧ (s.setVolt b v).hostMem = s.hostMem ∧
    (s.setVolt b v).sent = s.sent ∧ (s.setVolt b v).log = s.log ∧ (s.setVolt b v).free = s.free :=
  ⟨rfl, rfl, rfl, rfl, rfl, rfl, rfl, rfl, rfl, rfl, rfl, rfl, rfl, rfl, rfl, rfl, rfl, rfl, rfl, rfl, rfl, rfl, rfl, rfl, rfl, rfl, rfl, rfl, rfl, rfl, rfl, rfl, rfl, rfl, rfl, rfl, rfl, rfl, rfl, rfl, rfl, rfl, rfl, rfl, rfl, rfl, rfl, rfl, rfl⟩

@[simp] theorem State.setMove_frame (s : State) (v : BlockMv) :
    (s.setMove v).pending = s.pending ∧ (s.setMove v).sys = s.sys ∧ (s.setMove v).svc = s.svc ∧ (s.setMove v).host = s.host ∧
    (s.setMove v).fen = s.fen ∧ (s.setMove v).part.parts = s.part.parts ∧ (s.setMove v).part.releases = s.part.releases ∧
    (s.setMove v).part.stationMoves = s.part.stationMoves ∧ (s.setMove v).part.qpairs = s.part.qpairs ∧
    (s.setMove v).part.blockEpoch = s.part.blockEpoch ∧ (s.setMove v).part.tableWrites = s.part.tableWrites ∧
    (s.setMove v).part.shareRefs = s.part.shareRefs ∧ (s.setMove v).stn = s.stn ∧ (s.setMove v).fab = s.fab ∧
    (s.setMove v).spine = s.spine ∧ (s.setMove v).cell = s.cell ∧ (s.setMove v).unit = s.unit ∧ (s.setMove v).dram = s.dram ∧
    (s.setMove v).xlt = s.xlt ∧ (s.setMove v).link = s.link ∧ (s.setMove v).ses = s.ses ∧ (s.setMove v).reck = s.reck ∧
    (s.setMove v).fail = s.fail ∧ (s.setMove v).reg = s.reg ∧ (s.setMove v).pow = s.pow ∧ (s.setMove v).age = s.age ∧
    (s.setMove v).sec = s.sec ∧ (s.setMove v).fw = s.fw ∧ (s.setMove v).boot = s.boot ∧ (s.setMove v).hostMem = s.hostMem ∧
    (s.setMove v).sent = s.sent ∧ (s.setMove v).log = s.log ∧ (s.setMove v).free = s.free :=
  ⟨rfl, rfl, rfl, rfl, rfl, rfl, rfl, rfl, rfl, rfl, rfl, rfl, rfl, rfl, rfl, rfl, rfl, rfl, rfl, rfl, rfl, rfl, rfl, rfl, rfl, rfl, rfl, rfl, rfl, rfl, rfl, rfl, rfl⟩

@[simp] theorem State.setSession_frame (s : State) (n : Nat) (x : MgmtSess) :
    (s.setSession n x).pending = s.pending ∧ (s.setSession n x).sys = s.sys ∧ (s.setSession n x).svc = s.svc ∧
    (s.setSession n x).host = s.host ∧ (s.setSession n x).fen = s.fen ∧ (s.setSession n x).part = s.part ∧
    (s.setSession n x).stn = s.stn ∧ (s.setSession n x).fab = s.fab ∧ (s.setSession n x).spine = s.spine ∧
    (s.setSession n x).cell = s.cell ∧ (s.setSession n x).unit = s.unit ∧ (s.setSession n x).dram = s.dram ∧
    (s.setSession n x).xlt = s.xlt ∧ (s.setSession n x).link = s.link ∧ (s.setSession n x).ses = s.ses ∧
    (s.setSession n x).reck = s.reck ∧ (s.setSession n x).fail = s.fail ∧ (s.setSession n x).reg = s.reg ∧
    (s.setSession n x).pow = s.pow ∧ (s.setSession n x).age = s.age ∧ (s.setSession n x).sec.lc = s.sec.lc ∧
    (s.setSession n x).sec.change = s.sec.change ∧ (s.setSession n x).sec.banks = s.sec.banks ∧
    (s.setSession n x).sec.half = s.sec.half ∧ (s.setSession n x).sec.nextSession = s.sec.nextSession ∧
    (s.setSession n x).sec.sets = s.sec.sets ∧ (s.setSession n x).sec.token = s.sec.token ∧
    (s.setSession n x).sec.debug = s.sec.debug ∧ (s.setSession n x).sec.debugRegs = s.sec.debugRegs ∧ (s.setSession n x).fw = s.fw ∧
    (s.setSession n x).boot = s.boot ∧ (s.setSession n x).hostMem = s.hostMem ∧ (s.setSession n x).sent = s.sent ∧
    (s.setSession n x).log = s.log ∧ (s.setSession n x).free = s.free :=
  ⟨rfl, rfl, rfl, rfl, rfl, rfl, rfl, rfl, rfl, rfl, rfl, rfl, rfl, rfl, rfl, rfl, rfl, rfl, rfl, rfl, rfl, rfl, rfl, rfl, rfl, rfl, rfl, rfl, rfl, rfl, rfl, rfl, rfl, rfl, rfl⟩

@[simp] theorem State.setCancel_frame (s : State) (p : Nat) (t : Sys2Proof.Tab Nat) :
    (s.setCancel p t).pending = s.pending ∧ (s.setCancel p t).sys = s.sys ∧ (s.setCancel p t).svc.waiting = s.svc.waiting ∧
    (s.setCancel p t).svc.lastServed = s.svc.lastServed ∧ (s.setCancel p t).svc.retry = s.svc.retry ∧
    (s.setCancel p t).svc.milestone = s.svc.milestone ∧ (s.setCancel p t).svc.stewards = s.svc.stewards ∧
    (s.setCancel p t).svc.plans = s.svc.plans ∧ (s.setCancel p t).host = s.host ∧ (s.setCancel p t).fen = s.fen ∧
    (s.setCancel p t).part = s.part ∧ (s.setCancel p t).stn = s.stn ∧ (s.setCancel p t).fab = s.fab ∧
    (s.setCancel p t).spine = s.spine ∧ (s.setCancel p t).cell = s.cell ∧ (s.setCancel p t).unit = s.unit ∧
    (s.setCancel p t).dram = s.dram ∧ (s.setCancel p t).xlt = s.xlt ∧ (s.setCancel p t).link = s.link ∧
    (s.setCancel p t).ses = s.ses ∧ (s.setCancel p t).reck = s.reck ∧ (s.setCancel p t).fail = s.fail ∧
    (s.setCancel p t).reg = s.reg ∧ (s.setCancel p t).pow = s.pow ∧ (s.setCancel p t).age = s.age ∧ (s.setCancel p t).sec = s.sec ∧
    (s.setCancel p t).fw = s.fw ∧ (s.setCancel p t).boot = s.boot ∧ (s.setCancel p t).hostMem = s.hostMem ∧
    (s.setCancel p t).sent = s.sent ∧ (s.setCancel p t).log = s.log ∧ (s.setCancel p t).free = s.free :=
  ⟨rfl, rfl, rfl, rfl, rfl, rfl, rfl, rfl, rfl, rfl, rfl, rfl, rfl, rfl, rfl, rfl, rfl, rfl, rfl, rfl, rfl, rfl, rfl, rfl, rfl, rfl, rfl, rfl, rfl, rfl, rfl, rfl⟩

@[simp] theorem State.setOut_frame (s : State) (o o' : Outgoing) :
    (s.setOut o o').pending = s.pending ∧ (s.setOut o o').sys = s.sys ∧ (s.setOut o o').svc = s.svc ∧ (s.setOut o o').host = s.host ∧
    (s.setOut o o').fen = s.fen ∧ (s.setOut o o').part = s.part ∧ (s.setOut o o').stn = s.stn ∧ (s.setOut o o').fab = s.fab ∧
    (s.setOut o o').spine = s.spine ∧ (s.setOut o o').cell = s.cell ∧ (s.setOut o o').unit = s.unit ∧ (s.setOut o o').dram = s.dram ∧
    (s.setOut o o').xlt = s.xlt ∧ (s.setOut o o').link = s.link ∧ (s.setOut o o').ses = s.ses ∧ (s.setOut o o').reck = s.reck ∧
    (s.setOut o o').fail.captures = s.fail.captures ∧ (s.setOut o o').fail.captured = s.fail.captured ∧
    (s.setOut o o').fail.hangs = s.fail.hangs ∧ (s.setOut o o').fail.resets = s.fail.resets ∧
    (s.setOut o o').fail.withdraw = s.fail.withdraw ∧ (s.setOut o o').fail.status = s.fail.status ∧
    (s.setOut o o').fail.age = s.fail.age ∧ (s.setOut o o').fail.advanced = s.fail.advanced ∧ (s.setOut o o').fail.inc = s.fail.inc ∧
    (s.setOut o o').reg = s.reg ∧ (s.setOut o o').pow = s.pow ∧ (s.setOut o o').age = s.age ∧ (s.setOut o o').sec = s.sec ∧
    (s.setOut o o').fw = s.fw ∧ (s.setOut o o').boot = s.boot ∧ (s.setOut o o').hostMem = s.hostMem ∧ (s.setOut o o').sent = s.sent ∧
    (s.setOut o o').log = s.log ∧ (s.setOut o o').free = s.free :=
  ⟨rfl, rfl, rfl, rfl, rfl, rfl, rfl, rfl, rfl, rfl, rfl, rfl, rfl, rfl, rfl, rfl, rfl, rfl, rfl, rfl, rfl, rfl, rfl, rfl, rfl, rfl, rfl, rfl, rfl, rfl, rfl, rfl, rfl, rfl, rfl⟩

@[simp] theorem State.setIncoming_frame (s : State) (i : Incoming) :
    (s.setIncoming i).pending = s.pending ∧ (s.setIncoming i).sys = s.sys ∧ (s.setIncoming i).svc = s.svc ∧
    (s.setIncoming i).host = s.host ∧ (s.setIncoming i).fen = s.fen ∧ (s.setIncoming i).part = s.part ∧
    (s.setIncoming i).stn = s.stn ∧ (s.setIncoming i).fab = s.fab ∧ (s.setIncoming i).spine = s.spine ∧
    (s.setIncoming i).cell = s.cell ∧ (s.setIncoming i).unit = s.unit ∧ (s.setIncoming i).dram = s.dram ∧
    (s.setIncoming i).xlt = s.xlt ∧ (s.setIncoming i).link = s.link ∧ (s.setIncoming i).ses = s.ses ∧
    (s.setIncoming i).reck = s.reck ∧ (s.setIncoming i).fail.captures = s.fail.captures ∧
    (s.setIncoming i).fail.captured = s.fail.captured ∧ (s.setIncoming i).fail.hangs = s.fail.hangs ∧
    (s.setIncoming i).fail.resets = s.fail.resets ∧ (s.setIncoming i).fail.withdraw = s.fail.withdraw ∧
    (s.setIncoming i).fail.status = s.fail.status ∧ (s.setIncoming i).fail.age = s.fail.age ∧
    (s.setIncoming i).fail.advanced = s.fail.advanced ∧ (s.setIncoming i).fail.out = s.fail.out ∧ (s.setIncoming i).reg = s.reg ∧
    (s.setIncoming i).pow = s.pow ∧ (s.setIncoming i).age = s.age ∧ (s.setIncoming i).sec = s.sec ∧ (s.setIncoming i).fw = s.fw ∧
    (s.setIncoming i).boot = s.boot ∧ (s.setIncoming i).hostMem = s.hostMem ∧ (s.setIncoming i).sent = s.sent ∧
    (s.setIncoming i).log = s.log ∧ (s.setIncoming i).free = s.free :=
  ⟨rfl, rfl, rfl, rfl, rfl, rfl, rfl, rfl, rfl, rfl, rfl, rfl, rfl, rfl, rfl, rfl, rfl, rfl, rfl, rfl, rfl, rfl, rfl, rfl, rfl, rfl, rfl, rfl, rfl, rfl, rfl, rfl, rfl, rfl, rfl⟩

@[simp] theorem State.emitOut_frame (s : State) (o : Out) :
    (s.emitOut o).pending = s.pending ∧ (s.emitOut o).sys = s.sys ∧ (s.emitOut o).svc = s.svc ∧ (s.emitOut o).host = s.host ∧
    (s.emitOut o).fen = s.fen ∧ (s.emitOut o).part = s.part ∧ (s.emitOut o).stn = s.stn ∧ (s.emitOut o).fab = s.fab ∧
    (s.emitOut o).spine = s.spine ∧ (s.emitOut o).cell = s.cell ∧ (s.emitOut o).unit = s.unit ∧ (s.emitOut o).dram = s.dram ∧
    (s.emitOut o).xlt = s.xlt ∧ (s.emitOut o).link = s.link ∧ (s.emitOut o).ses = s.ses ∧ (s.emitOut o).reck = s.reck ∧
    (s.emitOut o).fail = s.fail ∧ (s.emitOut o).reg = s.reg ∧ (s.emitOut o).pow = s.pow ∧ (s.emitOut o).age = s.age ∧
    (s.emitOut o).sec = s.sec ∧ (s.emitOut o).fw = s.fw ∧ (s.emitOut o).boot = s.boot ∧ (s.emitOut o).hostMem = s.hostMem ∧
    (s.emitOut o).log = s.log ∧ (s.emitOut o).free = s.free :=
  ⟨rfl, rfl, rfl, rfl, rfl, rfl, rfl, rfl, rfl, rfl, rfl, rfl, rfl, rfl, rfl, rfl, rfl, rfl, rfl, rfl, rfl, rfl, rfl, rfl, rfl, rfl⟩

@[simp] theorem State.sendFence_frame (s : State) (f : FenceFlit) :
    (s.sendFence f).pending = s.pending ∧ (s.sendFence f).sys = s.sys ∧ (s.sendFence f).svc = s.svc ∧ (s.sendFence f).host = s.host ∧
    (s.sendFence f).fen.fences = s.fen.fences ∧ (s.sendFence f).fen.waiters = s.fen.waiters ∧
    (s.sendFence f).fen.serveB = s.fen.serveB ∧ (s.sendFence f).fen.failed = s.fen.failed ∧ (s.sendFence f).part = s.part ∧
    (s.sendFence f).stn = s.stn ∧ (s.sendFence f).fab = s.fab ∧ (s.sendFence f).spine.cycle = s.spine.cycle ∧
    (s.sendFence f).spine.lastIn = s.spine.lastIn ∧ (s.sendFence f).spine.credits = s.spine.credits ∧
    (s.sendFence f).spine.fails = s.spine.fails ∧ (s.sendFence f).spine.lastStream = s.spine.lastStream ∧
    (s.sendFence f).cell = s.cell ∧ (s.sendFence f).unit = s.unit ∧ (s.sendFence f).dram = s.dram ∧ (s.sendFence f).xlt = s.xlt ∧
    (s.sendFence f).link = s.link ∧ (s.sendFence f).ses = s.ses ∧ (s.sendFence f).reck = s.reck ∧ (s.sendFence f).fail = s.fail ∧
    (s.sendFence f).reg = s.reg ∧ (s.sendFence f).pow = s.pow ∧ (s.sendFence f).age = s.age ∧ (s.sendFence f).sec = s.sec ∧
    (s.sendFence f).fw = s.fw ∧ (s.sendFence f).boot = s.boot ∧ (s.sendFence f).hostMem = s.hostMem ∧ (s.sendFence f).sent = s.sent ∧
    (s.sendFence f).log = s.log ∧ (s.sendFence f).free = s.free :=
  ⟨rfl, rfl, rfl, rfl, rfl, rfl, rfl, rfl, rfl, rfl, rfl, rfl, rfl, rfl, rfl, rfl, rfl, rfl, rfl, rfl, rfl, rfl, rfl, rfl, rfl, rfl, rfl, rfl, rfl, rfl, rfl, rfl, rfl, rfl⟩

@[simp] theorem State.answerMsg_frame (s : State) (r : MsgRef) (a : Ans) :
    (s.answerMsg r a).pending = s.pending ∧ (s.answerMsg r a).sys = s.sys ∧ (s.answerMsg r a).svc = s.svc ∧
    (s.answerMsg r a).host = s.host ∧ (s.answerMsg r a).fen = s.fen ∧ (s.answerMsg r a).part = s.part ∧
    (s.answerMsg r a).stn = s.stn ∧ (s.answerMsg r a).fab = s.fab ∧ (s.answerMsg r a).spine = s.spine ∧
    (s.answerMsg r a).cell = s.cell ∧ (s.answerMsg r a).unit = s.unit ∧ (s.answerMsg r a).dram = s.dram ∧
    (s.answerMsg r a).xlt = s.xlt ∧ (s.answerMsg r a).link = s.link ∧ (s.answerMsg r a).ses = s.ses ∧
    (s.answerMsg r a).reck = s.reck ∧ (s.answerMsg r a).fail = s.fail ∧ (s.answerMsg r a).reg = s.reg ∧
    (s.answerMsg r a).pow = s.pow ∧ (s.answerMsg r a).age = s.age ∧ (s.answerMsg r a).sec = s.sec ∧ (s.answerMsg r a).fw = s.fw ∧
    (s.answerMsg r a).boot = s.boot ∧ (s.answerMsg r a).hostMem = s.hostMem ∧ (s.answerMsg r a).log = s.log ∧
    (s.answerMsg r a).free = s.free :=
  ⟨rfl, rfl, rfl, rfl, rfl, rfl, rfl, rfl, rfl, rfl, rfl, rfl, rfl, rfl, rfl, rfl, rfl, rfl, rfl, rfl, rfl, rfl, rfl, rfl, rfl, rfl⟩

@[simp] theorem State.addOutgoing_frame (s : State) (o : Outgoing) :
    (s.addOutgoing o).pending = s.pending ∧ (s.addOutgoing o).sys = s.sys ∧ (s.addOutgoing o).svc = s.svc ∧
    (s.addOutgoing o).host = s.host ∧ (s.addOutgoing o).fen = s.fen ∧ (s.addOutgoing o).part = s.part ∧
    (s.addOutgoing o).stn = s.stn ∧ (s.addOutgoing o).fab = s.fab ∧ (s.addOutgoing o).spine = s.spine ∧
    (s.addOutgoing o).cell = s.cell ∧ (s.addOutgoing o).unit = s.unit ∧ (s.addOutgoing o).dram = s.dram ∧
    (s.addOutgoing o).xlt = s.xlt ∧ (s.addOutgoing o).link = s.link ∧ (s.addOutgoing o).ses.sessions = s.ses.sessions ∧
    (s.addOutgoing o).ses.gens = s.ses.gens ∧ (s.addOutgoing o).ses.taps = s.ses.taps ∧ (s.addOutgoing o).ses.strays = s.ses.strays ∧
    (s.addOutgoing o).ses.nextOrder = s.ses.nextOrder ∧ (s.addOutgoing o).ses.holdings = s.ses.holdings ∧
    (s.addOutgoing o).ses.homes = s.ses.homes ∧ (s.addOutgoing o).ses.leases = s.ses.leases ∧
    (s.addOutgoing o).ses.stale = s.ses.stale ∧ (s.addOutgoing o).reck = s.reck ∧ (s.addOutgoing o).fail.captures = s.fail.captures ∧
    (s.addOutgoing o).fail.captured = s.fail.captured ∧ (s.addOutgoing o).fail.hangs = s.fail.hangs ∧
    (s.addOutgoing o).fail.resets = s.fail.resets ∧ (s.addOutgoing o).fail.withdraw = s.fail.withdraw ∧
    (s.addOutgoing o).fail.status = s.fail.status ∧ (s.addOutgoing o).fail.age = s.fail.age ∧
    (s.addOutgoing o).fail.advanced = s.fail.advanced ∧ (s.addOutgoing o).fail.inc = s.fail.inc ∧ (s.addOutgoing o).reg = s.reg ∧
    (s.addOutgoing o).pow = s.pow ∧ (s.addOutgoing o).age = s.age ∧ (s.addOutgoing o).sec = s.sec ∧ (s.addOutgoing o).fw = s.fw ∧
    (s.addOutgoing o).boot = s.boot ∧ (s.addOutgoing o).hostMem = s.hostMem ∧ (s.addOutgoing o).sent = s.sent ∧
    (s.addOutgoing o).log = s.log ∧ (s.addOutgoing o).free = s.free :=
  ⟨rfl, rfl, rfl, rfl, rfl, rfl, rfl, rfl, rfl, rfl, rfl, rfl, rfl, rfl, rfl, rfl, rfl, rfl, rfl, rfl, rfl, rfl, rfl, rfl, rfl, rfl, rfl, rfl, rfl, rfl, rfl, rfl, rfl, rfl, rfl, rfl, rfl, rfl, rfl, rfl, rfl, rfl, rfl⟩

@[simp] theorem State.delColl_frame (s : State) (n : Nat) :
    (s.delColl n).pending = s.pending ∧ (s.delColl n).sys = s.sys ∧ (s.delColl n).svc = s.svc ∧ (s.delColl n).host = s.host ∧
    (s.delColl n).fen = s.fen ∧ (s.delColl n).part = s.part ∧ (s.delColl n).stn = s.stn ∧ (s.delColl n).fab = s.fab ∧
    (s.delColl n).spine = s.spine ∧ (s.delColl n).cell = s.cell ∧ (s.delColl n).unit = s.unit ∧ (s.delColl n).dram = s.dram ∧
    (s.delColl n).xlt = s.xlt ∧ (s.delColl n).link.ports = s.link.ports ∧ (s.delColl n).link.groups = s.link.groups ∧
    (s.delColl n).link.arrivals = s.link.arrivals ∧ (s.delColl n).link.dropped = s.link.dropped ∧
    (s.delColl n).link.pace = s.link.pace ∧ (s.delColl n).link.paceCap = s.link.paceCap ∧ (s.delColl n).ses = s.ses ∧
    (s.delColl n).reck = s.reck ∧ (s.delColl n).fail = s.fail ∧ (s.delColl n).reg = s.reg ∧ (s.delColl n).pow = s.pow ∧
    (s.delColl n).age = s.age ∧ (s.delColl n).sec = s.sec ∧ (s.delColl n).fw = s.fw ∧ (s.delColl n).boot = s.boot ∧
    (s.delColl n).hostMem = s.hostMem ∧ (s.delColl n).sent = s.sent ∧ (s.delColl n).log = s.log ∧ (s.delColl n).free = s.free :=
  ⟨rfl, rfl, rfl, rfl, rfl, rfl, rfl, rfl, rfl, rfl, rfl, rfl, rfl, rfl, rfl, rfl, rfl, rfl, rfl, rfl, rfl, rfl, rfl, rfl, rfl, rfl, rfl, rfl, rfl, rfl, rfl, rfl⟩

@[simp] theorem State.delLease_frame (s : State) (k : Nat) :
    (s.delLease k).pending = s.pending ∧ (s.delLease k).sys = s.sys ∧ (s.delLease k).svc = s.svc ∧ (s.delLease k).host = s.host ∧
    (s.delLease k).fen = s.fen ∧ (s.delLease k).part = s.part ∧ (s.delLease k).stn = s.stn ∧ (s.delLease k).fab = s.fab ∧
    (s.delLease k).spine = s.spine ∧ (s.delLease k).cell = s.cell ∧ (s.delLease k).unit = s.unit ∧ (s.delLease k).dram = s.dram ∧
    (s.delLease k).xlt = s.xlt ∧ (s.delLease k).link = s.link ∧ (s.delLease k).ses.sessions = s.ses.sessions ∧
    (s.delLease k).ses.gens = s.ses.gens ∧ (s.delLease k).ses.taps = s.ses.taps ∧ (s.delLease k).ses.strays = s.ses.strays ∧
    (s.delLease k).ses.nextOrder = s.ses.nextOrder ∧ (s.delLease k).ses.holdings = s.ses.holdings ∧
    (s.delLease k).ses.homes = s.ses.homes ∧ (s.delLease k).ses.stale = s.ses.stale ∧
    (s.delLease k).ses.nextTransfer = s.ses.nextTransfer ∧ (s.delLease k).reck = s.reck ∧ (s.delLease k).fail = s.fail ∧
    (s.delLease k).reg = s.reg ∧ (s.delLease k).pow = s.pow ∧ (s.delLease k).age = s.age ∧ (s.delLease k).sec = s.sec ∧
    (s.delLease k).fw = s.fw ∧ (s.delLease k).boot = s.boot ∧ (s.delLease k).hostMem = s.hostMem ∧ (s.delLease k).sent = s.sent ∧
    (s.delLease k).log = s.log ∧ (s.delLease k).free = s.free :=
  ⟨rfl, rfl, rfl, rfl, rfl, rfl, rfl, rfl, rfl, rfl, rfl, rfl, rfl, rfl, rfl, rfl, rfl, rfl, rfl, rfl, rfl, rfl, rfl, rfl, rfl, rfl, rfl, rfl, rfl, rfl, rfl, rfl, rfl, rfl, rfl⟩

@[simp] theorem State.putFlit_frame (s : State) (n base : Nat) :
    (s.putFlit n base).pending = s.pending ∧ (s.putFlit n base).sys = s.sys ∧ (s.putFlit n base).svc = s.svc ∧
    (s.putFlit n base).host = s.host ∧ (s.putFlit n base).fen = s.fen ∧ (s.putFlit n base).part = s.part ∧
    (s.putFlit n base).stn = s.stn ∧ (s.putFlit n base).fab = s.fab ∧ (s.putFlit n base).spine = s.spine ∧
    (s.putFlit n base).cell = s.cell ∧ (s.putFlit n base).unit = s.unit ∧ (s.putFlit n base).dram = s.dram ∧
    (s.putFlit n base).xlt = s.xlt ∧ (s.putFlit n base).link.groups = s.link.groups ∧ (s.putFlit n base).link.colls = s.link.colls ∧
    (s.putFlit n base).link.arrivals = s.link.arrivals ∧ (s.putFlit n base).link.dropped = s.link.dropped ∧
    (s.putFlit n base).link.pace = s.link.pace ∧ (s.putFlit n base).link.paceCap = s.link.paceCap ∧ (s.putFlit n base).ses = s.ses ∧
    (s.putFlit n base).reck = s.reck ∧ (s.putFlit n base).fail = s.fail ∧ (s.putFlit n base).reg = s.reg ∧
    (s.putFlit n base).pow = s.pow ∧ (s.putFlit n base).age = s.age ∧ (s.putFlit n base).sec = s.sec ∧ (s.putFlit n base).fw = s.fw ∧
    (s.putFlit n base).boot = s.boot ∧ (s.putFlit n base).hostMem = s.hostMem ∧ (s.putFlit n base).log = s.log ∧
    (s.putFlit n base).free = s.free :=
  ⟨rfl, rfl, rfl, rfl, rfl, rfl, rfl, rfl, rfl, rfl, rfl, rfl, rfl, rfl, rfl, rfl, rfl, rfl, rfl, rfl, rfl, rfl, rfl, rfl, rfl, rfl, rfl, rfl, rfl, rfl, rfl⟩

@[simp] theorem State.setCrier_frame (s : State) (r : Nat) (c : Crier) :
    (s.setCrier r c).pending = s.pending ∧ (s.setCrier r c).sys = s.sys ∧ (s.setCrier r c).svc = s.svc ∧
    (s.setCrier r c).host = s.host ∧ (s.setCrier r c).fen = s.fen ∧ (s.setCrier r c).part = s.part ∧ (s.setCrier r c).stn = s.stn ∧
    (s.setCrier r c).fab.blocks = s.fab.blocks ∧ (s.setCrier r c).fab.slices = s.fab.slices ∧
    (s.setCrier r c).fab.claims = s.fab.claims ∧ (s.setCrier r c).fab.accesses = s.fab.accesses ∧
    (s.setCrier r c).fab.nextAccess = s.fab.nextAccess ∧ (s.setCrier r c).fab.lostWrites = s.fab.lostWrites ∧
    (s.setCrier r c).fab.sends = s.fab.sends ∧ (s.setCrier r c).fab.nextSend = s.fab.nextSend ∧
    (s.setCrier r c).fab.deviceLast = s.fab.deviceLast ∧ (s.setCrier r c).fab.caravans = s.fab.caravans ∧
    (s.setCrier r c).fab.caravanWaits = s.fab.caravanWaits ∧ (s.setCrier r c).fab.streams = s.fab.streams ∧
    (s.setCrier r c).fab.failedHops = s.fab.failedHops ∧ (s.setCrier r c).fab.replays = s.fab.replays ∧
    (s.setCrier r c).fab.bankHold = s.fab.bankHold ∧ (s.setCrier r c).fab.streamStatus = s.fab.streamStatus ∧
    (s.setCrier r c).fab.streamMarks = s.fab.streamMarks ∧ (s.setCrier r c).fab.regionGen = s.fab.regionGen ∧
    (s.setCrier r c).spine = s.spine ∧ (s.setCrier r c).cell = s.cell ∧ (s.setCrier r c).unit = s.unit ∧
    (s.setCrier r c).dram = s.dram ∧ (s.setCrier r c).xlt = s.xlt ∧ (s.setCrier r c).link = s.link ∧ (s.setCrier r c).ses = s.ses ∧
    (s.setCrier r c).reck = s.reck ∧ (s.setCrier r c).fail = s.fail ∧ (s.setCrier r c).reg = s.reg ∧ (s.setCrier r c).pow = s.pow ∧
    (s.setCrier r c).age = s.age ∧ (s.setCrier r c).sec = s.sec ∧ (s.setCrier r c).fw = s.fw ∧ (s.setCrier r c).boot = s.boot ∧
    (s.setCrier r c).hostMem = s.hostMem ∧ (s.setCrier r c).sent = s.sent ∧ (s.setCrier r c).log = s.log ∧
    (s.setCrier r c).free = s.free :=
  ⟨rfl, rfl, rfl, rfl, rfl, rfl, rfl, rfl, rfl, rfl, rfl, rfl, rfl, rfl, rfl, rfl, rfl, rfl, rfl, rfl, rfl, rfl, rfl, rfl, rfl, rfl, rfl, rfl, rfl, rfl, rfl, rfl, rfl, rfl, rfl, rfl, rfl, rfl, rfl, rfl, rfl, rfl, rfl, rfl⟩

@[simp] theorem State.updSend_frame (s : State) (n : Nat) (f : CrierSend → CrierSend) :
    (s.updSend n f).pending = s.pending ∧ (s.updSend n f).sys = s.sys ∧ (s.updSend n f).svc = s.svc ∧ (s.updSend n f).host = s.host ∧
    (s.updSend n f).fen = s.fen ∧ (s.updSend n f).part = s.part ∧ (s.updSend n f).stn = s.stn ∧
    (s.updSend n f).fab.blocks = s.fab.blocks ∧ (s.updSend n f).fab.slices = s.fab.slices ∧
    (s.updSend n f).fab.claims = s.fab.claims ∧ (s.updSend n f).fab.accesses = s.fab.accesses ∧
    (s.updSend n f).fab.nextAccess = s.fab.nextAccess ∧ (s.updSend n f).fab.lostWrites = s.fab.lostWrites ∧
    (s.updSend n f).fab.nextSend = s.fab.nextSend ∧ (s.updSend n f).fab.criers = s.fab.criers ∧
    (s.updSend n f).fab.deviceLast = s.fab.deviceLast ∧ (s.updSend n f).fab.caravans = s.fab.caravans ∧
    (s.updSend n f).fab.caravanWaits = s.fab.caravanWaits ∧ (s.updSend n f).fab.streams = s.fab.streams ∧
    (s.updSend n f).fab.failedHops = s.fab.failedHops ∧ (s.updSend n f).fab.replays = s.fab.replays ∧
    (s.updSend n f).fab.bankHold = s.fab.bankHold ∧ (s.updSend n f).fab.streamStatus = s.fab.streamStatus ∧
    (s.updSend n f).fab.streamMarks = s.fab.streamMarks ∧ (s.updSend n f).fab.regionGen = s.fab.regionGen ∧
    (s.updSend n f).spine = s.spine ∧ (s.updSend n f).cell = s.cell ∧ (s.updSend n f).unit = s.unit ∧ (s.updSend n f).dram = s.dram ∧
    (s.updSend n f).xlt = s.xlt ∧ (s.updSend n f).link = s.link ∧ (s.updSend n f).ses = s.ses ∧ (s.updSend n f).reck = s.reck ∧
    (s.updSend n f).fail = s.fail ∧ (s.updSend n f).reg = s.reg ∧ (s.updSend n f).pow = s.pow ∧ (s.updSend n f).age = s.age ∧
    (s.updSend n f).sec = s.sec ∧ (s.updSend n f).fw = s.fw ∧ (s.updSend n f).boot = s.boot ∧ (s.updSend n f).hostMem = s.hostMem ∧
    (s.updSend n f).sent = s.sent ∧ (s.updSend n f).log = s.log ∧ (s.updSend n f).free = s.free :=
  ⟨rfl, rfl, rfl, rfl, rfl, rfl, rfl, rfl, rfl, rfl, rfl, rfl, rfl, rfl, rfl, rfl, rfl, rfl, rfl, rfl, rfl, rfl, rfl, rfl, rfl, rfl, rfl, rfl, rfl, rfl, rfl, rfl, rfl, rfl, rfl, rfl, rfl, rfl, rfl, rfl, rfl, rfl, rfl, rfl⟩

@[simp] theorem State.updFlit_frame (s : State) (n : Nat) (f : SFlit → SFlit) :
    (s.updFlit n f).pending = s.pending ∧ (s.updFlit n f).sys = s.sys ∧ (s.updFlit n f).svc = s.svc ∧ (s.updFlit n f).host = s.host ∧
    (s.updFlit n f).fen = s.fen ∧ (s.updFlit n f).part = s.part ∧ (s.updFlit n f).stn = s.stn ∧ (s.updFlit n f).fab = s.fab ∧
    (s.updFlit n f).spine.cycle = s.spine.cycle ∧ (s.updFlit n f).spine.nextFlit = s.spine.nextFlit ∧
    (s.updFlit n f).spine.lastIn = s.spine.lastIn ∧ (s.updFlit n f).spine.credits = s.spine.credits ∧
    (s.updFlit n f).spine.fails = s.spine.fails ∧ (s.updFlit n f).spine.lastStream = s.spine.lastStream ∧
    (s.updFlit n f).cell = s.cell ∧ (s.updFlit n f).unit = s.unit ∧ (s.updFlit n f).dram = s.dram ∧ (s.updFlit n f).xlt = s.xlt ∧
    (s.updFlit n f).link = s.link ∧ (s.updFlit n f).ses = s.ses ∧ (s.updFlit n f).reck = s.reck ∧ (s.updFlit n f).fail = s.fail ∧
    (s.updFlit n f).reg = s.reg ∧ (s.updFlit n f).pow = s.pow ∧ (s.updFlit n f).age = s.age ∧ (s.updFlit n f).sec = s.sec ∧
    (s.updFlit n f).fw = s.fw ∧ (s.updFlit n f).boot = s.boot ∧ (s.updFlit n f).hostMem = s.hostMem ∧ (s.updFlit n f).sent = s.sent ∧
    (s.updFlit n f).log = s.log ∧ (s.updFlit n f).free = s.free :=
  ⟨rfl, rfl, rfl, rfl, rfl, rfl, rfl, rfl, rfl, rfl, rfl, rfl, rfl, rfl, rfl, rfl, rfl, rfl, rfl, rfl, rfl, rfl, rfl, rfl, rfl, rfl, rfl, rfl, rfl, rfl, rfl, rfl⟩

@[simp] theorem State.setRow_frame (s : State) (r : RowEntry) :
    (s.setRow r).pending = s.pending ∧ (s.setRow r).sys = s.sys ∧ (s.setRow r).svc = s.svc ∧ (s.setRow r).host = s.host ∧
    (s.setRow r).fen = s.fen ∧ (s.setRow r).part = s.part ∧ (s.setRow r).stn = s.stn ∧ (s.setRow r).fab = s.fab ∧
    (s.setRow r).spine = s.spine ∧ (s.setRow r).cell = s.cell ∧ (s.setRow r).unit = s.unit ∧ (s.setRow r).dram.dram = s.dram.dram ∧
    (s.setRow r).dram.written = s.dram.written ∧ (s.setRow r).dram.rate = s.dram.rate ∧ (s.setRow r).dram.dimmGb = s.dram.dimmGb ∧
    (s.setRow r).dram.ctrls = s.dram.ctrls ∧ (s.setRow r).dram.keys = s.dram.keys ∧ (s.setRow r).dram.devKeys = s.dram.devKeys ∧
    (s.setRow r).dram.nextKey = s.dram.nextKey ∧ (s.setRow r).dram.bitmap = s.dram.bitmap ∧ (s.setRow r).dram.rekeys = s.dram.rekeys ∧
    (s.setRow r).dram.nextRow = s.dram.nextRow ∧ (s.setRow r).dram.rowWait = s.dram.rowWait ∧
    (s.setRow r).dram.rebuilds = s.dram.rebuilds ∧ (s.setRow r).dram.wipes = s.dram.wipes ∧
    (s.setRow r).dram.lostDimms = s.dram.lostDimms ∧ (s.setRow r).dram.dirty = s.dram.dirty ∧
    (s.setRow r).dram.backlog = s.dram.backlog ∧ (s.setRow r).dram.txns = s.dram.txns ∧ (s.setRow r).dram.nextReq = s.dram.nextReq ∧
    (s.setRow r).xlt = s.xlt ∧ (s.setRow r).link = s.link ∧ (s.setRow r).ses = s.ses ∧ (s.setRow r).reck = s.reck ∧
    (s.setRow r).fail = s.fail ∧ (s.setRow r).reg = s.reg ∧ (s.setRow r).pow = s.pow ∧ (s.setRow r).age = s.age ∧
    (s.setRow r).sec = s.sec ∧ (s.setRow r).fw = s.fw ∧ (s.setRow r).boot = s.boot ∧ (s.setRow r).hostMem = s.hostMem ∧
    (s.setRow r).sent = s.sent ∧ (s.setRow r).log = s.log ∧ (s.setRow r).free = s.free :=
  ⟨rfl, rfl, rfl, rfl, rfl, rfl, rfl, rfl, rfl, rfl, rfl, rfl, rfl, rfl, rfl, rfl, rfl, rfl, rfl, rfl, rfl, rfl, rfl, rfl, rfl, rfl, rfl, rfl, rfl, rfl, rfl, rfl, rfl, rfl, rfl, rfl, rfl, rfl, rfl, rfl, rfl, rfl, rfl, rfl, rfl⟩

@[simp] theorem State.setSweep_frame (s : State) (p ch : Nat) (f : SweepPage → SweepPage) :
    (s.setSweep p ch f).pending = s.pending ∧ (s.setSweep p ch f).sys = s.sys ∧ (s.setSweep p ch f).svc = s.svc ∧
    (s.setSweep p ch f).host = s.host ∧ (s.setSweep p ch f).fen = s.fen ∧ (s.setSweep p ch f).part = s.part ∧
    (s.setSweep p ch f).stn = s.stn ∧ (s.setSweep p ch f).fab = s.fab ∧ (s.setSweep p ch f).spine = s.spine ∧
    (s.setSweep p ch f).cell = s.cell ∧ (s.setSweep p ch f).unit = s.unit ∧ (s.setSweep p ch f).dram.dram = s.dram.dram ∧
    (s.setSweep p ch f).dram.written = s.dram.written ∧ (s.setSweep p ch f).dram.rate = s.dram.rate ∧
    (s.setSweep p ch f).dram.dimmGb = s.dram.dimmGb ∧ (s.setSweep p ch f).dram.ctrls = s.dram.ctrls ∧
    (s.setSweep p ch f).dram.keys = s.dram.keys ∧ (s.setSweep p ch f).dram.devKeys = s.dram.devKeys ∧
    (s.setSweep p ch f).dram.nextKey = s.dram.nextKey ∧ (s.setSweep p ch f).dram.bitmap = s.dram.bitmap ∧
    (s.setSweep p ch f).dram.rows = s.dram.rows ∧ (s.setSweep p ch f).dram.nextRow = s.dram.nextRow ∧
    (s.setSweep p ch f).dram.rowWait = s.dram.rowWait ∧ (s.setSweep p ch f).dram.rebuilds = s.dram.rebuilds ∧
    (s.setSweep p ch f).dram.wipes = s.dram.wipes ∧ (s.setSweep p ch f).dram.lostDimms = s.dram.lostDimms ∧
    (s.setSweep p ch f).dram.dirty = s.dram.dirty ∧ (s.setSweep p ch f).dram.backlog = s.dram.backlog ∧
    (s.setSweep p ch f).dram.txns = s.dram.txns ∧ (s.setSweep p ch f).dram.nextReq = s.dram.nextReq ∧
    (s.setSweep p ch f).xlt = s.xlt ∧ (s.setSweep p ch f).link = s.link ∧ (s.setSweep p ch f).ses = s.ses ∧
    (s.setSweep p ch f).reck = s.reck ∧ (s.setSweep p ch f).fail = s.fail ∧ (s.setSweep p ch f).reg = s.reg ∧
    (s.setSweep p ch f).pow = s.pow ∧ (s.setSweep p ch f).age = s.age ∧ (s.setSweep p ch f).sec = s.sec ∧
    (s.setSweep p ch f).fw = s.fw ∧ (s.setSweep p ch f).boot = s.boot ∧ (s.setSweep p ch f).hostMem = s.hostMem ∧
    (s.setSweep p ch f).sent = s.sent ∧ (s.setSweep p ch f).log = s.log ∧ (s.setSweep p ch f).free = s.free :=
  ⟨rfl, rfl, rfl, rfl, rfl, rfl, rfl, rfl, rfl, rfl, rfl, rfl, rfl, rfl, rfl, rfl, rfl, rfl, rfl, rfl, rfl, rfl, rfl, rfl, rfl, rfl, rfl, rfl, rfl, rfl, rfl, rfl, rfl, rfl, rfl, rfl, rfl, rfl, rfl, rfl, rfl, rfl, rfl, rfl, rfl⟩

@[simp] theorem State.setMilestone_frame (s : State) (p off n : Nat) :
    (s.setMilestone p off n).pending = s.pending ∧ (s.setMilestone p off n).sys = s.sys ∧
    (s.setMilestone p off n).svc.waiting = s.svc.waiting ∧ (s.setMilestone p off n).svc.lastServed = s.svc.lastServed ∧
    (s.setMilestone p off n).svc.retry = s.svc.retry ∧ (s.setMilestone p off n).svc.cancel = s.svc.cancel ∧
    (s.setMilestone p off n).svc.stewards = s.svc.stewards ∧ (s.setMilestone p off n).svc.plans = s.svc.plans ∧
    (s.setMilestone p off n).host = s.host ∧ (s.setMilestone p off n).fen = s.fen ∧ (s.setMilestone p off n).part = s.part ∧
    (s.setMilestone p off n).stn = s.stn ∧ (s.setMilestone p off n).fab = s.fab ∧ (s.setMilestone p off n).spine = s.spine ∧
    (s.setMilestone p off n).cell = s.cell ∧ (s.setMilestone p off n).unit = s.unit ∧ (s.setMilestone p off n).dram = s.dram ∧
    (s.setMilestone p off n).xlt = s.xlt ∧ (s.setMilestone p off n).link = s.link ∧ (s.setMilestone p off n).ses = s.ses ∧
    (s.setMilestone p off n).reck = s.reck ∧ (s.setMilestone p off n).fail = s.fail ∧ (s.setMilestone p off n).reg = s.reg ∧
    (s.setMilestone p off n).pow = s.pow ∧ (s.setMilestone p off n).age = s.age ∧ (s.setMilestone p off n).sec = s.sec ∧
    (s.setMilestone p off n).fw = s.fw ∧ (s.setMilestone p off n).boot = s.boot ∧ (s.setMilestone p off n).hostMem = s.hostMem ∧
    (s.setMilestone p off n).sent = s.sent ∧ (s.setMilestone p off n).log = s.log ∧ (s.setMilestone p off n).free = s.free :=
  ⟨rfl, rfl, rfl, rfl, rfl, rfl, rfl, rfl, rfl, rfl, rfl, rfl, rfl, rfl, rfl, rfl, rfl, rfl, rfl, rfl, rfl, rfl, rfl, rfl, rfl, rfl, rfl, rfl, rfl, rfl, rfl, rfl⟩

@[simp] theorem State.enqueueReq_frame (s : State) (x : InnItem) :
    (s.enqueueReq x).pending = s.pending ∧ (s.enqueueReq x).sys = s.sys ∧ (s.enqueueReq x).svc.lastServed = s.svc.lastServed ∧
    (s.enqueueReq x).svc.retry = s.svc.retry ∧ (s.enqueueReq x).svc.cancel = s.svc.cancel ∧
    (s.enqueueReq x).svc.milestone = s.svc.milestone ∧ (s.enqueueReq x).svc.stewards = s.svc.stewards ∧
    (s.enqueueReq x).svc.plans = s.svc.plans ∧ (s.enqueueReq x).host = s.host ∧ (s.enqueueReq x).fen = s.fen ∧
    (s.enqueueReq x).part = s.part ∧ (s.enqueueReq x).stn = s.stn ∧ (s.enqueueReq x).fab = s.fab ∧ (s.enqueueReq x).spine = s.spine ∧
    (s.enqueueReq x).cell = s.cell ∧ (s.enqueueReq x).unit = s.unit ∧ (s.enqueueReq x).dram = s.dram ∧ (s.enqueueReq x).xlt = s.xlt ∧
    (s.enqueueReq x).link = s.link ∧ (s.enqueueReq x).ses = s.ses ∧ (s.enqueueReq x).reck = s.reck ∧ (s.enqueueReq x).fail = s.fail ∧
    (s.enqueueReq x).reg = s.reg ∧ (s.enqueueReq x).pow = s.pow ∧ (s.enqueueReq x).age = s.age ∧ (s.enqueueReq x).sec = s.sec ∧
    (s.enqueueReq x).fw = s.fw ∧ (s.enqueueReq x).boot = s.boot ∧ (s.enqueueReq x).hostMem = s.hostMem ∧
    (s.enqueueReq x).sent = s.sent ∧ (s.enqueueReq x).log = s.log ∧ (s.enqueueReq x).free = s.free :=
  ⟨rfl, rfl, rfl, rfl, rfl, rfl, rfl, rfl, rfl, rfl, rfl, rfl, rfl, rfl, rfl, rfl, rfl, rfl, rfl, rfl, rfl, rfl, rfl, rfl, rfl, rfl, rfl, rfl, rfl, rfl, rfl, rfl⟩

@[simp] theorem State.leaveQueue_frame (s : State) (key : Nat) :
    (s.leaveQueue key).pending = s.pending ∧ (s.leaveQueue key).sys = s.sys ∧ (s.leaveQueue key).svc.lastServed = s.svc.lastServed ∧
    (s.leaveQueue key).svc.retry = s.svc.retry ∧ (s.leaveQueue key).svc.cancel = s.svc.cancel ∧
    (s.leaveQueue key).svc.milestone = s.svc.milestone ∧ (s.leaveQueue key).svc.stewards = s.svc.stewards ∧
    (s.leaveQueue key).svc.plans = s.svc.plans ∧ (s.leaveQueue key).host = s.host ∧ (s.leaveQueue key).fen = s.fen ∧
    (s.leaveQueue key).part = s.part ∧ (s.leaveQueue key).stn = s.stn ∧ (s.leaveQueue key).fab = s.fab ∧
    (s.leaveQueue key).spine = s.spine ∧ (s.leaveQueue key).cell = s.cell ∧ (s.leaveQueue key).unit = s.unit ∧
    (s.leaveQueue key).dram = s.dram ∧ (s.leaveQueue key).xlt = s.xlt ∧ (s.leaveQueue key).link = s.link ∧
    (s.leaveQueue key).ses = s.ses ∧ (s.leaveQueue key).reck = s.reck ∧ (s.leaveQueue key).fail = s.fail ∧
    (s.leaveQueue key).reg = s.reg ∧ (s.leaveQueue key).pow = s.pow ∧ (s.leaveQueue key).age = s.age ∧
    (s.leaveQueue key).sec = s.sec ∧ (s.leaveQueue key).fw = s.fw ∧ (s.leaveQueue key).boot = s.boot ∧
    (s.leaveQueue key).hostMem = s.hostMem ∧ (s.leaveQueue key).sent = s.sent ∧ (s.leaveQueue key).log = s.log ∧
    (s.leaveQueue key).free = s.free :=
  ⟨rfl, rfl, rfl, rfl, rfl, rfl, rfl, rfl, rfl, rfl, rfl, rfl, rfl, rfl, rfl, rfl, rfl, rfl, rfl, rfl, rfl, rfl, rfl, rfl, rfl, rfl, rfl, rfl, rfl, rfl, rfl, rfl⟩

@[simp] theorem State.logFault_frame (s : State) (code part source detail : Nat) :
    (s.logFault code part source detail).pending = s.pending ∧ (s.logFault code part source detail).sys = s.sys ∧
    (s.logFault code part source detail).svc = s.svc ∧ (s.logFault code part source detail).host = s.host ∧
    (s.logFault code part source detail).fen = s.fen ∧ (s.logFault code part source detail).part = s.part ∧
    (s.logFault code part source detail).stn = s.stn ∧ (s.logFault code part source detail).fab = s.fab ∧
    (s.logFault code part source detail).spine = s.spine ∧ (s.logFault code part source detail).cell = s.cell ∧
    (s.logFault code part source detail).unit = s.unit ∧ (s.logFault code part source detail).dram = s.dram ∧
    (s.logFault code part source detail).xlt = s.xlt ∧ (s.logFault code part source detail).link = s.link ∧
    (s.logFault code part source detail).ses = s.ses ∧ (s.logFault code part source detail).reck = s.reck ∧
    (s.logFault code part source detail).fail = s.fail ∧ (s.logFault code part source detail).reg = s.reg ∧
    (s.logFault code part source detail).pow = s.pow ∧ (s.logFault code part source detail).age = s.age ∧
    (s.logFault code part source detail).sec = s.sec ∧ (s.logFault code part source detail).fw = s.fw ∧
    (s.logFault code part source detail).boot = s.boot ∧ (s.logFault code part source detail).hostMem = s.hostMem ∧
    (s.logFault code part source detail).sent = s.sent ∧ (s.logFault code part source detail).free = s.free :=
  ⟨rfl, rfl, rfl, rfl, rfl, rfl, rfl, rfl, rfl, rfl, rfl, rfl, rfl, rfl, rfl, rfl, rfl, rfl, rfl, rfl, rfl, rfl, rfl, rfl, rfl, rfl⟩

/-! ## What was written reads back -/

@[simp] theorem State.port_setPort (s : State) (n : Nat) (x : LPort) : (s.setPort n x).port n = x := by
  simp [State.port, State.setPort, Tab.getD, Tab.find_put]

/-! ## What the shared operations can do -/

/-- An event changes only the list of events that wait. -/
theorem State.event_eq (s : State) (code part ctx : Nat) (useCtx : Bool) (source station data : Nat) :
    ∃ l, s.event code part ctx useCtx source station data = { s with host := { s.host with events := l } } := by
  unfold State.event
  split
  · exact ⟨_, rfl⟩
  · exact ⟨s.host.events, rfl⟩

/-- An operator event changes only the list of events that wait. -/
theorem State.opEvent_eq (s : State) (code part source data : Nat) :
    ∃ l, s.opEvent code part source data = { s with host := { s.host with events := l } } := by
  unfold State.opEvent
  split
  · exact ⟨_, rfl⟩
  · exact ⟨s.host.events, rfl⟩

/-- A turned-away request changes only the times before which a request must not be sent again. -/
theorem State.noteRetry_eq (s : State) (key : Nat) (a : Ans) :
    ∃ l, s.noteRetry key a = { s with svc := { s.svc with retry := l } } := by
  unfold State.noteRetry
  split
  · split
    · exact ⟨s.svc.retry, rfl⟩
    · exact ⟨_, rfl⟩
  · exact ⟨s.svc.retry, rfl⟩

/-- A fault passed to device level changes only the lists of those faults. -/
theorem State.devFault_eq (s : State) (cause unit : Nat) :
    ∃ l u, s.devFault cause unit = { s with sys := { s.sys with devFaults := l, devUnits := u } } := by
  unfold State.devFault
  split
  · exact ⟨s.sys.devFaults, s.sys.devUnits, rfl⟩
  · exact ⟨_, _, rfl⟩

/-- That a class served a partition's item changes only the service's rounds. -/
theorem State.served_eq (s : State) (cls p : Nat) :
    ∃ l, s.served cls p = { s with svc := { s.svc with lastServed := l } } := by
  unfold State.served
  split
  · exact ⟨s.svc.lastServed, rfl⟩
  · exact ⟨_, rfl⟩

/-- Driving the output pins adds only pin levels to what has been sent. -/
theorem State.drive_eq (s s0 : State) : ∃ l, s.drive s0 = { s with sent := l ++ s.sent } := by
  unfold State.drive
  dsimp only
  split <;> split <;> split
  · exact ⟨[_, _, _], rfl⟩
  · exact ⟨[_, _], rfl⟩
  · exact ⟨[_, _], rfl⟩
  · exact ⟨[_], rfl⟩
  · exact ⟨[_, _], rfl⟩
  · exact ⟨[_], rfl⟩
  · exact ⟨[_], rfl⟩
  · exact ⟨[], rfl⟩

/-- Marking the front command begun changes only its ring. -/
theorem State.await_eq (s : State) (q : Nat) : s.await q = s ∨ ∃ r, s.await q = s.setRing q r := by
  unfold State.await
  split
  · exact .inl rfl
  · split
    · exact .inl rfl
    · exact .inr ⟨_, rfl⟩

end Sys2Proof.Machine
end

