-- ==== Sys2Proof/Tests/Slice0.lean ====
section
/-! SUPPORT. Sys2Proof/Tests/Slice0.lean: the model's own tests: ill-formed commands refused, values the spec prints, and for every
obligation with hypotheses a theorem that meets each of its clauses' hypotheses in a concrete state (`meets_<Name>`). -/

namespace Sys2Proof.Tests

open Sys2Proof Sys2Proof.Machine Sys2Proof.Spec

/-! ## Empty values -/

def zAccess : Access :=
  { who := (.cell 0), part := 0, dest := .none, got := [], left := 0, lost := 0, store := false }
def zAccount : Account :=
  { part := 0, req := 0, start := 0, context := 0, session := 0, flags := 0, compute := 0, slice := 0, dram := 0, link := 0, shared := 0, lastCharge := 0, charged := false }
def zMsgRef : MsgRef :=
  { session := 0, corr := 0, msg := 0 }
def zActivation : Activation :=
  { ref := zMsgRef, slot := false, images := [], order := [], unitNow := 0, begun := 0 }
def zCapture : Capture :=
  { part := 0, cause := 0, source := 0, station := 0, begun := 0, next := (.engine 0), done := false }
def zCaravan : Caravan :=
  { part := 0, members := [], headroom := 0, inFlight := 0 }
def zClaim : Claim :=
  { access := 0, block := 0, line := 0, rank := 0, op := .read, cls := 0, issued := false }
def zCrierSend : CrierSend :=
  { id := 0, device := false, part := 0, resetGen := 0, src := none, hub := [], bytes := 0, dstLine := 0, targets := [], beats := 0, marks := [], why := 0, sender := 0, lostAt := [], stopped := none, data := [], dead := [], doneIn := [], marked := [] }
def zDisp : Disp :=
  { slots := [], lastSlot := 0, ringUse := [], staleCount := 0 }
def zFenceFlit : FenceFlit :=
  { fence := 0, part := 0, context := 0, op := (.add 0 false), rank := 0, source := 0, reply := .none, flit := none }
def zFwImage : FwImage :=
  { hwType := 0, bound := false, unitId := 0, version := 0, svn := 0, vec := [], verified := false, hash := 0, header := 0 }
def zHolding : Holding :=
  { node := 0, part := 0, mirrors := [], bytes := 0, manifest := [] }
def zIncoming : Incoming :=
  { node := 0, transfer := 0, chunks := [], gens := [], final := none }
def zLease : Lease :=
  { gen := 0, homeNode := 0, homePart := 0, slot := 0, validUntil := 0, renewAt := 0, waiting := none, handing := none, transfer := 0, offered := false }
def zMemReq : MemReq :=
  { id := 0, line := 0, write := false, p3 := false, seq := 0, lo := 0, data := [], partial' := false, after := none, clears := false, amo := none, replay := none, frames := 0, who := .none, reg := none, more := [] }
def zMgmtSess : MgmtSess :=
  { peer := none, seqIn := 0, seqOut := 0, used := 0, badTags := 0 }
def zMirror : Mirror :=
  { record := 0, stops := [], maxNew := 0, tokens := [], made := 0, index := 0, idle := false, records := [] }
def zOutgoing : Outgoing :=
  { part := 0, node := 0, targetPart := 0, ports := 0, transfer := 0, migrate := false, gen := 0, frozen := false, saved := false, ref := none, bitmap := [] }
def zPartImage : PartImage :=
  { blocks := [], reckonings := [], sealedRanges := [], sealedSets := [], sealedLost := false, contexts := [], objects := [], rings := [], fences := [], stations := [], queues := [], engines := [], caravans := [], windows := [], plans := [], stewards := [], cells := [], sessions := [], qpairs := [], disp := [], comb := [] }
def zPlan : Plan :=
  { context := 0, stewardCell := 0, entryQ := 0, resultQ := 0, tokenRing := 0, kvPool := 0, kvPages := 0, kvPageBytes := 0, tableHandle := 0, logHandle := 0, vocab := 0, contextMax := 0, stepTokens := 0, maxBatch := 0, prefillChunk := 0, stepTimeoutMs := 0, sessionMax := 0, manifestAddr := 0, manifestSlots := 0, tapQ := 0, ostlerQ := 0, nextStep := 0, steps := [], usedPages := [], unmirrored := false }
def zPredFlit : PredFlit :=
  { part := 0, station := 0, value := false, ring := none, arrived := false, flit := none }
def zQPair : QPair :=
  { part := 0, recv := false, port := 0, slots := 0, peerNode := 0, peerPart := 0, landingFence := 0, peerQueue := 0, landingAddr := 0, landingBytes := 0, localQ := 0, context := 0, peerEpoch := 0, count := 0, buffer := [], unacked := [], credits := 0, oldPeers := [], f0 := 0, returned := 0, retarget := [], closing := none }
def zRekey : Rekey :=
  { newSlot := 0, pos := [], pages := [], scans := [], done := [], stopping := false }
def zRowEntry : RowEntry :=
  { id := 0, region := 0, stripe := 0, k := 0, staged := [], fetched := [], flushing := false, writing := false, asks := [], todo := [], out := 0, born := 0 }
def zSel : Sel :=
  { k := 0, smallest := false, counter := 0, items := [], isOpen := false, lastPush := 0 }
def zSess : Sess :=
  { part := 0, plan := 0, k := 0, gen := 0, context := 0, req := 0, temperature := 0, topP := 0, topK := 0, seed := 0, maxNew := 0, eos := 0, stops := [], state := .prefill, tokens := [], taken := [], filled := 0, made := 0, index := 0, round := 0, fails := 0, pages := [], admitted := 0, served := 0, preempted := none, endedAt := 0, robbed := false, recs := [], confirmed := 0, closing := none, abandoned := false }
def zStepInfo : StepInfo :=
  { ok := false, halt := 0, slotA := [], slotB := [], sig0 := false, sig1 := false, dimms := [], islands := [] }
def zSteward : Steward :=
  { part := 0, context := 0, role := 0, programHandle := 0, programOff := 0, programLen := 0, paramHandle := 0, paramLen := 0, inQ := [], running := false, dismissing := none, revoked := false, plan := none }
def zSubChan : SubChan :=
  { slot := 0, write := false, reads := 0, writes := 0, used := [], busy := none, scrubbed := false, scrub := 0 }
def zSync : Sync :=
  { id := 0, part := 0, context := 0, all := false, gen := 0, base := 0, pages := 0, ring := none, sent := false, waiting := [] }
def zTlbEntry : TlbEntry :=
  { part := 0, context := 0, vpage := 0, dte := 0, prefetched := false }
def zWalk : Walk :=
  { part := 0, context := 0, va := 0, write := false, prefetch := false, level := 0, table := 0, gen := 0, engine := 0, joined := false, req := none, ready := false, data := [], poison := false }
def zWaybill : Waybill :=
  { dropped := false, abandoned := false, heavy := false, last := false, kind := 0, resetGen := 0, station := 0, context := 0, queue := 0, epoch := 0, routeTag := 0, requestId := 0, tileBlock := 0, tileOff := 0, format := 0, cols := 0, rows := 0, rowPitch := 0, scales := false, zmap := false, sparsity := 0, scaleBlock := 0, scaleOff := 0, metaBlock := 0, metaOff := 0, originCol := 0, originRow := 0, fenceId := 0, fenceOp := 0, fenceDelta := 0, arg := 0, srcStation := 0, rejectCode := 0, rsvd := 0 }
def zWithdraw : Withdraw :=
  { cause := 0, evacuable := false, noticed := 0 }
/-! ## A small world -/

def wPart : Partition :=
  { regions := 63, sealedShare := false, coded := true, stripes := 4, queues := 100, fences := 100, sessions := 100, powerW := 100, companion := 0xFFFF, runs := [(0, 4)], epoch := 0, resetGen := 0, blockMap := [(0, 0), (1, 1)], moving := [], chShare := [], portShare := [], unretired := [], destroying := none, initialising := false, frozen := false, evacuating := false, backlogStop := false, sealedRanges := [] }
def wCtx : Context := { root := 0x1000, eventQ := none, tableGen := 0, live := true, revoker := none }
/-- A ring of a type; completions of ring 5 go to ring 6. -/
def wRing (ty : Nat) : Ring :=
  { part := 1, ty := ty, context := 0, log2 := 6, partEvents := false, handle := 1, off := 64, cqValid := true, cq := 6, produced := 0, consumed := 0, overflows := 0, lost := 0, cur := none, out := [] }
def wBuf : SubBuf :=
  { seq := 0, context := 0, stopOnRefuse := false, waitEn := false, signalEn := false, bufHandle := 1, bufOff := 0, bufBytes := 0, waitFence := 0, signalFence := 0, waitValue := 0, signalValue := 0, phase := .running, cmds := [], index := 0, forced := none }
/-- A 4 KiB memory object: the page of the mirror table itself. -/
def wObj : MemObj := { part := 1, context := 0, gen := 0, index := 1, va := 0, length := 4096, host := false }
def wQ : TileQ :=
  { part := 1, context := 0, consumer := .none, placed := none, hotLog2 := 6, spillLog2 := 0, stallMs := 0, spillHandle := 0, spillOff := 0, tail := 0, head := 0, hot := [], spill := [], fullStalls := 0, refill := 0, oldPlace := none, oldHot := [], headSince := 0, stalled := false }
def wStation : Station :=
  { predMode := 0, zip := false, ordered := false, kind := 3, nOut := 1, nIn := 1, programHandle := 1, programOff := 0, programLen := 4, paramHandle := 0, paramLen := 0, routeShift := 0, predValue := true, predOut := 0, predBit := 0, watchdogMs := 0, inQ := [20], outQ := [some 21], rejectQ := none, context := 0, anchor := some (0, 0), engines := [], lastIn := 0, starts := [], returned := [], lastCommit := 0, unbinds := [] }
def wEngine : Engine := { part := 1, station := 3, fromE := 0, toE := none, start := none, params := [] }
def wStart : Start := { part := 1, station := 3, inputs := [(0, {})], emits := [], direct := [], ended := false, heldFull := false, heldOrder := false, begun := 0, faulted := false }
def wFence (v : Nat) : Fence := { part := 1, owner := none, wordA := BitVec.ofNat 64 v, wordB := BitVec.ofNat 64 v }
def wRef : MsgRef := { session := 0, corr := 0, msg := 0 }

/-- Partition 1 with two blocks, a context and a mirror table of one page that maps itself, with `l` as the page's bytes from byte 64. -/
def wPage (l : List (BitVec 8)) : State :=
  { State.reset with
    sys := { SysUnit.reset with state := .ready },
    part := { PartUnit.reset with parts := [(1, wPart)] },
    host := { HostUnit.reset with contexts := [(4096, wCtx), (4097, wCtx)], objects := [(65537, wObj)], rings := [(5, wRing 0), (6, wRing 1), (7, wRing 2), (8, wRing 4), (9, wRing 6)] },
    fen := { FenceUnit.reset with fences := [(1, wFence 5), (2, wFence 0)] },
    fab := { FabricUnit.reset with blocks := [(0, { bound := some (1, 0), powered := true }), (1, { bound := some (1, 1), powered := true })] },
    stn := { StationUnit.reset with queues := [(20, wQ), (21, wQ)] },
    dram := { DramUnit.reset with dimmGb := 64, dram := Memory.writeL [(0x1000, 1), (0x1001, 0x10)] 0x1040 l, written := (List.range 64).map (fun i => (64 + i, 0)) } }
def w0 : State := wPage []
/-- The page with the one-word program END of an S cell at byte 64, as object 1 of one page offset 64. -/
def wProg : State :=
  { w0 with host := { w0.host with objects := [(65537, { wObj with va := 64, length := 960 })] }, dram := { w0.dram with dram := Memory.writeL w0.dram.dram 0x1040 (bytesOf 4 3154116672) } }
/-- Command `op` with record `r` of `n` bytes at the front of ring 5's running buffer. -/
def wCmdIn (s : State) (op n r : Nat) : State :=
  s.setRing 5 { wRing 0 with cur := some { wBuf with cmds := [{ opcode := op, length := n, tag := 0, record := r, past := false }] } }
def wCmd (op n r : Nat) : State := wCmdIn w0 op n r
def wMsg (n : Nat) : MsgRef := { session := 1, corr := 0, msg := n }

theorem notEvac {s : State} {p : Nat} {y : Partition} (h : s.part? p = some y) (hy : y.evacuating = false) : ∀ x, s.part? p = some x → x.evacuating = false := by
  intro x hx; rw [h] at hx; cases hx; exact hy
theorem noPart {s : State} {p : Nat} (h : s.part? p = none) : ∀ x, s.part? p = some x → x.evacuating = false := by
  intro x hx; rw [h] at hx; cases hx
/-- A free ID is picked where one is left. -/
theorem pickSome {seed lo n m : Nat} {used : Nat → Bool} (h : n ≠ 0) (h2 : ((List.range (min n (m + 1))).map (· + lo) |>.find? (fun i => !used i)).isSome = true) : (pickId seed lo n m used).isSome = true := by
  unfold pickId; rw [if_neg h]; dsimp only; split
  · exact h2
  · rfl
theorem gotId {α : Type} {o : Option α} (h : o.isSome = true) : o = some (o.get h) := by simp

/-- A pair whose second part is none. -/
theorem pairNone {α β : Type} {x : α × Option β} (h : x.2 = none) : x = (x.1, none) := by cases x; cases h; rfl

theorem pairSome {α β : Type} {x : α × Option β} {n : β} (h : x.2 = some n) : x = (x.1, some n) := by cases x; cases h; rfl

/-- Lanes of a register. -/
def wLanes (r : Nat) (l : List Nat) : Tab Nat := (List.zip (List.range l.length) l).map (fun e => (r * 64 + e.1, e.2))
/-- A vector cell with word `w` at its program counter. -/
def wX (w : Nat) : VCell :=
  { store := Memory.writeN [] 0 4 w, progLen := 4, p := [(1, 0xFF0000000000FFFD), (2, 0x8000000000000F05), (3, 0x30)], a := [(1, 0x100), (2, 5), (3, 0x80000000), (4, 0x3FFF0), (5, 0x40)], v := wLanes 2 [0x3F800000, 0x40490FDB, 0xC0000001, 0x7F7FFFFF, 0x80000000, 0x7FC00001, 0x7F800000, 0x00000001, 0x0000FFFF, 3, 0x3F000000, 0x80000000, 0xFF800000, 0x42C80000, 17, 0x4B000001] ++ wLanes 3 [0x40400000, 1, 0xBF800000, 0x7F7FFFFF, 0x3F800000, 0x3F800000, 0xFF800000, 0x00000001, 33, 60, 0x4B000001, 2, 0x7F800000, 4, 0x3FC00000, 0x42280000] ++ wLanes 4 [0xBF800000, 0x3F800000, 2, 3, 4, 5, 6, 7] ++ wLanes 5 [0, 4, 8, 12, 0, 4, 100, 1000], local' := Memory.writeN [] 0x100 16 0x4049_0FDB_3F80_0000_8000_1234_7FC0_00FF, sels := [{ k := 2, smallest := false, counter := 7, items := [(5, 1)], isOpen := true, lastPush := 0 }] }
def wXEng : Engine := { wEngine with start := some wStart }
/-- Cell 12 of block 0, a vector cell, runs a start. -/
def wV (x : VCell) : State :=
  { w0 with stn := { w0.stn with engines := [(0x100C, wXEng)] }, cell := { w0.cell with v := [(12, x)] } }
def wVE (x : VCell) (w : Nat) : VEnv := { e := 0x100C, ex := wXEng, st := wStart, c := 12, x := x, w := w }
theorem tabSmall {n : Nat} (hn : 0 < n) (k : Nat) : (t : Tab Nat) → t.all (fun e => decide (e.2 < n)) = true → Tab.getD t k 0 < n
  | [], _ => hn
  | (k', v) :: l, h => by
    rw [List.all_cons, Bool.and_eq_true] at h
    unfold Tab.getD
    rw [Tab.find_cons]
    by_cases e : k = k'
    · rw [if_pos e]; exact of_decide_eq_true h.1
    · rw [if_neg e]; exact tabSmall hn k l h.2
theorem wLaneSmall : ∀ i, (wVE (wX 0x2000B) 0x2000B).a i < 2 ^ 32 := fun i => tabSmall (by decide) _ _ (by decide)

/-- A scalar cell with word `w` at its program counter. -/
def wY (w : Nat) : SCell :=
  { store := Memory.writeN [] 0 4 w, progLen := 4, s := [(1, 0x100), (2, 0xFFFFFFFFFFFFFFF0), (3, 5), (4, 0x80000000), (6, 20), (7, 1), (8, 3), (9, 0x8000000000000000), (10, 18), (11, 77)], local' := Memory.writeN [] 0x100 64 0xF00D0002, status := 12, emitCount := 3 }
def wYEng : Engine := { wEngine with start := some wStart }
/-- Cell 18 of block 0, a scalar cell, runs a start. -/
def wS (x : SCell) : State :=
  { w0 with stn := { w0.stn with engines := [(0x1012, wYEng)] }, cell := { w0.cell with s := [(18, x)] } }
def wSE (x : SCell) (w : Nat) : SEnv := { c := 18, part := 1, ctx := 0, eng := some (wYEng, wStart), x := x, w := w }
/-- Cell 18 of block 0 is a steward whose inputs are queues 20 and 21. -/
def wT (x : SCell) : State :=
  { w0 with stn := { w0.stn with queues := [(20, { wQ with placed := some (0, 0), hot := [{ zWaybill with kind := 2 }] }), (21, { wQ with placed := some (0, 64) })], stations := [(stnKey 1 3, wStation)] }, cell := { w0.cell with s := [(18, x)] }, svc := { w0.svc with stewards := [(18, { zSteward with part := 1, role := 1, running := true, inQ := [some 20, some 21, none, none] })] } }
def wTE (x : SCell) (w : Nat) : SEnv := { c := 18, part := 1, ctx := 0, eng := none, x := x, w := w }

/-- A matrix cell with descriptor `d` at its program counter. -/
def wN (d : Nat) : MCell :=
  { store := Memory.writeN [] 0 32 d, progLen := 64, acc := [(4096, 0x3F800000), (4097, 0x40000000), (4161, 7)], bBuf := Memory.writeN [] 0 16 0x3F80_4000_BF80_4100_0102_0304_3F00_3F80 }
def wNEng : Engine := { wEngine with start := some { wStart with inputs := [(0, { zWaybill with kind := 2, arg := 9 })] } }
/-- Cell 0 of block 0, a matrix cell, runs a start. -/
def wM (m : MCell) : State :=
  { w0 with stn := { w0.stn with engines := [(0x1000, wNEng)] }, cell := { w0.cell with m := [(0, m)] } }
def wME (m : MCell) : MEnv := { e := 0x1000, x := wNEng, st := { wStart with inputs := [(0, { zWaybill with kind := 2, arg := 9 })] }, m := m, d := m.next }

/-- Carrier 1 of block 0 runs a start. -/
def wCarS : State := { w0 with stn := { w0.stn with engines := [(0x2001, wXEng)] } }

/-- A dispatch station, its two inputs, and dispatch unit 0 with a start. -/
def wDT : Station := { wStation with kind := 4, zip := true, nIn := 2 }
def wDP : Mem := Memory.writeN [] 0 64 0x9000101020000040000000040000000100001001000010101
def wDA : Waybill := { zWaybill with kind := 0, format := 7, cols := 8, rows := 2, rowPitch := 16, tileOff := 0x30, requestId := 9 }
def wDB : Waybill := { zWaybill with kind := 0, format := 9, cols := 1, rows := 2, rowPitch := 16, tileOff := 0x20 }
def wDSt : Start := { wStart with inputs := [(0, wDA), (1, wDB)] }
def wDX : Engine := { wEngine with params := wDP, start := some wDSt }
def wDPlan : DispPlan := { table := 0, map := [0x80000000, 0x3F800000, 0x80000001, 0x3F800000], dels := [{ queue := 20, tag := 7, lowest := 0, slots := 0, rows := [some 0, some 1] }], dropped := false }
/-- Slice bytes: a table entry, scores, an activation tile. -/
def wSlc : Mem := Memory.writeN (Memory.writeN (Memory.writeN [] 0x400 8 0x8000004000700014) 0x800 20 0x40000000_00000000_00000000_00000000_3F800000) 0xC00 32 0x0102030405060708_1112131415161718_2122232425262728_3132333435363738
def wD (f0 : Nat) (d : DispRun) : State :=
  { w0 with fab := { w0.fab with slices := wSlc }, stn := { w0.stn with engines := [(0x3000, wDX)], stations := [(stnKey 1 3, wDT)] }, unit := { w0.unit with disp := [(0x3000, d)], f0 := [(0x3000, f0)] } }
/-- A combine station and combine unit 0. -/
def wCT : Station := { wStation with kind := 5, nIn := 2 }
def wCX : Engine := { wEngine with params := Memory.writeN [] 0 64 0x200000400000000800001001000080703 }
def wCMap : Waybill := { zWaybill with kind := 0, format := 0x0B, cols := 2, rows := 2, rowPitch := 16, tileOff := 0x40, arg := 0x10003 }
def wCRes : Waybill := { zWaybill with kind := 0, format := 7, cols := 8, rows := 2, rowPitch := 16, tileOff := 0x30, arg := 0x30000000 }
def wCB : CombBatch := { batch := 3, map := wCMap, entries := [{ token := 1, delivery := 0, row := 0, weight := 0x3F000000 }], size := 2, nDel := 1, received := [], abandoned := false, zero := [], adds := [] }
def wC (c : CombUnit) : State :=
  { w0 with fab := { w0.fab with slices := Memory.writeN wSlc 0x1000 8 0x3F800000_80000000 }, stn := { w0.stn with engines := [(0x4000, wCX)], stations := [(stnKey 1 3, wCT)] }, unit := { w0.unit with comb := [(0x4000, c)] } }
/-- A gather station and gather carrier 0 with a start. -/
def wGT : Station := { wStation with kind := 6 }
def wGP : Mem := Memory.writeN [] 0 64 0x100010005000200400010090200000080000001000000000800000040000000400000000000000000
def wGW : Waybill := { zWaybill with kind := 0, format := 0x0B, cols := 2, rows := 1, rowPitch := 16, tileOff := 0x10 }
def wGSt : Start := { wStart with inputs := [(0, wGW)] }
def wGX : Engine := { wEngine with params := wGP, start := some wGSt }
def wG : State :=
  { wPage (List.replicate 192 7) with fab := { w0.fab with slices := Memory.writeN [] 0x400 8 0xFFFFFFFF_00000001 }, stn := { w0.stn with engines := [(0x2000, wGX)], stations := [(stnKey 1 3, wGT)] }, xlt := { w0.xlt with btus := [(0, { freshBtu with sets := [(0, [(0, { part := 1, context := 0, vpage := 0, dte := 0x1001, prefetched := false })])] })] } }
/-- A collective station, its group of two, and port 0's collective engine with a start. -/
def wLT : Station := { wStation with kind := 8 }
def wLP : Mem := Memory.writeN [] 0 64 (2 + 9 * 2 ^ 8 + 3 * 2 ^ 16 + 0x80 * 2 ^ 64 + 4 * 2 ^ 192)
def wLSt : Start := { wStart with inputs := [(0, { zWaybill with kind := 2, arg := 7 })] }
def wLX : Engine := { wEngine with params := wLP, start := some wLSt }
def wGroup : Group := { members := 2, rank := 0, nextNode := 5, prevNode := 5, nextPart := 1, port := 0, gen := 9 }
def wPort : LPort := { freshPort with state := .active, lanes := [0, 1, 2, 3, 4, 5, 6, 7], partnerKind := 1, partnerNode := 5, bufs := [200, 200, 200, 64], credit := [200, 200, 200, 64] }
def wLink (u : LinkUnit) (e : Engine) : State :=
  { w0 with stn := { w0.stn with engines := [(0x5000, e)], stations := [(stnKey 1 3, wLT)] }, link := { u with groups := [(259, wGroup)] } }
/-- The transaction header of a segment of group 3. -/
def wSegMsg (gen : Nat) : RxMsg := { src := 5, vc := 2, flits := 1, bytes := (bytesOf 32 (0x10 + 2 ^ 8 + 3 * 2 ^ 96 + (gen * 2 ^ 56 + 7) * 2 ^ 128)) ++ List.replicate 8 0x41 }
/-- A flit with its check code. -/
def wFlit (base : Nat) : BitVec 2048 := BitVec.ofNat 2048 (base ||| plcB 248 8 (crc64 (bytesOf 248 base)))
def wPortS (n : Nat) (x : LPort) : State := { w0 with link := { LinkUnit.reset with ports := [(n, x)] } }
/-- A picked ID is a free one. -/
theorem pickedFree {seed lo n m i : Nat} {used : Nat → Bool} (h : pickId seed lo n m used = some i) : used i = false := by
  unfold pickId at h
  split at h
  · cases h
  · dsimp only at h
    split at h
    · simpa using List.find?_some h
    · rename_i hc; cases h; simpa using hc
/-- After a queue ID is picked and taken another is left. -/
theorem pickTwo {s : State} {q n : Nat} {x : TileQ} (h0 : s.queueUsed 0 = false) (h1 : s.queueUsed 1 = false) (hl : 1 ≤ s.host.rings.length) :
    ((State.setQueue { s with free := n } q x).pickQueue).isSome = true ∧ ∀ q', (State.setQueue { s with free := n } q x).pickQueue = some q' → q ≠ q' := by
  have hu : ∀ c, (State.setQueue { s with free := n } q x).queueUsed c = (decide (c = q) || s.queueUsed c) := by
    intro c
    simp only [State.queueUsed, State.queue?, State.ring?, State.setQueue, Tab.find_put]
    by_cases e : c = q <;> simp [e]
  constructor
  · unfold State.pickQueue pickId
    rw [if_neg (by decide)]
    dsimp only; split
    · rw [List.find?_isSome]
      refine ⟨if q = 0 then 1 else 0, ?_, ?_⟩
      · rw [List.mem_map]
        refine ⟨if q = 0 then 1 else 0, ?_, rfl⟩
        rw [List.mem_range]
        have : 1 ≤ (State.setQueue { s with free := n } q x).host.rings.length := hl
        split <;> omega
      · rw [hu]; split <;> simp_all <;> omega
    · rfl
  · intro q' h e
    have := pickedFree h
    rw [hu, ← e] at this
    simp at this
theorem gotPair {α β : Type} {o : Option (α × β)} (h : o.isSome = true) : o = some ((o.get h).1, (o.get h).2) := by cases o with | none => cases h | some v => rfl
theorem slotSome {s : State} (h : (pickId s.free 0 65536 s.ses.sessions.length (fun i => Tab.has s.ses.sessions i)).isSome = true) : s.pickSlot.isSome = true := by
  unfold State.pickSlot; rw [Option.isSome_map]; exact h
/-- A serving plan with two free pages of four, and its session in slot 3. -/
def wPlan : Plan := { zPlan with stewardCell := 18, entryQ := 20, resultQ := 21, tokenRing := 8, kvPool := 1, kvPages := 4, kvPageBytes := 4096, tableHandle := 1, logHandle := 1, vocab := 100, contextMax := 32, stepTokens := 64, maxBatch := 4, prefillChunk := 16, stepTimeoutMs := 5, sessionMax := 4, manifestSlots := 2, usedPages := [0, 1] }
def wSess : Sess := { zSess with part := 1, plan := 16, gen := 1, req := 0x80000009, topP := 0x3F800000, topK := 4, maxNew := 9, eos := 0xFFFFFFFF, state := .decode, tokens := [1, 2], filled := 1, made := 1, index := 1, round := 1, pages := [0, 1] }
def wSesU (x : Sess) : SessUnit := { SessUnit.reset with sessions := [(3, x)], gens := [(3, 1)], homes := [(acctKey 1 0x80000009, { owner := 0xFFFF, gen := 0, deadline := 0, ownerPart := 1 })] }
def wSteward2 : Steward := { zSteward with part := 1, role := 2, running := true, inQ := [some 21, none, none, none] }
/-- The plan, its steward and a session. -/
def wZ (y : Plan) (x : Sess) : State :=
  { w0 with svc := { w0.svc with stewards := [(18, wSteward2)], plans := [(16, y)] }, ses := wSesU x, stn := { w0.stn with queues := [(20, { wQ with placed := some (0, 0) }), (21, { wQ with placed := some (0, 64) })] } }
theorem placeSome {s : State} {p gen home : Nat} {im : SessImage} {y : Plan} (hy : s.plan? (planKey p (im.sess.plan % 16)) = some y) (hs : s.pickSlot.isSome = true) (hk : ¬ y.freeCount < im.kv.length) : (s.placeSession p im gen home).isSome = true := by
  unfold State.placeSession
  dsimp only
  rw [hy]
  cases h : s.pickSlot with
  | none => rw [h] at hs; cases hs
  | some e => cases e; dsimp only; rw [if_neg hk]; rfl
def wMirror : Mirror := { zMirror with record := 0x7_00000000_00000000, maxNew := 9, tokens := [1, 2], made := 0 }
def wHold : Holding := { zHolding with node := 5, part := 1, mirrors := [(0x10003, wMirror)] }
def wLease : Lease := { zLease with gen := 2, homeNode := 5, homePart := 1, slot := 3, validUntil := 5000000 }
/-- A capture that waits for a partition's reset, and a save of partition 1 under way. -/
def wCap : Capture := { zCapture with part := 1, cause := 6, station := 0xFFFF, next := .part 1 }
def wOut : Outgoing := { zOutgoing with part := 1, node := 5, targetPart := 2, ports := 4, transfer := 7, migrate := true }
def wFail (f : FailUnit) : State := { w0 with fail := f }
def wChunks : Tab Chunk := [(0, { kind := 0, index := 0, last := true, data := bytesOf 64 (2 ^ 16 + 4 * 2 ^ 32 + 9 * 2 ^ 64) })]
def wInc : Incoming := { zIncoming with node := 5, transfer := 7, gens := [wChunks], final := some wChunks }
def wAcct : Account := { zAccount with part := 1, req := 9 }
def wReck (r : ReckUnit) : State := { w0 with reck := r }
def wImage (ty svn : Nat) : FwImage := { zFwImage with hwType := ty, svn := svn, verified := true, vec := [0x80050100] }
def wAct : Activation := { zActivation with ref := wMsg 9, images := [(4, wImage 4 2)], order := [4, 5] }
def wMS (n : Nat) : MgmtSess := { zMgmtSess with seqIn := n }
def wSec (u : SecUnit) : State := { w0 with sec := { u with sessions := [(1, wMS 3)] } }

/-! ## Ill-formed commands are refused

One command for each check of WellFormed.lean, with a number just past its range. -/

theorem test_illFormed_queueId : (Instr.contextCreate (2 ^ 20) 0).wellFormed = false := by decide
theorem test_illFormed_port : (Instr.flitSlot 14).wellFormed = false := by decide
theorem test_illFormed_partition_zero : (Instr.epochRetire 0).wellFormed = false := by decide
theorem test_illFormed_partition_high : (Instr.epochRetire 61).wellFormed = false := by decide
theorem test_illFormed_context : (Instr.contextRevoked 1 4096).wellFormed = false := by decide
theorem test_illFormed_block : (Instr.waybillStart 60).wellFormed = false := by decide
theorem test_illFormed_cell : (Instr.cellUncorrectable 1200 true).wellFormed = false := by decide
theorem test_illFormed_mCell : (Instr.mEnd 12).wellFormed = false := by decide
theorem test_illFormed_vCell_low : (Instr.vVadd 11).wellFormed = false := by decide
theorem test_illFormed_vCell_high : (Instr.vVadd 18).wellFormed = false := by decide
theorem test_illFormed_sCell : (Instr.sAlu 17).wellFormed = false := by decide
theorem test_illFormed_carrier : (Instr.gatherStart 240).wellFormed = false := by decide
theorem test_illFormed_fixedUnit : (Instr.dispatchStart 24).wellFormed = false := by decide
theorem test_illFormed_region : (Instr.parityRowFlush 6).wellFormed = false := by decide
theorem test_illFormed_dimm : (Instr.dimmLost 48).wellFormed = false := by decide
theorem test_illFormed_subchannel : (Instr.dramSlotGrant 0 2).wellFormed = false := by decide
theorem test_illFormed_slice : (Instr.slicePatrolScrub 0 16 0 false).wellFormed = false := by decide
theorem test_illFormed_bank : (Instr.slicePatrolScrub 0 0 8 false).wellFormed = false := by decide
theorem test_illFormed_engine_class : (Instr.engineCommit 0x6000).wellFormed = false := by decide
theorem test_illFormed_engine_collective : (Instr.engineCommit 0x500C).wellFormed = false := by decide
theorem test_illFormed_station : (Instr.stationUnbound 1 65536).wellFormed = false := by decide
theorem test_illFormed_plan : (Instr.stepCompose 1 16).wellFormed = false := by decide
theorem test_illFormed_node : (Instr.ctrlIdent 0 0 0 65536 0 0 0 0 0).wellFormed = false := by decide
theorem test_illFormed_window : (Instr.windowClosed 4096).wellFormed = false := by decide
theorem test_illFormed_caravan : (Instr.caravanWrite 0 256 0 0 0 64).wellFormed = false := by decide
theorem test_illFormed_group : (Instr.fenceSignalApply 5).wellFormed = false := by decide
theorem test_illFormed_step_zero : (Instr.startStepComplete 0 zStepInfo).wellFormed = false := by decide
theorem test_illFormed_step_high : (Instr.startStepComplete 11 zStepInfo).wellFormed = false := by decide
theorem test_illFormed_bytes : (Instr.hostWrite 0 1 0 (List.replicate 1048577 0)).wellFormed = false := by
  show (portOk 0 && partOk 1 && decide ((List.replicate 1048577 (0 : BitVec 8)).length ≤ 1048576)) = false
  rw [List.length_replicate]; decide
theorem test_illFormed_message : (Instr.clockRead (wMsg 0x0602) 0).wellFormed = false := by decide
/-- The last number of each range is well-formed. -/
theorem test_wellFormed_ends : [Instr.contextCreate (2 ^ 20 - 1) 0, .flitSlot 13, .epochRetire 60, .contextRevoked 1 4095, .waybillStart 59,
    .cellUncorrectable 1199 false, .mEnd 1191, .vVadd 1197, .sAlu 1199, .gatherStart 239, .dispatchStart 23, .parityRowFlush 5, .dimmLost 47,
    .dramSlotGrant 47 1, .slicePatrolScrub 59 15 7 false, .engineCommit 0x500B, .stationUnbound 60 65535, .stepCompose 60 15, .windowClosed 4095,
    .caravanWrite 239 255 0 59 0 64, .fenceSignalApply 4, .startStepComplete 10 zStepInfo, .clockRead (wMsg 0x0601) 0].all Instr.wellFormed = true := by decide

/-! ## The reset state -/

/-- Reset's memories are in canonical form, so MemoriesStayCanonical's premise is met at reset. -/
theorem reset_memoriesCanonical : Safety.MemoriesCanonical State.reset = true := by decide
theorem reset_logInOrder : Safety.LogInOrder State.reset.log = true := by decide
theorem test_reset_step_idles : step State.reset = .next State.reset.tick := rfl

/-! ## Values that the spec prints -/

/-- R120's first example: VFMA v3, v1, v2, v4 is 0x1061_1100. -/
theorem test_encoding_vfma : (vOp 0x10611100, vVd 0x10611100, vVa 0x10611100, vVb 0x10611100, vVc 0x10611100, vPg 0x10611100, vFn 0x10611100) = (4, 3, 1, 2, 4, 0, 0) := by decide
/-- R120's second example: a branch 34 instructions back is 0xF100_FFDE. -/
theorem test_encoding_br : (vOp 0xF100FFDE, vbOff 0xF100FFDE) = (0x3C, -34) := by decide
/-- R141's examples: DIVU s7, s5, s6 is 0x10E5_3001 and LD s5, [s4 + 0] is 0x40A4_C000. -/
theorem test_encoding_divu : (sOp 0x10E53001, sRd 0x10E53001, sRa 0x10E53001, sRb 0x10E53001, sFn 0x10E53001) = (4, 7, 5, 6, 1) := by decide
theorem test_encoding_ld : (sOp 0x40A4C000, sRd 0x40A4C000, sRa 0x40A4C000, sSz 0x40A4C000, sImm14 0x40A4C000) = (0x10, 5, 4, 3, 0) := by decide
/-- R160: rows 0-3 of chunk c start at line 4,096 + 16r + c, and their slices are c XOR r. -/
theorem test_sliceOf : ((List.range 4).map (fun r => (List.range 16).map (fun c => sliceOf (4096 + 16 * r + c)))) = ((List.range 4).map (fun r => (List.range 16).map (fun c => c ^^^ r))) := by decide
/-- The largest finite values of E5M2, E4M3, E2M3, E3M2 and E2M1 in the OCP formats that R44 and R83 name: 57,344, 448, 7.5, 28 and 6. -/
theorem test_largest : (e5m2.decode 0x7B, e4m3.decode 0x7E, e2m3.decode 0x1F, e3m2.decode 0x1F, e2m1.decode 7) = (.fin false 7 13, .fin false 14 5, .fin false 15 (-1), .fin false 7 2, .fin false 3 1) := by decide
/-- R120's VFMA on a cell whose v1 is 0: v3 takes v4's first lanes, −1.0 and 1.0. -/
theorem test_vfma_runs : ((((wV (wX 0x10611100)).vLanes 12 4 3 0 (fun v i => fp32.fma (v.a i) (v.b i) (v.cc i))).vcell 12).lane 3 0) = 0xBF800000 := by decide +kernel
/-- VADD v3, v2, v4: 1.0 + −1.0 is +0, and the program counter advances by one. -/
theorem test_vadd_runs : (match exec (.vVadd 12) (wV (wX 0x04622000)) with | .next t => ((t.vcell 12).lane 3 0, (t.vcell 12).pc) | _ => (1, 0)) = (0, 1) := by decide +kernel
/-- DIVU s7, s6, s3: 20 ÷ 5 is 4. -/
theorem test_divu_runs : (match exec (.sDiv 18) (wS (wY 0x10E61801)) with | .next t => (t.scell 18).reg 7 | _ => 0) = 4 := by decide +kernel
/-- DIVU by a register that holds 0 sets DIV_ZERO (STATUS bit 2) and writes all ones (R143). -/
theorem test_divu_zero : (match exec (.sDiv 18) (wS { wY 0x10E62801 with status := 0 }) with | .next t => ((t.scell 18).reg 7, (t.scell 18).status) | _ => (0, 0)) = (2 ^ 64 - 1, 4) := by decide +kernel
/-- The CRC-32C of the digits 1 to 9, whose check value is 0xE306_9283. -/
theorem test_crc32c : crc32c ((List.range 9).map (fun i => BitVec.ofNat 8 (0x31 + i))) = 0xE3069283 := by decide +kernel
/-- R306's header as the AON keeps it, before a start. -/
theorem test_header_vendor : State.reset.identHeader % 65536 = 0x5D7A := by decide +kernel

/-! ## Hypotheses met

Each theorem applies an obligation, clause by clause, to a state and operands for which every premise of the clause holds. -/

section

set_option maxRecDepth 20000
set_option exponentiation.threshold 4096

theorem meets_StepRunsFront (h : Obligations.StepRunsFront) : True := by
  trivial

theorem meets_EveryStepCompletes (h : Obligations.EveryStepCompletes) : True := by
  have _ := ((((h).2.1) w0) (by decide))
  have _ := ((((h).2.2) ({ (w0) with boot := { (w0).boot with aon := false } })) (by decide))
  trivial

theorem meets_ResetState (h : Obligations.ResetState) : True := by
  trivial

theorem meets_HeaderAtPowerGood (h : Obligations.HeaderAtPowerGood) : True := by
  have _ := ((((h).1) w0 1 0) (by decide))
  have _ := ((((h).2) State.reset.identHeader) (by decide))
  trivial

theorem meets_MemoriesStayCanonical (h : Obligations.MemoriesStayCanonical) : True := by
  have _ := ((((h) ({ w0 with pending := [.resetNAssert] }) ({ w0 with boot := { w0.boot with resetLow := some 0 } })) (by decide)) rfl)
  trivial

theorem meets_FaultLogGrowsInOrder (h : Obligations.FaultLogGrowsInOrder) : True := by
  have _ := ((((h) ({ w0 with pending := [.resetNAssert] }) ({ w0 with boot := { w0.boot with resetLow := some 0 } })) (by decide)) rfl)
  trivial

theorem meets_WhatNoCommandChanges (h : Obligations.WhatNoCommandChanges) : True := by
  have _ := ((((h) .resetNAssert w0 ({ w0 with boot := { w0.boot with resetLow := some 0 } })) rfl).1)
  have _ := ((((h) .resetNAssert w0 ({ w0 with boot := { w0.boot with resetLow := some 0 } })) rfl).2.1)
  have _ := ((((h) .resetNAssert w0 ({ w0 with boot := { w0.boot with resetLow := some 0 } })) rfl).2.2.1)
  have _ := ((((h) .resetNAssert w0 ({ w0 with boot := { w0.boot with resetLow := some 0 } })) rfl).2.2.2.1)
  have _ := ((((h) .resetNAssert w0 ({ w0 with boot := { w0.boot with resetLow := some 0 } })) rfl).2.2.2.2.1)
  have _ := (((((h) .resetNAssert w0 ({ w0 with boot := { w0.boot with resetLow := some 0 } })) rfl).2.2.2.2.2.1) (by decide))
  have _ := (((((h) .resetNAssert w0 ({ w0 with boot := { w0.boot with resetLow := some 0 } })) rfl).2.2.2.2.2.2) 1)
  trivial

theorem meets_SlotIdIsSampledOnce (h : Obligations.SlotIdIsSampledOnce) : True := by
  have _ := ((((h).1) 9 ({ (w0) with boot := { (w0).boot with aon := false } })) (by decide))
  have _ := ((((h).2.1) 9 ({ (w0) with boot := { (w0).boot with aon := true } })) (by decide))
  have _ := (((((h).2.2.1) .resetNAssert w0 ({ w0 with boot := { w0.boot with resetLow := some 0 } })) rfl) (by intro id h; cases h))
  trivial

theorem meets_LowestCeiling (h : Obligations.LowestCeiling) : True := by
  have _ := (((((h).1) ({ (w0) with pow := { (w0).pow with overCeil := [(0, 475)], dimm := true, cap := { on := true, mhz := 850, moved := 0 } } }) 0).2.2.1) (by decide))
  have _ := ((((((h).1) ({ (w0) with pow := { (w0).pow with overCeil := [(0, 475)], dimm := true, cap := { on := true, mhz := 850, moved := 0 } } }) 0).2.2.2.1) 475) (by decide))
  have _ := ((((((h).2.1) ((State.setBlock { (w0) with pow := { (w0).pow with overCeil := [(0, 475)], dimm := true, cap := { on := true, mhz := 850, moved := 0 } } } 0 { State.block { (w0) with pow := { (w0).pow with overCeil := [(0, 475)], dimm := true, cap := { on := true, mhz := 850, moved := 0 } } } 0 with plannedMhz := 1000 })) 0).2) (by decide)) (by decide))
  trivial

theorem meets_EarlyResend (h : Obligations.EarlyResend) : True := by
  have _ := ((((h).1) w0 7 30) (by decide))
  have _ := (((((h).2.1) ({ { (w0) with svc := { (w0).svc with retry := [(7, 150)] } } with sys := { ({ (w0) with svc := { (w0).svc with retry := [(7, 150)] } }).sys with timeUs := 100 } }) 3 1 7) (by decide)) (by decide))
  have _ := ((((((h).2.2.1) ({ { (w0) with svc := { (w0).svc with retry := [((2 ^ 40 + 65536), 150)] } } with sys := { ({ (w0) with svc := { (w0).svc with retry := [((2 ^ 40 + 65536), 150)] } }).sys with timeUs := 100 } }) (wMsg 0) 3 1 ((fun s => (s, none)))) (by decide)) (by decide)) (by decide))
  have _ := ((((((((h).2.2.2.1) ({ { ((wCmd 0x20 64 0)) with svc := { ((wCmd 0x20 64 0)).svc with retry := [((5 * 65536 + 0x20), 150)] } } with sys := { ({ ((wCmd 0x20 64 0)) with svc := { ((wCmd 0x20 64 0)).svc with retry := [((5 * 65536 + 0x20), 150)] } }).sys with timeUs := 100 } }) 5 0x20 0 4 _ ((fun _ s => (s, none)))) rfl) (by decide)) (by decide)) (by decide)) (by decide))
  have _ := ((((((h).2.2.2.2.1) ({ { (w0) with svc := { (w0).svc with retry := [(7, 150)] } } with sys := { ({ (w0) with svc := { (w0).svc with retry := [(7, 150)] } }).sys with timeUs := 100 } }) ({ cls := 4, part := 1, key := 9 }) 7 _) (by decide)) (by decide)) rfl)
  have _ := ((((((((h).2.2.2.2.2.1) ({ (w0) with fail := { (w0).fail with captures := List.replicate 8 wCap } }) ({ cls := 4, part := 1, key := 9 }) 9) (by decide)) (by decide)) (by decide)).1) (by decide))
  have _ := (((((((((h).2.2.2.2.2.1) w0 ({ cls := 4, part := 1, key := 9 }) 9) (by decide)) (by decide)) (by decide)).2.1) (by decide)) (.inl rfl))
  have _ := ((((((((h).2.2.2.2.2.1) ({ w0 with svc := { (w0).svc with waiting := [(wMsg 5).item 4 1] } }) (((wMsg 0).item 4 1)) 9) (by decide)) (by decide)) (by decide)).2.2) ⟨1, rfl, _, List.mem_singleton.mpr rfl, rfl⟩)
  have _ := ((((((h).2.2.2.2.2.2.1) ({ w0 with svc := { (w0).svc with waiting := [((wMsg 0).item 4 1)] } }) (((wMsg 0).item 4 1)) 9 0) (by decide)) ⟨_, List.mem_singleton.mpr rfl, rfl⟩) (by decide))
  have _ := ((((((h).2.2.2.2.2.2.2.2.1) w0).2) (by decide)) (by decide))
  have _ := (((((h).2.2.2.2.2.2.2.2.2.2.1) w0 3 1 0) (by decide)) (by decide))
  have _ := (((((((h).2.2.2.2.2.2.2.2.2.2.2.1) ({ w0 with svc := { (w0).svc with waiting := (List.range 64).map (fun i => MsgRef.item { session := i, corr := 0, msg := 0 } 3 1) } }) 3 1 9) (by decide)) (by decide)) (by decide)) (by decide))
  have _ := (((((((h).2.2.2.2.2.2.2.2.2.2.2.2.1) w0 3 1 9) (by decide)) (by decide)) (by decide)) (by decide))
  have _ := (((((h).2.2.2.2.2.2.2.2.2.2.2.2.2.1) ({ (w0) with fail := { (w0).fail with withdraw := some zWithdraw } }) 1 9 zWithdraw) (by decide)) (by decide))
  have _ := ((((((((h).2.2.2.2.2.2.2.2.2.2.2.2.2.2.1) ({ (wCmd 0x20 64 0) with svc := { ((wCmd 0x20 64 0)).svc with waiting := [⟨4, 1, (5 * 65536 + 0x20)⟩] } }) 5 0x20 0 4 _ ((fun _ s => (s, none))) _) rfl) (by decide)) rfl).1) (by decide))
  have _ := ((((((((h).2.2.2.2.2.2.2.2.2.2.2.2.2.2.1) ({ ((wCmd 0x20 64 0)) with fail := { ((wCmd 0x20 64 0)).fail with captures := List.replicate 8 wCap } }) 5 0x20 0 4 _ ((fun _ s => (s, none))) _) rfl) (by decide)) rfl).2.1) (by decide))
  have _ := ((((((((h).2.2.2.2.2.2.2.2.2.2.2.2.2.2.1) ({ { ((wCmd 0x20 64 0)) with fail := { ((wCmd 0x20 64 0)).fail with captures := List.replicate 8 wCap } } with svc := { ({ ((wCmd 0x20 64 0)) with fail := { ((wCmd 0x20 64 0)).fail with captures := List.replicate 8 wCap } }).svc with waiting := [⟨4, 1, (5 * 65536 + 0x20)⟩] } }) 5 0x20 0 4 _ ((fun _ s => (s, none))) _) rfl) (by decide)) rfl).2.2.1) (by decide))
  have _ := (((((((((h).2.2.2.2.2.2.2.2.2.2.2.2.2.2.1) ({ { ((wCmd 0x20 64 0)) with svc := { ((wCmd 0x20 64 0)).svc with retry := [((5 * 65536 + 0x20), 150)] } } with sys := { ({ ((wCmd 0x20 64 0)) with svc := { ((wCmd 0x20 64 0)).svc with retry := [((5 * 65536 + 0x20), 150)] } }).sys with timeUs := 100 } }) 5 0x20 0 4 _ ((fun _ s => (s, none))) _) rfl) (by decide)) rfl).2.2.2) _) rfl)
  have _ := (((((h).2.2.2.2.2.2.2.2.2.2.2.2.2.2.2.1) ({ (wCmd 0x20 64 0) with host := { ((wCmd 0x20 64 0)).host with contexts := [] } }) 5 0x20 0 4 _ ((fun _ s => (s, none)))) rfl) (by decide))
  have _ := (((((((h).2.2.2.2.2.2.2.2.2.2.2.2.2.2.2.2) ({ w0 with svc := { (w0).svc with waiting := [((wMsg 0).item 4 1)] } }) (wMsg 0) 4 1 ((fun s => (s, none))) _ _) rfl) rfl).1) (by decide))
  have _ := (((((((h).2.2.2.2.2.2.2.2.2.2.2.2.2.2.2.2) ({ (w0) with fail := { (w0).fail with captures := List.replicate 8 wCap } }) (wMsg 0) 4 1 ((fun s => (s, none))) _ _) rfl) rfl).2.1) (by decide))
  have _ := (((((((h).2.2.2.2.2.2.2.2.2.2.2.2.2.2.2.2) ({ { (w0) with fail := { (w0).fail with captures := List.replicate 8 wCap } } with svc := { ({ (w0) with fail := { (w0).fail with captures := List.replicate 8 wCap } }).svc with waiting := [((wMsg 0).item 4 1)] } }) (wMsg 0) 4 1 ((fun s => (s, none))) _ _) rfl) rfl).2.2.1) (by decide))
  have _ := ((((((((h).2.2.2.2.2.2.2.2.2.2.2.2.2.2.2.2) ({ { (w0) with svc := { (w0).svc with retry := [((wMsg 0).key, 150)] } } with sys := { ({ (w0) with svc := { (w0).svc with retry := [((wMsg 0).key, 150)] } }).sys with timeUs := 100 } }) (wMsg 0) 4 1 ((fun s => (s, none))) _ _) rfl) rfl).2.2.2) _) rfl)
  trivial

theorem meets_EpochOrder (h : Obligations.EpochOrder) : True := by
  have _ := ((((h).2.2.1) 65535 3) (by decide))
  have _ := ((((h).2.2.2.2.1) w0 wQ) (by decide))
  have _ := ((((h).2.2.2.2.2) w0 ({ wQ with placed := some (0, 0) })) (fun b => Or.inl rfl))
  trivial

theorem meets_ContextAndObjectCommands (h : Obligations.ContextAndObjectCommands) : True := by
  have _ := (((((((((h).1) 5 (0x20000000000000000005#128) _ (wCmdIn (w0) 0x1 16 0x20000000000000000005)) ⟨rfl, rfl, by decide⟩) (by decide)) (by decide)) (by decide)) (by decide)) (by first | (intro h; revert h; decide) | (intro _; decide) | (intro _; exact ⟨_, rfl, by decide⟩) | (intro h; exact absurd h (by decide))))
  have _ := (((((((h).2.1) 5 (0x1#64) _ (wCmdIn (w0) 0x2 8 0x1)) ⟨rfl, rfl, by decide⟩) (by decide)) (by decide)) (by decide))
  have _ := ((((((((((h).2.2.1) 1 1 _ _ _ ({ { w0 with host := { (w0).host with contexts := [(4097, { wCtx with live := false })] } } with xlt := { ({ w0 with host := { (w0).host with contexts := [(4097, { wCtx with live := false })] } }).xlt with syncs := [{ id := 0, part := 1, context := 1, all := true, gen := 0, base := 0, pages := 0, ring := none, sent := true, waiting := [] }] } })) rfl) (by decide)) (by decide)) (by decide)) (by decide)) (by decide)) rfl)
  have _ := ((((((((h).2.2.2.1) 1 1 _ ({ w0 with host := { (w0).host with contexts := [(4097, { wCtx with live := false })] } })) rfl) (by decide)) (by decide)) (by decide)) (by decide))
  have _ := ((((((((((h).2.2.2.2.1) 5 (0x100000000000000040000000000000000001#256) _ _ (wCmdIn ({ w0 with host := { (w0).host with objects := [] } }) 0x3 32 0x100000000000000040000000000000000001)) ⟨rfl, rfl, by decide⟩) (by decide)) (by decide)) (by decide)) (by decide)) (by decide)) rfl)
  have _ := (((((((h).2.2.2.2.2) 5 (0x2#64) _ _ (wCmdIn ({ w0 with host := { (w0).host with objects := [(65538, { wObj with index := 2 })] } }) 0x4 8 0x2)) ⟨rfl, rfl, by decide⟩) (by decide)) rfl) (by decide))
  trivial

theorem meets_QueueCommands (h : Obligations.QueueCommands) : True := by
  have _ := (((((((((((h).1) 5 (0x60000000000000000000000000000000000000003#576) _ _ ((State.pickQueue (wCmdIn (w0) 0x5 72 0x60000000000000000000000000000000000000003)).get (pickSome (by decide) (by decide))) (wCmdIn (w0) 0x5 72 0x60000000000000000000000000000000000000003)) ⟨rfl, rfl, by decide⟩) (by decide)) (by decide)) (by decide)) rfl) (by decide)) (by first | (intro h; revert h; decide) | (intro _; decide) | (intro _; exact ⟨_, rfl, by decide⟩) | (intro h; exact absurd h (by decide)))) (by exact gotId (pickSome (by decide) (by decide))))
  have _ := (((((((((((((h).2.1) 5 (0x100060000000000000000000000000001#576) _ _ ((State.pickQueue (wCmdIn (w0) 0x5 72 0x100060000000000000000000000000001)).get (pickSome (by decide) (by decide))) (wCmdIn (w0) 0x5 72 0x100060000000000000000000000000001)) ⟨rfl, rfl, by decide⟩) (by decide)) (by decide)) (by decide)) rfl) (by decide)) (by first | (intro h; revert h; decide) | (intro _; decide) | (intro _; exact ⟨_, rfl, by decide⟩) | (intro h; exact absurd h (by decide)))) (by first | (intro h; revert h; decide) | (intro _; decide) | (intro _; exact ⟨_, rfl, by decide⟩) | (intro h; exact absurd h (by decide)))) (by decide)) (by exact gotId (pickSome (by decide) (by decide))))
  have _ := ((((((((h).2.2) 5 (0x15#64) _ (wCmdIn (w0) 0x6 8 0x15)) ⟨rfl, rfl, by decide⟩) (by decide)) (by decide)) (by decide)) (by decide))
  trivial

theorem meets_DoorbellsAndBuffers (h : Obligations.DoorbellsAndBuffers) : True := by
  have _ := (((((((((h).1) 1 0 .submissionTailDoorbell) (by simp)) (5#64) w0).1) _) (by decide)) rfl)
  have _ := ((((((((h).1) 1 0 .submissionTailDoorbell) (by simp)) (99#64) w0).2.1) _) rfl)
  have _ := ((((((((h).1) 1 0 .submissionTailDoorbell) (by simp)) (5#64) w0).2.2) 2) (by decide))
  have _ := ((((h).2.1) 1 0 w0) (by decide))
  have _ := (((((((((((((((((h).2.2.1) 5 _ _ (bytesOf 64 0x1000000080000000010000000000000000) ([{ opcode := 7, length := 8, tag := 0, record := 0, past := false }]) ((wPage (bytesOf 64 0x1000000080000000010000000000000000 ++ bytesOf 16 0x80007)).setRing 5 { wRing 0 with produced := 1 })) rfl) (by decide)) (by decide)) (by decide)) (by decide)) rfl) (by decide)) (by decide)) (by decide)) (by decide)) (by decide)) (by decide)) (by first | (intro h; revert h; decide) | (intro _; decide) | (intro _; exact ⟨_, rfl, by decide⟩) | (intro h; exact absurd h (by decide)))) (by first | (intro h; revert h; decide) | (intro _; decide) | (intro _; exact ⟨_, rfl, by decide⟩) | (intro h; exact absurd h (by decide))))
  have _ := ((((((((((h).2.2.2.1) 5 _ _ _ ((wPage (bytesOf 64 0x1000000080000000010000000000000000 ++ bytesOf 16 0x80007)).setRing 5 { wRing 0 with cur := some { wBuf with bufOff := 128, bufBytes := 16, phase := .waiting } })) rfl) rfl) (by decide)) (by decide)) (by first | (intro h; revert h; decide) | (intro _; decide) | (intro _; exact ⟨_, rfl, by decide⟩) | (intro h; exact absurd h (by decide)))) rfl) (by decide))
  have _ := (((((((((((h).2.2.2.2.1) 5 _ _ _ ({ ((wPage (bytesOf 64 0x1000000080000000010000000000000000 ++ bytesOf 16 0x80007)).setRing 5 { wRing 0 with cur := some { wBuf with bufOff := 128, bufBytes := 16, phase := .waiting, waitEn := true, waitFence := 1, waitValue := 3 } }) with fen := { FenceUnit.reset with fences := [(1, wFence (2 ^ 63))] } })) rfl) rfl) (by decide)) (by decide)) (by decide)) (by decide)) rfl) (by decide))
  have _ := ((((h).2.2.2.2.2.1) 5 _ w0) rfl)
  have _ := ((((((((((h).2.2.2.2.2.2.1) _ _ _ _ ({ { w0 with sys := { (w0).sys with timeUs := 1000 } } with host := { ({ w0 with sys := { (w0).sys with timeUs := 1000 } }).host with events := [{ queue := 7, code := 0, context := 0, part := 1, source := 0, station := 0, count := 1, time := 0, data := 0 }] } })) rfl) (by decide)) rfl) rfl).1) (by decide)) (by decide))
  have _ := (((((((((h).2.2.2.2.2.2.1) _ _ _ _ ({ (({ w0 with sys := { (w0).sys with timeUs := 1000 } }).setRing 7 { wRing 2 with produced := 64 }) with host := { ((({ w0 with sys := { (w0).sys with timeUs := 1000 } }).setRing 7 { wRing 2 with produced := 64 })).host with events := [{ queue := 7, code := 0, context := 0, part := 1, source := 0, station := 0, count := 1, time := 0, data := 0 }] } })) rfl) (by decide)) rfl) rfl).2) (by decide))
  have _ := ((((((((h).2.2.2.2.2.2.2) 7 _ ((w0).setRing 7 { wRing 2 with lost := 3 })) rfl) (by decide)) (by decide)) (by decide)) (by decide))
  trivial

theorem meets_FenceCommands (h : Obligations.FenceCommands) : True := by
  have _ := (((((((((h).1) 5 (0x5#128) _ _ _ (wCmdIn ({ w0 with fen := { (w0).fen with fences := [] } }) 0x7 16 0x5)) ⟨rfl, rfl, by decide⟩) (by decide)) (by decide)) rfl) (by decide)) rfl)
  have _ := ((((((((((h).2.1) 5 (0x1#64) _ _ (wCmdIn (w0) 0x8 8 0x1)) ⟨rfl, rfl, by decide⟩) (by decide)) rfl) rfl) (by decide)) (by decide)) (by decide))
  have _ := ((((((((h).2.2.1) 5 (0x30000000000010001#128) _ (wCmdIn (w0) 0x9 16 0x30000000000010001)) ⟨rfl, rfl, by decide⟩) (by decide)) (by decide)) (by decide)) (by decide))
  have _ := ((((((((h).2.2.2.1) 5 (0x900000000000000060000000000000001#192) _ (wCmdIn (w0) 0xa 24 0x900000000000000060000000000000001)) ⟨rfl, rfl, by decide⟩) (by decide)) (by decide)) (by decide)) (by decide))
  have _ := (((((((((((h).2.2.2.2.1) ({ zFenceFlit with fence := 1, part := 1, op := .read, reply := .wait 5 3 none }) 5 3 none 1 (wFence 5) ({ wCmd 0xA 24 0 with fen := { (wCmd 0xA 24 0).fen with port := [{ zFenceFlit with fence := 1, part := 1, op := .read, reply := .wait 5 3 none }] } })) (by decide)) (by decide)) (by decide)) (by decide)) (by decide)) (by decide)) (by decide)) (by decide))
  have _ := (((((h).2.2.2.2.2.1) 5 _ ({ w0 with fen := { (w0).fen with waiters := [{ ring := 5, part := 1, fence := 1, target := 9, deadline := 0 }] } })) rfl) (by decide))
  have _ := ((((((((((h).2.2.2.2.2.2.1) 5 (0x30000000000000001#128) _ _ (wCmdIn (w0) 0xb 16 0x30000000000000001)) ⟨rfl, rfl, by decide⟩) (by decide)) (by decide)) rfl) rfl) (by decide)) (by decide))
  have _ := ((((((((((((((h).2.2.2.2.2.2.2.1) 5 (0x4000000000000000800000000000000040000000010000000100000000000000030000000000000001#384) _ _ _ (wCmdIn (w0) 0xc 48 0x4000000000000000800000000000000040000000010000000100000000000000030000000000000001)) ⟨rfl, rfl, by decide⟩) (by decide)) (by decide)) (by decide)) (by decide)) (by decide)) rfl) rfl) (by decide)) (by decide)) (by decide))
  have _ := ((((((((h).2.2.2.2.2.2.2.2.1) w0 1 0x4000000000000000800000000000000040000000010000000100000000000000030000000000000001 (5#64) _ _) rfl) rfl) (by decide)).1) (by decide))
  have _ := ((((((((h).2.2.2.2.2.2.2.2.1) w0 1 0x4000000000000000800000000000000040000000010000000100000000000000030000000000000001 (2#64) _ _) rfl) rfl) (by decide)).2) (by decide))
  have _ := ((((h).2.2.2.2.2.2.2.2.2.1) w0 1 0x4000000000000000800000000000000040000000010000000100000000000000030000000000000001 (BitVec.ofNat 64 (2 ^ 63))) (by decide))
  have _ := (((((h).2.2.2.2.2.2.2.2.2.2.1) (wCmd 0xC 48 0) ({ zFenceFlit with fence := 1, part := 1, op := .read, reply := .fetch 5 0x4000000000000000800000000000000040000000010000000100000000000000030000000000000001 }) 5 0x4000000000000000800000000000000040000000010000000100000000000000030000000000000001 (.ok 5)) (by decide)) (by decide))
  have _ := (((((((((h).2.2.2.2.2.2.2.2.2.2.2) ({ zFenceFlit with fence := 1, part := 1, op := .add 3 true }) _ 3 8 true ({ w0 with fen := { (w0).fen with port := [{ zFenceFlit with fence := 1, part := 1, op := .add 3 true }] } })) (by decide)) (by decide)) rfl) (by decide)) rfl) (Or.inl (by decide)))
  trivial

theorem meets_StationCommands (h : Obligations.StationCommands) : True := by
  have _ := (((((((((((((((h).1) 5 (0x40000000000000000000000000000000000000000000000000000000000000000000000008000001500000000000000000000000000000014000000000000000000000000000000000000000111030003#1024) _ (wCmdIn (wProg) 0x10 128 0x40000000000000000000000000000000000000000000000000000000000000000000000008000001500000000000000000000000000000014000000000000000000000000000000000000000111030003)) ⟨rfl, rfl, by decide⟩) (by decide)) (by decide)) (by decide)) (by first | (intro h; revert h; decide) | (intro _; decide) | (intro _; exact ⟨_, rfl, by decide⟩) | (intro h; exact absurd h (by decide)))) (by first | (intro h; revert h; decide) | (intro _; decide) | (intro _; exact ⟨_, rfl, by decide⟩) | (intro h; exact absurd h (by decide)))) (by first | (intro h; revert h; decide) | (intro _; decide) | (intro _; exact ⟨_, rfl, by decide⟩) | (intro h; exact absurd h (by decide)))) (by decide)) (by decide)) rfl) (by decide)) (by decide))
  have _ := (((((((((((((((((((h).2.1) 5 (0x10120000000000010003#576) _ ({ wStation with anchor := none }) 0 _ _ (wCmdIn ({ { wProg with stn := { (wProg).stn with stations := [(stnKey 1 3, { wStation with anchor := none })] } } with stn := { ({ wProg with stn := { (wProg).stn with stations := [(stnKey 1 3, { wStation with anchor := none })] } }).stn with queues := [(20, { wQ with placed := some (0, 0) }), (21, wQ)] } }) 0x11 72 0x10120000000000010003)) ⟨rfl, rfl, by decide⟩) (by decide)) (by decide)) (by decide)) (by decide)) (by decide)) (by decide)) (by decide)) (by decide)) (by decide)) (by decide)) (by first | (intro h; revert h; decide) | (intro _; decide) | (intro _; exact ⟨_, rfl, by decide⟩) | (intro h; exact absurd h (by decide)))) (by first | (intro h; revert h; decide) | (intro _; decide) | (intro _; exact ⟨_, rfl, by decide⟩) | (intro h; exact absurd h (by decide)))) rfl) rfl) (by decide))
  have _ := (((((((((((((((h).2.2.1) 5 (0x10120000000000010003#576) _ ({ wStation with engines := [0x1012] }) (wCmdIn ({ { w0 with stn := { (w0).stn with stations := [(stnKey 1 3, { wStation with engines := [0x1012] })] } } with stn := { ({ w0 with stn := { (w0).stn with stations := [(stnKey 1 3, { wStation with engines := [0x1012] })] } }).stn with engines := [(0x1012, wEngine)] } }) 0x12 72 0x10120000000000010003)) ⟨rfl, rfl, by decide⟩) (by decide)) (by decide)) (by decide)) (by decide)) (by decide)) (by intro x hx; have h : x = 0x1012 := List.mem_singleton.mp hx; subst h; exact ⟨_, rfl, rfl⟩)) _ _ _) rfl) (.inr (by decide))) rfl) rfl)
  have _ := (((((h).2.2.2.1) 1 3 _ 5 ([]) ({ wCmd 1 8 0 with stn := { (wCmd 1 8 0).stn with stations := [(stnKey 1 3, { wStation with unbinds := [(5, [])] })] } })) rfl) (by decide))
  have _ := ((((((((h).2.2.2.2.1) 5 (0x10003#64) _ ({ wStation with anchor := none }) (wCmdIn ({ w0 with stn := { (w0).stn with stations := [(stnKey 1 3, { wStation with anchor := none })] } }) 0x13 8 0x10003)) ⟨rfl, rfl, by decide⟩) (by decide)) (by decide)).1) (by decide))
  have _ := ((((((((h).2.2.2.2.1) 5 (0x10003#64) _ wStation (wCmdIn ({ w0 with stn := { (w0).stn with stations := [(stnKey 1 3, wStation)] } }) 0x13 8 0x10003)) ⟨rfl, rfl, by decide⟩) (by decide)) (by decide)).2) (by decide))
  have _ := (((((h).2.2.2.2.2.1) 1 3 _ _ _ ({ { w0 with stn := { (w0).stn with stations := [(stnKey 1 3, wStation)] } } with stn := { ({ w0 with stn := { (w0).stn with stations := [(stnKey 1 3, wStation)] } }).stn with preds := [{ zPredFlit with part := 1, station := 3, value := true, ring := some 5 }] } })) rfl) rfl)
  have _ := (((((h).2.2.2.2.2.2) 1 3 _ _ _ ({ { wCmd 1 8 0 with stn := { (wCmd 1 8 0).stn with stations := [(stnKey 1 3, wStation)] } } with stn := { ({ wCmd 1 8 0 with stn := { (wCmd 1 8 0).stn with stations := [(stnKey 1 3, wStation)] } }).stn with preds := [{ zPredFlit with part := 1, station := 3, value := true, arrived := true, ring := some 5 }] } })) rfl) rfl)
  trivial

theorem meets_WaybillQueues (h : Obligations.WaybillQueues) : True := by
  have _ := (((((((((h).1) 5 (0x20000000000000014#576) _ (wCmdIn ({ w0 with stn := { (w0).stn with queues := [(20, { wQ with placed := some (0, 0) }), (21, wQ)] } }) 0x14 72 0x20000000000000014)) ⟨rfl, rfl, by decide⟩) (by decide)) (by decide)) (by decide)) (by decide)) (by decide))
  have _ := ((((((((h).2.1) 20 _ _ _ ({ { w0 with stn := { (w0).stn with queues := [(20, { wQ with placed := some (0, 0), hot := List.replicate 64 ({ zWaybill with kind := 2, rowPitch := 0 }) }), (21, wQ)] } } with stn := { ({ w0 with stn := { (w0).stn with queues := [(20, { wQ with placed := some (0, 0), hot := List.replicate 64 ({ zWaybill with kind := 2, rowPitch := 0 }) }), (21, wQ)] } }).stn with flight := [{ queue := 20, wb := { zWaybill with kind := 2, rowPitch := 0 }, rank := 0, left := 0 }] } })) rfl) rfl) (by decide)).1) (by decide))
  have _ := ((((((((h).2.1) 20 _ _ _ ({ { w0 with stn := { (w0).stn with queues := [(20, { wQ with placed := some (0, 0) }), (21, wQ)] } } with stn := { ({ w0 with stn := { (w0).stn with queues := [(20, { wQ with placed := some (0, 0) }), (21, wQ)] } }).stn with flight := [{ queue := 20, wb := { zWaybill with kind := 2, rowPitch := 0 }, rank := 0, left := 0 }] } })) rfl) rfl) (by decide)).2) (by decide))
  have _ := (((((((h).2.2.1) 20 _ _ _ ({ { w0 with stn := { (w0).stn with queues := [(20, { wQ with spillLog2 := 6 }), (21, wQ)] } } with stn := { ({ w0 with stn := { (w0).stn with queues := [(20, { wQ with spillLog2 := 6 }), (21, wQ)] } }).stn with flight := [{ queue := 20, wb := { zWaybill with kind := 2, rowPitch := 0 }, rank := 0, left := 0 }] } })) rfl) rfl) (by decide)) (by decide))
  have _ := (((((((h).2.2.2.1) 20 _ _ _ ({ { w0 with stn := { (w0).stn with queues := [(20, { wQ with hotLog2 := 6 }), (21, wQ)] } } with stn := { ({ w0 with stn := { (w0).stn with queues := [(20, { wQ with hotLog2 := 6 }), (21, wQ)] } }).stn with flight := [{ queue := 20, wb := { zWaybill with kind := 2, rowPitch := 0 }, rank := 0, left := 0 }] } })) rfl) rfl) (by decide)) (by decide))
  have _ := ((((((h).2.2.2.2.1) w0 20 ({ wQ with spillLog2 := 6, spillHandle := 1 }) _ ({ zWaybill with kind := 2, rowPitch := 0 })) (by decide)) (by decide)) rfl)
  have _ := ((((((h).2.2.2.2.2.1) w0 20 ({ wQ with placed := some (0, 0) }) 0 0 0 ({ zWaybill with kind := 2, rowPitch := 0 })) (by decide)) (by decide)) (by decide))
  have _ := (((((((h).2.2.2.2.2.2.1) 20 _ ({ w0 with stn := { (w0).stn with queues := [(20, { wQ with placed := some (0, 0), spillLog2 := 6, spill := [{ zWaybill with kind := 2, rowPitch := 0 }] }), (21, wQ)] } })) rfl) (by decide)) (by decide)) (by decide))
  have _ := (((((h).2.2.2.2.2.2.2) 20 _ ({ w0 with stn := { (w0).stn with queues := [(20, { wQ with placed := some (0, 0), spillLog2 := 6, spill := [{ zWaybill with kind := 2, rowPitch := 0 }], refill := 1 }), (21, wQ)] } })) rfl) (by decide))
  trivial

theorem meets_StartsAndCommits (h : Obligations.StartsAndCommits) : True := by
  have _ := (((((((((((((h).1) 0 0 1 3 0 ({ wStation with engines := [0x1012] }) ({ zWaybill with kind := 2, rowPitch := 0 }) 0x1012 ({ { { { w0 with stn := { (w0).stn with queues := [(20, { wQ with placed := some (0, 0), hot := [{ zWaybill with kind := 2, rowPitch := 0 }] }), (21, wQ)] } } with stn := { ({ w0 with stn := { (w0).stn with queues := [(20, { wQ with placed := some (0, 0), hot := [{ zWaybill with kind := 2, rowPitch := 0 }] }), (21, wQ)] } }).stn with stations := [(stnKey 1 3, { wStation with engines := [0x1012] })] } } with stn := { ({ { w0 with stn := { (w0).stn with queues := [(20, { wQ with placed := some (0, 0), hot := [{ zWaybill with kind := 2, rowPitch := 0 }] }), (21, wQ)] } } with stn := { ({ w0 with stn := { (w0).stn with queues := [(20, { wQ with placed := some (0, 0), hot := [{ zWaybill with kind := 2, rowPitch := 0 }] }), (21, wQ)] } }).stn with stations := [(stnKey 1 3, { wStation with engines := [0x1012] })] } }).stn with engines := [(0x1012, wEngine)] } } with stn := { ({ { { w0 with stn := { (w0).stn with queues := [(20, { wQ with placed := some (0, 0), hot := [{ zWaybill with kind := 2, rowPitch := 0 }] }), (21, wQ)] } } with stn := { ({ w0 with stn := { (w0).stn with queues := [(20, { wQ with placed := some (0, 0), hot := [{ zWaybill with kind := 2, rowPitch := 0 }] }), (21, wQ)] } }).stn with stations := [(stnKey 1 3, { wStation with engines := [0x1012] })] } } with stn := { ({ { w0 with stn := { (w0).stn with queues := [(20, { wQ with placed := some (0, 0), hot := [{ zWaybill with kind := 2, rowPitch := 0 }] }), (21, wQ)] } } with stn := { ({ w0 with stn := { (w0).stn with queues := [(20, { wQ with placed := some (0, 0), hot := [{ zWaybill with kind := 2, rowPitch := 0 }] }), (21, wQ)] } }).stn with stations := [(stnKey 1 3, { wStation with engines := [0x1012] })] } }).stn with engines := [(0x1012, wEngine)] } }).stn with disps := [(0, { zDisp with slots := [(0, stnKey 1 3)], lastSlot := 63 })] } })) (by decide)) (by decide)) (by decide)) (by decide)) (by decide)) (by decide)) (by decide)) (by decide)) (by decide)) (by decide))
  have _ := (((((((((((h).2.1) 0 0 1 3 0 ({ wStation with zip := true, engines := [0x1012] }) 0x1012 0 ([(0, { zWaybill with kind := 2, rowPitch := 0 })]) ({ { { { w0 with stn := { (w0).stn with queues := [(20, { wQ with placed := some (0, 0), hot := [{ zWaybill with kind := 2, rowPitch := 0 }] }), (21, wQ)] } } with stn := { ({ w0 with stn := { (w0).stn with queues := [(20, { wQ with placed := some (0, 0), hot := [{ zWaybill with kind := 2, rowPitch := 0 }] }), (21, wQ)] } }).stn with stations := [(stnKey 1 3, { wStation with zip := true, engines := [0x1012] })] } } with stn := { ({ { w0 with stn := { (w0).stn with queues := [(20, { wQ with placed := some (0, 0), hot := [{ zWaybill with kind := 2, rowPitch := 0 }] }), (21, wQ)] } } with stn := { ({ w0 with stn := { (w0).stn with queues := [(20, { wQ with placed := some (0, 0), hot := [{ zWaybill with kind := 2, rowPitch := 0 }] }), (21, wQ)] } }).stn with stations := [(stnKey 1 3, { wStation with zip := true, engines := [0x1012] })] } }).stn with engines := [(0x1012, wEngine)] } } with stn := { ({ { { w0 with stn := { (w0).stn with queues := [(20, { wQ with placed := some (0, 0), hot := [{ zWaybill with kind := 2, rowPitch := 0 }] }), (21, wQ)] } } with stn := { ({ w0 with stn := { (w0).stn with queues := [(20, { wQ with placed := some (0, 0), hot := [{ zWaybill with kind := 2, rowPitch := 0 }] }), (21, wQ)] } }).stn with stations := [(stnKey 1 3, { wStation with zip := true, engines := [0x1012] })] } } with stn := { ({ { w0 with stn := { (w0).stn with queues := [(20, { wQ with placed := some (0, 0), hot := [{ zWaybill with kind := 2, rowPitch := 0 }] }), (21, wQ)] } } with stn := { ({ w0 with stn := { (w0).stn with queues := [(20, { wQ with placed := some (0, 0), hot := [{ zWaybill with kind := 2, rowPitch := 0 }] }), (21, wQ)] } }).stn with stations := [(stnKey 1 3, { wStation with zip := true, engines := [0x1012] })] } }).stn with engines := [(0x1012, wEngine)] } }).stn with disps := [(0, { zDisp with slots := [(0, stnKey 1 3)], lastSlot := 63 })] } })) (by decide)) (by decide)) (by decide)) (by decide)) (by decide)) (by decide)) (by decide)) (by decide))
  have _ := (((((((((((((h).2.2.1) 0 0 1 3 0 ({ wCT with nIn := 1, zip := false, engines := [0x4000] }) wCMap 0x4000 ({ { { { w0 with stn := { (w0).stn with queues := [(20, { wQ with placed := some (0, 0), hot := [wCMap] }), (21, wQ)] } } with stn := { ({ w0 with stn := { (w0).stn with queues := [(20, { wQ with placed := some (0, 0), hot := [wCMap] }), (21, wQ)] } }).stn with stations := [(stnKey 1 3, { wCT with nIn := 1, zip := false, engines := [0x4000] })] } } with stn := { ({ { w0 with stn := { (w0).stn with queues := [(20, { wQ with placed := some (0, 0), hot := [wCMap] }), (21, wQ)] } } with stn := { ({ w0 with stn := { (w0).stn with queues := [(20, { wQ with placed := some (0, 0), hot := [wCMap] }), (21, wQ)] } }).stn with stations := [(stnKey 1 3, { wCT with nIn := 1, zip := false, engines := [0x4000] })] } }).stn with engines := [(0x4000, wCX)] } } with stn := { ({ { { w0 with stn := { (w0).stn with queues := [(20, { wQ with placed := some (0, 0), hot := [wCMap] }), (21, wQ)] } } with stn := { ({ w0 with stn := { (w0).stn with queues := [(20, { wQ with placed := some (0, 0), hot := [wCMap] }), (21, wQ)] } }).stn with stations := [(stnKey 1 3, { wCT with nIn := 1, zip := false, engines := [0x4000] })] } } with stn := { ({ { w0 with stn := { (w0).stn with queues := [(20, { wQ with placed := some (0, 0), hot := [wCMap] }), (21, wQ)] } } with stn := { ({ w0 with stn := { (w0).stn with queues := [(20, { wQ with placed := some (0, 0), hot := [wCMap] }), (21, wQ)] } }).stn with stations := [(stnKey 1 3, { wCT with nIn := 1, zip := false, engines := [0x4000] })] } }).stn with engines := [(0x4000, wCX)] } }).stn with disps := [(0, { zDisp with slots := [(0, stnKey 1 3)], lastSlot := 63 })] } })) (by decide)) (by decide)) (by decide)) (by decide)) (by decide)) (by decide)) (by decide)) (by decide)) (by decide)) (by decide))
  have _ := ((((h).2.2.2.1) 0 w0) (by decide))
  have _ := (((((((((((((h).2.2.2.2.1) 0x1012 _ _ ({ wStation with engines := [0x1012], starts := [0x1012] }) ({ { w0 with stn := { (w0).stn with stations := [(stnKey 1 3, { wStation with engines := [0x1012], starts := [0x1012] })] } } with stn := { ({ w0 with stn := { (w0).stn with stations := [(stnKey 1 3, { wStation with engines := [0x1012], starts := [0x1012] })] } }).stn with engines := [(0x1012, { wEngine with start := some { wStart with ended := true } })] } })) rfl) rfl) (by decide)) (by decide)) (by decide)) (by decide)) (by decide)) (by decide)) (by first | (intro h; revert h; decide) | (intro _; decide) | (intro _; exact ⟨_, rfl, by decide⟩) | (intro h; exact absurd h (by decide)))) (by decide))
  have _ := (((((((((((((h).2.2.2.2.2.1) 0x1012 _ _ ({ wStation with engines := [0x1012], ordered := true }) ({ { w0 with stn := { (w0).stn with stations := [(stnKey 1 3, { wStation with engines := [0x1012], ordered := true })] } } with stn := { ({ w0 with stn := { (w0).stn with stations := [(stnKey 1 3, { wStation with engines := [0x1012], ordered := true })] } }).stn with engines := [(0x1012, { wEngine with start := some { wStart with ended := true } })] } })) rfl) rfl) (by decide)) (by decide)) (by decide)) (by decide)) (by decide)) (by decide)) (by decide)) (by decide))
  have _ := (((((h).2.2.2.2.2.2.1) 0x1012 wEngine wStart ({ wStation with engines := [0x1012], starts := [0x1012] }) ({ { w0 with stn := { (w0).stn with stations := [(stnKey 1 3, { wStation with engines := [0x1012], starts := [0x1012] })] } } with stn := { ({ w0 with stn := { (w0).stn with stations := [(stnKey 1 3, { wStation with engines := [0x1012], starts := [0x1012] })] } }).stn with engines := [(0x1012, { wEngine with start := some { wStart with ended := true } })] } })) (by decide)) (by decide))
  have _ := (((((h).2.2.2.2.2.2.2.1) 20 ({ zWaybill with kind := 2, rowPitch := 0 }) 0 ({ { w0 with stn := { (w0).stn with queues := [(20, { wQ with placed := some (0, 0) }), (21, wQ)] } } with stn := { ({ w0 with stn := { (w0).stn with queues := [(20, { wQ with placed := some (0, 0) }), (21, wQ)] } }).stn with held := [Holder.enqueue 20 ({ zWaybill with kind := 2, rowPitch := 0 }) 0] } })) (by decide)) (by decide))
  have _ := (((((h).2.2.2.2.2.2.2.2.1) 20 ({ zWaybill with kind := 2, rowPitch := 0 }) 0 ({ { w0 with stn := { (w0).stn with queues := [(20, { wQ with placed := some (0, 0), hot := List.replicate 64 ({ zWaybill with kind := 2, rowPitch := 0 }) }), (21, wQ)] } } with stn := { ({ w0 with stn := { (w0).stn with queues := [(20, { wQ with placed := some (0, 0), hot := List.replicate 64 ({ zWaybill with kind := 2, rowPitch := 0 }) }), (21, wQ)] } }).stn with held := [Holder.enqueue 20 ({ zWaybill with kind := 2, rowPitch := 0 }) 0] } })) (by decide)) (by decide))
  have _ := ((((((((h).2.2.2.2.2.2.2.2.2.1) 0x1012 _ _ ({ wStation with engines := [0x1012], starts := [0x1012] }) ({ { { w0 with stn := { (w0).stn with stations := [(stnKey 1 3, { wStation with engines := [0x1012], starts := [0x1012] })] } } with stn := { ({ w0 with stn := { (w0).stn with stations := [(stnKey 1 3, { wStation with engines := [0x1012], starts := [0x1012] })] } }).stn with engines := [(0x1012, { wEngine with start := some { wStart with ended := true, heldFull := true } })] } } with stn := { ({ { w0 with stn := { (w0).stn with stations := [(stnKey 1 3, { wStation with engines := [0x1012], starts := [0x1012] })] } } with stn := { ({ w0 with stn := { (w0).stn with stations := [(stnKey 1 3, { wStation with engines := [0x1012], starts := [0x1012] })] } }).stn with engines := [(0x1012, { wEngine with start := some { wStart with ended := true, heldFull := true } })] } }).stn with held := [Holder.engine 0x1012] } })) (by decide)) rfl) rfl) (by decide)) (by decide))
  have _ := ((((((((((((((h).2.2.2.2.2.2.2.2.2.2) 1 3 _ _ _ _ _ ({ { w0 with stn := { (w0).stn with stations := [(stnKey 1 3, { wStation with engines := [0x1012], starts := [0x1012], ordered := true })] } } with stn := { ({ w0 with stn := { (w0).stn with stations := [(stnKey 1 3, { wStation with engines := [0x1012], starts := [0x1012], ordered := true })] } }).stn with engines := [(0x1012, { wEngine with start := some { wStart with ended := true, heldOrder := true } })] } })) rfl) rfl) rfl) (by decide)) (by decide)) rfl) (by decide)) (by decide)) (by decide)) (by decide)) (by decide))
  trivial

theorem meets_StewardCommands (h : Obligations.StewardCommands) : True := by
  have _ := (((((((((((((((((((((((h).1) 5 (0x4000000000000000000000000800000140000000000000000000000000000000100010000#512) _ _ _ _ ([]) (wCmdIn ({ wProg with stn := { (wProg).stn with queues := [(20, { wQ with placed := some (0, 0) }), (21, wQ)] } }) 0x15 64 0x4000000000000000000000000800000140000000000000000000000000000000100010000)) ⟨rfl, rfl, by decide⟩) (by decide)) (by decide)) rfl) (by decide)) (by decide)) (by decide)) (by decide)) rfl) (by decide)) (by decide)) (by decide)) (by decide)) (by decide)) (by first | (intro h; revert h; decide) | (intro _; decide) | (intro _; exact ⟨_, rfl, by decide⟩) | (intro h; exact absurd h (by decide)))) (by first | (intro h; revert h; decide) | (intro _; decide) | (intro _; exact ⟨_, rfl, by decide⟩) | (intro h; exact absurd h (by decide)))) rfl) (by first | (intro h; revert h; decide) | (intro _; decide) | (intro _; exact ⟨_, rfl, by decide⟩) | (intro h; exact absurd h (by decide)))) (by first | (intro h; revert h; decide) | (intro _; decide) | (intro _; exact ⟨_, rfl, by decide⟩) | (intro h; exact absurd h (by decide)))) (by decide))
  have _ := (((((((((((h).2.1) 5 (0x0#64) _ _ _ (wCmdIn ({ w0 with svc := { (w0).svc with stewards := [(18, { zSteward with part := 1 })] } }) 0x16 8 0x0)) ⟨rfl, rfl, by decide⟩) (by decide)) rfl) rfl) rfl) (by decide)) (by decide)) (by decide))
  have _ := ((((((h).2.2.1) 18 _ _ ({ w0 with svc := { (w0).svc with stewards := [(18, { zSteward with part := 1, dismissing := some 5 })] } })) rfl) rfl) (by decide))
  have _ := (((((((h).2.2.2.1) 5 (0xffffffff#64) _ (wCmdIn (w0) 0x1a 8 0xffffffff)) ⟨rfl, rfl, by decide⟩) (by decide)).1) (by decide))
  have _ := (((((((h).2.2.2.1) 5 (0x2#64) _ (wCmdIn (w0) 0x1a 8 0x2)) ⟨rfl, rfl, by decide⟩) (by decide)).2) (by decide))
  have _ := (((((((h).2.2.2.2.1) 1 2 7 _ ({ { w0 with svc := { (w0).svc with milestone := [(1, (2, 7))] } } with sys := { ({ w0 with svc := { (w0).svc with milestone := [(1, (2, 7))] } }).sys with timeUs := 1000 } })) (by decide)) (by decide)) rfl) (by decide))
  have _ := ((((((((h).2.2.2.2.2.1) 5 (0x10000004d#64) _ (wCmdIn (w0) 0x1b 8 0x10000004d)) ⟨rfl, rfl, by decide⟩) (by decide)) (by decide)).1) (by decide))
  have _ := (((((((((h).2.2.2.2.2.1) 5 (0x4d#64) _ (wCmdIn (w0) 0x1b 8 0x4d)) ⟨rfl, rfl, by decide⟩) (by decide)) (by decide)).2) (by decide)) (by decide))
  have _ := (((((h).2.2.2.2.2.2) 1 77 _ ({ { w0 with svc := { (w0).svc with cancel := [(1, [(77, 0)])] } } with sys := { ({ w0 with svc := { (w0).svc with cancel := [(1, [(77, 0)])] } }).sys with timeUs := 1000000 } })) rfl) (by decide))
  trivial

theorem meets_VectorArithmetic (h : Obligations.VectorArithmetic) : True := by
  have _ := ((((h).1) 12 (wV ((wX 0x4221908))) (wVE ((wX 0x4221908)) 0x4221908)) (by decide))
  have _ := ((((h).2.1) 12 (wV ((wX 0x8221908))) (wVE ((wX 0x8221908)) 0x8221908)) (by decide))
  have _ := ((((h).2.2.1) 12 (wV ((wX 0xc221908))) (wVE ((wX 0xc221908)) 0xc221908)) (by decide))
  have _ := ((((h).2.2.2.1) 12 (wV ((wX 0x10221908))) (wVE ((wX 0x10221908)) 0x10221908)) (by decide))
  have _ := ((((h).2.2.2.2.1) 12 (wV ((wX 0x14221908))) (wVE ((wX 0x14221908)) 0x14221908)) (by decide))
  have _ := ((((h).2.2.2.2.2.1) 12 (wV ((wX 0x18221908))) (wVE ((wX 0x18221908)) 0x18221908)) (by decide))
  have _ := ((((h).2.2.2.2.2.2.1) 12 (wV ((wX 0x1c221908))) (wVE ((wX 0x1c221908)) 0x1c221908)) (by decide))
  have _ := ((((((h).2.2.2.2.2.2.2) Instr.vVabs 0x08 Num.abs (fun x => (x.natAbs : Int))) (by simp)) 12 (wV ((wX 0x20221908))) (wVE ((wX 0x20221908)) 0x20221908)) (by decide))
  trivial

theorem meets_VectorLogicAndMoves (h : Obligations.VectorLogicAndMoves) : True := by
  have _ := ((((h).1) 12 (wV ((wX 0x28221908))) (wVE ((wX 0x28221908)) 0x28221908)) (by decide))
  have _ := ((((h).2.1) 12 (wV ((wX 0x2c221908))) (wVE ((wX 0x2c221908)) 0x2c221908)) (by decide))
  have _ := ((((h).2.2.1) 12 (wV ((wX 0x30221908))) (wVE ((wX 0x30221908)) 0x30221908)) (by decide))
  have _ := ((((h).2.2.2.1) 12 (wV ((wX 0x34221908))) (wVE ((wX 0x34221908)) 0x34221908)) (by decide))
  have _ := ((((h).2.2.2.2.1) 12 (wV ((wX 0x38221908))) (wVE ((wX 0x38221908)) 0x38221908)) (by decide))
  have _ := ((((h).2.2.2.2.2.1) 12 (wV ((wX 0x3c221888))) (wVE ((wX 0x3c221888)) 0x3c221888)) (by decide))
  have _ := ((((h).2.2.2.2.2.2.1) 12 (wV ((wX 0x48221908))) (wVE ((wX 0x48221908)) 0x48221908)) (by decide))
  have _ := ((((h).2.2.2.2.2.2.2.1) 12 (wV ((wX 0x4c221908))) (wVE ((wX 0x4c221908)) 0x4c221908)) (by decide))
  have _ := ((((h).2.2.2.2.2.2.2.2.1) 12 (wV ((wX 0x50221908))) (wVE ((wX 0x50221908)) 0x50221908)) (by decide))
  have _ := ((((h).2.2.2.2.2.2.2.2.2) 12 (wV ((wX 0x54221908))) (wVE ((wX 0x54221908)) 0x54221908)) (by decide))
  trivial

theorem meets_VectorReductions (h : Obligations.VectorReductions) : True := by
  have _ := ((((h).1) 12 (wV ((wX 0x60221908))) (wVE ((wX 0x60221908)) 0x60221908)) (by decide))
  have _ := (((((((h).2.1) Instr.vVrmax 0x19 true) (by simp)).1) 12 (wV ((wX 0x64221908))) (wVE ((wX 0x64221908)) 0x64221908)) (by decide))
  have _ := ((((((((h).2.1) Instr.vVrmax 0x19 true) (by simp)).2) (wVE (wX 0x2000b) 0x2000b)) (by decide)) wLaneSmall)
  have _ := ((((h).2.2.1) 12 (wV ((wX 0x6c221908))) (wVE ((wX 0x6c221908)) 0x6c221908)) (by decide))
  have _ := ((((h).2.2.2.1) 12 (wV ((wX 0x80221808))) (wVE ((wX 0x80221808)) 0x80221808)) (by decide))
  have _ := ((((h).2.2.2.2.1) 12 (wV ((wX 0x40221808))) (wVE ((wX 0x40221808)) 0x40221808)) (by decide))
  have _ := ((((h).2.2.2.2.2.1) 12 (wV ((wX 0x44211108))) (wVE ((wX 0x44211108)) 0x44211108)) (by decide))
  have _ := ((((h).2.2.2.2.2.2.1) 12 (wV ((wX 0x70221908))) (wVE ((wX 0x70221908)) 0x70221908)) (by decide))
  have _ := ((((h).2.2.2.2.2.2.2.1) 12 (wV ((wX 0x74211908))) (wVE ((wX 0x74211908)) 0x74211908)) (by decide))
  have _ := ((((h).2.2.2.2.2.2.2.2.1) 12 (wV ((wX 0x78444180))) (wVE ((wX 0x78444180)) 0x78444180)) (by decide))
  have _ := ((((h).2.2.2.2.2.2.2.2.2.1) 12 (wV ((wX 0x90000107))) (wVE ((wX 0x90000107)) 0x90000107)) (by decide))
  have _ := (((((((h).2.2.2.2.2.2.2.2.2.2.1) 12 (wV ((wX 0x94221908))) (wVE ((wX 0x94221908)) 0x94221908) ({ k := 2, smallest := false, counter := 7, items := [(5, 1)], isOpen := true, lastPush := 0 }) ([])) (by decide)) (by decide)) (by decide)) (by decide))
  have _ := (((((((h).2.2.2.2.2.2.2.2.2.2.2.1) 12 (wV ({ wX 0x94221908 with sels := [{ k := 2, smallest := false, counter := 0xFFFFFFF0, items := [], isOpen := true, lastPush := 0 }] })) (wVE ({ wX 0x94221908 with sels := [{ k := 2, smallest := false, counter := 0xFFFFFFF0, items := [], isOpen := true, lastPush := 0 }] }) 0x94221908) ({ k := 2, smallest := false, counter := 0xFFFFFFF0, items := [], isOpen := true, lastPush := 0 }) ([])) (by decide)) (by decide)) (by decide)) (by decide))
  have _ := (((((h).2.2.2.2.2.2.2.2.2.2.2.2.1) 12 (wV ({ wX 0x94221908 with sels := [] })) (wVE ({ wX 0x94221908 with sels := [] }) 0x94221908)) (by decide)) (by decide))
  have _ := ((((((h).2.2.2.2.2.2.2.2.2.2.2.2.2.1) 12 (wV ((wX 0x98220000))) (wVE ((wX 0x98220000)) 0x98220000) ({ k := 2, smallest := false, counter := 7, items := [(5, 1)], isOpen := true, lastPush := 0 }) ([])) (by decide)) (by decide)) (by decide))
  have _ := ((((((h).2.2.2.2.2.2.2.2.2.2.2.2.2.2.1) 12 (wV ({ wX 0x98220000 with sels := [] })) (wVE ({ wX 0x98220000 with sels := [] }) 0x98220000)) (by decide)) (by decide)) (by decide))
  have _ := ((((h).2.2.2.2.2.2.2.2.2.2.2.2.2.2.2) 12 (wV ((wX 0xa0221108))) (wVE ((wX 0xa0221108)) 0xa0221108)) (by decide))
  trivial

theorem meets_VectorControl (h : Obligations.VectorControl) : True := by
  have _ := ((((h).1) 12 (wV ((wX 0xe087ffff))) (wVE ((wX 0xe087ffff)) 0xe087ffff)) (by decide))
  have _ := ((((h).2.1) 12 (wV ((wX 0xe5848000))) (wVE ((wX 0xe5848000)) 0xe5848000)) (by decide))
  have _ := ((((h).2.2.1) 12 (wV ((wX 0xe9c00155))) (wVE ((wX 0xe9c00155)) 0xe9c00155)) (by decide))
  have _ := ((((h).2.2.2.1) 12 (wV ((wX 0xf0480010))) (wVE ((wX 0xf0480010)) 0xf0480010)) (by decide))
  have _ := (((((((h).2.2.2.2.1) 12 (wV ((wX 0xf9800000))) (wVE ((wX 0xf9800000)) 0xf9800000)) (by decide)).1) (by decide)) (by decide))
  have _ := (((((((h).2.2.2.2.1) 12 (wV ((wX 0xf9810000))) (wVE ((wX 0xf9810000)) 0xf9810000)) (by decide)).2.1) (by decide)) (by decide))
  have _ := ((((((h).2.2.2.2.1) 12 (wV ((wX 0xf8400001))) (wVE ((wX 0xf8400001)) 0xf8400001)) (by decide)).2.2) (by decide))
  have _ := ((((h).2.2.2.2.2.1) 12 (wV ((wX 0xfc000000))) (wVE ((wX 0xfc000000)) 0xfc000000)) (by decide))
  have _ := ((((h).2.2.2.2.2.2.1) 12 (wV ((wX 0xfc008000))) (wVE ((wX 0xfc008000)) 0xfc008000)) (by decide))
  have _ := ((((h).2.2.2.2.2.2.2) 12 (wV ((wX 0xfc018000))) (wVE ((wX 0xfc018000)) 0xfc018000)) (by decide))
  trivial

theorem meets_VectorMemory (h : Obligations.VectorMemory) : True := by
  have _ := (((((h).1) 12 (wV ((wX 0xc0224000))) (wVE ((wX 0xc0224000)) 0xc0224000) 0x100) (by decide)) (by decide))
  have _ := (((((h).2.1) 12 (wV ((wX 0xc0264800))) (wVE ((wX 0xc0264800)) 0xc0264800) 0 0) (by decide)) (by decide))
  have _ := (((((h).2.2.1) 12 (wV ((wX 0xd08c0000))) (wVE ((wX 0xd08c0000)) 0xd08c0000) 0 0) (by decide)) (by decide))
  have _ := ((((h).2.2.2.1) (wVE (wX 0) 0) (wV (wX 0)) ((wVE (wX 0) 0).issue []) 0 0 64 1 ((fun k => .vreg 1 1 1 k)) 0 0) (by decide))
  have _ := ((((((h).2.2.2.2.1) 12 (wV ((wX 0xc4424800))) (wVE ((wX 0xc4424800)) 0xc4424800) 0x100) (by decide)) (by decide)) (by decide))
  have _ := (((((h).2.2.2.2.2.1) 12 (wV ((wX 0xc4464800))) (wVE ((wX 0xc4464800)) 0xc4464800) 0 0) (by decide)) (by decide))
  have _ := (((((h).2.2.2.2.2.2.1) 12 (wV ((wX 0xd48c0000))) (wVE ((wX 0xd48c0000)) 0xd48c0000) 0 0) (by decide)) (by decide))
  have _ := (((((h).2.2.2.2.2.2.2.1) (wVE (wX 0) 0) (wV (wX 0)) ((wVE (wX 0) 0).issue []) 0 0 ([(0, 7), (3, 9)]) ({}) 0 0 _) (by decide)) rfl)
  have _ := (((((h).2.2.2.2.2.2.2.2.1) 12 (wV ((wX 0xc0244800))) (wVE ((wX 0xc0244800)) 0xc0244800) .align) (by decide)) (by decide))
  have _ := (((((h).2.2.2.2.2.2.2.2.2.1) 12 (wV ((wX 0xc4244800))) (wVE ((wX 0xc4244800)) 0xc4244800) .align) (by decide)) (by decide))
  have _ := (((((h).2.2.2.2.2.2.2.2.2.2.1) 12 (wV ((wX 0xc8250808))) (wVE ((wX 0xc8250808)) 0xc8250808)) (by decide)) (by decide))
  have _ := ((((((h).2.2.2.2.2.2.2.2.2.2.2.1) 12 (wV ((wX 0xcc450808))) (wVE ((wX 0xcc450808)) 0xcc450808)) (by decide)) (by decide)) (by decide))
  have _ := (((((h).2.2.2.2.2.2.2.2.2.2.2.2.1) 12 (wV ((wX 0xd0840000))) (wVE ((wX 0xd0840000)) 0xd0840000) 0x100) (by decide)) (by decide))
  have _ := (((((h).2.2.2.2.2.2.2.2.2.2.2.2.2.1) 12 (wV ((wX 0xd4840000))) (wVE ((wX 0xd4840000)) 0xd4840000) 0x100) (by decide)) (by decide))
  have _ := (((((((h).2.2.2.2.2.2.2.2.2.2.2.2.2.2.1) 12 (wV ({ wX 0xfc850000 with local' := Memory.writeN [] 0x100 64 2 })) (wVE ({ wX 0xfc850000 with local' := Memory.writeN [] 0x100 64 2 }) 0xfc850000) 0x100 ((recordWaybill (Memory.readL (Memory.writeN [] 0x100 64 2) 0x100 64) 0 false).normalise)) (by decide)) (by decide)) (by decide)) (by decide))
  have _ := ((((((h).2.2.2.2.2.2.2.2.2.2.2.2.2.2.2) 12 (wV ({ wX 0xfc850000 with local' := Memory.writeN [] 0x100 64 3 })) (wVE ({ wX 0xfc850000 with local' := Memory.writeN [] 0x100 64 3 }) 0xfc850000) 0x100 .badKind) (by decide)) (by decide)) (by decide))
  trivial

theorem meets_ScalarArithmetic (h : Obligations.ScalarArithmetic) : True := by
  have _ := (((((h).1) 18 (wS ((wY 0x5821800))) (wSE ((wY 0x5821800)) 0x5821800)) (by decide)) (by first | exact trivial | exact ⟨rfl, rfl⟩ | (dsimp only; decide)))
  have _ := (((((h).2.1) 18 (wS ((wY 0x9821800))) (wSE ((wY 0x9821800)) 0x9821800)) (by decide)) (by first | exact trivial | exact ⟨rfl, rfl⟩ | (dsimp only; decide)))
  have _ := (((((h).2.2.1) 18 (wS ((wY 0xd821800))) (wSE ((wY 0xd821800)) 0xd821800)) (by decide)) (by first | exact trivial | exact ⟨rfl, rfl⟩ | (dsimp only; decide)))
  have _ := ((((h).2.2.2.1) 18 (wS ((wY 0x11821800))) (wSE ((wY 0x11821800)) 0x11821800)) (by decide))
  have _ := (((((h).2.2.2.2.1) 18 (wS ((wY 0x2182fff0))) (wSE ((wY 0x2182fff0)) 0x2182fff0)) (by decide)) (by first | exact trivial | exact ⟨rfl, rfl⟩ | (dsimp only; decide)))
  have _ := (((((h).2.2.2.2.2.1) 18 (wS ((wY 0x2582fff0))) (wSE ((wY 0x2582fff0)) 0x2582fff0)) (by decide)) (by first | exact trivial | exact ⟨rfl, rfl⟩ | (dsimp only; decide)))
  have _ := (((((h).2.2.2.2.2.2.1) 18 (wS ((wY 0x2982fff0))) (wSE ((wY 0x2982fff0)) 0x2982fff0)) (by decide)) (by first | exact trivial | exact ⟨rfl, rfl⟩ | (dsimp only; decide)))
  have _ := (((((h).2.2.2.2.2.2.2.1) 18 (wS ((wY 0x2d82fff0))) (wSE ((wY 0x2d82fff0)) 0x2d82fff0)) (by decide)) (by first | exact trivial | exact ⟨rfl, rfl⟩ | (dsimp only; decide)))
  have _ := (((((h).2.2.2.2.2.2.2.2.1) 18 (wS ((wY 0x3182fff0))) (wSE ((wY 0x3182fff0)) 0x3182fff0)) (by decide)) (by first | exact trivial | exact ⟨rfl, rfl⟩ | (dsimp only; decide)))
  have _ := (((((h).2.2.2.2.2.2.2.2.2.1) 18 (wS ((wY 0x3582fff0))) (wSE ((wY 0x3582fff0)) 0x3582fff0)) (by decide)) (by first | exact trivial | exact ⟨rfl, rfl⟩ | (dsimp only; decide)))
  have _ := (((((h).2.2.2.2.2.2.2.2.2.2.1) 18 (wS ((wY 0x39820004))) (wSE ((wY 0x39820004)) 0x39820004)) (by decide)) (by first | exact trivial | exact ⟨rfl, rfl⟩ | (dsimp only; decide)))
  have _ := (((((h).2.2.2.2.2.2.2.2.2.2.2) 18 (wS ((wY 0x3d923456))) (wSE ((wY 0x3d923456)) 0x3d923456)) (by decide)) (by first | exact trivial | exact ⟨rfl, rfl⟩ | (dsimp only; decide)))
  trivial

theorem meets_ScalarMemoryAndControl (h : Obligations.ScalarMemoryAndControl) : True := by
  have _ := ((((((h).1) 0x100) 18 (wS ((wY 0x41810000))) (wSE ((wY 0x41810000)) 0x41810000)) (by decide)) (by first | exact trivial | exact ⟨rfl, rfl⟩ | (dsimp only; decide)))
  have _ := ((((((h).2.1) 0x100) 18 (wS ((wY 0x45810000))) (wSE ((wY 0x45810000)) 0x45810000)) (by decide)) (by first | exact trivial | exact ⟨rfl, rfl⟩ | (dsimp only; decide)))
  have _ := (((((((h).2.2.1) 18 (wS ((wY 0x45840000))) (wSE ((wY 0x45840000)) 0x45840000) 0 0 0) (by decide)) (by decide)) (by decide)) (by decide))
  have _ := ((((((h).2.2.2.1) 18 (wS ((wY 0x48410000))) (wSE ((wY 0x48410000)) 0x48410000) 0x100) (by decide)) (by decide)) (by decide))
  have _ := (((((((h).2.2.2.2.1) 18 (wS ((wY 0x48440000))) (wSE ((wY 0x48440000)) 0x48440000) 0 0 0) (by decide)) (by decide)) (by decide)) (by decide))
  have _ := (((((((h).2.2.2.2.2.1) 18 (wS ((wY 0x4d841800))) (wSE ((wY 0x4d841800)) 0x4d841800) 0 0 0) (by decide)) (by decide)) (by decide)) (by decide))
  have _ := ((((h).2.2.2.2.2.2.1) 18 (wS ((wY 0x60431ffe))) (wSE ((wY 0x60431ffe)) 0x60431ffe)) (by decide))
  have _ := ((((((h).2.2.2.2.2.2.2.1) Instr.sJal 0x19 (fun w => [sRd w]) (fun v => ((v.x.pc : Int) + sImm21 v.w).toNat % 4096)) (by simp)) 18 (wS ((wY 0x65800010))) (wSE ((wY 0x65800010)) 0x65800010)) (by decide))
  have _ := ((((((h).2.2.2.2.2.2.2.2.1) 18 (wT ((wY 0x81870000))) (wTE ((wY 0x81870000)) 0x81870000)) (by decide)) (by decide)) (by decide))
  have _ := ((((((h).2.2.2.2.2.2.2.2.2.1) ({ wQ with placed := some (0, 0), hot := [{ zWaybill with kind := 2 }] })) 18 (wT ((wY 0x85860000))) (wTE ((wY 0x85860000)) 0x85860000)) (by decide)) (by first | exact trivial | exact ⟨rfl, rfl⟩ | (dsimp only; decide)))
  have _ := (((((h).2.2.2.2.2.2.2.2.2.2.1) 18 (wS ((wY 0xa1820000))) (wSE ((wY 0xa1820000)) 0xa1820000)) (by decide)) (by first | exact trivial | exact ⟨rfl, rfl⟩ | (dsimp only; decide)))
  have _ := ((((((h).2.2.2.2.2.2.2.2.2.2.2.1) 18 (wS ((wY 0xa0030c01))) (wSE ((wY 0xa0030c01)) 0xa0030c01)) (by decide)) (by decide)) (by decide))
  have _ := ((((h).2.2.2.2.2.2.2.2.2.2.2.2.1) 18 (wS ((wY 0xbc000000))) (wSE ((wY 0xbc000000)) 0xbc000000)) (by decide))
  have _ := ((((h).2.2.2.2.2.2.2.2.2.2.2.2.2.1) 18 (wS ((wY 0xbc000100))) (wSE ((wY 0xbc000100)) 0xbc000100)) (by decide))
  have _ := (((((((h).2.2.2.2.2.2.2.2.2.2.2.2.2.2.1) 18 (wS ((wY 0xbc000040))) (wSE ((wY 0xbc000040)) 0xbc000040)) (by decide)).1) wYEng wStart) (by decide))
  have _ := ((((((h).2.2.2.2.2.2.2.2.2.2.2.2.2.2.1) 18 (wT ((wY 0xbc000040))) (wTE ((wY 0xbc000040)) 0xbc000040)) (by decide)).2) (by decide))
  have _ := (((((((((((h).2.2.2.2.2.2.2.2.2.2.2.2.2.2.2) Instr.sEmit 2 false) (by simp)) 18 (wS ((wY 0xbd810080))) (wSE ((wY 0xbd810080)) 0xbd810080) 0x100 wYEng wStart ((recordWaybill (Memory.readL (wY 0).local' 0x100 64) 0 false).normalise)) (by decide)) (by decide)) (by decide)) (by decide)).1) (by decide))
  have _ := ((((((((((((h).2.2.2.2.2.2.2.2.2.2.2.2.2.2.2) Instr.sEmit 2 false) (by simp)) 18 (wS ({ wY 0xbd810080 with local' := Memory.writeN [] 0x100 64 3 })) (wSE ({ wY 0xbd810080 with local' := Memory.writeN [] 0x100 64 3 }) 0xbd810080) 0x100 wYEng wStart ((recordWaybill (Memory.readL (Memory.writeN [] 0x100 64 3) 0x100 64) 0 false).normalise)) (by decide)) (by decide)) (by decide)) (by decide)).2) .badKind) (by decide))
  trivial

theorem meets_StewardInstructions (h : Obligations.StewardInstructions) : True := by
  have _ := ((((((h).1) 18 (wT ((wY 0xc1871800))) (wTE ((wY 0xc1871800)) 0xc1871800)) (by decide)) (by decide)) (by decide))
  have _ := (((((((((((h).2.1) 18 (wT ({ wY 0xc5813000 with local' := Memory.writeN [] 0x100 64 3 })) (wTE ({ wY 0xc5813000 with local' := Memory.writeN [] 0x100 64 3 }) 0xc5813000) 0x100 ({ (recordWaybill (Memory.readL (Memory.writeN [] 0x100 64 3) 0x100 64) 0 true) with resetGen := 0 }.normalise)) (by decide)) (by decide)) (by decide)) (by decide)) (by decide)).1) .badKind) (by decide))
  have _ := (((((((((((h).2.1) 18 (wT ((wY 0xc5813000))) (wTE ((wY 0xc5813000)) 0xc5813000) 0x100 ({ (recordWaybill (Memory.readL (wY 0).local' 0x100 64) 0 true) with resetGen := 0 }.normalise)) (by decide)) (by decide)) (by decide)) (by decide)) (by decide)).2.1) (by decide)) (by decide))
  have _ := (((((((((((h).2.1) 18 ({ wT ((wY 0xc5813000)) with stn := { (wT ((wY 0xc5813000))).stn with queues := [(20, { wQ with placed := some (0, 0), hot := List.replicate 64 zWaybill }), (21, wQ)] } }) (wTE ((wY 0xc5813000)) 0xc5813000) 0x100 ({ (recordWaybill (Memory.readL (wY 0).local' 0x100 64) 0 true) with resetGen := 0 }.normalise)) (by decide)) (by decide)) (by decide)) (by decide)) (by decide)).2.2) (by decide)) (by decide))
  have _ := ((((((((((((h).2.2.1) 18 (wT ((wY 0xc9810000))) (wTE ((wY 0xc9810000)) 0xc9810000) 0x100 20 _ _ _) (by decide)) (by decide)) (by decide)) (by decide)) rfl) rfl).1) _) rfl)
  have _ := (((((((((((h).2.2.1) 18 (wT ((wY 0xc9813800))) (wTE ((wY 0xc9813800)) 0xc9813800) 0x100 21 _ _ _) (by decide)) (by decide)) (by decide)) (by decide)) rfl) rfl).2) (by decide))
  have _ := (((((((h).2.2.2.1) 18 (wT ((wY 0xc9814000))) (wTE ((wY 0xc9814000)) 0xc9814000) 0x100) (by decide)) (by decide)) (by decide)) (by decide))
  have _ := ((((((h).2.2.2.2.1) w0 ({ wQ with hot := [{ zWaybill with kind := 2 }] }) ({ zWaybill with kind := 2 }) 0 1) (by decide)) (by decide)) (by decide))
  have _ := ((((h).2.2.2.2.2.1) 18 (wT ((wY 0xcd8303c0))) (wTE ((wY 0xcd8303c0)) 0xcd8303c0)) (by decide))
  have _ := (((((((h).2.2.2.2.2.2.1) 18 (wT { wY 0 with wait := some { rd := 12, mask := 3, deadline := none } }) _ _) rfl) rfl).1) (by decide))
  have _ := ((((((((((h).2.2.2.2.2.2.1) 18 (wT { wY 0 with wait := some { rd := 12, mask := 2, deadline := some 0 } }) _ _) rfl) rfl).2) 0) (by decide)) (by decide)) (by decide))
  have _ := (((((((((h).2.2.2.2.2.2.2.1) 18 (wT ((wY 0xd18b0000))) (wTE ((wY 0xd18b0000)) 0xd18b0000) _) (by decide)) (by decide)) rfl).1) (by decide)) (by decide))
  have _ := ((((((((((h).2.2.2.2.2.2.2.1) 18 ({ wT ((wY 0xd18b0000)) with svc := { (wT ((wY 0xd18b0000))).svc with cancel := [(1, (List.range 256).map (fun i => (i + 1000, 0)))] } }) (wTE ((wY 0xd18b0000)) 0xd18b0000) _) (by decide)) (by decide)) rfl).2.1) (by decide)) (by decide)) (by decide))
  have _ := (((((((((h).2.2.2.2.2.2.2.1) 18 ({ wT ((wY 0xd18b0040)) with svc := { (wT ((wY 0xd18b0040))).svc with cancel := [(1, [(77, 0)])] } }) (wTE ((wY 0xd18b0040)) 0xd18b0040) _) (by decide)) (by decide)) rfl).2.2.1) (by decide)) (by decide))
  have _ := (((((((((h).2.2.2.2.2.2.2.1) 18 (wT ((wY 0xd18b0040))) (wTE ((wY 0xd18b0040)) 0xd18b0040) _) (by decide)) (by decide)) rfl).2.2.2) (by decide)) (by decide))
  have _ := ((((((h).2.2.2.2.2.2.2.2.1) 18 (wT ((wY 0xd5881800))) (wTE ((wY 0xd5881800)) 0xd5881800) wStation) (by decide)) (by decide)) (by decide))
  have _ := ((((((h).2.2.2.2.2.2.2.2.2) 0) 18 (wT ((wY 0xd98a0000))) (wTE ((wY 0xd98a0000)) 0xd98a0000)) (by decide)) (by first | exact trivial | exact ⟨rfl, rfl⟩ | (dsimp only; decide)))
  trivial

theorem meets_MatrixCommands (h : Obligations.MatrixCommands) : True := by
  have _ := (((((h).1) 0 (wM ((wN 0x400000000000000000000000100004001000380001))) (wME ((wN 0x400000000000000000000000100004001000380001)))) (by decide)) (by decide))
  have _ := ((((((h).2.1) 0 (wM ((wN 0x400000000000000000000000100004001038000002))) (wME ((wN 0x400000000000000000000000100004001038000002))) _) (by decide)) (by decide)) rfl)
  have _ := (((((h).2.2.1) 0 (wM ((wN 0x1000000000000000000000000100000000000482007))) (wME ((wN 0x1000000000000000000000000100000000000482007))) 0) (by decide)) (by decide))
  have _ := ((((((((((h).2.2.2.1) 0 (wM ((wN 0x400000000000000000000000100002001000481006))) (wME ((wN 0x400000000000000000000000100002001000481006))) 0 ((sliceKey 0 0x400)) 0 0) (by decide)) (by decide)) (by decide)) (by first | (intro h; revert h; decide) | (intro _; decide) | (intro _; exact ⟨_, rfl, by decide⟩) | (intro h; exact absurd h (by decide)))) (by first | (intro h; revert h; decide) | (intro _; decide) | (intro _; exact ⟨_, rfl, by decide⟩) | (intro h; exact absurd h (by decide)))) (by first | (intro h; revert h; decide) | (intro _; decide) | (intro _; exact ⟨_, rfl, by decide⟩) | (intro h; exact absurd h (by decide)))) (by first | (intro h; revert h; decide) | (intro _; decide) | (intro _; exact ⟨_, rfl, by decide⟩) | (intro h; exact absurd h (by decide))))
  have _ := ((((h).2.2.2.2.1) 0 (wM ((wN 0x1038381003))) (wME ((wN 0x1038381003)))) (by decide))
  have _ := ((((h).2.2.2.2.2.1) 0 (wM ((wN 0xf1f000000000000000000000000000000000000000000000001038381804))) (wME ((wN 0xf1f000000000000000000000000000000000000000000000001038381804)))) (by decide))
  have _ := ((((h).2.2.2.2.2.2.1) ((wN 0)) (mDesc 0x1028281803) ({ el := 0, md := 0, sc := 0 }) 3 7 0 1) (by decide))
  have _ := (((((h).2.2.2.2.2.2.2.1) ((wN 0)) (mDesc 0x38381803) ({ el := 0, md := 0, sc := 0 }) 3 0x7FA00001 0 1) (by decide)) (by decide))
  have _ := ((((h).2.2.2.2.2.2.2.2.1) 0 (wM ((wN 0x1005))) (wME ((wN 0x1005)))) (by decide))
  have _ := ((((((h).2.2.2.2.2.2.2.2.2.1) 0 (wM ((wN 0x500000000000000000000000000000000000000000000000001000008))) (wME ((wN 0x500000000000000000000000000000000000000000000000001000008))) ((emitWaybill { zWaybill with kind := 2, arg := 9 } (wN 0x500000000000000000000000000000000000000000000000001000008).next).normalise)) (by decide)) (by decide)) (by decide))
  have _ := (((((h).2.2.2.2.2.2.2.2.2.2.1) 0 (wM ((wN 0x500000000000000000000000000000000000000000001001000f80008))) (wME ((wN 0x500000000000000000000000000000000000000000001001000f80008))) .badFormat) (by decide)) (by decide))
  have _ := ((((h).2.2.2.2.2.2.2.2.2.2.2.1) 0 (wM ((wN 0x40002000300000009))) (wME ((wN 0x40002000300000009)))) (by decide))
  have _ := ((((h).2.2.2.2.2.2.2.2.2.2.2.2.1) 0 (wM ({ wN 0xa with ops := [{ unit := 1, began := 3, done := 40, first := 0, last := 0, tile := none, half := none, isB := false }] })) (wME ({ wN 0xa with ops := [{ unit := 1, began := 3, done := 40, first := 0, last := 0, tile := none, half := none, isB := false }] }))) (by decide))
  have _ := ((((h).2.2.2.2.2.2.2.2.2.2.2.2.2.1) 0 (wM ((wN 0x0))) (wME ((wN 0x0)))) (by decide))
  have _ := ((((h).2.2.2.2.2.2.2.2.2.2.2.2.2.2.1) ((wN 0))) (by decide))
  have _ := ((((((h).2.2.2.2.2.2.2.2.2.2.2.2.2.2.2) ({ wN 0 with pc := 3, rep := some { first := 2, span := 2, count := 2, pass := 0, addrStep := 0, bStep := 0, accStep := 0 } }) ({ first := 2, span := 2, count := 2, pass := 0, addrStep := 0, bStep := 0, accStep := 0 })) (by decide)) (by decide)) (by decide))
  trivial

theorem meets_SliceAccesses (h : Obligations.SliceAccesses) : True := by
  have _ := (((((((h).1) 0 ({ zClaim with access := 7, block := 0, line := 1, rank := 3, op := .write [(3, 0xAA), (4, 0)] }) 7 ({ zAccess with left := 1 }) ([(3, 0xAA), (4, 0)]) ({ w0 with fab := { w0.fab with claims := [{ zClaim with access := 7, block := 0, line := 1, rank := 3, op := .write [(3, 0xAA), (4, 0)] }], accesses := [(7, { zAccess with left := 1 })], slices := Memory.writeN [] 0x40 64 0x0102030405060708_1112131415161718_2122232425262728 } })) ⟨rfl, rfl, rfl, rfl, rfl⟩) ⟨by decide, rfl, rfl, rfl, rfl, rfl, by decide, by decide, by decide, rfl, rfl⟩) (by decide)) (by decide))
  have _ := (((((((h).2.1) 0 ({ zClaim with access := 7, block := 0, line := 1, rank := 3, op := .atomic 8 0 0x0102 }) 7 ({ zAccess with left := 1 }) 8 0 0x0102 ({ w0 with fab := { w0.fab with claims := [{ zClaim with access := 7, block := 0, line := 1, rank := 3, op := .atomic 8 0 0x0102 }], accesses := [(7, { zAccess with left := 1 })], slices := Memory.writeN [] 0x40 64 0x0102030405060708_1112131415161718_2122232425262728 } })) ⟨rfl, rfl, rfl, rfl, rfl⟩) ⟨by decide, rfl, rfl, rfl, rfl, rfl, by decide, by decide, by decide, rfl, rfl⟩) (by decide)) (by decide))
  have _ := ((((((((((((h).2.2.1) 0 ({ zClaim with access := 7, block := 0, line := 1, rank := 3, op := .read }) 7 ({ zAccess with left := 1, who := .cell 18, dest := .sreg 5 4 false (sliceKey 0 68) }) 18 5 4 ((sliceKey 0 68)) ({ w0 with fab := { w0.fab with claims := [{ zClaim with access := 7, block := 0, line := 1, rank := 3, op := .read }], accesses := [(7, { zAccess with left := 1, who := .cell 18, dest := .sreg 5 4 false (sliceKey 0 68) })], slices := Memory.writeN [] 0x40 64 0x0102030405060708_1112131415161718_2122232425262728 } })) ⟨rfl, rfl, rfl, rfl, rfl⟩) ⟨by decide, rfl, rfl, rfl, rfl, rfl, by decide, by decide, by decide, rfl, rfl⟩) (by decide)) (by decide)) (by decide)) (by decide)) (by decide)) (by decide)) (by decide))
  have _ := (((((((((((((((((((h).2.2.2.1) 0 ({ zClaim with access := 7, block := 0, line := 1, rank := 3, op := .write [(3, 0xAA)] }) ({ zClaim with access := 8, block := 0, line := 1, rank := 5, op := .write [(2, 9), (3, 0xBB)] }) ([(3, 0xAA)]) ([(2, 9), (3, 0xBB)]) ({ w0 with fab := { w0.fab with claims := [{ zClaim with access := 7, block := 0, line := 1, rank := 3, op := .write [(3, 0xAA)] }, { zClaim with access := 8, block := 0, line := 1, rank := 5, op := .write [(2, 9), (3, 0xBB)] }], accesses := [(7, { zAccess with left := 1, who := .cell 18 }), (8, { zAccess with left := 1, who := .cell 12 })], slices := Memory.writeN [] 0x40 64 0x0102030405060708_1112131415161718_2122232425262728 } })) ⟨rfl, rfl, rfl, rfl, rfl⟩) (by decide)) (by decide)) (by decide)) (by decide)) (by decide)) (by decide)) (by decide)) (by decide)) (by decide)) (by decide)) (by decide)) (by decide)) (by decide)) (by decide)) (by decide))
  have _ := ((((((h).2.2.2.2.1) 0 ({ w0 with fab := { w0.fab with blocks := [(0, { bound := some (1, 0), powered := true, wipe := some .reset })], claims := [{ zClaim with access := 7, block := 0, line := 1, rank := 22, op := .read }] } })) ⟨rfl, rfl, rfl, rfl, rfl⟩) (by decide)) (by decide))
  have _ := ((((((((h).2.2.2.2.2) 0 3 2 true ({ w0 with fab := { w0.fab with blocks := [(0, { bound := some (1, 0), powered := true, scrub := [(26, 3071)] })] } })) (by decide)) (by decide)) (by decide)) (by decide)) (by decide))
  trivial

theorem meets_CrierCommands (h : Obligations.CrierCommands) : True := by
  have _ := ((((((((((((((h).1) 1 false 0 16 128 32 3 _ _ 0 ([1]) ({ w0 with stn := { w0.stn with engines := [(0x2001, wXEng)] } })) rfl) (by decide)) (by decide)) (by decide)) (by decide)) (by decide)) (by decide)) (by decide)) (by decide)) (by decide)) (by decide))
  have _ := (((((h).2.1) 1 false 0 16 100 32 3 _ _ ({ w0 with stn := { w0.stn with engines := [(0x2001, wXEng)] } })) rfl) (by decide))
  have _ := ((((h).2.2.1) 0 ({ w0 with fab := { w0.fab with criers := [(0, { cur := some { send := 3, next := 0, stop := 1 } })] } })) (by decide))
  have _ := ((((((((h).2.2.2.1) 0 w0) (by decide)) (by decide)).1) (by decide)) (by decide))
  have _ := (((((((((h).2.2.2.1) 0 ({ w0 with fab := { w0.fab with criers := [(0, { held := [{ send := 3, next := 0, stop := 1 }] })] } })) (by decide)) (by decide)).2.1) ({ send := 3, next := 0, stop := 1 }) ([])) (by decide)) (by decide))
  have _ := (((((((((h).2.2.2.1) 0 ({ w0 with fab := { w0.fab with sends := [{ zCrierSend with id := 3, part := 1, src := some (0, 0x10), bytes := 5000, dstLine := 0x20, targets := [1], sender := 1 }], slices := Memory.writeN [] 0x40 64 0x0102030405060708_1112131415161718_2122232425262728 } })) (by decide)) (by decide)).2.2) ({ zCrierSend with id := 3, part := 1, src := some (0, 0x10), bytes := 5000, dstLine := 0x20, targets := [1], sender := 1 })) (by decide)) (by decide))
  have _ := ((((((((h).2.2.2.2.1) 3 1 ({ zCrierSend with id := 3, part := 1, src := some (0, 0x10), bytes := 5000, dstLine := 0x20, targets := [1, 0], sender := 1, beats := 20, doneIn := [0] }) ({ ({ w0 with stn := { w0.stn with engines := [(0x2001, wXEng)] } }) with fab := { ({ w0 with stn := { w0.stn with engines := [(0x2001, wXEng)] } }).fab with sends := [{ zCrierSend with id := 3, part := 1, src := some (0, 0x10), bytes := 5000, dstLine := 0x20, targets := [1, 0], sender := 1, beats := 20, doneIn := [0] }] } })) (by decide)) (by decide)) (by decide)) (by decide)) (by decide))
  have _ := (((((h).2.2.2.2.2.1) ({ zCrierSend with id := 3, part := 1, src := some (0, 0x10), bytes := 5000, dstLine := 0x20, targets := [1], sender := 1, stopped := some 2 }) 1 w0).1) (by decide))
  have _ := ((((((h).2.2.2.2.2.1) ({ zCrierSend with id := 3, part := 1, src := some (0, 0x10), bytes := 5000, dstLine := 0x20, targets := [1], sender := 1, dead := [1] }) 1 w0).2.1) (by decide)) (by decide))
  have _ := ((((((((h).2.2.2.2.2.1) ({ zCrierSend with id := 3, part := 1, src := some (0, 0x10), bytes := 5000, dstLine := 0x20, targets := [1], sender := 1, stopped := some 4 }) 1 w0).2.2.1) (by decide)) (by decide)) (by decide)) (by decide))
  have _ := (((((((h).2.2.2.2.2.1) ({ zCrierSend with id := 3, part := 1, src := some (0, 0x10), bytes := 5000, dstLine := 0x20, targets := [1], sender := 1 }) 1 w0).2.2.2) (by decide)) (by decide)) (by decide))
  have _ := ((((((h).2.2.2.2.2.2.1) 3 1 none ({ zCrierSend with id := 3, part := 1, src := some (0, 0x10), bytes := 5000, dstLine := 0x20, targets := [1, 0], sender := 1 }) ({ ({ w0 with stn := { w0.stn with engines := [(0x2001, wXEng)] } }) with fab := { ({ w0 with stn := { w0.stn with engines := [(0x2001, wXEng)] } }).fab with sends := [{ zCrierSend with id := 3, part := 1, src := some (0, 0x10), bytes := 5000, dstLine := 0x20, targets := [1, 0], sender := 1 }] } })) (by decide)).1) (by decide))
  have _ := (((((((h).2.2.2.2.2.2.1) 3 1 none ({ zCrierSend with id := 3, part := 1, src := some (0, 0x10), bytes := 5000, dstLine := 0x20, targets := [1], sender := 1 }) ({ ({ w0 with stn := { w0.stn with engines := [(0x2001, wXEng)] } }) with fab := { ({ w0 with stn := { w0.stn with engines := [(0x2001, wXEng)] } }).fab with sends := [{ zCrierSend with id := 3, part := 1, src := some (0, 0x10), bytes := 5000, dstLine := 0x20, targets := [1], sender := 1 }] } })) (by decide)).2) (by decide)) (by decide))
  have _ := (((((h).2.2.2.2.2.2.2.1) 4 4 ({ (w0) with spine := { (w0).spine with flits := [{ id := 4, load := .mark 3 1 none, vc := .request, cls := 1, way := [{ node := 0, inp := 0, out := 4 }], inside := true, ready := 0, born := 0 }], fails := [(4, 4, 7)] } })) (by decide)) (by decide))
  have _ := (((((((h).2.2.2.2.2.2.2.2.1) 4 4 ({ (w0) with spine := { (w0).spine with flits := [{ id := 4, load := .mark 3 1 none, vc := .request, cls := 1, way := [{ node := 0, inp := 0, out := 4 }], inside := true, ready := 0, born := 0 }], fails := [(4, 4, 8)] } })) (by decide)) (by decide)) (by decide)) (by decide))
  have _ := (((((((((((h).2.2.2.2.2.2.2.2.2.1) 5 (0x800200000001000000202#1024) _ (wCmdIn (w0) 0x17 128 0x800200000001000000202)) ⟨rfl, rfl, by decide⟩) (by decide)) (by decide)) (by decide)) (by intro i h1 h2; revert h1; revert i; decide)) (by decide)) (by decide)).1)
  have _ := (((((((((((((h).2.2.2.2.2.2.2.2.2.1) 5 (0x800200000001000000202#1024) _ (wCmdIn (w0) 0x17 128 0x800200000001000000202)) ⟨rfl, rfl, by decide⟩) (by decide)) (by decide)) (by decide)) (by intro i h1 h2; revert h1; revert i; decide)) (by decide)) (by decide)).2) ((0, 0x10))) (by decide))
  have _ := ((((((((h).2.2.2.2.2.2.2.2.2.2.1) 5 (0x2#64) _ ({ zCaravan with part := 1, members := [(0, 0x10), (1, 0x20)], headroom := 0x1000 }) (wCmdIn ({ w0 with fab := { w0.fab with caravans := [((cvKey 1 2), { zCaravan with part := 1, members := [(0, 0x10), (1, 0x20)], headroom := 0x1000 })] } }) 0x18 8 0x2)) ⟨rfl, rfl, by decide⟩) (by decide)) (by decide)).1) (by decide))
  have _ := ((((((((h).2.2.2.2.2.2.2.2.2.2.1) 5 (0x2#64) _ ({ { zCaravan with part := 1, members := [(0, 0x10), (1, 0x20)], headroom := 0x1000 } with inFlight := 1 }) (wCmdIn ({ w0 with fab := { w0.fab with caravans := [((cvKey 1 2), { { zCaravan with part := 1, members := [(0, 0x10), (1, 0x20)], headroom := 0x1000 } with inFlight := 1 })] } }) 0x18 8 0x2)) ⟨rfl, rfl, by decide⟩) (by decide)) (by decide)).2) (by decide))
  have _ := (((((((h).2.2.2.2.2.2.2.2.2.2.2) 1 2 0x1000 0 0 64 _ _ ({ zCaravan with part := 1, members := [(0, 0x10), (1, 0x20)], headroom := 0x1000 }) ({ ({ w0 with stn := { w0.stn with engines := [(0x2001, wXEng)] } }) with fab := { ({ w0 with stn := { w0.stn with engines := [(0x2001, wXEng)] } }).fab with caravans := [((cvKey 1 2), { zCaravan with part := 1, members := [(0, 0x10), (1, 0x20)], headroom := 0x1000 })] } })) rfl) (by decide)).1) (by decide))
  have _ := (((((((((((((h).2.2.2.2.2.2.2.2.2.2.2) 1 2 64 0 16 100 _ _ ({ zCaravan with part := 1, members := [(0, 0x10), (1, 0x20)], headroom := 0x1000 }) ({ ({ w0 with stn := { w0.stn with engines := [(0x2001, wXEng)] } }) with fab := { ({ w0 with stn := { w0.stn with engines := [(0x2001, wXEng)] } }).fab with caravans := [((cvKey 1 2), { zCaravan with part := 1, members := [(0, 0x10), (1, 0x20)], headroom := 0x1000 })] } })) rfl) (by decide)).2) 0) (by decide)) (by decide)) (by decide)) (by decide)) (by decide)) (by decide))
  trivial

theorem meets_TranslationCommands (h : Obligations.TranslationCommands) : True := by
  have _ := ((((((((((((h).1) 5 (0x200000000000010000000000500000000#256) _ (wCmdIn (w0) 0x19 32 0x200000000000010000000000500000000)) ⟨rfl, rfl, by decide⟩) (by decide)) (by decide)) (by decide)) (by decide)) (by decide)) (by first | (intro h; revert h; decide) | (intro _; decide) | (intro _; exact ⟨_, rfl, by decide⟩) | (intro h; exact absurd h (by decide)))) (by first | (intro h; revert h; decide) | (intro _; decide) | (intro _; exact ⟨_, rfl, by decide⟩) | (intro h; exact absurd h (by decide)))) (by decide))
  have _ := ((((((((((((h).2.1) 5 (0x200000000000010000000000500000000#256) _ (wCmdIn ({ (w0) with xlt := { (w0).xlt with syncs := List.replicate 16 ({ zSync with id := 4, part := 1, context := 0, all := false, gen := 3, base := 0x1000, pages := 2, ring := some 5, sent := false, waiting := [] }) } }) 0x19 32 0x200000000000010000000000500000000)) ⟨rfl, rfl, by decide⟩) (by decide)) (by decide)) (by decide)) (by decide)) (by decide)) (by first | (intro h; revert h; decide) | (intro _; decide) | (intro _; exact ⟨_, rfl, by decide⟩) | (intro h; exact absurd h (by decide)))) (by first | (intro h; revert h; decide) | (intro _; decide) | (intro _; exact ⟨_, rfl, by decide⟩) | (intro h; exact absurd h (by decide)))) (by decide))
  have _ := ((((((h).2.2.1) 1 ({ zSync with id := 4, part := 1, context := 0, all := false, gen := 3, base := 0x1000, pages := 2, ring := some 5, sent := false, waiting := [] }) ({ (w0) with xlt := { (w0).xlt with syncs := [{ zSync with id := 4, part := 1, context := 0, all := false, gen := 3, base := 0x1000, pages := 2, ring := some 5, sent := false, waiting := [] }] } })) (by decide)) (by decide)) (by decide))
  have _ := ((((h).2.2.2.1) 0 ({ zSync with id := 4, part := 1, context := 0, all := false, gen := 3, base := 0x1000, pages := 2, ring := some 5, sent := true, waiting := [0, 1] }) ({ (w0) with xlt := { (w0).xlt with syncs := [{ zSync with id := 4, part := 1, context := 0, all := false, gen := 3, base := 0x1000, pages := 2, ring := some 5, sent := true, waiting := [0, 1] }], btus := [(0, { freshBtu with sets := (Tab.put [] 1 [(0, { zTlbEntry with part := 1, vpage := 1 }), (1, { zTlbEntry with part := 1, vpage := 257 })]) })] } })) (by decide))
  have _ := (((((h).2.2.2.2.1) 0 ((4, 0)) ([]) ({ (w0) with xlt := { (w0).xlt with syncs := [{ zSync with id := 4, part := 1, context := 0, all := false, gen := 3, base := 0x1000, pages := 2, ring := some 5, sent := true, waiting := [0, 1] }], btus := [(0, { freshBtu with scanning := [(4, 0)] })] } })) (by decide)) (by decide))
  have _ := (((((h).2.2.2.2.2.1) 0 ((4, 9)) ([]) ({ ({ (w0) with xlt := { (w0).xlt with syncs := [{ zSync with id := 4, part := 1, context := 0, all := false, gen := 3, base := 0x1000, pages := 2, ring := some 5, sent := true, waiting := [0, 1] }], btus := [(0, { freshBtu with scanning := [(4, 9)] })] } }) with dram := { ({ (w0) with xlt := { (w0).xlt with syncs := [{ zSync with id := 4, part := 1, context := 0, all := false, gen := 3, base := 0x1000, pages := 2, ring := some 5, sent := true, waiting := [0, 1] }], btus := [(0, { freshBtu with scanning := [(4, 9)] })] } }).dram with txns := [(3, .engine 0x2000)] } })) (by decide)) (by decide))
  have _ := ((((((((h).2.2.2.2.2.2.1) 1 ({ zSync with id := 4, part := 1, context := 0, all := false, gen := 3, base := 0x1000, pages := 2, ring := some 5, sent := true, waiting := [] }) ([]) _ _ ({ (wCmd 1 8 0) with xlt := { (wCmd 1 8 0).xlt with syncs := [{ zSync with id := 4, part := 1, context := 0, all := false, gen := 3, base := 0x1000, pages := 2, ring := some 5, sent := true, waiting := [] }] } })) (by decide)) rfl) (by decide)) (by decide)) rfl)
  have _ := (((((((((h).2.2.2.2.2.2.2.1) 0 1 0x2001 false ([0x8123000]) ((wCarS.withStream 0 1 0x2001 false [0x8123000])) ({ engine := 0x2001, part := 1, context := 0, look := [0x8123000], write := false }) 0x8123000 ([]) wCarS) (by decide)) (by decide)) (by decide)) (by decide)) (by decide)) (by decide))
  have _ := ((((((((((h).2.2.2.2.2.2.2.2.1) 0 1 0x2001 false ([0x8123000]) ((wCarS.withStream 0 1 0x2001 false [0x8123000])) ({ engine := 0x2001, part := 1, context := 0, look := [0x8123000], write := false }) 0x8123000 wCarS) (by decide)) (by decide)) (by decide)) (by decide)) (by decide)) (by decide)) (by decide))
  have _ := (((((((h).2.2.2.2.2.2.2.2.2.1) 0 2 ({ zWalk with part := 1, context := 0, va := 0x8123000, level := 3, table := 0x1000, ready := true, data := bytesOf 64 0x1001 }) 0x1001 ({ (wCarS) with xlt := { (wCarS).xlt with btus := [(0, { freshBtu with walks := [(2, { zWalk with part := 1, context := 0, va := 0x8123000, level := 3, table := 0x1000, ready := true, data := bytesOf 64 0x1001 })] })] } })) (by decide)) (by decide)) (by decide)) (by decide))
  have _ := (((((((h).2.2.2.2.2.2.2.2.2.2.1) 0 2 ({ zWalk with part := 1, context := 0, va := 0x0, level := 0, table := 0x1000, ready := true, data := bytesOf 64 0x1001 }) ({ (wCarS) with xlt := { (wCarS).xlt with btus := [(0, { freshBtu with walks := [(2, { zWalk with part := 1, context := 0, va := 0x0, level := 0, table := 0x1000, ready := true, data := bytesOf 64 0x1001 })] })] } })) (by decide)) (by decide)) (by decide)) (by decide))
  have _ := (((((((h).2.2.2.2.2.2.2.2.2.2.2) 0 2 ({ { zWalk with part := 1, context := 0, va := 0x8123000, level := 0, table := 0x1000, ready := true, data := bytesOf 64 0x1001 } with table := 0xFF000000000, prefetch := false }) _ ({ (wCarS) with xlt := { (wCarS).xlt with btus := [(0, { freshBtu with walks := [(2, { { zWalk with part := 1, context := 0, va := 0x8123000, level := 0, table := 0x1000, ready := true, data := bytesOf 64 0x1001 } with table := 0xFF000000000, prefetch := false })] })] } })) (by decide)) (by decide)) (by decide)) rfl)
  trivial

theorem meets_WindowCommands (h : Obligations.WindowCommands) : True := by
  have _ := (((((((((h).1) 5 (0x200000000000010000000000301e0ffff0000000000000007#320) _ (wCmdIn ({ (w0) with xlt := { (w0).xlt with keys := [(3, 0x1234)] } }) 0x1c 40 0x200000000000010000000000301e0ffff0000000000000007)) ⟨rfl, rfl, by decide⟩) (by decide)) (by decide)) (by decide)).1) (by decide))
  have _ := (((((((((((h).1) 5 (0x200000000000010000000000301e0ffff0000000000000007#320) _ (wCmdIn ({ (w0) with xlt := { (w0).xlt with keys := [(3, 0x1234)], windows := [(7, (openWindow (winDefOf 0x200000000000010000000000301e0ffff0000000000000007)))] } }) 0x1c 40 0x200000000000010000000000301e0ffff0000000000000007)) ⟨rfl, rfl, by decide⟩) (by decide)) (by decide)) (by decide)).2) ((openWindow (winDefOf 0x200000000000010000000000301e0ffff0000000000000007)))) (by decide)) (by decide))
  have _ := (((((((((h).2.1) 5 (0x7#64) _ ((openWindow (winDefOf 0x200000000000010000000000301e0ffff0000000000000007))) (wCmdIn ({ (w0) with xlt := { (w0).xlt with windows := [(7, (openWindow (winDefOf 0x200000000000010000000000301e0ffff0000000000000007)))] } }) 0x1d 8 0x7)) ⟨rfl, rfl, by decide⟩) (by decide)) (by decide)) (by decide)) rfl) (by decide))
  have _ := (((((((h).2.2.1) (wMsg 0) (0x200000000000010000000000301e0ffff0000000000000007#320) ({ (w0) with xlt := { (w0).xlt with keys := [(3, 0x1234)] } })) ⟨rfl, rfl, notEvac (y := wPart) rfl rfl⟩) (by decide)) (by decide)) (by decide))
  have _ := (((((((h).2.2.2.1) (wMsg 0) (7#64) ((openWindow (winDefOf 0x200000000000010000000000301e0ffff0000000000000007))) ({ (w0) with xlt := { (w0).xlt with windows := [(7, (openWindow (winDefOf 0x200000000000010000000000301e0ffff0000000000000007)))] } })) ⟨rfl, rfl, noPart rfl⟩) (by decide)) (by decide)) (by decide))
  have _ := ((((((((((h).2.2.2.2.1) 7 ({ (openWindow (winDefOf 0x200000000000010000000000301e0ffff0000000000000007)) with valid := false, waits := [{ ring := some 5, ref := none, repl := none }, { ring := some 5, ref := none, repl := none }] }) ({ ring := some 5, ref := none, repl := none }) ([{ ring := some 5, ref := none, repl := none }]) 5 ({ (wCmd 1 8 0) with xlt := { (wCmd 1 8 0).xlt with windows := [(7, { (openWindow (winDefOf 0x200000000000010000000000301e0ffff0000000000000007)) with valid := false, waits := [{ ring := some 5, ref := none, repl := none }, { ring := some 5, ref := none, repl := none }] })] } })) (by decide)) (by decide)) (by decide)) (by decide)) (by decide)).1) (by decide))
  have _ := (((((((((((h).2.2.2.2.1) 7 ({ (openWindow (winDefOf 0x200000000000010000000000301e0ffff0000000000000007)) with valid := false, waits := [{ ring := some 5, ref := none, repl := none }] }) ({ ring := some 5, ref := none, repl := none }) ([]) 5 ({ (wCmd 1 8 0) with xlt := { (wCmd 1 8 0).xlt with windows := [(7, { (openWindow (winDefOf 0x200000000000010000000000301e0ffff0000000000000007)) with valid := false, waits := [{ ring := some 5, ref := none, repl := none }] })] } })) (by decide)) (by decide)) (by decide)) (by decide)) (by decide)).2.1) (by decide)) (by decide))
  have _ := ((((((((((((h).2.2.2.2.1) 7 ({ (openWindow (winDefOf 0x200000000000010000000000301e0ffff0000000000000007)) with valid := false, waits := [{ ring := some 5, ref := none, repl := some (winDefOf 0) }] }) ({ ring := some 5, ref := none, repl := some (winDefOf 0) }) ([]) 5 ({ (wCmd 1 8 0) with xlt := { (wCmd 1 8 0).xlt with windows := [(7, { (openWindow (winDefOf 0x200000000000010000000000301e0ffff0000000000000007)) with valid := false, waits := [{ ring := some 5, ref := none, repl := some (winDefOf 0) }] })] } })) (by decide)) (by decide)) (by decide)) (by decide)) (by decide)).2.2) (winDefOf 0)) (by decide)) (by decide))
  have _ := ((((((h).2.2.2.2.2.1) 7 ({ (openWindow (winDefOf 0x200000000000010000000000301e0ffff0000000000000007)) with valid := false, waits := [{ ring := none, ref := some (wMsg 0), repl := none }] }) (wMsg 0) ({ (wCmd 1 8 0) with xlt := { (wCmd 1 8 0).xlt with windows := [(7, { (openWindow (winDefOf 0x200000000000010000000000301e0ffff0000000000000007)) with valid := false, waits := [{ ring := none, ref := some (wMsg 0), repl := none }] })] } })) (by decide)) (by decide)) (by decide))
  have _ := (((((h).2.2.2.2.2.2.1) 7 ({ (openWindow (winDefOf 0x200000000000010000000000301e0ffff0000000000000007)) with valid := false, waits := [{ ring := some 5, ref := none, repl := none }], inFlight := 2 }) ({ (wCmd 1 8 0) with xlt := { (wCmd 1 8 0).xlt with windows := [(7, { (openWindow (winDefOf 0x200000000000010000000000301e0ffff0000000000000007)) with valid := false, waits := [{ ring := some 5, ref := none, repl := none }], inFlight := 2 })] } })) (by decide)) (by decide))
  have _ := ((((((((((h).2.2.2.2.2.2.2.1) (wMsg 0) (0x5500000002801200090000000000000401#192) ({ wPart with portShare := [(0, 100)] }) ({ w0 with part := { (w0).part with parts := [(1, { wPart with portShare := [(0, 100)] })] } })) ⟨rfl, rfl, notEvac (y := { wPart with portShare := [(0, 100)] }) rfl rfl⟩) (by decide)) (by decide)) (by decide)) (by decide)) (by first | (intro h; revert h; decide) | (intro _; decide) | (intro _; exact ⟨_, rfl, by decide⟩) | (intro h; exact absurd h (by decide)))) (by first | (intro h; revert h; decide) | (intro _; decide) | (intro _; exact ⟨_, rfl, by decide⟩) | (intro h; exact absurd h (by decide))))
  have _ := (((((h).2.2.2.2.2.2.2.2) (wMsg 0) (0x550000000000000003#128) w0) ⟨rfl, rfl, noPart rfl⟩) (by decide))
  trivial

theorem meets_MemoryFrames (h : Obligations.MemoryFrames) : True := by
  have _ := ((((((((((h).1) 0 0 ({ zMemReq with id := 4, line := 0x0, seq := 4 }) ({ (w0) with dram := { (w0).dram with ctrls := [(0, { freshCtrl with queue := [{ zMemReq with id := 4, line := 0x0, seq := 4 }] })] } }) _) (by decide)) (by decide)) (by decide)) (by decide)) rfl) (by decide)) (by decide))
  have _ := ((((((((((h).2.1) 0 0 w0 _) (by decide)) (by decide)) (by decide)) (by decide)) rfl) (by decide)) (by decide))
  have _ := ((((((h).2.2.1) 0 0 ({ zMemReq with id := 4, line := 0x0, seq := 4, replay := some 0 }) 0 ({ (w0) with dram := { (w0).dram with ctrls := [(0, { freshCtrl with frame := 1, queue := [{ zMemReq with id := 4, line := 0x0, seq := 4, replay := some 0 }] })] } })) (by decide)).1) (by decide))
  have _ := (((((h).2.2.1) 0 0 ({ zMemReq with id := 4, line := 0x0, seq := 4, replay := some 0 }) 0 ({ (w0) with dram := { (w0).dram with ctrls := [(0, { freshCtrl with frame := 1, queue := [{ zMemReq with id := 4, line := 0x0, seq := 4, replay := some 0 }] })] } })) (by decide)).2.1)
  have _ := (((((h).2.2.1) 0 0 ({ zMemReq with id := 4, line := 0x0, seq := 4, replay := some 0 }) 0 ({ (w0) with dram := { (w0).dram with ctrls := [(0, { freshCtrl with frame := 1, queue := [{ zMemReq with id := 4, line := 0x0, seq := 4, replay := some 0 }] })] } })) (by decide)).2.2.1)
  have _ := (((((h).2.2.1) 0 0 ({ zMemReq with id := 4, line := 0x0, seq := 4, replay := some 0 }) 0 ({ (w0) with dram := { (w0).dram with ctrls := [(0, { freshCtrl with frame := 1, queue := [{ zMemReq with id := 4, line := 0x0, seq := 4, replay := some 0 }] })] } })) (by decide)).2.2.2)
  have _ := ((((((((((h).2.2.2.1) 0 0 ({ zMemReq with id := 4, line := 0x0, seq := 4, write := true, data := List.replicate 64 0x5A }) ({ (w0) with dram := { (w0).dram with ctrls := [(0, { freshCtrl with sub0 := { zSubChan with busy := some { zMemReq with id := 4, line := 0x0, seq := 4, write := true, data := List.replicate 64 0x5A } } })] } })) (by decide)) (by decide)) (.inl rfl)) (by decide)) (by decide)) 3) (by decide))
  have _ := ((((((((((((h).2.2.2.2.1) 0 1 ({ (w0) with dram := { (w0).dram with ctrls := [(0, { freshCtrl with sub0 := { zSubChan with slot := 34 }, sub1 := { zSubChan with slot := 34 }, frame := 1 })] } }) _) (by decide)) (by decide)) (by decide)) (by decide)) rfl) (by decide)) (by decide)) (by first | (intro h; revert h; decide) | (intro _; decide) | (intro _; exact ⟨_, rfl, by decide⟩) | (intro h; exact absurd h (by decide)))) (by decide))
  have _ := ((((((((h).2.2.2.2.2.2.1) 0 ({ (w0) with dram := { (w0).dram with ctrls := [(0, { freshCtrl with sub0 := { zSubChan with slot := 34 }, sub1 := { zSubChan with slot := 34 }, frame := 4 })] } })) (by decide)) (by decide)) (by decide)) (by decide)) (by decide))
  have _ := ((((h).2.2.2.2.2.2.2.1) 0 true w0) (by decide))
  have _ := (((((((h).2.2.2.2.2.2.2.2.2.1) 0 ({ req := { zMemReq with id := 4, line := 0x0, who := .walk 0 2 }, data := List.replicate 64 0x5A, entry := true }) ([]) ({ (w0) with dram := { (w0).dram with ctrls := [(0, { freshCtrl with reads := [{ req := { zMemReq with id := 4, line := 0x0, who := .walk 0 2 }, data := List.replicate 64 0x5A, entry := true }] })] } }) 0 2) (by decide)) (by decide)) (by decide)) (by decide))
  have _ := ((((((((h).2.2.2.2.2.2.2.2.2.2.1) 0 ({ req := { zMemReq with id := 4, line := 0x0, who := .walk 0 2 }, data := List.replicate 64 0x5A, entry := false }) ([]) ({ (w0) with dram := { (w0).dram with ctrls := [(0, { freshCtrl with reads := [{ req := { zMemReq with id := 4, line := 0x0, who := .walk 0 2 }, data := List.replicate 64 0x5A, entry := false }] })] } }) 0 2) (by decide)) (by decide)) (by decide)) (by decide)) (by decide))
  have _ := ((((((((((((((((h).2.2.2.2.2.2.2.2.2.2.2) 0 ({ req := { zMemReq with id := 4, line := 0x10000000, seq := 4, write := true, lo := 3, partial' := true, data := [1, 2] }, data := List.replicate 64 0x5A, entry := true }) ([]) ({ (w0) with dram := { (w0).dram with ctrls := [(0, { freshCtrl with reads := [{ req := { zMemReq with id := 4, line := 0x10000000, seq := 4, write := true, lo := 3, partial' := true, data := [1, 2] }, data := List.replicate 64 0x5A, entry := true }] })] } })) (by decide)) (by decide)) (by decide)) (by decide)) (by decide)) (by decide)) (by decide)) (by decide)) (by decide)) (by decide)) (by decide)) (by decide)) (by decide))
  trivial

theorem meets_MemoryErrorsAndKeys (h : Obligations.MemoryErrorsAndKeys) : True := by
  have _ := (((((((((((h).1) 0 0 _ ({ (w0) with dram := { (w0).dram with ctrls := [(0, { freshCtrl with sub0 := { zSubChan with slot := 34 } })] } })) (by decide)) (by decide)) (by decide)) (by decide)) (by decide)) (by decide)) rfl).1)
  have _ := ((((((((((((((h).1) 0 0 _ ({ (w0) with dram := { (w0).dram with ctrls := [(0, { freshCtrl with sub0 := { zSubChan with slot := 34 } })] } })) (by decide)) (by decide)) (by decide)) (by decide)) (by decide)) (by decide)) rfl).2.1) ([(3, 1)])) (by decide)) (by decide))
  have _ := ((((((((((((((h).1) 0 0 _ ({ (w0) with dram := { (w0).dram with ctrls := [(0, { freshCtrl with sub0 := { zSubChan with slot := 34 } })] } })) (by decide)) (by decide)) (by decide)) (by decide)) (by decide)) (by decide)) rfl).2.2) ([(3, 5), (5, 5)])) (by decide)) (by decide))
  have _ := (((((((h).2.1) 0 0 3 2 w0) (by decide)) (by decide)) (by decide)) (by decide))
  have _ := (((((((h).2.2.1) 0 ({ req := { zMemReq with id := 4, line := 0x0, seq := 4 }, data := List.replicate 64 0x5A, entry := false }) ({ (w0) with dram := { (w0).dram with ctrls := [(0, { freshCtrl with reads := [{ req := { zMemReq with id := 4, line := 0x0, seq := 4 }, data := List.replicate 64 0x5A, entry := false }] })] } })) (by decide)) (by decide)) (by decide)) (by decide))
  have _ := ((((((h).2.2.2.1) 0 ({ zMemReq with id := 4, line := 0x0, seq := 4, write := true, data := List.replicate 64 0x5A }) ({ (w0) with dram := { (w0).dram with ctrls := [(0, { freshCtrl with sub0 := { zSubChan with busy := some { zMemReq with id := 4, line := 0x0, seq := 4, write := true, data := List.replicate 64 0x5A } } })] } })) (by decide)) (by decide)) (by decide))
  have _ := (((((((h).2.2.2.2.1) 3 w0) (by decide)) (by decide)) (by decide)) (by decide))
  have _ := (((((h).2.2.2.2.2.1) 0 ({ zMemReq with id := 4, line := 0x10000000, who := .walk 0 2 }) 0 2 w0) (by decide)) (by decide))
  have _ := ((((((h).2.2.2.2.2.2.1) 3 ({ req := { zMemReq with id := 4, line := 0x0, who := .walk 0 2 }, left := 1 }) 0 2 ({ (w0) with dram := { (w0).dram with rebuilds := [(3, { req := { zMemReq with id := 4, line := 0x0, who := .walk 0 2 }, left := 1 })] } })) (by decide)) (by decide)) (by decide))
  have _ := ((((h).2.2.2.2.2.2.2.1) 0 ({ zRowEntry with id := 2, region := 0, stripe := 0, k := 1, staged := (List.range 7).map (fun i => (i + 1, List.replicate 64 9)) }) ({ (w0) with dram := { (w0).dram with rows := [{ zRowEntry with id := 2, region := 0, stripe := 0, k := 1, staged := (List.range 7).map (fun i => (i + 1, List.replicate 64 9)) }] } })) (by decide))
  have _ := ((((((((h).2.2.2.2.2.2.2.2.2.1) 3 ({ zRowEntry with id := 2, region := 0, stripe := 0, k := 1, staged := (List.range 7).map (fun i => (i + 1, List.replicate 64 9)), flushing := true, asks := [3] }) w0) (by decide)) (by decide)).1) (by decide)) (by decide))
  have _ := ((((((((((h).2.2.2.2.2.2.2.2.2.1) 3 ({ zRowEntry with id := 2, region := 0, stripe := 0, k := 1, staged := (List.range 7).map (fun i => (i + 1, List.replicate 64 9)), flushing := true, writing := true, todo := [3] }) w0) (by decide)) (by decide)).2) (by decide)) (by decide)) (by decide)) (by decide))
  have _ := ((((((h).2.2.2.2.2.2.2.2.2.2.1) 0 ({ zRowEntry with id := 2, region := 0, stripe := 0, k := 1, staged := (List.range 7).map (fun i => (i + 1, List.replicate 64 9)), flushing := true, writing := true }) ([]) ({ (w0) with dram := { (w0).dram with rows := [{ zRowEntry with id := 2, region := 0, stripe := 0, k := 1, staged := (List.range 7).map (fun i => (i + 1, List.replicate 64 9)), flushing := true, writing := true }] } })) (by decide)).1) (by decide))
  have _ := ((((((((h).2.2.2.2.2.2.2.2.2.2.1) 0 ({ zRowEntry with id := 2, region := 0, stripe := 0, k := 1, staged := (List.range 7).map (fun i => (i + 1, List.replicate 64 9)), flushing := true, writing := true }) ([]) ({ (w0) with dram := { (w0).dram with rows := [{ zRowEntry with id := 2, region := 0, stripe := 0, k := 1, staged := (List.range 7).map (fun i => (i + 1, List.replicate 64 9)), flushing := true, writing := true }], rowWait := [{ zMemReq with id := 4, line := 0x0, seq := 4, write := true, data := List.replicate 64 0x5A }] } })) (by decide)).2) ({ zMemReq with id := 4, line := 0x0, seq := 4, write := true, data := List.replicate 64 0x5A })) (by decide)) (by decide))
  have _ := (((((h).2.2.2.2.2.2.2.2.2.2.2.1) 1 ({ wPart with initialising := true }) ({ w0 with part := { (w0).part with parts := [(1, { wPart with initialising := true })] } })) (by decide)) (by decide))
  have _ := ((((((((((((((h).2.2.2.2.2.2.2.2.2.2.2.2.1) 5 (0x1#64) _ 1 ({ k0 := some 7, k1 := none, cur := 0 }) wPart (wCmdIn ({ (w0) with dram := { (w0).dram with keys := [(1, { k0 := some 7, k1 := none, cur := 0 })] } }) 0x1e 8 0x1)) ⟨rfl, rfl, by decide⟩) (by decide)) (by decide)) (by decide)) (by decide)) (Or.inr (by decide))) (by decide)) (by decide)) (by decide)) (by decide)) (by decide))
  have _ := (((((((((((((h).2.2.2.2.2.2.2.2.2.2.2.2.2.1) 1 9 ({ zRekey with newSlot := 1 }) wPart ({ (w0) with dram := { (w0).dram with rekeys := [(1, { zRekey with newSlot := 1 })], keys := [(1, { k0 := some 7, k1 := none, cur := 0 })] } })) (by decide)) (by decide)) (by decide)) (by decide)) (by decide)) (by decide)) (by decide)) (by decide)).1) (by decide))
  have _ := ((((((((((((((h).2.2.2.2.2.2.2.2.2.2.2.2.2.1) 1 1 ({ zRekey with newSlot := 1 }) wPart ({ (w0) with dram := { (w0).dram with rekeys := [(1, { zRekey with newSlot := 1 })], keys := [(1, { k0 := some 7, k1 := none, cur := 0 })] } })) (by decide)) (by decide)) (by decide)) (by decide)) (by decide)) (by decide)) (by decide)) (by decide)).2) 0x1000) (by decide))
  have _ := ((((((((h).2.2.2.2.2.2.2.2.2.2.2.2.2.2.1) 1 1 ({ zRekey with newSlot := 1, pages := [(1, { page := 0x1000 })] }) ({ page := 0x1000 }) ({ ({ (w0) with dram := { (w0).dram with ctrls := [(1, { freshCtrl with queue := List.replicate 64 { zMemReq with line := 64, who := .sweep 1 } })] } }) with dram := { ({ (w0) with dram := { (w0).dram with ctrls := [(1, { freshCtrl with queue := List.replicate 64 { zMemReq with line := 64, who := .sweep 1 } })] } }).dram with rekeys := [(1, { zRekey with newSlot := 1, pages := [(1, { page := 0x1000 })] })], keys := [(1, { k0 := some 7, k1 := none, cur := 0 })] } })) (by decide)) (by decide)) (by decide)).1) (by decide))
  have _ := ((((((((((h).2.2.2.2.2.2.2.2.2.2.2.2.2.2.1) 1 1 ({ zRekey with newSlot := 1, pages := [(1, { page := 0x1000 })] }) ({ page := 0x1000 }) ({ (w0) with dram := { (w0).dram with rekeys := [(1, { zRekey with newSlot := 1, pages := [(1, { page := 0x1000 })] })], keys := [(1, { k0 := some 7, k1 := none, cur := 0 })] } })) (by decide)) (by decide)) (by decide)).2.1) (by decide)) (by decide)) (by decide))
  have _ := ((((((((((((h).2.2.2.2.2.2.2.2.2.2.2.2.2.2.1) 1 1 ({ zRekey with newSlot := 1, pages := [(1, { page := 0x1000, asked := 64, data := (List.range 64).map (fun i => (i, [])) })] }) ({ page := 0x1000, asked := 64, data := (List.range 64).map (fun i => (i, [])) }) ({ (w0) with dram := { (w0).dram with rekeys := [(1, { zRekey with newSlot := 1, pages := [(1, { page := 0x1000, asked := 64, data := (List.range 64).map (fun i => (i, [])) })] })], keys := [(1, { k0 := some 7, k1 := none, cur := 0 })] } })) (by decide)) (by decide)) (by decide)).2.2) (by decide)) (by decide)) (by decide)) (by decide)) (by decide))
  have _ := (((((((h).2.2.2.2.2.2.2.2.2.2.2.2.2.2.2.1) 1 1 ({ zRekey with newSlot := 1, pages := [(1, { page := 0x1000 })] }) ({ page := 0x1000 }) ({ (w0) with dram := { (w0).dram with rekeys := [(1, { zRekey with newSlot := 1, pages := [(1, { page := 0x1000 })] })], keys := [(1, { k0 := some 7, k1 := none, cur := 0 })] } })) (by decide)) (by decide)).1) (by decide))
  have _ := ((((((((((h).2.2.2.2.2.2.2.2.2.2.2.2.2.2.2.1) 1 1 ({ zRekey with newSlot := 1, pages := [(1, { page := 0x1000, mask := List.range 64 })] }) ({ page := 0x1000, mask := List.range 64 }) ({ (w0) with dram := { (w0).dram with rekeys := [(1, { zRekey with newSlot := 1, pages := [(1, { page := 0x1000, mask := List.range 64 })] })], keys := [(1, { k0 := some 7, k1 := none, cur := 0 })] } })) (by decide)) (by decide)).2) (by decide)) (by decide)) (by decide)) (by decide))
  have _ := ((((((h).2.2.2.2.2.2.2.2.2.2.2.2.2.2.2.2.1) 1 1 ({ zRekey with newSlot := 1, pages := [(1, { page := 0x1000, mask := List.range 64, flip := 1 })] }) ({ page := 0x1000, mask := List.range 64, flip := 1 }) ({ zMemReq with id := 4, line := 0x0, write := true, who := .flip 1 }) ({ (w0) with dram := { (w0).dram with rekeys := [(1, { zRekey with newSlot := 1, pages := [(1, { page := 0x1000, mask := List.range 64, flip := 1 })] })], keys := [(1, { k0 := some 7, k1 := none, cur := 0 })] } })) (by decide)) (by decide)) (by decide))
  have _ := ((((((((h).2.2.2.2.2.2.2.2.2.2.2.2.2.2.2.2.2.1) 1 1 ({ zRekey with newSlot := 1, pages := [(1, { page := 0x1000, flip := 2 })] }) ({ page := 0x1000, flip := 2 }) ({ (w0) with dram := { (w0).dram with rekeys := [(1, { zRekey with newSlot := 1, pages := [(1, { page := 0x1000, flip := 2 })] })], keys := [(1, { k0 := some 7, k1 := none, cur := 0 })] } })) (by decide)) (by decide)) (by decide)).1) (by decide))
  have _ := ((((((((h).2.2.2.2.2.2.2.2.2.2.2.2.2.2.2.2.2.1) 1 1 ({ zRekey with newSlot := 1, pages := [(1, { page := 0x1000 })] }) ({ page := 0x1000 }) ({ (w0) with dram := { (w0).dram with rekeys := [(1, { zRekey with newSlot := 1, pages := [(1, { page := 0x1000 })] })], keys := [(1, { k0 := some 7, k1 := none, cur := 0 })] } })) (by decide)) (by decide)) (by decide)).2) (by decide))
  have _ := (((((((h).2.2.2.2.2.2.2.2.2.2.2.2.2.2.2.2.2.2.1) 1 ({ zRekey with newSlot := 1, done := List.range 48 }) wPart ({ k0 := some 7, k1 := none, cur := 0 }) ({ (w0) with dram := { (w0).dram with rekeys := [(1, { zRekey with newSlot := 1, done := List.range 48 })], keys := [(1, { k0 := some 7, k1 := none, cur := 0 })] } })) (by decide)) (by decide)) (by decide)) (fun ch h _ => List.mem_range.mpr h))
  have _ := ((((h).2.2.2.2.2.2.2.2.2.2.2.2.2.2.2.2.2.2.2.2.1) ({ (w0) with dram := { (w0).dram with wipes := [{ kind := 0, part := 0 }] } })) (by decide))
  have _ := (((((h).2.2.2.2.2.2.2.2.2.2.2.2.2.2.2.2.2.2.2.2.2.1) 3 w0) (by decide)) 200)
  have _ := (((((((h).2.2.2.2.2.2.2.2.2.2.2.2.2.2.2.2.2.2.2.2.2.2.1) 7 ({ kind := 2, part := 7 }) ({ (w0) with dram := { (w0).dram with wipes := [{ kind := 2, part := 7 }] } })) (by decide)) (by decide)) (by decide)) (by decide))
  have _ := ((((h).2.2.2.2.2.2.2.2.2.2.2.2.2.2.2.2.2.2.2.2.2.2.2) 1 w0) (by intro w h; cases h))
  trivial

theorem meets_DispatchUnits (h : Obligations.DispatchUnits) : True := by
  have _ := ((((((((((((((((((((h).1) 0 0x3000 wDX wDSt wDT ({ count := 0, plan := none }) wDA wDB 0 1 ((sliceKey 0 0x400)) ((sliceKey 0 0x800)) _ _ 0 _ (wD 0 { count := 0, plan := none })) (by decide)) (by decide)) (by decide)) (by decide)) (by decide)) (by decide)) (by decide)) (by decide)) (by decide)) (by decide)) (by decide)) rfl) (by decide)) rfl) rfl) (by first | (intro h; revert h; decide) | (intro _; decide) | (intro _; exact ⟨_, rfl, by decide⟩) | (intro h; exact absurd h (by decide)))) (by first | (intro h; revert h; decide) | (intro _; decide) | (intro _; exact ⟨_, rfl, by decide⟩) | (intro h; exact absurd h (by decide))))
  have _ := (((((((((((h).2.1) 0 0x3000 ({ wEngine with params := wDP, start := some { wStart with inputs := [(0, wDA), (1, { wDB with cols := 3 })] } }) ({ wStart with inputs := [(0, wDA), (1, { wDB with cols := 3 })] }) wDT ({ count := 0, plan := none }) wDA ({ wDB with cols := 3 }) 0 1 .badScores ({ wD 0 { count := 0, plan := none } with stn := { (wD 0 { count := 0, plan := none }).stn with engines := [(0x3000, { wEngine with params := wDP, start := some { wStart with inputs := [(0, wDA), (1, { wDB with cols := 3 })] } })] } })) (by decide)) (by decide)) (by decide)) (by decide)) (by decide)) (by decide)) (by decide)) (by decide))
  have _ := (((((((((h).2.2.1) 0 0x3000 wDX wDSt wDT ({ count := 0, plan := none }) ({ wD 0 { count := 0, plan := none } with host := { (wD 0 { count := 0, plan := none }).host with contexts := [] } })) (by decide)) (by decide)) (by decide)) (by decide)) (by decide)) (by decide))
  have _ := ((((((((((((((((h).2.2.2.1) 0 0x3000 wDX wDSt wDT ({ count := 1, plan := some wDPlan }) ((0, wDA)) ([(1, wDB)]) wDPlan _ _ 0 (wD 100 { count := 1, plan := some wDPlan })) (by decide)) (by decide)) (by decide)) (by decide)) (by decide)) (by decide)) (by decide)) rfl) rfl) (by first | (intro h; revert h; decide) | (intro _; decide) | (intro _; exact ⟨_, rfl, by decide⟩) | (intro h; exact absurd h (by decide)))) (by first | (intro h; revert h; decide) | (intro _; decide) | (intro _; exact ⟨_, rfl, by decide⟩) | (intro h; exact absurd h (by decide)))).1) (by decide))
  have _ := ((((((((((((((((h).2.2.2.1) 0 0x3000 wDX wDSt wDT ({ count := 1, plan := some wDPlan }) ((0, wDA)) ([(1, wDB)]) wDPlan _ _ 0 (wD 0 { count := 1, plan := some wDPlan })) (by decide)) (by decide)) (by decide)) (by decide)) (by decide)) (by decide)) (by decide)) rfl) rfl) (by first | (intro h; revert h; decide) | (intro _; decide) | (intro _; exact ⟨_, rfl, by decide⟩) | (intro h; exact absurd h (by decide)))) (by first | (intro h; revert h; decide) | (intro _; decide) | (intro _; exact ⟨_, rfl, by decide⟩) | (intro h; exact absurd h (by decide)))).2) (by decide))
  have _ := (((((((((((((h).2.2.2.2) 0 0x3000 ({ wEngine with params := wDP, start := some { wDSt with ended := true } }) ({ wDSt with ended := true }) wDT ({ ({ wD 0 { count := 0, plan := none } with stn := { (wD 0 { count := 0, plan := none }).stn with engines := [(0x3000, { wEngine with params := wDP, start := some { wDSt with ended := true } })] } }) with fab := { ({ wD 0 { count := 0, plan := none } with stn := { (wD 0 { count := 0, plan := none }).stn with engines := [(0x3000, { wEngine with params := wDP, start := some { wDSt with ended := true } })] } }).fab with accesses := [(5, { zAccess with who := .unit 0x3000, store := true, left := 1 })] } })) (by decide)) (by decide)) (by decide)) (by decide)) (by decide)) (by decide)) (by decide)) (by decide)).1) (by decide))
  have _ := (((((((((((((((h).2.2.2.2) 0 0x3000 ({ wEngine with params := wDP, start := some { wDSt with ended := true } }) ({ wDSt with ended := true }) wDT ({ wD 0 { count := 0, plan := none } with stn := { (wD 0 { count := 0, plan := none }).stn with engines := [(0x3000, { wEngine with params := wDP, start := some { wDSt with ended := true } })] } })) (by decide)) (by decide)) (by decide)) (by decide)) (by decide)) (by decide)) (by decide)) (by decide)).2) (by decide)) (by first | (intro h; revert h; decide) | (intro _; decide) | (intro _; exact ⟨_, rfl, by decide⟩) | (intro h; exact absurd h (by decide)))) (by decide))
  trivial

theorem meets_AssignmentWithinCapacity (h : Obligations.AssignmentWithinCapacity) : True := by
  have _ := (((((h).1) (fun _ => 1) ([(0, 0, 3), (1, 0, 3), (2, 0, 4)]) ([]) ([])) (fun _ => Nat.zero_le _)) 3)
  have _ := (((((h).2.1) (fun _ => 1) (fun _ => [(1, 4), (2, 5)]) ([(1, 0), (2, 0)]) ([])) (fun _ => Nat.zero_le _)) 4)
  have _ := ((((h).2.2.1) (fun _ => 1) ([(0, 0, 3), (1, 0, 3), (2, 0, 4)]) ([]) ([]) ({ token := 2, pos := 0, expert := 4, rank := 0, rerouted := false })) (by decide))
  have _ := (((((h).2.2.2.2) ((expertOf 0xA000FF4000700014)) 16).2.1) (by decide))
  trivial

theorem meets_CombineUnitsAndGathers (h : Obligations.CombineUnitsAndGathers) : True := by
  have _ := ((((((((((((h).1) 0 0x4000 wCX wCT 0 wCMap ([(1, wCRes)]) _ _ _ (wC { freshComb with taken := [(0, wCMap), (1, wCRes)] })) (by decide)) (by decide)) (by decide)) (by decide)) (by decide)) rfl) rfl) (by decide)) rfl)
  have _ := (((((((h).2.1) 0 0x4000 wCX wCT 0 ({ wCMap with cols := 3 }) ([]) (wC { freshComb with taken := [(0, { wCMap with cols := 3 })] })) (by decide)) (by decide)) (by decide)) (by decide))
  have _ := ((((((((((h).2.2.1) 0 0x4000 wCX wCT 1 wCRes ([]) (wC { freshComb with taken := [(1, wCRes)], batches := [wCB] })) (by decide)) (by decide)) (by decide)) (by decide)).1) wCB) (by decide))
  have _ := ((((((((((h).2.2.1) 0 0x4000 wCX wCT 1 wCRes ([]) (wC { freshComb with taken := [(1, wCRes)], closed := [3] })) (by decide)) (by decide)) (by decide)) (by decide)).2.1) (by decide)) (by decide))
  have _ := (((((((((((h).2.2.1) 0 0x4000 wCX wCT 1 wCRes ([]) ({ (wC { freshComb with taken := [(1, wCRes)], batches := [{ wCB with zero := [5] }] }) with fab := { (wC { freshComb with taken := [(1, wCRes)], batches := [{ wCB with zero := [5] }] }).fab with accesses := [(5, { zAccess with who := .unit 0x4000, store := true, left := 1 })] } })) (by decide)) (by decide)) (by decide)) (by decide)).2.2.1) (by decide)) (by decide)) (by decide))
  have _ := (((((((((((h).2.2.1) 0 0x4000 wCX wCT 1 wCRes ([]) (wC { freshComb with taken := [(1, wCRes)] })) (by decide)) (by decide)) (by decide)) (by decide)).2.2.2) (by decide)) (by decide)) (by decide))
  have _ := (((((((h).2.2.2.1) 0 0x4000 wCX wCT wCRes ([]) wCB (wC { freshComb with held := [wCRes], batches := [wCB] })) (by decide)) (by decide)) (by decide)) (by decide))
  have _ := (((((((h).2.2.2.2.1) (wC { freshComb with batches := [wCB] }) 0x4000 wCX wCT ({ freshComb with batches := [wCB] }) wCB wCRes _ _ _) (by decide)) rfl) rfl) rfl)
  have _ := ((((h).2.2.2.2.2.1) (wC { freshComb with batches := [wCB] }) 0x4000 wCX wCT ({ freshComb with batches := [wCB] }) ({ wCB with nDel := 0 }) wCRes) (by decide))
  have _ := ((((h).2.2.2.2.2.2.1) (wC { freshComb with batches := [wCB] }) 0x900 wCB wCRes ((sliceKey 0 0xC00)) ((sliceKey 0 0x2400))) (by decide))
  have _ := (((((((h).2.2.2.2.2.2.2.1) 0 0x4000 wCX wCT ({ wCB with received := [0] }) ([]) (wC { freshComb with batches := [{ wCB with received := [0] }] })) (by decide)) (by decide)) (by decide)) (by decide))
  have _ := ((((h).2.2.2.2.2.2.2.2.2.1) (wC { freshComb with batches := [wCB] }) 0x4000 wCB wCRes) (by decide))
  have _ := (((((h).2.2.2.2.2.2.2.2.2.2.1) (wC freshComb) 0x4000 wCRes) (by decide)) (by decide))
  have _ := ((((((((((((((((((h).2.2.2.2.2.2.2.2.2.2.2.1) 0 0x2000 ({ wEngine with params := wGP, start := some { wGSt with gather := some { first := 0, tiles := 1, copied := 0 } } }) ({ wGSt with gather := some { first := 0, tiles := 1, copied := 0 } }) wGT ((sliceKey 0 0x400)) ((sliceKey 0 0x4000)) ([.fetch 1 0, .skip]) 0 0 ({ wG with stn := { (wG).stn with engines := [(0x2000, { wEngine with params := wGP, start := some { wGSt with gather := some { first := 0, tiles := 1, copied := 0 } } })] } })) (by decide)) (by decide)) (by decide)) (by decide)) (by decide)) (by decide)) (by decide)) (by decide)) (by decide)) (by decide)) (by decide)) (by decide)).1) ({ first := 0, tiles := 1, copied := 0 })) (by decide))
  have _ := (((((((((((((((((((((h).2.2.2.2.2.2.2.2.2.2.2.1) 0 0x2000 ({ wEngine with params := Memory.write wGP 28 0, start := some wGSt }) wGSt wGT ((sliceKey 0 0x400)) ((sliceKey 0 0x4000)) ([.fetch 1 0, .skip]) _ _ ({ wG with stn := { (wG).stn with engines := [(0x2000, { wEngine with params := Memory.write wGP 28 0, start := some wGSt })] } })) (by decide)) (by decide)) (by decide)) (by decide)) (by decide)) (by decide)) (by decide)) (by decide)) (by decide)) (by decide)) (by decide)) (by decide)).2) (by decide)) rfl) rfl).1) (by decide))
  have _ := ((((((((((((((((((((((((h).2.2.2.2.2.2.2.2.2.2.2.1) 0 0x2000 wGX wGSt wGT ((sliceKey 0 0x400)) ((sliceKey 0 0x4000)) ([.fetch 1 0, .skip]) _ _ wG) (by decide)) (by decide)) (by decide)) (by decide)) (by decide)) (by decide)) (by decide)) (by decide)) (by decide)) (by decide)) (by decide)) (by decide)).2) (by decide)) rfl) rfl).2) (by decide)) (by decide)) (by decide)) (by decide))
  have _ := (((((((((h).2.2.2.2.2.2.2.2.2.2.2.2.1) w0 0x2000 wGX wGSt ({ first := 0, tiles := 1, copied := 0 }) ([.fetch 1 0]) ((sliceKey 0 0x4000)) _ _ _) rfl) rfl) rfl).1) _) rfl)
  have _ := ((((((((h).2.2.2.2.2.2.2.2.2.2.2.2.1) wG 0x2000 wGX wGSt ({ first := 0, tiles := 1, copied := 0 }) ([.fetch 1 0]) ((sliceKey 0 0x4000)) _ _ _) rfl) rfl) rfl).2) (by decide))
  have _ := ((((((((((((h).2.2.2.2.2.2.2.2.2.2.2.2.2.1) 0 0x2000 ({ wEngine with params := wGP, start := some { wGSt with ended := true } }) ({ wGSt with ended := true }) wGT ({ ({ wG with stn := { (wG).stn with engines := [(0x2000, { wEngine with params := wGP, start := some { wGSt with ended := true } })] } }) with dram := { ({ wG with stn := { (wG).stn with engines := [(0x2000, { wEngine with params := wGP, start := some { wGSt with ended := true } })] } }).dram with txns := [(3, .engine 0x2000)] } })) (by decide)) (by decide)) (by decide)) (by decide)) (by decide)) (by decide)) (by decide)).1) (by decide))
  have _ := (((((((((((((((h).2.2.2.2.2.2.2.2.2.2.2.2.2.1) 0 0x2000 ({ wEngine with params := wGP, start := some { wGSt with ended := true } }) ({ wGSt with ended := true }) wGT ({ wG with stn := { (wG).stn with engines := [(0x2000, { wEngine with params := wGP, start := some { wGSt with ended := true } })] } })) (by decide)) (by decide)) (by decide)) (by decide)) (by decide)) (by decide)) (by decide)).2) (by decide)) (by decide)) (by first | (intro h; revert h; decide) | (intro _; decide) | (intro _; exact ⟨_, rfl, by decide⟩) | (intro h; exact absurd h (by decide)))) (by decide))
  have _ := (((((h).2.2.2.2.2.2.2.2.2.2.2.2.2.2.1) wG ((sliceKey 0 0x400)) wGW 8 0 1) (by decide)) (by decide))
  have _ := (((((h).2.2.2.2.2.2.2.2.2.2.2.2.2.2.2.1) wG ({ id := 0x2000, block := 0, part := 1, ctx := 0 }) 0x40 4 0x1040) (by decide)) (by decide))
  have _ := ((((h).2.2.2.2.2.2.2.2.2.2.2.2.2.2.2.2) wG ({ id := 0x2000, block := 0, part := 1, ctx := 0 }) 0x9000 4) (by decide))
  trivial

theorem meets_CollectivesAndPace (h : Obligations.CollectivesAndPace) : True := by
  have _ := (((((((((((((((((h).1) (wMsg 0) (0x9020100060005000100020301#128) ({ wPart with portShare := [(2, 100)] }) ({ { w0 with part := { (w0).part with parts := [(1, { wPart with portShare := [(2, 100)] })] } } with sys := { ({ w0 with part := { (w0).part with parts := [(1, { wPart with portShare := [(2, 100)] })] } }).sys with variantT := true } })) ⟨rfl, rfl, notEvac (y := { wPart with portShare := [(2, 100)] }) rfl rfl⟩) (by decide)) (by decide)) (by decide)) (by decide)) (by decide)) (by decide)) (by decide)) (by decide)) (by decide)) (by decide)) (by decide)) (by decide)) (by decide))
  have _ := ((((((h).2.1) (wMsg 0) (0x301#64) ((wLink ({ LinkUnit.reset with colls := [(0, { seq := 7, group := 3, gen := 9, sendStep := 0, sendSeg := 0, ready := [], fed := 4 })] }) wLX))) ⟨rfl, rfl, noPart rfl⟩) (by decide)) (by decide))
  have _ := ((((((((((h).2.2.1) 0 wLX wLSt wLT wGroup ((wLink ({ LinkUnit.reset with  }) wLX))) (by decide)) (by decide)) (by decide)) (by decide)) (by decide)) (by decide)) (by decide))
  have _ := ((((((((((((((h).2.2.2.1) 0 wLX wLSt wLT wGroup ({ seq := 7, group := 3, gen := 9, sendStep := 0, sendSeg := 0, ready := [], fed := 0 }) ({ ((wLink ({ LinkUnit.reset with colls := [(0, { seq := 7, group := 3, gen := 9, sendStep := 0, sendSeg := 0, ready := [], fed := 0 })] }) wLX)) with xlt := { ((wLink ({ LinkUnit.reset with colls := [(0, { seq := 7, group := 3, gen := 9, sendStep := 0, sendSeg := 0, ready := [], fed := 0 })] }) wLX)).xlt with btus := [(0, freshBtu.fill { zTlbEntry with part := 1, dte := 0x1003 })] } })) (by decide)) (by decide)) (by decide)) (by decide)) (by decide)) (by decide)) (by decide)) (by decide)).1) _) rfl)
  have _ := ((((((((((((((h).2.2.2.1) 0 wLX wLSt wLT wGroup ({ seq := 7, group := 3, gen := 9, sendStep := 0, sendSeg := 0, ready := [], fed := 0 }) ((wLink ({ LinkUnit.reset with colls := [(0, { seq := 7, group := 3, gen := 9, sendStep := 0, sendSeg := 0, ready := [], fed := 0 })] }) wLX))) (by decide)) (by decide)) (by decide)) (by decide)) (by decide)) (by decide)) (by decide)) (by decide)).2) _) rfl)
  have _ := (((((((((((((((((((((h).2.2.2.2.1) 0 wLX wLSt wLT ({ seq := 7, group := 3, gen := 9, sendStep := 0, sendSeg := 0, ready := [], fed := 4 }) wGroup _ _ _ _ _ _ ({ ((wLink ({ LinkUnit.reset with colls := [(0, { seq := 7, group := 3, gen := 9, sendStep := 0, sendSeg := 0, ready := [], fed := 4 })], ports := [(0, wPort)] }) wLX)) with xlt := { ((wLink ({ LinkUnit.reset with colls := [(0, { seq := 7, group := 3, gen := 9, sendStep := 0, sendSeg := 0, ready := [], fed := 4 })], ports := [(0, wPort)] }) wLX)).xlt with btus := [(0, freshBtu.fill { zTlbEntry with part := 1, dte := 0x1003 })] } })) (by decide)) (by decide)) (by decide)) (by decide)) (by decide)) (by decide)) (by decide)) (by decide)) (by decide)) (by decide)) (by first | (intro h; revert h; decide) | (intro _; decide) | (intro _; exact ⟨_, rfl, by decide⟩) | (intro h; exact absurd h (by decide)))) (by first | (intro h; revert h; decide) | (intro _; decide) | (intro _; exact ⟨_, rfl, by decide⟩) | (intro h; exact absurd h (by decide)))) rfl) rfl) rfl) rfl) rfl) rfl)
  have _ := ((((((((((h).2.2.2.2.2.1) 0 _ _ _ ((wLink ({ LinkUnit.reset with ports := [(0, { wPort with inbox := [wSegMsg 9], rxHeld := [0, 0, 1, 0] })] }) wLX))) rfl) rfl).1) wGroup) (by decide)) rfl) (by decide))
  have _ := (((((((h).2.2.2.2.2.1) 0 _ _ _ ({ w0 with link := { LinkUnit.reset with ports := [(0, { wPort with inbox := [wSegMsg 8], rxHeld := [0, 0, 1, 0] })] } })) rfl) rfl).2) (by decide))
  have _ := (((((((((h).2.2.2.2.2.2.1) 0 _ _ wGroup _ ((wLink ({ LinkUnit.reset with ports := [(0, { wPort with inbox := [wSegMsg 9], rxHeld := [0, 0, 1, 0] })], arrivals := [(0, List.replicate 64 { src := 5, part := 1, group := 3, gen := 9, step := 0, seq := 7, index := 0, bytes := List.replicate 8 0x41 })] }) wLX))) rfl) rfl) (by decide)) rfl) (by decide)) (by decide))
  have _ := ((((((((((((((((((((((((h).2.2.2.2.2.2.2.1) 0 wLX wLSt wLT ({ seq := 7, group := 3, gen := 9, sendStep := 0, sendSeg := 0, ready := [], fed := 4 }) wGroup ({ src := 5, part := 1, group := 3, gen := 9, step := 0, seq := 7, index := 0, bytes := List.replicate 8 0x41 }) ([]) _ _ _ _ _ ({ ((wLink ({ LinkUnit.reset with colls := [(0, { seq := 7, group := 3, gen := 9, sendStep := 0, sendSeg := 0, ready := [], fed := 4 })], arrivals := [(0, [{ src := 5, part := 1, group := 3, gen := 9, step := 0, seq := 7, index := 0, bytes := List.replicate 8 0x41 }])] }) wLX)) with xlt := { ((wLink ({ LinkUnit.reset with colls := [(0, { seq := 7, group := 3, gen := 9, sendStep := 0, sendSeg := 0, ready := [], fed := 4 })], arrivals := [(0, [{ src := 5, part := 1, group := 3, gen := 9, step := 0, seq := 7, index := 0, bytes := List.replicate 8 0x41 }])] }) wLX)).xlt with btus := [(0, freshBtu.fill { zTlbEntry with part := 1, dte := 0x1003 })] } })) (by decide)) (by decide)) (by decide)) (by decide)) (by decide)) (by decide)) (by decide)) (by decide)) (by decide)) (by decide)) rfl) (by decide)) rfl) rfl) rfl) rfl) rfl).1) _) (by decide)) rfl)
  have _ := (((((((((((((((((((((((((h).2.2.2.2.2.2.2.1) 0 ({ wLX with params := Memory.write wLP 0 0 }) wLSt wLT ({ seq := 7, group := 3, gen := 9, sendStep := 0, sendSeg := 0, ready := [], fed := 4 }) wGroup ({ src := 5, part := 1, group := 3, gen := 9, step := 0, seq := 7, index := 0, bytes := List.replicate 8 0x41 }) ([]) _ _ _ _ _ ({ ((wLink ({ LinkUnit.reset with colls := [(0, { seq := 7, group := 3, gen := 9, sendStep := 0, sendSeg := 0, ready := [], fed := 4 })], arrivals := [(0, [{ src := 5, part := 1, group := 3, gen := 9, step := 0, seq := 7, index := 0, bytes := List.replicate 8 0x41 }])] }) { wLX with params := Memory.write wLP 0 0 })) with xlt := { ((wLink ({ LinkUnit.reset with colls := [(0, { seq := 7, group := 3, gen := 9, sendStep := 0, sendSeg := 0, ready := [], fed := 4 })], arrivals := [(0, [{ src := 5, part := 1, group := 3, gen := 9, step := 0, seq := 7, index := 0, bytes := List.replicate 8 0x41 }])] }) { wLX with params := Memory.write wLP 0 0 })).xlt with btus := [(0, freshBtu.fill { zTlbEntry with part := 1, dte := 0x1003 })] } })) (by decide)) (by decide)) (by decide)) (by decide)) (by decide)) (by decide)) (by decide)) (by decide)) (by decide)) (by decide)) rfl) (by decide)) rfl) rfl) rfl) rfl) rfl).2) _ _) (by decide)) rfl) rfl)
  have _ := ((((((((((((((h).2.2.2.2.2.2.2.2.1) 0 wLX wLSt wLT ({ seq := 7, group := 3, gen := 9, sendStep := 1, sendSeg := 0, ready := [0], fed := 4 }) wGroup ((wLink ({ LinkUnit.reset with colls := [(0, { seq := 7, group := 3, gen := 9, sendStep := 1, sendSeg := 0, ready := [0], fed := 4 })] }) wLX))) (by decide)) (by decide)) (by decide)) (by decide)) (by decide)) (by decide)) (by decide)) (by decide)) (by decide)) (by decide)) (by decide))
  have _ := (((((h).2.2.2.2.2.2.2.2.2.1) 0 ({ wLX with start := some { wLSt with ended := true } }) ({ wLSt with ended := true }) wLT ({ (wLink ({ LinkUnit.reset with  }) wLX) with stn := { ((wLink ({ LinkUnit.reset with  }) wLX)).stn with engines := [(0x5000, { wLX with start := some { wLSt with ended := true } })] } })) (by decide)) (by decide))
  have _ := ((((h).2.2.2.2.2.2.2.2.2.2.1) 1 w0) (by decide))
  have _ := ((((((((h).2.2.2.2.2.2.2.2.2.2.2.1) 1 0 0 _ ({ w0 with sys := { (w0).sys with timeUs := 100 } })) rfl) (by decide)) (by decide)).1) (by decide))
  have _ := ((((((((((h).2.2.2.2.2.2.2.2.2.2.2.1) 1 71999 80000 ({ low := 10, high := 0, noticed := false, lastNotice := 0, seen := [(0, 0), (1, 0)], start := 0 }) ({ ({ { w0 with sys := { (w0).sys with timeUs := 100 } } with fab := { ({ w0 with sys := { (w0).sys with timeUs := 100 } }).fab with blocks := [(0, { bound := some (1, 0), powered := true, plannedMhz := 400, cycles := 71999 }), (1, { bound := some (1, 1), powered := true, plannedMhz := 400 })] } }) with link := { ({ { w0 with sys := { (w0).sys with timeUs := 100 } } with fab := { ({ w0 with sys := { (w0).sys with timeUs := 100 } }).fab with blocks := [(0, { bound := some (1, 0), powered := true, plannedMhz := 400, cycles := 71999 }), (1, { bound := some (1, 1), powered := true, plannedMhz := 400 })] } }).link with pace := [(1, { low := 10, high := 0, noticed := false, lastNotice := 0, seen := [(0, 0), (1, 0)], start := 0 })] } })) (by decide)) (by decide)) (by decide)).2.1) (by decide)) (by decide)) (by decide))
  have _ := (((((((((h).2.2.2.2.2.2.2.2.2.2.2.1) 1 71999 80000 ({ low := 3, high := 0, noticed := false, lastNotice := 0, seen := [(0, 0), (1, 0)], start := 0 }) ({ ({ { w0 with sys := { (w0).sys with timeUs := 100 } } with fab := { ({ w0 with sys := { (w0).sys with timeUs := 100 } }).fab with blocks := [(0, { bound := some (1, 0), powered := true, plannedMhz := 400, cycles := 71999 }), (1, { bound := some (1, 1), powered := true, plannedMhz := 400 })] } }) with link := { ({ { w0 with sys := { (w0).sys with timeUs := 100 } } with fab := { ({ w0 with sys := { (w0).sys with timeUs := 100 } }).fab with blocks := [(0, { bound := some (1, 0), powered := true, plannedMhz := 400, cycles := 71999 }), (1, { bound := some (1, 1), powered := true, plannedMhz := 400 })] } }).link with pace := [(1, { low := 3, high := 0, noticed := false, lastNotice := 0, seen := [(0, 0), (1, 0)], start := 0 })] } })) (by decide)) (by decide)) (by decide)).2.2.1) (by decide)) (by decide))
  have _ := ((((((((((h).2.2.2.2.2.2.2.2.2.2.2.1) 1 71999 80000 ({ low := 10, high := 0, noticed := true, lastNotice := 0, seen := [(0, 0), (1, 0)], start := 0 }) ({ ({ { w0 with sys := { (w0).sys with timeUs := 100 } } with fab := { ({ w0 with sys := { (w0).sys with timeUs := 100 } }).fab with blocks := [(0, { bound := some (1, 0), powered := true, plannedMhz := 400, cycles := 71999 }), (1, { bound := some (1, 1), powered := true, plannedMhz := 400 })] } }) with link := { ({ { w0 with sys := { (w0).sys with timeUs := 100 } } with fab := { ({ w0 with sys := { (w0).sys with timeUs := 100 } }).fab with blocks := [(0, { bound := some (1, 0), powered := true, plannedMhz := 400, cycles := 71999 }), (1, { bound := some (1, 1), powered := true, plannedMhz := 400 })] } }).link with pace := [(1, { low := 10, high := 0, noticed := true, lastNotice := 0, seen := [(0, 0), (1, 0)], start := 0 })] } })) (by decide)) (by decide)) (by decide)).2.2.2.1) (by decide)) (by decide)) (by decide))
  have _ := ((((((((((h).2.2.2.2.2.2.2.2.2.2.2.1) 1 75000 80000 ({ low := 5, high := 3, noticed := true, lastNotice := 0, seen := [(0, 0), (1, 0)], start := 0 }) ({ ({ { w0 with sys := { (w0).sys with timeUs := 100 } } with fab := { ({ w0 with sys := { (w0).sys with timeUs := 100 } }).fab with blocks := [(0, { bound := some (1, 0), powered := true, plannedMhz := 400, cycles := 75000 }), (1, { bound := some (1, 1), powered := true, plannedMhz := 400 })] } }) with link := { ({ { w0 with sys := { (w0).sys with timeUs := 100 } } with fab := { ({ w0 with sys := { (w0).sys with timeUs := 100 } }).fab with blocks := [(0, { bound := some (1, 0), powered := true, plannedMhz := 400, cycles := 75000 }), (1, { bound := some (1, 1), powered := true, plannedMhz := 400 })] } }).link with pace := [(1, { low := 5, high := 3, noticed := true, lastNotice := 0, seen := [(0, 0), (1, 0)], start := 0 })] } })) (by decide)) (by decide)) (by decide)).2.2.2.2.1) (by decide)) (by decide)) (by decide))
  have _ := (((((((((((h).2.2.2.2.2.2.2.2.2.2.2.1) 1 76000 80000 ({ low := 0, high := 9, noticed := true, lastNotice := 0, seen := [(0, 0), (1, 0)], start := 0 }) ({ ({ { w0 with sys := { (w0).sys with timeUs := 100 } } with fab := { ({ w0 with sys := { (w0).sys with timeUs := 100 } }).fab with blocks := [(0, { bound := some (1, 0), powered := true, plannedMhz := 400, cycles := 76000 }), (1, { bound := some (1, 1), powered := true, plannedMhz := 400 })] } }) with link := { ({ { w0 with sys := { (w0).sys with timeUs := 100 } } with fab := { ({ w0 with sys := { (w0).sys with timeUs := 100 } }).fab with blocks := [(0, { bound := some (1, 0), powered := true, plannedMhz := 400, cycles := 76000 }), (1, { bound := some (1, 1), powered := true, plannedMhz := 400 })] } }).link with pace := [(1, { low := 0, high := 9, noticed := true, lastNotice := 0, seen := [(0, 0), (1, 0)], start := 0 })] } })) (by decide)) (by decide)) (by decide)).2.2.2.2.2) (by decide)) (by decide)) (by decide)) (by decide))
  have _ := (((((h).2.2.2.2.2.2.2.2.2.2.2.2.1) 1 0 5 ({ seen := [(0, 5)] }) ({ { w0 with fab := { (w0).fab with blocks := [(0, { bound := some (1, 0), powered := true, plannedMhz := 400, cycles := 9 })] } } with part := { ({ w0 with fab := { (w0).fab with blocks := [(0, { bound := some (1, 0), powered := true, plannedMhz := 400, cycles := 9 })] } }).part with parts := [(1, { wPart with blockMap := [(0, 0)] })] } })) (by decide)) (by decide))
  have _ := ((((((h).2.2.2.2.2.2.2.2.2.2.2.2.2.1) (wMsg 0) (0x301f40101#64) w0) ⟨rfl, rfl, noPart rfl⟩) (by decide)) (by decide))
  have _ := (((((((h).2.2.2.2.2.2.2.2.2.2.2.2.2.2) (wMsg 0) (0x1c20001#64) w0) ⟨rfl, rfl, noPart rfl⟩) (by decide)) (by decide)) (by decide))
  trivial

theorem meets_RingSchedule (h : Obligations.RingSchedule) : True := by
  have _ := (((((((h) 0 2 0 0) (by decide)) (by decide)) (by decide)) (by decide)).1)
  have _ := (((((((h) 0 2 0 0) (by decide)) (by decide)) (by decide)) (by decide)).2.1)
  have _ := ((((((((h) 0 2 0 0) (by decide)) (by decide)) (by decide)) (by decide)).2.2) (by decide))
  trivial

theorem meets_PortStates (h : Obligations.PortStates) : True := by
  have _ := ((((((((h).1) (wMsg 0) (0x5#64) w0) ⟨rfl, rfl, noPart rfl⟩) (by decide)) (by decide)) (by decide)) (by decide))
  have _ := (((((((h).2.1) 0 w0) (by decide)) (by decide)) (by decide)) (by decide))
  have _ := (((((((h).2.2.1) 0 0x1B _ ((wPortS 0 { wPort with state := .pmdTrain }))) (by decide)) rfl).1) (by decide))
  have _ := (((((((h).2.2.1) 0 0x13 _ ((wPortS 0 { wPort with state := .pmdTrain }))) (by decide)) rfl).2) (by decide))
  have _ := ((((h).2.2.2.1) 0 216 ((wPortS 0 { wPort with state := .align }))) (by decide))
  have _ := ((((((h).2.2.2.2.1) 0 41 216 wPort ((wPortS 0 { wPort with state := .align }))) (by decide)).1) (by decide))
  have _ := ((((((((h).2.2.2.2.1) 0 40 2165 wPort ((wPortS 0 { wPort with state := .align, trip := some 2165 }))) (by decide)).2.1) (by decide)) (by decide)) (by decide))
  have _ := (((((((((h).2.2.2.2.1) 0 40 2164 (LPort.restart { ((wPortS 0 { wPort with state := .align, trip := some 2164 })).port 0 with flight := 1024, state := .ident, slot := 0 }) ((wPortS 0 { wPort with state := .align, trip := some 2164 }))) (by decide)).2.2) (by decide)) (by decide)) (by decide)) (by decide))
  have _ := (((((((((h).2.2.2.2.2.1) 0 1 3 7 0 200 200 200 64 _ ((wPortS 0 { wPort with state := .ident }))) (by decide)) rfl).1) (by decide)) (by decide)) (by decide))
  have _ := (((((((((h).2.2.2.2.2.1) 0 1 3 7 0 200 200 200 64 _ ((wPortS 0 { wPort with state := .ident, keep := true }))) (by decide)) rfl).2.1) (by decide)) (by decide)) (by decide))
  have _ := ((((((((((h).2.2.2.2.2.1) 0 1 3 7 0 200 200 200 64 _ ((wPortS 0 { wPort with state := .ident, readmit := some (wMsg 4) }))) (by decide)) rfl).2.2.1) (wMsg 4)) (by decide)) (by decide)) (by decide))
  have _ := (((((((h).2.2.2.2.2.1) 0 2 3 7 0 200 200 200 64 _ ((wPortS 0 { wPort with state := .ident }))) (by decide)) rfl).2.2.2) (by decide))
  have _ := ((((((((((h).2.2.2.2.2.2.1) (wMsg 0) (0x0#64) 0 ((wPortS 0 { wPort with state := .quarantined }))) ⟨rfl, rfl, noPart rfl⟩) (by decide)) (by decide)) (by decide)) (by decide)) (by decide)) (by decide))
  have _ := (((((h).2.2.2.2.2.2.2.1) 0 ((wPortS 0 { wPort with state := .probation }))) (by decide)) (by decide))
  have _ := ((((((((((h).2.2.2.2.2.2.2.2.1) 0 1 4 0 false ((wPortS 0 { wPort with state := .active, lanes := [0, 1, 2, 3], spare := 1 }))) (Or.inl (by decide))) (by decide)) (by decide)).1) (by decide)) (by decide)) (by decide))
  have _ := (((((((((h).2.2.2.2.2.2.2.2.1) 0 1 4 0 false ((wPortS 0 { wPort with state := .active, lanes := [0, 1, 2, 3] }))) (Or.inl (by decide))) (by decide)) (by decide)).2.1) (by decide)) (by decide))
  have _ := (((((((((h).2.2.2.2.2.2.2.2.1) 0 1 4 0 false ((wPortS 0 { wPort with state := .doze, lanes := [0, 1, 2, 3] }))) (Or.inl (by decide))) (by decide)) (by decide)).2.2) (by decide)) (by decide))
  have _ := (((((((h).2.2.2.2.2.2.2.2.2.1) 0 2 64 ((wPortS 0 { wPort with state := .active, lanes := [0, 1, 2, 3], spare := 1 }))) (by decide)).1) (by decide)) (by decide))
  have _ := ((((((((h).2.2.2.2.2.2.2.2.2.1) 0 3 64 ((wPortS 0 { wPort with state := .active, lanes := [0, 1, 2, 3], swap := some ({ position := 2, txAt := 64, rxAt := none }) }))) (by decide)).2) ({ position := 2, txAt := 64, rxAt := none })) (by decide)) (by decide))
  have _ := ((((h).2.2.2.2.2.2.2.2.2.2.1) 0 64 ({ position := 2, txAt := 64, rxAt := none }) ((wPortS 0 { wPort with state := .active, lanes := [0, 1, 2, 3], swap := some ({ position := 2, txAt := 64, rxAt := none }) }))) (by decide))
  have _ := ((((((h).2.2.2.2.2.2.2.2.2.2.2.1) 0 ({ position := 2, txAt := 64, rxAt := some 64 }) 64 ((wPortS 0 { wPort with state := .active, lanes := [0, 1, 2, 3], cycles := 2560, swap := some ({ position := 2, txAt := 64, rxAt := some 64 }) }))) (by decide)) (by decide)) (by decide))
  have _ := (((((h).2.2.2.2.2.2.2.2.2.2.2.2.1) 0 ((wPortS 0 { wPort with state := .active }))) (by decide)) (by decide))
  have _ := ((((h).2.2.2.2.2.2.2.2.2.2.2.2.2.1) 0 ((wPortS 0 { wPort with state := .doze }))) (by decide))
  have _ := ((((h).2.2.2.2.2.2.2.2.2.2.2.2.2.2.1) 0 3 9 ((wPortS 0 { wPort with state := .active }))) (by decide))
  have _ := ((((h).2.2.2.2.2.2.2.2.2.2.2.2.2.2.2.1) 0 ((wPortS 0 { wPort with state := .active, partial' := [(0, { src := 5, flits := 1, bytes := [], bad := false })] }))) (by decide))
  have _ := ((((((h).2.2.2.2.2.2.2.2.2.2.2.2.2.2.2.2.1) 0 ((wPortS 0 { wPort with state := .active, vioCount := 1000000000 }))) (by decide)) (by decide)) (by decide))
  have _ := (((((h).2.2.2.2.2.2.2.2.2.2.2.2.2.2.2.2.2) ((wPortS 12 { wPort with state := .active }))) (by decide)) (by decide))
  trivial

theorem meets_FlitsAndSlots (h : Obligations.FlitsAndSlots) : True := by
  have _ := ((((((((((h).1) 0 ((wFlit (flitBase 0 0 0 false false 0 0 []))) ((wPortS 0 wPort))) (by decide +kernel)) (by decide +kernel)).1) (by decide +kernel)) (by decide +kernel)) (by decide +kernel)) (by decide +kernel))
  have _ := ((((((((h).1) 0 ((wFlit ((flitBase 0 0 0 false false 0 0 []) ||| plcB 6 1 1))) ((wPortS 0 wPort))) (by decide +kernel)) (by decide +kernel)).2.1) (by decide +kernel)) (by decide +kernel))
  have _ := (((((((h).1) 0 ((wFlit ((flitBase 0 0 0 false false 0 0 []) ||| plcB 1 1 0x30))) ((wPortS 0 wPort))) (by decide +kernel)) (by decide +kernel)).2.2.1) (by decide +kernel))
  have _ := ((((((((h).1) 0 ((wFlit (flitBase 1 0 0 true true 5 7 [1, 2]))) ((wPortS 0 wPort))) (by decide +kernel)) (by decide +kernel)).2.2.2.1) (by decide +kernel)) (by decide +kernel))
  have _ := ((((((((h).1) 0 ((wFlit (flitBase 1 4095 0 true true 5 7 [1, 2]))) ((wPortS 0 wPort))) (by decide +kernel)) (by decide +kernel)).2.2.2.2) (by decide +kernel)) (by decide +kernel))
  have _ := ((((((h).2.1) 0 (0#2048) true ((wPortS 0 wPort))) (by decide)) (Or.inl rfl)) (by decide))
  have _ := ((((h).2.2.1) 0 4095 ((wPortS 0 { wPort with nak := some 4095, nextSeq := 2, replay := [(0, 5), (1, 6)] }))) (by decide))
  have _ := (((((h).2.2.2.1) 0 ((wPortS 0 { wPort with fails := 9 }))) (by decide)) (by decide))
  have _ := (((((h).2.2.2.2.1) 0 ((wPortS 0 wPort))) (by decide)).1)
  have _ := (((((((h).2.2.2.2.1) 0 ((wPortS 0 { wPort with slot := 10 }))) (by decide)).2.1) (by decide)) (by decide))
  have _ := ((((((h).2.2.2.2.1) 0 ((wPortS 0 { wPort with slot := 7 }))) (by decide)).2.2) (by decide))
  have _ := ((((((h).2.2.2.2.2) 0 ((wPortS 0 { wPort with resend := [1, 2], replay := [(1, 5), (2, 6)] }))).1) 1 ([2])) (by decide))
  have _ := ((((((h).2.2.2.2.2) 0 ((wPortS 0 { wPort with replay := List.replicate 1024 (7, 0) }))).2.1) (by decide)) (by decide))
  have _ := ((((((((h).2.2.2.2.2) 0 ((wPortS 0 { wPort with ctrl := [[2, 1]] }))).2.2.1) ([2, 1]) ([])) (by decide)) (by decide)) (by decide))
  have _ := ((((((((h).2.2.2.2.2) 0 ((wPortS 0 { wPort with partnerQuarantined := true }))).2.2.2) (by decide)) (by decide)) (by decide)) (by decide))
  trivial

theorem meets_Transactions (h : Obligations.Transactions) : True := by
  have _ := (((((((((((((((((h).1) 0 (({ src := 5, vc := 0, flits := 1, bytes := bytesOf 32 0x28000000000000000000090101 ++ (Waybill.toNat { zWaybill with kind := 1 } |> bytesOf 64) } : RxMsg)) _ _ 40 ({ zQPair with part := 1, recv := true, slots := 4, peerNode := 5, peerPart := 1, peerQueue := 77, localQ := 20 }) ({ wQ with placed := some (0, 0) }) (Waybill.ofNat (Waybill.toNat { zWaybill with kind := 1 })) ([]) ({ ({ ((wPortS 0 { wPort with inbox := [{ src := 5, vc := 0, flits := 1, bytes := bytesOf 32 0x28000000000000000000090101 ++ (Waybill.toNat { zWaybill with kind := 1 } |> bytesOf 64) }], rxHeld := [1, 1, 1, 1] })) with part := { ((wPortS 0 { wPort with inbox := [{ src := 5, vc := 0, flits := 1, bytes := bytesOf 32 0x28000000000000000000090101 ++ (Waybill.toNat { zWaybill with kind := 1 } |> bytesOf 64) }], rxHeld := [1, 1, 1, 1] })).part with qpairs := [(40, { zQPair with part := 1, recv := true, slots := 4, peerNode := 5, peerPart := 1, peerQueue := 77, localQ := 20 })] } }) with stn := ({ w0 with stn := { (w0).stn with queues := [(20, { wQ with placed := some (0, 0) }), (21, wQ)] } }).stn })) rfl) (by decide)) rfl) rfl) (by decide)) (by decide)) (by decide)) rfl) (by decide)) (by decide)) (by decide)) (by decide)) (by decide)) (by decide))
  have _ := (((((((((((((((((((((((h).2.1) 0 (({ src := 5, vc := 0, flits := 1, bytes := bytesOf 32 0x28000000000000000000090101 ++ (bytesOf 64 (Waybill.toNat { zWaybill with kind := 0, format := 7, cols := 8, rows := 2, rowPitch := 16 }) ++ List.replicate 32 7) } : RxMsg)) _ _ 40 ({ zQPair with part := 1, recv := true, slots := 4, peerNode := 5, peerPart := 1, peerQueue := 77, localQ := 20, landingBytes := 256, landingAddr := 0x40 }) ({ wQ with placed := some (0, 0) }) _ _ _ _ 0 _ _ ({ ({ ((wPortS 0 { wPort with inbox := [{ src := 5, vc := 0, flits := 1, bytes := bytesOf 32 0x28000000000000000000090101 ++ (bytesOf 64 (Waybill.toNat { zWaybill with kind := 0, format := 7, cols := 8, rows := 2, rowPitch := 16 }) ++ List.replicate 32 7) }], rxHeld := [1, 1, 1, 1] })) with part := { ((wPortS 0 { wPort with inbox := [{ src := 5, vc := 0, flits := 1, bytes := bytesOf 32 0x28000000000000000000090101 ++ (bytesOf 64 (Waybill.toNat { zWaybill with kind := 0, format := 7, cols := 8, rows := 2, rowPitch := 16 }) ++ List.replicate 32 7) }], rxHeld := [1, 1, 1, 1] })).part with qpairs := [(40, { zQPair with part := 1, recv := true, slots := 4, peerNode := 5, peerPart := 1, peerQueue := 77, localQ := 20, landingBytes := 256, landingAddr := 0x40 })] } }) with stn := ({ w0 with stn := { (w0).stn with queues := [(20, { wQ with placed := some (0, 0) }), (21, wQ)] } }).stn })) rfl) (by decide)) rfl) rfl) (by decide)) (by decide)) (by decide)) rfl) rfl) rfl) rfl) (by decide)) rfl) rfl) (by decide)) (by decide)) (by decide)) rfl) rfl) (by decide))
  have _ := ((((((((((((((((((h).2.2.1) 0 (({ src := 5, vc := 0, flits := 1, bytes := bytesOf 32 0x28000000000000000000090101 ++ (bytesOf 64 (Waybill.toNat { zWaybill with kind := 0, format := 7, cols := 8, rows := 2, rowPitch := 16 }) ++ List.replicate 32 7) } : RxMsg)) _ _ 40 ({ zQPair with part := 1, recv := true, slots := 4, peerNode := 5, peerPart := 1, peerQueue := 77, localQ := 20, landingBytes := 0, landingAddr := 0x40 }) ({ wQ with placed := some (0, 0), consumer := .station 3 0 }) _ _ _ wStation ({ ({ ((wPortS 0 { wPort with inbox := [{ src := 5, vc := 0, flits := 1, bytes := bytesOf 32 0x28000000000000000000090101 ++ (bytesOf 64 (Waybill.toNat { zWaybill with kind := 0, format := 7, cols := 8, rows := 2, rowPitch := 16 }) ++ List.replicate 32 7) }], rxHeld := [1, 1, 1, 1] })) with part := { ((wPortS 0 { wPort with inbox := [{ src := 5, vc := 0, flits := 1, bytes := bytesOf 32 0x28000000000000000000090101 ++ (bytesOf 64 (Waybill.toNat { zWaybill with kind := 0, format := 7, cols := 8, rows := 2, rowPitch := 16 }) ++ List.replicate 32 7) }], rxHeld := [1, 1, 1, 1] })).part with qpairs := [(40, { zQPair with part := 1, recv := true, slots := 4, peerNode := 5, peerPart := 1, peerQueue := 77, localQ := 20, landingBytes := 0, landingAddr := 0x40 })] } }) with stn := ({ { w0 with stn := { (w0).stn with queues := [(20, { wQ with placed := some (0, 0), consumer := .station 3 0 }), (21, wQ)] } } with stn := { ({ w0 with stn := { (w0).stn with queues := [(20, { wQ with placed := some (0, 0), consumer := .station 3 0 }), (21, wQ)] } }).stn with stations := [(stnKey 1 3, wStation)] } }).stn })) rfl) (by decide)) rfl) rfl) (by decide)) (by decide)) (by decide)) rfl) rfl) rfl) rfl) (by decide)) (by decide)) rfl) (by decide))
  have _ := ((((h).2.2.2.1) 0 ({ (wPortS 0 { wPort with inbox := [{ src := 5, vc := 0, flits := 1, bytes := bytesOf 32 0x28000000000000000000090101 ++ (bytesOf 64 (Waybill.toNat { zWaybill with kind := 0, format := 7, cols := 8, rows := 2, rowPitch := 16 }) ++ List.replicate 32 7) }], rxHeld := [1, 1, 1, 1] }) with part := { ((wPortS 0 { wPort with inbox := [{ src := 5, vc := 0, flits := 1, bytes := bytesOf 32 0x28000000000000000000090101 ++ (bytesOf 64 (Waybill.toNat { zWaybill with kind := 0, format := 7, cols := 8, rows := 2, rowPitch := 16 }) ++ List.replicate 32 7) }], rxHeld := [1, 1, 1, 1] })).part with parts := [(1, { wPart with frozen := true })] } })) (by decide))
  have _ := ((((((((h).2.2.2.2.1) 0 (({ src := 5, vc := 1, flits := 1, bytes := bytesOf 32 0x4d000000000000000000090102 ++ [] } : RxMsg)) _ ({ tag := 9, part := 1, gen := 0, use := .qpSend 40 }) ([]) 40 ({ zQPair with part := 1, recv := false, slots := 4, peerNode := 5, peerPart := 1, peerQueue := 77, unacked := [(9, { zWaybill with kind := 1, fenceId := 2, fenceOp := 1, fenceDelta := 3 }, false)] }) ((9, { zWaybill with kind := 1, fenceId := 2, fenceOp := 1, fenceDelta := 3 }, false)) ([]) ({ ((wPortS 0 { wPort with inbox := [{ src := 5, vc := 1, flits := 1, bytes := bytesOf 32 0x4d000000000000000000090102 ++ [] }], rxHeld := [1, 1, 1, 1], outstanding := [{ tag := 9, part := 1, gen := 0, use := .qpSend 40 }] })) with part := { ((wPortS 0 { wPort with inbox := [{ src := 5, vc := 1, flits := 1, bytes := bytesOf 32 0x4d000000000000000000090102 ++ [] }], rxHeld := [1, 1, 1, 1], outstanding := [{ tag := 9, part := 1, gen := 0, use := .qpSend 40 }] })).part with qpairs := [(40, { zQPair with part := 1, recv := false, slots := 4, peerNode := 5, peerPart := 1, peerQueue := 77, unacked := [(9, { zWaybill with kind := 1, fenceId := 2, fenceOp := 1, fenceDelta := 3 }, false)] })] } })) rfl) (by decide)) (by decide)) (by decide)) (by decide))
  have _ := (((((h).2.2.2.2.2.1) 0 (({ src := 5, vc := 1, flits := 1, bytes := bytesOf 32 0x50000004d000000000000000000000103 ++ [] } : RxMsg)) _ _ ({ ((wPortS 0 { wPort with inbox := [{ src := 5, vc := 1, flits := 1, bytes := bytesOf 32 0x50000004d000000000000000000000103 ++ [] }], rxHeld := [1, 1, 1, 1] })) with part := { ((wPortS 0 { wPort with inbox := [{ src := 5, vc := 1, flits := 1, bytes := bytesOf 32 0x50000004d000000000000000000000103 ++ [] }], rxHeld := [1, 1, 1, 1] })).part with qpairs := [(40, { zQPair with part := 1, recv := false, slots := 4, peerNode := 5, peerPart := 1, peerQueue := 77, returned := 3, credits := 1 })] } })) rfl) rfl)
  have _ := ((((((((h).2.2.2.2.2.2.1) 40 ({ zQPair with part := 1, recv := true, slots := 4, peerNode := 5, peerPart := 1, peerQueue := 77, landingFence := 1, f0 := 4, count := 1 }) ({ ((wPortS 0 { wPort with flight := 1 })) with part := { ((wPortS 0 { wPort with flight := 1 })).part with qpairs := [(40, { zQPair with part := 1, recv := true, slots := 4, peerNode := 5, peerPart := 1, peerQueue := 77, landingFence := 1, f0 := 4, count := 1 })] } })) (by decide)) (by decide)) (by decide)) (by decide)) (by decide))
  have _ := ((((((((((h).2.2.2.2.2.2.2.1) 12 (({ src := 65535, vc := 0, flits := 1, bytes := bytesOf 32 0x1234000000000000002000000000000700000000000800090104 ++ [] } : RxMsg)) _ _ ({ ((wPortS 12 { wPort with inbox := [{ src := 65535, vc := 0, flits := 1, bytes := bytesOf 32 0x1234000000000000002000000000000700000000000800090104 ++ [] }], rxHeld := [1, 1, 1, 1] })) with xlt := { ((wPortS 12 { wPort with inbox := [{ src := 65535, vc := 0, flits := 1, bytes := bytesOf 32 0x1234000000000000002000000000000700000000000800090104 ++ [] }], rxHeld := [1, 1, 1, 1] })).xlt with keys := [(3, 0x1234)], windows := [(7, (openWindow (winDefOf 0x200000000000010000000000301e0ffff0000000000000007)))] } })) (by decide)) rfl) rfl).1) _) rfl) (by decide))
  have _ := (((((((((h).2.2.2.2.2.2.2.1) 12 (({ src := 65535, vc := 0, flits := 1, bytes := bytesOf 32 0x5000000000000002000000000000700000000000800090104 ++ [] } : RxMsg)) _ _ ({ ((wPortS 12 { wPort with inbox := [{ src := 65535, vc := 0, flits := 1, bytes := bytesOf 32 0x5000000000000002000000000000700000000000800090104 ++ [] }], rxHeld := [1, 1, 1, 1] })) with xlt := { ((wPortS 12 { wPort with inbox := [{ src := 65535, vc := 0, flits := 1, bytes := bytesOf 32 0x5000000000000002000000000000700000000000800090104 ++ [] }], rxHeld := [1, 1, 1, 1] })).xlt with keys := [(3, 0x1234)], windows := [(7, (openWindow (winDefOf 0x200000000000010000000000301e0ffff0000000000000007)))] } })) (by decide)) rfl) rfl).2) _) rfl)
  have _ := (((((((((((h).2.2.2.2.2.2.2.2.1) 12 (({ src := 65535, vc := 0, flits := 1, bytes := bytesOf 32 0x1234000000000000002000000000000700000000000400090105 ++ [1, 2, 3, 4] } : RxMsg)) _ _ ({ ((wPortS 12 { wPort with inbox := [{ src := 65535, vc := 0, flits := 1, bytes := bytesOf 32 0x1234000000000000002000000000000700000000000400090105 ++ [1, 2, 3, 4] }], rxHeld := [1, 1, 1, 1] })) with xlt := { ((wPortS 12 { wPort with inbox := [{ src := 65535, vc := 0, flits := 1, bytes := bytesOf 32 0x1234000000000000002000000000000700000000000400090105 ++ [1, 2, 3, 4] }], rxHeld := [1, 1, 1, 1] })).xlt with keys := [(3, 0x1234)], windows := [(7, (openWindow (winDefOf 0x200000000000010000000000301e0ffff0000000000000007)))] } })) (by decide)) (by decide)) rfl) rfl).1) _) rfl) (by decide))
  have _ := ((((((((((h).2.2.2.2.2.2.2.2.1) 12 (({ src := 65535, vc := 0, flits := 1, bytes := bytesOf 32 0x6000000000000002000000000000700000000000400090105 ++ [1, 2, 3, 4] } : RxMsg)) _ _ ({ ((wPortS 12 { wPort with inbox := [{ src := 65535, vc := 0, flits := 1, bytes := bytesOf 32 0x6000000000000002000000000000700000000000400090105 ++ [1, 2, 3, 4] }], rxHeld := [1, 1, 1, 1] })) with xlt := { ((wPortS 12 { wPort with inbox := [{ src := 65535, vc := 0, flits := 1, bytes := bytesOf 32 0x6000000000000002000000000000700000000000400090105 ++ [1, 2, 3, 4] }], rxHeld := [1, 1, 1, 1] })).xlt with keys := [(3, 0x1234)], windows := [(7, (openWindow (winDefOf 0x200000000000010000000000301e0ffff0000000000000007)))] } })) (by decide)) (by decide)) rfl) rfl).2) _) rfl)
  have _ := ((((((((((((((h).2.2.2.2.2.2.2.2.2.1) 12 (({ src := 65535, vc := 0, flits := 1, bytes := bytesOf 32 0x1234000000000000002000000000000700000000000000090106 ++ bytesOf 16 0xf00000030000000000000000 } : RxMsg)) _ _ _ 0 _ _ ({ ((wPortS 12 { wPort with inbox := [{ src := 65535, vc := 0, flits := 1, bytes := bytesOf 32 0x1234000000000000002000000000000700000000000000090106 ++ bytesOf 16 0xf00000030000000000000000 }], rxHeld := [1, 1, 1, 1] })) with xlt := { ((wPortS 12 { wPort with inbox := [{ src := 65535, vc := 0, flits := 1, bytes := bytesOf 32 0x1234000000000000002000000000000700000000000000090106 ++ bytesOf 16 0xf00000030000000000000000 }], rxHeld := [1, 1, 1, 1] })).xlt with keys := [(3, 0x1234)], windows := [(7, (openWindow (winDefOf 0x200000000000010000000000301e0ffff0000000000000007)))] } })) (by decide)) (by decide)) rfl) rfl) rfl) (by decide)) (by decide)) rfl).1) rfl) (by decide))
  have _ := ((((((((((((((h).2.2.2.2.2.2.2.2.2.1) 12 (({ src := 65535, vc := 0, flits := 1, bytes := bytesOf 32 0x6000000000000002000000000000700000000000000090106 ++ bytesOf 16 0xf00000030000000000000000 } : RxMsg)) _ _ _ 0 _ ([]) ({ ((wPortS 12 { wPort with inbox := [{ src := 65535, vc := 0, flits := 1, bytes := bytesOf 32 0x6000000000000002000000000000700000000000000090106 ++ bytesOf 16 0xf00000030000000000000000 }], rxHeld := [1, 1, 1, 1] })) with xlt := { ((wPortS 12 { wPort with inbox := [{ src := 65535, vc := 0, flits := 1, bytes := bytesOf 32 0x6000000000000002000000000000700000000000000090106 ++ bytesOf 16 0xf00000030000000000000000 }], rxHeld := [1, 1, 1, 1] })).xlt with keys := [(3, 0x1234)], windows := [(7, (openWindow (winDefOf 0x200000000000010000000000301e0ffff0000000000000007)))] } })) (by decide)) (by decide)) rfl) rfl) rfl) (by decide)) (by decide)) rfl).2) _) rfl)
  have _ := ((((h).2.2.2.2.2.2.2.2.2.2.1) 0 (winReq 0 5 0 8) 9 .linkUnavailable ((wPortS 0 wPort))) (by decide))
  have _ := ((((((h).2.2.2.2.2.2.2.2.2.2.2.1) 2 1 (List.replicate 64 0x5A) ({ port := 0, tag := 9, node := 5, part := 1, window := 7, kind := 0, dpas := [64, 65], left := 2 }) ({ ((wPortS 0 wPort)) with xlt := { ((wPortS 0 wPort)).xlt with winOps := [(2, { port := 0, tag := 9, node := 5, part := 1, window := 7, kind := 0, dpas := [64, 65], left := 2 })] } })) (by decide)) (by decide)) (by decide))
  have _ := ((((((((h).2.2.2.2.2.2.2.2.2.2.2.2.1) 2 1 (List.replicate 64 0x5A) ({ port := 0, tag := 9, node := 5, part := 1, window := 7, kind := 0, dpas := [64, 65], left := 1 }) _ ({ ((wPortS 0 wPort)) with xlt := { ((wPortS 0 wPort)).xlt with winOps := [(2, { port := 0, tag := 9, node := 5, part := 1, window := 7, kind := 0, dpas := [64, 65], left := 1 })] } })) (by decide)) (by decide)) (by decide)) (by decide)) rfl)
  have _ := ((((((((h).2.2.2.2.2.2.2.2.2.2.2.2.2.1) 2 1 ({ port := 0, tag := 9, node := 5, part := 1, window := 7, kind := 1, dpas := [64, 65], left := 1 }) _ ({ ((wPortS 0 wPort)) with xlt := { ((wPortS 0 wPort)).xlt with winOps := [(2, { port := 0, tag := 9, node := 5, part := 1, window := 7, kind := 1, dpas := [64, 65], left := 1 })] } })) (by decide)) (by decide)) (by decide)) (by decide)) rfl)
  have _ := (((((((h).2.2.2.2.2.2.2.2.2.2.2.2.2.2.1) 0 (({ src := 5, vc := 1, flits := 1, bytes := bytesOf 32 0x90107 ++ [1, 2] } : RxMsg)) _ ({ tag := 9, part := 1, gen := 0, use := .hostRead (some 0x400) }) ([]) 0x400 ((wPortS 0 { wPort with inbox := [{ src := 5, vc := 1, flits := 1, bytes := bytesOf 32 0x90107 ++ [1, 2] }], rxHeld := [1, 1, 1, 1], outstanding := [{ tag := 9, part := 1, gen := 0, use := .hostRead (some 0x400) }] }))) rfl) (by decide)) (by decide)) (by decide))
  have _ := (((((((h).2.2.2.2.2.2.2.2.2.2.2.2.2.2.2.1) 0 (({ src := 5, vc := 1, flits := 1, bytes := bytesOf 32 0x90107 ++ [1, 2] } : RxMsg)) _ ({ tag := 9, part := 1, gen := 0, use := .window 0x2001 0x400 3 }) ([]) 0x2001 0x400 3 ((wPortS 0 { wPort with inbox := [{ src := 5, vc := 1, flits := 1, bytes := bytesOf 32 0x90107 ++ [1, 2] }], rxHeld := [1, 1, 1, 1], outstanding := [{ tag := 9, part := 1, gen := 0, use := .window 0x2001 0x400 3 }] }))) rfl) (by decide)) (by decide)) (by decide))
  have _ := (((((h).2.2.2.2.2.2.2.2.2.2.2.2.2.2.2.2.1) 0x2001 1 0x400 3 0 ([1]) ({ (w0) with dram := { (w0).dram with txns := [(3, .engine 0x2001)] } })) (by decide)).1)
  have _ := ((((((((h).2.2.2.2.2.2.2.2.2.2.2.2.2.2.2.2.1) 0x2001 1 0x400 3 Code.windowKey.link ([]) ({ (w0) with dram := { (w0).dram with txns := [(3, .engine 0x2001)] } })) (by decide)).2.1) .windowKey) (by decide)) (by decide))
  have _ := (((((((h).2.2.2.2.2.2.2.2.2.2.2.2.2.2.2.2.1) 0x2001 1 0x400 3 1 ([]) ({ (w0) with dram := { (w0).dram with txns := [(3, .engine 0x2001)] } })) (by decide)).2.2) (by decide)) (by decide))
  have _ := (((((h).2.2.2.2.2.2.2.2.2.2.2.2.2.2.2.2.2.1) 12 1 0x1000 8 (some 5) ((wPortS 12 wPort))) (by decide)) (by decide))
  have _ := (((((h).2.2.2.2.2.2.2.2.2.2.2.2.2.2.2.2.2.2.1) 12 1 0x1000 ([1, 2]) ((wPortS 12 wPort))) (by decide)) (by decide))
  have _ := (((((h).2.2.2.2.2.2.2.2.2.2.2.2.2.2.2.2.2.2.2.1) 12 1 6 ((wPortS 12 wPort))) (by decide)) (by decide))
  have _ := ((((((((h).2.2.2.2.2.2.2.2.2.2.2.2.2.2.2.2.2.2.2.2.1) 12 (({ src := 5, vc := 0, flits := 1, bytes := bytesOf 32 0x110080000000000000000000000000000010a ++ bytesOf 8 0x10000000 } : RxMsg)) _ _ ((wPortS 12 { wPort with inbox := [{ src := 5, vc := 0, flits := 1, bytes := bytesOf 32 0x110080000000000000000000000000000010a ++ bytesOf 8 0x10000000 }], rxHeld := [1, 1, 1, 1] }))) rfl) rfl) (by decide)) (by decide)) (by decide))
  have _ := (((((h).2.2.2.2.2.2.2.2.2.2.2.2.2.2.2.2.2.2.2.2.2) 12 (({ src := 5, vc := 0, flits := 1, bytes := bytesOf 32 0x110080000000000000000000000040000010b ++ [] } : RxMsg)) _ _ ((wPortS 12 { wPort with inbox := [{ src := 5, vc := 0, flits := 1, bytes := bytesOf 32 0x110080000000000000000000000040000010b ++ [] }], rxHeld := [1, 1, 1, 1] }))) rfl) rfl)
  trivial

theorem meets_PartitionsAndBlocks (h : Obligations.PartitionsAndBlocks) : True := by
  have _ := ((((((((((((((((((((((h).1) (wMsg 0) 0xffff00140000000a00000064000000640000000600013f02 2 ({ w0 with dram := { (w0).dram with dimmGb := 64 } })) (by decide)) ⟨rfl, rfl, noPart rfl⟩) (by decide)) (by decide)) (by decide)) (by decide)) (by decide)) (by decide)) (by decide)) (by decide)) (by decide)) (by decide)) (by decide)) (by decide)) (by decide)) (by decide)) (by decide)) (by decide)) (by decide))
  have _ := ((((((((((((((h).2.1) (wMsg 0) 0x90501 1 5 9 wPart w0) (by decide)) (by decide)) (by decide)) ⟨rfl, rfl, notEvac (y := wPart) rfl rfl⟩) (by decide)) (by decide)) (by decide)) (by decide)).1) (by decide)) (by decide))
  have _ := ((((((((((((((h).2.1) (wMsg 0) 0x10501 1 5 1 wPart w0) (by decide)) (by decide)) (by decide)) ⟨rfl, rfl, notEvac (y := wPart) rfl rfl⟩) (by decide)) (by decide)) (by decide)) (by decide)).2.1) (by decide)) (by decide))
  have _ := (((((((((((((h).2.1) (wMsg 0) 0x93c01 1 60 9 wPart w0) (by decide)) (by decide)) (by decide)) ⟨rfl, rfl, notEvac (y := wPart) rfl rfl⟩) (by decide)) (by decide)) (by decide)) (by decide)).2.2) (by decide))
  have _ := ((((((((((((((h).2.2.1) (wMsg 0) 0x10001 1 1 1 wPart w0) (by decide)) (by decide)) ⟨rfl, rfl, notEvac (y := wPart) rfl rfl⟩) (by decide)) (by decide)) (by decide)) (by decide)) (by decide)) (by decide)) (by decide)) (by decide))
  have _ := (((((h).2.2.2.1) 0 (({ part := 1, name := 0, phys := 0, epoch := 0, wiping := true, ref := wMsg 9 } : BlockRel)) ([]) ({ (w0) with part := { (w0).part with releases := [{ part := 1, name := 0, phys := 0, epoch := 0, wiping := true, ref := wMsg 9 }] } })) (by decide)) (by decide))
  have _ := ((((h).2.2.2.2.1) 1 0 0 w0) (by decide))
  have _ := (((((((h).2.2.2.2.2.1) 1 ({ wPart with unretired := [3, 4], epoch := 5 }) 3 ([4]) ({ w0 with part := { (w0).part with parts := [(1, { wPart with unretired := [3, 4], epoch := 5 })] } })) (by decide)) (by decide)) (by decide)) (by decide))
  have _ := ((((((h).2.2.2.2.2.2.1) 1 ({ wPart with unretired := [0, 4], epoch := 5 }) 0 ([4]) ({ { w0 with part := { (w0).part with parts := [(1, { wPart with unretired := [0, 4], epoch := 5 })] } } with stn := { ({ w0 with part := { (w0).part with parts := [(1, { wPart with unretired := [0, 4], epoch := 5 })] } }).stn with queues := [(20, { wQ with hot := [{ zWaybill with kind := 1 }] }), (21, wQ)] } })) (by decide)) (by decide)) (by decide))
  have _ := ((((((((((h).2.2.2.2.2.2.2.1) (wMsg 0) 0x1 1 ({ wPart with blockMap := [] }) ({ { w0 with host := { (w0).host with contexts := [] } } with part := { ({ w0 with host := { (w0).host with contexts := [] } }).part with parts := [(1, { wPart with blockMap := [] })] } })) (by decide)) ⟨rfl, rfl, notEvac (y := { wPart with blockMap := [] }) rfl rfl⟩) (by decide)) (by decide)) (by decide)) (by decide)) (by decide))
  have _ := ((((((((h).2.2.2.2.2.2.2.2.1) 1 ({ wPart with destroying := some (wMsg 9) }) _ ({ w0 with part := { (w0).part with parts := [(1, { wPart with destroying := some (wMsg 9) })] } })) (by decide)) rfl) (by decide)) (by decide)) (by decide))
  have _ := ((((h).2.2.2.2.2.2.2.2.2.2) 1048576 0 ([(0, 4), (262144, 3)]) 20 ((131072, 4))) (by decide))
  trivial

theorem meets_MovesAndQueuePairs (h : Obligations.MovesAndQueuePairs) : True := by
  have _ := ((((((((((((((((h).1) (wMsg 0) 0x10501 1 5 1 1 wPart w0) (by decide)) (by decide)) (by decide)) ⟨rfl, rfl, notEvac (y := wPart) rfl rfl⟩) (by decide)) (by decide)) (by decide)) (by decide)) (by decide)) (by decide)) (by decide)) (by decide)) (by decide))
  have _ := (((((h).2.1) 1 ({ part := 1, name := 1, src := 1, dst := 5, step := 3, ref := wMsg 9 }) ({ (w0) with part := { (w0).part with moves := [{ part := 1, name := 1, src := 1, dst := 5, step := 3, ref := wMsg 9 }] } })) (by decide)) (by decide))
  have _ := ((((h).2.2.1) 1 ({ part := 1, name := 1, src := 1, dst := 5, step := 4, ref := wMsg 9 }) ({ (w0) with part := { (w0).part with moves := [{ part := 1, name := 1, src := 1, dst := 5, step := 4, ref := wMsg 9 }] } })) (by decide))
  have _ := (((((h).2.2.2.1) 1 (({ part := 1, name := 1, src := 1, dst := 5, step := 6, ref := wMsg 9 } : BlockMv)) ([]) ({ (w0) with part := { (w0).part with moves := [{ part := 1, name := 1, src := 1, dst := 5, step := 6, ref := wMsg 9 }] } })) (by decide)) (by decide))
  have _ := ((((((((((((((((((h).2.2.2.2.1) (wMsg 0) 0x300010001 1 1 3 ({ wStation with inQ := [], anchor := some (1, 0) }) wPart 1 0 1 ({ w0 with stn := { (w0).stn with stations := [(stnKey 1 3, { wStation with inQ := [], anchor := some (1, 0) })] } })) (by decide)) (by decide)) (by decide)) ⟨rfl, rfl, notEvac (y := wPart) rfl rfl⟩) (by decide)) (by decide)) (by decide)) (by decide)) (by decide)) (by decide)) (by decide)) (by decide)) (by decide)) (by decide)) (by decide))
  have _ := (((((((((h).2.2.2.2.2.1) 1 3 ({ part := 1, station := 3, newAnchor := 1, newSlot := 2, ref := wMsg 9 }) ([]) ({ wStation with inQ := [], anchor := some (1, 0) }) _ _ _ ({ ({ w0 with stn := { (w0).stn with stations := [(stnKey 1 3, { wStation with inQ := [], anchor := some (1, 0) })] } }) with part := { ({ w0 with stn := { (w0).stn with stations := [(stnKey 1 3, { wStation with inQ := [], anchor := some (1, 0) })] } }).part with stationMoves := [{ part := 1, station := 3, newAnchor := 1, newSlot := 2, ref := wMsg 9 }] } })) (by decide)) (by decide)) (by decide)) rfl) rfl) rfl)
  have _ := ((((((((((((h).2.2.2.2.2.2.1) (wMsg 0) 0x70301 1 wPart w0) (by decide)) ⟨rfl, rfl, notEvac (y := wPart) rfl rfl⟩) (by decide)) (by decide)) (by decide)) (by decide)) (by decide)) (by decide)) (by decide))
  have _ := ((((((((((((((h).2.2.2.2.2.2.2.1) (wMsg 0) 0x70301 1 wPart w0) (by decide)) ⟨rfl, rfl, notEvac (y := wPart) rfl rfl⟩) (by decide)) (by decide)) (by decide)) (by decide)) (by decide)) (by decide)) (by decide)).1) (by decide))
  have _ := ((((((((((((((h).2.2.2.2.2.2.2.1) (wMsg 0) 0xc0201 1 wPart ({ w0 with part := { (w0).part with parts := [(1, wPart), (2, { wPart with portShare := [(2, 5)] })] } })) (by decide)) ⟨rfl, rfl, notEvac (y := wPart) rfl rfl⟩) (by decide)) (by decide)) (by decide)) (by decide)) (by decide)) (by decide)) (by decide)).2) (by decide))
  have _ := (((((((((((((((((((h).2.2.2.2.2.2.2.2.1) (wMsg 0) 0x4d000000010005080201000000 1 ({ wPart with portShare := [(2, 5)] }) ({ w0 with part := { (w0).part with parts := [(1, { wPart with portShare := [(2, 5)] })] } })) (by decide)) ⟨rfl, rfl, notEvac (y := { wPart with portShare := [(2, 5)] }) rfl rfl⟩) (by decide)) (by decide)) (by decide)) (by decide)) (by decide)) (by decide)) (by decide)) (by decide)) (by decide)) (by decide)) (by decide)) (by decide)) ((State.pickQueue ({ w0 with part := { (w0).part with parts := [(1, { wPart with portShare := [(2, 5)] })] } })).get (pickSome (by decide) (by decide)))) (by exact gotId (pickSome (by decide) (by decide))))
  have _ := ((((((((((((((h).2.2.2.2.2.2.2.2.2.1) (wMsg 0) 0x4e000200060000002800000001 1 40 ({ zQPair with part := 1, recv := false, slots := 4, peerNode := 5, peerPart := 1, peerQueue := 77, credits := 2 }) wPart ({ (w0) with part := { (w0).part with qpairs := [(40, { zQPair with part := 1, recv := false, slots := 4, peerNode := 5, peerPart := 1, peerQueue := 77, credits := 2 })] } })) (by decide)) (by decide)) ⟨rfl, rfl, notEvac (y := wPart) rfl rfl⟩) (by decide)) (by decide)) (by decide)) (by decide)) (by decide)) (by decide)) (by decide)) (by decide))
  have _ := ((((((((h).2.2.2.2.2.2.2.2.2.2.1) 40 ({ zQPair with part := 1, recv := false, slots := 4, peerNode := 5, peerPart := 1, peerQueue := 77, retarget := [(wMsg 9, 7)] }) (wMsg 9) 7 ([]) ({ (w0) with part := { (w0).part with qpairs := [(40, { zQPair with part := 1, recv := false, slots := 4, peerNode := 5, peerPart := 1, peerQueue := 77, retarget := [(wMsg 9, 7)] })] } })) (by decide)) (by decide)).1) (by decide)) (by decide))
  have _ := (((((((h).2.2.2.2.2.2.2.2.2.2.1) 40 ({ zQPair with part := 1, recv := false, slots := 4, peerNode := 5, peerPart := 1, peerQueue := 77, retarget := [(wMsg 9, 7)], buffer := [{ { zWaybill with kind := 1, fenceId := 2, fenceOp := 1, fenceDelta := 3 } with epoch := 6 }] }) (wMsg 9) 7 ([]) ({ (w0) with part := { (w0).part with qpairs := [(40, { zQPair with part := 1, recv := false, slots := 4, peerNode := 5, peerPart := 1, peerQueue := 77, retarget := [(wMsg 9, 7)], buffer := [{ { zWaybill with kind := 1, fenceId := 2, fenceOp := 1, fenceDelta := 3 } with epoch := 6 }] })] } })) (by decide)) (by decide)).2) (by decide))
  have _ := ((((((((((((h).2.2.2.2.2.2.2.2.2.2.2) (wMsg 0) 0x2800000001 1 40 ({ zQPair with part := 1, recv := true, slots := 4, peerNode := 5, peerPart := 1, peerQueue := 77, returned := 3, count := 3 }) ({ (w0) with part := { (w0).part with qpairs := [(40, { zQPair with part := 1, recv := true, slots := 4, peerNode := 5, peerPart := 1, peerQueue := 77, returned := 3, count := 3 })] } })) (by decide)) (by decide)) ⟨rfl, rfl, notEvac (y := wPart) rfl rfl⟩) (by decide)) (by decide)) (by decide)).1) (by decide)) (by decide))
  have _ := ((((((((((((h).2.2.2.2.2.2.2.2.2.2.2) (wMsg 0) 0x2800000001 1 40 ({ zQPair with part := 1, recv := true, slots := 4, peerNode := 5, peerPart := 1, peerQueue := 77, returned := 2, count := 3 }) ({ (w0) with part := { (w0).part with qpairs := [(40, { zQPair with part := 1, recv := true, slots := 4, peerNode := 5, peerPart := 1, peerQueue := 77, returned := 2, count := 3 })] } })) (by decide)) (by decide)) ⟨rfl, rfl, notEvac (y := wPart) rfl rfl⟩) (by decide)) (by decide)) (by decide)).2.1) (by decide)) (by decide))
  have _ := ((((((((((((((h).2.2.2.2.2.2.2.2.2.2.2) (wMsg 0) 0x2800000001 1 40 ({ zQPair with part := 1, recv := false, slots := 4, peerNode := 5, peerPart := 1, peerQueue := 77 }) ({ (w0) with part := { (w0).part with qpairs := [(40, { zQPair with part := 1, recv := false, slots := 4, peerNode := 5, peerPart := 1, peerQueue := 77 })] } })) (by decide)) (by decide)) ⟨rfl, rfl, notEvac (y := wPart) rfl rfl⟩) (by decide)) (by decide)) (by decide)).2.2.1) (by decide)) (by decide)) (by decide)) (by decide))
  have _ := ((((((((((((h).2.2.2.2.2.2.2.2.2.2.2) (wMsg 0) 0x2800000001 1 40 ({ zQPair with part := 1, recv := false, slots := 4, peerNode := 5, peerPart := 1, peerQueue := 77, buffer := [{ zWaybill with kind := 1, fenceId := 2, fenceOp := 1, fenceDelta := 3 }] }) ({ (w0) with part := { (w0).part with qpairs := [(40, { zQPair with part := 1, recv := false, slots := 4, peerNode := 5, peerPart := 1, peerQueue := 77, buffer := [{ zWaybill with kind := 1, fenceId := 2, fenceOp := 1, fenceDelta := 3 }] })] } })) (by decide)) (by decide)) ⟨rfl, rfl, notEvac (y := wPart) rfl rfl⟩) (by decide)) (by decide)) (by decide)).2.2.2) (by decide)) (by decide))
  trivial

theorem meets_SessionCommands (h : Obligations.SessionCommands) : True := by
  have _ := ((((((((((((((((h).1) 5 (0x2000000000000000400050010000400400000002000000064000000010000000100001000000000030000000100000008000000150000001400000002#512) _ 18 wSteward2 ((State.pickQueue (wCmdIn ({ w0 with svc := { w0.svc with stewards := [(18, wSteward2)] }, host := { w0.host with objects := [(65537, { wObj with length := 1048576 })] }, stn := { w0.stn with queues := [(20, { wQ with placed := some (0, 0) }), (21, wQ)] } }) 0x20 64 0x2000000000000000400050010000400400000002000000064000000010000000100001000000000030000000100000008000000150000001400000002)).get (pickSome (by decide) (by decide))) (((State.setQueue { (wCmdIn ({ w0 with svc := { w0.svc with stewards := [(18, wSteward2)] }, host := { w0.host with objects := [(65537, { wObj with length := 1048576 })] }, stn := { w0.stn with queues := [(20, { wQ with placed := some (0, 0) }), (21, wQ)] } }) 0x20 64 0x2000000000000000400050010000400400000002000000064000000010000000100001000000000030000000100000008000000150000001400000002) with free := (wCmdIn ({ w0 with svc := { w0.svc with stewards := [(18, wSteward2)] }, host := { w0.host with objects := [(65537, { wObj with length := 1048576 })] }, stn := { w0.stn with queues := [(20, { wQ with placed := some (0, 0) }), (21, wQ)] } }) 0x20 64 0x2000000000000000400050010000400400000002000000064000000010000000100001000000000030000000100000008000000150000001400000002).free + 1 } ((State.pickQueue (wCmdIn ({ w0 with svc := { w0.svc with stewards := [(18, wSteward2)] }, host := { w0.host with objects := [(65537, { wObj with length := 1048576 })] }, stn := { w0.stn with queues := [(20, { wQ with placed := some (0, 0) }), (21, wQ)] } }) 0x20 64 0x2000000000000000400050010000400400000002000000064000000010000000100001000000000030000000100000008000000150000001400000002)).get (pickSome (by decide) (by decide))) (serviceQueue 1 0 0 .none)).pickQueue).get (pickTwo (s := wCmdIn ({ w0 with svc := { w0.svc with stewards := [(18, wSteward2)] }, host := { w0.host with objects := [(65537, { wObj with length := 1048576 })] }, stn := { w0.stn with queues := [(20, { wQ with placed := some (0, 0) }), (21, wQ)] } }) 0x20 64 0x2000000000000000400050010000400400000002000000064000000010000000100001000000000030000000100000008000000150000001400000002) rfl rfl (by decide)).1) (wCmdIn ({ w0 with svc := { w0.svc with stewards := [(18, wSteward2)] }, host := { w0.host with objects := [(65537, { wObj with length := 1048576 })] }, stn := { w0.stn with queues := [(20, { wQ with placed := some (0, 0) }), (21, wQ)] } }) 0x20 64 0x2000000000000000400050010000400400000002000000064000000010000000100001000000000030000000100000008000000150000001400000002)) ⟨rfl, rfl, by decide⟩) (by decide)) (by decide)) (by decide)) (by decide)) (by decide)) (by decide)) (by decide)) (by decide)) (by decide)) (by exact gotId (pickSome (by decide) (by decide)))) (by exact gotId (pickTwo (s := wCmdIn ({ w0 with svc := { w0.svc with stewards := [(18, wSteward2)] }, host := { w0.host with objects := [(65537, { wObj with length := 1048576 })] }, stn := { w0.stn with queues := [(20, { wQ with placed := some (0, 0) }), (21, wQ)] } }) 0x20 64 0x2000000000000000400050010000400400000002000000064000000010000000100001000000000030000000100000008000000150000001400000002) rfl rfl (by decide)).1)) ((pickTwo (s := wCmdIn ({ w0 with svc := { w0.svc with stewards := [(18, wSteward2)] }, host := { w0.host with objects := [(65537, { wObj with length := 1048576 })] }, stn := { w0.stn with queues := [(20, { wQ with placed := some (0, 0) }), (21, wQ)] } }) 0x20 64 0x2000000000000000400050010000400400000002000000064000000010000000100001000000000030000000100000008000000150000001400000002) rfl rfl (by decide)).2 _ (by exact gotId (pickTwo (s := wCmdIn ({ w0 with svc := { w0.svc with stewards := [(18, wSteward2)] }, host := { w0.host with objects := [(65537, { wObj with length := 1048576 })] }, stn := { w0.stn with queues := [(20, { wQ with placed := some (0, 0) }), (21, wQ)] } }) 0x20 64 0x2000000000000000400050010000400400000002000000064000000010000000100001000000000030000000100000008000000150000001400000002) rfl rfl (by decide)).1)))
  have _ := ((((((((h).2.1) 5 (0x0#64) _ ({ wPlan with context := 0 }) (wCmdIn ({ (wZ { wPlan with context := 0 } { wSess with part := 1 }) with ses := { ((wZ { wPlan with context := 0 } { wSess with part := 1 })).ses with sessions := [] } }) 0x21 8 0x0)) ⟨rfl, rfl, by decide⟩) (by decide)) (by decide)).1) (by decide))
  have _ := ((((((((h).2.1) 5 (0x0#64) _ ({ wPlan with context := 0 }) (wCmdIn ((wZ { wPlan with context := 0 } { wSess with part := 1 })) 0x21 8 0x0)) ⟨rfl, rfl, by decide⟩) (by decide)) (by decide)).2) (by decide))
  have _ := ((((((((((((((((((h).2.2.1) 5 (0xffffffff00000000000000000000000900000002000000400000000100000000000000003f800000000000000000000700040000#512) _ ({ wPlan with usedPages := [0, 1, 2] }) _ ((State.pickSlot (wCmdIn ((wZ { wPlan with usedPages := [0, 1, 2] } { wSess with part := 1 })) 0x22 64 0xffffffff00000000000000000000000900000002000000400000000100000000000000003f800000000000000000000700040000)).get (by exact slotSome (pickSome (by decide) (by decide))) |>.1) ((State.pickSlot (wCmdIn ((wZ { wPlan with usedPages := [0, 1, 2] } { wSess with part := 1 })) 0x22 64 0xffffffff00000000000000000000000900000002000000400000000100000000000000003f800000000000000000000700040000)).get (by exact slotSome (pickSome (by decide) (by decide))) |>.2) (wCmdIn ((wZ { wPlan with usedPages := [0, 1, 2] } { wSess with part := 1 })) 0x22 64 0xffffffff00000000000000000000000900000002000000400000000100000000000000003f800000000000000000000700040000)) ⟨rfl, rfl, by decide⟩) (by decide)) (by decide)) (by decide)) (by decide)) (by decide)) rfl) (by decide)) (by decide)) (by decide)) (by decide)) (by decide)) (gotPair (by exact slotSome (pickSome (by decide) (by decide))))).1) (by decide))
  have _ := ((((((((((((((((((h).2.2.1) 5 (0xffffffff00000000000000000000000900000002000000400000000100000000000000003f800000000000000000000700040000#512) _ ({ wPlan with context := 0 }) _ ((State.pickSlot (wCmdIn ((wZ { wPlan with context := 0 } { wSess with part := 1 })) 0x22 64 0xffffffff00000000000000000000000900000002000000400000000100000000000000003f800000000000000000000700040000)).get (by exact slotSome (pickSome (by decide) (by decide))) |>.1) ((State.pickSlot (wCmdIn ((wZ { wPlan with context := 0 } { wSess with part := 1 })) 0x22 64 0xffffffff00000000000000000000000900000002000000400000000100000000000000003f800000000000000000000700040000)).get (by exact slotSome (pickSome (by decide) (by decide))) |>.2) (wCmdIn ((wZ { wPlan with context := 0 } { wSess with part := 1 })) 0x22 64 0xffffffff00000000000000000000000900000002000000400000000100000000000000003f800000000000000000000700040000)) ⟨rfl, rfl, by decide⟩) (by decide)) (by decide)) (by decide)) (by decide)) (by decide)) rfl) (by decide)) (by decide)) (by decide)) (by decide)) (by decide)) (gotPair (by exact slotSome (pickSome (by decide) (by decide))))).2) (by decide))
  have _ := (((((((((((((((((((h).2.2.2.1) 5 (0x500000002000000400000000100010003#256) _ 3 ({ wSess with state := .idle }) ({ wPlan with context := 0 }) _ (wCmdIn ((wZ { wPlan with context := 0 } { wSess with state := .idle })) 0x23 32 0x500000002000000400000000100010003)) ⟨rfl, rfl, by decide⟩) (by decide)) (by decide)) (by decide)) (by decide)) (by decide)) (by decide)) (by decide)) (by decide)) (by decide)) (by decide)) rfl) (by decide)) (by decide)) (by decide)) (by decide))
  have _ := ((((((h).2.2.2.2.1) 5 (0x10003#128) _ 3 ({ wSess with part := 1 }) (wCmdIn ((wZ { wPlan with context := 0 } { wSess with part := 1 })) 0x24 16 0x10003)) ⟨rfl, rfl, by decide⟩) (by decide)) (by decide))
  have _ := ((((((h).2.2.2.2.2.1) 5 (0x10003#128) _ 3 ({ wSess with part := 1 }) (wCmdIn ((wZ { wPlan with context := 0 } { wSess with part := 1 })) 0x25 16 0x10003)) ⟨rfl, rfl, by decide⟩) (by decide)) (by decide))
  have _ := ((((((((h).2.2.2.2.2.2.1) 3 ({ wSess with closing := some 5, state := .idle }) 5 4 _ ({ ({ (wZ { wPlan with context := 0 } { wSess with closing := some 5, state := .idle }) with host := (wCmd 37 8 0x10003).host }) with reck := { ({ (wZ { wPlan with context := 0 } { wSess with closing := some 5, state := .idle }) with host := (wCmd 37 8 0x10003).host }).reck with accounts := [(acctKey 1 0x80000009, { zAccount with part := 1, req := 0x80000009, session := 0x10003 })], nextSeq := 4 } })) (by decide)) (by decide)) (by decide)) (by decide)) (pairSome (by decide +kernel)))
  have _ := ((((h).2.2.2.2.2.2.2.1) ({ wSess with eos := 4 }) wPlan) (by decide))
  have _ := (((((h).2.2.2.2.2.2.2.2.1) ({ wSess with stops := [[7], [1, 2]], made := 2 }) wPlan 5 1) (Or.inr rfl)) (by decide))
  have _ := (((((h).2.2.2.2.2.2.2.2.2) ({ wSess with made := 2 }) wPlan 5) (Or.inr rfl)) (by decide))
  trivial

theorem meets_GenerationEnds (h : Obligations.GenerationEnds) : True := by
  have _ := ((((h) 3 5 ({ wSess with part := 1 }) ((wZ { wPlan with context := 0 } { wSess with part := 1 }))) (by decide)) (by decide))
  trivial

theorem meets_Steps (h : Obligations.Steps) : True := by
  have _ := ((((((((h).1) 1 0 ({ wPlan with context := 0 }) ((wZ { wPlan with context := 0 } { wSess with part := 1 }))) (by decide)) (by decide)) (by decide)) (by decide)) (by decide))
  have _ := ((((((((h).2.1) 1 0 ({ wPlan with steps := [{ n := 0, begun := 0, rows := [{ slot := 3, gen := 1, round := 1, pos := 1, count := 1, prefill := false, sample := true, live := true, returned := false }] }], nextStep := 1 }) ({ wQ with placed := some (0, 64), hot := [{ zWaybill with kind := 2, requestId := stepReq 16 0, arg := 0x63 }] }) ({ zWaybill with kind := 2, requestId := stepReq 16 0, arg := 0x63 }) _ ({ ((wZ { wPlan with steps := [{ n := 0, begun := 0, rows := [{ slot := 3, gen := 1, round := 1, pos := 1, count := 1, prefill := false, sample := true, live := true, returned := false }] }], nextStep := 1 } { wSess with part := 1 })) with stn := { ((wZ { wPlan with steps := [{ n := 0, begun := 0, rows := [{ slot := 3, gen := 1, round := 1, pos := 1, count := 1, prefill := false, sample := true, live := true, returned := false }] }], nextStep := 1 } { wSess with part := 1 })).stn with queues := [(20, { wQ with placed := some (0, 0) }), (21, { wQ with placed := some (0, 64), hot := [{ zWaybill with kind := 2, requestId := stepReq 16 0, arg := 0x63 }] })] } })) (by decide)) (by decide)) (by decide)) rfl) (by decide))
  have _ := ((((((h).2.2.1) 1 0 ({ wPlan with steps := [{ n := 0, begun := 0, rows := [{ slot := 3, gen := 1, round := 1, pos := 1, count := 1, prefill := false, sample := true, live := true, returned := false }] }], nextStep := 1 }) ({ n := 0, begun := 0, rows := [{ slot := 3, gen := 1, round := 1, pos := 1, count := 1, prefill := false, sample := true, live := true, returned := false }] }) ([]) ({ (wZ { wPlan with steps := [{ n := 0, begun := 0, rows := [{ slot := 3, gen := 1, round := 1, pos := 1, count := 1, prefill := false, sample := true, live := true, returned := false }] }], nextStep := 1 } { wSess with part := 1 }) with sys := { ((wZ { wPlan with steps := [{ n := 0, begun := 0, rows := [{ slot := 3, gen := 1, round := 1, pos := 1, count := 1, prefill := false, sample := true, live := true, returned := false }] }], nextStep := 1 } { wSess with part := 1 })).sys with timeUs := 5000 } })) (by decide)) (by decide)) (by decide))
  have _ := ((((((((h).2.2.2.1) ({ slot := 3, gen := 1, round := 1, token := 42 }) ([]) ({ wSess with part := 1 }) ({ ((wZ { wPlan with context := 0 } { wSess with part := 1 })) with ses := { ((wZ { wPlan with context := 0 } { wSess with part := 1 })).ses with taps := [{ slot := 3, gen := 1, round := 1, token := 42 }] } })) (by decide)) (by decide)) (by decide)) (by decide)) (by decide))
  have _ := (((((((h).2.2.2.2.1) ({ slot := 3, gen := 1, round := 0, token := 42 }) ([]) ({ wSess with part := 1 }) ({ ((wZ { wPlan with context := 0 } { wSess with part := 1 })) with ses := { ((wZ { wPlan with context := 0 } { wSess with part := 1 })).ses with taps := [{ slot := 3, gen := 1, round := 0, token := 42 }] } })) (by decide)) (by decide)) (by decide)) (by decide))
  have _ := ((((((h).2.2.2.2.2.1) ({ slot := 3, gen := 1, round := 1, token := 42 }) ([]) ({ wSess with part := 1 }) ({ ({ ((wZ { wPlan with context := 0 } { wSess with part := 1 })) with ses := { ((wZ { wPlan with context := 0 } { wSess with part := 1 })).ses with taps := [{ slot := 3, gen := 1, round := 1, token := 42 }] } }) with fail := { ({ ((wZ { wPlan with context := 0 } { wSess with part := 1 })) with ses := { ((wZ { wPlan with context := 0 } { wSess with part := 1 })).ses with taps := [{ slot := 3, gen := 1, round := 1, token := 42 }] } }).fail with captures := List.replicate 8 wCap } })) (by decide)) (by decide)) (by decide))
  have _ := (((((((((h).2.2.2.2.2.2.1) 1 0 ({ wPlan with context := 0 }) ((3, { wSess with preempted := some 4, pages := [] })) ((wZ { wPlan with context := 0 } { wSess with preempted := some 4, pages := [] }))) (by decide)) (by decide)) (by decide)) (by decide)) (by decide)) ⟨4, rfl⟩)
  have _ := ((((((((((((h).2.2.2.2.2.2.2.1) 1 0 ({ wPlan with context := 0 }) ((3, { wSess with tokens := List.replicate 40 1 })) ((wZ { wPlan with context := 0 } { wSess with tokens := List.replicate 40 1 }))) (by decide)) (by decide)) (by decide)) (by decide)) (by decide)) (by decide)) (by decide)) (by decide)) (by decide))
  have _ := ((((((((((h).2.2.2.2.2.2.2.2) 3 ({ wSess with recs := [{ token := 7, index := 0, fin := false, reason := 0, stop := 0, acked := true }] }) (({ token := 7, index := 0, fin := false, reason := 0, stop := 0, acked := true } : TokRec)) ([]) ({ wPlan with context := 0 }) (wRing 4) ((wZ { wPlan with context := 0 } { wSess with recs := [{ token := 7, index := 0, fin := false, reason := 0, stop := 0, acked := true }] }))) (by decide)) (by decide)) (by decide)) (by decide)) (by decide)) (by decide)) (by decide))
  trivial

theorem meets_Companions (h : Obligations.Companions) : True := by
  have _ := (((((((((((h).1) (wMsg 0) 0x60001 1 6 wPart w0) (by decide)) (by decide)) ⟨rfl, rfl, notEvac (y := wPart) rfl rfl⟩) (by decide)) (by decide)) (by decide)) (by decide)) (by decide))
  have _ := ((((h).2.1) 3 ({ wSess with recs := [{ token := 7, index := 0, fin := false, reason := 0, stop := 0, acked := false }] }) 3 0 ((wZ { wPlan with context := 0 } { wSess with recs := [{ token := 7, index := 0, fin := false, reason := 0, stop := 0, acked := false }] }))) (by decide))
  have _ := ((((h).2.2.1) 3 ({ wSess with part := 1 }) 3 0 ((wZ { wPlan with context := 0 } { wSess with part := 1 }))) (by decide))
  have _ := (((((((((h).2.2.2.1) (wMsg 0) 0x100050001 ({ wPart with blockMap := [] }) ({ w0 with part := { (w0).part with parts := [(1, { wPart with blockMap := [] })] } })) rfl) (by decide)) (by decide)) (by decide)).1) (by decide))
  have _ := (((((((((h).2.2.2.1) (wMsg 0) 0x100050001 wPart w0) rfl) (by decide)) (by decide)) (by decide)).2) (by decide))
  have _ := ((((((((((h).2.2.2.2.1) (wMsg 0) 5 1 ((bytesOf 24 0x370001000300000003)) 1 wHold ((wHold.entry (bytesOf 24 0x370001000300000003)).get rfl) wPart ({ (w0) with ses := { (w0).ses with holdings := [(1, wHold)] } })) rfl) (by decide)) (by decide)) (by decide)).1) (by decide)) (by exact gotId rfl))
  have _ := (((((((((h).2.2.2.2.1) (wMsg 0) 5 1 ((bytesOf 24 0x370001000300000003)) 1 ({ wHold with bytes := 1000000 }) wHold wPart ({ (w0) with ses := { (w0).ses with holdings := [(1, { wHold with bytes := 1000000 })] } })) rfl) (by decide)) (by decide)) (by decide)).2) (by decide))
  have _ := (((((((((((h).2.2.2.2.2) (wMsg 0) 0x100050101 wHold wPart ({ ({ (wZ { wPlan with context := 0 } { wSess with part := 1 }) with ses := { ((wZ { wPlan with context := 0 } { wSess with part := 1 })).ses with sessions := [] } }) with ses := { ({ (wZ { wPlan with context := 0 } { wSess with part := 1 }) with ses := { ((wZ { wPlan with context := 0 } { wSess with part := 1 })).ses with sessions := [] } }).ses with holdings := [(1, wHold)] } })) (by unfold Admitted; decide)) (by decide)) (by decide)) (by decide)) (by decide)) (by decide)) (by decide)) (by decide))
  trivial

theorem meets_Leases (h : Obligations.Leases) : True := by
  have _ := ((((((((((((h).1) (wMsg 0) 0x8000000900060001 1 ((acctKey 1 0x80000009)) 3 ({ wSess with part := 1 }) wPart ({ ((wZ { wPlan with context := 0 } { wSess with part := 1 })) with ses := { ((wZ { wPlan with context := 0 } { wSess with part := 1 })).ses with homes := [(acctKey 1 0x80000009, { owner := 6, gen := 1, deadline := 0, ownerPart := 1 })] } })) (by decide)) (by decide)) ⟨rfl, rfl, notEvac (y := wPart) rfl rfl⟩) (by decide)) (by decide)) (by decide)) (by decide)).1) (by decide))
  have _ := ((((((((((((((h).1) (wMsg 0) 0x8000000900060001 1 ((acctKey 1 0x80000009)) 3 ({ wSess with part := 1 }) wPart ({ ((wZ { wPlan with context := 0 } { wSess with part := 1 })) with ses := { ((wZ { wPlan with context := 0 } { wSess with part := 1 })).ses with leases := [(acctKey 1 0x80000009, wLease)] } })) (by decide)) (by decide)) ⟨rfl, rfl, notEvac (y := wPart) rfl rfl⟩) (by decide)) (by decide)) (by decide)) (by decide)).2) wLease) (by decide)) (by decide))
  have _ := (((((((((((((h).2.1) (wMsg 0) 5 0x1000000070006010280000009 ({ sess := { wSess with part := 1 }, homePart := 1, kv := [[1, 2]] }) 1 (({ node := 5, transfer := 7, chunks := [], gens := [[(0, { kind := 0, index := 0, last := true, data := [] })]], final := none } : Incoming)) ([]) ((State.placeSession ({ ({ (wZ { wPlan with context := 0 } { wSess with part := 1 }) with ses := { ((wZ { wPlan with context := 0 } { wSess with part := 1 })).ses with sessions := [] } }) with fail := { w0.fail with inc := [{ node := 5, transfer := 7, chunks := [], gens := [[(0, { kind := 0, index := 0, last := true, data := [] })]], final := none }] } }) 1 ({ sess := { wSess with part := 1 }, homePart := 1, kv := [[1, 2]] }) 3 6).get (placeSome (y := wPlan) rfl (by exact slotSome (pickSome (by decide) (by decide))) (by decide))) wPart ({ ({ (wZ { wPlan with context := 0 } { wSess with part := 1 }) with ses := { ((wZ { wPlan with context := 0 } { wSess with part := 1 })).ses with sessions := [] } }) with fail := { w0.fail with inc := [{ node := 5, transfer := 7, chunks := [], gens := [[(0, { kind := 0, index := 0, last := true, data := [] })]], final := none }] } })) (by decide)) ⟨rfl, rfl, notEvac (y := wPart) rfl rfl⟩) (by decide)) (by decide)) (by decide)) (by decide)) (by decide)) (by decide)) (by decide)) (by exact gotId (placeSome (y := wPlan) rfl (by exact slotSome (pickSome (by decide) (by decide))) (by decide))))
  have _ := ((((((((((h).2.2.1) (wMsg 0) 5 0x4d0000010280000009 ((acctKey 1 0x80000009)) wLease ({ ((wZ { wPlan with context := 0 } { wSess with part := 1 })) with ses := { ((wZ { wPlan with context := 0 } { wSess with part := 1 })).ses with leases := [(acctKey 1 0x80000009, wLease)] } })) (by decide)) ⟨rfl, rfl, notEvac (y := wPart) rfl rfl⟩) (by decide)) (by decide)) (by decide)).1) (by decide))
  have _ := ((((((((((h).2.2.1) (wMsg 0) 5 0x4d0000010380000009 ((acctKey 1 0x80000009)) wLease ({ ((wZ { wPlan with context := 0 } { wSess with part := 1 })) with ses := { ((wZ { wPlan with context := 0 } { wSess with part := 1 })).ses with leases := [(acctKey 1 0x80000009, wLease)] } })) (by decide)) ⟨rfl, rfl, notEvac (y := wPart) rfl rfl⟩) (by decide)) (by decide)) (by decide)).2) (by decide))
  have _ := ((((((h).2.2.2.1) 1 0x80000009 ({ wLease with waiting := some 0 }) 0 ({ { ((wZ { wPlan with context := 0 } { wSess with part := 1 })) with ses := { ((wZ { wPlan with context := 0 } { wSess with part := 1 })).ses with leases := [(acctKey 1 0x80000009, { wLease with waiting := some 0 })] } } with sys := { ({ ((wZ { wPlan with context := 0 } { wSess with part := 1 })) with ses := { ((wZ { wPlan with context := 0 } { wSess with part := 1 })).ses with leases := [(acctKey 1 0x80000009, { wLease with waiting := some 0 })] } }).sys with timeUs := 10000000 } })) (by decide)) (by decide)) (by decide))
  have _ := ((((((((h).2.2.2.2.1) 1 0x80000009 wLease ({ ((wZ { wPlan with context := 0 } { wSess with part := 1 })) with ses := { ((wZ { wPlan with context := 0 } { wSess with part := 1 })).ses with leases := [(acctKey 1 0x80000009, wLease)] } })) (by decide)) (by decide)) (by decide)) (by decide)) (by decide))
  have _ := (((((((h).2.2.2.2.2.1) 1 0x80000009 wLease ({ { ((wZ { wPlan with context := 0 } { wSess with part := 1 })) with ses := { ((wZ { wPlan with context := 0 } { wSess with part := 1 })).ses with leases := [(acctKey 1 0x80000009, wLease)] } } with sys := { ({ ((wZ { wPlan with context := 0 } { wSess with part := 1 })) with ses := { ((wZ { wPlan with context := 0 } { wSess with part := 1 })).ses with leases := [(acctKey 1 0x80000009, wLease)] } }).sys with timeUs := 6000000 } })) (by decide)) (by decide)) (by decide)) (by decide))
  have _ := (((((((h).2.2.2.2.2.2.1) (wMsg 0) 5 0x10380000009 wLease ({ ((wZ { wPlan with context := 0 } { wSess with part := 1 })) with ses := { ((wZ { wPlan with context := 0 } { wSess with part := 1 })).ses with leases := [(acctKey 1 0x80000009, wLease)] } })) ⟨rfl, rfl, notEvac (y := wPart) rfl rfl⟩) (by decide)) (by decide)) (by decide))
  have _ := ((((((((((((((h).2.2.2.2.2.2.2.1) (wMsg 0) 5 0x4d0006010380000009 1 0x80000009 ((acctKey 1 0x80000009)) ({ owner := 6, gen := 2, deadline := 100, ownerPart := 1 }) ({ (w0) with ses := { (w0).ses with homes := [(acctKey 1 0x80000009, { owner := 6, gen := 2, deadline := 100, ownerPart := 1 })] } })) (by decide)) (by decide)) (by decide)) ⟨rfl, rfl, notEvac (y := wPart) rfl rfl⟩) (by decide)) (by decide)).1) (by decide)) (by decide)) (by decide)) (by decide))
  have _ := (((((((((((h).2.2.2.2.2.2.2.1) (wMsg 0) 5 0x4d0006010280000009 1 0x80000009 ((acctKey 1 0x80000009)) ({ owner := 6, gen := 2, deadline := 100, ownerPart := 1 }) ({ (w0) with ses := { (w0).ses with homes := [(acctKey 1 0x80000009, { owner := 6, gen := 2, deadline := 100, ownerPart := 1 })] } })) (by decide)) (by decide)) (by decide)) ⟨rfl, rfl, notEvac (y := wPart) rfl rfl⟩) (by decide)) (by decide)).2) (by decide))
  have _ := ((((((((((h).2.2.2.2.2.2.2.2.1) (wMsg 0) 5 0x4d0000010280000009 ((acctKey 1 0x80000009)) ({ owner := 5, gen := 2, deadline := 100, ownerPart := 1 }) ({ (w0) with ses := { (w0).ses with homes := [(acctKey 1 0x80000009, { owner := 5, gen := 2, deadline := 100, ownerPart := 1 })] } })) (by decide)) ⟨rfl, rfl, notEvac (y := wPart) rfl rfl⟩) (by decide)) (by decide)) (by decide)) (by decide)) (by decide))
  have _ := ((((((((((((((h).2.2.2.2.2.2.2.2.2.1) (wMsg 0) 5 ((bytesOf 16 0x10002010280000009 ++ bytesOf 8 0x200000001)) _ 1 ({ owner := 5, gen := 2, deadline := 100, ownerPart := 1 }) 3 ({ wSess with part := 1 }) ({ ((wZ { wPlan with context := 0 } { wSess with part := 1 })) with ses := { ((wZ { wPlan with context := 0 } { wSess with part := 1 })).ses with homes := [(acctKey 1 0x80000009, { owner := 5, gen := 2, deadline := 100, ownerPart := 1 })] } })) rfl) rfl) ⟨rfl, rfl, notEvac (y := wPart) rfl rfl⟩) (by decide)) (by decide)) (by decide)) (by decide)) (by decide)) (by decide)) rfl) (by decide))
  have _ := (((((((h).2.2.2.2.2.2.2.2.2.2) 1 0x80000009 ({ owner := 5, gen := 2, deadline := 100, ownerPart := 1 }) ({ { (w0) with ses := { (w0).ses with homes := [(acctKey 1 0x80000009, { owner := 5, gen := 2, deadline := 100, ownerPart := 1 })] } } with sys := { ({ (w0) with ses := { (w0).ses with homes := [(acctKey 1 0x80000009, { owner := 5, gen := 2, deadline := 100, ownerPart := 1 })] } }).sys with timeUs := 101 } })) (by decide)) (by decide)) (by decide)) (by decide))
  trivial

theorem meets_FailuresAndResets (h : Obligations.FailuresAndResets) : True := by
  have _ := ((((h).1) 1 4 w0) (by decide))
  have _ := (((((((h).2.1) 1 4 1 1 ({ w0 with fab := { w0.fab with claims := [{ zClaim with access := 4, block := 1 }, { zClaim with access := 5, block := 1 }] } })) (by decide)) (by decide)) (by decide)) (by intro a k h; cases h))
  have _ := (((((((((h).2.2.1) 1 4 1 1 ({ zAccess with who := .crierTap 3 }) 3 ({ w0 with fab := { w0.fab with accesses := [(4, { zAccess with who := .crierTap 3 })], sends := [{ zCrierSend with id := 3, part := 1, src := some (0, 0x10), bytes := 5000, dstLine := 0x20, targets := [1], sender := 1 }], claims := [{ zClaim with access := 4, block := 1 }] } })) (by decide)) (by decide)) (by decide)) (by decide)) (by decide)) (by decide))
  have _ := (((((h).2.2.2.1) 1 .release ((State.setBlock w0 1 { State.block w0 1 with wipe := some .release }))) (by decide)) (by decide))
  have _ := ((((((h).2.2.2.2.1) 18 w0) (by decide)) (by decide)) (by decide))
  have _ := (((((h).2.2.2.2.2.1) 18 w0) (by decide)) (by decide))
  have _ := ((((((((h).2.2.2.2.2.2.1) 0x2001 wXEng wCarS) (by decide)) (by decide)) (by decide)) (by decide)) (by decide))
  have _ := ((((h).2.2.2.2.2.2.2.1) 0x2001 w0) (by decide))
  have _ := ((((((((((h).2.2.2.2.2.2.2.2.1) 1 3 ({ wStation with watchdogMs := 5, engines := [] }) 10000 0 ({ ({ w0 with stn := { (w0).stn with stations := [(stnKey 1 3, { wStation with watchdogMs := 5, engines := [] })] } }) with fail := { ({ w0 with stn := { (w0).stn with stations := [(stnKey 1 3, { wStation with watchdogMs := 5, engines := [] })] } }).fail with age := [(stnKey 1 3, (10000, 0))] } })) (by decide)) (by decide)) (by decide)) (by decide)) (by decide)).1) (by decide))
  have _ := (((((((((((((h).2.2.2.2.2.2.2.2.1) 1 3 ({ wStation with watchdogMs := 5, engines := [0x100C] }) 10000 0 ({ ({ (wV (wX 0)) with stn := { ((wV (wX 0))).stn with stations := [(stnKey 1 3, { wStation with watchdogMs := 5, engines := [0x100C] })] } }) with fail := { ({ (wV (wX 0)) with stn := { ((wV (wX 0))).stn with stations := [(stnKey 1 3, { wStation with watchdogMs := 5, engines := [0x100C] })] } }).fail with age := [(stnKey 1 3, (10000, 0))] } })) (by decide)) (by decide)) (by decide)) (by decide)) (by decide)).2) 0x100C wXEng) (by decide)) (by decide)) (by decide))
  have _ := (((((((((h).2.2.2.2.2.2.2.2.2.1) 20 ({ wQ with placed := some (0, 0), hot := [{ zWaybill with kind := 2 }] }) ({ zWaybill with kind := 2 }) ({ { w0 with stn := { (w0).stn with queues := [(20, { wQ with placed := some (0, 0), hot := [{ zWaybill with kind := 2 }] })] } } with sys := { ({ w0 with stn := { (w0).stn with queues := [(20, { wQ with placed := some (0, 0), hot := [{ zWaybill with kind := 2 }] })] } }).sys with timeUs := 100000 } })) (by decide)) (by decide)) (by decide)).1) (by decide)) (by decide))
  have _ := ((((((((h).2.2.2.2.2.2.2.2.2.1) 20 ({ wQ with placed := some (0, 0), hot := [{ zWaybill with kind := 2 }], stalled := true }) ({ zWaybill with kind := 2 }) ({ { w0 with stn := { (w0).stn with queues := [(20, { wQ with placed := some (0, 0), hot := [{ zWaybill with kind := 2 }], stalled := true })] } } with sys := { ({ w0 with stn := { (w0).stn with queues := [(20, { wQ with placed := some (0, 0), hot := [{ zWaybill with kind := 2 }], stalled := true })] } }).sys with timeUs := 100000 } })) (by decide)) (by decide)) (by decide)).2) (by decide))
  have _ := ((((h).2.2.2.2.2.2.2.2.2.2.1) 0 _ _ _ _ ({ { { { w0 with stn := { (w0).stn with queues := [(20, { wQ with placed := some (0, 0), hot := [{ zWaybill with kind := 2, rowPitch := 0 }] }), (21, wQ)] } } with stn := { ({ w0 with stn := { (w0).stn with queues := [(20, { wQ with placed := some (0, 0), hot := [{ zWaybill with kind := 2, rowPitch := 0 }] }), (21, wQ)] } }).stn with stations := [(stnKey 1 3, { wStation with engines := [0x1012] })] } } with stn := { ({ { w0 with stn := { (w0).stn with queues := [(20, { wQ with placed := some (0, 0), hot := [{ zWaybill with kind := 2, rowPitch := 0 }] }), (21, wQ)] } } with stn := { ({ w0 with stn := { (w0).stn with queues := [(20, { wQ with placed := some (0, 0), hot := [{ zWaybill with kind := 2, rowPitch := 0 }] }), (21, wQ)] } }).stn with stations := [(stnKey 1 3, { wStation with engines := [0x1012] })] } }).stn with engines := [(0x1012, wEngine)] } } with stn := { ({ { { w0 with stn := { (w0).stn with queues := [(20, { wQ with placed := some (0, 0), hot := [{ zWaybill with kind := 2, rowPitch := 0 }] }), (21, wQ)] } } with stn := { ({ w0 with stn := { (w0).stn with queues := [(20, { wQ with placed := some (0, 0), hot := [{ zWaybill with kind := 2, rowPitch := 0 }] }), (21, wQ)] } }).stn with stations := [(stnKey 1 3, { wStation with engines := [0x1012] })] } } with stn := { ({ { w0 with stn := { (w0).stn with queues := [(20, { wQ with placed := some (0, 0), hot := [{ zWaybill with kind := 2, rowPitch := 0 }] }), (21, wQ)] } } with stn := { ({ w0 with stn := { (w0).stn with queues := [(20, { wQ with placed := some (0, 0), hot := [{ zWaybill with kind := 2, rowPitch := 0 }] }), (21, wQ)] } }).stn with stations := [(stnKey 1 3, { wStation with engines := [0x1012] })] } }).stn with engines := [(0x1012, wEngine)] } }).stn with disps := [(0, { zDisp with slots := [(0, stnKey 1 3)], lastSlot := 63 })] } })) rfl)
  have _ := ((((((h).2.2.2.2.2.2.2.2.2.2.2.1) 1 wCap ({ (w0) with fail := { (w0).fail with captures := [wCap] } })) (by decide)).1) (by decide))
  have _ := ((((((h).2.2.2.2.2.2.2.2.2.2.2.1) 1 wCap ({ ({ (w0) with reck := { (w0).reck with unsigned := List.replicate 8 ({ num := 0, opened := 0, closed := 500, metered := 7, leaves := [{ seq := 1, endUs := 5, acct := wAcct }] }), lastWin := 500 } }) with fail := { ({ (w0) with reck := { (w0).reck with unsigned := List.replicate 8 ({ num := 0, opened := 0, closed := 500, metered := 7, leaves := [{ seq := 1, endUs := 5, acct := wAcct }] }), lastWin := 500 } }).fail with captures := [wCap] } })) (by decide)).2) (by decide))
  have _ := ((((((h).2.2.2.2.2.2.2.2.2.2.2.2.1) 1 3 wCap ({ { (w0) with fail := { (w0).fail with captures := [wCap] } } with sys := { ({ (w0) with fail := { (w0).fail with captures := [wCap] } }).sys with timeUs := 100000 } })) (by decide)).1) (by decide))
  have _ := ((((((h).2.2.2.2.2.2.2.2.2.2.2.2.1) 1 3 wCap ({ (w0) with fail := { (w0).fail with captures := [wCap] } })) (by decide)).2) (by decide))
  have _ := (((((((h).2.2.2.2.2.2.2.2.2.2.2.2.2.1) wCap (some 3) ({ wPart with runs := [(0, 300)] }) 0 _ _ ({ ({ w0 with part := { (w0).part with parts := [(1, { wPart with runs := [(0, 300)] })] } }) with fail := { ({ w0 with part := { (w0).part with parts := [(1, { wPart with runs := [(0, 300)] })] } }).fail with captures := [wCap] } })) (by decide)) (by decide)) rfl) rfl)
  have _ := (((((((((h).2.2.2.2.2.2.2.2.2.2.2.2.2.2.1) (wMsg 0) 0x1 wPart w0) rfl) (by decide)) (by decide)) (by decide)).1) (by decide))
  have _ := (((((((((h).2.2.2.2.2.2.2.2.2.2.2.2.2.2.1) (wMsg 0) 0x1 ({ wPart with frozen := true }) ({ w0 with part := { (w0).part with parts := [(1, { wPart with frozen := true })] } })) rfl) (by decide)) (by decide)) (by decide)).2) (by decide))
  have _ := ((((((h).2.2.2.2.2.2.2.2.2.2.2.2.2.2.2.1) 1 ({ part := 1, cause := 6 }) ([]) ({ (w0) with fail := { (w0).fail with resets := [{ part := 1, cause := 6 }] } })) (by decide)) (by decide)) (by decide))
  have _ := (((((((h).2.2.2.2.2.2.2.2.2.2.2.2.2.2.2.2) 1 6 wPart w0) (by decide)) (by decide)) (by decide)) (by decide))
  trivial

theorem meets_Evacuation (h : Obligations.Evacuation) : True := by
  have _ := (((((h).1) 1 ([]) ({ w0 with sys := { (w0).sys with devFaults := [1] } })) (by decide)) (by decide))
  have _ := ((((((((((h).2.1) (wMsg 0) 0xffff0201 1 wPart w0) (by decide)) rfl) (by decide)) (by decide)) (by decide)).1) (.inl (by decide)))
  have _ := ((((((((((((h).2.1) (wMsg 0) 0x400050201 1 ({ wPart with frozen := true }) ({ w0 with part := { (w0).part with parts := [(1, { wPart with frozen := true })] } })) (by decide)) rfl) (by decide)) (by decide)) (by decide)).2) (by decide)) (by decide)) (by decide))
  have _ := (((((((((((h).2.2.1) (wMsg 0) 0x400050201 1 wPart (State.newOutgoing (w0) 0x400050201 true false none ((w0).allot wPart.regions (bitmapStripes wPart))) w0) (by decide)) rfl) (by decide)) (by decide)) (by decide)) (by decide)) (by decide)) (by decide))
  have _ := (((((((h).2.2.2.1) 1 wOut ([3, 4]) ({ ({ (w0) with fail := { (w0).fail with out := [wOut] } }) with dram := { ({ (w0) with fail := { (w0).fail with out := [wOut] } }).dram with dirty := [(1, [3, 4])] } })) (by decide)) (by decide)).1) (by decide))
  have _ := ((((((((h).2.2.2.1) 1 wOut ([3, 4]) ({ { ({ (w0) with fail := { (w0).fail with out := [wOut] } }) with dram := { ({ (w0) with fail := { (w0).fail with out := [wOut] } }).dram with dirty := [(1, [3, 4])] } } with sys := { ({ ({ (w0) with fail := { (w0).fail with out := [wOut] } }) with dram := { ({ (w0) with fail := { (w0).fail with out := [wOut] } }).dram with dirty := [(1, [3, 4])] } }).sys with zhohi := [(104, 1)] } })) (by decide)) (by decide)).2) (by decide)) (by decide))
  have _ := (((((((((h).2.2.2.2.1) (wMsg 0) 0x1 1 wOut ({ (w0) with fail := { (w0).fail with out := [wOut] } })) (by decide)) rfl) (by decide)) (by decide)).1) (by decide))
  have _ := (((((((((h).2.2.2.2.1) (wMsg 0) 0x1 1 ({ wOut with frozen := true }) ({ (w0) with fail := { (w0).fail with out := [{ wOut with frozen := true }] } })) (by decide)) rfl) (by decide)) (by decide)).2) (by decide))
  have _ := ((((((((((h).2.2.2.2.2.1) (wMsg 0) 5 0x700000001 1 ({ wOut with migrate := false, saved := true, ref := some (wMsg 9) }) (wMsg 9) ({ (w0) with fail := { (w0).fail with out := [{ wOut with migrate := false, saved := true, ref := some (wMsg 9) }] } })) (by decide)) rfl) (by decide)) (by decide)).1) (by decide)) (by decide))
  have _ := (((((((((h).2.2.2.2.2.1) (wMsg 0) 5 0x700000001 1 ({ wOut with saved := true }) (wMsg 9) ({ (w0) with fail := { (w0).fail with out := [{ wOut with saved := true }] } })) (by decide)) rfl) (by decide)) (by decide)).2) (by decide))
  have _ := (((((h).2.2.2.2.2.2.1) ({ cause := 3, evacuable := true, noticed := 0 }) ({ { (w0) with fail := { (w0).fail with withdraw := some { cause := 3, evacuable := true, noticed := 0 } } } with sys := { ({ (w0) with fail := { (w0).fail with withdraw := some { cause := 3, evacuable := true, noticed := 0 } } }).sys with timeUs := 10000000000 } })) (by decide)) (by decide))
  have _ := ((((((h).2.2.2.2.2.2.2.1) ({ cause := 3, evacuable := true, noticed := 0 }) ({ { (w0) with fail := { (w0).fail with withdraw := some { cause := 3, evacuable := true, noticed := 0 } } } with part := { ({ (w0) with fail := { (w0).fail with withdraw := some { cause := 3, evacuable := true, noticed := 0 } } }).part with parts := [] } })) (by decide)) (by decide)) (by decide))
  have _ := (((((((h).2.2.2.2.2.2.2.2.1) (wMsg 0) 5 0x1000000000100000007 ([1, 2]) false (Chunk.mk 0 0 true [1, 2]) w0) rfl) (by decide)) (by decide)).1)
  have _ := ((((((((h).2.2.2.2.2.2.2.2.1) (wMsg 0) 5 0x1000000000100000007 ([1, 2]) false (Chunk.mk 0 0 true [1, 2]) w0) rfl) (by decide)) (by decide)).2.1) (by decide))
  have _ := ((((((((h).2.2.2.2.2.2.2.2.1) (wMsg 0) 5 0x1060000000100000007 ([1, 2]) false (Chunk.mk 6 0 true [1, 2]) w0) rfl) (by decide)) (by decide)).2.2.1) (by decide))
  have _ := (((((((((((h).2.2.2.2.2.2.2.2.1) (wMsg 0) 5 0x1060000000100000007 ([1, 2]) true (Chunk.mk 6 0 true [1, 2]) w0) rfl) (by decide)) (by decide)).2.2.2) _ _) (by decide)) rfl) rfl)
  have _ := ((((((((h).2.2.2.2.2.2.2.2.2.1) (wMsg 0) 5 7 1 ({ zPartImage with blocks := [(9, 0)] }) wChunks wPart w0 ({ (w0) with fail := { (w0).fail with inc := [wInc] } })) (by decide)) (by decide)).1) .badParam) (by decide))
  have _ := (((((((((((h).2.2.2.2.2.2.2.2.2.1) (wMsg 0) 5 7 1 zPartImage wChunks wPart _ ({ (w0) with fail := { (w0).fail with inc := [wInc] } })) (by decide)) (by decide)).2) (by decide)) (by decide)) (by decide)) (by decide)) rfl)
  have _ := ((((((((((((h).2.2.2.2.2.2.2.2.2.2) (wMsg 0) 0x700000001 1 wInc wChunks ([]) wPart ({ (w0) with fail := { (w0).fail with inc := [wInc] } })) (by decide)) rfl) (by decide)) (by decide)) (by decide)) (by decide)) (by decide)) (by decide)) (by decide))
  trivial

theorem meets_Regulation (h : Obligations.Regulation) : True := by
  have _ := ((((h).1) w0) (by decide))
  have _ := ((((h).2.1) ({ w0 with reg := { w0.reg with sampled := some 0 } })) (by decide))
  have _ := ((((((h).2.2.1) w0 _) (by decide)) (by decide)) rfl)
  have _ := ((((h).2.2.2.1) ({ w0 with sys := { (w0).sys with timeUs := 5 } })) (Or.inl (by decide)))
  have _ := ((((h).2.2.2.2.1) 0 1) (by decide))
  have _ := (((((h).2.2.2.2.2) 0 5 0 0) (by decide)) (by decide))
  trivial

theorem meets_PowerControl (h : Obligations.PowerControl) : True := by
  have _ := (((((((((h).1) (wMsg 0) 0x7d0 w0) rfl) (by decide)) (by decide)) (by decide)).1) (by decide))
  have _ := (((((((((h).1) (wMsg 0) 0x7d0 ({ w0 with part := { (w0).part with parts := [(1, { wPart with powerW := 2500 })] } })) rfl) (by decide)) (by decide)) (by decide)).2) (by decide))
  have _ := ((((h).2.1) 48000 60000 ({ (w0) with boot := { (w0).boot with aon := true } })) (by decide))
  have _ := (((((((h).2.2.1) 0 1000 ((State.setBlock w0 0 { State.block w0 0 with powered := true, mhz := 1600, plannedMhz := 2000 }))) (by decide)) (by decide)).1) (by decide))
  have _ := ((((((((h).2.2.1) 0 1000 ((State.setBlock w0 0 { State.block w0 0 with powered := true, mhz := 800, plannedMhz := 2000 }))) (by decide)) (by decide)).2.1) (by decide)) (by decide))
  have _ := (((((((((((h).2.2.1) 0 1000 ({ { ((State.setBlock w0 0 { State.block w0 0 with powered := true, mhz := 800, plannedMhz := 2000 })) with pow := { ((State.setBlock w0 0 { State.block w0 0 with powered := true, mhz := 800, plannedMhz := 2000 })).pow with lead := [(0, 0)], volts := [(0, 1000000000)] } } with sys := { ({ ((State.setBlock w0 0 { State.block w0 0 with powered := true, mhz := 800, plannedMhz := 2000 })) with pow := { ((State.setBlock w0 0 { State.block w0 0 with powered := true, mhz := 800, plannedMhz := 2000 })).pow with lead := [(0, 0)], volts := [(0, 1000000000)] } }).sys with timeUs := 5 } })) (by decide)) (by decide)).2.2.1) 0) (by decide)) (by decide)) (by decide)) (by decide))
  have _ := (((((((((((h).2.2.1) 0 1000 ({ { ((State.setBlock w0 0 { State.block w0 0 with powered := true, mhz := 800, plannedMhz := 2000 })) with pow := { ((State.setBlock w0 0 { State.block w0 0 with powered := true, mhz := 800, plannedMhz := 2000 })).pow with lead := [(0, 0)], volts := [(0, 1000000000)] } } with sys := { ({ ((State.setBlock w0 0 { State.block w0 0 with powered := true, mhz := 800, plannedMhz := 2000 })) with pow := { ((State.setBlock w0 0 { State.block w0 0 with powered := true, mhz := 800, plannedMhz := 2000 })).pow with lead := [(0, 0)], volts := [(0, 1000000000)] } }).sys with timeUs := 4 } })) (by decide)) (by decide)).2.2.2) 0) (by decide)) (by decide)) (by decide)) (by decide))
  have _ := (((((h).2.2.2.1) ({ { w0 with part := { (w0).part with parts := [] } } with sys := { ({ w0 with part := { (w0).part with parts := [] } }).sys with timeUs := 100 } })) (by decide)) (by decide))
  have _ := (((((h).2.2.2.2.1) ([]) 1 wPart ({ w0 with sys := { (w0).sys with timeUs := 100 } })) (by decide)) (by decide))
  have _ := (((((((((((((h).2.2.2.2.2.1) 5 (0x320000006400000003#128) _ ({ wStation with engines := [0x1012] }) ((stnKey 1 3)) (wCmdIn ({ w0 with stn := { (w0).stn with stations := [(stnKey 1 3, { wStation with engines := [0x1012] })] } }) 0x1f 16 0x320000006400000003)) ⟨rfl, rfl, by decide⟩) (by decide)) (by decide)) (by decide)) (by decide)) (by decide)) (by decide)) rfl).1) (by decide))
  have _ := (((((((((((((h).2.2.2.2.2.1) 5 (0x320000006400020003#128) _ ({ wStation with engines := [0x1012] }) ((stnKey 1 3)) (wCmdIn ({ w0 with stn := { (w0).stn with stations := [(stnKey 1 3, { wStation with engines := [0x1012] })] } }) 0x1f 16 0x320000006400020003)) ⟨rfl, rfl, by decide⟩) (by decide)) (by decide)) (by decide)) (by decide)) (by decide)) (by decide)) rfl).2) (Or.inr (by decide)))
  have _ := ((((((h).2.2.2.2.2.2.1) 1 3 ({ heavy := true, start := 20, duration := 10, begun := false }) ({ { ({ w0 with stn := { (w0).stn with stations := [(stnKey 1 3, { wStation with engines := [0x1012] })] } }) with pow := { ({ w0 with stn := { (w0).stn with stations := [(stnKey 1 3, { wStation with engines := [0x1012] })] } }).pow with hints := [(stnKey 1 3, { heavy := true, start := 20, duration := 10, begun := false })] } } with sys := { ({ ({ w0 with stn := { (w0).stn with stations := [(stnKey 1 3, { wStation with engines := [0x1012] })] } }) with pow := { ({ w0 with stn := { (w0).stn with stations := [(stnKey 1 3, { wStation with engines := [0x1012] })] } }).pow with hints := [(stnKey 1 3, { heavy := true, start := 20, duration := 10, begun := false })] } }).sys with timeUs := 15 } })) (by decide)) (by decide)) (by decide))
  have _ := (((((h).2.2.2.2.2.2.2.1) 1 3 ({ { { w0 with stn := { (w0).stn with stations := [(stnKey 1 3, { wStation with engines := [0x1012] })] } } with sys := { ({ w0 with stn := { (w0).stn with stations := [(stnKey 1 3, { wStation with engines := [0x1012] })] } }).sys with timeUs := 15 } } with stn := { ({ { w0 with stn := { (w0).stn with stations := [(stnKey 1 3, { wStation with engines := [0x1012] })] } } with sys := { ({ w0 with stn := { (w0).stn with stations := [(stnKey 1 3, { wStation with engines := [0x1012] })] } }).sys with timeUs := 15 } }).stn with heavy := [(0, stnKey 1 3, 100)] } })) (by decide)) (by decide))
  have _ := ((((h).2.2.2.2.2.2.2.2.1) 1 3 ({ { w0 with stn := { (w0).stn with stations := [(stnKey 1 3, { wStation with engines := [0x1012] })] } } with sys := { ({ w0 with stn := { (w0).stn with stations := [(stnKey 1 3, { wStation with engines := [0x1012] })] } }).sys with timeUs := 15 } })) (by intro h e; have e2 : (none : Option _) = some h := e; cases e2))
  have _ := (((((h).2.2.2.2.2.2.2.2.2.1) 1 3 ({ heavy := true, start := 20, duration := 10, begun := false }) ({ { ({ w0 with stn := { (w0).stn with stations := [(stnKey 1 3, { wStation with engines := [0x1012] })] } }) with pow := { ({ w0 with stn := { (w0).stn with stations := [(stnKey 1 3, { wStation with engines := [0x1012] })] } }).pow with hints := [(stnKey 1 3, { heavy := true, start := 20, duration := 10, begun := false })] } } with sys := { ({ ({ w0 with stn := { (w0).stn with stations := [(stnKey 1 3, { wStation with engines := [0x1012] })] } }) with pow := { ({ w0 with stn := { (w0).stn with stations := [(stnKey 1 3, { wStation with engines := [0x1012] })] } }).pow with hints := [(stnKey 1 3, { heavy := true, start := 20, duration := 10, begun := false })] } }).sys with timeUs := 30 } })) (by decide)) (by decide))
  have _ := (((((h).2.2.2.2.2.2.2.2.2.2.1) 0 w0).1) (by decide))
  have _ := (((((h).2.2.2.2.2.2.2.2.2.2.1) 0 w0).2.1) (by decide))
  have _ := ((((((h).2.2.2.2.2.2.2.2.2.2.1) 0 ({ (w0) with pow := { (w0).pow with droop := [(0, 3)] } })).2.2.1) 3) (by decide))
  have _ := ((((((h).2.2.2.2.2.2.2.2.2.2.1) 0 ({ (w0) with pow := { (w0).pow with droop := [(0, 3)] } })).2.2.2) 3) (by decide))
  have _ := ((((((((((h).2.2.2.2.2.2.2.2.2.2.2.1) 5 ((State.setBlock w0 5 { State.block w0 5 with powered := true }))) (by decide)) (by decide)) (by decide)) (by decide)) (by decide)) (by decide)) (by decide))
  have _ := ((((h).2.2.2.2.2.2.2.2.2.2.2.2.1) 0 w0) (by decide))
  have _ := (((((h).2.2.2.2.2.2.2.2.2.2.2.2.2.1) ({ (w0) with pow := { (w0).pow with above := 1000 } })) (by decide)) (by decide))
  have _ := ((((h).2.2.2.2.2.2.2.2.2.2.2.2.2.2.1) ({ (w0) with pow := { (w0).pow with cap := { on := true, mhz := 1000, moved := 0 } } })) (by decide))
  have _ := (((((h).2.2.2.2.2.2.2.2.2.2.2.2.2.2.2.1) ({ { (w0) with pow := { (w0).pow with cap := { on := true, mhz := 410, moved := 0 } } } with sys := { ({ (w0) with pow := { (w0).pow with cap := { on := true, mhz := 410, moved := 0 } } }).sys with timeUs := 100 } })) (by decide)) (by decide))
  have _ := ((((((h).2.2.2.2.2.2.2.2.2.2.2.2.2.2.2.2.1) ({ { (w0) with pow := { (w0).pow with therm := { on := false, mhz := 990, moved := 0 } } } with sys := { ({ (w0) with pow := { (w0).pow with therm := { on := false, mhz := 990, moved := 0 } } }).sys with timeUs := 1000 } })) (by decide)) (by decide)) (by decide))
  have _ := (((((h).2.2.2.2.2.2.2.2.2.2.2.2.2.2.2.2.2.1) ({ (w0) with pow := { (w0).pow with past := 2 } })) (by decide)) (by decide))
  have _ := (((((h).2.2.2.2.2.2.2.2.2.2.2.2.2.2.2.2.2.2.1) ({ (w0) with pow := { (w0).pow with past := 2, overOn := true } })) (by decide)) (by decide))
  have _ := ((((h).2.2.2.2.2.2.2.2.2.2.2.2.2.2.2.2.2.2.2.1) ({ (w0) with pow := { (w0).pow with past := 1 } })) (by decide))
  have _ := (((((h).2.2.2.2.2.2.2.2.2.2.2.2.2.2.2.2.2.2.2.2.1) 0 950 w0) (by decide)) (by decide))
  have _ := ((((h).2.2.2.2.2.2.2.2.2.2.2.2.2.2.2.2.2.2.2.2.2.1) 0 949 w0) (by decide))
  have _ := (((((h).2.2.2.2.2.2.2.2.2.2.2.2.2.2.2.2.2.2.2.2.2.2.1) 0 951 w0) (by decide)) (by decide))
  have _ := (((((h).2.2.2.2.2.2.2.2.2.2.2.2.2.2.2.2.2.2.2.2.2.2.2.1) ({ (w0) with pow := { (w0).pow with overOn := true, under := 100 } })) (by decide)) (by decide))
  have _ := ((((((h).2.2.2.2.2.2.2.2.2.2.2.2.2.2.2.2.2.2.2.2.2.2.2.2.1) 0 ({ { (w0) with pow := { (w0).pow with therm := { on := true, mhz := 600, moved := 0 }, coolAt := some 0 } } with sys := { ({ (w0) with pow := { (w0).pow with therm := { on := true, mhz := 600, moved := 0 }, coolAt := some 0 } }).sys with timeUs := 10000 } })) (by decide)) (by decide)) (by decide))
  have _ := ((((((h).2.2.2.2.2.2.2.2.2.2.2.2.2.2.2.2.2.2.2.2.2.2.2.2.2.1) 0 ({ { (w0) with pow := { (w0).pow with dimm := true, dimmCool := some 0 } } with sys := { ({ (w0) with pow := { (w0).pow with dimm := true, dimmCool := some 0 } }).sys with timeUs := 100000 } })) (by decide)) (by decide)) (by decide))
  have _ := (((((h).2.2.2.2.2.2.2.2.2.2.2.2.2.2.2.2.2.2.2.2.2.2.2.2.2.2) 0 1100 w0) (by decide)) (by decide))
  trivial

theorem meets_Reckonings (h : Obligations.Reckonings) : True := by
  have _ := ((((((h).1) ([]) ({ w0 with sys := { (w0).sys with timeUs := 1000 } })) (by decide)) (by decide)) (by decide))
  have _ := ((((h).2.1) ([]) ({ { (w0) with reck := { (w0).reck with lastWin := 1000 } } with sys := { ({ (w0) with reck := { (w0).reck with lastWin := 1000 } }).sys with timeUs := 1000 } })) (by decide))
  have _ := (((((((h).2.2.1) 1 9 ({ wAcct with context := 0 }) ({ { (w0) with reck := { (w0).reck with accounts := [(acctKey 1 9, { wAcct with context := 0 })], nextSeq := 4 } } with sys := { ({ (w0) with reck := { (w0).reck with accounts := [(acctKey 1 9, { wAcct with context := 0 })], nextSeq := 4 } }).sys with timeUs := 1000000000 } })) (by decide)) (by decide)) (by decide)) (by decide))
  have _ := (((((h).2.2.2.1) 1 9 ({ wAcct with context := 0, session := 5 }) ({ (w0) with reck := { (w0).reck with accounts := [(acctKey 1 9, { wAcct with context := 0, session := 5 })], nextSeq := 4 } })) (by decide)) (by decide))
  have _ := (((((h).2.2.2.2.1) ({ w0 with sys := { (w0).sys with timeUs := 1000000 } })) (by decide)) (by decide))
  have _ := ((((h).2.2.2.2.2.1) ({ w0 with sys := { (w0).sys with state := .doze } })) (by decide))
  have _ := ((((((h).2.2.2.2.2.2.1) ({ num := 0, opened := 0, closed := 500, metered := 7, leaves := [{ seq := 1, endUs := 5, acct := wAcct }] }) ([]) ({ (w0) with reck := { (w0).reck with unsigned := [{ num := 0, opened := 0, closed := 500, metered := 7, leaves := [{ seq := 1, endUs := 5, acct := wAcct }] }], lastWin := 500 } })) (by decide)) (.inl (by decide))) (by decide))
  have _ := ((((h).2.2.2.2.2.2.2.1) ({ w0 with svc := { (w0).svc with waiting := (List.range 8).map (fun i => MsgRef.item { session := i, corr := 0, msg := 0 } 1 0) } })) (by decide))
  have _ := (((((((h).2.2.2.2.2.2.2.2.1) 1 wPart ({ (w0) with reck := { (w0).reck with held := [(1, List.replicate 4096 ({ kind := 1, part := 1, epoch := 0, payload := 9 }))] } })) (by decide +kernel)).1) (by decide +kernel)) (by decide +kernel))
  have _ := (((((((h).2.2.2.2.2.2.2.2.1) 1 ({ wPart with backlogStop := true }) ({ w0 with part := { (w0).part with parts := [(1, { wPart with backlogStop := true })] } })) (by decide)).2) (by decide)) (by decide))
  have _ := (((((((h).2.2.2.2.2.2.2.2.2.1) 1 9 (wRing 6) (({ kind := 1, part := 1, epoch := 0, payload := 9 } : RingItem)) ([({ kind := 1, part := 1, epoch := 0, payload := 9 } : RingItem)]) ({ (w0) with reck := { (w0).reck with held := [(1, [{ kind := 1, part := 1, epoch := 0, payload := 9 }, { kind := 1, part := 1, epoch := 0, payload := 9 }])] } })) (by decide)) (by decide)) (by decide)) (by decide))
  have _ := (((((h).2.2.2.2.2.2.2.2.2.2.1) ({ w0 with sys := { (w0).sys with timeUs := 100000 } })) (by decide)) (by decide))
  have _ := ((((h).2.2.2.2.2.2.2.2.2.2.2.1) (wMsg 0) w0) rfl)
  have _ := (((((h).2.2.2.2.2.2.2.2.2.2.2.2) 1 9 2 ({ wAcct with context := 0 }) ({ (w0) with reck := { (w0).reck with accounts := [(acctKey 1 9, { wAcct with context := 0 })], nextSeq := 4 } })) (by decide)) (by decide))
  trivial

theorem meets_SharesAddUp (h : Obligations.SharesAddUp) : True := by
  have _ := ((((h) 100 7 ([(0, 1), (1, 5), (2, 6)])) (by decide)) (by decide))
  trivial

theorem meets_AuditPaths (h : Obligations.AuditPaths) : True := by
  have _ := ((((h) 3 ([1, 2, 3, 4, 5, 6, 7]) 0) (by decide)) (by decide))
  trivial

theorem meets_Security (h : Obligations.Security) : True := by
  have _ := ((((h).1) 0 (({ src := 5, vc := 3, flits := 1, bytes := bytesOf 32 0x10d ++ bytesOf 24 0x40000000100000301 } : RxMsg)) _ true ((wPortS 0 { wPort with inbox := [{ src := 5, vc := 3, flits := 1, bytes := bytesOf 32 0x10d ++ bytesOf 24 0x40000000100000301 }], rxHeld := [1, 1, 1, 1] }))) rfl)
  have _ := ((((h).2.1) 0x40000000100000301 true ({ ((wSec { SecUnit.reset with debug := false })) with boot := { ((wSec { SecUnit.reset with debug := false })).boot with aon := true } })) (by decide))
  have _ := (((((h).2.2.1) (wMsg 0) 5 ((wSec { SecUnit.reset with debug := false }))) (by decide)).1)
  have _ := (((((((h).2.2.1) (wMsg 0) 5 ((wSec { SecUnit.reset with debug := false }))) (by decide)).2.1) true 3) (by decide))
  have _ := (((((h).2.2.1) (wMsg 0) 5 ((wSec { SecUnit.reset with debug := false }))) (by decide)).2.2)
  have _ := (((((((h).2.2.2.1) (wMsg 0) 5 1 ({ session := 5, begun := 0, parts := 0 }) none ((wSec { SecUnit.reset with half := [{ session := 5, begun := 0, parts := 0 }] }))) (by decide)) (by decide)) (by decide)).1)
  have _ := (((((((((h).2.2.2.1) (wMsg 0) 5 1 ({ session := 5, begun := 0, parts := 0 }) none ((wSec { SecUnit.reset with half := [{ session := 5, begun := 0, parts := 0 }] }))) (by decide)) (by decide)) (by decide)).2.1) 1 1 true true 9) (by decide))
  have _ := ((((((((h).2.2.2.1) (wMsg 0) 5 1 ({ session := 5, begun := 0, parts := 0 }) none ((wSec { SecUnit.reset with half := [{ session := 5, begun := 0, parts := 0 }] }))) (by decide)) (by decide)) (by decide)).2.2) true)
  have _ := ((((((h).2.2.2.2.2.1) (wMsg 0) 0x7 ((wSec { SecUnit.reset with debug := false }))) (by decide)).1) (by decide))
  have _ := ((((((h).2.2.2.2.2.1) (wMsg 0) 0x3000000000000000000000000000000000000000000000000000000000000000000000000000000000000000000000000 ((wSec { SecUnit.reset with debug := false }))) (by decide)).2) (by decide))
  have _ := ((((((h).2.2.2.2.2.2.1) (wMsg 0) 7 9 ((wSec { SecUnit.reset with debug := false }))) rfl) (by decide)).1)
  have _ := ((((((h).2.2.2.2.2.2.1) (wMsg 0) 7 9 ((wSec { SecUnit.reset with debug := false }))) rfl) (by decide)).2.1)
  have _ := ((((((((h).2.2.2.2.2.2.1) (wMsg 0) 7 9 ((wSec { SecUnit.reset with debug := false }))) rfl) (by decide)).2.2) true 4) (by decide))
  have _ := (((((h).2.2.2.2.2.2.2.1) (wMsg 0) 7 9 ((wSec { SecUnit.reset with sets := (List.range 16).map (fun i => (i + 100, 9)) }))) (by decide)) (by decide))
  have _ := (((((h).2.2.2.2.2.2.2.2.1) (wMsg 0) 7 ((wSec { SecUnit.reset with sets := [(7, 9)] }))) rfl) (by decide))
  have _ := (((((((((((((((((h).2.2.2.2.2.2.2.2.2.1) 5 (0x80000000100000001000000400000000100000007#256) _ 9 wPart wObj wObj _ _ _ (wCmdIn ((wSec { SecUnit.reset with sets := [(7, 9)] })) 0x26 32 0x80000000100000001000000400000000100000007)) ⟨rfl, rfl, by decide⟩) (by decide)) (by decide)) (by decide)) (by decide)) (by decide)) (by decide)) (by decide)) (by decide)) (by decide)) (by decide)) rfl) rfl) (by decide))
  have _ := ((((((((h).2.2.2.2.2.2.2.2.2.2.1) 5 (0x1#64) _ ({ wPart with sealedRanges := [(1, 0, 4096)] }) ((1, 0, 4096)) (wCmdIn ({ w0 with part := { (w0).part with parts := [(1, { wPart with sealedRanges := [(1, 0, 4096)] })] } }) 0x27 8 0x1)) ⟨rfl, rfl, by decide⟩) (by decide)) (by decide)) (by decide)) (by decide))
  have _ := ((((((((((h).2.2.2.2.2.2.2.2.2.2.2.1) (wMsg 0) 2 ({ (wSec { SecUnit.reset with lc := .owned, token := true }) with part := { ((wSec { SecUnit.reset with lc := .owned, token := true })).part with parts := [] } })) rfl) (by decide)) (by decide)) (by decide)).1) .service) (by decide))
  have _ := (((((((((((h).2.2.2.2.2.2.2.2.2.2.2.1) (wMsg 0) 0x4e00000000000000000000000000000000000000000000000000000000000000000000000000000000000000000000004d0000000000000001 ({ (wSec { SecUnit.reset with debug := false }) with part := { ((wSec { SecUnit.reset with debug := false })).part with parts := [] } })) rfl) (by decide)) (by decide)) (by decide)).2.1) .owned) (by decide)) (by decide))
  have _ := (((((((((h).2.2.2.2.2.2.2.2.2.2.2.1) (wMsg 0) 2 ({ (wSec { SecUnit.reset with debug := false }) with part := { ((wSec { SecUnit.reset with debug := false })).part with parts := [] } })) rfl) (by decide)) (by decide)) (by decide)).2.2) (by decide))
  have _ := (((((h).2.2.2.2.2.2.2.2.2.2.2.2.1) (wMsg 0) ((wSec { SecUnit.reset with debug := false }))) rfl) (by decide))
  have _ := ((((((h).2.2.2.2.2.2.2.2.2.2.2.2.2.1) (wMsg 0) 0 ((wSec { SecUnit.reset with lc := .owned }))) rfl).1) (Or.inl rfl))
  have _ := (((((((((((h).2.2.2.2.2.2.2.2.2.2.2.2.2.1) (wMsg 0) 0x10400000000000000000 ((wSec { SecUnit.reset with debug := false }))) rfl).2) (Or.inl rfl)) (by decide)) (by decide)) (by decide)).1) (by decide))
  have _ := (((((((((((h).2.2.2.2.2.2.2.2.2.2.2.2.2.1) (wMsg 0) 0x5500000000000010400000000000000001 ((wSec { SecUnit.reset with debug := false }))) rfl).2) (Or.inl rfl)) (by decide)) (by decide)) (by decide)).2) (by decide))
  have _ := ((((((((((h).2.2.2.2.2.2.2.2.2.2.2.2.2.2.1) (wMsg 0) 0x3000000f7 .port 7 ({ w0 with sys := { (w0).sys with variantT := false } })) rfl) (by decide)) (by decide)).1) (by decide)) (by decide)) (by decide))
  have _ := (((((((((h).2.2.2.2.2.2.2.2.2.2.2.2.2.2.1) (wMsg 0) 0x3000000f1 .port 1 w0) rfl) (by decide)) (by decide)).2.1) (.inr (.inr (by decide)))) (by decide))
  have _ := ((((((((((h).2.2.2.2.2.2.2.2.2.2.2.2.2.2.1) (wMsg 0) 0x3000000f1 .port 1 ({ w0 with sys := { (w0).sys with frozen := [{ kind := .port, num := 1, code := 3, part := 1, addr := 9 }] } })) rfl) (by decide)) (by decide)).2.2) ({ kind := .port, num := 1, code := 3, part := 1, addr := 9 })) (.inr (.inr (by decide)))) (by decide))
  have _ := (((((((h).2.2.2.2.2.2.2.2.2.2.2.2.2.2.2) 0x800000000000000040000000100000301 ((wMS 3)) ((wSec { SecUnit.reset with debug := false }))) (by decide)) (by decide)) (by decide)) (by decide))
  trivial

theorem meets_Firmware (h : Obligations.Firmware) : True := by
  have _ := (((((((((((h).1) (wMsg 0) 0x1117000000001 ({ (w0) with fw := { (w0).fw with run := [(fwKey 1 0, { slot := false, image := wImage 1 1 })] } })) rfl) (by decide)) (by decide)) (by decide)) (by decide)) (by decide)).1) (by decide))
  have _ := (((((((((((h).1) (wMsg 0) 0x1117000000000 ({ (w0) with fw := { (w0).fw with run := [(fwKey 1 0, { slot := false, image := wImage 1 1 })] } })) rfl) (by decide)) (by decide)) (by decide)) (by decide)) (by decide)).2) (by decide))
  have _ := (((((((((((((h).2.1) (wMsg 0) 0x30000 ([1, 2]) ({ slot := false, bytes := 70000, session := 1, pieces := [] }) _ ({ (w0) with fw := { (w0).fw with opened := some ({ slot := false, bytes := 70000, session := 1, pieces := [] }) } })) rfl) (by decide)) (by decide)) (by decide)) (by decide)) (by decide)) rfl).1) (by decide)) (by decide))
  have _ := ((((((((((((((h).2.1) (wMsg 0) 0x500000000 ([1, 2]) ({ slot := false, bytes := 4, session := 1, pieces := [] }) _ ({ (w0) with fw := { (w0).fw with opened := some ({ slot := false, bytes := 4, session := 1, pieces := [] }) } })) rfl) (by decide)) (by decide)) (by decide)) (by decide)) (by decide)) rfl).2) _) (by decide)) rfl)
  have _ := (((((((h).2.2.1) (wMsg 0) 1 ([]) ({ (w0) with fw := { (w0).fw with act := some wAct } })) (by decide)) (by decide)).1) (by decide))
  have _ := (((((((((h).2.2.1) (wMsg 0) 1 ([wImage 6 1]) w0) (by decide)) (by decide)).2.1) .wrongHw) (by decide)) (by decide))
  have _ := ((((((((((((h).2.2.1) (wMsg 0) 1 ([wImage 5 1, wImage 4 2, wImage 3 3, wImage 2 4, wImage 1 5]) w0) (by decide)) (by decide)).2.2) ([1, 2, 3, 4, 5])) (by decide)) (by decide)) (by decide)) (by decide)) (by decide))
  have _ := (((((((((h).2.2.2.1) ({ wAct with images := [(5, wImage 5 2)], order := [5], unitNow := 0 }) 5 ([]) (wImage 5 2) _ ({ ({ (w0) with fail := { (w0).fail with withdraw := some zWithdraw } }) with fw := { ({ (w0) with fail := { (w0).fail with withdraw := some zWithdraw } }).fw with act := some ({ wAct with images := [(5, wImage 5 2)], order := [5], unitNow := 0 }) } })) (by decide)) (by decide)) (by decide)) rfl).1) (by decide))
  have _ := (((((((((((h).2.2.2.1) ({ wAct with images := [(5, wImage 5 2)], order := [5], unitNow := 0 }) 5 ([]) (wImage 5 2) _ ({ (w0) with fw := { (w0).fw with act := some ({ wAct with images := [(5, wImage 5 2)], order := [5], unitNow := 0 }) } })) (by decide)) (by decide)) (by decide)) rfl).2.1) 1) (by decide)) (by decide))
  have _ := ((((((((((h).2.2.2.1) ({ wAct with images := [(5, wImage 5 2)], order := [5], unitNow := 59 }) 5 ([]) (wImage 5 2) _ ({ (w0) with fw := { (w0).fw with act := some ({ wAct with images := [(5, wImage 5 2)], order := [5], unitNow := 59 }) } })) (by decide)) (by decide)) (by decide)) rfl).2.2) (by decide)) (by decide))
  have _ := ((((h).2.2.2.2.1) ({ wAct with order := [] }) w0) (by decide))
  have _ := (((((h).2.2.2.2.2.1) wAct 4 ([5]) w0) (by decide)) (by decide))
  have _ := ((((((h).2.2.2.2.2.2.1) wAct ({ { (w0) with fw := { (w0).fw with act := some wAct } } with sys := { ({ (w0) with fw := { (w0).fw with act := some wAct } }).sys with timeUs := 1000000 } })) (by decide)).1) (by decide))
  have _ := ((((((h).2.2.2.2.2.2.1) wAct ({ (w0) with fw := { (w0).fw with act := some wAct } })) (by decide)).2) (by decide))
  have _ := ((((((h).2.2.2.2.2.2.2) (wMsg 0) ({ (w0) with fw := { (w0).fw with minSvn := [(2, 7)] } })) rfl).1) (by decide))
  have _ := ((((((h).2.2.2.2.2.2.2) (wMsg 0) ({ (w0) with fw := { (w0).fw with run := [(fwKey 2 0, { slot := false, image := wImage 2 1 })] } })) rfl).2) (by decide))
  trivial

theorem meets_PinsAndStart (h : Obligations.PinsAndStart) : True := by
  have _ := ((((h).1) 9 ({ (w0) with boot := { (w0).boot with aon := false } })) (by decide))
  have _ := (((((h).2.1) 5 ({ (w0) with boot := { (w0).boot with enLow := some 5 } })) (by decide)) (by decide))
  have _ := (((((h).2.2.1) 5 ({ ({ (w0) with pow := { (w0).pow with temps := [(0, 2000)] } }) with boot := { ({ (w0) with pow := { (w0).pow with temps := [(0, 2000)] } }).boot with enLow := some 5 } })) (by decide)) (by decide))
  have _ := ((((h).2.2.2.1) ({ (w0) with boot := { (w0).boot with enLow := none } })) (by decide))
  have _ := (((((((h).2.2.2.2.1) ({ (w0) with boot := { (w0).boot with pwrgd := false, aon := true, enLow := none, closed := true } })) (by decide)) (by decide)) (by decide)) (by decide))
  have _ := ((((h).2.2.2.2.2.1) ({ (w0) with boot := { (w0).boot with aon := true } })) (by decide))
  have _ := ((((h).2.2.2.2.2.2.1) ({ (w0) with boot := { (w0).boot with resetLow := none } })) (by decide))
  have _ := ((((((h).2.2.2.2.2.2.2.1) 99 ({ (w0) with boot := { (w0).boot with resetLow := some 99 } })) (by decide)).1) (by decide))
  have _ := (((((((h).2.2.2.2.2.2.2.1) 100 ({ (w0) with boot := { (w0).boot with resetLow := some 100, pwrgd := true } })) (by decide)).2) (by decide)) (by decide))
  have _ := ((((((h).2.2.2.2.2.2.2.2.2.2.1) 1 zStepInfo ({ (w0) with boot := { (w0).boot with running := true, steps := [] } })) (by decide)) (by decide)) (by decide))
  have _ := ((((h).2.2.2.2.2.2.2.2.2.2.2.1) 1 zStepInfo ({ (w0) with boot := { (w0).boot with running := false } })) (by decide))
  have _ := ((((((((((((h).2.2.2.2.2.2.2.2.2.2.2.2.1) (wMsg 0) 0x1 ([1, 2]) ({ ((wSec { SecUnit.reset with debug := false })) with boot := { ((wSec { SecUnit.reset with debug := false })).boot with zhohiCopy := some 0 } })) rfl) (by decide)) (by decide)) (by decide)) (by decide)) (by decide)).1) (by decide)) (by decide))
  have _ := ((((((((((((h).2.2.2.2.2.2.2.2.2.2.2.2.1) (wMsg 0) 0x30001 ([1, 2]) ({ ((wSec { SecUnit.reset with debug := false })) with boot := { ((wSec { SecUnit.reset with debug := false })).boot with zhohiCopy := some 0 } })) rfl) (by decide)) (by decide)) (by decide)) (by decide)) (by decide)).2.1) (by decide)) (by decide))
  have _ := (((((((((((h).2.2.2.2.2.2.2.2.2.2.2.2.1) (wMsg 0) 0x30000 ([1, 2]) ({ ((wSec { SecUnit.reset with debug := false })) with boot := { ((wSec { SecUnit.reset with debug := false })).boot with zhohiCopy := some 0 } })) rfl) (by decide)) (by decide)) (by decide)) (by decide)) (by decide)).2.2) (by decide))
  have _ := ((((((((h).2.2.2.2.2.2.2.2.2.2.2.2.2.1) (wMsg 0) ({ (wSec { SecUnit.reset with debug := false }) with fab := { ((wSec { SecUnit.reset with debug := false })).fab with blocks := [] } })) rfl).1) (by decide)) (by decide)) (by decide))
  have _ := ((((((((h).2.2.2.2.2.2.2.2.2.2.2.2.2.1) (wMsg 0) ({ { (wSec { SecUnit.reset with debug := false }) with fab := { ((wSec { SecUnit.reset with debug := false })).fab with blocks := [] } } with fen := { ({ (wSec { SecUnit.reset with debug := false }) with fab := { ((wSec { SecUnit.reset with debug := false })).fab with blocks := [] } }).fen with port := [{ zFenceFlit with fence := 1, part := 1, op := .read, reply := .wait 5 3 none }] } })) rfl).2.1) (by decide)) (by decide)) (by decide))
  have _ := (((((((h).2.2.2.2.2.2.2.2.2.2.2.2.2.1) (wMsg 0) ((wSec { SecUnit.reset with debug := false }))) rfl).2.2.1) (by decide)) (by decide))
  have _ := ((((((h).2.2.2.2.2.2.2.2.2.2.2.2.2.1) (wMsg 0) w0) rfl).2.2.2) (by decide))
  have _ := ((((h).2.2.2.2.2.2.2.2.2.2.2.2.2.2.1) (wMsg 0) w0) rfl)
  have _ := ((((h).2.2.2.2.2.2.2.2.2.2.2.2.2.2.2.1) ({ (w0) with boot := { (w0).boot with dozeLow := none } })) (by decide))
  have _ := ((((h).2.2.2.2.2.2.2.2.2.2.2.2.2.2.2.2.1) 5 ({ (w0) with boot := { (w0).boot with dozeLow := some 5 } })) (by decide))
  have _ := ((((h).2.2.2.2.2.2.2.2.2.2.2.2.2.2.2.2.2.1) (({ src := 5, vc := 0, flits := 1, bytes := bytesOf 32 0x10e ++ [] } : RxMsg)) _ ((wPortS 12 { wPort with inbox := [{ src := 5, vc := 0, flits := 1, bytes := bytesOf 32 0x10e ++ [] }], rxHeld := [1, 1, 1, 1] }))) rfl)
  have _ := (((((((h).2.2.2.2.2.2.2.2.2.2.2.2.2.2.2.2.2.2.1) (wMsg 0) 0x50000000000000000 ((wSec { SecUnit.reset with debug := false }))) (by decide)) (by decide)) (by decide)) (by decide))
  have _ := ((((h).2.2.2.2.2.2.2.2.2.2.2.2.2.2.2.2.2.2.2.1) ({ w0 with stn := { (w0).stn with cached := [20] } })) (by decide))
  have _ := ((((h).2.2.2.2.2.2.2.2.2.2.2.2.2.2.2.2.2.2.2.2) ({ w0 with sys := { (w0).sys with timeUs := 5 } })) (by decide))
  trivial

theorem meets_Ageing (h : Obligations.Ageing) : True := by
  have _ := ((((h).1) (wMsg 0) w0) rfl)
  have _ := ((((((h).2.1) 0 ({ (w0) with age := { (w0).age with islands := [(0, { State.island w0 0 with hours := 100000, planH := 0, due := none })] } })) (by decide)) (by decide)) (by decide))
  have _ := ((((((h).2.2.1) 0 970 ({ (w0) with age := { (w0).age with islands := [(0, { State.island w0 0 with roKhz := 1000, due := none })] } })) (by decide)) (by decide)) (by decide))
  have _ := ((((h).2.2.2.1) 0 971 ({ (w0) with age := { (w0).age with islands := [(0, { State.island w0 0 with roKhz := 1000, due := none })] } })) (by decide))
  have _ := ((((((((h).2.2.2.2.1) 0 ({ (w0) with age := { (w0).age with islands := [(0, { State.island w0 0 with due := some 0, quiet := none })] } })) (by decide)) (by decide)) (by decide)) (by decide)) (by decide))
  have _ := (((((((((h).2.2.2.2.2.1) 5 ({ (w0) with age := { (w0).age with islands := [(5, { State.island w0 5 with due := some 0, quiet := none })] } })) (by decide)) (by decide)) (by decide)) (by decide)) (by decide)) (by decide))
  have _ := ((((h).2.2.2.2.2.2.1) 0 ({ needs := [600, 700, 800], cells := List.replicate 20 700, spares := [700, 700], replicaBad := false }) 1000 ({ (w0) with age := { (w0).age with islands := [(0, { State.island w0 0 with quiet := some 0, due := some 0 })] } })) (by decide))
  have _ := (((((((((h).2.2.2.2.2.2.2.1) 0 0 1 0 ({ { (w0) with age := { (w0).age with islands := [(0, { State.island w0 0 with due := some 0, quiet := none, quiesceAt := none, draining := false })] } } with sys := { ({ (w0) with age := { (w0).age with islands := [(0, { State.island w0 0 with due := some 0, quiet := none, quiesceAt := none, draining := false })] } }).sys with timeUs := 1000000000000000 } })) (by decide)) (by decide)) (by decide)) (by decide)) (by decide)) (by decide))
  have _ := ((((((((h).2.2.2.2.2.2.2.2.1) 0 0 1 0 ({ (w0) with age := { (w0).age with islands := [(0, { State.island w0 0 with due := some 0, quiesceAt := some 0, draining := false })] } })) (by decide)) (by decide)) (by decide)) (by decide)) (by decide))
  have _ := ((((h).2.2.2.2.2.2.2.2.2.1) ({ (w0) with age := { (w0).age with planned := true } })) (Or.inl rfl))
  have _ := (((((h).2.2.2.2.2.2.2.2.2.2.1) w0) (by decide)) (by decide))
  have _ := ((((((h).2.2.2.2.2.2.2.2.2.2.2) ([600, 700, 800]) 300 0).2.2.2) 100) (by decide))
  trivial

end

end Sys2Proof.Tests
end

section
/-! The identity header (R306): reading a field of a record that is put together from placed fields. -/

open Sys2Proof Sys2Proof.Machine

namespace Sys2Proof.IdentityHeader

/-! ## Fields placed in a record -/

theorem fldB_or (a b byte n : Nat) : fldB (a ||| b) byte n = fldB a byte n ||| fldB b byte n := by
  simp only [fldB, Nat.shiftRight_or_distrib, Nat.or_mod_two_pow]

theorem fldB_plcB_same (byte n v : Nat) : fldB (plcB byte n v) byte n = v % 2 ^ (8 * n) := by
  simp only [fldB, plcB, Nat.shiftLeft_shiftRight, Nat.mod_mod]

theorem plcB_lt {byte n bits : Nat} (v : Nat) (h : 8 * (byte + n) ≤ bits) : plcB byte n v < 2 ^ bits := by
  have hfit : v % 2 ^ (8 * n) < 2 ^ (8 * n) := Nat.mod_lt _ (Nat.two_pow_pos _)
  calc plcB byte n v = v % 2 ^ (8 * n) * 2 ^ (8 * byte) := Nat.shiftLeft_eq _ _
    _ < 2 ^ (8 * n) * 2 ^ (8 * byte) := Nat.mul_lt_mul_of_pos_right hfit (Nat.two_pow_pos _)
    _ = 2 ^ (8 * n + 8 * byte) := (Nat.pow_add _ _ _).symm
    _ ≤ 2 ^ bits := Nat.pow_le_pow_right (by decide) (by omega)

/-- A field reads zero from a value placed in other bytes: below the field the shift drops it, above the field the remainder does. -/
theorem fldB_plcB_of_disjoint {k m byte n : Nat} (v : Nat) (h : k + m ≤ byte ∨ byte + n ≤ k) : fldB (plcB k m v) byte n = 0 := by
  rcases h with hbelow | habove
  · rw [fldB, Nat.shiftRight_eq_zero _ _ (plcB_lt v (by omega)), Nat.zero_mod]
  · have hshift : 8 * k = 8 * (k - byte) + 8 * byte := by omega
    rw [fldB, plcB, hshift, Nat.shiftLeft_add, Nat.shiftLeft_shiftRight, Nat.shiftLeft_eq]
    exact Nat.mod_eq_zero_of_dvd (Nat.dvd_mul_left_of_dvd (Nat.pow_dvd_pow 2 (by omega)) _)

/-! ## The header of any state -/

/-- A configuration read below byte 256 answers the header's byte, whatever the function (R305). -/
theorem cfgByte_of_lt_256 (s : State) (p : Nat) {off : Nat} (h : off < 256) :
    s.cfgByte p off = BitVec.ofNat 8 (s.identHeader >>> (8 * off)) := if_pos h

/-- The header's fields end at bit 320, so its RSVD bytes are zero. -/
theorem identHeader_lt (s : State) {bits : Nat} (h : 320 ≤ bits) : s.identHeader < 2 ^ bits := by
  unfold State.identHeader
  iterate 11 refine Nat.or_lt_two_pow ?_ (plcB_lt _ (by omega))
  exact plcB_lt _ (by omega)

/-- Every field reads the value placed in it: VARIANT and STATE as their codes, the other fields as far as they hold their value. -/
theorem fldB_identHeader (s : State) :
    fldB s.identHeader 0 2 = 0x5D7A ∧ fldB s.identHeader 2 2 = 0x1200 ∧
    fldB s.identHeader 4 1 = (if s.sys.variantT then 1 else 2) ∧ fldB s.identHeader 5 1 = s.sys.state.num ∧
    fldB s.identHeader 6 2 = s.sys.nodeId % 2 ^ 16 ∧ fldB s.identHeader 16 4 = 0x1000 ∧
    fldB s.identHeader 20 4 = s.sys.capLength % 2 ^ 32 ∧ fldB s.identHeader 24 4 = 0x10000 ∧
    fldB s.identHeader 28 4 = s.sys.fwPorter % 2 ^ 32 ∧ fldB s.identHeader 32 4 = s.sys.fwInnkeeper % 2 ^ 32 ∧
    fldB s.identHeader 36 4 = s.sys.haltCode % 2 ^ 32 := by
  have hvariant : (if s.sys.variantT then 1 else 2) % 256 = if s.sys.variantT then 1 else 2 := by split <;> rfl
  have hstate : s.sys.state.num % 256 = s.sys.state.num := by cases s.sys.state <;> rfl
  and_intros <;>
    simp only [State.identHeader, fldB_or, fldB_plcB_same, fldB_plcB_of_disjoint, hvariant, hstate,
      Nat.reduceAdd, Nat.reduceLeDiff, true_or, or_true, Nat.zero_or, Nat.or_zero, Nat.reduceMul, Nat.reducePow, Nat.reduceMod]

end Sys2Proof.IdentityHeader

open Sys2Proof.IdentityHeader

/-- Settles O4: the header's fields in any state, read in the state of power-good. -/
theorem headerAtPowerGood : Obligations.HeaderAtPowerGood := by
  refine ⟨fun s p off => cfgByte_of_lt_256 s p, ?_⟩
  rintro _ rfl
  obtain ⟨hvendor, hproduct, hvariant, hstate, hnode, hcapOff, hcapLen, hdoorbell, hporter, hinnkeeper, hhalt⟩ := fldB_identHeader State.reset
  have hrsvd := identHeader_lt State.reset (Nat.le_refl 320)
  exact ⟨hvendor, hproduct, .inl hvariant, hstate, hnode, hcapOff, hcapLen, hdoorbell, hporter, hinnkeeper, hhalt, hrsvd⟩

end

section
/-! Ceilings (R467): the ceiling of a block is the least of the emergencies', and every powered block above its ceiling falls to it. -/

open Sys2Proof Sys2Proof.Machine

namespace Sys2Proof.Ceilings

/-! ## Reading a table -/

theorem getD_of_find {α : Type} {t : Sys2Proof.Tab α} {k : Nat} {v d : α} (h : Tab.find t k = some v) : Tab.getD t k d = v := by
  rw [Tab.getD, h, Option.getD_some]

theorem getD_of_find_none {α : Type} {t : Sys2Proof.Tab α} {k : Nat} {d : α} (h : Tab.find t k = none) : Tab.getD t k d = d := by
  rw [Tab.getD, h, Option.getD_none]

theorem mem_keys_of_find {α : Type} {t : Sys2Proof.Tab α} {k : Nat} {v : α} (h : Tab.find t k = some v) : k ∈ Tab.keys t := by
  induction t with
  | nil => cases h
  | cons e l ih =>
    rw [Tab.find_cons] at h
    rcases Decidable.em (k = e.1) with rfl | hne
    · exact List.mem_cons_self
    · rw [if_neg hne] at h
      exact List.mem_cons_of_mem _ (ih h)

/-! ## The ceiling is the least of those that emergencies set -/

theorem le_ceiling_iff (s : State) (b m : Nat) :
    m ≤ s.ceiling b ↔ m ≤ s.pow.cap.mhz ∧ m ≤ s.pow.therm.mhz ∧ m ≤ (if s.pow.dimm then 600 else 1000) ∧
      m ≤ Tab.getD s.pow.overCeil b 1000 := by
  simp only [State.ceiling, Nat.le_min, and_assoc]

theorem ceiling_le_1000 (s : State) (b : Nat) : s.ceiling b ≤ 1000 := by
  obtain ⟨-, -, hdimm, -⟩ := (le_ceiling_iff s b _).mp (Nat.le_refl _)
  split at hdimm <;> omega

theorem ceiling_le_overCeil {s : State} {b m : Nat} (hfind : Tab.find s.pow.overCeil b = some m) : s.ceiling b ≤ m := by
  obtain ⟨-, -, -, hover⟩ := (le_ceiling_iff s b _).mp (Nat.le_refl _)
  rwa [getD_of_find hfind] at hover

theorem ceiling_attained (s : State) (b : Nat) :
    s.ceiling b = s.pow.cap.mhz ∨ s.ceiling b = s.pow.therm.mhz ∨ s.ceiling b = (if s.pow.dimm then 600 else 1000) ∨
    s.ceiling b = Tab.getD s.pow.overCeil b 1000 := by
  unfold State.ceiling
  omega

/-- The ceiling is one that an emergency sets, or there is none. -/
theorem ceiling_set_by (s : State) (b : Nat) :
    s.ceiling b = s.pow.cap.mhz ∨ s.ceiling b = s.pow.therm.mhz ∨ (s.pow.dimm = true ∧ s.ceiling b = 600) ∨
    Tab.find s.pow.overCeil b = some (s.ceiling b) ∨ s.ceiling b = 1000 := by
  rcases ceiling_attained s b with hcap | htherm | hdimm | hover
  · exact .inl hcap
  · exact .inr (.inl htherm)
  · by_cases hon : s.pow.dimm = true
    · exact .inr (.inr (.inl ⟨hon, hdimm.trans (if_pos hon)⟩))
    · exact .inr (.inr (.inr (.inr (hdimm.trans (if_neg hon)))))
  · cases hfind : Tab.find s.pow.overCeil b with
    | some m => exact .inr (.inr (.inr (.inl (congrArg some (hover.trans (getD_of_find hfind)).symm))))
    | none => exact .inr (.inr (.inr (.inr (hover.trans (getD_of_find_none hfind)))))

/-! ## A block that falls -/

/-- The block at a ceiling: fallen to it when it is powered and above it, as it was otherwise. -/
def cappedAt (m : Nat) (x : Block) : Block := if x.powered && decide (m < x.mhz) then { x with mhz := m } else x

@[simp] theorem powered_cappedAt (m : Nat) (x : Block) : (cappedAt m x).powered = x.powered := by
  unfold cappedAt
  split <;> rfl

theorem mhz_cappedAt (m : Nat) (x : Block) : (cappedAt m x).mhz = if x.powered = true ∧ m < x.mhz then m else x.mhz := by
  simp only [cappedAt, Bool.and_eq_true, decide_eq_true_eq, apply_ite Block.mhz]

theorem cappedAt_of_unpowered {x : Block} (m : Nat) (h : x.powered = false) : cappedAt m x = x := by
  simp only [cappedAt, h, Bool.false_and, Bool.false_eq_true, if_false]

theorem cappedAt_of_le {m : Nat} {x : Block} (h : x.mhz ≤ m) : cappedAt m x = x := by
  simp only [cappedAt, Nat.not_lt.mpr h, decide_false, Bool.and_false, Bool.false_eq_true, if_false]

/-- A block that has fallen to a ceiling is not above it, so it falls no further. -/
theorem cappedAt_cappedAt (m : Nat) (x : Block) : cappedAt m (cappedAt m x) = cappedAt m x := by
  cases hpow : x.powered with
  | false => rw [cappedAt_of_unpowered m hpow, cappedAt_of_unpowered m hpow]
  | true =>
    refine cappedAt_of_le ?_
    simp only [mhz_cappedAt, hpow, true_and]
    split <;> omega

@[simp] theorem block_setBlock (s : State) (b c : Nat) (x : Block) : (s.setBlock b x).block c = if c = b then x else s.block c :=
  Tab.getD_put _ _ _ _ _

@[simp] theorem block_fallTo (s : State) (b f c : Nat) :
    (s.fallTo b f).block c = if c = b then { s.block b with mhz := f } else s.block c :=
  block_setBlock _ _ _ _

@[simp] theorem ceiling_fallTo (s : State) (b f c : Nat) : (s.fallTo b f).ceiling c = s.ceiling c := rfl

/-! ## One block after another falls to its ceiling -/

/-- What `applyCeilings` does for one block. -/
def capBlock (s : State) (b : Nat) : State :=
  if (s.block b).powered && decide (s.ceiling b < (s.block b).mhz) then s.fallTo b (s.ceiling b) else s

theorem applyCeilings_eq_foldl (s : State) : s.applyCeilings = (Tab.keys s.fab.blocks).foldl capBlock s := rfl

@[simp] theorem ceiling_capBlock (s : State) (b c : Nat) : (capBlock s b).ceiling c = s.ceiling c := by
  unfold capBlock
  split <;> rfl

theorem block_capBlock (s : State) (b c : Nat) :
    (capBlock s b).block c = if c = b then cappedAt (s.ceiling b) (s.block b) else s.block c := by
  unfold capBlock cappedAt
  split
  · exact block_fallTo s b _ c
  · rcases Decidable.em (c = b) with rfl | hne
    · exact (if_pos rfl).symm
    · exact (if_neg hne).symm

theorem ceiling_foldl_capBlock (l : List Nat) (s : State) (c : Nat) : (l.foldl capBlock s).ceiling c = s.ceiling c := by
  induction l generalizing s with
  | nil => rfl
  | cons b l ih => exact (ih _).trans (ceiling_capBlock s b c)

/-- The blocks of the list have fallen to their ceilings, however often the list names them; the others are as they were. -/
theorem block_foldl_capBlock (l : List Nat) (s : State) (c : Nat) :
    (l.foldl capBlock s).block c = if c ∈ l then cappedAt (s.ceiling c) (s.block c) else s.block c := by
  induction l generalizing s with
  | nil => rfl
  | cons b l ih =>
    rw [List.foldl_cons, ih, ceiling_capBlock, block_capBlock]
    rcases Decidable.em (c = b) with rfl | hne
    · simp only [List.mem_cons_self, if_true, cappedAt_cappedAt, ite_self]
    · simp only [List.mem_cons, hne, false_or, if_false]

/-- A block that the table of blocks does not hold reads as unpowered. -/
theorem unpowered_of_not_mem_keys {s : State} {b : Nat} (h : b ∉ Tab.keys s.fab.blocks) : (s.block b).powered = false := by
  cases hfind : Tab.find s.fab.blocks b with
  | some x => exact absurd (mem_keys_of_find hfind) h
  | none => rw [State.block, getD_of_find_none hfind]

theorem ceiling_applyCeilings (s : State) (b : Nat) : s.applyCeilings.ceiling b = s.ceiling b :=
  ceiling_foldl_capBlock _ s b

theorem block_applyCeilings (s : State) (b : Nat) : s.applyCeilings.block b = cappedAt (s.ceiling b) (s.block b) := by
  rw [applyCeilings_eq_foldl, block_foldl_capBlock]
  split
  · rfl
  next habsent => exact (cappedAt_of_unpowered _ (unpowered_of_not_mem_keys habsent)).symm

end Sys2Proof.Ceilings

open Sys2Proof.Ceilings

/-- Settles O9: the ceiling and the target are minima, and `applyCeilings` leaves every block capped at its ceiling. -/
theorem lowestCeiling : Obligations.LowestCeiling := by
  refine ⟨fun s b => ?ceiling, fun s b => ?target, fun s b => ?applied⟩
  case ceiling =>
    obtain ⟨hcap, htherm, hdimm, -⟩ := (le_ceiling_iff s b _).mp (Nat.le_refl _)
    exact ⟨hcap, htherm, fun hon => Nat.le_trans hdimm (Nat.le_of_eq (if_pos hon)), fun m => ceiling_le_overCeil, ceiling_le_1000 s b, ceiling_set_by s b⟩
  case target =>
    exact ⟨Nat.min_le_right _ _, fun hplanned hchosen => Nat.min_eq_right (Nat.le_min.mpr ⟨hplanned, hchosen⟩)⟩
  case applied =>
    rw [block_applyCeilings]
    exact ⟨ceiling_applyCeilings s b, powered_cappedAt _ _, mhz_cappedAt _ _⟩

end

section
/-! What the commands keep: every command but AON_START answers a state that keeps to its base, that is, with the base's SLOT_ID and a fault
log that has only grown, by entries of that SLOT_ID (R546). The operations' lemmas of Laws/Keeps carry it; a command's proof follows the
branches of its meaning. A command whose proof is one term stands in the case split of `exec_keeps`, the others have a lemma each. -/

namespace Sys2Proof.Machine

/-- A command that answers a next state answers one that keeps to the base. -/
def Keeps (kB : KeepBase) (o : Outc) : Prop := ∀ t, o = .next t → Canon kB t

section
variable {kB : KeepBase} {s : State}

theorem keeps_next {t : State} (h : Canon kB t) : Keeps kB (.next t) := by
  intro t' e
  cases e
  exact h

theorem canon_ite {c : Prop} [Decidable c] {a b : State} (ha : Canon kB a) (hb : Canon kB b) : Canon kB (if c then a else b) := by
  split <;> assumption

/-! ## The frames of commands and messages -/

theorem runCmd_keeps {q opcode record cls body} (hC : Canon kB s) (hb : ∀ {e t}, Canon kB t → Canon kB (body e t).1) :
    Keeps kB (.next (runCmd s q opcode record cls body)) :=
  keeps_next (runCmd_canon hC fun _ _ => hb)

theorem runMsg_keeps {m cls p body} (hC : Canon kB s) (hb : ∀ {t}, Canon kB t → Canon kB (body t).1) :
    Keeps kB (.next (runMsg s m cls p body)) :=
  keeps_next (runMsg_canon hC fun _ => hb)

theorem runPlain_keeps {m cls p body} (hC : Canon kB s) (hb : ∀ {t}, Canon kB t → Canon kB (body t).1) :
    Keeps kB (.next (runPlain s m cls p body)) :=
  keeps_next (runPlain_canon hC fun _ => hb)

/-! ## The local memory of a cell that issues an instruction -/

theorem vReady_wf {c op sub regs v} (hC : Canon kB s) (hv : s.vReady c op sub regs = some v) : kB.mem → Memory.wf v.x.local' = true :=
  fun hm => vReady_local hC hm hv

theorem sReady_wf {c op sub regs v} (hC : Canon kB s) (hv : s.sReady c op sub regs = some v) : kB.mem → Memory.wf v.x.local' = true :=
  fun hm => sReady_local hC hm hv

@[simp] theorem SCell.goOp_local (x : SCell) (t l : Nat) (r : List Nat) : (x.goOp t l r).local' = x.local' := rfl

/-! ## Host objects -/

theorem execSubmissionEntry_keeps {q} (hC : Canon kB s) : Keeps kB (execSubmissionEntry q s) := by
  refine keeps_next ?_
  split
  · exact hC
  · refine canon_ite hC ?_
    split
    · exact hC
    · split
      · exact hC
      · extract_lets
        refine canon_ite (State.entryRefused_canon hC) (canon_ite (State.entryRefused_canon hC) ?_)
        split
        · exact State.entryRefused_canon hC
        · exact canon_ite (State.skipBad_canon (State.setRing_canon hC)) (State.setRing_canon hC)

theorem execCommandBufferStart_keeps {q} (hC : Canon kB s) : Keeps kB (execCommandBufferStart q s) := by
  refine keeps_next ?_
  split
  · exact hC
  · split
    · exact hC
    · refine canon_ite hC ?_
      extract_lets
      refine canon_ite hC ?_
      split
      · exact State.entryRefused_canon hC
      · exact canon_ite (State.endBuffer_canon (State.setRing_canon hC)) (State.skipBad_canon (State.setRing_canon hC))

theorem execAnswerWrittenOnRoom_keeps {q} (hC : Canon kB s) : Keeps kB (execAnswerWrittenOnRoom q s) := by
  refine keeps_next ?_
  split
  · exact hC
  · exact State.skipBad_canon (State.tryEnd_canon (State.flushOut_canon hC))

theorem execEventWrite_keeps (hC : Canon kB s) : Keeps kB (execEventWrite s) := by
  refine keeps_next ?_
  split
  · exact hC
  · exact canon_ite hC (State.served_canon (State.writeEvent_canon (canon7 hC)))

theorem execEventsLost_keeps {q} (hC : Canon kB s) : Keeps kB (execEventsLost q s) := by
  refine keeps_next ?_
  split
  · exact hC
  · exact canon_ite (State.served_canon (State.writeLost_canon hC)) hC

/-! ## Fences -/

theorem execFenceWaitTimeout_keeps {ring} (hC : Canon kB s) : Keeps kB (execFenceWaitTimeout ring s) := by
  refine keeps_next ?_
  split
  · exact hC
  · refine canon_ite hC ?_
    extract_lets _ s1
    have hs1 : Canon kB s1 := canon7 hC
    exact State.answerCmd_canon hs1

/-! ## Waybills and tile queues -/

theorem execWaybillEnqueue_keeps {q} (hC : Canon kB s) : Keeps kB (execWaybillEnqueue q s) := by
  refine keeps_next ?_
  split
  · refine canon_ite hC ?_
    extract_lets _ s1
    have hs1 : Canon kB s1 := canon7 hC
    exact canon_ite (canon7 hs1) (State.enqueueNow_canon hs1)
  · exact hC

theorem execHubDirectoryEnqueue_keeps {q} (hC : Canon kB s) : Keeps kB (execHubDirectoryEnqueue q s) := by
  refine keeps_next ?_
  split
  · refine canon_ite hC ?_
    extract_lets _ s1
    have hs1 : Canon kB s1 := canon7 hC
    exact canon_ite (State.countStall_canon (canon7 hs1)) (State.enqueueNow_canon hs1)
  · exact hC

theorem execRefillGroupStart_keeps {q} (hC : Canon kB s) : Keeps kB (execRefillGroupStart q s) := by
  refine keeps_next ?_
  split
  · exact hC
  · exact canon_ite hC (State.setQueue_canon hC)

theorem execRefillGroupComplete_keeps {q} (hC : Canon kB s) : Keeps kB (execRefillGroupComplete q s) := by
  refine keeps_next ?_
  split
  · exact hC
  · refine canon_ite hC ?_
    extract_lets _ _ s1
    have hs1 : Canon kB s1 := State.setQueue_canon hC
    split
    · exact hs1
    · exact canon_foldl hs1 fun _ _ h => State.ringWrite_canon h

theorem execEngineCommit_keeps {e} (hC : Canon kB s) : Keeps kB (execEngineCommit e s) := by
  refine keeps_next ?_
  split
  · exact hC
  · split
    · exact hC
    · exact canon_ite (State.tryCommit_canon hC) hC

theorem execOrderedCommitSignal_keeps {p station} (hC : Canon kB s) : Keeps kB (execOrderedCommitSignal p station s) := by
  refine keeps_next ?_
  split
  · exact hC
  · split
    · exact hC
    · split
      · exact hC
      · split
        · exact hC
        · exact canon_ite (State.tryCommit_canon hC) hC

/-! ## Stations -/

theorem execStationUnbound_keeps {p id} (hC : Canon kB s) : Keeps kB (execStationUnbound p id s) := by
  refine keeps_next ?_
  split
  · exact hC
  · split
    · exact hC
    · exact State.answerCmd_canon (State.setStation_canon hC)

theorem execStationPredicateArrive_keeps {p id} (hC : Canon kB s) : Keeps kB (execStationPredicateArrive p id s) := by
  refine keeps_next ?_
  split
  · exact hC
  · extract_lets _ s1
    have hs1 : Canon kB s1 := canon7 hC
    split
    · exact State.setStation_canon hs1
    · exact hs1

theorem execStationPredicated_keeps {p id} (hC : Canon kB s) : Keeps kB (execStationPredicated p id s) := by
  refine keeps_next ?_
  split
  · exact hC
  · extract_lets _ s1
    have hs1 : Canon kB s1 := canon7 hC
    split
    · exact State.answerCmd_canon hs1
    · exact hs1

/-! ## Partitions, epochs, moves and queue pairs -/

theorem execBlockReleased_keeps {block} (hC : Canon kB s) : Keeps kB (execBlockReleased block s) := by
  refine keeps_next ?_
  split
  · exact hC
  · exact canon_ite hC (State.answerMsg_canon (canon7 hC))

theorem execBlockMoved_keeps {src} (hC : Canon kB s) : Keeps kB (execBlockMoved src s) := by
  refine keeps_next ?_
  split
  · exact hC
  · exact canon_ite hC (State.answerMsg_canon (canon7 hC))

theorem execEpochRetire_keeps {p} (hC : Canon kB s) : Keeps kB (execEpochRetire p s) := by
  refine keeps_next ?_
  split
  · exact hC
  · split
    · exact hC
    · refine canon_ite hC ?_
      extract_lets s1 _ s2
      have hs1 : Canon kB s1 := State.setPart_canon hC
      have hs2 : Canon kB s2 := canon_foldl hs1 fun _ _ h => State.releaseBlock_canon h
      exact canon7 hs2

theorem execQueuePairRetargeted_keeps {q} (hC : Canon kB s) : Keeps kB (execQueuePairRetargeted q s) := by
  refine keeps_next ?_
  split
  · exact hC
  · split
    · exact hC
    · exact canon_ite hC (State.answerMsg_canon (State.setQpair_canon hC))

/-! ## Matrix cells -/

theorem execMEnd_keeps {c} (hC : Canon kB s) : Keeps kB (execMEnd c s) := by
  refine keeps_next ?_
  split
  · exact hC
  · exact State.endStart_canon (State.setM_canon hC)

theorem execMAccst_keeps {c} (hC : Canon kB s) : Keeps kB (execMAccst c s) := by
  refine keeps_next ?_
  split
  · exact hC
  · extract_lets
    split
    · exact State.addAccess_canon (State.setM_canon hC)
    · exact State.addViolation_canon hC

theorem execMEmit_keeps {c} (hC : Canon kB s) : Keeps kB (execMEmit c s) := by
  refine keeps_next ?_
  split
  · exact hC
  · exact State.setM_canon (State.addEmit_canon hC)

/-! ## Vector cells -/

theorem execVTkinit_keeps {c} (hC : Canon kB s) : Keeps kB (execVTkinit c s) := by
  refine keeps_next ?_
  split
  · exact hC
  · exact State.setV_canon hC (by simpa [apply_ite VCell.local'] using vReady_wf hC ‹_›)

theorem execVTkpush_keeps {c} (hC : Canon kB s) : Keeps kB (execVTkpush c s) := by
  refine keeps_next ?_
  split
  · exact hC
  · extract_lets
    split
    · exact State.setV_canon hC (by simpa using vReady_wf hC ‹_›)
    · exact canon_ite (State.setV_canon hC (by simpa using vReady_wf hC ‹_›)) (State.setV_canon hC (by simpa using vReady_wf hC ‹_›))

theorem execVTkpop_keeps {c} (hC : Canon kB s) : Keeps kB (execVTkpop c s) := by
  refine keeps_next ?_
  split
  · exact hC
  · extract_lets _ fill
    split
    · exact State.setV_canon (canon7 hC) (by simpa [fill] using vReady_wf hC ‹_›)
    · exact State.setV_canon hC (by simpa [fill] using vReady_wf hC ‹_›)

theorem execVAop_keeps {c} (hC : Canon kB s) : Keeps kB (execVAop c s) := by
  refine keeps_next ?_
  split
  · exact hC
  · exact State.setV_canon (canon7 hC) (by simpa using vReady_wf hC ‹_›)

theorem execVBr_keeps {c} (hC : Canon kB s) : Keeps kB (execVBr c s) := by
  refine keeps_next ?_
  split
  · exact hC
  · exact canon_ite (State.setV_canon hC (by simpa using vReady_wf hC ‹_›)) (State.setV_canon hC (by simpa using vReady_wf hC ‹_›))

theorem execVSr_keeps {c} (hC : Canon kB s) : Keeps kB (execVSr c s) := by
  refine keeps_next ?_
  split
  · exact hC
  · exact canon_ite (State.setV_canon hC (by simpa [apply_ite VCell.local'] using vReady_wf hC ‹_›)) (State.setV_canon hC
      (by simpa [apply_ite VCell.local'] using vReady_wf hC ‹_›))

theorem execVEnd_keeps {c} (hC : Canon kB s) : Keeps kB (execVEnd c s) := by
  refine keeps_next ?_
  split
  · exact hC
  · exact State.endStart_canon (State.setV_canon hC (by simpa using vReady_wf hC ‹_›))

/-! ## Vector memory -/

theorem execVVst_keeps {c} (hC : Canon kB s) : Keeps kB (execVVst c s) := by
  refine keeps_next ?_
  split
  · exact hC
  · extract_lets
    split
    · exact VEnv.fault_canon hC
    · refine State.setV_canon hC fun hm => ?_
      simp only [VCell.go_local, VCell.flag_local]
      exact wf_foldl (vReady_wf hC ‹_› hm) fun _ _ h => Memory.wf_write h _ _
    · exact VEnv.sliceStore_canon hC (by simpa using vReady_wf hC ‹_›)

theorem execVVldx_keeps {c} (hC : Canon kB s) : Keeps kB (execVVldx c s) := by
  refine keeps_next ?_
  split
  · exact hC
  · extract_lets _ _ y
    split
    · exact VEnv.fault_canon hC
    · exact State.setV_canon hC (by simpa [y] using vReady_wf hC ‹_›)

theorem execVVstx_keeps {c} (hC : Canon kB s) : Keeps kB (execVVstx c s) := by
  refine keeps_next ?_
  split
  · exact hC
  · extract_lets
    split
    · exact VEnv.fault_canon hC
    · exact State.setV_canon hC fun hm => wf_foldl (vReady_wf hC ‹_› hm) fun _ _ h => Memory.wf_writeN h _ _ _

theorem execVSta_keeps {c} (hC : Canon kB s) : Keeps kB (execVSta c s) := by
  refine keeps_next ?_
  split
  · exact hC
  · extract_lets
    split
    · exact VEnv.fault_canon hC
    · exact State.setV_canon hC fun hm => Memory.wf_writeN (vReady_wf hC ‹_› hm) _ _ _
    · exact VEnv.sliceStore_canon hC (by simpa using vReady_wf hC ‹_›)

theorem execVEmit_keeps {c} (hC : Canon kB s) : Keeps kB (execVEmit c s) := by
  refine keeps_next ?_
  split
  · exact hC
  · extract_lets
    split
    · exact VEnv.fault_canon hC
    · exact VEnv.fault_canon hC
    · exact VEnv.fault_canon hC
    · extract_lets r
      have hr : Canon kB r.1 := State.addEmit_canon hC
      split
      · exact State.setV_canon hr (by simpa using vReady_wf hC ‹_›)
      · exact State.setV_canon hr (by simpa using vReady_wf hC ‹_›)

/-! ## Scalar cells -/

theorem execSSt_keeps {c} (hC : Canon kB s) : Keeps kB (execSSt c s) := by
  refine keeps_next ?_
  split
  · exact hC
  · extract_lets
    split
    · exact SEnv.fault_canon hC
    · exact State.setS_canon hC fun hm => Memory.wf_writeL (sReady_wf hC ‹_› hm) _ _
    · split
      · exact State.addViolation_canon hC
      · exact canon_ite hC (State.addAccess_canon (State.setS_canon hC (by simpa using sReady_wf hC ‹_›)))

theorem execSAmo_keeps {c} (hC : Canon kB s) : Keeps kB (execSAmo c s) := by
  refine keeps_next ?_
  split
  · exact hC
  · extract_lets
    split
    · exact SEnv.fault_canon hC
    · exact SEnv.fault_canon hC
    · split
      · exact State.addViolation_canon hC
      · exact canon_ite hC (State.addAccess_canon (State.setS_canon hC (by simpa using sReady_wf hC ‹_›)))

theorem execSQocc_keeps {c} (hC : Canon kB s) : Keeps kB (execSQocc c s) := by
  refine keeps_next ?_
  split
  · exact hC
  · extract_lets
    split
    · exact SEnv.fault_canon hC
    · exact canon_ite (SEnv.fault_canon hC) (canon_ite hC (State.setS_canon hC (by simpa using sReady_wf hC ‹_›)))

theorem execSSr_keeps {c} (hC : Canon kB s) : Keeps kB (execSSr c s) := by
  refine keeps_next ?_
  split
  · exact hC
  · exact canon_ite (State.setS_canon hC (by simpa [apply_ite SCell.local'] using sReady_wf hC ‹_›)) (State.setS_canon hC
      (by simpa [apply_ite SCell.local'] using sReady_wf hC ‹_›))

theorem execSEnd_keeps {c} (hC : Canon kB s) : Keeps kB (execSEnd c s) := by
  refine keeps_next ?_
  split
  · exact hC
  · extract_lets s1
    have hs1 : Canon kB s1 := State.setS_canon hC (by simpa using sReady_wf hC ‹_›)
    split
    · exact State.endStart_canon hs1
    · exact State.event_canon (State.haltSteward_canon hs1)

theorem execSQput_keeps {c} (hC : Canon kB s) : Keeps kB (execSQput c s) := by
  refine keeps_next ?_
  split
  · exact hC
  · rename_i v hv
    have hl := sReady_wf hC hv
    extract_lets _ _ ret
    have hret : ∀ {t x} k, Canon kB t → x.local' = v.x.local' → Canon kB (ret t x k) := fun k ht hx =>
      State.setS_canon ht (by simpa [hx] using hl)
    split
    · exact SEnv.fault_canon hC
    · exact SEnv.fault_canon hC
    · refine canon_ite (SEnv.fault_canon hC) (canon_ite hC ?_)
      extract_lets _ w
      split
      · exact hret _ hC rfl
      · exact canon_ite (hret _ hC rfl) (hret _ (State.launch_canon hC) rfl)

theorem execSQtake_keeps {c} (hC : Canon kB s) : Keeps kB (execSQtake c s) := by
  refine keeps_next ?_
  split
  · exact hC
  · rename_i v hv
    have hl := sReady_wf hC hv
    extract_lets _ empty
    have hempty : ∀ {t} k, Canon kB t → Canon kB (empty t k) := fun k ht => State.setS_canon ht (by simpa using hl)
    split
    · exact SEnv.fault_canon hC
    · exact SEnv.fault_canon hC
    · refine canon_ite hC ?_
      split
      · exact hempty _ hC
      · extract_lets d x
        split
        · exact hempty _ (State.setQueue_canon hC)
        · refine State.setS_canon (State.fenceAction_canon (State.setQueue_canon hC)) fun hm => ?_
          simp only [SCell.goOp_local, SCell.setR_local]
          exact Memory.wf_writeL (hl hm) _ _

theorem execSWaitqResume_keeps {c} (hC : Canon kB s) : Keeps kB (execSWaitqResume c s) := by
  refine keeps_next ?_
  split
  · exact hC
  · extract_lets
    split
    · exact hC
    · extract_lets
      refine canon_ite (State.setS_canon hC (by simpa using fun hm => scell_local hC hm)) ?_
      split
      · exact canon_ite (State.setS_canon hC (by simpa using fun hm => scell_local hC hm)) hC
      · exact hC

theorem execSCancel_keeps {c} (hC : Canon kB s) : Keeps kB (execSCancel c s) := by
  refine keeps_next ?_
  split
  · exact hC
  · rename_i v hv
    have hl := sReady_wf hC hv
    extract_lets id t ret
    have hret : ∀ {t} k, Canon kB t → Canon kB (ret t k) := fun k ht => State.setS_canon ht (by simpa using hl)
    exact canon_ite hC (canon_ite (canon_ite (hret _ hC) (hret _ (State.setCancel_canon hC)))
      (canon_ite (hret _ (State.setCancel_canon hC)) (hret _ hC)))

theorem execSPred_keeps {c} (hC : Canon kB s) : Keeps kB (execSPred c s) := by
  refine keeps_next ?_
  split
  · exact hC
  · extract_lets
    split
    · exact SEnv.fault_canon hC
    · exact canon_ite hC (State.setS_canon (State.setStation_canon hC) (by simpa using sReady_wf hC ‹_›))

theorem execSCrd_keeps {c} (hC : Canon kB s) : Keeps kB (execSCrd c s) := by
  refine keeps_next ?_
  split
  · exact hC
  · split
    · exact SEnv.fault_canon hC
    · exact canon_ite hC (State.setS_canon hC (by simpa using sReady_wf hC ‹_›))

/-! ## The milestone line and the cancel set -/

theorem execCancelHoldExpire_keeps {p id} (hC : Canon kB s) : Keeps kB (execCancelHoldExpire p id s) := by
  refine keeps_next ?_
  split
  · exact canon_ite (State.setCancel_canon hC) hC
  · exact hC

/-! ## Criers and caravans -/

theorem execCrierSend_keeps {carrier device srcBlock srcOff length dstOff mask} (hC : Canon kB s) :
    Keeps kB (execCrierSend carrier device srcBlock srcOff length dstOff mask s) := by
  refine keeps_next ?_
  extract_lets
  split
  · exact hC
  · refine canon_ite (State.endStream_canon hC) (canon_ite (State.endStream_canon hC) ?_)
    split
    · exact State.freezeEngine_canon hC
    · exact canon_ite (State.freezeEngine_canon hC) (canon_ite hC (canon_ite (State.endStream_canon hC) (canon7 hC)))

theorem execCrierStageGrant_keeps {r} (hC : Canon kB s) : Keeps kB (execCrierStageGrant r s) := by
  refine keeps_next ?_
  extract_lets
  refine canon_ite hC ?_
  split
  · exact State.setCrier_canon hC
  · exact State.setCrier_canon hC
  · exact canon_ite (State.setCrier_canon hC) (State.setCrier_canon (State.takeStage_canon hC))

theorem execDeliveryMark_keeps {send target} (hC : Canon kB s) : Keeps kB (execDeliveryMark send target s) := by
  refine keeps_next ?_
  split
  · exact hC
  · exact canon_ite hC (State.post_canon (State.updSend_canon hC))

theorem execCaravanWrite_keeps {carrier id off srcBlock srcOff length} (hC : Canon kB s) :
    Keeps kB (execCaravanWrite carrier id off srcBlock srcOff length s) := by
  refine keeps_next ?_
  extract_lets
  split
  · exact hC
  · extract_lets
    split
    · exact State.endStream_canon hC
    · refine canon_ite (State.endStream_canon hC) (canon_ite (State.freezeEngine_canon hC) (canon_ite hC (canon_ite (State.endStream_canon hC) ?_)))
      extract_lets _ _ _ s1
      have hs1 : Canon kB s1 := canon7 hC
      exact canon_foldl hs1 fun _ _ h => State.addAccess_canon h

/-! ## Translation -/

theorem execMirrorSyncSend_keeps {p} (hC : Canon kB s) : Keeps kB (execMirrorSyncSend p s) := by
  refine keeps_next ?_
  split
  · exact hC
  · exact canon_ite hC (State.served_canon (canon7 hC))

theorem execBtuInvalidate_keeps {block} (hC : Canon kB s) : Keeps kB (execBtuInvalidate block s) := by
  refine keeps_next ?_
  extract_lets
  split
  · exact hC
  · exact State.setBtu_canon hC

theorem execBtuInvalidateAck_keeps {block} (hC : Canon kB s) : Keeps kB (execBtuInvalidateAck block s) := by
  refine keeps_next ?_
  extract_lets
  split
  · exact hC
  · refine canon_ite hC ?_
    extract_lets s1
    have hs1 : Canon kB s1 := State.setBtu_canon hC
    exact canon7 hs1

theorem execMirrorSynced_keeps {p} (hC : Canon kB s) : Keeps kB (execMirrorSynced p s) := by
  refine keeps_next ?_
  split
  · exact hC
  · split
    · exact hC
    · refine canon_ite hC ?_
      extract_lets _ s1 _ s2
      have hs1 : Canon kB s1 := canon7 hC
      have hs2 : Canon kB s2 := by
        unfold s2
        split
        · exact canon7 hs1
        · exact hs1
      exact State.answerCmd_canon hs2

theorem execTlbMissWalk_keeps {block stream engine write look} (hC : Canon kB s) : Keeps kB (execTlbMissWalk block stream engine write look s) := by
  refine keeps_next ?_
  extract_lets s'
  have hs' : Canon kB s' := State.withStream_canon hC
  split
  · exact hs'
  · split
    · exact hs'
    · exact canon_ite hs' (State.startWalk_canon hs')

theorem execWalkReadReturn_keeps {block slot} (hC : Canon kB s) : Keeps kB (execWalkReadReturn block slot s) := by
  refine keeps_next ?_
  extract_lets
  split
  · exact hC
  · refine canon_ite hC ?_
    split
    · exact State.setBtu_canon hC
    · exact State.advanceAll_canon (State.setBtu_canon hC)
    · exact canon_ite (State.setBtu_canon hC) (State.advanceAll_canon (State.xlateFault_canon (State.setBtu_canon hC)))

theorem execPrefetchWalkStart_keeps {block stream engine write look} (hC : Canon kB s) :
    Keeps kB (execPrefetchWalkStart block stream engine write look s) := by
  refine keeps_next ?_
  extract_lets s'
  have hs' : Canon kB s' := State.withStream_canon hC
  split
  · exact hs'
  · refine canon_ite hs' ?_
    split
    · exact hs'
    · exact State.startWalk_canon hs'

/-! ## Dispatch and combine units -/

theorem execDispatchStart_keeps {unit} (hC : Canon kB s) : Keeps kB (execDispatchStart unit s) := by
  refine keeps_next ?_
  extract_lets
  split
  · refine canon_ite hC (canon_ite (State.endRevoked_canon hC) ?_)
    extract_lets
    split
    · exact State.rejectStart_canon hC
    · split
      · extract_lets _ _ _ s0 s1
        have hs0 : Canon kB s0 := State.readLines_canon (State.readLines_canon hC)
        have hs1 : Canon kB s1 := by
          unfold s1
          split
          · exact State.event_canon hs0
          · exact hs0
        exact canon_ite (State.rejectStart_canon hs1) (State.dispatchWrite_canon (State.setDisp'_canon hs1))
      · exact State.freezeEngine_canon hC
  · exact hC

theorem execDispatchSlotFencePoll_keeps {unit} (hC : Canon kB s) : Keeps kB (execDispatchSlotFencePoll unit s) := by
  refine keeps_next ?_
  extract_lets
  split
  · split
    · exact canon_ite hC (State.dispatchWrite_canon hC)
    · exact hC
  · exact hC

theorem execCombineOpenBatch_keeps {unit} (hC : Canon kB s) : Keeps kB (execCombineOpenBatch unit s) := by
  refine keeps_next ?_
  extract_lets
  split
  · extract_lets
    refine canon_ite (State.reject_canon (State.setComb_canon hC)) (canon_ite hC ?_)
    split
    · exact State.setComb_canon (canon_ite (State.writeBytes_canon (State.readLines_canon hC)) (State.readLines_canon hC))
    · exact State.freezeEngine_canon hC
  · exact hC

theorem execCombineResult_keeps {unit} (hC : Canon kB s) : Keeps kB (execCombineResult unit s) := by
  refine keeps_next ?_
  extract_lets
  split
  · exact hC
  · split
    · split
      · exact State.combProcess_canon hC
      · exact hC
    · split
      · exact hC
      · split
        · exact State.combProcess_canon hC
        · exact canon_ite (State.setComb_canon hC) (canon_ite hC (State.setComb_canon hC))

theorem execCombineCommit_keeps {unit} (hC : Canon kB s) : Keeps kB (execCombineCommit unit s) := by
  refine keeps_next ?_
  extract_lets
  split
  · exact canon_ite hC (State.tryCommit_canon (State.setStation_canon (State.setEngine_canon (State.setComb_canon hC))))
  · exact hC

/-! ## Windows -/

theorem execWindowOpenMsg_keeps {m body} (hC : Canon kB s) : Keeps kB (execWindowOpenMsg m body s) := by
  refine runMsg_keeps hC fun h => canon_ite_fst (refuseM_canon h) ?_
  split
  · exact refuseM_canon h
  · exact State.windowOpen_canon h

theorem execWindowClosed_keeps {id} (hC : Canon kB s) : Keeps kB (execWindowClosed id s) := by
  refine keeps_next ?_
  split
  · exact hC
  · split
    · exact hC
    · refine canon_ite hC ?_
      extract_lets _ s1 s2
      have hs1 : Canon kB s1 := by
        refine canon_ite (State.setWindow_canon hC) ?_
        split
        · exact State.setWindow_canon hC
        · exact canon7 hC
      have hs2 : Canon kB s2 := by
        unfold s2
        split
        · exact State.answerCmd_canon hs1
        · exact hs1
      split
      · exact State.answerMsg_canon hs2
      · exact hs2

/-! ## Ralut links -/

theorem execAlignDone_keeps {n skew} (hC : Canon kB s) : Keeps kB (execAlignDone n skew s) := by
  refine keeps_next ?_
  extract_lets
  refine canon_ite hC (canon_ite (State.trainFail_canon hC) ?_)
  split
  · exact hC
  · exact canon_ite (State.trainFail_canon hC) (State.setPort_canon hC)

theorem execCtrlIdent_keeps {n kind pport node variant b0 b1 b2 b3} (hC : Canon kB s) :
    Keeps kB (execCtrlIdent n kind pport node variant b0 b1 b2 b3 s) := by
  refine keeps_next ?_
  extract_lets _ _ s1
  have hs1 : Canon kB s1 := State.setPort_canon hC
  refine canon_ite hC (canon_ite (State.trainFail_canon hC) ?_)
  split
  · exact State.answerMsg_canon hs1
  · exact hs1

theorem execCtrlSpareReq_keeps {n pos at'} (hC : Canon kB s) : Keeps kB (execCtrlSpareReq n pos at' s) := by
  refine keeps_next ?_
  extract_lets
  refine canon_ite hC ?_
  split
  · exact canon_ite (State.setPort_canon hC) (State.laneLost_canon hC)
  · exact canon_ite (State.laneLost_canon hC) (State.setPort_canon hC)

theorem execSpareSwap_keeps {n} (hC : Canon kB s) : Keeps kB (execSpareSwap n s) := by
  refine keeps_next ?_
  extract_lets
  split
  · exact hC
  · exact canon_ite hC (State.linkEvent_canon (State.setPort_canon hC))

theorem execFlitReceive_keeps {n flit unc} (hC : Canon kB s) : Keeps kB (execFlitReceive n flit unc s) := by
  refine keeps_next ?_
  extract_lets _ _ _ _ _ s0 _ _ s1
  have hs0 : Canon kB s0 := State.flitHeader_canon hC
  have hs1 : Canon kB s1 := State.setPort_canon hs0
  have hviolation : ∀ {t c seq src}, Canon kB t → Canon kB (t.flitViolation n c seq src) := State.flitViolation_canon
  refine canon_ite hC (canon_ite (State.setPort_canon hC) (canon_ite ?idle (canon_ite (hviolation hs0) (canon_ite ?outOfOrder ?accepted))))
  case idle => exact canon_ite (hviolation hs0) hs0
  case outOfOrder => exact canon_ite hs0 (State.setPort_canon hs0)
  case accepted =>
    exact canon_ite (State.dataFlit_canon hs1) (canon_ite (hviolation hs1) (canon_ite (hviolation hs1) (canon_ite (hviolation hs1) hs1)))

theorem execFlitNak_keeps {n} (hC : Canon kB s) : Keeps kB (execFlitNak n s) := by
  refine keeps_next ?_
  extract_lets
  split
  · exact hC
  · exact State.setPort_canon hC

theorem execQpSend_keeps {n} (hC : Canon kB s) : Keeps kB (execQpSend n s) := by
  refine keeps_next (canon_ite hC ?_)
  split
  · exact hC
  · extract_lets _ s0
    have hs0 : Canon kB s0 := State.setPort_canon hC
    split
    · exact hs0
    · refine canon_ite hs0 (canon_ite (State.flitViolation_canon hs0) ?_)
      extract_lets ack _ _ _ s1 _ _ s2 s1'
      have hack : ∀ {t} c, Canon kB t → Canon kB (ack t c) := fun _ ht => State.sendMsg_canon ht
      refine canon_ite (hack _ ?_) ?_
      · have hs1 : Canon kB s1 := State.setQpair_canon hs0
        unfold s2
        split
        · exact State.reject_canon hs1
        · exact State.rejectEvent_canon hs1
      · split
        · exact hs0
        · have hs1 : Canon kB s1' := by
            unfold s1'
            split
            · exact State.sliceWrite_canon (State.sliceWrite_canon (State.sliceWrite_canon hs0))
            · exact hs0
          exact canon_ite hC (hack _ (State.enqueueNow_canon (State.setQpair_canon hs1)))

theorem execQpAck_keeps {n} (hC : Canon kB s) : Keeps kB (execQpAck n s) := by
  refine keeps_next (State.onTxn_canon hC fun _ _ _ h => ?_)
  extract_lets
  split
  · exact h
  · extract_lets s1
    have hs1 : Canon kB s1 := State.setPort_canon h
    split
    · split
      · exact hs1
      · split
        · exact hs1
        · exact State.fenceAction_canon (State.setQpair_canon hs1)
    · exact hs1

theorem execLandingFenceCredit_keeps {q} (hC : Canon kB s) : Keeps kB (execLandingFenceCredit q s) := by
  refine keeps_next ?_
  split
  · exact hC
  · refine canon_ite hC ?_
    extract_lets _ _ s1
    have hs1 : Canon kB s1 := canon_ite (State.sendMsg_canon (State.setQpair_canon hC)) hC
    split
    · exact canon_ite (State.answerMsg_canon (State.storeDesc_canon (canon7 hs1))) hs1
    · exact hs1

theorem execWinAtomic_keeps {n} (hC : Canon kB s) : Keeps kB (execWinAtomic n s) := by
  refine keeps_next (canon_ite hC (State.onTxn_canon hC fun _ _ _ h => ?_))
  extract_lets _ bad
  have hbad : Canon kB bad := State.respond_canon (State.noteViolation_canon h)
  split
  · exact hbad
  · exact canon_ite hbad (State.winServe_canon h)

theorem execRsp_keeps {n} (hC : Canon kB s) : Keeps kB (execRsp n s) := by
  refine keeps_next (State.onTxn_canon hC fun _ _ _ h => ?_)
  extract_lets
  split
  · exact h
  · extract_lets s1
    have hs1 : Canon kB s1 := State.setPort_canon h
    split
    · exact canon_ite (State.endRemote_canon hs1) (State.windowAnswer_canon hs1)
    · exact canon_ite hs1 { hs1 with sl := fun hm => Memory.wf_writeL (hs1.sl hm) _ _ }
    · exact hs1
    · exact hs1

theorem execHostWrite_keeps {n part addr data} (hC : Canon kB s) : Keeps kB (execHostWrite n part addr data s) := by
  have hmem : Canon kB { s with hostMem := Memory.writeL s.hostMem addr data } :=
    { hC with h := fun hm => Memory.wf_writeL (hC.h hm) _ _ }
  exact keeps_next (canon_ite (State.emitOut_canon (State.sendMsg_canon hmem)) hC)

/-! ## Gathers -/

theorem execGatherStart_keeps {carrier} (hC : Canon kB s) : Keeps kB (execGatherStart carrier s) := by
  refine keeps_next ?_
  extract_lets _ _ s0
  have hs0 : Canon kB s0 := State.dropTxns_canon hC
  split
  · exact hC
  · extract_lets
    refine canon_ite hC (canon_ite (State.endRevoked_canon hC) (canon_ite (State.rejectStart_canon hC) (canon_ite (State.rejectStart_canon hC) ?_)))
    split
    · extract_lets _ _ _ s1
      have hs1 : Canon kB s1 := canon_ite hs0 (State.event_canon hs0)
      split
      · exact State.gatherRun_canon hC
      · exact canon_ite (State.rejectStart_canon hC) (canon_ite hC (State.gatherRun_canon (State.readLines_canon hs1)))
    · exact State.freezeEngine_canon hC

theorem execGatherCommit_keeps {carrier} (hC : Canon kB s) : Keeps kB (execGatherCommit carrier s) := by
  refine keeps_next ?_
  split
  · exact canon_ite (State.unitCommit_canon hC) hC
  · exact hC

/-! ## Collectives and pace -/

theorem State.engWrite_canon {t : State} {g va l} (hC : Canon kB s) (ht : s.engWrite g va l = .ok t) : Canon kB t := by
  unfold State.engWrite at ht
  split at ht
  · cases ht
  · cases ht
    exact State.putPieces_canon hC

theorem State.feedback_canon {t : State} {g r k} (hC : Canon kB s) (ht : s.feedback g r k = .ok t) : Canon kB t := by
  unfold State.feedback at ht
  extract_lets at ht
  split at ht
  · cases ht
  · cases ht
  · extract_lets at ht
    split at ht
    · cases ht
    · cases ht
    · rename_i s1 hw _
      cases ht
      exact State.noteReads_canon (State.putPieces_canon (State.engWrite_canon hC hw))

theorem execCollectiveStart_keeps {n} (hC : Canon kB s) : Keeps kB (execCollectiveStart n s) := by
  refine keeps_next ?_
  extract_lets
  split
  · exact hC
  · extract_lets
    refine canon_ite hC (canon_ite (State.endRevoked_canon (State.delColl_canon hC)) (canon_ite (State.rejectStart_canon hC) ?_))
    split
    · refine canon_ite hC ?_
      split
      · exact State.collStop_canon hC
      · exact State.setColl_canon (State.feedback_canon hC ‹_›)
    · exact State.setColl_canon (State.dropStale_canon (State.dropTxns_canon hC))
    · exact hC

theorem execCollectiveSegmentSend_keeps {n} (hC : Canon kB s) : Keeps kB (execCollectiveSegmentSend n s) := by
  refine keeps_next ?_
  extract_lets e
  split
  · extract_lets
    split
    · exact hC
    · extract_lets _ _ _ _ out
      have hout : ∀ wire t, out = .ok (wire, t) → Canon kB t := by
        intro wire t ht
        unfold out at ht
        split at ht
        · cases ht
        · extract_lets wire' at ht
          split at ht
          · split at ht
            · cases ht
            · obtain ⟨-, rfl⟩ := Prod.mk.inj (Except.ok.inj ht)
              exact State.engWrite_canon hC ‹_›
          · obtain ⟨-, rfl⟩ := Prod.mk.inj (Except.ok.inj ht)
            exact hC
      clear_value out
      refine canon_ite hC ?_
      cases out with
      | error z => exact State.collStop_canon hC
      | ok x => exact State.setColl_canon (State.sendMsg_canon (State.noteReads_canon (hout x.1 x.2 rfl)))
  · exact hC

theorem execCollectiveSegmentReady_keeps {n} (hC : Canon kB s) : Keeps kB (execCollectiveSegmentReady n s) := by
  refine keeps_next ?_
  extract_lets e
  split
  · refine canon_ite hC ?_
    split
    · extract_lets s0 _ _ _ _ _ _ _ _ _ _ new
      have hs0 : Canon kB s0 := canon7 hC
      clear_value s0 new
      refine canon_ite (canon7 hs0) (canon_ite (State.flitViolation_canon hs0) ?_)
      cases new with
      | error z => exact State.collStop_canon hC
      | ok bytes =>
        dsimp only
        split
        · exact State.collStop_canon hC
        · have hs1 := State.engWrite_canon hs0 ‹_›
          exact State.setColl_canon (canon_ite (State.noteReads_canon hs1) hs1)
    · exact hC
  · exact hC

theorem execCollectiveCommit_keeps {n} (hC : Canon kB s) : Keeps kB (execCollectiveCommit n s) := by
  refine keeps_next ?_
  extract_lets
  split
  · exact hC
  · refine canon_ite (State.unitCommit_canon (State.delColl_canon hC)) ?_
    split
    · exact hC
    · split
      · exact hC
      · extract_lets _ _ _ _ _ _ _ s1
        have hs1 : Canon kB s1 := canon_ite hC (canon_foldl (canon7 hC) fun _ _ h => State.scramble_canon h)
        exact canon_ite (State.unitCommit_canon (State.endRevoked_canon (State.delColl_canon hC))) (canon_ite hC (State.unitCommit_canon
          (State.setEngine_canon (State.delColl_canon hs1))))

theorem execPaceWindow_keeps {part} (hC : Canon kB s) : Keeps kB (execPaceWindow part s) := by
  refine keeps_next ?_
  extract_lets
  refine canon_ite hC ?_
  split
  · refine canon_ite (canon7 hC) ?_
    extract_lets _ _ _ _ _ _ _ s1
    have hs1 : Canon kB s1 := canon7 hC
    exact canon_ite (State.emitOut_canon hs1) hs1

theorem execColl_keeps {n} (hC : Canon kB s) : Keeps kB (execColl n s) := by
  refine keeps_next ?_
  split
  · exact hC
  · extract_lets _ _ _ _ _ _ s1
    have hs1 : Canon kB s1 := State.setPort_canon hC
    exact canon_ite (canon7 hs1) (canon_ite hC (canon7 hs1))

/-! ## Main memory -/

theorem execRekeySweepPage_keeps {p ch} (hC : Canon kB s) : Keeps kB (execRekeySweepPage p ch s) := by
  refine keeps_next ?_
  split
  · refine canon_ite hC ?_
    split
    · exact State.setRekey_canon hC
    · exact State.repeatNext_canon (State.setRekey_canon hC) fun _ _ => State.sweepNext_canon
  · exact hC

theorem execRekeyBitmapFlip_keeps {p ch} (hC : Canon kB s) : Keeps kB (execRekeyBitmapFlip p ch s) := by
  refine keeps_next ?_
  split
  · exact hC
  · refine canon_ite hC ?_
    split
    · exact State.setSweep_canon (State.tryEnter_canon hC ‹_›)
    · exact hC

theorem execRekeyPageRelease_keeps {p ch} (hC : Canon kB s) : Keeps kB (execRekeyPageRelease p ch s) := by
  refine keeps_next ?_
  split
  · exact hC
  · split
    · exact canon_ite (State.endSweep_canon (State.setRekey_canon hC)) hC
    · exact hC

theorem execRekeyDone_keeps {p} (hC : Canon kB s) : Keeps kB (execRekeyDone p s) := by
  refine keeps_next ?_
  split
  · exact canon_ite (State.emitOut_canon (canon7 hC)) hC
  · exact hC

theorem execDramSlotGrant_keeps {ch sub} (hC : Canon kB s) : Keeps kB (execDramSlotGrant ch sub s) := by
  refine keeps_next (canon_ite hC ?_)
  extract_lets s' _ _ _ s1
  have hs' : Canon kB s' := State.topUp_canon (State.finishBusy_canon hC)
  have hs1 : Canon kB s1 := canon7 hs'
  refine canon_ite (canon_ite hs' (State.setCtrl_canon hs')) ?_
  split
  · exact State.setCtrl_canon hs1
  · exact State.setCtrl_canon hs1

theorem execDramReadData_keeps {ch errs} (hC : Canon kB s) : Keeps kB (execDramReadData ch errs s) := by
  refine keeps_next ?_
  extract_lets
  split
  · exact hC
  · exact canon_ite (State.memDeliver_canon (State.setCtrl_canon hC)) (State.memDeliver_canon (canon_ite (State.noteLine_canon
      (State.setCtrl_canon hC)) (State.uncorrectable_canon (State.setCtrl_canon hC))))

theorem execParityRowFlush_keeps {region} (hC : Canon kB s) : Keeps kB (execParityRowFlush region s) := by
  refine keeps_next ?_
  split
  · exact hC
  · exact canon_foldl (State.setRow_canon hC) fun _ _ h => State.pushRows_canon h

theorem execParityEntryFreed_keeps {region} (hC : Canon kB s) : Keeps kB (execParityEntryFreed region s) := by
  refine keeps_next ?_
  split
  · exact hC
  · exact State.rowRetry_canon (canon7 hC)

theorem execDeviceWipe_keeps (hC : Canon kB s) : Keeps kB (execDeviceWipe s) :=
  keeps_next (canon_ite { hC with dr := fun _ => rfl } hC)

/-! ## Starts -/

theorem execStewardDismissed_keeps {c} (hC : Canon kB s) : Keeps kB (execStewardDismissed c s) := by
  refine keeps_next ?_
  split
  · exact hC
  · refine canon_ite hC ?_
    extract_lets s1 _ s2
    have hs1 : Canon kB s1 := State.freeConsumers_canon hC
    have hs2 : Canon kB s2 := canon7 hs1
    split
    · exact State.answerCmd_canon hs2
    · exact hs2

theorem execWaybillStart_keeps {block} (hC : Canon kB s) : Keeps kB (execWaybillStart block s) := by
  refine keeps_next ?_
  split
  · exact hC
  · split
    · exact hC
    · extract_lets _ s0 _ _ s1 s1'
      have hs0 : Canon kB s0 := State.setDisp_canon hC
      have hs1 : Canon kB s1 := canon_foldl hs0 fun _ _ h => State.popInput_canon h
      have hs1' : Canon kB s1' := State.popInput_canon hs0
      refine canon_ite ?_ ?_
      · split
        · exact State.dispatchZip_canon hs1
        · exact hs1
      · split
        · exact hC
        · extract_lets
          split
          · exact State.dispatchOne_canon (State.setStation_canon hs1')
          · exact hs1'

/-! ## Sessions -/

theorem execSessionCloseComplete_keeps {slot} (hC : Canon kB s) : Keeps kB (execSessionCloseComplete slot s) := by
  refine keeps_next ?_
  split
  · exact hC
  · refine canon_ite hC ?_
    extract_lets c s1
    have hc : Canon kB c.1 := State.reckClose_canon hC
    have hs1 : Canon kB s1 := State.dropSession_canon hc
    split
    · exact hs1
    · split
      · exact State.answerCmd_canon hs1
      · exact State.answerCmd_canon (canon7 hs1)

theorem execStepCompose_keeps {p plan} (hC : Canon kB s) : Keeps kB (execStepCompose p plan s) := by
  refine keeps_next ?_
  extract_lets
  split
  · exact hC
  · extract_lets _ _ _ _ s1
    have hs1 : Canon kB s1 := by
      unfold s1
      split
      · exact State.sliceWrite_canon hC
      · exact hC
    exact canon_ite hC (State.setPlan_canon (canon_foldl (State.launch_canon hs1) fun _ _ h => State.updSess_canon h))

theorem execStepResult_keeps {p plan} (hC : Canon kB s) : Keeps kB (execStepResult p plan s) := by
  refine keeps_next ?_
  extract_lets
  split
  · exact hC
  · refine canon_ite hC ?_
    split
    · exact hC
    · extract_lets
      split
      · exact State.setQueue_canon hC
      · exact State.stepResult_canon (State.fenceAction_canon (State.setQueue_canon hC))

theorem execStepTimeout_keeps {p plan} (hC : Canon kB s) : Keeps kB (execStepTimeout p plan s) := by
  refine keeps_next ?_
  extract_lets
  split
  · exact hC
  · split
    · exact hC
    · exact canon_ite hC (State.stepDone_canon (canon_foldl hC fun _ _ h => State.failRow_canon h))

theorem execTokenLogWrite_keeps (hC : Canon kB s) : Keeps kB (execTokenLogWrite s) := by
  refine keeps_next ?_
  split
  · exact hC
  · refine canon_ite hC ?_
    extract_lets _ s1
    have hs1 : Canon kB s1 := canon7 hC
    refine State.served_canon ?_
    split
    · exact canon_ite (State.logToken_canon hs1) hs1
    · exact hs1

theorem execSessionReadmit_keeps {p plan} (hC : Canon kB s) : Keeps kB (execSessionReadmit p plan s) := by
  refine keeps_next ?_
  extract_lets k short o
  split
  · exact hC
  · refine canon_ite hC ?_
    clear_value short
    cases short with
    | some e => exact canon_ite hC (State.served_canon (State.grantPages_canon hC))
    | none =>
      dsimp only
      split
      · exact hC
      · exact canon_ite hC (State.served_canon (State.reckFlag_canon (State.grantPages_canon (State.setSess_canon (State.order_canon hC)))))

theorem execTokenRecordWrite_keeps {slot} (hC : Canon kB s) : Keeps kB (execTokenRecordWrite slot s) := by
  refine keeps_next ?_
  split
  · exact hC
  · split
    · exact hC
    · split
      · exact hC
      · exact canon_ite hC (State.served_canon (State.writeRing_canon (State.setSess_canon hC)))

/-! ## Companions -/

theorem execMirrorEntryAck_keeps {slot gen kind index ok} (hC : Canon kB s) : Keeps kB (execMirrorEntryAck slot gen kind index ok s) := by
  refine keeps_next ?_
  split
  · exact hC
  · exact canon_ite hC (canon_ite (State.setSess_canon hC) (State.unmirrored_canon (State.ackAll_canon (State.updPart_canon hC))))

/-! ## Request ownership -/

theorem execLeaseRenewTimer_keeps {p req} (hC : Canon kB s) : Keeps kB (execLeaseRenewTimer p req s) := by
  refine keeps_next ?_
  extract_lets
  split
  · exact hC
  · exact canon_ite hC (State.emitOut_canon (State.setLease_canon hC))

theorem execLeaseExpire_keeps {p req} (hC : Canon kB s) : Keeps kB (execLeaseExpire p req s) := by
  refine keeps_next ?_
  extract_lets
  split
  · exact hC
  · exact canon_ite (State.setLease_canon hC) hC

theorem execLeaseGrantTimeout_keeps {p req} (hC : Canon kB s) : Keeps kB (execLeaseGrantTimeout p req s) := by
  refine keeps_next ?_
  split
  · exact hC
  · split
    · exact hC
    · exact canon_ite (State.discardRequest_canon hC) hC

theorem execHomeDeadlineReclaim_keeps {p req} (hC : Canon kB s) : Keeps kB (execHomeDeadlineReclaim p req s) := by
  refine keeps_next ?_
  extract_lets
  split
  · exact hC
  · refine canon_ite hC ?_
    extract_lets _ s1 s2
    have hs1 : Canon kB s1 := State.delLease_canon (State.setHome_canon hC)
    have hs2 : Canon kB s2 := by
      unfold s2
      split
      · exact State.replayFromLog_canon hs1
      · exact hs1
    exact State.emitOut_canon hs2

/-! ## Revocation -/

theorem execContextRevoked_keeps {p c} (hC : Canon kB s) : Keeps kB (execContextRevoked p c s) := by
  refine keeps_next ?_
  split
  · exact hC
  · extract_lets
    refine canon_ite hC ?_
    split
    · exact hC
    · extract_lets s1
      have hs1 : Canon kB s1 := canon7 hC
      split
      · exact State.answerCmd_canon hs1
      · exact hs1

theorem execContextDrained_keeps {p c} (hC : Canon kB s) : Keeps kB (execContextDrained p c s) := by
  refine keeps_next ?_
  split
  · exact hC
  · exact canon_ite hC (canon7 hC)

theorem execPartitionDestroyed_keeps {p} (hC : Canon kB s) : Keeps kB (execPartitionDestroyed p s) := by
  refine keeps_next ?_
  split
  · exact hC
  · split
    · exact hC
    · extract_lets _ s1 _ s2
      have hs1 : Canon kB s1 := State.forgetPart_canon hC
      have hs2 : Canon kB s2 := canon7 hs1
      exact canon_ite hC (canon_ite hs2 (State.answerMsg_canon hs2))

theorem execBlockMoveDrained_keeps {src} (hC : Canon kB s) : Keeps kB (execBlockMoveDrained src s) := by
  refine keeps_next ?_
  split
  · exact hC
  · exact canon_ite (State.setMove_canon hC) hC

theorem execBlockMoveCopied_keeps {src} (hC : Canon kB s) : Keeps kB (execBlockMoveCopied src s) := by
  refine keeps_next ?_
  split
  · exact hC
  · exact State.setMove_canon (State.loadMoved_canon (State.moveBtu_canon (State.updPart_canon (State.switchBlock_canon hC))))

theorem execStationMoved_keeps {p id} (hC : Canon kB s) : Keeps kB (execStationMoved p id s) := by
  refine keeps_next ?_
  split
  · refine canon_ite hC ?_
    extract_lets _ _ _ s1 s2 s3 s4
    have hs1 : Canon kB s1 := State.setDisp_canon hC
    have hs2 : Canon kB s2 := by
      refine canon_foldl hs1 fun _ _ h => ?_
      split
      · exact State.setQueue_canon h
      · exact h
    have hs3 : Canon kB s3 := State.setStation_canon hs2
    have hs4 : Canon kB s4 := State.moveStreams_canon hs3
    exact State.answerMsg_canon (canon7 hs4)
  · exact hC

/-! ## Failures -/

theorem execSliceSecDedError_keeps {block uncorrectable access} (hC : Canon kB s) : Keeps kB (execSliceSecDedError block uncorrectable access s) := by
  refine keeps_next (canon_ite hC (canon_ite (State.updBlock_canon hC) ?_))
  extract_lets _ s0 s1 s2
  have hs0 : Canon kB s0 := canon7 hC
  have hs1 : Canon kB s1 := by
    unfold s1
    split
    · split
      · exact State.stopSend_canon hs0
      · exact hs0
    · exact hs0
  have hs2 : Canon kB s2 := by
    unfold s2
    split
    · exact State.abandonMove_canon hs1
    · exact hs1
  split
  · exact State.addCapture_canon hs2
  · exact State.blockReset_canon hs2

theorem execSliceWipeDone_keeps {block} (hC : Canon kB s) : Keeps kB (execSliceWipeDone block s) := by
  refine keeps_next ?_
  extract_lets _ _ s1 s2 s3
  have hs1 : Canon kB s1 := { hC with sl := fun hm => Memory.wf_wipe (hC.sl hm) _ _ }
  have hs2 : Canon kB s2 := State.setBlock_canon hs1
  have hs3 : Canon kB s3 := canon_foldl hs2 fun _ _ h => canon_ite (State.reloadCell_canon h) h
  split
  · exact hC
  · split
    · exact canon_ite (State.partReset_canon hs3) (State.queueReset_canon hs3)
    · exact hs2

theorem execPartitionResetDone_keeps {p} (hC : Canon kB s) : Keeps kB (execPartitionResetDone p s) := by
  refine keeps_next ?_
  split
  · exact hC
  · exact canon_ite hC (State.emitOut_canon (canon7 hC))

theorem execHangCapture_keeps {p} (hC : Canon kB s) : Keeps kB (execHangCapture p s) := by
  refine keeps_next ?_
  split
  · exact hC
  · exact canon_ite (State.served_canon (State.endCapture_canon hC)) hC

theorem execHangCaptureTimeout_keeps {p written} (hC : Canon kB s) : Keeps kB (execHangCaptureTimeout p written s) := by
  refine keeps_next ?_
  split
  · exact hC
  · exact canon_ite (State.endCapture_canon hC) hC

theorem execEngineWatchdogExpire_keeps {e} (hC : Canon kB s) : Keeps kB (execEngineWatchdogExpire e s) := by
  refine keeps_next (canon_ite hC ?_)
  extract_lets _ _ s1
  have hs1 : Canon kB s1 := canon7 hC
  exact canon_ite (canon_ite (State.retireSoon_canon hs1) (State.addCapture_canon (canon_ite (State.devFault_canon hs1) hs1)))
    (State.addCapture_canon (canon_ite (State.devFault_canon hs1) hs1))

theorem execStationHung_keeps {p id} (hC : Canon kB s) : Keeps kB (execStationHung p id s) := by
  refine keeps_next ?_
  split
  · split
    · exact hC
    · exact canon_ite hC (State.addCapture_canon (State.event_canon hC))
  · exact hC

theorem execQueueStalled_keeps {q} (hC : Canon kB s) : Keeps kB (execQueueStalled q s) := by
  refine keeps_next ?_
  split
  · exact hC
  · split
    · exact hC
    · exact canon_ite hC (State.event_canon (State.setQueue_canon hC))

theorem execDispatcherHang_keeps {block} (hC : Canon kB s) : Keeps kB (execDispatcherHang block s) := by
  refine keeps_next ?_
  split
  · exact hC
  · exact State.addCapture_canon hC

/-! ## Reckonings -/

theorem execReckoningIdleClose_keeps {p req} (hC : Canon kB s) : Keeps kB (execReckoningIdleClose p req s) := by
  refine keeps_next ?_
  split
  · exact hC
  · exact canon_ite (State.reckClose_canon hC) hC

theorem execReckoningRootSigned_keeps (hC : Canon kB s) : Keeps kB (execReckoningRootSigned s) := by
  refine keeps_next ?_
  split
  · exact canon_ite (State.served_canon (State.signRoot_canon hC)) hC
  · exact hC

theorem execReckoningBacklog_keeps {p} (hC : Canon kB s) : Keeps kB (execReckoningBacklog p s) := by
  refine keeps_next ?_
  split
  · exact hC
  · exact canon_ite (State.event_canon (State.updPart_canon hC)) (canon_ite (State.updPart_canon hC) hC)

theorem execLiveReadings_keeps (hC : Canon kB s) : Keeps kB (execLiveReadings s) := by
  refine keeps_next (canon_ite hC ?_)
  extract_lets s1
  have hs1 : Canon kB s1 := canon_foldl hC fun _ _ h => State.deliverHeld_canon (State.holdItems_canon h)
  exact canon7 hs1

/-! ## Pins and resets -/

theorem execResetN_keeps (hC : Canon kB s) : Keeps kB (execResetN s) := by
  refine keeps_next ?_
  split
  · exact hC
  · extract_lets _ s1
    have hs1 : Canon kB s1 := canon7 hC
    exact canon_ite hs1 (canon_ite (State.restart_canon hs1) hs1)

theorem execPwrEnAssert_keeps (hC : Canon kB s) : Keeps kB (execPwrEnAssert s) := by
  refine keeps_next ?_
  split
  · exact hC
  · exact canon_ite hC (State.drive_canon (canon7 hC))

theorem execPwrEnDeassert_keeps (hC : Canon kB s) : Keeps kB (execPwrEnDeassert s) := by
  refine keeps_next (canon_ite hC ?_)
  extract_lets s1
  have hs1 : Canon kB s1 := State.powerLoss_canon hC
  exact State.drive_canon (canon7 hs1)

theorem execOverVoltageCutoff_keeps (hC : Canon kB s) : Keeps kB (execOverVoltageCutoff s) := by
  refine keeps_next (canon_ite ?_ hC)
  extract_lets s1
  have hs1 : Canon kB s1 := State.inputLoss_canon hC
  exact canon7 hs1

/-! ## Security -/

theorem execHandshakeInit_keeps {m nonceI unwrapOk rsvd} (hC : Canon kB s) : Keeps kB (execHandshakeInit m nonceI unwrapOk rsvd s) := by
  refine keeps_next (canon_ite (State.answerMsg_canon hC) (canon_ite (State.answerMsg_canon hC) (canon_ite (State.answerMsg_canon hC) ?_)))
  extract_lets _ _ _ s1
  have hs1 : Canon kB s1 := canon7 hC
  exact State.emitOut_canon hs1

theorem execHandshakeFinish_keeps {m session part nParts sigOk authorised node rsvd} (hC : Canon kB s) :
    Keeps kB (execHandshakeFinish m session part nParts sigOk authorised node rsvd s) := by
  refine keeps_next (canon_ite (State.answerMsg_canon hC) ?_)
  split
  · exact State.answerMsg_canon hC
  · extract_lets _ _ drop
    have hdrop : Canon kB drop := canon7 hC
    exact canon_ite (State.answerMsg_canon hC) (canon_ite (State.answerMsg_canon (canon7 hC)) (canon_ite (State.answerMsg_canon hdrop) (canon_ite
      (State.answerMsg_canon hdrop) (State.answerMsg_canon (canon7 hdrop)))))

theorem execAttestRequest_keeps {m body} (hC : Canon kB s) : Keeps kB (execAttestRequest m body s) := by
  refine keeps_next ?_
  extract_lets _ _ s1
  have hs1 : Canon kB s1 := State.answerMsg_canon hC
  exact canon_ite (State.answerMsg_canon hC) (canon_ite (State.answerMsg_canon hC) (canon_ite (State.sendParts_canon hs1) (State.emitOut_canon
    (canon7 hs1))))

/-! ## Firmware -/

theorem execFirmwareSwitchReady_keeps (hC : Canon kB s) : Keeps kB (execFirmwareSwitchReady s) := by
  refine keeps_next ?_
  split
  · exact hC
  · split
    · exact hC
    · split
      · exact hC
      · extract_lets _ _ _ _ s1 s2
        have hs1 : Canon kB s1 := canon7 hC
        have hs2 : Canon kB s2 := State.noteSwitch_canon (State.switchEffect_canon hs1)
        refine canon_ite (State.answerMsg_canon (canon7 hs2)) ?_
        split
        · exact canon7 hs2
        · exact State.nextSwitch_canon hs2

theorem execFirmwareSwitchTimeout_keeps (hC : Canon kB s) : Keeps kB (execFirmwareSwitchTimeout s) := by
  refine keeps_next ?_
  split
  · exact hC
  · exact canon_ite hC (State.answerMsg_canon (canon7 hC))

/-! ## Evacuation -/

theorem execWithdrawal_keeps (hC : Canon kB s) : Keeps kB (execWithdrawal s) := by
  refine keeps_next ?_
  split
  · exact State.withdrawFor_canon hC
  · exact hC

theorem execPortmanteauChunk_keeps {m node header data tagOk endOk} (hC : Canon kB s) :
    Keeps kB (execPortmanteauChunk m node header data tagOk endOk s) := by
  refine runPlain_keeps hC fun h => canon_ite_fst (refuseM_canon h) (canon_ite_fst (refuseM_canon h) ?_)
  have hstored : ∀ {i v}, Canon kB (okM (State.setIncoming _ i) v).1 := okM_canon (State.setIncoming_canon h)
  exact canon_ite_fst hstored (canon_ite_fst (refuseM_canon (State.dropIncoming_canon h)) (canon_ite_fst hstored hstored))

theorem execPortmanteauRestore_keeps {m node transfer target image} (hC : Canon kB s) :
    Keeps kB (execPortmanteauRestore m node transfer target image s) := by
  refine keeps_next ?_
  extract_lets
  split
  · extract_lets _ s1 s2 s3 _ s4 s5 s6 s7
    have hs1 : Canon kB s1 := State.loadSlices_canon (State.loadPages_canon (State.loadGens_canon hC))
    have hs2 : Canon kB s2 := State.loadImage_canon hs1
    have hs3 : Canon kB s3 := State.updPart_canon hs2
    have hs4 : Canon kB s4 := canon7 hs3
    have hs5 : Canon kB s5 := canon_foldl hs4 fun _ _ h => State.reckOpen_canon h
    have hs6 : Canon kB s6 := canon_ite (State.event_canon hs5) hs5
    have hs7 : Canon kB s7 := State.emitOut_canon (State.dropIncoming_canon hs6)
    split
    · exact State.answerMsg_canon (State.dropIncoming_canon hC)
    · exact canon_ite (State.partReset_canon hs7) hs7
  · exact hC

theorem execPortmanteauRestored_keeps {m node body} (hC : Canon kB s) : Keeps kB (execPortmanteauRestored m node body s) := by
  refine runPlain_keeps hC fun h => ?_
  extract_lets
  refine canon_ite_fst (refuseM_canon h) ?_
  split
  · exact refuseM_canon h
  · extract_lets s1 _ s2
    have hs1 : Canon kB s1 := canon7 h
    have hs2 : Canon kB s2 := canon7 hs1
    refine canon_ite_fst (okM_canon (State.destroyMigrated_canon (State.emitOut_canon hs1))) (okM_canon ?_)
    split
    · exact State.answerMsg_canon hs2
    · exact hs2

theorem execWithdrawn_keeps (hC : Canon kB s) : Keeps kB (execWithdrawn s) := by
  refine keeps_next ?_
  split
  · exact hC
  · refine canon_ite hC ?_
    extract_lets s1 s2
    have hs1 : Canon kB s1 := canon_foldl hC fun _ _ h => State.reckCloseAll_canon h
    have hs2 : Canon kB s2 := State.switchedOff_canon (State.signAll_canon (State.epochClose_canon (State.closeWindow_canon hs1)))
    clear_value s2
    exact State.drive_canon (canon7 hs2)

theorem execEvacLimitExpire_keeps (hC : Canon kB s) : Keeps kB (execEvacLimitExpire s) := by
  refine keeps_next ?_
  split
  · exact hC
  · exact canon_ite hC (canon_foldl hC fun _ _ h => State.abandonPart_canon h)

theorem execMigrateGenerationDone_keeps {p} (hC : Canon kB s) : Keeps kB (execMigrateGenerationDone p s) := by
  refine keeps_next ?_
  split
  · exact hC
  · extract_lets _ _ src _ s1
    have hsrc : Canon kB src := State.setOut_canon hC
    have hs1 : Canon kB s1 := canon7 hsrc
    exact canon_ite (State.sendSaves_canon (State.setOut_canon (State.freezePart_canon hC))) (State.sendSections_canon hs1)

/-! ## Power -/

theorem execHintPhaseStart_keeps {p station} (hC : Canon kB s) : Keeps kB (execHintPhaseStart p station s) := by
  refine keeps_next ?_
  extract_lets
  split
  · exact canon_ite hC (State.reVolt_canon (canon7 hC))
  · exact canon_ite (State.reVolt_canon hC) hC

theorem execHintPhaseEnd_keeps {p station} (hC : Canon kB s) : Keeps kB (execHintPhaseEnd p station s) := by
  refine keeps_next ?_
  extract_lets _ _ _ _ s1
  have hs1 : Canon kB s1 := canon7 hC
  exact State.reVolt_canon hs1

theorem execPowerAllotment_keeps {powers} (hC : Canon kB s) : Keeps kB (execPowerAllotment powers s) := by
  refine keeps_next (canon_ite hC ?_)
  extract_lets s1 s2
  have hs1 : Canon kB s1 := canon_foldl hC fun _ _ h => State.profileBlock_canon h
  have hs2 : Canon kB s2 := canon_foldl hs1 fun _ _ h => State.allotPower_canon h
  exact canon7 hs2

theorem execOperatingPointChange_keeps {b} (hC : Canon kB s) : Keeps kB (execOperatingPointChange b s) := by
  refine keeps_next ?_
  extract_lets _ _ src _ s1
  have hsrc : Canon kB src := State.setVolt_canon hC
  have hs1 : Canon kB s1 := State.updBlock_canon hC
  refine canon_ite hC (canon_ite (State.fallTo_canon hC) (canon_ite (State.setVolt_canon hC) ?_))
  split
  · exact canon_ite (canon7 hsrc) (canon_ite hC (canon7 hs1))
  · exact canon7 hsrc

theorem execCeilingStep_keeps {cause} (hC : Canon kB s) : Keeps kB (execCeilingStep cause s) := by
  refine keeps_next ?_
  extract_lets
  split
  · exact State.applyCeilings_canon (canon7 hC)
  · exact canon_ite (canon7 hC) hC
  · exact State.applyCeilings_canon (canon7 hC)
  · exact hC

theorem execOvercurrent_keeps (hC : Canon kB s) : Keeps kB (execOvercurrent s) := by
  refine keeps_next (canon_ite hC ?_)
  extract_lets _ _ _ s1
  have hs1 : Canon kB s1 := State.applyCeilings_canon (canon7 hC)
  exact canon_ite hs1 (State.emergency_canon hs1)

theorem execThermal_keeps {b temp} (hC : Canon kB s) : Keeps kB (execThermal b temp s) := by
  refine keeps_next ?_
  extract_lets _ _ _ s1
  have hs1 : Canon kB s1 := canon7 hC
  exact canon_ite (State.emergency_canon (canon7 hs1)) hs1

theorem execDimmThermal_keeps {ch temp} (hC : Canon kB s) : Keeps kB (execDimmThermal ch temp s) := by
  refine keeps_next ?_
  extract_lets _ _ _ s1
  have hs1 : Canon kB s1 := canon7 hC
  exact canon_ite (State.emergency_canon (State.applyCeilings_canon (canon7 hs1))) hs1

theorem execEmergencyRelease_keeps {cause} (hC : Canon kB s) : Keeps kB (execEmergencyRelease cause s) := by
  refine keeps_next ?_
  extract_lets
  split
  · exact canon_ite (State.drive_canon (canon7 hC)) hC
  · exact canon_ite (State.drive_canon (canon7 hC)) hC
  · exact canon_ite (State.drive_canon (canon7 hC)) hC
  · exact canon_ite (State.drive_canon (canon7 hC)) hC
  · exact hC

theorem execTrip_keeps {b temp} (hC : Canon kB s) : Keeps kB (execTrip b temp s) := by
  refine keeps_next (canon_ite hC ?_)
  extract_lets _ _ s1 s2 _ s3 s4
  have hs1 : Canon kB s1 := canon7 hC
  have hs2 : Canon kB s2 := State.devFault_canon (State.switchedOff_canon (State.emergency_canon hs1))
  have hs3 : Canon kB s3 := State.emitOut_canon (canon7 hs2)
  have hs4 : Canon kB s4 := canon_foldl hs3 fun _ _ h => State.abandonPart_canon h
  clear_value s4
  exact State.drive_canon (canon7 hs4)

theorem execDroopStretch_keeps {island below} (hC : Canon kB s) : Keeps kB (execDroopStretch island below s) := by
  refine keeps_next ?_
  split
  · exact canon_ite (canon7 hC) hC
  · exact canon7 hC

theorem execPowerDownIsland_keeps {b} (hC : Canon kB s) : Keeps kB (execPowerDownIsland b s) := by
  refine keeps_next ?_
  extract_lets _ _ s1
  have hs1 : Canon kB s1 := State.setBlock_canon hC
  exact canon_ite hC (canon7 hs1)

/-! ## Ageing -/

theorem wf_putWear {flash : Sys2Proof.Mem} {k : Nat} {l : List (BitVec 8)} (h : Memory.wf flash = true) : Memory.wf (putWear flash k l) = true := by
  refine Memory.wf_writeL ?_ _ _
  split
  · exact (Memory.wf_filter h _).1
  · exact h

theorem execWearRecordWrite_keeps (hC : Canon kB s) : Keeps kB (execWearRecordWrite s) := by
  have hflash : ∀ k l, Canon kB { s with fw := { s.fw with flash := putWear s.fw.flash k l } } := fun _ _ =>
    { hC with fl := fun hm => wf_putWear (hC.fl hm) }
  refine keeps_next ?_
  extract_lets h
  clear_value h
  exact canon_ite (canon7 (hflash _ _)) hC

theorem execQuietWaitExpire_keeps {b} (hC : Canon kB s) : Keeps kB (execQuietWaitExpire b s) := by
  refine keeps_next ?_
  extract_lets
  split
  · exact canon_ite hC (State.event_canon (State.emitOut_canon (State.setIsland_canon hC)))
  · exact hC

theorem execQuiesceTime_keeps {b} (hC : Canon kB s) : Keeps kB (execQuiesceTime b s) := by
  refine keeps_next ?_
  extract_lets
  split
  · exact State.setIsland_canon hC
  · refine canon_ite (State.setIsland_canon hC) (canon_ite (canon_ite (State.setIsland_canon hC) hC) ?_)
    split
    · exact hC
    · exact canon_ite hC (canon_ite (State.setIsland_canon hC) (State.setIsland_canon hC))

/-! ## Startup and doze -/

theorem execQueueDescriptorWriteback_keeps (hC : Canon kB s) : Keeps kB (execQueueDescriptorWriteback s) := by
  refine keeps_next (canon_ite hC (canon_foldl hC fun _ _ h => ?_))
  split
  · exact State.copyDesc_canon h
  · exact h

/-! ## Regulation -/

theorem execRegulationWindow_keeps (hC : Canon kB s) : Keeps kB (execRegulationWindow s) := by
  refine keeps_next (canon_ite hC ?_)
  extract_lets s1 _ _ s2 _ s3 s4
  have hs1 : Canon kB s1 := canon_ite (canon_foldl hC fun _ _ h => State.checkGuarantee_canon h) hC
  have hs2 : Canon kB s2 := canon7 hs1
  have hs3 : Canon kB s3 := canon7 hs2
  have hs4 : Canon kB s4 := canon_foldl hs3 fun _ _ h => State.answerMsg_canon h
  exact canon7 hs4

/-! ## Every command -/

/-- Every command but AON_START keeps to the base. -/
theorem exec_keeps {c : Sys2Proof.Instr} (hc : ∀ id, c ≠ .aonStart id) (hC : Canon kB s) : Keeps kB (exec c s) := by
  cases c with
  | contextCreate => exact runCmd_keeps hC contextCreateBody_canon
  | contextRevoke => exact runCmd_keeps hC contextRevokeBody_canon
  | contextRevoked => exact execContextRevoked_keeps hC
  | contextDrained => exact execContextDrained_keeps hC
  | memoryObjectCreate => exact runCmd_keeps hC memoryObjectCreateBody_canon
  | memoryObjectRelease => exact runCmd_keeps hC memoryObjectReleaseBody_canon
  | queueCreate => exact runCmd_keeps hC queueCreateBody_canon
  | queueDestroy => exact runCmd_keeps hC queueDestroyBody_canon
  | fenceCreate => exact runCmd_keeps hC fenceCreateBody_canon
  | fenceRelease => exact runCmd_keeps hC fenceReleaseBody_canon
  | fenceSignal => exact runCmd_keeps hC fenceSignalBody_canon
  | fenceWait => exact runCmd_keeps hC fenceWaitBody_canon
  | fenceWaitTimeout => exact execFenceWaitTimeout_keeps hC
  | fenceReset => exact runCmd_keeps hC fenceResetBody_canon
  | resultFetch => exact runCmd_keeps hC resultFetchBody_canon
  | fenceSignalApply => exact keeps_next (canon_foldl (State.applyGroup_canon hC) fun _ _ h => State.post_canon h)
  | stationDefine => exact runCmd_keeps hC stationDefineBody_canon
  | stationBind => exact runCmd_keeps hC stationBindBody_canon
  | stationUnbind => exact runCmd_keeps hC stationUnbindBody_canon
  | stationUnbound => exact execStationUnbound_keeps hC
  | stationPredicate => exact runCmd_keeps hC stationPredicateBody_canon
  | stationPredicateArrive => exact execStationPredicateArrive_keeps hC
  | stationPredicated => exact execStationPredicated_keeps hC
  | waybillSubmit => exact runCmd_keeps hC waybillSubmitBody_canon
  | stewardAppoint => exact runCmd_keeps hC stewardAppointBody_canon
  | stewardDismiss => exact runCmd_keeps hC stewardDismissBody_canon
  | stewardDismissed => exact execStewardDismissed_keeps hC
  | caravanDefine => exact runCmd_keeps hC caravanDefineBody_canon
  | caravanRelease => exact runCmd_keeps hC caravanReleaseBody_canon
  | mirrorSync => exact runCmd_keeps hC mirrorSyncBody_canon
  | mirrorSyncSend => exact execMirrorSyncSend_keeps hC
  | btuInvalidate => exact execBtuInvalidate_keeps hC
  | btuInvalidateAck => exact execBtuInvalidateAck_keeps hC
  | mirrorSynced => exact execMirrorSynced_keeps hC
  | milestoneSet => exact runCmd_keeps hC milestoneSetBody_canon
  | milestoneTick => exact keeps_next (canon_ite (canon_foldl hC fun _ _ h => State.milestoneSend_canon h) hC)
  | requestCancel => exact runCmd_keeps hC requestCancelBody_canon
  | cancelHoldExpire => exact execCancelHoldExpire_keeps hC
  | windowOpen => exact runCmd_keeps hC windowOpenBody_canon
  | windowClose => exact runCmd_keeps hC windowCloseBody_canon
  | windowOpenMsg => exact execWindowOpenMsg_keeps hC
  | windowCloseMsg => exact runMsg_keeps hC fun h => canon_ite_fst (refuseM_canon h) (State.windowClose_canon h)
  | windowClosed => exact execWindowClosed_keeps hC
  | partitionRekey => exact runCmd_keeps hC partitionRekeyBody_canon
  | rekeySweepPage => exact execRekeySweepPage_keeps hC
  | rekeyBitmapFlip => exact execRekeyBitmapFlip_keeps hC
  | rekeyPageRelease => exact execRekeyPageRelease_keeps hC
  | rekeyDone => exact execRekeyDone_keeps hC
  | sequencerRestart | handshakeTimeout => exact keeps_next (canon7 hC)
  | hint => exact runCmd_keeps hC hintBody_canon
  | hintPhaseStart => exact execHintPhaseStart_keeps hC
  | hintPhaseEnd => exact execHintPhaseEnd_keeps hC
  | planDefine => exact runCmd_keeps hC planDefineBody_canon
  | planRelease => exact runCmd_keeps hC planReleaseBody_canon
  | sessionOpen => exact runCmd_keeps hC sessionOpenBody_canon
  | sessionAppend => exact runCmd_keeps hC sessionAppendBody_canon
  | sessionCancel => exact runCmd_keeps hC sessionCancelBody_canon
  | sessionClose => exact runCmd_keeps hC sessionCloseBody_canon
  | sessionCloseComplete => exact execSessionCloseComplete_keeps hC
  | weightLoad => exact keeps_next (canon_ite hC (runCmd_canon hC fun _ _ h => weightLoadBody_canon h))
  | weightRelease => exact keeps_next (canon_ite hC (runCmd_canon hC fun _ _ h => weightReleaseBody_canon h))
  | submissionTailDoorbell | completionHeadDoorbell | eventHeadDoorbell | tokenRingHeadDoorbell | reckoningRingHeadDoorbell =>
    exact keeps_next (canon_ite (State.doorbell_canon hC) hC)
  | configWriteReadOnly => exact keeps_next (canon_ite hC (State.emitOut_canon hC))
  | submissionEntry => exact execSubmissionEntry_keeps hC
  | commandBufferStart => exact execCommandBufferStart_keeps hC
  | answerWrittenOnRoom => exact execAnswerWrittenOnRoom_keeps hC
  | eventWrite => exact execEventWrite_keeps hC
  | eventsLost => exact execEventsLost_keeps hC
  | waybillStart => exact execWaybillStart_keeps hC
  | waybillEnqueue => exact execWaybillEnqueue_keeps hC
  | hubDirectoryEnqueue => exact execHubDirectoryEnqueue_keeps hC
  | refillGroupStart => exact execRefillGroupStart_keeps hC
  | refillGroupComplete => exact execRefillGroupComplete_keeps hC
  | engineCommit => exact execEngineCommit_keeps hC
  | heldCommitComplete => exact keeps_next (completeHeld_canon hC)
  | orderedCommitSignal => exact execOrderedCommitSignal_keeps hC
  | mEnd => exact execMEnd_keeps hC
  | mLda | mLdb | mAccld =>
    refine keeps_next ?_
    split
    · exact hC
    · exact canon_ite (State.addViolation_canon hC) (State.beginLoad_canon hC)
  | mMma | mMmaeg =>
    refine keeps_next ?_
    split
    · exact hC
    · exact State.setM_canon (canon7 hC)
  | mAccz | mRepeat | mSync =>
    refine keeps_next ?_
    split
    · exact hC
    · exact State.setM_canon hC
  | mAccst => exact execMAccst_keeps hC
  | mEmit => exact execMEmit_keeps hC
  | vVadd | vVsub | vVmul | vVfma | vVfnma | vVmin | vVmax | vVand | vVor | vVxor | vVshl | vVshr | vVcvt | vVperm | vVlane =>
    exact keeps_next (State.vLanes_canon hC)
  | vVabs | vVneg => exact keeps_next (State.vLanes_canon (canon7 hC))
  | vVsel | vVcmp | vPlogic | vVmova | vVffs | vVpcnt | vVext | vVsfu | vVrand | vAaddi | vAlui | vNop | vDrain =>
    refine keeps_next ?_
    split
    · exact hC
    · exact State.setV_canon hC (by simpa using vReady_wf hC ‹_›)
  | vVradd | vVrmax | vVrmin | vVscan => exact keeps_next (State.vWhole_canon hC)
  | vTkinit => exact execVTkinit_keeps hC
  | vTkpush => exact execVTkpush_keeps hC
  | vTkpop => exact execVTkpop_keeps hC
  | vVld | vLda =>
    refine keeps_next ?_
    split
    · exact hC
    · extract_lets
      split
      · exact VEnv.fault_canon hC
      · exact State.setV_canon hC (by simpa using vReady_wf hC ‹_›)
      · exact VEnv.sliceLoad_canon hC (by simpa using vReady_wf hC ‹_›)
  | vVst => exact execVVst_keeps hC
  | vVldx => exact execVVldx_keeps hC
  | vVstx => exact execVVstx_keeps hC
  | vSta => exact execVSta_keeps hC
  | vAop => exact execVAop_keeps hC
  | vBr => exact execVBr_keeps hC
  | vSr => exact execVSr_keeps hC
  | vEnd => exact execVEnd_keeps hC
  | vEmit => exact execVEmit_keeps hC
  | sAlu | sCmp | sMul | sAddi | sAndi | sOri | sXori | sSlti | sSltiu | sShi | sLui => exact keeps_next (State.sAlu_canon hC)
  | sDiv | sBr =>
    refine keeps_next ?_
    split
    · exact hC
    · exact State.setS_canon hC (by simpa [apply_ite SCell.local'] using sReady_wf hC ‹_›)
  | sLd | sLdu => exact keeps_next (State.sLoad_canon hC)
  | sSt => exact execSSt_keeps hC
  | sAmo => exact execSAmo_keeps hC
  | sJal | sJalr | sNop | sDrain | sWaitq =>
    refine keeps_next ?_
    split
    · exact hC
    · exact State.setS_canon hC (by simpa using sReady_wf hC ‹_›)
  | sFrd | sFsig =>
    refine keeps_next ?_
    split
    · exact hC
    · exact canon_ite (SEnv.fault_canon hC) (canon_ite hC (State.sendFence_canon (State.setS_canon hC (by simpa using sReady_wf hC ‹_›))))
  | sQocc => exact execSQocc_keeps hC
  | sSr => exact execSSr_keeps hC
  | sEnd => exact execSEnd_keeps hC
  | sEmit | sEmitKeepf => exact keeps_next (State.sEmit_canon hC)
  | sQput => exact execSQput_keeps hC
  | sQtake => exact execSQtake_keeps hC
  | sWaitqResume => exact execSWaitqResume_keeps hC
  | sCancel => exact execSCancel_keeps hC
  | sPred => exact execSPred_keeps hC
  | sCrd => exact execSCrd_keeps hC
  | sliceAccessComplete => exact keeps_next (State.spineCycle_canon (State.issueRead_canon (State.bankCycle_canon hC)))
  | crierSend => exact execCrierSend_keeps hC
  | crierStageGrant => exact execCrierStageGrant_keeps hC
  | deliveryMark => exact execDeliveryMark_keeps hC
  | caravanWrite => exact execCaravanWrite_keeps hC
  | spineFlitCrcFail => exact keeps_next (canon_ite hC (canon_ite (State.replay_canon hC) (State.failHop_canon hC)))
  | sliceSecDedError => exact execSliceSecDedError_keeps hC
  | sliceWipeDone => exact execSliceWipeDone_keeps hC
  | dispatchStart => exact execDispatchStart_keeps hC
  | dispatchSlotFencePoll => exact execDispatchSlotFencePoll_keeps hC
  | dispatchCommit => exact keeps_next (State.unitCommit_canon hC)
  | combineOpenBatch => exact execCombineOpenBatch_keeps hC
  | combineResult => exact execCombineResult_keeps hC
  | combineCommit => exact execCombineCommit_keeps hC
  | gatherStart => exact execGatherStart_keeps hC
  | gatherCommit => exact execGatherCommit_keeps hC
  | collectiveStart => exact execCollectiveStart_keeps hC
  | collectiveSegmentSend => exact execCollectiveSegmentSend_keeps hC
  | collectiveSegmentReady => exact execCollectiveSegmentReady_keeps hC
  | collectiveCommit => exact execCollectiveCommit_keeps hC
  | dramSlotGrant => exact execDramSlotGrant_keeps hC
  | dramReadData => exact execDramReadData_keeps hC
  | dramRefsb | dimmTemp85Cross => exact keeps_next (canon_ite (State.setCtrl_canon hC) hC)
  | dramPatrolScrub =>
    exact keeps_next (canon_ite hC (canon_ite (State.setCtrl_canon hC) (canon_ite (State.memEnter_canon (State.noteLine_canon
      (State.setCtrl_canon hC))) (State.uncorrectable_canon (State.setCtrl_canon hC)))))
  | dramBusReplay => exact keeps_next (canon_ite (State.loseDimm_canon (State.setCtrl_canon hC)) (State.setCtrl_canon hC))
  | dimmLost => exact keeps_next (canon_ite (State.loseDimm_canon hC) hC)
  | p3Promotion => exact keeps_next (State.setCtrl_canon hC)
  | parityRowFlush => exact execParityRowFlush_keeps hC
  | parityEntryFreed => exact execParityEntryFreed_keeps hC
  | deviceWipe => exact execDeviceWipe_keeps hC
  | carveOutWipeDone | epochNotice => exact keeps_next (canon_ite (canon7 hC) hC)
  | codedInitDone => exact keeps_next (State.rowRetry_canon (State.updPart_canon hC))
  | tlbMissWalk => exact execTlbMissWalk_keeps hC
  | walkReadReturn => exact execWalkReadReturn_keeps hC
  | prefetchWalkStart => exact execPrefetchWalkStart_keeps hC
  | windowRoute => exact runMsg_keeps hC windowRouteBody_canon
  | windowKeyLoad => exact runMsg_keeps hC fun h => canon_ite_fst (refuseM_canon h) (okM_canon (canon7 h))
  | partitionCreate => exact runMsg_keeps hC partitionCreateBody_canon
  | partitionDestroy => exact runMsg_keeps hC partitionDestroyBody_canon
  | partitionDestroyed => exact execPartitionDestroyed_keeps hC
  | blockBind => exact runMsg_keeps hC blockBindBody_canon
  | blockRelease => exact runMsg_keeps hC blockReleaseBody_canon
  | blockReleased => exact execBlockReleased_keeps hC
  | blockMoved => exact execBlockMoved_keeps hC
  | firmwareSwitchTimeout => exact execFirmwareSwitchTimeout_keeps hC
  | blockMove => exact runMsg_keeps hC blockMoveBody_canon
  | blockMoveDrained => exact execBlockMoveDrained_keeps hC
  | blockMoveCopied => exact execBlockMoveCopied_keeps hC
  | stationMove => exact runMsg_keeps hC stationMoveBody_canon
  | stationMoved => exact execStationMoved_keeps hC
  | epochRetire => exact execEpochRetire_keeps hC
  | channelShare => exact runMsg_keeps hC channelShareBody_canon
  | portShare => exact runMsg_keeps hC portShareBody_canon
  | queuePairOpen => exact runMsg_keeps hC queuePairOpenBody_canon
  | queuePairRetarget => exact runMsg_keeps hC queuePairRetargetBody_canon
  | queuePairRetargeted => exact execQueuePairRetargeted_keeps hC
  | queuePairClose => exact runMsg_keeps hC queuePairCloseBody_canon
  | companionSet => exact runMsg_keeps hC companionSetBody_canon
  | requestHandoff => exact runMsg_keeps hC requestHandoffBody_canon
  | nodeAssign =>
    exact runMsg_keeps hC fun h => canon_ite_fst (refuseM_canon h) (canon_ite_fst (refuseM_canon h) (canon_ite_fst (okM_canon h) (canon_ite_fst
      (refuseM_canon h) (okM_canon (canon7 h)))))
  | leaseOffer => exact runMsg_keeps hC leaseOfferBody_canon
  | leaseAccept => exact runMsg_keeps hC leaseAcceptBody_canon
  | leaseRenew => exact runMsg_keeps hC leaseRenewBody_canon
  | leaseRenewTimer => exact execLeaseRenewTimer_keeps hC
  | leaseGrant => exact runMsg_keeps hC leaseGrantBody_canon
  | leaseExpire => exact execLeaseExpire_keeps hC
  | leaseRevoked => exact runMsg_keeps hC leaseRevokedBody_canon
  | leaseGrantTimeout => exact execLeaseGrantTimeout_keeps hC
  | tokenNotice => exact runMsg_keeps hC tokenNoticeBody_canon
  | homeDeadlineReclaim => exact execHomeDeadlineReclaim_keeps hC
  | stepCompose => exact execStepCompose_keeps hC
  | stepResult => exact execStepResult_keeps hC
  | stepTimeout => exact execStepTimeout_keeps hC
  | tokenLogWrite => exact execTokenLogWrite_keeps hC
  | sessionReadmit => exact execSessionReadmit_keeps hC
  | mirrorEntryAck => exact execMirrorEntryAck_keeps hC
  | tokenRecordWrite => exact execTokenRecordWrite_keeps hC
  | mirrorEntry => exact runPlain_keeps hC mirrorEntryBody_canon
  | mirrorAccept => exact runPlain_keeps hC mirrorAcceptBody_canon
  | companionTakeover => exact runPlain_keeps hC companionTakeoverBody_canon
  | partitionResetMsg => exact runPlain_keeps hC partitionResetBody_canon
  | partitionResetDone => exact execPartitionResetDone_keeps hC
  | hangCapture => exact execHangCapture_keeps hC
  | hangCaptureTimeout => exact execHangCaptureTimeout_keeps hC
  | engineWatchdogExpire => exact execEngineWatchdogExpire_keeps hC
  | stationHung => exact execStationHung_keeps hC
  | queueStalled => exact execQueueStalled_keeps hC
  | dispatcherHang => exact execDispatcherHang_keeps hC
  | cellUncorrectable => exact keeps_next (canon_ite hC (canon_ite (canon7 hC) (State.retireSoon_canon hC)))
  | withdrawal => exact execWithdrawal_keeps hC
  | evacuateTo => exact runPlain_keeps hC evacuateBody_canon
  | portmanteauChunk => exact execPortmanteauChunk_keeps hC
  | portmanteauRestore => exact execPortmanteauRestore_keeps hC
  | portmanteauRestored => exact execPortmanteauRestored_keeps hC
  | withdrawn => exact execWithdrawn_keeps hC
  | evacLimitExpire => exact execEvacLimitExpire_keeps hC
  | migrateStart => exact runPlain_keeps hC migrateStartBody_canon
  | migrateGenerationDone => exact execMigrateGenerationDone_keeps hC
  | migrateCancel => exact runPlain_keeps hC migrateCancelBody_canon
  | portmanteauAdopt => exact runPlain_keeps hC portmanteauAdoptBody_canon
  | collectiveGroup => exact runMsg_keeps hC collectiveGroupBody_canon
  | memberLost =>
    exact runMsg_keeps hC fun h => canon_ite_fst (refuseM_canon h) (canon_ite_fst (refuseM_canon h) (okM_canon (State.loseOldPeer_canon
      (State.memberLost_canon h))))
  | paceWindow => exact execPaceWindow_keeps hC
  | paceRelay => exact runMsg_keeps hC fun h => canon_ite_fst (refuseM_canon h) (canon_ite_fst (refuseM_canon h) (okM_canon (State.event_canon h)))
  | paceCap =>
    exact runMsg_keeps hC fun h => canon_ite_fst (refuseM_canon h) (canon_ite_fst (refuseM_canon h) (canon_ite_fst (refuseM_canon h) (okM_canon
      (canon7 h))))
  | portReadmit =>
    exact runMsg_keeps hC fun h => canon_ite_fst (refuseM_canon h) (canon_ite_fst (refuseM_canon h) (canon_ite_fst (refuseM_canon h) (canon_ite_fst
      (refuseM_canon h) (canon_ite_fst h (State.setPort_canon h)))))
  | probationEnd | portTrainRetry | flitReplayRetrain => exact keeps_next (canon_ite (State.setPort_canon hC) hC)
  | pmdTrainDone => exact keeps_next (canon_ite hC (canon_ite (State.trainFail_canon hC) (State.setPort_canon hC)))
  | alignDone => exact execAlignDone_keeps hC
  | ctrlIdent => exact execCtrlIdent_keeps hC
  | ctrlEcho => exact keeps_next (canon_ite hC (canon_ite (State.setPort_canon hC) (State.setPort_canon hC)))
  | laneFault =>
    exact keeps_next (canon_ite hC (canon_ite (State.linkEvent_canon (State.setPort_canon hC)) (canon_ite hC (canon_ite (State.laneLost_canon hC)
      (State.setPort_canon hC)))))
  | ctrlSpareReq => exact execCtrlSpareReq_keeps hC
  | ctrlSpareAck => exact keeps_next (State.updPort_canon hC)
  | spareSwap => exact execSpareSwap_keeps hC
  | partnerLoss | ctrlLinkDown => exact keeps_next (canon_ite hC (canon_ite (State.portDown_canon hC) (State.partnerLoss_canon hC)))
  | ctrlViolation => exact keeps_next (canon_ite (State.linkEvent_canon (State.logFault_canon hC)) hC)
  | ctrlQuarantine => exact keeps_next (canon_ite (State.updPort_canon hC) hC)
  | ctrlRateChange => exact keeps_next (canon_ite hC (State.setPort_canon hC))
  | flitReceive => exact execFlitReceive_keeps hC
  | flitNak => exact execFlitNak_keeps hC
  | portQuarantined => exact keeps_next (canon_ite hC (State.linkEvent_canon (State.dropWindows_canon (State.setPort_canon hC))))
  | qpSend => exact execQpSend_keeps hC
  | qpAck => exact execQpAck_keeps hC
  | qpCredit => exact keeps_next (State.onTxn_canon hC fun _ _ _ h => canon7 h)
  | landingFenceCredit => exact execLandingFenceCredit_keeps hC
  | winRead | winWrite => exact keeps_next (canon_ite hC (State.onTxn_canon hC fun _ _ _ h => State.winServe_canon h))
  | winAtomic => exact execWinAtomic_keeps hC
  | rsp => exact execRsp_keeps hC
  | hostRead => exact keeps_next (canon_ite (State.request_canon hC) hC)
  | hostWrite => exact execHostWrite_keeps hC
  | doorbellTxn => exact keeps_next (State.onTxn_canon hC fun _ _ _ h => canon_ite h (State.doorbell_canon h))
  | cfgRead => exact keeps_next (State.onTxn_canon hC fun _ _ _ h => State.respond_canon h)
  | notify => exact keeps_next (canon_ite (State.emitOut_canon (State.sendMsg_canon hC)) hC)
  | mgmtTxn => exact keeps_next (State.onTxn_canon hC fun _ _ _ h => State.checkFrame_canon h)
  | coll => exact execColl_keeps hC
  | uartFrame => exact keeps_next (canon_ite (State.checkFrame_canon hC) hC)
  | regulationWindow => exact execRegulationWindow_keeps hC
  | regulationSample | meterSample | dozeReqNAssert | resetNAssert => exact keeps_next (canon_ite hC (canon7 hC))
  | moduleCap => exact runPlain_keeps hC moduleCapBody_canon
  | reconciliationWindow => exact keeps_next (canon_ite hC (State.reconcile_canon hC))
  | powerAllotment => exact execPowerAllotment_keeps hC
  | operatingPointChange => exact execOperatingPointChange_keeps hC
  | capEmergency => exact keeps_next (canon_ite (State.emergency_canon (canon7 hC)) hC)
  | ceilingStep => exact execCeilingStep_keeps hC
  | overcurrent => exact execOvercurrent_keeps hC
  | thermal => exact execThermal_keeps hC
  | dimmThermal => exact execDimmThermal_keeps hC
  | emergencyRelease => exact execEmergencyRelease_keeps hC
  | trip => exact execTrip_keeps hC
  | droopStretch => exact execDroopStretch_keeps hC
  | powerDownIsland => exact execPowerDownIsland_keeps hC
  | reckoningIdleClose => exact execReckoningIdleClose_keeps hC
  | reckoningEpochClose => exact keeps_next (canon_ite (State.epochClose_canon hC) hC)
  | reckoningRootSigned => exact execReckoningRootSigned_keeps hC
  | reckoningBacklog => exact execReckoningBacklog_keeps hC
  | reckoningRingWrite => exact keeps_next (State.flushHeld_canon hC)
  | liveReadings => exact execLiveReadings_keeps hC
  | clockRead => exact runPlain_keeps hC fun h => canon_ite_fst (refuseM_canon h) (okM_canon h)
  | handshakeInit => exact execHandshakeInit_keeps hC
  | handshakeFinish => exact execHandshakeFinish_keeps hC
  | attestRequest => exact execAttestRequest_keeps hC
  | weightSetJoin =>
    exact runPlain_keeps hC fun h => canon_ite_fst (refuseM_canon h) (canon_ite_fst (refuseM_canon h) (canon_ite_fst (refuseM_canon h) (okM_canon
      (canon7 h))))
  | weightSetLeave => exact runPlain_keeps hC fun h => canon_ite_fst (refuseM_canon h) (okM_canon (canon7 h))
  | lifecycleSet => exact runPlain_keeps hC lifecycleSetBody_canon
  | serviceToken =>
    exact runPlain_keeps hC fun h => canon_ite_fst (refuseM_canon h) (canon_ite_fst (okM_canon h) (canon_ite_fst (refuseM_canon h) (canon_ite_fst
      (refuseM_canon h) (okM_canon (canon7 h)))))
  | masterRelease => exact runPlain_keeps hC masterReleaseBody_canon
  | firmwareBegin => exact runPlain_keeps hC firmwareBeginBody_canon
  | firmwareWrite => exact runPlain_keeps hC firmwareWriteBody_canon
  | firmwareActivate => exact keeps_next (firmwareActivateBody_canon hC)
  | firmwareSwitchReady => exact execFirmwareSwitchReady_keeps hC
  | firmwareCommit => exact runPlain_keeps hC firmwareCommitBody_canon
  | debugAccess => exact runPlain_keeps hC debugBody_canon
  | zhohiWrite => exact runPlain_keeps hC zhohiWriteBody_canon
  | faultLogRead =>
    exact keeps_next (canon_ite (State.answerMsg_canon hC) (canon_ite (State.answerMsg_canon hC) (canon_ite (State.answerMsg_canon hC)
      (State.emitOut_canon (State.answerMsg_canon hC)))))
  | horizonRead => exact runPlain_keeps hC okM_canon
  | dozeEnter =>
    exact runPlain_keeps hC fun h => canon_ite_fst (refuseM_canon h) (canon_ite_fst (okM_canon (State.beginDoze_canon h)) (refuseM_canon h))
  | dozeExit => exact runPlain_keeps hC fun h => okM_canon (State.wake_canon h)
  | dozeReqNRelease => exact keeps_next (canon_ite hC (State.wake_canon (canon7 hC)))
  | wake => exact keeps_next (State.onTxn_canon hC fun _ _ _ h => State.wake_canon h)
  | pwrgdStart => exact keeps_next (canon_ite hC (State.drive_canon (canon7 hC)))
  | resetN => exact execResetN_keeps hC
  | startStepComplete => exact keeps_next (canon_ite hC (State.drive_canon (State.endStep_canon hC)))
  | pwrEnAssert => exact execPwrEnAssert_keeps hC
  | pwrEnDeassert => exact execPwrEnDeassert_keeps hC
  | aonStart id => exact absurd rfl (hc id)
  | powerFail => exact keeps_next (canon_ite (State.inputLoss_canon hC) hC)
  | overVoltageCutoff => exact execOverVoltageCutoff_keeps hC
  | smbusWrite => exact keeps_next hC
  | wearRecordWrite => exact execWearRecordWrite_keeps hC
  | ringOscillatorRead | marginPlanDue => exact keeps_next (canon_ite (State.fallDue_canon hC) hC)
  | idleWindowFound =>
    exact keeps_next (canon_ite hC (canon_ite (canon_ite (State.setIsland_canon hC) hC) (canon_ite hC (State.setIsland_canon
      (State.updBlock_canon hC)))))
  | quietWindowDone => exact keeps_next (canon_ite (State.characterised_canon hC) hC)
  | quietWaitExpire => exact execQuietWaitExpire_keeps hC
  | quiesceTime => exact execQuiesceTime_keeps hC
  | flitSlot => exact keeps_next (canon_ite (State.updPort_canon (State.fillSlot_canon (State.groupTags_canon hC))) hC)
  | queueDescriptorWriteback => exact execQueueDescriptorWriteback_keeps hC
  | slicePatrolScrub => exact keeps_next (canon_ite hC (State.setBlock_canon hC))

end

/-- What keeps to the base of a state has its SLOT_ID, and a log grown from its log by entries of that SLOT_ID. -/
theorem Canon.slotId_log {s t : State} (h : Canon s.base t) :
    t.boot.slotId = s.boot.slotId ∧ Safety.LogGrown s.boot.slotId s.log t.log :=
  ⟨h.slot, h.grown⟩

end Sys2Proof.Machine

open Sys2Proof Sys2Proof.Machine

/-- Settles O8: AON_START is read off its meaning; every other command, and a microsecond, keeps to the base of the state before. -/
theorem slotIdIsSampledOnce : Obligations.SlotIdIsSampledOnce := by
  refine ⟨fun id s hoff => ?sampled, fun id s hon => ?ignored, fun c s t ht hc => ?command, fun s => ?tick, fun s => rfl⟩
  case sampled => exact congrArg _ (if_neg (ne_true_of_eq_false hoff))
  case ignored => exact congrArg _ (if_pos hon)
  case command => exact (exec_keeps hc (canon_start s) t ht).slotId_log
  case tick => exact (State.tick_canon (canon_start s)).slotId_log

end

section
/-! What every step keeps: a step is a command, or a microsecond. Every command but AON_START keeps to the base of the state before
(`exec_keeps`), and AON_START changes what AON holds alone. -/

namespace Sys2Proof.Machine

/-- AON_START changes nothing but what AON holds. -/
theorem execAonStart_frame {id : BitVec 6} {s t : State} (h : exec (.aonStart id) s = .next t) : ∃ b, t = { s with boot := b } := by
  have ht : t = if s.boot.aon then s else { s with boot := { s.boot with aon := true, closed := true, slotId := id.toNat } } := by
    cases h
    rfl
  rw [ht]
  split
  · exact ⟨s.boot, rfl⟩
  · exact ⟨_, rfl⟩

/-- A command keeps to the base of its state, or changes what AON holds alone. -/
theorem exec_cases {c : Sys2Proof.Instr} {s t : State} (h : exec c s = .next t) : Canon s.base t ∨ ∃ b, t = { s with boot := b } := by
  by_cases hc : ∃ id, c = .aonStart id
  · obtain ⟨id, rfl⟩ := hc
    exact .inr (execAonStart_frame h)
  · exact .inl (exec_keeps (fun id e => hc ⟨id, e⟩) (canon_start s) t h)

/-- A step keeps to the base of its state, but for the queue that it takes its command from, or changes what AON holds and that queue alone. -/
theorem step_cases {s t : State} (h : step s = .next t) :
    (∃ l, Canon { s with pending := l }.base t) ∨ ∃ l b, t = { s with pending := l, boot := b } := by
  unfold step at h
  split at h
  next c rest hp =>
    rcases exec_cases h with hk | ⟨b, rfl⟩
    · exact .inl ⟨rest, hk⟩
    · exact .inr ⟨rest, b, rfl⟩
  next hp =>
    cases h
    exact .inl ⟨s.pending, State.tick_canon (canon_start s)⟩

end Sys2Proof.Machine

open Sys2Proof Sys2Proof.Machine

/-- Settles O5: what keeps to a base with canonical memories has canonical memories, and what AON holds is no byte memory. -/
theorem memoriesStayCanonical : Obligations.MemoriesStayCanonical := by
  intro s t hm ht
  rcases step_cases ht with ⟨l, hk⟩ | ⟨l, b, rfl⟩
  · exact hk.memories hm
  · exact hm

/-- Settles O6: what keeps to a base has a log in order that has grown from the base's. -/
theorem faultLogGrowsInOrder : Obligations.FaultLogGrowsInOrder := by
  intro s t hord ht
  rcases step_cases ht with ⟨l, hk⟩ | ⟨l, b, rfl⟩
  · exact ⟨hk.ord hord, hk.grown⟩
  · exact ⟨hord, [], rfl, fun _ h => nomatch h⟩

/-- Settles O7: what keeps to a base has the base's queue, fuses and calibration, and no fewer hours and SVN minimums. -/
theorem whatNoCommandChanges : Obligations.WhatNoCommandChanges := by
  intro c s t ht
  rcases exec_cases ht with hk | ⟨b, rfl⟩
  · exact ⟨hk.pending, hk.variantT, hk.serial, hk.calShared, hk.calLoss, fun haon => hk.hours.resolve_left (fun hoff => Bool.noConfusion (haon.symm.trans hoff)), hk.minSvn⟩
  · exact ⟨rfl, rfl, rfl, rfl, rfl, fun _ => Nat.le_refl _, fun _ => Nat.le_refl _⟩

/-- Settles O1: on a queue with a front the step's own case split answers with that command. -/
theorem stepRunsFront : Obligations.StepRunsFront := fun _ _ _ => rfl

/-- Settles O2: each arm of the meaning is a next state, an empty queue ticks, and with AON down a microsecond is nothing. -/
theorem everyStepCompletes : Obligations.EveryStepCompletes := by
  refine ⟨fun c s => ?_, fun s hp => ?_, fun s hoff => ?_⟩
  · cases c <;> exact ⟨_, rfl⟩
  · simp only [step, hp]
  · simp only [State.tick, hoff]; rfl

end

section
/-! Arithmetic obligations: whole units shared out (R475), the audit tree (R482-R484), the ring schedule (R395), the assignment of tokens to
experts (R194, R195) and the order of epochs (R346). -/

namespace Sys2Proof.Machine

/-! ## Lists of naturals -/

theorem sumN_eq_sum (l : List Nat) : sumN l = l.sum := List.sum_eq_foldl.symm

theorem insertBy_perm {α : Type} (key : α → Nat) (x : α) (l : List α) : (insertBy key x l).Perm (x :: l) := by
  induction l with
  | nil => exact List.Perm.refl _
  | cons y l ih =>
    unfold insertBy
    split
    · exact List.Perm.refl _
    · exact (ih.cons y).trans (List.Perm.swap x y l)

theorem sortBy_perm {α : Type} (key : α → Nat) (l : List α) : (sortBy key l).Perm l := by
  suffices h : ∀ acc, (l.foldl (fun acc x => insertBy key x acc) acc).Perm (acc ++ l) from h []
  induction l with
  | nil => intro acc; simp
  | cons x l ih =>
    intro acc
    exact (ih _).trans (((insertBy_perm key x acc).append_right l).trans List.perm_middle.symm)

/-! ## Whole units (R475) -/

/-- Adding one at the listed places adds their number to the sum. -/
theorem sum_zip_bump (win : List Nat) (k : Nat) (l : List Nat) :
    ((List.zip (List.range' k l.length) l).map (fun x => if win.contains x.1 then x.2 + 1 else x.2)).sum =
      l.sum + ((List.range' k l.length).filter win.contains).length := by
  induction l generalizing k with
  | nil => rfl
  | cons a l ih =>
    simp only [List.length_cons, List.range'_succ, List.zip_cons_cons, List.map_cons, List.sum_cons, ih, List.filter_cons]
    split
    · rw [List.length_cons]; omega
    · omega

/-- Distinct numbers below n, counted along the range, are as many as they are. -/
theorem length_filter_range_contains {win : List Nat} {n : Nat} (hnd : win.Nodup) (hlt : ∀ i ∈ win, i < n) :
    ((List.range n).filter win.contains).length = win.length := by
  refine List.Perm.length_eq ((List.perm_ext_iff_of_nodup (List.nodup_range.filter _) hnd).mpr fun i => ?_)
  simp only [List.mem_filter, List.mem_range, List.contains_iff_mem]
  exact ⟨And.right, fun h => ⟨hlt i h, h⟩⟩

/-- What the floors leave of a quotient is shared among the parts with a remainder: there are enough of them. -/
theorem sum_div_le_add_count {d : Nat} (hd : 0 < d) (l : List Nat) :
    l.sum / d ≤ (l.map (· / d)).sum + (l.filter (fun a => decide (0 < a % d))).length ∧ (l.map (· / d)).sum ≤ l.sum / d := by
  have key : ∃ r, l.sum = d * (l.map (· / d)).sum + r ∧ r ≤ d * (l.filter (fun a => decide (0 < a % d))).length := by
    induction l with
    | nil => exact ⟨0, rfl, Nat.zero_le _⟩
    | cons a l ih =>
      obtain ⟨r, hsum, hle⟩ := ih
      have ha := Nat.div_add_mod a d
      have hlt := Nat.mod_lt a hd
      refine ⟨a % d + r, ?_, ?_⟩
      · simp only [List.sum_cons, List.map_cons, Nat.mul_add]
        omega
      · simp only [List.filter_cons]
        split
        · rw [List.length_cons, Nat.mul_succ]; omega
        next hz => simp only [decide_eq_true_eq] at hz; omega
  obtain ⟨r, hsum, hle⟩ := key
  rw [hsum, Nat.mul_add_div hd]
  have := Nat.div_le_of_le_mul hle
  exact ⟨by omega, Nat.le_add_right _ _⟩

theorem sum_map_mul_left (c : Nat) (l : List (Nat × Nat)) : (l.map (fun x => c * x.2)).sum = c * (l.map (·.2)).sum := by
  induction l with
  | nil => rfl
  | cons x l ih => simp only [List.map_cons, List.sum_cons, ih, Nat.mul_add]

/-- The places with a remainder are as many as the parts with one. -/
theorem length_filter_range_getD (p : Nat → Bool) (l : List (Nat × Nat)) :
    ((List.range l.length).filter (fun i => p (l.getD i (0, 0)).2)).length = ((l.map (·.2)).filter p).length := by
  have hmap : (List.range l.length).map (fun i => (l.getD i (0, 0)).2) = l.map (·.2) := by
    apply List.ext_getElem
    · simp
    · intro i h1 h2
      simp only [List.length_map] at h2
      simp [List.getElem?_eq_getElem h2]
  rw [← hmap, List.filter_map, List.length_map]
  rfl

end Sys2Proof.Machine

open Sys2Proof Sys2Proof.Machine

/-- Settles O55: the floors leave no more units than there are recipients with a remainder, and each of the winners gets one. -/
theorem sharesAddUp : Obligations.SharesAddUp := by
  intro num den l hden hpos
  have hd : 0 < den * sumN (l.map (·.2)) := Nat.mul_pos hden hpos
  unfold shareOut
  simp only [if_neg (Nat.ne_of_gt hd)]
  generalize hdd : den * sumN (l.map (·.2)) = d at hd ⊢
  generalize hfl : l.map (fun x => num * x.2 / d) = floors
  have hlen : floors.length = l.length := by rw [← hfl, List.length_map]
  have hperm := sortBy_perm (fun i => (d - num * (l.getD i (0, 0)).2 % d) * 2 ^ 32 + (l.getD i (0, 0)).1)
      ((List.range l.length).filter (fun i => decide (0 < num * (l.getD i (0, 0)).2 % d)))
  generalize sortBy (fun i => (d - num * (l.getD i (0, 0)).2 % d) * 2 ^ 32 + (l.getD i (0, 0)).1)
      ((List.range l.length).filter (fun i => decide (0 < num * (l.getD i (0, 0)).2 % d))) = order at hperm ⊢
  have hnd : order.Nodup := hperm.nodup_iff.mpr (List.nodup_range.filter _)
  have hlt : ∀ i ∈ order, i < l.length := fun i hi => List.mem_range.mp (List.mem_filter.mp (hperm.mem_iff.mp hi)).1
  have hshare : num / den = (l.map (fun x => num * x.2)).sum / d := by
    rw [sum_map_mul_left, ← hdd, sumN_eq_sum, Nat.mul_div_mul_right _ _ (sumN_eq_sum _ ▸ hpos)]
  obtain ⟨hup, hlow⟩ := sum_div_le_add_count hd (l.map (fun x => num * x.2))
  have hfloors : ((l.map (fun x => num * x.2)).map (· / d)) = floors := by rw [List.map_map]; exact hfl
  have hcount : order.length = ((l.map (fun x => num * x.2)).filter (fun a => decide (0 < a % d))).length := by
    rw [hperm.length_eq, length_filter_range_getD (fun w => decide (0 < num * w % d)) l, List.filter_map, List.filter_map, List.length_map, List.length_map]
    rfl
  rw [hfloors, ← hcount, ← hshare] at hup
  rw [hfloors, ← hshare] at hlow
  refine ⟨by simp [hlen], ?_⟩
  rw [sumN_eq_sum, List.range_eq_range', ← hlen, sum_zip_bump, ← List.range_eq_range', hlen,
    length_filter_range_contains ((List.take_sublist _ _).nodup hnd) (fun i hi => hlt i (List.mem_of_mem_take hi)), List.length_take, sumN_eq_sum]
  omega

end

section
/-! The audit tree (R482-R484), the ring schedule (R395), the assignment of tokens to experts (R194, R195), the order of epochs (R346), the
state at power-good (R306, R523) and the end of a generation (R290, R297). -/

namespace Sys2Proof.Machine

/-! ## The audit tree -/

/-- The split of a tree of two leaves or more leaves both sides a leaf, and both fit one level less. -/
theorem splitAt_bounds {n f : Nat} (h2 : 2 ≤ n) (hf : n ≤ 2 ^ (f + 1)) :
    0 < splitAt n ∧ splitAt n < n ∧ splitAt n ≤ 2 ^ f ∧ n - splitAt n ≤ 2 ^ f := by
  have hne : n - 1 ≠ 0 := by omega
  have hle : 2 ^ (n - 1).log2 ≤ n - 1 := Nat.log2_self_le hne
  have hlt : n - 1 < 2 ^ ((n - 1).log2 + 1) := Nat.lt_log2_self
  have hlog : (n - 1).log2 ≤ f := Nat.lt_succ_iff.mp ((Nat.log2_lt hne).mpr (by omega))
  have hpow : 2 ^ (n - 1).log2 ≤ 2 ^ f := Nat.pow_le_pow_right (by decide) hlog
  have hpos : 0 < 2 ^ (n - 1).log2 := Nat.two_pow_pos _
  unfold splitAt
  omega

/-- A leaf's path and hash give the hash of its tree. -/
theorem rootFrom_auditPath (fuel : Nat) (l : List Nat) (i : Nat) (hi : i < l.length) (hl : l.length ≤ 2 ^ fuel) :
    Spec.rootFrom fuel l.length i (l.getD i 0) (auditPath fuel i l) = merkle fuel l := by
  induction fuel generalizing l i with
  | zero =>
    obtain ⟨a, rfl⟩ := List.length_eq_one_iff.mp (show l.length = 1 by omega)
    obtain rfl : i = 0 := by simpa using hi
    rfl
  | succ f ih =>
    by_cases h1 : l.length ≤ 1
    · obtain ⟨a, rfl⟩ := List.length_eq_one_iff.mp (show l.length = 1 by omega)
      obtain rfl : i = 0 := by simpa using hi
      rfl
    · obtain ⟨hpos, hlt, hleft, hright⟩ := splitAt_bounds (by omega) hl
      simp only [Spec.rootFrom, auditPath, merkle, if_neg h1]
      by_cases hik : i < splitAt l.length
      · have hsub := ih (l.take (splitAt l.length)) i (by simp; omega) (by simp; omega)
        rw [List.length_take_of_le (Nat.le_of_lt hlt)] at hsub
        simp only [if_pos hik, List.dropLast_concat, List.getLastD_concat]
        rw [← hsub]
        simp [hik]
      · have hsub := ih (l.drop (splitAt l.length)) (i - splitAt l.length) (by simp; omega) (by simp; omega)
        rw [List.length_drop] at hsub
        simp only [if_neg hik, List.dropLast_concat, List.getLastD_concat]
        rw [← hsub]
        simp [show splitAt l.length + (i - splitAt l.length) = i by omega]

/-! ## The ring schedule -/

/-- A step's number within its part leaves a step of the part; the next step is the part's next, or the gather's first after the scatter's last. -/
theorem collPart_cases {op n step : Nat} (h2 : 2 ≤ n) (hstep : step < collSteps op n) :
    ∃ b x, collPart op n step = (b, x) ∧ x + 1 < n ∧
      (step + 1 < collSteps op n → (x + 2 < n ∧ collPart op n (step + 1) = (b, x + 1)) ∨ (x + 2 = n ∧ b = true ∧ collPart op n (step + 1) = (false, 0))) := by
  unfold collSteps at hstep ⊢
  unfold collPart
  by_cases hgather : op = 2
  · simp only [hgather, if_true, show (2 : Nat) ≠ 0 by decide, if_false] at hstep ⊢
    exact ⟨_, _, rfl, by omega, fun h => .inl ⟨by omega, rfl⟩⟩
  · simp only [if_neg hgather]
    by_cases hsc : step < n - 1
    · refine ⟨true, step, if_pos hsc, by omega, fun h => ?_⟩
      by_cases hnext : step + 1 < n - 1
      · exact .inl ⟨by omega, if_pos hnext⟩
      · exact .inr ⟨by omega, rfl, by rw [if_neg hnext]; congr 1; omega⟩
    · refine ⟨false, step - (n - 1), if_neg hsc, by split at hstep <;> omega, fun h => .inl ⟨by split at h <;> omega, ?_⟩⟩
      rw [if_neg (by omega)]
      congr 1
      omega

/-- What the member before has sent is, modulo the number of members, the chunk of the place one lower. -/
theorem prev_add_mod (n r k : Nat) : ((r + n - 1) % n + k) % n = (r + n - 1 + k) % n := Nat.mod_add_mod _ _ _

/-! ## The assignment of tokens to experts -/

theorem loadOf'_append_single (ps : List Pair) (q : Pair) (e : Nat) : loadOf' (ps ++ [q]) e = loadOf' ps e + if q.expert = e then 1 else 0 := by
  simp only [loadOf', List.filter_append, List.length_append, List.filter_cons, List.filter_nil, beq_iff_eq]
  split <;> rfl

/-- A pair for an expert that has room leaves no expert above its room. -/
theorem loadOf'_append_le {room : Nat → Nat} {ps : List Pair} (h : ∀ e, loadOf' ps e ≤ room e) {q : Pair} (hq : loadOf' ps q.expert < room q.expert) (e : Nat) :
    loadOf' (ps ++ [q]) e ≤ room e := by
  rw [loadOf'_append_single]
  split
  next he => subst he; omega
  next => exact h e

theorem assignRounds_load_le (room : Nat → Nat) (cands : List (Nat × Nat × Nat)) (ps : List Pair) (ov : List (Nat × Nat))
    (h : ∀ e, loadOf' ps e ≤ room e) (e : Nat) : loadOf' (assignRounds room cands ps ov).1 e ≤ room e := by
  induction cands generalizing ps ov with
  | nil => exact h e
  | cons c l ih =>
    obtain ⟨t, j, x⟩ := c
    unfold assignRounds
    split
    next hroom => exact ih _ _ (loadOf'_append_le h hroom)
    next => exact ih _ _ h

theorem assignOverflow_load_le (room : Nat → Nat) (res : Nat → List (Nat × Nat)) (ov : List (Nat × Nat)) (ps : List Pair)
    (h : ∀ e, loadOf' ps e ≤ room e) (e : Nat) : loadOf' (assignOverflow room res ov ps) e ≤ room e := by
  induction ov generalizing ps with
  | nil => exact h e
  | cons c l ih =>
    obtain ⟨t, j⟩ := c
    unfold assignOverflow
    split
    next k x hfind =>
      have hroom := List.find?_some hfind
      simp only [Bool.and_eq_true, decide_eq_true_eq] at hroom
      exact ih _ (loadOf'_append_le h hroom.2)
    next => exact ih _ h

theorem mem_assignRounds (room : Nat → Nat) (cands : List (Nat × Nat × Nat)) (ps : List Pair) (ov : List (Nat × Nat)) (q : Pair)
    (hq : q ∈ (assignRounds room cands ps ov).1) : q ∈ ps ∨ (q.token, q.pos, q.expert) ∈ cands ∧ q.rank = q.pos ∧ q.rerouted = false := by
  induction cands generalizing ps ov with
  | nil => exact .inl hq
  | cons c l ih =>
    obtain ⟨t, j, x⟩ := c
    unfold assignRounds at hq
    split at hq
    · rcases ih _ _ hq with hps | ⟨hmem, hrest⟩
      · rcases List.mem_append.mp hps with hold | hnew
        · exact .inl hold
        · obtain rfl := List.mem_singleton.mp hnew
          exact .inr ⟨List.mem_cons_self, rfl, rfl⟩
      · exact .inr ⟨List.mem_cons_of_mem _ hmem, hrest⟩
    · rcases ih _ _ hq with hps | ⟨hmem, hrest⟩
      · exact .inl hps
      · exact .inr ⟨List.mem_cons_of_mem _ hmem, hrest⟩

theorem assignRounds_length (room : Nat → Nat) (cands : List (Nat × Nat × Nat)) (ps : List Pair) (ov : List (Nat × Nat)) :
    (assignRounds room cands ps ov).1.length + (assignRounds room cands ps ov).2.length = ps.length + ov.length + cands.length := by
  induction cands generalizing ps ov with
  | nil => rfl
  | cons c l ih =>
    obtain ⟨t, j, x⟩ := c
    unfold assignRounds
    split <;> rw [ih] <;> simp only [List.length_append, List.length_cons, List.length_nil] <;> omega

theorem Expert.effective_le (e : Expert) (pitch : Nat) :
    e.effective pitch ≤ e.capacity ∧ (e.pack = true → e.effective pitch ≤ 16) ∧ e.effective pitch * pitch ≤ 1048576 := by
  unfold Expert.effective
  refine ⟨by omega, fun hp => ?_, ?_⟩
  · rw [if_pos hp]; omega
  · by_cases h0 : pitch = 0
    · simp [h0]
    · rw [if_neg h0]
      exact Nat.le_trans (Nat.mul_le_mul_right _ (Nat.min_le_right _ _)) (Nat.div_mul_le_self _ _)

/-! ## The epoch of a queue -/

theorem epochOlder_iff (a b : Nat) : epochOlder a b = true ↔ 1 ≤ (b % 65536 + 65536 - a % 65536) % 65536 ∧ (b % 65536 + 65536 - a % 65536) % 65536 ≤ 32767 := by
  simp only [epochOlder, Bool.and_eq_true, decide_eq_true_eq]

theorem State.queueEpoch_of_placed_none (s : State) (x : TileQ) (h : x.placed = none) : s.queueEpoch x = s.epochOf x.part := by
  simp [State.queueEpoch, h]

/-- Where every block holds the partition's epoch, the queue has it wherever its ring is. -/
theorem State.queueEpoch_of_noticed (s : State) (x : TileQ)
    (h : ∀ b, Tab.find s.part.blockEpoch (x.part * 64 + b) = none ∨ Tab.find s.part.blockEpoch (x.part * 64 + b) = some (s.epochOf x.part)) :
    s.queueEpoch x = s.epochOf x.part := by
  unfold State.queueEpoch
  split
  next b _ =>
    unfold State.epochAt Tab.getD
    rcases h b with hb | hb <;> rw [hb] <;> rfl
  · rfl

/-! ## The end of a generation -/

@[simp] theorem State.sess?_event (s : State) (code part ctx : Nat) (useCtx : Bool) (source station data slot : Nat) :
    (s.event code part ctx useCtx source station data).sess? slot = s.sess? slot := by
  obtain ⟨l, he⟩ := State.event_eq s code part ctx useCtx source station data
  rw [he]
  rfl

@[simp] theorem State.sess?_unmirrored (s : State) (p plan slot : Nat) : (s.unmirrored p plan).sess? slot = s.sess? slot := by
  unfold State.unmirrored
  split
  · split
    · rfl
    · exact State.sess?_event _ _ _ _ _ _ _ _ _
  · rfl

@[simp] theorem State.sess?_setSess (s : State) (slot n : Nat) (x : Sess) : (s.setSess slot x).sess? n = if n = slot then some x else s.sess? n :=
  Tab.find_put _ _ _ _

/-- Voiding a session's rows leaves the sessions and the partitions as they are. -/
theorem State.voidRows_eq (s : State) (slot : Nat) : ∃ l, s.voidRows slot = { s with svc := { s.svc with plans := l } } := by
  unfold State.voidRows
  split
  · exact ⟨s.svc.plans, rfl⟩
  · split
    · exact ⟨s.svc.plans, rfl⟩
    · exact ⟨_, rfl⟩

@[simp] theorem State.sess?_mirrorSend (s : State) (p kind handle : Nat) (fields : List Nat) (slot : Nat) :
    (s.mirrorSend p kind handle fields).sess? slot = s.sess? slot := by
  unfold State.mirrorSend
  split <;> rfl

/-- A record added without a companion counts as acknowledged. -/
theorem State.sess?_addRec_alone (s : State) (slot : Nat) (x : Sess) (r : TokRec) (h : s.companion x.part = none) :
    (s.addRec slot x r).sess? slot = some { x with recs := x.recs ++ [{ r with acked := true }] } := by
  simp [State.addRec, h]

end Sys2Proof.Machine

open Sys2Proof Sys2Proof.Machine

/-- Settles O56: by induction on the levels of the tree. -/
theorem auditPaths : Obligations.AuditPaths := rootFrom_auditPath

/-- Settles O39: both parts' chunk numbers are places on the ring, counted back from the member's own. -/
theorem ringSchedule : Obligations.RingSchedule := by
  intro op n r step h2 _ _ hstep
  obtain ⟨b, x, hx, hlt, hnext⟩ := collPart_cases h2 hstep
  have hmod : x % n = x := Nat.mod_eq_of_lt (by omega)
  have hsend : sendChunk op n r step < n := by
    unfold sendChunk
    simp only
    split <;> exact Nat.mod_lt _ (by omega)
  refine ⟨?_, hsend, fun hlast => ?_⟩
  · cases b
    · simp only [recvChunk, sendChunk, hx, hmod, Bool.false_eq_true, if_false]
      rw [show (r + n - 1) % n + 1 + n - x = (r + n - 1) % n + (1 + n - x) by omega, prev_add_mod, show r + n - 1 + (1 + n - x) = r + n - x + n by omega, Nat.add_mod_right]
    · simp only [recvChunk, sendChunk, hx, hmod, if_true]
      rw [show (r + n - 1) % n + n - x = (r + n - 1) % n + (n - x) by omega, prev_add_mod]
      congr 1
      omega
  · rcases hnext hlast with ⟨hin, hx'⟩ | ⟨hend, rfl, hx'⟩
    · have hmod' : (x + 1) % n = x + 1 := Nat.mod_eq_of_lt (by omega)
      cases b
      · simp only [recvChunk, sendChunk, hx, hx', hmod, hmod', Bool.false_eq_true, if_false]
        congr 1
        omega
      · simp only [recvChunk, sendChunk, hx, hx', hmod', if_true]
        rw [show r + 2 * n - x - 1 = r + n - (x + 1) + n by omega, Nat.add_mod_right]
    · simp only [recvChunk, sendChunk, hx, hx', Nat.zero_mod, Bool.false_eq_true, if_false, if_true]
      congr 1
      omega

/-- Settles O36: a pair is added only for an expert with room; each candidate gives one pair or one overflow. -/
theorem assignmentWithinCapacity : Obligations.AssignmentWithinCapacity :=
  ⟨assignRounds_load_le, assignOverflow_load_le, mem_assignRounds, assignRounds_length, Expert.effective_le⟩

/-- Settles O11: the window of R346 is the difference modulo 2^16, and the epoch where the ring is is the partition's once noticed. -/
theorem epochOrder : Obligations.EpochOrder := by
  refine ⟨fun a b => ?window, fun a => ?irreflexive, fun a b h => ?asymmetric, fun w s q x => ⟨rfl, rfl, rfl⟩, State.queueEpoch_of_placed_none, State.queueEpoch_of_noticed⟩
  case window =>
    rw [epochOlder_iff]
    omega
  case irreflexive =>
    rw [Bool.eq_false_iff, ne_eq, epochOlder_iff]
    omega
  case asymmetric =>
    rw [epochOlder_iff] at h
    rw [Bool.eq_false_iff, ne_eq, epochOlder_iff]
    omega

/-- Settles O3: the state of power-good, field by field. -/
theorem resetState : Obligations.ResetState := by
  refine ⟨rfl, rfl, rfl, rfl, rfl, rfl, rfl, rfl, rfl, rfl, rfl, rfl, rfl, rfl, rfl, rfl, rfl, rfl, rfl, rfl, fun b => ⟨rfl, rfl⟩, fun n => rfl, rfl, rfl⟩

/-- Settles O46: the rows are voided, the session is put back with its last record, and nothing after that touches it. -/
theorem generationEnds : Obligations.GenerationEnds := by
  intro slot reason x s hx hc
  obtain ⟨l, hv⟩ := State.voidRows_eq s slot
  have hx' : (s.voidRows slot).sess? slot = some x := hv ▸ hx
  have hc' : (s.voidRows slot).order.2.companion x.part = none := hv ▸ hc
  have hend := State.sess?_addRec_alone (s.voidRows slot).order.2 slot { x with state := .idle, taken := [], filled := min x.filled x.tokens.length, round := x.round + 1, fails := 0, endedAt := (s.voidRows slot).order.1, preempted := none }
    { token := 0xFFFFFFFF, index := x.index, fin := true, reason := reason, stop := 0, acked := true } hc'
  refine ⟨_, Eq.trans ?_ hend, rfl, rfl, rfl, rfl, rfl, rfl⟩
  rw [State.endGeneration, hx']
  exact State.sess?_mirrorSend _ _ _ _ _ _

end

section
/-! Host commands and management messages: a command that is ready and a message that is served run their bodies, and what the bodies of the
host objects' commands answer (R309-R322, R329). How a request reaches Innkeeper (R12, R276-R278). -/

namespace Sys2Proof.Machine

/-! ### The instructions of this file -/

theorem exec_contextDrained {p c} {s : State} : exec (.contextDrained p c) s = execContextDrained p c s := rfl

open Sys2Proof.Spec

/-! ## A ready command, and a message that is served -/

section
variable {s t : State} {a : Ans}

/-- A ready command whose body answers is answered. -/
theorem runCmd_ready {q op record cls : Nat} {e : CmdEnv} {body : CmdEnv → State → CmdRes} (hr : Ready s q op record cls e)
    (hb : body e s = (t, some a)) : runCmd s q op record cls body = (t.answerCmd q a).served cls e.part := by
  obtain ⟨hfront, hlive, hrun⟩ := hr
  rw [runCmd_runs body hfront hlive hrun, hb, finishCmd_some]

/-- A ready command whose answer comes later is awaited. -/
theorem runCmd_ready_later {q op record cls : Nat} {e : CmdEnv} {body : CmdEnv → State → CmdRes} (hr : Ready s q op record cls e)
    (hb : body e s = (t, none)) : runCmd s q op record cls body = (t.await q).served cls e.part := by
  obtain ⟨hfront, hlive, hrun⟩ := hr
  rw [runCmd_runs body hfront hlive hrun, hb, finishCmd_none]

/-- The state in which a ready command runs names its ring. -/
theorem ready_ring {q op record cls : Nat} {e : CmdEnv} (hr : Ready s q op record cls e) : e.ring = q := State.front_ring hr.1

section
variable {m : MsgRef} {cls p v : Nat} {c : Code} {body : State → MsgRes}

theorem runMsg_served_ok (h : Served s m cls p) (hb : body s = (t, some (.ok v))) :
    runMsg s m cls p body = ((wroteTable t).answerMsg m (.ok v)).served cls p :=
  runMsg_done h.1 h.2.1 h.2.2 hb

theorem runMsg_served_refused (h : Served s m cls p) (hb : body s = (t, some (.refused c v))) :
    runMsg s m cls p body = (t.answerMsg m (.refused c v)).served cls p :=
  runMsg_refused h.1 h.2.1 h.2.2 hb

theorem runMsg_served_later (h : Served s m cls p) (hb : body s = (t, none)) : runMsg s m cls p body = (wroteTable t).served cls p :=
  runMsg_later h.1 h.2.1 h.2.2 hb

end
end

/-! ## Innkeeper's admission and turns (R276-R278) -/

theorem Tab.any_false_of_key {s : State} {key : Nat} (h : ∀ y, y ∈ s.svc.waiting → y.key ≠ key) : s.svc.waiting.any (fun y => y.key == key) = false := by
  simpa using h

section
variable {s : State} {x : InnItem} {cls p key : Nat}

/-- A request told to wait and sent again too early is told the time that remains. -/
theorem State.admission_early (hc : cls ≠ 0) (ht : s.now < Tab.getD s.svc.retry key 0) :
    s.admission cls p key = some (.busy .retryAfter (Tab.getD s.svc.retry key 0 - s.now)) := by
  simp only [State.admission, if_neg hc, if_pos ht]

/-- After its time a request is turned away by a withdrawal, when it is of class 4, or by its class's limits. -/
theorem State.admission_in_time (hc : cls ≠ 0) (ht : Tab.getD s.svc.retry key 0 ≤ s.now) : s.admission cls p key =
    if cls = 4 ∧ s.fail.withdraw.isSome then some (.busy .retryAfter 10000)
    else if s.classFull cls p then some (.busy .retryAfter (s.retryUs cls)) else none := by
  simp only [State.admission, if_neg hc, if_neg (Nat.not_lt.mpr ht)]

/-- Being told the remaining time again is not noted. -/
theorem State.noteRetry_early {n : Nat} (ht : s.now < Tab.getD s.svc.retry key 0) : s.noteRetry key (.busy .retryAfter n) = s := by
  simp only [State.noteRetry, if_pos ht]

theorem State.intake_new (hc : x.cls ≠ 0) (hk : ∀ y, y ∈ s.svc.waiting → y.key ≠ x.key) : s.intake x key =
    match s.admission x.cls x.part key with
    | some a => .away a
    | none => if s.innTurn x.cls x.part (innCount s.innItems x.cls x.part) && !(x.session.isSome && s.svc.waiting.any (fun y => y.session == x.session)) then .run else .enter := by
  simp only [State.intake, if_neg hc, Tab.any_false_of_key hk, Bool.false_eq_true, if_false] <;> rfl

theorem State.intake_away {a : Ans} (hc : x.cls ≠ 0) (hk : ∀ y, y ∈ s.svc.waiting → y.key ≠ x.key) (ha : s.admission x.cls x.part key = some a) :
    s.intake x key = .away a := by
  rw [State.intake_new hc hk, ha]

/-- An admitted request runs when its turn has come and none of its session waits; otherwise it enters its queue. -/
theorem State.intake_admitted (hc : x.cls ≠ 0) (hk : ∀ y, y ∈ s.svc.waiting → y.key ≠ x.key) (ha : s.admission x.cls x.part key = none) : s.intake x key =
    if s.innTurn x.cls x.part (innCount s.innItems x.cls x.part) && !(x.session.isSome && s.svc.waiting.any (fun y => y.session == x.session)) then .run else .enter := by
  rw [State.intake_new hc hk, ha]

/-- A request that waits begins when no more items stand before it than there are cores. -/
theorem State.intake_waiting {i : Nat} (hc : x.cls ≠ 0) (hk : ∃ y, y ∈ s.svc.waiting ∧ y.key = x.key)
    (hi : (s.innReqs.filter (fun y => y.cls == x.cls && y.part == x.part)).findIdx? (fun y => y.key == x.key) = some i) :
    s.intake x key = if s.innTurn x.cls x.part (innCount s.innWork x.cls x.part + i) = true then .turn else .stay := by
  have hany : s.svc.waiting.any (fun y => y.key == x.key) = true := by simpa using hk
  simp only [State.intake, if_neg hc, hany, if_true, hi]

theorem State.innTurn_iff (k : Nat) : s.innTurn cls p k = true ↔ s.innAhead cls p k < s.innCores := decide_eq_true_iff

theorem State.innCores_le : s.innCores ≤ 8 := by
  unfold State.innCores
  omega

theorem State.innCores_all (hlost : s.sys.devFaults.contains 6 = false) (hact : s.fw.act = none) : s.innCores = 8 := by
  simp only [State.innCores, hlost, hact, Bool.false_eq_true, if_false]

/-- Every item of a lower class stands before an item. -/
theorem State.lower_le_innAhead (s : State) (cls p k : Nat) : (s.innItems.filter (fun e => decide (e.1 < cls))).length ≤ s.innAhead cls p k :=
  Nat.le_add_right _ _

/-- A member of a list is at most the list's sum. -/
theorem le_sumN {l : List Nat} {a : Nat} (h : a ∈ l) : a ≤ sumN l := by
  rw [sumN_eq_sum]
  induction l with
  | nil => cases h
  | cons b l ih =>
    rw [List.sum_cons]
    rcases List.mem_cons.mp h with rfl | h
    · exact Nat.le_add_right _ _
    · exact Nat.le_trans (ih h) (Nat.le_add_left _ _)

/-- And so do those of its own partition that came before. -/
theorem State.own_le_innAhead (s : State) (cls p k : Nat) (hp : p < 64) (hk : k ≤ innCount s.innItems cls p) :
    (s.innItems.filter (fun e => decide (e.1 < cls))).length + k ≤ s.innAhead cls p k := by
  have hmem : min (innCount s.innItems cls p) (if p ≠ p ∧ s.roundPlace cls p < s.roundPlace cls p then k + 1 else k) ∈
      (List.range 64).map (fun q => min (innCount s.innItems cls q) (if q ≠ p ∧ s.roundPlace cls q < s.roundPlace cls p then k + 1 else k)) :=
    List.mem_map.mpr ⟨p, List.mem_range.mpr hp, rfl⟩
  have hle := le_sumN hmem
  rw [if_neg (fun h => h.1 rfl), Nat.min_eq_right hk] at hle
  exact Nat.add_le_add_left hle _

end

/-! ## A message that the front frames take -/

section
variable {s : State} {m : MsgRef} {cls p : Nat} {body : State → MsgRes}

/-- Both frames answer a message sent again too early with the time that remains. -/
theorem takeMsg_early (f : State → State) (hc : cls ≠ 0) (hk : ∀ y, y ∈ s.svc.waiting → y.key ≠ (m.item cls p).key)
    (ht : s.now < Tab.getD s.svc.retry m.key 0) :
    s.takeMsg m cls p f = s.answerMsg m (.busy .retryAfter (Tab.getD s.svc.retry m.key 0 - s.now)) := by
  rw [takeMsg_turned f (State.intake_away hc hk (State.admission_early hc ht)), State.noteRetry_early ht]

end

end Sys2Proof.Machine

open Sys2Proof Sys2Proof.Machine Sys2Proof.Spec

/-- Settles O10: an early resend is turned away with the time remaining and noted no further; the other cases are the intake's branches. -/
theorem earlyResend : Obligations.EarlyResend := by
  refine ⟨fun s key n ht => ?noted, fun s cls p key hc ht => ⟨State.admission_early hc ht, State.noteRetry_early ht⟩,
    fun s m cls p body hc hk ht => ⟨takeMsg_early _ hc hk ht, takeMsg_early _ hc hk ht⟩, fun s q op w cls e body hfront hlive hc hk ht => ?command,
    fun s x key a hc hk ha => State.intake_away hc hk ha, fun s x key hc hk ha => ⟨fun hturn => ?laterTurn, fun hturn hses => ?itsTurn, fun hses => ?sessionWaits⟩,
    fun s x key i hc hk hi => State.intake_waiting hc hk hi, fun s cls p k => State.innTurn_iff k, fun s => ⟨State.innCores_le, State.innCores_all⟩,
    State.lower_le_innAhead, State.own_le_innAhead, fun s cls p key hc ht hw hfull => ?full, fun s cls p key hc ht hw hroom => ?admitted,
    fun s p key n ht hw => ?withdrawing, fun s q op w cls e body k hfront hlive hk => ?commandIntake, fun s q op w cls e body => runCmd_revoked body,
    fun s m cls p body x t hx ht => ?messageIntake⟩
  case noted => simp only [State.noteRetry, if_neg (Nat.not_lt.mpr ht)]
  case command =>
    rw [runCmd_turned body hfront hlive (State.intake_away hc hk (State.admission_early hc ht)), State.noteRetry_early ht]
  case laterTurn =>
    rw [State.intake_admitted hc hk ha, hturn]
    rfl
  case itsTurn =>
    have hfree : (x.session.isSome && s.svc.waiting.any (fun y => y.session == x.session)) = false := by
      rcases hses with hnone | hne
      · rw [hnone]; rfl
      · rw [Bool.and_eq_false_iff]; exact .inr (by simpa using hne)
    rw [State.intake_admitted hc hk ha, hturn, hfree]
    rfl
  case sessionWaits =>
    obtain ⟨n, hn, y, hy, hyn⟩ := hses
    have hwaits : s.svc.waiting.any (fun y => y.session == x.session) = true := List.any_eq_true.mpr ⟨y, hy, by simp [hn, hyn]⟩
    rw [State.intake_admitted hc hk ha, hn, ← hn, hwaits, hn]
    simp
  case full =>
    rw [State.admission_in_time hc ht, hw, hfull]
    simp [State.retryUs]
  case admitted =>
    rw [State.admission_in_time hc ht, hw, hroom]
    simp
  case withdrawing =>
    rw [State.admission_in_time (by decide) ht, hw]
    rfl
  case commandIntake =>
    subst hk
    exact ⟨runCmd_turn body hfront hlive, runCmd_enters body hfront hlive, runCmd_stays body hfront hlive, fun a => runCmd_turned body hfront hlive⟩
  case messageIntake =>
    subst hx ht
    exact ⟨fun h => ⟨takeMsg_turn _ h, takeMsg_turn _ h⟩, fun h => ⟨takeMsg_enters _ h, takeMsg_enters _ h⟩, fun h => ⟨takeMsg_stays _ h, takeMsg_stays _ h⟩,
      fun a h => ⟨takeMsg_turned _ h, takeMsg_turned _ h⟩⟩

/-- Settles O12: what the bodies answer where their checks hold. -/
theorem contextAndObjectCommands : Obligations.ContextAndObjectCommands := by
  refine ⟨fun q r e s hr hrsvd hnew halign hcarve hevq => ?create, fun q r e s hr hrsvd hother hlive => ?revoke, fun p c k y l s hk hdead hsynced hfen hstew hses hsync => ?revoked,
    fun p c k s hk hdead hrev hsync hcount => ?drained, fun q r e i s hr hrsvd hlive hrange hlen halign hpick => ?object, fun q r e o s hr hrsvd hobj huse => ?release⟩
  case create =>
    refine congrArg _ (runCmd_ready hr ?_)
    by_cases hb : bit r.toNat 7 7 = true
    · obtain ⟨x, hx, hpart, hty⟩ := hevq hb
      simp [contextCreateBody, hrsvd, hnew, halign, hcarve, hb, hx, hpart, hty, done]
    · simp [contextCreateBody, hrsvd, hnew, halign, hcarve, hb, done]
  case revoke =>
    refine congrArg _ (runCmd_ready_later hr ?_)
    simp only [contextRevokeBody, hrsvd, hlive, beq_eq_false_iff_ne.mpr hother]
    rfl
  case revoked =>
    refine ⟨_, rfl, fun hrev => ?_, fun q hrev => ?_⟩ <;> simp [hk, hdead, hsynced, hfen, hstew, hses, hsync, hrev]
  case drained =>
    simp [exec_contextDrained, execContextDrained, hk, hdead, hrev, hsync, hcount]
  case object =>
    have hbody : ∃ t g, memoryObjectCreateBody r.toNat e s = (t, some (.ok (g * 65536 + i))) ∧
        Tab.find t.host.objects (e.part * 65536 + i) = some { part := e.part, context := fld r.toNat 0 11 0, gen := g, index := i, va := fld r.toNat 8 47 0, length := fldB r.toNat 16 8, host := bit r.toNat 2 0 } ∧
        t = { s with host := t.host, free := t.free } ∧ t.host.rings = s.host.rings ∧ t.host.contexts = s.host.contexts := by
      simp only [memoryObjectCreateBody, hrsvd, hlive, hpick, halign, beq_eq_false_iff_ne.mpr hlen, Nat.not_lt.mpr hrange]
      exact ⟨_, _, rfl, by simp, rfl, rfl, rfl⟩
    obtain ⟨t, g, hb, hobj, hframe⟩ := hbody
    exact ⟨t, g, congrArg _ (runCmd_ready hr hb), hobj, hframe⟩
  case release =>
    refine congrArg _ (runCmd_ready hr ?_)
    simp only [memoryObjectReleaseBody, hrsvd, hobj, huse]
    rfl

end

section
/-! Queues, doorbells, submission buffers, answers and events (R305, R309, R312-R322). -/

open Sys2Proof Sys2Proof.Machine Sys2Proof.Spec

namespace Sys2Proof.Machine

/-! ### The instructions of this file -/

theorem exec_submissionEntry {q} {s : State} : exec (.submissionEntry q) s = execSubmissionEntry q s := rfl
theorem exec_commandBufferStart {q} {s : State} : exec (.commandBufferStart q) s = execCommandBufferStart q s := rfl
theorem exec_answerWrittenOnRoom {q} {s : State} : exec (.answerWrittenOnRoom q) s = execAnswerWrittenOnRoom q s := rfl
theorem exec_eventWrite {s : State} : exec .eventWrite s = execEventWrite s := rfl
theorem exec_eventsLost {q} {s : State} : exec (.eventsLost q) s = execEventsLost q s := rfl

/-- A doorbell that passes its checks moves its ring's own count. -/
theorem State.doorbell_good {s : State} {p kind w : Nat} {r : Ring} (hok : doorbellBad s p kind w = none) (hr : s.ring? (fld w 0 19 0) = some r) :
    s.doorbell p kind w = s.setRing (fld w 0 19 0) (if kind = 0 then { r with produced := extendCount r.produced w } else { r with consumed := extendCount r.consumed w }) := by
  simp only [State.doorbell, hok, hr]
  split <;> rfl

theorem State.doorbell_discarded {s : State} {p kind w why : Nat} (hbad : doorbellBad s p kind w = some why) :
    s.doorbell p kind w = s.event 0x000F p 0 false (fld w 0 19 0) 0xFFFF (plcB 0 8 w ||| plcB 8 1 why) := by
  simp only [State.doorbell, hbad]

/-- An event with room in a queue that lost none is written. -/
theorem State.writeEvent_room {s : State} {e : EventRec} {r : Ring} (hr : s.ring? e.queue = some r) (hlost : r.lost = 0) (hroom : r.room = true) :
    s.writeEvent e = s.writeRing e.queue r (eventEntry e s.sys.bootNonce) := by
  simp [State.writeEvent, hr, hlost, hroom]

/-- An event for a full queue is counted lost. -/
theorem State.writeEvent_full {s : State} {e : EventRec} {r : Ring} (hr : s.ring? e.queue = some r) (hroom : r.room = false) :
    s.writeEvent e = s.setRing e.queue { r with overflows := sat32 (r.overflows + e.count), lost := r.lost + e.count } := by
  simp [State.writeEvent, hr, hroom]

/-- A tile queue's type is no host ring's. -/
theorem hostRingType_ne {t : Nat} (h : hostRingType t = true) : (t == 5 || decide (6 < t)) = false ∧ (t == 3) = false := by
  simp only [hostRingType, Bool.or_eq_true, beq_iff_eq] at h
  rcases h with (((rfl | rfl) | rfl) | rfl) | rfl <;> exact ⟨rfl, rfl⟩

end Sys2Proof.Machine

/-- Settles O13: what the bodies answer where their checks hold. -/
theorem queueCommands : Obligations.QueueCommands := by
  refine ⟨fun q r e x n s hr hty hrsvd hbad hpart hcount hfit hpick => congrArg _ (runCmd_ready hr ?tile),
    fun q r e x n s hr hty hrsvd hbad hpart hcount hev hreck hfit hpick => congrArg _ (runCmd_ready hr ?ring),
    fun q r e s hr hrsvd howned hnamed hholds => congrArg _ (runCmd_ready hr ?destroy)⟩
  case tile =>
    have hsince : ({ s with free := s.free + 1 } : State).now = s.now := rfl
    by_cases h0 : fldB r.toNat 21 1 = 0
    · simp [queueCreateBody, hty, hrsvd, hbad, hpart, Nat.not_le.mpr hcount, hpick, h0, done, hsince]
    · simp [queueCreateBody, hty, hrsvd, hbad, hpart, Nat.not_le.mpr hcount, hpick, hfit h0, done, hsince]
  case ring =>
    obtain ⟨hknown, htile⟩ := hostRingType_ne hty
    have hparts : (fld r.toNat 0 3 0 == 2 && bit r.toNat 15 0 && s.host.rings.any (fun q => q.2.part == e.part && q.2.ty == 2 && q.2.partEvents)) = false := by
      by_cases h2 : fld r.toNat 0 3 0 = 2
      · by_cases hb : bit r.toNat 15 0 = true
        · rw [hev h2 hb, Bool.and_false]
        · simp [hb]
      · simp [h2]
    have hone : (fld r.toNat 0 3 0 == 6 && s.host.rings.any (fun q => q.2.part == e.part && q.2.ty == 6)) = false := by
      by_cases h6 : fld r.toNat 0 3 0 = 6
      · rw [hreck h6, Bool.and_false]
      · simp [h6]
    simp only [queueCreateBody, hknown, htile, hrsvd, hbad, hpart, Nat.not_le.mpr hcount, hparts, hone, hfit, hpick, Bool.false_and, Bool.not_true, Bool.and_false, Bool.false_eq_true, if_false]
    rfl
  case destroy =>
    have hown : (!s.ringOf e.part (fld r.toNat 0 19 0) && !s.tileQ e.part (fld r.toNat 0 19 0)) = false := by
      rw [← Bool.not_or, howned]
      rfl
    simp only [queueDestroyBody, hrsvd, hown, hnamed, hholds]
    rfl

/-- Settles O14: the branches of the doorbell, of the buffer's start and of the event's writing. -/
theorem doorbellsAndBuffers : Obligations.DoorbellsAndBuffers := by
  refine ⟨fun p kind c hc w s => ?doorbell, fun fn addr s hout => ?readOnly, fun q r o l cs s hr hty hcur hout hcount hobj hread hrsvd halign hmin hmax hcmds hwait hsignal => ?entry,
    fun q r b cs s hr hcur hphase hlive hfence hcmds hne => ?start, fun q r b cs s hr hcur hphase hlive hwait haband hcmds hne => ?startAbandoned,
    fun q r s hr => ?answer, fun e l l1 r s hnext hturn hl1 hr => ⟨fun hlost hroom => ?event, fun hroom => ?eventLost⟩, fun q r s hr hty hlost hroom hturn => ?lost⟩
  case doorbell =>
    have hexec : ∀ page, exec (c page p w) s = .next (if page = p then s.doorbell p kind w.toNat else s) := by
      simp only [List.mem_cons, List.not_mem_nil, or_false, Prod.mk.injEq] at hc
      rcases hc with ⟨rfl, rfl⟩ | ⟨rfl, rfl⟩ | ⟨rfl, rfl⟩ | ⟨rfl, rfl⟩ | ⟨rfl, rfl⟩ <;> exact fun _ => rfl
    refine ⟨fun r hok hr => ?_, fun why hbad => ?_, fun page hpage => ?_⟩
    · rw [hexec, if_pos rfl, State.doorbell_good hok hr]
    · rw [hexec, if_pos rfl, State.doorbell_discarded hbad]
    · rw [hexec, if_neg hpage]
  case readOnly => exact congrArg _ (if_neg (by omega))
  case entry =>
    have hw : ((subBufOf (ofBytes l)).waitEn && !s.fenceOf r.part (subBufOf (ofBytes l)).waitFence) = false := by
      cases hen : (subBufOf (ofBytes l)).waitEn
      · rfl
      · rw [hwait hen]; rfl
    have hsig : ((subBufOf (ofBytes l)).signalEn && !s.fenceOf r.part (subBufOf (ofBytes l)).signalFence) = false := by
      cases hen : (subBufOf (ofBytes l)).signalEn
      · rfl
      · rw [hsignal hen]; rfl
    simp only [exec_submissionEntry, execSubmissionEntry, hr, hty, hcur, hout, Nat.not_le.mpr hcount, hobj, hread, hrsvd, halign, Nat.not_lt.mpr hmin, Nat.not_lt.mpr hmax, hcmds, hw, hsig]
    simp
  case start =>
    cases hen : b.waitEn
    · simp [exec_commandBufferStart, execCommandBufferStart, hr, hcur, hphase, hen, hcmds, hlive, hne]
    · simp [exec_commandBufferStart, execCommandBufferStart, hr, hcur, hphase, hen, hcmds, hlive, hne, fenceReaches, hfence hen]
  case startAbandoned =>
    simp [exec_commandBufferStart, execCommandBufferStart, hr, hcur, hphase, hlive, hwait, haband, hcmds, hne, fenceReaches]
  case answer => simp only [exec_answerWrittenOnRoom, execAnswerWrittenOnRoom, hr]
  case event =>
    subst hl1
    simp only [exec_eventWrite, execEventWrite, hnext, hturn]
    exact congrArg (fun t => Host.Outcome.next (State.served t 5 e.part)) (State.writeEvent_room hr hlost hroom)
  case eventLost =>
    subst hl1
    simp only [exec_eventWrite, execEventWrite, hnext, hturn]
    exact congrArg (fun t => Host.Outcome.next (State.served t 5 e.part)) (State.writeEvent_full hr hroom)
  case lost => 
    simp only [exec_eventsLost, execEventsLost, hr]
    exact congrArg _ (if_pos ⟨hty, hlost, hroom, hturn⟩)

end

section
/-! What writing an answer changes: the rings, the events, the fence store's port, the flits under way, the memories and what has been sent;
so it leaves the fences, the partitions, the stations and the cells as they are. -/

namespace Sys2Proof.Machine

/-! ## What a write to memory changes -/

/-- The second state is the first after bytes have been written to the memories. -/
def WritesOnly (s t : State) : Prop := ∃ dram hostMem, t = { s with dram := dram, hostMem := hostMem }

namespace WritesOnly

variable {s t u : State}

theorem refl (s : State) : WritesOnly s s := ⟨_, _, rfl⟩

theorem trans (h1 : WritesOnly s t) (h2 : WritesOnly t u) : WritesOnly s u := by
  obtain ⟨_, _, rfl⟩ := h1
  obtain ⟨_, _, rfl⟩ := h2
  exact ⟨_, _, rfl⟩

theorem of_ite {c : Prop} [Decidable c] {a b : State} (ha : WritesOnly s a) (hb : WritesOnly s b) : WritesOnly s (if c then a else b) := by
  split <;> assumption

theorem setCtrl (ch : Nat) (c : Ctrl) : WritesOnly s (s.setCtrl ch c) := ⟨_, _, rfl⟩

theorem stage {line : Nat} {data : List (BitVec 8)} (h : s.stage line data = some t) : WritesOnly s t := by
  unfold State.stage at h
  dsimp only at h
  split at h <;> split at h
  · cases h
  · cases h
    exact ⟨_, _, rfl⟩
  · cases h
  · cases h
    exact ⟨_, _, rfl⟩

theorem patchSweep (line : Nat) (data : List (BitVec 8)) : WritesOnly s (s.patchSweep line data) := by
  unfold State.patchSweep
  split <;> exact ⟨_, _, rfl⟩

theorem putLine (line : Nat) (data : List (BitVec 8)) (clears : Bool) : WritesOnly s (s.putLine line data clears) := by
  unfold State.putLine
  dsimp only
  split <;> exact ⟨_, _, rfl⟩

theorem dramWriteLine (line lo : Nat) (data : List (BitVec 8)) : WritesOnly s (s.dramWriteLine line lo data) := by
  unfold State.dramWriteLine
  dsimp only
  refine of_ite (refl s) (of_ite (of_ite ⟨_, _, rfl⟩ ?_) ((putLine _ _ _).trans (patchSweep _ _)))
  split
  next t ht => exact stage ht
  next => exact ⟨_, _, rfl⟩

theorem writeVA (p c va : Nat) (l : List (BitVec 8)) : WritesOnly s (s.writeVA p c va l) := by
  unfold State.writeVA
  split
  · exact dramWriteLine _ _ _
  · exact ⟨_, _, rfl⟩
  · exact refl s

theorem writeLines (p c va fuel : Nat) (l : List (BitVec 8)) : WritesOnly s (s.writeLines p c va fuel l) := by
  induction fuel generalizing s va l with
  | zero => exact refl s
  | succ fuel ih => exact of_ite (refl s) ((writeVA _ _ _ _).trans (ih _ _))

theorem writeObj (o : MemObj) (off : Nat) (l : List (BitVec 8)) : WritesOnly s (s.writeObj o off l) := writeLines _ _ _ _ _

theorem copyObj (src dst : MemObj) (so d n : Nat) : WritesOnly s (s.copyObj src dst so d n) := by
  unfold State.copyObj
  split
  · exact writeObj _ _ _
  · exact refl s

end WritesOnly

/-! ## What a ring that Kloquen writes changes -/

/-- The second state is the first after entries have been written to rings. -/
def RingsOnly (s t : State) : Prop :=
  ∃ rings dram hostMem sent, t = { s with host := { s.host with rings := rings }, dram := dram, hostMem := hostMem, sent := sent }

namespace RingsOnly

variable {s t u : State}

theorem refl (s : State) : RingsOnly s s := ⟨_, _, _, _, rfl⟩

theorem trans (h1 : RingsOnly s t) (h2 : RingsOnly t u) : RingsOnly s u := by
  obtain ⟨_, _, _, _, rfl⟩ := h1
  obtain ⟨_, _, _, _, rfl⟩ := h2
  exact ⟨_, _, _, _, rfl⟩

theorem of_writes (h : WritesOnly s t) : RingsOnly s t := by
  obtain ⟨_, _, rfl⟩ := h
  exact ⟨_, _, _, _, rfl⟩

theorem writeRing (q : Nat) (r : Ring) (mk : Nat → Nat → Nat) : RingsOnly s (s.writeRing q r mk) := by
  unfold State.writeRing
  dsimp only
  have hput : ∀ (t : State) r', RingsOnly t ((t.setRing q r').emitOut (.ring q r.produced (mk r.produced (phaseOf r.log2 r.produced)))) := fun t r' => ⟨_, _, _, _, rfl⟩
  split
  · exact (of_writes (.writeObj _ _ _)).trans (hput _ _)
  · exact hput _ _

end RingsOnly

/-! ## What an answer changes -/

/-- The second state is the first after answers, records and flits have been written. -/
def AnswersOnly (s t : State) : Prop :=
  ∃ rings events port spine dram hostMem sent log, t = { s with host := { s.host with rings := rings, events := events }, fen := { s.fen with port := port }, spine := spine, dram := dram, hostMem := hostMem, sent := sent, log := log }

namespace AnswersOnly

variable {s t u : State}

theorem refl (s : State) : AnswersOnly s s := ⟨_, _, _, _, _, _, _, _, rfl⟩

theorem trans (h1 : AnswersOnly s t) (h2 : AnswersOnly t u) : AnswersOnly s u := by
  obtain ⟨_, _, _, _, _, _, _, _, rfl⟩ := h1
  obtain ⟨_, _, _, _, _, _, _, _, rfl⟩ := h2
  exact ⟨_, _, _, _, _, _, _, _, rfl⟩

theorem foldl {α : Type} {f : State → α → State} (hf : ∀ t a, AnswersOnly t (f t a)) (l : List α) (s : State) : AnswersOnly s (l.foldl f s) := by
  induction l generalizing s with
  | nil => exact refl s
  | cons a l ih => exact (hf s a).trans (ih _)

theorem of_ite {c : Prop} [Decidable c] {a b : State} (ha : AnswersOnly s a) (hb : AnswersOnly s b) : AnswersOnly s (if c then a else b) := by
  split <;> assumption

theorem fences_eq (h : AnswersOnly s t) : t.fen.fences = s.fen.fences := by
  obtain ⟨_, _, _, _, _, _, _, _, rfl⟩ := h
  rfl

theorem of_writes (h : WritesOnly s t) : AnswersOnly s t := by
  obtain ⟨_, _, rfl⟩ := h
  exact ⟨_, _, _, _, _, _, _, _, rfl⟩

theorem writeObj (o : MemObj) (off : Nat) (l : List (BitVec 8)) : AnswersOnly s (s.writeObj o off l) := of_writes (.writeObj _ _ _)

theorem copyObj (src dst : MemObj) (so d n : Nat) : AnswersOnly s (s.copyObj src dst so d n) := of_writes (.copyObj _ _ _ _ _)

/-! ## Rings, events and flits -/

theorem setRing (q : Nat) (r : Ring) : AnswersOnly s (s.setRing q r) := ⟨_, _, _, _, _, _, _, _, rfl⟩

theorem post (load : FlitLoad) (vc : VChan) (cls : Nat) (a b : Nat × Nat) : AnswersOnly s (s.post load vc cls a b) := ⟨_, _, _, _, _, _, _, _, rfl⟩

theorem sendFence (f : FenceFlit) : AnswersOnly s (s.sendFence f) := ⟨_, _, _, _, _, _, _, _, rfl⟩

theorem logFault (code part source detail : Nat) : AnswersOnly s (s.logFault code part source detail) := ⟨_, _, _, _, _, _, _, _, rfl⟩

theorem event (code part ctx : Nat) (useCtx : Bool) (source station data : Nat) : AnswersOnly s (s.event code part ctx useCtx source station data) := by
  obtain ⟨l, h⟩ := State.event_eq s code part ctx useCtx source station data
  exact ⟨_, _, _, _, _, _, _, _, h⟩

theorem of_rings (h : RingsOnly s t) : AnswersOnly s t := by
  obtain ⟨_, _, _, _, rfl⟩ := h
  exact ⟨_, _, _, _, _, _, _, _, rfl⟩

theorem writeRing (q : Nat) (r : Ring) (mk : Nat → Nat → Nat) : AnswersOnly s (s.writeRing q r mk) := of_rings (.writeRing _ _ _)

/-! ## Answers -/

theorem flushOut (q fuel : Nat) : AnswersOnly s (s.flushOut q fuel) := by
  induction fuel generalizing s with
  | zero => exact refl s
  | succ fuel ih =>
    unfold State.flushOut
    split
    · exact refl s
    · split
      · exact refl s
      · refine of_ite ((setRing _ _).trans ih) ?_
        split
        · exact (setRing _ _).trans ih
        · exact of_ite (((setRing _ _).trans (writeRing _ _ _)).trans ih) (refl s)

theorem endBuffer (q : Nat) (early : Bool) : AnswersOnly s (s.endBuffer q early) := by
  unfold State.endBuffer
  split
  · exact refl s
  · split
    · exact refl s
    · exact of_ite ((setRing _ _).trans (sendFence _)) (setRing _ _)

theorem tryEnd (q : Nat) : AnswersOnly s (s.tryEnd q) := by
  unfold State.tryEnd
  split
  · exact refl s
  · split
    · split
      · exact endBuffer _ _
      · exact refl s
    · exact refl s

theorem answerOne (q : Nat) (a : Ans) : AnswersOnly s (s.answerOne q a) := by
  unfold State.answerOne
  split
  · exact refl s
  · split
    · exact refl s
    · split
      · exact refl s
      · exact ((setRing _ _).trans (flushOut _ _)).trans (tryEnd _)

theorem skipBad (q fuel : Nat) : AnswersOnly s (s.skipBad q fuel) := by
  induction fuel generalizing s with
  | zero => exact refl s
  | succ fuel ih =>
    unfold State.skipBad
    split
    · exact refl s
    · split
      · exact refl s
      · split
        · exact refl s
        · refine of_ite ?_ (refl s)
          split
          · exact (answerOne _ _).trans ih
          · exact of_ite ((answerOne _ _).trans ih) (refl s)

theorem answerCmd (q : Nat) (a : Ans) : AnswersOnly s (s.answerCmd q a) := (answerOne _ _).trans (skipBad _ _)

theorem await (q : Nat) : AnswersOnly s (s.await q) := by
  rcases State.await_eq s q with h | ⟨r, h⟩
  · rw [h]; exact refl s
  · rw [h]; exact setRing _ _

theorem finishCmd {x : CmdRes} (h : AnswersOnly s x.1) (q : Nat) : AnswersOnly s (finishCmd q x) := by
  unfold Machine.finishCmd
  split
  · exact h.trans (answerCmd _ _)
  · exact h.trans (await _)

end AnswersOnly

end Sys2Proof.Machine
end

section
/-! Fences: the commands and what a group of one flit does at the fence store (R324-R328, R558). -/

open Sys2Proof Sys2Proof.Machine Sys2Proof.Spec

namespace Sys2Proof.Machine

/-! ### The instructions of this file -/

theorem exec_fenceSignalApply {n} {s : State} : exec (.fenceSignalApply n) s = execFenceSignalApply n s := rfl
theorem exec_fenceWaitTimeout {ring} {s : State} : exec (.fenceWaitTimeout ring) s = execFenceWaitTimeout ring s := rfl

/-! ## Words -/

theorem fenceValue_lt (w : BitVec 64) : fenceValue w < 2 ^ 63 := Nat.mod_lt _ (by decide)

theorem fenceValue_mkWord {v : Nat} (h : v < 2 ^ 63) (ab : Bool) : fenceValue (mkWord v ab) = v := by
  unfold fenceValue mkWord
  rw [BitVec.toNat_ofNat]
  split <;> omega

theorem fenceAband_mkWord (v : Nat) (ab : Bool) : fenceAband (mkWord v ab) = ab := by
  have hlow : (v % 2 ^ 63).testBit 63 = false := Nat.testBit_lt_two_pow (Nat.mod_lt _ (by decide))
  unfold fenceAband mkWord
  rw [BitVec.getLsbD_ofNat]
  cases ab
  · simpa using hlow
  · rw [if_pos rfl, Nat.add_comm, Nat.testBit_two_pow_add_eq, hlow]
    rfl

/-- The word of a checked signal: VALUE moves to v, or stays when v is refused, and ABANDONED joins. -/
def sigWord (w : BitVec 64) (v : Nat) (ab : Bool) : BitVec 64 :=
  mkWord (if v < fenceValue w ∨ 2 ^ 63 - 1 < v then fenceValue w else v) (fenceAband w || ab)

theorem applySig_fst {w : BitVec 64} {op : FenceOp} {x v : Nat} {ab : Bool} (h : op = .add x ab ∧ v = fenceValue w + x ∨ op = .set x ab ∧ v = x) :
    (applySig w op).1 = sigWord w v ab := by
  unfold sigWord
  have hcheck : ∀ e : SigRes, e = sigCheck (fenceValue w) v → (match e with
      | .ok v => (mkWord v (fenceAband w || ab), .ok v)
      | e => (mkWord (fenceValue w) (fenceAband w || ab), e) : BitVec 64 × SigRes).1 = mkWord (if v < fenceValue w ∨ 2 ^ 63 - 1 < v then fenceValue w else v) (fenceAband w || ab) := by
    rintro _ rfl
    unfold sigCheck
    by_cases hlow : v < fenceValue w
    · simp only [hlow, true_or, if_true]
    · by_cases hhigh : 2 ^ 63 - 1 < v
      · simp only [hlow, hhigh, or_true, if_true, if_false]
      · simp only [hlow, hhigh, or_self, if_false]
  rcases h with ⟨rfl, rfl⟩ | ⟨rfl, rfl⟩ <;> exact hcheck _ rfl

theorem fenceValue_sigWord (w : BitVec 64) (v : Nat) (ab : Bool) :
    fenceValue (sigWord w v ab) = if v < fenceValue w ∨ 2 ^ 63 - 1 < v then fenceValue w else v := by
  refine fenceValue_mkWord ?_ _
  split
  · exact fenceValue_lt w
  · omega

theorem fenceAband_sigWord (w : BitVec 64) (v : Nat) (ab : Bool) : fenceAband (sigWord w v ab) = (fenceAband w || ab) := fenceAband_mkWord _ _

/-! ## The fences after the replies -/

theorem State.fences_releaseWaiters (s : State) : s.releaseWaiters.fen.fences = s.fen.fences :=
  (AnswersOnly.foldl (fun _ _ => AnswersOnly.answerCmd _ _) _ _).fences_eq

theorem State.fences_beginWait (s : State) (p f q t : Nat) (dl : Option Nat) : (s.beginWait p f q t dl).fen.fences = s.fen.fences := by
  unfold State.beginWait
  dsimp only
  split
  · exact (AnswersOnly.answerCmd _ _).fences_eq
  · split
    · exact (AnswersOnly.answerCmd _ _).fences_eq
    · split
      · exact (AnswersOnly.answerCmd _ _).fences_eq
      · rfl

theorem fetchResult_answersOnly (s : State) (p r : Nat) (w : BitVec 64) : AnswersOnly s (s.fetchResult p r w).1 := by
  unfold State.fetchResult
  split
  · exact .refl s
  · split
    · split
      · exact .copyObj _ _ _ _ _
      · exact .refl s
    · exact .refl s

theorem fences_replyFlit (s : State) (d : FlitDone) : (replyFlit s d).fen.fences = s.fen.fences := by
  unfold replyFlit
  dsimp only
  split
  · exact (AnswersOnly.answerCmd _ _).fences_eq
  · exact (AnswersOnly.answerCmd _ _).fences_eq
  · exact (AnswersOnly.answerCmd _ _).fences_eq
  · exact (AnswersOnly.answerCmd _ _).fences_eq
  · exact State.fences_beginWait _ _ _ _ _ _
  · exact (AnswersOnly.finishCmd (fetchResult_answersOnly _ _ _ _) _).fences_eq
  · rfl
  · split
    · rfl
    · exact ((AnswersOnly.event _ _ _ _ _ _ _).trans (.logFault _ _ _ _)).fences_eq

/-! ## A group of one flit -/

section
variable {s : State} {f : FenceFlit} {y : Fence} {n : Nat}

/-- A group of one flit: the flit is applied to the store, then replied to, then the waiters it reaches are released. -/
theorem State.applyGroup_single (hport : s.fen.port = [f]) (hhere : f.flit = none) (hn : n ≠ 0) : s.applyGroup n =
    (((applyFlit ({ s with fen := { s.fen with port := [] } }, []) f).2.foldl replyFlit (applyFlit ({ s with fen := { s.fen with port := [] } }, []) f).1).releaseWaiters,
      (applyFlit ({ s with fen := { s.fen with port := [] } }, []) f).2) := by
  have htake : List.take (min n 4) [f] = [f] := List.take_of_length_le (by simp; omega)
  have hdrop : List.drop (min n 4) [f] = [] := List.drop_of_length_le (by simp; omega)
  simp [State.applyGroup, hport, hhere, htake, hdrop, sortBy, insertBy]

/-- A flit for a fence of its partition writes both arrays. -/
theorem applyFlit_owned (hy : Tab.find s.fen.fences f.fence = some y) (hp : y.part = f.part) (l : List FlitDone) : applyFlit (s, l) f =
    (s.setFence f.fence { y with wordA := (applySig y.wordA f.op).1, wordB := (applySig y.wordB f.op).1 },
      l ++ [⟨f, if s.fen.serveB then (applySig y.wordB f.op).2 else (applySig y.wordA f.op).2⟩]) := by
  simp [applyFlit, hy, hp]

theorem State.fenceWord_setFence (hword : y.wordB = y.wordA) : (s.setFence n y).fenceWord n = y.wordA := by
  simp [State.fenceWord, State.setFence, hword]

theorem replyFlit_wait {q target : Nat} {dl : Option Nat} {res : SigRes} (hreply : f.reply = .wait q target dl) (hres : res ≠ .gone) :
    replyFlit s ⟨f, res⟩ = s.beginWait f.part f.fence q target dl := by
  cases res <;> simp_all [replyFlit]

theorem replyFlit_fetch {q r : Nat} {res : SigRes} (hreply : f.reply = .fetch q r) (hres : res ≠ .gone) :
    replyFlit s ⟨f, res⟩ = finishCmd q (s.fetchResult f.part r (s.fenceWord f.fence)) := by
  cases res <;> simp_all [replyFlit]

/-- A read's reply for a wait decides the command's answer. -/
theorem execFenceSignalApply_wait {q target : Nat} {dl : Option Nat} (hport : s.fen.port = [f]) (hhere : f.flit = none) (hop : f.op = .read) (hreply : f.reply = .wait q target dl)
    (hy : Tab.find s.fen.fences f.fence = some y) (hp : y.part = f.part) (hn : n ≠ 0) :
    exec (.fenceSignalApply n) s = .next ((State.setFence { s with fen := { s.fen with port := [] } } f.fence y).beginWait f.part f.fence q target dl).releaseWaiters := by
  have happly := applyFlit_owned (s := { s with fen := { s.fen with port := [] } }) hy hp []
  rw [hop] at happly
  have hres : (if s.fen.serveB then (applySig y.wordB .read).2 else (applySig y.wordA .read).2) ≠ .gone := by
    cases s.fen.serveB <;> exact SigRes.noConfusion
  simp only [exec_fenceSignalApply, execFenceSignalApply, State.applyGroup_single hport hhere hn, happly, List.nil_append, List.foldl_cons, List.foldl_nil, replyFlit_wait hreply hres,
    State.fsigStatus, List.filterMap_cons, hreply, List.filterMap_nil]
  rfl

/-- What a group of one flit leaves in the fence store: the fence with both arrays' words, and every other fence. -/
theorem execFenceSignalApply_fences (hport : s.fen.port = [f]) (hhere : f.flit = none) (hy : Tab.find s.fen.fences f.fence = some y) (hp : y.part = f.part) (hn : n ≠ 0) :
    ∃ t, exec (.fenceSignalApply n) s = .next t ∧
      t.fen.fences = Tab.put s.fen.fences f.fence { y with wordA := (applySig y.wordA f.op).1, wordB := (applySig y.wordB f.op).1 } := by
  have happly := applyFlit_owned (s := { s with fen := { s.fen with port := [] } }) hy hp []
  refine ⟨_, rfl, ?_⟩
  refine (AnswersOnly.foldl (fun _ _ => AnswersOnly.post _ _ _ _ _) _ _).fences_eq.trans ?_
  simp only [State.applyGroup_single hport hhere hn, happly, List.nil_append, List.foldl_cons, List.foldl_nil, State.fences_releaseWaiters, fences_replyFlit]
  rfl

end

end Sys2Proof.Machine

/-- Settles O15: the bodies send the flits that the rules name, and the store's group of one flit applies, replies and releases. -/
theorem fenceCommands : Obligations.FenceCommands := by
  refine ⟨fun q r e x i s hr hrsvd hinit hpart hcount hpick => congrArg _ ((runCmd_ready hr ?create).trans (State.served_zero _ _)),
    fun q r e x s hr hrsvd hx hp hown hnamed hwaits => ⟨_, rfl, congrArg _ ((runCmd_ready hr ?release).trans (State.served_zero _ _))⟩,
    fun q r e s hr hrsvd => ?signal,
    fun q r e s hr hrsvd htarget hus hf => congrArg _ ((runCmd_ready_later hr ?wait).trans (State.served_zero _ _)),
    fun f q target dl n y s hport hhere hop hreply hy hp hword hn => ⟨_, rfl, fun hreach => ?reached, fun hreach hdl => ?now, fun d hreach hdl hroom => ?waits, fun d hreach hdl hfull => ?full⟩,
    fun q w s hw hdl => ?timeout,
    fun q r e x s hr hrsvd hval hx hp hown hnamed => ⟨_, rfl, congrArg _ ((runCmd_ready_later hr ?reset).trans (State.served_zero _ _))⟩,
    fun q r e src dst s hr hrsvd htarget halign hmax hf hsrc hdst hsfit hdfit hsealed => congrArg _ ((runCmd_ready_later hr ?fetch).trans (State.served_zero _ _)),
    fun s p r w src dst hsrc hdst hclear => ⟨fun hreach => ?copied, fun hbelow => ?notReady⟩, fun s p r w hab => ?abandoned,
    fun s f q r res hreply hres => ?fetchReply, fun f y x v ab s hport hhere hy hp hword hop => ?applied⟩
  case create => simp [-Nat.reducePow, fenceCreateBody, hrsvd, hpart, Nat.not_le.mpr hcount, Nat.not_le.mpr hinit, hpick, done]
  case release => simp [fenceReleaseBody, hrsvd, hx, hp, hown, hnamed, hwaits, done]
  case signal =>
    intro hop hval hf
    refine congrArg _ ((runCmd_ready_later hr ?_).trans (State.served_zero _ _))
    rcases hop with hop | hop <;> simp [-Nat.reducePow, fenceSignalBody, hrsvd, hop, Nat.not_le.mpr hval, hf, ready_ring hr]
  case wait => simp [-Nat.reducePow, fenceWaitBody, hrsvd, Nat.not_le.mpr htarget, Nat.not_lt.mpr hus, hf, ready_ring hr]
  case reached =>
    rw [execFenceSignalApply_wait hport hhere hop hreply hy hp hn]
    simp only [State.beginWait, State.fenceWord_setFence hword, hreach, if_true]
  case now =>
    rw [execFenceSignalApply_wait hport hhere hop hreply hy hp hn]
    simp only [State.beginWait, State.fenceWord_setFence hword, hreach, hdl, Bool.false_eq_true, if_false]
  case waits =>
    rw [execFenceSignalApply_wait hport hhere hop hreply hy hp hn]
    simp only [State.beginWait, State.fenceWord_setFence hword, hreach, hdl, Bool.false_eq_true, if_false]
    exact congrArg (fun t : State => Host.Outcome.next t.releaseWaiters) (if_neg (Nat.not_le.mpr hroom))
  case full =>
    rw [execFenceSignalApply_wait hport hhere hop hreply hy hp hn]
    simp only [State.beginWait, State.fenceWord_setFence hword, hreach, hdl, Bool.false_eq_true, if_false]
    exact congrArg (fun t : State => Host.Outcome.next t.releaseWaiters) (if_pos hfull)
  case timeout => simp [exec_fenceWaitTimeout, execFenceWaitTimeout, hw, Nat.not_lt.mpr hdl]
  case reset => simp [-Nat.reducePow, fenceResetBody, hrsvd, Nat.not_le.mpr hval, hx, hp, hown, hnamed]
  case fetch => simp [-Nat.reducePow, resultFetchBody, hrsvd, Nat.not_le.mpr htarget, halign, Nat.not_lt.mpr hmax, hf, hsrc, hdst, Nat.not_lt.mpr hsfit, Nat.not_lt.mpr hdfit, hsealed]
  case copied => simp [State.fetchResult, hclear, hreach, hsrc, hdst, done]
  case notReady => simp [State.fetchResult, hclear, Nat.not_le.mpr hbelow]
  case abandoned => simp [State.fetchResult, hab]
  case fetchReply => exact replyFlit_fetch hreply hres
  case applied =>
    obtain ⟨t, ht, hfen⟩ := execFenceSignalApply_fences hport hhere hy hp (n := 4) (by decide)
    rw [hword, applySig_fst hop] at hfen
    refine ⟨t, { y with wordA := sigWord y.wordA v ab, wordB := sigWord y.wordA v ab }, ht, by rw [hfen, Tab.find_put, if_pos rfl], rfl, fenceValue_sigWord _ _ _, fenceAband_sigWord _ _ _, fun g hg => ?_⟩
    rw [hfen, Tab.find_put, if_neg hg]

end

section
/-! Stations (R52-R55, R58, R561). -/

open Sys2Proof Sys2Proof.Machine Sys2Proof.Spec

namespace Sys2Proof.Machine

/-! ### The instructions of this file -/

theorem exec_stationUnbound {p id} {s : State} : exec (.stationUnbound p id) s = execStationUnbound p id s := rfl
theorem exec_stationPredicateArrive {p id} {s : State} : exec (.stationPredicateArrive p id) s = execStationPredicateArrive p id s := rfl
theorem exec_stationPredicated {p id} {s : State} : exec (.stationPredicated p id) s = execStationPredicated p id s := rfl

/-! ## What a bind changes -/

/-- The second state is the first with other queues, stations, dispatchers and engines, cells, fixed units and free values. -/
def BindsOnly (s t : State) : Prop := ∃ stn cell unit free, t = { s with stn := stn, cell := cell, unit := unit, free := free }

namespace BindsOnly

variable {s t u : State}

theorem refl (s : State) : BindsOnly s s := ⟨_, _, _, _, rfl⟩

theorem trans (h1 : BindsOnly s t) (h2 : BindsOnly t u) : BindsOnly s u := by
  obtain ⟨_, _, _, _, rfl⟩ := h1
  obtain ⟨_, _, _, _, rfl⟩ := h2
  exact ⟨_, _, _, _, rfl⟩

theorem foldl {α : Type} {f : State → α → State} (hf : ∀ t a, BindsOnly t (f t a)) (l : List α) (s : State) : BindsOnly s (l.foldl f s) := by
  induction l generalizing s with
  | nil => exact refl s
  | cons a l ih => exact (hf s a).trans (ih _)

theorem of_ite {c : Prop} [Decidable c] {a b : State} (ha : BindsOnly s a) (hb : BindsOnly s b) : BindsOnly s (if c then a else b) := by
  split <;> assumption

theorem takePlaces (p b : Nat) (places used : List (Nat × Nat)) : BindsOnly s (s.takePlaces p b places used) := by
  unfold State.takePlaces
  dsimp only
  refine (foldl (fun t pl => ?_) places s).trans ⟨_, _, _, _, rfl⟩
  split
  · exact ⟨_, _, _, _, rfl⟩
  · exact refl t

theorem loadCell (c : Nat) (im : List (BitVec 8) × List (BitVec 8)) : BindsOnly s (s.loadCell c im) := by
  unfold State.loadCell
  dsimp only
  split <;> exact ⟨_, _, _, _, rfl⟩

/-- The bind of a station's engines. -/
theorem bindNow (p id : Nat) (t : Station) (b : Nat) (es : List Nat) (im : List (BitVec 8) × List (BitVec 8)) (rings : List (Nat × Nat) × List (Nat × Nat)) :
    BindsOnly s (s.bindNow p id t b es im rings).1 := by
  unfold State.bindNow
  dsimp only
  have hplaces := takePlaces (s := s) p b rings.1 rings.2
  refine BindsOnly.trans ?_ ⟨_, _, _, _, rfl⟩
  refine of_ite (BindsOnly.trans ?_ ⟨_, _, _, _, rfl⟩) ?_
  all_goals
    refine (of_ite (hplaces.trans ⟨_, _, _, _, rfl⟩) hplaces).trans (foldl (fun v e => ?_) es _)
    have hset : ∀ x : Engine, BindsOnly v (v.setEngine e x) := fun _ => ⟨_, _, _, _, rfl⟩
    have hload : ∀ x : Engine, BindsOnly v (if programKind t.kind then (v.setEngine e x).loadCell (engNum e) im else v.setEngine e x) :=
      fun x => of_ite ((hset x).trans (loadCell _ _)) (hset x)
    exact of_ite ((hload _).trans ⟨_, _, _, _, rfl⟩) ((hload _).trans ⟨_, _, _, _, rfl⟩)

end BindsOnly

/-! ## Checks -/

theorem and_eq_false_of_imp {a b : Bool} (h : a = true → b = false) : (a && b) = false := by
  cases a
  · rfl
  · exact h rfl

/-- A disjunction of checks that all pass does not refuse. -/
theorem or_ne_true {a b : Bool} (ha : a = false) (hb : b = false) : ¬(a || b) = true := by
  rw [ha, hb]
  decide

theorem obj?_isNone_of_fitsObj {s : State} {p h off n : Nat} (hf : fitsObj s p h off n = true) : (s.obj? p h).isNone = false := by
  unfold fitsObj at hf
  split at hf
  next o ho => rw [ho]; rfl
  next => cases hf

theorem filterMap_physEngine (s : State) (p : Nat) (l : List Nat) : (l.map (s.physEngine p)).filterMap (fun x => x) = l.filterMap (s.physEngine p) := by
  rw [List.filterMap_map]
  rfl

/-- A station bound to the state is found with its anchor, its slot and its engines. -/
theorem station?_bindNow (s : State) (p id : Nat) (t : Station) (b : Nat) (es : List Nat) (im : List (BitVec 8) × List (BitVec 8)) (rings : List (Nat × Nat) × List (Nat × Nat)) :
    (s.bindNow p id t b es im rings).1.station? p id =
      some { t with anchor := some ((s.named p b).getD 0, match t.anchor with | some a => a.2 | none => ((s.disp b).freeSlot).getD 0), engines := t.engines ++ es, lastCommit := s.now } := by
  unfold State.bindNow
  dsimp only
  refine (Tab.find_put _ _ _ _).trans ((if_pos rfl).trans ?_)
  rfl

end Sys2Proof.Machine

/-- Settles O16: the bodies where every check of R560, R54 and R55 passes, and what the dispatcher does with a predicate's flit. -/
theorem stationCommands : Obligations.StationCommands := by
  refine ⟨fun q r e s hr hrsvd hparam hnew hprog hpar hnopar hcount hin hdistinct hout hrej => congrArg _ (runCmd_ready hr ?define),
    fun q r e t b rings im s hr hrsvd hn1 hn32 ht hbeyond hdistinct hes hanchor hnamed hlimit hk5 hslot hrings himage hcheck => ?bind,
    fun q r e t s hr hrsvd hn1 hn32 ht hbeyond hes es idle u hesdef hlast hidle hu => congrArg _ (runCmd_ready_later hr ?unbind),
    fun p id t q l s ht hq => ?unbound, fun q r e t s hr hrsvd ht => ⟨fun hna => congrArg _ ((runCmd_ready hr ?predicateHere).trans (State.served_zero _ _)),
      fun ha => congrArg _ ((runCmd_ready_later hr ?predicateThere).trans (State.served_zero _ _))⟩,
    fun p id f l t s hf ht => ?arrive, fun p id f l q s hf hring => ?predicated⟩
  case define =>
    have hrejq : ∀ f : Nat → Bool, (∀ i, (stationOf r.toNat e.context s.now).rejectQ = some i → f i = false) →
        (match (stationOf r.toNat e.context s.now).rejectQ with | some q => f q | none => false) = false := by
      intro f hf
      split
      next i hi => exact hf i hi
      next => rfl
    have hinq : (stationOf r.toNat e.context s.now).inQ.any s.inputTaken = false := List.any_eq_false.mpr fun i hi => ne_true_of_eq_false (hin i hi).2
    have houts : ((stationOf r.toNat e.context s.now).outQ.filterMap (fun x => x)).any s.planQueue = false := List.any_eq_false.mpr fun i hi => ne_true_of_eq_false (hout i hi).2
    unfold stationDefineBody
    dsimp only
    rw [if_neg (ne_true_of_eq_false hrsvd), hparam]
    refine (if_neg ?isNew).trans ((if_neg ?live).trans ((if_neg ?fits).trans ((if_neg ?within).trans ((if_neg ?queues).trans (if_neg ?free)))))
    case isNew => simp [hnew]
    case live =>
      exact or_ne_true (and_eq_false_of_imp fun hk => obj?_isNone_of_fitsObj (hprog hk).1) (and_eq_false_of_imp fun h0 => obj?_isNone_of_fitsObj (hpar (bne_iff_ne.mp h0)))
    case fits =>
      refine or_ne_true (Bool.or_eq_false_iff.mpr ⟨and_eq_false_of_imp fun hk => ?_, and_eq_false_of_imp fun h0 => ?_⟩) (and_eq_false_of_imp fun h0 => ?_)
      · exact congrArg not (hprog hk).1
      · exact congrArg not (hpar (bne_iff_ne.mp h0))
      · exact beq_eq_false_iff_ne.mpr fun h12 => bne_iff_ne.mp h0 (hnopar h12)
    case within =>
      refine or_ne_true (and_eq_false_of_imp fun hk => ?_) (decide_eq_false (Nat.not_le.mpr hcount))
      obtain ⟨-, hlen, hparlen⟩ := hprog hk
      exact Bool.or_eq_false_iff.mpr ⟨decide_eq_false (Nat.not_lt.mpr hlen), decide_eq_false (Nat.not_lt.mpr hparlen)⟩
    case queues =>
      refine or_ne_true (Bool.or_eq_false_iff.mpr ⟨List.any_eq_false.mpr fun i hi => ?_, List.any_eq_false.mpr fun i hi => ?_⟩) (hrejq _ fun i hi => congrArg not (hrej i hi).1)
      · rw [(hin i hi).1]; decide
      · rw [← Bool.not_or, (hout i hi).1]; decide
    case free =>
      refine or_ne_true (Bool.or_eq_false_iff.mpr ⟨Bool.or_eq_false_iff.mpr ⟨hinq, ?_⟩, houts⟩) (hrejq _ fun i hi => (hrej i hi).2)
      rw [hdistinct]
      exact bne_self_eq_false _
  case bind =>
    have hps := filterMap_physEngine s e.part (namedEngines r.toNat)
    have hphys : ∀ y, y ∈ (namedEngines r.toNat).filterMap (s.physEngine e.part) → s.engine? y = none ∧ (engClass y = 1 → Tab.has s.svc.stewards (engNum y) = false) ∧ engRegion y = regionOf b ∧
        (regionKind t.kind = true → (s.lowestBlock e.part (engRegion y)).isSome = true) ∧ (t.kind = 8 → s.sys.variantT = true ∧ s.portPresent (engNum y) = true) := by
      intro y hy
      obtain ⟨x, hx, hxy⟩ := List.mem_filterMap.mp hy
      obtain ⟨-, y', hy', hfacts⟩ := hes x hx
      cases hxy.symm.trans hy'
      exact hfacts
    have hcount : ((namedEngines r.toNat).filterMap (s.physEngine e.part)).length ≤ fldB r.toNat 2 1 :=
      Nat.le_trans (List.length_filterMap_le _ _) (by simp [namedEngines])
    have hbody : stationBindBody r.toNat e s = done (s.bindNow e.part (fldB r.toNat 0 2) t b ((namedEngines r.toNat).filterMap (s.physEngine e.part)) im rings).1
        (s.bindNow e.part (fldB r.toNat 0 2) t b ((namedEngines r.toNat).filterMap (s.physEngine e.part)) im rings).2 := by
      unfold stationBindBody
      dsimp only
      simp only [hps, ht, hanchor, hrings, himage, hcheck]
      refine (if_neg ?rsvd).trans ((if_neg ?count).trans ((if_neg ?beyond).trans ((if_neg ?distinct).trans ((if_neg ?kinds).trans ((if_neg ?stewards).trans
        ((if_neg ?busy).trans ((if_neg ?owned).trans ((if_neg ?anchorOwned).trans ((if_neg ?span).trans ((if_neg ?absent).trans ((if_neg ?limit).trans (if_neg ?slot))))))))))))
      case rsvd => rw [hrsvd]; decide
      case count => exact or_ne_true (beq_eq_false_iff_ne.mpr hn1) (decide_eq_false (Nat.not_lt.mpr hn32))
      case beyond => exact ne_true_of_eq_false hbeyond
      case distinct => rw [hdistinct]; simp
      case kinds =>
        refine ne_true_of_eq_false (List.any_eq_false.mpr fun x hx => ?_)
        rw [(hes x hx).1]
        decide
      case stewards =>
        refine ne_true_of_eq_false (List.any_eq_false.mpr fun y hy => ?_)
        rw [Bool.and_comm]
        exact ne_true_of_eq_false (and_eq_false_of_imp fun hc => (hphys y hy).2.1 (beq_iff_eq.mp hc))
      case busy =>
        refine ne_true_of_eq_false (List.any_eq_false.mpr fun y hy => ?_)
        rw [(hphys y hy).1]
        decide
      case owned =>
        refine ne_true_of_eq_false (List.any_eq_false.mpr fun z hz => ?_)
        obtain ⟨x, hx, rfl⟩ := List.mem_map.mp hz
        obtain ⟨-, y, hy, -⟩ := hes x hx
        simp [hy]
      case anchorOwned =>
        refine or_ne_true (by simpa using hnamed) (and_eq_false_of_imp fun hk => List.any_eq_false.mpr fun y hy => ?_)
        have hlow := (hphys y hy).2.2.2.1 hk
        rw [← Option.not_isSome, hlow]
        decide
      case span =>
        refine ne_true_of_eq_false (List.any_eq_false.mpr fun y hy => ?_)
        rw [(hphys y hy).2.2.1]
        simp
      case absent =>
        refine ne_true_of_eq_false (and_eq_false_of_imp fun hk => ?_)
        have h8 := beq_iff_eq.mp hk
        obtain ⟨x, hx⟩ : ∃ x, x ∈ namedEngines r.toNat := List.exists_mem_of_length_pos (by simp [namedEngines]; omega)
        obtain ⟨-, y, -, -, -, -, -, hport⟩ := hes x hx
        rw [(hport h8).1, Bool.not_true, Bool.false_or]
        refine List.any_eq_false.mpr fun y hy => ?_
        rw [((hphys y hy).2.2.2.2 h8).2]
        decide
      case limit =>
        intro hover
        simp only [Bool.or_eq_true, Bool.and_eq_true, decide_eq_true_eq, beq_iff_eq] at hover
        rcases hover with ((h120 | ⟨h4, hover⟩) | ⟨h5 | h8, hover⟩) | ⟨h5, hanch⟩
        · split at hlimit
          · omega
          · split at hlimit <;> omega
        · rw [if_pos h4] at hlimit
          omega
        · rw [if_neg (by omega), if_pos (.inl h5)] at hlimit
          omega
        · rw [if_neg (by omega), if_pos (.inr h8)] at hlimit
          omega
        · rw [hk5 h5] at hanch
          cases hanch
      case slot =>
        refine ne_true_of_eq_false (and_eq_false_of_imp fun ha => ?_)
        have hfree := hslot (Option.isNone_iff_eq_none.mp ha)
        simpa using hfree
    obtain ⟨stn, cell, unit, free, hframe⟩ := BindsOnly.bindNow (s := s) e.part (fldB r.toNat 0 2) t b ((namedEngines r.toNat).filterMap (s.physEngine e.part)) im rings
    refine ⟨_, _, _, congrArg _ (runCmd_ready hr hbody), ?_, station?_bindNow _ _ _ _ _ _ _ _, rfl, rfl, rfl, rfl, rfl, fun ha => ?_⟩
    · rw [hframe]
    · obtain ⟨a, ha⟩ := Option.isSome_iff_exists.mp ha
      simp [ha]
  case unbind =>
    have hbound : ((namedEngines r.toNat).map (s.physEngine e.part)).any (fun x => match x with | some y => !s.boundTo e.part (fldB r.toNat 0 2) y | none => true) = false := by
      refine List.any_eq_false.mpr fun z hz => ?_
      obtain ⟨x, hx, rfl⟩ := List.mem_map.mp hz
      obtain ⟨y, hy, hb⟩ := hes x hx
      simp [hy, hb]
    have hstays : ((t.engines.filter (fun y => !es.contains y && !t.leaving y)).isEmpty && s.inputsWaiting t) = false := by
      rcases hlast with hne | hno
      · rw [List.isEmpty_eq_false_iff.mpr hne, Bool.false_and]
      · rw [hno, Bool.and_false]
    subst hu hidle hesdef
    unfold stationUnbindBody
    dsimp only
    simp only [ht, filterMap_physEngine, ready_ring hr]
    refine (if_neg ?_).trans ((if_neg ?_).trans ((if_neg ?_).trans ((if_neg ?_).trans (if_neg ?_))))
    · rw [hrsvd]; decide
    · exact or_ne_true (beq_eq_false_iff_ne.mpr hn1) (decide_eq_false (Nat.not_lt.mpr hn32))
    · exact ne_true_of_eq_false hbeyond
    · exact ne_true_of_eq_false hbound
    · exact ne_true_of_eq_false hstays
  case unbound => simp [exec_stationUnbound, execStationUnbound, ht, hq]
  case predicateHere => simp [stationPredicateBody, hrsvd, ht, hna, done]
  case predicateThere => simp [stationPredicateBody, hrsvd, ht, ha, ready_ring hr]
  case arrive =>
    have hst : ({ s with stn := { s.stn with preds := if f.ring.isSome then l ++ [{ f with arrived := true }] else l } } : State).station? p id = some t := ht
    simp only [exec_stationPredicateArrive, execStationPredicateArrive, hf, hst]
  case predicated => simp [exec_stationPredicated, execStationPredicated, hf, hring]

end

section
/-! Stewards, the milestone line and the cancel set (R150-R152, R156, R280, R281). -/

open Sys2Proof Sys2Proof.Machine Sys2Proof.Spec

namespace Sys2Proof.Machine

/-! ### The instructions of this file -/

theorem exec_stewardDismissed {c} {s : State} : exec (.stewardDismissed c) s = execStewardDismissed c s := rfl
theorem exec_milestoneTick {s : State} : exec .milestoneTick s = execMilestoneTick s := rfl
theorem exec_cancelHoldExpire {p id} {s : State} : exec (.cancelHoldExpire p id) s = execCancelHoldExpire p id s := rfl

/-- The second state is the first with other queues. -/
def QueuesOnly (s t : State) : Prop := ∃ l, t = { s with stn := { s.stn with queues := l } }

theorem QueuesOnly.foldl {α : Type} {f : State → α → State} (hf : ∀ t a, QueuesOnly t (f t a)) (l : List α) (s : State) : QueuesOnly s (l.foldl f s) := by
  induction l generalizing s with
  | nil => exact ⟨_, rfl⟩
  | cons a l ih =>
    obtain ⟨l1, h1⟩ := hf s a
    obtain ⟨l2, h2⟩ := ih (f s a)
    rw [List.foldl_cons, h2, h1]
    exact ⟨_, rfl⟩

theorem QueuesOnly.unit_eq {s t : State} (h : QueuesOnly s t) : t.unit = s.unit := by
  obtain ⟨l, rfl⟩ := h
  rfl

/-- A steward that starts stands at instruction 0 with its role and a clear STATUS. -/
theorem State.scell_startSteward (s : State) (c role : Nat) :
    ((s.startSteward c role).scell c).pc = 0 ∧ ((s.startSteward c role).scell c).role = role ∧ ((s.startSteward c role).scell c).status = 0 := by
  simp [State.startSteward]

theorem State.unit_loadCell (s : State) (c : Nat) (im : List (BitVec 8) × List (BitVec 8)) : (s.loadCell c im).unit = s.unit := by
  unfold State.loadCell
  dsimp only
  split <;> rfl

theorem State.unit_takePlaces (s : State) (p b : Nat) (places used : List (Nat × Nat)) : (s.takePlaces p b places used).unit = s.unit := by
  unfold State.takePlaces
  refine QueuesOnly.unit_eq (t := places.foldl _ s) (QueuesOnly.foldl (fun v pl => ?_) places s)
  split <;> exact ⟨_, rfl⟩

theorem BindsOnly.freeConsumers (s : State) (c : Nat) : BindsOnly s (s.freeConsumers c) := ⟨_, _, _, _, rfl⟩

theorem BindsOnly.startSteward (s : State) (c role : Nat) : BindsOnly s (s.startSteward c role) := ⟨_, _, _, _, rfl⟩

end Sys2Proof.Machine

/-- Settles O19: the bodies where every check passes; an appointment places the rings, loads the cell, starts it, and records its queues' consumer. -/
theorem stewardCommands : Obligations.StewardCommands := by
  refine ⟨fun q r e c rings im pm s hr hrsvd hrole hcell heng hst hin hdistinct hrings hlen hplen hlen0 hlen4 hfit hpar0 hpar hprog hpm hpm0 hcheck => ?appoint,
    fun q r e c t s hr hrsvd hcell ht hp hplan hdis hrev => congrArg _ (runCmd_ready_later hr ?dismiss), fun c t q s ht hdis hquiet => ?dismissed,
    fun q r e s hr hrsvd => ⟨fun hoff => congrArg _ ((runCmd_ready hr ?milestoneOff).trans (State.served_zero _ _)), fun hon => congrArg _ ((runCmd_ready hr ?milestoneOn).trans (State.served_zero _ _))⟩,
    fun p off n x s hnow hone hpart hmap => ?tick,
    fun q r e s hr hrsvd hid => ⟨fun hrem => congrArg _ ((runCmd_ready hr ?remove).trans (State.served_zero _ _)), fun hadd hroom => congrArg _ ((runCmd_ready hr ?add).trans (State.served_zero _ _))⟩,
    fun p id t0 s ht hdue => ?expire⟩
  case appoint =>
    have hbody : ∃ t, stewardAppointBody r.toNat e s = (t, some (.ok 0)) ∧ t = { s with svc := t.svc, stn := t.stn, cell := t.cell, free := t.free } ∧
      Tab.find t.svc.stewards c = some { part := e.part, context := e.context, role := 1, programHandle := fldB r.toNat 4 4, programOff := fldB r.toNat 8 4, programLen := fldB r.toNat 36 4, paramHandle := fldB r.toNat 12 4, paramLen := fldB r.toNat 16 4, inQ := stewardInQ r.toNat, running := true, dismissing := none, revoked := false, plan := none } ∧
      (t.scell c).pc = 0 ∧ (t.scell c).role = 1 ∧ (t.scell c).status = 0 := by
      have hparams : (if True ∧ fldB r.toNat 16 4 ≠ 0 then (s.obj? e.part (fldB r.toNat 12 4)).bind (fun o => s.readObj o 0 (fldB r.toNat 16 4)) else some []) = some pm := by
        by_cases h0 : fldB r.toNat 16 4 = 0
        · rw [if_neg (fun h => h.2 h0), hpm0 h0]
        · rw [if_pos ⟨trivial, h0⟩, hpm h0]
      have hparFits : (if fldB r.toNat 12 4 = 0 then fldB r.toNat 16 4 != 0 else !fitsObj s e.part (fldB r.toNat 12 4) 0 (fldB r.toNat 16 4)) = false := by
        by_cases h0 : fldB r.toNat 12 4 = 0
        · rw [if_pos h0, (hpar0 h0).1]; rfl
        · rw [if_neg h0, hpar h0]; rfl
      have hparLive : (fldB r.toNat 12 4 != 0 && (s.obj? e.part (fldB r.toNat 12 4)).isNone) = false :=
        and_eq_false_of_imp fun h0 => obj?_isNone_of_fitsObj (hpar (bne_iff_ne.mp h0))
      have htaken : ((stewardInQ r.toNat).filterMap (fun x => x)).any (s.inputTakenBut c) = false := List.any_eq_false.mpr fun i hi => ne_true_of_eq_false (hin i hi).2
      have howned : ((stewardInQ r.toNat).filterMap (fun x => x)).any (fun q => !s.tileQ e.part q) = false := by
        refine List.any_eq_false.mpr fun i hi => ?_
        rw [(hin i hi).1]
        decide
      simp only [stewardAppointBody, hrsvd, hrole, hcell, heng, hst, howned, htaken, hdistinct, bne_self_eq_false, Nat.not_lt.mpr hlen, Nat.not_lt.mpr hplen,
        obj?_isNone_of_fitsObj hfit, hparLive, hfit, hparFits, beq_eq_false_iff_ne.mpr hlen0, hlen4, hprog, hparams]
      generalize hplaces : placeRings s s.free _ (s.disp (c / 20)).ringUse = places
      obtain rfl : places = some rings := hplaces.symm.trans hrings
      simp only [Nat.reduceEqDiff, Nat.reduceBEq, if_false, if_true, Bool.or_false, Bool.and_false, Bool.not_true, Bool.false_eq_true, Option.isSome_none, decide_false, hcheck]
      generalize hs3 : List.foldl _ (State.startSteward _ c 1) _ = s3
      have hframe := ((((BindsOnly.freeConsumers s c).trans (.takePlaces e.part (c / 20) rings.1 rings.2)).trans (.loadCell c (im, pm))).trans (.startSteward _ c 1))
      have hstart := State.scell_startSteward (((s.freeConsumers c).takePlaces e.part (c / 20) rings.1 rings.2).loadCell c (im, pm)) c 1
      have hunit : ((((s.freeConsumers c).takePlaces e.part (c / 20) rings.1 rings.2).loadCell c (im, pm)).startSteward c 1).unit = s.unit :=
        (State.unit_loadCell _ c (im, pm)).trans (State.unit_takePlaces _ e.part (c / 20) rings.1 rings.2)
      generalize State.startSteward _ c 1 = u at hs3 hframe hstart hunit
      obtain ⟨l, rfl⟩ : QueuesOnly u s3 := by
        rw [← hs3]
        refine QueuesOnly.foldl (fun v i => ?_) _ _
        split
        · split <;> exact ⟨_, rfl⟩
        · exact ⟨_, rfl⟩
      obtain ⟨stn, cell, unit, free, rfl⟩ := hframe
      cases hunit
      exact ⟨_, rfl, rfl, by rw [Tab.find_put, if_pos rfl], hstart⟩
    obtain ⟨t, hb, hfacts⟩ := hbody
    exact ⟨t, congrArg _ (runCmd_ready hr hb), hfacts⟩
  case dismiss => simp [stewardDismissBody, hrsvd, hcell, ht, hp, hplan, hdis, hrev, ready_ring hr]
  case dismissed => simp [exec_stewardDismissed, execStewardDismissed, ht, hdis, hquiet]
  case milestoneOff => simp [milestoneSetBody, hrsvd, hoff, done]
  case milestoneOn =>
    have hne : ¬fldB r.toNat 0 4 = 0xFFFFFFFF := by
      intro h
      rw [h] at hon
      exact absurd hon (by decide)
    simp [milestoneSetBody, hrsvd, hne, Nat.not_le.mpr hon, done, State.setMilestone]
  case tick =>
    have hmap' : x.blockMap.isEmpty = false := List.isEmpty_eq_false_iff.mpr hmap
    simp only [exec_milestoneTick, execMilestoneTick, hnow, if_true, hone, List.foldl_cons, List.foldl_nil, State.milestoneSend, hpart, hmap', Bool.false_eq_true, if_false]
    refine ⟨_, rfl, rfl, ?_, rfl, _, rfl, rfl, rfl, rfl, rfl⟩
    simp [State.setMilestone, hone, Tab.put]
  case remove => simp [-Nat.reducePow, requestCancelBody, hrsvd, Nat.not_le.mpr hid, hrem, done]
  case add =>
    have hfull : (decide (256 ≤ (s.cancelSet e.part).length) && !Tab.has (s.cancelSet e.part) (fldB r.toNat 0 4)) = false := by
      rcases hroom with hlt | hin
      · rw [decide_eq_false (Nat.not_le.mpr hlt), Bool.false_and]
      · rw [hin, Bool.not_true, Bool.and_false]
    simp only [requestCancelBody, hrsvd, Nat.not_le.mpr hid, hadd, hfull]
    simp [done]
  case expire => simp [exec_cancelHoldExpire, execCancelHoldExpire, ht, hdue]

end

section
/-! PROOF. Lane arithmetic, logic and moves of vector cells (04_vector_cells R115, R121, R126). -/

namespace Sys2Proof.Machine

/-! ### The instructions of this file -/

theorem exec_vVsel {c} {s : State} : exec (.vVsel c) s = execVVsel c s := rfl
theorem exec_vVmova {c} {s : State} : exec (.vVmova c) s = execVVmova c s := rfl

theorem VCell.flag_none (x : VCell) : x.flag {} = x := by
  simp [VCell.flag, FpFlags.status]

/-- A lane write that joins flags and moves on changes the vector registers, STATUS, the program counter and the board alone. -/
theorem VCell.go_writeLanes_eq (x : VCell) (r : Nat) (l : List (Nat × Nat)) (fl : FpFlags) (t lat : Nat) (rds : List Nat) (b : Board) :
    { (((x.writeLanes r l).flag fl).go t lat rds) with board := b } =
      { x with pc := x.pc + 1, drain := false, v := (x.writeLanes r l).v, status := x.status ||| fl.status, board := b } := by
  rw [VCell.writeLanes_eq]
  rfl

theorem VCell.lane_of_v {x y : VCell} (h : y.v = x.v) (r i : Nat) : y.lane r i = x.lane r i := by
  rw [VCell.lane, VCell.lane, h]

/-- A lane write of the active lanes is seen at the active lanes of its register only. -/
theorem VCell.lane_writeActive (x : VCell) (r pg : Nat) (g : Nat → Nat) (q i : Nat) (hi : i < 64) :
    (x.writeLanes r ((x.active pg).map (fun i => (i, g i)))).lane q i = if q = r ∧ tbit (x.pred pg) i = true then g i % 2 ^ 32 else x.lane q i := by
  rw [VCell.lane_writeLanes x r _ g (fun j hj => ((VCell.mem_active x pg j).mp hj).1) q i hi]
  simp only [VCell.mem_active, hi, true_and]

/-- The state after a lane-by-lane instruction that may issue. -/
theorem State.vLanes_ready {s : State} {c op n lat : Nat} {v : VEnv} (f : VEnv → Nat → Nat × FpFlags)
    (hv : s.vReady c op none (vvRegs n) = some v) :
    s.vLanes c op n lat f = s.setV c (((v.x.writeLanes (vVd v.w) ((v.x.active (vPg v.w)).map (fun i => (i, (f v i).1)))).flag
      (joinAll ((v.x.active (vPg v.w)).map (fun i => (f v i).2)))).go (v.issue (vvRegs n v.w)) lat [vVd v.w]) := by
  simp only [State.vLanes, hv, List.map_map]
  rfl

end Sys2Proof.Machine

namespace Sys2Proof.Spec

open Sys2Proof.Machine

/-- An instruction that writes words `f` to its active lanes, joins flags and moves on has the effect of any `g` that agrees with `f` on them. -/
theorem LaneEffect.of_write {con : Nat → Instr} {op : Nat} {regs : Nat → List Nat} {g : VEnv → Nat → Nat} {fl : VEnv → Nat}
    (h : ∀ c s v, s.vReady c op none regs = some v → ∃ (f : Nat → Nat) (F : FpFlags) (t lat : Nat) (rds : List Nat) (b : Board),
      exec (con c) s = .next (s.setV c { (((v.x.writeLanes (vVd v.w) ((v.x.active (vPg v.w)).map (fun i => (i, f i)))).flag F).go t lat rds) with board := b }) ∧
      F.status = fl v ∧ ∀ i, i ∈ v.x.active (vPg v.w) → f i % 2 ^ 32 = g v i % 2 ^ 32) :
    LaneEffect con op regs g fl := by
  intro c s v hv
  obtain ⟨f, F, t, lat, rds, b, he, hF, hf⟩ := h c s v hv
  rw [VCell.go_writeLanes_eq, hF] at he
  refine ⟨_, he, rfl, fun r i hi => ?_⟩
  refine (VCell.lane_of_v rfl r i).trans ((VCell.lane_writeActive v.x _ (vPg v.w) f r i hi).trans ?_)
  by_cases hr : r = vVd v.w ∧ tbit (v.x.pred (vPg v.w)) i = true
  · rw [if_pos hr, if_pos hr, hf i ((VCell.mem_active _ _ _).mpr ⟨hi, hr.2⟩)]
  · rw [if_neg hr, if_neg hr]

/-- The same without flags. -/
theorem LaneEffect.of_move {con : Nat → Instr} {op : Nat} {regs : Nat → List Nat} {g : VEnv → Nat → Nat}
    (h : ∀ c s v, s.vReady c op none regs = some v → ∃ (f : Nat → Nat) (t lat : Nat) (rds : List Nat),
      exec (con c) s = .next (s.setV c ((v.x.writeLanes (vVd v.w) ((v.x.active (vPg v.w)).map (fun i => (i, f i)))).go t lat rds)) ∧
      ∀ i, i ∈ v.x.active (vPg v.w) → f i % 2 ^ 32 = g v i % 2 ^ 32) :
    LaneEffect con op regs g (fun _ => 0) := by
  refine LaneEffect.of_write fun c s v hv => ?_
  obtain ⟨f, t, lat, rds, he, hf⟩ := h c s v hv
  refine ⟨f, {}, t, lat, rds, ((v.x.writeLanes (vVd v.w) ((v.x.active (vPg v.w)).map (fun i => (i, f i)))).go t lat rds).board, ?_, rfl, hf⟩
  rw [VCell.flag_none]
  exact he

/-- A lane-by-lane instruction of the model follows the rule of any `g` with the same flags and, modulo 2^32, the same words. -/
theorem LaneRule.of_vLanes {con : Nat → Instr} {op n : Nat} {f g : VEnv → Nat → Nat × FpFlags} (lat : State → Nat → Nat)
    (hx : ∀ c s, exec (con c) s = .next (s.vLanes c op n (lat s c) f)) (hw : ∀ v i, (f v i).1 % 2 ^ 32 = (g v i).1 % 2 ^ 32)
    (hfl : ∀ v i, (f v i).2 = (g v i).2) : LaneRule con op n g :=
  LaneEffect.of_write fun c s v hv =>
    ⟨_, _, v.issue (vvRegs n v.w), lat s c, [vVd v.w], _, (hx c s).trans (congrArg _ (State.vLanes_ready f hv)), by simp only [laneFlags, hfl], fun i _ => hw v i⟩

theorem LaneRule.of_eq {con : Nat → Instr} {op n : Nat} {f g : VEnv → Nat → Nat × FpFlags} (lat : State → Nat → Nat)
    (hx : ∀ c s, exec (con c) s = .next (s.vLanes c op n (lat s c) f)) (hw : ∀ v i, f v i = g v i) : LaneRule con op n g :=
  LaneRule.of_vLanes lat hx (fun v i => by rw [hw]) (fun v i => by rw [hw])

/-- A result without flags keeps its word modulo 2^32. -/
theorem LaneRule.of_plain {con : Nat → Instr} {op n : Nat} {f g : VEnv → Nat → Nat} (lat : State → Nat → Nat)
    (hx : ∀ c s, exec (con c) s = .next (s.vLanes c op n (lat s c) (fun v i => plain (f v i)))) (hw : ∀ v i, f v i = g v i) :
    LaneRule con op n (fun v i => (g v i, {})) :=
  LaneRule.of_vLanes lat hx (fun v i => by rw [plain, hw, Nat.mod_mod]) (fun _ _ => rfl)

end Sys2Proof.Spec

namespace Sys2Proof.Machine

open Sys2Proof.Spec

/-- An operation by type, its three cases apart. -/
theorem byType_eq (fn : Nat) (f : Fmt → Nat → Nat → Nat × FpFlags) (g : Nat → Nat → Nat) (a b : Nat) :
    byType fn f g a b = if fn = 0 then f fp32 a b else if fn = 1 then lowHigh (f bf16) a b else (g a b % 2 ^ 32, {}) := by
  match fn with
  | 0 => rfl
  | 1 => rfl
  | _ + 2 => rfl

theorem fmaBy_eq (fn : Nat) (neg : Bool) (a b c : Nat) :
    fmaBy fn neg a b c = if fn = 0 then fp32.fma (if neg then a ^^^ 2 ^ 31 else a) b c else
      (fun (l h : Nat × FpFlags) => (l.1 + h.1 * 65536, l.2.join h.2)) (bf16.fma (if neg then (a % 65536) ^^^ 2 ^ 15 else a % 65536) (b % 65536) (c % 65536))
        (bf16.fma (if neg then (a / 65536 % 65536) ^^^ 2 ^ 15 else a / 65536 % 65536) (b / 65536 % 65536) (c / 65536 % 65536)) := by
  cases neg <;> rfl

/-- The one-source operations of R121 leave STATUS as it is on integers. -/
theorem unary_int (g : Num → Num) (gi : Int → Int) (seed fn i a : Nat) (h : 2 ≤ fn) :
    unary g gi seed fn i a = plain (if a = 2 ^ 31 then Config.freeNat (seed * 64 + i) else wrapI 32 (gi (sgn 32 a))) := by
  match fn, h with
  | _ + 2, _ => rfl

theorem joinAll_none (l : List Nat) : joinAll (l.map (fun _ => ({} : FpFlags))) = {} := by
  unfold joinAll
  induction l with
  | nil => rfl
  | cons a l ih => exact ih

/-- A signless reading below the modulus is its own remainder. -/
theorem wrapI_lt (w : Nat) (i : Int) : wrapI w i < 2 ^ w := by
  have hpos : (0 : Int) < ((2 ^ w : Nat) : Int) := by exact_mod_cast Nat.two_pow_pos w
  have h1 := Int.emod_nonneg i (Int.ne_of_gt hpos)
  have h2 := Int.emod_lt_of_pos i hpos
  unfold wrapI
  omega

/-- What VABS and VNEG do to a cell, given how they read and change a number. -/
theorem unary_effect (con : Nat → Instr) (op : Nat) (g : Num → Num) (gi : Int → Int) (hcon : ∀ c (s : State), exec (con c) s =
      .next ({ s with free := s.free + 1 }.vLanes c op 1 2 (fun v i => unary g gi s.free v.fn i (v.a i))))
    (c : Nat) (s : State) (v : VEnv) (hv : s.vReady c op none (vvRegs 1) = some v) :
    ∃ y, exec (con c) s = .next ({ s with free := s.free + 1 }.setV c y) ∧
      y = { v.x with pc := v.x.pc + 1, drain := false, v := y.v, status := y.status, board := y.board } ∧
      (∀ r i, i < 64 → ¬(r = vVd v.w ∧ tbit (v.x.pred (vPg v.w)) i = true) → y.lane r i = v.x.lane r i) ∧
      (∀ i, i < 64 → tbit (v.x.pred (vPg v.w)) i = true →
        (v.fn = 0 → y.lane (vVd v.w) i = (fp32.round (g (fp32.decode (v.a i)))).1 % 2 ^ 32) ∧
        (v.fn = 1 → y.lane (vVd v.w) i = (lowHigh (fun a _ => bf16.round (g (bf16.decode a))) (v.a i) 0).1 % 2 ^ 32) ∧
        (2 ≤ v.fn → v.a i ≠ 2 ^ 31 → y.lane (vVd v.w) i = wrapI 32 (gi (sgn 32 (v.a i)))) ∧
        (2 ≤ v.fn → y.status = v.x.status)) := by
  have hv' : { s with free := s.free + 1 }.vReady c op none (vvRegs 1) = some v := hv
  have he := (hcon c s).trans (congrArg _ (State.vLanes_ready _ hv'))
  have hy := VCell.go_writeLanes_eq v.x (vVd v.w) ((v.x.active (vPg v.w)).map (fun i => (i, (unary g gi s.free v.fn i (v.a i)).1)))
    (joinAll ((v.x.active (vPg v.w)).map (fun i => (unary g gi s.free v.fn i (v.a i)).2))) (v.issue (vvRegs 1 v.w)) 2 [vVd v.w]
  have hlane := fun r i hi => VCell.lane_writeActive v.x (vVd v.w) (vPg v.w) (fun i => (unary g gi s.free v.fn i (v.a i)).1) r i hi
  refine ⟨_, he.trans (congrArg (fun y => Host.Outcome.next (State.setV { s with free := s.free + 1 } c y)) (hy _)), rfl, fun r i hi hn => ?_, fun i hi hp => ⟨fun hf => ?_, fun hf => ?_, fun hf hne => ?_, fun hf => ?_⟩⟩
  · exact (VCell.lane_of_v rfl r i).trans ((hlane r i hi).trans (if_neg hn))
  · refine (VCell.lane_of_v rfl _ i).trans ((hlane _ i hi).trans ((if_pos ⟨rfl, hp⟩).trans ?_))
    rw [hf]
    rfl
  · refine (VCell.lane_of_v rfl _ i).trans ((hlane _ i hi).trans ((if_pos ⟨rfl, hp⟩).trans ?_))
    rw [hf]
    rfl
  · refine (VCell.lane_of_v rfl _ i).trans ((hlane _ i hi).trans ((if_pos ⟨rfl, hp⟩).trans ?_))
    rw [unary_int _ _ _ _ _ _ hf, if_neg hne, plain, Nat.mod_mod]
    exact Nat.mod_eq_of_lt (wrapI_lt 32 _)
  · simp only [unary_int _ _ _ _ _ _ hf, plain, joinAll_none, FpFlags.status, Bool.false_eq_true, if_false, Nat.or_zero]

end Sys2Proof.Machine

open Sys2Proof Sys2Proof.Machine Sys2Proof.Spec

/-- Settles O20: the lane rules follow from the model's equation of a lane-by-lane instruction; VABS and VNEG by their three types. -/
theorem vectorArithmetic : Obligations.VectorArithmetic := by
  refine ⟨LaneRule.of_eq _ (fun _ _ => rfl) (fun _ _ => byType_eq _ _ _ _ _), LaneRule.of_eq _ (fun _ _ => rfl) (fun _ _ => byType_eq _ _ _ _ _),
    LaneRule.of_eq (fun _ _ => 4) (fun _ _ => rfl) (fun _ _ => byType_eq _ _ _ _ _), LaneRule.of_eq (fun _ _ => 4) (fun _ _ => rfl) (fun _ _ => fmaBy_eq _ _ _ _ _),
    LaneRule.of_eq (fun _ _ => 4) (fun _ _ => rfl) (fun _ _ => fmaBy_eq _ _ _ _ _), LaneRule.of_eq (fun _ _ => 2) (fun _ _ => rfl) (fun _ _ => rfl),
    LaneRule.of_eq (fun _ _ => 2) (fun _ _ => rfl) (fun _ _ => rfl), fun con op g gi hmem c s v hv => ?_⟩
  simp only [List.mem_cons, Prod.mk.injEq, List.not_mem_nil, or_false] at hmem
  obtain ⟨rfl, rfl, rfl, rfl⟩ | ⟨rfl, rfl, rfl, rfl⟩ := hmem
  · exact unary_effect .vVabs 0x08 _ _ (fun _ _ => rfl) c s v hv
  · exact unary_effect .vVneg 0x09 _ _ (fun _ _ => rfl) c s v hv

/-- Settles O21: lane by lane, or as moves of words to the active lanes. -/
theorem vectorLogicAndMoves : Obligations.VectorLogicAndMoves := by
  refine ⟨LaneRule.of_plain (fun _ _ => 2) (fun _ _ => rfl) (fun _ _ => rfl), LaneRule.of_plain (fun _ _ => 2) (fun _ _ => rfl) (fun _ _ => rfl),
    LaneRule.of_plain (fun _ _ => 2) (fun _ _ => rfl) (fun _ _ => rfl), LaneRule.of_plain (fun _ _ => 2) (fun _ _ => rfl) (fun _ _ => (Nat.shiftLeft_eq _ _).symm),
    LaneRule.of_plain (fun _ _ => 2) (fun _ _ => rfl) (fun _ _ => by rw [Nat.shiftRight_eq_div_pow]), LaneEffect.of_move fun c s v hv => ?vsel,
    LaneRule.of_eq (fun _ _ => 3) (fun _ _ => rfl) (fun v i => ?vcvt), LaneRule.of_plain (fun _ _ => 3) (fun _ _ => rfl) (fun _ _ => rfl),
    LaneEffect.of_move fun c s v hv => ?vmova, LaneRule.of_plain (fun _ _ => 1) (fun _ _ => rfl) (fun _ _ => rfl)⟩
  case vsel =>
    refine ⟨fun i => if tbit (v.x.pred (vVc v.w % 8)) i = true then v.a i else v.b i, v.issue (vselRegs v.w), 2, [vVd v.w], ?_, fun _ _ => rfl⟩
    simp only [exec_vVsel, execVVsel, hv]
  case vcvt =>
    match v.fn with
    | 0 => rfl
    | 1 => rfl
    | 2 => rfl
    | 3 => rfl
    | 4 => rfl
    | 5 => rfl
    | _ + 6 => rfl
  case vmova =>
    refine ⟨fun _ => v.x.areg (vVa v.w % 16), v.issue (vmovaRegs v.w), 2, [vVd v.w], ?_, fun _ _ => rfl⟩
    simp only [exec_vVmova, execVVmova, hv]

end

section
/-! PROOF. Addresses, branches, system registers and control of vector cells (04_vector_cells R119, R121, R123, R133). -/

namespace Sys2Proof.Machine

/-! ### The instructions of this file -/

theorem exec_vAaddi {c} {s : State} : exec (.vAaddi c) s = execVAaddi c s := rfl
theorem exec_vAop {c} {s : State} : exec (.vAop c) s = execVAop c s := rfl
theorem exec_vAlui {c} {s : State} : exec (.vAlui c) s = execVAlui c s := rfl
theorem exec_vBr {c} {s : State} : exec (.vBr c) s = execVBr c s := rfl
theorem exec_vSr {c} {s : State} : exec (.vSr c) s = execVSr c s := rfl
theorem exec_vNop {c} {s : State} : exec (.vNop c) s = execVNop c s := rfl
theorem exec_vEnd {c} {s : State} : exec (.vEnd c) s = execVEnd c s := rfl
theorem exec_vDrain {c} {s : State} : exec (.vDrain c) s = execVDrain c s := rfl

/-- What an environment of a vector cell's instruction holds. -/
theorem State.vReady_env {s : State} {c op : Nat} {sub : Option Nat} {regs : Nat → List Nat} {v : VEnv} (h : s.vReady c op sub regs = some v) :
    v.c = c ∧ v.e = cellId c ∧ v.x = s.vcell c ∧ v.w = v.x.word ∧ s.running (cellId c) (c / 20) = some (v.ex, v.st) := by
  unfold State.vReady at h
  split at h
  · cases h
  · split at h
    · cases h
    · rename_i ex st hrun
      obtain ⟨-, hv⟩ := Option.ite_none_right_eq_some.mp h
      cases hv
      exact ⟨rfl, rfl, rfl, rfl, hrun⟩

/-- A cell that runs a start holds it in its engine. -/
theorem State.engine_of_running {s : State} {e b : Nat} {x : Engine} {st : Start} (h : s.running e b = some (x, st)) :
    s.engine? e = some x ∧ x.start = some st := by
  unfold State.running at h
  split at h
  · cases h
  · rename_i y hy
    split at h
    · cases h
    · rename_i st' hst
      split at h
      · cases h
      · cases h
        exact ⟨hy, hst⟩

@[simp] theorem State.engine?_setV (s : State) (c : Nat) (x : VCell) (e : Nat) : (s.setV c x).engine? e = s.engine? e := rfl

/-- The END of a start is noted in its engine. -/
theorem State.engine?_endStart {s : State} {e : Nat} {x : Engine} {st : Start} (he : s.engine? e = some x) (hst : x.start = some st) :
    (s.endStart e).engine? e = some { x with start := some { st with ended := true } } := by
  simp only [State.endStart, he, hst]
  simp [State.engine?, State.setEngine]

/-- The address registers after an address instruction: its destination alone changes. -/
theorem VCell.go_setA_eq (x : VCell) (a r t lat : Nat) (rds : List Nat) :
    (x.setA a r).go t lat rds = { x with pc := x.pc + 1, drain := false, a := (x.setA a r).a, board := ((x.setA a r).go t lat rds).board } := by
  rw [VCell.setA_eq]
  rfl

/-- The address operation of AOP, its cases apart. -/
theorem aop_eq (n fn a b : Nat) (h : fn = 5 ∨ fn = 6 → b < 32) :
    (if aopOpen fn b then Config.freeNat n else aop fn a b) = if fn = 0 then a + b else if fn = 1 then a + 2 ^ 32 - b else if fn = 2 then a &&& b else if fn = 3 then a ||| b
      else if fn = 4 then a ^^^ b else if fn = 5 then a * 2 ^ b else if fn = 6 then a / 2 ^ b else a * b := by
  match fn with
  | 0 => rfl
  | 1 => rfl
  | 2 => rfl
  | 3 => rfl
  | 4 => rfl
  | 5 =>
    have hb : b < 32 := h (Or.inl rfl)
    simp [aopOpen, aop, Nat.not_le.mpr hb]
  | 6 =>
    have hb : b < 32 := h (Or.inr rfl)
    simp [aopOpen, aop, Nat.not_le.mpr hb]
  | _ + 7 => rfl

end Sys2Proof.Machine

open Sys2Proof Sys2Proof.Machine Sys2Proof.Spec

/-- Settles O23: each clause is the model's equation of its instruction, with the cell's registers read after the write. -/
theorem vectorControl : Obligations.VectorControl := by
  refine ⟨fun c s v hv => ?aaddi, fun c s v hv => ?aop, fun c s v hv => ?alui, fun c s v hv => ?br, fun c s v hv => ⟨fun hd hs => ?srRead, fun hd hs => ?srCycle, fun hd => ?srWrite⟩,
    fun c s v hv => ?nop, fun c s v hv => ?endd, fun c s v hv => ?drain⟩
  case aaddi =>
    simp only [exec_vAaddi, execVAaddi, hv]
    rfl
  case aop =>
    have he : exec (.vAop c) s = .next ({ s with free := s.free + 1 }.setV c ((v.x.setA (vAd v.w) (if aopOpen v.fn (v.x.areg (vAm v.w)) then Config.freeNat s.free
        else aop v.fn (v.x.areg (vAn v.w)) (v.x.areg (vAm v.w)))).go (v.issue (arRegs v.w)) (if v.fn = 7 then 3 else 1) [cA (vAd v.w)])) := by
      simp only [exec_vAop, execVAop, hv]
    rw [VCell.go_setA_eq] at he
    refine ⟨_, he, rfl, fun r hr => ?_, fun h0 hfn => ?_⟩
    · exact (VCell.areg_setA v.x _ _ r).trans (if_neg (fun h => hr h.1))
    · refine (VCell.areg_setA v.x _ _ (vAd v.w)).trans ((if_pos ⟨rfl, h0⟩).trans ?_)
      rw [aop_eq _ _ _ _ hfn]
  case alui =>
    simp only [exec_vAlui, execVAlui, hv]
    rfl
  case br =>
    simp only [exec_vBr, execVBr, hv]
    cases hb : vBranch v.x v.w
    · exact ⟨_, rfl, rfl⟩
    · exact ⟨_, rfl, rfl⟩
  case srRead =>
    simp only [exec_vSr, execVSr, hv, hd, Bool.false_eq_true, if_false, hs]
  case srCycle =>
    simp only [exec_vSr, execVSr, hv, hd, Bool.false_eq_true, if_false, hs, if_true]
    rfl
  case srWrite =>
    simp only [exec_vSr, execVSr, hv, hd, if_true]
  case nop =>
    simp only [exec_vNop, execVNop, hv]
    rfl
  case endd =>
    obtain ⟨-, he, -, -, hrun⟩ := State.vReady_env hv
    obtain ⟨hx, hst⟩ := State.engine_of_running hrun
    refine ⟨?_, State.engine?_endStart hx hst⟩
    simp only [exec_vEnd, execVEnd, hv, he]
  case drain =>
    simp only [exec_vDrain, execVDrain, hv]
    exact ⟨_, rfl, rfl⟩

end

section
/-! PROOF. The register arithmetic of scalar cells (05_scalar_cells R137, R142, R143). -/

namespace Sys2Proof.Machine

/-! ### The instructions of this file -/

theorem exec_sDiv {c} {s : State} : exec (.sDiv c) s = execSDiv c s := rfl

theorem SCell.reg_of_s {x y : SCell} (h : y.s = x.s) (r : Nat) : y.reg r = x.reg r := by
  rw [SCell.reg, SCell.reg, h]

/-- A register write that moves on changes the registers, the program counter and the board alone. -/
theorem SCell.go_setR_eq (x : SCell) (r a t lat : Nat) (rds : List Nat) :
    (x.setR r a).go t lat rds = { x with pc := (x.pc + 1) % 4096, drain := false, s := (x.setR r a).s, board := ((x.setR r a).go t lat rds).board } := by
  rw [SCell.setR_eq]
  rfl

/-- What the division of R143 gives, the zero divisor apart. -/
theorem sDiv_eq (fn a b : Nat) : sDiv fn a b = if b = 0 then (if fn < 2 then 2 ^ 64 - 1 else a) else if fn = 0 then wrapI 64 (Int.tdiv (sgn 64 a) (sgn 64 b))
    else if fn = 1 then a / b else if fn = 2 then wrapI 64 (Int.tmod (sgn 64 a) (sgn 64 b)) else a % b := by
  match fn with
  | 0 => rfl
  | 1 => rfl
  | 2 => rfl
  | n + 3 =>
    have h : ¬(n + 3 < 2) := by omega
    rw [if_neg h]
    rfl

end Sys2Proof.Machine

namespace Sys2Proof.Spec

open Sys2Proof.Machine

/-- An instruction that writes `f` to its destination and moves on has the effect of any `g` that agrees with `f` modulo 2^64. -/
theorem RegEffect.of_write {con : Nat → Instr} {op : Nat} {sub : Option Nat} {regs : Nat → List Nat} {ok : State → SEnv → Prop} {g : State → SEnv → Nat}
    (h : ∀ c s v, s.sReady c op sub regs = some v → ok s v → ∃ (f t lat : Nat) (rds : List Nat) (b : Board),
      exec (con c) s = .next (s.setS c { ((v.x.setR (sRd v.w) f).go t lat rds) with board := b }) ∧ f % 2 ^ 64 = g s v % 2 ^ 64) :
    RegEffect con op sub regs ok g := by
  intro c s v hv hok
  obtain ⟨f, t, lat, rds, b, he, hf⟩ := h c s v hv hok
  rw [SCell.go_setR_eq] at he
  refine ⟨_, he, rfl, fun r => (SCell.reg_of_s rfl r).trans ((SCell.reg_setR v.x (sRd v.w) f r).trans ?_)⟩
  rw [hf]

/-- An instruction of the model whose only effect is a register follows the rule of what it writes. -/
theorem RegEffect.of_sAlu {con : Nat → Instr} {op lat : Nat} {regs : Nat → List Nat} {f : SEnv → Nat} {g : State → SEnv → Nat}
    (hx : ∀ c s, exec (con c) s = .next (s.sAlu c op lat regs f)) (hw : ∀ s v, f v = g s v) :
    RegEffect con op none regs (fun _ _ => True) g := by
  refine RegEffect.of_write fun c s v hv _ => ⟨f v, v.issue (regs v.w), lat, [sRd v.w], ((v.x.setR (sRd v.w) (f v)).go (v.issue (regs v.w)) lat [sRd v.w]).board, (hx c s).trans ?_, by rw [hw]⟩
  simp only [State.sAlu, hv]

end Sys2Proof.Spec

open Sys2Proof Sys2Proof.Machine Sys2Proof.Spec

/-- Settles O25: each instruction is a register write; DIV sets DIVZERO before it. -/
theorem scalarArithmetic : Obligations.ScalarArithmetic := by
  refine ⟨RegEffect.of_sAlu (fun _ _ => rfl) (fun _ v => ?alu), RegEffect.of_sAlu (fun _ _ => rfl) (fun _ v => ?cmp), RegEffect.of_sAlu (fun _ _ => rfl) (fun _ v => ?mul),
    fun c s v hv => ?div, RegEffect.of_sAlu (fun _ _ => rfl) (fun _ _ => rfl), RegEffect.of_sAlu (fun _ _ => rfl) (fun _ _ => rfl),
    RegEffect.of_sAlu (fun _ _ => rfl) (fun _ _ => rfl), RegEffect.of_sAlu (fun _ _ => rfl) (fun _ _ => rfl), RegEffect.of_sAlu (fun _ _ => rfl) (fun _ _ => rfl),
    RegEffect.of_sAlu (fun _ _ => rfl) (fun _ _ => rfl), RegEffect.of_sAlu (fun _ _ => rfl) (fun _ v => ?shi), RegEffect.of_sAlu (fun _ _ => rfl) (fun _ _ => rfl)⟩
  case alu =>
    dsimp only
    rw [Nat.shiftLeft_eq, Nat.shiftRight_eq_div_pow]
    match sFn v.w with
    | 0 => rfl
    | 1 => rfl
    | 2 => rfl
    | 3 => rfl
    | 4 => rfl
    | 5 => rfl
    | 6 => rfl
    | _ + 7 => rfl
  case cmp =>
    simp only [decide_eq_true_eq]
    match sFn v.w with
    | 0 => rfl
    | 1 => rfl
    | 2 => rfl
    | 3 => rfl
    | 4 => rfl
    | _ + 5 => rfl
  case mul =>
    match sFn v.w with
    | 0 => rfl
    | 1 => rfl
    | _ + 2 => rfl
  case shi =>
    dsimp only
    rw [Nat.shiftLeft_eq, Nat.shiftRight_eq_div_pow]
    match v.w / 64 % 4 with
    | 0 => rfl
    | 1 => rfl
    | _ + 2 => rfl
  case div =>
    simp only [exec_sDiv, execSDiv, hv]
    by_cases hb : v.b = 0
    · refine ⟨_, rfl, ?_, fun r => ?_⟩
      · simp only [hb, if_true]
        rw [SCell.go_setR_eq]
        rfl
      · refine (SCell.reg_of_s rfl r).trans ((SCell.reg_setR _ (sRd v.w) _ r).trans ?_)
        simp only [hb, if_true, sDiv_eq]
        rfl
    · refine ⟨_, rfl, ?_, fun r => ?_⟩
      · simp only [hb, if_false]
        rw [SCell.go_setR_eq]
      · refine (SCell.reg_of_s rfl r).trans ((SCell.reg_setR _ (sRd v.w) _ r).trans ?_)
        simp only [hb, if_false, sDiv_eq]
        rfl

end

section
/-! The order of a top-k selection, and what it keeps (04_vector_cells R129). -/

namespace Sys2Proof.Machine

/-- A number's exponent, where it has one. -/
def Num.low : Num → Int
  | .fin _ _ e => e
  | _ => 0

/-- Where a number stands among numbers: below, among or above the finite values, and its value in units of 2^q. -/
def Num.place (q : Int) : Num → Int × Int
  | .nan => (0, 0)
  | .inf neg => (if neg then -1 else 1, 0)
  | .fin neg m e => (0, sInt neg (m * 2 ^ (e - q).toNat))

/-- Places in ascending order. -/
def placeLt (a b : Int × Int) : Prop := a.1 < b.1 ∨ (a.1 = b.1 ∧ a.2 < b.2)

/-- A sign distributes over a power of two. -/
theorem sInt_mul_pow (neg : Bool) (m n : Nat) : sInt neg (m * 2 ^ n) = sInt neg m * 2 ^ n := by
  cases neg <;> simp [sInt, Int.neg_mul]

/-- A finite value in smaller units. -/
theorem sInt_scaled (neg : Bool) (m : Nat) {e p q : Int} (hq : q ≤ p) (hp : p ≤ e) :
    sInt neg (m * 2 ^ (e - q).toNat) = sInt neg (m * 2 ^ (e - p).toNat) * 2 ^ (p - q).toNat := by
  rw [show (e - q).toNat = (e - p).toNat + (p - q).toNat by omega, Nat.pow_add, ← Nat.mul_assoc, sInt_mul_pow]

/-- The comparison of two numbers is the comparison of their places, in any units that hold both. -/
theorem cmp_place {x y : Num} {q : Int} (hx : x.isNan = false) (hy : y.isNan = false) (hqx : q ≤ x.low) (hqy : q ≤ y.low) :
    ∃ r, x.cmp y = some r ∧ (r < 0 ↔ placeLt (x.place q) (y.place q)) ∧ (r = 0 ↔ x.place q = y.place q) ∧ (0 < r ↔ placeLt (y.place q) (x.place q)) := by
  match x, y, hx, hy with
  | .inf a, .inf b, _, _ => cases a <;> cases b <;> simp [Num.cmp, Num.place, placeLt]
  | .inf a, .fin _ _ _, _, _ => cases a <;> simp [Num.cmp, Num.place, placeLt]
  | .fin _ _ _, .inf b, _, _ => cases b <;> simp [Num.cmp, Num.place, placeLt]
  | .fin a m e, .fin b k g, _, _ =>
    have hqm : q ≤ min e g := by
      simp only [Num.low] at hqx hqy
      omega
    have hpos : (0 : Int) < 2 ^ (min e g - q).toNat := Int.pow_pos (by decide)
    refine ⟨_, rfl, ?_⟩
    simp only [Num.place, placeLt, sInt_scaled a m hqm (Int.min_le_left e g), sInt_scaled b k hqm (Int.min_le_right e g), Int.lt_irrefl, false_or, true_and, Prod.mk.injEq]
    generalize sInt a (m * 2 ^ (e - min e g).toNat) = u
    generalize sInt b (k * 2 ^ (g - min e g).toNat) = v
    generalize (2 : Int) ^ (min e g - q).toNat = c at hpos ⊢
    rw [Int.mul_lt_mul_right hpos, Int.mul_lt_mul_right hpos, Int.mul_eq_mul_right_iff (Int.ne_of_gt hpos)]
    split
    · omega
    · split <;> omega

/-- The place of an element, a value's code and its index, in a selection's order: a NaN last, then its value's place, then its index. -/
def rankKey (smallest : Bool) (q : Int) (x : Nat × Nat) : Int × (Int × Int) × Nat :=
  if (fp32.decode x.1).isNan then (1, (0, 0), x.2)
  else if smallest then (0, (fp32.decode x.1).place q, x.2)
  else (0, (-((fp32.decode x.1).place q).1, -((fp32.decode x.1).place q).2), x.2)

/-- Keys in ascending order. -/
def keyLt (a b : Int × (Int × Int) × Nat) : Prop := a.1 < b.1 ∨ (a.1 = b.1 ∧ (placeLt a.2.1 b.2.1 ∨ (a.2.1 = b.2.1 ∧ a.2.2 < b.2.2)))

theorem rankKey_index (smallest : Bool) (q : Int) (x : Nat × Nat) : (rankKey smallest q x).2.2 = x.2 := by
  unfold rankKey
  split
  · rfl
  · split <;> rfl

theorem keyLt_trans {a b c : Int × (Int × Int) × Nat} (h1 : keyLt a b) (h2 : keyLt b c) : keyLt a c := by
  obtain ⟨a1, ⟨a2, a3⟩, a4⟩ := a
  obtain ⟨b1, ⟨b2, b3⟩, b4⟩ := b
  obtain ⟨c1, ⟨c2, c3⟩, c4⟩ := c
  simp only [keyLt, placeLt, Prod.mk.injEq] at h1 h2 ⊢
  omega

/-- Keys of different index are in one order or the other. -/
theorem keyLt_of_not {a b : Int × (Int × Int) × Nat} (hne : a.2.2 ≠ b.2.2) (h : ¬ keyLt a b) : keyLt b a := by
  obtain ⟨a1, ⟨a2, a3⟩, a4⟩ := a
  obtain ⟨b1, ⟨b2, b3⟩, b4⟩ := b
  simp only [keyLt, placeLt, Prod.mk.injEq] at hne h ⊢
  omega

/-- The order of R129 is the order of keys. -/
theorem ranksBefore_iff (smallest : Bool) {q : Int} {x y : Nat × Nat} (hqx : q ≤ (fp32.decode x.1).low) (hqy : q ≤ (fp32.decode y.1).low) :
    Spec.RanksBefore smallest x y ↔ keyLt (rankKey smallest q x) (rankKey smallest q y) := by
  unfold Spec.RanksBefore rankKey keyLt
  cases hx : (fp32.decode x.1).isNan <;> cases hy : (fp32.decode y.1).isNan
  · obtain ⟨r, hr, hlt, heq, hgt⟩ := cmp_place hx hy hqx hqy
    generalize (fp32.decode x.1).place q = a at hlt heq hgt ⊢
    generalize (fp32.decode y.1).place q = b at hlt heq hgt ⊢
    obtain ⟨a1, a2⟩ := a
    obtain ⟨b1, b2⟩ := b
    simp only [hr, Option.some.injEq, exists_eq_left', hlt, heq, hgt, Bool.false_eq_true, if_false, true_and, placeLt, Prod.mk.injEq]
    cases smallest
    · simp only [Bool.false_eq_true, if_false, Prod.mk.injEq, Int.lt_irrefl, false_or, true_and]
      omega
    · simp only [if_true, Prod.mk.injEq, Int.lt_irrefl, false_or, true_and]
  · cases smallest <;> simp
  · cases smallest <;> simp
  · simp [placeLt]

/-- The model's test is that order. -/
theorem rankBefore_iff (smallest : Bool) (x y : Nat × Nat) : rankBefore smallest x y = true ↔ Spec.RanksBefore smallest x y := by
  unfold Spec.RanksBefore rankBefore
  cases hx : (fp32.decode x.1).isNan <;> cases hy : (fp32.decode y.1).isNan
  · obtain ⟨r, hr, -, -, -⟩ := cmp_place hx hy (Int.min_le_left _ _) (Int.min_le_right _ _)
    by_cases h0 : r = 0
    · subst h0
      cases smallest <;> simp [hx, hy, hr]
    · cases smallest <;> simp [hx, hy, hr, h0]
  · simp [hx, hy]
  · simp [hx, hy]
  · simp [hx, hy]

/-- What a selection of `k` holds of the elements offered to it: a sorted part of at most `k`, better than every element left out. -/
structure BestOf (smallest : Bool) (k : Nat) (offered : Nat × Nat → Prop) (l : List (Nat × Nat)) : Prop where
  sorted : l.Pairwise (Spec.RanksBefore smallest)
  short : l.length ≤ k
  sub : ∀ e, e ∈ l → offered e
  best : ∀ e, offered e → e ∈ l ∨ (l.length = k ∧ ∀ f, f ∈ l → Spec.RanksBefore smallest f e)

theorem rankInsert_perm (smallest : Bool) (x : Nat × Nat) (l : List (Nat × Nat)) : (rankInsert smallest x l).Perm (x :: l) := by
  induction l with
  | nil => exact List.Perm.refl _
  | cons y l ih =>
    unfold rankInsert
    split
    · exact List.Perm.refl _
    · exact (ih.cons y).trans (List.Perm.swap x y l)

theorem ranksBefore_trans {smallest : Bool} {x y z : Nat × Nat} (h1 : Spec.RanksBefore smallest x y) (h2 : Spec.RanksBefore smallest y z) : Spec.RanksBefore smallest x z := by
  obtain ⟨q, hqx, hqy, hqz⟩ : ∃ q, q ≤ (fp32.decode x.1).low ∧ q ≤ (fp32.decode y.1).low ∧ q ≤ (fp32.decode z.1).low :=
    ⟨min (fp32.decode x.1).low (min (fp32.decode y.1).low (fp32.decode z.1).low), by omega, by omega, by omega⟩
  rw [ranksBefore_iff smallest hqx hqy] at h1
  rw [ranksBefore_iff smallest hqy hqz] at h2
  rw [ranksBefore_iff smallest hqx hqz]
  exact keyLt_trans h1 h2

theorem not_ranksBefore_self (smallest : Bool) (x : Nat × Nat) : ¬ Spec.RanksBefore smallest x x := by
  rw [ranksBefore_iff smallest (Int.le_refl _) (Int.le_refl _)]
  unfold keyLt placeLt
  omega

/-- Of two elements of different index one ranks before the other. -/
theorem ranksBefore_of_not {smallest : Bool} {x y : Nat × Nat} (hne : x.2 ≠ y.2) (h : ¬ Spec.RanksBefore smallest x y) : Spec.RanksBefore smallest y x := by
  obtain ⟨q, hqx, hqy⟩ : ∃ q, q ≤ (fp32.decode x.1).low ∧ q ≤ (fp32.decode y.1).low := ⟨min (fp32.decode x.1).low (fp32.decode y.1).low, by omega, by omega⟩
  rw [ranksBefore_iff smallest hqx hqy] at h
  rw [ranksBefore_iff smallest hqy hqx]
  exact keyLt_of_not (by rwa [rankKey_index, rankKey_index]) h

/-- An element of a new index takes its place in a sorted selection. -/
theorem rankInsert_sorted {smallest : Bool} {x : Nat × Nat} {l : List (Nat × Nat)} (hl : l.Pairwise (Spec.RanksBefore smallest)) (hx : ∀ y, y ∈ l → x.2 ≠ y.2) :
    (rankInsert smallest x l).Pairwise (Spec.RanksBefore smallest) := by
  induction l with
  | nil => exact List.pairwise_singleton _ _
  | cons y l ih =>
    obtain ⟨hy, hl'⟩ := List.pairwise_cons.mp hl
    unfold rankInsert
    split
    · rename_i hb
      have hxy := (rankBefore_iff _ _ _).mp hb
      refine List.pairwise_cons.mpr ⟨fun z hz => ?_, hl⟩
      obtain rfl | hz := List.mem_cons.mp hz
      · exact hxy
      · exact ranksBefore_trans hxy (hy z hz)
    · rename_i hb
      have hyx := ranksBefore_of_not (hx y List.mem_cons_self) (fun h => hb ((rankBefore_iff _ _ _).mpr h))
      refine List.pairwise_cons.mpr ⟨fun z hz => ?_, ih hl' (fun z hz => hx z (List.mem_cons_of_mem _ hz))⟩
      obtain rfl | hz := List.mem_cons.mp ((rankInsert_perm _ _ _).subset hz)
      · exact hyx
      · exact hy z hz

/-- Offering an element of a new index keeps the best `k`. -/
theorem BestOf.insert {smallest : Bool} {k : Nat} {offered : Nat × Nat → Prop} {l : List (Nat × Nat)} {x : Nat × Nat} (h : BestOf smallest k offered l)
    (hx : ∀ e, offered e → x.2 ≠ e.2) : BestOf smallest k (fun e => offered e ∨ e = x) ((rankInsert smallest x l).take k) := by
  have hperm := rankInsert_perm smallest x l
  have hlen : (rankInsert smallest x l).length = l.length + 1 := hperm.length_eq
  have hsort := rankInsert_sorted h.sorted (fun y hy => hx y (h.sub y hy))
  have hmem : ∀ e, e ∈ rankInsert smallest x l ↔ e = x ∨ e ∈ l := fun e => hperm.mem_iff.trans List.mem_cons
  have hparts := hsort
  rw [← List.take_append_drop k (rankInsert smallest x l), List.pairwise_append] at hparts
  obtain ⟨-, -, hcross⟩ := hparts
  have htake : ∀ e, e ∈ (rankInsert smallest x l).take k → e = x ∨ e ∈ l := fun e he => (hmem e).mp (List.mem_of_mem_take he)
  refine ⟨hsort.sublist (List.take_sublist k _), List.length_take_le _ _, fun e he => ?_, fun e he => ?_⟩
  · exact (htake e he).elim Or.inr (fun he => Or.inl (h.sub e he))
  · by_cases hin : e ∈ rankInsert smallest x l
    · rw [← List.take_append_drop k (rankInsert smallest x l)] at hin
      obtain ht | hd := List.mem_append.mp hin
      · exact Or.inl ht
      · have hk : k < (rankInsert smallest x l).length := by
          refine Nat.lt_of_not_le fun hle => ?_
          rw [List.drop_eq_nil_of_le hle] at hd
          cases hd
        exact Or.inr ⟨List.length_take_of_le (Nat.le_of_lt hk), fun f hf => hcross f hf e hd⟩
    · rw [hmem, not_or] at hin
      obtain hl | ⟨hfull, hbest⟩ := h.best e (he.resolve_right hin.1)
      · exact absurd hl hin.2
      · refine Or.inr ⟨List.length_take_of_le (by omega), fun f hf => ?_⟩
        obtain rfl | hf' := htake f hf
        · obtain ⟨z, hz⟩ := List.exists_mem_of_ne_nil ((rankInsert smallest f l).drop k) (by
            rw [← List.length_pos_iff, List.length_drop]
            omega)
          have hfz := hcross f hf z hz
          obtain rfl | hzl := (hmem z).mp (List.mem_of_mem_drop hz)
          · exact absurd hfz (not_ranksBefore_self _ _)
          · exact ranksBefore_trans hfz (hbest z hzl)
        · exact hbest f hf'

/-- Offering the lanes of an ascending list, each at its own index, keeps the best `k`. -/
theorem BestOf.foldl {smallest : Bool} {k counter : Nat} (a : Nat → Nat) (lanes : List Nat) (hlanes : lanes.Pairwise (· < ·)) (offered : Nat × Nat → Prop)
    (l : List (Nat × Nat)) (h : BestOf smallest k offered l) (hold : ∀ e, offered e → ∀ i, i ∈ lanes → e.2 < counter + i) :
    BestOf smallest k (fun e => offered e ∨ ∃ i, i ∈ lanes ∧ e = (a i, counter + i))
      (lanes.foldl (fun l i => (rankInsert smallest (a i, counter + i) l).take k) l) := by
  induction lanes generalizing offered l with
  | nil => simpa using h
  | cons i lanes ih =>
    obtain ⟨hi, hrest⟩ := List.pairwise_cons.mp hlanes
    have hstep := h.insert (x := (a i, counter + i)) (fun e he => Nat.ne_of_gt (hold e he i List.mem_cons_self))
    have := ih hrest _ _ hstep (fun e he j hj => by
      obtain he | rfl := he
      · exact hold e he j (List.mem_cons_of_mem _ hj)
      · exact Nat.add_lt_add_left (hi j hj) _)
    refine ⟨this.sorted, this.short, fun e he => ?_, fun e he => this.best e ?_⟩
    · obtain (ho | rfl) | ⟨j, hj, rfl⟩ := this.sub e he
      · exact Or.inl ho
      · exact Or.inr ⟨i, List.mem_cons_self, rfl⟩
      · exact Or.inr ⟨j, List.mem_cons_of_mem _ hj, rfl⟩
    · obtain ho | ⟨j, hj, rfl⟩ := he
      · exact Or.inl (Or.inl ho)
      · obtain rfl | hj := List.mem_cons.mp hj
        · exact Or.inl (Or.inr rfl)
        · exact Or.inr ⟨j, hj, rfl⟩

/-- What the offered lanes leave comes from the selection or from the lanes, and at most `k` elements stay. -/
theorem offer_bounds {smallest : Bool} {k counter : Nat} (a : Nat → Nat) (lanes : List Nat) (l : List (Nat × Nat)) (hl : l.length ≤ k) :
    (lanes.foldl (fun l i => (rankInsert smallest (a i, counter + i) l).take k) l).length ≤ k := by
  induction lanes generalizing l with
  | nil => exact hl
  | cons i lanes ih => exact ih _ (List.length_take_le _ _)

theorem offer_subset {smallest : Bool} {k counter : Nat} (a : Nat → Nat) (lanes : List Nat) (l : List (Nat × Nat)) (e : Nat × Nat)
    (he : e ∈ lanes.foldl (fun l i => (rankInsert smallest (a i, counter + i) l).take k) l) : e ∈ l ∨ ∃ i, i ∈ lanes ∧ e = (a i, counter + i) := by
  induction lanes generalizing l with
  | nil => exact Or.inl he
  | cons i lanes ih =>
    obtain hl | ⟨j, hj, rfl⟩ := ih _ he
    · obtain rfl | hl := List.mem_cons.mp ((rankInsert_perm _ _ _).subset (List.mem_of_mem_take hl))
      · exact Or.inr ⟨i, List.mem_cons_self, rfl⟩
      · exact Or.inl hl
    · exact Or.inr ⟨j, List.mem_cons_of_mem _ hj, rfl⟩

end Sys2Proof.Machine

end

section
/-! PROOF. Reductions, scans, special functions, comparisons, the top-k unit and random words of vector cells
(04_vector_cells R121, R126-R131). -/

namespace Sys2Proof.Machine

/-! ### The instructions of this file -/

theorem exec_vVsfu {c} {s : State} : exec (.vVsfu c) s = execVVsfu c s := rfl
theorem exec_vVcmp {c} {s : State} : exec (.vVcmp c) s = execVVcmp c s := rfl
theorem exec_vPlogic {c} {s : State} : exec (.vPlogic c) s = execVPlogic c s := rfl
theorem exec_vVffs {c} {s : State} : exec (.vVffs c) s = execVVffs c s := rfl
theorem exec_vVpcnt {c} {s : State} : exec (.vVpcnt c) s = execVVpcnt c s := rfl
theorem exec_vVext {c} {s : State} : exec (.vVext c) s = execVVext c s := rfl
theorem exec_vTkinit {c} {s : State} : exec (.vTkinit c) s = execVTkinit c s := rfl
theorem exec_vTkpush {c} {s : State} : exec (.vTkpush c) s = execVTkpush c s := rfl
theorem exec_vTkpop {c} {s : State} : exec (.vTkpop c) s = execVTkpop c s := rfl
theorem exec_vVrand {c} {s : State} : exec (.vVrand c) s = execVVrand c s := rfl

/-! ### Predicate words -/

/-- The word whose bit `i`, below `n`, is `f i`. -/
def bitSum (f : Nat → Bool) (n : Nat) : Nat := ((List.range n).filter f).foldl (fun a i => a + 2 ^ i) 0

theorem bitSum_succ (f : Nat → Bool) (n : Nat) : bitSum f (n + 1) = bitSum f n + if f n then 2 ^ n else 0 := by
  unfold bitSum
  rw [List.range_succ, List.filter_append, List.foldl_append]
  cases h : f n <;> simp [h]

theorem bitSum_lt (f : Nat → Bool) (n : Nat) : bitSum f n < 2 ^ n := by
  induction n with
  | zero => exact Nat.one_pos
  | succ n ih =>
    rw [bitSum_succ, Nat.pow_succ]
    split <;> omega

theorem testBit_bitSum (f : Nat → Bool) (n i : Nat) (hi : i < n) : (bitSum f n).testBit i = f i := by
  induction n with
  | zero => cases hi
  | succ n ih =>
    have hn : (bitSum f n).testBit n = false := Nat.testBit_lt_two_pow (bitSum_lt f n)
    rw [bitSum_succ]
    obtain hlt | rfl := Nat.lt_succ_iff_lt_or_eq.mp hi
    · cases f n
      · exact ih hlt
      · rw [if_pos rfl, Nat.add_comm, Nat.testBit_two_pow_add_gt hlt, ih hlt]
    · cases h : f i
      · exact hn
      · rw [if_pos rfl, Nat.add_comm, Nat.testBit_two_pow_add_eq, hn]
        rfl

theorem tbit_eq_testBit (x i : Nat) : tbit x i = x.testBit i := by
  rw [tbit, ← Nat.decide_shiftRight_mod_two_eq_one]
  rfl

/-- A predicate written from a test of the lanes reads as that test. -/
theorem tbit_bitsWhere (f : Nat → Bool) (i : Nat) (hi : i < 64) : tbit (bitsWhere f % 2 ^ 64) i = f i := by
  have h : bitsWhere f < 2 ^ 64 := bitSum_lt f 64
  rw [Nat.mod_eq_of_lt h, tbit_eq_testBit]
  exact testBit_bitSum f 64 i hi

theorem VCell.pred_of_p {x y : VCell} (h : y.p = x.p) (r : Nat) : y.pred r = x.pred r := by
  rw [VCell.pred, VCell.pred, h]

/-- A predicate write that moves on changes the predicates, the program counter and the board alone. -/
theorem VCell.go_setPred_eq (x : VCell) (r a t lat : Nat) (rds : List Nat) :
    (x.setPred r a).go t lat rds = { x with pc := x.pc + 1, drain := false, p := (x.setPred r a).p, board := ((x.setPred r a).go t lat rds).board } := by
  rw [VCell.setPred_eq]
  rfl

/-! ### Whole registers -/

/-- The words of a register, inactive lanes replaced. -/
theorem VEnv.masked_active (v : VEnv) (pg idn : Nat) :
    v.masked (v.x.active pg) idn = (List.range 64).map (fun i => if tbit (v.x.pred pg) i then v.a i else idn) := by
  refine List.map_congr_left fun i hi => ?_
  have hi := List.mem_range.mp hi
  simp [VCell.mem_active, hi]

/-- Folding a list with the identity in place of the elements left out folds the others. -/
theorem foldl_masked {f g : Nat → Nat → Nat} {bound idn : Nat} (p : Nat → Bool) (a : Nat → Nat) (ha : ∀ i, a i < bound) (hf : ∀ x y, x < bound → y < bound → f x y = g x y)
    (hg : ∀ x y, x < bound → y < bound → g x y < bound) (hid : ∀ x, x < bound → g x idn = x) (hidn : idn < bound) (l : List Nat) (x : Nat) (hx : x < bound) :
    (l.map (fun i => if p i then a i else idn)).foldl f x = ((l.filter p).map a).foldl g x ∧ ((l.filter p).map a).foldl g x < bound := by
  induction l generalizing x with
  | nil => exact ⟨rfl, hx⟩
  | cons i l ih =>
    cases h : p i
    · simp only [List.map_cons, List.foldl_cons, h, List.filter_cons, Bool.false_eq_true, if_false, hf x idn hx hidn, hid x hx]
      exact ih x hx
    · simp only [List.map_cons, List.foldl_cons, h, List.filter_cons, if_true, hf x (a i) hx (ha i)]
      exact ih _ (hg x (a i) hx (ha i))

/-- The unsigned extreme of the active lanes (R127). -/
theorem reduceExtreme_unsigned (mx : Bool) (v : VEnv) (hfn : v.fn = 3) (ha : ∀ i, v.a i < 2 ^ 32) :
    (reduceExtreme mx v (v.x.active (vPg v.w))).1 =
      List.replicate 64 (((v.x.active (vPg v.w)).map v.a).foldl (if mx then max else min) (if mx then 0 else 2 ^ 32 - 1) % 2 ^ 32) := by
  have hid : extremeId mx v.fn = if mx then 0 else 2 ^ 32 - 1 := by rw [hfn]; rfl
  have hf : ∀ x y, x < 2 ^ 32 → y < 2 ^ 32 → (minMax mx v.fn x y).1 = (if mx then max else min) x y := by
    intro x y hx hy
    rw [hfn]
    cases mx
    · exact Nat.mod_eq_of_lt (Nat.lt_of_le_of_lt (Nat.min_le_left x y) hx)
    · exact Nat.mod_eq_of_lt (Nat.max_lt.mpr ⟨hx, hy⟩)
  have hfold := foldl_masked (bound := 2 ^ 32) (idn := if mx then 0 else 2 ^ 32 - 1) (f := fun x y => (minMax mx v.fn x y).1) (g := if mx then max else min)
    (fun i => tbit (v.x.pred (vPg v.w)) i) v.a ha hf
    (fun x y hx hy => by cases mx <;> simp <;> omega) (fun x hx => by cases mx <;> simp <;> omega) (by cases mx <;> simp)
    (List.range 64) (if mx then 0 else 2 ^ 32 - 1) (by cases mx <;> simp)
  unfold reduceExtreme
  rw [hid, VEnv.masked_active]
  refine congrArg (List.replicate 64) (hfold.1.trans (Nat.mod_eq_of_lt hfold.2).symm)

end Sys2Proof.Machine

namespace Sys2Proof.Spec

open Sys2Proof.Machine

/-- A whole-register instruction of the model has the effect of any `g` that agrees with its words on the active lanes. -/
theorem LaneEffect.of_vWhole {con : Nat → Instr} {op n : Nat} {f : VEnv → List Nat → List Nat × FpFlags} {g : VEnv → Nat → Nat} {fl : VEnv → Nat} (lat : State → Nat → Nat)
    (hx : ∀ c s, exec (con c) s = .next (s.vWhole c op n (lat s c) f))
    (hw : ∀ v i, i < 64 → (f v (v.x.active (vPg v.w))).1.getD i 0 = g v i) (hfl : ∀ v, (f v (v.x.active (vPg v.w))).2.status = fl v) : LaneEffect con op (vvRegs n) g fl := by
  refine LaneEffect.of_write fun c s v hv => ⟨fun i => (f v (v.x.active (vPg v.w))).1.getD i 0, (f v (v.x.active (vPg v.w))).2, v.issue (vvRegs n v.w), lat s c, [vVd v.w],
    (((v.x.writeLanes (vVd v.w) ((v.x.active (vPg v.w)).map (fun i => (i, (f v (v.x.active (vPg v.w))).1.getD i 0)))).flag (f v (v.x.active (vPg v.w))).2).go
      (v.issue (vvRegs n v.w)) (lat s c) [vVd v.w]).board,
    (hx c s).trans ?_, hfl v, fun i hi => congrArg (· % 2 ^ 32) (hw v i ((VCell.mem_active _ _ _).mp hi).1)⟩
  simp only [State.vWhole, hv]

end Sys2Proof.Spec

namespace Sys2Proof.Machine

open Sys2Proof.Spec

/-- The special function of a lane, by its format bit. -/
theorem vsfu_rule : LaneRule .vVsfu 0x20 1 (fun v i => if tbit v.w 6 = true then lowHigh (fun a _ => sfuBf v.fn a) (v.a i) 0 else sfu32 v.fn (v.a i)) := by
  refine LaneEffect.of_write fun c s v hv => ?_
  cases h : tbit v.w 6
  · refine ⟨fun i => (sfu32 v.fn (v.a i)).1, joinAll ((v.x.active (vPg v.w)).map (fun i => (sfu32 v.fn (v.a i)).2)), v.x.board.issue (vvRegs 1 v.w) v.x.board.sfuFree, 12, [vVd v.w], ?board, ?he, ?fl, fun i _ => ?word⟩
    case he =>
      simp only [exec_vVsfu, execVVsfu, hv, h, List.map_map]
      rfl
    case fl => simp only [laneFlags, h, Bool.false_eq_true, if_false]
    case word => simp only [h, Bool.false_eq_true, if_false]
  · refine ⟨fun i => (lowHigh (fun a _ => sfuBf v.fn a) (v.a i) 0).1, joinAll ((v.x.active (vPg v.w)).map (fun i => (lowHigh (fun a _ => sfuBf v.fn a) (v.a i) 0).2)),
      v.x.board.issue (vvRegs 1 v.w) v.x.board.sfuFree, 16, [vVd v.w], ?board16, ?he16, ?fl16, fun i _ => ?word16⟩
    case he16 =>
      simp only [exec_vVsfu, execVVsfu, hv, h, List.map_map, if_true]
      rfl
    case fl16 => simp only [laneFlags, h, if_true]
    case word16 => simp only [h, if_true]

/-! ### The top-k unit -/

theorem VCell.openSel_append {x : VCell} {l : List Sel} {q : Sel} (h : x.sels = l ++ [q]) (hq : q.isOpen = true) : x.openSel = some q := by
  simp [VCell.openSel, h, hq]

/-- Two register writes change the vector registers alone. -/
theorem VCell.writeLanes_twice_eq (x : VCell) (r q : Nat) (l m : List (Nat × Nat)) :
    (x.writeLanes r l).writeLanes q m = { x with v := ((x.writeLanes r l).writeLanes q m).v } := by
  refine (VCell.writeLanes_eq _ q m).trans ?_
  generalize ((x.writeLanes r l).writeLanes q m).v = w
  rw [VCell.writeLanes_eq]

theorem VCell.go_writeLanes_twice_eq (x : VCell) (r q : Nat) (l m : List (Nat × Nat)) (sels : List Sel → List Sel) (status : Nat → Nat) (t lat : Nat) (rds : List Nat) (y : VCell)
    (hy : y = (x.writeLanes r l).writeLanes q m) :
    VCell.go { y with sels := sels y.sels, status := status y.status } t lat rds =
      { x with pc := x.pc + 1, drain := false, sels := sels x.sels, status := status x.status, v := y.v, board := x.board.done t 1 (rds.map (fun r => (r, t + lat))) } := by
  rw [VCell.writeLanes_twice_eq] at hy
  generalize ((x.writeLanes r l).writeLanes q m).v = w at hy
  subst hy
  rfl

/-- The cell after a pop that writes `f` to one register and `g` to another. -/
theorem VCell.pop_effect (x : VCell) (r q : Nat) (f g : Nat → Nat) (hne : r ≠ q) (sels : List Sel → List Sel) (status : Nat → Nat) (t lat : Nat) (rds : List Nat) (y : VCell)
    (hy : y = (x.writeLanes r ((List.range 64).map (fun i => (i, f i)))).writeLanes q ((List.range 64).map (fun i => (i, g i)))) :
    ∃ z, z = VCell.go { y with sels := sels y.sels, status := status y.status } t lat rds ∧
      z = { x with pc := x.pc + 1, drain := false, sels := sels x.sels, status := status x.status, v := z.v, board := z.board } ∧
      (∀ i, i < 64 → z.lane r i = f i % 2 ^ 32 ∧ z.lane q i = g i % 2 ^ 32) ∧ ∀ p i, i < 64 → p ≠ r → p ≠ q → z.lane p i = x.lane p i := by
  have hr : ∀ i ∈ List.range 64, i < 64 := fun i hi => List.mem_range.mp hi
  have hlane : ∀ p i, i < 64 → y.lane p i = if p = q then g i % 2 ^ 32 else if p = r then f i % 2 ^ 32 else x.lane p i := by
    intro p i hi
    rw [hy, VCell.lane_writeLanes _ _ _ _ hr _ _ hi, VCell.lane_writeLanes _ _ _ _ hr _ _ hi]
    simp only [List.mem_range, hi, and_true]
  have hz := VCell.go_writeLanes_twice_eq x r q _ _ sels status t lat rds y hy
  refine ⟨_, rfl, ?_, fun i hi => ⟨?_, ?_⟩, fun p i hi h1 h2 => ?_⟩
  · rw [hz]
  · rw [hz]
    exact (VCell.lane_of_v (x := y) rfl r i).trans ((hlane r i hi).trans ((if_neg hne).trans (if_pos rfl)))
  · rw [hz]
    exact (VCell.lane_of_v (x := y) rfl q i).trans ((hlane q i hi).trans (if_pos rfl))
  · rw [hz]
    exact (VCell.lane_of_v (x := y) rfl p i).trans ((hlane p i hi).trans ((if_neg h2).trans (if_neg h1)))

end Sys2Proof.Machine

open Sys2Proof Sys2Proof.Machine Sys2Proof.Spec

/-- Settles O22: the reductions are whole-register instructions; a push keeps the best of the selection and the lanes by the order of
places; a pop is read back lane by lane. -/
theorem vectorReductions : Obligations.VectorReductions := by
  refine ⟨LaneEffect.of_vWhole redLat (fun _ _ => rfl) (fun v i hi => ?vradd) (fun v => ?vraddFlags), fun con op mx hmem => ⟨?extreme, fun v hfn ha => reduceExtreme_unsigned mx v hfn ha⟩,
    LaneEffect.of_vWhole redLat (fun _ _ => rfl) (fun _ _ _ => rfl) (fun _ => rfl), vsfu_rule, fun c s v hv => ?vcmp, fun c s v hv => ?plogic, fun c s v hv => ?vffs, fun c s v hv => ?vpcnt,
    fun c s v hv => ?vext, fun c s v hv => ?tkinit, fun c s v q l hv hs hq hlim => ?tkpush, fun c s v q l hv hs hq hlim => ?tkovf, fun c s v hv hs => ?tkempty,
    fun c s v q l hv hs hne => ?tkpop, fun c s v hv hs hne => ?tkpopEmpty, LaneEffect.of_move fun c s v hv => ?vrand⟩
  case vradd =>
    rw [VEnv.masked_active]
    rw [List.getD_eq_getElem?_getD, List.getElem?_replicate, if_pos hi, Option.getD_some]
  case vraddFlags => rw [VEnv.masked_active]
  case extreme =>
    simp only [List.mem_cons, Prod.mk.injEq, List.not_mem_nil, or_false] at hmem
    obtain ⟨rfl, rfl, rfl⟩ | ⟨rfl, rfl, rfl⟩ := hmem
    · exact LaneEffect.of_vWhole (fun _ _ => 6) (fun _ _ => rfl) (fun _ _ _ => rfl) (fun _ => rfl)
    · exact LaneEffect.of_vWhole (fun _ _ => 6) (fun _ _ => rfl) (fun _ _ _ => rfl) (fun _ => rfl)
  case vcmp =>
    refine ⟨?y_vcmp, ?he_vcmp, ?rest_vcmp⟩
    case he_vcmp =>
      simp only [exec_vVcmp, execVVcmp, hv]
      rw [VCell.go_setPred_eq]
    refine ⟨rfl, fun q _ hq => ?_, fun h0 i hi => ?_⟩
    · exact (VCell.pred_setPred v.x _ _ q).trans (if_neg (fun h => hq h.1))
    · rw [← tbit_bitsWhere (fun i => tbit (v.x.pred (vPg v.w)) i && condOf (vVc v.w) (cmpBy v.fn (v.a i) (v.b i))) i hi]
      exact congrArg (tbit · i) ((VCell.pred_setPred v.x _ _ _).trans (if_pos ⟨rfl, h0⟩))
  case plogic =>
    refine ⟨?y_plogic, ?he_plogic, ?rest_plogic⟩
    case he_plogic =>
      simp only [exec_vPlogic, execVPlogic, hv]
      rw [VCell.go_setPred_eq]
    refine ⟨rfl, fun q _ hq => ?_, fun h0 => ?_⟩
    · exact (VCell.pred_setPred v.x _ _ q).trans (if_neg (fun h => hq h.1))
    · refine (VCell.pred_setPred v.x _ _ _).trans ((if_pos ⟨rfl, h0⟩).trans ?_)
      match v.fn with
      | 0 => rfl
      | 1 => rfl
      | 2 => rfl
      | 3 => rfl
      | _ + 4 => rfl
  case vffs =>
    simp only [exec_vVffs, execVVffs, hv]
    rfl
  case vpcnt =>
    simp only [exec_vVpcnt, execVVpcnt, hv]
    rfl
  case vext =>
    simp only [exec_vVext, execVVext, hv]
    rfl
  case tkinit =>
    simp only [exec_vTkinit, execVTkinit, hv, List.length_map, decide_eq_true_eq]
    split <;> rfl
  case tkpush =>
    have hsel := VCell.openSel_append hs hq
    have hpair : (v.x.active (vPg v.w)).Pairwise (· < ·) := List.pairwise_lt_range.filter _
    refine ⟨?y_tkpush, { q with items := (v.x.active (vPg v.w)).foldl (fun l i => (rankInsert q.smallest (v.a i, q.counter + i) l).take q.k) q.items, counter := q.counter + 64, lastPush := v.issue [vVa v.w, cP (vPg v.w)] }, ?he_tkpush, ?rest_tkpush⟩
    case he_tkpush =>
      simp only [exec_vTkpush, execVTkpush, hv, hsel, if_neg (Nat.not_lt.mpr hlim), hs, List.dropLast_concat]
      rfl
    case rest_tkpush =>
      refine ⟨rfl, rfl, rfl, rfl, hq, fun hk => offer_bounds _ _ _ hk, fun e he => ?_, fun hsorted hk hold => ?_⟩
      · obtain h | ⟨i, hi, h⟩ := offer_subset _ _ _ e he
        · exact Or.inl h
        · obtain ⟨h64, hp⟩ := (VCell.mem_active _ _ _).mp hi
          exact Or.inr ⟨i, h64, hp, h⟩
      · have hstart : BestOf q.smallest q.k (fun e => e ∈ q.items) q.items := ⟨hsorted, hk, fun _ h => h, fun _ h => Or.inl h⟩
        have hbest := hstart.foldl v.a (v.x.active (vPg v.w)) hpair _ _ (fun e he i _ => Nat.lt_add_right i (hold e he))
        refine ⟨hbest.sorted, fun e he => hbest.best e ?_⟩
        obtain h | ⟨i, h64, hp, h⟩ := he
        · exact Or.inl h
        · exact Or.inr ⟨i, (VCell.mem_active _ _ _).mpr ⟨h64, hp⟩, h⟩
  case tkovf =>
    simp only [exec_vTkpush, execVTkpush, hv, VCell.openSel_append hs hq, if_pos hlim]
  case tkempty =>
    simp only [exec_vTkpush, execVTkpush, hv, hs]
  case tkpop =>
    obtain ⟨y, hy, heq, hboth, hrest⟩ := VCell.pop_effect v.x (vVd v.w) (tkVe v.w) (fun i => match q.items[i]? with | some e => e.1 | none => fp32.infCode (!q.smallest))
      (fun i => match q.items[i]? with | some e => e.2 | none => 0xFFFFFFFF) hne (fun _ => l) id (v.issue [vVd v.w, tkVe v.w]) (max 2 (q.lastPush + 25 - v.issue [vVd v.w, tkVe v.w]))
      [vVd v.w, tkVe v.w] _ rfl
    refine ⟨y, ?_, heq, fun i hi => ⟨(hboth i hi).1, (hboth i hi).2⟩, fun r i hi h1 h2 => hrest r i hi h1 h2⟩
    simp only [exec_vTkpop, execVTkpop, hv, hs]
    rw [hy]
    rfl
  case tkpopEmpty =>
    obtain ⟨y, hy, heq, hboth, hrest⟩ := VCell.pop_effect v.x (vVd v.w) (tkVe v.w) (fun _ => fp32.infCode (!(Config.freeNat s.free % 2 == 1)))
      (fun _ => 0xFFFFFFFF) hne id (· ||| stTkEmpty) (v.issue [vVd v.w, tkVe v.w]) 2 [vVd v.w, tkVe v.w] _ rfl
    refine ⟨y, _, ?_, heq, hboth, fun r i hi h1 h2 => hrest r i hi h1 h2⟩
    simp only [exec_vTkpop, execVTkpop, hv, hs]
    rw [hy]
    rfl
  case vrand =>
    refine ⟨fun i => if v.fn = 0 then philox (v.a i) i (v.x.areg (vVb v.w % 16)) v.x.rngLo v.x.rngHi
      else fp32.code (.fin false (philox (v.a i) i (v.x.areg (vVb v.w % 16)) v.x.rngLo v.x.rngHi / 256) (-24)), v.issue (vrandRegs v.w), 6, [vVd v.w], ?_, fun _ _ => rfl⟩
    simp only [exec_vVrand, execVVrand, hv]

end

section
/-! PROOF. Memory written number by number, and the accesses a cell begins (R7, R163, R171). -/

namespace Sys2Proof.Machine

/-! ### Numbers in memory -/

theorem Memory.readN_congr {m m' : Sys2Proof.Mem} (a n : Nat) (h : ∀ b, a ≤ b → b < a + n → Memory.read m' b = Memory.read m b) :
    Memory.readN m' a n = Memory.readN m a n := by
  induction n generalizing a with
  | zero => rfl
  | succ n ih =>
    rw [Memory.readN, Memory.readN, h a (Nat.le_refl _) (by omega), ih (a + 1) (fun b h1 h2 => h b (by omega) (by omega))]

/-- A number written leaves the bytes outside it. -/
theorem Memory.read_writeN_of_outside {m : Sys2Proof.Mem} (h : Memory.wf m = true) (a n v b : Nat) (hb : b < a ∨ a + n ≤ b) :
    Memory.read (Memory.writeN m a n v) b = Memory.read m b := by
  induction n generalizing m a v with
  | zero => rfl
  | succ n ih =>
    rw [Memory.writeN, ih (Memory.wf_write h _ _) (a + 1) (v / 256) (by omega), Memory.read_write h, if_neg (by omega)]

/-- A number written is read back. -/
theorem Memory.readN_writeN_same {m : Sys2Proof.Mem} (h : Memory.wf m = true) (a n v : Nat) :
    Memory.readN (Memory.writeN m a n v) a n = v % 256 ^ n := by
  induction n generalizing m a v with
  | zero => rw [Memory.readN, Nat.pow_zero, Nat.mod_one]
  | succ n ih =>
    have hw := Memory.wf_write h a (BitVec.ofNat 8 v)
    rw [Memory.readN, Memory.writeN, ih hw, Memory.read_writeN_of_outside hw _ _ _ _ (Or.inl (Nat.lt_succ_self a)), Memory.read_write h, if_pos rfl,
      Nat.pow_succ', Nat.mod_mul]
    rfl

theorem Memory.writeL_bytesOf (m : Sys2Proof.Mem) (a n v : Nat) : Memory.writeL m a (bytesOf n v) = Memory.writeN m a n v := by
  induction n generalizing m a v with
  | zero => rfl
  | succ n ih => exact ih _ _ _

theorem keyed_cons (base : Nat) (b : BitVec 8) (l : List (BitVec 8)) : keyed base (b :: l) = (base, b) :: keyed (base + 1) l := by
  simp only [keyed, List.length_cons, List.range_succ_eq_map, List.map_cons, Nat.zero_add, List.zip_cons_cons, List.map_map]
  congr 3
  funext i
  simp only [Function.comp_apply]
  omega

/-- Writing the bytes of a number at their keys writes the number. -/
theorem Memory.foldl_keyed (m : Sys2Proof.Mem) (off base n v : Nat) :
    (keyed base (bytesOf n v)).foldl (fun m x => Memory.write m (off + x.1) x.2) m = Memory.writeN m (off + base) n v := by
  induction n generalizing m base v with
  | zero => rfl
  | succ n ih =>
    rw [bytesOf, keyed_cons, List.foldl_cons, ih, Memory.writeN, Nat.add_assoc]

section Writes

variable (addr val : Nat → Nat) (k : Nat)

/-- Numbers written one after another leave the bytes outside all of them. -/
theorem Memory.read_foldl_writeN {m : Sys2Proof.Mem} (h : Memory.wf m = true) (l : List Nat) (b : Nat) (hb : ∀ i, i ∈ l → b < addr i ∨ addr i + k ≤ b) :
    Memory.read (l.foldl (fun m i => Memory.writeN m (addr i) k (val i)) m) b = Memory.read m b := by
  induction l generalizing m with
  | nil => rfl
  | cons i l ih =>
    rw [List.foldl_cons, ih (Memory.wf_writeN h _ _ _) (fun j hj => hb j (List.mem_cons_of_mem _ hj)),
      Memory.read_writeN_of_outside h _ _ _ _ (hb i List.mem_cons_self)]

/-- A number that no later one overlaps is read back. -/
theorem Memory.readN_foldl_writeN {m : Sys2Proof.Mem} (h : Memory.wf m = true) (l : List Nat) (hl : l.Pairwise (· < ·)) (i : Nat) (hi : i ∈ l)
    (hd : ∀ j, j ∈ l → i < j → addr j + k ≤ addr i ∨ addr i + k ≤ addr j) :
    Memory.readN (l.foldl (fun m i => Memory.writeN m (addr i) k (val i)) m) (addr i) k = val i % 256 ^ k := by
  induction l generalizing m with
  | nil => cases hi
  | cons j l ih =>
    obtain ⟨hj, hl'⟩ := List.pairwise_cons.mp hl
    have hw := Memory.wf_writeN h (addr j) k (val j)
    rw [List.foldl_cons]
    obtain rfl | hi' := List.mem_cons.mp hi
    · rw [← Memory.readN_writeN_same h]
      refine Memory.readN_congr _ _ fun b h1 h2 => Memory.read_foldl_writeN addr val k hw l b fun q hq => ?_
      have := hd q (List.mem_cons_of_mem _ hq) (hj q hq)
      omega
    · exact ih hw hl' hi' (fun q hq => hd q (List.mem_cons_of_mem _ hq))

end Writes

/-! ### Accesses -/

/-- Posting flits changes the spine alone. -/
theorem State.foldl_post_eq {α : Type} (load : α → FlitLoad) (vc : VChan) (cls : α → Nat) (a b : α → Nat × Nat) (l : List α) (s : State) :
    ∃ sp, l.foldl (fun (s : State) x => s.post (load x) vc (cls x) (a x) (b x)) s = { s with spine := sp } ∧ (l = [] → sp = s.spine) := by
  induction l generalizing s with
  | nil => exact ⟨_, rfl, fun _ => rfl⟩
  | cons x l ih =>
    obtain ⟨sp, h, -⟩ := ih (s.post (load x) vc (cls x) (a x) (b x))
    exact ⟨sp, h, fun h => nomatch h⟩

/-- The claims of an access. -/
def claimsOf (n : Nat) (claims : List (Nat × Nat × Nat × LineOp)) : List Claim :=
  claims.map (fun x => { access := n, block := x.1, line := x.2.1, rank := x.2.2.1, op := x.2.2.2 })

/-- What an access changes: it is numbered, its claims at the banks of its own block are added, the others go out over the spine. -/
theorem State.addAccess_eq (s : State) (a : Access) (claims : List (Nat × Nat × Nat × LineOp)) :
    ∃ sp, s.addAccess a claims = { s with
        fab := { s.fab with nextAccess := s.fab.nextAccess + 1, accesses := Tab.put s.fab.accesses s.fab.nextAccess { a with left := claims.length },
                            claims := s.fab.claims ++ (claimsOf s.fab.nextAccess claims).filter (fun c => c.rank != 22) }, spine := sp } ∧
      ((∀ x, x ∈ claims → x.2.2.1 ≠ 22) → sp = s.spine) := by
  obtain ⟨sp, h, hnil⟩ := State.foldl_post_eq (fun c => FlitLoad.claim c) .request Claim.cls (fun _ => a.who.home) (fun c => blockEnd c.block)
    ((claimsOf s.fab.nextAccess claims).filter (fun c => c.rank == 22))
    { s with fab := { s.fab with nextAccess := s.fab.nextAccess + 1, accesses := Tab.put s.fab.accesses s.fab.nextAccess { a with left := claims.length },
                                 claims := s.fab.claims ++ (claimsOf s.fab.nextAccess claims).filter (fun c => c.rank != 22) } }
  refine ⟨sp, Eq.trans ?_ h, fun hall => hnil ?_⟩
  · simp only [State.addAccess, claimsOf, List.length_map]
  · rw [List.filter_eq_nil_iff]
    intro c hc
    obtain ⟨x, hx, rfl⟩ := List.mem_map.mp hc
    simpa using hall x hx

theorem cellRank_ne (c b : Nat) : (cellRank c b != 22) = (c / 20 == b) := by
  unfold cellRank
  split
  · rename_i h
    have : c % 20 + 1 ≠ 22 := by omega
    simpa [h] using this
  · rename_i h
    simp [h]

/-- The claims of a cell's read, those at the banks of its own block. -/
theorem readClaims_own (c n : Nat) (lines : List Nat) :
    (claimsOf n (readClaims c lines)).filter (fun x => x.rank != 22) =
      (lines.filter (fun l => c / 20 == l / 2 ^ 19)).map (fun l => { access := n, block := l / 2 ^ 19, line := l % 2 ^ 19, rank := cellRank c (l / 2 ^ 19), op := LineOp.read }) := by
  simp only [claimsOf, readClaims, List.map_map, List.filter_map, Function.comp_def, cellRank_ne]

theorem claimsOf_own (n : Nat) (claims : List (Nat × Nat × Nat × LineOp)) :
    (claimsOf n claims).filter (fun x => x.rank != 22) = claimsOf n (claims.filter (fun x => x.2.2.1 != 22)) := by
  simp only [claimsOf, List.filter_map, Function.comp_def]

/-- What a slice load of a vector cell begins. -/
theorem VEnv.sliceLoad_effect (v : VEnv) (s : State) (at' n off len r : Nat) (dest : Nat → Dest) (va b : Nat) (hb : s.phys v.ex.part n = some b) :
    ∃ t a, t = v.sliceLoad s at' n off len r dest va ∧ t = { s with cell := t.cell, fab := t.fab, spine := t.spine } ∧ (t.vcell v.c).pc = v.x.pc + 1 ∧ (t.vcell v.c).pend = v.x.pend ++ [r] ∧
      (t.vcell v.c).v = v.x.v ∧ (t.vcell v.c).a = v.x.a ∧ t.fab.slices = s.fab.slices ∧ Tab.find t.fab.accesses s.fab.nextAccess = some a ∧ a.who = .cell v.c ∧ a.dest = dest (sliceKey b off) ∧
      a.left = (linesOf (sliceKey b off) len).length ∧
      t.fab.claims = s.fab.claims ++ ((linesOf (sliceKey b off) len).filter (fun l => v.c / 20 == l / 2 ^ 19)).map (fun l => { access := s.fab.nextAccess, block := l / 2 ^ 19, line := l % 2 ^ 19, rank := cellRank v.c (l / 2 ^ 19), op := LineOp.read }) ∧
      ((linesOf (sliceKey b off) len).all (fun l => v.c / 20 == l / 2 ^ 19) = true → t.spine = s.spine) := by
  obtain ⟨sp, ht, hsp⟩ := State.addAccess_eq
    (s.setV v.c { v.x with pc := v.x.pc + 1, drain := false, pend := v.x.pend ++ [r], board := v.x.board.load (max at' v.x.board.gate) (linesOf (sliceKey b off) len) (maxN (s.pathAdds v.c (linesOf (sliceKey b off) len) false)) r })
    { who := .cell v.c, part := v.ex.part, dest := dest (sliceKey b off), got := [], left := 0, lost := 0, store := false } (readClaims v.c (linesOf (sliceKey b off) len))
  rw [readClaims_own] at ht
  refine ⟨_, { who := .cell v.c, part := v.ex.part, dest := dest (sliceKey b off), got := [], left := (linesOf (sliceKey b off) len).length, lost := 0, store := false },
    (Eq.symm ?_).trans ht |>.symm, rfl, ?_, ?_, ?_, ?_, rfl, ?_, rfl, rfl, rfl, rfl, fun hall => hsp fun x hx => ?_⟩
  · simp only [VEnv.sliceLoad, hb]
  · simp [State.vcell, State.setV]
  · simp [State.vcell, State.setV]
  · simp [State.vcell, State.setV]
  · simp [State.vcell, State.setV]
  · simp [State.setV, readClaims]
  · obtain ⟨l, hl, rfl⟩ := List.mem_map.mp hx
    have := List.all_eq_true.mp hall l hl
    rw [← cellRank_ne] at this
    simpa using this

/-- What a slice store of a vector cell begins. -/
theorem VEnv.sliceStore_effect (v : VEnv) (s : State) (at' n off : Nat) (bytes : List (Nat × BitVec 8)) (fl : FpFlags) (va b : Nat) (cl : List (Nat × Nat × Nat × LineOp))
    (hb : s.phys v.ex.part n = some b) (hcl : cl = writeClaims v.c (bytes.map (fun x => (sliceKey b off + x.1, x.2)))) :
    ∃ t, t = v.sliceStore s at' n off bytes fl va ∧ t = { s with cell := t.cell, fab := t.fab, spine := t.spine } ∧ (t.vcell v.c).pc = v.x.pc + 1 ∧ (t.vcell v.c).v = v.x.v ∧ (t.vcell v.c).a = v.x.a ∧
      t.fab.slices = s.fab.slices ∧
      t.fab.claims = s.fab.claims ++ (cl.filter (fun x => x.2.2.1 != 22)).map (fun x => { access := s.fab.nextAccess, block := x.1, line := x.2.1, rank := x.2.2.1, op := x.2.2.2 }) := by
  cases hnil : cl with
  | nil =>
    rw [hnil] at hcl
    refine ⟨_, rfl, ?_⟩
    simp only [VEnv.sliceStore, hb, ← hcl, List.isEmpty_nil, if_true]
    simp [State.vcell, State.setV, VCell.flag]
  | cons x xs =>
    rw [hnil] at hcl
    obtain ⟨sp, ht, -⟩ := State.addAccess_eq
      (s.setV v.c { (v.x.flag fl) with pc := v.x.pc + 1, drain := false, board := v.x.board.store (max at' v.x.board.gate) ((x :: xs).map (fun x => x.1 * 2 ^ 19 + x.2.1)) (maxN (s.pathAdds v.c ((x :: xs).map (fun x => x.1 * 2 ^ 19 + x.2.1)) true)) })
      { who := .cell v.c, part := v.ex.part, dest := .none, got := [], left := 0, lost := 0, store := true } (x :: xs)
    rw [claimsOf_own] at ht
    refine ⟨_, (Eq.symm ?_).trans ht |>.symm, rfl, ?_, ?_, ?_, rfl, rfl⟩
    · simp only [VEnv.sliceStore, hb, ← hcl, List.isEmpty_cons, Bool.false_eq_true, if_false]
    · simp [State.vcell, State.setV]
    · simp [State.vcell, State.setV, VCell.flag]
    · simp [State.vcell, State.setV, VCell.flag]

end Sys2Proof.Machine

end

section
/-! PROOF. The memory instructions and the EMIT of vector cells (04_vector_cells R118, R122, R123, R132, R135). -/

namespace Sys2Proof.Machine

/-! ### The instructions of this file -/

theorem exec_vVld {c} {s : State} : exec (.vVld c) s = execVVld c s := rfl
theorem exec_vLda {c} {s : State} : exec (.vLda c) s = execVLda c s := rfl
theorem exec_vVst {c} {s : State} : exec (.vVst c) s = execVVst c s := rfl
theorem exec_vSta {c} {s : State} : exec (.vSta c) s = execVSta c s := rfl
theorem exec_vEmit {c} {s : State} : exec (.vEmit c) s = execVEmit c s := rfl
theorem exec_vVldx {c} {s : State} : exec (.vVldx c) s = execVVldx c s := rfl
theorem exec_vVstx {c} {s : State} : exec (.vVstx c) s = execVVstx c s := rfl

theorem tyLane_pos (ty : Nat) : 0 < tyLane ty := by
  unfold tyLane
  split <;> decide

theorem VCell.active_sorted (x : VCell) (pg : Nat) : (x.active pg).Pairwise (· < ·) := List.pairwise_lt_range.filter _

/-- Elements at different lanes do not overlap. -/
theorem lane_disjoint (off k i j : Nat) (h : i < j) : off + j * k + k ≤ off + i * k ∨ off + i * k + k ≤ off + j * k := by
  have := Nat.mul_le_mul_right k h
  rw [Nat.succ_mul] at this
  exact Or.inr (by omega)

/-- The memory after a store of one number per active lane. -/
theorem Memory.lane_stores (m : Sys2Proof.Mem) (off k : Nat) (val : Nat → Nat) (l : List Nat) :
    (l.flatMap (fun i => keyed (i * k) (bytesOf k (val i)))).foldl (fun (m : Sys2Proof.Mem) (x : Nat × BitVec 8) => Memory.write m (off + x.1) x.2) m =
      l.foldl (fun m i => Memory.writeN m (off + i * k) k (val i)) m := by
  rw [List.foldl_flatMap]
  congr 1
  funext m i
  exact Memory.foldl_keyed m off (i * k) k (val i)

end Sys2Proof.Machine

open Sys2Proof Sys2Proof.Machine Sys2Proof.Spec

/-- Settles O24: local accesses by the memory lemmas, slice accesses by what `addAccess` changes. -/
theorem vectorMemory : Obligations.VectorMemory := by
  refine ⟨fun c s v off hv ha => ?vldLocal, fun c s v n off hv ha => ?vldSlice, fun c s v n off hv ha => ?ldaSlice,
    fun v s at' n off len r dest va b hb => VEnv.sliceLoad_effect v s at' n off len r dest va b hb, fun c s v off hv hwf ha => ?vstLocal, fun c s v n off hv ha => ⟨?fl, ?vstSlice⟩,
    fun c s v n off hv ha => ?staSlice, fun v s at' n off bytes fl va b cl hb hcl => hcl ▸ VEnv.sliceStore_effect v s at' n off bytes fl va b _ hb rfl,
    fun c s v k hv ha => ?vldBad, fun c s v k hv ha => ?vstBad, fun c s v hv hf => ?vldx, fun c s v hv hwf hf => ?vstx, fun c s v off hv ha => ?ldaLocal, fun c s v off hv ha => ?staLocal,
    fun c s v off w hv ha hw hbad => ?emit, fun c s v off k hv ha hbad => ?emitBad⟩
  case vldLocal => simp only [exec_vVld, execVVld, hv, ha, loadLanes]
  case vldSlice => simp only [exec_vVld, execVVld, hv, ha]
  case ldaSlice => simp only [exec_vLda, execVLda, hv, ha]
  case vstSlice =>
    simp only [exec_vVst, execVVst, hv, ha, List.flatMap_map]
    rfl
  case staSlice => simp only [exec_vSta, execVSta, hv, ha]
  case vldBad => simp only [exec_vVld, execVVld, hv, ha]
  case vstBad => simp only [exec_vVst, execVVst, hv, ha]
  case ldaLocal => simp only [exec_vLda, execVLda, hv, ha]
  case staLocal => simp only [exec_vSta, execVSta, hv, ha]
  case emit => simp only [exec_vEmit, execVEmit, hv, ha, State.addEmit, ← hw, hbad]
  case emitBad => simp only [exec_vEmit, execVEmit, hv, ha, State.addEmit, hbad]
  case vstLocal =>
    refine ⟨?yst, ?hest, ?restst⟩
    case hest =>
      simp only [exec_vVst, execVVst, hv, ha, List.flatMap_map, Memory.lane_stores]
      rfl
    refine ⟨rfl, fun i hi hp => ?_, fun a hout => ?_⟩
    · exact Memory.readN_foldl_writeN (fun i => off + i * tyLane (vmTy v.w)) _ _ hwf _ (v.x.active_sorted _) i ((VCell.mem_active _ _ _).mpr ⟨hi, hp⟩) (fun j _ hij => lane_disjoint _ _ _ _ hij)
    · refine Memory.read_foldl_writeN (fun i => off + i * tyLane (vmTy v.w)) _ _ hwf _ a fun i hi => ?_
      obtain ⟨h64, hp⟩ := (VCell.mem_active _ _ _).mp hi
      have := hout i h64 hp
      rw [Nat.succ_mul] at this
      omega
  case vldx =>
    refine ⟨?yld, ?held, ?restld⟩
    case held =>
      simp only [exec_vVldx, execVVldx, hv, hf]
      rw [VCell.writeLanes_eq]
    refine ⟨rfl, fun r i hi => ?_⟩
    exact (VCell.lane_of_v rfl r i).trans (VCell.lane_writeActive v.x (vVd v.w) (vPg v.w) _ r i hi)
  case vstx =>
    refine ⟨?yx, ?hex, ?restx⟩
    case hex =>
      simp only [exec_vVstx, execVVstx, hv, hf]
      rfl
    refine ⟨rfl, fun i hi hp hlast => ?_, fun a hout => ?_⟩
    · have h := Memory.readN_foldl_writeN v.gatherAddr (v.x.lane (vVd v.w)) 4 hwf _ (v.x.active_sorted (vPg v.w)) i ((VCell.mem_active _ _ _).mpr ⟨hi, hp⟩) (fun j hj hij => by
        obtain ⟨h64, hpj⟩ := (VCell.mem_active _ _ _).mp hj
        have := hlast j hij h64 hpj
        unfold VEnv.gatherAddr
        omega)
      exact h
    · refine Memory.read_foldl_writeN v.gatherAddr (v.x.lane (vVd v.w)) 4 hwf _ a fun i hi => ?_
      obtain ⟨h64, hp⟩ := (VCell.mem_active _ _ _).mp hi
      exact hout i h64 hp

end

section
/-! PROOF. Loads, stores, atomics, branches, system registers and emits of scalar cells, and what only a steward may do
(05_scalar_cells R140-R156, 10_session_service R281). -/

namespace Sys2Proof.Machine

/-! ### The instructions of this file -/

theorem exec_sBr {c} {s : State} : exec (.sBr c) s = execSBr c s := rfl
theorem exec_sLd {c} {s : State} : exec (.sLd c) s = execSLd c s := rfl
theorem exec_sLdu {c} {s : State} : exec (.sLdu c) s = execSLdu c s := rfl
theorem exec_sSt {c} {s : State} : exec (.sSt c) s = execSSt c s := rfl
theorem exec_sJal {c} {s : State} : exec (.sJal c) s = execSJal c s := rfl
theorem exec_sJalr {c} {s : State} : exec (.sJalr c) s = execSJalr c s := rfl
theorem exec_sFrd {c} {s : State} : exec (.sFrd c) s = execSFrd c s := rfl
theorem exec_sQocc {c} {s : State} : exec (.sQocc c) s = execSQocc c s := rfl
theorem exec_sSr {c} {s : State} : exec (.sSr c) s = execSSr c s := rfl
theorem exec_sNop {c} {s : State} : exec (.sNop c) s = execSNop c s := rfl
theorem exec_sDrain {c} {s : State} : exec (.sDrain c) s = execSDrain c s := rfl
theorem exec_sEnd {c} {s : State} : exec (.sEnd c) s = execSEnd c s := rfl
theorem exec_sEmit {c} {s : State} : exec (.sEmit c) s = execSEmit c s := rfl
theorem exec_sEmitKeepf {c} {s : State} : exec (.sEmitKeepf c) s = execSEmitKeepf c s := rfl
theorem exec_sFsig {c} {s : State} : exec (.sFsig c) s = execSFsig c s := rfl
theorem exec_sQput {c} {s : State} : exec (.sQput c) s = execSQput c s := rfl
theorem exec_sQtake {c} {s : State} : exec (.sQtake c) s = execSQtake c s := rfl
theorem exec_sWaitq {c} {s : State} : exec (.sWaitq c) s = execSWaitq c s := rfl
theorem exec_sWaitqResume {c} {s : State} : exec (.sWaitqResume c) s = execSWaitqResume c s := rfl
theorem exec_sCancel {c} {s : State} : exec (.sCancel c) s = execSCancel c s := rfl
theorem exec_sPred {c} {s : State} : exec (.sPred c) s = execSPred c s := rfl
theorem exec_sCrd {c} {s : State} : exec (.sCrd c) s = execSCrd c s := rfl

/-- What an environment of a scalar cell's instruction holds. -/
theorem State.sReady_env {s : State} {c op : Nat} {sub : Option Nat} {regs : Nat → List Nat} {v : SEnv} (h : s.sReady c op sub regs = some v) :
    v.c = c ∧ v.x = s.scell c ∧ v.w = v.x.word := by
  unfold State.sReady at h
  split at h
  · cases h
  · split at h
    · cases h
    · obtain ⟨-, hv⟩ := Option.ite_none_right_eq_some.mp h
      cases hv
      exact ⟨rfl, rfl, rfl⟩

theorem State.sFull_of_lt {s : State} {c : Nat} (h : s.sOutstanding c < 4) : s.sFull c = false :=
  decide_eq_false (Nat.not_le.mpr h)

/-- A launched waybill leaves the way to a queue's dispatcher as it is. -/
theorem SEnv.queueLat_launch (v : SEnv) (s : State) (q r : Nat) (w : Waybill) (rank : Nat) : v.queueLat (s.launch r w rank) q = v.queueLat s q := by
  unfold State.launch
  split
  · rfl
  · split <;> rfl

/-- The branch condition of R142. -/
def sTaken (cond a b : Nat) : Bool :=
  match cond with
  | 0 => a == b
  | 1 => a != b
  | 2 => decide (sgn 64 a < sgn 64 b)
  | 3 => decide (sgn 64 b ≤ sgn 64 a)
  | 4 => decide (a < b)
  | _ => decide (b ≤ a)

theorem sTaken_iff (cond a b : Nat) : sTaken cond a b = true ↔ if cond = 0 then a = b else if cond = 1 then a ≠ b else if cond = 2 then Spec.s64 a < Spec.s64 b
    else if cond = 3 then Spec.s64 b ≤ Spec.s64 a else if cond = 4 then a < b else b ≤ a := by
  match cond with
  | 0 => exact beq_iff_eq
  | 1 => exact bne_iff_ne
  | 2 => exact decide_eq_true_iff
  | 3 => exact decide_eq_true_iff
  | 4 => exact decide_eq_true_iff
  | _ + 5 => exact decide_eq_true_iff

/-- A branch that issues goes to its target or on. -/
theorem execSBr_ready {s : State} {c : Nat} {v : SEnv} (hv : s.sReady c 0x18 none (fun w => [sbRa w, sbRb w]) = some v) :
    exec (.sBr c) s = .next (s.setS c (if sTaken (sbCond v.w) (v.x.reg (sbRa v.w)) (v.x.reg (sbRb v.w)) then
      (v.x.go (v.issue [sbRa v.w, sbRb v.w]) 1 []).jump (v.issue [sbRa v.w, sbRb v.w]) ((v.x.pc : Int) + sbOff v.w).toNat else v.x.go (v.issue [sbRa v.w, sbRb v.w]) 1 [])) := by
  simp only [exec_sBr, execSBr, hv]
  rfl

/-- A jump writes its return address and goes to its target. -/
theorem SCell.jump_setR_eq (x : SCell) (r a t pc : Nat) (rds : List Nat) :
    ((x.setR r a).go t 1 rds).jump t pc = { x with pc := pc % 4096, drain := false, s := (x.setR r a).s, board := (((x.setR r a).go t 1 rds).jump t pc).board } := by
  rw [SCell.setR_eq]
  rfl

end Sys2Proof.Machine

open Sys2Proof Sys2Proof.Machine Sys2Proof.Spec

/-- Settles O26: register writes by `RegEffect.of_write`, slice accesses by what `addAccess` changes. -/
theorem scalarMemoryAndControl : Obligations.ScalarMemoryAndControl := by
  refine ⟨fun off => RegEffect.of_write fun c s v hv ha => ?ld, fun off => RegEffect.of_write fun c s v hv ha => ?ldu, fun c s v n off b hv ha hb ho => ?lduSlice,
    fun c s v off hv hwf ha => ?stLocal, fun c s v n off b hv ha hb ho => ?stSlice, fun c s v n off b hv ha hb ho => ?amo, fun c s v hv => ?br, fun con op regs f hmem c s v hv => ?jump,
    fun c s v hv hf ho => ?frd, fun x => RegEffect.of_write fun c s v hv hok => ?qocc, RegEffect.of_write fun c s v hv hd => ?srRead, fun c s v hv hd hsr => ?srWrite,
    fun c s v hv => ?nop, fun c s v hv => ?drain, fun c s v hv => ⟨fun ex st he => ?endd, fun he => ?endSteward⟩, fun con sub keep hmem c s v off ex st w hv ha he hw => ?emit⟩
  case ld =>
    refine ⟨_, v.issue (iRegs v.w), 2, [sRd v.w], ?bld, ?hld, rfl⟩
    case hld =>
      simp only [exec_sLd, execSLd, State.sLoad, hv, szBytes, ha, extend, if_true]
      rfl
  case ldu =>
    refine ⟨Memory.readN v.x.local' off (2 ^ sSz v.w), v.issue (iRegs v.w), 2, [sRd v.w], ?bldu, ?hldu, rfl⟩
    case hldu =>
      simp only [exec_sLdu, execSLdu, State.sLoad, hv, szBytes, ha, extend, Bool.false_eq_true, if_false]
      rfl
  case lduSlice =>
    obtain ⟨sp, ht, -⟩ := State.addAccess_eq
      (s.setS c { v.x with pc := (v.x.pc + 1) % 4096, drain := false, pend := v.x.pend ++ [sRd v.w], board := v.x.board.sAccess (max (v.issue (iRegs v.w)) v.x.board.gate) (12 + pathAdd (c / 20) b (s.block (c / 20)).mhz false) [sRd v.w] false })
      { who := .cell c, part := v.part, dest := .sreg (sRd v.w) (2 ^ sSz v.w) false (sliceKey b off), got := [], left := 0, lost := 0, store := false } (readClaims c (linesOf (sliceKey b off) (2 ^ sSz v.w)))
    refine ⟨_, { who := .cell c, part := v.part, dest := .sreg (sRd v.w) (2 ^ sSz v.w) false (sliceKey b off), got := [], left := (readClaims c (linesOf (sliceKey b off) (2 ^ sSz v.w))).length, lost := 0, store := false },
      congrArg Host.Outcome.next (Eq.trans ?_ ht), rfl, ?_, ?_, ?_, ?_, rfl, rfl⟩
    · simp only [State.sLoad, hv, szBytes, ha, hb, State.sFull_of_lt ho, Bool.false_eq_true, if_false]
    · simp [State.scell, State.setS]
    · simp [State.scell, State.setS]
    · simp [State.scell, State.setS]
    · simp [State.setS]
  case stLocal =>
    refine ⟨?yst, ?hst, ?rst⟩
    case hst =>
      simp only [exec_sSt, execSSt, hv, szBytes, ha, Memory.writeL_bytesOf]
      rfl
    exact ⟨rfl, Memory.readN_writeN_same hwf _ _ _, fun a hout => Memory.read_writeN_of_outside hwf _ _ _ _ hout⟩
  case stSlice =>
    obtain ⟨sp, ht, -⟩ := State.addAccess_eq
      (s.setS c { v.x with pc := (v.x.pc + 1) % 4096, drain := false, board := v.x.board.sAccess (max (v.issue (iRegs v.w)) v.x.board.gate) (8 + pathAdd (c / 20) b (s.block (c / 20)).mhz true) [] true })
      { who := .cell c, part := v.part, dest := .none, got := [], left := 0, lost := 0, store := true } (writeClaims c (keyed (sliceKey b off) (bytesOf (2 ^ sSz v.w) (v.x.reg (sRd v.w)))))
    refine ⟨_, congrArg Host.Outcome.next (Eq.trans ?_ ht), rfl, ?_, ?_, rfl, rfl⟩
    · simp only [hv, szBytes, ha, hb, State.sFull_of_lt ho, Bool.false_eq_true, if_false]
    · simp [State.scell, State.setS]
    · simp [State.scell, State.setS]
  case amo =>
    obtain ⟨sp, ht, -⟩ := State.addAccess_eq
      (s.setS c { v.x with pc := (v.x.pc + 1) % 4096, drain := false, pend := v.x.pend ++ [sRd v.w], board := v.x.board.sAccess (max (v.issue (xRegs v.w)) v.x.board.gate) (14 + pathAdd (c / 20) b (s.block (c / 20)).mhz false) [sRd v.w] true })
      { who := .cell c, part := v.part, dest := .samo (sRd v.w) (atomicBytes (sSub v.w)) (sliceKey b off), got := [], left := 0, lost := 0, store := true }
      [(b, sliceKey b off / 64 % 2 ^ 19, cellRank c b, .atomic (sliceKey b off % 64) (sSub v.w) v.b)]
    refine ⟨_, { who := .cell c, part := v.part, dest := .samo (sRd v.w) (atomicBytes (sSub v.w)) (sliceKey b off), got := [], left := 1, lost := 0, store := true },
      congrArg Host.Outcome.next (Eq.trans ?_ ht), rfl, ?_, ?_, ?_, rfl, rfl, rfl, ?_⟩
    · simp only [hv, ha, hb, State.sFull_of_lt ho, Bool.false_eq_true, if_false]
    · simp [State.scell, State.setS]
    · simp [State.scell, State.setS]
    · simp [State.setS]
    · by_cases hr : cellRank c b = 22
      · simp [claimsOf, State.setS, hr]
      · simp [claimsOf, State.setS, hr]
  case br =>
    refine ⟨_, execSBr_ready hv, ?_⟩
    by_cases h : sTaken (sbCond v.w) (v.x.reg (sbRa v.w)) (v.x.reg (sbRb v.w)) = true
    · simp only [if_pos h, if_pos ((sTaken_iff _ _ _).mp h)]
      rfl
    · simp only [if_neg h, if_neg (fun hp => h ((sTaken_iff _ _ _).mpr hp))]
      rfl
  case jump =>
    simp only [List.mem_cons, Prod.mk.injEq, List.not_mem_nil, or_false] at hmem
    obtain ⟨rfl, rfl, rfl, rfl⟩ | ⟨rfl, rfl, rfl, rfl⟩ := hmem
    · refine ⟨?yj, ?hj, ?rj⟩
      case hj =>
        simp only [exec_sJal, execSJal, hv]
        rw [SCell.jump_setR_eq]
      exact ⟨rfl, fun r => (SCell.reg_of_s rfl r).trans (SCell.reg_setR v.x _ _ r)⟩
    · refine ⟨?yr, ?hr, ?rr⟩
      case hr =>
        simp only [exec_sJalr, execSJalr, hv]
        rw [SCell.jump_setR_eq]
      refine ⟨?_, fun r => (SCell.reg_of_s rfl r).trans (SCell.reg_setR v.x _ _ r)⟩
      simp only [Nat.mod_mod]
  case frd =>
    refine ⟨?yf, ?hfr, ?rf⟩
    case hfr =>
      simp only [exec_sFrd, execSFrd, hv, hf, State.sFull_of_lt ho, Bool.not_true, Bool.false_eq_true, if_false]
      rfl
    rfl
  case qocc =>
    obtain ⟨hq, hp, ho⟩ := hok
    obtain ⟨hc, -, -⟩ := State.sReady_env hv
    rw [hc] at ho
    refine ⟨if x.placed = none then 2 ^ 64 - 1 else x.tail - x.head, v.issueOp (iRegs v.w), v.queueLat s (v.a % 2 ^ 20), [sRd v.w], ?bq, ?hqo, rfl⟩
    case hqo =>
      simp only [exec_sQocc, execSQocc, hv, hq, hp, ne_eq, not_true, if_false, State.sFull_of_lt ho, Bool.false_eq_true, Option.isNone_iff_eq_none]
      rfl
  case srRead =>
    refine ⟨_, v.issue (iRegs v.w), 1, [sRd v.w], ?bsr, ?hsr, rfl⟩
    case hsr =>
      simp only [exec_sSr, execSSr, hv, hd, Bool.false_eq_true, if_false]
      rfl
  case srWrite =>
    refine ⟨?yw, ?hw, ?rw⟩
    case hw =>
      simp only [exec_sSr, execSSr, hv, hd, hsr, if_true]
      rfl
    rfl
  case nop =>
    simp only [exec_sNop, execSNop, hv]
    exact ⟨_, rfl, rfl⟩
  case drain =>
    simp only [exec_sDrain, execSDrain, hv]
    exact ⟨_, rfl, rfl⟩
  case endd => simp only [exec_sEnd, execSEnd, hv, he]
  case endSteward => simp only [exec_sEnd, execSEnd, hv, he]
  case emit =>
    simp only [List.mem_cons, Prod.mk.injEq, List.not_mem_nil, or_false] at hmem
    obtain ⟨rfl, rfl, rfl⟩ | ⟨rfl, rfl, rfl⟩ := hmem
    · refine ⟨fun hb => ?_, fun k hb => ?_⟩
      · simp only [exec_sEmit, execSEmit, State.sEmit, hv, ha, he, State.addEmit, ← hw, hb]
      · simp only [exec_sEmit, execSEmit, State.sEmit, hv, ha, he, State.addEmit, ← hw, hb]
    · refine ⟨fun hb => ?_, fun k hb => ?_⟩
      · simp only [exec_sEmitKeepf, execSEmitKeepf, State.sEmit, hv, ha, he, State.addEmit, ← hw, hb]
      · simp only [exec_sEmitKeepf, execSEmitKeepf, State.sEmit, hv, ha, he, State.addEmit, ← hw, hb]

/-- Settles O27: each clause is the model's equation of its instruction under the checks it passes. -/
theorem stewardInstructions : Obligations.StewardInstructions := by
  refine ⟨fun c s v hv hf ho => ?fsig, fun c s v off w hv ha hq ho hw => ⟨fun k hk => ?qputBad, fun hm hfull => ?qput, fun hm hfull => ?qputFull⟩,
    fun c s v off q x0 x k hv ha ho hin hq hd => ⟨fun w hw => ?qtake, fun hw => ?qtakeEmpty⟩, fun c s v off hv ha ho hin => ?qtakeInvalid, fun s x w k n hx hg hl => ?dropStale,
    fun c s v hv => ?waitq, fun c s o q ho hq => ⟨fun hr => ?resume, fun d hr hd hle => ?timeout⟩,
    fun c s v ret hv ho hret => ⟨fun hs hfree => ?cancelAdd, fun hs hfull hno => ?cancelFull, fun hs hhas => ?cancelRemove, fun hs hno => ?cancelMissing⟩,
    fun c s v t hv ht ho => ?pred, fun b => RegEffect.of_write fun c s v hv hok => ?crd⟩
  case fsig =>
    refine ⟨?yf, ?hfs, ?rf⟩
    case hfs =>
      simp only [exec_sFsig, execSFsig, hv, hf, State.sFull_of_lt ho, Bool.not_true, Bool.false_eq_true, if_false]
      rfl
    rfl
  case qputBad => simp only [exec_sQput, execSQput, hv, ha, hq, State.sFull_of_lt ho, Bool.not_true, Bool.false_eq_true, if_false, ← hw, hk]
  case qput => simp only [exec_sQput, execSQput, hv, ha, hq, State.sFull_of_lt ho, Bool.not_true, Bool.false_eq_true, if_false, ← hw, hm, hfull, SEnv.queueLat_launch]
  case qputFull => simp only [exec_sQput, execSQput, hv, ha, hq, State.sFull_of_lt ho, Bool.not_true, Bool.false_eq_true, if_false, ← hw, hm, hfull, if_true]
  case qtake => simp only [exec_sQtake, execSQtake, hv, ha, State.sFull_of_lt ho, Bool.false_eq_true, if_false, hin, Option.bind_some, hq, Option.map_some, hd, hw]
  case qtakeEmpty => simp only [exec_sQtake, execSQtake, hv, ha, State.sFull_of_lt ho, Bool.false_eq_true, if_false, hin, Option.bind_some, hq, Option.map_some, hd, hw]
  case qtakeInvalid => simp only [exec_sQtake, execSQtake, hv, ha, State.sFull_of_lt ho, Bool.false_eq_true, if_false, hin, Option.bind_none]
  case dropStale =>
    cases n with
    | zero => rfl
    | succ n =>
      have : ¬(w.resetGen ≠ s.genOf x.part ∨ s.ctxLive x.part w.context = false) := by simp [hg, hl]
      simp only [dropStale, hx, if_neg this]
  case waitq =>
    simp only [exec_sWaitq, execSWaitq, hv]
    exact ⟨_, rfl, rfl⟩
  case resume => simp only [exec_sWaitqResume, execSWaitqResume, ho, hq, if_pos hr]
  case timeout => simp only [exec_sWaitqResume, execSWaitqResume, ho, hq, hr, ne_eq, not_true, if_false, hd, if_pos hle]
  case cancelAdd =>
    have : ¬(256 ≤ (s.cancelSet v.part).length ∧ Tab.has (s.cancelSet v.part) (v.a % 2 ^ 32) = false) := by
      rintro ⟨hl, hh⟩
      obtain h | h := hfree
      · omega
      · exact Bool.false_ne_true (hh.symm.trans h)
    simp only [exec_sCancel, execSCancel, hv, State.sFull_of_lt ho, Bool.false_eq_true, if_false, hs, if_true, if_neg this, hret]
    rfl
  case cancelFull => simp only [exec_sCancel, execSCancel, hv, State.sFull_of_lt ho, Bool.false_eq_true, if_false, hs, if_true, if_pos (And.intro hfull hno), hret]
  case cancelRemove =>
    simp only [exec_sCancel, execSCancel, hv, State.sFull_of_lt ho, Bool.false_eq_true, if_false, if_neg hs, hhas, if_true, hret]
    rfl
  case cancelMissing => simp only [exec_sCancel, execSCancel, hv, State.sFull_of_lt ho, Bool.false_eq_true, if_false, if_neg hs, hno, hret]
  case pred => simp only [exec_sPred, execSPred, hv, ht, State.sFull_of_lt ho, Bool.false_eq_true, if_false]
  case crd =>
    obtain ⟨hp, ho⟩ := hok
    obtain ⟨hc, -, -⟩ := State.sReady_env hv
    rw [hc] at ho
    refine ⟨_, v.issueOp (iRegs v.w), v.anchorLat s b, [sRd v.w], ?bc, ?hcr, rfl⟩
    case hcr =>
      simp only [exec_sCrd, execSCrd, hv, hp, State.sFull_of_lt ho, Bool.false_eq_true, if_false]
      rfl

end

section
/-! PROOF. Matrix cells: loads and stores, array operations and the sequencer (03_matrix_cells R82-R111). -/

namespace Sys2Proof.Machine

/-! ### The instructions of this file -/

theorem exec_mAccld {c} {s : State} : exec (.mAccld c) s = execMAccld c s := rfl
theorem exec_mAccst {c} {s : State} : exec (.mAccst c) s = execMAccst c s := rfl
theorem exec_mAccz {c} {s : State} : exec (.mAccz c) s = execMAccz c s := rfl
theorem exec_mEnd {c} {s : State} : exec (.mEnd c) s = execMEnd c s := rfl

/-! ### The instructions of this file -/

theorem exec_mLda {c} {s : State} : exec (.mLda c) s = execMLda c s := rfl
theorem exec_mLdb {c} {s : State} : exec (.mLdb c) s = execMLdb c s := rfl
theorem exec_mMma {c} {s : State} : exec (.mMma c) s = execMMma c s := rfl
theorem exec_mMmaeg {c} {s : State} : exec (.mMmaeg c) s = execMMmaeg c s := rfl
theorem exec_mEmit {c} {s : State} : exec (.mEmit c) s = execMEmit c s := rfl
theorem exec_mRepeat {c} {s : State} : exec (.mRepeat c) s = execMRepeat c s := rfl
theorem exec_mSync {c} {s : State} : exec (.mSync c) s = execMSync c s := rfl

/-! ### The sequencer -/

/-- What an environment of a matrix cell's operation holds. -/
theorem State.mReady_env {s : State} {c op : Nat} {waits : MDesc → Dest → Bool} {v : MEnv} (h : s.mReady c op waits = some v) :
    v.e = cellId c ∧ s.running (cellId c) (c / 20) = some (v.x, v.st) := by
  unfold State.mReady at h
  split at h
  · cases h
  · split at h
    · cases h
    · rename_i x st hrun
      obtain ⟨-, hv⟩ := Option.ite_none_right_eq_some.mp h
      cases hv
      exact ⟨rfl, hrun⟩

/-- Moving on changes the descriptor number and the REPEAT alone, as these two tell. -/
theorem MCell.advance_of (m m' : MCell) (hpc : m'.pc = m.pc) (hrep : m'.rep = m.rep) :
    m'.advance = { m' with pc := m.advance.pc, rep := m.advance.rep } := by
  unfold MCell.advance
  rw [hpc, hrep]
  split
  · rw [← hrep]
  · split
    · split <;> rfl
    · rfl

theorem le_maxN {l : List Nat} {n : Nat} (h : n ∈ l) : n ≤ maxN l := by
  have hacc : ∀ (l : List Nat) (a : Nat), a ≤ l.foldl max a ∧ ∀ n, n ∈ l → n ≤ l.foldl max a := by
    intro l
    induction l with
    | nil => exact fun a => ⟨Nat.le_refl _, fun n h => nomatch h⟩
    | cons x l ih =>
      intro a
      obtain ⟨h1, h2⟩ := ih (max a x)
      refine ⟨Nat.le_trans (Nat.le_max_left a x) h1, fun n hn => ?_⟩
      obtain rfl | hn := List.mem_cons.mp hn
      · exact Nat.le_trans (Nat.le_max_right a n) h1
      · exact h2 n hn
  exact (hacc l 0).2 n h

/-- After a SYNC the next issue is later than every earlier operation. -/
theorem MCell.noteSeq_after (m : MCell) (o : MOp) (ho : o ∈ m.ops) : o.done < (m.noteSeq true).issue := by
  have h : o.done + 1 ≤ m.after (fun _ => true) := le_maxN (List.mem_map.mpr ⟨o, List.mem_filter.mpr ⟨ho, rfl⟩, rfl⟩)
  exact Nat.lt_of_lt_of_le h (Nat.le_trans (Nat.le_max_right m.issue _) (Nat.le_succ _))

/-! ### Accumulator words -/

/-- Words put at consecutive keys. -/
theorem get0_foldl_put0 (base : Nat) (f : Nat → Nat) (n : Nat) (t : Sys2Proof.Tab Nat) (k : Nat) :
    get0 (((List.range n).map (fun j => (base + j, f j))).foldl (fun (a : Sys2Proof.Tab Nat) x => put0 a x.1 x.2) t) k =
      if base ≤ k ∧ k < base + n then f (k - base) else get0 t k := by
  induction n with
  | zero =>
    rw [if_neg (by omega)]
    rfl
  | succ n ih =>
    rw [List.range_succ, List.map_append, List.foldl_append, List.map_singleton, List.foldl_cons, List.foldl_nil, get0_put0, ih]
    by_cases h : k = base + n
    · rw [if_pos h, if_pos (by omega), h, Nat.add_sub_cancel_left]
    · rw [if_neg h]
      by_cases h2 : base ≤ k ∧ k < base + n
      · rw [if_pos h2, if_pos (by omega)]
      · rw [if_neg h2, if_neg (by omega)]

/-- The entries a test of the key keeps. -/
theorem get0_filter (t : Sys2Proof.Tab Nat) (p : Nat → Bool) (k : Nat) : get0 (t.filter (fun x => p x.1)) k = if p k then get0 t k else 0 := by
  have hfind : Tab.find (t.filter (fun x => p x.1)) k = if p k then Tab.find t k else none := by
    induction t with
    | nil => cases p k <;> rfl
    | cons x t ih =>
      obtain ⟨k', v⟩ := x
      by_cases hk : k = k'
      · subst hk
        cases hp : p k
        · simpa [hp] using ih
        · simp [hp]
      · cases hp : p k' <;> simp [hp, hk, ih]
  unfold get0 Tab.getD
  rw [hfind]
  cases p k <;> rfl

/-- A word of one tile is not a word of another. -/
theorem tile_word {tile acc i n : Nat} (hi : i < 64) (hn : n < 64) : (acc * 4096 ≤ tile * 4096 + i * 64 + n ∧ tile * 4096 + i * 64 + n < acc * 4096 + 4096) ↔ tile = acc := by
  omega

theorem tile_div {tile i n : Nat} (hi : i < 64) (hn : n < 64) : (tile * 4096 + i * 64 + n) / 4096 = tile := by omega

theorem foldl_map_congr {α β γ : Type} (l : List α) (f g : α → β) (op : γ → β → γ) (z : γ) (h : ∀ a, f a = g a) : (l.map f).foldl op z = (l.map g).foldl op z := by
  rw [List.map_congr_left fun a _ => h a]

/-- The words of an array operation: the new ones where its row group has an operand, the old ones elsewhere. -/
def MCell.newWord (m : MCell) (d : MDesc) (order : Nat) (sel : Nat → Option BPlace) (j : Nat) : Nat :=
  match sel (j / 64 / 16) with
  | some pl => m.outElem d pl (order * 4096 + j) (m.prior d (j / 64) (j % 64)) (j / 64) (j % 64)
  | none => get0 m.acc (d.acc * 4096 + j)

theorem MCell.array_acc (m : MCell) (d : MDesc) (order : Nat) (sel : Nat → Option BPlace) :
    (m.array d order sel).acc = ((List.range 4096).map (fun j => (d.acc * 4096 + j, m.newWord d order sel j))).foldl (fun (a : Sys2Proof.Tab Nat) x => put0 a x.1 x.2) m.acc := by
  unfold MCell.array
  generalize List.range 4096 = l
  refine foldl_map_congr l _ _ _ _ fun j => ?_
  unfold MCell.newWord
  dsimp only
  cases sel (j / 64 / 16) <;> rfl

theorem MCell.array_contains (m : MCell) (d : MDesc) (order : Nat) (sel : Nat → Option BPlace) : (m.array d order sel).intTiles.contains d.acc = d.intAcc := by
  unfold MCell.array
  cases d.intAcc
  · simp
  · cases h : m.intTiles.contains d.acc
    · simp only [if_true, Bool.false_eq_true, if_false]
      simp
    · simp only [if_true, h]

/-- Noting an operation and moving on changes the operations, the issue cycle and the sequencer's place alone. -/
theorem MCell.noteLoad_advance (m : MCell) (adds : List Nat) (tile half : Option Nat) (isB : Bool) (waits : MOp → Bool) :
    ∃ issue ops, (m.noteLoad adds tile half isB waits).advance = { m with pc := m.advance.pc, rep := m.advance.rep, issue := issue, ops := ops } :=
  ⟨_, _, MCell.advance_of m _ rfl rfl⟩

/-- A load that issues has begun. -/
theorem loadBegun_of (s : State) (c : Nat) (v : MEnv) (adds : List Nat) (tile half : Option Nat) (isB : Bool) (waits : MOp → Bool) (l : MLoad) :
    Spec.LoadBegun s (s.beginLoad c v.x.part (v.m.noteLoad adds tile half isB waits).advance l) c v l := by
  obtain ⟨issue, ops, h⟩ := v.m.noteLoad_advance adds tile half isB waits
  rw [h]
  refine ⟨{ v.m with pc := v.m.advance.pc, rep := v.m.advance.rep, issue := issue, ops := ops }, rfl, fun hnil => ?_, fun hne => ?_⟩
  · simp only [State.beginLoad, hnil, List.isEmpty_nil, if_true]
  · simp only [State.beginLoad, List.isEmpty_iff, if_neg hne]

theorem accWord_of_acc {x y : MCell} (h : y.acc = x.acc) (tile i n : Nat) : Spec.accWord y tile i n = Spec.accWord x tile i n := by
  rw [Spec.accWord, Spec.accWord, h]

/-- A word of the operation's tile: the new one where its row group has an operand. -/
theorem MCell.array_word_same (m : MCell) (d : MDesc) (order : Nat) (sel : Nat → Option BPlace) {i n : Nat} (hi : i < 64) (hn : n < 64) :
    Spec.accWord (m.array d order sel) d.acc i n = match sel (i / 16) with
      | some pl => m.outElem d pl (order * 4096 + i * 64 + n) (m.prior d i n) i n
      | none => Spec.accWord m d.acc i n := by
  have hdiv : (i * 64 + n) / 64 = i := by omega
  have hmod : (i * 64 + n) % 64 = n := by omega
  have hkey : d.acc * 4096 + i * 64 + n - d.acc * 4096 = i * 64 + n := by omega
  rw [Spec.accWord, MCell.array_acc, get0_foldl_put0, if_pos ((tile_word hi hn).mpr rfl), hkey]
  unfold MCell.newWord
  rw [hdiv, hmod, ← Nat.add_assoc, ← Nat.add_assoc]
  cases sel (i / 16) <;> rfl

theorem MCell.array_word_other (m : MCell) (d : MDesc) (order : Nat) (sel : Nat → Option BPlace) {tile i n : Nat} (hne : tile ≠ d.acc) (hi : i < 64) (hn : n < 64) :
    Spec.accWord (m.array d order sel) tile i n = Spec.accWord m tile i n := by
  rw [Spec.accWord, MCell.array_acc, get0_foldl_put0, if_neg (fun h => hne ((tile_word hi hn).mp h)), Spec.accWord]

theorem MCell.array_eq (m : MCell) (d : MDesc) (order : Nat) (sel : Nat → Option BPlace) :
    m.array d order sel = { m with acc := (m.array d order sel).acc, intTiles := (m.array d order sel).intTiles } := by
  unfold MCell.array
  generalize List.range 4096 = l
  rfl

/-- Noting an array operation and moving on keeps the accumulators. -/
theorem MCell.noteArray_advance (m m' : MCell) (mid tile half : Nat) (h : m' = { m with acc := m'.acc, intTiles := m'.intTiles }) :
    ∃ issue ops, (m'.noteArray mid tile half).advance = { m with acc := m'.acc, intTiles := m'.intTiles, pc := m.advance.pc, rep := m.advance.rep, issue := issue, ops := ops } := by
  generalize m'.acc = acc at h
  generalize m'.intTiles = int at h
  subst h
  exact ⟨_, _, MCell.advance_of m _ rfl rfl⟩

/-- An array operation that issues is done, whatever is noted of its cycles. -/
theorem arrayDone_of (s : State) (c : Nat) (v : MEnv) (sel : Nat → Option BPlace) (mid tile half : Nat) :
    Spec.ArrayDone s ({ s with free := s.free + 1 }.setM c ((v.m.array v.d s.free sel).noteArray mid tile half).advance) c v sel := by
  have hsame := fun i n hi hn => v.m.array_word_same v.d s.free sel (i := i) (n := n) hi hn
  have hother := fun tile i n hne hi hn => v.m.array_word_other v.d s.free sel (tile := tile) (i := i) (n := n) hne hi hn
  have hint := v.m.array_contains v.d s.free sel
  obtain ⟨issue, ops, hadv⟩ := MCell.noteArray_advance v.m (v.m.array v.d s.free sel) mid tile half (v.m.array_eq v.d s.free sel)
  generalize v.m.array v.d s.free sel = m1 at hsame hother hint hadv ⊢
  rw [hadv]
  exact ⟨_, rfl, rfl, fun i n hi hn => (accWord_of_acc rfl _ _ _).trans (hsame i n hi hn), fun tile i n hne hi hn => (accWord_of_acc rfl _ _ _).trans (hother tile i n hne hi hn), hint⟩

/-- A word of 32 bits read as signed and back. -/
theorem wrapI_sgn (x : Nat) (h : x < 2 ^ 32) : wrapI 32 (sgn 32 x + 0) = x := by
  unfold wrapI sgn
  split <;> omega

/-- With no group of steps an element keeps its prior value, or becomes zero. -/
theorem MCell.outElem_nil (m : MCell) (d : MDesc) (pl : BPlace) (order prior i n : Nat) (hg : m.groups d = []) (hp : prior < 2 ^ 32) :
    m.outElem d pl order prior i n = if d.accum = true then prior else 0 := by
  unfold MCell.outElem
  rw [hg]
  cases d.intAcc
  · rfl
  · have h : (if d.accum = true then prior else 0) < 2 ^ 32 := by split <;> omega
    exact wrapI_sgn _ h

end Sys2Proof.Machine

open Sys2Proof Sys2Proof.Machine Sys2Proof.Spec

/-- Settles O28: what the sequencer notes changes neither what an operation reads nor what it writes. -/
theorem matrixCommands : Obligations.MatrixCommands := by
  refine ⟨fun c s v hv hp => ⟨_, ?lda, loadBegun_of _ _ _ ?adds ?ltile ?lhalf ?isB ?waits _⟩, fun c s v ps hv hp hps => ⟨_, ?ldb, loadBegun_of _ _ _ ?adds' ?ltile' ?lhalf' ?isB' ?waits' _⟩,
    fun c s v b hv hb => ?accld, fun c s v b el sc mp hv hb hel hsc hsc0 hmp hmp0 => ?accst,
    fun c s v hv => ⟨_, ?mma, arrayDone_of _ _ _ _ ?mid ?tile ?half⟩, fun c s v hv => ⟨_, ?mmaeg, arrayDone_of _ _ _ _ ?mid' ?tile' ?half'⟩, fun m d pl order prior i n hint => ?intElem,
    fun m d pl order prior i n hg hp => MCell.outElem_nil m d pl order prior i n hg hp, fun c s v hv => ?accz, fun c s v w hv hw hbad => ?emit, fun c s v k hv hbad => ?emitBad,
    fun c s v hv => ?rep, fun c s v hv => ?sync, fun c s v hv => ?endd, fun m hrep => ?advance, fun m r hrep hlast hpass => ?advanceRep⟩
  case lda =>
    simp only [exec_mLda, execMLda, hv, hp, Bool.false_eq_true, if_false]
    rfl
  case ldb =>
    simp only [exec_mLdb, execMLdb, hv, ← hps, hp, Bool.false_eq_true, if_false]
    rfl
  case accld =>
    have hw : s.whereAbs v.x.part v.d.addr = .at' (sliceKey b (mOff v.d.addr)) := by simp only [State.whereAbs, hb]
    have hbad : partsBad ((s.whereAbs v.x.part v.d.addr, { addr := 0, pitch := v.d.pitch, bit0 := 0, bits := 2048, width := 2048, rowsF := 64, rows := 64, dst := 0, dstPitch := 256 }), none, none) = false := by
      rw [hw]
      rfl
    refine ⟨_, loadOf none (some v.d.acc) (v.d.fmtA == 0x0A)
      ((s.whereAbs v.x.part v.d.addr, { addr := 0, pitch := v.d.pitch, bit0 := 0, bits := 2048, width := 2048, rowsF := 64, rows := 64, dst := 0, dstPitch := 256 }), none, none),
      ?hacc, loadBegun_of _ _ _ ?addsc ?ltilec ?lhalfc ?isBc ?waitsc _, rfl, rfl, rfl, ?_⟩
    case hacc =>
      simp only [exec_mAccld, execMAccld, hv, hbad, Bool.false_eq_true, if_false]
      rfl
    simp only [loadOf, MPart.arr, hw, Nat.zero_add]
  case accst =>
    have hwEl : s.whereAbs v.x.part v.d.addr = .at' el := by simp only [State.whereAbs, hb, hel]
    have hwSc : (if v.d.scaleA then s.whereAbs v.x.part v.d.addr2 else .at' 0) = .at' sc := by
      cases hs : v.d.scaleA
      · rw [hsc0 hs]
        rfl
      · obtain ⟨b2, hb2, rfl⟩ := hsc hs
        simp only [State.whereAbs, hb2, if_true]
    have hwMp : (if v.d.zmap then s.whereAbs v.x.part v.d.addr3 else .at' 0) = .at' mp := by
      cases hz : v.d.zmap
      · rw [hmp0 hz]
        rfl
      · obtain ⟨b3, hb3, rfl⟩ := hmp hz
        simp only [State.whereAbs, hb3, if_true]
    refine ⟨?mst, ?hst, ?rst⟩
    case hst =>
      simp only [exec_mAccst, execMAccst, hv, if_true, hwEl, hwSc, hwMp]
      rw [MCell.advance_of v.m]
      · rfl
      · rfl
    rfl
  case mma =>
    simp only [exec_mMma, execMMma, hv]
    rfl
  case mmaeg =>
    simp only [exec_mMmaeg, execMMmaeg, hv]
    rfl
  case intElem =>
    unfold MCell.outElem
    rw [if_pos hint, List.map_map]
    rfl
  case accz =>
    refine ⟨?mz, ?hz, ?rz⟩
    case hz =>
      simp only [exec_mAccz, execMAccz, hv]
      rw [MCell.advance_of v.m]
      · rfl
      · rfl
    refine ⟨rfl, fun tile i n hi hn => ?_, ?_⟩
    · refine (get0_filter v.m.acc (fun k => k / 4096 != v.d.acc) _).trans ?_
      rw [tile_div hi hn]
      by_cases h : tile = v.d.acc
      · simp [h]
      · simp [h, accWord]
    · simp [MCell.noteStore]
  case emit =>
    refine ⟨?me, ?hem, ?rem⟩
    case hem =>
      simp only [exec_mEmit, execMEmit, hv, State.addEmit, ← hw, hbad]
      rw [MCell.advance_of v.m]
      · rfl
      · rfl
    rfl
  case emitBad =>
    refine ⟨?meb, ?hemb, ?remb⟩
    case hemb =>
      simp only [exec_mEmit, execMEmit, hv, State.addEmit, hbad]
      rw [MCell.advance_of v.m]
      · rfl
      · rfl
    rfl
  case rep =>
    refine ⟨?mr, ?hmr, ?rmr⟩
    case hmr =>
      simp only [exec_mRepeat, execMRepeat, hv]
      rfl
    rfl
  case sync =>
    refine ⟨?ms, ?hs, ?rs⟩
    case hs =>
      simp only [exec_mSync, execMSync, hv]
      rw [MCell.advance_of v.m]
      · rfl
      · rfl
    exact ⟨rfl, fun o ho => MCell.noteSeq_after v.m o ho⟩
  case endd =>
    obtain ⟨he, hrun⟩ := State.mReady_env hv
    rw [← he] at hrun
    obtain ⟨hx, hst⟩ := State.engine_of_running hrun
    refine ⟨v.m.noteSeq true, ?_, rfl, State.engine?_endStart hx hst⟩
    simp only [exec_mEnd, execMEnd, hv]
  case advance => simp only [MCell.advance, hrep]
  case advanceRep => simp only [MCell.advance, hrep, if_pos hlast, if_pos hpass]

end

section
/-! Windows: opening, closing, routing (R268-R271). -/

namespace Sys2Proof.Machine

/-! ### The instructions of this file -/

theorem exec_windowClosed {id} {s : State} : exec (.windowClosed id) s = execWindowClosed id s := rfl

open Sys2Proof.Spec

theorem State.livePart_of {s : State} {p : Nat} {x : Partition} (hx : s.part? p = some x) (hlive : x.destroying = none) : s.livePart p = true := by
  unfold State.part? at hx
  simp [State.livePart, hx, hlive]

section
variable {s : State} {id : Nat} {x : Window} {ring : Option Nat} {ref : Option MsgRef}

/-- A window that no entry holds opens at once. -/
theorem State.windowOpen_new {w : WinDef} (h : Tab.find s.xlt.windows id = none) :
    s.windowOpen id w ring ref = (s.setWindow id (openWindow w), some (.ok 0)) := by
  simp only [State.windowOpen, h]

/-- A window that is open, or that drains, is replaced after its drain. -/
theorem State.windowOpen_replaces {w : WinDef} (h : Tab.find s.xlt.windows id = some x) (hbusy : x.valid = true ∨ x.waits ≠ []) :
    s.windowOpen id w ring ref = (s.drainWindow id x { ring := ring, ref := ref, repl := some w }, none) := by
  have hb : (x.valid || !x.waits.isEmpty) = true := by simpa using hbusy
  simp only [State.windowOpen, h, hb, if_true]

/-- The fabric manager closes any window. -/
theorem State.windowClose_any (hid : id ≤ 4095) (h : Tab.find s.xlt.windows id = some x) :
    s.windowClose id none ring ref = (s.drainWindow id x { ring := ring, ref := ref, repl := none }, none) := by
  simp [State.windowClose, h, Nat.not_lt.mpr hid]

/-- A partition closes its own host window. -/
theorem State.windowClose_own {p : Nat} (hid : id ≤ 4095) (h : Tab.find s.xlt.windows id = some x) (hp : x.cfg.part = p) (hsrc : x.cfg.srcNode = 0xFFFF) :
    s.windowClose id (some p) ring ref = (s.drainWindow id x { ring := ring, ref := ref, repl := none }, none) := by
  simp [State.windowClose, h, Nat.not_lt.mpr hid, hp, hsrc]

end

end Sys2Proof.Machine

open Sys2Proof Sys2Proof.Machine Sys2Proof.Spec

/-- Settles O32: an entry that is free opens at once; one in use waits for its drain, which answers what has waited longest. -/
theorem windowCommands : Obligations.WindowCommands := by
  refine ⟨fun q r e s hr hrsvd hsrc hok => ⟨fun hnew => ?opens, fun x hx hbusy => ?replaces⟩, fun q r e x s hr hrsvd hid hx hpart hsrc => ?closes,
    fun m r s hm hrsvd hok hnew => ?opensMsg, fun m r x s hm hrsvd hid hx => ?closesMsg, fun id x w l q s hx hw hfly href hring => ?drained,
    fun id x m s hx hw hfly => ?drainedMsg, fun id x s hx hfly => ?flying, fun m r x s hm hx hlive hrsvd hpart60 hpart0 hport => ?routes,
    fun m r s hm hrsvd => ?keys⟩
  case opens =>
    refine congrArg _ (runCmd_ready hr ?_)
    simp [windowOpenBody, bodyRsvd, hrsvd, hsrc, hok, State.windowOpen_new hnew]
  case replaces =>
    refine congrArg _ (runCmd_ready_later hr ?_)
    simp only [windowOpenBody, bodyRsvd, hrsvd, hsrc, hok, State.windowOpen_replaces hx hbusy, ready_ring hr]
    rfl
  case closes =>
    refine congrArg _ (runCmd_ready_later hr ?_)
    simp only [windowCloseBody, hrsvd, State.windowClose_own hid hx hpart hsrc, ready_ring hr]
    rfl
  case opensMsg =>
    refine congrArg _ (runMsg_served_ok hm ?_)
    simp [bodyRsvd, hrsvd, hok, State.windowOpen_new hnew]
  case closesMsg =>
    refine congrArg _ (runMsg_served_later hm ?_)
    simp only [hrsvd, State.windowClose_any hid hx]
    rfl
  case drained =>
    refine ⟨fun hl => ?more, fun hl hnone => ?gone, fun d hl hd => ?next⟩
    case more => simp [exec_windowClosed, execWindowClosed, hx, hw, hfly, href, hring, hl]
    case gone => simp [exec_windowClosed, execWindowClosed, hx, hw, hfly, href, hring, hl, hnone]
    case next => simp [exec_windowClosed, execWindowClosed, hx, hw, hfly, href, hring, hl, hd]
  case drainedMsg => simp [exec_windowClosed, execWindowClosed, hx, hw, hfly]
  case flying =>
    cases hw : x.waits <;> simp [exec_windowClosed, execWindowClosed, hx, hw, hfly]
  case routes =>
    refine congrArg _ (runMsg_served_ok hm ?_)
    have hlivep : s.livePart (fldB r.toNat 0 1) = true := State.livePart_of hx hlive
    by_cases hv : bit r.toNat 11 7 = true
    · obtain ⟨hp11, hpres, hshare⟩ := hport hv
      simp [windowRouteBody, bodyRsvd, hrsvd, hlivep, hx, hv, hpart0 hv, Nat.not_lt.mpr hpart60, Nat.not_lt.mpr hp11, hpres, hshare, okM]
    · simp [windowRouteBody, bodyRsvd, hrsvd, hlivep, hx, hv, Nat.not_lt.mpr hpart60, okM]
  case keys =>
    refine congrArg _ (runMsg_served_ok hm ?_)
    simp only [bodyRsvd, hrsvd]
    rfl

end

section
/-! Ageing (R528-R535), and the companion of a partition (R302, R304, R438-R440). -/

namespace Sys2Proof.Machine

/-! ### The instructions of this file -/

theorem exec_marginPlanDue {b} {s : State} : exec (.marginPlanDue b) s = execMarginPlanDue b s := rfl
theorem exec_ringOscillatorRead {b khz} {s : State} : exec (.ringOscillatorRead b khz) s = execRingOscillatorRead b khz s := rfl
theorem exec_idleWindowFound {b} {s : State} : exec (.idleWindowFound b) s = execIdleWindowFound b s := rfl
theorem exec_quietWindowDone {b m khz} {s : State} : exec (.quietWindowDone b m khz) s = execQuietWindowDone b m khz s := rfl
theorem exec_quietWaitExpire {b} {s : State} : exec (.quietWaitExpire b) s = execQuietWaitExpire b s := rfl
theorem exec_quiesceTime {b} {s : State} : exec (.quiesceTime b) s = execQuiesceTime b s := rfl
theorem exec_wearRecordWrite {s : State} : exec .wearRecordWrite s = execWearRecordWrite s := rfl
theorem exec_mirrorEntryAck {slot gen kind index ok} {s : State} : exec (.mirrorEntryAck slot gen kind index ok) s = execMirrorEntryAck slot gen kind index ok s := rfl

open Sys2Proof.Spec

section
variable {s : State} {b : Nat}

theorem State.fallDue_new (h : (s.island b).due = none) : s.fallDue b = s.setIsland b { s.island b with due := some s.now } := by
  simp only [State.fallDue, h]
  rfl

end

/-- A raw offset is the difference between what is needed and the curve, rounded up to a step of 5 mV. -/
theorem rawOffset_bounds (needs : List Nat) (guard k : Nat) :
    needAt needs k + 12 * guard ≤ 7200 + 125 * k + 12 * rawOffset needs guard k ∧
    7200 + 125 * k + 12 * rawOffset needs guard k < needAt needs k + 12 * guard + 60 := by
  unfold rawOffset
  generalize needAt needs k = need
  omega

theorem planOffsets_le {needs : List Nat} {guard : Nat} {o : Int} (ho : o ∈ planOffsets needs guard) : o ≤ 100 := by
  obtain ⟨k, -, rfl⟩ := List.mem_map.mp ho
  exact Int.min_le_left _ _

theorem State.part?_updPart_same {s : State} {p : Nat} {x : Partition} (f : Partition → Partition) (hx : s.part? p = some x) :
    (s.updPart p f).part? p = some (f x) := by
  unfold State.part? at hx
  simp [State.part?, State.updPart, Tab.upd, hx]

end Sys2Proof.Machine

open Sys2Proof Sys2Proof.Machine Sys2Proof.Spec

/-- Settles O60: an island falls due once; its quiet window begins when it is idle, or at the announced time; offsets round up. -/
theorem ageing : Obligations.Ageing := by
  refine ⟨fun m s hm => ?horizon, fun b s hb hh hdue => ?planned, fun b khz s hb hk hdue => ?slow, fun b khz s hk => ?fast,
    fun b s hb hdue hq hbound hidle => ?bound, fun b s hb hdue hq hbound hwipe hmoves => ?unbound, fun b m khz s hq => ?done,
    fun b t p name s hdue hbound hq hat hdr ht => ?expired, fun b t p name s hbound hmoves hdr hat ht => ?quiesce, fun s h => ?record,
    fun s hp hh => ?noRecord, fun needs guard k => ⟨(rawOffset_bounds needs guard k).1, (rawOffset_bounds needs guard k).2, by simp [planOffsets], fun o => planOffsets_le⟩⟩
  case horizon => exact congrArg Host.Outcome.next ((runPlain_answers hm (t := s) (a := .ok s.horizon) rfl).trans (State.served_zero _ _))
  case planned => simp only [exec_marginPlanDue, execMarginPlanDue, if_pos (And.intro hb hh), State.fallDue_new hdue]
  case slow => simp only [exec_ringOscillatorRead, execRingOscillatorRead, if_pos (And.intro hb hk), State.fallDue_new hdue]
  case fast => simp only [exec_ringOscillatorRead, execRingOscillatorRead, Nat.not_le.mpr hk, and_false, if_false]
  case bound =>
    have hwait : ¬ (60 ≤ b ∨ (s.island b).due.isNone = true ∨ (s.island b).quiet.isSome = true) := by simp [hq, hdue, hb]
    simp only [exec_idleWindowFound, execIdleWindowFound, if_neg hwait, Option.isSome_iff_ne_none.mpr hbound, hidle, if_true]
  case unbound =>
    have hwait : ¬ (60 ≤ b ∨ (s.island b).due.isNone = true ∨ (s.island b).quiet.isSome = true) := by simp [hq, hdue, hb]
    have hstill : ¬ ((s.block b).wipe.isSome = true ∨ s.part.moves.any (fun v => v.src == b) = true) := by simpa [hwipe] using hmoves
    simp only [exec_idleWindowFound, execIdleWindowFound, if_neg hwait, hbound, if_neg hstill]
    rfl
  case done => simp only [exec_quietWindowDone, execQuietWindowDone, Option.isSome_iff_ne_none.mpr hq, if_true]
  case expired => simp [exec_quietWaitExpire, execQuietWaitExpire, hdue, hbound, hq, hat, hdr, Nat.not_lt.mpr ht]
  case quiesce => 
    simp only [exec_quiesceTime, execQuiesceTime, hbound, hmoves, hdr, hat, if_neg (Nat.not_lt.mpr ht), List.any_nil, Bool.false_eq_true, if_false]
    split <;> rfl
  case record =>
    have hdue : (s.age.planned || decide (s.age.wroteH < s.now / 3600000000)) = true := by simpa using h
    simp only [exec_wearRecordWrite, execWearRecordWrite, hdue, if_true]
  case noRecord =>
    have hdue : (s.age.planned || decide (s.age.wroteH < s.now / 3600000000)) = false := by simpa [hp] using hh
    simp only [exec_wearRecordWrite, execWearRecordWrite, hdue, Bool.false_eq_true, if_false]

/-- Settles O48: with no open session the new companion is sent nothing; a holding takes entries while they fit. -/
theorem companions : Obligations.Companions := by
  refine ⟨fun m r p n x s hp hn hm hrsvd hx hlive hses hnode => ?named, fun slot x kind index s hx => ?acked, fun slot x kind index s hx => ?full,
    fun m r x s hm hrsvd hx hlive => ⟨fun hmap => ?accepted, fun hmap => ?inUse⟩,
    fun m node part body h x y z s hm hh hrsvd hz => ⟨fun hfit hy => ?entered, fun hfull => ?noStripes⟩, fun m r x z s hm hrsvd hx hnode hpart hz hlive hplans => ?takeover⟩
  case named =>
    subst hp hn
    have hbody : ∃ t, companionSetBody r.toNat s = (t, some (.ok 0)) ∧ t.part? (fldB r.toNat 0 1) = some { x with companion := fldB r.toNat 2 2 } ∧
        t = { s with part := { s.part with parts := t.part.parts }, ses := { s.ses with sessions := t.ses.sessions } } := by
      have hpart := State.part?_updPart_same (fun y => { y with companion := fldB r.toNat 2 2 }) hx
      simp only [companionSetBody, hrsvd, State.livePart_of hx hlive, beq_eq_false_iff_ne.mpr hnode, hses, List.filter_nil, List.foldl_nil, Bool.false_and, Bool.not_true, Bool.false_eq_true, if_false]
      split
      · exact ⟨_, rfl, hpart, rfl⟩
      · split <;> exact ⟨_, rfl, hpart, by simp [State.updPart]⟩
    obtain ⟨t, hb, hpart, ht⟩ := hbody
    exact ⟨t, congrArg _ (runMsg_served_ok hm hb), hpart, ht⟩
  case acked => simp [exec_mirrorEntryAck, execMirrorEntryAck, hx]
  case full => simp [exec_mirrorEntryAck, execMirrorEntryAck, hx]
  case accepted =>
    refine congrArg _ (runPlain_answers hm ?_)
    simp [mirrorAcceptBody, hrsvd, hx, hlive, hmap, okM]
  case inUse =>
    refine congrArg _ (runPlain_answers hm ?_)
    simp [mirrorAcceptBody, hrsvd, hx, hlive, hmap, refuseM]
  case entered =>
    refine congrArg _ (runPlain_answers hm ?_)
    simp [mirrorEntryBody, hh, hrsvd, hz, Nat.not_lt.mpr hfit, hy, okM]
  case noStripes =>
    refine congrArg _ (runPlain_answers hm ?_)
    simp [mirrorEntryBody, hh, hrsvd, hz, hfull, refuseM]
  case takeover =>
    have hany : x.mirrors.any (fun e => (s.plan? (planKey (fldB r.toNat 1 1) (fld e.2.record 0 3 0))).isNone) = false := by
      simpa [Option.isSome_iff_ne_none] using hplans
    refine congrArg _ (runPlain_answers hm ?_)
    simp [companionTakeoverBody, hrsvd, hx, hnode, hpart, State.livePart_of hz hlive, hany, okM]

end

section
/-! Reckonings (R470-R488), and the leases of requests (R358-R363). -/

namespace Sys2Proof.Machine

/-! ### The instructions of this file -/

theorem exec_liveReadings {s : State} : exec .liveReadings s = execLiveReadings s := rfl

/-! ### The instructions of this file -/

theorem exec_reconciliationWindow {charges} {s : State} : exec (.reconciliationWindow charges) s = execReconciliationWindow charges s := rfl
theorem exec_reckoningIdleClose {p req} {s : State} : exec (.reckoningIdleClose p req) s = execReckoningIdleClose p req s := rfl
theorem exec_reckoningEpochClose {s : State} : exec .reckoningEpochClose s = execReckoningEpochClose s := rfl
theorem exec_reckoningRootSigned {s : State} : exec .reckoningRootSigned s = execReckoningRootSigned s := rfl
theorem exec_reckoningBacklog {p} {s : State} : exec (.reckoningBacklog p) s = execReckoningBacklog p s := rfl
theorem exec_reckoningRingWrite {p} {s : State} : exec (.reckoningRingWrite p) s = execReckoningRingWrite p s := rfl
theorem exec_leaseGrantTimeout {p req} {s : State} : exec (.leaseGrantTimeout p req) s = execLeaseGrantTimeout p req s := rfl
theorem exec_leaseRenewTimer {p req} {s : State} : exec (.leaseRenewTimer p req) s = execLeaseRenewTimer p req s := rfl
theorem exec_leaseExpire {p req} {s : State} : exec (.leaseExpire p req) s = execLeaseExpire p req s := rfl
theorem exec_homeDeadlineReclaim {p req} {s : State} : exec (.homeDeadlineReclaim p req) s = execHomeDeadlineReclaim p req s := rfl

open Sys2Proof.Spec

/-! ## Closing a reckoning -/

theorem Tab.del_sublist {α : Type} (t : Sys2Proof.Tab α) (k : Nat) : (Tab.del t k).Sublist t := by
  induction t with
  | nil => exact List.Sublist.refl _
  | cons e l ih =>
    unfold Tab.del
    split
    · exact ih.cons _
    · exact ih.cons_cons _

section
variable {s : State} {p req flags : Nat} {a : Account}

/-- A reckoning that is open closes with the next sequence number. -/
theorem State.reckClose_open (h : Tab.find s.reck.accounts (acctKey p req) = some a) :
    s.reckClose p req flags = ((s.reckClose p req flags).1, some s.reck.nextSeq) := by
  simp only [State.reckClose, h]

/-- A reckoning that does not fill its epoch becomes the epoch's last leaf. -/
theorem State.reckClose_leaf (h : Tab.find s.reck.accounts (acctKey p req) = some a) (hroom : s.reck.leaves.length + s.reck.sealCount < 65535) :
    s.reckClose p req flags = ({ s with reck := { s.reck with accounts := Tab.del s.reck.accounts (acctKey p req), leaves := s.reck.leaves ++ [{ seq := s.reck.nextSeq, endUs := s.now, acct := { a with flags := a.flags ||| flags } }], nextSeq := s.reck.nextSeq + 1 } }, some s.reck.nextSeq) := by
  have hseal : ((Tab.del s.reck.accounts (acctKey p req)).filter (fun e => e.1 % 2 ^ 32 == 0 && e.1 != 0 && e.2.charged)).length ≤
      (s.reck.accounts.filter (fun e => e.1 % 2 ^ 32 == 0 && e.1 != 0 && e.2.charged)).length :=
    ((Tab.del_sublist _ _).filter _).length_le
  have hnot : ¬ 65536 ≤ (s.reck.leaves ++ [({ seq := s.reck.nextSeq, endUs := s.now, acct := { a with flags := a.flags ||| flags } } : Leaf)]).length + ReckUnit.sealCount { s.reck with accounts := Tab.del s.reck.accounts (acctKey p req) } := by
    simp only [ReckUnit.sealCount, List.length_append, List.length_singleton] at hroom ⊢
    omega
  simp only [State.reckClose, h]
  exact congrArg (fun t : State => (t, some s.reck.nextSeq)) (if_neg hnot)

end

/-! ## What waits for the reckoning rings -/

/-- The second state is the first after entries of the reckoning rings have been held or written. -/
def ReckWrites (s t : State) : Prop :=
  ∃ rings dram hostMem sent held, t = { s with host := { s.host with rings := rings }, dram := dram, reck := { s.reck with held := held }, hostMem := hostMem, sent := sent }

namespace ReckWrites

variable {s t u : State}

theorem refl (s : State) : ReckWrites s s := ⟨_, _, _, _, _, rfl⟩

theorem trans (h1 : ReckWrites s t) (h2 : ReckWrites t u) : ReckWrites s u := by
  obtain ⟨_, _, _, _, _, rfl⟩ := h1
  obtain ⟨_, _, _, _, _, rfl⟩ := h2
  exact ⟨_, _, _, _, _, rfl⟩

theorem foldl {α : Type} {f : State → α → State} (hf : ∀ t a, ReckWrites t (f t a)) (l : List α) (s : State) : ReckWrites s (l.foldl f s) := by
  induction l generalizing s with
  | nil => exact refl s
  | cons a l ih => exact (hf s a).trans (ih _)

theorem of_rings (h : RingsOnly s t) : ReckWrites s t := by
  obtain ⟨_, _, _, _, rfl⟩ := h
  exact ⟨_, _, _, _, _, rfl⟩

theorem holdItems (p : Nat) (l : List RingItem) : ReckWrites s (s.holdItems p l) := ⟨_, _, _, _, _, rfl⟩

theorem flushHeld (p n : Nat) : ReckWrites s (s.flushHeld p n) := by
  induction n generalizing s with
  | zero => exact refl s
  | succ n ih =>
    unfold State.flushHeld
    split
    · split
      · exact ((of_rings (.writeRing _ _ _)).trans ⟨_, _, _, _, _, rfl⟩).trans ih
      · exact refl s
    · exact refl s

theorem deliverHeld (p : Nat) : ReckWrites s (s.deliverHeld p) := flushHeld _ _

end ReckWrites

/-- Signing the oldest closed epoch. -/
theorem State.signRoot_eq {s : State} {e : Epoch} {l : List Epoch} (h : s.reck.unsigned = e :: l) :
    ∃ t : State, s.signRoot = t ∧ t = { s with host := t.host, dram := t.dram, reck := t.reck, hostMem := t.hostMem, sent := t.sent } ∧ t.reck.unsigned = l ∧
      t.reck.prevRoot = some (merkle 17 (e.leaves.map (fun l => leafHash (s.recordOf e.num l)))) := by
  refine ⟨_, rfl, ?_⟩
  unfold State.signRoot
  rw [h]
  dsimp only
  generalize hu : List.foldl _ s _ = u
  have hw : ReckWrites s u := hu ▸ ReckWrites.foldl (fun _ _ => (ReckWrites.holdItems _ _).trans (ReckWrites.deliverHeld _)) _ _
  obtain ⟨_, _, _, _, _, rfl⟩ := hw
  exact ⟨rfl, rfl, rfl⟩

/-- One held entry is written where the ring has room. -/
theorem State.flushHeld_one {s : State} {p q : Nat} {g : Ring} {x : RingItem} {l : List RingItem} (hring : s.reckRing p = some (q, g))
    (hheld : Tab.getD s.reck.held p [] = x :: l) (hroom : g.room = true) (hl : l ≠ []) :
    s.flushHeld p 1 = { s.writeRing q g (fun seq phase => plcB 0 4 seq ||| plc 4 7 7 phase ||| plcB 5 1 x.kind ||| plcB 6 2 x.part ||| plcB 8 8 x.epoch ||| x.payload <<< 128) with
      reck := { (s.writeRing q g (fun seq phase => plcB 0 4 seq ||| plc 4 7 7 phase ||| plcB 5 1 x.kind ||| plcB 6 2 x.part ||| plcB 8 8 x.epoch ||| x.payload <<< 128)).reck with
        held := Tab.put (s.writeRing q g (fun seq phase => plcB 0 4 seq ||| plc 4 7 7 phase ||| plcB 5 1 x.kind ||| plcB 6 2 x.part ||| plcB 8 8 x.epoch ||| x.payload <<< 128)).reck.held p l } } := by
  simp only [State.flushHeld, hring, hheld, hroom, List.isEmpty_eq_false_iff.mpr hl, if_true, Bool.false_eq_true, if_false]

end Sys2Proof.Machine

open Sys2Proof Sys2Proof.Machine Sys2Proof.Spec

/-- Settles O54: a reckoning closes into the open epoch's next leaf; a signed root delivers what its rings wait for. -/
theorem reckonings : Obligations.Reckonings := by
  refine ⟨fun l s h1000 h0 hwin => ?reconciles, fun l s hwin => ?reconciled, fun p req a s ha hreq hses hidle => ?idle, fun p req a s ha hses => ?session,
    fun s hst ht => ?epoch, fun s hst => ?doze, fun e l s he hclosed hturn => ?root, fun s hturn => ?noTurn, fun p x s hx => ⟨fun hst hn => ?stop, fun hst hn => ?resume⟩,
    fun p q g x l s hring hheld hroom hl => ?write, fun s h100 h0 => ?live, fun m s hm => ?clock, fun p req flags a s ha hroom => ?leaf⟩
  case reconciles =>
    simp only [exec_reconciliationWindow, execReconciliationWindow, if_neg (show ¬ (s.now % 1000 ≠ 0 ∨ s.now = 0 ∨ s.reck.lastWin = s.now) by simp [h1000, h0, hwin])]
  case reconciled => simp [exec_reconciliationWindow, execReconciliationWindow, hwin]
  case idle =>
    refine ⟨_, ?_, State.reckClose_open ha⟩
    simp only [exec_reckoningIdleClose, execReckoningIdleClose, ha, if_pos (And.intro hreq (And.intro hses hidle))]
  case session => simp [exec_reckoningIdleClose, execReckoningIdleClose, ha, hses]
  case epoch => simp [exec_reckoningEpochClose, execReckoningEpochClose, hst, ht]
  case doze => simp [exec_reckoningEpochClose, execReckoningEpochClose, hst]
  case root =>
    obtain ⟨t, rfl, ht⟩ := State.signRoot_eq he
    refine ⟨_, ?_, ht⟩
    simp [exec_reckoningRootSigned, execReckoningRootSigned, he, hclosed, hturn]
  case noTurn =>
    cases he : s.reck.unsigned <;> simp [exec_reckoningRootSigned, execReckoningRootSigned, he, hturn]
  case stop => simp [exec_reckoningBacklog, execReckoningBacklog, hx, hst, hn]
  case resume => simp [exec_reckoningBacklog, execReckoningBacklog, hx, hst, hn]
  case write =>
    refine ⟨_, ?_, rfl⟩
    simp only [exec_reckoningRingWrite, execReckoningRingWrite, State.flushHeld_one hring hheld hroom hl]
  case live =>
    refine ⟨_, ?_, rfl⟩
    simp only [exec_liveReadings, execLiveReadings, if_neg (show ¬ (s.now % 100000 ≠ 0 ∨ s.now = 0) by simp [h100, h0])]
  case clock => exact congrArg Host.Outcome.next ((runPlain_answers hm (t := s) (a := .ok s.now) rfl).trans (State.served_zero _ _))
  case leaf =>
    rw [State.reckClose_leaf ha hroom]
    refine ⟨_, rfl, rfl, rfl, ?_, fun k hk => ?_, rfl⟩
    · simp
    · simp [hk]

/-- Settles O49: leases and home records change hands with their generation; the work of a stale sender is counted. -/
theorem leases : Obligations.Leases := by
  refine ⟨fun m r p k slot x t s hp hk hm hrsvd ht hlive hreq => ⟨fun hown => ?notOwner, fun l hown hl => ?handoff⟩,
    fun m node r im p t l u z s hp hm hrsvd hz hlive hinc hwhole hlen him hplace => ?offer,
    fun m node r k l s hk hm hrsvd hl hhome => ⟨fun hgen => ?granted, fun hgen => ?staleGrant⟩,
    fun p req l t s hl hw ht => ?timeout, fun p req l s hl hhome hw hh ht => ?renews, fun p req l s hl hhome hw ht => ?expires,
    fun m node r l s hm hrsvd hl hhome => ?revoked, fun m node r p req k h s hp hreq hk hm hrsvd hh => ⟨fun hgen hown hother ht => ?accepted, fun hgen => ?staleAccept⟩,
    fun m node r k h s hk hm hrsvd hh hown hgen ht => ?renewed, fun m node body r p h slot x s hr hp hm hh hrsvd h1 h1004 hlen hown hgen hreq => ?notice,
    fun p req h s hh hother ht hses => ?reclaimed⟩
  case notOwner =>
    subst hp
    refine congrArg _ (runMsg_served_refused hm ?_)
    simp [requestHandoffBody, hrsvd, State.livePart_of ht hlive, hreq, hown, refuseM]
  case handoff =>
    subst hp hk
    refine congrArg _ (runMsg_served_ok hm ?_)
    simp [requestHandoffBody, hrsvd, State.livePart_of ht hlive, hreq, hown, Tab.getD, hl, okM, State.setLease]
  case offer =>
    subst hp
    refine congrArg _ (runMsg_served_ok hm ?_)
    simp [leaseOfferBody, hrsvd, State.livePart_of hz hlive, hinc, hwhole, hlen, him, hplace, okM]
  case granted =>
    subst hk
    refine congrArg _ (runMsg_served_ok hm ?_)
    simp [leaseGrantBody, hrsvd, hl, hhome, hgen, okM]
  case staleGrant =>
    subst hk
    refine congrArg _ (runMsg_served_refused hm ?_)
    simp [leaseGrantBody, hrsvd, hl, hhome, hgen, refuseM]
  case timeout => simp [exec_leaseGrantTimeout, execLeaseGrantTimeout, hl, hw, ht]
  case renews => simp [exec_leaseRenewTimer, execLeaseRenewTimer, hl, hhome, hw, hh, Nat.not_lt.mpr ht]
  case expires => simp [exec_leaseExpire, execLeaseExpire, hl, hhome, hw, ht]
  case revoked =>
    refine congrArg _ (runMsg_served_ok hm ?_)
    simp [leaseRevokedBody, hrsvd, hl, hhome, okM]
  case accepted =>
    subst hp hreq hk
    have htime : s.inTime h = true := by simp [State.inTime, ht]
    refine congrArg _ (runMsg_served_ok hm ?_)
    simp [leaseAcceptBody, hrsvd, hh, hgen, hown, htime, hother, okM, State.newDeadline]
  case staleAccept =>
    subst hp hreq hk
    refine congrArg _ (runMsg_served_refused hm ?_)
    simp [leaseAcceptBody, hrsvd, hh, hgen, staleLease]
  case renewed =>
    subst hk
    have htime : s.inTime h = true := by simp [State.inTime, ht]
    refine congrArg _ (runMsg_served_ok hm ?_)
    simp [leaseRenewBody, hrsvd, hh, hgen, hown, htime, okM, State.newDeadline]
  case notice =>
    subst hr hp
    refine congrArg _ (runMsg_served_ok hm ?_)
    simp [tokenNoticeBody, hh, hrsvd, Nat.ne_of_gt h1, Nat.not_lt.mpr h1004, Nat.not_lt.mpr hlen, hown, hgen, hreq, okM]
  case reclaimed =>
    have htime : s.inTime h = false := by simp [State.inTime, hother, ht]
    have hnone : ((s.setHome (acctKey p req) { owner := s.sys.nodeId, gen := (h.gen + 1) % 256, deadline := 0, ownerPart := p }).delLease (acctKey p req)).reqSession p req = none := by
      simp [State.reqSession, State.setHome, State.delLease, hses]
    simp [exec_homeDeadlineReclaim, execHomeDeadlineReclaim, hh, htime, hnone]

end

section
/-! Partitions, blocks and epochs (R337-R348), and the regulation of memory (R412-R419). -/

namespace Sys2Proof.Machine

/-! ### The instructions of this file -/

theorem exec_regulationSample {s : State} : exec .regulationSample s = execRegulationSample s := rfl
theorem exec_regulationWindow {s : State} : exec .regulationWindow s = execRegulationWindow s := rfl
theorem exec_blockReleased {block} {s : State} : exec (.blockReleased block) s = execBlockReleased block s := rfl
theorem exec_epochNotice {p block} {s : State} : exec (.epochNotice p block) s = execEpochNotice p block s := rfl
theorem exec_epochRetire {p} {s : State} : exec (.epochRetire p) s = execEpochRetire p s := rfl
theorem exec_partitionDestroyed {p} {s : State} : exec (.partitionDestroyed p) s = execPartitionDestroyed p s := rfl

open Sys2Proof.Spec

/-! ## The runs of a carve-out -/

theorem runStripes_cons (r : Nat × Nat) (l : List (Nat × Nat)) : runStripes (r :: l) = r.2 + runStripes l := by
  simp [runStripes, sumN_eq_sum]

/-- Runs take no more stripes than are asked for. -/
theorem runStripes_takeGaps (endDpa cur : Nat) (l : List (Nat × Nat)) (need : Nat) : runStripes (takeGaps endDpa cur l need) ≤ need := by
  induction l generalizing cur need with
  | nil =>
    unfold takeGaps
    dsimp only
    split
    · exact Nat.zero_le _
    · rw [runStripes_cons]
      exact Nat.min_le_left _ _
  | cons e l ih =>
    unfold takeGaps
    dsimp only
    have hn := Nat.min_le_left need ((e.1 - cur) / 32768)
    have hrest := ih (e.1 + e.2 * 32768) (need - min need ((e.1 - cur) / 32768))
    split
    · exact Nat.le_trans hrest (Nat.sub_le _ _)
    · rw [List.singleton_append, runStripes_cons]
      omega

/-- Each run holds a stripe at least. -/
theorem run_of_takeGaps (endDpa cur : Nat) (l : List (Nat × Nat)) (need : Nat) {r : Nat × Nat} (hr : r ∈ takeGaps endDpa cur l need) :
    1 ≤ r.2 ∧ r.2 ≤ need := by
  have hrun : ∀ {cur n : Nat}, r ∈ (if n = 0 then [] else [(cur, n)]) → r.2 = n ∧ n ≠ 0 := by
    intro cur n h
    split at h
    · cases h
    next hn => exact ⟨by rw [List.mem_singleton.mp h], hn⟩
  induction l generalizing cur need with
  | nil =>
    obtain ⟨hn, h0⟩ := hrun hr
    omega
  | cons e l ih =>
    rcases List.mem_append.mp hr with hr | hr
    · obtain ⟨hn, h0⟩ := hrun hr
      omega
    · obtain ⟨h1, hle⟩ := ih _ _ hr
      exact ⟨h1, Nat.le_trans hle (Nat.sub_le _ _)⟩

/-! ## A partition that exists -/

section
variable {s : State} {p : Nat} {x : Partition}

theorem State.phys_of (hx : s.part? p = some x) (name : Nat) : s.phys p name = Tab.find x.blockMap name := by
  unfold State.part? at hx
  simp only [State.phys, hx]

theorem State.epochOf_of (hx : s.part? p = some x) : s.epochOf p = x.epoch := by
  simp only [State.epochOf, hx]

theorem State.updPart_of (hx : s.part? p = some x) (f : Partition → Partition) : s.updPart p f = s.setPart p (f x) := by
  unfold State.part? at hx
  simp only [State.updPart, State.setPart, Tab.upd, hx]

theorem State.epochBacklog_of (hx : s.part? p = some x) (h : x.unretired.length < 16) : s.epochBacklog p = false := by
  simp only [State.epochBacklog, hx, decide_eq_false (Nat.not_le.mpr h)]

end

/-! ## Shares and steps -/

/-- A guarantee that n masters share leaves no more than one apart. -/
theorem otMinOf_le_succ (pmin n i j : Nat) : otMinOf pmin n i ≤ otMinOf pmin n j + 1 := by
  unfold otMinOf
  split <;> split <;> omega

theorem sum_bumped (q r m : Nat) : ((List.range m).map (fun i => q + if i < r then 1 else 0)).sum = m * q + min m r := by
  induction m with
  | zero => simp
  | succ m ih =>
    rw [List.range_succ, List.map_append, List.sum_append, ih, Nat.succ_mul]
    simp only [List.map_cons, List.map_nil, List.sum_cons, List.sum_nil]
    split <;> omega

/-- The masters' shares are the guarantee. -/
theorem sum_otMinOf (pmin : Nat) {n : Nat} (hn : 1 ≤ n) : sumN ((List.range n).map (otMinOf pmin n)) = pmin := by
  rw [sumN_eq_sum]
  refine (sum_bumped (pmin / n) (pmin % n) n).trans ?_
  rw [Nat.min_eq_right (Nat.le_of_lt (Nat.mod_lt _ hn)), Nat.div_add_mod]

theorem Tab.find_foldl_put {α : Type} (f : Nat → α) (l : List Nat) (t : Sys2Proof.Tab α) (k : Nat) :
    Tab.find (l.foldl (fun t g => Tab.put t g (f g)) t) k = if k ∈ l then some (f k) else Tab.find t k := by
  induction l generalizing t with
  | nil => simp
  | cons g l ih =>
    rw [List.foldl_cons, ih, Tab.find_put]
    by_cases hl : k ∈ l
    · simp [hl]
    · by_cases hg : k = g <;> simp [hl, hg]

end Sys2Proof.Machine

open Sys2Proof Sys2Proof.Machine Sys2Proof.Spec

/-- Settles O52: a sample and a window happen once in their time; shares add up by division with remainder. -/
theorem regulation : Obligations.Regulation := by
  refine ⟨fun s hnew => ?sample, fun s hold => ?sampled, fun s c h10 hnew hc => ?window, fun s hold => ?begun, fun pmin n => sum_otMinOf pmin,
    fun pmin n i j _ _ => otMinOf_le_succ pmin n i j⟩
  case sample =>
    simp only [exec_regulationSample, execRegulationSample, if_neg hnew]
    refine ⟨_, rfl, rfl, fun g hg => ?_, rfl, rfl⟩
    simp [Tab.getD, Tab.find_foldl_put, hg]
  case sampled => simp only [exec_regulationSample, execRegulationSample, if_pos hold]
  case window =>
    have hdue : ¬ (s.now % 10 ≠ 0 ∨ s.reg.begun = some s.now) := by simp [h10, hnew]
    simp only [exec_regulationWindow, execRegulationWindow, if_neg hdue, ← hc]
    exact ⟨_, _, rfl, rfl, rfl, rfl, rfl, rfl, rfl⟩
  case begun =>
    have hdue : s.now % 10 ≠ 0 ∨ s.reg.begun = some s.now := hold
    simp only [exec_regulationWindow, execRegulationWindow, if_pos hdue]

/-- Settles O43: the commands' checks in their order; a carve-out's runs by induction over the gaps. -/
theorem partitionsAndBlocks : Obligations.PartitionsAndBlocks := by
  refine ⟨fun m r p s hp hm h1 h60 hx hrsvd hreg hst hq1 hq hf1 hf hn hw20 hw hcomp hover hruns h250 => ?create,
    fun m r p b name x s hp hb hname hm hrsvd hx hlive h59 => ⟨fun hfree hnew => ?binds, fun hfree hused => ?nameInUse, fun hb60 => ?absent⟩,
    fun m r p name b x s hp hname hm hrsvd hx hmap hmv huse hrel hlast hunret => ?releases,
    fun b r l s hrel hwipe => ?released, fun p b n s hnamed => ?notice, fun p x e l s hx hunret hcount hrel => ?retires, fun p x e l s hx hunret hcount => ?waits,
    fun m r p x s hp hm hrsvd hx hlive hbusy hctx => ?destroys, fun p x m s hx hdes hmsg hwipes hheld => ?destroyed,
    runStripes_takeGaps, fun endDpa cur l need r hr => run_of_takeGaps endDpa cur l need hr⟩
  case create =>
    subst hp
    have hbody : ∃ t x, partitionCreateBody r.toNat s = (t, some (.ok (fld r.toNat 0 5 0))) ∧ t.part? (fld r.toNat 0 5 0) = some x ∧ x.stripes = fldB r.toNat 4 4 ∧ x.queues = fldB r.toNat 8 4 ∧ x.fences = fldB r.toNat 12 4 ∧ x.sessions = fldB r.toNat 16 4 ∧ x.powerW = fldB r.toNat 20 2 ∧ x.companion = 0xFFFF ∧
      x.coded = bit r.toNat 2 0 ∧ x.sealedShare = bit r.toNat 2 1 ∧ x.runs = s.allot (fld r.toNat 1 5 0) (fldB r.toNat 4 4) ∧ x.epoch = 0 ∧ x.blockMap = [] ∧ x.chShare = [] ∧ x.portShare = [] ∧ x.destroying = none ∧
      Tab.find t.dram.keys (fld r.toNat 0 5 0) = some { k0 := some s.dram.nextKey, k1 := some (s.dram.nextKey + 1), cur := 0 } ∧ t = { s with part := { s.part with parts := Tab.put s.part.parts (fld r.toNat 0 5 0) x }, dram := t.dram } := by
      unfold partitionCreateBody
      dsimp only
      rw [if_neg (by simp; omega), if_neg (by simp [hx]), if_neg (by simp [hrsvd]), if_neg (by simp [hreg, hcomp]; omega), if_neg (by simp [hover]), if_neg (by omega), if_neg (by omega)]
      refine ⟨_, _, rfl, ?_, rfl, rfl, rfl, rfl, rfl, hcomp, rfl, rfl, rfl, rfl, rfl, rfl, rfl, rfl, ?_, rfl⟩
      · simp [State.part?, State.setPart]
      · simp [State.clearRuns]
    obtain ⟨t, x, hb, ht⟩ := hbody
    exact ⟨t, x, congrArg _ (runMsg_served_ok hm hb), ht⟩
  case binds =>
    subst hp hb hname
    have hbody : ∃ t, blockBindBody r.toNat s = (t, some (.ok 0)) ∧
        t = { s with part := { s.part with parts := Tab.put s.part.parts (fldB r.toNat 0 1) { x with blockMap := Tab.put x.blockMap (fldB r.toNat 2 1) (fldB r.toNat 1 1) }, blockEpoch := Tab.put s.part.blockEpoch (fldB r.toNat 0 1 * 64 + fldB r.toNat 1 1) x.epoch }, fab := { s.fab with blocks := Tab.put s.fab.blocks (fldB r.toNat 1 1) { s.block (fldB r.toNat 1 1) with bound := some (fldB r.toNat 0 1, fldB r.toNat 2 1), powered := true, plannedMhz := s.planned (fldB r.toNat 0 1) (fldB r.toNat 1 1), mhz := min (s.planned (fldB r.toNat 0 1) (fldB r.toNat 1 1)) (t.ceiling (fldB r.toNat 1 1)), cycles := if (s.block (fldB r.toNat 1 1)).powered then (s.block (fldB r.toNat 1 1)).cycles else 0 } }, pow := (s.bindPower (fldB r.toNat 0 1) (fldB r.toNat 1 1)).pow } := by
      unfold blockBindBody
      dsimp only
      rw [if_neg (by simp [hrsvd]), if_neg (by simp [State.livePart_of hx hlive, h59]), hfree]
      dsimp only
      rw [if_neg (by simp [State.phys_of hx, hnew]), State.updPart_of hx]
      refine ⟨_, rfl, ?_⟩
      simp only [State.epochOf, State.part?, State.setPart, State.bindPower, State.setBlock, Tab.find_put, if_true]
      rfl
    obtain ⟨t, hb, ht⟩ := hbody
    exact ⟨t, _, _, congrArg _ (runMsg_served_ok hm hb), rfl, rfl, ht⟩
  case nameInUse =>
    subst hp hb hname
    refine congrArg _ (runMsg_served_refused hm ?_)
    simp [blockBindBody, hrsvd, State.livePart_of hx hlive, Nat.not_lt.mpr h59, hfree, State.phys_of hx, Option.isSome_iff_ne_none.mpr hused, refuseM]
  case absent =>
    subst hp hb hname
    refine congrArg _ (runMsg_served_refused hm ?_)
    simp [blockBindBody, hrsvd, State.livePart_of hx hlive, Nat.not_lt.mpr h59, State.blockNotFree, hb60]
  case releases =>
    subst hp hname
    refine congrArg _ (runMsg_served_later hm ?_)
    simp [blockReleaseBody, hrsvd, State.phys_of hx, hmap, hmv, huse, hrel, hlast, State.epochBacklog_of hx hunret, State.advanceEpoch]
  case released => simp [exec_blockReleased, execBlockReleased, hrel, hwipe]
  case notice => simp [exec_epochNotice, execEpochNotice, hnamed]
  case retires => simp [exec_epochRetire, execEpochRetire, hx, hunret, hcount, hrel, State.setPart]
  case waits => simp [exec_epochRetire, execEpochRetire, hx, hunret, hcount]
  case destroys =>
    subst hp
    refine congrArg _ (runMsg_served_later hm ?_)
    simp [partitionDestroyBody, hrsvd, State.livePart_of hx hlive, hx, hbusy, hctx]
  case destroyed =>
    simp only [exec_partitionDestroyed, execPartitionDestroyed, hx, hdes, hwipes, hheld, List.isEmpty_nil, Bool.not_true, Bool.and_false, Bool.or_false, Bool.false_eq_true, if_false, if_neg hmsg]
    rfl

end

section
/-! Flits and the slots of a port (R373-R377). -/

namespace Sys2Proof.Machine

/-! ### The instructions of this file -/

theorem exec_flitReceive {n flit unc} {s : State} : exec (.flitReceive n flit unc) s = execFlitReceive n flit unc s := rfl
theorem exec_flitNak {n} {s : State} : exec (.flitNak n) s = execFlitNak n s := rfl
theorem exec_flitReplayRetrain {n} {s : State} : exec (.flitReplayRetrain n) s = execFlitReplayRetrain n s := rfl
theorem exec_flitSlot {n} {s : State} : exec (.flitSlot n) s = execFlitSlot n s := rfl

end Sys2Proof.Machine

open Sys2Proof Sys2Proof.Machine Sys2Proof.Spec

/-- Settles O41: a flit's type and place decide what its arrival does; a slot takes the first of its sources that has a flit. -/
theorem flitsAndSlots : Obligations.FlitsAndSlots := by
  refine ⟨fun n f s hup hgood => ⟨fun hty h2 h4 h6 => ?idle, fun hty hrsvd => ?idleRsvd, fun hty => ?badType, fun hty hseq => ?inTurn, fun hty hold => ?again⟩,
    fun n f unc s hup hbad hnak => ?discarded, fun n a s hnak => ⟨_, ?nak, rfl⟩, fun n s hfails hcarries => ?retrains,
    fun n s hup => ⟨?slot, fun h10 hst => ?tags, fun h10 => ?noTags⟩,
    fun n s => ⟨fun q l hq => ?resent, fun hq hfull => ?full, fun c l hq hroom hc => ?ctrl, fun hq hroom hc hno => ?empty⟩⟩
  case idle => simp [exec_flitReceive, execFlitReceive, hup, hgood, hty, h2, h4, h6]
  case idleRsvd =>
    have hr : (fld f.toNat 2 14 12 != 0 || fld f.toNat 4 13 12 != 0 || fld f.toNat 6 3 0 != 0) = true := by simpa [or_assoc] using hrsvd
    simp [exec_flitReceive, execFlitReceive, hup, hgood, hty, hr]
  case badType =>
    simp only [exec_flitReceive, execFlitReceive, hup, hgood, if_neg (show ¬ fld f.toNat 0 15 12 = 0 by omega), if_pos hty, Bool.not_true, Bool.or_false, Bool.false_eq_true, if_false]
  case inTurn => simp [exec_flitReceive, execFlitReceive, hup, hgood, hty, hseq]
  case again =>
    have hne : fld f.toNat 0 11 0 ≠ ((s.flitHeader n f.toNat).port n).expected := by
      intro h
      rw [h] at hold
      omega
    have hold' : 2048 ≤ (fld f.toNat 0 11 0 + 4096 - ((s.flitHeader n f.toNat).port n).expected) % 4096 := hold
    simp only [exec_flitReceive, execFlitReceive, hup, hgood, hty, if_pos hne, if_pos hold', Bool.not_true, Bool.or_false, Bool.false_eq_true, if_false]
    rfl
  case discarded =>
    have hb : (unc || !flitGood f.toNat) = true := by simpa using hbad
    simp [exec_flitReceive, execFlitReceive, hup, hb, LPort.discard, hnak]
  case nak => simp only [exec_flitNak, execFlitNak, hnak]
  case retrains => simp [exec_flitReplayRetrain, execFlitReplayRetrain, hfails, hcarries]
  case slot => simp [exec_flitSlot, execFlitSlot, hup, State.updPort]
  case tags => simp [State.groupTags, h10, hst]
  case noTags => simp [State.groupTags, h10]
  case resent => simp [State.fillSlot, hq]
  case full => simp [State.fillSlot, hq, hfull]
  case ctrl => simp [State.fillSlot, hq, Nat.not_le.mpr hroom, hc]
  case empty => simp [State.fillSlot, hq, Nat.not_le.mpr hroom, hc, hno]

end

section
/-! Firmware: slots, activation and commit (R508-R515). -/

namespace Sys2Proof.Machine

/-! ### The instructions of this file -/

theorem exec_firmwareActivate {m body images} {s : State} : exec (.firmwareActivate m body images) s = execFirmwareActivate m body images s := rfl
theorem exec_firmwareSwitchReady {s : State} : exec .firmwareSwitchReady s = execFirmwareSwitchReady s := rfl
theorem exec_firmwareSwitchTimeout {s : State} : exec .firmwareSwitchTimeout s = execFirmwareSwitchTimeout s := rfl

end Sys2Proof.Machine

open Sys2Proof Sys2Proof.Machine Sys2Proof.Spec

/-- Settles O58: a block is checked with its last piece; an activation switches one processor at a time; a commit takes the running SVNs. -/
theorem firmware : Obligations.Firmware := by
  refine ⟨fun m r s hm hrsvd h1 hbytes hslot hact => ⟨fun hfree => ?begins, fun hruns => ?inUse⟩,
    fun m h data o p s hm ho hses hrsvd hblk h31 hp => ⟨fun hpiece hmore => ?piece, fun b hlast hb => ?block⟩,
    fun m r images s hrsvd h1 => ⟨fun hact => ?running, fun c hact hbad => ?badImage, fun order hact hgood htypes hst horder => ?activates⟩,
    fun a ty rest i t s hact horder hi ht => ⟨fun hw => ?withdrawn, fun u hw hu => ?nextUnit, fun hw hu => ?nextType⟩,
    fun a s horder => ?answered, fun a ty rest s horder h1 => ?switches, fun a s hact => ⟨fun ht => ?late, fun ht => ?inTime⟩,
    fun m s hm => ⟨fun hall => ?commit, fun hmixed => ?mixed⟩⟩
  case begins =>
    refine congrArg Host.Outcome.next ((runPlain_answers hm ?_).trans (State.served_zero _ _))
    simp [firmwareBeginBody, hrsvd, Nat.not_lt.mpr h1, Nat.not_lt.mpr hslot, Nat.ne_of_gt hbytes, hfree, hact, okM]
  case inUse =>
    refine congrArg Host.Outcome.next ((runPlain_answers hm ?_).trans (State.served_zero _ _))
    simp [firmwareBeginBody, hrsvd, Nat.not_lt.mpr h1, Nat.not_lt.mpr hslot, Nat.ne_of_gt hbytes, hruns, refuseM]
  case piece =>
    subst hp
    refine congrArg Host.Outcome.next ((runPlain_answers hm ?_).trans (State.served_zero _ _))
    simp only [firmwareWriteBody, ho, hses, hrsvd, Nat.not_le.mpr hblk, Nat.not_lt.mpr h31, if_pos (And.intro hpiece hmore), okM, ne_eq, not_true, Bool.false_eq_true, if_false]
  case block =>
    subst hp hb
    have hend : ¬ (fldB h.toNat 2 1 < 31 ∧ fldB h.toNat 0 2 * 65536 + fldB h.toNat 2 1 * 2048 + 2048 < o.bytes) := fun hmore => Nat.not_lt.mpr hlast hmore.2
    refine congrArg Host.Outcome.next ((runPlain_answers hm ?_).trans (State.served_zero _ _))
    simp only [firmwareWriteBody, ho, hses, hrsvd, Nat.not_le.mpr hblk, Nat.not_lt.mpr h31, if_neg hend, okM, refuseM, ne_eq, not_true, Bool.false_eq_true, if_false]
    split <;> rfl
  case running => simp [exec_firmwareActivate, execFirmwareActivate, firmwareActivateBody, Option.isSome_iff_ne_none.mpr hact]
  case badImage => simp [exec_firmwareActivate, execFirmwareActivate, firmwareActivateBody, hact, hrsvd, Nat.not_lt.mpr h1, hbad]
  case activates => simp [exec_firmwareActivate, execFirmwareActivate, firmwareActivateBody, hact, hrsvd, Nat.not_lt.mpr h1, hgood, htypes, hst, horder]
  case withdrawn =>
    simp only [hact] at ht
    simp only [exec_firmwareSwitchReady, execFirmwareSwitchReady, hact, horder, hi, ← ht, Option.isSome_iff_ne_none.mpr hw, if_true]
  case nextUnit =>
    simp only [hact] at ht
    simp only [exec_firmwareSwitchReady, execFirmwareSwitchReady, hact, horder, hi, ← ht, hw, hu, Option.isSome_none, Bool.false_eq_true, if_false]
  case nextType =>
    simp only [hact] at ht
    simp only [exec_firmwareSwitchReady, execFirmwareSwitchReady, hact, horder, hi, ← ht, hw, hu, Option.isSome_none, Bool.false_eq_true, if_false]
  case answered => simp only [State.nextSwitch, horder]
  case switches => 
    unfold State.nextSwitch
    rw [horder]
    split
    next h => cases h
    next h => cases h; exact absurd rfl h1
    next h => cases h; rfl
  case late => simp [exec_firmwareSwitchTimeout, execFirmwareSwitchTimeout, hact, Nat.not_lt.mpr ht]
  case inTime => simp [exec_firmwareSwitchTimeout, execFirmwareSwitchTimeout, hact, ht]
  case commit =>
    have hbody : ∃ l, firmwareCommitBody 0 s = ({ s with fw := { s.fw with minSvn := l } }, some (.ok 0)) ∧
        ∀ ty, 1 ≤ ty → ty ≤ 5 → Tab.getD l ty 0 = max (Tab.getD s.fw.minSvn ty 0) (s.runSvn ty) := by
      simp only [firmwareCommitBody, hall, Bool.not_true, Bool.false_eq_true, if_false]
      refine ⟨_, rfl, fun ty h1 h5 => ?_⟩
      obtain rfl | rfl | rfl | rfl | rfl : ty = 1 ∨ ty = 2 ∨ ty = 3 ∨ ty = 4 ∨ ty = 5 := by omega
      all_goals simp [Tab.getD]
    obtain ⟨l, hb, hl⟩ := hbody
    exact ⟨l, congrArg Host.Outcome.next ((runPlain_answers hm hb).trans (State.served_zero _ _)), hl⟩
  case mixed =>
    refine congrArg Host.Outcome.next ((runPlain_answers hm ?_).trans (State.served_zero _ _))
    simp only [firmwareCommitBody, hmixed]
    rfl

end

section
/-! Pins, the device reset, the start, doze and the descriptors' write-back (R437, R519-R527, R537-R547). -/

namespace Sys2Proof.Machine

/-! ### The instructions of this file -/

theorem exec_aonStart {slotId} {s : State} : exec (.aonStart slotId) s = execAonStart slotId s := rfl
theorem exec_pwrEnAssert {s : State} : exec .pwrEnAssert s = execPwrEnAssert s := rfl
theorem exec_pwrEnDeassert {s : State} : exec .pwrEnDeassert s = execPwrEnDeassert s := rfl
theorem exec_pwrgdStart {s : State} : exec .pwrgdStart s = execPwrgdStart s := rfl
theorem exec_powerFail {s : State} : exec .powerFail s = execPowerFail s := rfl
theorem exec_overVoltageCutoff {s : State} : exec .overVoltageCutoff s = execOverVoltageCutoff s := rfl
theorem exec_resetNAssert {s : State} : exec .resetNAssert s = execResetNAssert s := rfl
theorem exec_resetN {s : State} : exec .resetN s = execResetN s := rfl
theorem exec_startStepComplete {n info} {s : State} : exec (.startStepComplete n info) s = execStartStepComplete n info s := rfl
theorem exec_dozeReqNAssert {s : State} : exec .dozeReqNAssert s = execDozeReqNAssert s := rfl
theorem exec_dozeReqNRelease {s : State} : exec .dozeReqNRelease s = execDozeReqNRelease s := rfl
theorem exec_wake {s : State} : exec .wake s = execWake s := rfl
theorem exec_faultLogRead {m body} {s : State} : exec (.faultLogRead m body) s = execFaultLogRead m body s := rfl
theorem exec_queueDescriptorWriteback {s : State} : exec .queueDescriptorWriteback s = execQueueDescriptorWriteback s := rfl

open Sys2Proof.Spec

/-- A queue's descriptor, while it names a queue, goes to both copies. -/
def writeBack (s : State) (q : Nat) : State := match s.descImage q with | some n => s.copyDesc q n | none => s

theorem State.descImage_writeBack (s : State) (q k : Nat) : (writeBack s q).descImage k = s.descImage k := by
  unfold writeBack
  split <;> rfl

theorem State.find_desc_writeBack (s : State) (q k : Nat) :
    (∀ n, k = q → s.descImage q = some n → Tab.find (writeBack s q).stn.descA k = some n ∧ Tab.find (writeBack s q).stn.descB k = some n) ∧
    ((k ≠ q ∨ s.descImage k = none) → Tab.find (writeBack s q).stn.descA k = Tab.find s.stn.descA k ∧ Tab.find (writeBack s q).stn.descB k = Tab.find s.stn.descB k) := by
  unfold writeBack
  refine ⟨fun n hk hn => ?_, fun h => ?_⟩
  · subst hk
    simp [hn, State.copyDesc]
  · split
    next n hn =>
      have hk : k ≠ q := h.elim id fun hnone hk => by rw [hk, hn] at hnone; cases hnone
      simp [State.copyDesc, hk]
    next => exact ⟨rfl, rfl⟩

/-- The write-back changes the copies alone. -/
theorem writeBacks_eq (l : List Nat) (s : State) : ∃ a b, l.foldl writeBack s = { s with stn := { s.stn with descA := a, descB := b } } := by
  induction l generalizing s with
  | nil => exact ⟨_, _, rfl⟩
  | cons q l ih =>
    obtain ⟨a, b, h⟩ := ih (writeBack s q)
    refine ⟨a, b, h.trans ?_⟩
    unfold writeBack
    split <;> rfl

/-- Each queue of the list has its descriptor in both copies; the others keep theirs. -/
theorem find_desc_writeBacks (l : List Nat) (s : State) (k : Nat) :
    (∀ n, k ∈ l → s.descImage k = some n → Tab.find (l.foldl writeBack s).stn.descA k = some n ∧ Tab.find (l.foldl writeBack s).stn.descB k = some n) ∧
    ((k ∉ l ∨ s.descImage k = none) → Tab.find (l.foldl writeBack s).stn.descA k = Tab.find s.stn.descA k ∧ Tab.find (l.foldl writeBack s).stn.descB k = Tab.find s.stn.descB k) := by
  induction l generalizing s with
  | nil => exact ⟨fun n h => absurd h List.not_mem_nil, fun _ => ⟨rfl, rfl⟩⟩
  | cons q l ih =>
    obtain ⟨hsame, hkept⟩ := ih (writeBack s q)
    obtain ⟨hput, hother⟩ := State.find_desc_writeBack s q k
    rw [State.descImage_writeBack] at hsame hkept
    refine ⟨fun n hk hn => ?_, fun h => ?_⟩
    · by_cases hl : k ∈ l
      · exact hsame n hl hn
      · have hq : k = q := (List.mem_cons.mp hk).resolve_right hl
        obtain ⟨ha, hb⟩ := hkept (.inl hl)
        obtain ⟨ha', hb'⟩ := hput n hq (hq ▸ hn)
        exact ⟨ha.trans ha', hb.trans hb'⟩
    · obtain ⟨ha, hb⟩ := hkept (h.imp_left (fun hn hl => hn (List.mem_cons_of_mem _ hl)))
      obtain ⟨ha', hb'⟩ := hother (h.imp_left (fun hn hq => hn (hq ▸ List.mem_cons_self)))
      exact ⟨ha.trans ha', hb.trans hb'⟩

end Sys2Proof.Machine

open Sys2Proof Sys2Proof.Machine Sys2Proof.Spec

/-- Settles O59: the pins' cases; the write-back by induction over the cached queues. -/
theorem pinsAndStart : Obligations.PinsAndStart := by
  refine ⟨fun slot s haon => ?aonStart, fun n s hlow hcold => ?enable, fun n s hlow hhot => ?hot, fun s hlow => ?disable, fun s hpg haon hlow hclosed => ?powerGood,
    fun s haon => ⟨?fail, ?cutoff⟩, fun s hlow => ?resetFalls, fun n s hlow => ⟨fun h100 => ?glitch, fun h100 hpg => ?restarts⟩, fun c d s => rfl,
    fun s => ⟨rfl, rfl, rfl, rfl, rfl, rfl, rfl, rfl, rfl, rfl, rfl, rfl, rfl, rfl, rfl, rfl, rfl, rfl⟩,
    fun n i s hrun hnew hafter => ?step, fun n i s hrun => ?stopped,
    fun m h data s hm hst hown hrsvd h1 h17 => ⟨fun hcopy h0 => ?erases, fun hcopy h0 => ?writes, fun hcopy => ?copyInUse⟩,
    fun m s hm => ⟨fun hown hok hempty => ?dozes, fun hown hok hempty => ?dozeWaits, fun hown hok => ?noDoze, fun hown => ?notOwner⟩,
    fun m s hm => ?dozeEnds, fun s hlow => ?dozeFalls, fun n s hlow => ?dozeRises, fun m px s hx => ?wakes, fun m r s hown hrsvd h1 h62 => ?faultLog,
    fun s h1000 => ?writeBack, fun s h1000 => ?noWriteBack⟩
  case aonStart => simp [exec_aonStart, execAonStart, haon]
  case enable => simp [exec_pwrEnAssert, execPwrEnAssert, hlow, hcold]
  case hot => simp [exec_pwrEnAssert, execPwrEnAssert, hlow, hhot]
  case disable => simp [exec_pwrEnDeassert, execPwrEnDeassert, hlow]
  case powerGood => simp [exec_pwrgdStart, execPwrgdStart, hpg, haon, hlow, hclosed]
  case fail => simp [exec_powerFail, execPowerFail, haon]
  case cutoff => simp [exec_overVoltageCutoff, execOverVoltageCutoff, haon]
  case resetFalls => simp [exec_resetNAssert, execResetNAssert, hlow]
  case glitch => simp [exec_resetN, execResetN, hlow, h100]
  case restarts => simp only [exec_resetN, execResetN, hlow, if_neg (Nat.not_lt.mpr h100), hpg, if_true]
  case step => simp only [exec_startStepComplete, execStartStepComplete, hrun, hnew, hafter, Bool.not_true, Bool.or_false, Bool.false_eq_true, if_false]
  case stopped => simp [exec_startStepComplete, execStartStepComplete, hrun]
  case erases =>
    refine congrArg Host.Outcome.next ((runPlain_answers hm ?_).trans (State.served_zero _ _))
    simp only [zhohiWriteBody, hst, hown, hrsvd, Nat.not_lt.mpr h1, h0, hcopy, okM, Bool.not_true, Bool.false_eq_true, Nat.not_lt_zero, Nat.mul_zero, Nat.add_zero, if_true, if_false]
  case writes =>
    refine congrArg Host.Outcome.next ((runPlain_answers hm ?_).trans (State.served_zero _ _))
    simp only [zhohiWriteBody, hst, hown, hrsvd, Nat.not_lt.mpr h1, Nat.not_lt.mpr h17, h0, hcopy, okM, Bool.not_true, Bool.false_eq_true, if_false]
  case copyInUse =>
    refine congrArg Host.Outcome.next ((runPlain_answers hm ?_).trans (State.served_zero _ _))
    simp [zhohiWriteBody, hst, hown, hrsvd, Nat.not_lt.mpr h1, Nat.not_lt.mpr h17, hcopy, refuseM]
  case dozes =>
    refine congrArg Host.Outcome.next ((runPlain_answers hm ?_).trans (State.served_zero _ _))
    simp [hown, hok, State.beginDoze, hempty, okM]
  case dozeWaits =>
    refine congrArg Host.Outcome.next ((runPlain_answers hm ?_).trans (State.served_zero _ _))
    simp [hown, hok, State.beginDoze, hempty, okM]
  case noDoze =>
    refine congrArg Host.Outcome.next ((runPlain_answers hm ?_).trans (State.served_zero _ _))
    simp [hown, hok, refuseM]
  case notOwner =>
    refine congrArg Host.Outcome.next ((runPlain_answers hm ?_).trans (State.served_zero _ _))
    simp [hown, refuseM]
  case dozeEnds =>
    exact congrArg Host.Outcome.next ((runPlain_answers hm (t := s.wake) (a := .ok 0) rfl).trans (State.served_zero _ _))
  case dozeFalls => simp [exec_dozeReqNAssert, execDozeReqNAssert, hlow]
  case dozeRises => simp [exec_dozeReqNRelease, execDozeReqNRelease, hlow]
  case wakes => simp only [exec_wake, execWake, State.onTxn, hx]
  case faultLog =>
    have hn : ¬ (fldB r.toNat 8 2 = 0 ∨ 62 < fldB r.toNat 8 2) := by omega
    simp only [exec_faultLogRead, execFaultLogRead, hown, hrsvd, if_neg hn, Bool.not_true, Bool.false_eq_true, if_false] <;> rfl
  case writeBack =>
    obtain ⟨a, b, heq⟩ := writeBacks_eq s.stn.cached s
    refine ⟨s.stn.cached.foldl writeBack s, ?_, by rw [heq], fun q n => (find_desc_writeBacks _ s q).1 n, fun q => (find_desc_writeBacks _ s q).2⟩
    simp only [exec_queueDescriptorWriteback, execQueueDescriptorWriteback, h1000, ne_eq, not_true, if_false]
    rfl
  case noWriteBack => simp only [exec_queueDescriptorWriteback, execQueueDescriptorWriteback, if_pos h1000]

end

section
/-! Plans and sessions: the host's commands (R282-R290, R297, R303). -/

namespace Sys2Proof.Machine

/-! ### The instructions of this file -/

theorem exec_sessionCloseComplete {slot} {s : State} : exec (.sessionCloseComplete slot) s = execSessionCloseComplete slot s := rfl

open Sys2Proof.Spec

/-! ## Descriptors -/

/-- The second state is the first after descriptors have been written to their copies. -/
def DescsOnly (s t : State) : Prop := ∃ a b c, t = { s with stn := { s.stn with descA := a, descB := b, cached := c } }

namespace DescsOnly

variable {s t u : State}

theorem trans (h1 : DescsOnly s t) (h2 : DescsOnly t u) : DescsOnly s u := by
  obtain ⟨_, _, _, rfl⟩ := h1
  obtain ⟨_, _, _, rfl⟩ := h2
  exact ⟨_, _, _, rfl⟩

theorem copyDesc (q n : Nat) : DescsOnly s (s.copyDesc q n) := ⟨_, _, _, rfl⟩

theorem cacheDesc (q : Nat) : DescsOnly s (s.cacheDesc q) := by
  unfold State.cacheDesc
  dsimp only
  split
  · exact ⟨_, _, _, rfl⟩
  · split <;> exact ⟨_, _, _, rfl⟩

theorem storeDesc (q : Nat) : DescsOnly s (s.storeDesc q) := by
  unfold State.storeDesc
  split
  · exact (copyDesc _ _).trans (cacheDesc _)
  · exact ⟨_, _, _, rfl⟩

end DescsOnly

/-! ## Pages and logs -/

theorem firstIdx_nil {α : Type} (f : α → Bool) : firstIdx f [] = none := rfl

theorem WritesOnly.writePlanObj {s : State} (p h off : Nat) (l : List Byte) : WritesOnly s (s.writePlanObj p h off l) := by
  unfold State.writePlanObj
  split
  · exact .writeObj _ _ _
  · exact .refl _

theorem WritesOnly.writeLog {s : State} (x : Sess) (y : Plan) (pos : Nat) (l : List Nat) : WritesOnly s (s.writeLog x y pos l) := .writePlanObj _ _ _ _

theorem WritesOnly.writeTable {s : State} (x : Sess) (y : Plan) (i v : Nat) : WritesOnly s (s.writeTable x y i v) :=
  .of_ite (.writePlanObj _ _ _ _) (.refl _)

theorem WritesOnly.foldl {α : Type} {f : State → α → State} (hf : ∀ t a, WritesOnly t (f t a)) (l : List α) (s : State) : WritesOnly s (l.foldl f s) := by
  induction l generalizing s with
  | nil => exact .refl s
  | cons a l ih => exact (hf s a).trans (ih _)

/-- Pages that are given go to the plan's used ones and to the session. -/
theorem State.grantPages_eq {s : State} {slot n : Nat} {x : Sess} {y : Plan} (hx : s.sess? slot = some x) (hy : s.plan? x.plan = some y) :
    ∃ ps dram hostMem, s.grantPages slot n = State.setSess (State.setPlan { s with dram := dram, hostMem := hostMem } x.plan { y with usedPages := y.usedPages ++ ps }) slot { x with pages := x.pages ++ ps } := by
  unfold State.grantPages
  simp only [hx, hy]
  generalize hu : List.foldl _ s _ = u
  have hw : WritesOnly s u := hu ▸ WritesOnly.foldl (fun _ _ => .writeTable _ _ _ _) _ _
  obtain ⟨_, _, rfl⟩ := hw
  exact ⟨_, _, _, rfl⟩

/-- A mirror entry is sent, and nothing else. -/
theorem State.mirrorSend_eq (s : State) (p kind handle : Nat) (l : List Nat) : ∃ sent, s.mirrorSend p kind handle l = { s with sent := sent } := by
  unfold State.mirrorSend
  split <;> exact ⟨_, rfl⟩

/-- Opening a reckoning touches the accounts, or raises an event where none can be opened. -/
theorem State.reckOpen_eq (s : State) (p req ctx session flags : Nat) :
    ∃ events reck, s.reckOpen p req ctx session flags = { s with host := { s.host with events := events }, reck := reck } := by
  unfold State.reckOpen State.reckOpenAt
  split
  · exact ⟨_, _, rfl⟩
  · split
    · unfold State.reckFull
      dsimp only
      split
      · exact ⟨_, _, rfl⟩
      · obtain ⟨l, h⟩ := State.event_eq { s with reck := { s.reck with fullAt := Tab.put s.reck.fullAt p (s.now / 1000 + 1) } } 0x001A p 0 false 0 0xFFFF 0
        exact ⟨l, _, h⟩
    · exact ⟨_, _, rfl⟩

/-- A session that opens has its generation, its home record, its tables and its reckoning. -/
theorem State.openSession_eq (s : State) (slot : Nat) (x : Sess) (y : Plan) (flags : Nat) :
    ∃ events reck dram hostMem, s.openSession slot x y flags =
      { s with host := { s.host with events := events }, reck := reck, dram := dram, hostMem := hostMem, free := s.free + 256, ses := { s.ses with gens := Tab.put s.ses.gens slot x.gen, homes := Tab.put s.ses.homes (acctKey x.part x.req) { owner := s.sys.nodeId, gen := 0, deadline := 0, ownerPart := x.part }, sessions := Tab.put s.ses.sessions slot x } } := by
  unfold State.openSession
  dsimp only
  generalize hlog : State.writeLog _ x y 0 x.tokens = u
  have hu := hlog ▸ WritesOnly.writeLog (s := _) x y 0 x.tokens
  generalize htab : List.foldl _ u _ = v
  have hv : WritesOnly u v := htab ▸ WritesOnly.foldl (fun _ _ => .writeTable _ _ _ _) _ _
  generalize hobj : State.writePlanObj v _ _ _ _ = w
  have hw : WritesOnly v w := hobj ▸ WritesOnly.writePlanObj _ _ _ _
  obtain ⟨_, _, h⟩ := (hu.trans hv).trans hw
  obtain ⟨events, reck, hr⟩ := State.reckOpen_eq { w with free := s.free + 256 } x.part x.req x.context (x.handle slot) flags
  exact ⟨events, reck, _, _, hr.trans (by rw [h]; rfl)⟩

theorem State.plan?_openSession (s : State) (slot : Nat) (x : Sess) (y : Plan) (flags k : Nat) : (s.openSession slot x y flags).plan? k = s.plan? k := by
  obtain ⟨_, _, _, _, h⟩ := State.openSession_eq s slot x y flags
  rw [h]
  rfl

theorem State.sess?_openSession (s : State) (slot : Nat) (x : Sess) (y : Plan) (flags : Nat) : (s.openSession slot x y flags).sess? slot = some x := by
  obtain ⟨_, _, _, _, h⟩ := State.openSession_eq s slot x y flags
  rw [h]
  simp [State.sess?]

/-- A session that opens with its first pages, and of which the companion is told. -/
theorem State.openSession_granted {s : State} {x : Sess} {y : Plan} (hy : s.plan? x.plan = some y) (slot flags n p kind handle : Nat) (l : List Nat) :
    ∃ t ps, ((s.openSession slot x y flags).grantPages slot n).mirrorSend p kind handle l = t ∧
      t = { s with svc := t.svc, host := t.host, dram := t.dram, ses := t.ses, reck := t.reck, hostMem := t.hostMem, sent := t.sent, free := t.free } ∧
      t.sess? slot = some { x with pages := x.pages ++ ps } ∧
      Tab.find t.ses.homes (acctKey x.part x.req) = some { owner := s.sys.nodeId, gen := 0, deadline := 0, ownerPart := x.part } := by
  obtain ⟨ps, _, _, hg⟩ := State.grantPages_eq (n := n) (State.sess?_openSession s slot x y flags) ((State.plan?_openSession s slot x y flags x.plan).trans hy)
  obtain ⟨_, hsent⟩ := State.mirrorSend_eq ((s.openSession slot x y flags).grantPages slot n) p kind handle l
  obtain ⟨_, _, _, _, ho⟩ := State.openSession_eq s slot x y flags
  refine ⟨_, ps, rfl, ?_, ?_, ?_⟩
  all_goals rw [hsent, hg, ho]
  · rfl
  · simp [State.sess?, State.setSess]
  · simp [State.setSess, State.setPlan]

/-- A session that goes on, with the tokens appended to its log and the pages they need. -/
theorem State.appended_granted {s : State} {x : Sess} {y : Plan} (hy : s.plan? x.plan = some y) (slot n pos p kind handle : Nat) (toks l : List Nat) (z : Sess) :
    ∃ t ps, ((((s.setSess slot x).writeLog z y pos toks).grantPages slot n).mirrorSend p kind handle l) = t ∧
      t = { s with svc := t.svc, dram := t.dram, ses := t.ses, hostMem := t.hostMem, sent := t.sent } ∧ t.sess? slot = some { x with pages := x.pages ++ ps } := by
  obtain ⟨dram, hostMem, hw⟩ := WritesOnly.writeLog (s := s.setSess slot x) z y pos toks
  have hx : ((s.setSess slot x).writeLog z y pos toks).sess? slot = some x := by rw [hw]; simp [State.sess?, State.setSess]
  have hplan : ((s.setSess slot x).writeLog z y pos toks).plan? x.plan = some y := by rw [hw]; exact hy
  obtain ⟨ps, _, _, hg⟩ := State.grantPages_eq (n := n) hx hplan
  obtain ⟨_, hsent⟩ := State.mirrorSend_eq (((s.setSess slot x).writeLog z y pos toks).grantPages slot n) p kind handle l
  refine ⟨_, ps, rfl, ?_, ?_⟩
  all_goals rw [hsent, hg, hw]
  · rfl
  · simp [State.sess?, State.setSess]

/-- No index of a list of tokens is outside the vocabulary. -/
theorem firstIdx_none {α : Type} {f : α → Bool} {l : List α} (h : ∀ a ∈ l, f a = false) : firstIdx f l = none :=
  List.findIdx?_eq_none_iff.mpr h

end Sys2Proof.Machine

open Sys2Proof Sys2Proof.Machine Sys2Proof.Spec

/-- Settles O45: what the bodies do where their checks hold; an end condition is the first that holds. -/
theorem sessionCommands : Obligations.SessionCommands := by
  refine ⟨fun q r e c t tap ost s hr hrsvd hfree hst hentry hresult hin hring hbad hover htap host hne => ?define,
    fun q r e y s hr hrsvd hy => ⟨fun hnone => ?releases, fun hopen => ?stillOpen⟩,
    fun q r e y b slot gen s hr hrsvd hy h77 hbad hstop hb hvocab heos hmax h65536 hwait hpick => ⟨fun hfull => ?kvFull, fun hroom => ?opens⟩,
    fun q r e slot x y b s hr hrsvd hx hy hobj h4 hlen h1 hctx hmax1 hmax hb hvocab hidle hroom hwait => ?appends,
    fun q r e slot x s hr hrsvd hx => ?cancels, fun q r e slot x s hr hrsvd hx => ?closes, fun slot x q n t s hx hclosing hstep hrecs hreck => ?closed,
    fun x y heos => ?eos, fun x y token i hne hstop => ?stops, fun x y token hne hstop => ?limits⟩
  case define =>
    obtain ⟨g, hg, hpart, hty⟩ := hring
    have hin' : t.inQ.head?.getD none = some (fld r.toNat 8 19 0) := by simpa using hin
    have hbody : ∃ u : State, planDefineBody r.toNat e s = (u, some (.ok (tap ||| ost <<< 32))) ∧ u.plan? (planKey e.part (fld r.toNat 0 3 0)) = some (planOf r.toNat e.context c tap ost) ∧
        u.queue? tap = some (serviceQueue e.part e.context s.now .none) ∧ u.queue? ost = some (serviceQueue e.part e.context s.now (.steward c 1)) ∧
        Tab.find u.svc.stewards c = some { t with inQ := lset t.inQ 1 (some ost), plan := some (planKey e.part (fld r.toNat 0 3 0)) } ∧ u = { s with svc := u.svc, stn := u.stn, free := s.free + 2 } := by
      unfold planDefineBody
      dsimp only
      rw [if_neg (by simp [hrsvd]), if_neg (by simp [hfree]), hst]
      dsimp only
      rw [if_neg (by simp [planOf, hentry, hresult, hin', hg, hpart, hty]), hbad]
      dsimp only
      rw [if_neg (ne_true_of_eq_false hover), htap]
      dsimp only
      rw [host]
      refine ⟨_, rfl, ?_, ?_, ?_, ?_, ?_⟩
      all_goals
        obtain ⟨_, _, _, hd⟩ := (DescsOnly.storeDesc (s := State.setPlan _ _ _) tap).trans (DescsOnly.storeDesc ost)
        rw [hd]
      · simp [State.plan?, State.setPlan]
      · simp [State.queue?, State.setPlan, State.setSteward, State.setQueue, hne]
      · simp [State.queue?, State.setPlan, State.setSteward, State.setQueue]
      · simp [State.setPlan, State.setSteward]
      · rfl
    obtain ⟨u, hb, hu⟩ := hbody
    exact ⟨u, congrArg _ (runCmd_ready hr hb), hu⟩
  case releases =>
    refine congrArg _ (runCmd_ready hr ?_)
    simp [planReleaseBody, hrsvd, hy, hnone, done]
  case stillOpen =>
    refine congrArg _ (runCmd_ready hr ?_)
    simp only [planReleaseBody, hrsvd, hy, hopen]
    rfl
  case kvFull =>
    have htoks : firstIdx (fun t => decide (y.vocab ≤ t)) (tokenWords b) = none := firstIdx_none fun t ht => decide_eq_false (Nat.not_le.mpr (hvocab t ht))
    refine congrArg _ (runCmd_ready hr ?_)
    simp [sessionOpenBody, hrsvd, hy, h77, hbad, hstop, hb, htoks, firstIdx_nil, heos, Nat.not_le.mpr hmax, Nat.not_le.mpr h65536, hfull]
  case opens =>
    have htoks : firstIdx (fun t => decide (y.vocab ≤ t)) (tokenWords b) = none := firstIdx_none fun t ht => decide_eq_false (Nat.not_le.mpr (hvocab t ht))
    have hbody : ∃ (x : Sess) (l : List Nat), sessionOpenBody r.toNat e s =
        (((State.openSession { s with free := s.free + 1, ses := { s.ses with nextOrder := s.ses.nextOrder + 1 } } slot x y 0).grantPages slot (cdiv (fldB r.toNat 32 4) 16 + 1)).mirrorSend e.part 1 (x.handle slot) l, some (.ok (gen <<< 16 ||| slot))) ∧
        x.plan = planKey e.part (fld r.toNat 0 3 0) ∧ x.part = e.part ∧ x.gen = gen ∧ x.req = fldB r.toNat 4 4 ∧ x.maxNew = fldB r.toNat 36 4 ∧ x.state = .prefill ∧ x.tokens = tokenWords b ∧ x.stops = [] ∧ x.made = 0 ∧ x.index = 0 := by
      simp only [sessionOpenBody, hrsvd, hy, h77, hbad, hstop, hb, htoks, List.range_zero, List.map_nil, firstIdx_nil, heos, Nat.not_le.mpr hmax, Nat.not_le.mpr h65536, hwait, hpick,
        Nat.not_lt.mpr hroom, Bool.false_eq_true, if_false, if_true, bne_self_eq_false, Bool.and_false, decide_false, Bool.or_false]
      exact ⟨_, _, rfl, rfl, rfl, rfl, rfl, rfl, rfl, rfl, rfl, rfl, rfl⟩
    obtain ⟨x, l, hbd, hplan, hpart, hgen, hreq, hnew, hst, htokens, hstops, hmade, hindex⟩ := hbody
    obtain ⟨t, ps, ht, hframe, hsess, hhome⟩ := State.openSession_granted (s := { s with free := s.free + 1, ses := { s.ses with nextOrder := s.ses.nextOrder + 1 } })
      (x := x) (hplan ▸ hy) slot 0 (cdiv (fldB r.toNat 32 4) 16 + 1) e.part 1 (x.handle slot) l
    rw [ht] at hbd
    exact ⟨t, _, congrArg _ (runCmd_ready hr hbd), hframe, hsess, hpart, hgen, hreq, hnew, hst, htokens, hstops, hmade, hindex, hpart ▸ hhome⟩
  case appends =>
    have htoks : firstIdx (fun t => decide (y.vocab ≤ t)) (tokenWords b) = none := firstIdx_none fun t ht => decide_eq_false (Nat.not_le.mpr (hvocab t ht))
    have hbody : ∃ (z : Sess) (n : Nat) (l : List Nat), sessionAppendBody r.toNat e s =
        ((((State.setSess { s with ses := { s.ses with nextOrder := s.ses.nextOrder + 1 } } slot z).writeLog z y x.tokens.length (tokenWords b)).grantPages slot n).mirrorSend e.part 2 (x.handle slot) l, some (.ok 0)) ∧
        z.plan = x.plan ∧ z.state = .prefill ∧ z.tokens = x.tokens ++ tokenWords b ∧ z.maxNew = fldB r.toNat 16 4 ∧ z.made = 0 ∧ z.round = x.round + 1 ∧ z.index = x.index := by
      have hlen' : ¬ ((fldB r.toNat 8 4 % 4 != 0 || decide (s.objLen e.part (fldB r.toNat 4 4) < fldB r.toNat 8 4 + 4 * fldB r.toNat 12 4)) = true) := by simp [h4, hlen]
      have hcount : ¬ ((fldB r.toNat 12 4 == 0 || decide (y.contextMax - 1 < x.tokens.length + fldB r.toNat 12 4)) = true) := by simp [hctx]; omega
      have hnew : ¬ ((fldB r.toNat 16 4 == 0 || decide (1048576 < fldB r.toNat 16 4)) = true) := by simp [hmax]; omega
      simp only [sessionAppendBody, hrsvd, hx, hy, Option.isNone_eq_false_iff.mpr hobj, if_neg hlen', if_neg hcount, if_neg hnew, hb, htoks, hidle, Nat.not_lt.mpr hroom, hwait,
        Bool.false_eq_true, if_false, bne_self_eq_false, decide_false, Bool.or_false]
      exact ⟨_, _, _, rfl, rfl, rfl, rfl, rfl, rfl, rfl, rfl⟩
    obtain ⟨z, n, l, hbd, hplan, hst, htokens, hnew, hmade, hround, hindex⟩ := hbody
    obtain ⟨t, ps, ht, hframe, hsess⟩ := State.appended_granted (s := { s with ses := { s.ses with nextOrder := s.ses.nextOrder + 1 } })
      (x := z) (y := y) (hplan ▸ hy) slot n x.tokens.length e.part 2 (x.handle slot) (tokenWords b) l z
    rw [ht] at hbd
    exact ⟨t, _, congrArg _ (runCmd_ready hr hbd), hframe, hsess, hst, htokens, hnew, hmade, hround, hindex⟩
  case cancels =>
    refine congrArg _ (runCmd_ready hr ?_)
    simp only [sessionCancelBody, hrsvd, hx, Bool.false_eq_true, if_false]
    split <;> rfl
  case closes =>
    refine congrArg _ (runCmd_ready_later hr ?_)
    simp only [sessionCloseBody, hrsvd, hx, Bool.false_eq_true, if_false]
  case closed => simp [exec_sessionCloseComplete, execSessionCloseComplete, hx, hclosing, hstep, State.recsLeft, hrecs, hreck]
  case eos => simp [endReason, heos]
  case stops =>
    have hno : ¬ (token = x.eos ∧ x.eos ≠ 0xFFFFFFFF) := fun h => hne.elim (fun h1 => h1 h.1) h.2
    simp only [endReason, if_neg hno, hstop]
  case limits =>
    have hno : ¬ (token = x.eos ∧ x.eos ≠ 0xFFFFFFFF) := fun h => hne.elim (fun h1 => h1 h.1) h.2
    simp only [endReason, if_neg hno, hstop]

end

section
/-! The steps of a plan (R291-R298). -/

namespace Sys2Proof.Machine

/-! ### The instructions of this file -/

theorem exec_stepCompose {p plan} {s : State} : exec (.stepCompose p plan) s = execStepCompose p plan s := rfl
theorem exec_stepResult {p plan} {s : State} : exec (.stepResult p plan) s = execStepResult p plan s := rfl
theorem exec_stepTimeout {p plan} {s : State} : exec (.stepTimeout p plan) s = execStepTimeout p plan s := rfl
theorem exec_tokenLogWrite {s : State} : exec .tokenLogWrite s = execTokenLogWrite s := rfl
theorem exec_sessionReadmit {p plan} {s : State} : exec (.sessionReadmit p plan) s = execSessionReadmit p plan s := rfl
theorem exec_tokenRecordWrite {slot} {s : State} : exec (.tokenRecordWrite slot) s = execTokenRecordWrite slot s := rfl

open Sys2Proof.Spec

/-! ## What leaves the steward -/

/-- A waybill that leaves waits in a send buffer, or is in flight. -/
theorem State.launch_eq (s : State) (q : Nat) (w : Waybill) (rank : Nat) :
    ∃ qpairs flight spine, s.launch q w rank = { s with part := { s.part with qpairs := qpairs }, stn := { s.stn with flight := flight }, spine := spine } := by
  unfold State.launch
  split
  · exact ⟨_, _, _, rfl⟩
  · dsimp only
    split <;> exact ⟨_, _, _, rfl⟩

theorem State.sliceWrite_eq (s : State) (b off : Nat) (l : List (BitVec 8)) : ∃ slices, s.sliceWrite b off l = { s with fab := { s.fab with slices := slices } } := by
  unfold State.sliceWrite
  split <;> exact ⟨_, rfl⟩

theorem State.updSess_foldl_eq {α : Type} (slot : α → Nat) (f : α → Sess → Sess) (l : List α) (s : State) :
    ∃ sessions, l.foldl (fun (s : State) r => s.updSess (slot r) (f r)) s = { s with ses := { s.ses with sessions := sessions } } := by
  induction l generalizing s with
  | nil => exact ⟨_, rfl⟩
  | cons r l ih =>
    obtain ⟨_, h⟩ := ih (s.updSess (slot r) (f r))
    exact ⟨_, h⟩

/-- With the manifest in slice memory, a step that is composed launches its waybill, counts its sessions as served and joins its plan. -/
theorem composed_of {s u : State} (hu : ∃ slices, u = { s with fab := { s.fab with slices := slices } }) (k n : Nat) (q : Nat) (w : Waybill) (rank : Nat)
    (rows : List StepRow) (z : Plan) : ∃ (t : State) (z' : Plan),
      (Host.Outcome.next ((rows.foldl (fun (s : State) r => s.updSess r.slot (fun x => { x with served := n + 1 })) (u.launch q w rank)).setPlan k z) : Outc) = .next t ∧
      t = { s with svc := t.svc, part := t.part, stn := t.stn, fab := t.fab, spine := t.spine, ses := t.ses } ∧ t.plan? k = some z' ∧ z'.nextStep = z.nextStep ∧ z'.steps = z.steps := by
  obtain ⟨_, rfl⟩ := hu
  obtain ⟨_, _, _, hl⟩ := State.launch_eq { s with fab := { s.fab with slices := _ } } q w rank
  obtain ⟨_, hf⟩ := State.updSess_foldl_eq (fun r : StepRow => r.slot) (fun _ x => { x with served := n + 1 }) rows (State.launch { s with fab := { s.fab with slices := _ } } q w rank)
  refine ⟨_, z, rfl, ?_, ?_, rfl, rfl⟩
  · rw [hf, hl]
    rfl
  · simp [State.plan?, State.setPlan]

end Sys2Proof.Machine

open Sys2Proof Sys2Proof.Machine Sys2Proof.Spec

/-- Settles O47: a step's manifest and waybill leave before the plan counts it; the other commands by their cases. -/
theorem steps : Obligations.Steps := by
  refine ⟨fun p plan y s hy hruns hslots hrows hroom => ?composes, fun p plan y x w z s hy hruns hx hz hw => ?result, fun p plan y st l s hy hsteps ht => ?timeout,
    fun t l x s hnext hturn hx hgen hround => ?logged, fun t l x s hnext hturn hx hne => ?discarded, fun t l x s hnext hx hturn => ?waits,
    fun p plan y e s hy hturn he hrob hneed hpre => ?readmits, fun p plan y e s hy hturn he hrob hpre hst hpages hshort hfree => ?nextPage,
    fun slot x r l y g s hx hrecs hy hring hacked hroom hturn => ?written⟩
  case composes =>
    have hgo : (!s.stewardRuns p y || decide (y.manifestSlots ≤ y.steps.length) || (s.stepRows (planKey p plan) y).isEmpty || s.queueFull y.entryQ) = false := by
      simp [hruns, hslots, hroom, hrows]
    simp only [exec_stepCompose, execStepCompose, hy, hgo, Bool.false_eq_true, if_false]
    cases s.phys p (y.manifestAddr / 2 ^ 19) with
    | none => exact composed_of ⟨_, rfl⟩ _ _ _ _ _ _ _
    | some b => exact composed_of (State.sliceWrite_eq _ _ _ _) _ _ _ _ _ _ _
  case result =>
    subst hz
    simp only [exec_stepResult, execStepResult, hy, hruns, hx, hw, Bool.not_true, Bool.false_eq_true, if_false]
  case timeout => simp only [exec_stepTimeout, execStepTimeout, hy, hsteps, if_neg (Nat.not_lt.mpr ht)]
  case logged =>
    have hpart : s.tapPart t = x.part := by simp only [State.tapPart, hx]
    simp only [exec_tokenLogWrite, execTokenLogWrite, hnext, hpart, hturn, hx, hgen, hround, and_self, Bool.not_true, Bool.false_eq_true, if_true, if_false]
  case discarded =>
    have hpart : s.tapPart t = x.part := by simp only [State.tapPart, hx]
    have hno : ¬ (x.gen = t.gen ∧ x.round = t.round) := fun h => hne.elim (fun h1 => h1 h.1) (fun h2 => h2 h.2)
    simp only [exec_tokenLogWrite, execTokenLogWrite, hnext, hpart, hturn, hx, if_neg hno, Bool.not_true, Bool.false_eq_true, if_false]
  case waits =>
    have hpart : s.tapPart t = x.part := by simp only [State.tapPart, hx]
    simp only [exec_tokenLogWrite, execTokenLogWrite, hnext, hpart, hturn, Bool.not_false, if_true]
  case readmits =>
    obtain ⟨n, hn⟩ := hpre
    have hfits : ¬ y.freeCount < e.2.need := Nat.not_lt.mpr hneed
    simp only [exec_sessionReadmit, execSessionReadmit, hy, hturn, he, hn, hrob, sortBy, insertBy, if_neg hfits, State.order, List.filter_cons, List.filter_nil, List.foldl_cons, List.foldl_nil, List.find?_cons, List.find?_nil,
      Option.isNone_some, Option.isSome_some, Bool.not_true, Bool.not_false, Bool.false_and, Bool.and_self, Bool.false_eq_true, if_false, if_true, List.head?_cons]
    rfl
  case nextPage =>
    simp [exec_sessionReadmit, execSessionReadmit, hy, hturn, he, hpre, hrob, hst, hpages, hshort, hfree]
  case written =>
    have hg : (s.plan? x.plan).bind (fun y => (s.ring? y.tokenRing).map (fun g => (y.tokenRing, g))) = some (y.tokenRing, g) := by simp [hy, hring]
    simp only [exec_tokenRecordWrite, execTokenRecordWrite, hx, hrecs, hg, hacked, hroom, hturn, Bool.not_true, Bool.or_false, Bool.false_eq_true, if_false]

end

section
/-! Dispatch units (R191-R202), and the commit of a start that has ended (R61, R67, R73). -/

namespace Sys2Proof.Machine

/-! ### The instructions of this file -/

theorem exec_dispatchStart {unit} {s : State} : exec (.dispatchStart unit) s = execDispatchStart unit s := rfl
theorem exec_dispatchSlotFencePoll {unit} {s : State} : exec (.dispatchSlotFencePoll unit) s = execDispatchSlotFencePoll unit s := rfl

open Sys2Proof.Spec

/-! ## Accesses that a unit makes -/

/-- The second state is the first with more accesses under way. -/
def AccessesOnly (s t : State) : Prop :=
  ∃ n accesses claims spine, t = { s with fab := { s.fab with nextAccess := n, accesses := accesses, claims := claims }, spine := spine }

namespace AccessesOnly

variable {s t u : State}

theorem refl (s : State) : AccessesOnly s s := ⟨_, _, _, _, rfl⟩

theorem trans (h1 : AccessesOnly s t) (h2 : AccessesOnly t u) : AccessesOnly s u := by
  obtain ⟨_, _, _, _, rfl⟩ := h1
  obtain ⟨_, _, _, _, rfl⟩ := h2
  exact ⟨_, _, _, _, rfl⟩

theorem addAccess (a : Access) (claims : List (Nat × Nat × Nat × LineOp)) : AccessesOnly s (s.addAccess a claims) := by
  obtain ⟨sp, h, -⟩ := State.addAccess_eq s a claims
  exact ⟨_, _, _, sp, h⟩

theorem readLines (w : Requester) (p : Nat) (lines : List Nat) : AccessesOnly s (s.readLines w p lines) := by
  unfold State.readLines
  split
  · exact refl s
  · exact addAccess _ _

theorem writeBytes (w : Requester) (p : Nat) (bytes : List (Nat × BitVec 8)) : AccessesOnly s (s.writeBytes w p bytes) := by
  unfold State.writeBytes
  split
  · exact refl s
  · exact addAccess _ _

end AccessesOnly

/-! ## The commit of a start that has ended -/

section
variable {s : State} {e : Nat} {x : Engine} {st : Start} {t : Station}

/-- A start whose turn it is and whose outputs have room commits. -/
theorem State.tryCommit_commits (hx : s.engine? e = some x) (hst : x.start = some st) (ht : s.station? x.part x.station = some t) (hend : st.ended = true)
    (hok : st.faulted = false) (hturn : t.ordered = true → t.starts.head? = some e) (hroom : s.canCommit s.stn.held (st.items t) = true) :
    s.tryCommit e = s.performCommit e x { st with heldOrder := false } t := by
  have hfirst : (t.ordered && t.starts.head? != some e) = false := and_eq_false_of_imp fun h => by simp [hturn h]
  simp only [State.tryCommit, hx, hst, ht, hend, hok, hfirst, hroom, Bool.not_true, Bool.false_eq_true, if_false, if_true]

/-- A start of an ordered station waits for the one before it. -/
theorem State.tryCommit_waits (hx : s.engine? e = some x) (hst : x.start = some st) (ht : s.station? x.part x.station = some t) (hend : st.ended = true)
    (hok : st.faulted = false) (hord : t.ordered = true) (hturn : t.starts.head? ≠ some e) :
    s.tryCommit e = s.setEngine e { x with start := some { st with heldOrder := true } } := by
  have hlater : (t.ordered && t.starts.head? != some e) = true := by simpa [hord] using hturn
  simp only [State.tryCommit, hx, hst, ht, hend, hok, hlater, Bool.not_true, Bool.false_eq_true, if_false, if_true]

theorem State.unitCommit_tries (hx : s.engine? e = some x) (hst : x.start = some st) (hend : st.ended = true) (hfull : st.heldFull = false)
    (hord : st.heldOrder = false) (hstores : s.storesPending e = false) : s.unitCommit e = s.tryCommit e := by
  simp only [State.unitCommit, hx, hst, hend, hfull, hord, hstores, Bool.not_false, Bool.or_true, Bool.and_true, if_true]

theorem State.unitCommit_stores (hx : s.engine? e = some x) (hst : x.start = some st) (hok : st.faulted = false) (hstores : s.storesPending e = true) :
    s.unitCommit e = s := by
  simp only [State.unitCommit, hx, hst, hok, hstores, Bool.not_true, Bool.or_false, Bool.and_false, Bool.false_eq_true, if_false]

end

/-! ## The copy into the stage slot -/

section
variable {s : State} {e r slot src scl : Nat} {x : Engine} {st : Start} {d : DispRun} {pl : DispPlan}

/-- While SLOT_FENCE does not let it write, a unit waits. -/
theorem State.dispatchWrite_waits (hlive : s.ctxLive x.part st.wb.context = true)
    (hfree : s.slotFree e (bit r 21 0) (fldB r 22 2) d.count (fldB r 20 1) = false) : s.dispatchWrite e x st r d pl = s := by
  simp only [State.dispatchWrite, hlive, hfree, Bool.not_true, Bool.not_false, Bool.false_eq_true, if_false, if_true]

/-- Then it reads what it copies, writes its slot, and its program is at its end. -/
theorem State.dispatchWrite_copies (hlive : s.ctxLive x.part st.wb.context = true)
    (hfree : s.slotFree e (bit r 21 0) (fldB r 22 2) d.count (fldB r 20 1) = true) (hslot : s.keyOf x.part (placeAt r 12).blk (placeAt r 12).off = some slot)
    (hsrc : s.keyOf x.part st.wb.tileBlock (st.wb.tileOff * 64) = some src)
    (hscl : st.wb.scales = true → s.keyOf x.part st.wb.scaleBlock (st.wb.scaleOff * 64) = some scl) (hnoscl : st.wb.scales = false → scl = 0) :
    s.dispatchWrite e x st r d pl =
      State.setEngine ((s.readLines (.unit e) x.part (pl.copyLines st.wb src scl)).writeBytes (.unit e) x.part (s.stageBytes' pl r st.wb (slot + d.count % 65536 % fldB r 20 1 * fldB r 16 4) src scl)) e
        { x with start := some { st with emits := [(dispatchEmits pl r d.count st.wb).1].filter (fun y => (y.malformed s x.part).isNone), direct := (dispatchEmits pl r d.count st.wb).2.filter (fun y => (y.2.malformed s x.part).isNone), ended := true } } := by
  have hs : (if st.wb.scales then s.keyOf x.part st.wb.scaleBlock (st.wb.scaleOff * 64) else some 0) = some scl := by
    cases hc : st.wb.scales with
    | true => rw [if_pos rfl, hscl hc]
    | false => rw [if_neg (by decide), hnoscl hc]
  simp only [State.dispatchWrite, hlive, hfree, hslot, hsrc, hs, Bool.not_true, Bool.false_eq_true, if_false]
  rfl

end

end Sys2Proof.Machine

open Sys2Proof Sys2Proof.Machine Sys2Proof.Spec

/-- Settles O35: the plan is made of what the unit has read; the copy waits for SLOT_FENCE, and the commit for its writes. -/
theorem dispatchUnits : Obligations.DispatchUnits := by
  refine ⟨fun u e x st t d a b i j tk sk slot src scl pl s he hu hd hend hplan hin hlive hrej htk hsk hex hpl hlen hslot hsrc hscl hnoscl => ?starts,
    fun u e x st t d a b i j k s he hu hd hend hplan hin hlive hrej => ?rejects, fun u e x st t d s he hu hd hend hplan hdead => ?revoked,
    fun u e x st t d a l pl slot src scl s he hu hd hend hplan hin hlive hslot hsrc hscl hnoscl => ⟨fun hfree => ?polls, fun hfree => ?copies⟩,
    fun u e x st t s he hx hst ht hend hfull hord hok => ⟨fun hstores => ?stores, fun hstores hturn hroom => ?commits⟩⟩
  case starts =>
    subst he
    have hwb : st.wb = a := by simp only [Start.wb, hin]
    subst hwb
    obtain ⟨n, accesses, claims, spine, hread⟩ := (AccessesOnly.readLines (s := s) (.unit (0x3000 + u)) x.part (linesOf tk (8 * fldB x.rec64 2 2))).trans
      (AccessesOnly.readLines (.unit (0x3000 + u)) x.part ((List.range b.rows).flatMap (fun i => linesOf (sk + i * b.rowPitch) (packedRow b.format b.cols))))
    have hexec : exec (.dispatchStart u) s = .next (State.dispatchWrite (State.setDisp'
        ((s.readLines (.unit (0x3000 + u)) x.part (linesOf tk (8 * fldB x.rec64 2 2))).readLines (.unit (0x3000 + u)) x.part ((List.range b.rows).flatMap (fun i => linesOf (sk + i * b.rowPitch) (packedRow b.format b.cols))))
        (0x3000 + u) { d with plan := some pl }) (0x3000 + u) x st x.rec64 { d with plan := some pl } pl) := by
      subst hpl
      simp only [exec_dispatchStart, execDispatchStart, hu, hd, hend, hplan, hlive, hin, hrej, htk, hsk, hex, if_neg (Nat.not_lt.mpr hlen), Option.isSome_none, Bool.not_true, Bool.or_self, Bool.false_eq_true, if_false]
    rw [hread] at hexec
    refine ⟨State.setDisp' { s with fab := { s.fab with nextAccess := n, accesses := accesses, claims := claims }, spine := spine } (0x3000 + u) { d with plan := some pl }, rfl, rfl, rfl, fun hfree => ?_, fun hfree => ?_⟩
    · refine hexec.trans (congrArg Host.Outcome.next (Eq.trans (State.dispatchWrite_copies (slot := slot) (src := src) (scl := scl) ?_ ?_ ?_ ?_ ?_ ?_) ?_))
      · exact hlive
      · exact hfree
      · exact hslot
      · exact hsrc
      · exact hscl
      · exact hnoscl
      · rfl
    · refine hexec.trans (congrArg Host.Outcome.next (State.dispatchWrite_waits ?_ ?_))
      · exact hlive
      · exact hfree
  case rejects =>
    subst he
    have hwb : st.wb = a := by simp only [Start.wb, hin]
    simp only [exec_dispatchStart, execDispatchStart, hu, hd, hend, hplan, hwb, hlive, hin, hrej, Option.isSome_none, Bool.not_true, Bool.or_self, Bool.false_eq_true, if_false]
  case revoked =>
    subst he
    simp only [exec_dispatchStart, execDispatchStart, hu, hd, hend, hplan, hdead, Option.isSome_none, Bool.not_false, Bool.or_self, Bool.false_eq_true, if_false, if_true, State.endRevoked]
  case polls =>
    subst he
    have hwb : st.wb = a.2 := by simp only [Start.wb, hin]
    simp only [exec_dispatchSlotFencePoll, execDispatchSlotFencePoll, hu, hd, hplan, hend, Bool.false_eq_true, if_false, State.dispatchWrite_waits (hwb ▸ hlive) hfree]
  case copies =>
    subst he
    have hwb : st.wb = a.2 := by simp only [Start.wb, hin]
    simp only [exec_dispatchSlotFencePoll, execDispatchSlotFencePoll, hu, hd, hplan, hend, Bool.false_eq_true, if_false,
      State.dispatchWrite_copies (hwb ▸ hlive) hfree hslot (hwb ▸ hsrc) (hwb ▸ hscl) (hwb ▸ hnoscl), hwb]
  case stores =>
    subst he
    exact congrArg Host.Outcome.next (State.unitCommit_stores hx hst hok hstores)
  case commits =>
    subst he
    exact congrArg Host.Outcome.next ((State.unitCommit_tries hx hst hend hfull hord hstores).trans (State.tryCommit_commits hx hst ht hend hok hturn hroom))

end

section
/-! How a waybill is submitted, enqueued and refilled (R46, R71-R73). -/

namespace Sys2Proof.Machine

/-! ### The instructions of this file -/

theorem exec_waybillEnqueue {q} {s : State} : exec (.waybillEnqueue q) s = execWaybillEnqueue q s := rfl
theorem exec_hubDirectoryEnqueue {q} {s : State} : exec (.hubDirectoryEnqueue q) s = execHubDirectoryEnqueue q s := rfl
theorem exec_refillGroupStart {q} {s : State} : exec (.refillGroupStart q) s = execRefillGroupStart q s := rfl

open Sys2Proof.Spec

/-! ## What an enqueue writes -/

theorem WritesOnly.queue?_eq {s t : State} (h : WritesOnly s t) (q : Nat) : t.queue? q = s.queue? q := by
  obtain ⟨_, _, rfl⟩ := h
  rfl

theorem State.queue?_setQueue (s : State) (q k : Nat) (x : TileQ) : (s.setQueue q x).queue? k = if k = q then some x else s.queue? k := by
  simp [State.queue?, State.setQueue]

/-- A waybill that is not HEAVY gives no hint. -/
theorem State.heavyHint_light {s : State} {x : TileQ} {w : Waybill} (h : w.heavy = false) : s.heavyHint x w = s := by
  simp only [State.heavyHint, h, Bool.false_eq_true, if_false]

/-- Lines that go to a hot ring are accesses of slice memory. -/
theorem State.foldl_ringWrite_eq {α : Type} (p b : Nat) (off : α → Nat) (bytes : α → List (BitVec 8)) (l : List α) (s : State) :
    ∃ fab, l.foldl (fun s i => s.ringWrite p b (off i) (bytes i)) s = { s with fab := fab } := by
  induction l generalizing s with
  | nil => exact ⟨_, rfl⟩
  | cons a l ih =>
    obtain ⟨_, h⟩ := ih (s.ringWrite p b (off a) (bytes a))
    exact ⟨_, h⟩

/-- A queue that spills takes the waybill at its spill ring's end. -/
theorem State.enqueueNow_spills {s : State} {q : Nat} {x : TileQ} {w : Waybill} (hlight : (w.stamp s q x).heavy = false)
    (hspill : x.placed = none ∨ x.spill ≠ [] ∨ x.hotFree = 0 ∨ s.ringMoving x = true) :
    (s.enqueueNow q x w).queue? q = some { x with tail := x.tail + 1, spill := x.spill ++ [w.stamp s q x] } := by
  obtain ⟨_, _, _, hc⟩ := DescsOnly.cacheDesc (s := s) q
  have hput : ∀ t : State, (t.setQueue q { x with tail := x.tail + 1, spill := x.spill ++ [w.stamp s q x] }).queue? q = some { x with tail := x.tail + 1, spill := x.spill ++ [w.stamp s q x] } :=
    fun t => by rw [State.queue?_setQueue, if_pos rfl]
  unfold State.enqueueNow
  dsimp only
  rw [State.heavyHint_light hlight, hc]
  split
  next blk off hplaced =>
    have hno : ¬ (x.spill = [] ∧ 0 < x.hotFree ∧ s.ringMoving x = false) := by
      rintro ⟨h1, h2, h3⟩
      rcases hspill with h | h | h | h
      · rw [hplaced] at h; cases h
      · exact h h1
      · omega
      · rw [h3] at h; cases h
    split
    next h => exact absurd h hno
    next =>
      split
      · exact ((WritesOnly.writeObj _ _ _).queue?_eq q).trans (hput _)
      · exact hput _
  next =>
    split
    · exact ((WritesOnly.writeObj _ _ _).queue?_eq q).trans (hput _)
    · exact hput _

/-- A queue whose hot ring has a place, with nothing spilled, takes it there. -/
theorem State.enqueueNow_hot {s : State} {q : Nat} {x : TileQ} {w : Waybill} {a off : Nat} (hlight : (w.stamp s q x).heavy = false) (hplaced : x.placed = some (a, off))
    (hspill : x.spill = []) (hfree : 0 < x.hotFree) (hstill : s.ringMoving x = false) :
    ∃ y, (s.enqueueNow q x w).queue? q = some y ∧ y.tail = x.tail + 1 ∧ y.hot = x.hot ++ [w.stamp s q x] ∧ y.spill = [] := by
  obtain ⟨_, _, _, hc⟩ := DescsOnly.cacheDesc (s := s) q
  unfold State.enqueueNow
  dsimp only
  rw [State.heavyHint_light hlight, hc, hplaced]
  dsimp only
  rw [if_pos (by exact ⟨hspill, hfree, hstill⟩)]
  split
  all_goals exact ⟨_, (State.queue?_setQueue _ q q _).trans (if_pos rfl), rfl, rfl, hspill⟩

end Sys2Proof.Machine

open Sys2Proof Sys2Proof.Machine Sys2Proof.Spec

/-- Settles O17: an enqueue goes to the hot ring, to the spill ring, or is held; a refill group moves the oldest spilled waybills. -/
theorem waybillQueues : Obligations.WaybillQueues := by
  refine ⟨fun q r e s hr hrsvd htile hplan hfull hgood => ?submits, fun q f l x s hnext hx hplaced => ⟨fun hno => ?held, fun hplaces => ?enqueued⟩,
    fun q f l x s hnext hx hplaced hplaces => ?hub, fun q f l x s hnext hx hplaced hno => ?hubHeld, fun s q x o w hplaced hlight hobj => ?spilled,
    fun s q x a off b w hplaced hphys hlight => ?placed, fun q x s hx hsize hstill hthawed => ?refillStarts, fun q x s hx hrefill => ?refilled⟩
  case submits =>
    refine congrArg Host.Outcome.next ((runCmd_ready hr ?_).trans (State.served_zero _ _))
    simp only [waybillSubmitBody, hrsvd, htile, hplan, hgood, hfull, bne_self_eq_false, Bool.not_true, Bool.false_eq_true, if_false, done]
  case held => simp only [exec_waybillEnqueue, execWaybillEnqueue, hnext, hx, Option.isNone_eq_false_iff.mpr hplaced, hno, Bool.false_eq_true, if_false, if_true]
  case enqueued => simp only [exec_waybillEnqueue, execWaybillEnqueue, hnext, hx, Option.isNone_eq_false_iff.mpr hplaced, hplaces, Bool.false_eq_true, if_false]
  case hub => simp only [exec_hubDirectoryEnqueue, execHubDirectoryEnqueue, hnext, hx, hplaced, hplaces, Option.isSome_none, Bool.false_eq_true, if_false]
  case hubHeld => simp only [exec_hubDirectoryEnqueue, execHubDirectoryEnqueue, hnext, hx, hplaced, hno, Option.isSome_none, Bool.false_eq_true, if_false, if_true]
  case spilled => exact ⟨_, rfl, State.enqueueNow_spills hlight (.inl hplaced)⟩
  case placed =>
    by_cases hspill : x.spill ≠ [] ∨ x.hotFree = 0 ∨ s.ringMoving x = true
    · refine ⟨_, _, rfl, State.enqueueNow_spills hlight (.inr hspill), rfl, fun h1 h2 h3 => ?_, fun _ => ⟨rfl, rfl⟩⟩
      rcases hspill with h | h | h
      · exact absurd h1 h
      · omega
      · rw [h3] at h; cases h
    · have h1 : x.spill = [] := Decidable.not_not.mp fun h => hspill (.inl h)
      have h2 : 0 < x.hotFree := Nat.pos_of_ne_zero fun h => hspill (.inr (.inl h))
      have h3 : s.ringMoving x = false := Bool.eq_false_iff.mpr fun h => hspill (.inr (.inr h))
      obtain ⟨y, hy, htail, hhot, hsp⟩ := State.enqueueNow_hot hlight hplaced h1 h2 h3
      exact ⟨_, y, rfl, hy, htail, fun _ _ _ => ⟨hhot, hsp⟩, fun h => absurd h hspill⟩
  case refillStarts => simp [exec_refillGroupStart, execRefillGroupStart, hx, hsize, hstill, hthawed]
  case refilled =>
    have hset : ∀ (u : State) fab y, u = { s.setQueue q y with fab := fab } → u = { s with stn := u.stn, fab := u.fab } ∧ u.queue? q = some y ∧ ∀ k, k ≠ q → u.queue? k = s.queue? k := by
      rintro u fab y rfl
      exact ⟨rfl, (State.queue?_setQueue s q q y).trans (if_pos rfl), fun k hk => (State.queue?_setQueue s q k y).trans (if_neg hk)⟩
    refine ⟨_, rfl, ?_⟩
    simp only [hx, if_neg hrefill]
    split
    · exact hset _ s.fab _ rfl
    · obtain ⟨fab, h⟩ := State.foldl_ringWrite_eq _ _ _ _ _ _
      exact hset _ fab _ h

end

section
/-! How a dispatcher starts a waybill, and how a start commits (R58-R77). -/

namespace Sys2Proof.Machine

/-! ### The instructions of this file -/

theorem exec_waybillStart {block} {s : State} : exec (.waybillStart block) s = execWaybillStart block s := rfl
theorem exec_heldCommitComplete {s : State} : exec .heldCommitComplete s = execHeldCommitComplete s := rfl
theorem exec_orderedCommitSignal {p station} {s : State} : exec (.orderedCommitSignal p station) s = execOrderedCommitSignal p station s := rfl

open Sys2Proof.Spec

/-! ## What a start begins -/

/-- Work charged to a request opens its reckoning, or raises an event where none can be opened. -/
theorem State.reckTouch_eq (s : State) (p req ctx : Nat) :
    ∃ events reck, s.reckTouch p req ctx = { s with host := { s.host with events := events }, reck := reck } := by
  unfold State.reckTouch
  split
  · exact ⟨_, _, rfl⟩
  · split
    · exact ⟨_, _, rfl⟩
    · exact State.reckOpen_eq _ _ _ _ _ _

/-- The second state is the first with a cell or a unit set up for its start. -/
def SetUpOnly (s t : State) : Prop := ∃ fab spine cell unit free, t = { s with fab := fab, spine := spine, cell := cell, unit := unit, free := free }

namespace SetUpOnly

variable {s t u : State}

theorem trans (h1 : SetUpOnly s t) (h2 : SetUpOnly t u) : SetUpOnly s u := by
  obtain ⟨_, _, _, _, _, rfl⟩ := h1
  obtain ⟨_, _, _, _, _, rfl⟩ := h2
  exact ⟨_, _, _, _, _, rfl⟩

theorem addAccess (a : Access) (claims : List (Nat × Nat × Nat × LineOp)) : SetUpOnly s (s.addAccess a claims) := by
  obtain ⟨_, _, _, _, h⟩ := AccessesOnly.addAccess (s := s) a claims
  exact ⟨_, _, _, _, _, h⟩

theorem setM (c : Nat) (m : MCell) : SetUpOnly s (s.setM c m) := ⟨_, _, _, _, _, rfl⟩

theorem beginLoad (c p : Nat) (m : MCell) (l : MLoad) : SetUpOnly s (s.beginLoad c p m l) := by
  unfold State.beginLoad
  dsimp only
  split
  · exact setM _ _
  · exact (setM _ _).trans (addAccess _ _)

theorem startM (c p : Nat) (w : Waybill) : SetUpOnly s (s.startM c p w) := by
  have hfree : SetUpOnly s { s with free := s.free + 1 } := ⟨_, _, _, _, _, rfl⟩
  unfold State.startM
  dsimp only
  split
  · split
    · exact (hfree.trans (setM _ _)).trans (addAccess _ _)
    · exact hfree.trans (beginLoad _ _ _ _)
  · exact hfree.trans (setM _ _)

end SetUpOnly

/-- The start of a station's inputs, as it begins. -/
def State.newStart (s : State) (p id : Nat) (inputs : List (Nat × Waybill)) : Start :=
  { part := p, station := id, inputs := inputs, emits := [], direct := [], ended := false, heldFull := false, heldOrder := false, begun := s.now, faulted := false }

/-- A start that begins holds its engine and stands among its station's, and its cell or unit is set up. -/
theorem State.begin_eq {s : State} {e : Nat} {x : Engine} (hx : s.engine? e = some x) (p id : Nat) (t : Station) (inputs : List (Nat × Waybill)) :
    ∃ events reck fab spine cell unit free, s.begin p id e t inputs =
      { s with host := { s.host with events := events }, reck := reck, fab := fab, spine := spine, cell := cell, unit := unit, free := free,
               stn := { s.stn with engines := Tab.put s.stn.engines e { x with start := some (s.newStart p id inputs) }, stations := Tab.put s.stn.stations (stnKey p id) { t with starts := t.starts ++ [e] } } } := by
  obtain ⟨events, reck, hu⟩ := State.reckTouch_eq ((s.setEngine e { x with start := some (s.newStart p id inputs) }).setStation p id { t with starts := t.starts ++ [e] }) p
    (s.newStart p id inputs).wb.requestId (s.newStart p id inputs).wb.context
  have hset : ∀ v, SetUpOnly (((s.setEngine e { x with start := some (s.newStart p id inputs) }).setStation p id { t with starts := t.starts ++ [e] }).reckTouch p (s.newStart p id inputs).wb.requestId (s.newStart p id inputs).wb.context) v →
      ∃ events reck fab spine cell unit free, v =
        { s with host := { s.host with events := events }, reck := reck, fab := fab, spine := spine, cell := cell, unit := unit, free := free,
                 stn := { s.stn with engines := Tab.put s.stn.engines e { x with start := some (s.newStart p id inputs) }, stations := Tab.put s.stn.stations (stnKey p id) { t with starts := t.starts ++ [e] } } } := by
    rintro v ⟨fab, spine, cell, unit, free, rfl⟩
    rw [hu]
    exact ⟨events, reck, fab, spine, cell, unit, free, rfl⟩
  unfold State.begin
  rw [hx]
  dsimp only
  split
  · exact hset _ (.startM _ _ _)
  all_goals exact hset _ ⟨_, _, _, _, _, rfl⟩

/-! ## Heads that are taken -/

section
variable {s : State} {p id : Nat} {t : Station}

/-- A head that was returned leaves its station; else the queue's head leaves. -/
theorem State.popInput_eq (ht : s.station? p id = some t) (i : Nat) : ∃ stations queues l,
    s.popInput p id i = { s with stn := { s.stn with stations := stations, queues := queues } } ∧ (s.popInput p id i).station? p id = some { t with returned := l } := by
  unfold State.popInput
  rw [ht]
  dsimp only
  split
  next r l h => exact ⟨_, _, l, rfl, by simp [State.station?, State.setStation]⟩
  next =>
    split
    · exact ⟨_, _, t.returned, rfl, ht⟩
    · exact ⟨_, _, t.returned, rfl, ht⟩

theorem State.popInputs_eq (ht : s.station? p id = some t) (l : List Nat) : ∃ stations queues r,
    l.foldl (fun (s : State) k => s.popInput p id k) s = { s with stn := { s.stn with stations := stations, queues := queues } } ∧
    (l.foldl (fun (s : State) k => s.popInput p id k) s).station? p id = some { t with returned := r } := by
  induction l generalizing s t with
  | nil => exact ⟨_, _, t.returned, rfl, ht⟩
  | cons i l ih =>
    obtain ⟨_, _, _, h1, ht1⟩ := State.popInput_eq ht i
    obtain ⟨stations, queues, r, h2, ht2⟩ := ih ht1
    refine ⟨stations, queues, r, ?_, ht2⟩
    rw [List.foldl_cons, h2, h1]

/-- An engine that a dispatcher takes exists. -/
theorem State.engine_of_taking {i u : Nat} {ws : List Waybill} (h : s.takingEngine t i ws = some u) : ∃ x, s.engine? u = some x := by
  have hu := List.find?_some h
  cases hx : s.engine? u with
  | some x => exact ⟨x, rfl⟩
  | none => simp [hx] at hu

/-- A waybill that passes its checks goes to the engine that takes it. -/
theorem State.dispatchOne_starts {b i u : Nat} {w : Waybill} (hcheck : s.check2 p w false = .pass) (hpass : w.passes = false) (hcan : s.cancelled p w.requestId = false)
    (htrue : t.isTrue w = true) : s.dispatchOne b p id i t w (some u) =
      if t.kind = 5 then s.setComb u { s.comb u with taken := (s.comb u).taken ++ [(i, w)] } else s.begin p id u t [(i, w)] := by
  have hw : ({ w with abandoned := w.abandoned || s.cancelled p w.requestId } : Waybill) = w := by rw [hcan, Bool.or_false]
  simp only [State.dispatchOne, hcheck, hw, hpass, htrue, Bool.not_true, Bool.false_eq_true, if_false]

/-- A ZIP set of one context whose heads pass their checks goes to the engine that takes it. -/
theorem State.dispatchZip_starts {b u ctx : Nat} {ws : List (Nat × Waybill)} (hne : ws ≠ [])
    (h : ∀ y, y ∈ ws → s.check2 p y.2 false = .pass ∧ y.2.passes = false ∧ s.cancelled p y.2.requestId = false ∧ t.isTrue y.2 = true ∧ y.2.context = ctx) :
    s.dispatchZip b p id t ws (some u) = s.begin p id u t ws := by
  obtain ⟨y, l, rfl⟩ := List.exists_cons_of_ne_nil hne
  have hsame : (y :: l).any (fun i => i.2.context != y.2.context) = false := List.any_eq_false.mpr fun z hz => by
    simp [(h z hz).2.2.2.2, (h y List.mem_cons_self).2.2.2.2]
  have hcs : (y :: l).map (fun i => (i.1, ({ i.2 with abandoned := i.2.abandoned || s.cancelled p i.2.requestId } : Waybill), s.check2 p i.2 (false && i.1 != 0))) =
      (y :: l).map (fun i => (i.1, i.2, Check.pass)) := List.map_congr_left fun z hz => by
    obtain ⟨hcheck, -, hcan, -⟩ := h z hz
    rw [hcan, Bool.or_false, Bool.false_and, hcheck]
  have hpass : ((y :: l).map (fun i => (i.1, i.2, Check.pass))).any (fun i => i.2.1.passes) = false := by
    rw [List.any_map]
    exact List.any_eq_false.mpr fun z hz => ne_true_of_eq_false (h z hz).2.1
  have htrue : ((y :: l).map (fun i => (i.1, i.2, Check.pass))).any (fun i => !t.isTrue i.2.1) = false := by
    rw [List.any_map]
    exact List.any_eq_false.mpr fun z hz => by simp [(h z hz).2.2.2.1]
  have hgone : ((y :: l).map (fun i => (i.1, i.2, Check.pass))).filter (fun i => i.2.2 != Check.pass) = [] := by
    rw [List.filter_eq_nil_iff]
    intro z hz
    obtain ⟨_, _, rfl⟩ := List.mem_map.mp hz
    simp
  have hback : ((y :: l).map (fun i => (i.1, i.2, Check.pass))).map (fun i => (i.1, i.2.1)) = y :: l := by
    rw [List.map_map]
    exact List.map_id _
  unfold State.dispatchZip
  dsimp only
  rw [hsame, hcs, hgone, hpass, htrue, hback]
  rfl

/-- The state in which the dispatcher has noted the slot that it serves. -/
def State.serving (s : State) (b slot : Nat) : State := s.setDisp b { s.disp b with lastSlot := slot }

/-- A waybill that passes its checks leaves its input, and goes to the engine that takes it. -/
theorem execWaybillStart_one {b slot i u : Nat} {w : Waybill} (hnext : s.nextCandidate b = some (slot, p, id, i)) (ht : s.station? p id = some t) (hzip : t.zip = false)
    (hw : s.inputHead t i = some w) (hu : s.takingEngine t i [w] = some u) (hcheck : s.check2 p w false = .pass) (hpass : w.passes = false)
    (hcan : s.cancelled p w.requestId = false) (htrue : t.isTrue w = true) :
    ∃ stations queues l, (s.serving b slot).popInput p id i = { s.serving b slot with stn := { (s.serving b slot).stn with stations := stations, queues := queues } } ∧
      ((s.serving b slot).popInput p id i).station? p id = some { t with returned := l } ∧
      execWaybillStart b s = .next (
        let v := ((s.serving b slot).popInput p id i).setStation p id { t with returned := l, lastIn := i }
        if t.kind = 5 then v.setComb u { v.comb u with taken := (v.comb u).taken ++ [(i, w)] } else v.begin p id u { t with returned := l, lastIn := i } [(i, w)]) := by
  obtain ⟨stations, queues, l, hpop, ht1⟩ := State.popInput_eq (s := s.serving b slot) ht i
  refine ⟨stations, queues, l, hpop, ht1, ?_⟩
  have hgo := State.dispatchOne_starts (s := ((s.serving b slot).popInput p id i).setStation p id { t with returned := l, lastIn := i }) (p := p) (id := id)
    (t := { t with returned := l, lastIn := i }) (b := b) (i := i) (u := u) (w := w) (by rw [hpop]; exact hcheck) hpass (by rw [hpop]; exact hcan) htrue
  refine Eq.trans ?_ (congrArg Host.Outcome.next hgo)
  unfold State.serving at ht1 ⊢
  dsimp only at ht1
  simp only [execWaybillStart, hnext, ht]
  rw [if_neg (by simp [hzip])]
  simp only [hw, hu, ht1]

/-- What the head that leaves is taken from. -/
theorem State.popInput_queue {i : Nat} {y : TileQ} (ht : s.station? p id = some t) (htake : takeFirst (fun r => r.input == i) t.returned = none)
    (hq : s.queue? (t.inQ.getD i 0xFFFFFFFF) = some y) : s.popInput p id i = s.setQueue (t.inQ.getD i 0xFFFFFFFF) (y.pop s.now) := by
  simp only [State.popInput, ht, htake, hq]

theorem State.popInput_returned {i : Nat} {r : Returned} {l : List Returned} (ht : s.station? p id = some t)
    (htake : takeFirst (fun r => r.input == i) t.returned = some (r, l)) : s.popInput p id i = s.setStation p id { t with returned := l } := by
  simp only [State.popInput, ht, htake]

end

/-! ## Commits -/

/-- The second state is the first after waybills, signals and charges of a commit have left. -/
def CommitsOnly (s t : State) : Prop :=
  ∃ qpairs flight port spine reck, t = { s with part := { s.part with qpairs := qpairs }, stn := { s.stn with flight := flight }, fen := { s.fen with port := port }, spine := spine, reck := reck }

namespace CommitsOnly

variable {s t u : State}

theorem refl (s : State) : CommitsOnly s s := ⟨_, _, _, _, _, rfl⟩

theorem trans (h1 : CommitsOnly s t) (h2 : CommitsOnly t u) : CommitsOnly s u := by
  obtain ⟨_, _, _, _, _, rfl⟩ := h1
  obtain ⟨_, _, _, _, _, rfl⟩ := h2
  exact ⟨_, _, _, _, _, rfl⟩

theorem foldl {α : Type} {f : State → α → State} (hf : ∀ t a, CommitsOnly t (f t a)) (l : List α) (s : State) : CommitsOnly s (l.foldl f s) := by
  induction l generalizing s with
  | nil => exact refl s
  | cons a l ih => exact (hf s a).trans (ih _)

theorem launch (q : Nat) (w : Waybill) (rank : Nat) : CommitsOnly s (s.launch q w rank) := by
  obtain ⟨_, _, _, h⟩ := State.launch_eq s q w rank
  exact ⟨_, _, _, _, _, h⟩

theorem fenceAction (p : Nat) (w : Waybill) (rank source : Nat) (aband : Bool) : CommitsOnly s (s.fenceAction p w rank source aband) := by
  unfold State.fenceAction
  split
  · exact ⟨_, _, _, _, _, rfl⟩
  · split <;> exact ⟨_, _, _, _, _, rfl⟩

theorem sealAccounts (l : List Nat) : ∃ reck, l.foldl (fun (s : State) k => s.sealAccount k) s = { s with reck := reck } := by
  induction l generalizing s with
  | nil => exact ⟨_, rfl⟩
  | cons k l ih =>
    obtain ⟨_, h⟩ := ih (s := s.sealAccount k)
    exact ⟨_, h⟩

theorem reckClose (p req flags : Nat) : CommitsOnly s (s.reckClose p req flags).1 := by
  unfold State.reckClose
  split
  · exact refl s
  · dsimp only
    split
    · unfold State.epochClose
      dsimp only
      obtain ⟨_, h⟩ := sealAccounts (s := _) _
      rw [h]
      exact ⟨_, _, _, _, _, rfl⟩
    · exact ⟨_, _, _, _, _, rfl⟩

theorem reckLast (p : Nat) (w : Waybill) : CommitsOnly s (s.reckLast p w) := by
  unfold State.reckLast
  split
  · split
    · split
      · exact reckClose _ _ _
      · exact refl s
    · exact refl s
  · exact refl s

end CommitsOnly

theorem State.leaveIfAsked_stays {s : State} {p i e : Nat} {t : Station} (ht : s.station? p i = some t) (h : t.leaving e = false) : s.leaveIfAsked p i e = s := by
  simp only [State.leaveIfAsked, ht, h, Bool.false_and, Bool.false_eq_true, if_false]

/-- A start that commits leaves its engine and its station, and what it held for full queues is held no longer. -/
theorem State.performCommit_frees {s : State} {e : Nat} {x : Engine} {st : Start} {t : Station} (hleave : t.leaving e = false)
    (hroutes : st.emits.all (fun w => (t.route w).isSome) = true) :
    (s.performCommit e x st t).engine? e = some { x with start := none } ∧
    (s.performCommit e x st t).station? x.part x.station = some { t with starts := t.starts.filter (· != e), lastCommit := s.now } ∧
    (s.performCommit e x st t).stn.held = s.stn.held.filter (· != Holder.engine e) := by
  have hnone : st.emits.filter (fun w => (t.route w).isNone) = [] := by
    rw [List.filter_eq_nil_iff]
    intro w hw
    have := List.all_eq_true.mp hroutes w hw
    simpa [Option.isSome_iff_ne_none] using this
  unfold State.performCommit
  dsimp only
  rw [hnone, List.foldl_nil]
  generalize hu : List.foldl _ s _ = u
  have hsu : CommitsOnly s u := hu ▸ CommitsOnly.foldl (fun _ _ => .launch _ _ _) _ _
  generalize hv : List.foldl _ u _ = v
  have huv : CommitsOnly u v := hv ▸ CommitsOnly.foldl (fun _ _ => by
    split
    · exact .fenceAction _ _ _ _ _
    · exact (CommitsOnly.fenceAction _ _ _ _ _).trans (.reckLast _ _)) _ _
  obtain ⟨_, _, _, _, _, rfl⟩ := hsu.trans huv
  rw [State.leaveIfAsked_stays (t := { t with starts := t.starts.filter (· != e), lastCommit := s.now }) (by simp [State.station?, State.setStation]) hleave]
  exact ⟨by simp [State.engine?, State.setEngine, State.setStation], by simp [State.station?, State.setStation], rfl⟩

end Sys2Proof.Machine

open Sys2Proof Sys2Proof.Machine Sys2Proof.Spec

/-- Settles O18: the checks of a start, then the engine that takes it; a commit launches, signals and frees. -/
theorem startsAndCommits : Obligations.StartsAndCommits := by
  refine ⟨fun b slot p id i t w u s hnext ht hzip hkind hw hu hcheck hpass hcan htrue => ?starts,
    fun b slot p id i t u ctx ws s hnext ht hzip hkind hws hne hu hall => ?zips,
    fun b slot p id i t w u s hnext ht hzip hkind hw hu hcheck hpass hcan htrue => ?combines, fun b s hnext => ?idle,
    fun e x st t s hx hst ht hend hfull hord hok hstores hturn hroom => ?commits, fun e x st t s hx hst ht hend hfull hord hok hstores hordered hturn => ?waits,
    fun e x st t s hleave hroutes => State.performCommit_frees hleave hroutes, fun q w rank s hheld hroom => ?heldLeaves, fun q w rank s hheld hroom => ?heldStays,
    fun e x st t s hheld hx hst ht hroom => ?heldCommits, fun p id t e l x st s ht hstarts hx hp hid hst hordered hord hend hok hroom => ?signalled⟩
  case starts =>
    obtain ⟨x, hx⟩ := State.engine_of_taking hu
    obtain ⟨stations, queues, l, hpop, ht1, hexec⟩ := execWaybillStart_one hnext ht hzip hw hu hcheck hpass hcan htrue
    have hqueue : ∀ q, Tab.find queues q = ((s.serving b slot).popInput p id i).queue? q := fun q => by rw [hpop]; rfl
    have hst : some { t with returned := l } = ((s.serving b slot).popInput p id i).station? p id := ht1.symm
    rw [hpop] at hexec
    obtain ⟨events, reck, fab, spine, cell, unit, free, hbegin⟩ := State.begin_eq (e := u) (x := x) (s := State.setStation { s.serving b slot with stn := { (s.serving b slot).stn with stations := stations, queues := queues } } p id { t with returned := l, lastIn := i })
      hx p id { t with returned := l, lastIn := i } [(i, w)]
    dsimp only at hexec
    rw [if_neg hkind, hbegin] at hexec
    refine ⟨_, { x with start := some (s.newStart p id [(i, w)]) }, hexec, rfl, ?_, rfl, ?_, fun y htake hq => ?_, fun r l' htake => ?_⟩
    · exact (Tab.find_put _ _ _ _).trans (if_pos rfl)
    · simp [State.disp, State.setStation, State.serving, State.setDisp]
    · rw [State.popInput_queue (s := s.serving b slot) (t := t) ht htake hq] at hqueue hst
      obtain rfl : l = t.returned := congrArg Station.returned (Option.some.inj (hst.trans ht))
      exact ⟨(hqueue _).trans ((State.queue?_setQueue _ _ _ _).trans (if_pos rfl)), (Tab.find_put _ _ _ _).trans (if_pos rfl)⟩
    · rw [State.popInput_returned (s := s.serving b slot) (t := t) ht htake] at hqueue hst
      obtain rfl : l = l' := by simpa [State.station?, State.setStation] using hst
      exact ⟨hqueue _, (Tab.find_put _ _ _ _).trans (if_pos rfl)⟩
  case zips =>
    obtain ⟨x, hx⟩ := State.engine_of_taking hu
    obtain ⟨stations, queues, l, hpop, ht1⟩ := State.popInputs_eq (s := s.serving b slot) ht (List.range t.nIn)
    have hgo := State.dispatchZip_starts (s := (List.range t.nIn).foldl (fun (s : State) k => s.popInput p id k) (s.serving b slot)) (p := p) (id := id) (t := { t with returned := l }) (b := b) (u := u) (ctx := ctx) hne
      (by rw [hpop]; exact hall)
    have hexec : exec (.waybillStart b) s = .next (((List.range t.nIn).foldl (fun (s : State) k => s.popInput p id k) (s.serving b slot)).begin p id u { t with returned := l } ws) := by
      rw [← hgo]
      unfold State.serving at ht1 ⊢
      dsimp only at ht1
      simp only [exec_waybillStart, execWaybillStart, hnext, ht]
      rw [if_pos (by simp [hzip])]
      simp only [← hws, hu, ht1]
    obtain ⟨events, reck, fab, spine, cell, unit, free, hbegin⟩ := State.begin_eq (e := u) (x := x) (s := { s.serving b slot with stn := { (s.serving b slot).stn with stations := stations, queues := queues } }) hx p id { t with returned := l } ws
    rw [hpop, hbegin] at hexec
    refine ⟨_, { x with start := some (s.newStart p id ws) }, hexec, ?_, ?_, rfl⟩
    · exact (Tab.find_put _ _ _ _).trans (if_pos rfl)
    · simp [State.disp, State.serving, State.setDisp]
  case combines =>
    obtain ⟨stations, queues, l, hpop, ht1, hexec⟩ := execWaybillStart_one hnext ht hzip hw hu hcheck hpass hcan htrue
    rw [hpop] at hexec
    dsimp only at hexec
    rw [if_pos hkind] at hexec
    refine ⟨_, hexec, ?_, ?_, rfl⟩
    · simp [State.disp, State.setComb, State.setStation, State.serving, State.setDisp]
    · simp [State.comb, State.setComb, State.setStation, State.serving, State.setDisp]
  case idle => simp only [exec_waybillStart, execWaybillStart, hnext]
  case commits =>
    exact congrArg Host.Outcome.next ((State.unitCommit_tries hx hst hend hfull hord hstores).trans (State.tryCommit_commits hx hst ht hend hok hturn hroom))
  case waits =>
    exact congrArg Host.Outcome.next ((State.unitCommit_tries hx hst hend hfull hord hstores).trans (State.tryCommit_waits hx hst ht hend hok hordered hturn))
  case heldLeaves => simp [exec_heldCommitComplete, execHeldCommitComplete, hheld, completeHeld, State.tryHeld, hroom]
  case heldStays => simp [exec_heldCommitComplete, execHeldCommitComplete, hheld, completeHeld, State.tryHeld, hroom]
  case heldCommits => simp [exec_heldCommitComplete, execHeldCommitComplete, hheld, completeHeld, State.tryHeld, hx, hst, ht, hroom]
  case signalled =>
    subst hp hid
    have htry := State.tryCommit_commits hx hst ht hend hok (fun _ => by rw [hstarts]; rfl) hroom
    simp only [exec_orderedCommitSignal, execOrderedCommitSignal, ht, hstarts, hx, hst, hordered, hord, htry, Bool.and_self, if_true]

end

section
/-! Ports: training, sparing and quarantine (R364-R372, R385-R388). -/

namespace Sys2Proof.Machine

/-! ### The instructions of this file -/

theorem exec_portTrainRetry {n} {s : State} : exec (.portTrainRetry n) s = execPortTrainRetry n s := rfl
theorem exec_pmdTrainDone {n good} {s : State} : exec (.pmdTrainDone n good) s = execPmdTrainDone n good s := rfl
theorem exec_ctrlEcho {n reply trip} {s : State} : exec (.ctrlEcho n reply trip) s = execCtrlEcho n reply trip s := rfl
theorem exec_alignDone {n skew} {s : State} : exec (.alignDone n skew) s = execAlignDone n skew s := rfl
theorem exec_ctrlIdent {n kind pport node variant b0 b1 b2 b3} {s : State} : exec (.ctrlIdent n kind pport node variant b0 b1 b2 b3) s = execCtrlIdent n kind pport node variant b0 b1 b2 b3 s := rfl
theorem exec_probationEnd {n} {s : State} : exec (.probationEnd n) s = execProbationEnd n s := rfl
theorem exec_laneFault {n lane unc sym lost} {s : State} : exec (.laneFault n lane unc sym lost) s = execLaneFault n lane unc sym lost s := rfl
theorem exec_ctrlSpareReq {n pos at'} {s : State} : exec (.ctrlSpareReq n pos at') s = execCtrlSpareReq n pos at' s := rfl
theorem exec_ctrlSpareAck {n at'} {s : State} : exec (.ctrlSpareAck n at') s = execCtrlSpareAck n at' s := rfl
theorem exec_spareSwap {n} {s : State} : exec (.spareSwap n) s = execSpareSwap n s := rfl
theorem exec_partnerLoss {n} {s : State} : exec (.partnerLoss n) s = execPartnerLoss n s := rfl
theorem exec_ctrlLinkDown {n} {s : State} : exec (.ctrlLinkDown n) s = execCtrlLinkDown n s := rfl
theorem exec_ctrlViolation {n code seq} {s : State} : exec (.ctrlViolation n code seq) s = execCtrlViolation n code seq s := rfl
theorem exec_ctrlQuarantine {n} {s : State} : exec (.ctrlQuarantine n) s = execCtrlQuarantine n s := rfl
theorem exec_portQuarantined {n} {s : State} : exec (.portQuarantined n) s = execPortQuarantined n s := rfl
theorem exec_ctrlRateChange {n} {s : State} : exec (.ctrlRateChange n) s = execCtrlRateChange n s := rfl

theorem LPort.up_of_carries {x : LPort} (h : x.carries = true) : x.up = true := by simp [LPort.up, h]

theorem LPort.up_of_doze {x : LPort} (h : x.state = .doze) : x.up = true := by simp [LPort.up, h]

/-- A lane that cannot be spared takes the port down; in doze nothing passes to device level. -/
theorem State.laneLost_eq (s : State) (n : Nat) : s.laneLost n = if (s.port n).state = .doze then s.portDown n else (s.portDown n).devFault 3 n := by
  simp [State.laneLost]

/-- A host port's partner is a host, and a fabric port's is not. -/
theorem hostPort_bne (n kind : Nat) : (hostPort n != (kind == 2)) = !decide (12 ≤ n ↔ kind = 2) := by
  by_cases hn : 12 ≤ n <;> by_cases hk : kind = 2 <;> simp [hostPort, hn, hk]

/-- A lane whose window is bad, at a port that is up, has a fault. -/
theorem laneFault_counts {unc sym limit : Nat} {lost up : Bool} (hbad : 4 ≤ unc ∨ limit < sym ∨ lost = true) (hup : up = true) :
    (!(decide (4 ≤ unc) || decide (limit < sym) || lost) || !up) = false := by
  rcases hbad with h | h | h <;> simp [h, hup]

end Sys2Proof.Machine

open Sys2Proof Sys2Proof.Machine Sys2Proof.Spec

/-- Settles O40: each command acts in the port's state that its case names. -/
theorem portStates : Obligations.PortStates := by
  refine ⟨fun m r s hm hrsvd hid hnew hfree => ?nodeAssign, fun n s hhere hdown hretry hlinks => ?retries, fun n good l s hst hl => ⟨fun h4 => ?trained, fun h4 => ?tooFew⟩,
    fun n trip s hst => ⟨?echoReply, ?echoAsk⟩, fun n skew t y s hst => ⟨fun hskew => ?skewed, fun hskew ht hfar => ?tooFar, fun hskew ht hnear hy => ?aligned⟩,
    fun n kind pport node variant b0 b1 b2 b3 x s hst hx => ⟨fun hkind hno hkeep => ?active, fun hkind hno hkeep => ?kept, fun m hkind hre hkeep => ?readmitted, fun hkind => ?wrongKind⟩,
    fun m r n s hm hrsvd hn h13 hhere hst hready => ?readmit, fun n s hst hend => ?probation,
    fun n lane unc sym lost s hbad hup hlane => ⟨fun hspare hswap h4 => ?spares, fun hspare hst => ?lost, fun hspare hst => ?lostInDoze⟩,
    fun n pos at' s hup => ⟨fun hswap hspare => ?answered, fun w hswap hpos => ?second⟩, fun n at' w s hswap => ?acked, fun n w a s hswap hrx hdue => ?swapped,
    fun n s hup hst => ⟨?partner, ?linkDown⟩, fun n s hst => ⟨?partnerDoze, ?linkDownDoze⟩, fun n code seq s hup => ?violation, fun n s hup => ?partnerQuarantined,
    fun n s hcarries hlimit hwindow => ?quarantined, fun s hcarries hreplay => ?rateChange⟩
  case nodeAssign =>
    refine congrArg _ (runMsg_served_ok hm ?_)
    simp only [hrsvd, Nat.not_le.mpr hid, beq_eq_false_iff_ne.mpr hnew, hfree, Bool.false_eq_true, if_false, okM]
  case retries => simp [exec_portTrainRetry, execPortTrainRetry, hhere, hdown, hretry, hlinks]
  case trained =>
    subst hl
    simp [exec_pmdTrainDone, execPmdTrainDone, hst, Nat.not_lt.mpr h4]
  case tooFew =>
    subst hl
    simp only [exec_pmdTrainDone, execPmdTrainDone, hst, h4, bne_self_eq_false, Bool.false_eq_true, if_false, if_true]
    rfl
  case echoReply => simp [exec_ctrlEcho, execCtrlEcho, hst]
  case echoAsk => simp [exec_ctrlEcho, execCtrlEcho, hst]
  case skewed =>
    simp only [exec_alignDone, execAlignDone, hst, hskew, bne_self_eq_false, Bool.false_eq_true, if_false, if_true]
    rfl
  case tooFar =>
    have hfar' : 1024 < flightOf t := hfar
    simp only [exec_alignDone, execAlignDone, hst, Nat.not_lt.mpr hskew, ht, hfar', bne_self_eq_false, Bool.false_eq_true, if_false, if_true]
    rfl
  case aligned =>
    subst hy
    have hnear' : ¬ 1024 < flightOf t := Nat.not_lt.mpr hnear
    simp only [exec_alignDone, execAlignDone, hst, Nat.not_lt.mpr hskew, ht, hnear', bne_self_eq_false, Bool.false_eq_true, if_false]
    rfl
  case active =>
    subst hx
    have hk : (hostPort n != (kind == 2)) = false := (hostPort_bne n kind).trans (by simp [hkind])
    simp [exec_ctrlIdent, execCtrlIdent, hst, hk, hno, hkeep]
  case kept =>
    subst hx
    have hk : (hostPort n != (kind == 2)) = false := (hostPort_bne n kind).trans (by simp [hkind])
    simp [exec_ctrlIdent, execCtrlIdent, hst, hk, hno, hkeep]
  case readmitted =>
    subst hx
    have hk : (hostPort n != (kind == 2)) = false := (hostPort_bne n kind).trans (by simp [hkind])
    simp [exec_ctrlIdent, execCtrlIdent, hst, hk, hre, hkeep]
  case wrongKind =>
    have hk : (hostPort n != (kind == 2)) = true := (hostPort_bne n kind).trans (by simp [hkind])
    simp only [exec_ctrlIdent, execCtrlIdent, hst, hk, bne_self_eq_false, Bool.false_eq_true, if_false, if_true]
    rfl
  case readmit =>
    subst hn
    refine congrArg Host.Outcome.next ((runMsg_served_later hm ?_).trans (State.served_zero _ _))
    simp only [hrsvd, Nat.not_lt.mpr h13, hhere, hst, Nat.not_lt.mpr hready, bne_self_eq_false, Bool.not_true, Bool.false_eq_true, if_false]
  case probation => simp [exec_probationEnd, execProbationEnd, hst, hend]
  case spares =>
    have h4' : (lane == 4 && 1 == 1) = false := by simp [h4]
    simp only [exec_laneFault, execLaneFault, laneFault_counts hbad hup, h4', hlane, hspare, hswap, bne_self_eq_false, Option.isSome_none, Bool.not_true, Bool.or_self, Bool.false_eq_true, if_false]
  case lost =>
    simp only [exec_laneFault, execLaneFault, laneFault_counts hbad hup, beq_eq_false_iff_ne.mpr hspare, bne_iff_ne.mpr hspare, hlane, State.laneLost_eq, hst, Bool.and_false, Bool.true_or, Bool.not_true, Bool.false_eq_true, if_false, if_true]
  case lostInDoze =>
    simp only [exec_laneFault, execLaneFault, laneFault_counts hbad hup, beq_eq_false_iff_ne.mpr hspare, bne_iff_ne.mpr hspare, hlane, State.laneLost_eq, hst, Bool.and_false, Bool.true_or, Bool.not_true, Bool.false_eq_true, if_false, if_true]
  case answered => simp [exec_ctrlSpareReq, execCtrlSpareReq, hup, hswap, hspare]
  case second => simp [exec_ctrlSpareReq, execCtrlSpareReq, hup, hswap, hpos]
  case acked => simp [exec_ctrlSpareAck, execCtrlSpareAck, State.updPort, hswap]
  case swapped => simp [exec_spareSwap, execSpareSwap, hswap, hrx, Nat.not_le.mpr hdue]
  case partner => simp [exec_partnerLoss, execPartnerLoss, hup, hst, State.partnerLoss]
  case linkDown => simp [exec_ctrlLinkDown, execCtrlLinkDown, hup, hst, State.partnerLoss]
  case partnerDoze => simp [exec_partnerLoss, execPartnerLoss, LPort.up_of_doze hst, hst]
  case linkDownDoze => simp [exec_ctrlLinkDown, execCtrlLinkDown, LPort.up_of_doze hst, hst]
  case violation => simp [exec_ctrlViolation, execCtrlViolation, hup]
  case partnerQuarantined => simp [exec_ctrlQuarantine, execCtrlQuarantine, hup, State.updPort]
  case quarantined =>
    have hgo : (!(s.port n).carries || decide ((s.port n).vioCount ≤ s.vioLimit (s.port n)) || (s.port n).vioWindow != s.now / 1000000) = false := by
      simp [hcarries, hlimit, hwindow]
    simp only [exec_portQuarantined, execPortQuarantined, hgo, Bool.false_eq_true, if_false]
    refine ⟨s.setPort n _, rfl, ?_⟩
    simp [LPort.dropOwed]
  case rateChange => simp [exec_ctrlRateChange, execCtrlRateChange, hcarries, hreplay]

end

section
/-! Operating points, caps, hints and emergencies (R454-R467). -/

namespace Sys2Proof.Machine

/-! ### The instructions of this file -/

theorem exec_meterSample {mv ma} {s : State} : exec (.meterSample mv ma) s = execMeterSample mv ma s := rfl
theorem exec_operatingPointChange {b} {s : State} : exec (.operatingPointChange b) s = execOperatingPointChange b s := rfl
theorem exec_powerAllotment {powers} {s : State} : exec (.powerAllotment powers) s = execPowerAllotment powers s := rfl
theorem exec_hintPhaseStart {p station} {s : State} : exec (.hintPhaseStart p station) s = execHintPhaseStart p station s := rfl
theorem exec_hintPhaseEnd {p station} {s : State} : exec (.hintPhaseEnd p station) s = execHintPhaseEnd p station s := rfl
theorem exec_droopStretch {island below} {s : State} : exec (.droopStretch island below) s = execDroopStretch island below s := rfl
theorem exec_powerDownIsland {b} {s : State} : exec (.powerDownIsland b) s = execPowerDownIsland b s := rfl
theorem exec_capEmergency {s : State} : exec .capEmergency s = execCapEmergency s := rfl
theorem exec_ceilingStep {cause} {s : State} : exec (.ceilingStep cause) s = execCeilingStep cause s := rfl
theorem exec_overcurrent {s : State} : exec .overcurrent s = execOvercurrent s := rfl
theorem exec_thermal {b temp} {s : State} : exec (.thermal b temp) s = execThermal b temp s := rfl
theorem exec_dimmThermal {ch temp} {s : State} : exec (.dimmThermal ch temp) s = execDimmThermal ch temp s := rfl
theorem exec_emergencyRelease {cause} {s : State} : exec (.emergencyRelease cause) s = execEmergencyRelease cause s := rfl

open Sys2Proof.Spec

/-! ## Ports that go down -/

/-- The second state is the first after ports have gone down: engines whose window requests cannot be answered end their starts. -/
def PortsDown (s t : State) : Prop :=
  ∃ events engines dram xlt link sent, t = { s with host := { s.host with events := events }, stn := { s.stn with engines := engines }, dram := dram, xlt := xlt, link := link, sent := sent }

namespace PortsDown

variable {s t u : State}

theorem refl (s : State) : PortsDown s s := ⟨_, _, _, _, _, _, rfl⟩

theorem trans (h1 : PortsDown s t) (h2 : PortsDown t u) : PortsDown s u := by
  obtain ⟨_, _, _, _, _, _, rfl⟩ := h1
  obtain ⟨_, _, _, _, _, _, rfl⟩ := h2
  exact ⟨_, _, _, _, _, _, rfl⟩

theorem foldl {α : Type} {f : State → α → State} (hf : ∀ t a, PortsDown t (f t a)) (l : List α) (s : State) : PortsDown s (l.foldl f s) := by
  induction l generalizing s with
  | nil => exact refl s
  | cons a l ih => exact (hf s a).trans (ih _)

theorem of_ite {c : Prop} [Decidable c] {a b : State} (ha : PortsDown s a) (hb : PortsDown s b) : PortsDown s (if c then a else b) := by
  split <;> assumption

theorem setPort (n : Nat) (x : LPort) : PortsDown s (s.setPort n x) := ⟨_, _, _, _, _, _, rfl⟩

theorem programFault (e : Nat) (c : FaultCode) (index addr : Nat) : PortsDown s (s.programFault e c index addr) := by
  unfold State.programFault
  split
  · exact refl s
  next x _ =>
    split
    · exact refl s
    next st _ =>
      obtain ⟨l, h⟩ := State.event_eq (s.setEngine e { x with start := some { st with ended := true, faulted := true, emits := [] } }) 0x0004 x.part
        (match st.inputs with | i :: _ => i.2.context | [] => 0) true (engSource e) x.station (faultData index c.num addr)
      exact ⟨l, _, _, _, _, _, h⟩

theorem endRemote (e va txn : Nat) (data : Option (List (BitVec 8))) : PortsDown s (s.endRemote e va txn data) := ⟨_, _, _, _, _, _, rfl⟩

theorem dropWindows (n : Nat) : PortsDown s (s.dropWindows n) := by
  unfold State.dropWindows
  refine (setPort _ _).trans (foldl (fun _ _ => ?_) _ _)
  split
  · exact of_ite ((endRemote _ _ _ _).trans (programFault _ _ _ _)) (refl _)
  · exact refl _

theorem portDown (n : Nat) : PortsDown s (s.portDown n) := (setPort _ _).trans (dropWindows _)

theorem newFlit (n a b : Nat) (c d : Bool) (e : Nat) (l : List (BitVec 8)) : PortsDown s (s.newFlit n a b c d e l) := ⟨_, _, _, _, _, _, rfl⟩

theorem sendRate : PortsDown s s.sendRate := of_ite (newFlit _ _ _ _ _ _ _) (refl _)

theorem portsToDoze : PortsDown s s.portsToDoze :=
  (sendRate.trans (foldl (fun _ _ => of_ite (refl _) (portDown _)) _ _)).trans (setPort _ _)

end PortsDown

/-! ## Emergencies -/

/-- What an emergency tells the partitions changes only the events that wait. -/
theorem State.toldParts_eq (l : List Nat) (s : State) :
    ∃ events, l.foldl (fun (s : State) p => s.event 0x0014 p 0 false 0 0xFFFF 0) s = { s with host := { s.host with events := events } } := by
  induction l generalizing s with
  | nil => exact ⟨_, rfl⟩
  | cons p l ih =>
    obtain ⟨_, h1⟩ := State.event_eq s 0x0014 p 0 false 0 0xFFFF 0
    rw [List.foldl_cons, h1]
    obtain ⟨_, h⟩ := ih _
    exact ⟨_, h⟩

/-- An emergency that begins tells the partitions and the operator, is logged, and ends the quiet windows. -/
theorem State.emergency_eq (s s0 : State) (cause : Nat) :
    ∃ events log age sent, s.emergency s0 cause = { s with host := { s.host with events := events }, log := log, age := age, sent := sent } := by
  unfold State.emergency
  dsimp only
  obtain ⟨_, h1⟩ := State.toldParts_eq (Tab.keys s.part.parts) s
  rw [h1]
  obtain ⟨_, h2⟩ := State.opEvent_eq _ 0x0019 0 0 cause
  rw [h2]
  exact (State.drive_eq _ s0).elim fun _ h3 => ⟨_, _, _, _, h3⟩

/-- What the estimators measured changes no partition. -/
theorem State.parts_profiled (l : List BlockPower) (s : State) : (l.foldl (fun (s : State) m => s.profileBlock m) s).part.parts = s.part.parts := by
  induction l generalizing s with
  | nil => rfl
  | cons m l ih => exact ih _

/-- A partition that is abandoned leaves who asked for its evacuation answered. -/
theorem State.abandonPart_eq (s : State) (p : Nat) : ∃ status out sent, s.abandonPart p = { s with fail := { s.fail with status := status, out := out }, sent := sent } := by
  have hanswers : ∀ (l : List MsgRef) (u : State), ∃ sent, l.foldl (fun (s : State) m => s.answerMsg m (.refused .inUse p)) u = { u with sent := sent } := by
    intro l
    induction l with
    | nil => exact fun u => ⟨_, rfl⟩
    | cons m l ih =>
      intro u
      obtain ⟨_, h⟩ := ih (u.answerMsg m (.refused .inUse p))
      exact ⟨_, h⟩
  obtain ⟨_, h⟩ := hanswers _ _
  exact ⟨_, _, _, h⟩

theorem State.abandonParts_eq (l : List Nat) (s : State) : ∃ status out sent, l.foldl (fun (s : State) p => s.abandonPart p) s = { s with fail := { s.fail with status := status, out := out }, sent := sent } := by
  induction l generalizing s with
  | nil => exact ⟨_, _, _, rfl⟩
  | cons p l ih =>
    obtain ⟨_, _, _, h⟩ := ih (s.abandonPart p)
    obtain ⟨_, _, _, h1⟩ := State.abandonPart_eq s p
    rw [h1] at h
    exact ⟨_, _, _, (congrArg (fun u : State => l.foldl _ u) h1).trans h⟩

/-- An emergency after which every switched domain is down. -/
theorem State.emergency_off_eq (s s0 : State) (cause : Nat) : ∃ host stn fab link dram xlt age sent log,
    (s.emergency s0 cause).switchedOff = { s with host := host, stn := stn, fab := fab, link := link, dram := dram, xlt := xlt, age := age, sent := sent, log := log } := by
  obtain ⟨_, _, _, _, h⟩ := State.emergency_eq s s0 cause
  rw [h]
  obtain ⟨_, _, _, _, _, _, h⟩ := PortsDown.portsToDoze (s := State.powerOffBlocks _)
  exact ⟨_, _, _, _, _, _, _, _, _, h⟩

/-- After a trip's fault the module's withdrawal is noticed, and every partition is abandoned. -/
theorem State.tripFault_eq (s : State) (b : Nat) (w : Withdraw) (o : Out) : ∃ (sys : _) (fail : FailUnit) (sent : _),
    (Tab.keys (State.emitOut { s.devFault 8 b with fail := { (s.devFault 8 b).fail with withdraw := some w } } o).part.parts).foldl (fun (s : State) p => s.abandonPart p)
      (State.emitOut { s.devFault 8 b with fail := { (s.devFault 8 b).fail with withdraw := some w } } o) =
      { s with sys := sys, fail := { fail with withdraw := some w }, sent := sent } := by
  obtain ⟨_, _, h⟩ := State.devFault_eq s 8 b
  rw [h]
  obtain ⟨status, out, _, h⟩ := State.abandonParts_eq (Tab.keys s.part.parts) _
  exact ⟨_, { s.fail with status := status, out := out }, _, h⟩

end Sys2Proof.Machine

open Sys2Proof Sys2Proof.Machine Sys2Proof.Spec

/-- Settles O53: each command's branches; a trip's partitions are abandoned after every switched domain is down. -/
theorem powerControl : Obligations.PowerControl := by
  refine ⟨fun m r s hm hr hlo hhi => ⟨fun hsum => ?capSet, fun hsum => ?capOver⟩, fun mv ma s haon => ?meter,
    fun b f s hp hf => ⟨fun hlt => ?falls, fun hlt hl => ?leads, fun t hlt hl hv ht => ?rises, fun t hlt hl hv ht => ?waits⟩,
    fun s hn hp => ?allotNone, fun l p x s hn hp => ?allotOne,
    fun q r e t k s hq hr ht hne hst h1 hdu hk => ⟨fun hc => ?hintEnd, fun hc => ?hintSet⟩,
    fun p id h s hf hb hst => ?phaseStart, fun p id s hf hh => ?heavyStart, fun p id s hf => ?phaseRuns, fun p id h s hf ht => ?phaseEnd,
    fun b s => ⟨fun hf => ?droopLow, fun hf => ?droopGood, fun n hf => ?stretchLow, fun n hf => ?stretchGood⟩,
    fun b s hp hb hw hrs hi hmv he => ?powerDown, fun b s hb => ?staysUp,
    fun s hon hab => ?capBegins, fun s hon => ?capRuns, fun s hon hmv => ?capStep, fun s hon hmhz hmv => ?thermStep,
    fun s hp hon => ?overBegins, fun s hp hon => ?overAgain, fun s hp => ?overNot,
    fun b temp s ht hon => ?hot, fun b temp s ht => ?cool, fun c temp s ht hd => ?dimmHot,
    fun s hon hu => ?overEnds, fun t s hon hc ht => ?thermEnds, fun t s hd hc ht => ?dimmEnds, fun b temp s ht hnt => ?trips⟩
  case capSet =>
    refine congrArg Host.Outcome.next ((runPlain_answers hm ?_).trans (State.served_zero _ _))
    simp [moduleCapBody, hr, Nat.not_lt.mpr hlo, Nat.not_lt.mpr hhi, Nat.not_lt.mpr hsum, okM]
  case capOver =>
    refine congrArg Host.Outcome.next ((runPlain_answers hm ?_).trans (State.served_zero _ _))
    simp [moduleCapBody, hr, Nat.not_lt.mpr hlo, Nat.not_lt.mpr hhi, hsum, refuseM]
  case meter => simp [exec_meterSample, execMeterSample, haon]
  case falls => subst hf; simp [exec_operatingPointChange, execOperatingPointChange, hp, hlt]
  case leads =>
    subst hf
    simp only [exec_operatingPointChange, execOperatingPointChange, hp, Nat.not_lt.mpr (Nat.le_of_lt hlt), Nat.ne_of_gt hlt, hl]
    rfl
  case rises =>
    subst hf
    simp [exec_operatingPointChange, execOperatingPointChange, hp, Nat.not_lt.mpr (Nat.le_of_lt hlt), Nat.ne_of_gt hlt, hl, Int.not_lt.mpr hv, Nat.not_lt.mpr ht, State.updBlock]
  case waits =>
    subst hf
    simp [exec_operatingPointChange, execOperatingPointChange, hp, Nat.not_lt.mpr (Nat.le_of_lt hlt), Nat.ne_of_gt hlt, hl, Int.not_lt.mpr hv, ht]
  case allotNone => simp [exec_powerAllotment, execPowerAllotment, hn, hp]
  case allotOne =>
    have hparts : (l.foldl (fun (s : State) m => s.profileBlock m) s).part.parts = [(p, x)] := by
      rw [State.parts_profiled, hp]
    simp [exec_powerAllotment, execPowerAllotment, hn, hparts]
  case hintEnd =>
    subst hk
    refine congrArg _ (runCmd_ready hq ?_)
    have hne' : t.engines.isEmpty = false := by simpa using hne
    simp only [hintBody, hr, ht, hne', hc, Nat.not_lt.mpr hst, Nat.not_lt.mpr hdu, Nat.ne_of_gt (Nat.lt_of_lt_of_le Nat.zero_lt_one h1), done]
    rfl
  case hintSet =>
    subst hk
    refine congrArg _ (runCmd_ready hq ?_)
    have hne' : t.engines.isEmpty = false := by simpa using hne
    have h0 : fld r.toNat 2 1 0 ≠ 0 := by omega
    have h3 : fld r.toNat 2 1 0 ≠ 3 := by omega
    simp only [hintBody, hr, ht, hne', h0, h3, Nat.not_lt.mpr hst, Nat.not_lt.mpr hdu, Nat.ne_of_gt (Nat.lt_of_lt_of_le Nat.zero_lt_one h1), done]
    rfl
  case phaseStart => simp [exec_hintPhaseStart, execHintPhaseStart, hf, hb, Nat.not_lt.mpr hst]
  case heavyStart => simp only [exec_hintPhaseStart, execHintPhaseStart, hf, hh, if_true]
  case phaseRuns =>
    cases hh : Tab.find s.pow.hints (stnKey p id) with
    | none => simp [exec_hintPhaseEnd, execHintPhaseEnd, hh]
    | some h => simp [exec_hintPhaseEnd, execHintPhaseEnd, hh, Nat.not_le.mpr (hf h hh)]
  case phaseEnd => simp [exec_hintPhaseEnd, execHintPhaseEnd, hf, ht]
  case droopLow => simp [exec_droopStretch, execDroopStretch, hf]
  case droopGood => simp [exec_droopStretch, execDroopStretch, hf]
  case stretchLow => simp [exec_droopStretch, execDroopStretch, hf]
  case stretchGood => simp [exec_droopStretch, execDroopStretch, hf]
  case powerDown =>
    refine ⟨_, congrArg Host.Outcome.next (if_neg ?_), ?_, ?_⟩
    · simp [hp, hb, hw, hrs, hi, hmv, he]
    · simp [State.setBlock, State.block]
    · simp [State.setBlock, State.block]
  case staysUp => simp [exec_powerDownIsland, execPowerDownIsland, Option.isSome_iff_ne_none.mpr hb]
  case capBegins => simp [exec_capEmergency, execCapEmergency, hon, hab]
  case capRuns => simp [exec_capEmergency, execCapEmergency, hon]
  case capStep => simp [exec_ceilingStep, execCeilingStep, Ceil.move, hon, hmv]
  case thermStep => simp [exec_ceilingStep, execCeilingStep, Ceil.move, hon, hmhz, hmv]
  case overBegins =>
    exact ⟨{ s with pow := { s.pow with overOn := true, past := 0, overCeil := s.fab.blocks.filterMap (fun e => if e.2.powered then some (e.1, max 400 (e.2.mhz / 2 / 25 * 25)) else none) } },
      by simp [exec_overcurrent, execOvercurrent, Nat.not_lt.mpr hp, hon], rfl, rfl, rfl, rfl⟩
  case overAgain => simp [exec_overcurrent, execOvercurrent, Nat.not_lt.mpr hp, hon]
  case overNot => simp [exec_overcurrent, execOvercurrent, hp]
  case hot => simp [exec_thermal, execThermal, ht, hon]
  case cool => simp [exec_thermal, execThermal, Nat.not_le.mpr ht]
  case dimmHot =>
    exact ⟨{ s with pow := { s.pow with dimm := true, dimmTemps := Tab.put s.pow.dimmTemps c temp, dimmCool := if (Tab.put s.pow.dimmTemps c temp).all (fun e => decide (e.2 < 900)) then some (s.pow.dimmCool.getD s.now) else none } },
      by simp [exec_dimmThermal, execDimmThermal, ht, hd], rfl, rfl, rfl⟩
  case overEnds => simp [exec_emergencyRelease, execEmergencyRelease, hon, hu]
  case thermEnds => simp [exec_emergencyRelease, execEmergencyRelease, hon, hc, ht]
  case dimmEnds => simp [exec_emergencyRelease, execEmergencyRelease, hd, hc, ht]
  case trips =>
    refine ⟨_, congrArg Host.Outcome.next (if_neg (by simp [ht, hnt])), ?_⟩
    dsimp only
    obtain ⟨_, _, _, _, _, _, _, _, _, hoff⟩ := State.emergency_off_eq { s with pow := { s.pow with tripped := true, temps := Tab.put s.pow.temps b temp, coolAt := none }, boot := { s.boot with tripPin := true } }
      { s with pow := { s.pow with tripped := true, temps := Tab.put s.pow.temps b temp, coolAt := none }, boot := { s.boot with tripPin := true } } 5
    rw [hoff]
    obtain ⟨_, _, _, hab⟩ := State.tripFault_eq _ b _ _
    rw [hab]
    exact ⟨rfl, rfl, rfl, rfl, rfl⟩

end

section
/-! Management sessions, attestation, life cycle and weights (R333, R491-R507). -/

namespace Sys2Proof.Machine

/-! ### The instructions of this file -/

theorem exec_weightLoad {ring record} {s : State} : exec (.weightLoad ring record) s = execWeightLoad ring record s := rfl

/-! ### The instructions of this file -/

theorem exec_mgmtTxn {n tagOk} {s : State} : exec (.mgmtTxn n tagOk) s = execMgmtTxn n tagOk s := rfl
theorem exec_uartFrame {header crcOk tagOk} {s : State} : exec (.uartFrame header crcOk tagOk) s = execUartFrame header crcOk tagOk s := rfl
theorem exec_handshakeInit {m nonceI unwrapOk rsvd} {s : State} : exec (.handshakeInit m nonceI unwrapOk rsvd) s = execHandshakeInit m nonceI unwrapOk rsvd s := rfl
theorem exec_handshakeFinish {m session part nParts sigOk authorised node rsvd} {s : State} : exec (.handshakeFinish m session part nParts sigOk authorised node rsvd) s = execHandshakeFinish m session part nParts sigOk authorised node rsvd s := rfl
theorem exec_attestRequest {m body} {s : State} : exec (.attestRequest m body) s = execAttestRequest m body s := rfl
theorem exec_weightRelease {ring record} {s : State} : exec (.weightRelease ring record) s = execWeightRelease ring record s := rfl

/-- The checks on an accepted message at most answer it. -/
theorem State.checkMsg_eq (s : State) (m : MsgRef) (h : Nat) : ∃ sent, s.checkMsg m h = { s with sent := sent } := by
  unfold State.checkMsg
  split
  · exact ⟨_, rfl⟩
  · cases msgLength m.msg with
    | none => exact ⟨_, rfl⟩
    | some l =>
      cases l with
      | none =>
        dsimp only
        repeat' split
        all_goals exact ⟨_, rfl⟩
      | some n =>
        dsimp only
        repeat' split
        all_goals exact ⟨_, rfl⟩

end Sys2Proof.Machine

open Sys2Proof Sys2Proof.Machine Sys2Proof.Spec

/-- Settles O57: each message's body on its accepted and refused branches; the checks that follow a frame's acceptance leave its session's SEQ, so the frame's second arrival is a replay. -/
theorem security : Obligations.Security := by
  refine ⟨fun n m px tagOk s ht => ?mgmt, fun h tagOk s haon => ⟨?uartGood, ?uartBad⟩,
    fun m nonce s hlc => ⟨?initKey, fun ok rsvd hr => ?initRsvd, ?initOk⟩,
    fun m session n x node s hx hn hlen => ⟨?finishOk, fun part k ok a rsvd hr => ?finishRsvd, fun a => ?finishSig⟩,
    fun n s => ?timeout,
    fun m r s hr => ⟨fun hi => ?report, fun hi => ?badItem⟩,
    fun m id key s hm hlen => ⟨?joins, ?joinKey, fun ok rsvd hr => ?joinRsvd⟩,
    fun m id key s hlen hno => ?joinFull, fun m r s hm hr => ?leaves,
    fun q r e key x src dst blob a n s hq hfz hr hset hx hsrc hdst hhost hplain hchunks hlen hblob hseal hrange => ?load,
    fun q r e x y s hq hfz hr hx hy => ?release,
    fun m r s hm hact hr hp => ⟨fun next ht => ?fuseless, fun next ht hb => ?fused, fun ht => ?badTransition⟩,
    fun m s hm ho => ⟨?token, ?wrongUnit, ?badToken⟩,
    fun m r s hm => ⟨fun hlc => ?debugLocked, fun hlc ho hr hin => ⟨fun h0 => ?debugRead, fun h1 => ?debugWrite⟩⟩,
    fun m r k n s hm hr hk => ⟨fun hp hn habs => ?absent, fun hpres hf => ?notFrozen, fun f hpres hf => ?thaw⟩,
    fun h x s hhs hatt hx hseq => ?replay⟩
  case mgmt => simp only [exec_mgmtTxn, execMgmtTxn, State.onTxn, ht]
  case uartGood => simp [exec_uartFrame, execUartFrame, haon]
  case uartBad => simp [exec_uartFrame, execUartFrame]
  case initKey => simp [exec_handshakeInit, execHandshakeInit, hlc]
  case initRsvd => simp [exec_handshakeInit, execHandshakeInit, hlc, hr]
  case initOk => simp [exec_handshakeInit, execHandshakeInit, hlc]
  case finishOk => simp [exec_handshakeFinish, execHandshakeFinish, hx, hn, hlen, Nat.not_succ_le_self x.parts]
  case finishRsvd => simp [exec_handshakeFinish, execHandshakeFinish, hr]
  case finishSig => simp [exec_handshakeFinish, execHandshakeFinish, hx, hn, Nat.not_succ_le_self x.parts]
  case timeout => rfl
  case report => simp [exec_attestRequest, execAttestRequest, hr, hi]
  case badItem => simp [exec_attestRequest, execAttestRequest, hr, hi]
  case joins =>
    refine congrArg Host.Outcome.next ((runPlain_answers hm ?_).trans (State.served_zero _ _))
    simp [Nat.not_le.mpr hlen, okM]
  case joinKey =>
    exact congrArg Host.Outcome.next ((runPlain_answers hm rfl).trans (State.served_zero _ _))
  case joinRsvd =>
    exact congrArg Host.Outcome.next ((runPlain_answers hm (if_pos hr)).trans (State.served_zero _ _))
  case joinFull =>
    refine congrArg Host.Outcome.next ((runPlain_answers rfl ?_).trans (State.served_zero _ _))
    simp [hlen, hno, refuseM]
  case leaves =>
    exact congrArg Host.Outcome.next ((runPlain_answers hm (if_neg (by simp [hr]))).trans (State.served_zero _ _))
  case load =>
    simp only [exec_weightLoad, execWeightLoad, hfz]
    have hbad : ¬ (dst.host = true ∨ fldB r.toNat 20 4 = 0 ∨ fldB r.toNat 16 4 ≠ cdiv (fldB r.toNat 20 4) 65536 ∨ dst.length < fldB r.toNat 20 4) := by
      simp only [hhost, hchunks, Bool.false_eq_true, ne_eq, not_true_eq_false, false_or]
      omega
    cases hopen : openBlob key (fldB r.toNat 0 4) (fldB r.toNat 16 4) (fldB r.toNat 20 4) (fldB r.toNat 16 4) 0 blob with
    | none =>
      refine congrArg _ (runCmd_ready hq ?_)
      simp only [weightLoadBody, hr, hset, hx, hsrc, hdst, if_neg hbad, hblob, hseal, Nat.not_le.mpr hrange, hopen]
      rfl
    | some b =>
      refine congrArg _ (runCmd_ready hq ?_)
      simp only [weightLoadBody, hr, hset, hx, hsrc, hdst, if_neg hbad, hblob, hseal, Nat.not_le.mpr hrange, hopen, done]
      rfl
  case release =>
    simp only [exec_weightRelease, execWeightRelease, hfz]
    refine congrArg _ (runCmd_ready hq ?_)
    simp [weightReleaseBody, hr, hx, hy, done]
  case fuseless =>
    refine congrArg Host.Outcome.next ((runPlain_answers hm ?_).trans (State.served_zero _ _))
    simp [lifecycleSetBody, hact, hr, ht, hp, okM, Tab.keys]
  case fused =>
    refine congrArg Host.Outcome.next ((runPlain_answers hm ?_).trans (State.served_zero _ _))
    simp [lifecycleSetBody, hact, hr, ht, hp, okM, Tab.keys, Nat.not_le.mpr hb]
  case badTransition =>
    refine congrArg Host.Outcome.next ((runPlain_answers hm ?_).trans (State.served_zero _ _))
    simp [lifecycleSetBody, hact, hr, ht, refuseM]
  case token =>
    refine congrArg Host.Outcome.next ((runPlain_answers hm ?_).trans (State.served_zero _ _))
    simp [ho, okM]
  case wrongUnit =>
    refine congrArg Host.Outcome.next ((runPlain_answers hm ?_).trans (State.served_zero _ _))
    simp [ho, refuseM]
  case badToken =>
    refine congrArg Host.Outcome.next ((runPlain_answers hm ?_).trans (State.served_zero _ _))
    simp [ho, refuseM]
  case debugLocked =>
    exact congrArg Host.Outcome.next ((runPlain_answers hm (if_pos hlc)).trans (State.served_zero _ _))
  case debugRead =>
    have hopen : ¬ (s.sec.lc = .owned ∨ s.sec.lc = .retired) := by rcases hlc with h | h <;> simp [h]
    refine congrArg Host.Outcome.next ((runPlain_answers hm ?_).trans (State.served_zero _ _))
    simp [debugBody, hopen, ho, hr, h0, okM, hin]
  case debugWrite =>
    have hopen : ¬ (s.sec.lc = .owned ∨ s.sec.lc = .retired) := by rcases hlc with h | h <;> simp [h]
    refine congrArg Host.Outcome.next ((runPlain_answers hm ?_).trans (State.served_zero _ _))
    simp [debugBody, hopen, ho, hr, h1, okM, hin]
  case absent =>
    refine congrArg Host.Outcome.next ((runPlain_answers hm ?_).trans (State.served_zero _ _))
    simp [masterReleaseBody, hr, hk, hp, hn, habs, refuseM]
  case notFrozen =>
    refine congrArg Host.Outcome.next ((runPlain_answers hm ?_).trans (State.served_zero _ _))
    have hmaster : ¬ (k = .port ∧ n < 12 ∧ s.portPresent n = false) := by grind
    simp only [masterReleaseBody, hr, hk, if_neg hmaster, hf, refuseM]
    rfl
  case thaw =>
    refine congrArg Host.Outcome.next ((runPlain_answers hm ?_).trans (State.served_zero _ _))
    have hmaster : ¬ (k = .port ∧ n < 12 ∧ s.portPresent n = false) := by grind
    simp only [masterReleaseBody, hr, hk, if_neg hmaster, hf, okM]
    rfl
  case replay =>
    have hplain : ¬ ((handshakeMsg (fldB h 0 2) || (fldB h 0 2 == 0x0704 && fldB h 4 4 == 0)) = true) := by
      simp only [hhs, Bool.false_or, Bool.and_eq_true, beq_iff_eq]
      exact fun h => hatt.elim (fun ha => ha h.1) (fun ha => ha h.2)
    obtain ⟨sent, hcheck⟩ := State.checkMsg_eq (s.setSession (fldB h 4 4) { x with seqIn := fldB h 8 8, used := s.now, badTags := 0 })
      { session := fldB h 4 4, corr := fldB h 16 4, msg := fldB h 0 2 } h
    have hfirst : s.checkFrame h true = { s.setSession (fldB h 4 4) { x with seqIn := fldB h 8 8, used := s.now, badTags := 0 } with sent := sent } := by
      simp only [State.checkFrame, if_neg hplain, hx, Nat.not_le.mpr hseq, hcheck]
      rfl
    rw [hfirst]
    have hsess : Tab.find (State.setSession s (fldB h 4 4) { x with seqIn := fldB h 8 8, used := s.now, badTags := 0 }).sec.sessions (fldB h 4 4) = some { x with seqIn := fldB h 8 8, used := s.now, badTags := 0 } :=
      (Tab.find_put _ _ _ _).trans (if_pos rfl)
    refine ⟨_, _, rfl, hsess, rfl, ?_⟩
    simp only [State.checkFrame, if_neg hplain, hsess, Nat.le_refl]
    rfl

end

section
/-! Errors, hangs, captures and resets (R169, R170, R425-R438). -/

namespace Sys2Proof.Machine

/-! ### The instructions of this file -/

theorem exec_sliceWipeDone {block} {s : State} : exec (.sliceWipeDone block) s = execSliceWipeDone block s := rfl
theorem exec_partitionResetDone {p} {s : State} : exec (.partitionResetDone p) s = execPartitionResetDone p s := rfl

/-! ### The instructions of this file -/

theorem exec_sliceSecDedError {block uncorrectable access} {s : State} : exec (.sliceSecDedError block uncorrectable access) s = execSliceSecDedError block uncorrectable access s := rfl
theorem exec_cellUncorrectable {c single} {s : State} : exec (.cellUncorrectable c single) s = execCellUncorrectable c single s := rfl
theorem exec_engineWatchdogExpire {e} {s : State} : exec (.engineWatchdogExpire e) s = execEngineWatchdogExpire e s := rfl
theorem exec_stationHung {p id} {s : State} : exec (.stationHung p id) s = execStationHung p id s := rfl
theorem exec_queueStalled {q} {s : State} : exec (.queueStalled q) s = execQueueStalled q s := rfl
theorem exec_dispatcherHang {block} {s : State} : exec (.dispatcherHang block) s = execDispatcherHang block s := rfl
theorem exec_hangCapture {p} {s : State} : exec (.hangCapture p) s = execHangCapture p s := rfl
theorem exec_hangCaptureTimeout {p written} {s : State} : exec (.hangCaptureTimeout p written) s = execHangCaptureTimeout p written s := rfl

open Sys2Proof.Spec

/-! ## A send that stops -/

/-- A send that stops changes only the sends and the criers. -/
theorem State.stopSend_eq (s : State) (n k : Nat) : ∃ sends criers, s.stopSend n k = { s with fab := { s.fab with sends := sends, criers := criers } } := by
  unfold State.stopSend
  have hfold : ∀ (l : List Nat) (u : State), ∃ criers, l.foldl (fun (s : State) r =>
      let c := s.crier r
      if c.cur.any (fun g => g.send == n) || c.held.any (fun g => g.send == n) then
        s.setCrier r { c with cur := c.cur.filter (fun g => g.send != n), held := c.held.filter (fun g => g.send != n) }
      else s) u = { u with fab := { u.fab with criers := criers } } := by
    intro l
    induction l with
    | nil => exact fun u => ⟨_, rfl⟩
    | cons r l ih =>
      intro u
      rw [List.foldl_cons]
      dsimp only
      split
      · exact (ih _).elim fun _ h => ⟨_, h⟩
      · exact ih u
  obtain ⟨_, h⟩ := hfold (List.range 6) (s.updSend n (fun y => { y with stopped := some k }))
  exact ⟨_, _, h⟩

@[simp] theorem State.stopSend_moves (s : State) (n k : Nat) : (s.stopSend n k).part.moves = s.part.moves := by
  obtain ⟨_, _, h⟩ := State.stopSend_eq s n k
  rw [h]

@[simp] theorem State.stopSend_block (s : State) (n k b : Nat) : (s.stopSend n k).block b = s.block b := by
  obtain ⟨_, _, h⟩ := State.stopSend_eq s n k
  rw [h]
  rfl

/-! ## What a partition reset leaves -/

/-- The second state is the first after commands have been answered and streams, walks and translations dropped. -/
def DropsOnly (s t : State) : Prop :=
  ∃ host fen spine fab dram hostMem sent log, t = { s with host := host, fen := fen, spine := spine, fab := fab, dram := dram, hostMem := hostMem, sent := sent, log := log }

namespace DropsOnly

variable {s t u : State}

theorem refl (s : State) : DropsOnly s s := ⟨_, _, _, _, _, _, _, _, rfl⟩

theorem trans (h1 : DropsOnly s t) (h2 : DropsOnly t u) : DropsOnly s u := by
  obtain ⟨_, _, _, _, _, _, _, _, rfl⟩ := h1
  obtain ⟨_, _, _, _, _, _, _, _, rfl⟩ := h2
  exact ⟨_, _, _, _, _, _, _, _, rfl⟩

theorem foldl {α : Type} {f : State → α → State} (hf : ∀ t a, DropsOnly t (f t a)) (l : List α) (s : State) : DropsOnly s (l.foldl f s) := by
  induction l generalizing s with
  | nil => exact refl s
  | cons a l ih => exact (hf s a).trans (ih _)

theorem of_ite {c : Prop} [Decidable c] {a b : State} (ha : DropsOnly s a) (hb : DropsOnly s b) : DropsOnly s (if c then a else b) := by
  split <;> assumption

theorem of_answers (h : AnswersOnly s t) : DropsOnly s t := by
  obtain ⟨_, _, _, _, _, _, _, _, rfl⟩ := h
  exact ⟨_, _, _, _, _, _, _, _, rfl⟩

theorem fab (x : FabricUnit) : DropsOnly s { s with fab := x } := ⟨_, _, _, _, _, _, _, _, rfl⟩

theorem caravanDrained (k : Nat) : DropsOnly s (s.caravanDrained k) := by
  refine (fab _).trans (foldl (fun u w => ?_) _ _)
  split
  · exact (fab _).trans (of_answers (.answerCmd _ _))
  · exact (fab _).trans (of_answers (.answerCmd _ _))

theorem dropStreams (f : CaravanStream → Bool) : DropsOnly s (s.dropStreams f) :=
  foldl (fun _ _ => of_ite ((fab _).trans (caravanDrained _)) (fab _)) _ _

end DropsOnly

/-- What a reset drops of a partition's accesses, streams, starts, forwards and translations. -/
theorem State.dropOld_eq (s : State) (p : Nat) : ∃ host fen stn spine fab dram xlt link hostMem sent log,
    s.dropOld p = { s with host := host, fen := fen, stn := stn, spine := spine, fab := fab, dram := dram, xlt := xlt, link := link, hostMem := hostMem, sent := sent, log := log } := by
  unfold State.dropOld
  dsimp only
  obtain ⟨_, _, _, _, _, _, _, _, h⟩ := DropsOnly.dropStreams
    (s := { s with fab := { s.fab with accesses := s.fab.accesses.filter (fun a => a.2.part != p), claims := s.fab.claims.filter (fun c => !((s.fab.accesses.filter (fun a => a.2.part == p)).map (·.1)).contains c.access) } })
    (fun y => y.part == p)
  rw [h]
  exact ⟨_, _, _, _, _, _, _, _, _, _, _, rfl⟩

/-- Without stewards a reset's restart of the services only empties the cancel set and releases frozen masters. -/
theorem State.restartServices_eq {s : State} (p : Nat) (h : s.svc.stewards = []) : ∃ cancel frozen,
    s.restartServices p = { s with svc := { s.svc with cancel := cancel }, sys := { s.sys with frozen := frozen } } := by
  unfold State.restartServices
  rw [h]
  exact ⟨_, _, rfl⟩

/-- Without sessions a reset's part of them only empties steps and notices. -/
theorem State.resetSessions_eq {s : State} (p : Nat) (h : s.ses.sessions = []) : ∃ plans taps,
    s.resetSessions p = { s with svc := { s.svc with plans := plans }, ses := { s.ses with taps := taps } } := by
  unfold State.resetSessions
  simp only [h, Tab.all, List.map_nil, List.filter_nil, List.foldl_nil]
  exact ⟨_, _, rfl⟩

/-- A reset of a partition without starts, stewards and sessions: what it keeps, and what it leaves behind. -/
theorem State.partReset_eq {s : State} {p cause : Nat} {x : Partition} (hx : s.part? p = some x) (he : s.stn.engines = []) (hst : s.svc.stewards = []) (hse : s.ses.sessions = []) :
    (s.partReset p cause).part = (s.setPart p { x with resetGen := (x.resetGen + 1) % 256 }).part ∧
      (s.partReset p cause).fail = { s.fail with advanced := Tab.put s.fail.advanced (2 * 2 ^ 20 + p) s.now, resets := s.fail.resets ++ [{ part := p, cause := cause }] } := by
  unfold State.partReset
  rw [hx]
  dsimp only
  have hnone : (State.noteAdvance (s.setPart p { x with resetGen := (x.resetGen + 1) % 256 }) 2 p).stn.engines = [] := he
  rw [hnone]
  obtain ⟨_, _, _, _, _, _, _, _, _, _, _, hold⟩ := State.dropOld_eq ((s.setPart p { x with resetGen := (x.resetGen + 1) % 256 }).noteAdvance 2 p) p
  simp only [List.filter_nil, List.map_nil, List.foldl_nil]
  rw [hold]
  obtain ⟨_, _, hserv⟩ := State.restartServices_eq (s := { (s.setPart p { x with resetGen := (x.resetGen + 1) % 256 }).noteAdvance 2 p with host := _, fen := _, stn := _, spine := _, fab := _, dram := _, xlt := _, link := _, hostMem := _, sent := _, log := _ }) p hst
  rw [hserv]
  obtain ⟨_, _, hses⟩ := State.resetSessions_eq (s := { (s.setPart p { x with resetGen := (x.resetGen + 1) % 256 }).noteAdvance 2 p with host := _, fen := _, stn := _, spine := _, fab := _, dram := _, xlt := _, link := _, hostMem := _, sent := _, log := _, svc := _, sys := _ }) p hse
  rw [hses]
  obtain ⟨_, hev⟩ := State.event_eq _ 0x0015 p 0 false 0 0xFFFF 0
  rw [hev]
  exact ⟨rfl, rfl⟩

end Sys2Proof.Machine

open Sys2Proof Sys2Proof.Machine Sys2Proof.Spec

/-- Settles O50: each command's branches; a reset of a partition leaves everything of it but its generation. -/
theorem failuresAndResets : Obligations.FailuresAndResets := by
  refine ⟨fun b acc s hb => ?corrected, fun b acc p n s hb hmv hbd hno => ?sliceError, fun b acc p n a k s hb hmv hbd ha hw hst => ?sendStops,
    fun b k s hw hk => ?wiped, fun c s hc hr hm => ?retires, fun c s hc hr => ?cellCorrected,
    fun e x s hc hw hh hf hx => ?hangs, fun e s hw => ?unwatched,
    fun p id t n b s ht hage ha hn hcap => ⟨fun he => ?dispatcher, fun e x he hx hst => ?station⟩,
    fun q x w s hq hw hmv => ⟨fun hst hage => ?stalls, fun hst => ?stalled⟩,
    fun b a p id t s hn => ?dispHang,
    fun p c s hc => ⟨fun hi => ?captures, fun hi => ?captureWaits⟩,
    fun p written c s hc => ⟨fun ht => ?late, fun ht => ?early⟩,
    fun c w x i d t s hx hi hd ht => ?record,
    fun m r x s hm hr hx hd => ⟨fun hf => ?asked, fun hf => ?frozen⟩,
    fun p r l s hr hb hst => ?resetDone, fun p cause x s hx he hst hse => ?reset⟩
  case corrected => simp [exec_sliceSecDedError, execSliceSecDedError, Nat.not_le.mpr hb, State.updBlock]
  case sliceError =>
    have hmoves : (State.part { s with fab := { s.fab with claims := s.fab.claims.filter (fun c => !(c.access == acc && c.block == b)) } }).moves = [] := hmv
    have hbound : (State.block { s with fab := { s.fab with claims := s.fab.claims.filter (fun c => !(c.access == acc && c.block == b)) } } b).bound = some (p, n) := hbd
    simp only [exec_sliceSecDedError, execSliceSecDedError, Nat.not_le.mpr hb, if_false, Bool.not_true, Bool.false_eq_true]
    generalize { s with fab := { s.fab with claims := s.fab.claims.filter (fun c => !(c.access == acc && c.block == b)) } } = u at hmoves hbound ⊢
    cases ha : Tab.find s.fab.accesses acc with
    | none => simp [hmoves, hbound]
    | some a =>
      cases hw : a.who with
      | crierTap k =>
        have hs : a.store = true := (hno a k ha).resolve_left (not_not_intro hw)
        simp [hw, hs, hmoves, hbound]
      | _ => simp [hw, hmoves, hbound]
  case sendStops =>
    have hmoves : (State.part { s with fab := { s.fab with claims := s.fab.claims.filter (fun c => !(c.access == acc && c.block == b)) } }).moves = [] := hmv
    have hbound : (State.block { s with fab := { s.fab with claims := s.fab.claims.filter (fun c => !(c.access == acc && c.block == b)) } } b).bound = some (p, n) := hbd
    simp only [exec_sliceSecDedError, execSliceSecDedError, Nat.not_le.mpr hb, if_false, Bool.not_true, Bool.false_eq_true]
    generalize { s with fab := { s.fab with claims := s.fab.claims.filter (fun c => !(c.access == acc && c.block == b)) } } = u at hmoves hbound ⊢
    simp [ha, hw, hst, hmoves, hbound]
  case wiped =>
    simp only [exec_sliceWipeDone, execSliceWipeDone, hw]
    split
    · exact absurd rfl hk
    · rfl
  case retires =>
    rw [List.contains_eq_mem, decide_eq_false_iff_not] at hr
    simp [exec_cellUncorrectable, execCellUncorrectable, Nat.not_le.mpr hc, hr, State.retireSoon, hm]
  case cellCorrected =>
    rw [List.contains_eq_mem, decide_eq_false_iff_not] at hr
    simp [exec_cellUncorrectable, execCellUncorrectable, Nat.not_le.mpr hc, hr]
  case hangs => simp [exec_engineWatchdogExpire, execEngineWatchdogExpire, hc, hw, hh, hf, State.servedBy, hx]
  case unwatched => simp [exec_engineWatchdogExpire, execEngineWatchdogExpire, hw]
  case dispatcher => simp [exec_stationHung, execStationHung, ht, hage, ha, he, Nat.not_lt.mpr hn, State.capturing, hcap]
  case station =>
    have hsome : x.start.isNone = false := Option.isNone_eq_false_iff.mpr (Option.isSome_iff_ne_none.mpr hst)
    simp [exec_stationHung, execStationHung, ht, hage, ha, he, hx, hsome, Nat.not_lt.mpr hn, State.capturing, hcap]
  case stalls => simp [exec_queueStalled, execQueueStalled, hq, hw, hst, hmv, Nat.not_lt.mpr hage]
  case stalled => simp [exec_queueStalled, execQueueStalled, hq, hw, hst]
  case dispHang => simp [exec_dispatcherHang, execDispatcherHang, hn]
  case captures => simp [exec_hangCapture, execHangCapture, hc, hi]
  case captureWaits => simp [exec_hangCapture, execHangCapture, hc, hi]
  case late => simp [exec_hangCaptureTimeout, execHangCaptureTimeout, hc, ht]
  case early => simp [exec_hangCaptureTimeout, execHangCaptureTimeout, hc, Nat.not_le.mpr ht]
  case record =>
    subst hd ht
    simp only [State.endCapture, hx, hi]
    simp [plcF]
  case asked =>
    refine congrArg Host.Outcome.next (runPlain_answers hm ?_)
    simp [partitionResetBody, hr, State.livePart_of hx hd, State.partFrozen, hx, hf, okM]
  case frozen =>
    refine congrArg Host.Outcome.next (runPlain_answers hm ?_)
    simp [partitionResetBody, hr, State.livePart_of hx hd, State.partFrozen, hx, hf, busyM]
  case resetDone =>
    have hruns : (s.boundBlocks p).any (fun b => !s.blockRuns b) = false := by
      simpa using hb
    simp only [exec_partitionResetDone, execPartitionResetDone, hr, hruns, hst]
    rfl
  case reset =>
    obtain ⟨hpart, hfail⟩ := State.partReset_eq (cause := cause) hx he hst hse
    refine ⟨⟨{ x with resetGen := (x.resetGen + 1) % 256 }, ?_, rfl, rfl, rfl, rfl⟩, ?_, ?_⟩
    · simp [State.part?, hpart, State.setPart]
    · simp [hfail]
    · simp [hfail]

end

section
/-! Withdrawal, migration and portmanteaus (R441-R450). -/

namespace Sys2Proof.Machine

/-! ### The instructions of this file -/

theorem exec_withdrawal {s : State} : exec .withdrawal s = execWithdrawal s := rfl
theorem exec_migrateGenerationDone {p} {s : State} : exec (.migrateGenerationDone p) s = execMigrateGenerationDone p s := rfl
theorem exec_evacLimitExpire {s : State} : exec .evacLimitExpire s = execEvacLimitExpire s := rfl
theorem exec_withdrawn {s : State} : exec .withdrawn s = execWithdrawn s := rfl
theorem exec_portmanteauRestore {m node transfer target image} {s : State} : exec (.portmanteauRestore m node transfer target image) s = execPortmanteauRestore m node transfer target image s := rfl

end Sys2Proof.Machine

open Sys2Proof Sys2Proof.Machine Sys2Proof.Spec

/-- Settles O51: each command's branches on the states that the statement names. -/
theorem evacuation : Obligations.Evacuation := by
  refine ⟨fun c l s hw hd => ?withdraws,
    fun m r p x s hp hm hc hx hst => ⟨fun hno => ?abandons, fun hn hsave hports => ?saves⟩,
    fun m r p x o s hp hm hc hx hn hports hroom ho => ?migrates,
    fun p o d s ho hd => ⟨fun hfew => ?lastCopy, fun hmany hgen => ?nextCopy⟩,
    fun m r p o s hp hm hr ho => ⟨fun hf => ?cancels, fun hf => ?cancelLate⟩,
    fun m node r p o q s hp hm hr ho => ⟨fun hmig hq => ?evacuated, fun hmig => ?migrated⟩,
    fun w s hw ht => ?limit, fun w s hw hst hp => ?withdrawn,
    fun m node h data endOk c s hm hr hc => ⟨?badTag, fun hk => ?keeps, fun hk => ?badEnd, fun i t hk hi ht => ?whole⟩,
    fun m node tr target im t x y s hi hx => ⟨fun c hbad => ?misfit, fun hok hrk hsl hreset hy => ?restores⟩,
    fun m r p i t l x s hp hm hr hx hd hi hg hst hco => ?adopts⟩
  case withdraws => simp [exec_withdrawal, execWithdrawal, hw, hd]
  case abandons =>
    subst hp
    refine congrArg Host.Outcome.next (runPlain_answers hm ?_)
    simp only [evacuateBody, hc, hx, if_neg hst, if_pos hno]
  case saves =>
    subst hp
    refine congrArg Host.Outcome.next (runPlain_later hm ?_)
    have hno : ¬ (fldB r.toNat 2 2 = 0xFFFF ∨ s.canSave x = false) := by simp [hn, hsave]
    simp only [evacuateBody, hc, hx, if_neg hst, if_neg hno, if_neg hports]
  case migrates =>
    subst hp ho
    refine congrArg Host.Outcome.next (runPlain_answers hm ?_)
    have hno : ¬ (fldB r.toNat 2 2 = 0xFFFF ∨ portsOf (fldB r.toNat 4 2) = []) := by simp [hn, hports]
    simp only [migrateStartBody, hc, hx, if_neg hno, if_neg (Nat.not_lt.mpr hroom), okM]
    rfl
  case lastCopy =>
    subst hd
    simp only [exec_migrateGenerationDone, execMigrateGenerationDone, ho, if_pos (Or.inl hfew)]
  case nextCopy =>
    subst hd
    simp only [exec_migrateGenerationDone, execMigrateGenerationDone, ho]
    rw [if_neg (by omega)]
  case cancels =>
    subst hp
    refine congrArg Host.Outcome.next (runPlain_answers hm ?_)
    simp [migrateCancelBody, hr, ho, hf, okM]
  case cancelLate =>
    subst hp
    refine congrArg Host.Outcome.next (runPlain_answers hm ?_)
    simp [migrateCancelBody, hr, ho, hf, busyM]
  case evacuated =>
    subst hp
    refine congrArg Host.Outcome.next (runPlain_answers hm ?_)
    simp only [hr, ho, hmig, hq, okM]
    rfl
  case migrated =>
    subst hp
    refine congrArg Host.Outcome.next (runPlain_answers hm ?_)
    simp only [hr, ho, hmig, okM]
    rfl
  case limit => simp [exec_evacLimitExpire, execEvacLimitExpire, hw, Nat.not_lt.mpr ht]
  case withdrawn => simp [exec_withdrawn, execWithdrawn, hw, hst, hp, Tab.keys]
  case badTag =>
    refine congrArg Host.Outcome.next (runPlain_answers hm ?_)
    simp [refuseM]
  case keeps =>
    subst hc
    refine congrArg Host.Outcome.next (runPlain_answers hm ?_)
    simp only [hr, okM]
    exact if_pos hk
  case badEnd =>
    subst hc
    refine congrArg Host.Outcome.next (runPlain_answers hm ?_)
    simp only [hr, refuseM]
    exact if_neg (not_not_intro hk)
  case whole =>
    subst hc hi ht
    refine congrArg Host.Outcome.next (runPlain_answers hm ?_)
    have hend : ¬ (fldB h.toNat 8 1 ≠ 6) := not_not_intro hk
    simp only [hr, okM, if_neg hend, Bool.not_true, Bool.false_eq_true, if_false]
    repeat' split
    all_goals rfl
  case misfit => simp only [exec_portmanteauRestore, execPortmanteauRestore, hi, hx, hbad]
  case restores =>
    subst hy
    simp [exec_portmanteauRestore, execPortmanteauRestore, hi, hx, hok, hrk, hsl, hreset]
  case adopts =>
    subst hp
    refine congrArg Host.Outcome.next (runPlain_answers hm ?_)
    simp [portmanteauAdoptBody, hr, State.livePart_of hx hd, hi, hx, hg, hst, hco, okM, plcF]

end

section
/-! Transactions of a port (R355, R380). -/

namespace Sys2Proof.Machine

/-! ### The instructions of this file -/

theorem exec_qpSend {n} {s : State} : exec (.qpSend n) s = execQpSend n s := rfl
theorem exec_qpAck {n} {s : State} : exec (.qpAck n) s = execQpAck n s := rfl
theorem exec_landingFenceCredit {q} {s : State} : exec (.landingFenceCredit q) s = execLandingFenceCredit q s := rfl
theorem exec_winRead {n} {s : State} : exec (.winRead n) s = execWinRead n s := rfl
theorem exec_winWrite {n} {s : State} : exec (.winWrite n) s = execWinWrite n s := rfl
theorem exec_winAtomic {n} {s : State} : exec (.winAtomic n) s = execWinAtomic n s := rfl
theorem exec_rsp {n} {s : State} : exec (.rsp n) s = execRsp n s := rfl
theorem exec_hostRead {n part addr len dst} {s : State} : exec (.hostRead n part addr len dst) s = execHostRead n part addr len dst s := rfl
theorem exec_hostWrite {n part addr data} {s : State} : exec (.hostWrite n part addr data) s = execHostWrite n part addr data s := rfl
theorem exec_notify {n part queue} {s : State} : exec (.notify n part queue) s = execNotify n part queue s := rfl
theorem exec_doorbellTxn {n} {s : State} : exec (.doorbellTxn n) s = execDoorbellTxn n s := rfl
theorem exec_cfgRead {n} {s : State} : exec (.cfgRead n) s = execCfgRead n s := rfl

open Sys2Proof.Spec

/-- No bytes written to slice memory change nothing. -/
theorem State.sliceWrite_nil (s : State) (b off : Nat) : s.sliceWrite b off [] = s := by
  unfold State.sliceWrite
  exact ite_self s

theorem Waybill.scaleBytes_of_kind {w : Waybill} (h : w.kind = 1) : w.scaleBytes = 0 := by simp [Waybill.scaleBytes, h]

theorem Waybill.metaBytes_of_kind {w : Waybill} (h : w.kind = 1) : w.metaBytes = 0 := by simp [Waybill.metaBytes, h]

theorem Waybill.tileBytes_of_kind {w : Waybill} (h : w.kind = 1) : w.tileBytes = 0 := by simp [Waybill.tileBytes, h]

/-- A transaction's message, the oldest of its virtual channel, is acted on without it in its buffer. -/
theorem State.onTxn_take {s : State} {n txn : Nat} {m : RxMsg} {px : LPort} (act : Nat → RxMsg → State → State) (h : (s.port n).take txn = some (m, px)) :
    s.onTxn n txn act = act (ofBytes (m.bytes.take 32)) m (s.setPort n px) := by
  unfold State.onTxn
  rw [h]

/-- A window request that passed the checks with bytes is admitted. -/
theorem State.winServe_admits {s : State} {n tag node : Nat} {q : WinReq} {l : List Nat} (data : List (BitVec 8)) (amo : Option (Nat × Nat)) (h : s.ingress q = .ok l) (hl : l ≠ []) :
    s.winServe n tag node q data amo = s.admitWin n tag node q l data amo := by
  unfold State.winServe
  rw [h]
  exact if_neg (by simpa using hl)

theorem State.winServe_refuses {s : State} {n tag node : Nat} {q : WinReq} {c : Code} (data : List (BitVec 8)) (amo : Option (Nat × Nat)) (h : s.ingress q = .error c) :
    s.winServe n tag node q data amo = s.winRefused n q tag c := by
  unfold State.winServe
  rw [h]

end Sys2Proof.Machine

open Sys2Proof Sys2Proof.Machine Sys2Proof.Spec

/-- Settles O42: each transaction's branches on a message that has been taken from its buffer. -/
theorem transactions : Obligations.Transactions := by
  refine ⟨fun n m px h q x y w data s hm hwait hh hq hx hrecv hport hpart hw hdata hnil hk hy hroom => ?plain,
    fun n m px h q x y w data blk line b o1 o2 s hm hwait hh hq hx hrecv hport hpart hw hdata hlen hk h1 h2 hfits hy hroom hblk hline hb => ?lands,
    fun n m px h q x y w data stn t s hm hwait hh hq hx hrecv hport hpart hw hdata hlen hover hy hstn ht => ?overflow,
    fun n s hwait => ?waits,
    fun n m px o l q e u rest s hm ho huse he hu => ?acked, fun n m px h s hm hh => ?credits,
    fun q x s hx hrecv hlt hf hcl => ?landed,
    fun n m px q s hfz hm hq => ⟨fun l hi hl => ?readOk, fun c hi => ?readBad⟩,
    fun n m px q s hfz hwait hm hq => ⟨fun l hi hl => ?writeOk, fun c hi => ?writeBad⟩,
    fun n m px h body sub q l s hfz hwait hm hh hbody hsub hrs hq => ⟨fun hi hl => ?atomicOk, fun c hi => ?atomicBad⟩,
    fun n q tag c s hc => ?refused, fun k line data o s ho hl hk => ?lineRead, fun k line data o x s ho hl hk hbad hx => ?lastRead,
    fun k line o x s ho hl hk hbad hx => ?lastWrite,
    fun n m px o l key s hm ho hg huse => ?hostData, fun n m px o l e va k s hm ho hg huse => ?windowData,
    fun e part va k status body s hk => ⟨?answered, fun c hst hc => ?faults, fun hst hc => ?unnamed⟩,
    fun n part addr len dst s hn hc => ?hostRead, fun n part addr data s hn hc => ?hostWrite, fun n part queue s hn hc => ?notify,
    fun n m px h s hm hh hal hlo hhi => ?bell, fun n m px h s hm hh => ?config⟩
  case plain =>
    subst hh hq hdata hport
    have hmine : (!x.recv || x.port != x.port || x.part != fld (ofBytes (m.bytes.take 32)) 1 5 0) = false := by simp [hrecv, hpart]
    have hempty : roundUp 0 64 = 0 := by decide
    simp only [exec_qpSend, execQpSend, hwait, hm, hx, hmine, ← hw, hnil, Waybill.tileBytes_of_kind hk, Waybill.scaleBytes_of_kind hk, Waybill.metaBytes_of_kind hk, hempty, hy, hroom,
      List.length_nil, List.take_nil, List.drop_nil, State.sliceWrite_nil, if_pos (show w.kind ≠ 0 by omega)]
    cases s.phys x.part (fld x.landingAddr 0 24 19) with
    | none => rfl
    | some b => rfl
  case lands =>
    subst hh hq hdata hport h1 h2 hblk hline
    have hmine : (!x.recv || x.port != x.port || x.part != fld (ofBytes (m.bytes.take 32)) 1 5 0) = false := by simp [hrecv, hpart]
    simp only [exec_qpSend, execQpSend, hwait, hm, hx, hmine, ← hw, if_neg (not_not_intro hlen), if_neg (Nat.not_lt.mpr hfits), hy, hroom, hb, if_neg (not_not_intro hk)]
    rfl
  case overflow =>
    subst hh hq hdata hport hstn
    have hmine : (!x.recv || x.port != x.port || x.part != fld (ofBytes (m.bytes.take 32)) 1 5 0) = false := by simp [hrecv, hpart]
    have ht' : State.station? (State.setQpair (s.setPort x.port px) (fld (ofBytes (m.bytes.take 32)) 12 19 0) { x with count := x.count + 1 }) x.part (consumerStation y.consumer) = some t := ht
    simp only [exec_qpSend, execQpSend, hwait, hm, hx, hmine, ← hw, if_neg (not_not_intro hlen), if_pos hover, hy, ht']
    rfl
  case waits => simp [exec_qpSend, execQpSend, hwait]
  case acked =>
    simp only [exec_qpAck, execQpAck, State.onTxn_take _ hm, State.port_setPort, ho, huse]
    have he' : Tab.find (State.setPort (s.setPort n px) n { px with outstanding := l }).part.qpairs q = some e := he
    simp only [he', hu]
  case credits =>
    subst hh
    refine ⟨_, congrArg Host.Outcome.next (State.onTxn_take _ hm), fun q e he hrecv hport hnode hqueue hlt => ?_, rfl⟩
    simp [he, hrecv, hport, hnode, hqueue, hlt]
  case landed =>
    simp [exec_landingFenceCredit, execLandingFenceCredit, hx, hrecv, hlt, hf, hcl]
  case readOk =>
    subst hq
    simp only [exec_winRead, execWinRead, hfz, State.onTxn_take _ hm, State.winServe_admits _ _ hi hl]
    rfl
  case readBad =>
    subst hq
    simp only [exec_winRead, execWinRead, hfz, State.onTxn_take _ hm, State.winServe_refuses _ _ hi]
    rfl
  case writeOk =>
    subst hq
    simp only [exec_winWrite, execWinWrite, hfz, hwait, State.onTxn_take _ hm, State.winServe_admits _ _ hi hl]
    rfl
  case writeBad =>
    subst hq
    simp only [exec_winWrite, execWinWrite, hfz, hwait, State.onTxn_take _ hm, State.winServe_refuses _ _ hi]
    rfl
  case atomicOk =>
    subst hh hbody hq
    simp only [exec_winAtomic, execWinAtomic, hfz, hwait, State.onTxn_take _ hm, hsub, hrs, State.winServe_admits _ _ hi hl]
    rfl
  case atomicBad =>
    subst hh hbody hq
    simp only [exec_winAtomic, execWinAtomic, hfz, hwait, State.onTxn_take _ hm, hsub, hrs, State.winServe_refuses _ _ hi]
    rfl
  case refused => simp [State.winRefused, hc]
  case lineRead =>
    have hleft : o.left - 1 ≠ 0 := by omega
    simp [State.winLine, ho, hk, hleft]
  case lastRead =>
    subst hx
    simp [State.winLine, ho, hk, hl, hbad]
  case lastWrite =>
    subst hx
    simp [State.winLine, ho, hk, hl, hbad]
  case hostData =>
    simp only [exec_rsp, execRsp, State.onTxn_take _ hm, State.port_setPort, ho, huse]
    exact congrArg Host.Outcome.next (if_neg (not_not_intro hg))
  case windowData =>
    simp only [exec_rsp, execRsp, State.onTxn_take _ hm, State.port_setPort, ho, huse]
    exact congrArg Host.Outcome.next (if_neg (not_not_intro hg))
  case answered => simp [State.windowAnswer, hk]
  case faults => simp [State.windowAnswer, hk, hst, hc]
  case unnamed => simp [State.windowAnswer, hk, hst, hc]
  case hostRead => simp [exec_hostRead, execHostRead, hostPort, hn, hc]
  case hostWrite => simp [exec_hostWrite, execHostWrite, hostPort, hn, hc]
  case notify => simp [exec_notify, execNotify, hostPort, hn, hc]
  case bell =>
    subst hh
    simp only [exec_doorbellTxn, execDoorbellTxn, State.onTxn_take _ hm]
    rw [if_neg (by omega)]
  case config =>
    subst hh
    simp only [exec_cfgRead, execCfgRead, State.onTxn_take _ hm]

end

section
/-! Memory controllers: frames, refresh and promotion (R222-R228, R418). -/

namespace Sys2Proof.Machine

/-! ### The instructions of this file -/

theorem exec_dramSlotGrant {ch sub} {s : State} : exec (.dramSlotGrant ch sub) s = execDramSlotGrant ch sub s := rfl

/-! ### The instructions of this file -/

theorem exec_dramRefsb {ch} {s : State} : exec (.dramRefsb ch) s = execDramRefsb ch s := rfl
theorem exec_dramReadData {ch errs} {s : State} : exec (.dramReadData ch errs) s = execDramReadData ch errs s := rfl

open Sys2Proof.Spec

@[simp] theorem State.ctrl_setCtrl (s : State) (ch ch' : Nat) (c : Ctrl) : (s.setCtrl ch c).ctrl ch' = if ch' = ch then c else s.ctrl ch' := Tab.getD_put _ _ _ _ _

@[simp] theorem Ctrl.sub_setSub (c : Ctrl) (k : Nat) (x : SubChan) : (c.setSub k x).sub k = x := by
  unfold Ctrl.sub Ctrl.setSub
  split <;> rfl

/-- The subchannels do not depend on the queue and the reads. -/
theorem Ctrl.sub_queue_reads (c : Ctrl) (k : Nat) (queue : List MemReq) (reads : List MemRead) : Ctrl.sub { c with queue := queue, reads := reads } k = c.sub k := rfl

theorem Ctrl.reads_setSub (c : Ctrl) (k : Nat) (x : SubChan) : (c.setSub k x).reads = c.reads := by
  unfold Ctrl.setSub
  split <;> rfl

theorem State.setCtrl_setCtrl (s : State) (ch : Nat) (c c' : Ctrl) : (s.setCtrl ch c).setCtrl ch c' = s.setCtrl ch c' := by
  simp only [State.setCtrl, Tab.put_put]

/-- A line's poison is as before while its controller keeps its list. -/
theorem State.poisoned_setCtrl {s : State} (ch dpa : Nat) {c : Ctrl} (h : c.poison = (s.ctrl ch).poison) : (s.setCtrl ch c).poisoned dpa = s.poisoned dpa := by
  unfold State.poisoned
  rw [State.ctrl_setCtrl]
  split
  next hch => rw [h, ← hch]; rfl
  next => rfl

/-- A write that meets no lost DIMM and no coded carve-out enters the controller's queue. -/
theorem State.memIn_enters {s : State} {ch : Nat} {r : MemReq} (href : s.refusesWrite (r.line * 64) = false) (hcoded : s.codedDpa (r.line * 64) = false) (hl : (s.ctrl ch).lost = false) :
    s.memIn ch r = s.memEnter ch r := by
  simp [State.memIn, href, hcoded, State.toChannel, hl]

/-- The line that a partial write read is merged with the write's bytes, and is written whole from then on. -/
theorem State.memDeliver_merges (s : State) (ch : Nat) {r : MemReq} (data : List (BitVec 8)) (hw : r.write = true) (ha : r.amo = none) (hc : r.clears = false) (hwho : r.who = .none) :
    s.memDeliver ch r data false = s.memIn ch { r with partial' := false, lo := 0, data := overlay data r.lo r.data, amo := none, replay := none, frames := 0 } := by
  simp [State.memDeliver, hw, State.keepOld, hwho, MemReq.over, hc, ha]

/-- A write of a whole line stands alone in the queue it enters. -/
theorem Ctrl.enter_alone {c : Ctrl} {r : MemReq} (hq : c.queue = []) (hr : c.reads = []) (hw : r.write = true) (hlen : r.data.length = 64) (ha : r.amo = none) (hwho : r.who = .none) :
    c.enter r = { c with nextSeq := c.nextSeq + 1, queue := [r.present c.nextSeq] } := by
  have hpart : (r.present c.nextSeq).partial' = false := by simp [MemReq.present, hlen, ha]
  have hplain : (r.present c.nextSeq).plain = true := by simp [MemReq.present, MemReq.plain, hwho]
  have hread : (r.present c.nextSeq).isRead = false := by simp [MemReq.isRead, hpart, show (r.present c.nextSeq).write = true from hw]
  simp [Ctrl.enter, hplain, hread, hq, hr]

/-! ## What a granted request meets -/

/-- The request granted in a slot is one that stands in the subchannel and may have it. -/
theorem State.slotGrant_ok {s : State} {ch sub : Nat} {x : SubChan} {r : MemReq} (h : s.slotGrant ch sub x = some r) :
    s.memHeld r = false ∧ x.used.contains (bankTarget (r.line * 64)) = false ∧ (s.ctrl ch).refHold (s.ctrl ch).frame (bankTarget (r.line * 64)) = false ∧
      (∀ f, r.replay = some f → f < (s.ctrl ch).frame) := by
  have hmem := List.mem_of_mem_head? h
  have hok := (List.mem_filter.mp ((sortBy_perm _ _).mem_iff.mp hmem)).2
  simp only [Bool.and_eq_true, Bool.not_eq_true'] at hok
  obtain ⟨⟨⟨⟨⟨_, hheld⟩, _⟩, hused⟩, hhold⟩, hreplay⟩ := hok
  refine ⟨hheld, hused, hhold, fun f hf => ?_⟩
  rw [hf] at hreplay
  exact of_decide_eq_true hreplay

/-- The status of a write changes no byte of memory. -/
theorem State.writeDone_dram (s : State) (ch : Nat) (r : MemReq) : (s.writeDone ch r).dram.dram = s.dram.dram := by
  unfold State.writeDone
  generalize r.owners = l
  induction l generalizing s with
  | nil => rfl
  | cons w l ih =>
    rw [List.foldl_cons, ih]
    split <;> rfl

theorem Memory.read_writeL_below {m : Sys2Proof.Mem} (h : Memory.wf m = true) (a b : Nat) (hb : b < a) (l : List (BitVec 8)) : Memory.read (Memory.writeL m a l) b = Memory.read m b := by
  induction l generalizing m a with
  | nil => rfl
  | cons x l ih => rw [Memory.writeL, ih (Memory.wf_write h _ _) _ (by omega), Memory.read_write h, if_neg (by omega)]

/-- A byte string written at an address is what is read there. -/
theorem Memory.read_writeL {m : Sys2Proof.Mem} (h : Memory.wf m = true) (a i : Nat) (l : List (BitVec 8)) (hi : i < l.length) : Memory.read (Memory.writeL m a l) (a + i) = l.getD i 0 := by
  induction l generalizing m a i with
  | nil => exact absurd hi (Nat.not_lt_zero i)
  | cons x l ih =>
    rw [Memory.writeL]
    cases i with
    | zero =>
      change Memory.read _ a = x
      rw [Memory.read_writeL_below (Memory.wf_write h _ _) _ _ (Nat.lt_add_one a), Memory.read_write h, if_pos rfl]
    | succ i =>
      rw [show a + (i + 1) = a + 1 + i by omega, ih (Memory.wf_write h _ _) _ _ (Nat.lt_of_succ_lt_succ hi)]
      rfl

/-- A line put into the DRAM is what is read there. -/
theorem State.putLine_read {s : State} (line : Nat) (data : List (BitVec 8)) (clears : Bool) (hwf : Memory.wf s.dram.dram = true) (i : Nat) (hi : i < data.length) :
    Memory.read (s.putLine line data clears).dram.dram (line * 64 + i) = data.getD i 0 := by
  have hdram : (s.putLine line data clears).dram.dram = Memory.writeL s.dram.dram (line * 64) data := by
    unfold State.putLine
    dsimp only
    split <;> rfl
  rw [hdram, Memory.read_writeL hwf _ _ _ hi]

/-- A controller that corrected nothing keeps all but its list of the last second's corrections. -/
theorem State.noteLine_nil (s : State) (ch line : Nat) : ∃ corrected, s.noteLine ch line [] = s.setCtrl ch { s.ctrl ch with corrected := corrected } := by
  refine ⟨(s.ctrl ch).corrected.filter (fun e => decide (s.now < e.2.2 + 1000000)), ?_⟩
  simp [State.noteLine, Ctrl.noteCorrected, State.markEvents, dedupN]

/-- Without an error the code has nothing to correct. -/
theorem Ctrl.corrects_nil (c : Ctrl) (line : Nat) : c.corrects line [] = true := by
  simp [Ctrl.corrects, sumN]

end Sys2Proof.Machine

open Sys2Proof Sys2Proof.Machine Sys2Proof.Spec

/-- Settles O33: each command's branches on the controller before the slot, with what a grant, a write's completion and a merged write leave. -/
theorem memoryFrames : Obligations.MemoryFrames := by
  refine ⟨fun ch sub r s u hch hsub hl hst hu hslot hg => ?granted, fun ch sub s u hch hsub hl hst hu hslot hg => ?idle,
    fun ch sub r f s hg => ?meets, fun ch sub r s hch hb hwho hlen hwf i hi => ?visible,
    fun ch sub s u hch hsub hl hst hu hslot hpast href hsealed => ?nextFrame,
    fun x r w => ?direction, fun ch s hch hst hpast hdue hdone => ?refresh, fun ch above s hch => ?crosses, fun ch s => ?promotes,
    fun ch x l s b slot hr hw hwho he => ?fromEntry, fun ch x l s b slot hr hw hwho he hdpa => ?fromDram,
    fun ch x l s hr he hw ha hc hwho hlen hfit hq hnil hl href hcoded => ?merged⟩
  case granted =>
    subst hu
    unfold beforeSlot at *
    have hrun : ¬ (48 ≤ ch ∨ 2 ≤ sub ∨ (s.ctrl ch).lost = true ∨ s.sys.state = .doze) := by simp [hl, hst]; omega
    simp only [exec_dramSlotGrant, execDramSlotGrant, if_neg hrun]
    generalize (s.finishBusy ch sub).topUp ch = u at hslot hg ⊢
    simp only [if_neg (Nat.not_le.mpr hslot), hg]
    refine ⟨_, rfl, rfl, ?_, ?_, rfl, fun hread => ?_, fun hread => ?_⟩
    · rw [State.ctrl_setCtrl, if_pos rfl]
      split
      · exact (congrArg SubChan.slot (Ctrl.sub_setSub _ _ _)).trans rfl
      · exact (congrArg SubChan.slot (Ctrl.sub_setSub _ _ _)).trans rfl
    · rw [State.ctrl_setCtrl, if_pos rfl]
      intro y hy
      have hy' : y ∈ (u.ctrl ch).queue.filter (fun y => y.seq != r.seq) := by
        split at hy <;> exact hy
      simpa using (List.mem_filter.mp hy').2
    · rw [State.ctrl_setCtrl, if_pos rfl, if_pos hread]
      exact congrArg (· ++ _) (Ctrl.reads_setSub _ _ _)
    · rw [State.ctrl_setCtrl, if_pos rfl, hread]
      exact ⟨Ctrl.reads_setSub _ _ _, congrArg SubChan.busy (Ctrl.sub_setSub _ _ _)⟩
  case idle =>
    subst hu
    unfold beforeSlot at *
    have hrun : ¬ (48 ≤ ch ∨ 2 ≤ sub ∨ (s.ctrl ch).lost = true ∨ s.sys.state = .doze) := by simp [hl, hst]; omega
    simp only [exec_dramSlotGrant, execDramSlotGrant, if_neg hrun]
    generalize (s.finishBusy ch sub).topUp ch = u at hslot hg ⊢
    simp only [if_neg (Nat.not_le.mpr hslot), hg]
    exact ⟨_, rfl, rfl, (State.ctrl_setCtrl _ _ _ _).trans (if_pos rfl)⟩
  case meets =>
    obtain ⟨hheld, hused, hhold, hreplay⟩ := State.slotGrant_ok hg
    exact ⟨hreplay f, hused, hhold, hheld⟩
  case visible =>
    have hwf' : Memory.wf (s.setCtrl ch ((s.ctrl ch).setSub sub { (s.ctrl ch).sub sub with busy := none })).dram.dram = true := hwf
    rw [show s.finishBusy ch sub = (s.setCtrl ch ((s.ctrl ch).setSub sub { (s.ctrl ch).sub sub with busy := none })).complete ch r by simp only [State.finishBusy, hb]]
    rcases hwho with hwho | ⟨n, hwho⟩
    · simp only [State.complete, hwho]
      exact State.putLine_read _ _ _ hwf' i (by omega)
    · simp only [State.complete, hwho, State.writeDone_dram]
      exact State.putLine_read _ _ _ hwf' i (by omega)
  case nextFrame =>
    subst hu
    unfold beforeSlot at *
    have hrun : ¬ (48 ≤ ch ∨ 2 ≤ sub ∨ (s.ctrl ch).lost = true ∨ s.sys.state = .doze) := by simp [hl, hst]; omega
    simp only [exec_dramSlotGrant, execDramSlotGrant, if_neg hrun]
    generalize (s.finishBusy ch sub).topUp ch = u at hslot hpast href hsealed ⊢
    have hgo : (!(u.ctrl ch).pastData || ((u.ctrl ch).refDue (u.ctrl ch).frame && !(u.ctrl ch).refDone (u.ctrl ch).frame)) = false := by
      cases hd : (u.ctrl ch).refDue (u.ctrl ch).frame <;> simp_all
    simp only [if_pos hslot, hgo]
    refine ⟨_, rfl, rfl, rfl, List.length_map _, fun k hk => ?_⟩
    have hsub : (u.nextFrame ch).sub k = u.nextSub ch k ((u.ctrl ch).frame + 1) := by
      unfold Ctrl.sub State.nextFrame
      split
      next h => rw [h]
      next h => rw [show k = 1 by omega]
    rw [hsub]
    refine ⟨rfl, rfl, rfl, ?_⟩
    simp only [State.nextSub, hsealed]
    rfl
  case direction =>
    unfold frameWrites
    split
    next h => simp [h]
    next h => simp [h]
  case refresh => simp [exec_dramRefsb, execDramRefsb, hch, hst, hpast, hdue, hdone, Ctrl.refGroupOf]
  case crosses => exact congrArg Host.Outcome.next (if_pos hch)
  case promotes => rfl
  case fromEntry => simp [exec_dramReadData, execDramReadData, hr, he, State.memDeliver, hw, hwho]
  case fromDram =>
    obtain ⟨corrected, hnote⟩ := State.noteLine_nil (s.setCtrl ch { s.ctrl ch with reads := l }) ch x.req.line
    rw [State.ctrl_setCtrl, if_pos rfl, State.setCtrl_setCtrl] at hnote
    refine ⟨{ s.ctrl ch with reads := l, corrected := corrected }, ?_, rfl⟩
    simp only [exec_dramReadData, execDramReadData, hr, he, Ctrl.corrects_nil, hnote, if_true, Bool.false_eq_true, if_false]
    have hpoison : State.poisoned (s.setCtrl ch { s.ctrl ch with reads := l, corrected := corrected }) (x.req.line * 64) = s.poisoned (x.req.line * 64) := State.poisoned_setCtrl _ _ rfl
    rw [hpoison]
    simp only [State.memDeliver, hw, hwho]
    rfl
  case merged =>
    subst hnil
    have hlen64 : (x.data.take x.req.lo ++ x.req.data ++ x.data.drop (x.req.lo + x.req.data.length)).length = 64 := by
      simp only [List.length_append, List.length_take, List.length_drop, hlen]
      omega
    have href' : (s.setCtrl ch { s.ctrl ch with reads := [] }).refusesWrite (x.req.line * 64) = false := href
    have hcoded' : (s.setCtrl ch { s.ctrl ch with reads := [] }).codedDpa (x.req.line * 64) = false := hcoded
    have hctrl : (s.setCtrl ch { s.ctrl ch with reads := [] }).ctrl ch = { s.ctrl ch with reads := [] } := (State.ctrl_setCtrl _ _ _ _).trans (if_pos rfl)
    have hexec : exec (.dramReadData ch []) s = .next ((s.setCtrl ch { s.ctrl ch with reads := [] }).memDeliver ch x.req x.data false) := by
      simp only [exec_dramReadData, execDramReadData, hr, he, if_true]
    rw [hexec, State.memDeliver_merges _ _ _ hw ha hc hwho, State.memIn_enters (by exact href') (by exact hcoded') (by rw [hctrl]; exact hl), State.memEnter, hctrl,
      Ctrl.enter_alone (by exact hq) rfl (by exact hw) (by exact hlen64) rfl (by exact hwho), State.setCtrl_setCtrl]
    exact ⟨_, _, rfl, rfl, rfl, hw, by simp only [MemReq.present, overlay, hlen64]; simp, rfl, rfl, rfl⟩

end

section
/-! Scrub, replay, loss and parity; key rotation and wiping (R226, R231-R249). -/

namespace Sys2Proof.Machine

/-! ### The instructions of this file -/

theorem exec_dramPatrolScrub {ch sub errs} {s : State} : exec (.dramPatrolScrub ch sub errs) s = execDramPatrolScrub ch sub errs s := rfl
theorem exec_rekeySweepPage {p ch} {s : State} : exec (.rekeySweepPage p ch) s = execRekeySweepPage p ch s := rfl
theorem exec_rekeyDone {p} {s : State} : exec (.rekeyDone p) s = execRekeyDone p s := rfl

/-! ### The instructions of this file -/

theorem exec_dramBusReplay {ch seq command} {s : State} : exec (.dramBusReplay ch seq command) s = execDramBusReplay ch seq command s := rfl
theorem exec_dimmLost {ch} {s : State} : exec (.dimmLost ch) s = execDimmLost ch s := rfl
theorem exec_parityRowFlush {region} {s : State} : exec (.parityRowFlush region) s = execParityRowFlush region s := rfl
theorem exec_parityEntryFreed {region} {s : State} : exec (.parityEntryFreed region) s = execParityEntryFreed region s := rfl
theorem exec_codedInitDone {p} {s : State} : exec (.codedInitDone p) s = execCodedInitDone p s := rfl
theorem exec_rekeyBitmapFlip {p ch} {s : State} : exec (.rekeyBitmapFlip p ch) s = execRekeyBitmapFlip p ch s := rfl
theorem exec_rekeyPageRelease {p ch} {s : State} : exec (.rekeyPageRelease p ch) s = execRekeyPageRelease p ch s := rfl

open Sys2Proof.Spec

/-- A request that enters a queue is no error of the DIMM. -/
theorem Ctrl.enter_bad (c : Ctrl) (r : MemReq) : (c.enter r).bad = c.bad := by
  unfold Ctrl.enter
  dsimp only
  split
  · rfl
  · split
    · split
      · split <;> rfl
      · rfl
    · split <;> rfl

theorem Tab.find_map_mk {α : Type} {k : Nat} (f : Nat → α) {l : List Nat} (h : k ∈ l) : Tab.find (l.map (fun i => (i, f i))) k = some (f k) := by
  induction l with
  | nil => exact absurd h List.not_mem_nil
  | cons i l ih =>
    rw [List.map_cons, Tab.find]
    split
    next hk => rw [hk]
    next hk => exact ih ((List.mem_cons.mp h).resolve_left hk)

/-- A table of the first numbers holds each number's value. -/
theorem Tab.getD_range {α : Type} {n k : Nat} (f : Nat → α) (d : α) (h : k < n) : Tab.getD ((List.range n).map (fun i => (i, f i))) k d = f k := by
  rw [Tab.getD, Tab.find_map_mk f (List.mem_range.mpr h)]
  rfl

/-- A controller in service that has an entry takes a request of the controllers' own. -/
theorem State.tryEnter_takes {s : State} {ch : Nat} {r : MemReq} (hl : (s.ctrl ch).lost = false) (hr : s.roomFor ch r = true) : s.tryEnter ch r = some (s.memEnter ch r) := by
  simp [State.tryEnter, hl, hr]

/-- Memory without the bytes of a line reads zero there, and as before elsewhere. -/
theorem Memory.read_wipeLine (m : Sys2Proof.Mem) (line a : Nat) :
    Memory.read (m.filter (fun c => c.1 / 64 != line)) a = if a / 64 = line then 0 else Memory.read m a := by
  induction m with
  | nil => exact (ite_self _).symm
  | cons x l ih =>
    obtain ⟨k, v⟩ := x
    rw [Memory.read_cons]
    by_cases hk : k / 64 = line
    · rw [List.filter_cons_of_neg (by simpa using hk), ih]
      split
      · rfl
      · rw [if_neg (fun h => by subst h; contradiction)]
    · rw [List.filter_cons_of_pos (by simpa using hk), Memory.read_cons, ih]
      split
      next h => rw [if_neg (by rw [h]; exact hk)]
      · rfl

/-- Requests that nobody waits with are none to come to their engine again. -/
theorem State.rowRetry_none {s : State} {f : MemReq → Bool} (h : s.dram.rowWait.filter f = []) : s.rowRetry f = s := by
  unfold State.rowRetry
  have hrest : s.dram.rowWait.filter (fun r => !f r) = s.dram.rowWait :=
    List.filter_eq_self.mpr (fun r hr => by simpa using List.filter_eq_nil_iff.mp h r hr)
  rw [h, hrest]
  rfl

end Sys2Proof.Machine

open Sys2Proof Sys2Proof.Machine Sys2Proof.Spec

/-- Settles O34: each command's branches, with what a wiped line reads and what a request leaves of a controller's errors. -/
theorem memoryErrorsAndKeys : Obligations.MemoryErrorsAndKeys := by
  refine ⟨fun ch sub line s hch hsub hslot hsc hl hst hline => ⟨?scrubs, fun errs he hc => ?scrubCorrects, fun errs he hc => ?scrubFails⟩,
    fun ch line d n s hdpa hbad hn hcoded => ?reconstructs,
    fun ch x s hr he h0 h1 => ?replaysRead, fun ch w s hr h0 h1 => ?replaysWrite,
    fun ch s hch hlost hr hq => ?loses, fun ch r b slot s hwho hno => ?poison, fun n b x slot s hb hleft hwho => ?rebuilds,
    fun g r s hr => ?flushes, fun r => ⟨rfl, fun p => ?asks, fun p => ?todo, ?writing⟩,
    fun ch r s hreg hl => ⟨fun ha hroom => ?pushRead, fun ha hw ht hroom => ?pushWrite⟩,
    fun g r l s hr => ⟨fun hnone => ?freed, fun w hw hg => ?freedHeld⟩,
    fun p x s hx hnone => ?coded,
    fun q r e p k x s hq hr hp h0 h60 hown hx hd hi hrk hk => ?rekeys,
    fun p ch y x s hch hy hx hpg hsc hdone hstop hl => ⟨fun hnone => ?swept, fun a ha => ?sweeps⟩,
    fun p ch y g s hy hg hl => ⟨fun hfull => ?sweepFull, fun hown ha hroom => ?sweepReads, fun hown ha hdata hsent hroom => ?sweepWrites⟩,
    fun p ch y g s hy hg => ⟨fun hm => ?flipWaits, fun hm hf hl hroom => ?flips⟩,
    fun p ch y g r s hy hg hwho => ?flipped,
    fun p ch y g s hy hg hstop => ⟨fun hf => ?releases, fun hf => ?holds⟩,
    fun p y x k s hy hx hk hall => ?rekeyDone, fun ch s => ?restarts, fun s hw => ?deviceWipe,
    fun line s hwf a => ?wipeLine, fun p w s hw hk hp hover => ?wiped, fun p s hnone => ?wiping⟩
  case scrubs =>
    have hgo : ¬ (48 ≤ ch ∨ 2 ≤ sub ∨ ((s.ctrl ch).sub sub).slot < 34 ∨ ((s.ctrl ch).sub sub).scrubbed = true ∨ (s.ctrl ch).lost = true ∨ s.sys.state = .doze) := by
      simp [hsc, hl, hst]; omega
    exact congrArg Host.Outcome.next (if_neg hgo)
  case scrubCorrects =>
    subst hline
    have hgo : ¬ (48 ≤ ch ∨ 2 ≤ sub ∨ ((s.ctrl ch).sub sub).slot < 34 ∨ ((s.ctrl ch).sub sub).scrubbed = true ∨ (s.ctrl ch).lost = true ∨ s.sys.state = .doze) := by
      simp [hsc, hl, hst]; omega
    simp only [exec_dramPatrolScrub, execDramPatrolScrub, if_neg hgo, he, hc]
    rfl
  case scrubFails =>
    subst hline
    have hgo : ¬ (48 ≤ ch ∨ 2 ≤ sub ∨ ((s.ctrl ch).sub sub).slot < 34 ∨ ((s.ctrl ch).sub sub).scrubbed = true ∨ (s.ctrl ch).lost = true ∨ s.sys.state = .doze) := by
      simp [hsc, hl, hst]; omega
    simp only [exec_dramPatrolScrub, execDramPatrolScrub, if_neg hgo, he, hc]
    rfl
  case reconstructs =>
    have hctrl : ((s.memEnter ch { id := 0, line := line, write := true, data := s.arrayL (line * 64) 64, who := .repair }).ctrl ch) =
        (s.ctrl ch).enter { id := 0, line := line, write := true, data := s.arrayL (line * 64) 64, who := .repair } := (State.ctrl_setCtrl _ _ _ _).trans (if_pos rfl)
    refine ⟨_, ?_, rfl⟩
    simp [State.uncorrectable, hcoded, hctrl, Ctrl.enter_bad, hbad, hn, dedupN]
    exact State.setCtrl_setCtrl _ _ _ _
  case replaysRead => simp [exec_dramBusReplay, execDramBusReplay, hr, he, h0, h1]
  case replaysWrite => simp [exec_dramBusReplay, execDramBusReplay, hr, h0, h1]
  case loses =>
    rw [List.contains_eq_mem, decide_eq_false_iff_not] at hlost
    simp [exec_dimmLost, execDimmLost, hch, State.loseDimm, hlost, hr, hq]
  case poison =>
    have hlost : (s.codedDpa (r.line * 64) && !(otherPages (r.line * 64)).any (fun a => (s.ctrl (s.dpaChannel a)).lost)) = false := by
      rcases hno with h | h <;> simp [h]
    simp only [State.readLost, hlost, hwho]
    rfl
  case rebuilds => simp [State.rebuilt, hb, hleft, hwho, State.reconstruct]
  case flushes => simp only [exec_parityRowFlush, execParityRowFlush, hr]
  case asks =>
    simp only [RowEntry.flush, List.mem_filter, List.mem_range, bne_iff_ne, Bool.not_eq_true', and_assoc, ne_eq]
  case todo =>
    simp only [RowEntry.flush, List.mem_cons, List.mem_filter, List.mem_range, bne_iff_ne]
    by_cases hp : p = r.stripe % 8 <;> simp [hp]
  case writing => simp [RowEntry.flush]
  case pushRead =>
    have hq := State.tryEnter_takes (r := rowRead s r (ch % 8)) hl hroom
    unfold rowRead at hq
    simp only [State.pushRow, hreg, ha, hl, hq, bne_self_eq_false]
    rfl
  case pushWrite =>
    have hq := State.tryEnter_takes (r := rowWrite s r (ch % 8)) hl hroom
    unfold rowWrite at hq
    simp only [State.pushRow, hreg, ha, hw, ht, hq, bne_self_eq_false]
    rfl
  case freed =>
    simp only [exec_parityEntryFreed, execParityEntryFreed, hr]
    exact congrArg _ (State.rowRetry_none hnone)
  case freedHeld =>
    simp [exec_parityEntryFreed, execParityEntryFreed, hr, State.rowRetry, hw, hg]
    rfl
  case coded =>
    simp only [exec_codedInitDone, execCodedInitDone, State.updPart_of hx]
    exact congrArg _ (State.rowRetry_none (by simp [State.setPart, hnone]))
  case rekeys =>
    subst hp
    refine congrArg _ (runCmd_ready hq ?_)
    have hid : (fld r.toNat 0 5 0 == 0 || decide (60 < fld r.toNat 0 5 0) || (e.part != 0 && fld r.toNat 0 5 0 != e.part) || !s.livePart (fld r.toNat 0 5 0)) = false := by
      have hmine : (e.part != 0 && fld r.toNat 0 5 0 != e.part) = false := by
        rcases hown with h | h <;> simp [h]
      simp [h0, h60, hmine, State.livePart_of hx hd]
    simp only [partitionRekeyBody, hr, hid, hrk, hx, hi, hk, done]
    rfl
  case swept =>
    have hgo : ¬ (48 ≤ ch ∨ Tab.has y.pages ch = true ∨ Tab.has y.scans ch = true ∨ y.done.contains ch = true ∨ y.stopping = true ∨ (s.ctrl ch).lost = true) := by
      simp only [hpg, hsc, hdone, hstop, hl, Bool.false_eq_true, or_false]; omega
    simp only [exec_rekeySweepPage, execRekeySweepPage, hy, hx, if_neg hgo, hnone]
  case sweeps =>
    have hgo : ¬ (48 ≤ ch ∨ Tab.has y.pages ch = true ∨ Tab.has y.scans ch = true ∨ y.done.contains ch = true ∨ y.stopping = true ∨ (s.ctrl ch).lost = true) := by
      simp only [hpg, hsc, hdone, hstop, hl, Bool.false_eq_true, or_false]; omega
    simp only [exec_rekeySweepPage, execRekeySweepPage, hy, hx, if_neg hgo, ha]
  case sweepFull => simp [State.sweepNext, hy, hg, hfull]
  case sweepReads =>
    have hq := State.tryEnter_takes (r := sweepRead p g.page g.asked) hl hroom
    unfold sweepRead at hq
    simp only [State.sweepNext, hy, hg, if_neg (Nat.not_le.mpr hown), if_pos ha, hq, Option.map_some]
    rfl
  case sweepWrites =>
    have hq := State.tryEnter_takes (r := sweepWrite p g.page g.sent (Tab.getD g.data g.sent [])) hl hroom
    unfold sweepWrite at hq
    simp only [State.sweepNext, hy, hg, if_neg (Nat.not_le.mpr hown), if_neg (Nat.not_lt.mpr ha), if_pos (And.intro hdata hsent), hq, Option.map_some]
    rfl
  case flipWaits => simp [exec_rekeyBitmapFlip, execRekeyBitmapFlip, hy, hg, hm]
  case flips =>
    have hq := State.tryEnter_takes (r := flipWrite s p ch g.page) hl hroom
    unfold flipWrite at hq
    have hgo : ¬ (g.mask.length < 64 ∨ g.flip ≠ 0) := by omega
    simp only [exec_rekeyBitmapFlip, execRekeyBitmapFlip, hy, hg, Option.bind_some, if_neg hgo, hq]
    rfl
  case flipped => simp [State.complete, hwho, hy, hg]
  case releases => simp [exec_rekeyPageRelease, execRekeyPageRelease, hy, hg, hf, State.endSweep, State.setRekey, hstop]
  case holds => simp [exec_rekeyPageRelease, execRekeyPageRelease, hy, hg, hf]
  case rekeyDone =>
    have hdone : (s.channelsOf x).all (fun ch => y.done.contains ch) = true := by
      simp only [State.channelsOf, List.all_eq_true, List.mem_filter, List.mem_range, List.contains_iff_mem]
      exact fun ch ⟨hlt, hr⟩ => hall ch hlt hr
    simp only [exec_rekeyDone, execRekeyDone, hy, hx, hk, hdone]
    rfl
  case restarts =>
    refine ⟨_, rfl, rfl, fun p => ?_⟩
    exact (Tab.find_all s.dram.rekeys (fun _ y => if y.done.contains ch then y else { y with scans := Tab.put y.scans ch {} }) p)
  case deviceWipe =>
    refine ⟨_, congrArg Host.Outcome.next (if_pos hw), rfl, rfl, rfl, rfl, rfl, fun ch hch => ?_, rfl⟩
    have hctrl : Tab.getD ((List.range 48).map (fun ch => (ch, (s.ctrl ch).wiped s.wipeFrames))) ch freshCtrl = (s.ctrl ch).wiped s.wipeFrames :=
      Tab.getD_range _ _ hch
    simp only [State.ctrl] at hctrl ⊢
    rw [hctrl]
    exact ⟨rfl, rfl, rfl⟩
  case wipeLine => exact Memory.read_wipeLine _ _ _
  case wiped =>
    refine congrArg Host.Outcome.next (if_pos ?_)
    exact List.any_eq_true.mpr ⟨w, hw, by simp [hk, hp, hover]⟩
  case wiping =>
    refine congrArg Host.Outcome.next (if_neg ?_)
    simp only [List.any_eq_true, not_exists, not_and, Bool.and_eq_true, beq_iff_eq]
    intro w hw ⟨hk, hp⟩
    simp [hnone w hw hk hp]

end

section
/-! Combine units and gathers (R203-R212). -/

namespace Sys2Proof.Machine

/-! ### The instructions of this file -/

theorem exec_gatherStart {carrier} {s : State} : exec (.gatherStart carrier) s = execGatherStart carrier s := rfl
theorem exec_gatherCommit {carrier} {s : State} : exec (.gatherCommit carrier) s = execGatherCommit carrier s := rfl

/-! ### The instructions of this file -/

theorem exec_combineOpenBatch {unit} {s : State} : exec (.combineOpenBatch unit) s = execCombineOpenBatch unit s := rfl
theorem exec_combineResult {unit} {s : State} : exec (.combineResult unit) s = execCombineResult unit s := rfl
theorem exec_combineCommit {unit} {s : State} : exec (.combineCommit unit) s = execCombineCommit unit s := rfl

open Sys2Proof.Spec

/-- The bound fixed unit of a start runs a program of the kind that its station has. -/
theorem State.unitStart_some {s : State} {e : Nat} {x : Engine} {st : Start} {t : Station} (h : s.unitStart e = some (x, st, t)) :
    s.engine? e = some x ∧ x.start = some st ∧ s.station? x.part x.station = some t := by
  unfold State.unitStart at h
  split at h
  · exact absurd h (by simp)
  next y hy =>
    split at h
    next st' t' hst ht =>
      split at h
      · exact absurd h (by simp)
      · obtain ⟨rfl, rfl, rfl⟩ : y = x ∧ st' = st ∧ t' = t := by simpa using h
        exact ⟨hy, hst, ht⟩
    · exact absurd h (by simp)

/-- Nothing holds up a gather of a running block, unless its carrier refills a hot ring. -/
theorem State.gather_goes {s : State} {car : Nat} {st : Start} {t : Station}
    (href : car % 4 ≠ 3 ∨ s.stn.queues.any (fun q => q.2.refill != 0 && (q.2.placed.bind (fun a => s.phys q.2.part a.1)) == some (car / 4)) = false)
    (hkind : t.kind = 6) (hend : st.ended = false) (hrun : s.blockRuns (car / 4) = true) :
    (t.kind != 6 || st.ended || (car % 4 == 3 && s.stn.queues.any (fun q => q.2.refill != 0 && (q.2.placed.bind (fun a => s.phys q.2.part a.1)) == some (car / 4))) || !s.blockRuns (car / 4)) = false := by
  have hcar : (car % 4 == 3 && s.stn.queues.any (fun q => q.2.refill != 0 && (q.2.placed.bind (fun a => s.phys q.2.part a.1)) == some (car / 4))) = false := by
    rcases href with h | h <;> simp [h]
  rw [hcar, hkind, hend, hrun]
  rfl

/-- UINT32 and INT32 tiles are index tiles. -/
theorem isIndex_of {f : Nat} (h : f = 0x0B ∨ f = 0x0A) : (f != 0x0B && f != 0x0A) = false := by
  rcases h with rfl | rfl <;> rfl

end Sys2Proof.Machine

open Sys2Proof Sys2Proof.Machine Sys2Proof.Spec

/-- Settles O37: each command's branches, with a batch's reception, the words of a result and the entries of an index tile. -/
theorem combineUnitsAndGathers : Obligations.CombineUnitsAndGathers := by
  refine ⟨fun u e x t i w l k o s0 s he hx hw hmap hslot hk ho hearly hs0 => ?opens,
    fun u e x t i w l s he hx hw hmap => ?badMap,
    fun u e x t i w l s he hx hheld hw => ⟨fun b hb => ?adds, fun hb hc => ?discards, fun hb hc hz => ?zeroing, fun hb hc hz => ?keeps⟩,
    fun u e x t w l b s he hx hw hb => ?heldFirst,
    fun s e x t c b w src out v hok hsrc hout hv => ?added, fun s e x t c b w hbad => ?badResult,
    fun s r b w src out hf => ?words,
    fun u e x t b l s he hx hb hst => ?commits,
    fun s e w => ?closes, fun s e b w hb => ?counts, fun s e w hb hc => ?early,
    fun car e x st t k dst es n first s he hu hkind hend hrun hlive href hwb hfmt hk hdst hes => ⟨fun g hg => ?goesOn, fun hg hn hfirst => ⟨fun hover => ?overflow, fun h16 hslots hfree hall => ?begins⟩⟩,
    fun s e x st g es dst ref y v href hy hv => ⟨fun z hz => ?stops, fun hz => ?lastItem⟩,
    fun car e x st t s he hu hkind hend hfull hord hok => ⟨fun hwait => ?commitWaits, fun hbusy hstores hturn hroom => ?gatherCommits⟩,
    fun s k w nItems i v hi hv => ?entry, fun s g va n d hx hheld => ?piece, fun s g va n hx => ?miss⟩
  case opens =>
    subst he
    have hlater : (s.comb (0x4000 + u)).early.filter (fun y => y.1 != mapBatch w) = (s.comb (0x4000 + u)).early :=
      List.filter_eq_self.mpr (fun y hy => by simpa using List.filter_eq_nil_iff.mp hearly y hy)
    refine ⟨if bit x.rec64 0 0 = true then [s0.fab.nextAccess] else [], fun h => by simp [h], fun h => by simp [h], ?_⟩
    simp only [exec_combineOpenBatch, execCombineOpenBatch, hx, hw, hmap, hslot, hk, ho, ← hs0, hearly, hlater, List.foldl_nil]
    rfl
  case badMap =>
    subst he
    simp only [exec_combineOpenBatch, execCombineOpenBatch, hx, hw, hmap, if_true]
  case adds =>
    subst he
    simp only [exec_combineResult, execCombineResult, hx, hheld, takeFirst, hw, hb]
  case discards =>
    subst he
    simp only [exec_combineResult, execCombineResult, hx, hheld, takeFirst, hw, hb, hc, if_true]
  case zeroing =>
    subst he
    simp only [exec_combineResult, execCombineResult, hx, hheld, takeFirst, hw, hb, hc, hz, if_true]
    rfl
  case keeps =>
    subst he
    simp only [exec_combineResult, execCombineResult, hx, hheld, takeFirst, hw, hb, hc, hz]
    rfl
  case heldFirst =>
    subst he
    simp only [exec_combineResult, execCombineResult, hx, hw, hb]
  case added =>
    subst hv
    have hdel : ¬ b.nDel ≤ resDelivery w := fun h => by simp [badResult, h] at hok
    simp only [State.combProcess, hok, hsrc, hout, CombBatch.receive, hdel, Bool.or_false, decide_false]
    rfl
  case badResult =>
    simp [State.combProcess, hbad, CombBatch.receive]
  case words =>
    have hcols : cdiv (fldB r 2 2 * (elemBits 0x09 / 8)) 4 = fldB r 2 2 := by
      change (fldB r 2 2 * 4 + 4 - 1) / 4 = fldB r 2 2
      omega
    simp only [State.resultWords, hf, hcols]
    rfl
  case commits =>
    subst he
    refine ⟨_, rfl, ?_⟩
    simp only [exec_combineCommit, execCombineCommit, hx, hb, hst]
    rfl
  case closes => rfl
  case counts => simp [State.combReport, hb]
  case early =>
    simp only [State.combReport, hb, hc]
    rfl
  case goesOn =>
    subst he hes
    have hgo := State.gather_goes href hkind hend hrun
    have hindex := isIndex_of hfmt
    simp only [exec_gatherStart, execGatherStart, hu, hgo, hlive, hwb, hindex, hk, hdst, hg]
    rfl
  case overflow =>
    subst he hes
    have hgo := State.gather_goes href hkind hend hrun
    have hindex := isIndex_of hfmt
    subst hn hfirst
    have hslots : (decide (16 < (chunks (fldB x.rec64 34 2) (st.wb.rows * st.wb.cols) (fetched (s.gatherEntries k st.wb (fldB x.rec64 16 4)))).length) || decide (fldB x.rec64 28 1 < (chunks (fldB x.rec64 34 2) (st.wb.rows * st.wb.cols) (fetched (s.gatherEntries k st.wb (fldB x.rec64 16 4)))).length)) = true := by
      simpa using hover
    simp only [exec_gatherStart, execGatherStart, hu, hgo, hlive, hwb, hindex, hk, hdst, hg, hslots]
    rfl
  case begins =>
    subst he hes
    have hgo := State.gather_goes href hkind hend hrun
    have hindex := isIndex_of hfmt
    have hslots' : (decide (16 < n) || decide (fldB x.rec64 28 1 < n)) = false := by simp [h16, hslots]
    have hnone : ((s.gatherEntries k st.wb (fldB x.rec64 16 4)).filter (· == GItem.out)).length = 0 := by
      rw [List.filter_eq_nil_iff.mpr (fun y hy => by simpa using hall y hy)]
      rfl
    simp only [exec_gatherStart, execGatherStart, hu, hgo, hlive, hwb, hindex, hk, hdst, hg, ← hn, ← hfirst, hslots', hfree, hnone]
    rfl
  case stops =>
    subst hv hy href
    simp only [State.gatherRun, hz]
  case lastItem =>
    subst hv hy href
    simp only [State.gatherRun, hz]
  case commitWaits =>
    subst he
    obtain ⟨hx, hst, ht⟩ := State.unitStart_some hu
    cases hbusy : s.engBusy (0x2000 + car) with
    | true => simp [exec_gatherCommit, execGatherCommit, hu, hok, hbusy]
    | false => simp [exec_gatherCommit, execGatherCommit, hu, hkind, hok, hbusy, State.unitCommit_stores hx hst hok (hwait.resolve_left (by simp [hbusy]))]
  case gatherCommits =>
    subst he
    obtain ⟨hx, hst, ht⟩ := State.unitStart_some hu
    simp only [exec_gatherCommit, execGatherCommit, hu, hkind, hok, hbusy, State.unitCommit_tries hx hst hend hfull hord hstores, State.tryCommit_commits hx hst ht hend hok hturn hroom]
    rfl
  case entry =>
    subst hv
    simp [State.gatherEntries, hi]
  case piece => simp [State.engPiece, hx, hheld]
  case miss => simp [State.engPiece, hx]

end

section
/-! Collectives and pace (R390-R409). -/

namespace Sys2Proof.Machine

/-! ### The instructions of this file -/

theorem exec_collectiveSegmentReady {n} {s : State} : exec (.collectiveSegmentReady n) s = execCollectiveSegmentReady n s := rfl

/-! ### The instructions of this file -/

theorem exec_collectiveSegmentSend {n} {s : State} : exec (.collectiveSegmentSend n) s = execCollectiveSegmentSend n s := rfl

/-! ### The instructions of this file -/

theorem exec_collectiveStart {n} {s : State} : exec (.collectiveStart n) s = execCollectiveStart n s := rfl
theorem exec_coll {n} {s : State} : exec (.coll n) s = execColl n s := rfl
theorem exec_collectiveCommit {n} {s : State} : exec (.collectiveCommit n) s = execCollectiveCommit n s := rfl
theorem exec_paceWindow {part} {s : State} : exec (.paceWindow part) s = execPaceWindow part s := rfl

open Sys2Proof.Spec

/-- No start is lost with a member of a group while none runs. -/
theorem State.memberLost_none {s : State} (p g : Nat) (h : s.link.colls = []) : s.memberLost p g = s := by
  unfold State.memberLost
  rw [h]
  rfl

/-- A segment that comes from the right member, is one of the start's and is new is taken. -/
theorem segment_due {steps segs key prev : Nat} {ready : List Nat} {a : CollSeg} (hstep : a.step < steps) (hindex : a.index < segs) (hnew : ready.contains key = false) (hsrc : a.src = prev) :
    (decide (steps ≤ a.step) || decide (segs ≤ a.index) || ready.contains key || decide (a.src ≠ prev)) = false := by
  simp only [Nat.not_le.mpr hstep, Nat.not_le.mpr hindex, hnew, hsrc, ne_eq, not_true_eq_false, decide_false, Bool.or_false]

/-- Without compression a segment's wire bytes are its elements'. -/
theorem segBytes_plain {r : Nat} (h : bit r 1 5 = false) (n : Nat) : segBytes r n = n * collElem r := by
  simp [segBytes, h]

end Sys2Proof.Machine

open Sys2Proof Sys2Proof.Machine Sys2Proof.Spec

/-- Settles O38: each command's branches, a segment's send and reception by the accesses it makes, and a window of pace by its counts. -/
theorem collectivesAndPace : Obligations.CollectivesAndPace := by
  refine ⟨fun m r x s hm hx hd hport hvar h11 hr hres h2 hn hrank hgen hshare hcolls => ?group,
    fun m r s hm hlive hr => ?lost,
    fun n x st t g s hu hkind hend hc hlive hwb hg => ?begins,
    fun n x st t g c s hu hkind hend hc hlive hwb hg hfed => ⟨fun v hv => ?feeds, fun z hz => ?feedStops⟩,
    fun n x st t c g seg va ps raw wire b s hu hc hg hgen hseg hstep hbusy hcar hlive hfed hready hcomp hsegeq hva hps hb hraw hwire => ?sends,
    fun n m px h s hm hh => ⟨fun g hg hgen hlen => ?arrives, fun hg => ?drops⟩,
    fun n m px g h s hm hh hg hgen hc hlen => ?arrivalWaits,
    fun n x st t c g a l seg ps va b s0 s hu hc hlive hfed hg ha hstep hindex hnew hsrc hseg hplain hlen hva hps hb hs0 => ⟨fun v hpart hv => ?stores, fun v old hpart hold hv => ?addsTo⟩,
    fun n x st t c g s hu hend hc hg hlive hbusy hfed hsteps hready hcb hop => ?commits,
    fun n x st t s hu hend => ?ended,
    fun p s ht => ?paceEarly,
    fun p n planned x s hx ht hcounts => ⟨fun h0 => ?unplanned, fun hslow hnot hlow => ?notices, fun hslow hlow => ?slow, fun hslow hnot hlast => ?again, fun h0 hfair hmid => ?fair, fun h0 hgood hnot hhigh => ?back⟩,
    fun p b c x s hb hc => ?counts, fun m r s hm hlive hr => ?relay, fun m r s hm hlive hr hcap => ?cap⟩
  case group =>
    refine congrArg _ (runMsg_served_ok hm ?_)
    have hr' : bodyRsvd r.toNat collectiveGroupMask = false := hr
    have hfresh : (match s.group? (fld r.toNat 0 5 0) (fldB r.toNat 1 1) with | some y => y.gen == fldB r.toNat 12 1 | none => false) = false := by
      split
      next y hy => exact beq_eq_false_iff_ne.mpr (hgen y hy)
      · rfl
    simp only [collectiveGroupBody, State.livePart_of hx hd, hport, hvar, hr', hres, State.memberLost_none _ _ hcolls, hx, okM]
    rw [if_neg (by simp), if_neg (by simp), if_neg (by simp), if_neg (by simp), if_neg, if_neg (by simpa using hshare)]
    simp [Nat.not_lt.mpr h2, Nat.not_lt.mpr hn, Nat.not_le.mpr hrank, Nat.not_lt.mpr h11]
    exact hfresh
  case lost =>
    refine congrArg Host.Outcome.next ((runMsg_served_ok hm ?_).trans (State.served_zero _ _))
    have hr' : bodyRsvd r.toNat [(0, 7, 0), (1, 7, 0), (2, 15, 0)] = false := hr
    simp [hlive, hr', okM]
  case begins =>
    simp only [exec_collectiveStart, execCollectiveStart, hu, hkind, hend, hc, hlive, hwb, hg]
    rw [if_neg (by simp), if_neg (by simp), if_neg (by simp)]
    simp
  case feeds =>
    simp only [exec_collectiveStart, execCollectiveStart, hu, hkind, hend, hc, hlive, hwb, hg, Nat.not_le.mpr hfed, hv]
    rfl
  case feedStops =>
    simp only [exec_collectiveStart, execCollectiveStart, hu, hkind, hend, hc, hlive, hwb, hg, Nat.not_le.mpr hfed, hz]
    rfl
  case sends =>
    subst hsegeq hva hps hb hwire
    have hgo : (decide (g.gen ≠ c.gen) || decide (segCount (fldB x.rec64 24 4) g.members = 0) || decide (collSteps (fld x.rec64 0 1 0) g.members ≤ c.sendStep) || s.collBusy n || !(s.port n).carries || !s.ctxLive x.part st.wb.context ||
        decide (c.fed < fldB x.rec64 24 4) || (c.sendStep != 0 && !c.ready.contains ((c.sendStep - 1) * 2 ^ 24 + c.sendSeg))) = false := by
      simp only [hgen, hseg, Nat.not_le.mpr hstep, hbusy, hcar, hlive, Nat.not_lt.mpr hfed]
      cases h0 : c.sendStep with
      | zero => simp
      | succ k => simpa [h0] using hready
    have hown : (bit x.rec64 1 5 && collPart (fld x.rec64 0 1 0) g.members c.sendStep == (false, 0)) = false := and_eq_false_of_imp fun h => beq_eq_false_iff_ne.mpr (hcomp h)
    simp only [exec_collectiveSegmentSend, execCollectiveSegmentSend, hu, hc, hg, hgo, hraw, hown]
    by_cases hlast : segCount (fldB x.rec64 24 4) g.members ≤ c.sendSeg + 1
    · simp only [hlast, decide_true, if_true]
      rfl
    · simp only [hlast, decide_false, if_false]
      rfl
  case arrives =>
    subst hh
    have hroom : ∀ f : CollSeg → Bool, ¬ 64 ≤ ((Tab.getD s.link.arrivals n []).filter f).length :=
      fun f => Nat.not_le.mpr (Nat.lt_of_le_of_lt (List.length_filter_le _ _) hlen)
    simp [exec_coll, execColl, hm, hg, hgen, hroom]
  case drops =>
    subst hh
    simp only [exec_coll, execColl, hm, hg]
    rfl
  case arrivalWaits =>
    subst hh
    have hall : (Tab.getD s.link.arrivals n []).filter (fun _ => true) = Tab.getD s.link.arrivals n [] := List.filter_eq_self.mpr fun _ _ => rfl
    simp [exec_coll, execColl, hm, hg, hgen, hc, hall, hlen]
  case stores =>
    subst hseg hva hps hb
    dsimp only at hs0
    have hlate : (!s.ctxLive x.part st.wb.context || decide (c.fed < fldB x.rec64 24 4)) = false := by simp [hlive, Nat.not_lt.mpr hfed]
    have hmine := segment_due hstep hindex hnew hsrc
    rw [← segBytes_plain hplain] at hlen
    simp only [exec_collectiveSegmentReady, execCollectiveSegmentReady, hu, hc, hlate, hg, ha, hmine, if_neg (not_not_intro hlen), hpart, hplain, ← hs0]
    simp [hv]
  case addsTo =>
    subst hseg hva hps hb
    dsimp only at hs0
    have hlate : (!s.ctxLive x.part st.wb.context || decide (c.fed < fldB x.rec64 24 4)) = false := by simp [hlive, Nat.not_lt.mpr hfed]
    have hmine := segment_due hstep hindex hnew hsrc
    rw [← segBytes_plain hplain] at hlen
    simp only [exec_collectiveSegmentReady, execCollectiveSegmentReady, hu, hc, hlate, hg, ha, hmine, if_neg (not_not_intro hlen), hpart, hplain, ← hs0]
    simp [hold, hv]
  case commits =>
    have hwait : (s.engBusy (0x5000 + n) || decide (c.fed < fldB x.rec64 24 4) || (segCount (fldB x.rec64 24 4) g.members != 0 && decide (c.sendStep < collSteps (fld x.rec64 0 1 0) g.members)) ||
        decide (c.ready.length < collSteps (fld x.rec64 0 1 0) g.members * segCount (fldB x.rec64 24 4) g.members) || s.collBusy n) = false := by
      simp [hbusy, Nat.not_lt.mpr hfed, Nat.not_lt.mpr hsteps, Nat.not_lt.mpr hready, hcb]
    simp only [exec_collectiveCommit, execCollectiveCommit, hu, hend, hc, hg, hlive, hwait, if_pos hop]
    rfl
  case ended =>
    simp only [exec_collectiveCommit, execCollectiveCommit, hu, hend, if_true]
  case paceEarly => exact congrArg Host.Outcome.next (if_pos ht)
  case unplanned =>
    subst hx
    simp [exec_paceWindow, execPaceWindow, Nat.not_lt.mpr ht, hcounts, h0]
  case notices =>
    subst hx
    have hp : planned ≠ 0 := by omega
    have hgood : ¬ planned * 95 ≤ n * 100 := by omega
    rcases hnot with h | h <;> simp [exec_paceWindow, execPaceWindow, Nat.not_lt.mpr ht, hcounts, hp, hslow, hgood, Nat.lt_succ_of_le hlow, h]
  case slow =>
    subst hx
    have hp : planned ≠ 0 := by omega
    have hgood : ¬ planned * 95 ≤ n * 100 := by omega
    have hlow' : ¬ 10 < (Tab.getD s.link.pace p {}).low + 1 := by omega
    simp [exec_paceWindow, execPaceWindow, Nat.not_lt.mpr ht, hcounts, hp, hslow, hgood, hlow']
  case again =>
    subst hx
    have hp : planned ≠ 0 := by omega
    have hgood : ¬ planned * 95 ≤ n * 100 := by omega
    simp [exec_paceWindow, execPaceWindow, Nat.not_lt.mpr ht, hcounts, hp, hslow, hgood, hnot, Nat.not_le.mpr hlast]
  case fair =>
    subst hx
    simp [exec_paceWindow, execPaceWindow, Nat.not_lt.mpr ht, hcounts, h0, Nat.not_lt.mpr hfair, Nat.not_le.mpr hmid]
  case back =>
    subst hx
    have hslow : ¬ n * 10 < planned * 9 := by omega
    simp [exec_paceWindow, execPaceWindow, Nat.not_lt.mpr ht, hcounts, h0, hslow, hgood, hnot, Nat.succ_le_succ hhigh]
  case counts => simp [State.paceCounts, hb, hc]
  case relay =>
    refine congrArg Host.Outcome.next ((runMsg_served_ok hm ?_).trans (State.served_zero _ _))
    have hr' : bodyRsvd r.toNat [(0, 7, 0), (1, 0, 0), (2, 15, 0), (4, 15, 0)] = false := hr
    simp [hlive, hr', okM]
  case cap =>
    refine congrArg Host.Outcome.next ((runMsg_served_ok hm ?_).trans (State.served_zero _ _))
    have hr' : bodyRsvd r.toNat [(0, 7, 0), (2, 15, 0)] = false := hr
    have hok : (fldB r.toNat 2 2 != 0 && (decide (fldB r.toNat 2 2 < 400) || decide (1000 < fldB r.toNat 2 2))) = false := by
      rcases hcap with h | ⟨h1, h2⟩
      · simp [h]
      · simp [Nat.not_lt.mpr h1, Nat.not_lt.mpr h2]
    simp only [hlive, hr', hok, okM]
    rfl

end

section
/-! Block translation units: what fills, walks and invalidations leave (R256-R262, R265). -/

namespace Sys2Proof.Machine

open Sys2Proof.Spec

/-! ## Tables -/

theorem Tab.mem_vals_of_find {α : Type} {t : Sys2Proof.Tab α} {k : Nat} {v : α} (h : Tab.find t k = some v) : v ∈ Tab.vals t := by
  induction t with
  | nil => exact absurd h (by simp)
  | cons x t ih =>
    obtain ⟨k', v'⟩ := x
    rw [Tab.find_cons] at h
    split at h
    · exact List.mem_cons.mpr (Or.inl (Option.some.inj h).symm)
    · exact List.mem_cons.mpr (Or.inr (ih h))

theorem Tab.find_keep_none {α : Type} {t : Sys2Proof.Tab α} {k : Nat} (f : Nat → α → Bool) (h : Tab.find t k = none) : Tab.find (Tab.keep t f) k = none := by
  induction t with
  | nil => rfl
  | cons x t ih =>
    obtain ⟨k', v'⟩ := x
    rw [Tab.find_cons] at h
    split at h
    · exact absurd h (by simp)
    next hk =>
      unfold Tab.keep
      rw [List.filter_cons]
      split
      · rw [Tab.find_cons, if_neg hk]
        exact ih h
      · exact ih h

/-! ## Look-ups -/

/-- A filled page is held. -/
theorem Btu.lookup_fill (x : Btu) (e : TlbEntry) : ((x.fill e).lookup e.part e.context e.vpage).isSome = true := by
  unfold Btu.lookup Btu.fill
  dsimp only
  rw [Tab.getD_put, if_pos rfl, List.find?_isSome]
  exact ⟨e, Tab.mem_vals_of_find ((Tab.find_put _ _ _ _).trans (if_pos rfl)), by simp⟩

/-- A fill leaves the other sets as they are. -/
theorem Btu.lookup_fill_of_ne {x : Btu} {e : TlbEntry} {v : Nat} (p c : Nat) (h : v % 256 ≠ e.vpage % 256) : (x.fill e).lookup p c v = x.lookup p c v := by
  unfold Btu.lookup Btu.fill
  dsimp only
  rw [Tab.getD_put, if_neg h]

/-- Entries that an invalidation covers are absent from now; the others stay. -/
theorem Btu.lookup_invalidate (x : Btu) (sets : Tab (Tab TlbEntry)) (y : Sync) (p c v : Nat)
    (h : sets = Tab.all x.sets (fun _ t => t.filter (fun e => !y.covers e.2.part e.2.context (e.2.vpage * 4096)))) :
    (Tab.vals (Tab.getD sets (v % 256) [])).find? (fun e => e.part == p && e.context == c && e.vpage == v) =
      if y.covers p c (v * 4096) = true then none else x.lookup p c v := by
  have hset : Tab.getD sets (v % 256) [] = (Tab.getD x.sets (v % 256) []).filter (fun e => !y.covers e.2.part e.2.context (e.2.vpage * 4096)) := by
    rw [h, Tab.getD, Tab.find_all, Tab.getD]
    cases Tab.find x.sets (v % 256) <;> rfl
  rw [hset]
  unfold Btu.lookup Tab.vals
  generalize Tab.getD x.sets (v % 256) [] = t
  induction t with
  | nil => exact (ite_self _).symm
  | cons e t ih =>
    rw [List.map_cons, List.filter_cons]
    by_cases hm : (e.2.part == p && e.2.context == c && e.2.vpage == v) = true
    · obtain ⟨⟨rfl, rfl⟩, rfl⟩ : (e.2.part = p ∧ e.2.context = c) ∧ e.2.vpage = v := by simpa using hm
      by_cases hc : y.covers e.2.part e.2.context (e.2.vpage * 4096) = true
      · simpa [hc] using ih
      · simp [hc]
    · have hm' : (e.2.part == p && e.2.context == c && e.2.vpage == v) = false := by simpa using hm
      simp only [List.find?_cons, hm', ← ih]
      split
      · simp only [List.map_cons, List.find?_cons, hm']
      · rfl

/-! ## Leaf lines -/

/-- The fill of an entry of a leaf line, when it may be filled. -/
def Btu.fillEntry (w : Walk) (x : Btu) (e : Nat × Nat) : Btu :=
  if tbit e.2 0 && !leafBad e.2 && !(w.prefetch && tbit e.2 6) && (x.lookup w.part w.context e.1).isNone then
    x.fill { part := w.part, context := w.context, vpage := e.1, dte := e.2, prefetched := w.prefetch }
  else x

theorem Btu.fillLine_eq (x : Btu) (w : Walk) : x.fillLine w = w.leafLine.foldl (Btu.fillEntry w) x := rfl

/-- A fill changes no stream and no walk. -/
theorem Btu.fillEntry_keeps (w : Walk) (x : Btu) (e : Nat × Nat) : (Btu.fillEntry w x e).streams = x.streams ∧ (Btu.fillEntry w x e).walks = x.walks := by
  unfold Btu.fillEntry
  split <;> exact ⟨rfl, rfl⟩

theorem Btu.fillEntries_keep (w : Walk) (l : List (Nat × Nat)) (x : Btu) : (l.foldl (Btu.fillEntry w) x).streams = x.streams ∧ (l.foldl (Btu.fillEntry w) x).walks = x.walks := by
  induction l generalizing x with
  | nil => exact ⟨rfl, rfl⟩
  | cons e l ih =>
    obtain ⟨h1, h2⟩ := ih (Btu.fillEntry w x e)
    obtain ⟨h3, h4⟩ := Btu.fillEntry_keeps w x e
    exact ⟨h1.trans h3, h2.trans h4⟩

/-- Entries of other sets leave a page as it is. -/
theorem Btu.lookup_fillEntries_of_ne (w : Walk) {v : Nat} (l : List (Nat × Nat)) (x : Btu) (h : ∀ e, e ∈ l → v % 256 ≠ e.1 % 256) (p c : Nat) :
    (l.foldl (Btu.fillEntry w) x).lookup p c v = x.lookup p c v := by
  induction l generalizing x with
  | nil => rfl
  | cons e l ih =>
    rw [List.foldl_cons, ih _ (fun e' he => h e' (List.mem_cons_of_mem _ he))]
    unfold Btu.fillEntry
    split
    · exact Btu.lookup_fill_of_ne _ _ (h e List.mem_cons_self)
    · rfl

/-- A valid entry that a demand walk may fill is held from then on. -/
theorem Btu.lookup_fillEntry {w : Walk} {x : Btu} {v d : Nat} (hv : tbit d 0 = true) (hb : leafBad d = false) (hw : w.prefetch = false) :
    ((Btu.fillEntry w x (v, d)).lookup w.part w.context v).isSome = true := by
  unfold Btu.fillEntry
  cases hl : x.lookup w.part w.context v with
  | none =>
    simp only [hv, hb, hw]
    exact Btu.lookup_fill x { part := w.part, context := w.context, vpage := v, dte := d, prefetched := false }
  | some e => simp [hv, hb, hw, hl]

/-- After a leaf line's fill a demand walk's valid page is held: the line's other pages lie in other sets. -/
theorem Btu.lookup_fillLine {w : Walk} (x : Btu) {i d : Nat} (hi : i < 8)
    (hd : d = ofBytes ((w.data.drop (8 * i)).take 8)) (hv : tbit d 0 = true) (hb : leafBad d = false) (hw : w.prefetch = false) :
    ((x.fillLine w).lookup w.part w.context (w.va / 4096 - w.entryDpa % 64 / 8 + i)).isSome = true := by
  subst hd
  rw [Btu.fillLine_eq]
  unfold Walk.leafLine
  generalize w.va / 4096 - w.entryDpa % 64 / 8 = first
  obtain ⟨l1, l2, hl⟩ := List.append_of_mem (List.mem_range.mpr hi)
  have hnodup := List.nodup_range (n := 8)
  rw [hl] at hnodup
  have hothers : ∀ j, j ∈ l2 → j < 8 ∧ j ≠ i := fun j hj => by
    refine ⟨List.mem_range.mp (by rw [hl]; exact List.mem_append_right _ (List.mem_cons_of_mem _ hj)), fun h => ?_⟩
    exact (List.nodup_cons.mp (List.nodup_append.mp hnodup).2.1).1 (h ▸ hj)
  rw [hl, List.map_append, List.map_cons, List.foldl_append, List.foldl_cons, Btu.lookup_fillEntries_of_ne]
  · exact Btu.lookup_fillEntry hv hb hw
  · intro e he
    obtain ⟨j, hj, rfl⟩ := List.mem_map.mp he
    obtain ⟨hj8, hji⟩ := hothers j hj
    dsimp only
    omega

theorem Btu.dropJoined_streams (x : Btu) : x.dropJoined.streams = x.streams := rfl

/-- A walk that has left its slot does not come back with the joined ones. -/
theorem Btu.dropJoined_has {x : Btu} {slot : Nat} (h : Tab.find x.walks slot = none) : Tab.has x.dropJoined.walks slot = false := by
  unfold Tab.has Btu.dropJoined
  rw [Tab.find_all, Tab.find_keep_none _ h]
  rfl

end Sys2Proof.Machine
end

section
/-! Mirror syncs and table walks (R256-R265, R273). -/

namespace Sys2Proof.Machine

/-! ### The instructions of this file -/

theorem exec_mirrorSync {ring record} {s : State} : exec (.mirrorSync ring record) s = execMirrorSync ring record s := rfl
theorem exec_btuInvalidate {block} {s : State} : exec (.btuInvalidate block) s = execBtuInvalidate block s := rfl

/-! ### The instructions of this file -/

theorem exec_mirrorSyncSend {p} {s : State} : exec (.mirrorSyncSend p) s = execMirrorSyncSend p s := rfl
theorem exec_btuInvalidateAck {block} {s : State} : exec (.btuInvalidateAck block) s = execBtuInvalidateAck block s := rfl
theorem exec_mirrorSynced {p} {s : State} : exec (.mirrorSynced p) s = execMirrorSynced p s := rfl
theorem exec_tlbMissWalk {block stream engine write look} {s : State} : exec (.tlbMissWalk block stream engine write look) s = execTlbMissWalk block stream engine write look s := rfl
theorem exec_prefetchWalkStart {block stream engine write look} {s : State} : exec (.prefetchWalkStart block stream engine write look) s = execPrefetchWalkStart block stream engine write look s := rfl
theorem exec_walkReadReturn {block slot} {s : State} : exec (.walkReadReturn block slot) s = execWalkReadReturn block slot s := rfl

open Sys2Proof.Spec

/-- The ring of a front command is the partition's that its environment names. -/
theorem State.front_part {s : State} {q op record : Nat} {e : CmdEnv} (h : s.front q op record = some e) : ∃ r, s.ring? q = some r ∧ r.part = e.part := by
  simp only [State.front] at h
  split at h
  · contradiction
  next r hr =>
    split at h
    · contradiction
    · split at h
      · contradiction
      · split at h
        · exact ⟨r, hr, by simp at h; rw [← h]⟩
        · contradiction

@[simp] theorem State.btu_setBtu (s : State) (b : Nat) (x : Btu) : (s.setBtu b x).btu b = x := (Tab.getD_put _ _ _ _ _).trans (if_pos rfl)

/-- Walks that begin again change no other part of a translation unit. -/
theorem Btu.foldl_walks {α : Type} (f : Btu → α → Tab Walk) (l : List α) (x : Btu) :
    ∃ walks, l.foldl (fun (x : Btu) a => { x with walks := f x a }) x = { x with walks := walks } := by
  induction l generalizing x with
  | nil => exact ⟨_, rfl⟩
  | cons a l ih =>
    obtain ⟨_, h⟩ := ih { x with walks := f x a }
    exact ⟨_, h⟩

/-- A stream's look-ahead changes only its translation unit. -/
theorem State.withStream_eq (s : State) (b k e : Nat) (write : Bool) (look : List Nat) : ∃ xlt, s.withStream b k e write look = { s with xlt := xlt } := by
  unfold State.withStream
  dsimp only
  split
  · exact ⟨_, rfl⟩
  · generalize (decide (k < 64) && _ || _ || _) = off
    cases off <;> exact ⟨_, rfl⟩

/-- A walk that starts stands in its slot. -/
theorem State.startWalk_stands (s : State) (b slot : Nat) (x : Btu) (st : Stream) (va : Nat) (prefetch : Bool) :
    ∃ y w, s.startWalk b slot x st va prefetch = s.setBtu b y ∧ Tab.find y.walks slot = some w ∧ w.va = va ∧ w.part = st.part ∧ w.context = st.context ∧ w.prefetch = prefetch ∧ w.req = none ∧
      (w.level, w.table) = s.walkFrom x st.part st.context va :=
  ⟨_, _, rfl, (Tab.find_put _ _ _ _).trans (if_pos rfl), rfl, rfl, rfl, rfl, rfl, rfl⟩

/-- A walk whose check gives a leaf has read a valid entry of the last level. -/
theorem State.walkCheck_leaf {s : State} {w : Walk} (h : s.walkCheck w = .leaf) :
    w.level = 0 ∧ tbit (ofBytes ((w.data.drop (w.entryDpa % 64)).take 8)) 0 = true ∧ leafBad (ofBytes ((w.data.drop (w.entryDpa % 64)).take 8)) = false := by
  unfold State.walkCheck at h
  split at h
  · contradiction
  next p _ =>
    split at h
    · contradiction
    · split at h
      · contradiction
      · split at h
        next hlevel =>
          refine ⟨hlevel, ?_⟩
          generalize ofBytes ((w.data.drop (w.entryDpa % 64)).take 8) = d at h ⊢
          unfold State.leaf at h
          cases hv : tbit d 0 with
          | false => simp [hv] at h
          | true =>
            cases hb : leafBad d with
            | true => simp [hv, hb] at h
            | false => exact ⟨rfl, rfl⟩
        · dsimp only at h
          split at h
          · contradiction
          · split at h <;> contradiction

/-- A demand walk's page is held after its leaf line's fill. -/
theorem Btu.lookup_leaf {w : Walk} (x : Btu) (hlevel : w.level = 0) (hv : tbit (ofBytes ((w.data.drop (w.entryDpa % 64)).take 8)) 0 = true)
    (hb : leafBad (ofBytes ((w.data.drop (w.entryDpa % 64)).take 8)) = false) (hw : w.prefetch = false) (htab : w.table % 4096 = 0) :
    ((x.fillLine w).lookup w.part w.context (w.va / 4096)).isSome = true := by
  have hdpa : w.entryDpa = w.table + w.va / 4096 % 512 * 8 := by simp [Walk.entryDpa, vaIndex, hlevel]
  have hoff : w.entryDpa % 64 = 8 * (w.va / 4096 % 8) := by omega
  have h := Btu.lookup_fillLine x (w := w) (i := w.va / 4096 % 8) (Nat.mod_lt _ (by decide)) rfl (by rw [← hoff]; exact hv) (by rw [← hoff]; exact hb) hw
  rwa [show w.va / 4096 - w.entryDpa % 64 / 8 + w.va / 4096 % 8 = w.va / 4096 by omega] at h

/-- A translation unit as an invalidation's scan begins: its entries are absent from now. -/
def State.invalidated (s : State) (b : Nat) (y : Sync) : Btu :=
  { s.btu b with
    sets := Tab.all (s.btu b).sets (fun _ t => t.filter (fun e => !y.covers e.2.part e.2.context (e.2.vpage * 4096)))
    walkCache := (s.btu b).walkCache.filter (fun e => !y.coversTag e.2)
    roots := if y.all then (s.btu b).roots.filter (fun r => !(r.2.1 == y.part && r.2.2.1 == y.context)) else (s.btu b).roots
    scanning := (s.btu b).scanning ++ [(y.id, s.dram.nextReq)]
    walks := (s.btu b).walks.filter (fun e => !(e.2.part == y.part && e.2.context == y.context)) }

/-- The walks with one of them placed again, from where it starts after an invalidation. -/
def State.placeAgain (s : State) (b : Nat) (y : Sync) (x : Btu) (e : Nat × Walk) : Tab Walk :=
  let f := s.walkFrom { s.invalidated b y with walks := (s.btu b).walks } e.2.part e.2.context e.2.va
  Tab.put x.walks e.1 (s.placeWalk x { e.2 with level := f.1, table := f.2 })

/-- The range of a sync that R263 allows. -/
theorem syncRange_ok {base pages : Nat} {all : Bool} (hal : base % 4096 = 0) (hend : base + pages * 4096 ≤ 2 ^ 48)
    (hall : all = true → base = 0 ∧ pages = 0) (hsome : all = false → pages ≠ 0) :
    (base % 4096 != 0 || decide (2 ^ 48 < base + pages * 4096) || (all && (base != 0 || pages != 0)) || (!all && pages == 0)) = false := by
  have hend' : decide (2 ^ 48 < base + pages * 4096) = false := decide_eq_false (Nat.not_lt.mpr hend)
  cases all with
  | true =>
    obtain ⟨rfl, rfl⟩ := hall rfl
    rfl
  | false => simpa [hal, hsome rfl] using hend

end Sys2Proof.Machine

open Sys2Proof Sys2Proof.Machine Sys2Proof.Spec

/-- Settles O31: each command's branches; an invalidation's look-ups and a leaf line's fill by the lemmas of the translation unit. -/
theorem translationCommands : Obligations.TranslationCommands := by
  refine ⟨fun q r e s hr hq hlive hgen hal hend hall hsome hroom => ?queues, fun q r e s hr hq hlive hgen hal hend hall hsome hfull => ?full,
    fun p y s hy hsent hturn => ?sends, fun b y s hy => ?invalidates, fun b i l s hl hdr => ?acks, fun b i l s hl hdr => ?waits,
    fun p y l q k s hy hring hsent hw hk => ?synced,
    fun b k e wr look s1 st va l s hs1 hst hlook hmiss hslot hfz => ?demand,
    fun b k e wr look s1 st va s hs1 hst hk hslot hun hfz hva => ?prefetch,
    fun b slot w dte s hw hj hrd hc => ?descends, fun b slot w s hw hj hrd hc => ?leaf, fun b slot w c s hw hj hrd hc => ?bad⟩
  case queues =>
    obtain ⟨ring, hring, hpart⟩ := State.front_part hr.1
    have hfull : s.syncsFull e.part = false := decide_eq_false (by omega)
    have hrange := syncRange_ok hal hend hall hsome
    simp only [exec_mirrorSync, execMirrorSync, hring, Option.any_some, hpart, hfull, Bool.false_eq_true, if_false]
    refine congrArg _ (runCmd_ready_later hr ?_)
    simp only [mirrorSyncBody, hq, hlive, hgen, hrange, hfull, ready_ring hr, Bool.not_true, Bool.false_eq_true, if_false]
  case full =>
    obtain ⟨ring, hring, hpart⟩ := State.front_part hr.1
    have hfull' : s.syncsFull e.part = true := decide_eq_true hfull
    have hrange := syncRange_ok hal hend hall hsome
    simp only [exec_mirrorSync, execMirrorSync, hring, Option.any_some, hpart, hfull', if_true]
    refine congrArg _ ((runCmd_ready hr ?_).trans (State.served_zero _ _))
    simp only [mirrorSyncBody, hq, hlive, hgen, hrange, hfull', Bool.not_true, Bool.false_eq_true, if_false, if_true]
  case sends =>
    simp [exec_mirrorSyncSend, execMirrorSyncSend, hy, hsent, hturn]
  case invalidates =>
    simp only [exec_btuInvalidate, execBtuInvalidate, hy]
    obtain ⟨_, hwalks⟩ := Btu.foldl_walks (s.placeAgain b y) ((s.btu b).walks.filter (fun e => e.2.part == y.part && e.2.context == y.context)) (s.invalidated b y)
    refine ⟨_, rfl, rfl, ?_, rfl, fun p c v => ?_⟩
    · rw [State.btu_setBtu]
      exact congrArg Btu.scanning hwalks
    · rw [State.btu_setBtu]
      refine (congrArg (fun x => Btu.lookup x p c v) hwalks).trans ?_
      exact Btu.lookup_invalidate (s.btu b) _ y p c v rfl
  case acks =>
    simp only [exec_btuInvalidateAck, execBtuInvalidateAck, hl, hdr]
    exact ⟨_, rfl, rfl, State.btu_setBtu _ _ _, rfl⟩
  case waits =>
    simp only [exec_btuInvalidateAck, execBtuInvalidateAck, hl, hdr, if_true]
  case synced =>
    have hk' : State.ctx? { s with xlt := { s.xlt with syncs := l } } p y.context = some k := hk
    simp only [exec_mirrorSynced, execMirrorSynced, hy, hring, hsent, hw, hk']
    rfl
  case demand =>
    obtain ⟨x, w, hwalk, hfind, hva, hp, hc, hpf, hreq, hfrom⟩ := State.startWalk_stands s1 b (demandSlot k) (s1.btu b) st va false
    obtain ⟨_, heq⟩ := State.withStream_eq s b k e wr look
    refine ⟨s1.setBtu b x, w, ?_, ?_, by rw [State.btu_setBtu]; exact hfind, hva, hp, hc, hpf, hreq, hfrom⟩
    · simp only [exec_tlbMissWalk, execTlbMissWalk, ← hs1, hst, hlook, hmiss, hslot, hfz, hwalk]
      rfl
    · rw [hs1, heq]
      rfl
  case prefetch =>
    obtain ⟨x, w, hwalk, hfind, hva', hp, hc, hpf, hreq, hfrom⟩ := State.startWalk_stands s1 b (2 * k + 1) (s1.btu b) st va true
    obtain ⟨_, heq⟩ := State.withStream_eq s b k e wr look
    refine ⟨s1.setBtu b x, w, ?_, ?_, by rw [State.btu_setBtu]; exact hfind, hva', hp, hc, hpf⟩
    · simp only [exec_prefetchWalkStart, execPrefetchWalkStart, ← hs1, hst, Nat.not_le.mpr hk, Nat.not_le.mpr hun, hslot, hfz, hva, hwalk]
      rfl
    · rw [hs1, heq]
      rfl
  case descends =>
    simp only [exec_walkReadReturn, execWalkReadReturn, hw, hj, hrd, hc, Bool.not_true, Bool.or_false, Bool.false_eq_true, if_false]
    exact ⟨_, s.placeWalk (s.btu b) { w with level := w.level - 1, table := dteFrame dte }, rfl, rfl, by
      simp only [State.btu_setBtu, Tab.find_put, if_pos, hj, hrd], rfl, rfl, rfl⟩
  case leaf =>
    obtain ⟨hlevel, hv, hb⟩ := State.walkCheck_leaf hc
    simp only [exec_walkReadReturn, execWalkReadReturn, hw, hj, hrd, hc, Bool.not_true, Bool.or_false, Bool.false_eq_true, if_false]
    obtain ⟨hstreams, hwalks⟩ := Btu.fillEntries_keep w w.leafLine { s.btu b with walks := Tab.del (s.btu b).walks slot }
    refine ⟨_, rfl, Btu.dropJoined_has ?_, hstreams, Btu.lookup_leaf _ hlevel hv hb⟩
    rw [Btu.fillLine_eq, hwalks]
    exact (Tab.find_del _ _ _).trans (if_pos rfl)
  case bad =>
    simp only [exec_walkReadReturn, execWalkReadReturn, hw, hj, hrd, hc, Bool.not_true, Bool.or_false, Bool.false_eq_true, if_false]
    have hkeep : ∀ x, x = (if (decide (w.level = 0) && !w.prefetch && w.data.length == 64 && !w.poison) = true then Btu.fillLine { s.btu b with walks := Tab.del (s.btu b).walks slot } w else { s.btu b with walks := Tab.del (s.btu b).walks slot }) →
        x.streams = (s.btu b).streams ∧ Tab.find x.walks slot = none := by
      intro x hx
      have hgone : Tab.find (Tab.del (s.btu b).walks slot) slot = none := (Tab.find_del _ _ _).trans (if_pos rfl)
      split at hx
      · obtain ⟨hstreams, hwalks⟩ := Btu.fillEntries_keep w w.leafLine { s.btu b with walks := Tab.del (s.btu b).walks slot }
        exact hx ▸ ⟨hstreams, (congrArg (Tab.find · slot) hwalks).trans hgone⟩
      · exact hx ▸ ⟨rfl, hgone⟩
    generalize hx : (if (decide (w.level = 0) && !w.prefetch && w.data.length == 64 && !w.poison) = true then _ else _ : Btu) = x
    obtain ⟨hstreams, hgone⟩ := hkeep x hx.symm
    cases hpf : w.prefetch with
    | true => exact ⟨x.dropJoined, Btu.dropJoined_has hgone, fun _ => rfl, fun h => absurd h (by decide)⟩
    | false =>
      exact ⟨{ x.dropJoined with streams := x.dropJoined.streams.filter (fun y => y.2.engine != w.engine) }, Btu.dropJoined_has hgone, fun h => absurd h (by decide),
        fun _ => ⟨congrArg (List.filter _) hstreams, rfl⟩⟩

end

section
/-! Criers and caravans (R175-R185). -/

namespace Sys2Proof.Machine

/-! ### The instructions of this file -/

theorem exec_crierSend {carrier device srcBlock srcOff length dstOff mask} {s : State} : exec (.crierSend carrier device srcBlock srcOff length dstOff mask) s = execCrierSend carrier device srcBlock srcOff length dstOff mask s := rfl
theorem exec_crierStageGrant {r} {s : State} : exec (.crierStageGrant r) s = execCrierStageGrant r s := rfl
theorem exec_deliveryMark {send target} {s : State} : exec (.deliveryMark send target) s = execDeliveryMark send target s := rfl
theorem exec_spineFlitCrcFail {hop flit} {s : State} : exec (.spineFlitCrcFail hop flit) s = execSpineFlitCrcFail hop flit s := rfl
theorem exec_caravanWrite {carrier id off srcBlock srcOff length} {s : State} : exec (.caravanWrite carrier id off srcBlock srcOff length) s = execCaravanWrite carrier id off srcBlock srcOff length s := rfl

/-! ### The instructions of this file -/

open Sys2Proof.Spec

@[simp] theorem State.crier_setCrier (s : State) (r : Nat) (c : Crier) : (s.setCrier r c).crier r = c := (Tab.getD_put _ _ _ _ _).trans (if_pos rfl)

/-- Accesses begun one after the other change the numbering, the accesses and the claims, and the spine only with claims that leave the block. -/
theorem State.foldl_addAccess_eq (a : Nat → Access) (claims : Nat → List (Nat × Nat × Nat × LineOp)) (l : List Nat) (s : State) :
    ∃ n acc cl sp, l.foldl (fun (s : State) k => s.addAccess (a k) (claims k)) s = { s with fab := { s.fab with nextAccess := n, accesses := acc, claims := cl }, spine := sp } ∧
      ((∀ k x, x ∈ claims k → x.2.2.1 ≠ 22) → sp = s.spine) := by
  induction l generalizing s with
  | nil => exact ⟨_, _, _, _, rfl, fun _ => rfl⟩
  | cons k l ih =>
    obtain ⟨_, h1, hsp1⟩ := State.addAccess_eq s (a k) (claims k)
    obtain ⟨_, _, _, _, h2, hsp2⟩ := ih (s.addAccess (a k) (claims k))
    rw [List.foldl_cons, h2, h1]
    exact ⟨_, _, _, _, rfl, fun h => (hsp2 h).trans (by rw [h1]; exact hsp1 (h k))⟩

/-- A stage that is taken is the send's next beats; its source lines are asked for in the block itself. -/
theorem State.takeStage_eq (s : State) (x : CrierSend) : (s.takeStage x).1 = { send := x.id, next := x.beats, stop := min x.total (x.beats + 16) } ∧
    ∃ n acc cl, (s.takeStage x).2 =
      { s with fab := { s.fab with sends := s.fab.sends.map (fun y => if y.id == x.id then { y with beats := min x.total (x.beats + 16) } else y), nextAccess := n, accesses := acc, claims := cl } } := by
  unfold State.takeStage
  cases x.src with
  | none => exact ⟨rfl, _, _, _, rfl⟩
  | some src =>
    obtain ⟨_, _, _, sp, h, hsp⟩ := State.foldl_addAccess_eq
      (fun k => { who := .crierTap x.id, part := x.part, dest := .crier x.id k (sliceKey src.1 (src.2 * 64 + k * 256)) (x.beatBytes k), got := [], left := 0, lost := 0, store := false })
      (fun k => (linesOf (sliceKey src.1 (src.2 * 64 + k * 256)) (x.beatBytes k)).map (fun l => (l / 2 ^ 19, l % 2 ^ 19, 23, LineOp.read)))
      ((List.range (min x.total (x.beats + 16) - x.beats)).map (· + x.beats)) (s.updSend x.id (fun y => { y with beats := min x.total (x.beats + 16) }))
    have hsp' := hsp (fun k y hy => by obtain ⟨_, _, rfl⟩ := List.mem_map.mp hy; exact show (23 : Nat) ≠ 22 by decide)
    exact ⟨rfl, _, _, _, h.trans (by rw [hsp']; rfl)⟩

/-- One more failed check of a flit on a hop is counted, and noted as a replay. -/
theorem State.replay_eq (s : State) (hop flit : Nat) : ∃ t, s.replay hop flit = t ∧ t = { s with spine := t.spine, fab := t.fab } ∧
    t.spine.fails = s.spine.fails.filter (fun x => !(x.1 == hop && x.2.1 == flit)) ++ [(hop, flit, s.failsOf hop flit + 1)] ∧
    t.fab.replays = s.fab.replays + 1 ∧ t.fab.failedHops = s.fab.failedHops := by
  refine ⟨_, rfl, ?_⟩
  unfold State.replay
  dsimp only
  by_cases h : 254 ≤ hop % 256
  · rw [if_pos h]
    exact ⟨rfl, rfl, rfl, rfl⟩
  · rw [if_neg h]
    exact ⟨rfl, rfl, rfl, rfl⟩

theorem State.failsOf_append {s : State} {hop flit n : Nat} {l : List (Nat × Nat × Nat)}
    (h : s.spine.fails = l.filter (fun x => !(x.1 == hop && x.2.1 == flit)) ++ [(hop, flit, n)]) : s.failsOf hop flit = n := by
  have hnone : (l.filter (fun x => !(x.1 == hop && x.2.1 == flit))).find? (fun x => x.1 == hop && x.2.1 == flit) = none := by
    rw [List.find?_eq_none]
    intro x hx
    simpa [Decidable.imp_iff_not_or] using (List.mem_filter.mp hx).2
  unfold State.failsOf
  rw [h, List.find?_append, hnone]
  simp

/-- The least of a list's members and a bound is at most each of them. -/
theorem foldl_min_le {x : Nat} (l : List Nat) (b : Nat) (h : x ∈ l ∨ b ≤ x) : l.foldl min b ≤ x := by
  induction l generalizing b with
  | nil => simpa using h
  | cons y l ih =>
    refine ih _ ?_
    rcases h with h | h
    · rcases List.mem_cons.mp h with rfl | h
      · exact Or.inr (Nat.min_le_right _ _)
      · exact Or.inl h
    · exact Or.inr (Nat.le_trans (Nat.min_le_left _ _) h)

theorem foldl_room_fits {top : Nat} {ms : List (Nat × Nat)} {m : Nat × Nat} (b : Nat) (hm : m ∈ ms) (hbase : m.2 * 64 < top) :
    (ms.map (fun m => top - m.2 * 64)).foldl min b + m.2 * 64 ≤ top := by
  have h := foldl_min_le (ms.map (fun m => top - m.2 * 64)) b (Or.inl (List.mem_map_of_mem hm))
  omega

/-- A caravan's headroom fits behind each of its members' bases (R182). -/
theorem headroom_fits {p r : Nat} {m : Nat × Nat} (hm : m ∈ (caravanOf p r).members) (hbase : m.2 * 64 < ringAreaBase) :
    (caravanOf p r).headroom + m.2 * 64 ≤ ringAreaBase := by
  unfold caravanOf at hm ⊢
  exact foldl_room_fits _ hm hbase

end Sys2Proof.Machine

open Sys2Proof Sys2Proof.Machine Sys2Proof.Spec

/-- Settles O30: each command's branches; a stage's and a caravan stream's source reads change only accesses and claims. -/
theorem crierCommands : Obligations.CrierCommands := by
  refine ⟨fun car dev sb so len dst mask x st b names s hrun hlo hhi hmod hso hdst hb hnames hne hall hsb => ?sends,
    fun car dev sb so len dst mask x st s hrun hlen => ?badLength,
    fun r s hbusy => ?stays, fun r s hcur hend => ⟨fun hheld hsend => ?empty, fun g l hheld hturn => ?device, fun x hheld hsend => ?region⟩,
    fun id b x s hx ht hm htap hdone => ?mark, fun x b s => ?reasons, fun id b k x s hx => ⟨fun hlen => ?kept, fun hlen hwhy => ?complete⟩,
    fun hop flit s hon hfew => ?replayed, fun hop flit s hon hmany hhop hfirst => ?fails,
    fun q r e s hr hn1 hn16 hrsvd hzero hmem hidle => ⟨?defines, fun m hm => headroom_fits hm (hmem m hm).2⟩,
    fun q r e y s hr hrsvd hy => ⟨fun hidle => ?released, fun hflight => ?releaseWaits⟩,
    fun car id off sb so len x st c s hrun hc => ⟨fun hpast => ?past, fun b hoff hso hlen hb hsb hall => ?writes⟩⟩
  case sends =>
    have hlen : ¬ (len < 64 ∨ 1048576 < len ∨ len % 64 ≠ 0) := by omega
    have hfit : ¬ (ringAreaBase < so * 64 + len ∨ ringAreaBase < dst * 64 + len) := by omega
    have hbound : (names.map (s.phys x.part)).any Option.isNone = false := by
      simp only [List.any_map, List.any_eq_false, Function.comp_apply, Option.isNone_iff_eq_none]
      exact fun n hn => Option.isSome_iff_ne_none.mp (hall n hn).1
    have hstill : (sb :: names).any (s.movingName x.part) = false := by
      simp only [List.any_cons, hsb, Bool.false_or, List.any_eq_false]
      exact fun n hn => by simp [(hall n hn).2]
    have hsome : names.isEmpty = false := by simpa using hne
    simp only [exec_crierSend, execCrierSend, hrun, if_neg hlen, if_neg hfit, hb, ← hnames, hbound, hstill, hsome, Bool.false_eq_true, if_false, List.filterMap_map]
    rfl
  case badLength => simp only [exec_crierSend, execCrierSend, hrun, if_pos hlen]
  case stays => simp only [exec_crierStageGrant, execCrierStageGrant, if_pos hbusy]
  case empty =>
    have hgo : ¬ ((s.crier r).cur.isSome = true ∨ s.spine.cycle < (s.crier r).slotEnd) := by simp [hcur, hend]
    simp only [exec_crierStageGrant, execCrierStageGrant, if_neg hgo, slotNow, slotsPassed, hheld, hsend]
  case device =>
    have hgo : ¬ ((s.crier r).cur.isSome = true ∨ s.spine.cycle < (s.crier r).slotEnd) := by simp [hcur, hend]
    simp only [exec_crierStageGrant, execCrierStageGrant, if_neg hgo, hheld]
    cases hsend : s.regionSender r with
    | none => rfl
    | some x =>
      have hrun : runNow s r < 3 := hturn.resolve_right (by simp [hsend])
      exact congrArg _ (if_pos ⟨by simp, hrun⟩)
  case region =>
    have hgo : ¬ ((s.crier r).cur.isSome = true ∨ s.spine.cycle < (s.crier r).slotEnd) := by simp [hcur, hend]
    obtain ⟨hstage, _, _, _, htake⟩ := State.takeStage_eq s x
    have hturn : ¬ ((s.crier r).held ≠ [] ∧ runNow s r < 3) := by
      rintro ⟨h, hlt⟩
      rcases hheld with h' | h'
      · exact h h'
      · omega
    refine ⟨(s.takeStage x).2.setCrier r { slotNow s r with cur := some (s.takeStage x).1, run := 0, last := some x.srcBlock }, ?_, ?_, ?_, ?_, ?_⟩
    · simp only [exec_crierStageGrant, execCrierStageGrant, if_neg hgo, hsend]
      cases hl : (s.crier r).held with
      | nil =>
        simp only [slotNow, hl]
        exact congrArg _ (if_neg (fun h => h.1 rfl))
      | cons g l =>
        simp only [slotNow, hl]
        exact congrArg _ (if_neg (hl ▸ hturn))
    · rw [htake]
      rfl
    · rw [State.crier_setCrier, hstage]
    · rw [htake]
      rfl
    · rw [htake]
      rfl
  case mark =>
    have hgo : (!x.targets.contains b || x.marked.contains b || s.tapBusy id b || (!x.doneIn.contains (x.crierOf b) && x.stopped.isNone)) = false := by
      rcases hdone with h | h
      · simp only [ht, hm, htap, h]
        rfl
      · rw [show x.stopped.isNone = false by cases hs : x.stopped <;> simp_all]
        simp only [ht, hm, htap, Bool.and_false]
        rfl
    simp only [exec_deliveryMark, execDeliveryMark, hx, hgo, Bool.false_eq_true, if_false]
  case reasons =>
    unfold State.markOf
    refine ⟨fun h => if_pos h, fun h hdead => ?_, fun h hdead hruns hdone => ?_, fun h hdead hruns => ?_⟩
    · rw [if_neg (by simp [h]), if_pos hdead]
    · simp only [h, hdead, hruns, hdone]
      simp
    · simp only [h, hdead, hruns]
      simp
  case kept =>
    have hne : ¬ (x.marks ++ [({ block := b, reason := k } : Mark)]).length = x.targets.length := by simpa using hlen
    simp only [State.takeMark, hx, if_neg hne]
  case complete =>
    have heq : (x.marks ++ [({ block := b, reason := k } : Mark)]).length = x.targets.length := by simpa using hlen
    simp only [State.takeMark, hx, if_pos heq, if_pos hwhy]
  case replayed =>
    obtain ⟨t, ht, heq, hfails, hreplays, hhops⟩ := State.replay_eq s hop flit
    refine ⟨t, ?_, heq, State.failsOf_append hfails, hreplays, hhops⟩
    simp only [exec_spineFlitCrcFail, execSpineFlitCrcFail, hon, Bool.true_or, Bool.not_true, Bool.false_eq_true, if_false, if_pos hfew, ht]
  case fails =>
    have hregion : hop / 256 < 6 := by omega
    simp only [exec_spineFlitCrcFail, execSpineFlitCrcFail, hon, Bool.true_or, Bool.not_true, Bool.false_eq_true, if_false, if_neg (Nat.not_lt.mpr hmany), State.failHop, hfirst, if_pos hregion]
    exact ⟨_, rfl, rfl, List.mem_append_right _ List.mem_cons_self, (Tab.getD_put _ _ _ _ _).trans (if_pos rfl)⟩
  case defines =>
    refine congrArg _ (runCmd_ready hr ?_)
    have howned : (caravanOf e.part r.toNat).members.any (fun m => (s.phys e.part m.1).isNone) = false := by
      simp only [List.any_eq_false, Option.isNone_iff_eq_none]
      exact fun m hm => Option.isSome_iff_ne_none.mp (hmem m hm).1
    have hcount : (fld r.toNat 1 4 0 == 0 || decide (16 < fld r.toNat 1 4 0)) = false := by
      simp only [Bool.or_eq_false_iff, beq_eq_false_iff_ne, decide_eq_false_iff_not]
      omega
    have hbase : (caravanOf e.part r.toNat).members.any (fun m => decide (ringAreaBase ≤ m.2 * 64)) = false := by
      simp only [List.any_eq_false, decide_eq_true_eq]
      exact fun m hm => Nat.not_le.mpr (hmem m hm).2
    have hunused : (List.range 16).any (fun i => decide (fld r.toNat 1 4 0 ≤ i) && fldB r.toNat (4 + 4 * i) 4 != 0) = false := by
      simp only [List.any_eq_false, List.mem_range]
      intro i hi
      by_cases hni : fld r.toNat 1 4 0 ≤ i
      · simp [hzero i hni hi]
      · simp [hni]
    simp only [caravanDefineBody, howned, hcount, hbase, hrsvd, hunused, Bool.or_false, Bool.false_eq_true, if_false]
    cases hy : Tab.find s.fab.caravans (cvKey e.part (fldB r.toNat 0 1)) with
    | none => rfl
    | some y => exact if_pos (hidle y hy)
  case released =>
    refine congrArg _ (runCmd_ready hr ?_)
    simp only [caravanReleaseBody, hrsvd, hy, if_pos hidle, done, bne_self_eq_false, Bool.false_eq_true, if_false]
  case releaseWaits =>
    refine congrArg _ (runCmd_ready_later hr ?_)
    simp only [caravanReleaseBody, hrsvd, hy, if_neg hflight, ready_ring hr, bne_self_eq_false, Bool.false_eq_true, if_false]
  case past => simp only [exec_caravanWrite, execCaravanWrite, hrun, hc, if_pos hpast]
  case writes =>
    have hfit : ¬ (c.headroom < off + len ∨ ringAreaBase < so * 64 + len) := by omega
    have hbound : c.members.any (fun m => (s.phys x.part m.1).isNone) = false := by
      simp only [List.any_eq_false, Option.isNone_iff_eq_none]
      exact fun m hm => Option.isSome_iff_ne_none.mp (hall m hm).1
    have hstill : c.members.any (fun m => s.movingName x.part m.1) = false := by
      simp only [List.any_eq_false]
      exact fun m hm => by simp [(hall m hm).2]
    simp only [exec_caravanWrite, execCaravanWrite, hrun, hc, if_neg hfit, hb, Option.isNone_some, hbound, hsb, hstill, Bool.or_false, Bool.false_eq_true, if_false, if_neg (Nat.ne_of_gt hlen), Option.getD_some]
    obtain ⟨_, _, _, _, h, -⟩ := State.foldl_addAccess_eq
      (fun f => { who := .carrier car, part := x.part, dest := .caravan s.fab.nextSend f (sliceKey b (so * 64 + 64 * f)) (min 64 (len - 64 * f)), got := [], left := 0, lost := 0, store := false })
      (fun f => [(b, sliceKey b (so * 64 + 64 * f) / 64 % 2 ^ 19, if b = car / 4 then 24 + car % 4 else 22, LineOp.read)])
      (List.range (cdiv len 64)) _
    refine ⟨_, _, congrArg _ h, rfl, rfl, rfl, rfl, rfl, rfl, rfl, rfl, (Tab.find_put _ _ _ _).trans (if_pos rfl)⟩

end

section
/-! How claims reach the banks of a block (06_slice_memory R163-R170). -/

namespace Sys2Proof.Machine

open Sys2Proof.Spec

/-! ### One CLK_SPN on a quiet spine -/

theorem State.endAccesses_nil {s : State} (h : s.fab.accesses = []) : s.endAccesses = s := by
  unfold State.endAccesses
  rw [h]
  rfl

theorem State.endStreams_nil {s : State} (h : s.fab.streams = []) : s.endStreams = s := by
  unfold State.endStreams
  rw [h]
  rfl

theorem State.issueRead_nil {s : State} {b : Nat} (h : (s.btu b).readSlots = []) : s.issueRead b = s := by
  unfold State.issueRead
  rw [h]
  rfl

/-- With nothing under way a CLK_SPN counts, and ends what is left to end. -/
theorem State.spineCycle_quiet {s : State} (hflits : s.spine.flits = []) (hstreams : s.fab.streams = []) (hsends : s.fab.sends = []) (hbacklog : s.dram.backlog = []) :
    s.spineCycle = (Spec.clkSpn s).endAccesses.endStreams := by
  simp only [State.spineCycle, State.busCycle, hbacklog, hstreams, hsends, hflits, List.isEmpty_nil, if_true, Spec.clkSpn]

/-- A block's cycle with nothing left under way after its banks. -/
theorem exec_sliceAccessComplete_quiet {s t : State} {b : Nat} (hq : Spec.Quiet s b) (hbank : s.bankCycle b = t)
    (hframe : t = { s with fab := t.fab, cell := t.cell, free := t.free }) (hstreams : t.fab.streams = []) (hsends : t.fab.sends = []) :
    exec (.sliceAccessComplete b) s = .next ((Spec.clkSpn t).endAccesses.endStreams) := by
  obtain ⟨hflits, -, -, hbacklog, hslots⟩ := hq
  have hissue : (s.bankCycle b).issueRead b = t := by
    rw [hbank]
    refine State.issueRead_nil ?_
    rw [hframe]
    exact hslots
  refine congrArg Host.Outcome.next ?_
  rw [hissue]
  refine State.spineCycle_quiet ?_ hstreams hsends ?_
  · rw [hframe]
    exact hflits
  · rw [hframe]
    exact hbacklog

/-! ### The claims presented -/

/-- Claims of rising rank: those up to a rank, and those of the next. -/
theorem filter_rank_succ (l : List Claim) (hl : l.Pairwise (fun c d => c.rank < d.rank)) (n : Nat) :
    l.filter (fun c => decide (c.rank ≤ n + 1)) = l.filter (fun c => decide (c.rank ≤ n)) ++ l.filter (fun c => c.rank == n + 1) := by
  induction l with
  | nil => rfl
  | cons c l ih =>
    obtain ⟨hc, hl'⟩ := List.pairwise_cons.mp hl
    have ih := ih hl'
    by_cases h1 : c.rank ≤ n
    · have h2 : c.rank ≤ n + 1 := by omega
      have h3 : ¬ c.rank = n + 1 := by omega
      simp [h1, h2, h3, ih]
    · have hnil : l.filter (fun d => decide (d.rank ≤ n)) = [] := by
        simp only [List.filter_eq_nil_iff, decide_eq_true_eq]
        intro d hd
        have := hc d hd
        omega
      by_cases h3 : c.rank = n + 1
      · simp [h3, ih, hnil]
      · have h2 : ¬ c.rank ≤ n + 1 := by omega
        simp [h1, h2, h3, ih]

/-- At most one claim has a given rank. -/
theorem filter_rank_eq (l : List Claim) (hl : l.Pairwise (fun c d => c.rank < d.rank)) (n : Nat) :
    l.filter (fun c => c.rank == n) = [] ∨ ∃ c, l.filter (fun c => c.rank == n) = [c] := by
  match h : l.filter (fun c => c.rank == n) with
  | [] => exact Or.inl h
  | [c] => exact Or.inr ⟨c, h⟩
  | c :: d :: k =>
    have hp := hl.filter (fun c => c.rank == n)
    have hc : c ∈ l.filter (fun c => c.rank == n) := by simp [h]
    have hd : d ∈ l.filter (fun c => c.rank == n) := by simp [h]
    rw [h] at hp
    have hlt := (List.pairwise_cons.mp hp).1 d List.mem_cons_self
    have h1 := (List.mem_filter.mp hc).2
    have h2 := (List.mem_filter.mp hd).2
    simp only [beq_iff_eq] at h1 h2
    omega

theorem flatMap_ranks (l : List Claim) (hl : l.Pairwise (fun c d => c.rank < d.rank)) (f : Nat → List Claim → List Claim) (hf : ∀ i c, f i [c] = [c]) (hnil : ∀ i, f i [] = [])
    (h1 : ∀ c, c ∈ l → 1 ≤ c.rank) (n : Nat) : (List.range n).flatMap (fun i => f i (l.filter (fun c => c.rank == i + 1))) = l.filter (fun c => decide (c.rank ≤ n)) := by
  induction n with
  | zero =>
    symm
    simp only [List.range_zero, List.flatMap_nil, List.filter_eq_nil_iff, decide_eq_true_eq]
    intro c hc
    have := h1 c hc
    omega
  | succ n ih =>
    rw [List.range_succ, List.flatMap_append, ih, filter_rank_succ l hl, List.flatMap_singleton]
    obtain h | ⟨c, h⟩ := filter_rank_eq l hl (n + 1)
    · rw [h, hnil]
    · rw [h, hf]

theorem rankWidth_pos (rank : Nat) : 0 < (rankWidth rank).1 ∧ 0 < (rankWidth rank).2.1 ∧ 0 < (rankWidth rank).2.2 := by
  unfold rankWidth
  repeat' split
  all_goals exact ⟨by decide, by decide, by decide⟩

/-- One claim fits every requester's width. -/
theorem within_one (rank : Nat) (c : Claim) : within (rankWidth rank) 0 0 [c] = [c] := by
  obtain ⟨h1, h2, h3⟩ := rankWidth_pos rank
  have h3' : ¬ (rankWidth rank).2.2 ≤ 0 + 0 := by omega
  simp only [within, if_neg h3', if_pos h1, if_pos h2, ite_self]

/-- Claims of rising rank that no older one holds back are all presented, in rank order. -/
theorem State.presented_sorted {s : State} {b : Nat} {l : List Claim} (hclear : s.clear [] (s.fab.claims.filter (fun c => c.block == b)) = l)
    (hl : l.Pairwise (fun c d => c.rank < d.rank)) (hr : ∀ c, c ∈ l → 1 ≤ c.rank ∧ c.rank ≤ 28) : s.presented b = l := by
  unfold State.presented
  rw [hclear]
  have h := flatMap_ranks l hl (fun i l => l.filter (·.issued) ++ within (rankWidth (i + 1)) 0 0 (l.filter (fun c => !c.issued))) (fun i c => ?_) (fun i => rfl) (fun c hc => (hr c hc).1) 28
  · refine h.trans (List.filter_eq_self.mpr fun c hc => ?_)
    simpa using (hr c hc).2
  · cases hc : c.issued
    · simp [hc, within_one]
    · simp [hc, within]

/-! ### What the slices grant -/

theorem sliceOf_lt (n : Nat) : sliceOf n < 16 := Nat.xor_lt_two_pow (n := 4) (Nat.mod_lt _ (by decide)) (Nat.mod_lt _ (by decide))

/-- Grants gathered slice by slice. -/
theorem foldl_granted (f : Nat → Granted) (l : List Nat) (g : Granted) :
    l.foldl (fun (g : Granted) i => { performed := g.performed ++ (f i).performed, lost := g.lost ++ (f i).lost, hold := g.hold ++ (f i).hold }) g =
      { performed := g.performed ++ l.flatMap (fun i => (f i).performed), lost := g.lost ++ l.flatMap (fun i => (f i).lost), hold := g.hold ++ l.flatMap (fun i => (f i).hold) } := by
  induction l generalizing g with
  | nil => simp
  | cons i l ih =>
    rw [List.foldl_cons, ih]
    simp [List.append_assoc]

/-- A list gathered over a range from one place. -/
theorem flatMap_range_single {α : Type} (f : Nat → List α) (n k : Nat) (hk : k < n) (h : ∀ i, i < n → i ≠ k → f i = []) : (List.range n).flatMap f = f k := by
  induction n with
  | zero => cases hk
  | succ n ih =>
    rw [List.range_succ, List.flatMap_append, List.flatMap_singleton]
    obtain hlt | rfl := Nat.lt_succ_iff_lt_or_eq.mp hk
    · rw [ih hlt (fun i hi => h i (by omega)), h n (by omega) (by omega), List.append_nil]
    · have : (List.range k).flatMap f = [] := by
        rw [List.flatMap_eq_nil_iff]
        intro i hi
        have := List.mem_range.mp hi
        exact h i (by omega) (by omega)
      rw [this, List.nil_append]

theorem grantSlice_nil (n : Nat) (busy : List Nat) : grantSlice n busy [] = { performed := [], lost := [], hold := [] } := by
  cases n <;> rfl

/-- What one slice of a block grants, with its banks numbered in the device. -/
def granted (b i : Nat) (l : List Claim) : Granted :=
  { performed := (grantSlice 2 [] l).performed, lost := (grantSlice 2 [] l).lost, hold := (grantSlice 2 [] l).hold.map (fun k => b * 128 + i * 8 + k) }

/-- With no bank held, claims of one line of one slice are granted by that slice alone. -/
theorem State.grantBlock_line {s : State} {b line : Nat} {l : List Claim} {g : Granted} (hp : s.presented b = l) (hhold : s.fab.bankHold = []) (hbelow : ∀ c, c ∈ l → belowAtomic l c = false)
    (hline : ∀ c, c ∈ l → c.line = line) (hg : grantSlice 2 [] l = g) :
    s.grantBlock b = { performed := g.performed, lost := g.lost, hold := g.hold.map (fun k => b * 128 + sliceOf line * 8 + k) } := by
  have hcs : l.filter (fun c => !belowAtomic l c) = l := List.filter_eq_self.mpr fun c hc => by simp [hbelow c hc]
  have hlost : l.filter (belowAtomic l) = [] := List.filter_eq_nil_iff.mpr fun c hc => by simp [hbelow c hc]
  have hat : ∀ i, i ≠ sliceOf line → l.filter (fun c => sliceOf c.line == i) = [] := fun i hi => List.filter_eq_nil_iff.mpr fun c hc => by
    rw [hline c hc]
    simpa using fun h => hi h.symm
  have hself : l.filter (fun c => sliceOf c.line == sliceOf line) = l := List.filter_eq_self.mpr fun c hc => by
    rw [hline c hc]
    exact beq_self_eq_true _
  unfold State.grantBlock
  simp only [hp, hhold, hcs, hlost, List.filter_nil, List.map_nil, List.length_nil, Nat.sub_zero]
  refine (foldl_granted (fun i => granted b i (l.filter (fun c => sliceOf c.line == i))) _ _).trans ?_
  have hnil : ∀ i, i < 16 → i ≠ sliceOf line → granted b i (l.filter (fun c => sliceOf c.line == i)) = { performed := [], lost := [], hold := [] } := fun i _ hi => by
    rw [hat i hi, granted, grantSlice_nil]
    rfl
  rw [flatMap_range_single _ 16 _ (sliceOf_lt line) (fun i h hi => by rw [hnil i h hi]), flatMap_range_single _ 16 _ (sliceOf_lt line) (fun i h hi => by rw [hnil i h hi]),
    flatMap_range_single _ 16 _ (sliceOf_lt line) (fun i h hi => by rw [hnil i h hi]), hself, granted, hg]
  rfl

end Sys2Proof.Machine

end

section
/-! One cycle of a block's banks, and how claims reach them (R163-R170). -/

namespace Sys2Proof.Machine

/-! ### The instructions of this file -/

theorem exec_slicePatrolScrub {block slice bank corrected} {s : State} : exec (.slicePatrolScrub block slice bank corrected) s = execSlicePatrolScrub block slice bank corrected s := rfl

/-! ### The instructions of this file -/

open Sys2Proof.Spec

/-! ### Accesses that end -/

/-- Only cells, the accesses in progress and the notes on data that arrived change; no send and no stream begins. -/
def Ends (s t : State) : Prop :=
  ∃ cell free accesses lost status sends streams,
    t = { s with cell := cell, free := free, fab := { s.fab with accesses := accesses, lostWrites := lost, streamStatus := status, sends := sends, streams := streams } } ∧
    (s.fab.sends = [] → sends = []) ∧ (s.fab.streams = [] → streams = [])

theorem Ends.refl (s : State) : Ends s s := ⟨_, _, _, _, _, _, _, rfl, id, id⟩

theorem Ends.trans {s t u : State} (h1 : Ends s t) (h2 : Ends t u) : Ends s u := by
  obtain ⟨_, _, _, _, _, _, _, rfl, hsends1, hstreams1⟩ := h1
  obtain ⟨_, _, _, _, _, _, _, rfl, hsends2, hstreams2⟩ := h2
  exact ⟨_, _, _, _, _, _, _, rfl, fun h => hsends2 (hsends1 h), fun h => hstreams2 (hstreams1 h)⟩

theorem Ends.claims {s t : State} (h : Ends s t) : t.fab.claims = s.fab.claims ∧ t.fab.slices = s.fab.slices := by
  obtain ⟨_, _, _, _, _, _, _, rfl, -, -⟩ := h
  exact ⟨rfl, rfl⟩

theorem Ends.frame {s t : State} (h : Ends s t) : t = { s with fab := t.fab, cell := t.cell, free := t.free } := by
  obtain ⟨_, _, _, _, _, _, _, rfl, -, -⟩ := h
  rfl

theorem Ends.quiet {s t : State} (h : Ends s t) (hstreams : s.fab.streams = []) (hsends : s.fab.sends = []) : t.fab.streams = [] ∧ t.fab.sends = [] := by
  obtain ⟨_, _, _, _, _, _, _, rfl, h1, h2⟩ := h
  exact ⟨h2 hstreams, h1 hsends⟩

theorem Ends.deliver (s : State) (c : Nat) (a : Access) : Ends s (s.deliver c a) := by
  unfold State.deliver
  cases a.dest with
  | none => exact .refl s
  | mstore tile => exact .refl s
  | crier n k key m => exact ⟨_, _, _, _, _, _, _, rfl, fun h => by rw [h]; rfl, id⟩
  | caravan n k key m => exact ⟨_, _, _, _, _, _, _, rfl, id, fun h => by rw [h]; rfl⟩
  | vreg r ty mask key => exact ⟨_, _, _, _, _, _, _, rfl, id, id⟩
  | areg r key => exact ⟨_, _, _, _, _, _, _, rfl, id, id⟩
  | sreg r n signed key => exact ⟨_, _, _, _, _, _, _, rfl, id, id⟩
  | samo r n key => exact ⟨_, _, _, _, _, _, _, rfl, id, id⟩
  | mload l => exact ⟨_, _, _, _, _, _, _, rfl, id, id⟩

theorem Ends.reportLost (s : State) (w : Requester) (n : Nat) : Ends s (s.reportLost w n) := by
  unfold State.reportLost
  split
  · split <;> exact ⟨_, _, _, _, _, _, _, rfl, id, id⟩
  · exact ⟨_, _, _, _, _, _, _, rfl, id, id⟩
  · exact .refl s

theorem Ends.endAccess (s : State) (n : Nat) (a : Access) : Ends s (s.endAccess n a) := by
  have hgone : Ends s { s with fab := { s.fab with accesses := Tab.del s.fab.accesses n } } := ⟨_, _, _, _, _, _, _, rfl, id, id⟩
  have hlost := Ends.reportLost { s with fab := { s.fab with accesses := Tab.del s.fab.accesses n } } a.who a.lost
  unfold State.endAccess
  dsimp only
  have hreported : Ends s (if a.lost = 0 then { s with fab := { s.fab with accesses := Tab.del s.fab.accesses n } } else State.reportLost { s with fab := { s.fab with accesses := Tab.del s.fab.accesses n } } a.who a.lost) := by
    split
    · exact hgone
    · exact hgone.trans hlost
  split <;> exact hreported.trans (.deliver _ _ a)

theorem Ends.endAccesses (s : State) : Ends s s.endAccesses := by
  unfold State.endAccesses
  generalize s.fab.accesses.filter (fun x => x.2.left == 0) = l
  induction l generalizing s with
  | nil => exact .refl s
  | cons x l ih => exact (Ends.endAccess s x.1 x.2).trans (ih _)

/-! ### One cycle of the banks -/

/-- The violation that a claim at a block's banks is. -/
def violationOf (b : Nat) (c : Claim) : Option (Claim × Nat) :=
  if c.block = b then (match c.op with | .violation va => some (c, va) | _ => none) else none

theorem violationOf_none {c : Claim} (b : Nat) (h : ∀ va, c.op ≠ .violation va) : violationOf b c = none := by
  unfold violationOf
  split
  · split
    next va hva => exact absurd hva (h va)
    · rfl
  · rfl

/-- A block's cycle once violations have gone: what its banks grant. -/
def State.grantClaims (s : State) (b : Nat) : State :=
  let g := s.grantBlock b
  (g.lost.foldl State.loseClaim (g.performed.foldl State.performClaim
    { s with fab := { s.fab with
        claims := (s.fab.claims.filter (fun c => !(g.performed ++ g.lost).contains c)).map (fun c => if (s.presented b).contains c then { c with issued := true } else c)
        bankHold := s.fab.bankHold.filter (fun h => h / 128 != b) ++ g.hold } })).endAccesses

theorem State.bankCycle_runs {s : State} {b : Nat} (hruns : s.blockRuns b = true) :
    s.bankCycle b = ((s.fab.claims.filterMap (violationOf b)).foldl (fun (s : State) (x : Claim × Nat) => s.violate x.1 x.2) s).grantClaims b := by
  unfold State.bankCycle
  rw [if_neg (by rw [hruns]; decide)]
  dsimp only
  generalize hv : List.filterMap _ s.fab.claims = viol
  have hviol : s.fab.claims.filterMap (violationOf b) = viol := hv
  rw [hviol]
  unfold State.grantClaims
  rfl

/-- Claims that violate nothing are granted, performed or discarded, and are gone. -/
theorem State.bankCycle_grants {s : State} {b : Nat} {g : Granted} (hruns : s.blockRuns b = true) (hviol : ∀ c, c ∈ s.fab.claims → ∀ va, c.op ≠ .violation va)
    (hg : s.grantBlock b = g) (hall : ∀ c, c ∈ s.fab.claims → c ∈ g.performed ++ g.lost) (hhold : s.fab.bankHold = []) :
    s.bankCycle b = (g.lost.foldl State.loseClaim (g.performed.foldl State.performClaim
      { s with fab := { s.fab with claims := [], bankHold := s.fab.bankHold ++ g.hold } })).endAccesses := by
  have hnone : s.fab.claims.filterMap (violationOf b) = [] := List.filterMap_eq_nil_iff.mpr fun c hc => violationOf_none b (hviol c hc)
  have hgone : s.fab.claims.filter (fun c => !(g.performed ++ g.lost).contains c) = [] := by
    rw [List.filter_eq_nil_iff]
    intro c hc
    simp only [List.contains_eq_mem, hall c hc, decide_true, Bool.not_true, Bool.false_eq_true, not_false_eq_true]
  have hkeep : s.fab.bankHold.filter (fun h => h / 128 != b) = s.fab.bankHold := by rw [hhold]; rfl
  rw [State.bankCycle_runs hruns, hnone, List.foldl_nil]
  unfold State.grantClaims
  dsimp only
  rw [hg, hgone, hkeep, List.map_nil]

/-- A claim that ranks above no atomic of its line is not below one. -/
theorem belowAtomic_alone (c : Claim) : belowAtomic [c] c = false := by simp [belowAtomic]

/-- What a lone claim holds of its bank in the next cycle. -/
def Claim.holds (c : Claim) (b : Nat) : List Nat := if c.op.isAtomic then [b * 128 + sliceOf c.line * 8 + bankOf c.line] else []

theorem grantSlice_one (n : Nat) (c : Claim) (hop : c.op.isRead = true ∨ c.op.isWrite = true ∨ c.op.isAtomic = true) :
    grantSlice (n + 1) [] [c] = { performed := [c], lost := [], hold := if c.op.isAtomic then [bankOf c.line] else [] } := by
  unfold grantSlice
  cases hc : c.op with
  | read => simp [hc, LineOp.isRead, LineOp.isAtomic, grantSlice_nil]
  | write bs => simp [hc, LineOp.isRead, LineOp.isWrite, LineOp.isAtomic, mergeWrites, overlapMask, grantSlice_nil]
  | atomic lo sub op => simp [hc, LineOp.isRead, LineOp.isWrite, LineOp.isAtomic, grantSlice_nil]
  | adds sub ws => simp [hc, LineOp.isRead, LineOp.isWrite, LineOp.isAtomic, grantSlice_nil]
  | violation va => simp [hc, LineOp.isRead, LineOp.isWrite, LineOp.isAtomic] at hop

/-- A claim alone at its banks is performed. -/
theorem State.bankCycle_alone {s : State} {b n : Nat} {c : Claim} {a : Access} (h : Alone s b c n a) (hop : c.op.isRead = true ∨ c.op.isWrite = true ∨ c.op.isAtomic = true) :
    s.bankCycle b = (State.performClaim { s with fab := { s.fab with claims := [], bankHold := s.fab.bankHold ++ c.holds b } } c).endAccesses := by
  obtain ⟨hruns, hclaims, hblock, hhold, -, -, hlo, hhi, -, -, -⟩ := h
  have hhere : s.fab.claims.filter (fun d => d.block == b) = [c] := by simp [hclaims, hblock]
  have hpres : s.presented b = [c] := State.presented_sorted (by rw [hhere]; rfl) (List.pairwise_singleton _ _) (fun d hd => by rw [List.mem_singleton.mp hd]; exact ⟨hlo, hhi⟩)
  have hgrant := State.grantBlock_line (line := c.line) hpres hhold (fun d hd => by rw [List.mem_singleton.mp hd]; exact belowAtomic_alone c)
    (fun d hd => by rw [List.mem_singleton.mp hd]) (grantSlice_one 1 c hop)
  refine (State.bankCycle_grants hruns (fun d hd va hva => ?_) hgrant (fun d hd => by rwa [hclaims] at hd) hhold).trans ?_
  · rw [hclaims] at hd
    rw [← List.mem_singleton.mp hd, hva] at hop
    simp [LineOp.isRead, LineOp.isWrite, LineOp.isAtomic] at hop
  · unfold Claim.holds
    cases c.op.isAtomic <;> rfl

/-- Of two overlapping writes of one line the lower rank is performed and the other discarded (R165). -/
theorem grantSlice_two {c d : Claim} {bs cs : List (Nat × BitVec 8)} (n : Nat) (hline : c.line = d.line) (hc : c.op = .write bs) (hd : d.op = .write cs) (hover : overlapMask d.op.mask c.op.mask = true) :
    grantSlice (n + 1) [] [c, d] = { performed := [c], lost := [d], hold := [] } := by
  have hfree : overlapMask c.op.mask [] = false := by simp [overlapMask]
  have hmerge : mergeWrites [] [c, d] = ([c], [d]) := by simp only [mergeWrites, hfree, List.nil_append, hover, if_true, Bool.false_eq_true, if_false]
  unfold grantSlice
  simp [hline, hc, hd, LineOp.isRead, LineOp.isWrite, hmerge, grantSlice_nil]

/-- Two overlapping writes of two requesters: both claims are gone in one cycle. -/
theorem State.bankCycle_two {s : State} {b : Nat} {c d : Claim} {bs cs : List (Nat × BitVec 8)} (hruns : s.blockRuns b = true) (hclaims : s.fab.claims = [c, d]) (hcb : c.block = b) (hdb : d.block = b)
    (hhold : s.fab.bankHold = []) (hlo : 1 ≤ c.rank) (hlt : c.rank < d.rank) (hhi : d.rank ≤ 28) (hline : c.line = d.line) (hwho : s.whoOf c ≠ s.whoOf d)
    (hc : c.op = .write bs) (hd : d.op = .write cs) (hover : overlapMask d.op.mask c.op.mask = true) :
    s.bankCycle b = ((State.performClaim { s with fab := { s.fab with claims := [], bankHold := s.fab.bankHold ++ [] } } c).loseClaim d).endAccesses := by
  have hhere : s.fab.claims.filter (fun x => x.block == b) = [c, d] := by simp [hclaims, hcb, hdb]
  have hfree : s.heldBack [c] d = false := by simp [State.heldBack, hwho]
  have hclear : s.clear [] [c, d] = [c, d] := by
    simp only [State.clear, List.nil_append, hfree]
    rfl
  have hboth : ∀ x, x ∈ [c, d] → x = c ∨ x = d := fun x hx => by simpa using hx
  have hpres : s.presented b = [c, d] := State.presented_sorted (by rw [hhere, hclear]) (by simpa using hlt)
    (fun x hx => by rcases hboth x hx with rfl | rfl <;> omega)
  have hbelow : ∀ x, belowAtomic [c, d] x = false := fun x => by simp [belowAtomic, hc, hd, LineOp.isAtomic]
  have hgrant := State.grantBlock_line (line := d.line) hpres hhold (fun x _ => hbelow x) (fun x hx => (hboth x hx).elim (fun h => (congrArg Claim.line h).trans hline) (congrArg Claim.line)) (grantSlice_two 1 hline hc hd hover)
  refine State.bankCycle_grants hruns (fun x hx va hva => ?_) hgrant (fun x hx => by rwa [hclaims] at hx) hhold
  rw [hclaims] at hx
  rcases hboth x hx with rfl | rfl
  · rw [hc] at hva
    contradiction
  · rw [hd] at hva
    contradiction

/-! ### What a claim's answer brings -/

/-- A claim of the block's own requester is answered at the crossbar. -/
theorem State.answerClaim_own {s : State} {c : Claim} (h : c.rank ≠ 22) (bs : List (Nat × BitVec 8)) (lost : Bool) : s.answerClaim c bs lost = s.lineDone c.access bs lost := if_neg h

/-- An access whose only line is done. -/
theorem State.endAccesses_one {s : State} {n : Nat} {a : Access} (h : s.fab.accesses = [(n, a)]) (hleft : a.left = 0) : s.endAccesses = s.endAccess n a := by
  unfold State.endAccesses
  rw [h]
  simp [hleft]

theorem Tab.del_one {α : Type} (n : Nat) (a : α) : Tab.del [(n, a)] n = [] := by simp [Tab.del]

/-- An access that wants no data and lost nothing ends without a trace. -/
theorem State.endAccess_quiet {s : State} {n : Nat} {a : Access} (h : s.fab.accesses = [(n, a)]) (hlost : a.lost = 0) (hdest : a.dest = .none) :
    s.endAccess n a = { s with fab := { s.fab with accesses := [] } } := by
  have hdel : Tab.del s.fab.accesses n = [] := by rw [h]; exact Tab.del_one n a
  unfold State.endAccess
  simp only [hlost, if_true, State.deliver, hdest, hdel]
  split <;> rfl

theorem Tab.upd_one {α : Type} (n : Nat) (a : α) (f : α → α) : Tab.upd [(n, a)] n f = [(n, f a)] := by simp [Tab.upd, Tab.find, Tab.put]

/-- The only access gathers what a claim of it brought. -/
theorem State.lineDone_one {s : State} {n : Nat} {a : Access} (h : s.fab.accesses = [(n, a)]) (bs : List (Nat × BitVec 8)) :
    s.lineDone n bs false =
      { s with fab := { s.fab with accesses := [(n, { a with left := a.left - 1, lost := a.lost, got := bs.foldl (fun (m : Sys2Proof.Mem) x => Memory.write m x.1 x.2) a.got })] } } := by
  unfold State.lineDone
  rw [h, Tab.upd_one]
  rfl

/-- The only access, which wants no data, ends with its last line. -/
theorem State.lineDone_ends {s : State} {n : Nat} {a : Access} (h : s.fab.accesses = [(n, a)]) (hleft : a.left = 1) (hlost : a.lost = 0) (hdest : a.dest = .none) (bs : List (Nat × BitVec 8)) :
    (s.lineDone n bs false).endAccesses = { s with fab := { s.fab with accesses := [] } } := by
  rw [State.lineDone_one h, State.endAccesses_one rfl (by rw [hleft]), State.endAccess_quiet rfl (by exact hlost) (by exact hdest)]

/-- A write is performed and one of another requester discarded: the slices hold the first's bytes, and both accesses have one line less. -/
theorem State.loseClaim_write {s : State} {c d : Claim} {bs : List (Nat × BitVec 8)} (hc22 : c.rank ≠ 22) (hd22 : d.rank ≠ 22) (hc : c.op = .write bs) (hsends : s.fab.sends = []) :
    ∃ accesses, (s.performClaim c).loseClaim d = { s with fab := { s.fab with slices := wrote s c.block c bs, accesses := accesses } } := by
  simp only [State.performClaim, hc, State.answerClaim_own hc22, State.loseClaim, State.answerClaim_own hd22]
  split
  · simp only [State.lineDone, hsends, List.map_nil]
    exact ⟨_, by rw [← hsends]; rfl⟩
  · exact ⟨_, rfl⟩

/-- Writing bytes at their keys writes them in a row. -/
theorem Memory.foldl_keyed_writeL (m : Sys2Proof.Mem) (base : Nat) (l : List (BitVec 8)) : (keyed base l).foldl (fun (g : Sys2Proof.Mem) x => Memory.write g x.1 x.2) m = Memory.writeL m base l := by
  induction l generalizing m base with
  | nil => rfl
  | cons b l ih =>
    rw [keyed_cons, List.foldl_cons, ih]
    rfl

theorem Memory.readL_length (m : Sys2Proof.Mem) (a n : Nat) : (Memory.readL m a n).length = n := by
  induction n generalizing a with
  | zero => rfl
  | succ n ih => rw [Memory.readL, List.length_cons, ih]

theorem Memory.readL_getD (m : Sys2Proof.Mem) {a n i : Nat} (h : i < n) : (Memory.readL m a n).getD i 0 = Memory.read m (a + i) := by
  induction n generalizing a i with
  | zero => exact absurd h (Nat.not_lt_zero i)
  | succ n ih =>
    cases i with
    | zero => rfl
    | succ i => rw [Memory.readL, List.getD_cons_succ, ih (by omega), Nat.add_assoc, Nat.add_comm 1]

/-- Bytes of a line that an access has gathered read as the line's. -/
theorem read_gathered (m : Sys2Proof.Mem) {key base n : Nat} (h1 : base ≤ key) (h2 : key < base + n) :
    Memory.read ((keyed base (Memory.readL m base n)).foldl (fun (g : Sys2Proof.Mem) x => Memory.write g x.1 x.2) []) key = Memory.read m key := by
  have h := Memory.read_writeL (m := []) rfl base (key - base) (Memory.readL m base n) (by rw [Memory.readL_length]; omega)
  rw [Memory.foldl_keyed_writeL]
  rwa [Memory.readL_getD m (by omega), show base + (key - base) = key by omega] at h

end Sys2Proof.Machine

open Sys2Proof Sys2Proof.Machine Sys2Proof.Spec

/-- Settles O29: a claim alone at its banks is performed; of two overlapping writes the lower rank is; a block in a wipe grants nothing. -/
theorem sliceAccesses : Obligations.SliceAccesses := by
  refine ⟨fun b c n a bs s hq h hdest hop => ?writes, fun b c n a lo sub op s hq h hdest hop => ?atomics, fun b c n a k r sz key s hq h hgot hwho hdest hop hr hkey hfit => ?reads,
    fun b c d bs cs s hq hruns hclaims hcb hdb hhold hlo hlt hhi hc22 hd22 hline hwho hc hd hover => ?loses, fun b s hq hwipe hacc => ?wiped,
    fun b sl bank corr s hruns hclaims hhold hsl hbank => ?scrubs⟩
  case writes =>
    obtain ⟨-, hstreams, hsends, -, -⟩ := id hq
    obtain ⟨-, -, hblock, -, hacc, hn, -, -, h22, hleft, hlost⟩ := id h
    have hbank : s.bankCycle b = { s with fab := { s.fab with claims := [], accesses := [], slices := wrote s b c bs } } := by
      rw [State.bankCycle_alone h (by simp [hop, LineOp.isWrite])]
      simp only [State.performClaim, Claim.holds, hop, LineOp.isAtomic, Bool.false_eq_true, if_false, List.append_nil, State.answerClaim_own h22, hn]
      rw [State.lineDone_ends (by exact hacc) hleft hlost hdest, wrote, hblock]
    refine (exec_sliceAccessComplete_quiet hq hbank rfl hstreams hsends).trans ?_
    rw [State.endAccesses_nil rfl, State.endStreams_nil (by exact hstreams)]
  case atomics =>
    obtain ⟨-, hstreams, hsends, -, -⟩ := id hq
    obtain ⟨-, -, hblock, hhold, hacc, hn, -, -, h22, hleft, hlost⟩ := id h
    have hbank := State.bankCycle_alone h (by simp [hop, LineOp.isAtomic])
    simp only [State.performClaim, Claim.holds, hop, LineOp.isAtomic, if_true, hhold, List.nil_append, State.answerClaim_own h22, hn, hblock] at hbank
    rw [State.lineDone_ends (by exact hacc) hleft hlost hdest] at hbank
    refine (exec_sliceAccessComplete_quiet hq hbank rfl hstreams hsends).trans ?_
    rw [State.endAccesses_nil rfl, State.endStreams_nil (by exact hstreams)]
  case reads =>
    obtain ⟨-, hstreams, hsends, -, -⟩ := id hq
    obtain ⟨-, -, hblock, -, hacc, hn, -, -, h22, hleft, hlost⟩ := id h
    have hbank := State.bankCycle_alone h (by simp [hop, LineOp.isRead])
    simp only [State.performClaim, Claim.holds, hop, LineOp.isAtomic, Bool.false_eq_true, if_false, List.append_nil, State.answerClaim_own h22, hn] at hbank
    rw [State.lineDone_one (by exact hacc), State.endAccesses_one rfl (by rw [hleft])] at hbank
    simp only [State.endAccess, hlost, if_true, hwho, State.deliver, hdest, hgot, State.lineBytes, hblock, extend, Bool.false_eq_true, if_false] at hbank
    have hword : Memory.readN ((keyed (sliceKey b (c.line * 64)) (Memory.readL s.fab.slices (sliceKey b (c.line * 64)) 64)).foldl (fun (m : Sys2Proof.Mem) x => Memory.write m x.1 x.2) []) key sz = Memory.readN s.fab.slices key sz :=
      Memory.readN_congr _ _ (fun i h1 h2 => read_gathered _ (by omega) (by omega))
    rw [hword, Tab.del_one] at hbank
    have hbank' : s.bankCycle b = State.setS { s with fab := { s.fab with claims := [], accesses := [] } } k
        { ((s.scell k).setR r (Memory.readN s.fab.slices key sz)) with pend := (s.scell k).pend.erase r } := hbank
    refine ⟨_, (exec_sliceAccessComplete_quiet hq hbank' rfl hstreams hsends).trans
      (by rw [State.endAccesses_nil rfl, State.endStreams_nil (by exact hstreams)]), rfl, ?_, fun q hqr => ?_⟩
    · refine (congrArg (SCell.reg · r) ((State.scell_setS _ _ _ _).trans (if_pos rfl))).trans ?_
      exact (SCell.reg_setR _ _ _ _).trans (if_pos ⟨rfl, hr⟩)
    · refine (congrArg (SCell.reg · q) ((State.scell_setS _ _ _ _).trans (if_pos rfl))).trans ?_
      exact (SCell.reg_setR _ _ _ _).trans (if_neg fun h => hqr h.1)
  case loses =>
    obtain ⟨-, hstreams, hsends, -, -⟩ := id hq
    obtain ⟨_, hu⟩ := State.loseClaim_write (s := { s with fab := { s.fab with claims := [], bankHold := s.fab.bankHold ++ [] } }) hc22 hd22 hc hsends
    have hbank := State.bankCycle_two hruns hclaims hcb hdb hhold hlo hlt hhi hline hwho hc hd hover
    rw [hu, hcb] at hbank
    generalize hw : ({ s with fab := _ } : State) = w at hbank
    have hends := Ends.endAccesses w
    obtain ⟨hstreams', hsends'⟩ := hends.quiet (by rw [← hw]; exact hstreams) (by rw [← hw]; exact hsends)
    have hlast := Ends.endAccesses (clkSpn w.endAccesses)
    have hnil := State.endStreams_nil (hlast.quiet hstreams' hsends').1
    obtain ⟨hclaims1, hslices1⟩ := hends.claims
    obtain ⟨hclaims2, hslices2⟩ := hlast.claims
    refine ⟨_, exec_sliceAccessComplete_quiet hq hbank (hends.frame.trans (by rw [← hw])) hstreams' hsends', ?_, ?_⟩
    · rw [hnil, hclaims2]
      exact hclaims1.trans (by rw [← hw])
    · rw [hnil, hslices2]
      exact hslices1.trans (by rw [← hw]; rfl)
  case wiped =>
    obtain ⟨-, hstreams, hsends, -, -⟩ := id hq
    have hstops : s.blockRuns b = false := by rw [State.blockRuns, Option.isNone_eq_false_iff.mpr hwipe, Bool.and_false]
    have hbank : s.bankCycle b = { s with fab := { s.fab with claims := s.fab.claims.filter (fun c => !(c.block == b && c.rank == 22)) } } := by
      simp only [State.bankCycle, hstops, hwipe, Bool.and_true, Bool.not_false, if_true]
    refine (exec_sliceAccessComplete_quiet hq hbank rfl hstreams hsends).trans ?_
    rw [State.endAccesses_nil (by exact hacc), State.endStreams_nil (by exact hstreams)]
  case scrubs =>
    have hgo : (s.fab.claims.any (fun c => c.block == b && sliceOf c.line == sl && bankOf c.line == bank) || !s.blockRuns b || s.fab.bankHold.contains (b * 128 + sl * 8 + bank) || decide (16 ≤ sl) || decide (8 ≤ bank)) = false := by
      simp [hclaims, hruns, hhold, hsl, hbank]
    simp only [exec_slicePatrolScrub, execSlicePatrolScrub, hgo, Bool.false_eq_true, if_false]
    refine ⟨_, rfl, ?_, (get0_put0 _ _ _ _).trans (if_pos rfl)⟩
    cases corr <;> rfl
end
